-- ==== Sys2Proof/Word.lean ====
section
/-!
DEFINITION. Word types and the plain records that commands and state share:
ledger entries (Table 13-4), Kennel slots (Table 9-8), delta records (Table 14-1) and heartbeats (R324).
-/

namespace Sys2Proof

/-- One byte. -/
abbrev Byte := BitVec 8
/-- The metadata bus of an item, 1,024 bits (R104). -/
abbrev Bus := BitVec 1024
/-- One stage or ternary word of 64 bytes (R110). -/
abbrev Word512 := BitVec 512
/-- A sparse store: keys strictly rising, absent keys read a default. -/
abbrev Sparse (α : Type) := List (Nat × α)

/-- Ledger entry states (13 R304, Table 13-5). FREE entries are not listed in the ledger. -/
inductive LedState where
  | free | accepted | running | stopping | done | quarantined
deriving DecidableEq, Repr

/-- Kinds of accepted work (13 R299, Table 13-1). -/
inductive LedKind where
  | host | table | kennel | object | frame
deriving DecidableEq, Repr

/-- The order queue of a unit (Table 13-1, QUEUE of Table 13-4). -/
inductive OrdQ where
  /-- Queue pair `qp` of a slice, or of the infrastructure on link `link`. -/
  | host (infra : Bool) (slice link qp : Nat)
  /-- Command window 0–7. -/
  | window (w : Nat)
  /-- Kennel issuer: 0–15 cluster, 16 DMA engine, 17 control cores. -/
  | kennel (issuer : Nat)
  /-- Uhlist session of a transport. -/
  | session (transport num : Nat)
  /-- Sheepdog queue. -/
  | frame (queue : Nat)
deriving DecidableEq, Repr

/-- REF of Table 13-4. -/
inductive LedRef where
  | host (sqIndex position : Nat) (phase held : Bool)
  | frame (handle : Nat)
  | reply (ref : Nat)
deriving DecidableEq, Repr

/-- A ledger entry (13 R303, Table 13-4). -/
structure LedEntry where
  state   : LedState
  kind    : LedKind
  restart : Bool
  attempt : Nat
  queue   : OrdQ
  seq     : Nat
  slice   : Nat
  infra   : Bool
  status  : BitVec 8
  detail  : BitVec 8
  acceptBeat : Nat
  ref     : LedRef
deriving DecidableEq, Repr

/-- Kennel slot states (Table 9-8). -/
inductive KenState where
  | empty | live | erasePending | quarantined
deriving DecidableEq, Repr

/-- One Kennel slot: the metadata value of Table 9-8 and the key material (as a little-endian number). -/
structure KenSlot where
  state   : KenState
  kind    : Nat
  slice   : Nat
  infra   : Bool
  gen     : Nat
  useCur  : Nat
  useOld  : Nat
  oldPresent : Bool
  material : Nat
deriving DecidableEq, Repr

/-- Delta records (14 R319, Table 14-1). -/
inductive DeltaRec where
  | ledger (idx : Nat) (e : LedEntry)
  | descriptor (qp sqIdx : Nat) (bytes : List Byte)
  | frame (queue handle : Nat) (bytes : List Byte)
  | table (tbl key val : Nat)
  | kennel (slot : Nat) (wrapped : List Byte)
  | object (key val : Nat)
  | register (reg val : Nat)
  | timetable (ev beat : Nat)
deriving DecidableEq, Repr

/-- What a heartbeat carries (14 R324): pair state code, epoch as a 128-bit paired word, health word,
beat number and the last delta the sender has acknowledged. -/
structure Heartbeat where
  state   : Nat
  epoch   : BitVec 128
  health  : BitVec 32
  beat    : Nat
  lastAck : Nat
deriving DecidableEq, Repr

/-- What the two partners compare when they pair (R25, R327): image, port mode, observation
configuration, side-channel level, serial number and `preferred`; and the image_id that the standby reports in state
INSTALLED (03 R72). -/
structure PartnerCfg where
  imageId     : Nat
  portMode    : Nat
  observation : Nat
  scLevel     : Nat
  serial      : Nat
  preferred   : Bool
  installed   : Option Nat
deriving DecidableEq, Repr

/-- What a partner sends for the key agreement when the pair link comes up (14 R323): its identity public key, its ephemeral
P-256 public key, each X‖Y, and its signature r‖s. The message's form is not given (assumption 277). -/
structure PairHello where
  identity  : List Byte
  ephemeral : List Byte
  signature : List Byte
deriving DecidableEq, Repr

/-- A Uhlist PDU as it arrives (16 R377): the transport, the header fields a client sets, the body and the tag. -/
structure Pdu where
  transport : Nat
  session   : Nat
  seq       : Nat
  body      : List Byte
  tag       : BitVec 128
deriving DecidableEq, Repr

/-- What the memories and lanes report at a beat boundary about the beat that ends: FEC counts of lanes as (lane, codewords
corrected, codewords not correctable) (02 R51), keys of critical objects whose stored pair a reader has found bad (16 R373),
the islands whose memory errors were corrected, with their number (20 Table 20-4), the words (cluster, word, value) that
firmware has loaded into instruction stores through the clusters' control ports (07 R172), and the ledger entries whose halves
a reader has found bad (13 R311): bits 0 and 2 a failed STATE pair, bits 1 and 3 a failed ECC, of half 0 and of half 1. -/
structure BeatNews where
  fec       : List (BitVec 5 × Nat × Nat)
  objects   : List Nat
  corrected : List (BitVec 6 × BitVec 32)
  code      : List (BitVec 4 × BitVec 16 × BitVec 32)
  ledger    : List (BitVec 18 × BitVec 4)
deriving DecidableEq, Repr

/-- The register spaces a `REGISTER_WRITE` reaches (01 R15); offsets are those of each block's register table. -/
inductive RegAddr where
  /-- Timetable load interface (Table 3-9), in the PF0 of a link. -/
  | timetable (link : BitVec 2) (off : BitVec 12)
  /-- Table command window `w` (Table 6-9): 0 to 3 in the PF0 of a link, 4 to 7 of the control cores. -/
  | window (link : BitVec 2) (w : BitVec 3) (off : BitVec 12)
  /-- DMA channel (Table 10-1), in the PF0 of a link. -/
  | channel (link : BitVec 2) (ch : BitVec 12) (off : BitVec 8)
  /-- Channel view of a slice page, or of the infrastructure page (16,384): local channel `k` (Table 11-6). -/
  | view (link : BitVec 2) (page : BitVec 15) (k : BitVec 6) (off : BitVec 8)
  /-- PCI Express configuration space of a function (Tables 11-2, 11-3); register numbers as `Machine.Host` lists them. -/
  | config (link : BitVec 2) (fn : BitVec 11) (reg : BitVec 12)
  /-- MSI-X table entry `vector`, double word `dw`. -/
  | msix (link : BitVec 2) (fn : BitVec 11) (vector : BitVec 11) (dw : BitVec 2)
  /-- PF0 mailbox (Table 16-9). -/
  | mailbox (link : BitVec 2) (off : BitVec 14)
  /-- Debug access port (Table 20-3). -/
  | dap (off : BitVec 9)
deriving DecidableEq, Repr

end Sys2Proof
end

