-- ==== Sys2Proof/Syntax.lean ====
section
/-!
DEFINITION. The commands of the block: one constructor per row of spec/opcode_table.json, with the row's operands.
Slot-owned commands carry the slot of the beat they fall in; outcomes that only the hardware or the outside world
decides (a failed read, a passed test, received bytes) are operands. An operand that stands for an exceptional outcome has
the plain one as its default.
-/

namespace Sys2Proof

/-- The commands of the EF3248 (opcode_table.json). -/
inductive Instr where
  /-- BEAT_BOUNDARY (R53). Slot 0 of each beat: the schedule restarts at row 0 and every boundary-timed effect of the device is applied; `readyIn` is the level of PAIR_READY_IN, `upset` a resident header (of the old generation: true) found to read as another word, `news` what the beat's memories and lanes report. -/
  | beatBoundary (readyIn : Bool) (upset : Option (Bool × BitVec 1024)) (news : BeatNews := ⟨[], [], [], [], []⟩)
  /-- INGRESS_SLOT (R58). In its ingress slot, a waiting frame of the owning lane's port enters the pipeline and is stamped with its generation bit and sequence. -/
  | ingressSlot (slot : BitVec 12) (p : BitVec 2) (rowOk : Bool)
  /-- CONTROL_SLOT (R60). In a control slot the sequencer issues the oldest command of the highest class present. -/
  | controlSlot (slot : BitVec 12) (p : BitVec 2) (rowOk : Bool := true)
  /-- RETURN_SLOT (R105). A detoured item re-enters its pipeline at the row's re-entry stage in a return row. -/
  | returnSlot (slot : BitVec 12) (p : BitVec 2) (rowOk : Bool := true)
  /-- STAGE_PORT_SLOT (R104). An item holds a stage's memory port, issues its lookups and runs the actions of the hits in lookup-kind order. -/
  | stagePortSlot (slot : BitVec 12) (item : Nat)
  /-- SCRUB_SLOT (R468). A scrub slot reads word w of all 16 banks of a stage and advances the stage's scrub pointer. -/
  | scrubSlot (slot : BitVec 12) (p : BitVec 2) (stage : Nat) (rowOk : Bool := true)
  /-- SHARED_TABLE_ACCESS (R128). On its leg in slot s+a an item's keys are sampled, and the enabled L2, LPM and flow lookups run. -/
  | sharedTableAccess (slot : BitVec 12) (item : Nat) (rowOk : Bool)
  /-- EGRESS_OPPORTUNITY (R190). An egress opportunity of a lane serves its port: Sheepdog descends the node tree and may dequeue one head frame. -/
  | egressOpportunity (slot : BitVec 12) (j : BitVec 2) (rowOk : Bool)
  /-- DMA_GRANT (R223). A DMA leg grant lets the next ready channel of the group issue one unit. -/
  | dmaGrant (slot : BitVec 12) (k : BitVec 2) (rowOk : Bool)
  /-- CIPHER_GRANT (R200). A cipher leg grant moves 64 bytes of the owning source's oldest request. -/
  | cipherGrant (slot : BitVec 12) (k : BitVec 3) (rowOk : Bool)
  /-- WALK_GRANT (R117). In a slot whose WALK field names it, a tree walker makes one HBM read. -/
  | walkGrant (slot : BitVec 12) (p : BitVec 2) (rowOk : Bool)
  /-- LEARN_LEG (R138). An owner-4 leg applies the request at the head of the L2 (even slot) or flow (odd slot) learn queue. -/
  | learnLeg (slot : BitVec 12) (k : BitVec 3) (rowOk : Bool := true)
  /-- AGING_LEG (R142). An owner-5 leg retires the head of the removal queue or visits one bucket of the table being swept. -/
  | agingLeg (slot : BitVec 12) (k : BitVec 3) (rowOk : Bool := true)
  /-- COMMAND_LEG (R148). An owner-6 leg executes one shared-table command, or one bucket of a FLUSH_PORT. -/
  | commandLeg (slot : BitVec 12) (k : BitVec 3) (rowOk : Bool := true)
  /-- AN_RESOLUTION (R35). Clause 73 auto-negotiation resolves, and the lane goes to TRAINING, or to LOCKING for 1000BASE-KX. -/
  | anResolution (lane : BitVec 5) (abilities : BitVec 6) (rsReq brReq brAbil : Bool)
  /-- TRAINING_DONE (R36). Link training completes and the lane moves to LOCKING. -/
  | trainingDone (lane : BitVec 5)
  /-- TRAINING_FAILURE (R36). The training maximum wait expires: a training failure is counted and auto-negotiation restarts. -/
  | trainingFailure (lane : BitVec 5)
  /-- LOCK_ACQUIRED (R38). A LOCKING lane gains block, alignment-marker and FEC lock and goes UP. -/
  | lockAcquired (lane : BitVec 5)
  /-- LOSS_OF_LOCK (R38). An UP lane loses lock or signal and returns to AN or LOCKING, and a partial frame is counted as an FCS error. -/
  | lossOfLock (lane : BitVec 5) (midFrame : Bool)
  /-- PLL_LOSS_OF_LOCK (R38). A lane-group PLL loses lock while the reference is present, and its lanes go to FAULT with a class 3 event. -/
  | pllLossOfLock (group : BitVec 2)
  /-- SERDES_FAULT (R38). A SerDes reports a hardware fault, and its lane goes to FAULT. -/
  | serdesFault (lane : BitVec 5)
  /-- FRAME_RECEIVED (R40). The MAC receives a whole frame, checks its FCS and length, counts it, and discards it or places it in the port's receive buffer.`slots` counts from the slot in which its reception started. -/
  | frameReceived (port : BitVec 5) (bytes : List Byte) (fcsOk cut : Bool) (slots : Nat := 0)
  /-- RAW_HIT_LIST_COMPLETE (R97). The scanner's raw hit list of unanchored literals is complete, at most 16 slots after the last byte. -/
  | rawHitListComplete (port : BitVec 5) (frame : Nat)
  /-- FRAME_SENT (R191). The last byte of a frame is sent, the frame leaves the packet buffer and a protected frame's ledger entry retires. -/
  | frameSent (port : BitVec 5)
  /-- MUZZLE (R46). The Muzzle takes effect on every lane within 64 slots of the fence signal. -/
  | muzzle
  /-- VERIFY (R66). TT_CMD VERIFY locks the staging range and starts the checks of Table 3-5. -/
  | verify
  /-- VERIFY_DONE (R66). Verification ends in VERIFIED, or goes back with a REASON and releases the lock. -/
  | verifyDone
  /-- INSTALL (R71). TT_CMD INSTALL starts writing the private regions, parser and Bloodhound banks and trees of the staged image. -/
  | install
  /-- INSTALL_DONE (R71). Installation completes and the state becomes INSTALLED. -/
  | installDone
  /-- ARM (R70). TT_CMD ARM reads TT_ARM_BEAT and arms the make-current, or refuses with ARM_LATE or PAIR_MISMATCH. -/
  | arm
  /-- DISCARD (R69). TT_CMD DISCARD releases the staging lock and the staged image's private regions. -/
  | discard
  /-- CANCEL_ARM (R69). TT_CMD CANCEL_ARM returns an ARMED image to INSTALLED. -/
  | cancelArm
  /-- PARSER_NODE_STEP (R86). The parser walks one node: it computes the header length, runs the checks, chooses the transition and runs the extraction commands. -/
  | parserNodeStep (item : Nat)
  /-- PARSER_OUTPUT (R92). At s+32 the parser summary is on the bus, the malformation action is applied and the confirm unit starts. -/
  | parserOutput (item : Nat)
  /-- MATCH_SET_FINAL (R98). The confirm unit has filtered, ordered and cut the hits, and the match set is final 64 slots after ingress. -/
  | matchSetFinal (item : Nat)
  /-- DETOUR_LEAVE (R57). A detouring item leaves its stage for the cluster that DETOUR names or for the tree queue, or is dropped. -/
  | detourLeave (slot : BitVec 12) (item : Nat) (rowOk : Bool)
  /-- WALK_READ_DATA (R116). A walker's HBM read returns, and the walk descends a node or evaluates rules and may end with the winning action. -/
  | walkReadData (p : BitVec 2) (w : BitVec 6) (readOk : Bool)
  /-- REWRITE_UNIT (R124). At s+base_latency the rewrite unit settles the item's fate, meters it and applies its rewrite profile. -/
  | rewriteUnit (slot : BitVec 12) (item : Nat)
  /-- REORDER_RELEASE (R121). A held item is released in the slot after its last predecessor is released or dropped. -/
  | reorderRelease (slot : BitVec 12) (p : BitVec 2)
  /-- REORDER_TIMEOUT (R122). An item held longer than reorder_hold_max beats is released and counted. -/
  | reorderTimeout (slot : BitVec 12) (p : BitVec 2)
  /-- FLOW_FILL_LAND (R135). A flow cache fill lands and evicts a bucket to HBM. -/
  | flowFillLand
  /-- AGING_PASS_START (R144). A scheduled aging pass starts N beats after the previous scheduled start. -/
  | agingPassStart (flow : Bool)
  /-- INSERT (R146). Table command INSERT writes an entry, or completes with EXISTS or NO_ROOM. -/
  | tcInsert (w : BitVec 3) (target : BitVec 4) (genSel : BitVec 1) (tableId : BitVec 16)
  /-- DELETE (R146). Table command DELETE sets VALID to 0, or completes with NOT_FOUND. -/
  | tcDelete (w : BitVec 3) (target : BitVec 4) (genSel : BitVec 1) (tableId : BitVec 16)
  /-- TC_READ (R146). Table command READ copies the whole entry into TC_DATA. -/
  | tcRead (w : BitVec 3) (target : BitVec 4) (genSel : BitVec 1) (tableId : BitVec 16)
  /-- REPLACE (R146). Table command REPLACE writes the entry in the present entry's place. -/
  | tcReplace (w : BitVec 3) (target : BitVec 4) (genSel : BitVec 1) (tableId : BitVec 16)
  /-- COMPARE_REPLACE (R146). Table command COMPARE_REPLACE replaces the entry only when it equals TC_CMP. -/
  | tcCompareReplace (w : BitVec 3) (target : BitVec 4) (genSel : BitVec 1) (tableId : BitVec 16)
  /-- FLUSH_PORT (R146). Table command FLUSH_PORT deletes every dynamic L2 entry of a port, one bucket per leg. -/
  | flushPort (w : BitVec 3) (target : BitVec 4) (genSel : BitVec 1) (tableId : BitVec 16)
  /-- TC_COMMAND_COMPLETE (R149). A table command's RESULT is released and TC_DONE is incremented, under R20 in paired operation. -/
  | tcCommandComplete (w : BitVec 3)
  /-- ADD (R157). Jutex ADD writes rs1 + rs2 to rd. -/
  | add (th : BitVec 10) (rd rs1 rs2 : BitVec 5) (f : BitVec 10)
  /-- SUB (R157). Jutex SUB writes rs1 − rs2 to rd. -/
  | sub (th : BitVec 10) (rd rs1 rs2 : BitVec 5) (f : BitVec 10)
  /-- AND (R157). Jutex AND writes rs1 AND rs2 to rd. -/
  | and (th : BitVec 10) (rd rs1 rs2 : BitVec 5) (f : BitVec 10)
  /-- OR (R157). Jutex OR writes rs1 OR rs2 to rd. -/
  | or (th : BitVec 10) (rd rs1 rs2 : BitVec 5) (f : BitVec 10)
  /-- XOR (R157). Jutex XOR writes rs1 XOR rs2 to rd. -/
  | xor (th : BitVec 10) (rd rs1 rs2 : BitVec 5) (f : BitVec 10)
  /-- SHL (R157). Jutex SHL shifts rs1 left by rs2[5:0]. -/
  | shl (th : BitVec 10) (rd rs1 rs2 : BitVec 5) (f : BitVec 10)
  /-- SHR (R157). Jutex SHR shifts rs1 right logically. -/
  | shr (th : BitVec 10) (rd rs1 rs2 : BitVec 5) (f : BitVec 10)
  /-- SAR (R157). Jutex SAR shifts rs1 right arithmetically. -/
  | sar (th : BitVec 10) (rd rs1 rs2 : BitVec 5) (f : BitVec 10)
  /-- MUL (R157). Jutex MUL writes the low 64 bits of the product to rd. -/
  | mul (th : BitVec 10) (rd rs1 rs2 : BitVec 5) (f : BitVec 10)
  /-- SLTU (R157). Jutex SLTU writes 1 when rs1 < rs2 unsigned. -/
  | sltu (th : BitVec 10) (rd rs1 rs2 : BitVec 5) (f : BitVec 10)
  /-- SLT (R157). Jutex SLT writes 1 when rs1 < rs2 signed. -/
  | slt (th : BitVec 10) (rd rs1 rs2 : BitVec 5) (f : BitVec 10)
  /-- ADDI (R157). Jutex ADDI adds a signed immediate. -/
  | addi (th : BitVec 10) (rd rs1 : BitVec 5) (imm : BitVec 15)
  /-- ANDI (R157). Jutex ANDI ANDs an immediate. -/
  | andi (th : BitVec 10) (rd rs1 : BitVec 5) (imm : BitVec 15)
  /-- SHLI (R157). Jutex SHLI shifts left by an immediate. -/
  | shli (th : BitVec 10) (rd rs1 : BitVec 5) (imm : BitVec 15)
  /-- SHRI (R157). Jutex SHRI shifts right by an immediate. -/
  | shri (th : BitVec 10) (rd rs1 : BitVec 5) (imm : BitVec 15)
  /-- LUI (R157). Jutex LUI writes I20 × 4,096 to rd. -/
  | lui (th : BitVec 10) (rd : BitVec 5) (imm : BitVec 20)
  /-- LD (R155). Jutex LD loads 8 bytes from the thread address map. -/
  | ld (th : BitVec 10) (rd rs1 : BitVec 5) (imm : BitVec 15)
  /-- LW (R155). Jutex LW loads 4 bytes, zero-extended. -/
  | lw (th : BitVec 10) (rd rs1 : BitVec 5) (imm : BitVec 15)
  /-- LH (R155). Jutex LH loads 2 bytes, zero-extended. -/
  | lh (th : BitVec 10) (rd rs1 : BitVec 5) (imm : BitVec 15)
  /-- LB (R155). Jutex LB loads 1 byte, zero-extended. -/
  | lb (th : BitVec 10) (rd rs1 : BitVec 5) (imm : BitVec 15)
  /-- ST (R156). Jutex ST stores 8 bytes; bus writes to protected bits are masked. -/
  | st (th : BitVec 10) (rd rs1 rs2 : BitVec 5) (f : BitVec 10)
  /-- SW (R156). Jutex SW stores 4 bytes. -/
  | sw (th : BitVec 10) (rd rs1 rs2 : BitVec 5) (f : BitVec 10)
  /-- SH (R156). Jutex SH stores 2 bytes. -/
  | sh (th : BitVec 10) (rd rs1 rs2 : BitVec 5) (f : BitVec 10)
  /-- SB (R156). Jutex SB stores 1 byte. -/
  | sb (th : BitVec 10) (rd rs1 rs2 : BitVec 5) (f : BitVec 10)
  /-- AADD (R157). Jutex AADD atomically adds to a scratch word and returns the old value. -/
  | aadd (th : BitVec 10) (rd rs1 rs2 : BitVec 5) (f : BitVec 10)
  /-- ACAS (R157). Jutex ACAS atomically compares and swaps a scratch word. -/
  | acas (th : BitVec 10) (rd rs1 rs2 : BitVec 5) (f : BitVec 10)
  /-- BEQ (R157). Jutex BEQ branches when rs1 equals rs2. -/
  | beq (th : BitVec 10) (rd rs1 rs2 : BitVec 5) (f : BitVec 10)
  /-- BNE (R157). Jutex BNE branches when rs1 differs from rs2. -/
  | bne (th : BitVec 10) (rd rs1 rs2 : BitVec 5) (f : BitVec 10)
  /-- BLT (R157). Jutex BLT branches when rs1 < rs2 signed. -/
  | blt (th : BitVec 10) (rd rs1 rs2 : BitVec 5) (f : BitVec 10)
  /-- BLTU (R157). Jutex BLTU branches when rs1 < rs2 unsigned. -/
  | bltu (th : BitVec 10) (rd rs1 rs2 : BitVec 5) (f : BitVec 10)
  /-- JAL (R157). Jutex JAL links and jumps relative. -/
  | jal (th : BitVec 10) (rd : BitVec 5) (imm : BitVec 20)
  /-- JR (R157). Jutex JR links and jumps to rs1. -/
  | jr (th : BitVec 10) (rd rs1 rs2 : BitVec 5) (f : BitVec 10)
  /-- MFS (R157). Jutex MFS reads a shared register. -/
  | mfs (th : BitVec 10) (rd rs1 rs2 : BitVec 5) (f : BitVec 10)
  /-- MTS (R157). Jutex MTS writes a shared register. -/
  | mts (th : BitVec 10) (rd rs1 rs2 : BitVec 5) (f : BitVec 10)
  /-- AADDS (R157). Jutex AADDS atomically adds to a shared register. -/
  | aadds (th : BitVec 10) (rd rs1 rs2 : BitVec 5) (f : BitVec 10)
  /-- FENCE (R157). Jutex FENCE makes earlier stores visible to the cluster before later accesses. -/
  | fence (th : BitVec 10) (rd rs1 rs2 : BitVec 5) (f : BitVec 10)
  /-- TIME (R159). Jutex TIME reads the cluster time. -/
  | time (th : BitVec 10) (rd rs1 rs2 : BitVec 5) (f : BitVec 10)
  /-- TCMP (R160). Jutex TCMP sets or disarms the thread's timer compare. -/
  | tcmp (th : BitVec 10) (rd rs1 rs2 : BitVec 5) (f : BitVec 10)
  /-- WAIT (R161). Jutex WAIT completes at once or puts the thread in WAITING on its selected conditions. -/
  | wait (th : BitVec 10) (rd rs1 rs2 : BitVec 5) (f : BitVec 10)
  /-- CHOPEN (R163). Jutex CHOPEN makes the thread write owner of a channel, or blocks it. -/
  | chopen (th : BitVec 10) (rd rs1 rs2 : BitVec 5) (f : BitVec 10)
  /-- CHPUT (R163). Jutex CHPUT writes 8 bytes into the staging buffer. -/
  | chput (th : BitVec 10) (rd rs1 rs2 : BitVec 5) (f : BitVec 10)
  /-- CHCOMMIT (R163). Jutex CHCOMMIT appends the staged message to the ring and releases ownership; `core` is a control core's post through the control port. -/
  | chcommit (core : Option (BitVec 4 × BitVec 8 × BitVec 512)) (th : BitVec 10) (rd rs1 rs2 : BitVec 5) (f : BitVec 10)
  /-- CHGET (R164). Jutex CHGET removes the oldest ring message to scratch. -/
  | chget (th : BitVec 10) (rd rs1 rs2 : BitVec 5) (f : BitVec 10)
  /-- CHCFG (R162). Jutex CHCFG sets a channel's EXT attribute. -/
  | chcfg (th : BitVec 10) (rd rs1 rs2 : BitVec 5) (f : BitVec 10)
  /-- SETREG (R158). Jutex SETREG from thread 0 writes a register or the PC of a stopped or faulted thread. -/
  | setreg (th : BitVec 10) (rd rs1 rs2 : BitVec 5) (f : BitVec 10)
  /-- START (R158). Jutex START from thread 0 moves named stopped or faulted threads to RUNNABLE. -/
  | start (th : BitVec 10) (rd rs1 rs2 : BitVec 5) (f : BitVec 10)
  /-- HALT (R153). Jutex HALT moves the thread to STOPPED. -/
  | halt (th : BitVec 10) (rd rs1 rs2 : BitVec 5) (f : BitVec 10)
  /-- RETURN (R168). Jutex RETURN passes a detour item to its pipeline's return queue. -/
  | ret (th : BitVec 10) (rd rs1 rs2 : BitVec 5) (f : BitVec 10)
  /-- DROP (R168). Jutex DROP drops a detour item and releases its successors. -/
  | dropItem (th : BitVec 10) (rd rs1 rs2 : BitVec 5) (f : BitVec 10)
  /-- COMPLETE (R170). Jutex COMPLETE ends a host item with status, detail and result, making its entry DONE; `core` is a control core's ending of the item it holds. -/
  | complete (core : Option (BitVec 18 × BitVec 32 × BitVec 8 × BitVec 8 × BitVec 64)) (th : BitVec 10) (rd rs1 rs2 : BitVec 5) (f : BitVec 10)
  /-- ISSUE (R171). Jutex ISSUE submits a request to a cipher engine, Kennel or a DMA channel of the item's slice; `core` is a control core's cipher request (R200). -/
  | issue (th : BitVec 10) (rd rs1 rs2 : BitVec 5) (f : BitVec 10) (core : Option (BitVec 512) := none)
  /-- TIMER_REACHED (R160). Cluster time reaches a thread's armed timer compare. -/
  | timerReached (th : BitVec 10)
  /-- WAIT_MAX_EXPIRY (R166). The wait maximum expires on a WAIT or blocked CHOPEN, which wakes with bit 3 or rd = 8. -/
  | waitMaxExpiry (th : BitVec 10)
  /-- CHOPEN_GRANT (R163). A blocked CHOPEN is granted when the channel is free and its ring has room. -/
  | chopenGrant (th : BitVec 10)
  /-- ALL_ASLEEP_FREEZE (R167). After 64 cycles of the all-asleep condition, the engine freezes its waiting threads and raises a fault. -/
  | allAsleepFreeze (engine : BitVec 7)
  /-- DETOUR_ARRIVAL (R168). A detour item arrives at its cluster and enters the cluster inbox. -/
  | detourArrival (item : Nat)
  /-- ITEM_OFFER (R168). An engine offers its oldest inbox item to the lowest free thread waiting on the inbox. -/
  | itemOffer (engine : BitVec 7)
  /-- CLUSTER_FAULT (R172). An uncorrectable scratch or store error, a failed port or a lost clock makes a cluster FAULTED. -/
  | clusterFault (cluster : BitVec 4)
  /-- CORE_OFFLINE (R173). A control core silent for 10 µs or with an uncorrectable error is taken offline. -/
  | coreOffline (core : BitVec 4)
  /-- RESULT_DELIVERY (R171). A cipher, Kennel or DMA result message enters the named EXT channel when the ring has room. -/
  | resultDelivery (cluster : BitVec 4) (channel : BitVec 8)
  /-- CIPHER_REQUEST_START (R202). An engine checks its next request against the rules of Table 9-3 and starts its first block. -/
  | cipherRequestStart (e : BitVec 6)
  /-- KENNEL_CACHE_FILL (R216). A Kennel slot is fetched from HBM, its pair and wrap tag are checked, and waiting binds proceed. -/
  | kennelCacheFill (slot : BitVec 20) (ok : Bool)
  /-- SUSPEND (R203). A running request is suspended at its block boundary to run an URGENT request. -/
  | suspend (e : BitVec 6)
  /-- CIPHER_REQUEST_COMPLETE (R205). A cipher request ends and its 64-byte result is produced. -/
  | cipherRequestComplete (e : BitVec 6)
  /-- KAT (R211). An engine runs its known-answer tests every kat_interval. -/
  | kat (e : BitVec 6) (pass : Bool)
  /-- ENGINE_OUT_OF_USE (R211). An engine that fails a test, errs or loses its clock is taken out of use. -/
  | engineOutOfUse (e : BitVec 6)
  /-- KENNEL_WRITE (R217). Kennel WRITE stores material from SRC in a slot with a new generation. -/
  | kennelWrite (req : Option (BitVec 512))
  /-- GENERATE (R217). Kennel GENERATE stores DRBG material in a slot with a new generation. -/
  | generate (req : Option (BitVec 512))
  /-- ERASE (R217). Kennel ERASE scrubs an unused slot or makes it ERASE_PENDING. -/
  | erase (req : Option (BitVec 512))
  /-- FORCE_ERASE (R218). Kennel FORCE_ERASE scrubs the slot and sends a revoke to every engine. -/
  | forceErase (req : Option (BitVec 512))
  /-- READ_META (R219). Kennel READ_META writes the slot's metadata value to DST. -/
  | readMeta (req : Option (BitVec 512))
  /-- WRAP_EXPORT (R219). Kennel WRAP_EXPORT writes the slot as a wrapped 96-byte blob. -/
  | wrapExport (req : Option (BitVec 512))
  /-- WRAP_IMPORT (R219). Kennel WRAP_IMPORT checks a blob's tag and acts as a WRITE. -/
  | wrapImport (req : Option (BitVec 512))
  /-- REVOKED_USER_STOP (R218). A revoked user stops at its next block boundary with KEY_REVOKED or ABORTED_BY_RESET. -/
  | revokedUserStop (e : BitVec 6)
  /-- CHANNEL_START (R227). A CTRL write with START 1 in IDLE starts a DMA channel, or completes at once with COUNT 0. -/
  | channelStart (ch : BitVec 12) (ctrl : BitVec 64)
  /-- PRECHECK_DONE (R230). The channel's prechecks finish, and it becomes ACTIVE or completes with the failing status. -/
  | precheckDone (ch : BitVec 12)
  /-- CHUNK_DONE (R225). A chunk's data is written, or compared, and DONE_BYTES advances. -/
  | chunkDone (ch : BitVec 12) (unit : Nat) (memOk : Bool)
  /-- ABORT (R243). DMA CMD ABORT completes a halted transfer with its latched status. -/
  | dmaAbort (ch : BitVec 12)
  /-- RETRY (R243). DMA CMD RETRY reissues every unfinished unit of a halted channel. -/
  | dmaRetry (ch : BitVec 12)
  /-- CLEAR (R243). DMA CMD CLEAR returns a quarantined channel to IDLE at reset values. -/
  | dmaClear (ch : BitVec 12)
  /-- LINK_TRAINED (R250). A host link trains at the highest common rate and width. -/
  | linkTrained (link : BitVec 2) (rate : BitVec 3) (width : Nat) (flit : Bool)
  /-- BUS_MASTER_ENABLE_CLEAR (R273). Clearing Bus Master Enable stops the function's requests and starts its drain. -/
  | busMasterEnableClear (link : BitVec 2) (fn : BitVec 11)
  /-- BUS_MASTER_ENABLE_SET (R275). Setting Bus Master Enable enables the function, or is latched as pending while it drains. -/
  | busMasterEnableSet (link : BitVec 2) (fn : BitVec 11)
  /-- FUNCTION_DRAIN_END (R273). The drain ends when the channels are IDLE and accepted items are settled. -/
  | functionDrainEnd (link : BitVec 2) (fn : BitVec 11)
  /-- INITIATE_FLR (R274). A function level reset starts its teardown steps. -/
  | initiateFlr (link : BitVec 2) (fn : BitVec 11)
  /-- FLR_END (R274). The FLR's settlement completes, and registers and fields return to reset values. -/
  | flrEnd (link : BitVec 2) (fn : BitVec 11)
  /-- D_STATE_CHANGE (R263). A function moves between D0 and D3hot, stopping or resuming its requests. -/
  | dStateChange (link : BitVec 2) (fn : BitVec 11) (d3 : Bool)
  /-- UNSUPPORTED_BAR_ACCESS (R256). A BAR access of the wrong size or alignment, or with Memory Space Enable 0, gets Unsupported Request; `poisoned` marks a poisoned write. -/
  | unsupportedBarAccess (link : BitVec 2) (fn : BitVec 11) (offset : BitVec 32) (size : Nat) (write : Bool) (poisoned : Bool := false)
  /-- SQ_TAIL (R258). A doorbell write of SQ_TAIL is accepted or refused and counted. -/
  | sqTail (link : BitVec 2) (page : BitVec 15) (q : BitVec 6) (v : BitVec 32)
  /-- CQ_HEAD (R258). A doorbell write of CQ_HEAD is accepted or refused and counted. -/
  | cqHead (link : BitVec 2) (page : BitVec 15) (q : BitVec 6) (v : BitVec 32)
  /-- FETCH_START (R258). With SQ_TAIL ahead and BME 1, the fetch channel reads up to 32 descriptors. -/
  | fetchStart (qp : Nat)
  /-- HEAD_POINTER_WRITE_BACK (R307). The new fetch head is written back and the fetched items become accepted work. -/
  | headPointerWriteBack (qp : Nat)
  /-- DISPATCH (R306). An accepted host item is dispatched to a cluster inbox or a control core, or made DONE. -/
  | dispatch (entry : BitVec 18)
  /-- MSI_X_SEND (R259). An unmasked pending vector is sent once sending becomes possible. -/
  | msixSend (link : BitVec 2) (fn : BitVec 11) (vector : BitVec 11)
  /-- TRANSLATION_COMPLETION (R261). An ATS translation answer arrives and the held unit uses the translated address. -/
  | translationCompletion (tag : Nat) (ok : Bool) (addr : BitVec 64)
  /-- INVALIDATION_REQUEST (R261). An invalidation is answered after every request under the translation has completed. -/
  | invalidationRequest (link : BitVec 2) (fn : BitVec 11) (pasid : Option (BitVec 20)) (addr : BitVec 64) (pages : Nat)
  /-- PAGE_REQUEST_RESPONSE (R262). A page request response continues the held unit or halts the channel with TRANSLATION. -/
  | pageRequestResponse (tag : Nat) (ok : Bool)
  /-- COMPLETION_RECEIVED (R271). A read completion arrives and is taken, or discarded as unexpected or poisoned. -/
  | completionReceived (tag : BitVec 14) (link : BitVec 2) (poisoned : Bool) (status : BitVec 3) (data : List Byte)
  /-- COMPLETION_TIMEOUT (R270). A read times out; its data is discarded, its unit fails with TIMEOUT and its tag is quarantined. -/
  | completionTimeout (link : BitVec 2) (tag : BitVec 14)
  /-- TAG_QUARANTINE_END (R271). A quarantined tag is freed 4T after its timeout. -/
  | tagQuarantineEnd (link : BitVec 2) (tag : BitVec 14)
  /-- DL_DOWN (R276). A host link goes DL_Down and its functions are torn down as for an FLR. -/
  | dlDown (link : BitVec 2)
  /-- L0S_ENTRY (R264). A link enters L0s after l0s_idle of transmit idle. -/
  | l0sEntry (link : BitVec 2)
  /-- L1_ENTRY (R264). A link enters L1 after aspm_l1_idle with nothing pending. -/
  | l1Entry (link : BitVec 2)
  /-- L1_EXIT (R264). A doorbell, request or interrupt starts the exit from L0s or L1. -/
  | l1Exit (link : BitVec 2)
  /-- L1_2_ENTRY (R265). A link enters L1.2 after sending its LTR message; `clkreq` says that CLKREQ# is asserted. -/
  | l12Entry (link : BitVec 2) (clkreq : Bool := false)
  /-- DOE_DISCOVERY (R266). A DOE Discovery object is answered, and oversized objects set DOE Error. -/
  | doeDiscovery (link : BitVec 2) (object : List (BitVec 32))
  /-- GET_DIGESTS (R366). SPDM GET_DIGESTS reports the certificate slots. -/
  | getDigests (link : BitVec 2) (object : List Byte)
  /-- CHALLENGE (R366). SPDM CHALLENGE is signed with the identity key. -/
  | challenge (link : BitVec 2) (object : List Byte)
  /-- GET_MEASUREMENTS (R366). SPDM GET_MEASUREMENTS returns signed measurements. -/
  | getMeasurements (link : BitVec 2) (object : List Byte)
  /-- KEY_EXCHANGE (R366). SPDM KEY_EXCHANGE opens a secured session, or fails with SessionLimitExceeded. -/
  | keyExchange (link : BitVec 2) (object : List Byte)
  /-- IDE_KM (R267). IDE_KM in a secured session sets the keys of a selective IDE stream. -/
  | ideKm (link : BitVec 2) (session : BitVec 32) (object : List Byte)
  /-- ENABLE (R284). slice_cmd ENABLE enables a DISABLED slice or latches a pending enable in DRAINING. -/
  | sliceEnable (slice : BitVec 14)
  /-- RESET (R287). slice_cmd RESET moves the slice to DRAINING and starts the reset sequence. -/
  | sliceReset (slice : BitVec 14)
  /-- SLICE_ITEM_RETIRE (R289). An aborted host item retires with ABORTED_BY_RESET into the reset report once its operations have stopped. -/
  | sliceItemRetire (entry : BitVec 18)
  /-- SLICE_ZERO (R287). With inflight at 0 the key range is scrubbed and the slice's registers and objects are zeroed. -/
  | sliceZero (slice : BitVec 14)
  /-- RESET_SEQUENCE_END (R288). The reset sequence ends and the slice becomes DISABLED or ENABLED. -/
  | resetSequenceEnd (slice : BitVec 14)
  /-- FREEZE (R290). slice_cmd FREEZE holds doorbells and waits for inflight to reach 0. -/
  | sliceFreeze (slice : BitVec 14)
  /-- FREEZE_COMPLETE (R290). A FREEZING slice becomes FROZEN when inflight reads 0. -/
  | freezeComplete (slice : BitVec 14)
  /-- FREEZE_TIMEOUT (R290). freeze_timeout passes, and the slice returns to ENABLED with cmd_result BUSY. -/
  | freezeTimeout (slice : BitVec 14)
  /-- RESUME (R295). slice_cmd RESUME moves a FROZEN slice to ENABLED and restarts fetches. -/
  | sliceResume (slice : BitVec 14)
  /-- SAVE (R292). slice_cmd SAVE writes the tagged saved state to save_addr. -/
  | sliceSave (slice : BitVec 14)
  /-- RESTORE (R294). slice_cmd RESTORE reads saved state into a DISABLED slice and enters RESTORING. -/
  | sliceRestore (slice : BitVec 14)
  /-- RESTORE_DONE (R294). A restore succeeds to FROZEN, or fails, names restore_result and runs the reset sequence. -/
  | restoreDone (slice : BitVec 14)
  /-- DISABLE (R285). slice_cmd DISABLE in DRAINING clears the pending enable. -/
  | sliceDisable (slice : BitVec 14)
  /-- LEDGER_RELEASE (R309). A DONE entry whose predecessors have retired is released and retires. -/
  | ledgerRelease (queue : OrdQ) (halves : BitVec 4)
  /-- RE_DISPATCH (R310). Once a lost item's operations have stopped, it is dispatched again or made DONE with WORKER_FAULT. -/
  | reDispatch (entry : BitVec 18)
  /-- MEMORY_UNCORRECTABLE (R312). An uncorrectable error in a descriptor or protected frame makes its entry DONE with BUS_ABORT. -/
  | memoryUncorrectable (entry : BitVec 18)
  /-- HEARTBEAT_RECEIVED (R324). A heartbeat arrives and is checked, restarting the silence count. -/
  | heartbeatReceived (hb : Heartbeat) (cfg : PartnerCfg)
  /-- DELTA_RECEIVED (R321). The standby checks a closed delta, logs it and acknowledges it. -/
  | deltaReceived (whole : Bool) (beat : Nat) (records : List DeltaRec) (final : Bool)
  /-- DELTA_ACK_RECEIVED (R20). The partner's acknowledgement arrives and the held completions and frames of that beat are released. -/
  | deltaAckReceived (beat : Nat)
  /-- DELTA_APPLY (R321). The standby applies a logged delta to its state. -/
  | deltaApply
  /-- TAKEOVER (R337). A new active applies deltas, takes a new epoch and settles every unit before lifting its Muzzle. -/
  | takeover
  /-- HARD_FAULT (R334). A hard fault muzzles the device, asserts PAIR_HF_OUT and moves it to FAULT. -/
  | hardFault (cause : BitVec 8) (detail : BitVec 32)
  /-- PAIR_HF_IN_TAKEOVER (R334). A STANDBY that sees PAIR_HF_IN for 64 slots takes the Leash at once. -/
  | pairHfInTakeover
  /-- START_WAIT_EXPIRY (R327). A SEEKING device that hears no heartbeat for start_wait may go ACTIVE. -/
  | startWaitExpiry
  /-- SYNC_COMPLETE (R328). The bulk copy and its deltas are applied, and the device becomes STANDBY. -/
  | syncComplete (records : List DeltaRec)
  /-- PAIR_LINK_DOWN (R317). A pair-link lane loses lock and the link goes down and retrains. -/
  | pairLinkDown
  /-- PAIR_LINK_UP (R317). The pair link comes up with all 8 lanes trained. -/
  | pairLinkUp (cfg : PartnerCfg) (hello : PairHello := ⟨[], [], []⟩)
  /-- GRANT (R340). The standby receives the transfer grant and runs the takeover steps. -/
  | grant (epoch : BitVec 64)
  /-- HOLD_DOWN_EXPIRY (R340). A preferred standby healthy for hold_down starts a return transfer. -/
  | holdDownExpiry
  /-- ISLAND_POWER_ON_RESET (R356). Island power-on reset starts Whelp. -/
  | islandPowerOnReset
  /-- ISLAND_RESET (R344). An island reset runs Whelp again. -/
  | islandReset
  /-- MAIN_DOMAIN_RESET (R344). A main-domain reset runs stage 1 again from its locked copy. -/
  | mainDomainReset
  /-- STAGE1_PASS (R358). Stage 1 sequences power, copies and checks firmware and timetable, and releases core 0. -/
  | stage1Pass
  /-- BACKOFF_EXPIRY (R358). The backoff wait ends and stage 1 retries its pass. -/
  | backoffExpiry
  /-- TRIAL_TIMER_EXPIRY (R360). The trial timer expires: TRIAL slots are rejected and the main domain is reset. -/
  | trialTimerExpiry
  /-- CHALLENGE_SIGNATURE_READY (R367). The challenge signature is placed in challenge_signature. -/
  | challengeSignatureReady
  /-- OPEN (R378). Uhlist OPEN assigns a session and returns a signed key-agreement reply. -/
  | uhOpen (pdu : Pdu)
  /-- PROVE (R378). Uhlist PROVE checks the role signature and opens the session. -/
  | uhProve (pdu : Pdu)
  /-- PROVE_TIMEOUT (R378). A session without PROVE within 10 s is freed. -/
  | proveTimeout (transport : Nat) (session : BitVec 16)
  /-- CLOSE (R380). Uhlist CLOSE closes the session. -/
  | uhClose (pdu : Pdu)
  /-- KEEPALIVE (R380). Uhlist KEEPALIVE restarts the session's idle time. -/
  | keepalive (pdu : Pdu)
  /-- SESSION_IDLE_EXPIRY (R380). A session idle for session_idle is closed. -/
  | sessionIdleExpiry (transport : Nat) (session : BitVec 16)
  /-- DESCRIBE (R376). Uhlist DESCRIBE returns an object's metadata. -/
  | uhDescribe (pdu : Pdu)
  /-- READ (R382). Uhlist READ returns values of one or more elements. -/
  | uhRead (pdu : Pdu)
  /-- WRITE (R383). Uhlist WRITE passes the checks in order and becomes one ledger unit that takes effect. -/
  | uhWrite (pdu : Pdu)
  /-- BLOCK_READ (R384). Uhlist BLOCK_READ returns bytes from OFFSET. -/
  | blockRead (pdu : Pdu)
  /-- BLOCK_WRITE (R384). Uhlist BLOCK_WRITE writes a segment of an OCTETS or DOMAIN stream. -/
  | blockWrite (pdu : Pdu)
  /-- SUBSCRIBE (R385). Uhlist SUBSCRIBE sets the session's event class mask. -/
  | subscribe (pdu : Pdu)
  /-- EVENT (R385). The device sends an EVENT PDU carrying queued records, oldest first. -/
  | uhEvent (transport : Nat) (session : BitVec 16)
  /-- EVENT_ACK (R385). Uhlist EVENT_ACK frees the acknowledged event records. -/
  | eventAck (pdu : Pdu)
  /-- EVENT_RETRY_EXPIRY (R385). Unacknowledged EVENT PDUs are sent again every event_retry. -/
  | eventRetryExpiry (transport : Nat) (session : BitVec 16)
  /-- RESERVED_OP (R377). A PDU with a reserved OP is answered BAD_REQUEST. -/
  | reservedOp (op : BitVec 6) (pdu : Pdu)
  /-- MALFORMED_PDU (R377). A PDU with a too-long body, reserved version or reserved bit is discarded and counted. -/
  | malformedPdu (transport : Nat) (link : BitVec 2)
  /-- MB_GO (R390). MB_GO submits the mailbox request PDU, or is ignored while busy. -/
  | mbGo (link : BitVec 2)
  /-- EVENT_READY_CLEAR (R390). Clearing EVENT_READY lets the next EVENT PDU be placed in MB_EVENT. -/
  | eventReadyClear (link : BitVec 2)
  /-- SHORT_PRESS (R414). The attention button is released within 2 s, raising an event or retrying an extraction. -/
  | shortPress
  /-- LONG_PRESS (R414). The attention button held for 5 s acts as a write of transfer_go. -/
  | longPress
  /-- LATCH_OPEN (R417). The debounced latch opens and the extraction sequence starts. -/
  | latchOpen
  /-- LATCH_CLOSE (R417). The debounced latch closes and the card returns to service. -/
  | latchClose
  /-- LATCH_FAULT (R415). Both latch inputs agree for 100 ms, so the latch is in fault. -/
  | latchFault
  /-- CAGE_INSERTED (R420). ModPrsL is accepted low, and the module is released and its advertised power checked. -/
  | cageInserted (cage : BitVec 4) (advertisedMw : Nat)
  /-- MODULE_READY (R420). CMIS ModuleReady makes the cage READY and its C2M lanes' modules present. -/
  | moduleReady (cage : BitVec 4)
  /-- MODULE_FAULT (R420). CMIS ModuleFault moves the cage to FAULT. -/
  | moduleFault (cage : BitVec 4)
  /-- CAGE_INIT_TIMEOUT (R420). cage_init_max expires in INITIALISING, and the cage goes to FAULT. -/
  | cageInitTimeout (cage : BitVec 4)
  /-- MODULE_REMOVAL (R421). A removal empties the cage and moves its C2M lanes to NO_MEDIA. -/
  | moduleRemoval (cage : BitVec 4)
  /-- T1L_LINK_UP (R411). The 10BASE-T1L management link comes up at its negotiated amplitude. -/
  | t1lLinkUp (amplitude : BitVec 1)
  /-- T1L_LINK_DOWN (R411). The management link is lost without closing any session. -/
  | t1lLinkDown
  /-- ISLAND_POWER_EFFECT (R434). The island's in-flight count reaches 0 and it becomes STOPPED or OFF. -/
  | islandPowerEffect (island : BitVec 6)
  /-- ISLAND_HOLD_OFF_EXPIRY (R434). island_hold_off passes with work in flight, and the request is refused with BUSY. -/
  | islandHoldOffExpiry (island : BitVec 6)
  /-- PWR_GOOD_RISE (R437). A rail's PWR_GOOD has been high for 1 ms, and the next enable rises. -/
  | pwrGoodRise (rail : BitVec 3)
  /-- RAIL_GOOD_TIMEOUT (R437). A PWR_GOOD not high within rail_good_max lowers every enable with RAIL_FAULT. -/
  | railGoodTimeout (rail : BitVec 3)
  /-- MAIN_RESET_RELEASE (R437). The main-domain reset is released 5 ms after PWR_GOOD[5] rises. -/
  | mainResetRelease
  /-- MAIN_HOLD_OFF_EXPIRY (R438). main_hold_off passes with work in flight, and the power-down is refused with BUSY. -/
  | mainHoldOffExpiry
  /-- MAIN_POWER_DOWN (R438). The in-flight count reaches 0, the main domain is reset and the enables fall in order. -/
  | mainPowerDown
  /-- RAIL_FAULT (R439). A PWR_GOOD low for 10 µs raises a hard fault and lowers every enable. -/
  | railFault (rail : BitVec 3)
  /-- REFCLK_LOSS (R432). No REFCLK_156 edge for 64 ns puts the PLLs in holdover. -/
  | refclkLoss
  /-- REFCLK_RELOCK (R432). After 1 ms of stable edges the PLLs relock at the next beat boundary. -/
  | refclkRelock
  /-- JUNCTION_OVER_105 (R444). tj_max above 105 °C raises a class 6 event and is counted each millisecond. -/
  | junctionOver105 (readings : List (BitVec 16))
  /-- THERMAL_TRIP (R444). tj_max above 115 °C raises a hard fault, asserts THERM_TRIP# and drops the rails. -/
  | thermalTrip (readings : List (BitVec 16))
  /-- TJ_HOUR (R445). An hour whose mean tj_max exceeds 95 °C is counted. -/
  | tjHour (mean : BitVec 16)
  /-- TAP_RESET (R449). A TAP reset selects the IDCODE instruction. -/
  | tapReset
  /-- IDCODE (R449). JTAG IDCODE shifts out the device identification code. -/
  | idcode
  /-- SAMPLE_PRELOAD (R449). JTAG SAMPLE/PRELOAD samples or preloads the boundary chain. -/
  | samplePreload (sampled preload : BitVec 256)
  /-- EXTEST (R449). JTAG EXTEST, once unlocked, raises a hard fault and drives pins from the chain. -/
  | extest
  /-- CLAMP (R449). JTAG CLAMP, once unlocked, raises a hard fault and clamps the outputs. -/
  | clamp
  /-- HIGHZ (R449). JTAG HIGHZ, once unlocked, raises a hard fault and floats the outputs. -/
  | highz
  /-- DEBUG (R449). JTAG DEBUG opens the window onto the debug access port registers. -/
  | debug
  /-- BYPASS (R449). JTAG BYPASS selects the one-bit bypass register. -/
  | bypass
  /-- DEBUG_HALT (R455). Debug HALT stops the selected thread or core before its next instruction. -/
  | debugHalt
  /-- DEBUG_RESUME (R455). Debug RESUME returns the target to its state before the halt. -/
  | debugResume
  /-- DEBUG_STEP (R455). Debug STEP runs one instruction of a halted target. -/
  | debugStep
  /-- ABORT_STAGED (R165). Debug ABORT_STAGED clears a halted owner's staged write and releases the channel. -/
  | abortStaged
  /-- ABORT_WAIT (R167). Debug ABORT_WAIT ends a FROZEN thread's wait. -/
  | abortWait
  /-- REG_READ (R452). Debug REG_READ copies a target register to DATA. -/
  | regRead
  /-- REG_WRITE (R452). Debug REG_WRITE writes DATA to a register of a stopped target. -/
  | regWrite
  /-- MEM_READ (R453). Debug MEM_READ reads 8 bytes at ADDR. -/
  | memRead
  /-- MEM_WRITE (R453). Debug MEM_WRITE writes 8 bytes at ADDR, or is refused with FIREWALL. -/
  | memWrite
  /-- NOR_ERASE (R454). Debug NOR_ERASE erases a 4 KiB NOR block. -/
  | norErase
  /-- UNLOCK (R450). Debug UNLOCK checks the response against the factory key and unlocks the port. -/
  | unlock
  /-- RELOCK (R450). Debug RELOCK locks the port again. -/
  | relock
  /-- NEW_CHALLENGE (R450). Debug NEW_CHALLENGE draws a fresh CHALLENGE nonce. -/
  | newChallenge
  /-- BREAKPOINT (R455). A thread whose next PC matches an enabled breakpoint halts before it. -/
  | breakpoint (th : BitVec 10)
  /-- FREEZE_MAX_EXPIRY (R459). freeze_max passes and the held snapshot is let go. -/
  | freezeMaxExpiry
  /-- FAULT_LOG_BLOCK_WRITE (R462). A fault-log block is written to NOR when full, after 1 s or at once for urgent codes, and the next block is erased. -/
  | faultLogBlockWrite
  /-- REGISTER_WRITE (R7). A write to a register field without a row of its own acts as its access code states. -/
  | registerWrite (reg : RegAddr) (wide : Bool) (v : BitVec 64)
  /-- ISLAND_SUPPLY_LOSS (R408). Island 0 loses every supply, its power-enable outputs fall and main power drops with them, so the whole device is lost. -/
  | islandSupplyLoss
  /-- PERST_ASSERT (R249). A host link's reset input H0_PERST_A#, H0_PERST_B#, H1_PERST_A# or H1_PERST_B# changes level and resets or releases that link. -/
  | perstAssert (link : BitVec 2) (level : Bool)
  /-- VF_ENABLE (R280). A configuration write sets or clears VF Enable of PF1, so the VFs and their slice pages appear or disappear. -/
  | vfEnable (link : BitVec 2) (set : Bool) (numVfs : BitVec 11)
  /-- GET_CERTIFICATE (R366). SPDM GET_CERTIFICATE over DOE returns the chain of certificate slot 0 in identity_state 0, and otherwise reports the slot empty. -/
  | getCertificate (link : BitVec 2) (object : List Byte)
  /-- JUNCTION_ABOVE_100 (R444). A 1 ms sensor sample finds tj_max above 100 °C and sets THERMAL in the health word. -/
  | junctionAbove100 (readings : List (BitVec 16))
  /-- EYE_MARGIN_LOW (R325). An eye monitor finds a network lane group's or a pair-link lane's eye margin below its limit and sets EYE or PAIR_EYE in the health word. -/
  | eyeMarginLow (bit : BitVec 3)
deriving DecidableEq, Repr

end Sys2Proof
end

