-- ==== Sys2Proof/Machine/Types/Base.lean ====
section
/-!
DEFINITION. State that every block shares: time, the work ledger (13), paired operation (14), the event and fault
logs and counter snapshots (20), Uhlist sessions and mailboxes (16), and what leaves the device.
-/

namespace Sys2Proof.Machine

/-- Time of the main domain and of the island. -/
structure Clock where
  /-- beats since main-domain reset, the age clock (06 R141); reset 0 -/
  beat : Nat
  /-- slot of the present beat, 0–4,095 (00 "Time in slots and beats"); reset 0 -/
  slot : Nat
  /-- slots of island time before the present beat, from island power-on (16 R385); reset 0 -/
  islBase : Nat
  /-- reference clock lost: holdover (19 R432); reset false -/
  holdover : Bool
deriving DecidableEq, Repr

/-- Where a host item runs (13 R306). -/
inductive Worker where
  | cluster (c : Nat)
  | core (c : Nat)
deriving DecidableEq, Repr

/-- What the ledger keeps beside an entry: the descriptor store of host items (13 R306), the 64-bit result, the
beat whose delta carries the entry's DONE (01 R20), and the worker that holds the item. -/
structure LedMeta where
  desc     : List Byte
  compat   : Bool
  result   : BitVec 64
  doneBeat : Option Nat
  worker   : Option Worker
deriving DecidableEq, Repr

/-- One order queue: the next SEQ to give, the next place due to retire, and for a queue pair the SQ index that
follows the last one retired (13 R309, R311). -/
structure OrdState where
  q     : OrdQ
  next  : Nat
  due   : Nat
  nextSq : Nat
deriving DecidableEq, Repr

/-- The work ledger (13 R303–R313). -/
structure Ledger where
  /-- entries not FREE, by index 0–262,143 (13 R303); reset none -/
  entries : Sparse LedEntry
  /-- descriptor store and results, by entry index (13 R306); reset none -/
  metas   : Sparse LedMeta
  /-- order queues (13 R309, R311); reset none -/
  orders  : List OrdState
  /-- an acceptance waited under R305 in this beat (13 R316 entry_wait_beats); reset false -/
  waited  : Bool
  /-- entries that have been lost, which the model gives to no later unit, since the lost one may still run (13 R311,
  assumption 10); reset none -/
  lost    : List Nat
deriving DecidableEq, Repr

/-- Pair states (14 R326, Table 14-3), in the order of their codes. -/
inductive PairState where
  | single | seeking | syncing | standby | active | fenced | fault
deriving DecidableEq, Repr

/-- Progress of a planned transfer (14 R340). -/
inductive Transfer where
  | none
  /-- asked for; step 1 follows at the next beat boundary -/
  | asked (extraction : Bool)
  /-- muzzled, final delta of the named beat closed, acknowledgement awaited -/
  | final (beat : Nat) (extraction : Bool)
deriving DecidableEq, Repr

/-- One delta (14 R319): its beat and its records. -/
structure Delta where
  beat    : Nat
  records : List DeltaRec
  /-- this device's beat in which the delta was closed or logged -/
  seen    : Nat
deriving DecidableEq, Repr

/-- Paired operation (14). -/
structure Pair where
  /-- pair_state, 0x9000.02 (14 R326); reset SINGLE -/
  state     : PairState
  /-- held Leash epoch as a 128-bit paired word (14 R329); reset 0 with its complement -/
  epoch     : BitVec 128
  /-- epoch persisted in island 0 (14 R329); reset 0 -/
  persisted : Nat
  /-- highest epoch held or seen (14 R329); reset 0 -/
  maxSeen   : Nat
  /-- latched bits of the own health word (14 R325, Table 14-2); computed bits are added on reading; reset 0 -/
  latched   : BitVec 32
  /-- island time in µs of the last uncorrectable word that the scrub found (14 Table 14-2); reset none -/
  scrubAt   : Option Nat
  /-- partner's last heartbeat (14 R324); reset none -/
  partner   : Option Heartbeat
  /-- partner's configuration as last compared (01 R25, 14 R327); reset none -/
  cfg       : Option PartnerCfg
  /-- moment (slots of the age clock) of the last heartbeat received (14 R332); reset 0 -/
  lastHb    : Nat
  /-- PAIR_READY_OUT level (14 R326); reset low -/
  readyOut  : Bool
  /-- PAIR_READY_IN as last sampled (14 R326, R327); reset low -/
  readyIn   : Bool
  /-- beats for which PAIR_READY_IN has been still (14 R332); reset 0 -/
  readyStill : Nat
  /-- PAIR_READY_IN has been still since SEEKING was entered (14 R327); reset true -/
  stillAll  : Bool
  /-- PAIR_HF_OUT (14 R334); reset deasserted -/
  hfOut     : Bool
  /-- PAIR_HF_IN as last seen (14 R331, R334); reset deasserted -/
  hfIn      : Bool
  /-- hard fault raised, PAIR_HF_OUT still to be asserted after the Muzzle (14 R334); reset false -/
  hfPending : Bool
  /-- link_state 0x9000.0F: 0 down, 1 training, 2 up (14 R342); reset 0 -/
  link      : Nat
  /-- sync_progress 0x9000.10 (14 R342); reset 0 -/
  sync      : Nat
  /-- fence signal of the Muzzle (14 R333, 02 R46); reset 0 (SINGLE is never muzzled) -/
  fence     : Bool
  /-- the Muzzle has taken effect on the lanes (02 R46); reset false -/
  muzzled   : Bool
  /-- the Muzzle lifts at the next beat boundary (02 R47, 14 R337 step 7); reset false -/
  lift      : Bool
  /-- records of the delta of the present beat, oldest first (14 R319); reset none -/
  delta     : List DeltaRec
  /-- deltas sent and not yet acknowledged, oldest first (14 R319); reset none -/
  sent      : List Delta
  /-- last_acked_beat 0x9000.11 (14 R342); reset 0 -/
  lastAcked : Nat
  /-- delta log: deltas received and acknowledged, not yet applied, oldest first (14 R321); reset none -/
  log       : List Delta
  /-- the last delta of the partner that this device has acknowledged (14 R324); reset 0 -/
  ackedIn   : Nat
  /-- something waited for room in the delta in this beat (14 R320); reset false -/
  waited    : Bool
  /-- planned transfer (14 R340); reset none -/
  transfer  : Transfer
  /-- moment since which hold_down runs (14 R340); reset none -/
  holdDown  : Option Nat
  /-- moment at which SEEKING was entered (14 R327); reset 0 -/
  seekAt    : Nat
  /-- the Leash has been taken and the takeover steps are due (14 R337): whether by a grant; reset none -/
  takeover  : Option Bool
  /-- key agreements so far: the number picks the ephemeral key; the model's own (14 R323); reset 0 -/
  keyNo     : Nat
  /-- pair key in use (14 R323); none: the last agreement has failed, or there was none; reset none -/
  key       : Option (List Byte)
  /-- descriptors held from DESCRIPTOR records without acceptance: queue pair, SQ index, bytes (14 R322, Table 14-5); reset none -/
  heldDesc  : List (Nat × Nat × List Byte)
  /-- this device has stopped sending heartbeats, having received none for 2 beats (14 R325); reset false -/
  silent    : Bool
  /-- moment since which every heartbeat has shown a configuration that differs (01 R25); reset none -/
  diffAt    : Option Nat
  /-- beats whose records did not all fit, with the beat whose delta carries the last of them (14 R320); reset none -/
  spill     : List (Nat × Nat)
  /-- the highest beat whose delta the partner has acknowledged: it holds what was accepted up to it (14 R330); reset none -/
  heldTo    : Option Nat
  /-- the bulk copy has gone to the partner in SYNCING (14 R328); reset false -/
  copied    : Bool
deriving DecidableEq, Repr

/-- An event record (16 R385). -/
structure EvRec where
  num   : Nat
  time  : Nat
  cls   : Nat
  code  : Nat
  island : Nat
  index : Nat
  sub   : Nat
  param : BitVec 64
deriving DecidableEq, Repr

/-- Event log, fault log and counter snapshots (20 R458–R463). -/
structure Logs where
  /-- number of the newest event, 0xE000.01 (20 R460); reset 0 -/
  newest  : Nat
  /-- event_log, element n mod 4,096 (20 R460); reset empty -/
  events  : Sparse EvRec
  /-- fault-log records not yet written (20 R462); reset none -/
  pending : List EvRec
  /-- sequence of the newest block of NOR region type 10; none: the ring is empty (20 R461); reset none -/
  seq     : Option Nat
  /-- island power-on count (20 R462); reset 0 -/
  power   : Nat
  /-- fault_newest 0xE010.02; reset 0 -/
  faultNewest : Nat
  /-- newest completed snapshot of main-domain counters and gauges (20 R458); reset empty -/
  snap    : Sparse Nat
  /-- beat of `snap` (20 R459); reset 0 -/
  snapBeat : Nat
  /-- frozen snapshot and its beat (20 R459); reset none -/
  frozen  : Option (Sparse Nat × Nat)
  /-- correctable memory errors by island: island time in µs of the last record, and the errors not recorded since
  (20 R460); reset none -/
  folded  : Sparse (Option Nat × Nat)
deriving DecidableEq, Repr

/-- Uhlist roles (16 R378), in the order of their codes. -/
inductive Role where
  | factory | operator | hostDriver | tenant
deriving DecidableEq, Repr

/-- A reply kept in the cache of a session (16 R381): request SEQ, operation and body, and the reply once it is
produced (error, body) with the ledger entry its release waits for. -/
structure CachedReply where
  seq   : Nat
  op    : Nat
  body  : List Byte
  reply : Option (Nat × List Byte)
  sent  : Bool
  /-- the in-band sender of the request (R392) -/
  peer  : Nat × Nat
deriving DecidableEq, Repr

/-- A Uhlist session (16 R378–R385). -/
structure Session where
  transport : Nat
  num       : Nat
  role      : Role
  slice     : Nat
  /-- *T* of R378 -/
  hash      : BitVec 256
  /-- session key *K* of R378 -/
  key       : BitVec 256
  /-- PROVE has succeeded -/
  proved    : Bool
  /-- CLOSE has been executed; replies to earlier requests are still to be released -/
  closing   : Bool
  /-- next request number due, *E* (R381) -/
  expect    : Nat
  /-- requests held until their turn: op, PDU and in-band sender (R381, R392) -/
  held      : List (Nat × Pdu × (Nat × Nat))
  cache     : List CachedReply
  /-- class mask (R385) -/
  mask      : BitVec 16
  /-- queued event records, oldest first (R385) -/
  events    : List EvRec
  /-- records missed since the queue was full (R385) -/
  missed    : Nat
  /-- EVENT PDUs sent and not acknowledged, in order: SEQ, how many records of the queue they carry, and the island time in µs
  of the last sending (R385) -/
  unacked   : List (Nat × Nat × Nat)
  /-- SEQ of the next EVENT PDU -/
  eventSeq  : Nat
  /-- open DOMAIN or OCTETS stream: object key and bytes accepted (R384) -/
  stream    : Option (Nat × Nat)
  /-- in-band sender of the request served last: source MAC and port (R392); 0 elsewhere -/
  peer      : Nat × Nat
  /-- island time in µs of the OPEN, then of the last tagged PDU of the client: PROVE's 10 s and session_idle run from it
  (R378, R380) -/
  since     : Nat
deriving DecidableEq, Repr

/-- The registers of one PF0 mailbox (16 R389, Table 16-9). -/
structure Mailbox where
  /-- MB_REQ, 4,096 bytes; unlisted bytes read 0; reset 0 -/
  req       : Sparse Byte
  /-- MB_REPLY; reset 0 -/
  reply     : List Byte
  /-- MB_EVENT; reset 0 -/
  event     : List Byte
  /-- MB_REQ_LEN; reset 0 -/
  reqLen    : BitVec 13
  /-- REQ_BUSY; reset 0 -/
  busy      : Bool
  /-- REPLY_READY; reset 0 -/
  replyReady : Bool
  /-- EVENT_READY; reset 0 -/
  eventReady : Bool
  /-- WRITE_IGNORED; reset 0 -/
  ignored   : Bool
  /-- MB_REPLY_LEN; reset 0 -/
  replyLen  : BitVec 13
  /-- MB_EVENT_LEN; reset 0 -/
  eventLen  : BitVec 13
  /-- MB_VECTOR; reset 0 -/
  vector    : BitVec 11
deriving DecidableEq, Repr

/-- Uhlist (16). -/
structure Uhl where
  /-- sessions assigned, on every transport (16 R378, R380); reset none -/
  sessions : List Session
  /-- next session number to try (16 R378 gives any free number); reset 1 -/
  nextNum  : Nat
  /-- the PF0 mailboxes of links 0–3 (16 R389) -/
  boxes    : List Mailbox
  /-- in-band buffer: port and frame bytes, oldest first (16 R391); reset empty -/
  inband   : List (Nat × List Byte)
  /-- quarantined critical objects (16 R373); reset none -/
  quarantined : List Nat
deriving DecidableEq, Repr

/-- A run-time parameter write that has been accepted and not yet taken effect (01 R22, 16 R393):
its ledger entry, the objects it sets, the pipelines whose control sequencer has not executed it, and its class. -/
structure PWrite where
  id     : Nat
  values : List (Nat × Nat)
  waits  : List Nat
  class0 : Bool
deriving DecidableEq, Repr

/-- Objects and counters (17). -/
structure Objs where
  /-- writable objects off their default, by index, sub and element (17 R398) -/
  vals  : Sparse Nat
  /-- accepted run-time parameter writes not yet in effect (01 R22); reset none -/
  pend  : List PWrite
  /-- counters, U64, by index, sub and element (17 Table 17-6); reset 0 -/
  ctr   : Sparse Nat
deriving DecidableEq, Repr

/-- What leaves the device, in order. This field is the model's own: it records the outputs of each command. -/
inductive Output where
  /-- this device's part of the key agreement over the pair link (14 R323) -/
  | pairHello (hello : PairHello)
  /-- a frame sent on a port -/
  | frame (port : Nat) (bytes : List Byte)
  /-- a frame ended with a PCS error code -/
  | truncated (port : Nat)
  /-- a memory write on a host link, by function and PASID; `relaxed` is its Relaxed Ordering attribute (11 R254) -/
  | hostWrite (link fn : Nat) (pasid : Option Nat) (addr : Nat) (bytes : List Byte) (relaxed : Bool)
  /-- a memory read request on a host link with its tag -/
  | hostRead (link fn : Nat) (pasid : Option Nat) (addr len tag : Nat)
  /-- an MSI-X message -/
  | msix (link fn vector : Nat)
  /-- an ATS translation request -/
  | ats (link fn : Nat) (pasid : Option Nat) (addr tag : Nat)
  /-- a PRI page request -/
  | pageRequest (link fn : Nat) (pasid : Option Nat) (addr : Nat) (write : Bool) (tag : Nat)
  /-- an invalidation completion -/
  | invalidated (link fn : Nat)
  /-- an Unsupported Request completion or error message -/
  | unsupported (link fn : Nat)
  /-- a completion with data for a BAR or configuration read -/
  | completion (link fn : Nat) (data : Nat)
  /-- an LTR message -/
  | ltr (link : Nat) (value : Nat)
  /-- a DOE response data object, as double words -/
  | doe (link : Nat) (words : List (BitVec 32))
  /-- an SPDM response over DOE: response code and body bytes -/
  | spdm (link : Nat) (code : Nat) (body : List Byte)
  /-- a message in a secured SPDM session: encrypted text and tag (15 R366) -/
  | secured (link sid : Nat) (body : List Byte)
  /-- a Uhlist PDU: transport, session, op, SEQ, error, body -/
  | pdu (transport session op seq err : Nat) (body : List Byte)
  /-- an EVENT PDU: transport, session, SEQ, records -/
  | eventPdu (transport session seq : Nat) (records : List EvRec)
  /-- a heartbeat on the pair link -/
  | heartbeat (hb : Heartbeat)
  /-- a delta with its closing block: the beat number, the epoch, the record count and the CRC-32C over the delta (14 R319) -/
  | delta (beat epoch : Nat) (records : List DeltaRec) (final : Bool) (count : Nat) (crc : BitVec 32)
  /-- the bulk copy of the active's full state (14 R328) -/
  | bulk (records : List DeltaRec)
  /-- an acknowledgement of the partner's delta -/
  | deltaAck (beat : Nat)
  /-- the grant of a planned transfer -/
  | grant (epoch : Nat)
  /-- a result message put in a Jutex channel or given to the control cores -/
  | result (cluster channel : Nat) (msg : BitVec 512)
  /-- a JTAG data register shifted out -/
  | tdo (ir : Nat) (data : Nat)
deriving DecidableEq, Repr

end Sys2Proof.Machine
end

