-- ==== Sys2Proof/Machine/Types/Net.lean ====
section
/-!
DEFINITION. State of the network lanes and ports (02) and of Sheepdog, its packet buffer and policers (08).
-/

namespace Sys2Proof.Machine

/-- Lane states (02 R38, Table 2-4), in the order of their codes. -/
inductive LaneState where
  | disabled | noMedia | an | training | locking | up | fault
deriving DecidableEq, Repr

/-- One network lane (02). -/
structure Lane where
  /-- lane_state 0x41nn.05 (R38); reset DISABLED -/
  state : LaneState
  /-- mode that negotiation or the fixed mode resolved, Table 2-2 code (R35); reset 0 -/
  mode  : Nat
  /-- resolved_fec 0x41nn.07: 0 none, 1 BASE-R, 2 RS(528,514), 3 RS(544,514) (R37); reset 0 -/
  fec   : Nat
deriving DecidableEq, Repr

/-- A Bloodhound hit: pattern number and the offset of its last byte (04 R97). -/
structure RawHit where
  pattern : Nat
  stop    : Nat
deriving DecidableEq, Repr

/-- The raw hit list of a frame for one generation's bank (04 R97, R100). -/
structure RawList where
  gen      : Bool
  hits     : List RawHit
  overflow : Bool
deriving DecidableEq, Repr

/-- A whole frame in the receive buffer of a port (03 R58). `bytes` includes the FCS. -/
structure RxFrame where
  id    : Nat
  bytes : List Byte
  raw   : List RawList
  complete : Bool
deriving DecidableEq, Repr

/-- Lanes, receive buffers and PLLs (02). -/
structure Net where
  /-- the 32 lanes (02 R38) -/
  lanes : List Lane
  /-- receive buffer of each port, oldest first (03 R58); reset empty -/
  rx    : Sparse (List RxFrame)
  /-- next frame number; the model's own; reset 0 -/
  nextFrame : Nat
  /-- lane_group_pll_locked, 0x4000.02 (02 R48) -/
  pllLocked : BitVec 4
  /-- ports whose administrative down waits for the frame in transmission (02 R39); reset none -/
  downs : List Nat
deriving DecidableEq, Repr

/-- Queue states (08 R178, Table 8-2), in the order of their codes. -/
inductive QState where
  | disabled | enabled | draining
deriving DecidableEq, Repr

/-- A frame in a queue or a transmit FIFO: its packet-buffer handle, its bytes without FCS, its length with FCS
(02 R43), the moment and beat of its enqueue, whether it is released (08 R192) and its ledger entry. -/
structure QFrame where
  handle   : Nat
  bytes    : List Byte
  len      : Nat
  queue    : Nat
  since    : Nat
  released : Bool
  entry    : Option Nat
  isProt   : Bool
deriving DecidableEq, Repr

/-- One Sheepdog queue (08 R178, R195). -/
structure Queue where
  state    : QState
  pending  : Bool
  frames   : List QFrame
  depthHw  : Nat
  sampled  : Bool
  sDepthB  : Nat
  sDepthF  : Nat
  sSojourn : Nat
  sSojournMax : Nat
deriving DecidableEq, Repr

/-- Buckets and pointers of one scheduling node (08 R188, R190). Buckets count units of 10⁻⁷ byte, so that a beat's
credit rate × 4,096 / 10⁷ bytes is exact; the deficit counts bytes. `lastC` and `lastD` are the child numbers from
which the next choice under commitment and the next deficit round robin start. -/
structure NodeSt where
  committed : Int
  peak      : Int
  deficit   : Int
  lastC     : Nat
  lastD     : Nat
deriving DecidableEq, Repr

/-- Token buckets of a policer in units of 1/65,536 byte (08 R186). -/
structure PolSt where
  first  : Nat
  second : Nat
deriving DecidableEq, Repr

/-- A frame held in the packet buffer: its length, whether on die, and how many copies are still to leave (08 R182, R184). -/
structure BufFrame where
  len   : Nat
  onDie : Bool
  refs  : Nat
deriving DecidableEq, Repr

/-- Sheepdog (08). -/
structure Shp where
  /-- queues off their reset state, by number (R178) -/
  queues : Sparse Queue
  /-- nodes, by level × 2²⁰ + number (R188, R190); reset all 0 -/
  nodes  : Sparse NodeSt
  /-- transmit FIFO of each port, head first: the head is in transmission (R190, R191); reset empty -/
  fifos  : Sparse (List QFrame)
  /-- packet buffer by handle (R182); reset empty -/
  bufs   : Sparse BufFrame
  /-- next packet-buffer handle; the model's own; reset 0 -/
  nextBuf : Nat
  /-- policer buckets, by policer; an unlisted one is full (R186) -/
  pols   : Sparse PolSt
  /-- ports gone operationally down since the last beat boundary: Sheepdog serves them until that boundary (02 R39), which
  takes their FIFOs back (R193); reset none -/
  cut    : List Nat
deriving DecidableEq, Repr

end Sys2Proof.Machine
end

