-- ==== Sys2Proof/Machine/Types/Pipe.lean ====
section
/-!
DEFINITION. State of the timetable and its images (03), the pipelines with parser, Bloodhound, stages, walkers and
reorder unit (04, 05), and of the shared forwarding tables and the table command interface (06).
-/

namespace Sys2Proof.Machine

/-- A Bloodhound pattern as its entry and body give it (04 R95, Tables 4-7 and 4-8). -/
structure Pattern where
  len      : Nat
  group    : Nat
  classes  : Bool
  anchored : Bool
  anchor   : Nat
  body     : List Byte
deriving DecidableEq, Repr

/-- An image that has been verified (03 R62–R65, 04 R85, R95, 05 R466, R116, 06 R127): the latched header value,
the resident header word with its complement (R78), and the content of its sections. -/
structure Image where
  hdr     : BitVec 512
  stored  : BitVec 1024
  rows    : List (BitVec 512)
  start   : Nat
  pnodes  : List (BitVec 128)
  ptrans  : List (BitVec 128)
  pextr   : List (BitVec 64)
  patterns : List Pattern
  classes : List (BitVec 256)
  bodyBytes : Nat
  offsets : List Nat
  shared  : BitVec 512
  maps    : List (List Nat)
  tables  : List (BitVec 512)
  actions : List (BitVec 512)
  profiles : List (BitVec 1024)
  words   : List (BitVec 64 × BitVec 512)
  tcams   : List (BitVec 64 × BitVec 640 × BitVec 640)
  trees   : List (BitVec 256)
  tnodes  : List (BitVec 512)
  trules  : List (BitVec 768)
  src     : Nat
  len     : Nat
  /-- place of its trees in the decision-tree region, once installed (03 R71) -/
  treeAt  : Nat
deriving DecidableEq, Repr

/-- Load states (03 R69, Table 3-6), in the order of their codes. -/
inductive TtState where
  | empty | idle | verifying | verified | installing | installed | armed | overlap
deriving DecidableEq, Repr

/-- The timetable load interface and the resident generations (03). -/
structure Tt where
  /-- TT_STATUS.STATE (R69); reset EMPTY -/
  state   : TtState
  /-- TT_STATUS.REASON (Table 3-9); reset 0 -/
  reason  : BitVec 8
  /-- drain after a header failure runs, BUSY reads 1 (R78); reset false -/
  drain   : Bool
  /-- moment at which that drain started: ingress stops from the next slot (R78); reset 0 -/
  drainAt : Nat
  /-- TT_STATUS.GEN, the current generation bit (R73); reset 0 -/
  gen     : Bool
  /-- TT_SRC, 4 KiB aligned (Table 3-9); reset 0 -/
  src     : BitVec 64
  /-- TT_LENGTH (Table 3-9); reset 0 -/
  length  : BitVec 32
  /-- TT_ARM_BEAT (R70); reset 0 -/
  armBeat : BitVec 64
  /-- TT_BEAT (R70); reset 0 -/
  beat    : Nat
  /-- beats since the make-current in OVERLAP; TT_OVERLAP_BEATS holds at 0xFFFF_FFFF (Table 3-9); reset 0 -/
  overlap : Nat
  /-- TT_FAULT: bit 0 HDR_CUR, bit 1 HDR_STAGED, bit 2 ROW_CRC (Table 3-9); reset 0 -/
  fault   : BitVec 3
  /-- armed target beat; none selects the next boundary (R70); reset none -/
  target  : Option Nat
  /-- image of the current generation (R64); reset none -/
  cur     : Option Image
  /-- staged image, from VERIFIED to ARMED (R69); reset none -/
  staged  : Option Image
  /-- old generation in OVERLAP (R75); reset none -/
  old     : Option Image
  /-- class 3 issues still to come in each pipeline (R71); reset none -/
  install : List Nat
  /-- a header that failed once and has been reloaded (R78): of the current, of the old generation; reset false -/
  retried : Bool × Bool
  /-- an operator's swap runs the sequence from a NOR slot (R81); reset false -/
  swap    : Bool
  /-- the range captured by VERIFY and whether its lock was granted (R66); reset none -/
  ver     : Option (Nat × Nat × Bool)
  /-- moment of the last row that failed its ROWCRC when read (R79); reset none -/
  badRows : List Nat
  /-- changes of the state or of GEN, newest first: the moment, and whether the state was ARMED and GEN before it (04 R100);
  reset none -/
  past    : List (Nat × Bool × Bool)
deriving DecidableEq, Repr

/-- A learn or move request (06 R138). -/
structure LearnReq where
  flow : Bool
  move : Bool
  key  : Nat
  port : Nat
  data : Nat
  gen  : Bool
  /-- moment at which it was raised -/
  slot : Nat
  pipe : Nat
  /-- moment at which it entered the queue: that of the return-row leg for a request raised on a detour -/
  enters : Nat
deriving DecidableEq, Repr

/-- The parser's walk over one frame (04 R86). -/
structure Walk where
  hs     : Nat
  depth  : Nat
  node   : Nat
  seen   : Sparse Nat
  vlans  : Nat
  mal    : Nat
  ended  : Bool
  l3     : Nat
  l4     : Nat
  l4role : Nat
  /-- the last IP header entered: 2 × offset, plus 1 for IPv6 -/
  ipSeen : Option Nat
  /-- the same as it stood when the last L4 header was entered (05 R123) -/
  l4ip   : Option Nat
  last   : Nat
deriving DecidableEq, Repr

/-- Where an item is (03 R57, 04 R83, 05 R104, R121, 07 R168, 09 R208). -/
inductive Pos where
  /-- in the parser -/
  | parser
  /-- at stage `t`, 20 for the rewrite unit -/
  | stage (t : Nat)
  /-- has run stage `t` and leaves for a Jutex function (false) or a tree walk (true) numbered `n` -/
  | leaving (t : Nat) (tree : Bool) (n : Nat)
  /-- in the tree request queue, left from stage `t` for tree `n` -/
  | treeQueue (t n : Nat)
  /-- in walker `w` -/
  | walker (t n w : Nat)
  /-- on its way to cluster `c` for function `fn` -/
  | toCluster (t c fn : Nat)
  /-- in the cluster inbox, an engine inbox or a thread's hands -/
  | jutex (t c fn : Nat)
  /-- in the return queue of its pipeline, to re-enter at stage `u` not before moment `due` -/
  | returning (u due : Nat)
  /-- held in the reorder unit since moment `since` -/
  | reorder (since : Nat)
  /-- released, with the cipher engines -/
  | cipher
deriving DecidableEq, Repr

/-- A tree walk in progress (05 R116). -/
structure TreeWalk where
  tree   : Nat
  key    : BitVec 320
  node   : Nat
  leaf   : Bool
  rule   : Nat
  left   : Nat
  best   : Option (Nat × BitVec 768)
  reading : Bool
deriving DecidableEq, Repr

/-- An item in a pipeline (03 R73, 04, 05). -/
structure Item where
  /-- the number of its frame -/
  id     : Nat
  pipe   : Nat
  /-- generation bit fixed at ingress (03 R73) -/
  gen    : Bool
  /-- generation whose timing the item follows: the current one after a return (05 R105) -/
  timGen : Bool
  /-- schedule row the item's position counts from -/
  row    : Nat
  seq    : Nat
  port   : Nat
  lane   : Nat
  bus    : Bus
  /-- frame data, without FCS -/
  bytes  : List Byte
  /-- LENGTH, with the FCS (07 Table 7-2) -/
  len    : Nat
  rxBytes : Nat
  pos    : Pos
  walk   : Walk
  raw    : List RawList
  record : List (BitVec 32)
  /-- shared-table keys sampled (06 R128): L2 source key, flow key -/
  l2key  : Nat
  flowKey : Nat
  /-- order domain once fixed (05 R121) -/
  domain : Option Nat
  treeWalk : Option TreeWalk
  /-- learn requests raised on a detour, carried by the return-row leg (05 R106) -/
  carried : List LearnReq
  trap   : Bool
  /-- its raw hit lists are complete (04 R97) -/
  scanned : Bool
  /-- its shared-table access has been made (06 R128) -/
  looked : Bool
  /-- the return slot whose leg carries `carried` (05 R106) -/
  back   : Option Nat
deriving DecidableEq, Repr

/-- A command waiting in a control sequencer (03 R60). -/
inductive SeqCmd where
  /-- class 0 stop command, by parameter write -/
  | stop (id : Nat)
  /-- class 1 table command of window `w` -/
  | table (w : Nat)
  /-- class 2 object write, by parameter write -/
  | write (id : Nat)
deriving DecidableEq, Repr

/-- The pipelines (03, 04, 05). -/
structure Pipe where
  /-- items in flight (03 R74); reset none -/
  items  : List Item
  /-- next sequence of each pipeline, 32 bits (05 R121); reset 0 -/
  seqs   : List Nat
  /-- control sequencer of each pipeline, oldest first (03 R60); reset empty -/
  ctl    : List (List SeqCmd)
  /-- tree request queue of each pipeline: item ids, oldest first (05 R117); reset empty -/
  treeQ  : List (List Nat)
  /-- return queue of each pipeline: item ids, oldest first (07 R168); reset empty -/
  retQ   : List (List Nat)
  /-- items that left their pipeline in slot `leftAt`: pipeline, order domain, sequence, and whether Jutex dropped it
  (05 R121, R122); reset none -/
  left   : List (Nat × Nat × Nat × Bool)
  leftAt : Nat
  /-- table commands that a control slot carries towards their stage: moment of arrival, window, pipeline, table
  (05 R469); reset none -/
  onWay  : List (Nat × Nat × Nat × BitVec 512)
deriving DecidableEq, Repr

/-- Stage memories of the four pipelines (05 R109, R110). -/
structure Stg where
  /-- SRAM words off the empty word, by ((20p + t)·16 + bank)·2,048 + word -/
  words  : Sparse (BitVec 512)
  /-- ternary memory by (20p + t)·16,384 + 160-bit unit: value below, mask above -/
  tcam   : Sparse (BitVec 320)
  /-- quarantined words, keys of `words` (R113); reset none -/
  quar   : List Nat
  /-- pair_fault_last_p, 0x5302 (R125); reset 0 -/
  last   : List (BitVec 32)
  /-- scrub pointers, by 20p + t (R468); reset 0 -/
  scrub  : Sparse Nat
deriving DecidableEq, Repr

/-- A queued compare-and-remove: entry number and its content at the visit (06 R143). -/
structure Removal where
  entry   : Nat
  content : Nat
deriving DecidableEq, Repr

/-- The aging sweep of one table (06 R142–R144). -/
structure Sweep where
  /-- next bucket of the running pass; none while no pass runs -/
  pos     : Option Nat
  /-- place of that bucket at which a visit that a full removal queue cut short goes on; reset 0 -/
  place   : Nat
  removal : List Removal
  /-- next scheduled start -/
  nextAt  : Nat
  /-- a scheduled start passed while a pass ran: the next starts at the boundary after its end -/
  late    : Bool
  /-- the sweep met a full removal queue in this beat -/
  stalled : Bool
deriving DecidableEq, Repr

/-- A move record (06 R141). -/
structure MoveRec where
  key  : Nat
  beat : Nat
deriving DecidableEq, Repr

/-- The shared tables (06). -/
structure Fwd where
  /-- L2 entries by ((way·262,144 + bucket)·4 + place) (R131); unlisted: empty -/
  l2     : Sparse (BitVec 128)
  /-- HIT (bit 0) and PEND (bit 1) of L2 entries (R131); reset 0 -/
  l2hp   : Sparse Nat
  /-- IPv4 routes by bucket·8 + place (R132); unlisted: empty -/
  lpm4   : Sparse (BitVec 48)
  /-- IPv6 routes by bucket·4 + place (R132); unlisted: empty -/
  lpm6   : Sparse (BitVec 96)
  /-- flow entries by ((way·8,388,608 + bucket)·4 + place), HIT and PEND in bits 504 and 505 (R134); unlisted: empty -/
  flow   : Sparse (BitVec 512)
  /-- flow cache: buckets (way·8,388,608 + bucket) of each set, most recently used first (R135); reset empty -/
  cache  : Sparse (List Nat)
  /-- fill queue, oldest first: the two candidate buckets (R135); reset empty -/
  fills  : List (Nat × Nat)
  /-- L2 learn queue, oldest first (R138); reset empty -/
  l2q    : List LearnReq
  /-- flow learn queue, oldest first (R138); reset empty -/
  flowq  : List LearnReq
  /-- move records (R141); reset none -/
  moves  : List MoveRec
  /-- L2 sweep (R142) -/
  l2sweep : Sweep
  /-- flow sweep (R142) -/
  flowSweep : Sweep
  /-- requests that the L2 and the flow arbiter have applied in this beat (R138); reset 0 -/
  applied : Nat × Nat
  /-- moment of the last slot in which a leg acted, the legs that have acted in it with the rank of R130 (0 visit, 1 other,
  2 compare-and-remove), and the compare-and-removes that its end applies (R130); reset none -/
  legsAt : Nat
  legs   : List (Nat × Nat)
  held   : Nat
  /-- quarantined entries: table 0 L2, 1 IPv4, 2 IPv6, 3 flow, and entry (R136); reset none -/
  quar   : List (Nat × Nat)
  /-- LPM group lengths of the last image made current since main-domain reset (R127); reset none -/
  lens   : Option (BitVec 64 × BitVec 64)
deriving DecidableEq, Repr

/-- A captured table command (06 R145). -/
structure TcCmd where
  op     : Nat
  target : Nat
  other  : Bool
  table  : Nat
  index  : BitVec 24
  data   : BitVec 2048
  cmp    : BitVec 2048
  entry  : Nat
  /-- result of each pipeline that has executed a stage-table command (R148) -/
  res    : List (Option Nat)
  /-- next bucket of a FLUSH_PORT (R149) -/
  pos    : Nat
  /-- outcome, held until its release: RESULT, HIT, PEND and TC_DATA of a READ -/
  fin    : Option (Nat × Bool × Bool × Option (BitVec 2048))
deriving DecidableEq, Repr

/-- One command window (06 R145, Table 6-9); every register resets to 0. -/
structure TcWin where
  cmd     : Option TcCmd
  refused : Bool
  result  : BitVec 8
  hit     : Bool
  pend    : Bool
  index   : BitVec 24
  done    : BitVec 32
  data    : BitVec 2048
  cmp     : BitVec 2048
deriving DecidableEq, Repr

/-- The table command interface (06 R145). -/
structure Tc where
  wins   : List TcWin
  /-- shared command queue: windows, oldest first (R145); reset empty -/
  queue  : List Nat
deriving DecidableEq, Repr

end Sys2Proof.Machine
end

