-- ==== Sys2Proof/Machine/Bits.lean ====
section
/-!
DEFINITION. Bit fields, byte strings, paired words (00 R5), CRC-32C (05 R464) and internet checksums: the plain
arithmetic every block uses.
-/

namespace Sys2Proof.Machine

/-- Bits [lo + len − 1 : lo] of `w` as a number. -/
def fld {n : Nat} (w : BitVec n) (lo len : Nat) : Nat := (w.toNat >>> lo) % 2 ^ len

/-- `w` with bits [lo + len − 1 : lo] replaced by the low `len` bits of `v`. -/
def setFld {n : Nat} (w : BitVec n) (lo len v : Nat) : BitVec n :=
  (w &&& ~~~(BitVec.ofNat n ((2 ^ len - 1) <<< lo))) ||| BitVec.ofNat n ((v % 2 ^ len) <<< lo)

/-- A byte string as a number, byte 0 least significant (00 R3). -/
def leNat : List Byte → Nat
  | [] => 0
  | b :: bs => b.toNat + 256 * leNat bs

/-- `n` bytes of `v`, least significant first. -/
def leBytes : Nat → Nat → List Byte
  | 0, _ => []
  | n + 1, v => BitVec.ofNat 8 v :: leBytes n (v / 256)

/-- A byte string as a number in network byte order (04 R84). -/
def beNat (bs : List Byte) : Nat := bs.foldl (fun a b => a * 256 + b.toNat) 0

/-- `n` bytes of `v` in network byte order. -/
def beBytes (n v : Nat) : List Byte := (leBytes n v).reverse

/-- Byte `i` of a string, 0 past its end. -/
def byteAt (bs : List Byte) (i : Nat) : Byte := bs.getD i 0

/-- `n` bytes from offset `i`; bytes past the end read 0. -/
def bytesAt (bs : List Byte) (i n : Nat) : List Byte :=
  let part := (bs.drop i).take n
  part ++ List.replicate (n - part.length) 0

/-- Overwrite `bs` from offset `i` with `v`, never growing it. -/
def overwrite (bs : List Byte) (i : Nat) (v : List Byte) : List Byte :=
  bs.take i ++ (v.take (bs.length - i)) ++ bs.drop (i + v.length)

/-- A paired word of 2n bits is intact (00 R5). -/
def pairOk (n w : Nat) : Bool := (w % 2 ^ n) ^^^ ((w >>> n) % 2 ^ n) == 2 ^ n - 1

/-- The paired word of 2n bits that carries `v` (00 R5). -/
def pairOf (n v : Nat) : Nat := v % 2 ^ n + ((2 ^ n - 1) - v % 2 ^ n) * 2 ^ n

/-- One bit step of the reflected CRC-32C, polynomial 0x1EDC_6F41 (00 Table 0-2). -/
def crcBit (c : BitVec 32) : BitVec 32 :=
  if c.getLsbD 0 then (c >>> 1) ^^^ 0x82F63B78#32 else c >>> 1

/-- One byte of the CRC-32C. -/
def crcByte (c : BitVec 32) (b : Byte) : BitVec 32 :=
  let x := c ^^^ b.setWidth 32
  crcBit (crcBit (crcBit (crcBit (crcBit (crcBit (crcBit (crcBit x)))))))

/-- CRC-32C of a byte string: reflected, initial value and final exclusive-OR 0xFFFF_FFFF (05 R464, 10 R237). -/
def crc32c (bs : List Byte) : BitVec 32 := bs.foldl crcByte 0xFFFFFFFF#32 ^^^ 0xFFFFFFFF#32

/-- One bit step of the T10 DIF CRC-16: polynomial 0x8BB7, most significant bit first. -/
def difBit (c : BitVec 16) : BitVec 16 := if c.getLsbD 15 then (c <<< 1) ^^^ 0x8BB7#16 else c <<< 1

/-- One byte of the T10 DIF CRC-16. -/
def difByte (c : BitVec 16) (b : Byte) : BitVec 16 :=
  difBit (difBit (difBit (difBit (difBit (difBit (difBit (difBit (c ^^^ (b.setWidth 16 <<< 8)))))))))

/-- The T10 DIF guard of a block (09 R210, 10 R238). PRESUMED: initial value 0, not reflected and not inverted, as the T10
standard that 00 Table 0-2 names lays down (assumption 227). -/
def difGuard (bs : List Byte) : BitVec 16 := bs.foldl difByte 0

/-- CRC-32C(key, seed) of a key of `w` bits (05 R464). -/
def hashKey (key w seed : Nat) : Nat :=
  (crc32c (leBytes 4 seed ++ leBytes ((w + 7) / 8) key)).toNat

/-- Ones'-complement sum of the 16-bit words of a string, network order, an odd last byte padded with 0. -/
def sum16 : List Byte → Nat
  | [] => 0
  | [a] => a.toNat * 256
  | a :: b :: r => a.toNat * 256 + b.toNat + sum16 r

/-- Fold a sum to 16 bits with end-around carry. -/
def fold16 (n : Nat) : Nat :=
  let a := n % 65536 + n / 65536
  let b := a % 65536 + a / 65536
  b % 65536 + b / 65536

/-- The internet checksum of a string. -/
def inetSum (bs : List Byte) : Nat := 65535 - fold16 (sum16 bs)

/-- Two's complement reading of a `w`-bit number. -/
def signed (w v : Nat) : Int := if v % 2 ^ w < 2 ^ (w - 1) then (v % 2 ^ w : Int) else (v % 2 ^ w : Int) - 2 ^ w

/-- The `w`-bit encoding of an integer. -/
def unsigned (w : Nat) (v : Int) : Nat := (v % (2 ^ w : Int)).toNat

/-! ## Sparse stores

A store lists its keys strictly rising and never an entry equal to the default of its key. -/

/-- The entry listed at `k`. -/
def sfind {α : Type} (m : Sparse α) (k : Nat) : Option α :=
  match m with
  | [] => none
  | (k', v) :: r => if k' = k then some v else sfind r k

/-- The value at `k`, `d` where none is listed. -/
def sget {α : Type} (d : α) (m : Sparse α) (k : Nat) : α := (sfind m k).getD d

/-- List `v` at `k`. -/
def sput {α : Type} (m : Sparse α) (k : Nat) (v : α) : Sparse α :=
  match m with
  | [] => [(k, v)]
  | (k', v') :: r =>
    if k < k' then (k, v) :: (k', v') :: r
    else if k = k' then (k, v) :: r
    else (k', v') :: sput r k v

/-- Take the entry of `k` out. -/
def serase {α : Type} (m : Sparse α) (k : Nat) : Sparse α := m.filter (fun e => e.1 != k)

/-- Write `v` at `k`; the default is not listed. -/
def sset {α : Type} [DecidableEq α] (d : α) (m : Sparse α) (k : Nat) (v : α) : Sparse α :=
  if v = d then serase m k else sput m k v

/-- Keys strictly rising. -/
def srising {α : Type} : Sparse α → Bool
  | [] => true
  | [_] => true
  | (a, _) :: (b, v) :: r => decide (a < b) && srising ((b, v) :: r)

/-- The canonical form of a store: keys strictly rising, no entry equal to the default. -/
def swf {α : Type} [DecidableEq α] (d : α) (m : Sparse α) : Bool :=
  srising m && m.all (fun e => decide (e.2 ≠ d))

/-- Replace element `i` of a list by `f` of it. -/
def lmod {α : Type} (l : List α) (i : Nat) (f : α → α) : List α := l.modify i f

/-- Replace element `i` of a list. -/
def lset {α : Type} (l : List α) (i : Nat) (v : α) : List α := l.set i v

end Sys2Proof.Machine
end

