-- ==== Sys2Proof/Machine/Crypto.lean ====
section
/-!
DEFINITION. The cryptographic functions of 00 Table 0-2, by the standards named there: SHA-256 (FIPS 180), HMAC (FIPS 198),
AES (FIPS 197) with its modes (SP 800-38), ChaCha20-Poly1305 (RFC 8439), ECDSA over P-256 (FIPS 186) and HMAC_DRBG
(SP 800-90A). Byte strings stand in the order of their standard; the coordinates X, Y and the values r, s are little-endian
numbers (00 R3).
-/

namespace Sys2Proof.Machine

/-- A string in pieces of `n` bytes, the last one as long as it is. -/
def groupsFrom (n : Nat) : Nat → List Byte → List (List Byte)
  | 0, _ => []
  | fuel + 1, bs => if bs.isEmpty then [] else bs.take n :: groupsFrom n fuel (bs.drop n)

def byteGroups (n : Nat) (bs : List Byte) : List (List Byte) := groupsFrom n bs.length bs

def xorBytes (a b : List Byte) : List Byte := List.zipWith (· ^^^ ·) a b

/-! ## SHA-256 and HMAC -/

/-- The 64 constants of the rounds. -/
def shaK : List (BitVec 32) :=
  [0x428a2f98, 0x71374491, 0xb5c0fbcf, 0xe9b5dba5, 0x3956c25b, 0x59f111f1, 0x923f82a4, 0xab1c5ed5,
   0xd807aa98, 0x12835b01, 0x243185be, 0x550c7dc3, 0x72be5d74, 0x80deb1fe, 0x9bdc06a7, 0xc19bf174,
   0xe49b69c1, 0xefbe4786, 0x0fc19dc6, 0x240ca1cc, 0x2de92c6f, 0x4a7484aa, 0x5cb0a9dc, 0x76f988da,
   0x983e5152, 0xa831c66d, 0xb00327c8, 0xbf597fc7, 0xc6e00bf3, 0xd5a79147, 0x06ca6351, 0x14292967] ++
  [0x27b70a85, 0x2e1b2138, 0x4d2c6dfc, 0x53380d13, 0x650a7354, 0x766a0abb, 0x81c2c92e, 0x92722c85,
   0xa2bfe8a1, 0xa81a664b, 0xc24b8b70, 0xc76c51a3, 0xd192e819, 0xd6990624, 0xf40e3585, 0x106aa070,
   0x19a4c116, 0x1e376c08, 0x2748774c, 0x34b0bcb5, 0x391c0cb3, 0x4ed8aa4a, 0x5b9cca4f, 0x682e6ff3,
   0x748f82ee, 0x78a5636f, 0x84c87814, 0x8cc70208, 0x90befffa, 0xa4506ceb, 0xbef9a3f7, 0xc67178f2]

/-- The initial hash value. -/
def shaInit : List (BitVec 32) :=
  [0x6a09e667, 0xbb67ae85, 0x3c6ef372, 0xa54ff53a, 0x510e527f, 0x9b05688c, 0x1f83d9ab, 0x5be0cd19]

/-- Three rotations of a word to the right, the last one a shift where `cut` says so, joined by exclusive-OR. -/
def shaMix (x : BitVec 32) (i j k : Nat) (cut : Bool) : BitVec 32 :=
  x.rotateRight i ^^^ x.rotateRight j ^^^ (if cut then x >>> k else x.rotateRight k)

/-- `n` more words of the message schedule, newest first. -/
def shaExtend : Nat → List (BitVec 32) → List (BitVec 32)
  | 0, w => w
  | n + 1, w =>
    let g (i : Nat) : BitVec 32 := w.getD i 0
    shaExtend n ((shaMix (g 1) 17 19 10 true + g 6 + shaMix (g 14) 7 18 3 true + g 15) :: w)

/-- One round on the eight working variables. -/
def shaRound (v : List (BitVec 32)) (kw : BitVec 32) : List (BitVec 32) :=
  match v with
  | [a, b, c, d, e, f, g, h] =>
    let t := h + shaMix e 6 11 25 false + ((e &&& f) ^^^ (~~~e &&& g)) + kw
    [t + shaMix a 2 13 22 false + ((a &&& b) ^^^ (a &&& c) ^^^ (b &&& c)), a, b, c, d + t, e, f, g]
  | _ => v

/-- One block of 64 bytes. -/
def shaBlock (v : List (BitVec 32)) (block : List Byte) : List (BitVec 32) :=
  let w := (shaExtend 48 ((byteGroups 4 block).map (fun p => BitVec.ofNat 32 (beNat p))).reverse).reverse
  List.zipWith (· + ·) v ((List.zipWith (· + ·) shaK w).foldl shaRound v)

/-- SHA-256; the first byte of the output is the most significant one. -/
@[irreducible] def sha256 (bs : List Byte) : BitVec 256 :=
  let padded := bs ++ 0x80 :: List.replicate ((119 - bs.length % 64) % 64) 0 ++ beBytes 8 (8 * bs.length)
  BitVec.ofNat 256 (((byteGroups 64 padded).foldl shaBlock shaInit).foldl (fun a w => a * 2 ^ 32 + w.toNat) 0)

/-- A digest as the bytes of the SHA-256 output. -/
def digestBytes (d : BitVec 256) : List Byte := beBytes 32 d.toNat

def shaBytes (bs : List Byte) : List Byte := digestBytes (sha256 bs)

/-- HMAC-SHA-256 under a key of at most 64 bytes. -/
@[irreducible] def hmac (key bs : List Byte) : BitVec 256 :=
  let pad (b : Byte) : List Byte := (bytesAt key 0 64).map (· ^^^ b)
  sha256 (pad 0x5C ++ shaBytes (pad 0x36 ++ bs))

def hmacBytes (key bs : List Byte) : List Byte := digestBytes (hmac key bs)

/-! ## AES -/

/-- The substitution of a byte, and its inverse: byte `i` of the number is the image of `i`. -/
def aesSub : Nat :=
  0x16bb54b00f2d99416842e6bf0d89a18cdf2855cee9871e9b948ed9691198f8e19e1dc186b95735610ef6034866b53e708a8bbd4b1f74dde8c6b4a61c2e2578ba08ae7a65eaf4566ca94ed58d6d37c8e779e4959162acd3c25c2406490a3a32e0db0b5ede14b8ee4688902a22dc4f816073195d643d7ea7c41744975fec130ccdd2f3ff1021dab6bcf5389d928f40a351a89f3c507f02f94585334d43fbaaefd0cf584c4a39becb6a5bb1fc20ed00d153842fe329b3d63b52a05a6e1b1a2c830975b227ebe28012079a059618c323c7041531d871f1e5a534ccf73f362693fdb7c072a49cafa2d4adf04759fa7dc982ca76abd7fe2b670130c56f6bf27b777c63

def aesUnsub : Nat :=
  0x7d0c2155631469e126d677ba7e042b17619953833cbbebc8b0f52aae4d3be0a0ef9cc9939f7ae52d0d4ab519a97f51605fec8027591012b131c7078833a8dd1ff45acd78fec0db9a2079d2c64b3e56fc1bbe18aa0e62b76f89c5291d711af1476edf751ce837f9e28535ade72274ac9673e6b4f0cecff297eadc674f4111913a6b8a130103bdafc1020f3fca8f1e2cd00645b3b80558e4f70ad3bc8c00abd890849d8da75746155edab9edfd5048706c92b6655dcc5ca4d41698688664f6f87225d18b6d49a25b76b224d92866a12e084ec3fa420b954cee3d23c2a632947b54cbe9dec444438e3487ff2f9b8239e37cfbd7f3819ea340bf38a53630d56a0952

def aesByte (table : Nat) (b : Byte) : Byte := BitVec.ofNat 8 (table >>> (8 * b.toNat))

/-- Multiplication by x in GF(2^8). -/
def aesDouble (b : Byte) : Byte := if b.getLsbD 7 then (b <<< 1) ^^^ 0x1B else b <<< 1

/-- Multiplication by a constant below 16. -/
def aesTimes (c : Nat) (b : Byte) : Byte :=
  let d := aesDouble b
  let e := aesDouble d
  (if c.testBit 0 then b else 0) ^^^ (if c.testBit 1 then d else 0) ^^^ (if c.testBit 2 then e else 0) ^^^
    (if c.testBit 3 then aesDouble e else 0)

/-- Row r of the state moves by r columns: place i takes byte step · i. -/
def aesShift (step : Nat) (st : List Byte) : List Byte := (List.range 16).map (fun i => byteAt st (step * i % 16))

/-- Each column is multiplied by the circulant of four constants. -/
def aesMix (cs : List Nat) (st : List Byte) : List Byte :=
  (List.range 16).map (fun i =>
    (List.range 4).foldl (fun a j => a ^^^ aesTimes (cs.getD ((j + 4 - i % 4) % 4) 0) (byteAt st (i / 4 * 4 + j))) 0)

/-- `n` more words of the key schedule, newest first; word `i` is the next, and `nk` words make the key. -/
def aesExpand (nk : Nat) : Nat → Nat → List (List Byte) → List (List Byte)
  | 0, _, ws => ws
  | n + 1, i, ws =>
    let last := ws.headD []
    let t :=
      if i % nk = 0 then
        xorBytes ((last.drop 1 ++ last.take 1).map (aesByte aesSub))
          [(List.range (i / nk - 1)).foldl (fun b _ => aesDouble b) 1, 0, 0, 0]
      else if 6 < nk ∧ i % nk = 4 then last.map (aesByte aesSub)
      else last
    aesExpand nk n (i + 1) (xorBytes (ws.getD (nk - 1) []) t :: ws)

/-- The round keys of a key of 16 or 32 bytes. -/
def aesKeys (key : List Byte) : List (List Byte) :=
  let nk := key.length / 4
  byteGroups 16 (aesExpand nk (4 * (nk + 7) - nk) nk (byteGroups 4 key).reverse).reverse.flatten

/-- The block cipher on a block of 16 bytes. -/
@[irreducible] def aesEncrypt (key block : List Byte) : List Byte :=
  match aesKeys key with
  | [] => block
  | k :: ks =>
    let sub (st : List Byte) : List Byte := aesShift 5 (st.map (aesByte aesSub))
    let st := ks.dropLast.foldl (fun st k => xorBytes (aesMix [2, 3, 1, 1] (sub st)) k) (xorBytes block k)
    xorBytes (sub st) (ks.getLastD [])

/-- Its inverse. -/
@[irreducible] def aesDecrypt (key block : List Byte) : List Byte :=
  match (aesKeys key).reverse with
  | [] => block
  | k :: ks =>
    let sub (st : List Byte) : List Byte := (aesShift 13 st).map (aesByte aesUnsub)
    let st := ks.dropLast.foldl (fun st k => aesMix [14, 11, 13, 9] (xorBytes (sub st) k)) (xorBytes block k)
    xorBytes (sub st) (ks.getLastD [])

/-! ## Modes -/

/-- Counter mode: the block after `b` is `next b`. -/
def ctrFrom (key : List Byte) (next : Nat → Nat) : Nat → List (List Byte) → List Byte
  | _, [] => []
  | b, p :: ps => xorBytes p (aesEncrypt key (beBytes 16 b)) ++ ctrFrom key next (next b) ps

/-- AES-CTR: the counter block counts as a number of 128 bits, most significant byte first (09 Table 9-3). -/
def aesCtr (key iv text : List Byte) : List Byte :=
  ctrFrom key (fun b => (b + 1) % 2 ^ 128) (beNat iv) (byteGroups 16 text)

def cbcFrom (key : List Byte) (dec : Bool) : List Byte → List (List Byte) → List Byte
  | _, [] => []
  | iv, p :: ps =>
    if dec then xorBytes (aesDecrypt key p) iv ++ cbcFrom key dec p ps
    else
      let c := aesEncrypt key (xorBytes p iv)
      c ++ cbcFrom key dec c ps

def aesCbc (dec : Bool) (key iv text : List Byte) : List Byte := cbcFrom key dec iv (byteGroups 16 text)

def xtsFrom (key : List Byte) (dec : Bool) : Nat → List (List Byte) → List Byte
  | _, [] => []
  | t, p :: ps =>
    let tb := leBytes 16 t
    let x := xorBytes p tb
    let t2 := t * 2 % 2 ^ 128
    xorBytes (if dec then aesDecrypt key x else aesEncrypt key x) tb ++
      xtsFrom key dec (if t < 2 ^ 127 then t2 else t2 ^^^ 0x87) ps

/-- AES-XTS on one data unit: the first half of the key for the data, the second for the tweak (SP 800-38E). -/
def aesXts (dec : Bool) (key tweak text : List Byte) : List Byte :=
  let h := key.length / 2
  xtsFrom (key.take h) dec (leNat (aesEncrypt (key.drop h) tweak)) (byteGroups 16 text)

/-- Multiplication in GF(2^128) of GCM, on numbers whose most significant bit is bit 0 of the string. -/
def ghashMul (x y : Nat) : Nat :=
  ((List.range 128).foldl (fun (zv : Nat × Nat) i =>
    (if x.testBit (127 - i) then zv.1 ^^^ zv.2 else zv.1,
      if zv.2.testBit 0 then (zv.2 >>> 1) ^^^ (0xE1 <<< 120) else zv.2 >>> 1)) (0, y)).1

/-- GHASH of AAD and text, each padded with zeros to whole blocks, with their lengths behind. -/
def ghash (h : Nat) (aad text : List Byte) : Nat :=
  let blocks (bs : List Byte) : List Nat := (byteGroups 16 bs).map (fun p => beNat (bytesAt p 0 16))
  (blocks aad ++ blocks text ++ [aad.length * 8 * 2 ^ 64 + text.length * 8]).foldl (fun a b => ghashMul (a ^^^ b) h) 0

/-- AES-GCM with a 96-bit IV: the text out, which the inverse direction computes alike. -/
def gcmText (key iv text : List Byte) : List Byte :=
  ctrFrom key (fun b => b / 2 ^ 32 * 2 ^ 32 + (b + 1) % 2 ^ 32) (beNat iv * 2 ^ 32 + 2) (byteGroups 16 text)

/-- The tag of AES-GCM over AAD and encrypted text. -/
def gcmTag (key iv aad text : List Byte) : List Byte :=
  let h := beNat (aesEncrypt key (List.replicate 16 0))
  xorBytes (beBytes 16 (ghash h aad text)) (aesEncrypt key (beBytes 16 (beNat iv * 2 ^ 32 + 1)))

/-- AES-CMAC (SP 800-38B). -/
def aesCmac (key text : List Byte) : List Byte :=
  let double (x : Nat) : Nat := if x < 2 ^ 127 then x * 2 else (x * 2 % 2 ^ 128) ^^^ 0x87
  let k1 := double (beNat (aesEncrypt key (List.replicate 16 0)))
  let ps := byteGroups 16 text
  let last := ps.getLastD []
  let final := if last.length = 16 then xorBytes last (beBytes 16 k1)
    else xorBytes (bytesAt (last ++ [0x80]) 0 16) (beBytes 16 (double k1))
  (ps.dropLast ++ [final]).foldl (fun a p => aesEncrypt key (xorBytes a p)) (List.replicate 16 0)

/-! ## ChaCha20-Poly1305 -/

/-- A quarter round on words a, b, c, d of the state. -/
def chaQuarter (st : List (BitVec 32)) (a b c d : Nat) : List (BitVec 32) :=
  let step (st : List (BitVec 32)) (a b d n : Nat) : List (BitVec 32) :=
    let st := lset st a (st.getD a 0 + st.getD b 0)
    lset st d ((st.getD d 0 ^^^ st.getD a 0).rotateLeft n)
  step (step (step (step st a b d 16) c d b 12) a b d 8) c d b 7

/-- Two rounds: four columns, then four diagonals. -/
def chaDouble (st : List (BitVec 32)) : List (BitVec 32) :=
  let st := (List.range 4).foldl (fun st i => chaQuarter st i (4 + i) (8 + i) (12 + i)) st
  (List.range 4).foldl (fun st i => chaQuarter st i (4 + (i + 1) % 4) (8 + (i + 2) % 4) (12 + (i + 3) % 4)) st

/-- Block `ctr` of the key stream, 64 bytes. -/
@[irreducible] def chaBlock (key nonce : List Byte) (ctr : Nat) : List Byte :=
  let st := (byteGroups 4 (leBytes 16 0x6b206574_79622d32_3320646e_61707865 ++ key ++ leBytes 4 ctr ++ nonce)).map
    (fun p => BitVec.ofNat 32 (leNat p))
  (List.zipWith (· + ·) st ((List.range 10).foldl (fun st _ => chaDouble st) st)).flatMap (fun w => leBytes 4 w.toNat)

def chaFrom (key nonce : List Byte) : Nat → List (List Byte) → List Byte
  | _, [] => []
  | ctr, p :: ps => xorBytes p (chaBlock key nonce ctr) ++ chaFrom key nonce (ctr + 1) ps

def chaText (key nonce text : List Byte) : List Byte := chaFrom key nonce 1 (byteGroups 64 text)

/-- The tag over AAD and encrypted text. -/
def chaTag (key nonce aad text : List Byte) : List Byte :=
  let k := chaBlock key nonce 0
  let r := leNat (k.take 16) &&& 0x0ffffffc0ffffffc0ffffffc0fffffff
  let pad (bs : List Byte) : List Byte := bs ++ List.replicate ((16 - bs.length % 16) % 16) 0
  let acc := (byteGroups 16 (pad aad ++ pad text ++ leBytes 8 aad.length ++ leBytes 8 text.length)).foldl
    (fun a p => (a + leNat p + 2 ^ (8 * p.length)) * r % (2 ^ 130 - 5)) 0
  leBytes 16 (acc + leNat (bytesAt k 16 16))

/-! ## P-256 -/

def ecP : Nat := 0xffffffff00000001000000000000000000000000ffffffffffffffffffffffff
/-- The order of the group. -/
def ecN : Nat := 0xffffffff00000000ffffffffffffffffbce6faada7179e84f3b9cac2fc632551
def ecB : Nat := 0x5ac635d8aa3a93e7b3ebbd55769886bc651d06b0cc53b0f63bce3c3e27d2604b
/-- The base point. -/
def ecG : Nat × Nat :=
  (0x6b17d1f2e12c4247f8bce6e563a440f277037d812deb33a0f4a13945d898c296,
    0x4fe342e2fe1a7f9b8ee7eb4a7c0f9e162bce33576b315ececbb6406837bf51f5)

/-- The exponentiation b^e modulo m, on exponents of 256 bits. -/
def powMod (b e m : Nat) : Nat :=
  (List.range 256).foldl (fun a i => if e.testBit (255 - i) then a * a % m * b % m else a * a % m) 1

/-- The inverse modulo a prime. -/
def invMod (a p : Nat) : Nat := powMod a (p - 2) p

/-- A difference modulo p. -/
def ecSub (a b : Nat) : Nat := (a + ecP - b % ecP) % ecP

/-- Twice a point in Jacobian coordinates; Z 0 is the point at infinity. -/
def ecDouble (q : Nat × Nat × Nat) : Nat × Nat × Nat :=
  let (x, y, z) := q
  let g := y * y % ecP
  let b := x * g % ecP
  let d := z * z % ecP
  let a := 3 * ecSub x d * (x + d) % ecP
  let x3 := ecSub (a * a) (8 * b)
  (x3, ecSub (a * ecSub (4 * b) x3) (8 * (g * g)), 2 * y * z % ecP)

/-- The sum of two points. -/
def ecAdd (q r : Nat × Nat × Nat) : Nat × Nat × Nat :=
  let (x1, y1, z1) := q
  let (x2, y2, z2) := r
  if z1 = 0 then r
  else if z2 = 0 then q
  else
    let u1 := x1 * z2 * z2 % ecP
    let u2 := x2 * z1 * z1 % ecP
    let s1 := y1 * z2 * z2 * z2 % ecP
    let s2 := y2 * z1 * z1 * z1 % ecP
    if u1 = u2 then (if s1 = s2 then ecDouble q else (1, 1, 0))
    else
      let h := ecSub u2 u1
      let v := u1 * h * h % ecP
      let t := ecSub s2 s1
      let x3 := ecSub (t * t) (h * h * h + 2 * v)
      (x3, ecSub (t * ecSub v x3) (s1 * h * h * h), h * z1 * z2 % ecP)

def ecMul (k : Nat) (q : Nat × Nat × Nat) : Nat × Nat × Nat :=
  (List.range 256).foldl (fun a i => let d := ecDouble a; if k.testBit (255 - i) then ecAdd d q else d) (1, 1, 0)

/-- The affine point; none: the point at infinity. -/
def ecAffine (q : Nat × Nat × Nat) : Option (Nat × Nat) :=
  if q.2.2 = 0 then none
  else
    let i := invMod q.2.2 ecP
    some (q.1 * i * i % ecP, q.2.1 * i * i * i % ecP)

/-- A point of the curve. -/
def ecOn (q : Nat × Nat) : Bool :=
  decide (q.1 < ecP) && decide (q.2 < ecP) && (q.2 * q.2 % ecP == (q.1 * q.1 * q.1 + (ecP - 3) * q.1 + ecB) % ecP)

/-- Two numbers of 32 bytes each, X‖Y or r‖s, least significant byte first (00 R3, 15 R348). -/
def pairNat (bs : List Byte) : Nat × Nat := (leNat (bytesAt bs 0 32), leNat (bytesAt bs 32 32))

def pairBytes (q : Nat × Nat) : List Byte := leBytes 32 q.1 ++ leBytes 32 q.2

/-- The public key X‖Y of a private scalar. -/
@[irreducible] def ecPublic (d : Nat) : List Byte := pairBytes ((ecAffine (ecMul d (ecG.1, ecG.2, 1))).getD (0, 0))

/-- The X coordinate of the ECDH shared point, as SP 800-56A writes it: most significant byte first (assumption 276); none:
the other key is no point of the curve. The curve has prime order, so a scalar below it gives a point other than infinity. -/
@[irreducible] def ecdh (d : Nat) (key : List Byte) : Option (List Byte) :=
  let q := pairNat key
  if ecOn q then some (beBytes 32 ((ecAffine (ecMul d (q.1, q.2, 1))).getD (0, 0)).1) else none

/-- ECDSA verification: public key X‖Y, signature r‖s, digest (FIPS 186). -/
@[irreducible] def ecdsaVerify (key sig : List Byte) (digest : BitVec 256) : Bool :=
  let q := pairNat key
  let (r, t) := pairNat sig
  if !ecOn q ∨ r = 0 ∨ ecN ≤ r ∨ t = 0 ∨ ecN ≤ t then false
  else
    let w := invMod t ecN
    match ecAffine (ecAdd (ecMul (digest.toNat * w % ecN) (ecG.1, ecG.2, 1)) (ecMul (r * w % ecN) (q.1, q.2, 1))) with
    | none => false
    | some p => p.1 % ecN == r

/-- The ECDSA signature r‖s by the private scalar `d` with the per-message number `k`, which FIPS 186 draws. -/
@[irreducible] def ecdsaSign (d k : Nat) (digest : BitVec 256) : List Byte :=
  let r := ((ecAffine (ecMul k (ecG.1, ecG.2, 1))).getD (0, 0)).1 % ecN
  pairBytes (r, invMod k ecN * (digest.toNat + r * d) % ecN)

/-- A private scalar, or the number k of a signature, from random bits of more than 256: 1 to n − 1. -/
def ecScalar (bits : BitVec 512) : Nat := bits.toNat % (ecN - 1) + 1

/-! ## HMAC_DRBG and the identity scalar (15 R363) -/

/-- HMAC_DRBG_Update without more input, on (K, V). -/
def drbgUpdate (kv : List Byte × List Byte) : List Byte × List Byte :=
  let k := hmacBytes kv.1 (kv.2 ++ [0])
  (k, hmacBytes k kv.2)

/-- HMAC_DRBG instantiated with an entropy input, an empty nonce and an empty personalization string. -/
def drbgInit (entropy : List Byte) : List Byte × List Byte :=
  let v0 := List.replicate 32 1
  let k1 := hmacBytes (List.replicate 32 0) (v0 ++ 0 :: entropy)
  let v1 := hmacBytes k1 v0
  let k2 := hmacBytes k1 (v1 ++ 1 :: entropy)
  (k2, hmacBytes k2 v1)

/-- Rejection sampling (FIPS 186-5 A.2.2): 256 bits at a time until they are at most n − 2, then plus 1. Fuel bounds the
search, which fails at each try with probability 2^-32. -/
def sampleScalar : Nat → List Byte × List Byte → Nat
  | 0, kv => beNat kv.2 % (ecN - 1) + 1
  | fuel + 1, kv =>
    let v := hmacBytes kv.1 kv.2
    if beNat v ≤ ecN - 2 then beNat v + 1 else sampleScalar fuel (drbgUpdate (kv.1, v))

/-- The private scalar of a seed. -/
def seedScalar (seed : List Byte) : Nat := sampleScalar 64 (drbgInit seed)

end Sys2Proof.Machine
end

