-- ==== Sys2Proof/Machine/Directory.lean ====
section
/-!
DEFINITION. The object directory (17): one descriptor for every index and sub that the object and counter tables of the
chapters give, with type, access, default, element count, range, alignment and the critical flag of Table 17-4.
-/

namespace Sys2Proof.Machine

/-- A row of an object table (16 R369–R376, 17 R398–R404). `acc` has four bits per role from bit 0, factory, operator,
host driver, tenant: bit 0 read, bit 1 write (Table 16-3). `elems` 0 is a scalar. `dk` names a default that depends on
the element: 0 `dflt`; 1 e/4; 2 e/16; 3 e/8; 4 e/2; 5 4,096·e; 6 1,024 on link 0. `crit` bit 0 critical, bit 1 survives a
power cycle, bit 2 two-level numbering, as FLAGS of Table 16-3. -/
structure ObjDesc where
  lo : Nat
  hi : Nat
  sub : Nat
  ty : Nat
  acc : Nat
  elems : Nat
  dflt : Nat
  dk : Nat
  least : Int
  most : Int
  align : Nat
  flags : Nat
  /-- the Unit column; DESCRIBE gives its first 8 bytes (16 Table 16-3; DESIGN CHOICE for a longer unit, which the table does
  not settle: assumption 171) -/
  unit : String
deriving DecidableEq, Repr

/-- Descriptors of 0x1000.01 to 0x2000.05. -/
def dir0 : List ObjDesc := [
  ⟨0x1000, 0x1000, 0x01, 5, 0x1111, 0, 0, 0, 0, 18446744073709551615, 1, 2, ""⟩,
  ⟨0x1000, 0x1000, 0x02, 10, 0x1111, 0, 0, 0, 64, 64, 1, 0, ""⟩,
  ⟨0x1000, 0x1000, 0x03, 9, 0x0111, 0, 0, 0, 0, 3, 1, 0, ""⟩,
  ⟨0x1000, 0x1000, 0x04, 2, 0x1111, 0, 1, 0, 1, 255, 1, 0, ""⟩,
  ⟨0x1000, 0x1000, 0x05, 3, 0x0133, 0, 7997, 0, 1, 65534, 1, 2, ""⟩,
  ⟨0x1000, 0x1000, 0x06, 3, 0x0133, 0, 0, 0, 0, 65535, 1, 2, ""⟩,
  ⟨0x1000, 0x1000, 0x07, 10, 0x1111, 0, 0, 0, 16, 16, 1, 0, ""⟩,
  ⟨0x1001, 0x1001, 0x01, 10, 0x0111, 0, 0, 0, 0, 4294967295, 1, 2, ""⟩,
  ⟨0x1010, 0x1010, 0x01, 10, 0x0111, 6, 0, 0, 32, 32, 1, 0, ""⟩,
  ⟨0x1020, 0x1020, 0x01, 10, 0x0222, 0, 0, 0, 32, 32, 1, 0, ""⟩,
  ⟨0x1020, 0x1020, 0x02, 10, 0x0111, 0, 0, 0, 64, 64, 1, 0, ""⟩,
  ⟨0x1030, 0x1030, 0x01, 10, 0x0111, 0, 0, 0, 32, 32, 1, 2, ""⟩,
  ⟨0x1030, 0x1030, 0x02, 10, 0x0033, 8, 0, 0, 64, 64, 1, 1, ""⟩,
  ⟨0x1030, 0x1030, 0x03, 10, 0x0033, 4, 0, 0, 64, 64, 1, 1, ""⟩,
  ⟨0x1030, 0x1030, 0x04, 1, 0x0033, 0, 1, 0, 0, 1, 1, 1, ""⟩,
  ⟨0x1040, 0x1040, 0x01, 10, 0x0111, 0, 0, 0, 6, 6, 1, 2, ""⟩,
  ⟨0x1040, 0x1040, 0x02, 3, 0x0133, 0, 300, 0, 10, 3600, 1, 0, "s"⟩,
  ⟨0x1040, 0x1040, 0x03, 3, 0x0133, 0, 1000, 0, 100, 60000, 1, 0, "ms"⟩,
  ⟨0x1040, 0x1040, 0x04, 2, 0x0111, 6, 0, 0, 0, 255, 1, 0, "session"⟩,
  ⟨0x2000, 0x2000, 0x01, 2, 0x0111, 0, 0, 0, 0, 255, 1, 0, ""⟩,
  ⟨0x2000, 0x2000, 0x02, 9, 0x0111, 6, 0, 0, 0, 255, 1, 2, ""⟩,
  ⟨0x2000, 0x2000, 0x03, 9, 0x0111, 6, 0, 0, 0, 7, 1, 0, ""⟩,
  ⟨0x2000, 0x2000, 0x04, 5, 0x0111, 6, 0, 0, 0, 18446744073709551615, 1, 0, ""⟩,
  ⟨0x2000, 0x2000, 0x05, 2, 0x0111, 0, 0, 0, 0, 255, 1, 0, "bit per type"⟩]

/-- Descriptors of 0x2010.01 to 0x2120.01. -/
def dir1 : List ObjDesc := [
  ⟨0x2010, 0x2010, 0x01, 1, 0x0322, 0, 0, 0, 0, 1, 1, 0, ""⟩,
  ⟨0x2010, 0x2010, 0x02, 3, 0x0133, 0, 120, 0, 10, 600, 1, 3, "s"⟩,
  ⟨0x2010, 0x2010, 0x03, 3, 0x0111, 0, 0, 0, 0, 600, 1, 0, "s"⟩,
  ⟨0x2020, 0x2020, 0x01, 9, 0x0033, 0, 0, 0, 1, 3, 1, 0, ""⟩,
  ⟨0x2020, 0x2020, 0x02, 11, 0x0022, 0, 0, 0, 0, 4294967295, 1, 0, "byte"⟩,
  ⟨0x2020, 0x2020, 0x03, 1, 0x0022, 0, 0, 0, 0, 1, 1, 0, ""⟩,
  ⟨0x2020, 0x2020, 0x04, 9, 0x0011, 0, 0, 0, 0, 7, 1, 0, ""⟩,
  ⟨0x2030, 0x2030, 0x01, 2, 0x0111, 0, 0, 0, 0, 255, 1, 2, ""⟩,
  ⟨0x2030, 0x2030, 0x02, 2, 0x0033, 0, 0, 0, 0, 255, 1, 0, ""⟩,
  ⟨0x2030, 0x2030, 0x03, 1, 0x0033, 4, 0, 0, 0, 1, 1, 2, ""⟩,
  ⟨0x2030, 0x2030, 0x04, 2, 0x0111, 0, 0, 0, 0, 15, 1, 2, "bit per key"⟩,
  ⟨0x2040, 0x2040, 0x01, 4, 0x0111, 0, 0, 0, 0, 4294967295, 1, 0, ""⟩,
  ⟨0x2040, 0x2040, 0x02, 4, 0x0111, 0, 0, 0, 0, 4294967295, 1, 0, ""⟩,
  ⟨0x2040, 0x2040, 0x03, 4, 0x0111, 0, 0, 0, 0, 4294967295, 1, 0, ""⟩,
  ⟨0x2100, 0x2100, 0x01, 9, 0x0033, 0, 1, 0, 0, 1, 1, 0, ""⟩,
  ⟨0x2100, 0x2100, 0x02, 3, 0x0033, 0, 100, 0, 1, 10000, 1, 0, "ms"⟩,
  ⟨0x2100, 0x2100, 0x03, 9, 0x0011, 0, 0, 0, 0, 3, 1, 0, ""⟩,
  ⟨0x2100, 0x2100, 0x04, 3, 0x0033, 0, 10, 0, 1, 100, 1, 0, "ms"⟩,
  ⟨0x2100, 0x2100, 0x05, 2, 0x0111, 0, 0, 0, 0, 63, 1, 0, "bit per rail"⟩,
  ⟨0x2110, 0x2110, 0x01, 9, 0x0133, 34, 0, 0, 0, 2, 1, 0, ""⟩,
  ⟨0x2110, 0x2110, 0x02, 3, 0x0133, 34, 10, 0, 1, 10000, 1, 0, "ms"⟩,
  ⟨0x2110, 0x2110, 0x03, 9, 0x0111, 34, 0, 0, 0, 2, 1, 0, ""⟩,
  ⟨0x2110, 0x2110, 0x04, 4, 0x0111, 34, 0, 0, 0, 4294967295, 1, 0, "unit"⟩,
  ⟨0x2120, 0x2120, 0x01, 7, 0x0111, 0, 0, 0, (-5500), 15000, 1, 0, "0.01 C"⟩]

/-- Descriptors of 0x2120.02 to 0x3000.01. -/
def dir2 : List ObjDesc := [
  ⟨0x2120, 0x2120, 0x02, 7, 0x0111, 32, 0, 0, (-32768), 32767, 1, 0, "0.01 C"⟩,
  ⟨0x2130, 0x2130, 0x01, 1, 0x0111, 0, 0, 0, 0, 1, 1, 0, ""⟩,
  ⟨0x2200, 0x2200, 0x01, 2, 0x0111, 0, 0, 0, 0, 15, 1, 0, ""⟩,
  ⟨0x2200, 0x2200, 0x02, 1, 0x0111, 0, 0, 0, 0, 1, 1, 0, ""⟩,
  ⟨0x2200, 0x2200, 0x03, 9, 0x0033, 0, 0, 0, 0, 2, 1, 0, ""⟩,
  ⟨0x2200, 0x2200, 0x04, 9, 0x0111, 0, 0, 0, 0, 3, 1, 0, ""⟩,
  ⟨0x2200, 0x2200, 0x05, 2, 0x0111, 0, 0, 0, 0, 3, 1, 0, "bit per feed"⟩,
  ⟨0x2200, 0x2200, 0x06, 3, 0x0111, 0, 0, 0, 0, 4000, 1, 0, "mW"⟩,
  ⟨0x2210, 0x2210, 0x01, 9, 0x0111, 0, 0, 0, 0, 2, 1, 0, ""⟩,
  ⟨0x2210, 0x2210, 0x02, 9, 0x0111, 0, 0, 0, 0, 255, 1, 0, ""⟩,
  ⟨0x2210, 0x2210, 0x03, 1, 0x0133, 0, 0, 0, 0, 1, 1, 0, ""⟩,
  ⟨0x2220, 0x2220, 0x01, 4, 0x0033, 16, 0, 0, 0, 4294967295, 1, 0, "bit per lane"⟩,
  ⟨0x2220, 0x2220, 0x02, 3, 0x0033, 16, 12000, 0, 0, 40000, 1, 0, "mW"⟩,
  ⟨0x2220, 0x2220, 0x03, 9, 0x0111, 16, 0, 0, 0, 255, 1, 0, ""⟩,
  ⟨0x2220, 0x2220, 0x04, 3, 0x0033, 0, 60, 0, 1, 600, 1, 0, "s"⟩,
  ⟨0x2230, 0x2230, 0x01, 3, 0x0133, 0, 0, 0, 0, 65535, 1, 0, "bit per pin"⟩,
  ⟨0x2230, 0x2230, 0x02, 3, 0x0133, 0, 0, 0, 0, 65535, 1, 0, "bit per pin"⟩,
  ⟨0x2230, 0x2230, 0x03, 3, 0x0111, 0, 0, 0, 0, 65535, 1, 0, "bit per pin"⟩,
  ⟨0x2240, 0x2240, 0x01, 2, 0x0133, 4, 100, 0, 0, 100, 1, 0, "%"⟩,
  ⟨0x2240, 0x2240, 0x02, 3, 0x0111, 4, 0, 0, 0, 65535, 1, 0, "rpm"⟩,
  ⟨0x2260, 0x2260, 0x01, 9, 0x0111, 0, 0, 0, 0, 2, 1, 0, ""⟩,
  ⟨0x2260, 0x2260, 0x02, 4, 0x0111, 0, 0, 0, 0, 4294967295, 1, 0, ""⟩,
  ⟨0x2260, 0x2260, 0x03, 2, 0x0111, 0, 0, 0, 0, 63, 1, 0, "bit per kind"⟩,
  ⟨0x3000, 0x3000, 0x01, 3, 0x0111, 32, 0, 0, 0, 65535, 1, 2, ""⟩]

/-- Descriptors of 0x3000.02 to 0x4100.07. -/
def dir3 : List ObjDesc := [
  ⟨0x3000, 0x3000, 0x02, 3, 0x0111, 8, 0, 0, 0, 65535, 1, 2, ""⟩,
  ⟨0x3010, 0x3010, 0x01, 7, 0x0111, 32, 0, 0, (-32768), 32767, 1, 2, "0.01 C"⟩,
  ⟨0x3020, 0x3020, 0x01, 4, 0x0111, 16, 0, 0, 0, 4294967295, 1, 2, "ppm"⟩,
  ⟨0x3030, 0x3030, 0x01, 3, 0x0111, 34, 0, 0, 0, 65535, 1, 2, "trim step"⟩,
  ⟨0x3040, 0x3040, 0x01, 4, 0x0111, 32, 0, 0, 0, 4294967295, 1, 2, ""⟩,
  ⟨0x3100, 0x3100, 0x01, 7, 0x0133, 32, 0, 0, (-4096), 4095, 1, 2, ""⟩,
  ⟨0x3100, 0x3100, 0x02, 7, 0x0133, 8, 0, 0, (-4096), 4095, 1, 2, ""⟩,
  ⟨0x3110, 0x3110, 0x01, 7, 0x0133, 32, 0, 0, (-2000), 2000, 1, 2, "0.01 C"⟩,
  ⟨0x3120, 0x3120, 0x01, 8, 0x0133, 16, 0, 0, (-50000), 50000, 1, 2, "ppm"⟩,
  ⟨0x3130, 0x3130, 0x01, 7, 0x0133, 34, 0, 0, (-512), 511, 1, 2, "trim step"⟩,
  ⟨0x3140, 0x3140, 0x01, 8, 0x0133, 32, 0, 0, (-65536), 65535, 1, 2, ""⟩,
  ⟨0x4000, 0x4000, 0x01, 9, 0x0133, 0, 0, 0, 0, 3, 1, 1, ""⟩,
  ⟨0x4000, 0x4000, 0x02, 2, 0x0111, 0, 0, 0, 0, 15, 1, 0, "bit per "⟩,
  ⟨0x4010, 0x4010, 0x01, 3, 0x0133, 0, 34997, 0, 1536, 65535, 1, 0, ""⟩,
  ⟨0x4010, 0x4010, 0x02, 10, 0x0133, 0, 0, 0, 6, 6, 1, 0, ""⟩,
  ⟨0x4010, 0x4010, 0x03, 4, 0x0133, 0, 0, 0, 0, 4294967295, 1, 0, "bit per "⟩,
  ⟨0x4010, 0x4010, 0x04, 4, 0x0133, 32, 0, 5, 0, 131071, 1, 0, "queue"⟩,
  ⟨0x4100, 0x411F, 0x01, 9, 0x0133, 0, 0, 0, 0, 6, 1, 1, ""⟩,
  ⟨0x4100, 0x411F, 0x02, 9, 0x0133, 0, 0, 0, 0, 2, 1, 0, ""⟩,
  ⟨0x4100, 0x411F, 0x03, 2, 0x0133, 0, 31, 0, 0, 31, 1, 0, "bit per "⟩,
  ⟨0x4100, 0x411F, 0x04, 9, 0x0133, 0, 0, 0, 0, 2, 1, 0, ""⟩,
  ⟨0x4100, 0x411F, 0x05, 9, 0x0111, 0, 0, 0, 0, 6, 1, 0, ""⟩,
  ⟨0x4100, 0x411F, 0x06, 9, 0x0111, 0, 0, 0, 0, 6, 1, 0, ""⟩,
  ⟨0x4100, 0x411F, 0x07, 9, 0x0111, 0, 0, 0, 0, 3, 1, 0, ""⟩]

/-- Descriptors of 0x4100.08 to 0x5003.02. -/
def dir4 : List ObjDesc := [
  ⟨0x4100, 0x411F, 0x08, 3, 0x0111, 0, 0, 0, 0, 65535, 1, 0, ""⟩,
  ⟨0x4200, 0x421F, 0x01, 9, 0x0133, 0, 0, 0, 0, 1, 1, 0, ""⟩,
  ⟨0x4200, 0x421F, 0x02, 3, 0x0133, 0, 16384, 0, 1518, 16384, 1, 0, "byte"⟩,
  ⟨0x4200, 0x421F, 0x03, 9, 0x0111, 0, 2, 0, 0, 2, 1, 0, ""⟩,
  ⟨0x4200, 0x421F, 0x04, 3, 0x0111, 0, 0, 0, 0, 800, 1, 0, "Gb/s"⟩,
  ⟨0x4200, 0x421F, 0x05, 4, 0x0111, 0, 0, 0, 0, 4294967295, 1, 0, "bit per "⟩,
  ⟨0x4200, 0x421F, 0x06, 2, 0x0111, 0, 0, 0, 0, 3, 1, 0, ""⟩,
  ⟨0x5000, 0x5000, 0x01, 9, 0x0111, 0, 0, 0, 0, 7, 1, 0, ""⟩,
  ⟨0x5000, 0x5000, 0x02, 2, 0x0111, 0, 0, 0, 0, 1, 1, 0, ""⟩,
  ⟨0x5000, 0x5000, 0x03, 5, 0x0111, 0, 0, 0, 0, 18446744073709551615, 1, 0, ""⟩,
  ⟨0x5000, 0x5000, 0x04, 5, 0x0111, 0, 0, 0, 0, 18446744073709551615, 1, 0, ""⟩,
  ⟨0x5000, 0x5000, 0x05, 4, 0x0111, 0, 0, 0, 0, 16777215, 1, 0, "item"⟩,
  ⟨0x5000, 0x5000, 0x06, 5, 0x0111, 0, 0, 0, 0, 18446744073709551615, 1, 0, "beat"⟩,
  ⟨0x5000, 0x5000, 0x07, 9, 0x0111, 0, 0, 0, 0, 255, 1, 0, ""⟩,
  ⟨0x5001, 0x5001, 0x01, 9, 0x0133, 0, 0, 0, 0, 1, 1, 0, ""⟩,
  ⟨0x5001, 0x5001, 0x02, 5, 0x0133, 0, 0, 0, 0, 18446744073709551615, 1, 0, "beat"⟩,
  ⟨0x5001, 0x5001, 0x03, 1, 0x0022, 0, 0, 0, 0, 1, 1, 0, ""⟩,
  ⟨0x5002, 0x5002, 0x01, 3, 0x0111, 0, 0, 0, 0, 65535, 1, 0, "slot"⟩,
  ⟨0x5002, 0x5002, 0x02, 3, 0x0111, 0, 0, 0, 0, 4096, 1, 0, "slot"⟩,
  ⟨0x5002, 0x5002, 0x03, 3, 0x0111, 0, 4096, 0, 0, 4096, 1, 0, "slot"⟩,
  ⟨0x5002, 0x5002, 0x04, 4, 0x0111, 0, 0, 0, 0, 32768, 1, 0, "grant per beat"⟩,
  ⟨0x5002, 0x5002, 0x05, 9, 0x0111, 0, 0, 0, 0, 1, 1, 0, ""⟩,
  ⟨0x5003, 0x5003, 0x01, 3, 0x0111, 0, 0, 0, 0, 65535, 1, 0, "slot"⟩,
  ⟨0x5003, 0x5003, 0x02, 3, 0x0111, 0, 0, 0, 0, 4096, 1, 0, "slot"⟩]

/-- Descriptors of 0x5003.03 to 0x5200.0F. -/
def dir5 : List ObjDesc := [
  ⟨0x5003, 0x5003, 0x03, 3, 0x0111, 0, 0, 0, 0, 4096, 1, 0, "slot"⟩,
  ⟨0x5003, 0x5003, 0x04, 4, 0x0111, 0, 0, 0, 0, 32768, 1, 0, "grant per beat"⟩,
  ⟨0x5003, 0x5003, 0x05, 9, 0x0111, 0, 0, 0, 0, 1, 1, 0, ""⟩,
  ⟨0x5100, 0x511F, 0x01, 3, 0x0111, 0, 0, 0, 0, 4096, 1, 0, "slot per beat"⟩,
  ⟨0x5100, 0x511F, 0x02, 3, 0x0111, 0, 4096, 0, 0, 4096, 1, 0, "slot"⟩,
  ⟨0x5100, 0x511F, 0x03, 3, 0x0111, 0, 0, 0, 0, 16384, 1, 0, "per beat"⟩,
  ⟨0x5100, 0x511F, 0x04, 3, 0x0111, 0, 0, 0, 0, 4096, 1, 0, "slot per beat"⟩,
  ⟨0x5100, 0x511F, 0x05, 3, 0x0111, 0, 0, 0, 0, 4096, 1, 0, "slot"⟩,
  ⟨0x5100, 0x511F, 0x06, 3, 0x0111, 0, 0, 0, 0, 16384, 1, 0, "per beat"⟩,
  ⟨0x5200, 0x5200, 0x01, 9, 0x0133, 0, 0, 0, 0, 2, 1, 0, ""⟩,
  ⟨0x5200, 0x5200, 0x02, 9, 0x0133, 0, 0, 0, 0, 2, 1, 0, ""⟩,
  ⟨0x5200, 0x5200, 0x03, 9, 0x0133, 0, 0, 0, 0, 2, 1, 0, ""⟩,
  ⟨0x5200, 0x5200, 0x04, 9, 0x0133, 0, 0, 0, 0, 2, 1, 0, ""⟩,
  ⟨0x5200, 0x5200, 0x05, 9, 0x0133, 0, 0, 0, 0, 2, 1, 0, ""⟩,
  ⟨0x5200, 0x5200, 0x06, 9, 0x0133, 0, 0, 0, 0, 2, 1, 0, ""⟩,
  ⟨0x5200, 0x5200, 0x07, 9, 0x0133, 0, 0, 0, 0, 2, 1, 0, ""⟩,
  ⟨0x5200, 0x5200, 0x08, 9, 0x0133, 0, 0, 0, 0, 2, 1, 0, ""⟩,
  ⟨0x5200, 0x5200, 0x09, 9, 0x0133, 0, 0, 0, 0, 2, 1, 0, ""⟩,
  ⟨0x5200, 0x5200, 0x0A, 9, 0x0133, 0, 0, 0, 0, 2, 1, 0, ""⟩,
  ⟨0x5200, 0x5200, 0x0B, 9, 0x0133, 0, 0, 0, 0, 2, 1, 0, ""⟩,
  ⟨0x5200, 0x5200, 0x0C, 9, 0x0133, 0, 0, 0, 0, 2, 1, 0, ""⟩,
  ⟨0x5200, 0x5200, 0x0D, 9, 0x0133, 0, 0, 0, 0, 2, 1, 0, ""⟩,
  ⟨0x5200, 0x5200, 0x0E, 9, 0x0133, 0, 0, 0, 0, 2, 1, 0, ""⟩,
  ⟨0x5200, 0x5200, 0x0F, 9, 0x0133, 0, 0, 0, 0, 2, 1, 0, ""⟩]

/-- Descriptors of 0x5200.10 to 0x5400.01. -/
def dir6 : List ObjDesc := [
  ⟨0x5200, 0x5200, 0x10, 9, 0x0133, 0, 0, 0, 0, 2, 1, 0, ""⟩,
  ⟨0x5201, 0x5201, 0x01, 4, 0x0133, 0, 0, 0, 0, 131071, 1, 0, "queue"⟩,
  ⟨0x5210, 0x5210, 0x01, 4, 0x0111, 0, 0, 0, 0, 65536, 1, 0, "pattern"⟩,
  ⟨0x5210, 0x5210, 0x02, 4, 0x0111, 0, 0, 0, 0, 65536, 1, 0, "pattern"⟩,
  ⟨0x5210, 0x5210, 0x03, 4, 0x0111, 0, 0, 0, 0, 2097152, 1, 0, "byte"⟩,
  ⟨0x5210, 0x5210, 0x04, 4, 0x0111, 0, 0, 0, 0, 2097152, 1, 0, "byte"⟩,
  ⟨0x5210, 0x5210, 0x05, 1, 0x0111, 0, 0, 0, 0, 1, 1, 0, ""⟩,
  ⟨0x5211, 0x5211, 0x01, 2, 0x0111, 0, 0, 0, 0, 255, 1, 0, "node"⟩,
  ⟨0x5211, 0x5211, 0x02, 2, 0x0111, 0, 0, 0, 0, 255, 1, 0, "node"⟩,
  ⟨0x5300, 0x5300, 0x01, 9, 0x0133, 0, 0, 0, 0, 1, 1, 0, ""⟩,
  ⟨0x5300, 0x5300, 0x02, 3, 0x0133, 0, 64, 0, 0, 65535, 1, 0, "beat"⟩,
  ⟨0x5301, 0x5301, 0x01, 4, 0x0111, 0, 0, 0, 0, 16777216, 1, 0, "rule"⟩,
  ⟨0x5301, 0x5301, 0x02, 4, 0x0111, 0, 0, 0, 0, 16777216, 1, 0, "rule"⟩,
  ⟨0x5301, 0x5301, 0x03, 2, 0x0111, 0, 0, 0, 0, 80, 1, 0, "table"⟩,
  ⟨0x5301, 0x5301, 0x04, 2, 0x0111, 0, 0, 0, 0, 80, 1, 0, "table"⟩,
  ⟨0x5302, 0x5302, 0x01, 4, 0x0111, 0, 0, 0, 0, 4294967295, 1, 0, ""⟩,
  ⟨0x5302, 0x5302, 0x02, 4, 0x0111, 0, 0, 0, 0, 4294967295, 1, 0, ""⟩,
  ⟨0x5302, 0x5302, 0x03, 4, 0x0111, 0, 0, 0, 0, 4294967295, 1, 0, ""⟩,
  ⟨0x5302, 0x5302, 0x04, 4, 0x0111, 0, 0, 0, 0, 4294967295, 1, 0, ""⟩,
  ⟨0x5303, 0x5303, 0x01, 3, 0x0111, 0, 0, 0, 0, 8192, 1, 0, "item"⟩,
  ⟨0x5303, 0x5303, 0x02, 3, 0x0111, 0, 0, 0, 0, 8192, 1, 0, "item"⟩,
  ⟨0x5303, 0x5303, 0x03, 3, 0x0111, 0, 0, 0, 0, 8192, 1, 0, "item"⟩,
  ⟨0x5303, 0x5303, 0x04, 3, 0x0111, 0, 0, 0, 0, 8192, 1, 0, "item"⟩,
  ⟨0x5400, 0x5400, 0x01, 4, 0x0133, 0, 1000, 0, 0, 1000000, 1, 0, "us"⟩]

/-- Descriptors of 0x5400.02 to 0x6100.03. -/
def dir7 : List ObjDesc := [
  ⟨0x5400, 0x5400, 0x02, 3, 0x0111, 0, 65535, 0, 0, 65535, 1, 0, "bit per "⟩,
  ⟨0x5400, 0x5400, 0x03, 3, 0x0111, 0, 65535, 0, 0, 65535, 1, 0, "bit per "⟩,
  ⟨0x5410, 0x541F, 0x01, 2, 0x0133, 0, 255, 0, 0, 255, 1, 0, "bit per "⟩,
  ⟨0x5410, 0x541F, 0x02, 9, 0x0111, 0, 0, 0, 0, 2, 1, 0, ""⟩,
  ⟨0x5410, 0x541F, 0x03, 3, 0x0133, 0, 1600, 0, 400, 1600, 1, 0, "MHz"⟩,
  ⟨0x5410, 0x541F, 0x04, 2, 0x0111, 0, 255, 0, 0, 255, 1, 0, ""⟩,
  ⟨0x5410, 0x541F, 0x05, 2, 0x0111, 0, 0, 0, 0, 255, 1, 0, "bit per "⟩,
  ⟨0x5410, 0x541F, 0x06, 2, 0x0022, 0, 0, 0, 0, 255, 1, 0, "bit per "⟩,
  ⟨0x5410, 0x541F, 0x07, 3, 0x0111, 0, 0, 0, 0, 1024, 1, 0, "item"⟩,
  ⟨0x5410, 0x541F, 0x08, 5, 0x0033, 0, 0, 0, 0, 18446744073709551615, 65536, 1, "byte"⟩,
  ⟨0x5410, 0x541F, 0x09, 5, 0x0033, 0, 0, 0, 0, 17179869184, 65536, 1, "byte"⟩,
  ⟨0x6000, 0x6000, 0x01, 3, 0x0133, 0, 300, 0, 1, 65535, 1, 0, "s"⟩,
  ⟨0x6000, 0x6000, 0x02, 3, 0x0133, 0, 300, 0, 1, 65535, 1, 0, "s"⟩,
  ⟨0x6000, 0x6000, 0x03, 3, 0x0133, 0, 1000, 0, 0, 60000, 1, 0, "ms"⟩,
  ⟨0x6000, 0x6000, 0x04, 9, 0x0133, 0, 0, 0, 0, 1, 1, 0, ""⟩,
  ⟨0x6000, 0x6000, 0x05, 9, 0x0133, 0, 0, 0, 0, 1, 1, 0, ""⟩,
  ⟨0x6001, 0x6001, 0x01, 4, 0x0111, 0, 0, 0, 0, 2097152, 1, 0, "entry"⟩,
  ⟨0x6001, 0x6001, 0x02, 4, 0x0111, 0, 0, 0, 0, 2097152, 1, 0, "entry"⟩,
  ⟨0x6001, 0x6001, 0x03, 4, 0x0111, 0, 0, 0, 0, 1048576, 1, 0, "entry"⟩,
  ⟨0x6001, 0x6001, 0x04, 4, 0x0111, 0, 0, 0, 0, 67108864, 1, 0, "entry"⟩,
  ⟨0x6001, 0x6001, 0x05, 3, 0x0111, 0, 0, 0, 0, 16384, 1, 0, "record"⟩,
  ⟨0x6100, 0x611F, 0x01, 4, 0x0133, 0, 2097152, 0, 0, 2097152, 1, 0, "entry"⟩,
  ⟨0x6100, 0x611F, 0x02, 9, 0x0133, 0, 1, 0, 0, 1, 1, 0, ""⟩,
  ⟨0x6100, 0x611F, 0x03, 4, 0x0111, 0, 0, 0, 0, 2097152, 1, 0, "entry"⟩]

/-- Descriptors of 0x7000.01 to 0x7100.15. -/
def dir8 : List ObjDesc := [
  ⟨0x7000, 0x7000, 0x01, 3, 0x0133, 0, 0, 0, 0, 65535, 1, 1, "bit per "⟩,
  ⟨0x7000, 0x7000, 0x02, 4, 0x0111, 0, 0, 0, 0, 131072, 1, 0, "queue"⟩,
  ⟨0x7000, 0x7000, 0x03, 9, 0x0111, 0, 0, 0, 0, 1, 1, 0, ""⟩,
  ⟨0x7000, 0x7000, 0x04, 3, 0x0111, 0, 0, 0, 0, 16384, 1, 0, "record"⟩,
  ⟨0x7000, 0x7000, 0x05, 4, 0x0111, 0, 0, 0, 0, 67108864, 1, 0, "byte"⟩,
  ⟨0x7000, 0x7000, 0x06, 5, 0x0111, 0, 0, 0, 0, 8589934592, 1, 0, "byte"⟩,
  ⟨0x7010, 0x7010, 0x01, 4, 0x0133, 0, 8192, 0, 0, 65536, 1, 1, "entry"⟩,
  ⟨0x7010, 0x7010, 0x02, 4, 0x0133, 0, 196608, 0, 0, 262144, 1, 1, "entry"⟩,
  ⟨0x7010, 0x7010, 0x03, 4, 0x0133, 0, 196608, 0, 0, 262144, 1, 1, "entry"⟩,
  ⟨0x7011, 0x7011, 0x01, 4, 0x0111, 256, 0, 0, 0, 65535, 1, 0, "entry"⟩,
  ⟨0x7011, 0x7011, 0x02, 4, 0x0111, 256, 0, 0, 0, 65536, 1, 0, "item"⟩,
  ⟨0x7100, 0x7100, 0x01, 4, 0x0133, 131072, 0, 1, 0, 32767, 1, 0, "node"⟩,
  ⟨0x7100, 0x7100, 0x02, 2, 0x0133, 131072, 0, 0, 0, 7, 1, 0, ""⟩,
  ⟨0x7100, 0x7100, 0x03, 2, 0x0133, 131072, 1, 0, 0, 255, 1, 0, "1024 B"⟩,
  ⟨0x7100, 0x7100, 0x04, 4, 0x0133, 131072, 0, 0, 0, 4294967295, 1, 0, "kb/s"⟩,
  ⟨0x7100, 0x7100, 0x05, 4, 0x0133, 131072, 16384, 0, 0, 268435456, 1, 0, "byte"⟩,
  ⟨0x7100, 0x7100, 0x06, 4, 0x0133, 131072, 0, 0, 0, 4294967295, 1, 0, "kb/s"⟩,
  ⟨0x7100, 0x7100, 0x07, 4, 0x0133, 131072, 16384, 0, 0, 268435456, 1, 0, "byte"⟩,
  ⟨0x7100, 0x7100, 0x10, 1, 0x0133, 131072, 0, 0, 0, 1, 1, 0, ""⟩,
  ⟨0x7100, 0x7100, 0x11, 9, 0x0111, 131072, 0, 0, 0, 2, 1, 0, ""⟩,
  ⟨0x7100, 0x7100, 0x12, 1, 0x0111, 131072, 0, 0, 0, 1, 1, 0, ""⟩,
  ⟨0x7100, 0x7100, 0x13, 2, 0x0133, 131072, 0, 0, 0, 15, 1, 0, ""⟩,
  ⟨0x7100, 0x7100, 0x14, 9, 0x0133, 131072, 0, 0, 0, 3, 1, 0, ""⟩,
  ⟨0x7100, 0x7100, 0x15, 4, 0x0133, 131072, 1048576, 0, 0, 4294967295, 1, 0, "byte"⟩]

/-- Descriptors of 0x7100.16 to 0x7300.06. -/
def dir9 : List ObjDesc := [
  ⟨0x7100, 0x7100, 0x16, 4, 0x0133, 131072, 786432, 0, 0, 4294967295, 1, 0, "byte"⟩,
  ⟨0x7100, 0x7100, 0x17, 4, 0x0133, 131072, 524288, 0, 0, 4294967295, 1, 0, "byte"⟩,
  ⟨0x7100, 0x7100, 0x18, 1, 0x0233, 131072, 0, 0, 0, 1, 1, 0, ""⟩,
  ⟨0x7100, 0x7100, 0x20, 4, 0x0111, 131072, 0, 0, 0, 4294967295, 1, 0, "byte"⟩,
  ⟨0x7100, 0x7100, 0x21, 4, 0x0111, 131072, 0, 0, 0, 4294967295, 1, 0, "frame"⟩,
  ⟨0x7100, 0x7100, 0x22, 4, 0x0111, 131072, 0, 0, 0, 4294967295, 1, 0, "slot"⟩,
  ⟨0x7100, 0x7100, 0x23, 4, 0x0111, 131072, 0, 0, 0, 4294967295, 1, 0, "slot"⟩,
  ⟨0x7100, 0x7100, 0x24, 5, 0x0111, 131072, 0, 0, 0, 18446744073709551615, 1, 0, "byte"⟩,
  ⟨0x7100, 0x7100, 0x25, 1, 0x0111, 131072, 0, 0, 0, 1, 1, 0, ""⟩,
  ⟨0x7100, 0x7100, 0x26, 1, 0x0222, 131072, 0, 0, 0, 1, 1, 0, ""⟩,
  ⟨0x7200, 0x7200, 0x01, 4, 0x0133, 32768, 0, 2, 0, 2047, 1, 0, "node"⟩,
  ⟨0x7200, 0x7200, 0x02, 2, 0x0133, 32768, 0, 0, 0, 7, 1, 0, ""⟩,
  ⟨0x7200, 0x7200, 0x03, 2, 0x0133, 32768, 1, 0, 0, 255, 1, 0, "1024 B"⟩,
  ⟨0x7200, 0x7200, 0x04, 4, 0x0133, 32768, 0, 0, 0, 4294967295, 1, 0, "kb/s"⟩,
  ⟨0x7200, 0x7200, 0x05, 4, 0x0133, 32768, 16384, 0, 0, 268435456, 1, 0, "byte"⟩,
  ⟨0x7200, 0x7200, 0x06, 4, 0x0133, 32768, 0, 0, 0, 4294967295, 1, 0, "kb/s"⟩,
  ⟨0x7200, 0x7200, 0x07, 4, 0x0133, 32768, 16384, 0, 0, 268435456, 1, 0, "byte"⟩,
  ⟨0x7200, 0x7200, 0x10, 3, 0x0133, 32768, 0, 4, 0, 16383, 1, 0, ""⟩,
  ⟨0x7300, 0x7300, 0x01, 4, 0x0133, 2048, 0, 3, 0, 255, 1, 0, "node"⟩,
  ⟨0x7300, 0x7300, 0x02, 2, 0x0133, 2048, 0, 0, 0, 7, 1, 0, ""⟩,
  ⟨0x7300, 0x7300, 0x03, 2, 0x0133, 2048, 1, 0, 0, 255, 1, 0, "1024 B"⟩,
  ⟨0x7300, 0x7300, 0x04, 4, 0x0133, 2048, 0, 0, 0, 4294967295, 1, 0, "kb/s"⟩,
  ⟨0x7300, 0x7300, 0x05, 4, 0x0133, 2048, 16384, 0, 0, 268435456, 1, 0, "byte"⟩,
  ⟨0x7300, 0x7300, 0x06, 4, 0x0133, 2048, 0, 0, 0, 4294967295, 1, 0, "kb/s"⟩]

/-- Descriptors of 0x7300.07 to 0x7600.08. -/
def dir10 : List ObjDesc := [
  ⟨0x7300, 0x7300, 0x07, 4, 0x0133, 2048, 16384, 0, 0, 268435456, 1, 0, "byte"⟩,
  ⟨0x7400, 0x7400, 0x01, 4, 0x0133, 256, 0, 3, 0, 31, 1, 0, "node"⟩,
  ⟨0x7400, 0x7400, 0x02, 2, 0x0133, 256, 0, 0, 0, 7, 1, 0, ""⟩,
  ⟨0x7400, 0x7400, 0x03, 2, 0x0133, 256, 1, 0, 0, 255, 1, 0, "1024 B"⟩,
  ⟨0x7400, 0x7400, 0x04, 4, 0x0133, 256, 0, 0, 0, 4294967295, 1, 0, "kb/s"⟩,
  ⟨0x7400, 0x7400, 0x05, 4, 0x0133, 256, 16384, 0, 0, 268435456, 1, 0, "byte"⟩,
  ⟨0x7400, 0x7400, 0x06, 4, 0x0133, 256, 0, 0, 0, 4294967295, 1, 0, "kb/s"⟩,
  ⟨0x7400, 0x7400, 0x07, 4, 0x0133, 256, 16384, 0, 0, 268435456, 1, 0, "byte"⟩,
  ⟨0x7500, 0x7500, 0x02, 2, 0x0133, 32, 0, 0, 0, 7, 1, 0, ""⟩,
  ⟨0x7500, 0x7500, 0x03, 2, 0x0133, 32, 1, 0, 0, 255, 1, 0, "1024 B"⟩,
  ⟨0x7500, 0x7500, 0x04, 4, 0x0133, 32, 0, 0, 0, 4294967295, 1, 0, "kb/s"⟩,
  ⟨0x7500, 0x7500, 0x05, 4, 0x0133, 32, 16384, 0, 0, 268435456, 1, 0, "byte"⟩,
  ⟨0x7500, 0x7500, 0x06, 4, 0x0133, 32, 0, 0, 0, 4294967295, 1, 0, "kb/s"⟩,
  ⟨0x7500, 0x7500, 0x07, 4, 0x0133, 32, 16384, 0, 0, 268435456, 1, 0, "byte"⟩,
  ⟨0x7500, 0x7500, 0x10, 9, 0x0133, 32, 0, 0, 0, 1, 1, 0, ""⟩,
  ⟨0x7500, 0x7500, 0x11, 4, 0x0133, 32, 0, 5, 0, 131071, 1, 0, "queue"⟩,
  ⟨0x7600, 0x7600, 0x01, 9, 0x0133, 65536, 0, 0, 0, 2, 1, 0, ""⟩,
  ⟨0x7600, 0x7600, 0x02, 1, 0x0133, 65536, 0, 0, 0, 1, 1, 0, ""⟩,
  ⟨0x7600, 0x7600, 0x03, 4, 0x0133, 65536, 0, 0, 0, 4294967295, 1, 0, "kb/s"⟩,
  ⟨0x7600, 0x7600, 0x04, 4, 0x0133, 65536, 16384, 0, 0, 268435456, 1, 0, "byte"⟩,
  ⟨0x7600, 0x7600, 0x05, 4, 0x0133, 65536, 0, 0, 0, 4294967295, 1, 0, "kb/s"⟩,
  ⟨0x7600, 0x7600, 0x06, 4, 0x0133, 65536, 16384, 0, 0, 268435456, 1, 0, "byte"⟩,
  ⟨0x7600, 0x7600, 0x07, 9, 0x0133, 65536, 0, 0, 0, 1, 1, 0, ""⟩,
  ⟨0x7600, 0x7600, 0x08, 9, 0x0133, 65536, 1, 0, 0, 1, 1, 0, ""⟩]

/-- Descriptors of 0x7600.09 to 0x9000.02. -/
def dir11 : List ObjDesc := [
  ⟨0x7600, 0x7600, 0x09, 1, 0x0133, 65536, 0, 0, 0, 1, 1, 0, ""⟩,
  ⟨0x7700, 0x7700, 0x01, 4, 0x0133, 65536, 0, 0, 0, 4294967295, 1, 0, "bit per "⟩,
  ⟨0x8000, 0x8000, 0x01, 9, 0x0133, 0, 1, 0, 1, 3, 1, 1, ""⟩,
  ⟨0x8000, 0x8000, 0x02, 4, 0x0133, 0, 4294967295, 0, 0, 4294967295, 1, 1, "bit per "⟩,
  ⟨0x8000, 0x8000, 0x03, 4, 0x0111, 0, 4294967295, 0, 0, 4294967295, 1, 0, "bit per "⟩,
  ⟨0x8000, 0x8000, 0x04, 3, 0x0133, 0, 1000, 0, 1, 65535, 1, 0, "ms"⟩,
  ⟨0x8000, 0x8000, 0x05, 2, 0x0111, 0, 3, 0, 0, 3, 1, 0, "bit per "⟩,
  ⟨0x8001, 0x8001, 0x01, 4, 0x0111, 0, 0, 0, 0, 1048576, 1, 0, "slot"⟩,
  ⟨0x8001, 0x8001, 0x02, 4, 0x0111, 0, 0, 0, 0, 1048576, 1, 0, "slot"⟩,
  ⟨0x8001, 0x8001, 0x03, 4, 0x0111, 0, 0, 0, 0, 1048576, 1, 0, "slot"⟩,
  ⟨0x8001, 0x8001, 0x04, 3, 0x0111, 0, 0, 0, 0, 4096, 1, 0, "entry"⟩,
  ⟨0x8001, 0x8001, 0x05, 3, 0x0111, 0, 0, 0, 0, 546, 1, 0, "slot"⟩,
  ⟨0x8100, 0x8100, 0x01, 9, 0x0133, 4096, 0, 0, 1, 7, 1, 0, ""⟩,
  ⟨0x8100, 0x8100, 0x02, 9, 0x0133, 4096, 0, 0, 0, 1, 1, 0, ""⟩,
  ⟨0x8100, 0x8100, 0x03, 9, 0x0133, 4096, 3, 0, 0, 3, 1, 0, ""⟩,
  ⟨0x8100, 0x8100, 0x04, 3, 0x0133, 4096, 0, 0, 0, 16383, 1, 0, "byte"⟩,
  ⟨0x8100, 0x8100, 0x05, 3, 0x0133, 4096, 0, 0, 0, 16383, 1, 0, "byte"⟩,
  ⟨0x8100, 0x8100, 0x06, 3, 0x0133, 4096, 0, 0, 0, 16383, 1, 0, "byte"⟩,
  ⟨0x8100, 0x8100, 0x07, 9, 0x0133, 4096, 0, 0, 0, 1, 1, 0, ""⟩,
  ⟨0x8100, 0x8100, 0x08, 3, 0x0133, 4096, 0, 0, 0, 16383, 1, 0, "bit or b"⟩,
  ⟨0x8100, 0x8100, 0x09, 2, 0x0133, 4096, 16, 0, 0, 255, 1, 0, "byte"⟩,
  ⟨0x8100, 0x8100, 0x0A, 1, 0x0133, 4096, 0, 0, 0, 1, 1, 0, ""⟩,
  ⟨0x9000, 0x9000, 0x01, 1, 0x0033, 0, 0, 0, 0, 1, 1, 1, ""⟩,
  ⟨0x9000, 0x9000, 0x02, 9, 0x0111, 0, 0, 0, 0, 6, 1, 0, ""⟩]

/-- Descriptors of 0x9000.03 to 0xA100.06. -/
def dir12 : List ObjDesc := [
  ⟨0x9000, 0x9000, 0x03, 1, 0x0033, 0, 0, 0, 0, 1, 1, 1, ""⟩,
  ⟨0x9000, 0x9000, 0x04, 3, 0x0133, 0, 60, 0, 1, 3600, 1, 0, "s"⟩,
  ⟨0x9000, 0x9000, 0x05, 1, 0x0033, 0, 1, 0, 0, 1, 1, 0, ""⟩,
  ⟨0x9000, 0x9000, 0x06, 3, 0x0033, 0, 10, 0, 1, 600, 1, 0, "s"⟩,
  ⟨0x9000, 0x9000, 0x07, 1, 0x0033, 0, 0, 0, 0, 1, 1, 1, ""⟩,
  ⟨0x9000, 0x9000, 0x08, 1, 0x0022, 0, 0, 0, 0, 1, 1, 0, ""⟩,
  ⟨0x9000, 0x9000, 0x09, 1, 0x0022, 0, 0, 0, 0, 1, 1, 0, ""⟩,
  ⟨0x9000, 0x9000, 0x0A, 4, 0x0133, 0, 16384, 0, 0, 65536, 1, 1, "byte"⟩,
  ⟨0x9000, 0x9000, 0x0B, 5, 0x0111, 0, 0, 0, 0, 18446744073709551615, 1, 0, ""⟩,
  ⟨0x9000, 0x9000, 0x0C, 4, 0x0111, 0, 0, 0, 0, 4294967295, 1, 0, ""⟩,
  ⟨0x9000, 0x9000, 0x0D, 4, 0x0111, 0, 0, 0, 0, 4294967295, 1, 0, ""⟩,
  ⟨0x9000, 0x9000, 0x0E, 9, 0x0111, 0, 0, 0, 0, 4, 1, 0, ""⟩,
  ⟨0x9000, 0x9000, 0x0F, 9, 0x0111, 0, 0, 0, 0, 2, 1, 0, ""⟩,
  ⟨0x9000, 0x9000, 0x10, 2, 0x0111, 0, 0, 0, 0, 100, 1, 0, "%"⟩,
  ⟨0x9000, 0x9000, 0x11, 5, 0x0111, 0, 0, 0, 0, 18446744073709551615, 1, 0, "beat"⟩,
  ⟨0xA000, 0xA000, 0x01, 9, 0x0033, 0, 0, 0, 0, 1, 1, 1, ""⟩,
  ⟨0xA000, 0xA000, 0x02, 9, 0x0033, 0, 0, 0, 0, 1, 1, 1, ""⟩,
  ⟨0xA000, 0xA000, 0x03, 2, 0x0033, 0, 0, 0, 0, 3, 1, 1, ""⟩,
  ⟨0xA100, 0xA103, 0x01, 9, 0x0111, 0, 0, 0, 0, 3, 1, 0, ""⟩,
  ⟨0xA100, 0xA103, 0x02, 9, 0x0111, 0, 0, 0, 0, 6, 1, 0, ""⟩,
  ⟨0xA100, 0xA103, 0x03, 2, 0x0111, 0, 0, 0, 0, 16, 1, 0, "lane"⟩,
  ⟨0xA100, 0xA103, 0x04, 1, 0x0111, 0, 0, 0, 0, 1, 1, 0, ""⟩,
  ⟨0xA100, 0xA103, 0x05, 9, 0x0133, 0, 6, 0, 1, 6, 1, 0, ""⟩,
  ⟨0xA100, 0xA103, 0x06, 3, 0x0033, 0, 0, 6, 0, 1024, 1, 0, "VF"⟩]

/-- Descriptors of 0xA100.07 to 0xB000.07. -/
def dir13 : List ObjDesc := [
  ⟨0xA100, 0xA103, 0x07, 3, 0x0133, 0, 512, 0, 256, 8192, 1, 0, "ns"⟩,
  ⟨0xA100, 0xA103, 0x08, 3, 0x0133, 0, 16, 0, 2, 1000, 1, 0, "us"⟩,
  ⟨0xA100, 0xA103, 0x09, 3, 0x0133, 0, 4099, 0, 0, 65535, 1, 0, ""⟩,
  ⟨0xA100, 0xA103, 0x0A, 2, 0x0033, 0, 16, 0, 0, 64, 1, 0, "stream"⟩,
  ⟨0xA100, 0xA103, 0x0B, 9, 0x0111, 0, 2, 0, 0, 2, 1, 0, ""⟩,
  ⟨0xA100, 0xA103, 0x0C, 1, 0x0111, 0, 0, 0, 0, 1, 1, 0, ""⟩,
  ⟨0xA100, 0xA103, 0x0D, 9, 0x0111, 0, 2, 0, 0, 2, 1, 0, ""⟩,
  ⟨0xA100, 0xA103, 0x0E, 1, 0x0111, 0, 0, 0, 0, 1, 1, 0, ""⟩,
  ⟨0xA100, 0xA103, 0x0F, 3, 0x0111, 0, 0, 0, 0, 8192, 1, 0, "read"⟩,
  ⟨0xA100, 0xA103, 0x10, 3, 0x0111, 0, 0, 0, 0, 8192, 1, 0, "tag"⟩,
  ⟨0xA200, 0xA200, 0x01, 3, 0x0333, 4096, 0, 0, 0, 2047, 1, 0, ""⟩,
  ⟨0xA800, 0xA800, 0x01, 3, 0x0133, 4096, 65535, 0, 0, 65535, 1, 1, ""⟩,
  ⟨0xA800, 0xA800, 0x02, 5, 0x0033, 4096, 0, 0, 0, 18446744073709551615, 4096, 1, "byte"⟩,
  ⟨0xA800, 0xA800, 0x03, 5, 0x0033, 4096, 0, 0, 0, 51539607552, 4096, 1, "byte"⟩,
  ⟨0xA800, 0xA800, 0x04, 9, 0x0111, 4096, 0, 0, 0, 7, 1, 0, ""⟩,
  ⟨0xA801, 0xA801, 0x01, 3, 0x0111, 0, 0, 0, 0, 4096, 1, 0, "channel"⟩,
  ⟨0xA801, 0xA801, 0x02, 3, 0x0111, 0, 0, 0, 0, 4096, 1, 0, "channel"⟩,
  ⟨0xB000, 0xB000, 0x01, 9, 0x1111, 16384, 0, 0, 0, 6, 1, 4, ""⟩,
  ⟨0xB000, 0xB000, 0x02, 1, 0x1111, 16384, 0, 0, 0, 1, 1, 4, ""⟩,
  ⟨0xB000, 0xB000, 0x03, 9, 0x0222, 16384, 0, 0, 1, 7, 1, 4, ""⟩,
  ⟨0xB000, 0xB000, 0x04, 9, 0x0111, 16384, 0, 0, 0, 1, 1, 4, ""⟩,
  ⟨0xB000, 0xB000, 0x05, 4, 0x1111, 16384, 0, 0, 0, 262144, 1, 4, "item"⟩,
  ⟨0xB000, 0xB000, 0x06, 9, 0x1133, 16384, 0, 0, 0, 2, 1, 5, ""⟩,
  ⟨0xB000, 0xB000, 0x07, 2, 0x1133, 16384, 0, 0, 0, 3, 1, 5, ""⟩]

/-- Descriptors of 0xB000.08 to 0xB020.03. -/
def dir14 : List ObjDesc := [
  ⟨0xB000, 0xB000, 0x08, 4, 0x1133, 16384, 0, 0, 0, 1048575, 1, 5, ""⟩,
  ⟨0xB000, 0xB000, 0x09, 3, 0x1133, 16384, 0, 0, 0, 1023, 1, 5, ""⟩,
  ⟨0xB000, 0xB000, 0x0A, 9, 0x1133, 16384, 0, 0, 0, 1, 1, 5, ""⟩,
  ⟨0xB000, 0xB000, 0x0B, 9, 0x1111, 16384, 2, 0, 0, 2, 1, 4, ""⟩,
  ⟨0xB000, 0xB000, 0x0C, 1, 0x1111, 16384, 0, 0, 0, 1, 1, 4, ""⟩,
  ⟨0xB001, 0xB001, 0x01, 2, 0x1133, 16384, 0, 0, 0, 64, 1, 5, "queue pair"⟩,
  ⟨0xB001, 0xB001, 0x02, 4, 0x1133, 16384, 0, 0, 0, 1048575, 1, 5, "slot"⟩,
  ⟨0xB001, 0xB001, 0x03, 3, 0x1133, 16384, 0, 0, 0, 1024, 1, 5, "slot"⟩,
  ⟨0xB001, 0xB001, 0x04, 3, 0x1111, 16384, 0, 0, 0, 4096, 1, 4, "channel"⟩,
  ⟨0xB001, 0xB001, 0x05, 4, 0x1133, 16384, 256, 0, 0, 262144, 1, 5, "item"⟩,
  ⟨0xB001, 0xB001, 0x06, 4, 0x1111, 16384, 0, 0, 0, 262144, 1, 4, "item"⟩,
  ⟨0xB002, 0xB002, 0x01, 4, 0x0033, 16384, 0, 0, 0, 1048575, 1, 4, "slot"⟩,
  ⟨0xB002, 0xB002, 0x02, 5, 0x0033, 16384, 0, 0, 0, 18446744073709551615, 64, 4, "byte"⟩,
  ⟨0xB002, 0xB002, 0x03, 4, 0x0011, 16384, 0, 0, 0, 4294967295, 1, 4, "byte"⟩,
  ⟨0xB002, 0xB002, 0x04, 5, 0x0033, 16384, 0, 0, 0, 18446744073709551615, 64, 4, "byte"⟩,
  ⟨0xB002, 0xB002, 0x05, 9, 0x0011, 16384, 0, 0, 0, 5, 1, 4, ""⟩,
  ⟨0xB002, 0xB002, 0x06, 3, 0x0133, 16384, 10, 0, 1, 1000, 1, 4, "ms"⟩,
  ⟨0xB002, 0xB002, 0x07, 10, 0x0222, 16384, 0, 0, 60, 60, 1, 4, ""⟩,
  ⟨0xB003, 0xB003, 0x01, 10, 0x0333, 16384, 0, 0, 64, 64, 1, 5, ""⟩,
  ⟨0xB010, 0xB010, 0x01, 4, 0x1111, 1048576, 0, 0, 0, 65535, 1, 4, "entry"⟩,
  ⟨0xB010, 0xB010, 0x02, 4, 0x1111, 1048576, 0, 0, 0, 65536, 1, 4, "item"⟩,
  ⟨0xB020, 0xB020, 0x01, 4, 0x1111, 2147483648, 0, 0, 0, 4294967295, 1, 4, "queue"⟩,
  ⟨0xB020, 0xB020, 0x02, 4, 0x1111, 2147483648, 0, 0, 0, 4294967295, 1, 4, "byte"⟩,
  ⟨0xB020, 0xB020, 0x03, 4, 0x1111, 2147483648, 0, 0, 0, 4294967295, 1, 4, "frame"⟩]

/-- Descriptors of 0xB020.04 to 0xC040.06. -/
def dir15 : List ObjDesc := [
  ⟨0xB020, 0xB020, 0x04, 4, 0x1111, 2147483648, 0, 0, 0, 4294967295, 1, 4, "slot"⟩,
  ⟨0xB020, 0xB020, 0x05, 4, 0x1111, 2147483648, 0, 0, 0, 4294967295, 1, 4, "slot"⟩,
  ⟨0xB020, 0xB020, 0x06, 5, 0x1111, 2147483648, 0, 0, 0, 18446744073709551615, 1, 4, "byte"⟩,
  ⟨0xB020, 0xB020, 0x07, 1, 0x1111, 2147483648, 0, 0, 0, 1, 1, 4, ""⟩,
  ⟨0xB020, 0xB020, 0x08, 5, 0x1111, 2147483648, 0, 0, 0, 18446744073709551615, 1, 4, ""⟩,
  ⟨0xB020, 0xB020, 0x09, 5, 0x1111, 2147483648, 0, 0, 0, 18446744073709551615, 1, 4, ""⟩,
  ⟨0xB020, 0xB020, 0x0A, 5, 0x1111, 2147483648, 0, 0, 0, 18446744073709551615, 1, 4, ""⟩,
  ⟨0xB020, 0xB020, 0x0B, 5, 0x1111, 2147483648, 0, 0, 0, 18446744073709551615, 1, 4, ""⟩,
  ⟨0xB100, 0xB100, 0x01, 1, 0x3333, 1048576, 0, 0, 0, 1, 1, 4, ""⟩,
  ⟨0xB100, 0xB100, 0x02, 5, 0x3333, 1048576, 0, 0, 0, 18446744073709551615, 64, 4, "byte"⟩,
  ⟨0xB100, 0xB100, 0x03, 4, 0x3333, 1048576, 256, 0, 2, 65536, 1, 4, "entry"⟩,
  ⟨0xB100, 0xB100, 0x04, 5, 0x3333, 1048576, 0, 0, 0, 18446744073709551615, 64, 4, "byte"⟩,
  ⟨0xB100, 0xB100, 0x05, 4, 0x3333, 1048576, 256, 0, 2, 65536, 1, 4, "entry"⟩,
  ⟨0xB100, 0xB100, 0x06, 5, 0x3333, 1048576, 0, 0, 0, 18446744073709551615, 8, 4, "byte"⟩,
  ⟨0xB100, 0xB100, 0x07, 3, 0x3333, 1048576, 0, 0, 0, 2047, 1, 4, ""⟩,
  ⟨0xB100, 0xB100, 0x08, 2, 0x3333, 1048576, 0, 0, 0, 63, 1, 4, "local channel"⟩,
  ⟨0xB100, 0xB100, 0x09, 4, 0x1111, 1048576, 0, 0, 0, 65535, 1, 4, "entry"⟩,
  ⟨0xB100, 0xB100, 0x0A, 4, 0x1111, 1048576, 0, 0, 0, 65535, 1, 4, "entry"⟩,
  ⟨0xC040, 0xC040, 0x01, 4, 0x0111, 0, 0, 0, 0, 4294967295, 1, 0, ""⟩,
  ⟨0xC040, 0xC040, 0x02, 4, 0x0111, 0, 0, 0, 0, 4294967295, 1, 0, ""⟩,
  ⟨0xC040, 0xC040, 0x03, 4, 0x0111, 0, 0, 0, 0, 4294967295, 1, 0, ""⟩,
  ⟨0xC040, 0xC040, 0x04, 4, 0x0111, 0, 0, 0, 0, 4294967295, 1, 0, ""⟩,
  ⟨0xC040, 0xC040, 0x05, 4, 0x0111, 0, 0, 0, 0, 4294967295, 1, 0, ""⟩,
  ⟨0xC040, 0xC040, 0x06, 4, 0x0111, 0, 0, 0, 0, 4294967295, 1, 0, ""⟩]

/-- Descriptors of 0xC040.10 to 0xC060.01. -/
def dir16 : List ObjDesc := [
  ⟨0xC040, 0xC040, 0x10, 5, 0x0111, 0, 0, 0, 0, 18446744073709551615, 1, 0, ""⟩,
  ⟨0xC040, 0xC040, 0x11, 5, 0x0111, 0, 0, 0, 0, 18446744073709551615, 1, 0, ""⟩,
  ⟨0xC040, 0xC040, 0x12, 5, 0x0111, 0, 0, 0, 0, 18446744073709551615, 1, 0, ""⟩,
  ⟨0xC040, 0xC040, 0x13, 5, 0x0111, 0, 0, 0, 0, 18446744073709551615, 1, 0, ""⟩,
  ⟨0xC040, 0xC040, 0x14, 5, 0x0111, 0, 0, 0, 0, 18446744073709551615, 1, 0, ""⟩,
  ⟨0xC040, 0xC040, 0x15, 5, 0x0111, 0, 0, 0, 0, 18446744073709551615, 1, 0, ""⟩,
  ⟨0xC040, 0xC040, 0x16, 5, 0x0111, 0, 0, 0, 0, 18446744073709551615, 1, 0, ""⟩,
  ⟨0xC040, 0xC040, 0x17, 5, 0x0111, 0, 0, 0, 0, 18446744073709551615, 1, 0, ""⟩,
  ⟨0xC040, 0xC040, 0x18, 5, 0x0111, 0, 0, 0, 0, 18446744073709551615, 1, 0, ""⟩,
  ⟨0xC040, 0xC040, 0x19, 5, 0x0111, 0, 0, 0, 0, 18446744073709551615, 1, 0, ""⟩,
  ⟨0xC040, 0xC040, 0x1A, 5, 0x0111, 0, 0, 0, 0, 18446744073709551615, 1, 0, ""⟩,
  ⟨0xC040, 0xC040, 0x1B, 5, 0x0111, 0, 0, 0, 0, 18446744073709551615, 1, 0, ""⟩,
  ⟨0xC040, 0xC040, 0x1C, 5, 0x0111, 0, 0, 0, 0, 18446744073709551615, 1, 0, ""⟩,
  ⟨0xC040, 0xC040, 0x1D, 5, 0x0111, 0, 0, 0, 0, 18446744073709551615, 1, 0, ""⟩,
  ⟨0xC041, 0xC041, 0x01, 5, 0x0111, 256, 0, 0, 0, 18446744073709551615, 1, 0, ""⟩,
  ⟨0xC050, 0xC050, 0x01, 5, 0x0111, 0, 0, 0, 0, 18446744073709551615, 1, 0, ""⟩,
  ⟨0xC050, 0xC050, 0x02, 5, 0x0111, 0, 0, 0, 0, 18446744073709551615, 1, 0, ""⟩,
  ⟨0xC050, 0xC050, 0x03, 5, 0x0111, 0, 0, 0, 0, 18446744073709551615, 1, 0, ""⟩,
  ⟨0xC050, 0xC050, 0x04, 5, 0x0111, 0, 0, 0, 0, 18446744073709551615, 1, 0, ""⟩,
  ⟨0xC050, 0xC050, 0x05, 5, 0x0111, 0, 0, 0, 0, 18446744073709551615, 1, 0, ""⟩,
  ⟨0xC050, 0xC050, 0x06, 5, 0x0111, 0, 0, 0, 0, 18446744073709551615, 1, 0, ""⟩,
  ⟨0xC050, 0xC050, 0x07, 5, 0x0111, 0, 0, 0, 0, 18446744073709551615, 1, 0, ""⟩,
  ⟨0xC050, 0xC050, 0x08, 5, 0x0111, 0, 0, 0, 0, 18446744073709551615, 1, 0, ""⟩,
  ⟨0xC060, 0xC064, 0x01, 5, 0x0111, 0, 0, 0, 0, 18446744073709551615, 1, 0, ""⟩]

/-- Descriptors of 0xC060.02 to 0xC070.01. -/
def dir17 : List ObjDesc := [
  ⟨0xC060, 0xC064, 0x02, 5, 0x0111, 0, 0, 0, 0, 18446744073709551615, 1, 0, ""⟩,
  ⟨0xC060, 0xC064, 0x03, 5, 0x0111, 0, 0, 0, 0, 18446744073709551615, 1, 0, ""⟩,
  ⟨0xC060, 0xC064, 0x04, 5, 0x0111, 0, 0, 0, 0, 18446744073709551615, 1, 0, ""⟩,
  ⟨0xC060, 0xC064, 0x05, 5, 0x0111, 0, 0, 0, 0, 18446744073709551615, 1, 0, ""⟩,
  ⟨0xC060, 0xC064, 0x06, 5, 0x0111, 0, 0, 0, 0, 18446744073709551615, 1, 0, ""⟩,
  ⟨0xC060, 0xC064, 0x07, 5, 0x0111, 0, 0, 0, 0, 18446744073709551615, 1, 0, ""⟩,
  ⟨0xC060, 0xC064, 0x08, 5, 0x0111, 0, 0, 0, 0, 18446744073709551615, 1, 0, ""⟩,
  ⟨0xC060, 0xC064, 0x09, 5, 0x0111, 0, 0, 0, 0, 18446744073709551615, 1, 0, ""⟩,
  ⟨0xC060, 0xC064, 0x0A, 5, 0x0111, 0, 0, 0, 0, 18446744073709551615, 1, 0, ""⟩,
  ⟨0xC060, 0xC064, 0x0B, 5, 0x0111, 0, 0, 0, 0, 18446744073709551615, 1, 0, ""⟩,
  ⟨0xC060, 0xC064, 0x0C, 5, 0x0111, 0, 0, 0, 0, 18446744073709551615, 1, 0, ""⟩,
  ⟨0xC060, 0xC064, 0x0D, 5, 0x0111, 0, 0, 0, 0, 18446744073709551615, 1, 0, ""⟩,
  ⟨0xC060, 0xC064, 0x0E, 5, 0x0111, 0, 0, 0, 0, 18446744073709551615, 1, 0, ""⟩,
  ⟨0xC060, 0xC064, 0x0F, 5, 0x0111, 0, 0, 0, 0, 18446744073709551615, 1, 0, ""⟩,
  ⟨0xC060, 0xC064, 0x10, 5, 0x0111, 0, 0, 0, 0, 18446744073709551615, 1, 0, ""⟩,
  ⟨0xC060, 0xC064, 0x11, 5, 0x0111, 0, 0, 0, 0, 18446744073709551615, 1, 0, ""⟩,
  ⟨0xC060, 0xC064, 0x12, 5, 0x0111, 0, 0, 0, 0, 18446744073709551615, 1, 0, ""⟩,
  ⟨0xC060, 0xC064, 0x13, 5, 0x0111, 0, 0, 0, 0, 18446744073709551615, 1, 0, ""⟩,
  ⟨0xC060, 0xC064, 0x14, 5, 0x0111, 0, 0, 0, 0, 18446744073709551615, 1, 0, ""⟩,
  ⟨0xC060, 0xC064, 0x15, 5, 0x0111, 0, 0, 0, 0, 18446744073709551615, 1, 0, ""⟩,
  ⟨0xC060, 0xC064, 0x16, 5, 0x0111, 0, 0, 0, 0, 18446744073709551615, 1, 0, ""⟩,
  ⟨0xC060, 0xC064, 0x17, 5, 0x0111, 0, 0, 0, 0, 18446744073709551615, 1, 0, ""⟩,
  ⟨0xC060, 0xC064, 0x18, 5, 0x0111, 0, 0, 0, 0, 18446744073709551615, 1, 0, ""⟩,
  ⟨0xC070, 0xC074, 0x01, 5, 0x0111, 0, 0, 0, 0, 18446744073709551615, 1, 0, ""⟩]

/-- Descriptors of 0xC070.02 to 0xC080.03. -/
def dir18 : List ObjDesc := [
  ⟨0xC070, 0xC074, 0x02, 5, 0x0111, 0, 0, 0, 0, 18446744073709551615, 1, 0, ""⟩,
  ⟨0xC070, 0xC074, 0x03, 5, 0x0111, 0, 0, 0, 0, 18446744073709551615, 1, 0, ""⟩,
  ⟨0xC070, 0xC074, 0x04, 5, 0x0111, 0, 0, 0, 0, 18446744073709551615, 1, 0, ""⟩,
  ⟨0xC070, 0xC074, 0x05, 5, 0x0111, 0, 0, 0, 0, 18446744073709551615, 1, 0, ""⟩,
  ⟨0xC070, 0xC074, 0x06, 5, 0x0111, 0, 0, 0, 0, 18446744073709551615, 1, 0, ""⟩,
  ⟨0xC070, 0xC074, 0x07, 5, 0x0111, 0, 0, 0, 0, 18446744073709551615, 1, 0, ""⟩,
  ⟨0xC070, 0xC074, 0x08, 5, 0x0111, 0, 0, 0, 0, 18446744073709551615, 1, 0, ""⟩,
  ⟨0xC070, 0xC074, 0x09, 5, 0x0111, 0, 0, 0, 0, 18446744073709551615, 1, 0, ""⟩,
  ⟨0xC070, 0xC074, 0x0A, 5, 0x0111, 0, 0, 0, 0, 18446744073709551615, 1, 0, ""⟩,
  ⟨0xC070, 0xC074, 0x0B, 5, 0x0111, 0, 0, 0, 0, 18446744073709551615, 1, 0, ""⟩,
  ⟨0xC070, 0xC074, 0x0C, 5, 0x0111, 0, 0, 0, 0, 18446744073709551615, 1, 0, ""⟩,
  ⟨0xC070, 0xC074, 0x0D, 5, 0x0111, 0, 0, 0, 0, 18446744073709551615, 1, 0, ""⟩,
  ⟨0xC070, 0xC074, 0x0E, 5, 0x0111, 0, 0, 0, 0, 18446744073709551615, 1, 0, ""⟩,
  ⟨0xC070, 0xC074, 0x0F, 5, 0x0111, 0, 0, 0, 0, 18446744073709551615, 1, 0, ""⟩,
  ⟨0xC070, 0xC074, 0x10, 5, 0x0111, 0, 0, 0, 0, 18446744073709551615, 1, 0, ""⟩,
  ⟨0xC070, 0xC074, 0x11, 5, 0x0111, 0, 0, 0, 0, 18446744073709551615, 1, 0, ""⟩,
  ⟨0xC070, 0xC074, 0x12, 5, 0x0111, 0, 0, 0, 0, 18446744073709551615, 1, 0, ""⟩,
  ⟨0xC070, 0xC074, 0x13, 5, 0x0111, 0, 0, 0, 0, 18446744073709551615, 1, 0, ""⟩,
  ⟨0xC070, 0xC074, 0x14, 5, 0x0111, 0, 0, 0, 0, 18446744073709551615, 1, 0, ""⟩,
  ⟨0xC070, 0xC074, 0x15, 5, 0x0111, 0, 0, 0, 0, 18446744073709551615, 1, 0, ""⟩,
  ⟨0xC070, 0xC074, 0x16, 5, 0x0111, 0, 0, 0, 0, 18446744073709551615, 1, 0, ""⟩,
  ⟨0xC080, 0xC080, 0x01, 5, 0x0111, 0, 0, 0, 0, 18446744073709551615, 1, 0, ""⟩,
  ⟨0xC080, 0xC080, 0x02, 5, 0x0111, 0, 0, 0, 0, 18446744073709551615, 1, 0, ""⟩,
  ⟨0xC080, 0xC080, 0x03, 5, 0x0111, 0, 0, 0, 0, 18446744073709551615, 1, 0, ""⟩]

/-- Descriptors of 0xC080.04 to 0xC090.04. -/
def dir19 : List ObjDesc := [
  ⟨0xC080, 0xC080, 0x04, 5, 0x0111, 0, 0, 0, 0, 18446744073709551615, 1, 0, ""⟩,
  ⟨0xC080, 0xC080, 0x05, 5, 0x0111, 0, 0, 0, 0, 18446744073709551615, 1, 0, ""⟩,
  ⟨0xC080, 0xC080, 0x06, 5, 0x0111, 0, 0, 0, 0, 18446744073709551615, 1, 0, ""⟩,
  ⟨0xC080, 0xC080, 0x07, 5, 0x0111, 0, 0, 0, 0, 18446744073709551615, 1, 0, ""⟩,
  ⟨0xC080, 0xC080, 0x08, 5, 0x0111, 0, 0, 0, 0, 18446744073709551615, 1, 0, ""⟩,
  ⟨0xC080, 0xC080, 0x09, 5, 0x0111, 0, 0, 0, 0, 18446744073709551615, 1, 0, ""⟩,
  ⟨0xC080, 0xC080, 0x0A, 5, 0x0111, 0, 0, 0, 0, 18446744073709551615, 1, 0, ""⟩,
  ⟨0xC080, 0xC080, 0x0B, 5, 0x0111, 0, 0, 0, 0, 18446744073709551615, 1, 0, ""⟩,
  ⟨0xC080, 0xC080, 0x0C, 5, 0x0111, 0, 0, 0, 0, 18446744073709551615, 1, 0, ""⟩,
  ⟨0xC080, 0xC080, 0x0D, 5, 0x0111, 0, 0, 0, 0, 18446744073709551615, 1, 0, ""⟩,
  ⟨0xC080, 0xC080, 0x0E, 5, 0x0111, 0, 0, 0, 0, 18446744073709551615, 1, 0, ""⟩,
  ⟨0xC080, 0xC080, 0x0F, 5, 0x0111, 0, 0, 0, 0, 18446744073709551615, 1, 0, ""⟩,
  ⟨0xC080, 0xC080, 0x10, 5, 0x0111, 0, 0, 0, 0, 18446744073709551615, 1, 0, ""⟩,
  ⟨0xC080, 0xC080, 0x11, 5, 0x0111, 0, 0, 0, 0, 18446744073709551615, 1, 0, ""⟩,
  ⟨0xC080, 0xC080, 0x12, 5, 0x0111, 0, 0, 0, 0, 18446744073709551615, 1, 0, ""⟩,
  ⟨0xC080, 0xC080, 0x13, 5, 0x0111, 0, 0, 0, 0, 18446744073709551615, 1, 0, ""⟩,
  ⟨0xC080, 0xC080, 0x14, 5, 0x0111, 0, 0, 0, 0, 18446744073709551615, 1, 0, ""⟩,
  ⟨0xC080, 0xC080, 0x15, 5, 0x0111, 0, 0, 0, 0, 18446744073709551615, 1, 0, ""⟩,
  ⟨0xC080, 0xC080, 0x16, 5, 0x0111, 0, 0, 0, 0, 18446744073709551615, 1, 0, ""⟩,
  ⟨0xC080, 0xC080, 0x17, 5, 0x0111, 0, 0, 0, 0, 18446744073709551615, 1, 0, ""⟩,
  ⟨0xC090, 0xC09F, 0x01, 5, 0x0111, 0, 0, 0, 0, 18446744073709551615, 1, 0, ""⟩,
  ⟨0xC090, 0xC09F, 0x02, 5, 0x0111, 0, 0, 0, 0, 18446744073709551615, 1, 0, ""⟩,
  ⟨0xC090, 0xC09F, 0x03, 5, 0x0111, 0, 0, 0, 0, 18446744073709551615, 1, 0, ""⟩,
  ⟨0xC090, 0xC09F, 0x04, 5, 0x0111, 0, 0, 0, 0, 18446744073709551615, 1, 0, ""⟩]

/-- Descriptors of 0xC090.05 to 0xC0A0.0D. -/
def dir20 : List ObjDesc := [
  ⟨0xC090, 0xC09F, 0x05, 5, 0x0111, 0, 0, 0, 0, 18446744073709551615, 1, 0, ""⟩,
  ⟨0xC090, 0xC09F, 0x06, 5, 0x0111, 0, 0, 0, 0, 18446744073709551615, 1, 0, ""⟩,
  ⟨0xC090, 0xC09F, 0x07, 5, 0x0111, 0, 0, 0, 0, 18446744073709551615, 1, 0, ""⟩,
  ⟨0xC090, 0xC09F, 0x08, 5, 0x0111, 0, 0, 0, 0, 18446744073709551615, 1, 0, ""⟩,
  ⟨0xC090, 0xC09F, 0x09, 5, 0x0111, 0, 0, 0, 0, 18446744073709551615, 1, 0, ""⟩,
  ⟨0xC090, 0xC09F, 0x0A, 5, 0x0111, 0, 0, 0, 0, 18446744073709551615, 1, 0, ""⟩,
  ⟨0xC090, 0xC09F, 0x0B, 5, 0x0111, 0, 0, 0, 0, 18446744073709551615, 1, 0, ""⟩,
  ⟨0xC090, 0xC09F, 0x0C, 5, 0x0111, 0, 0, 0, 0, 18446744073709551615, 1, 0, ""⟩,
  ⟨0xC090, 0xC09F, 0x0D, 5, 0x0111, 0, 0, 0, 0, 18446744073709551615, 1, 0, ""⟩,
  ⟨0xC090, 0xC09F, 0x0E, 5, 0x0111, 0, 0, 0, 0, 18446744073709551615, 1, 0, ""⟩,
  ⟨0xC090, 0xC09F, 0x0F, 5, 0x0111, 0, 0, 0, 0, 18446744073709551615, 1, 0, ""⟩,
  ⟨0xC0A0, 0xC0A0, 0x01, 5, 0x0111, 0, 0, 0, 0, 18446744073709551615, 1, 0, ""⟩,
  ⟨0xC0A0, 0xC0A0, 0x02, 5, 0x0111, 0, 0, 0, 0, 18446744073709551615, 1, 0, ""⟩,
  ⟨0xC0A0, 0xC0A0, 0x03, 5, 0x0111, 0, 0, 0, 0, 18446744073709551615, 1, 0, ""⟩,
  ⟨0xC0A0, 0xC0A0, 0x04, 5, 0x0111, 0, 0, 0, 0, 18446744073709551615, 1, 0, ""⟩,
  ⟨0xC0A0, 0xC0A0, 0x05, 5, 0x0111, 0, 0, 0, 0, 18446744073709551615, 1, 0, ""⟩,
  ⟨0xC0A0, 0xC0A0, 0x06, 5, 0x0111, 0, 0, 0, 0, 18446744073709551615, 1, 0, ""⟩,
  ⟨0xC0A0, 0xC0A0, 0x07, 5, 0x0111, 0, 0, 0, 0, 18446744073709551615, 1, 0, ""⟩,
  ⟨0xC0A0, 0xC0A0, 0x08, 5, 0x0111, 0, 0, 0, 0, 18446744073709551615, 1, 0, ""⟩,
  ⟨0xC0A0, 0xC0A0, 0x09, 5, 0x0111, 0, 0, 0, 0, 18446744073709551615, 1, 0, ""⟩,
  ⟨0xC0A0, 0xC0A0, 0x0A, 5, 0x0111, 0, 0, 0, 0, 18446744073709551615, 1, 0, ""⟩,
  ⟨0xC0A0, 0xC0A0, 0x0B, 5, 0x0111, 0, 0, 0, 0, 18446744073709551615, 1, 0, ""⟩,
  ⟨0xC0A0, 0xC0A0, 0x0C, 5, 0x0111, 0, 0, 0, 0, 18446744073709551615, 1, 0, ""⟩,
  ⟨0xC0A0, 0xC0A0, 0x0D, 5, 0x0111, 0, 0, 0, 0, 18446744073709551615, 1, 0, ""⟩]

/-- Descriptors of 0xC0A0.0E to 0xC0B0.13. -/
def dir21 : List ObjDesc := [
  ⟨0xC0A0, 0xC0A0, 0x0E, 5, 0x0111, 0, 0, 0, 0, 18446744073709551615, 1, 0, ""⟩,
  ⟨0xC0A0, 0xC0A0, 0x0F, 5, 0x0111, 0, 0, 0, 0, 18446744073709551615, 1, 0, ""⟩,
  ⟨0xC0A0, 0xC0A0, 0x10, 5, 0x0111, 0, 0, 0, 0, 18446744073709551615, 1, 0, ""⟩,
  ⟨0xC0A1, 0xC0A1, 0x01, 5, 0x0111, 0, 0, 0, 0, 18446744073709551615, 1, 0, ""⟩,
  ⟨0xC0A1, 0xC0A1, 0x02, 5, 0x0111, 0, 0, 0, 0, 18446744073709551615, 1, 0, ""⟩,
  ⟨0xC0B0, 0xC0B0, 0x01, 5, 0x0111, 0, 0, 0, 0, 18446744073709551615, 1, 0, ""⟩,
  ⟨0xC0B0, 0xC0B0, 0x02, 5, 0x0111, 0, 0, 0, 0, 18446744073709551615, 1, 0, ""⟩,
  ⟨0xC0B0, 0xC0B0, 0x03, 5, 0x0111, 0, 0, 0, 0, 18446744073709551615, 1, 0, ""⟩,
  ⟨0xC0B0, 0xC0B0, 0x04, 5, 0x0111, 0, 0, 0, 0, 18446744073709551615, 1, 0, ""⟩,
  ⟨0xC0B0, 0xC0B0, 0x05, 5, 0x0111, 0, 0, 0, 0, 18446744073709551615, 1, 0, ""⟩,
  ⟨0xC0B0, 0xC0B0, 0x06, 5, 0x0111, 0, 0, 0, 0, 18446744073709551615, 1, 0, ""⟩,
  ⟨0xC0B0, 0xC0B0, 0x07, 5, 0x0111, 0, 0, 0, 0, 18446744073709551615, 1, 0, ""⟩,
  ⟨0xC0B0, 0xC0B0, 0x08, 5, 0x0111, 0, 0, 0, 0, 18446744073709551615, 1, 0, ""⟩,
  ⟨0xC0B0, 0xC0B0, 0x09, 5, 0x0111, 0, 0, 0, 0, 18446744073709551615, 1, 0, ""⟩,
  ⟨0xC0B0, 0xC0B0, 0x0A, 5, 0x0111, 0, 0, 0, 0, 18446744073709551615, 1, 0, ""⟩,
  ⟨0xC0B0, 0xC0B0, 0x0B, 5, 0x0111, 0, 0, 0, 0, 18446744073709551615, 1, 0, ""⟩,
  ⟨0xC0B0, 0xC0B0, 0x0C, 5, 0x0111, 0, 0, 0, 0, 18446744073709551615, 1, 0, ""⟩,
  ⟨0xC0B0, 0xC0B0, 0x0D, 5, 0x0111, 0, 0, 0, 0, 18446744073709551615, 1, 0, ""⟩,
  ⟨0xC0B0, 0xC0B0, 0x0E, 5, 0x0111, 0, 0, 0, 0, 18446744073709551615, 1, 0, ""⟩,
  ⟨0xC0B0, 0xC0B0, 0x0F, 5, 0x0111, 0, 0, 0, 0, 18446744073709551615, 1, 0, ""⟩,
  ⟨0xC0B0, 0xC0B0, 0x10, 5, 0x0111, 0, 0, 0, 0, 18446744073709551615, 1, 0, ""⟩,
  ⟨0xC0B0, 0xC0B0, 0x11, 5, 0x0111, 0, 0, 0, 0, 18446744073709551615, 1, 0, ""⟩,
  ⟨0xC0B0, 0xC0B0, 0x12, 5, 0x0111, 0, 0, 0, 0, 18446744073709551615, 1, 0, ""⟩,
  ⟨0xC0B0, 0xC0B0, 0x13, 5, 0x0111, 0, 0, 0, 0, 18446744073709551615, 1, 0, ""⟩]

/-- Descriptors of 0xC0B0.14 to 0xC0C0.0C. -/
def dir22 : List ObjDesc := [
  ⟨0xC0B0, 0xC0B0, 0x14, 5, 0x0111, 0, 0, 0, 0, 18446744073709551615, 1, 0, ""⟩,
  ⟨0xC0B0, 0xC0B0, 0x15, 5, 0x0111, 0, 0, 0, 0, 18446744073709551615, 1, 0, ""⟩,
  ⟨0xC0B1, 0xC0B1, 0x01, 5, 0x0111, 131072, 0, 0, 0, 18446744073709551615, 1, 0, ""⟩,
  ⟨0xC0B1, 0xC0B1, 0x02, 5, 0x0111, 131072, 0, 0, 0, 18446744073709551615, 1, 0, ""⟩,
  ⟨0xC0B1, 0xC0B1, 0x03, 5, 0x0111, 131072, 0, 0, 0, 18446744073709551615, 1, 0, ""⟩,
  ⟨0xC0B1, 0xC0B1, 0x04, 5, 0x0111, 131072, 0, 0, 0, 18446744073709551615, 1, 0, ""⟩,
  ⟨0xC0B1, 0xC0B1, 0x05, 5, 0x0111, 131072, 0, 0, 0, 18446744073709551615, 1, 0, ""⟩,
  ⟨0xC0B2, 0xC0B2, 0x01, 5, 0x0111, 65536, 0, 0, 0, 18446744073709551615, 1, 0, ""⟩,
  ⟨0xC0B2, 0xC0B2, 0x02, 5, 0x0111, 65536, 0, 0, 0, 18446744073709551615, 1, 0, ""⟩,
  ⟨0xC0B2, 0xC0B2, 0x03, 5, 0x0111, 65536, 0, 0, 0, 18446744073709551615, 1, 0, ""⟩,
  ⟨0xC0B2, 0xC0B2, 0x04, 5, 0x0111, 65536, 0, 0, 0, 18446744073709551615, 1, 0, ""⟩,
  ⟨0xC0B2, 0xC0B2, 0x05, 5, 0x0111, 65536, 0, 0, 0, 18446744073709551615, 1, 0, ""⟩,
  ⟨0xC0C0, 0xC0C0, 0x01, 5, 0x0111, 0, 0, 0, 0, 18446744073709551615, 1, 0, ""⟩,
  ⟨0xC0C0, 0xC0C0, 0x02, 5, 0x0111, 0, 0, 0, 0, 18446744073709551615, 1, 0, ""⟩,
  ⟨0xC0C0, 0xC0C0, 0x03, 5, 0x0111, 0, 0, 0, 0, 18446744073709551615, 1, 0, ""⟩,
  ⟨0xC0C0, 0xC0C0, 0x04, 5, 0x0111, 0, 0, 0, 0, 18446744073709551615, 1, 0, ""⟩,
  ⟨0xC0C0, 0xC0C0, 0x05, 5, 0x0111, 0, 0, 0, 0, 18446744073709551615, 1, 0, ""⟩,
  ⟨0xC0C0, 0xC0C0, 0x06, 5, 0x0111, 0, 0, 0, 0, 18446744073709551615, 1, 0, ""⟩,
  ⟨0xC0C0, 0xC0C0, 0x07, 5, 0x0111, 0, 0, 0, 0, 18446744073709551615, 1, 0, ""⟩,
  ⟨0xC0C0, 0xC0C0, 0x08, 5, 0x0111, 0, 0, 0, 0, 18446744073709551615, 1, 0, ""⟩,
  ⟨0xC0C0, 0xC0C0, 0x09, 5, 0x0111, 0, 0, 0, 0, 18446744073709551615, 1, 0, ""⟩,
  ⟨0xC0C0, 0xC0C0, 0x0A, 5, 0x0111, 0, 0, 0, 0, 18446744073709551615, 1, 0, ""⟩,
  ⟨0xC0C0, 0xC0C0, 0x0B, 5, 0x0111, 0, 0, 0, 0, 18446744073709551615, 1, 0, ""⟩,
  ⟨0xC0C0, 0xC0C0, 0x0C, 5, 0x0111, 0, 0, 0, 0, 18446744073709551615, 1, 0, ""⟩]

/-- Descriptors of 0xC0C1.01 to 0xC0D0.0B. -/
def dir23 : List ObjDesc := [
  ⟨0xC0C1, 0xC0C1, 0x01, 5, 0x0111, 34, 0, 0, 0, 18446744073709551615, 1, 0, ""⟩,
  ⟨0xC0C1, 0xC0C1, 0x02, 5, 0x0111, 34, 0, 0, 0, 18446744073709551615, 1, 0, ""⟩,
  ⟨0xC0C8, 0xC0C8, 0x01, 5, 0x0111, 0, 0, 0, 0, 18446744073709551615, 1, 0, ""⟩,
  ⟨0xC0C8, 0xC0C8, 0x02, 5, 0x0111, 0, 0, 0, 0, 18446744073709551615, 1, 0, ""⟩,
  ⟨0xC0C8, 0xC0C8, 0x03, 5, 0x0111, 0, 0, 0, 0, 18446744073709551615, 1, 0, ""⟩,
  ⟨0xC0C8, 0xC0C8, 0x04, 5, 0x0111, 0, 0, 0, 0, 18446744073709551615, 1, 0, ""⟩,
  ⟨0xC0C8, 0xC0C8, 0x05, 5, 0x0111, 0, 0, 0, 0, 18446744073709551615, 1, 0, ""⟩,
  ⟨0xC0C8, 0xC0C8, 0x06, 5, 0x0111, 0, 0, 0, 0, 18446744073709551615, 1, 0, ""⟩,
  ⟨0xC0C8, 0xC0C8, 0x07, 5, 0x0111, 0, 0, 0, 0, 18446744073709551615, 1, 0, ""⟩,
  ⟨0xC0C8, 0xC0C8, 0x08, 5, 0x0111, 0, 0, 0, 0, 18446744073709551615, 1, 0, ""⟩,
  ⟨0xC0C8, 0xC0C8, 0x09, 5, 0x0111, 0, 0, 0, 0, 18446744073709551615, 1, 0, ""⟩,
  ⟨0xC0C8, 0xC0C8, 0x0A, 5, 0x0111, 0, 0, 0, 0, 18446744073709551615, 1, 0, ""⟩,
  ⟨0xC0C8, 0xC0C8, 0x0B, 5, 0x0111, 0, 0, 0, 0, 18446744073709551615, 1, 0, ""⟩,
  ⟨0xC0D0, 0xC0D0, 0x01, 5, 0x0111, 0, 0, 0, 0, 18446744073709551615, 1, 0, ""⟩,
  ⟨0xC0D0, 0xC0D0, 0x02, 5, 0x0111, 0, 0, 0, 0, 18446744073709551615, 1, 0, ""⟩,
  ⟨0xC0D0, 0xC0D0, 0x03, 5, 0x0111, 0, 0, 0, 0, 18446744073709551615, 1, 0, ""⟩,
  ⟨0xC0D0, 0xC0D0, 0x04, 5, 0x0111, 0, 0, 0, 0, 18446744073709551615, 1, 0, ""⟩,
  ⟨0xC0D0, 0xC0D0, 0x05, 5, 0x0111, 0, 0, 0, 0, 18446744073709551615, 1, 0, ""⟩,
  ⟨0xC0D0, 0xC0D0, 0x06, 5, 0x0111, 0, 0, 0, 0, 18446744073709551615, 1, 0, ""⟩,
  ⟨0xC0D0, 0xC0D0, 0x07, 5, 0x0111, 0, 0, 0, 0, 18446744073709551615, 1, 0, ""⟩,
  ⟨0xC0D0, 0xC0D0, 0x08, 5, 0x0111, 0, 0, 0, 0, 18446744073709551615, 1, 0, ""⟩,
  ⟨0xC0D0, 0xC0D0, 0x09, 5, 0x0111, 0, 0, 0, 0, 18446744073709551615, 1, 0, ""⟩,
  ⟨0xC0D0, 0xC0D0, 0x0A, 5, 0x0111, 0, 0, 0, 0, 18446744073709551615, 1, 0, ""⟩,
  ⟨0xC0D0, 0xC0D0, 0x0B, 5, 0x0111, 0, 0, 0, 0, 18446744073709551615, 1, 0, ""⟩]

/-- Descriptors of 0xC0D0.0C to 0xC0F0.03. -/
def dir24 : List ObjDesc := [
  ⟨0xC0D0, 0xC0D0, 0x0C, 5, 0x0111, 0, 0, 0, 0, 18446744073709551615, 1, 0, ""⟩,
  ⟨0xC0D0, 0xC0D0, 0x0D, 5, 0x0111, 0, 0, 0, 0, 18446744073709551615, 1, 0, ""⟩,
  ⟨0xC0D1, 0xC0D1, 0x01, 5, 0x0111, 4096, 0, 0, 0, 18446744073709551615, 1, 0, ""⟩,
  ⟨0xC0D1, 0xC0D1, 0x02, 5, 0x0111, 4096, 0, 0, 0, 18446744073709551615, 1, 0, ""⟩,
  ⟨0xC0E0, 0xC0E3, 0x01, 5, 0x0111, 0, 0, 0, 0, 18446744073709551615, 1, 0, ""⟩,
  ⟨0xC0E0, 0xC0E3, 0x02, 5, 0x0111, 0, 0, 0, 0, 18446744073709551615, 1, 0, ""⟩,
  ⟨0xC0E0, 0xC0E3, 0x03, 5, 0x0111, 0, 0, 0, 0, 18446744073709551615, 1, 0, ""⟩,
  ⟨0xC0E0, 0xC0E3, 0x04, 5, 0x0111, 0, 0, 0, 0, 18446744073709551615, 1, 0, ""⟩,
  ⟨0xC0E0, 0xC0E3, 0x05, 5, 0x0111, 0, 0, 0, 0, 18446744073709551615, 1, 0, ""⟩,
  ⟨0xC0E0, 0xC0E3, 0x06, 5, 0x0111, 0, 0, 0, 0, 18446744073709551615, 1, 0, ""⟩,
  ⟨0xC0E0, 0xC0E3, 0x07, 5, 0x0111, 0, 0, 0, 0, 18446744073709551615, 1, 0, ""⟩,
  ⟨0xC0E0, 0xC0E3, 0x08, 5, 0x0111, 0, 0, 0, 0, 18446744073709551615, 1, 0, ""⟩,
  ⟨0xC0E0, 0xC0E3, 0x09, 5, 0x0111, 0, 0, 0, 0, 18446744073709551615, 1, 0, ""⟩,
  ⟨0xC0E0, 0xC0E3, 0x0A, 5, 0x0111, 0, 0, 0, 0, 18446744073709551615, 1, 0, ""⟩,
  ⟨0xC0E0, 0xC0E3, 0x0B, 5, 0x0111, 0, 0, 0, 0, 18446744073709551615, 1, 0, ""⟩,
  ⟨0xC0E0, 0xC0E3, 0x0C, 5, 0x0111, 0, 0, 0, 0, 18446744073709551615, 1, 0, ""⟩,
  ⟨0xC0E0, 0xC0E3, 0x0D, 5, 0x0111, 0, 0, 0, 0, 18446744073709551615, 1, 0, ""⟩,
  ⟨0xC0E0, 0xC0E3, 0x0E, 5, 0x0111, 0, 0, 0, 0, 18446744073709551615, 1, 0, ""⟩,
  ⟨0xC0E0, 0xC0E3, 0x0F, 5, 0x0111, 0, 0, 0, 0, 18446744073709551615, 1, 0, ""⟩,
  ⟨0xC0E0, 0xC0E3, 0x10, 5, 0x0111, 0, 0, 0, 0, 18446744073709551615, 1, 0, ""⟩,
  ⟨0xC0E0, 0xC0E3, 0x11, 5, 0x0111, 0, 0, 0, 0, 18446744073709551615, 1, 0, ""⟩,
  ⟨0xC0F0, 0xC0F0, 0x01, 5, 0x1111, 16384, 0, 0, 0, 18446744073709551615, 1, 4, ""⟩,
  ⟨0xC0F0, 0xC0F0, 0x02, 5, 0x1111, 16384, 0, 0, 0, 18446744073709551615, 1, 4, ""⟩,
  ⟨0xC0F0, 0xC0F0, 0x03, 5, 0x1111, 16384, 0, 0, 0, 18446744073709551615, 1, 4, ""⟩]

/-- Descriptors of 0xC0F0.04 to 0xC200.01. -/
def dir25 : List ObjDesc := [
  ⟨0xC0F0, 0xC0F0, 0x04, 5, 0x1111, 16384, 0, 0, 0, 18446744073709551615, 1, 4, ""⟩,
  ⟨0xC0F0, 0xC0F0, 0x05, 5, 0x1111, 16384, 0, 0, 0, 18446744073709551615, 1, 4, ""⟩,
  ⟨0xC0F0, 0xC0F0, 0x06, 5, 0x1111, 16384, 0, 0, 0, 18446744073709551615, 1, 4, ""⟩,
  ⟨0xC0F0, 0xC0F0, 0x07, 5, 0x1111, 16384, 0, 0, 0, 18446744073709551615, 1, 4, ""⟩,
  ⟨0xC0F0, 0xC0F0, 0x08, 5, 0x1111, 16384, 0, 0, 0, 18446744073709551615, 1, 4, ""⟩,
  ⟨0xC100, 0xC11F, 0x01, 5, 0x0111, 0, 0, 0, 0, 18446744073709551615, 1, 0, ""⟩,
  ⟨0xC100, 0xC11F, 0x02, 5, 0x0111, 0, 0, 0, 0, 18446744073709551615, 1, 0, ""⟩,
  ⟨0xC100, 0xC11F, 0x03, 5, 0x0111, 0, 0, 0, 0, 18446744073709551615, 1, 0, ""⟩,
  ⟨0xC100, 0xC11F, 0x04, 5, 0x0111, 0, 0, 0, 0, 18446744073709551615, 1, 0, ""⟩,
  ⟨0xC100, 0xC11F, 0x05, 5, 0x0111, 0, 0, 0, 0, 18446744073709551615, 1, 0, ""⟩,
  ⟨0xC100, 0xC11F, 0x06, 5, 0x0111, 0, 0, 0, 0, 18446744073709551615, 1, 0, ""⟩,
  ⟨0xC100, 0xC11F, 0x07, 5, 0x0111, 0, 0, 0, 0, 18446744073709551615, 1, 0, ""⟩,
  ⟨0xC100, 0xC11F, 0x08, 5, 0x0111, 0, 0, 0, 0, 18446744073709551615, 1, 0, ""⟩,
  ⟨0xC100, 0xC11F, 0x09, 5, 0x0111, 0, 0, 0, 0, 18446744073709551615, 1, 0, ""⟩,
  ⟨0xC100, 0xC11F, 0x0A, 5, 0x0111, 0, 0, 0, 0, 18446744073709551615, 1, 0, ""⟩,
  ⟨0xC100, 0xC11F, 0x0B, 5, 0x0111, 0, 0, 0, 0, 18446744073709551615, 1, 0, ""⟩,
  ⟨0xC100, 0xC11F, 0x0C, 5, 0x0111, 0, 0, 0, 0, 18446744073709551615, 1, 0, ""⟩,
  ⟨0xC100, 0xC11F, 0x0D, 5, 0x0111, 0, 0, 0, 0, 18446744073709551615, 1, 0, ""⟩,
  ⟨0xC100, 0xC11F, 0x0E, 5, 0x0111, 0, 0, 0, 0, 18446744073709551615, 1, 0, ""⟩,
  ⟨0xC100, 0xC11F, 0x0F, 5, 0x0111, 0, 0, 0, 0, 18446744073709551615, 1, 0, ""⟩,
  ⟨0xC100, 0xC11F, 0x10, 5, 0x0111, 0, 0, 0, 0, 18446744073709551615, 1, 0, ""⟩,
  ⟨0xC100, 0xC11F, 0x11, 5, 0x0111, 0, 0, 0, 0, 18446744073709551615, 1, 0, ""⟩,
  ⟨0xC180, 0xC19F, 0x01, 5, 0x0111, 0, 0, 0, 0, 18446744073709551615, 1, 0, ""⟩,
  ⟨0xC200, 0xC200, 0x01, 5, 0x0111, 0, 0, 0, 0, 18446744073709551615, 1, 0, ""⟩]

/-- Descriptors of 0xC200.02 to 0xC210.0A. -/
def dir26 : List ObjDesc := [
  ⟨0xC200, 0xC200, 0x02, 5, 0x0111, 0, 0, 0, 0, 18446744073709551615, 1, 0, ""⟩,
  ⟨0xC200, 0xC200, 0x03, 5, 0x0111, 0, 0, 0, 0, 18446744073709551615, 1, 0, ""⟩,
  ⟨0xC200, 0xC200, 0x04, 5, 0x0111, 0, 0, 0, 0, 18446744073709551615, 1, 0, ""⟩,
  ⟨0xC200, 0xC200, 0x05, 5, 0x0111, 0, 0, 0, 0, 18446744073709551615, 1, 0, ""⟩,
  ⟨0xC200, 0xC200, 0x06, 5, 0x0111, 0, 0, 0, 0, 18446744073709551615, 1, 0, ""⟩,
  ⟨0xC200, 0xC200, 0x07, 5, 0x0111, 0, 0, 0, 0, 18446744073709551615, 1, 0, ""⟩,
  ⟨0xC200, 0xC200, 0x08, 5, 0x0111, 0, 0, 0, 0, 18446744073709551615, 1, 0, ""⟩,
  ⟨0xC200, 0xC200, 0x09, 5, 0x0111, 0, 0, 0, 0, 18446744073709551615, 1, 0, ""⟩,
  ⟨0xC200, 0xC200, 0x0A, 5, 0x0111, 0, 0, 0, 0, 18446744073709551615, 1, 0, ""⟩,
  ⟨0xC200, 0xC200, 0x0B, 5, 0x0111, 0, 0, 0, 0, 18446744073709551615, 1, 0, ""⟩,
  ⟨0xC200, 0xC200, 0x0C, 5, 0x0111, 0, 0, 0, 0, 18446744073709551615, 1, 0, ""⟩,
  ⟨0xC200, 0xC200, 0x0D, 5, 0x0111, 0, 0, 0, 0, 18446744073709551615, 1, 0, ""⟩,
  ⟨0xC200, 0xC200, 0x0E, 5, 0x0111, 0, 0, 0, 0, 18446744073709551615, 1, 0, ""⟩,
  ⟨0xC200, 0xC200, 0x0F, 5, 0x0111, 0, 0, 0, 0, 18446744073709551615, 1, 0, ""⟩,
  ⟨0xC210, 0xC215, 0x01, 5, 0x0111, 0, 0, 0, 0, 18446744073709551615, 1, 0, ""⟩,
  ⟨0xC210, 0xC215, 0x02, 5, 0x0111, 0, 0, 0, 0, 18446744073709551615, 1, 0, ""⟩,
  ⟨0xC210, 0xC215, 0x03, 5, 0x0111, 0, 0, 0, 0, 18446744073709551615, 1, 0, ""⟩,
  ⟨0xC210, 0xC215, 0x04, 5, 0x0111, 0, 0, 0, 0, 18446744073709551615, 1, 0, ""⟩,
  ⟨0xC210, 0xC215, 0x05, 5, 0x0111, 0, 0, 0, 0, 18446744073709551615, 1, 0, ""⟩,
  ⟨0xC210, 0xC215, 0x06, 5, 0x0111, 0, 0, 0, 0, 18446744073709551615, 1, 0, ""⟩,
  ⟨0xC210, 0xC215, 0x07, 5, 0x0111, 0, 0, 0, 0, 18446744073709551615, 1, 0, ""⟩,
  ⟨0xC210, 0xC215, 0x08, 5, 0x0111, 0, 0, 0, 0, 18446744073709551615, 1, 0, ""⟩,
  ⟨0xC210, 0xC215, 0x09, 5, 0x0111, 0, 0, 0, 0, 18446744073709551615, 1, 0, ""⟩,
  ⟨0xC210, 0xC215, 0x0A, 5, 0x0111, 0, 0, 0, 0, 18446744073709551615, 1, 0, ""⟩]

/-- Descriptors of 0xC220.01 to 0xD000.03. -/
def dir27 : List ObjDesc := [
  ⟨0xC220, 0xC220, 0x01, 5, 0x0111, 0, 0, 0, 0, 18446744073709551615, 1, 0, ""⟩,
  ⟨0xC220, 0xC220, 0x02, 5, 0x0111, 0, 0, 0, 0, 18446744073709551615, 1, 0, ""⟩,
  ⟨0xC220, 0xC220, 0x03, 5, 0x0111, 0, 0, 0, 0, 18446744073709551615, 1, 0, ""⟩,
  ⟨0xC220, 0xC220, 0x04, 5, 0x0111, 0, 0, 0, 0, 18446744073709551615, 1, 0, ""⟩,
  ⟨0xC220, 0xC220, 0x05, 5, 0x0111, 0, 0, 0, 0, 18446744073709551615, 1, 0, ""⟩,
  ⟨0xC220, 0xC220, 0x06, 5, 0x0111, 0, 0, 0, 0, 18446744073709551615, 1, 0, ""⟩,
  ⟨0xC220, 0xC220, 0x07, 5, 0x0111, 0, 0, 0, 0, 18446744073709551615, 1, 0, ""⟩,
  ⟨0xC220, 0xC220, 0x08, 5, 0x0111, 0, 0, 0, 0, 18446744073709551615, 1, 0, ""⟩,
  ⟨0xC230, 0xC230, 0x01, 5, 0x0111, 0, 0, 0, 0, 18446744073709551615, 1, 0, ""⟩,
  ⟨0xC230, 0xC230, 0x02, 5, 0x0111, 0, 0, 0, 0, 18446744073709551615, 1, 0, ""⟩,
  ⟨0xC230, 0xC230, 0x03, 5, 0x0111, 0, 0, 0, 0, 18446744073709551615, 1, 0, ""⟩,
  ⟨0xC230, 0xC230, 0x04, 5, 0x0111, 0, 0, 0, 0, 18446744073709551615, 1, 0, ""⟩,
  ⟨0xC230, 0xC230, 0x05, 5, 0x0111, 0, 0, 0, 0, 18446744073709551615, 1, 0, ""⟩,
  ⟨0xC230, 0xC230, 0x06, 5, 0x0111, 0, 0, 0, 0, 18446744073709551615, 1, 0, ""⟩,
  ⟨0xC230, 0xC230, 0x07, 5, 0x0111, 0, 0, 0, 0, 18446744073709551615, 1, 0, ""⟩,
  ⟨0xC230, 0xC230, 0x08, 5, 0x0111, 0, 0, 0, 0, 18446744073709551615, 1, 0, ""⟩,
  ⟨0xC230, 0xC230, 0x09, 5, 0x0111, 0, 0, 0, 0, 18446744073709551615, 1, 0, ""⟩,
  ⟨0xC230, 0xC230, 0x0A, 5, 0x0111, 0, 0, 0, 0, 18446744073709551615, 1, 0, ""⟩,
  ⟨0xC230, 0xC230, 0x0B, 5, 0x0111, 0, 0, 0, 0, 18446744073709551615, 1, 0, ""⟩,
  ⟨0xC230, 0xC230, 0x0C, 5, 0x0111, 0, 0, 0, 0, 18446744073709551615, 1, 0, ""⟩,
  ⟨0xC230, 0xC230, 0x0D, 5, 0x0111, 0, 0, 0, 0, 18446744073709551615, 1, 0, ""⟩,
  ⟨0xD000, 0xD000, 0x01, 5, 0x0111, 0, 0, 0, 0, 18446744073709551615, 1, 0, "beat"⟩,
  ⟨0xD000, 0xD000, 0x02, 1, 0x0333, 0, 0, 0, 0, 1, 1, 0, ""⟩,
  ⟨0xD000, 0xD000, 0x03, 3, 0x0133, 0, 60, 0, 1, 3600, 1, 0, "s"⟩]

/-- Descriptors of 0xD000.04 to 0xE010.04. -/
def dir28 : List ObjDesc := [
  ⟨0xD000, 0xD000, 0x04, 9, 0x0111, 0, 0, 0, 0, 2, 1, 2, ""⟩,
  ⟨0xD000, 0xD000, 0x05, 1, 0x0111, 0, 0, 0, 0, 1, 1, 0, ""⟩,
  ⟨0xD010, 0xD010, 0x01, 5, 0x0003, 36, 0, 0, 0, 18446744073709551615, 1, 0, ""⟩,
  ⟨0xE000, 0xE000, 0x01, 5, 0x0111, 0, 0, 0, 0, 18446744073709551615, 1, 0, ""⟩,
  ⟨0xE000, 0xE000, 0x02, 10, 0x0111, 4096, 0, 0, 32, 32, 1, 0, ""⟩,
  ⟨0xE010, 0xE010, 0x01, 10, 0x0111, 0, 0, 0, 0, 4294967295, 1, 2, ""⟩,
  ⟨0xE010, 0xE010, 0x02, 5, 0x0111, 0, 0, 0, 0, 18446744073709551615, 1, 2, ""⟩,
  ⟨0xE010, 0xE010, 0x03, 4, 0x0111, 0, 0, 0, 0, 4294967295, 1, 0, "byte"⟩,
  ⟨0xE010, 0xE010, 0x04, 1, 0x0002, 0, 0, 0, 0, 1, 1, 0, ""⟩]

/-- The whole directory. -/
def directory : List ObjDesc :=
  dir0 ++ dir1 ++ dir2 ++ dir3 ++ dir4 ++ dir5 ++ dir6 ++ dir7 ++ dir8 ++ dir9 ++ dir10 ++ dir11 ++ dir12 ++ dir13 ++ dir14 ++ dir15 ++ dir16 ++ dir17 ++ dir18 ++ dir19 ++ dir20 ++ dir21 ++ dir22 ++ dir23 ++ dir24 ++ dir25 ++ dir26 ++ dir27 ++ dir28

/-- The descriptor of an index and sub (17 R398). -/
def objDesc (idx sub : Nat) : Option ObjDesc :=
  directory.find? (fun d => decide (d.lo ≤ idx) && decide (idx ≤ d.hi) && d.sub == sub)

/-- The key of an element of an object in the object and counter stores. -/
def okey (idx sub el : Nat) : Nat := idx * 2 ^ 40 + sub * 2 ^ 32 + el

/-- Index, sub and element of a key. -/
def okeyIdx (k : Nat) : Nat := k / 2 ^ 40
def okeySub (k : Nat) : Nat := (k / 2 ^ 32) % 256
def okeyEl (k : Nat) : Nat := k % 2 ^ 32

/-- The default of an element under a descriptor. -/
def ObjDesc.dfltAt (d : ObjDesc) (idx el : Nat) : Nat :=
  match d.dk with
  | 1 => el / 4 | 2 => el / 16 | 3 => el / 8 | 4 => el / 2 | 5 => 4096 * el
  | 6 => if idx = d.lo then 1024 else 0
  | _ => d.dflt

/-- The default of an object's element (16 R374); 0 for an object the directory does not list. -/
def objDefault (k : Nat) : Nat :=
  match objDesc (okeyIdx k) (okeySub k) with
  | some d => d.dfltAt (okeyIdx k) (okeyEl k)
  | none => 0

/-- The bytes of one element of a type; OCTETS take `most` bytes (Table 16-1). -/
def ObjDesc.size (d : ObjDesc) : Nat :=
  match d.ty with
  | 1 | 2 | 6 | 9 => 1 | 3 | 7 => 2 | 4 | 8 => 4 | 5 => 8 | _ => d.most.toNat

/-- The critical flag (17 R402). -/
def ObjDesc.critical (d : ObjDesc) : Bool := d.flags % 2 == 1

end Sys2Proof.Machine
end

