-- ==== Sys2Proof/Config.lean ====
section
/-!
DEFINITION. What the specification leaves to a standard, to fuses or open: constants without a body, so that no proof
can rest on a value of theirs. Notes: assumptions 1 and 2.
-/

namespace Sys2Proof.Config

/-! ## Random draws, keys and what the standards leave to the part -/

/-- Opaque data of KEY_EXCHANGE_RSP, which selects the secured-message version (15 R366). -/
opaque spdmOpaque : List Byte
/-- CTExponent of the SPDM CAPABILITIES response: a time that the specification does not give (15 R366). -/
opaque spdmTiming : Byte
/-- Output of the DRBG, draw n, as a number of 512 bits (SP 800-90A): Kennel's draws from 0 on; from 2^64 the debug port's
nonces, 2^65 Uhlist's, 2^66 SPDM's; from 2^67 the ephemeral scalars of Uhlist, 2^68 of SPDM, 2^69 of the pair link; from 2^70
the numbers k of the identity key's signatures. -/
opaque drbg : Nat → BitVec 512
/-- The device key of Kennel's slots in HBM, from fuses and the on-die PUF (09 R212; the derivation is not given). -/
opaque deviceKey : BitVec 256
/-- The pair key that follows from the shared secret of the pair link's key agreement (14 R323; the derivation is not
given). -/
opaque pairKdf : List Byte → BitVec 256
/-- The 256-bit unique device secret in the fuses (15 R363). -/
opaque deviceSecret : BitVec 256
/-- The 256-bit PUF response, as its fused helper data corrects it (15 R363). -/
opaque pufResponse : BitVec 256

/-! ## Fused and per-part values -/

/-- serial_number, 0x1000.01. -/
opaque serial : BitVec 64
/-- factory_key_hash, 0x1030.01. -/
opaque factoryKeyHash : BitVec 256
/-- The factory role key, X‖Y, whose SHA-256 is to equal factory_key_hash (16 R379). -/
opaque factoryKey : List Byte
/-- mgmt_mac, 0x1040.01, as 6 bytes. -/
opaque mgmtMac : BitVec 48
/-- Fused lock level, 0xD000.04: 0 OPEN, 1 AUTH, 2 CLOSED. -/
opaque lockLevel : Nat
/-- Fused hashes of the image-signing keys 0–3. -/
opaque signingKeyHash : Nat → BitVec 256
/-- Factory calibration: kind 0–5 and element, as the encoding of its object. -/
opaque factoryCalib : Nat → Nat → Nat
/-- Outcome of the n-th self-test of island SRAM, and of the n-th read of the fuses: true on a failure (15 R356). -/
opaque sramFault : Nat → Bool
opaque fuseFault : Nat → Bool
/-- The PUF response of the n-th island power-on cannot be corrected by its helper data (15 R363). -/
opaque pufFault : Nat → Bool
/-- Page of 4 KiB in the control-core region that holds the manifest of the locked firmware (15 R354; not given). -/
opaque firmwareManifestPage : Fin 4194304
/-- Fuse bits of the two banks of the security floor that were blown when the part left the factory (15 R351). -/
opaque fusedBanks : Nat × Nat
/-- Size of the NOR flash in bytes, as its SFDP gives it; and whether it answers the n-th read of SFDP (15 R345, R356). -/
opaque norBytes : Nat
opaque norSilent : Nat → Bool
/-- PODL_CLASS strap, 0x2200.01. -/
opaque podlClass : BitVec 4

/-- Base address of the HBM range into which stage 1 copies a timetable, TT_SRC, by attempt: a multiple of 4 KiB above 0
(15 R354, R355). -/
opaque stagingBase : Nat → Nat
/-- Page of 4 KiB at which the control-core region of 16 GiB begins in the 48 GiB of HBM (07; its place is not given). -/
opaque coreRegionPage : Fin 8388609
/-- Page of 4 KiB at which the decision-tree region of 2 GiB begins in HBM (03 R65, 07 R174; its place is not given). -/
opaque treeRegionPage : Fin 12058625
/-- Measurement 1, the digest of Whelp (15 Table 15-8). -/
opaque romDigest : BitVec 256
/-- Measurement 5, as a function of the floor and the revoke bits; key hashes and lock fuses are the part's own. The layout
of the bytes it digests is not given (15 Table 15-8). -/
opaque hardwareMeasurement : Nat → BitVec 4 → BitVec 256
/-- Measurement 6 while no copy of the user calibration set is in effect: the specification states none (18 R424). -/
opaque noCalibration : BitVec 256
/-- The boundary-chain cells of the 1.8 V pins (20 R449; the chain's order is not given). -/
opaque lowCells : BitVec 256
/-- The ring objects of an infrastructure queue pair, by pair and sub: Table 12-6 gives elements to slices alone, and no rule
says where those of the infrastructure stand (12 R297, 13 R299). -/
opaque infraRing : Nat → Nat → Nat
/-- The MSI-X vector of PF0 that a takeover raises (14 R337); the specification gives it no number. -/
opaque takeoverVector : Nat

/-- The bytes of a delta record on the pair link: Table 14-1 gives sizes and, but for the ledger entry half, no layout
(14 R319). -/
opaque recordLayout : DeltaRec → List Byte

/-! ## Free values -/

/-- A value the specification leaves open, number n: nothing constrains it. -/
opaque freeValue : Nat → BitVec 512
/-- A destination byte beyond DONE_BYTES of a transfer that failed (10 R240), number n at an address. -/
opaque freeByte : Nat → Nat → Byte
/-- A register of a control core (07, RV64GC internals), by core, register and number of the state. -/
opaque coreReg : Nat → Nat → Nat → BitVec 64

end Sys2Proof.Config
end

