-- ==== Sys2Proof/Machine/Types/Isl.lean ====
section
/-!
DEFINITION. State of the management island's front panel, cages and calibration (18), of the power domains (19) and of
the test access and debug access ports (20).
-/

namespace Sys2Proof.Machine

/-- Debounced latch (18 R415), in the order of the codes of latch_state. -/
inductive Latch where
  | closed | opened | fault
deriving DecidableEq, Repr

/-- Extraction states (18 R417, Table 18-3), in the order of their codes. REQUESTED is left in the step that enters it. -/
inductive Extract where
  | inService | requested | transferring | poweringDown | safe | refused
deriving DecidableEq, Repr

/-- Cage states (18 R420, Table 18-5), in the order of their codes. -/
inductive CageState where
  | empty | inserted | initialising | ready | powerDenied | fault
deriving DecidableEq, Repr

/-- One optical cage: its state, the advertised power of its module in mW, and a cage_lanes value that waits for the
next EMPTY (18 R419–R421). -/
structure Cage where
  state   : CageState
  power   : Nat
  lanes   : Option Nat
deriving DecidableEq, Repr

/-- The management island outside boot and Uhlist (18). -/
structure Isl where
  /-- latch_state 0x2210.01 (18 R415); reset CLOSED -/
  latch   : Latch
  /-- extract_state 0x2210.02 (18 R417); reset IN_SERVICE -/
  extract : Extract
  /-- the power-down of an extraction waits for a heartbeat that reports the partner ACTIVE (18 R418); reset false -/
  waitActive : Bool
  /-- PAIR_READY_OUT is held still: an extraction power-down has started (14 R326, 18 R418); reset false -/
  holdReady : Bool
  /-- a hard fault since the last main-domain reset: LED_FAULT (18 Table 18-2); reset false -/
  ledFault : Bool
  /-- t1l_state 0x2200.04 (18 R427); reset 0 down -/
  t1l     : Nat
  /-- island_supply 0x2200.05: bit 0 PoDL, bit 1 board (18 R408) -/
  supply  : BitVec 2
  /-- the 16 cages (18 R420); reset EMPTY -/
  cages   : List Cage
  /-- calib_sequence 0x2260.02: sequence of the user calibration set in effect (18 R424); reset 0 -/
  calibSeq : Nat
  /-- calib_state 0x2260.01: copy in effect, 2 none (18 R425) -/
  calib   : Nat
  /-- effective calibration values that the hardware has taken, by kind × 64 + element: the initial transmit equaliser
  settings of network lanes (0) and pair-link lanes (1), oscillator trims (4) and HBM PHY seeds (5); an unlisted one is
  the clamped factory value (02 R36, 18 R423); reset none listed -/
  calibUsed : Sparse Int
deriving DecidableEq, Repr

/-- Phases of the main domain (19 R437, R438). -/
inductive MainPhase where
  /-- every enable low -/
  | off
  /-- PWR_EN[k] raised, its PWR_GOOD awaited -/
  | rising (k : Nat)
  /-- PWR_GOOD[5] high, reset release awaited -/
  | releasing
  /-- main domain on and released -/
  | on
deriving DecidableEq, Repr

/-- A stop (false) or power-off (true) request held off (19 R434). -/
structure PowReq where
  island : Nat
  off    : Bool
deriving DecidableEq, Repr

/-- Clocks and power (19). -/
structure Pwr where
  /-- phase of the main domain (19 R437) -/
  phase  : MainPhase
  /-- PWR_EN[5:0] (18 R412); reset low -/
  en     : BitVec 6
  /-- PWR_GOOD[5:0], pwr_good 0x2100.05 (19 R447); reset 0 -/
  good   : BitVec 6
  /-- a main power-down is held off; whether extraction asked for it (19 R438); reset none -/
  hold   : Option Bool
  /-- power state of each island off ON: 1 STOPPED, 2 OFF (19 R433); reset all ON -/
  isl    : Sparse Nat
  /-- requests held off (19 R434); reset none -/
  reqs   : List PowReq
  /-- clock values accepted while the cluster's island is OFF apply on return to ON (Table 19-3); reset none -/
  clocks : Sparse Nat
  /-- THERM_TRIP# asserted and ON refused until every sensor is below 95 °C (19 R444); reset false -/
  tripped : Bool
  /-- junction sensors as last sampled, effective values in 0.01 °C (19 R444); reset none sampled -/
  temps  : List (BitVec 16)
deriving DecidableEq, Repr

/-- JTAG and the debug access port (20 R449–R457). -/
structure Dbg where
  /-- JTAG instruction register (20 R449); IDCODE after a TAP reset -/
  ir      : BitVec 8
  /-- boundary chain as sampled or preloaded (20 R449); reset 0 -/
  chain   : BitVec 256
  /-- SEL (Table 20-3); reset 0 -/
  sel     : BitVec 16
  /-- STATUS.RESULT (Table 20-3); reset 0 -/
  result  : BitVec 3
  /-- REGNO; reset 0 -/
  regno   : BitVec 16
  /-- DATA; reset 0 -/
  data    : BitVec 64
  /-- ADDR; reset 0 -/
  addr    : BitVec 64
  /-- LOCK.UNLOCKED (20 R450); reset 0, and 1 in lock level OPEN -/
  unlocked : Bool
  /-- breakpoints, by 4 × engine + n (Table 20-3); reset 0 -/
  bps     : Sparse Nat
  /-- number of the DRBG draw in CHALLENGE (20 R450) -/
  nonce   : Nat
  /-- RESPONSE, 128 bytes; reset 0 -/
  response : BitVec 1024
deriving DecidableEq, Repr

end Sys2Proof.Machine
end

