-- ==== Sys2Proof/Machine/Types/Boot.lean ====
section
/-!
DEFINITION. State of boot, image slots and identity (15).
-/

namespace Sys2Proof.Machine

/-- Where boot stands (15 R344, R356, R358). -/
inductive BootStage where
  | whelp | halted | stage1 | backoff | running
deriving DecidableEq, Repr

/-- Boot, image slots and identity (15). -/
structure Boot where
  /-- stage of boot (R344) -/
  stage   : BootStage
  /-- BOOT_CODE[3:0], boot_code 0x2000.01 (R357) -/
  code    : BitVec 4
  /-- NOR flash bytes off 0xFF, the erased value (R345) -/
  nor     : Sparse Byte
  /-- slot_state 0x2000.02 of the six slots (R353); reset EMPTY -/
  slots   : List Nat
  /-- slot_reason 0x2000.03; reset 0 -/
  reasons : List Nat
  /-- slot_version 0x2000.04; reset 0 -/
  versions : List Nat
  /-- running_slot 0x2000.05; reset 0 -/
  running : BitVec 3
  /-- manifests of the running loader, the running firmware and the locked boot timetable (R365); reset none -/
  manifests : List (Option (List Byte))
  /-- trial timer: start and length in island µs, and whether a loader slot is in TRIAL (R360); reset not armed -/
  trial   : Option (Nat × Nat × Bool)
  /-- length of the next backoff wait in seconds (R358); reset 1 -/
  wait    : Nat
  /-- the timetable alone is retried (R358); reset false -/
  ttOnly  : Bool
  /-- open image write: its slot, 0–5, and the stream bytes received (R362); reset none -/
  writing : Option (Nat × Nat)
  /-- commit_result 0x2020.04; reset 0 -/
  commit  : Nat
  /-- bits blown in the two fuse banks of the security floor; none: as they left the factory (R351) -/
  banks   : Option (Nat × Nat)
  /-- a burn of the floor: its target and the island µs at which it began (R351); reset none -/
  burn    : Option (Nat × Nat)
  /-- WP# of the flash is driven low (R345); reset true -/
  wp      : Bool
  /-- the loader image that runs, in island SRAM, write-locked until island reset (R344, R354); none: no loader has been locked;
  reset none -/
  loader  : Option (List Byte)
  /-- keys revoked since the factory (R350); reset 0 -/
  revoked : BitVec 4
  /-- certificate chain that stage 1 took from NOR (R364); none: no copy passes; reset none -/
  chain   : Option (List Byte)
  /-- the PUF response of this island power-on could not be corrected (R363); reset: that of the first, a free value -/
  puf     : Bool
  /-- nonce of the pending challenge (R367); reset none -/
  nonce   : Option (List Byte)
  /-- challenge_signature 0x1020.02; none reads 0; reset none -/
  signature : Option (List Byte)
  /-- signatures made by the identity key: the number picks the nonce; reset 0 -/
  signed  : Nat
deriving DecidableEq, Repr

end Sys2Proof.Machine
end

