-- ==== Sys2Proof/Machine/Types/Jx.lean ====
section
/-!
DEFINITION. State of the Jutex clusters, engines and threads, and of the control cores (07).
-/

namespace Sys2Proof.Machine

/-- Thread states (07 R153, Table 7-1), in the order of their codes. -/
inductive ThState where
  | stopped | runnable | waiting | blocked | halted | frozen | faulted
deriving DecidableEq, Repr

/-- Work a thread, an engine inbox or a cluster inbox holds: a detour item by its number, or a host item by its ledger
entry with its dispatch function (07 R168, Table 7-5). -/
inductive Work where
  | detour (item : Nat)
  | host (entry : Nat) (fn : Nat)
deriving DecidableEq, Repr

/-- A wait in progress (07 R161, R163, R166): the selected conditions (none for a blocked CHOPEN), the channel, the
destination register, the start in cluster time and the maximum in force in ticks (0 none). -/
structure Waiting where
  sel     : BitVec 3
  channel : Nat
  rd      : BitVec 5
  since   : Nat
  max     : Nat
deriving DecidableEq, Repr

/-- One hardware thread (07). -/
structure Thread where
  /-- thread state (R153); reset RUNNABLE for thread 0, else STOPPED -/
  state   : ThState
  /-- PC, a byte offset into the instruction store; reset the boot entry -/
  pc      : BitVec 64
  /-- x1–x31 off 0; x0 is never listed; reset 0 -/
  regs    : Sparse (BitVec 64)
  /-- timer compare (R160); reset 0 -/
  tcmp    : BitVec 64
  /-- wait in progress (R161, R163); reset none -/
  wait    : Option Waiting
  /-- channel owned (R163); reset none -/
  owns    : Option Nat
  /-- staging buffer of 64 bytes (R163); reset 0 -/
  staging : BitVec 512
  /-- item held (R168); reset none -/
  item    : Option Work
  /-- order queue and SEQ of the host item held: its identity in the ledger, which a lost entry no longer gives (13 R311);
  reset none -/
  place   : Option (OrdQ × Nat)
  /-- the held item was taken by a reset: the item windows read 0 and a COMPLETE has no effect (12 R287); reset false -/
  gone    : Bool
  /-- state before a debug halt (R153); reset STOPPED -/
  before  : ThState
deriving DecidableEq, Repr

/-- One engine (07). -/
structure Engine where
  /-- s0–s63 off 0; reset 0 -/
  shared  : Sparse (BitVec 64)
  /-- engine inbox, oldest first, at most 64 (R168); reset empty -/
  inbox   : List Work
  /-- FROZEN by all-asleep detection (R167); reset false -/
  frozen  : Bool
  /-- ISSUEs without a result yet (R167, R171); reset 0 -/
  out     : Nat
  /-- thread that issued last (R152); reset 7, so that thread 0 comes first -/
  last    : Nat
  /-- threads whose last instruction was a scratch load, with the number of further issues of the engine that may fall
  within its 12 cycles (R152); reset none -/
  loads   : List (Nat × Nat)
  /-- reset since the last recomputation of the rotation set (R168); reset false -/
  again   : Bool
deriving DecidableEq, Repr

/-- One channel of a cluster (07 R162–R164). -/
structure Channel where
  /-- messages, oldest first, at most 4; reset empty -/
  ring    : List (BitVec 512)
  /-- write owner: the thread of the cluster, engine × 8 + thread; reset none -/
  owner   : Option Nat
  /-- EXT attribute (R162); reset 0 -/
  ext     : Bool
  /-- result messages on their way to the ring (R171), with the engine whose ISSUE asked and the ledger entry of a Kennel
  operation; reset none -/
  results : List (BitVec 512 × Option Nat × Option Nat)
deriving DecidableEq, Repr

/-- One cluster (07). -/
structure Cluster where
  /-- scratch, 2 MiB (R155); reset 0 -/
  scratch : Sparse Byte
  /-- instruction store, 65,536 words (R155); reset 0 -/
  store   : Sparse (BitVec 32)
  /-- channels off their reset state (R162) -/
  chans   : Sparse Channel
  /-- detour inbox and host inbox in arrival order, at most 1,024 items of each kind (R168); reset empty -/
  inbox   : List Work
  /-- rotation set fixed at the last beat boundary (R168); reset every engine -/
  rotSet  : BitVec 8
  /-- engine that last took an item (R168); reset 7 -/
  rot     : Nat
  /-- FAULTED (R172); reset false -/
  faulted : Bool
deriving DecidableEq, Repr

/-- Jutex and the control-core complex (07). -/
structure Jx where
  /-- threads off their reset state, by cluster × 64 + engine × 8 + thread -/
  threads : Sparse Thread
  /-- engines off their reset state, by cluster × 8 + engine -/
  engines : Sparse Engine
  /-- clusters off their reset state -/
  clusters : Sparse Cluster
  /-- cluster each DETOUR grant delivers to, fixed at the last beat boundary (R172); none: every cluster excluded -/
  map     : List (Option Nat)
  /-- control cores offline (R173); reset 0 -/
  offline : BitVec 16
  /-- control cores under debug halt (20 R455); reset 0 -/
  halted  : BitVec 16
  /-- number of the control cores' internal state: their registers are free values of it; reset 0 -/
  epoch   : Nat
  /-- registers of a halted core written by REG_WRITE since its halt, by core × 65,536 + register; reset none -/
  written : Sparse (BitVec 64)
  /-- host items that control cores hold: ledger entry, core, order queue and SEQ (13 R306); reset none -/
  coreItems : List (Nat × Nat × OrdQ × Nat)
deriving DecidableEq, Repr

end Sys2Proof.Machine
end

