-- ==== Sys2Proof/Machine/Types/Cip.lean ====
section
/-!
DEFINITION. State of the cipher engines and of Kennel (09) and of the DMA engine (10).
-/

namespace Sys2Proof.Machine

/-- Who issued a cipher request (09 R200): a pipeline for an item, a Jutex engine for the work its thread holds, a DMA
channel, or the control-core complex. -/
inductive CSrc where
  | pipe (p item : Nat)
  | jutex (cluster engine : Nat) (work : Option Work)
  | dma (ch : Nat)
  | core
deriving DecidableEq, Repr

/-- A cipher request from its issue to its result (09 R200–R205). Addresses of a network-path request are offsets into
the frame (R208). -/
structure CReq where
  id     : Nat
  src    : CSrc
  raw    : BitVec 512
  /-- slice it acts for; none is the infrastructure (R215) -/
  owner  : Option Nat
  /-- 64-byte grants used (R200) -/
  grants : Nat
  /-- engine assigned with the first grant (R201) -/
  engine : Option Nat
  /-- the first block has been started: the checks have passed (R202) -/
  started : Bool
  /-- bind waits for a Kennel fill (R216) -/
  filling : Bool
  /-- bound generation (R216) -/
  gen    : Option Nat
  /-- side-channel level at the start (R199) -/
  level  : Nat
  /-- stop at the next block boundary with this status and detail (R218) -/
  stop   : Option (BitVec 8 × BitVec 8)
  /-- bytes the grants have moved: the AAD, then the message (R200) -/
  data   : List Byte
  /-- bytes of `data` that the engine has processed: DONE_BYTES counts those of the message (R203, R205) -/
  proc   : Nat
  /-- its bind has waited for a fill (R216) -/
  missed : Bool
  /-- KIND of the generation bound (R214, Table 9-8); 0 while none is -/
  kind   : Nat
deriving DecidableEq, Repr

/-- One cipher or ECDSA engine (09). -/
structure CEng where
  /-- assigned and waiting, in assignment order (R202); reset empty -/
  queue  : List Nat
  /-- running request (R202); reset none -/
  run    : Option Nat
  /-- context slots, most recently suspended first, at most 16 (R203); reset empty -/
  ctx    : List Nat
  /-- out of use after a fault (R211); reset false -/
  out    : Bool
  /-- key schedule of the running request: the key bytes of the generation it has bound (R203, R216); reset none -/
  key    : List Byte
deriving DecidableEq, Repr

/-- The cipher engines (09). -/
structure Cip where
  /-- requests not ended, in issue order; reset none -/
  reqs   : List CReq
  /-- number of the next request; the model's own; reset 0 -/
  nextId : Nat
  /-- engines 0–33 off their reset state -/
  engs   : Sparse CEng
  /-- network-path items whose request has ended OK and that wait for earlier items of their domain: request, item, domain (R209); reset none -/
  waits  : List (Nat × Nat × Nat)
  /-- XTS channels whose request waits for room in the DMA engine's issue queue of 256, oldest first (R200); reset none -/
  dmaWait : List Nat
deriving DecidableEq, Repr

/-- A Kennel request in Kennel's queue (09 R219): the request, its issuer 0–17, the slice it acts for, the engine of a
Jutex issuer and the work it is for, its ledger entry, whether a slice reset has stopped it (12 R287), and the slots for whose
cache fill it has waited (R213). -/
structure KReq where
  raw    : BitVec 512
  issuer : Nat
  owner  : Option Nat
  engine : Nat
  work   : Option Work
  entry  : Nat
  reset  : Bool
  missed : List Nat
deriving DecidableEq, Repr

/-- An ERASE or FORCE_ERASE that waits for its scrub and for the slot's users to stop (09 R217, R218). -/
structure KErase where
  req      : KReq
  slot     : Nat
  /-- the scrub is done -/
  scrubbed : Bool
  /-- the users that the scrub found bound, by request -/
  users    : List Nat
deriving DecidableEq, Repr

/-- Kennel (09 R212–R219). -/
structure Ken where
  /-- slots off the empty slot, as the cached copy where cached, else as HBM (R212, R213) -/
  slots  : Sparse KenSlot
  /-- cached slots, most recently used first (R213); reset none -/
  cached : List Nat
  /-- old-generation store: slot, generation, material; at most 4,096 (R214); reset empty -/
  old    : List (Nat × Nat × Nat)
  /-- request queue, oldest first, at most 1,024 (R219); reset empty -/
  queue  : List KReq
  /-- requests of Jutex threads in their clusters' issue queues, not yet taken by Kennel, oldest first (07 R171); reset empty -/
  issues : List KReq
  /-- ERASEs and FORCE_ERASEs that complete when the scrub is done and every user has stopped (R217, R218); reset none -/
  erases : List KErase
  /-- slots being fetched from HBM, and whether the wait for a place in their set has been counted (R213, R216); reset none -/
  fills  : List (Nat × Bool)
  /-- wrap counter, 52 bits (R212); reset 0 -/
  wrap   : Nat
  /-- wrap counter under which the HBM copy of a slot was written, by slot (R212); reset 0 -/
  wraps  : Sparse Nat
  /-- DRBG draws made (R219); reset 0 -/
  draws  : Nat
  /-- result messages of completed operations of the DMA engine and the control cores, by ledger entry; reset none -/
  results : Sparse (BitVec 512)
deriving DecidableEq, Repr

/-- DMA channel states (10 R228, Table 10-3), in the order of their codes. -/
inductive ChState where
  | idle | precheck | active | halted | stopping | quarantined
deriving DecidableEq, Repr

/-- How a transfer was started (10 R240). -/
inductive Route where
  | reg
  /-- an ISSUE of an engine of a cluster, its result channel and the work it is for -/
  | issue (cluster engine channel : Nat) (work : Option Work)
  /-- a doorbell, for a queue pair -/
  | fetch (qp : Nat)
deriving DecidableEq, Repr

/-- One read of a unit: the side (true destination), the address on its side, its length, and its data once returned. -/
structure DRead where
  dst   : Bool
  addr  : Nat
  len   : Nat
  data  : Option (List Byte)
deriving DecidableEq, Repr

/-- A unit issued and not finished, or finished out of the unbroken run (10 R224, R240). `kind` 0 is a chunk, 1 a source
list read, 2 a destination list read. `pos` is the place in processing order, `lo` the offset on the destination side
(source side for COMPARE), `len` the bytes. -/
structure DUnit where
  id    : Nat
  kind  : Nat
  pos   : Nat
  lo    : Nat
  len   : Nat
  reads : List DRead
  /-- detail of a failed access and whether it was a write (R242) -/
  fail  : Option (BitVec 8 × Bool)
  done  : Bool
  /-- side of the failed access: true the destination (R242) -/
  side  : Bool
  /-- its source bytes have been taken into the channel's staging buffer (R239) -/
  staged : Bool
deriving DecidableEq, Repr

/-- One DMA channel (10 R226, Table 10-1); every register resets to 0. -/
structure Chan where
  src     : BitVec 64
  dst     : BitVec 64
  count   : BitVec 32
  srcN    : BitVec 16
  dstN    : BitVec 16
  fill    : BitVec 64
  ctrl    : BitVec 64
  refTag  : BitVec 32
  appTag  : BitVec 16
  keySlot : BitVec 20
  ignored : Bool
  failDir : Bool
  failList : Bool
  code    : BitVec 8
  detail  : BitVec 8
  failAddr : BitVec 64
  done    : BitVec 32
  crc     : BitVec 32
  completions : BitVec 32
  /-- STATE (R228); reset IDLE -/
  state   : ChState
  /-- halted in PRECHECK (R243); reset false -/
  inPre   : Bool
  /-- start route of the transfer (R240); reset a register start -/
  route   : Route
  /-- owner of the transfer; none the infrastructure; reset none -/
  owner   : Option Nat
  /-- EF1124-compatible mode, read at the start (R233); reset false -/
  compat  : Bool
  /-- ranges of each side as far as known (R235); reset none -/
  sRanges : List (Nat × Nat)
  dRanges : List (Nat × Nat)
  /-- list entries asked for and read, of each side (R235); reset 0 -/
  sAsked  : Nat
  dAsked  : Nat
  sRead   : Nat
  dRead   : Nat
  /-- a list entry had a reserved field set (R231); reset false -/
  badList : Bool
  /-- place in processing order of the next chunk to issue; reset 0 -/
  next    : Nat
  /-- length of the unbroken run of finished chunks on the processing side (R240); reset 0 -/
  fin     : Nat
  /-- units in flight, or finished beyond the run (R224); reset none -/
  units   : List DUnit
  /-- number of the next unit of the transfer; reset 0 -/
  nextUnit : Nat
  /-- source bytes taken for CRC, DIF and XTS, by source offset (R237–R239); reset none -/
  data    : Sparse (List Byte)
  /-- bytes of the protected side that the cipher engine has put out (R239); reset none -/
  out     : List Byte
  /-- status and detail of the transfer's cipher request, once it has ended (R239); reset none -/
  xtsRes  : Option (BitVec 8 × BitVec 8)
  /-- a list entry had an address that is no multiple of 8 (R233); reset false -/
  misaligned : Bool
  /-- an FLR of the owner's function waits for the channel to be IDLE to reset its registers (R244); reset false -/
  flr     : Bool
  /-- the cipher request of an XTS transfer has been issued (R239); reset false -/
  xts     : Bool
  /-- status and detail with which a STOPPING channel completes (R244, R245); reset none -/
  stop    : Option (BitVec 8 × BitVec 8)
deriving DecidableEq, Repr

/-- The DMA engine (10). -/
structure Dma where
  /-- channels off their reset state, by number -/
  chans  : Sparse Chan
  /-- channel each group served last (R223); reset channel 64g + 63 -/
  last   : Sparse Nat
deriving DecidableEq, Repr

end Sys2Proof.Machine
end

