-- ==== Sys2Proof/Machine/Types/Hst.lean ====
section
/-!
DEFINITION. State of the host endpoint (11), of queue pairs and tenant slices (12) and the attestation state of the DOE
mailboxes (15).
-/

namespace Sys2Proof.Machine

/-- Link power states (11 R264, R265). -/
inductive LinkPm where
  | l0 | l0s | l1 | l11 | l12
deriving DecidableEq, Repr

/-- One host link (11 R249, R250). -/
structure Link where
  /-- link_state 0xA1kk.01: 0 absent, 1 down, 2 training, 3 up; reset down, or absent by the bifurcation -/
  state : Nat
  /-- link_rate 0xA1kk.02; reset 0 -/
  rate  : Nat
  /-- link_width 0xA1kk.03; reset 0 -/
  width : Nat
  /-- flit_mode 0xA1kk.04; reset 0 -/
  flit  : Bool
  /-- level of the link's PERST# input, true when high (R249); reset high -/
  perst : Bool
  /-- link power state (R264); reset L0 -/
  pm    : LinkPm
  /-- last LTR value sent (R265); reset 0 -/
  ltr   : Nat
  /-- DOE Error (R266); reset 0 -/
  doeErr : Bool
deriving DecidableEq, Repr

/-- Function states (11 R272, Table 11-10), in the order of their codes. -/
inductive FnState where
  | enabled | draining | disabled
deriving DecidableEq, Repr

/-- Why a function drains (11 R273, R274, R276). -/
inductive DrainKind where
  | bme | flr | link
deriving DecidableEq, Repr

/-- One function of a link (11 R251, R253, R272). -/
structure Fn where
  /-- function state (R272); reset DISABLED -/
  state   : FnState
  /-- pending flag (R275); reset 0 -/
  pending : Bool
  /-- why it drains, or the teardown that runs on a DISABLED function (R272, R274, R276); reset by a cleared Bus Master
  Enable -/
  drain   : DrainKind
  /-- function in D3hot (R263); reset D0 -/
  d3      : Bool
  /-- writable configuration double words off their reset value, by offset (R253); reset by `cfgReset` -/
  cfg     : Sparse (BitVec 32)
  /-- MSI-X table entries off their reset value, by vector (R259): address, data and control; reset masked -/
  msix    : Sparse (BitVec 128)
  /-- pending bits set (R259); reset none -/
  pba     : List Nat
deriving DecidableEq, Repr

/-- A read outstanding on a link, or its quarantined tag (11 R268–R271). -/
structure HRead where
  link  : Nat
  tag   : Nat
  fn    : Nat
  pasid : Option Nat
  addr  : Nat
  len   : Nat
  /-- the channel's unit and read it serves: channel, unit, read number -/
  ch    : Nat
  unit  : Nat
  part  : Nat
  /-- moment its last DW was transmitted -/
  since : Nat
  /-- timed out, or its requester stopped: the tag is quarantined (R271) -/
  quar  : Bool
  /-- moment of the timeout, from which 4T runs -/
  from_ : Nat
  /-- untranslated page of a read that uses a cached translation (R261) -/
  page  : Option Nat := none
  /-- `nextTag` when it was issued: it tells the reads issued before an invalidation -/
  seq   : Nat := 0
deriving DecidableEq, Repr

/-- A unit held for a translation or a page request (11 R261, R262). -/
structure HHold where
  tag   : Nat
  link  : Nat
  fn    : Nat
  pasid : Option Nat
  page  : Nat
  write : Bool
  /-- false: translation asked; true: page request asked -/
  pri   : Bool
deriving DecidableEq, Repr

/-- An entry of an address translation cache (11 R261). -/
structure AtcEntry where
  link  : Nat
  fn    : Nat
  pasid : Option Nat
  page  : Nat
  to_   : Nat
deriving DecidableEq, Repr

/-- An invalidation not yet answered (11 R261): its range of pages, and `nextTag` when it came. -/
structure Inval where
  link  : Nat
  fn    : Nat
  pasid : Option Nat
  first : Nat
  pages : Nat
  seq   : Nat
deriving DecidableEq, Repr

/-- An SPDM session over DOE (15 R366). -/
structure SpdmSession where
  link   : Nat
  /-- session identifier: the requester's number, and the responder's above it -/
  sid    : Nat
  /-- FINISH has been taken: the application keys are in use -/
  open_  : Bool
  /-- handshake secret of the key schedule -/
  secret : List Byte
  /-- transcript from GET_VERSION on, the hash of the certificate chain within it -/
  th     : List Byte
  /-- traffic secrets of requests and of responses -/
  reqKey : List Byte
  rspKey : List Byte
  /-- numbers of the next request and response under these secrets -/
  reqSeq : Nat
  rspSeq : Nat
  /-- measurement exchanges since the last signed one -/
  meas   : List Byte
  /-- heartbeat period in seconds; 0: none -/
  period : Nat
  /-- island µs of the requester's last message -/
  last   : Nat
deriving DecidableEq, Repr

/-- The SPDM connection of a PF0 (15 R366). -/
structure SpdmConn where
  /-- exchanges done: 1 GET_VERSION, 2 GET_CAPABILITIES, 3 NEGOTIATE_ALGORITHMS; reset 0 -/
  stage : Nat
  /-- secp256r1, AES-256-GCM and the SPDM key schedule have been selected; reset false -/
  kex   : Bool
  /-- the messages of these exchanges; reset none -/
  vca   : List Byte
  /-- the digest and certificate messages since; reset none -/
  certs : List Byte
  /-- the measurement messages since the last signed one; reset none -/
  meas  : List Byte
deriving DecidableEq, Repr

/-- The host endpoint (11). -/
structure Hst where
  /-- links 0–3 -/
  links  : List Link
  /-- functions off their reset state, by link × 2,048 + function (R251) -/
  fns    : Sparse Fn
  /-- reads outstanding and tags in quarantine (R268, R271); reset none -/
  reads  : List HRead
  /-- translations and page requests asked for (R261, R262); reset none -/
  holds  : List HHold
  /-- address translation caches of H0 and H1, most recent last (R261); reset empty -/
  atc    : List AtcEntry
  /-- invalidations not yet answered (R261); reset none -/
  invals : List Inval
  /-- number of the next translation or page request; the model's own; reset 0 -/
  nextTag : Nat
  /-- h0_bifurcation, h1_bifurcation and primary_link as read at main-domain reset (R249, R252); reset 0 -/
  bifur  : List Nat
  primary : Nat
  /-- subsystem_vendor_id and subsystem_id as configuration space shows them, read at main-domain reset (17 R400); reset
  their defaults -/
  subsys : Nat × Nat
  /-- secured sessions of the DOE mailboxes (15 R366); reset none -/
  spdm   : List SpdmSession
  /-- SPDM connections of the four PF0s (15 R366) -/
  conns  : List SpdmConn
  /-- number of the next DRBG draw for SPDM; the model's own; reset 0 -/
  nonce  : Nat
  /-- IDE stream keys and initial values by (link × 256 + stream) × 256 + key sub-stream (R267); reset none -/
  ide    : Sparse (BitVec 512)
  /-- IDE key sub-streams in use since their K_SET_GO, numbered as in `ide` (R267); reset none -/
  ideOn  : List Nat
deriving DecidableEq, Repr

/-- One queue pair: doorbells, fetch head and completion positions (11 Table 11-7, 12 Table 12-6, 13 R307, R308). -/
structure Qp where
  /-- SQ_TAIL; reset 0 -/
  sqTail : Nat
  /-- CQ_HEAD; reset 0 -/
  cqHead : Nat
  /-- sq_fetch_head 0xB100.09; reset 0 -/
  head   : Nat
  /-- cq_tail 0xB100.0A: index after the last completion written; reset 0 -/
  cqTail : Nat
  /-- next completion position to give (13 R307); reset 0 -/
  pos    : Nat
  /-- PHASE of the next completion position (13 R308); reset 1 -/
  phase  : Bool
  /-- descriptors of the transfer running or finished, from `head` on: how many (11 R258); reset 0 -/
  asked  : Nat
  /-- descriptor bytes fetched, awaiting the head-pointer write-back (13 R307); reset none -/
  got    : Option (List Byte)
  /-- beat whose delta carries the fetched descriptors (14 R322); reset 0 -/
  gotBeat : Nat
  /-- the last fetch was aborted: wait for the next doorbell write (13 R307); reset false -/
  stuck  : Bool
  /-- completions written and not consumed up to CQ_HEAD, at most the ring's entries (13 R307); reset 0 -/
  unread : Nat
deriving DecidableEq, Repr

/-- Slice states (12 R284, Table 12-1), in the order of their codes. -/
inductive SlState where
  | free | disabled | enabled | draining | freezing | frozen | restoring
deriving DecidableEq, Repr

/-- A binding in force (12 R279). -/
structure Binding where
  /-- bound to a VF, otherwise to a PASID of PF1 -/
  vf   : Bool
  link : Nat
  /-- number of the VF, or the PASID -/
  num  : Nat
deriving DecidableEq, Repr

/-- One slice beyond its objects (12 R279–R295). -/
structure Slice where
  /-- the binding in force since bind_kind was written (R279); reset none -/
  bound   : Option Binding
  /-- slice_state (R284); reset FREE -/
  state   : SlState
  /-- pending (R285); reset 0 -/
  pending : Bool
  /-- cmd_result; reset OK -/
  result  : Nat
  /-- moment of entry to DRAINING or FREEZING; reset 0 -/
  since   : Nat
  /-- step 5 of R287 has begun; reset false -/
  zeroed  : Bool
  /-- restore_result (R294); reset OK -/
  restore : Nat
  /-- save_len (R292); reset 0 -/
  saveLen : Nat
deriving DecidableEq, Repr

/-- The slices (12). -/
structure Slc where
  /-- slices off their reset state, by number -/
  sl     : Sparse Slice
  /-- queue pairs off their reset state, by slice × 64 + q; infrastructure of link k by (16,384 + k) × 64 + q -/
  qps    : Sparse Qp
  /-- reset reports: first aborted SQ index and count, by queue pair (R289, 13 R315); reset 0 -/
  report : Sparse (Nat × Nat)
  /-- slices whose fetch waited on ledger_quota in this beat (12 Table 12-8); reset none -/
  quota  : List Nat
deriving DecidableEq, Repr

end Sys2Proof.Machine
end

