-- ==== Sys2Proof/Machine/State.lean ====
section
/-!
DEFINITION. The machine state and its value right after reset (assumption 4: the moment the main-domain reset is released
at the first power-up, with island 0 in stage 1).
-/

namespace Sys2Proof.Machine

/-- HBM: contents, and the write-locked ranges of the memory firewall as (base, length, owner) (03 R66, 15 R354). -/
structure Hbm where
  /-- bytes off the value of an empty byte, by address (00 Table 0-1); reset nothing listed -/
  mem   : List Host.Cell
  /-- locked ranges; owner 0 the load interface, 1 the firmware copy; reset none -/
  locks : List (Nat × Nat × Nat)
deriving DecidableEq, Repr

/-- Why the block stops with a fault. -/
inductive Fault where
  /-- a debug access beyond the device memory that the part carries (20 R453): the specification gives no memory there
  and no answer; safe, since the machine stops. Raised by MEM_READ, MEM_WRITE and NOR_ERASE. -/
  | noDeviceMemory (addr : Nat)
deriving DecidableEq, Repr

/-- Why the block refuses a command. -/
inductive Refusal where
  /-- a command without a meaning; safe: the machine stops -/
  | notModelled (mnemonic : String)
deriving DecidableEq, Repr

/-- The EF3248. -/
structure State where
  /-- commands that wait, first in first out; reset empty -/
  pending : List Instr
  /-- time (00, 16 R385) -/
  clk  : Clock
  /-- writable objects, parameter writes and counters (16, 17) -/
  objs : Objs
  /-- work ledger (13) -/
  led  : Ledger
  /-- paired operation (14) -/
  pair : Pair
  /-- event and fault logs, snapshots (20) -/
  logs : Logs
  /-- Uhlist (16) -/
  uhl  : Uhl
  /-- lanes, ports and receive buffers (02) -/
  net  : Net
  /-- Sheepdog (08) -/
  shp  : Shp
  /-- timetable (03) -/
  tt   : Tt
  /-- pipelines (03, 04, 05) -/
  pipe : Pipe
  /-- stage memories (05) -/
  stg  : Stg
  /-- shared forwarding tables (06) -/
  fwd  : Fwd
  /-- table command windows (06) -/
  tc   : Tc
  /-- Jutex and control cores (07) -/
  jx   : Jx
  /-- cipher engines (09) -/
  cip  : Cip
  /-- Kennel (09) -/
  ken  : Ken
  /-- DMA engine (10) -/
  dma  : Dma
  /-- host endpoint (11) -/
  hst  : Hst
  /-- slices and queue pairs (12) -/
  slc  : Slc
  /-- boot and identity (15) -/
  boot : Boot
  /-- management island (18) -/
  isl  : Isl
  /-- clocks and power (19) -/
  pwr  : Pwr
  /-- test and debug access ports (20) -/
  dbg  : Dbg
  /-- device memory -/
  hbm  : Hbm
  /-- what has left the device, in order: the model's own record; reset empty -/
  out  : List Output
  /-- number of the next free value: the model's own (assumption 2); reset 0, DESIGN CHOICE -/
  fresh : Nat
deriving DecidableEq, Repr

/-! ## Reset values, block by block -/

def resetPair : Pair :=
  { state := .single, epoch := BitVec.ofNat 128 ((2 ^ 64 - 1) * 2 ^ 64), persisted := 0, maxSeen := 0, latched := 0, scrubAt := none,
    partner := none, cfg := none, lastHb := 0, readyOut := false, readyIn := false, readyStill := 0, stillAll := true,
    hfOut := false, hfIn := false, hfPending := false, link := 0, sync := 0, fence := false, muzzled := false,
    lift := false, delta := [], sent := [], lastAcked := 0, log := [], ackedIn := 0, waited := false,
    transfer := .none, holdDown := none, seekAt := 0, takeover := none, keyNo := 0, key := none, heldDesc := [],
    silent := false, diffAt := none, spill := [], heldTo := none, copied := false }

def resetMailbox : Mailbox :=
  { req := [], reply := [], event := [], reqLen := 0, busy := false, replyReady := false, eventReady := false,
    ignored := false, replyLen := 0, eventLen := 0, vector := 0 }

def resetTt : Tt :=
  { state := .empty, reason := 0, drain := false, drainAt := 0, gen := false, src := 0, length := 0, armBeat := 0, beat := 0,
    overlap := 0, fault := 0, target := none, cur := none, staged := none, old := none, install := [],
    retried := (false, false), swap := false, ver := none, badRows := [], past := [] }

def resetTcWin : TcWin :=
  { cmd := none, refused := false, result := 0, hit := false, pend := false, index := 0, done := 0, data := 0, cmp := 0 }

def resetSweep : Sweep := { pos := none, place := 0, removal := [], nextAt := 0, late := false, stalled := false }

def resetFwd : Fwd :=
  { l2 := [], l2hp := [], lpm4 := [], lpm6 := [], flow := [], cache := [], fills := [], l2q := [], flowq := [],
    moves := [], l2sweep := resetSweep, flowSweep := resetSweep, applied := (0, 0),
    legsAt := 0, legs := [], held := 0, quar := [], lens := none }

def resetJx : Jx :=
  { threads := [], engines := [], clusters := [], map := (List.range 16).map some, offline := 0, halted := 0,
    epoch := 0, written := [], coreItems := [] }

def resetLink (k : Nat) : Link :=
  { state := if k % 2 = 0 then 1 else 0, rate := 0, width := 0, flit := false, perst := true, pm := .l0, ltr := 0,
    doeErr := false }

def resetBoot : Boot :=
  { stage := .stage1, code := 2, nor := [], slots := List.replicate 6 0, reasons := List.replicate 6 0,
    versions := List.replicate 6 0, running := 0, manifests := [none, none, none], trial := none, wait := 1,
    ttOnly := false, writing := none, commit := 0, banks := none, burn := none, wp := true, loader := none, revoked := 0, chain := none,
    puf := Config.pufFault 0, nonce := none,
    signature := none,
    signed := 0 }

def resetIsl : Isl :=
  { latch := .closed, extract := .inService, waitActive := false, holdReady := false, ledFault := false, t1l := 0,
    supply := 2, cages := List.replicate 16 ⟨.empty, 0, none⟩, calibSeq := 0, calib := 2, calibUsed := [] }

def resetPwr : Pwr :=
  { phase := .on, en := 0x3F, good := 0x3F, hold := none, isl := [], reqs := [], clocks := [], tripped := false,
    temps := [] }

def resetDbg : Dbg :=
  { ir := 1, chain := 0, sel := 0, result := 0, regno := 0, data := 0, addr := 0, unlocked := Config.lockLevel == 0, bps := [],
    nonce := 0, response := 0 }

/-- The machine right after reset. -/
def State.reset : State :=
  { pending := []
    clk := { beat := 0, slot := 0, islBase := 0, holdover := false }
    objs := { vals := [], pend := [], ctr := [] }
    led := { entries := [], metas := [], orders := [], waited := false, lost := [] }
    pair := resetPair
    logs := { newest := 0, events := [], pending := [], seq := none, power := 0, faultNewest := 0, folded := [], snap := [],
              snapBeat := 0, frozen := none }
    uhl := { sessions := [], nextNum := 1, boxes := List.replicate 4 resetMailbox, inband := [], quarantined := [] }
    net := { lanes := List.replicate 32 ⟨.disabled, 0, 0⟩, rx := [], nextFrame := 0, pllLocked := 0xF, downs := [] }
    shp := { queues := [], nodes := [], fifos := [], bufs := [], nextBuf := 0, pols := [], cut := [] }
    tt := resetTt
    pipe := { items := [], seqs := List.replicate 4 0, ctl := List.replicate 4 [],
              treeQ := List.replicate 4 [], retQ := List.replicate 4 [], left := [], leftAt := 0, onWay := [] }
    stg := { words := [], tcam := [], quar := [], last := List.replicate 4 0, scrub := [] }
    fwd := resetFwd
    tc := { wins := List.replicate 8 resetTcWin, queue := [] }
    jx := resetJx
    cip := { reqs := [], nextId := 0, engs := [], waits := [], dmaWait := [] }
    ken := { slots := [], cached := [], old := [], queue := [], issues := [], erases := [], fills := [], wrap := 0, wraps := [], draws := 0,
             results := [] }
    dma := { chans := [], last := [] }
    hst := { links := (List.range 4).map resetLink, fns := [], reads := [], holds := [], atc := [], invals := [],
             nextTag := 0, bifur := [0, 0], primary := 0, subsys := (0x1F3D, 0), spdm := [], conns := List.replicate 4 ⟨0, false, [], [], []⟩, nonce := 0, ide := [], ideOn := [] }
    slc := { sl := [], qps := [], report := [], quota := [] }
    boot := resetBoot
    isl := resetIsl
    pwr := resetPwr
    dbg := resetDbg
    hbm := { mem := [], locks := [] }
    out := []
    fresh := 0 }

end Sys2Proof.Machine
end

