-- ==== Sys2Proof/Machine/Ops.lean ====
section
/-!
DEFINITION. Named operations over the shared state: time, device memory, objects and counters, events, deltas, the
work ledger, the hold of R20 and hard faults.
-/

namespace Sys2Proof.Machine

/-! ## Time -/

/-- Slots since main-domain reset. -/
def now (s : State) : Nat := s.clk.beat * 4096 + s.clk.slot

/-- The state with the slot of the beat at `slot`: a slot-owned command falls in it (03 R52). -/
def atSlot (s : State) (slot : BitVec 12) : State := { s with clk := { s.clk with slot := slot.toNat } }

/-- Island time in µs since island power-on (16 R385); a slot is 0.8 ns. -/
def islandUs (s : State) : Nat := (s.clk.islBase + s.clk.slot) * 8 / 10000

/-! ## Outputs and free values -/

def emit (s : State) (o : Output) : State := { s with out := s.out ++ [o] }

/-- A fresh free value: nothing constrains it. -/
def draw (s : State) : BitVec 512 × State := (Config.freeValue s.fresh, { s with fresh := s.fresh + 1 })

/-! ## Device memory -/

/-- Bytes of HBM: two stacks, 48 GiB (00 Table 0-1). -/
def hbmSize : Nat := 51539607552

/-- `n` bytes at `a` lie in the control-core region of 16 GiB (07). -/
def inCoreRegion (a n : Nat) : Bool :=
  decide (Config.coreRegionPage.val * 4096 ≤ a ∧ a + n ≤ Config.coreRegionPage.val * 4096 + 17179869184)

/-- `n` bytes at `a` lie in the decision-tree region of 2 GiB (03 R65). -/
def inTreeRegion (a n : Nat) : Bool :=
  decide (Config.treeRegionPage.val * 4096 ≤ a ∧ a + n ≤ Config.treeRegionPage.val * 4096 + 2147483648)

/-- What a byte of memory that nothing has written reads as (assumption 3). -/
def emptyByte : Byte := 0

def hbmByte (s : State) (a : Nat) : Byte := sget emptyByte s.hbm.mem a

/-- `n` bytes from address `a`. -/
def hbmRead (s : State) (a n : Nat) : List Byte := (List.range n).map (fun i => hbmByte s (a + i))

/-- Bytes listed into a memory from `a` on. -/
def memPut (m : List Host.Cell) (a : Nat) : List Byte → List Host.Cell
  | [] => m
  | b :: bs => memPut (sset emptyByte m a b) (a + 1) bs

/-- The canonical form of a memory: addresses strictly rising, no entry equal to what an unlisted address reads as. -/
def Memory.wf (m : List Host.Cell) : Bool := swf emptyByte m

def hbmWrite (s : State) (a : Nat) (bs : List Byte) : State :=
  { s with hbm := { s.hbm with mem := memPut s.hbm.mem a bs } }

/-- Two byte ranges share a byte. -/
def overlaps (a n b m : Nat) : Bool := decide (a < b + m) && decide (b < a + n)

/-- The range meets a write-locked range of the memory firewall (03 R66). -/
def hbmLocked (s : State) (a n : Nat) : Bool := s.hbm.locks.any (fun l => overlaps a n l.1 l.2.1)

/-- A store that the memory firewall lets through, or nothing (03 R66, assumption 14). -/
def hbmStore (s : State) (a : Nat) (bs : List Byte) : State :=
  if hbmLocked s a bs.length then s else hbmWrite s a bs

/-- Release the locks of an owner. -/
def unlockHbm (s : State) (owner : Nat) : State :=
  { s with hbm := { s.hbm with locks := s.hbm.locks.filter (fun l => l.2.2 != owner) } }

def lockHbm (s : State) (a n owner : Nat) : State :=
  { s with hbm := { s.hbm with locks := s.hbm.locks ++ [(a, n, owner)] } }

/-! ## Power of the islands (19 R433–R438) -/

/-- The main domain is on and out of reset (19 R437). -/
def mainOn (s : State) : Bool := s.pwr.phase == .on

/-- Power state of an island inside a main domain that is on: 0 ON, 1 STOPPED, 2 OFF (19 R433). -/
def islandState (s : State) (n : Nat) : Nat := sget 0 s.pwr.isl n

/-- The island runs. -/
def islandOn (s : State) (n : Nat) : Bool := mainOn s && islandState s n == 0

/-- The island runs and accepts new work: no request for it, and no main power-down, is held off (19 R435, R438). -/
def islandTakes (s : State) (n : Nat) : Bool :=
  islandOn s n && s.pwr.hold.isNone && !s.pwr.reqs.any (fun r => r.island == n)

/-- A copy pass of stage 1 runs, and holds WP# low (15 R345, R359). -/
def passRuns (s : State) : Bool := s.boot.stage == .stage1 && s.boot.wp

/-! ## Objects -/

/-- The value of an object's element: its default until written (17 R398, 16 R374). -/
def objGet (s : State) (idx sub el : Nat) : Nat :=
  sget (objDefault (okey idx sub el)) s.objs.vals (okey idx sub el)

/-- A BOOL object reads 1. -/
def objOn (s : State) (idx sub el : Nat) : Bool := objGet s idx sub el != 0

def objPutKey (s : State) (k v : Nat) : State :=
  { s with objs := { s.objs with vals := sset (objDefault k) s.objs.vals k v } }

def objPut (s : State) (idx sub el v : Nat) : State := objPutKey s (okey idx sub el) v

/-! ## Calibration (18 R423) -/

/-- Effective limits of a calibration kind (18 Table 18-6). -/
def calibLimits (kind : Nat) : Int × Int :=
  match kind with
  | 0 => (0, 4095) | 1 => (0, 4095) | 2 => (-2500, 2500) | 3 => (950000, 1050000) | 4 => (0, 1023)
  | _ => (0, 4294967295)

/-- Number of elements and width of the offset of a kind, with its object (17 Table 17-3). -/
def calibObj (kind : Nat) : Nat × Nat × Nat × Nat :=
  match kind with
  | 0 => (0x3100, 1, 32, 16) | 1 => (0x3100, 2, 8, 16) | 2 => (0x3110, 1, 32, 16) | 3 => (0x3120, 1, 16, 32)
  | 4 => (0x3130, 1, 34, 16) | _ => (0x3140, 1, 32, 32)

/-- Factory value of an element. -/
def factoryValue (kind el : Nat) : Int :=
  if kind = 2 then signed 16 (Config.factoryCalib kind el) else (Config.factoryCalib kind el : Int)

/-- Factory value plus user offset, before the clamp. -/
def calibSum (s : State) (kind el : Nat) : Int :=
  let o := calibObj kind
  factoryValue kind el + signed o.2.2.2 (objGet s o.1 o.2.1 el)

/-- The effective value (18 R423). -/
def calibValue (s : State) (kind el : Nat) : Int :=
  max (calibLimits kind).1 (min (calibLimits kind).2 (calibSum s kind el))

/-- The elements of a kind are taken at their effective values (18 Table 18-6). -/
def takeCalib (s : State) (kind : Nat) (els : List Nat) : State :=
  { s with isl := { s.isl with
      calibUsed := els.foldl (fun m e => sput m (kind * 64 + e) (calibValue s kind e)) s.isl.calibUsed } }

/-- What a power-up or reset of the main domain takes: the pair link and HBM train, and islands 1 to 33 start (18
Table 18-6). -/
def takeMainCalib (s : State) : State :=
  takeCalib (takeCalib (takeCalib s 1 (List.range 8)) 4 ((List.range 33).map (· + 1))) 5 (List.range 32)

/-- The value in use of an element: as last taken, else the factory value, clamped (18 R423). -/
def calibInUse (s : State) (kind el : Nat) : Int :=
  match sfind s.isl.calibUsed (kind * 64 + el) with
  | some v => v
  | none => max (calibLimits kind).1 (min (calibLimits kind).2 (factoryValue kind el))

/-! ## Counters: U64, wrapping to 0 (02 R51) -/

def ctrGet (s : State) (idx sub el : Nat) : Nat := sget 0 s.objs.ctr (okey idx sub el)

def ctrAddAt (s : State) (idx sub el n : Nat) : State :=
  { s with objs := { s.objs with
      ctr := sset 0 s.objs.ctr (okey idx sub el) ((ctrGet s idx sub el + n) % 2 ^ 64) } }

/-- Count one on a scalar counter. -/
def count (s : State) (idx sub : Nat) : State := ctrAddAt s idx sub 0 1
def countN (s : State) (idx sub n : Nat) : State := ctrAddAt s idx sub 0 n
def countAt (s : State) (idx sub el : Nat) : State := ctrAddAt s idx sub el 1

/-! ## Events (20 R460, 16 R385) -/

/-- Table 20-4, column "Fault log". -/
def faultLogged (code : Nat) : Bool :=
  [0x0001, 0x0002, 0x0003, 0x0004, 0x0005, 0x0006, 0x0007, 0x0008, 0x0102, 0x0103, 0x0104, 0x0201, 0x0202, 0x0203,
   0x0204, 0x0205, 0x0401, 0x0402, 0x0403, 0x0404, 0x0405, 0x0406, 0x0502, 0x0503, 0x0601, 0x0602, 0x0603, 0x0604].contains code

/-- A session takes an event record, or counts it as missed when 256 are queued (16 R385). A tenant takes only class 7
events of its own slice (16 R386). -/
def Session.wants (x : Session) (e : EvRec) : Bool :=
  x.proved && !x.closing && x.mask.getLsbD e.cls &&
    (x.role != .tenant || (e.cls == 7 && fld e.param 0 14 == x.slice))

def Session.queueEvent (x : Session) (e : EvRec) : Session :=
  if x.wants e then
    if x.events.length < 256 ∧ x.missed = 0 then { x with events := x.events ++ [e] }
    else { x with missed := x.missed + 1 }
  else x

/-- Records of an event not queued, by transport, in event_overruns (16 R396). -/
def countOverruns (s : State) (e : EvRec) : List Session → State
  | [] => s
  | x :: r =>
    let s := if x.wants e && !(decide (x.events.length < 256) && x.missed == 0)
      then count s (0xC210 + x.transport) 0x09 else s
    countOverruns s e r

/-- An event receives the next device event number, enters the event log, the sessions that want it and, where Table
20-4 says so, the fault log's pending records. -/
def eventFull (s : State) (code island idx sub : Nat) (param : BitVec 64) : State :=
  let e : EvRec := ⟨s.logs.newest + 1, islandUs s, code / 256, code, island, idx, sub, param⟩
  let s := countOverruns s e s.uhl.sessions
  let l := s.logs
  { s with
    logs := { l with
      newest := l.newest + 1
      events := sput l.events ((l.newest + 1) % 4096) e
      pending := if faultLogged code then l.pending ++ [e] else l.pending }
    uhl := { s.uhl with sessions := s.uhl.sessions.map (·.queueEvent e) } }

def event (s : State) (code island param : Nat) : State := eventFull s code island 0 0 (BitVec.ofNat 64 param)

/-! ## Deltas (14 R319, R320) -/

/-- Size of a record in bytes (Table 14-1). Sizes of table entries: 16 bytes L2 (0), 48-byte and 96-bit routes as 16
(1, 2), flow and stage words 64 (3, 4), ternary entries 160 (5). -/
def recBytes : DeltaRec → Nat
  | .ledger _ _ => 36
  | .descriptor _ _ _ => 68
  | .frame _ _ bs => 16 + (bs.length + 15) / 16 * 16
  | .table t _ _ => 16 + (match t with | 0 => 16 | 1 => 6 | 2 => 12 | 5 => 160 | _ => 64)
  | .kennel _ _ => 144
  | .object _ _ => 24
  | .register _ _ => 24
  | .timetable _ _ => 32

def deltaBytes (rs : List DeltaRec) : Nat := (rs.map recBytes).sum

/-- Codes of Table 13-5 and of Table 13-1. -/
def ledStateCode : LedState → Nat
  | .free => 0 | .accepted => 1 | .running => 2 | .stopping => 3 | .done => 4 | .quarantined => 5

def ledKindCode : LedKind → Nat
  | .host => 1 | .table => 2 | .kennel => 3 | .object => 4 | .frame => 5

/-- QUEUE of Table 13-4. -/
def queueWord : OrdQ → Nat
  | .host infra sl link q => sl % 2 ^ 14 + (if infra then 2 ^ 14 else 0) + q % 64 * 2 ^ 15 + link % 4 * 2 ^ 21
  | .window w => w
  | .kennel i => i
  | .session _ n => n
  | .frame q => q

/-- REF of Table 13-4. -/
def refWord : LedRef → Nat
  | .host ix pos ph held => ix % 2 ^ 16 + pos % 2 ^ 16 * 2 ^ 16 + (if ph then 2 ^ 32 else 0) + (if held then 2 ^ 33 else 0)
  | .frame h => h
  | .reply r => r

/-- A ledger entry half (13 R303, Table 13-4); both halves of an entry hold it. -/
def ledHalf (e : LedEntry) : BitVec 256 :=
  let word := ledStateCode e.state + ledKindCode e.kind * 2 ^ 4 + (if e.restart then 2 ^ 7 else 0) + e.attempt % 4 * 2 ^ 8
  BitVec.ofNat 256 (pairOf 16 word + queueWord e.queue % 2 ^ 32 * 2 ^ 32 + e.seq % 2 ^ 32 * 2 ^ 64 +
    e.slice % 2 ^ 14 * 2 ^ 96 + (if e.infra then 2 ^ 110 else 0) + e.status.toNat * 2 ^ 112 + e.detail.toNat * 2 ^ 120 +
    e.acceptBeat % 2 ^ 64 * 2 ^ 128 + refWord e.ref % 2 ^ 64 * 2 ^ 192)

/-- A record as the link carries it (14 Table 14-1). -/
def recImage (r : DeltaRec) : List Byte :=
  match r with
  | .ledger i e => leBytes 4 i ++ leBytes 32 (ledHalf e).toNat
  | _ => bytesAt (Config.recordLayout r) 0 (recBytes r)

/-- The CRC-32C over a delta (14 R319). -/
def deltaCrc (rs : List DeltaRec) : BitVec 32 := crc32c (rs.flatMap recImage)

/-- The records of a beat that its delta carries: those that fit in 163,840 bytes, in the order of the changes; the others
wait for the next delta (14 R319, R320; DESIGN CHOICE, assumption 273). -/
def deltaTake : Nat → List DeltaRec → List DeltaRec × List DeltaRec
  | _, [] => ([], [])
  | room, r :: rs =>
    if recBytes r ≤ room then
      let x := deltaTake (room - recBytes r) rs
      (r :: x.1, x.2)
    else ([], r :: rs)

/-- The device writes deltas: it is the active one (14 R319). -/
def recording (s : State) : Bool := s.pair.state == .active || s.pair.state == .fenced

/-- A change made in this beat enters the delta of the beat (14 R319). -/
def record (s : State) (r : DeltaRec) : State :=
  if recording s then { s with pair := { s.pair with delta := s.pair.delta ++ [r] } } else s

/-- Paired operation: pair_state is not SINGLE (14 R326). -/
def paired (s : State) : Bool := s.pair.state != .single

/-- delta_reserve, 0x9000.0A. -/
def deltaReserve (s : State) : Nat := objGet s 0x9000 0x0A 0

/-- Room for records of `n` bytes outside the reserve (14 R320). -/
def deltaRoom (s : State) (n : Nat) : Bool :=
  !recording s || decide (deltaBytes s.pair.delta + n + deltaReserve s ≤ 163840)

/-- Room for records of `n` bytes of kinds 2 to 4, which may use the reserve (14 R320). -/
def deltaFits (s : State) (n : Nat) : Bool := !recording s || decide (deltaBytes s.pair.delta + n ≤ 163840)

/-- Something waits for room in the delta of this beat (14 R320). -/
def waitRoom (s : State) : State := { s with pair := { s.pair with waited := true } }

/-! ## The hold of R20 (01 R20, 14 R331) -/

/-- Effects are held: the partner's last heartbeat reports STANDBY, its PAIR_HF_IN is not asserted, and it has not been
concluded lost (14 R331). -/
def holding (s : State) : Bool :=
  recording s && !s.pair.hfIn &&
    (match s.pair.partner with | some h => h.state == 3 | none => false)

/-- The partner has acknowledged every record of beat `b` (01 R20). -/
def acked (s : State) (b : Nat) : Bool :=
  decide (b < s.clk.beat) && !(s.pair.sent.any (fun d => d.beat == b)) && !(s.pair.spill.any (fun d => d.1 == b))

/-- Whether what entered the delta of beat `b` may leave (01 R20). -/
def mayLeave (s : State) (b : Nat) : Bool := !holding s || acked s b

/-! ## The work ledger (13) -/

def ledGet (s : State) (i : Nat) : Option LedEntry := sfind s.led.entries i

def emptyMeta : LedMeta := ⟨[], false, 0, none, none⟩

def ledMeta (s : State) (i : Nat) : LedMeta := sget emptyMeta s.led.metas i

def ledMetaSet (s : State) (i : Nat) (m : LedMeta) : State :=
  { s with led := { s.led with metas := sset emptyMeta s.led.metas i m } }

/-- The lowest index that is not listed, from `k` on. -/
def firstFree {α : Type} : Sparse α → Nat → Nat
  | [], k => k
  | (k', _) :: r, k => if k' = k then firstFree r (k + 1) else k

/-- A change of an entry writes both halves and a LEDGER record (13 R303, 14 Table 14-1). -/
def ledPut (s : State) (i : Nat) (e : LedEntry) : State :=
  let s := record s (.ledger i e)
  { s with led := { s.led with entries := if e.state = .free then serase s.led.entries i else sput s.led.entries i e } }

def kindCount (s : State) (k : LedKind) : Nat := (s.led.entries.filter (fun e => e.2.kind == k)).length

def kindNo : LedKind → Nat
  | .host => 1 | .table => 2 | .kennel => 3 | .object => 4 | .frame => 5

/-- The three limits of 13 R305, and for kinds 2 to 4 the room of their record in the delta (14 R320); nothing is accepted while a main power-down is held off (19 R438) or the main domain is off (01 R23). -/
def ledRoom (s : State) (k : LedKind) : Bool :=
  let free := 262144 - s.led.entries.length
  s.pwr.hold.isNone && mainOn s && match k with
  | .table | .kennel | .object => decide (0 < free) && deltaFits s 36
  | .host | .frame =>
    let ctl := kindCount s .table + kindCount s .kennel + kindCount s .object
    decide (objGet s 0x7010 0x01 0 - ctl < free) &&
      decide (kindCount s k + 1 ≤ objGet s 0x7010 (if k = .host then 0x02 else 0x03) 0)

/-- A table or Kennel operation waits at its acceptance point: for an entry (13 R316), or for room in the delta (14 R320). -/
def noteWait (s : State) : State :=
  let s := if s.led.entries.length < 262144 then s else { s with led := { s.led with waited := true } }
  if deltaFits s 36 then s else waitRoom s

def ordFind (s : State) (q : OrdQ) : OrdState :=
  match s.led.orders.find? (fun o => o.q == q) with
  | some o => o
  | none => ⟨q, 0, 0, 0⟩

def ordPut (s : State) (o : OrdState) : State :=
  { s with led := { s.led with
      orders := if s.led.orders.any (fun x => x.q == o.q)
        then s.led.orders.map (fun x => if x.q == o.q then o else x) else s.led.orders ++ [o] } }

/-- A unit becomes accepted work: it takes the lowest free entry that no lost unit still uses (assumption 10) and the next SEQ
of its order queue; accepted_k counts (13 R299, R303, R316). ATTEMPT is 1 from the acceptance on, as its range has no 0. -/
def ledAccept (s : State) (k : LedKind) (q : OrdQ) (slice : Nat) (infra restart : Bool) (ref : LedRef) : Nat × State :=
  let o := ordFind s q
  let e : LedEntry := ⟨.accepted, k, restart, 1, q, o.next, slice, infra, 0, 0, s.clk.beat, ref⟩
  let i := firstFree (s.led.lost.foldl (fun m n => sput m n e) s.led.entries) 0
  let s := ordPut s { o with next := (o.next + 1) % 2 ^ 32 }
  let s := ledMetaSet s i emptyMeta
  let s := count s 0xC040 (0x0F + kindNo k)
  (i, ledPut s i e)

/-- A block takes up an ACCEPTED unit: it is RUNNING (13 R304). -/
def ledRun (s : State) (i : Nat) : State :=
  match ledGet s i with
  | some e => if e.state = .accepted then ledPut s i { e with state := .running } else s
  | none => s

/-- An entry is QUARANTINED: no block moves it (13 R304, R311). -/
def ledQuarantined (s : State) (i : Nat) : Bool :=
  match ledGet s i with | some e => e.state == .quarantined | none => false

/-- An entry's status is fixed: DONE, in the delta of this beat (13 R304). held_for_order counts an entry that a
predecessor holds (13 R316). -/
def ledFix (s : State) (i : Nat) (status detail : BitVec 8) : State :=
  match ledGet s i with
  | none => s
  | some e =>
    let s := if (ordFind s e.queue).due != e.seq then count s 0xC040 0x1C else s
    let s := ledPut s i { e with state := .done, status := status, detail := detail }
    ledMetaSet s i { ledMeta s i with doneBeat := some s.clk.beat }

/-- The block that runs a unit ends it. A QUARANTINED entry waits for its place in order instead (13 R304, R311). -/
def ledDone (s : State) (i : Nat) (status detail : BitVec 8) : State :=
  if ledQuarantined s i then s else ledFix s i status detail

/-- SEQ of one place comes before that of another; SEQ wraps to 0, and 262,144 entries span less than half of it (13 R303). -/
def seqBefore (a b : Nat) : Bool := a != b && decide ((b + 2 ^ 32 - a) % 2 ^ 32 < 2 ^ 31)

/-- A unit retires: its entry goes FREE, its place in the order queue is past, and its status counts (13 R309, R316). -/
def ledRetire (s : State) (i : Nat) : State :=
  match ledGet s i with
  | none => s
  | some e =>
    let s := countAt s 0xC041 0x01 e.status.toNat
    let o := ordFind s e.queue
    let sq := match e.ref with | .host ix _ _ _ => ix + 1 | _ => o.nextSq
    let s := ordPut s { o with due := (e.seq + 1) % 2 ^ 32, nextSq := sq }
    let s := ledMetaSet s i emptyMeta
    ledPut s i { e with state := .free }

/-- The DONE entry that is next in an order queue. -/
def dueDone (s : State) (q : OrdQ) : Option Nat :=
  let due := (ordFind s q).due
  (s.led.entries.find? (fun e => e.2.queue == q && e.2.seq == due && e.2.state == .done)).map (·.1)

/-- Retire the DONE entries at the head of an order queue, at most `n`. -/
def retireUpTo (s : State) (q : OrdQ) : Nat → State
  | 0 => s
  | n + 1 => match dueDone s q with
    | some i => retireUpTo (ledRetire s i) q n
    | none => s

/-- Retire every DONE entry of an order queue whose predecessors have retired. -/
def retireRun (s : State) (q : OrdQ) : State :=
  retireUpTo s q (s.led.entries.filter (fun e => e.2.queue == q)).length

/-! ## Pair state and hard faults -/

def pairCode : PairState → Nat
  | .single => 0 | .seeking => 1 | .syncing => 2 | .standby => 3 | .active => 4 | .fenced => 5 | .fault => 6

/-- A change of pair_state raises event 0x0501 (20 Table 20-4). -/
def setPairState (s : State) (p : PairState) : State :=
  if s.pair.state = p then s
  else
    let s := { s with pair := { s.pair with state := p, holdDown := none, seekAt := if p = .seeking then now s else s.pair.seekAt } }
    let s := if p = .syncing then count s 0xC200 0x0F else s
    event s 0x0501 32 (pairCode p)

/-- The fence signal: the host endpoint stops at once, the lanes at the MUZZLE step (14 R333, 02 R46). -/
def fence (s : State) : State := { s with pair := { s.pair with fence := true, lift := false } }

/-- A hard fault: event 0x0503 with cause and detail; a paired device is fenced, goes to FAULT and asserts PAIR_HF_OUT
once it is muzzled, at once where it is muzzled already (14 R334, R335). A SINGLE device is never muzzled (14 R333, assumption 11). -/
def hardFault (s : State) (cause detail : Nat) : State :=
  let s := count s 0xC200 0x05
  let s := event s 0x0503 32 (cause % 256 + (detail % 2 ^ 32) * 2 ^ 32)
  let s := { s with isl := { s.isl with ledFault := true } }
  if s.pair.state = .single then s
  else
    let s := setPairState (fence s) .fault
    { s with pair := { s.pair with
        hfPending := !s.pair.muzzled, hfOut := s.pair.hfOut || s.pair.muzzled, transfer := .none, takeover := none } }

end Sys2Proof.Machine
end

