-- ==== Sys2Proof/Machine/Rows.lean ====
section
/-!
DEFINITION. The slot schedule in force: the rows of the current image or the built-in schedule, the owners a row names,
and the timing of an image (03 R52–R56, R62, R467).
-/

namespace Sys2Proof.Machine

/-- A list of fields of `w` bits, the first at bit 0, as a number. -/
def packed (w : Nat) : List Nat → Nat
  | [] => 0
  | v :: vs => v % 2 ^ w + 2 ^ w * packed w vs

/-- Row `s` of the built-in schedule (03 R467, Table 3-13). -/
def builtinRow (s : Nat) : BitVec 512 :=
  let ctl (p : Nat) : Bool := s % 64 == 16 * p
  let ingress := (List.range 4).map (fun p => if ctl p then 0x3E else 0x3F)
  let ports := (List.range 80).map (fun i => if ctl (i / 20) then 0 else 1)
  let egress := (List.range 4).map (fun j => (4 * s + j) % 32)
  let cipher := (List.range 4).map (fun k => 0x10 + (4 * s + k) % 16) ++ [0x20, 0x20, 0x21, 0x21]
  let dma := (List.range 4).map (fun k => (4 * s + k) % 64)
  BitVec.ofNat 512 (packed 8 ingress + packed 2 ports <<< 32 + packed 4 [6, 6, 4, 4, 5, 5, 7, 15] <<< 192
    + packed 8 egress <<< 224 + packed 8 (List.replicate 8 0xFF) <<< 256 + packed 8 cipher <<< 320
    + packed 8 dma <<< 384)

/-- The current schedule's row for a slot (03 R53). -/
def schedRow (s : State) (slot : Nat) : BitVec 512 :=
  match s.tt.cur with
  | some i => i.rows.getD (slot % 4096) 0
  | none => builtinRow (slot % 4096)

def rowIngress (r : BitVec 512) (p : Nat) : Nat := fld r (8 * p) 8
def rowPort (r : BitVec 512) (p t : Nat) : Nat := fld r (32 + 2 * (20 * p + t)) 2
def rowLeg (r : BitVec 512) (k : Nat) : Nat := fld r (192 + 4 * k) 4
def rowEgress (r : BitVec 512) (j : Nat) : Nat := fld r (224 + 8 * j) 8
def rowDetour (r : BitVec 512) (p : Nat) : Nat := fld r (256 + 8 * p) 8
def rowWalk (r : BitVec 512) (p : Nat) : Nat := fld r (288 + 8 * p) 8
def rowCipher (r : BitVec 512) (k : Nat) : Nat := fld r (320 + 8 * k) 8
def rowDma (r : BitVec 512) (k : Nat) : Nat := fld r (384 + 8 * k) 8

/-- The row of moment `m` has failed its ROWCRC, as this command or an earlier one found; the built-in schedule carries none
and cannot fail (03 R79, R467). -/
def rowBadAt (s : State) (m : Nat) (rowOk : Bool) : Bool := s.tt.cur.isSome && (!rowOk || s.tt.badRows.contains m)

/-- A row that fails its ROWCRC when read: the failure counts once, TT_FAULT.ROW_CRC is set, and the row is rewritten from
the staging copy, so it reads whole in the next beat (03 R79). -/
def rowFailedAt (s : State) (m : Nat) : State :=
  if s.tt.badRows.contains m then s
  else
    let s := count s 0xC050 0x08
    { s with tt := { s.tt with fault := s.tt.fault ||| 4, badRows := m :: s.tt.badRows.filter (fun k => decide (now s ≤ k + 65536)) } }

/-- The row of the present slot has failed. -/
def rowBad (s : State) (rowOk : Bool) : Bool := rowBadAt s (now s) rowOk
def rowFailed (s : State) : State := rowFailedAt s (now s)

/-! ## Images -/

/-- Offset I[t] at which an item enters stage `t` (05 R466): 20 is the rewrite unit. -/
def entryOffset (img : Option Image) (t : Nat) : Nat :=
  match img with
  | some i => i.offsets.getD t 0
  | none => 32 + 4 * t

def hdrFld (i : Image) (off w : Nat) : Nat := fld i.hdr (8 * off) w

def baseLatency (img : Option Image) : Nat :=
  match img with
  | some i => hdrFld i 0x28 16
  | none => 128

/-- *a* of R56. DESIGN CHOICE: the built-in schedule of R467 names none, and 40 stands for it; no item makes an access under
that schedule, since none enters (assumption 204). -/
def sharedOffset (img : Option Image) : Nat :=
  match img with
  | some i => hdrFld i 0x2A 16
  | none => 40

/-- The pipeline of a lane (Table 3-3). -/
def lanePipe (i : Image) (lane : Nat) : Nat := fld i.hdr (8 * 0x30 + 2 * lane) 2

/-- The resident image of a generation bit: the current, or the old one in OVERLAP (03 R73). -/
def imageOf (s : State) (gen : Bool) : Option Image := if gen = s.tt.gen then s.tt.cur else s.tt.old

end Sys2Proof.Machine
end

