-- ==== Sys2Proof/Machine/Layout.lean ====
section
/-!
DEFINITION. The records of an image (03 R62, R63, 04 R85, R95, 05 R110, R111, R116, R466, 06 R127): fields of table and
tree descriptors, regions, actions, parse-graph and pattern entries.
-/

namespace Sys2Proof.Machine

/-- The first `n` records of `w` bytes of a string. -/
def chunks (w : Nat) : Nat → List Byte → List (List Byte)
  | 0, _ => []
  | n + 1, bs => bs.take w :: chunks w n (bs.drop w)

/-- The same as numbers. -/
def records (w n : Nat) (bs : List Byte) : List (BitVec (8 * w)) :=
  (chunks w n bs).map (fun r => BitVec.ofNat (8 * w) (leNat r))

/-- Ordered without repeats. -/
def dedup (xs : List Nat) : List Nat := xs.eraseDups

/-! ## Table descriptors (05 Table 5-3) -/

def tId (d : BitVec 512) : Nat := fld d 0 16
def tPrint (d : BitVec 512) : Nat := fld d 16 64
def tStage (d : BitVec 512) : Nat := fld d 80 5
/-- 0 exact, 1 ternary, 2 LPM, 3 range. -/
def tKind (d : BitVec 512) : Nat := fld d 85 2
def tUnits (d : BitVec 512) : Nat := fld d 87 2
def tBankMask (d : BitVec 512) : Nat := fld d 90 16
def tBase (d : BitVec 512) : Nat := fld d 106 15
def tWords (d : BitVec 512) : Nat := fld d 121 16
def tTcamBase (d : BitVec 512) : Nat := fld d 137 14
def tTcamCount (d : BitVec 512) : Nat := fld d 151 15
def tTcamWidth (d : BitVec 512) : Nat := fld d 166 2
def tMiss (d : BitVec 512) : Nat := fld d 168 6
def tActBase (d : BitVec 512) : Nat := fld d 174 10
/-- ACTION_COUNT, 0 meaning 64. -/
def tActCount (d : BitVec 512) : Nat := if fld d 184 6 = 0 then 64 else fld d 184 6
def tSeed (d : BitVec 512) : Nat := fld d 192 8
/-- L_g of an LPM table. -/
def tGroupLen (d : BitVec 512) (g : Nat) : Nat := fld d (192 + 8 * g) 8
def tBucketBits (d : BitVec 512) : Nat := fld d 192 6
/-- Width of a range table's bounds. -/
def tBoundBits (d : BitVec 512) : Nat := if fld d 198 1 = 1 then 32 else 16

/-- Key chunks as (bus offset, width). -/
def keyChunks {n : Nat} (d : BitVec n) (lo count : Nat) : List (Nat × Nat) :=
  (List.range count).map (fun i => (fld d (lo + 16 * i) 10, fld d (lo + 16 * i + 10) 6 + 1))

def tKeyCount (d : BitVec 512) : Nat := fld d 416 4
def tKey (d : BitVec 512) : List (Nat × Nat) := keyChunks d 256 (tKeyCount d)

def chunksWidth (cs : List (Nat × Nat)) : Nat := (cs.map (·.2)).sum

/-- A key taken from the bus: chunk 0 in the least significant bits (05 R110). -/
def keyOf (bus : Bus) : List (Nat × Nat) → Nat
  | [] => 0
  | (o, w) :: cs => fld bus o w + 2 ^ w * keyOf bus cs

/-- Banks of a mask in ascending order. -/
def banksOf (mask : Nat) : List Nat := (List.range 16).filter (fun b => mask.testBit b)

/-- Bits of an entry: 128, 256 or 512; a range word is whole (05 R111). -/
def entryBits (d : BitVec 512) : Nat := if tKind d = 3 then 512 else 128 * 2 ^ tUnits d

/-- 160-bit units of one ternary entry. -/
def tcamUnits (d : BitVec 512) : Nat := 2 ^ tTcamWidth d

/-- Used groups of an LPM table, ascending: (group, length, bank). -/
def lpmGroups (d : BitVec 512) : List (Nat × Nat × Nat) :=
  let used := (List.range 8).filter (fun g => tGroupLen d g != 0)
  (List.range used.length).map (fun i =>
    (used.getD i 0, tGroupLen d (used.getD i 0), (banksOf (tBankMask d)).getD i 0))

/-- A region: ternary or SRAM, stage, bank, first and end index. -/
structure Region where
  tern  : Bool
  stage : Nat
  bank  : Nat
  lo    : Nat
  hi    : Nat
deriving DecidableEq, Repr

/-- The regions of a table in stage memory and in ternary entries (03 R63, R64). -/
def regionsOf (d : BitVec 512) : List Region :=
  (banksOf (tBankMask d)).map (fun b => ⟨false, tStage d, b, tBase d, tBase d + tWords d⟩) ++
    (if tKind d = 1 ∧ tTcamCount d ≠ 0 then
      [⟨true, tStage d, 0, tTcamBase d * tcamUnits d, (tTcamBase d + tTcamCount d) * tcamUnits d⟩] else [])

def Region.meets (a b : Region) : Bool :=
  a.tern == b.tern && a.stage == b.stage && a.bank == b.bank && decide (a.lo < b.hi) && decide (b.lo < a.hi)

def Region.has (a : Region) (tern : Bool) (stage bank i : Nat) : Bool :=
  a.tern == tern && a.stage == stage && a.bank == bank && decide (a.lo ≤ i) && decide (i < a.hi)

/-- A table is carried when the current image holds one with the same id, fingerprint and regions (03 R64). -/
def carriedBy (cur : List (BitVec 512)) (d : BitVec 512) : Bool :=
  cur.any (fun c => tId c == tId d && tPrint c == tPrint d && regionsOf c == regionsOf d)

/-- Tables of an image with private regions. -/
def privateTables (cur tables : List (BitVec 512)) : List (BitVec 512) := tables.filter (fun d => !carriedBy cur d)

/-! ## Actions (05 Tables 5-5 and 5-6) -/

def primAt (a : BitVec 512) (i : Nat) : BitVec 64 := BitVec.ofNat 64 (fld a (64 * i) 64)
def pOp (p : BitVec 64) : Nat := fld p 0 6
def pDst (p : BitVec 64) : Nat := fld p 6 10
def pSrc (p : BitVec 64) : Nat := fld p 16 10
def pWidth (p : BitVec 64) : Nat := fld p 26 6 + 1
def pImm (p : BitVec 64) : Nat := fld p 32 32

/-- The primitive words of an action that run: those before its first NOP. -/
def actionPrims (a : BitVec 512) : List (BitVec 64) :=
  ((List.range 8).map (primAt a)).takeWhile (fun p => pOp p != 0)

/-- The actions that a table may apply, MISS_ACTION among them. -/
def tableActions (actions : List (BitVec 512)) (d : BitVec 512) : List (BitVec 512) :=
  (actions.drop (tActBase d)).take (tActCount d)

/-! ## Trees (05 Tables 5-7 to 5-9) -/

def trRoot (t : BitVec 256) : Nat := fld t 0 32
def trKeyCount (t : BitVec 256) : Nat := fld t 32 4
def trActBase (t : BitVec 256) : Nat := fld t 36 10
def trDefault (t : BitVec 256) : Nat := fld t 46 6
def trKey (t : BitVec 256) : List (Nat × Nat) := keyChunks t 64 (trKeyCount t)

def tnOk (n : BitVec 512) : Bool := pairOk 16 (fld n 0 32)
def tnLeaf (n : BitVec 512) : Bool := fld n 0 2 == 1
def tnCutOff (n : BitVec 512) : Nat := fld n 32 9
def tnCutBits (n : BitVec 512) : Nat := fld n 41 3 + 1
def tnBase (n : BitVec 512) : Nat := fld n 64 32
def tnRules (n : BitVec 512) : Nat := fld n 96 5

def ruleOk (r : BitVec 768) : Bool := pairOk 16 (fld r 0 32)
def ruleValid (r : BitVec 768) : Bool := fld r 0 1 == 1
def ruleAction (r : BitVec 768) : Nat := fld r 1 6
def rulePriority (r : BitVec 768) : Nat := fld r 32 32
def ruleValue (r : BitVec 768) : Nat := fld r 64 320
def ruleMask (r : BitVec 768) : Nat := fld r 384 320
def ruleData (r : BitVec 768) : Nat := fld r 704 64

/-! ## The parse graph (04 Tables 4-2 to 4-4) -/

def pnLenBase (n : BitVec 128) : Nat := fld n 0 9
def pnLenMode (n : BitVec 128) : Nat := fld n 9 1
def pnLenOff (n : BitVec 128) : Nat := fld n 10 9
def pnLenShift (n : BitVec 128) : Nat := fld n 19 4
def pnLenMult (n : BitVec 128) : Nat := fld n 23 2
def pnLenMask (n : BitVec 128) : Nat := fld n 25 16
def pnLenMin (n : BitVec 128) : Nat := fld n 41 9
def pnSelOff (n : BitVec 128) : Nat := fld n 50 9
def pnSelWidth (n : BitVec 128) : Nat := fld n 59 6
def pnTrBase (n : BitVec 128) : Nat := fld n 65 12
def pnTrCount (n : BitVec 128) : Nat := fld n 77 9
def pnDefault (n : BitVec 128) : Nat := fld n 86 8
def pnStrict (n : BitVec 128) : Bool := fld n 94 1 == 1
def pnExBase (n : BitVec 128) : Nat := fld n 95 10
def pnExCount (n : BitVec 128) : Nat := fld n 105 6
def pnRole (n : BitVec 128) : Nat := fld n 111 4
def pnCheck (n : BitVec 128) (i : Nat) : Bool := fld n (115 + i) 1 == 1
def pnRepeat (n : BitVec 128) : Nat := fld n 123 4

def ptKey (t : BitVec 128) : Nat := fld t 0 32
def ptMask (t : BitVec 128) : Nat := fld t 32 32
def ptNext (t : BitVec 128) : Nat := fld t 64 8

def exOff (e : BitVec 64) : Nat := fld e 0 9
def exLen (e : BitVec 64) : Nat := if fld e 9 6 = 0 then 64 else fld e 9 6
def exDst (e : BitVec 64) : Nat := fld e 15 10

/-! ## The shared access descriptor (06 Table 6-1) -/

def shOn (d : BitVec 512) (i : Nat) : Bool := fld d i 1 == 1
def shFamily (d : BitVec 512) : Nat := fld d 4 10
def shLen4 (d : BitVec 512) (g : Nat) : Nat := fld d (16 + 8 * g) 8
def shLen6 (d : BitVec 512) (g : Nat) : Nat := fld d (80 + 8 * g) 8
def shDa (d : BitVec 512) : Nat := fld d 144 10
def shSa (d : BitVec 512) : Nat := fld d 154 10
def shDomain (d : BitVec 512) : Nat := fld d 164 10
def shVrf (d : BitVec 512) : Nat := fld d 174 10
def shAddr (d : BitVec 512) : Nat := fld d 184 10
def shFlowCount (d : BitVec 512) : Nat := fld d 416 4
def shFlowKey (d : BitVec 512) : List (Nat × Nat) := keyChunks d 256 (shFlowCount d)

/-- LPM4_LEN and LPM6_LEN, the fingerprint of the LPM region (06 R127). -/
def shLens (d : BitVec 512) : BitVec 64 × BitVec 64 := (BitVec.ofNat 64 (fld d 16 64), BitVec.ofNat 64 (fld d 80 64))

/-! ## Empty words (03 R64) -/

/-- A word of empty entries of `w` bits each: an intact control word with VALID 0 in every place. -/
def emptyWord (w : Nat) : BitVec 512 :=
  BitVec.ofNat 512 (((List.range (512 / w)).map (fun i => 0xFFFF0000 <<< (w * i))).sum)

/-- A ternary record at 160-bit unit `u`: value and mask of the unit. -/
def tcamUnit (value mask u : Nat) : BitVec 320 :=
  BitVec.ofNat 320 ((value >>> (160 * u)) % 2 ^ 160 + ((mask >>> (160 * u)) % 2 ^ 160) * 2 ^ 160)

end Sys2Proof.Machine
end

