-- ==== Sys2Proof/Machine/Operands.lean ====
section
/-!
DEFINITION. Operand forms: the fields of commands, items and threads, Jutex registers and immediates (07 R157), and the
thread data address map (07 R155, R156).
-/

namespace Sys2Proof.Machine

/-! ## Items in the pipelines -/

def itemGet (s : State) (id : Nat) : Option Item := s.pipe.items.find? (fun x => x.id == id)

def itemsMap (s : State) (f : Item → Item) : State :=
  { s with pipe := { s.pipe with items := s.pipe.items.map f } }

def itemPut (s : State) (x : Item) : State := itemsMap s (fun y => if y.id = x.id then x else y)

/-- An item leaves its pipeline in this slot (05 R121). -/
def noteLeft (s : State) (x : Item) : State :=
  match x.domain with
  | none => s
  | some d =>
    let jutex := match x.pos with | .jutex _ _ _ => true | _ => false
    let before := if s.pipe.leftAt = now s then s.pipe.left else []
    { s with pipe := { s.pipe with left := before ++ [(x.pipe, d, x.seq, jutex)], leftAt := now s } }

/-- An item leaves the device's pipelines and with them its generation (03 R74). -/
def itemRemove (s : State) (id : Nat) : State :=
  let s := match itemGet s id with
    | some x => noteLeft s x
    | none => s
  { s with pipe := { s.pipe with
      items := s.pipe.items.filter (fun x => x.id != id)
      treeQ := s.pipe.treeQ.map (fun q => q.filter (· != id))
      retQ := s.pipe.retQ.map (fun q => q.filter (· != id)) } }

/-- Bus fields (05 Table 5-1). -/
def busSlice (b : Bus) : Nat := fld b 908 14

/-- The frame length field encoding of 14 bits (02 R41). -/
def lenCode (n : Nat) : Nat := n % 16384
def lenValue (c : Nat) : Nat := if c % 16384 = 0 then 16384 else c % 16384

/-! ## Threads, engines, clusters -/

/-- A thread is numbered cluster × 64 + engine × 8 + thread. -/
def thCluster (th : Nat) : Nat := th / 64
def thEngine (th : Nat) : Nat := th / 8
def thLocal (th : Nat) : Nat := th % 64

/-- The engine's boot entry: the first word past the function table (assumption 12). -/
def bootEntry : BitVec 64 := 0x400

/-- A thread right after engine reset (07 R153). -/
def resetThread (th : Nat) : Thread :=
  { state := if th % 8 = 0 then .runnable else .stopped, pc := if th % 8 = 0 then bootEntry else 0, regs := [],
    tcmp := 0, wait := none, owns := none, staging := 0, item := none, place := none, gone := false, before := .stopped }

def resetEngine : Engine := { shared := [], inbox := [], frozen := false, out := 0, last := 7, loads := [], again := false }

def resetChannel : Channel := { ring := [], owner := none, ext := false, results := [] }

def resetCluster : Cluster :=
  { scratch := [], store := [], chans := [], inbox := [], rotSet := 0xFF, rot := 7, faulted := false }

def thread (s : State) (th : Nat) : Thread := sget (resetThread th) s.jx.threads th

def setThread (s : State) (th : Nat) (t : Thread) : State :=
  { s with jx := { s.jx with threads := sset (resetThread th) s.jx.threads th t } }

def engine (s : State) (e : Nat) : Engine := sget resetEngine s.jx.engines e

def setEngine (s : State) (e : Nat) (x : Engine) : State :=
  { s with jx := { s.jx with engines := sset resetEngine s.jx.engines e x } }

def cluster (s : State) (c : Nat) : Cluster := sget resetCluster s.jx.clusters c

def setCluster (s : State) (c : Nat) (x : Cluster) : State :=
  { s with jx := { s.jx with clusters := sset resetCluster s.jx.clusters c x } }

def channel (s : State) (c ch : Nat) : Channel := sget resetChannel (cluster s c).chans ch

def setChannel (s : State) (c ch : Nat) (x : Channel) : State :=
  setCluster s c { cluster s c with chans := sset resetChannel (cluster s c).chans ch x }

/-! ## Jutex registers: x0 reads 0 and discards writes (07) -/

def getReg (s : State) (th : Nat) (r : BitVec 5) : BitVec 64 :=
  if r = 0 then 0 else sget 0 (thread s th).regs r.toNat

def setReg (s : State) (th : Nat) (r : BitVec 5) (v : BitVec 64) : State :=
  if r = 0 then s
  else setThread s th { thread s th with regs := sset 0 (thread s th).regs r.toNat v }

def getShared (s : State) (th : Nat) (n : Nat) : BitVec 64 := sget 0 (engine s (thEngine th)).shared (n % 64)

def setShared (s : State) (th : Nat) (n : Nat) (v : BitVec 64) : State :=
  setEngine s (thEngine th)
    { engine s (thEngine th) with shared := sset 0 (engine s (thEngine th)).shared (n % 64) v }

/-- I15 and I20 are signed (07 R157). -/
def imm15 (i : BitVec 15) : BitVec 64 := i.signExtend 64
def imm20 (i : BitVec 20) : BitVec 64 := i.signExtend 64
def imm10 (f : BitVec 10) : BitVec 64 := f.signExtend 64

/-! ## Scratch -/

/-- Bytes of scratch: 2 MiB (07 Table 7-2). -/
def scratchSize : Nat := 2097152

def scratchRead (s : State) (c a n : Nat) : List Byte :=
  (List.range n).map (fun i => sget 0 (cluster s c).scratch (a + i))

def scratchPut (m : Sparse Byte) (a : Nat) : List Byte → Sparse Byte
  | [] => m
  | b :: bs => scratchPut (sset 0 m a b) (a + 1) bs

def scratchWrite (s : State) (c a : Nat) (bs : List Byte) : State :=
  setCluster s c { cluster s c with scratch := scratchPut (cluster s c).scratch a bs }

/-! ## The thread data address map (07 R155, Table 7-2) -/

/-- A window of the map: what an address names, with the offset in it. -/
inductive Window where
  | scratch (off : Nat) | bus (off : Nat) | info (off : Nat) | length (off : Nat) | desc (off : Nat) | frame (off : Nat)
  | hits (off : Nat) | hbm (addr : Nat)
deriving DecidableEq, Repr

/-- The window that holds `n` bytes at `a`, for an access aligned to its width; none is a thread fault (07 R154). -/
def windowOf (s : State) (c a n : Nat) : Option Window :=
  let within (base size : Nat) : Bool := decide (base ≤ a) && decide (a + n ≤ base + size)
  if a % n ≠ 0 then none
  else if within 0 scratchSize then some (.scratch a)
  else if within 0x01000000 128 then some (.bus (a - 0x01000000))
  else if within 0x01000080 8 then some (.info (a - 0x01000080))
  else if within 0x01000088 2 then some (.length (a - 0x01000088))
  else if within 0x010000C0 64 then some (.desc (a - 0x010000C0))
  else if within 0x02000000 16384 then some (.frame (a - 0x02000000))
  else if within 0x03000000 256 then some (.hits (a - 0x03000000))
  else if within 0x100000000 (objGet s (0x5410 + c) 0x09 0) then
    some (.hbm (objGet s (0x5410 + c) 0x08 0 + (a - 0x100000000)))
  else none

/-- The detour item of a piece of work, and the descriptor of a host item. -/
def workItem (s : State) (w : Option Work) : Option Item :=
  match w with
  | some (.detour id) => itemGet s id
  | _ => none

def workDesc (s : State) (w : Option Work) : List Byte :=
  match w with
  | some (.host e _) => (ledMeta s e).desc
  | _ => []

/-- The work a thread's item windows refer to; a taken item reads as none (12 R287). -/
def heldWork (t : Thread) : Option Work := if t.gone then none else t.item

/-- ITEM_INFO (07 Table 7-5). -/
def itemInfo (s : State) (w : Option Work) : Nat :=
  match w with
  | none => 0
  | some (.host _ fn) => 1 + (fn % 256) * 2 ^ 8
  | some (.detour id) =>
    match itemGet s id with
    | none => 0
    | some x =>
      let t := match x.pos with | .jutex t _ _ => t | _ => 0
      let fn := match x.pos with | .jutex _ _ fn => fn | _ => 0
      x.pipe * 2 + t * 8 + (fn % 256) * 2 ^ 8 + (if x.gen then 2 ^ 16 else 0) + (x.seq % 2 ^ 32) * 2 ^ 32

/-- `n` bytes of a window; without an item the item windows read 0 (07 R155). -/
def windowBytes (s : State) (c : Nat) (w : Option Work) (win : Window) (n : Nat) : List Byte :=
  let ofItem (f : Item → List Byte) (off : Nat) : List Byte :=
    bytesAt (match workItem s w with | some x => f x | none => []) off n
  match win with
  | .scratch a => scratchRead s c a n
  | .bus off => ofItem (fun x => leBytes 128 x.bus.toNat) off
  | .info off => bytesAt (leBytes 8 (itemInfo s w)) off n
  | .length off => ofItem (fun x => leBytes 2 (lenCode x.len)) off
  | .desc off => bytesAt (workDesc s w) off n
  | .frame off => ofItem (·.bytes) off
  | .hits off => ofItem (fun x => x.record.flatMap (fun r => leBytes 4 r.toNat)) off
  | .hbm a => hbmRead s a n

/-- What a load reads in a window, little-endian. -/
def windowRead (s : State) (c : Nat) (w : Option Work) (win : Window) (n : Nat) : Nat := leNat (windowBytes s c w win n)

/-- Bus bits a Jutex store leaves unchanged (07 R156): [223:0], [831:768] and the reserved fields. -/
def busKept : Bus :=
  BitVec.ofNat 1024 (2 ^ 224 - 1) ||| BitVec.ofNat 1024 ((2 ^ 64 - 1) <<< 768) |||
    BitVec.ofNat 1024 ((2 ^ 18 - 1) <<< 890) ||| BitVec.ofNat 1024 ((2 ^ 44 - 1) <<< 980)

/-- Bytes of frame data with `v` stored at `off`; the frame grows with zeros up to it (07 R156). -/
def frameStore (bs : List Byte) (off : Nat) (v : List Byte) : List Byte :=
  let bs := bs ++ List.replicate (off + v.length - bs.length) 0
  overwrite bs off v

/-- Bytes stored in a window for a thread of cluster `c` that holds `w`. The read-only windows take no effect (00 R7 RO,
07 R155). A store that meets kept bus bits is counted (07 R156). -/
def windowStore (s : State) (c : Nat) (w : Option Work) (win : Window) (bs : List Byte) : State :=
  let n := bs.length
  match win with
  | .scratch a => scratchWrite s c a bs
  | .bus off =>
    match workItem s w with
    | none => s
    | some x =>
      let span : Bus := BitVec.ofNat 1024 ((2 ^ (8 * n) - 1) <<< (8 * off))
      let keep : Bus := ~~~span ||| busKept
      let b := (x.bus &&& keep) ||| (BitVec.ofNat 1024 (leNat bs <<< (8 * off)) &&& ~~~keep)
      let s := if span &&& busKept = 0 then s else ctrAddAt s (0xC090 + c) 0x0E 0 1
      itemPut s { x with bus := b }
  | .length off =>
    match workItem s w with
    | none => s
    | some x =>
      let code := leNat (overwrite (leBytes 2 (lenCode x.len)) off bs) % 2 ^ 14
      itemPut s { x with len := lenValue code }
  | .frame off =>
    match workItem s w with
    | none => s
    | some x => itemPut s { x with bytes := frameStore x.bytes off bs }
  | .hbm a => hbmStore s a bs
  | .info _ | .desc _ | .hits _ => s

/-- A store of `n` bytes of `v` to a window. -/
def windowWrite (s : State) (c : Nat) (w : Option Work) (win : Window) (n v : Nat) : State :=
  windowStore s c w win (leBytes n v)

/-- The window and the offset in it. -/
def Window.place : Window → Nat × Nat
  | .scratch o => (0, o)
  | .bus o => (1, o)
  | .info o => (2, o)
  | .length o => (3, o)
  | .desc o => (4, o)
  | .frame o => (5, o)
  | .hits o => (6, o)
  | .hbm o => (7, o)

/-- The one window in which `n` bytes at `a` of a thread's map lie, for a cipher or Kennel request (09 R204); none is an
ADDRESS failure. -/
def rangeOf (s : State) (c a n : Nat) : Option Window :=
  match windowOf s c a 1, windowOf s c (a + n - 1) 1 with
  | some x, some y => if x.place.1 = y.place.1 ∧ x.place.2 + n = y.place.2 + 1 then some x else none
  | _, _ => none

/-- Bytes that a request of a thread reads in its map. -/
def mapRead (s : State) (c : Nat) (w : Option Work) (a n : Nat) : Option (List Byte) :=
  if n = 0 then some [] else (rangeOf s c a n).map (fun x => windowBytes s c w x n)

/-- The range is writable in the issuer's map: it lies in no read-only window (07 Table 7-2). -/
def mapWritable (s : State) (c a n : Nat) : Bool :=
  n == 0 || (match rangeOf s c a n with
    | some x => x.place.1 ∉ [2, 4, 6]
    | none => false)

/-- Write to a writable range of the issuer's map. -/
def mapWrite (s : State) (c : Nat) (w : Option Work) (a : Nat) (bs : List Byte) : State :=
  match windowOf s c a 1 with
  | some x => windowStore s c w x bs
  | none => s

end Sys2Proof.Machine
end

