-- ==== Sys2Proof/Machine/Ports.lean ====
section
/-!
DEFINITION. Ports and lanes (02): blocks, port numbers, lane states, auto-negotiation, training, and the lane commands.
-/

namespace Sys2Proof.Machine

/-! ## Port modes, blocks and port numbers -/

/-- Block width *w* (02 Table 2-1). -/
def blockWidth (s : State) : Nat := 2 ^ objGet s 0x4000 0x01 0

def laneMode (s : State) (n : Nat) : Nat := objGet s (0x4100 + n) 0x01 0
def laneKind (s : State) (n : Nat) : Nat := objGet s (0x4100 + n) 0x02 0

/-- The lowest lane of the block that holds lane `n`, under a width. -/
def blockBase (w n : Nat) : Nat := n / w * w

/-- Lanes of the block that holds lane `n`. -/
def blockLanes (s : State) (n : Nat) : List Nat :=
  (List.range (blockWidth s)).map (fun i => blockBase (blockWidth s) n + i)

/-- The block is whole when every lane of it is in mode PORT (02 R31). -/
def blockWhole (s : State) (n : Nat) : Bool := (blockLanes s n).all (fun m => laneMode s m == 0)

/-- The port that holds a lane (02 R28, R31). -/
def portOfLane (s : State) (n : Nat) : Nat := if blockWhole s n then blockBase (blockWidth s) n else n

/-- Member lanes of port `p`; none when `p` is no port at present (02 R50). -/
def portLanes (s : State) (p : Nat) : List Nat :=
  if blockWhole s p then (if p = blockBase (blockWidth s) p then blockLanes s p else []) else [p]

def adminUp (s : State) (p : Nat) : Bool := objOn s (0x4200 + p) 0x01 0
def maxFrame (s : State) (p : Nat) : Nat := objGet s (0x4200 + p) 0x02 0

def downLane : Lane := ⟨.disabled, 0, 0⟩
def lane (s : State) (n : Nat) : Lane := s.net.lanes.getD n downLane

/-- A port is operationally up when all its lanes are UP (02 R39); deskew comes with the lock of the last lane. -/
def operUp (s : State) (p : Nat) : Bool :=
  !(portLanes s p).isEmpty && (portLanes s p).all (fun n => (lane s n).state == .up)

/-- oper_state (02 Table 2-7). -/
def operState (s : State) (p : Nat) : Nat := if (portLanes s p).isEmpty then 2 else if operUp s p then 1 else 0

/-- Speed of a lane mode in Gb/s (02 Table 2-2). -/
def modeSpeed (m : Nat) : Nat :=
  match m with | 0 => 100 | 2 => 100 | 3 => 50 | 4 => 25 | 5 => 10 | 6 => 1 | _ => 0

/-- speed (02 Table 2-7): the speed that the port runs at. DESIGN CHOICE: 0, the table's default, while the port is not
operationally up (assumption 203). -/
def portSpeed (s : State) (p : Nat) : Nat :=
  if !operUp s p then 0
  else match portLanes s p with
    | [n] => modeSpeed (if laneMode s n = 1 then (lane s n).mode else laneMode s n)
    | ns => 100 * ns.length

/-! ## Lane states (02 R38, Table 2-4) -/

def laneCode : LaneState → Nat
  | .disabled => 0 | .noMedia => 1 | .an => 2 | .training => 3 | .locking => 4 | .up => 5 | .fault => 6

/-- The FEC of a C2M lane, and of every mode without a choice (02 R34, R37, Table 2-3): for 25GBASE-KR and 10GBASE-KR the
one asked for, 0 the strongest offered. -/
def fecAsked (mode req : Nat) : Nat :=
  match mode with
  | 0 | 2 | 3 => 3
  | 4 => if req = 0 then 2 else if req = 1 then 1 else 0
  | 5 => if req = 2 then 0 else 1
  | _ => 0

/-- A port that was up before and is not now counts a link-down event; its transmit FIFO is taken back at the next beat
boundary (02 R39, 08 R193). -/
def noteDown (before s : State) (p : Nat) : State :=
  if operUp before p ∧ !operUp s p then
    let s := count s (0xC100 + p) 0x0F
    { s with shp := { s.shp with cut := if s.shp.cut.contains p then s.shp.cut else s.shp.cut ++ [p] } }
  else s

/-- A change of a port's oper_state raises event 0x0301 with the port and its new state (20 Table 20-4). -/
def notePort (before s : State) (p : Nat) : State :=
  if operState before p = operState s p then s
  else eventFull s 0x0301 31 (0x4200 + p) 3 (BitVec.ofNat 64 (p + operState s p * 2 ^ 8))

/-- A lane takes a state. Entry to FAULT raises a class 3 event (02 R38, 20 Table 20-4). -/
def setLane (s : State) (n : Nat) (l : Lane) : State :=
  let p := portOfLane s n
  let entered := l.state = .fault ∧ (lane s n).state ≠ .fault
  let t := { s with net := { s.net with lanes := lset s.net.lanes n l } }
  let t := notePort s (noteDown s t p) p
  if entered then eventFull t 0x0301 31 (0x4100 + n) 5 (BitVec.ofNat 64 (n + 6 * 2 ^ 8)) else t

/-- A C2M lane's module is present when the cage whose cage_lanes names the lane is READY, or no cage names it
(18 R419, R420). -/
def modulePresent (s : State) (n : Nat) : Bool :=
  let named := (List.range 16).filter (fun c => (objGet s 0x2220 0x01 c).testBit n)
  named.isEmpty || named.any (fun c => (s.isl.cages.getD c ⟨.empty, 0, none⟩).state == .ready)

/-- The state a lane takes when its port goes up: AN, LOCKING or NO_MEDIA (02 R34, R38). A fec_request is taken up here
and not before (DESIGN CHOICE, assumption 263). -/
def bringUp (s : State) (n : Nat) : State :=
  if !islandOn s 31 then setLane s n downLane
  else if laneKind s n = 2 then
    if modulePresent s n then
      setLane s n ⟨.locking, laneMode s n, fecAsked (laneMode s n) (objGet s (0x4100 + n) 0x04 0)⟩
    else setLane s n ⟨.noMedia, 0, 0⟩
  else setLane s n ⟨.an, 0, 0⟩

/-- Auto-negotiation starts again on a lane (02 Table 2-8 an_restarts). -/
def restartAn (s : State) (n : Nat) : State :=
  setLane (count s (0xC100 + portOfLane s n) 0x10) n ⟨.an, 0, 0⟩

/-- Every lane of a list goes to DISABLED (02 R30, R32). -/
def downLanes (s : State) (ns : List Nat) : State := ns.foldl (fun s n => setLane s n downLane) s

/-- The lanes of a list whose ports are administratively up leave DISABLED (02 R30, R32). -/
def raiseLanes (s : State) (ns : List Nat) : State :=
  ns.foldl (fun s n => if adminUp s (portOfLane s n) then bringUp s n else s) s

/-- Abilities a lane advertises, in the bit order of an_advert_mask with the native PMD as bit 5 (02 R33). -/
def advertised (s : State) (n : Nat) : Nat :=
  match laneMode s n with
  | 0 => 32
  | 1 => objGet s (0x4100 + n) 0x03 0 % 32
  | m => 2 ^ (m - 2)

/-- The highest common ability of Clause 73 (02 R35): the native PMD, then the modes in falling rate. -/
def bestAbility (common : Nat) : Option Nat :=
  if common.testBit 5 then some 0
  else ((List.range 5).find? (fun i => common.testBit i)).map (· + 2)

/-- Clause 73 FEC resolution (02 R37): RS-FEC when both ask for it, BASE-R when both support it and either asks. -/
def resolveFec (mode req : Nat) (rsReq brReq brAbil : Bool) : Nat :=
  match mode with
  | 4 => if req = 0 ∧ rsReq then 2 else if brAbil ∧ (req ≠ 2 ∨ brReq) then 1 else 0
  | 5 => if brAbil ∧ (req ≠ 2 ∨ brReq) then 1 else 0
  | m => fecAsked m 0

/-- Training starts on a lane from its effective SerDes preset (02 R36, 18 R423). -/
def startTraining (s : State) (n : Nat) (l : Lane) : State :=
  setLane (takeCalib s 0 [n]) n { l with state := .training }

/-- AN_RESOLUTION (02 R35, R36, R49): a lane in AN with a common ability goes to TRAINING, or to LOCKING for 1000BASE-KX. -/
def execAnResolution (lane : BitVec 5) (abilities : BitVec 6) (rsReq brReq brAbil : Bool) (s : State) :
    Host.Outcome State Fault Refusal :=
  let n := lane.toNat
  .next (if (Sys2Proof.Machine.lane s n).state = .an then
    match bestAbility (advertised s n &&& abilities.toNat) with
    | none => s
    | some m =>
      let fec := resolveFec m (objGet s (0x4100 + n) 0x04 0) rsReq brReq brAbil
      if m = 6 then setLane s n ⟨.locking, m, fec⟩ else startTraining s n ⟨.training, m, fec⟩
    else s)

/-- TRAINING_DONE (02 R36). -/
def execTrainingDone (lane : BitVec 5) (s : State) : Host.Outcome State Fault Refusal :=
  let l := Sys2Proof.Machine.lane s lane.toNat
  .next (if l.state = .training then setLane s lane.toNat { l with state := .locking } else s)

/-- TRAINING_FAILURE (02 R36). -/
def execTrainingFailure (lane : BitVec 5) (s : State) : Host.Outcome State Fault Refusal :=
  let n := lane.toNat
  .next (if (Sys2Proof.Machine.lane s n).state = .training then
    restartAn (count s (0xC100 + portOfLane s n) 0x11) n else s)

/-- LOCK_ACQUIRED (02 R38, R39): the port is up once its last lane locks. -/
def execLockAcquired (lane : BitVec 5) (s : State) : Host.Outcome State Fault Refusal :=
  let l := Sys2Proof.Machine.lane s lane.toNat
  .next (if l.state = .locking then setLane s lane.toNat { l with state := .up } else s)

/-- A frame discarded by the MAC counts under its name, and while the device is muzzled as a muzzled discard too (02 R40, R45). -/
def discardFrame (s : State) (p sub : Nat) : State :=
  let s := count s (0xC100 + p) sub
  if s.pair.muzzled then count s (0xC100 + p) 0x07 else s

/-- LOSS_OF_LOCK (02 R38, R39): the lane negotiates or locks again; a frame being received is an FCS error. -/
def execLossOfLock (lane : BitVec 5) (midFrame : Bool) (s : State) : Host.Outcome State Fault Refusal :=
  let n := lane.toNat
  let l := Sys2Proof.Machine.lane s n
  .next (if l.state = .up then
    let s := if midFrame ∧ operUp s (portOfLane s n) then discardFrame s (portOfLane s n) 0x03 else s
    if laneKind s n = 2 then setLane s n { l with state := .locking } else restartAn s n
    else s)

/-- A lane with a fault of its PLL or SerDes (02 R38). -/
def laneFault (s : State) (n : Nat) : State :=
  if (lane s n).state = .disabled then s else setLane s n ⟨.fault, 0, 0⟩

/-- PLL_LOSS_OF_LOCK (02 R38): with the reference present, every lane of the group goes to FAULT. -/
def execPllLossOfLock (group : BitVec 2) (s : State) : Host.Outcome State Fault Refusal :=
  .next (if s.clk.holdover then s
    else
      let s := { s with net := { s.net with pllLocked := setFld s.net.pllLocked group.toNat 1 0 } }
      ((List.range 8).map (fun i => 8 * group.toNat + i)).foldl laneFault s)

/-- SERDES_FAULT (02 R38). -/
def execSerdesFault (lane : BitVec 5) (s : State) : Host.Outcome State Fault Refusal :=
  .next (laneFault s lane.toNat)

end Sys2Proof.Machine
end

