-- ==== Sys2Proof/Machine/ShpOps.lean ====
section
/-!
DEFINITION. Operations of Sheepdog (08): the tree, queues, the packet buffer, admission and flooding, policers, buckets and
eligibility, and frames that leave, go back or are discarded.
-/

namespace Sys2Proof.Machine

/-! ## The tree (08 R176) -/

/-- Object index of the nodes of a level. -/
def levelIdx (l : Nat) : Nat := 0x7100 + 0x100 * l

def parentOf (s : State) (l n : Nat) : Nat := objGet s (levelIdx l) 0x01 n

/-- The slice node, class group, port group and port of a queue, with their levels. -/
def chainOf (s : State) (q : Nat) : List (Nat × Nat) :=
  let a := parentOf s 0 q
  let b := parentOf s 1 a
  let c := parentOf s 2 b
  [(0, q), (1, a), (2, b), (3, c), (4, parentOf s 3 c)]

/-- The port at the root of a queue's chain. -/
def queuePort (s : State) (q : Nat) : Nat := parentOf s 3 (parentOf s 2 (parentOf s 1 (parentOf s 0 q)))

/-! ## Queues -/

def resetQueue : Queue :=
  { state := .disabled, pending := false, frames := [], depthHw := 0, sampled := false, sDepthB := 0, sDepthF := 0,
    sSojourn := 0, sSojournMax := 0 }

/-- A queue without its sample record. -/
def Queue.unsampled (x : Queue) : Queue := { x with sampled := false, sDepthB := 0, sDepthF := 0, sSojourn := 0, sSojournMax := 0 }

def queue (s : State) (q : Nat) : Queue := sget resetQueue s.shp.queues q

def setQueue (s : State) (q : Nat) (x : Queue) : State :=
  { s with shp := { s.shp with queues := sset resetQueue s.shp.queues q x } }

def depthBytes (x : Queue) : Nat := (x.frames.map (·.len)).sum

/-- A queue is protected when its class is (08 R183). -/
def isProtected (s : State) (q : Nat) : Bool := (objGet s 0x7000 0x01 0).testBit (objGet s 0x7100 0x13 q)

/-- gate: 1 NO_ADMIT and 3 CLOSED refuse admission, 2 NO_SERVE and 3 CLOSED stop service (08 R180). -/
def gateAdmits (s : State) (q : Nat) : Bool := objGet s 0x7100 0x14 q % 2 == 0
def gateServes (s : State) (q : Nat) : Bool := decide (objGet s 0x7100 0x14 q < 2)

def fifo (s : State) (p : Nat) : List QFrame := sget [] s.shp.fifos p

def setFifo (s : State) (p : Nat) (fs : List QFrame) : State :=
  { s with shp := { s.shp with fifos := sset [] s.shp.fifos p fs } }

/-! ## The packet buffer (08 R182, R184) -/

def onDieUsed (s : State) : Nat := ((s.shp.bufs.filter (fun b => b.2.onDie)).map (·.2.len)).sum
def overflowUsed (s : State) : Nat := ((s.shp.bufs.filter (fun b => !b.2.onDie)).map (·.2.len)).sum

/-- Where a frame of `n` bytes goes: on die while there is room, else the overflow region; none: the buffer is full. -/
def bufRoom (s : State) (n : Nat) : Option Bool :=
  if onDieUsed s + n ≤ 67108864 then some true
  else if overflowUsed s + n ≤ 8589934592 then some false
  else none

/-- A copy of a frame has left: the last one frees the buffer. -/
def bufRelease (s : State) (h : Nat) : State :=
  match sfind s.shp.bufs h with
  | none => s
  | some b =>
    { s with shp := { s.shp with
        bufs := if b.refs ≤ 1 then serase s.shp.bufs h else sput s.shp.bufs h { b with refs := b.refs - 1 } } }

/-! ## Admission (08 R181) -/

/-- A refusal counts once under its name, and on the queue it named. -/
def refuse (s : State) (q idx sub : Nat) : State := countAt (count s idx sub) 0xC0B1 0x05 q

/-- COLOUR 3 counts as green. -/
def tailLimit (s : State) (q colour : Nat) : Nat :=
  objGet s 0x7100 (if colour = 1 then 0x16 else if colour = 2 then 0x17 else 0x15) q

def colourSub (colour : Nat) : Nat := if colour = 1 then 0x09 else if colour = 2 then 0x0A else 0x08

/-- The refusal that applies to a frame of `len` bytes at queue `q`, as counter index and sub (08 R181); `egress` is the
port the queue must belong to, for unicast. A buffer handle in hand needs no room. -/
def refusal (s : State) (q : Nat) (egress : Option Nat) (colour len : Nat) (held : Bool) : Option (Nat × Nat) :=
  let p := queuePort s q
  if (queue s q).state ≠ .enabled then some (0xC0B0, 0x04)
  else if (match egress with | some e => e != p | none => false) then some (0xC0B0, 0x05)
  else if maxFrame s p < len then some (0xC100 + p, 0x0B)
  else if !gateAdmits s q then some (0xC0B0, 0x06)
  else if !operUp s p ∧ objOn s 0x7500 0x10 p ∧ !isProtected s q then some (0xC0B0, 0x07)
  else if tailLimit s q colour < depthBytes (queue s q) + len then some (0xC0B0, colourSub colour)
  else if !held ∧ (bufRoom s len).isNone then some (0xC0B0, 0x0B)
  else if isProtected s q ∧ s.pwr.hold.isSome then some (0xC220, 0x04)
  else if isProtected s q ∧ (!ledRoom s .frame || s.pwr.reqs.any (fun r => r.island == 31)) then some (0xC0B0, 0x0C)
  else none

/-- Bytes of the records that a protected frame's acceptance puts in the delta (14 R320). -/
def frameRecords (len : Nat) : Nat := 36 + 16 + (len + 15) / 16 * 16

/-- The frame takes its place in the packet buffer, or a further copy of one held. -/
def bufTake (s : State) (len : Nat) (held : Option Nat) : Nat × State :=
  match held with
  | some h =>
    (h, match sfind s.shp.bufs h with
      | some b => { s with shp := { s.shp with bufs := sput s.shp.bufs h { b with refs := b.refs + 1 } } }
      | none => s)
  | none =>
    let onDie := (bufRoom s len).getD true
    let s := if onDie then s else count s 0xC0B0 0x0F
    (s.shp.nextBuf, { s with shp := { s.shp with
      bufs := sput s.shp.bufs s.shp.nextBuf ⟨len, onDie, 1⟩, nextBuf := s.shp.nextBuf + 1 } })

/-- The frame is enqueued at the tail; a protected one is entered in the ledger, its acceptance point (01 R19). -/
def enqueue (s : State) (q len : Nat) (bytes : List Byte) (held : Option Nat) : Nat × State :=
  let b := bufTake s len held
  let h := b.1
  let s := b.2
  let prot := isProtected s q
  let sl := objGet s 0x7200 0x10 (parentOf s 0 q)
  let a : Option Nat × State :=
    if prot then
      let r := ledAccept s .frame (.frame q) sl false false (.frame h)
      (some r.1, record r.2 (.frame q h bytes))
    else (none, s)
  let s := a.2
  let released := !prot || !holding s
  let s := if released then s else count s 0xC0B0 0x10
  let x := queue s q
  let f : QFrame := ⟨h, bytes, len, q, now s, released, a.1, prot⟩
  let d := depthBytes x + len
  let s := setQueue s q { x with frames := x.frames ++ [f], depthHw := max x.depthHw d }
  let s := countN (count s 0xC0B0 0x01) 0xC0B0 0x02 len
  (h, ctrAddAt (countAt s 0xC0B1 0x01 q) 0xC0B1 0x02 q len)

/-- One item, or one flood copy, is admitted or refused; the buffer handle it is held under goes on to the next copy. -/
def admitOne (s : State) (q : Nat) (egress : Option Nat) (colour len : Nat) (bytes : List Byte) (held : Option Nat) :
    Option Nat × State :=
  match refusal s q egress colour len held.isSome with
  | some r => (held, refuse s q r.1 r.2)
  | none =>
    if isProtected s q ∧ !deltaRoom s (frameRecords len) then (held, refuse (waitRoom s) q 0xC0B0 0x0C)
    else
      let r := enqueue s q len bytes held
      (some r.1, r.2)

/-- Flood copies to each port of a mask, in ascending port number (08 R184). -/
def floodTo (s : State) (colour len : Nat) (bytes : List Byte) (held : Option Nat) : List Nat → State
  | [] => s
  | p :: ps =>
    let r := admitOne (count s 0xC0B0 0x0D) (objGet s 0x7500 0x11 p) none colour len bytes held
    floodTo r.2 colour len bytes r.1 ps

/-- Bus fields of Table 5-1. -/
def busQueue (b : Bus) : Nat := fld b 832 17
def busEgress (b : Bus) : Nat := fld b 849 5
def busFwd (b : Bus) : Nat := fld b 854 2
def busDomain (b : Bus) : Nat := fld b 856 16
def busColour (b : Bus) : Nat := fld b 872 2
def busPolicer (b : Bus) : Nat := fld b 874 16
def busOrderKey (b : Bus) : Nat := fld b 922 16
def busCipher (b : Bus) : Nat := fld b 938 12
def busKeySlot (b : Bus) : Nat := fld b 950 20
def busRewrite (b : Bus) : Nat := fld b 970 10

/-- Admission of a released item (08 R181, R184). The caller takes the item out of its pipeline. -/
def admitItem (s : State) (x : Item) : State :=
  let c := busColour x.bus
  if x.trap then (admitOne s (objGet s 0x5201 0x01 0) none c x.len x.bytes none).2
  else if busFwd x.bus = 2 then
    let ps := (List.range 32).filter (fun p => (objGet s 0x7700 0x01 (busDomain x.bus)).testBit p && p != portOfLane s x.lane)
    if ps.isEmpty then count s 0xC0B0 0x0E else floodTo s c x.len x.bytes none ps
  else (admitOne s (busQueue x.bus) (some (busEgress x.bus)) c x.len x.bytes none).2

/-! ## Policers (08 R185–R187) -/

/-- A burst in units of 1/65,536 byte. -/
def burstUnits (s : State) (n sub : Nat) : Nat := objGet s 0x7600 sub n * 65536

/-- Buckets of a policer; unlisted ones are full (08 R186, 14 R337 step 5). -/
def polGet (s : State) (n : Nat) : PolSt :=
  match sfind s.shp.pols n with
  | some p => p
  | none => ⟨burstUnits s n 0x04, burstUnits s n 0x06⟩

def polPut (s : State) (n : Nat) (p : PolSt) : State :=
  { s with shp := { s.shp with pols := sput s.shp.pols n p } }

/-- RFC 2697: green from the committed bucket, yellow from the excess bucket. -/
def srtcm (p : PolSt) (aware : Bool) (pre len : Nat) : Nat × PolSt :=
  if (!aware ∨ pre = 0) ∧ len ≤ p.first then (0, { p with first := p.first - len })
  else if (!aware ∨ pre ≠ 2) ∧ len ≤ p.second then (1, { p with second := p.second - len })
  else (2, p)

/-- RFC 2698: red past the peak bucket, yellow past the committed bucket. -/
def trtcm (p : PolSt) (aware : Bool) (pre len : Nat) : Nat × PolSt :=
  if (aware ∧ pre = 2) ∨ p.second < len then (2, p)
  else if (aware ∧ pre = 1) ∨ p.first < len then (1, { p with second := p.second - len })
  else (0, ⟨p.first - len, p.second - len⟩)

/-- Metering of a frame of `len` bytes: the new COLOUR and whether the policer drops it (08 R185–R187). -/
def meter (s : State) (n colour len : Nat) : (Nat × Bool) × State :=
  if objOn s 0x7600 0x09 n then ((colour, true), countAt (countAt s 0xC0B2 0x05 n) 0xC0B2 0x04 n)
  else
    let mode := objGet s 0x7600 0x01 n
    if mode = 0 then ((colour, false), s)
    else
      let aware := objOn s 0x7600 0x02 n
      let pre := if colour = 3 then 0 else colour
      let p := polGet s n
      let r := if mode = 1 then srtcm p aware pre (len * 65536) else trtcm p aware pre (len * 65536)
      let s := countAt (polPut s n r.2) 0xC0B2 (r.1 + 1) n
      let drop := (r.1 == 1 && objOn s 0x7600 0x07 n) || (r.1 == 2 && objOn s 0x7600 0x08 n)
      ((r.1, drop), if drop then countAt s 0xC0B2 0x04 n else s)

/-- A bucket's fill at slot 0: rate × 3.2768 µs in units of 1/65,536 byte, rounded down, after clipping (08 R186, R187). -/
def polFill (rate burst v : Nat) : Nat := min burst (min burst v + rate * 4096 * 65536 / 10000000)

/-- RFC 2697: the committed rate fills the committed bucket, and what passes its burst the excess bucket. -/
def polCredit (s : State) (n : Nat) (p : PolSt) : PolSt :=
  let r1 := objGet s 0x7600 0x03 n
  let b1 := burstUnits s n 0x04
  let b2 := burstUnits s n 0x06
  if objGet s 0x7600 0x01 n = 1 then
    let got := min b1 p.first + r1 * 4096 * 65536 / 10000000
    ⟨min b1 got, min b2 (min b2 p.second + (got - b1))⟩
  else ⟨polFill r1 b1 p.first, polFill (objGet s 0x7600 0x05 n) b2 p.second⟩

/-- POLICER_FILL at a beat boundary; a policer whose buckets are full is not listed. -/
def fillPolicers (s : State) : State :=
  let ps := (s.shp.pols.map (fun e => (e.1, polCredit s e.1 e.2))).filter
    (fun e => e.2 != ⟨burstUnits s e.1 0x04, burstUnits s e.1 0x06⟩)
  { s with shp := { s.shp with pols := ps } }

/-! ## Buckets, eligibility and the choice of a frame (08 R188–R190) -/

def byteUnits : Int := 10000000

def resetNode : NodeSt := ⟨0, 0, 0, 0, 0⟩

def nodeKey (l n : Nat) : Nat := l * 2 ^ 20 + n

def node (s : State) (l n : Nat) : NodeSt := sget resetNode s.shp.nodes (nodeKey l n)

def setNode (s : State) (l n : Nat) (x : NodeSt) : State :=
  { s with shp := { s.shp with nodes := sset resetNode s.shp.nodes (nodeKey l n) x } }

def nodeCir (s : State) (l n : Nat) : Nat := objGet s (levelIdx l) 0x04 n
def nodePir (s : State) (l n : Nat) : Nat := objGet s (levelIdx l) 0x06 n

/-- A beat's credit, never above the burst: rate × 4,096 units of 10⁻⁷ byte (08 R188). -/
def nodeCredit (rate burst : Nat) (v : Int) : Int :=
  if rate = 0 then v else min (burst * byteUnits) (v + rate * 4096)

/-- BUCKET_CREDIT of one node. -/
def creditNode (s : State) (l n : Nat) : State :=
  let x := node s l n
  setNode s l n { x with
    committed := nodeCredit (nodeCir s l n) (objGet s (levelIdx l) 0x05 n) x.committed
    peak := nodeCredit (nodePir s l n) (objGet s (levelIdx l) 0x07 n) x.peak }

/-- The nodes with a rate: those whose cir or pir object is written. -/
def ratedNodes (s : State) : List (Nat × Nat) :=
  ((s.objs.vals.filter (fun e => decide (0x7100 ≤ okeyIdx e.1) && decide (okeyIdx e.1 ≤ 0x7500)
      && okeyIdx e.1 % 256 == 0 && (okeySub e.1 == 4 || okeySub e.1 == 6))).map
    (fun e => ((okeyIdx e.1 - 0x7100) / 256, okeyEl e.1))).eraseDups

/-- BUCKET_CREDIT at a beat boundary (08 R188). -/
def creditNodes (s : State) : State := (ratedNodes s).foldl (fun s n => creditNode s n.1 n.2) s

/-- Both buckets of a queue start at 0 when it is enabled (08 R188). -/
def zeroBuckets (s : State) (l n : Nat) : State := setNode s l n { node s l n with committed := 0, peak := 0 }

def peakOk (s : State) (l n : Nat) : Bool := nodePir s l n == 0 || decide (0 ≤ (node s l n).peak)

/-- A frame is released at its enqueue, or once the delta of the beat of its enqueue is acknowledged (08 R192). -/
def frameReleased (s : State) (f : QFrame) : Bool := f.released || mayLeave s (f.since / 4096)

/-- A queue is eligible (08 R189). -/
def queueEligible (s : State) (q : Nat) : Bool :=
  let x := queue s q
  x.state != .disabled && gateServes s q && peakOk s 0 q &&
    (match x.frames with | f :: _ => frameReleased s f | [] => false)

/-- Eligible nodes of a level (08 R189). -/
def eligible (s : State) : Nat → List Nat
  | 0 => (s.shp.queues.map (·.1)).filter (queueEligible s)
  | l + 1 => (((eligible s l).map (parentOf s l)).eraseDups).filter (peakOk s (l + 1))

/-- A child is under commitment (08 R189). -/
def committedOk (s : State) (l n : Nat) : Bool := nodeCir s l n != 0 && decide (0 ≤ (node s l n).committed)

def priorityOf (s : State) (l n : Nat) : Nat := objGet s (levelIdx l) 0x02 n

/-- weight × 1,024 bytes; 0 means 256. -/
def weightOf (s : State) (l n : Nat) : Int :=
  let w := objGet s (levelIdx l) 0x03 n
  (if w = 0 then 256 else w) * 1024

def least : List Nat → Option Nat
  | [] => none
  | a :: r => match least r with | some b => some (min a b) | none => some a

/-- The first of a set of children in cyclic order from `start`. -/
def cyclic (start : Nat) (cs : List Nat) : Option Nat :=
  match least (cs.filter (fun c => decide (start ≤ c))) with
  | some c => some c
  | none => least cs

/-- The children of lowest priority value among some. -/
def topPriority (s : State) (l : Nat) (cs : List Nat) : List Nat :=
  match least (cs.map (priorityOf s l)) with
  | some p => cs.filter (fun c => priorityOf s l c == p)
  | none => []

/-- Rounds of gain until some deficit is at least 0, all of them below 0 (08 R190 rule 2). -/
def gainRounds (s : State) (l : Nat) (cs : List Nat) : Nat :=
  if cs.any (fun c => decide (0 ≤ (node s l c).deficit)) then 0
  else (least (cs.map (fun c => ((-(node s l c).deficit + weightOf s l c - 1) / weightOf s l c).toNat))).getD 0

/-- A step of the descent: the child chosen at node `n` of level `l + 1`, and the state with its pointer and deficits as
they stand once the frame of `len` bytes of that child's subtree is dequeued; `cost` is applied by the caller. -/
structure Choice where
  child  : Nat
  /-- chosen under commitment (rule 1) -/
  rule1  : Bool
  /-- rounds of gain, and the children that gain -/
  rounds : Nat
  among  : List Nat
deriving DecidableEq, Repr

/-- The choice at a node among its eligible children (08 R190). -/
def choose (s : State) (l n : Nat) (cs : List Nat) : Option Choice :=
  let x := node s (l + 1) n
  let under := cs.filter (committedOk s l)
  if !under.isEmpty then
    (cyclic x.lastC (topPriority s l under)).map (fun c => ⟨c, true, 0, []⟩)
  else
    let top := topPriority s l cs
    let k := gainRounds s l top
    let ready := top.filter (fun c => decide (0 ≤ (node s l c).deficit + k * weightOf s l c))
    (cyclic x.lastD ready).map (fun c => ⟨c, false, k, top⟩)

/-- The descent from a node of level `l`: the choices from the top down, ending at a queue. -/
def descend (s : State) : Nat → Nat → Option (List (Nat × Nat × Choice))
  | 0, _ => some []
  | l + 1, n =>
    match choose s l n ((eligible s l).filter (fun c => parentOf s l c == n)) with
    | none => none
    | some c => (descend s l c.child).map (fun r => (l + 1, n, c) :: r)

/-- What a choice leaves once its frame is dequeued (08 R190 rules 1 and 2). -/
def commitChoice (s : State) (len : Nat) (st : Nat × Nat × Choice) : State :=
  let l := st.1 - 1
  let x := node s st.1 st.2.1
  let c := st.2.2
  if c.rule1 then setNode s st.1 st.2.1 { x with lastC := c.child + 1 }
  else
    let s := setNode s st.1 st.2.1 { x with lastD := c.child + 1 }
    let s := c.among.foldl (fun s m =>
      setNode s l m { node s l m with deficit := (node s l m).deficit + c.rounds * weightOf s l m }) s
    setNode s l c.child { node s l c.child with deficit := (node s l c.child).deficit - len }

/-- Every node of the chain loses the frame's length from each bucket whose rate is not 0; none falls below −16,384
bytes (08 R188). -/
def chargeNode (s : State) (len : Nat) (ln : Nat × Nat) : State :=
  let x := node s ln.1 ln.2
  let cut (rate : Nat) (v : Int) : Int := if rate = 0 then v else max (-16384 * byteUnits) (v - len * byteUnits)
  setNode s ln.1 ln.2 { x with
    committed := cut (nodeCir s ln.1 ln.2) x.committed
    peak := cut (nodePir s ln.1 ln.2) x.peak }

/-- Children that have stopped being eligible have their deficit at 0 (08 R190 rule 3). -/
def clearDeficits (s : State) : State :=
  let live : List (List Nat) := (List.range 4).map (eligible s)
  { s with shp := { s.shp with
      nodes := (s.shp.nodes.map (fun e =>
        let l := e.1 / 2 ^ 20
        if l < 4 ∧ !((live.getD l []).contains (e.1 % 2 ^ 20)) then (e.1, { e.2 with deficit := 0 }) else e)).filter
        (fun e => e.2 != resetNode) } }

/-! ## Frames that leave, go back, or are discarded -/

/-- Bytes a frame takes on the wire, with padding and FCS (02 R43). -/
def wireLen (f : QFrame) : Nat := max 64 f.len

/-- One bit step of the reflected CRC-32 of IEEE 802.3. -/
def fcsBit (c : BitVec 32) : BitVec 32 := if c.getLsbD 0 then (c >>> 1) ^^^ 0xEDB88320#32 else c >>> 1

/-- One byte of it. -/
def fcsByte (c : BitVec 32) (b : Byte) : BitVec 32 :=
  let x := c ^^^ b.setWidth 32
  fcsBit (fcsBit (fcsBit (fcsBit (fcsBit (fcsBit (fcsBit (fcsBit x)))))))

/-- The frame check sequence, least significant byte first on the wire (PRESUMED, IEEE 802.3). -/
def fcsOf (bs : List Byte) : List Byte := leBytes 4 ((bs.foldl fcsByte 0xFFFFFFFF#32 ^^^ 0xFFFFFFFF#32).toNat)

/-- What the MAC sends for a frame (02 R43). -/
def macFrame (f : QFrame) : List Byte :=
  let data := bytesAt f.bytes 0 (f.len - 4)
  let data := data ++ List.replicate (60 - data.length) 0
  data ++ fcsOf data

/-- A protected frame that ends retires its entry with a status, after its predecessors (08 R191, R194, 13 R299, R309). -/
def retireFrame (s : State) (f : QFrame) (status detail : BitVec 8) : State :=
  match f.entry with
  | none => s
  | some i => retireRun (ledDone s i status detail) (.frame f.queue)

/-- A protected frame goes back to the head of its queue; its entry is ACCEPTED again (08 R193, 14 R340). -/
def putBack (s : State) (f : QFrame) : State :=
  let s := match f.entry with
    | some i => (match ledGet s i with
      | some e => if e.state = .running then ledPut s i { e with state := .accepted } else s
      | none => s)
    | none => s
  let x := queue s f.queue
  setQueue s f.queue { x with frames := f :: x.frames }

/-- A frame of a down port's FIFO: a protected one is put back, an unprotected one discarded (08 R193). -/
def takeBack (s : State) (f : QFrame) : State :=
  if f.isProt then putBack (count s 0xC0B0 0x11) f else bufRelease (count s 0xC0B0 0x12) f.handle

/-- PORT_DOWN_PUT_BACK of one port: the FIFO's last frame goes back first, so the order stays. -/
def emptyFifo (s : State) (p : Nat) : State :=
  let fs := fifo s p
  fs.reverse.foldl takeBack (setFifo s p [])

/-- The effects of a beat boundary on ports that are down (08 R193). -/
def portsDown (s : State) : State :=
  let s := (List.range 32).foldl (fun s p => if !operUp s p ∨ s.shp.cut.contains p then emptyFifo s p else s) s
  let s := { s with shp := { s.shp with cut := [] } }
  s.shp.queues.foldl (fun s e =>
    let p := queuePort s e.1
    if !operUp s p ∧ objOn s 0x7500 0x10 p then
      let x := queue s e.1
      let gone := x.frames.filter (fun f => !f.isProt)
      let s := setQueue s e.1 { x with frames := x.frames.filter (·.isProt) }
      gone.foldl (fun s f => bufRelease (count s 0xC0B0 0x07) f.handle) s
    else s) s

/-- QUEUE_FLUSH of one queue (08 R194). -/
def flushQueue (s : State) (q : Nat) : State :=
  let fs := (queue s q).frames
  let s := setQueue s q { queue s q with frames := [] }
  let s := fs.foldl (fun s f =>
    let s := retireFrame s f 1 0
    bufRelease (count s 0xC0B0 (if f.isProt then 0x14 else 0x13)) f.handle) s
  objPut s 0x7100 0x18 q 0

/-- The image's observation flag: 0 latency-sampling, 1 high-water (08 R195). -/
def observation (s : State) : Nat :=
  match s.tt.cur with
  | some i => hdrFld i 0x0C 1
  | none => 0

/-- Queues that are enabled or draining (08 R179). -/
def enabledQueues (s : State) : Nat := (s.shp.queues.filter (fun e => e.2.state != .disabled)).length

def recordsUsed (s : State) : Nat := (s.shp.queues.filter (fun e => e.2.sampled)).length

/-- Sample records that the current image's queues can have: as many as it declares queues, at most 16,384 (08 R195). -/
def recordLimit (s : State) : Nat :=
  match s.tt.cur with
  | some i => min 16384 (hdrFld i 0x20 32)
  | none => 16384

/-- A queue is enabled: in sampling mode it takes a sample record, or keeps the one it has when a drain ends in a latched
enable, and it starts with empty buckets (08 R179, R188, R195). -/
def enableQueue (s : State) (q : Nat) : State :=
  let x := queue s q
  let rec? := x.sampled || observation s == 0 && decide (recordsUsed s < 16384)
  zeroBuckets (setQueue s q { x with state := .enabled, pending := false, sampled := rec? }) 0 q

/-- The effect of an accepted enable write (08 R178, R179). -/
def writeEnable (s : State) (q v : Nat) : State :=
  let x := queue s q
  match x.state with
  | .disabled => if v = 1 then enableQueue s q else s
  | .enabled => if v = 0 then setQueue s q { x with state := .draining, pending := false } else s
  | .draining => setQueue s q { x with pending := v == 1 }

/-- QUEUE_DRAIN_END (08 R178): a draining queue is empty; frames in a transmit FIFO are no part of it (R194). -/
def drainEnd (s : State) (q : Nat) : State :=
  let x := queue s q
  if x.state = .draining ∧ x.frames.isEmpty then
    if x.pending then enableQueue s q
    else setQueue s q { x.unsampled with state := .disabled }
  else s

/-- LATENCY_SAMPLE of one queue (08 R195). -/
def sampleQueue (s : State) (q : Nat) : State :=
  let x := queue s q
  if x.sampled then
    let so := match x.frames with | f :: _ => min 0xFFFFFFFF (now s - f.since) | [] => 0
    setQueue s q { x with
      sDepthB := depthBytes x, sDepthF := x.frames.length, sSojourn := so, sSojournMax := max x.sSojournMax so }
  else s

/-- The sampling mode follows the current generation (08 R195): in high-water every record is let go. In sampling, the enabled
and draining queues have records up to the count that the image declares: queues that have one keep it, others take
one, in ascending order, and those above the count have none. -/
def observationChange (s : State) : State :=
  if observation s = 1 then
    { s with shp := { s.shp with queues := s.shp.queues.map (fun e => (e.1, e.2.unsampled)) } }
  else
    let live := s.shp.queues.filter (fun e => e.2.state != .disabled)
    let held := ((live.filter (·.2.sampled)) ++ (live.filter (fun e => !e.2.sampled))).map (·.1)
    let keep := held.take (recordLimit s)
    live.foldl (fun s e => setQueue s e.1 (if keep.contains e.1 then { e.2 with sampled := true } else e.2.unsampled)) s

/-- OBS_CLEAR of one queue (08 R195). -/
def obsClear (s : State) (q : Nat) : State :=
  let x := queue s q
  setQueue s q { x with depthHw := depthBytes x, sSojournMax := 0 }

end Sys2Proof.Machine
end

