-- ==== Sys2Proof/Machine/StageMem.lean ====
section
/-!
DEFINITION. The stage memories (05 R109–R113, R464, R468, R469): words and ternary entries, quarantine, the four kinds of
lookup, and table commands on one pipeline's copy (06 R146–R148).
-/

namespace Sys2Proof.Machine

/-! ## Words and ternary entries -/

def stgKey (p t b w : Nat) : Nat := ((p * 20 + t) * 16 + b) * 2048 + w

/-- What a stage word reads as before anything writes it: empty 16-byte entries. -/
def blankWord : BitVec 512 := emptyWord 128

def stgWord (s : State) (k : Nat) : BitVec 512 := sget blankWord s.stg.words k

def stgPut (s : State) (k : Nat) (w : BitVec 512) : State :=
  { s with stg := { s.stg with words := sset blankWord s.stg.words k w } }

def tcamKey (p t u : Nat) : Nat := (p * 20 + t) * 16384 + u

/-- Value and mask of the ternary entry of `n` units from unit `u`. -/
def tcamGet (s : State) (p t u : Nat) : Nat → Nat × Nat
  | 0 => (0, 0)
  | n + 1 =>
    let x := sget 0 s.stg.tcam (tcamKey p t u)
    let r := tcamGet s p t (u + 1) n
    (fld x 0 160 + 2 ^ 160 * r.1, fld x 160 160 + 2 ^ 160 * r.2)

def tcamPut (s : State) (p t u : Nat) (value mask : Nat) : Nat → State
  | 0 => s
  | n + 1 =>
    let s := { s with stg := { s.stg with tcam := sset 0 s.stg.tcam (tcamKey p t u) (tcamUnit value mask 0) } }
    tcamPut s p t (u + 1) (value >>> 160) (mask >>> 160) n

/-- Every place of a word, of `bits` bits each, has an intact control word (00 R5). -/
def wordIntact (bits : Nat) (w : BitVec 512) : Bool :=
  (List.range (512 / bits)).all (fun i => pairOk 16 (fld w (bits * i) 32))

/-- pair_fault_last (05 Table 5-12). -/
def faultLast (t idx : Nat) (tern : Bool) : Nat := idx % 2 ^ 15 + t * 2 ^ 15 + (if tern then 2 ^ 20 else 0) + 2 ^ 21

/-- QUARANTINE_WORD (05 R113). DESIGN CHOICE: the word index that pair_fault_last reports is bank × 2,048 + word
(assumption 212). -/
def quarantineWord (s : State) (p t b w : Nat) (tern : Option Nat) : State :=
  let k := stgKey p t b w
  if s.stg.quar.contains k then s
  else
    let v := faultLast t (tern.getD (b * 2048 + w)) tern.isSome
    let s := { s with stg := { s.stg with quar := s.stg.quar ++ [k], last := lset s.stg.last p (BitVec.ofNat 32 v) } }
    event (count s (0xC070 + p) 0x09) 0x0001 (1 + p) v

/-- A word is read: quarantined already, or found broken and quarantined, or intact. -/
def readWord (s : State) (p t b w bits : Nat) (tern : Option Nat) : Bool × State :=
  let k := stgKey p t b w
  if s.stg.quar.contains k then (false, s)
  else if wordIntact bits (stgWord s k) then (true, s)
  else (false, quarantineWord s p t b w tern)

/-- Several words are read. -/
def readWords (s : State) (p t bits : Nat) : List (Nat × Nat) → Bool × State
  | [] => (true, s)
  | (b, w) :: r =>
    let x := readWord s p t b w bits none
    let y := readWords x.2 p t bits r
    (x.1 && y.1, y.2)

/-- An entry: place `i` of a word. -/
def entryAt (d : BitVec 512) (w : BitVec 512) (i : Nat) : Nat := fld w (entryBits d * i) (entryBits d)

/-- An entry is written; a quarantined word is rewritten whole and leaves quarantine (05 R469). -/
def entryPut (s : State) (d : BitVec 512) (p b w i e : Nat) : State :=
  let k := stgKey p (tStage d) b w
  let old := if s.stg.quar.contains k then emptyWord (entryBits d) else stgWord s k
  let s := { s with stg := { s.stg with quar := s.stg.quar.filter (· != k) } }
  let w := setFld old (entryBits d * i) (entryBits d) e
  record (stgPut s k w) (.table 4 k w.toNat)

/-! ## Lookups (05 Table 5-2, R111, R112) -/

def eValid (e : Nat) : Bool := e.testBit 0
def eAction (e : Nat) : Nat := (e >>> 1) % 64
def ePrefix (e : Nat) : Nat := (e >>> 7) % 256
def eKey (d : BitVec 512) (e : Nat) : Nat := (e >>> 32) % 2 ^ chunksWidth (tKey d)

/-- A key with every bit below its top `len` bits set to 0. -/
def prefixOf (w len key : Nat) : Nat := key / 2 ^ (w - min len w) * 2 ^ (w - min len w)

/-- The buckets of an exact or LPM key: bank, word, and for LPM the group length, longest last. -/
def bucketsOf (d : BitVec 512) (key : Nat) : List (Nat × Nat × Nat) :=
  let kw := chunksWidth (tKey d)
  if tKind d = 0 then
    (banksOf (tBankMask d)).zipIdx.map (fun b => (b.1, tBase d + hashKey key kw (tSeed d + b.2) % tWords d, 0))
  else
    (lpmGroups d).map (fun g => (g.2.2, tBase d + hashKey (prefixOf kw g.2.1 key) kw g.1 % tWords d, g.2.1))

/-- An entry matches a key; for LPM, with the group length `len`. -/
def entryMatches (d : BitVec 512) (key len e : Nat) : Bool :=
  let kw := chunksWidth (tKey d)
  eValid e && (if tKind d = 0 then eKey d e == key else ePrefix e == len && eKey d e == prefixOf kw len key)

/-- The first matching place among buckets: (bank, word, place). -/
def findEntry (s : State) (d : BitVec 512) (p key : Nat) : List (Nat × Nat × Nat) → Option (Nat × Nat × Nat)
  | [] => none
  | (b, w, len) :: r =>
    let k := stgKey p (tStage d) b w
    if s.stg.quar.contains k then findEntry s d p key r
    else
      match (List.range (512 / entryBits d)).find? (fun i => entryMatches d key len (entryAt d (stgWord s k) i)) with
      | some i => some (b, w, i)
      | none => findEntry s d p key r

/-- LPM groups searched from the longest (05 R112). -/
def longestFirst (bs : List (Nat × Nat × Nat)) : List (Nat × Nat × Nat) := bs.mergeSort (fun x y => decide (y.2.2 ≤ x.2.2))

/-- What a lookup gives: a quarantined word was read; and on a hit the action and the action data with its width. -/
structure Hit where
  faulty : Bool
  hit    : Option (Nat × Nat × Nat)
deriving DecidableEq, Repr

/-- Where the action word of ternary index `i` lies: word and place (05 Table 5-2). -/
def actionWordAt (d : BitVec 512) (i : Nat) : Nat × Nat :=
  let per := 512 / entryBits d
  (tBase d + i / per, i % per)

/-- Action data of an entry: what follows the control word and the key (05 R111). -/
def entryData (d : BitVec 512) (e : Nat) : Nat × Nat :=
  let lo := 32 + chunksWidth (tKey d)
  (e >>> lo, entryBits d - lo)

/-- The ternary search from index `i`, `n` entries to go. Action words are counted from the region's first word without a
check against WORDS (DESIGN CHOICE, assumption 267). -/
def ternarySearch (s : State) (d : BitVec 512) (p key : Nat) (faulty : Bool) (i : Nat) : Nat → Hit × State
  | 0 => (⟨faulty, none⟩, s)
  | n + 1 =>
    let u := (tTcamBase d + i) * tcamUnits d
    let vm := tcamGet s p (tStage d) u (tcamUnits d)
    if key &&& vm.2 = vm.1 &&& vm.2 then
      let at' := actionWordAt d i
      let b := (banksOf (tBankMask d)).headD 0
      let r := readWord s p (tStage d) b at'.1 (entryBits d) (some u)
      if r.1 then
        let e := entryAt d (stgWord r.2 (stgKey p (tStage d) b at'.1)) at'.2
        if eValid e then (⟨faulty, some (eAction e, entryData d e)⟩, r.2) else ternarySearch r.2 d p key faulty (i + 1) n
      else ternarySearch r.2 d p key true (i + 1) n
    else ternarySearch s d p key faulty (i + 1) n

/-- The word of a range key (05 Table 5-2). -/
def rangeWord (d : BitVec 512) (key : Nat) : Nat :=
  let kw := chunksWidth (tKey d)
  tBase d + (key >>> (kw - min (tBucketBits d) kw)) % 2 ^ tBucketBits d % tWords d

/-- The bound that a range word hits (05 R112). -/
def rangeHit (d : BitVec 512) (w : BitVec 512) (key : Nat) : Option Nat :=
  let bw := tBoundBits d
  let v := key % 2 ^ bw
  let n := min 7 (fld w 1 6)
  let bound (i : Nat) : Nat := fld w (32 + bw * i) bw
  if fld w 0 1 = 1 then
    (List.range n).find? (fun i => decide (bound i ≤ v) && (i + 1 == n || decide (v < bound (i + 1))))
  else none

/-- One lookup of a table for a bus in pipeline `p` (05 R112, R113). -/
def lookTable (s : State) (d : BitVec 512) (p : Nat) (bus : Bus) : Hit × State :=
  let key := keyOf bus (tKey d)
  match tKind d with
  | 1 => ternarySearch s d p key false 0 (tTcamCount d)
  | 3 =>
    let b := (banksOf (tBankMask d)).headD 0
    let w := rangeWord d key
    let r := readWord s p (tStage d) b w 512 none
    if r.1 then
      let x := stgWord r.2 (stgKey p (tStage d) b w)
      (⟨false, (rangeHit d x key).map (fun i =>
        let a := fld x (32 + 7 * tBoundBits d + 32 * i) 32
        (a % 64, a / 64, 26))⟩, r.2)
    else (⟨true, none⟩, r.2)
  | _ =>
    let bs := bucketsOf d key
    let r := readWords s p (tStage d) (entryBits d) (bs.map (fun x => (x.1, x.2.1)))
    (⟨!r.1, (findEntry r.2 d p key (longestFirst bs)).map (fun x =>
      let e := entryAt d (stgWord r.2 (stgKey p (tStage d) x.1 x.2.1)) x.2.2
      (eAction e, entryData d e))⟩, r.2)

/-! ## Table commands on one pipeline's copy (06 R146–R148) -/

/-- Results of Table 6-11. -/
def rOk : Nat := 0x00
def rNotFound : Nat := 0x01
def rExists : Nat := 0x02
def rNoRoom : Nat := 0x03
def rMismatch : Nat := 0x04
def rPairFault : Nat := 0x05
def rBadEntry : Nat := 0x06
def rNoTable : Nat := 0x07
def rGenRefused : Nat := 0x08

/-- Bit of TC_DATA at which the control word lies (06 R146). -/
def ctlAt (d : BitVec 512) : Nat := if tKind d = 1 then 1280 else 0

/-- The operation writes TC_DATA: INSERT, REPLACE, COMPARE_REPLACE. -/
def opWrites (op : Nat) : Bool := op == 1 || op == 4 || op == 5

/-- Reserved bits and ACTION of the entry to write (05 R110, Table 5-4). -/
def newEntryBad (d : BitVec 512) (data : BitVec 2048) : Bool :=
  let c := fld data (ctlAt d) 16
  c.testBit 15 || (tKind d != 2 && (c >>> 7) % 256 != 0) ||
    (if tKind d = 3 then
      c.testBit 0 && ((c >>> 1) % 64 == 0 || decide (7 < (c >>> 1) % 64) ||
        (List.range ((c >>> 1) % 64)).any (fun i => decide (tActCount d ≤ fld data (32 + 7 * tBoundBits d + 32 * i) 6)))
     else decide (tActCount d ≤ (c >>> 1) % 64))

/-- The entry with VALID 0 and its control word intact. -/
def invalidated (ctl : Nat) (e : BitVec 2048) : BitVec 2048 :=
  setFld e ctl 32 (pairOf 16 (fld e ctl 16 / 2 * 2))

/-- Where a command's entry is, what it holds now, and where an INSERT goes. -/
structure Place where
  bad   : Bool
  found : Option (Nat × Nat × Nat)
  room  : Option (Nat × Nat × Nat)
  now   : BitVec 2048
deriving DecidableEq, Repr

/-- The first place with VALID 0 in a bucket list, a quarantined word counting as empty for a command that writes it. -/
def roomIn (s : State) (d : BitVec 512) (p : Nat) : List (Nat × Nat × Nat) → Option (Nat × Nat × Nat)
  | [] => none
  | (b, w, _) :: r =>
    let k := stgKey p (tStage d) b w
    if s.stg.quar.contains k then roomIn s d p r
    else
      match (List.range (512 / entryBits d)).find? (fun i => !eValid (entryAt d (stgWord s k) i)) with
      | some i => some (b, w, i)
      | none => roomIn s d p r

def quarRoom (s : State) (d : BitVec 512) (p : Nat) (bs : List (Nat × Nat × Nat)) : Option (Nat × Nat × Nat) :=
  (bs.find? (fun x => s.stg.quar.contains (stgKey p (tStage d) x.1 x.2.1))).map (fun x => (x.1, x.2.1, 0))

/-- The entry of an exact or LPM command, found by its key. -/
def keyedPlace (s : State) (d : BitVec 512) (p op : Nat) (data cmp : BitVec 2048) : Place × State :=
  let kw := chunksWidth (tKey d)
  let e := fld data 0 (entryBits d)
  let key := eKey d e
  let len := ePrefix e
  let all := bucketsOf d key
  let bs := if tKind d = 0 then all else all.filter (fun x => x.2.2 == len)
  let bad := (tKind d == 2 && (bs.isEmpty || len == 0 || prefixOf kw len key != key)) ||
    (op == 5 && eKey d (fld cmp 0 (entryBits d)) != key)
  if bad then (⟨true, none, none, 0⟩, s)
  else
    let r := readWords s p (tStage d) (entryBits d) (bs.map (fun x => (x.1, x.2.1)))
    let f := findEntry r.2 d p key bs
    let now : Nat := match f with
      | some x => entryAt d (stgWord r.2 (stgKey p (tStage d) x.1 x.2.1)) x.2.2
      | none => 0
    (⟨false, f, (roomIn r.2 d p bs).or (quarRoom r.2 d p bs), BitVec.ofNat 2048 now⟩, r.2)

/-- The entry of a ternary or range command, named by TC_INDEX. -/
def indexedPlace (s : State) (d : BitVec 512) (p index : Nat) : Place × State :=
  let b := (banksOf (tBankMask d)).headD 0
  let a := if tKind d = 1 then actionWordAt d index else (tBase d + index, 0)
  let outside := if tKind d = 1 then decide (tTcamCount d ≤ index) || decide (tBase d + tWords d ≤ a.1) else decide (tWords d ≤ index)
  if outside then (⟨true, none, none, 0⟩, s)
  else
    let u := (tTcamBase d + index) * tcamUnits d
    let r := readWord s p (tStage d) b a.1 (entryBits d) (if tKind d = 1 then some u else none)
    let e := if r.1 then entryAt d (stgWord r.2 (stgKey p (tStage d) b a.1)) a.2 else 0
    let vm := tcamGet r.2 p (tStage d) u (tcamUnits d)
    let now := if tKind d = 1 then vm.1 + vm.2 * 2 ^ 640 + e * 2 ^ 1280 else e
    (⟨false, if eValid e then some (b, a.1, a.2) else none, some (b, a.1, a.2), BitVec.ofNat 2048 now⟩, r.2)

/-- What the fields of an entry of this table occupy in TC_DATA. -/
def entryField (d : BitVec 512) (v : BitVec 2048) : Nat := fld v 0 (ctlAt d + entryBits d)

/-- The whole entry is written: the ternary entry and its action word together. -/
def writeEntry (s : State) (d : BitVec 512) (p index : Nat) (pl : Nat × Nat × Nat) (v : BitVec 2048) : State :=
  let u := (tTcamBase d + index) * tcamUnits d
  let s := if tKind d = 1 then
    record (tcamPut s p (tStage d) u (fld v 0 640) (fld v 640 640) (tcamUnits d))
      (.table 5 (tcamKey p (tStage d) u * 4 + tTcamWidth d) (fld v 0 1280)) else s
  entryPut s d p pl.1 pl.2.1 pl.2.2 (fld v (ctlAt d) (entryBits d))

/-- A command's effect on pipeline `p`'s copy of table `d`: its result, what a READ copies, and the state (06 R146–R148). -/
def stageCommand (s : State) (d : BitVec 512) (p op index : Nat) (data cmp : BitVec 2048) :
    (Nat × BitVec 2048) × State :=
  if (opWrites op && !pairOk 16 (fld data (ctlAt d) 32)) || (op == 5 && !pairOk 16 (fld cmp (ctlAt d) 32)) then
    ((rPairFault, 0), s)
  else if opWrites op && newEntryBad d data then ((rBadEntry, 0), s)
  else
    let r := if tKind d = 0 ∨ tKind d = 2 then keyedPlace s d p op data cmp else indexedPlace s d p index
    let pl := r.1
    let s := r.2
    if pl.bad then ((rBadEntry, 0), s)
    else
      match op, pl.found with
      | 1, some _ => ((rExists, 0), s)
      | 1, none =>
        match pl.room with
        | some x => ((rOk, 0), writeEntry s d p index x data)
        | none => ((rNoRoom, 0), s)
      | _, none => ((rNotFound, 0), s)
      | 2, some x => ((rOk, 0), writeEntry s d p index x (invalidated (ctlAt d) pl.now))
      | 3, some _ => ((rOk, pl.now), s)
      | 5, some x =>
        if entryField d cmp = entryField d pl.now then ((rOk, 0), writeEntry s d p index x data) else ((rMismatch, 0), s)
      | _, some x => ((rOk, 0), writeEntry s d p index x data)

/-! ## Scrub (05 R113, R468) -/

/-- Entry width by which a word is checked: that of the table of a resident or installed generation whose region holds it;
outside every region only its first control word is checked. -/
def scrubBits (s : State) (t b w : Nat) : Nat :=
  let staged := match s.tt.state with | .installed => s.tt.staged | .armed => s.tt.staged | _ => none
  let ds := ([s.tt.cur, s.tt.old, staged].filterMap id).flatMap (·.tables)
  match ds.find? (fun d => (regionsOf d).any (fun g => g.has false t b w)) with
  | some d => entryBits d
  | none => 512

/-- The scrub has found a word that fails: SCRUB of the health word (14 Table 14-2). -/
def noteScrub (s : State) (ok : Bool) : State :=
  if ok then s else { s with pair := { s.pair with scrubAt := some (islandUs s) } }

/-- One scrub slot of a stage: word `w` of its 16 banks. -/
def scrubStage (s : State) (p t : Nat) : State :=
  let w := sget 0 s.stg.scrub (20 * p + t)
  let s := (List.range 16).foldl (fun s b => let r := readWord s p t b w (scrubBits s t b w) none; noteScrub r.2 r.1) s
  { s with stg := { s.stg with scrub := sset 0 s.stg.scrub (20 * p + t) ((w + 1) % 2048) } }

/-! ## Installation (03 R64, R71) -/

/-- Words of the private regions of a stage, in order: table, bank, word. -/
def stageWords (priv : List (BitVec 512)) (t : Nat) : List (BitVec 512 × Nat × Nat) :=
  (priv.filter (fun d => tStage d == t)).flatMap (fun d =>
    (banksOf (tBankMask d)).flatMap (fun b => (List.range (tWords d)).map (fun i => (d, b, tBase d + i))))

/-- Ternary entries of the private regions of a stage: table and index. -/
def stageEntries (priv : List (BitVec 512)) (t : Nat) : List (BitVec 512 × Nat) :=
  (priv.filter (fun d => tStage d == t && tKind d == 1)).flatMap (fun d => (List.range (tTcamCount d)).map (fun i => (d, i)))

/-- Class 3 issues that an installation takes in each pipeline (03 R71). -/
def installIssues (priv : List (BitVec 512)) : Nat :=
  ((List.range 20).map (fun t => max (stageWords priv t).length (stageEntries priv t).length)).foldl max 0

/-- Initial content of a word: its last record, or empty entries. -/
def initialWord (img : Image) (d : BitVec 512) (b w : Nat) : BitVec 512 :=
  match (img.words.filter (fun r => fld r.1 0 5 == tStage d && fld r.1 5 4 == b && fld r.1 9 11 == w)).getLast? with
  | some r => r.2
  | none => emptyWord (entryBits d)

/-- Initial value and mask of the ternary units from `u`. -/
def initialTcam (img : Image) (t u : Nat) : BitVec 320 :=
  match (img.tcams.filter (fun r => fld r.1 0 5 == t &&
      decide (fld r.1 5 14 * 2 ^ fld r.1 19 2 ≤ u) && decide (u < (fld r.1 5 14 + 1) * 2 ^ fld r.1 19 2))).getLast? with
  | some r => tcamUnit r.2.1.toNat r.2.2.toNat (u - fld r.1 5 14 * 2 ^ fld r.1 19 2)
  | none => 0

/-- INSTALL_WORD: issue number `n` of pipeline `p` writes one word and one ternary entry into each stage (03 R71). -/
def installWord (s : State) (img : Image) (priv : List (BitVec 512)) (p n : Nat) : State :=
  (List.range 20).foldl (fun s t =>
    let s := match (stageWords priv t)[n]? with
      | some (d, b, w) => stgPut s (stgKey p t b w) (initialWord img d b w)
      | none => s
    match (stageEntries priv t)[n]? with
    | some (d, i) =>
      (List.range (tcamUnits d)).foldl (fun s k =>
        let u := (tTcamBase d + i) * tcamUnits d + k
        { s with stg := { s.stg with tcam := sset 0 s.stg.tcam (tcamKey p t u) (initialTcam img t u) } }) s
    | none => s) s

end Sys2Proof.Machine
end

