-- ==== Sys2Proof/Machine/Trust.lean ====
section
/-!
DEFINITION. Manifests and the slot checks (15 R348–R351).
-/

namespace Sys2Proof.Machine

/-! ## Keys and the floor (15 R350, R351) -/

/-- Bits blown in the two banks: a burn to `v` blows bits of bank 0 up to `v` and then of bank 1, at 1 ms per bit. -/
def floorBanks (s : State) : Nat × Nat :=
  let b := s.boot.banks.getD (min 255 Config.fusedBanks.1, min 255 Config.fusedBanks.2)
  match s.boot.burn with
  | none => b
  | some (v, start) =>
    let bits := (islandUs s - start) / 1000
    (max b.1 (min v (b.1 + bits)), max b.2 (min v (b.2 + (bits - (v - b.1)))))

/-- The security floor: the higher of the two banks. -/
def floorOf (s : State) : Nat := max (floorBanks s).1 (floorBanks s).2

/-- A burn ends where it stands: the island or its supply is lost. -/
def burnEnds (s : State) : State := { s with boot := { s.boot with banks := some (floorBanks s), burn := none } }

/-- Whelp blows the lower bank up to the higher. -/
def completeBanks (s : State) : State :=
  { s with boot := { s.boot with banks := some (floorOf s, floorOf s), burn := none } }

/-- key_usable: every key is fused at the factory, so a key is usable until it is revoked. -/
def keyUsable (s : State) : BitVec 4 := ~~~s.boot.revoked

/-! ## Identity (15 R363, R364) -/

/-- The identity seed: HMAC-SHA-256 under the device secret over the corrected PUF response and the text "EF3248 identity". -/
def identitySeed : List Byte :=
  hmacBytes (digestBytes Config.deviceSecret) (digestBytes Config.pufResponse ++
    [0x45, 0x46, 0x33, 0x32, 0x34, 0x38, 0x20, 0x69, 0x64, 0x65, 0x6E, 0x74, 0x69, 0x74, 0x79])

/-- The identity's private scalar, the same at every power-on. It stands in the island ECDSA engine alone. -/
def identityScalar : Nat := seedScalar identitySeed

/-- identity_public_key, X‖Y. -/
def identityKey : List Byte := ecPublic identityScalar

/-- The length of a DER item, from the bytes after its tag, and the bytes of the length field: short, or long of 1 to 4
bytes. -/
def derLength (bs : List Byte) : Option (Nat × Nat) :=
  let n := (byteAt bs 0).toNat
  if n < 0x80 then some (n, 1)
  else if 0x81 ≤ n ∧ n ≤ 0x84 then some (beNat (bytesAt bs 1 (n - 0x80)), n - 0x7F)
  else none

/-- The first DER item of a string: its tag, its content and what follows it. -/
def derItem (bs : List Byte) : Option (Byte × List Byte × List Byte) :=
  match bs with
  | [] => none
  | tag :: rest =>
    match derLength rest with
    | none => none
    | some (len, n) =>
      let body := rest.drop n
      if body.length < len then none else some (tag, body.take len, body.drop len)

/-- The items that a string holds one after the other, at most `fuel`. -/
def derItems : Nat → List Byte → List (Byte × List Byte)
  | 0, _ => []
  | fuel + 1, bs =>
    match derItem bs with
    | none => []
    | some (tag, body, rest) => (tag, body) :: derItems fuel rest

def derBody (items : List (Byte × List Byte)) (i : Nat) : List Byte := (items.getD i (0, [])).2

/-- The public key that an X.509 certificate carries, X‖Y: in tbsCertificate the subject public key information stands behind
an optional version, serial number, algorithm, issuer, validity and subject, and holds an uncompressed point. -/
def certKey (cert : List Byte) : List Byte :=
  let fields := derItems 10 (derBody (derItems 3 cert) 0)
  let fields := if (fields.headD (0, [])).1 = 0xA0 then fields.drop 1 else fields
  let point := derBody (derItems 2 (derBody fields 5)) 1
  if point.take 2 = [0, 4] ∧ point.length = 66 then ((point.drop 2).take 32).reverse ++ (point.drop 34).reverse else []

/-- The device certificate of a chain: the second of its two. -/
def deviceCert (chain : List Byte) : List Byte := derBody (derItems 2 chain) 1

/-- identity_state: 3 while the PUF response of this power-on cannot be corrected, 1 with no chain, 2 when the chain's device
certificate carries another key than the derived one, else 0. -/
def identityState (s : State) : Nat :=
  if s.boot.puf then 3
  else match s.boot.chain with
    | none => 1
    | some c => if certKey (deviceCert c) = identityKey then 0 else 2

/-- A signature r‖s by the identity key over a digest; the draw picks the number k. Nothing is signed in identity_state 3. -/
def signDigest (s : State) (d : BitVec 256) : List Byte × State :=
  (ecdsaSign identityScalar (ecScalar (Config.drbg (2 ^ 70 + s.boot.signed))) d,
    { s with boot := { s.boot with signed := s.boot.signed + 1 } })

/-! ## Manifest fields (15 Table 15-3) -/

def mfNat (m : List Byte) (off n : Nat) : Nat := leNat (bytesAt m off n)
def mfType (m : List Byte) : Nat := mfNat m 0x006 2
def mfSecurity (m : List Byte) : Nat := mfNat m 0x008 4
def mfBuild (m : List Byte) : Nat := mfNat m 0x00C 4
def mfLength (m : List Byte) : Nat := mfNat m 0x010 4
def mfKey (m : List Byte) : Nat := mfNat m 0x014 1

/-- Checks 2 to 7 of Table 15-4 on a manifest and the image copied after it, of type `ty`, with room for `room` bytes:
the first failing check, as its reason 2–7, or none. -/
def manifestFault (s : State) (m image : List Byte) (ty room : Nat) : Option Nat :=
  let len := mfLength m
  if mfNat m 0 4 ≠ 0x31464D56 ∨ mfNat m 4 2 ≠ 1 ∨ mfType m ≠ ty ∨ mfNat m 0x015 3 ≠ 0 ∨ mfNat m 0x088 312 ≠ 0 ∨
      (ty ≠ 2 ∧ mfNat m 0x018 8 ≠ 0) ∨ (ty = 3 ∧ mfNat m 0x020 8 ≠ 0) then some 2
  else if len = 0 ∨ room < len then some 3
  else if 4 ≤ mfKey m ∨ !(keyUsable s).getLsbD (mfKey m) ∨
      sha256 (bytesAt m 0x048 64) ≠ Config.signingKeyHash (mfKey m) then some 4
  else if !ecdsaVerify (bytesAt m 0x048 64) (bytesAt m 0x1C0 64) (sha256 (m.take 0x1C0)) ∨
      (ty = 3 ∧ (mfSecurity m ≠ leNat (bytesAt image 0x18 4) ∨ mfBuild m ≠ leNat (bytesAt image 0x1C 4))) then some 5
  else if shaBytes (image.take len) ≠ bytesAt m 0x028 32 then some 6
  else if mfSecurity m < floorOf s then some 7
  else none

end Sys2Proof.Machine
end

