-- ==== Sys2Proof/Machine/Verify.lean ====
section
/-!
DEFINITION. Verification of a timetable image (03 R55–R68, R465, Table 3-5; 04 R85, R95, R96; 05 R103–R111, R116, R466,
R470; 06 R127, R137): its sections, the checks in table order, and the bounds of a schedule.
-/

namespace Sys2Proof.Machine

/-! ## The header and the directory (03 R62, R63) -/

/-- A field of the header value at a byte offset. -/
def hf (h : BitVec 512) (off w : Nat) : Nat := fld h (8 * off) w

/-- The header value, bytes 0–63, and the paired word, bytes 0–127, of an image. -/
def headerOf (b : List Byte) : BitVec 512 := BitVec.ofNat 512 (leNat (b.take 64))
def headerPair (b : List Byte) : BitVec 1024 := BitVec.ofNat 1024 (leNat (b.take 128))

structure Section where
  ty   : Nat
  rsv  : Nat
  off  : Nat
  len  : Nat
  crc  : Nat
deriving DecidableEq, Repr

/-- The directory of an image. -/
def sectionsOf (b : List Byte) (h : BitVec 512) : List Section :=
  (records 16 (hf h 0x06 16) (b.drop (hf h 0x38 32))).map
    (fun e => ⟨fld e 0 16, fld e 16 16, fld e 32 32, fld e 64 32, fld e 96 32⟩)

def sectionBytes (b : List Byte) (x : Section) : List Byte := (b.drop x.off).take x.len

/-- The bytes of the first section of a type; empty where there is none. -/
def sectionOf (b : List Byte) (ss : List Section) (ty : Nat) : List Byte :=
  match ss.find? (fun x => x.ty == ty) with
  | some x => sectionBytes b x
  | none => []

/-- No two sections share a byte. -/
def disjoint : List Section → Bool
  | [] => true
  | x :: xs => xs.all (fun y => !overlaps x.off x.len y.off y.len) && disjoint xs

/-! ## The schedule (03 R55, R59, R465) -/

def rowCrcOk (r : BitVec 512) : Bool := (crc32c (leBytes 60 r.toNat)).toNat == fld r 480 32

/-- An encoding of a row that Table 3-2 does not list. -/
def rowReserved (r : BitVec 512) : Bool :=
  (List.range 4).any (fun p => let v := rowIngress r p; decide (32 ≤ v ∧ v < 0x3D) || decide (0x40 ≤ v)) ||
  (List.range 80).any (fun i => decide (2 ≤ fld r (32 + 2 * i) 2)) ||
  (List.range 8).any (fun k => let v := rowLeg r k; decide (8 ≤ v) && v != 15) ||
  (List.range 4).any (fun j => let v := rowEgress r j; decide (32 ≤ v) && v != 0xFF) ||
  (List.range 4).any (fun p => let v := rowDetour r p; decide (16 ≤ v) && v != 0xFF) ||
  (List.range 4).any (fun p => let v := rowWalk r p; decide (64 ≤ v) && v != 0xFF) ||
  (List.range 8).any (fun k => let v := rowCipher r k;
    !(decide (v < 4) || decide (0x10 ≤ v ∧ v ≤ 0x21) || v == 0xFF)) ||
  (List.range 4).any (fun k => let v := rowDma r k; decide (64 ≤ v) && v != 0xFF) ||
  fld r 416 64 != 0

/-- Indexes of the rows that satisfy a test. -/
def rowsWhere (rows : List (BitVec 512)) (f : BitVec 512 → Bool) : List Nat :=
  (rows.zipIdx.filter (fun e => f e.1)).map (·.2)

/-- Largest difference between neighbours. -/
def stepMax : List Nat → Nat
  | a :: b :: r => max (b - a) (stepMax (b :: r))
  | _ => 0

/-- Largest cyclic gap of a rising list of slots of a beat; 4,096 for none (03 R465). -/
def gapMax : List Nat → Nat
  | [] => 4096
  | a :: r => max (stepMax (a :: r)) (4096 + a - (a :: r).getLastD a)

def ingressSlots (rows : List (BitVec 512)) (p v : Nat) : List Nat := rowsWhere rows (fun r => rowIngress r p == v)

/-- Ingress slots of a lane, in any pipeline. -/
def laneSlots (rows : List (BitVec 512)) (lane : Nat) : List Nat :=
  rowsWhere rows (fun r => (List.range 4).any (fun p => rowIngress r p == lane))

def countLegs (n : Nat) (f : Nat → Bool) : Nat := ((List.range n).filter f).length

def egressOpps (rows : List (BitVec 512)) (lane : Nat) : Nat :=
  (rows.map (fun r => countLegs 4 (fun j => rowEgress r j == lane))).sum

def cipherGrants (rows : List (BitVec 512)) : Nat :=
  (rows.map (fun r => countLegs 8 (fun k => rowCipher r k != 0xFF))).sum

/-- A frame or return slot. -/
def fedSlot (v : Nat) : Bool := decide (v < 32) || v == 0x3D

def controlSlots (rows : List (BitVec 512)) (p : Nat) : List Nat := ingressSlots rows p 0x3E

/-- The bounds that the device computes (03 R465, Table 3-12): lane records, then pipeline records, as byte strings. -/
def boundsOf (rows : List (BitVec 512)) : List Byte :=
  (List.range 32).flatMap (fun n =>
    let xs := laneSlots rows n
    leBytes 2 xs.length ++ leBytes 2 (gapMax xs) ++ leBytes 2 (egressOpps rows n) ++ leBytes 2 0) ++
  (List.range 4).flatMap (fun p =>
    leBytes 2 (controlSlots rows p).length ++ leBytes 2 (ingressSlots rows p 0x3D).length ++ leBytes 4 0)

/-- Every pipeline has 64 control slots, none further apart than 128, and TLEG owner 6 has 64 legs (03 R59). -/
def controlOk (rows : List (BitVec 512)) (h : BitVec 512) : Bool :=
  let per := (List.range 4).map (controlSlots rows)
  per.all (fun xs => decide (64 ≤ xs.length) && decide (gapMax xs ≤ 128)) &&
    decide (64 ≤ (rows.map (fun r => countLegs 8 (fun k => rowLeg r k == 6))).sum) &&
    hf h 0x2C 16 == ((per.map List.length).min?.getD 0) && hf h 0x2E 16 == ((per.map gapMax).max?.getD 0)

/-- Pipeline of a lane in a header (Table 3-3). -/
def mapLane (h : BitVec 512) (lane : Nat) : Nat := fld h (8 * 0x30 + 2 * lane) 2

def laneMapOk (rows : List (BitVec 512)) (h : BitVec 512) : Bool :=
  rows.all (fun r => (List.range 4).all (fun p => decide (32 ≤ rowIngress r p) || mapLane h (rowIngress r p) == p)) &&
    (List.range 32).all (fun n => mapLane h n == mapLane h (n / 8 * 8)) && hf h 0x24 32 == cipherGrants rows

def scrubOk (rows : List (BitVec 512)) : Bool :=
  rows.all (fun r => (List.range 4).all (fun p =>
    rowIngress r p == 0x3F || (List.range 20).all (fun t => rowPort r p t == 0)))

def legOwned (rows : List (BitVec 512)) (s p : Nat) : Bool :=
  (List.range 8).any (fun k => rowLeg (rows.getD (s % 4096) 0) k == p)

def legDemandOk (rows : List (BitVec 512)) (a : Nat) : Bool :=
  rows.zipIdx.all (fun e => (List.range 4).all (fun p => !fedSlot (rowIngress e.1 p) || legOwned rows (e.2 + a) p))

/-! ## The layout section (05 R466) -/

structure LayoutParts where
  hdr      : BitVec 512
  shared   : BitVec 512
  maps     : List (List Nat)
  tables   : List (BitVec 512)
  actions  : List (BitVec 512)
  profiles : List (BitVec 1024)
  words    : List (BitVec 64 × BitVec 512)
  tcams    : List (BitVec 64 × BitVec 640 × BitVec 640)
  /-- length that the parts add up to -/
  size     : Nat
deriving DecidableEq, Repr

def layoutParts (b : List Byte) : LayoutParts :=
  let h := BitVec.ofNat 512 (leNat (b.take 64))
  let nt := fld h 0 16
  let na := fld h 16 16
  let np := fld h 32 16
  let nw := fld h 64 32
  let nc := fld h 96 32
  let b1 := b.drop 128
  let b2 := b1.drop 16384
  let b3 := b2.drop (64 * nt)
  let b4 := b3.drop (64 * na)
  let b5 := b4.drop (128 * np)
  let b6 := b5.drop (72 * nw)
  { hdr := h
    shared := BitVec.ofNat 512 (leNat ((b.drop 64).take 64))
    maps := (chunks 4096 4 b1).map (fun m => m.map BitVec.toNat)
    tables := records 64 nt b2
    actions := records 64 na b3
    profiles := records 128 np b4
    words := (chunks 72 nw b5).map (fun r =>
      (BitVec.ofNat 64 (leNat (r.take 8)), BitVec.ofNat 512 (leNat (r.drop 8))))
    tcams := (chunks 168 nc b6).map (fun r =>
      (BitVec.ofNat 64 (leNat (r.take 8)), BitVec.ofNat 640 (leNat ((r.drop 8).take 80)), BitVec.ofNat 640 (leNat (r.drop 88))))
    size := 128 + 16384 + 64 * nt + 64 * na + 128 * np + 72 * nw + 168 * nc }

/-- Entry offset I[t] of a layout header (05 Table 5-14). -/
def layoutOffset (h : BitVec 512) (t : Nat) : Nat := fld h (128 + 16 * t) 16

/-- A bus range that actions never write (05 R108). -/
def busRangeKept (lo w : Nat) : Bool :=
  decide (lo < 224) || overlaps lo w 768 64 || overlaps lo w 890 18 || decide (980 < lo + w)

/-- A range that meets MATCH_SET (05 Table 5-1). -/
def meetsMatch (lo w : Nat) : Bool := overlaps lo w 96 128

/-- A reserved encoding of a primitive word (05 Tables 5-5 and 5-6, R108, R470, 06 R137); `trees` is TREE_COUNT. -/
def primReserved (trees : Nat) (p : BitVec 64) : Bool :=
  decide (12 < pOp p) || (pOp p == 1 && decide (32 < pWidth p)) ||
    (decide (1 ≤ pOp p ∧ pOp p ≤ 4) && busRangeKept (pDst p) (pWidth p)) ||
    (pOp p == 2 && decide (1024 < pSrc p + pWidth p)) || (pOp p == 12 && decide (2 ^ 13 ≤ pImm p)) ||
    (pOp p == 9 && decide (trees ≤ pImm p % 256))

/-- A primitive in stages 0–11 whose source meets MATCH_SET (05 R108). -/
def primEarlyMatch (t : Nat) (p : BitVec 64) : Bool :=
  decide (t < 12) && pOp p == 2 && meetsMatch (pSrc p) (pWidth p)

/-- A reserved encoding of a table descriptor (05 R110, Table 5-3). -/
def descReserved (actions : Nat) (d : BitVec 512) : Bool :=
  let nb := (banksOf (tBankMask d)).length
  decide (19 < tStage d) || tUnits d == 3 || fld d 89 1 != 0 || decide (2047 < tBase d) || tWords d == 0 ||
    decide (2048 < tWords d) || decide (16384 < tTcamCount d) || tTcamWidth d == 3 || fld d 190 2 != 0 ||
    fld d 420 92 != 0 || tKeyCount d == 0 || decide (10 < tKeyCount d) ||
    (tKey d).any (fun c => decide (1024 < c.1 + c.2)) ||
    (match tKind d with
      | 0 => nb != 2
      | 2 => (List.range 8).any (fun g => decide (128 < tGroupLen d g)) || nb != (lpmGroups d).length || nb == 0
      | 3 => nb != 1 || decide (15 < tBucketBits d)
      | _ => nb != 1) ||
    decide (tActCount d ≤ tMiss d) || decide (actions < tActBase d + tActCount d) ||
    (decide (tStage d < 12) && (tKey d).any (fun c => meetsMatch c.1 c.2))

/-- Group lengths strictly ascending from group 0 and at most `most` (06 R127). -/
def lensBad (most : Nat) (ls : List Nat) : Bool :=
  let used := ls.takeWhile (· != 0)
  ls.any (fun l => decide (most < l)) || (ls.drop used.length).any (· != 0) ||
    (used.zip (used.drop 1)).any (fun e => decide (e.2 ≤ e.1))

/-- A reserved encoding of the shared access descriptor (06 R127). ADDR_OFF counts as 128 bits when an LPM6 group is in
use and as 32 otherwise (DESIGN CHOICE, assumption 268); a FLOW_KEY wider than 320 bits is no reserved encoding (DESIGN
CHOICE, assumption 269). -/
def sharedReserved (d : BitVec 512) : Bool :=
  let past (off w : Nat) : Bool := decide (1024 < off + w)
  fld d 14 2 != 0 || fld d 194 62 != 0 || fld d 420 92 != 0 ||
    lensBad 32 ((List.range 8).map (shLen4 d)) || lensBad 64 ((List.range 8).map (shLen6 d)) ||
    past (shDa d) 48 || past (shSa d) 48 || past (shDomain d) 16 || past (shVrf d) 10 ||
    past (shAddr d) (if (List.range 8).any (fun g => shLen6 d g != 0) then 128 else 32) ||
    (shOn d 3 && shFlowCount d == 0) || decide (10 < shFlowCount d) || (shFlowKey d).any (fun c => past c.1 c.2)

/-- The place of an entry's control word, and the ACTION values that an image's word record gives (05 R110, R111). -/
def wordActions (d : BitVec 512) (w : BitVec 512) : List Nat :=
  if tKind d = 3 then
    (List.range (min 7 (fld w 1 6))).map (fun i => fld w (32 + 7 * tBoundBits d + 32 * i) 6)
  else (List.range (512 / entryBits d)).map (fun i => fld w (entryBits d * i + 1) 6)

/-- Reserved bits of the control words of a word record: bit 15, PREFIX_LEN outside LPM, and COUNT of a valid range word
(05 Table 5-4). -/
def wordReserved (d : BitVec 512) (w : BitVec 512) : Bool :=
  (List.range (512 / entryBits d)).any (fun i =>
    let c := fld w (entryBits d * i) 16
    c.testBit 15 || (tKind d != 2 && (c >>> 7) % 256 != 0) ||
      (tKind d == 3 && c.testBit 0 && ((c >>> 1) % 64 == 0 || decide (7 < (c >>> 1) % 64))))

/-- A word record outside every private region, with a reserved bit set, or with an ACTION out of range (05 R110, R466). -/
def wordRecordBad (priv : List (BitVec 512)) (r : BitVec 64 × BitVec 512) : Bool :=
  let t := fld r.1 0 5
  let b := fld r.1 5 4
  let w := fld r.1 9 11
  fld r.1 20 44 != 0 ||
    (match priv.find? (fun d => (regionsOf d).any (fun g => g.has false t b w)) with
      | none => true
      | some d => wordReserved d r.2 || (wordActions d r.2).any (fun a => decide (tActCount d ≤ a)))

/-- A ternary record outside every private region, or with bits above its width (05 R466). -/
def tcamRecordBad (priv : List (BitVec 512)) (r : BitVec 64 × BitVec 640 × BitVec 640) : Bool :=
  let t := fld r.1 0 5
  let i := fld r.1 5 14
  let w := fld r.1 19 2
  fld r.1 21 43 != 0 || w == 3 || decide (2 ^ (160 * 2 ^ w) ≤ r.2.1.toNat) || decide (2 ^ (160 * 2 ^ w) ≤ r.2.2.toNat) ||
    !((List.range (2 ^ w)).all (fun u =>
      priv.any (fun d => (regionsOf d).any (fun g => g.has true t 0 (i * 2 ^ w + u)))))

/-- A reserved encoding of an edit word (05 Table 5-11). -/
def editReserved (e : Nat) : Bool :=
  decide (2 ^ 31 ≤ e) || (decide (e % 4 < 2) && decide ((e >>> 19) % 1024 % 8 ≠ 0))

/-- What the layout section holds that is refused with 0x15. -/
def layoutReserved (l : LayoutParts) (len trees : Nat) (rows cur : List (BitVec 512)) : Bool :=
  let priv := privateTables cur l.tables
  len != l.size || fld l.hdr 48 16 != 0 || fld l.hdr 448 64 != 0 || sharedReserved l.shared ||
    l.tables.any (descReserved l.actions.length) ||
    l.actions.any (fun a => (List.range 8).any (fun i => primReserved trees (primAt a i))) ||
    l.tables.any (fun d => (tableActions l.actions d).any (fun a =>
      (List.range 8).any (fun i => primEarlyMatch (tStage d) (primAt a i)))) ||
    l.profiles.any (fun p => (List.range 16).any (fun i => editReserved (fld p (64 * i) 64))) ||
    l.maps.zipIdx.any (fun m => (m.1.zip rows).any (fun e => e.1 != 0 && rowIngress e.2 m.2 != 0x3D)) ||
    l.words.any (wordRecordBad priv) || l.tcams.any (tcamRecordBad priv)

/-- R105: every return row names a re-entry stage, and the position it takes is an idle row's. -/
def returnsOk (l : LayoutParts) (rows : List (BitVec 512)) : Bool :=
  l.maps.zipIdx.all (fun m => (ingressSlots rows m.2 0x3D).all (fun s =>
    let u := m.1.getD s 0
    decide (1 ≤ u ∧ u ≤ 19) &&
      rowIngress (rows.getD ((s + 8 * 8192 - layoutOffset l.hdr u) % 4096) 0) m.2 == 0x3F))

/-- Re-entry stages that the return rows of a pipeline use. -/
def reentries (maps : List (List Nat)) (rows : List (BitVec 512)) (p : Nat) : List Nat :=
  dedup ((ingressSlots rows p 0x3D).map (fun s => (maps.getD p []).getD s 0))

/-- R106, R107, R137: what stage `t` of a table may do. -/
def placementOk (l : LayoutParts) (rows : List (BitVec 512)) (a : Nat) (d : BitVec 512) : Bool :=
  let t := tStage d
  let late := decide (a + 24 ≤ layoutOffset l.hdr t)
  let ops := ((tableActions l.actions d).flatMap actionPrims).map pOp
  (late || !((tKey d).any (fun c => overlaps c.1 c.2 768 63))) && (late || !(ops.contains 12)) &&
    (!(ops.contains 8 || ops.contains 9) ||
      (late && decide (t < 19) && (List.range 4).all (fun p =>
        !(rows.any (fun r => decide (rowIngress r p < 32))) || (reentries l.maps rows p).contains (t + 1))))

/-- R109: at most one table of a kind in a stage, and disjoint banks. -/
def stagesOk : List (BitVec 512) → Bool
  | [] => true
  | d :: ds =>
    ds.all (fun e => tStage e != tStage d || (tKind e != tKind d && tBankMask e &&& tBankMask d == 0)) && stagesOk ds

/-- Room of a table: words, key and control word, ternary entries (05 R110, R111, Table 5-3). DESIGN CHOICE: ternary entries past
the 16,384 units of a stage, and a key wider than its ternary entry, are refused here too (assumption 213). -/
def tableFits (d : BitVec 512) : Bool :=
  let kw := chunksWidth (tKey d)
  decide (tBase d + tWords d ≤ 2048) && (tKind d == 3 || decide (32 + kw ≤ entryBits d)) &&
    (tKind d != 1 || (decide ((tTcamBase d + tTcamCount d) * tcamUnits d ≤ 16384) && decide (kw ≤ 160 * tcamUnits d)))

/-- What the layout section holds that is refused with 0x1A (05 R103–R111, R466). DESIGN CHOICE: so is an ACTION_TOTAL of 0,
which lies below its range (assumption 214). -/
def layoutFits (l : LayoutParts) (rows : List (BitVec 512)) (a base : Nat) : Bool :=
  let i := layoutOffset l.hdr
  decide (l.tables.length ≤ 80) && decide (1 ≤ l.actions.length ∧ l.actions.length ≤ 1024) &&
    decide (l.profiles.length ≤ 1023) && decide (l.words.length ≤ 655360) && decide (l.tcams.length ≤ 327680) &&
    i 0 == 32 && (List.range 19).all (fun t => decide (i t + 4 ≤ i (t + 1))) && decide (i 19 + 16 ≤ base) &&
    returnsOk l rows && stagesOk l.tables && l.tables.all tableFits && l.tables.all (placementOk l rows a)

/-! ## Parse graph, patterns and trees -/

structure GraphParts where
  start : Nat
  nodes : List (BitVec 128)
  trans : List (BitVec 128)
  extr  : List (BitVec 64)
deriving DecidableEq, Repr

def graphParts (b : List Byte) : GraphParts :=
  let h := BitVec.ofNat 128 (leNat (b.take 16))
  let n := fld h 0 8
  let t := fld h 16 16
  ⟨fld h 8 8, records 16 n (b.drop 16), records 16 t (b.drop (16 + 16 * n)),
    records 8 (fld h 32 16) (b.drop (16 + 16 * n + 16 * t))⟩

/-- What the parse graph holds that is refused with 0x15 (04 R85). -/
def graphReserved (b : List Byte) (g : GraphParts) : Bool :=
  let n := g.nodes.length
  n == 0 || fld (BitVec.ofNat 128 (leNat (b.take 16))) 48 80 != 0 || decide (n ≤ g.start) ||
    b.length != 16 + 16 * n + 16 * g.trans.length + 8 * g.extr.length ||
    g.nodes.any (fun x =>
      decide (32 < pnSelWidth x) || decide (256 < pnTrCount x) || decide (10 < pnRole x) || pnCheck x 7 ||
        fld x 127 1 != 0 || decide (g.trans.length < pnTrBase x + pnTrCount x) ||
        decide (g.extr.length < pnExBase x + pnExCount x) || (pnDefault x != 0xFF && decide (n ≤ pnDefault x))) ||
    g.trans.any (fun t => fld t 72 56 != 0 || (ptNext t != 0xFF && decide (n ≤ ptNext t))) ||
    g.extr.any (fun e => fld e 25 39 != 0 || exDst e % 8 != 0 || decide (exDst e < 224) ||
      decide (672 < exDst e + 8 * exLen e))

structure PatternParts where
  hdr      : BitVec 128
  entries  : List (BitVec 64)
  classes  : List (BitVec 256)
deriving DecidableEq, Repr

def patternParts (b : List Byte) : PatternParts :=
  let h := BitVec.ofNat 128 (leNat (b.take 16))
  ⟨h, records 8 (fld h 0 32) (b.drop 16), records 32 (fld h 32 16) (b.drop (fld h 64 32))⟩

def patternOf (b : List Byte) (e : BitVec 64) : Pattern :=
  let n := if fld e 0 8 = 0 then 256 else fld e 0 8
  ⟨n, fld e 8 5, fld e 13 1 == 1, fld e 14 1 == 1, fld e 16 9, (b.drop (fld e 32 32)).take n⟩

/-- What the pattern set holds that is refused with 0x15 (04 R95). -/
def patternsReserved (b : List Byte) (q : PatternParts) (ps : List Pattern) : Bool :=
  fld q.hdr 48 16 != 0 || decide (b.length < 16 + 8 * q.entries.length) ||
    (q.classes.length != 0 && decide (b.length < fld q.hdr 64 32 + 32 * q.classes.length)) ||
    q.entries.any (fun e => fld e 15 1 != 0 || fld e 25 7 != 0) ||
    ps.any (fun p => (p.classes && !p.anchored) || (p.anchored && decide (512 < p.anchor + p.len)) ||
      p.body.length != p.len || (p.classes && p.body.any (fun c => decide (q.classes.length ≤ c.toNat))))

structure TreeParts where
  hdr   : BitVec 128
  trees : List (BitVec 256)
  nodes : List (BitVec 512)
  rules : List (BitVec 768)
deriving DecidableEq, Repr

def treeParts (b : List Byte) : TreeParts :=
  let h := BitVec.ofNat 128 (leNat (b.take 16))
  let t := fld h 0 16
  let n := fld h 32 32
  ⟨h, records 32 t (b.drop 16), records 64 n (b.drop (16 + 32 * t)),
    records 96 (fld h 64 32) (b.drop (16 + 32 * t + 64 * n))⟩

/-- What the trees section holds that is refused with 0x15 (05 Tables 5-7 to 5-9). -/
def treesReserved (b : List Byte) (q : TreeParts) (actions : Nat) : Bool :=
  b.length != 0 &&
    (b.length != 16 + 32 * q.trees.length + 64 * q.nodes.length + 96 * q.rules.length || fld q.hdr 16 16 != 0 ||
      fld q.hdr 96 32 != 0 ||
      q.trees.any (fun t => decide (q.nodes.length ≤ trRoot t) || trKeyCount t == 0 || decide (10 < trKeyCount t) ||
        fld t 52 12 != 0 || fld t 224 32 != 0 || decide (320 < chunksWidth (trKey t)) ||
        (trKey t).any (fun c => decide (1024 < c.1 + c.2)) || decide (actions ≤ trActBase t + trDefault t)) ||
      q.nodes.any (fun n => decide (1 < fld n 0 2) || fld n 2 14 != 0 || fld n 44 20 != 0 || fld n 101 411 != 0 ||
        (if tnLeaf n then decide (16 < tnRules n) || decide (q.rules.length < tnBase n + tnRules n)
         else decide (320 < tnCutOff n + tnCutBits n) || decide (q.nodes.length < tnBase n + 2 ^ tnCutBits n))) ||
      q.rules.any (fun r => fld r 7 9 != 0 || ruleValue r &&& ruleMask r != ruleValue r))

/-- The internal nodes among some, and their children. -/
def innerNodes (nodes : List (BitVec 512)) (xs : List Nat) : List Nat := xs.filter (fun i => !tnLeaf (nodes.getD i 1))

def childNodes (nodes : List (BitVec 512)) (xs : List Nat) : List Nat :=
  dedup ((innerNodes nodes xs).flatMap (fun i =>
    (List.range (2 ^ tnCutBits (nodes.getD i 0))).map (fun k => tnBase (nodes.getD i 0) + k)))

/-- Some path from `xs` has more than `k` internal nodes (05 R116). -/
def pathOver (nodes : List (BitVec 512)) : Nat → List Nat → Bool
  | 0, xs => !(innerNodes nodes xs).isEmpty
  | k + 1, xs => pathOver nodes k (childNodes nodes xs)

def treesFit (q : TreeParts) (resident : Nat) : Bool :=
  decide (q.trees.length ≤ 256) && decide (q.rules.length ≤ 16777216) &&
    decide (resident + 64 * q.nodes.length + 96 * q.rules.length ≤ 2147483648) &&
    q.trees.all (fun t => !pathOver q.nodes 16 [trRoot t])

/-! ## Verification -/

/-- Bytes that a generation's trees take (03 R65). -/
def treeBytes (i : Option Image) : Nat :=
  match i with
  | some i => 64 * i.tnodes.length + 96 * i.trules.length
  | none => 0

/-- Grants per beat at a side-channel level (03 R68). -/
def cipherCapacity (level : Nat) : Nat := if level = 1 then 26240 else if level = 2 then 20992 else 13120

/-- The seam check (03 R67); the rows of an image repeat every beat (assumption 195). -/
def seamOk (cur : Image) (rows : List (BitVec 512)) (maps : List (List Nat)) (a : Nat) : Bool :=
  let ca := hdrFld cur 0x2A 16
  (List.range 4).all (fun p =>
    (List.range (max ca a)).all (fun r =>
      let old : Nat := if r < ca ∧ fedSlot (rowIngress (cur.rows.getD ((4096 * 17 - ca + r) % 4096) 0) p) then 1 else 0
      let new : Nat := if a ≤ r ∧ fedSlot (rowIngress (rows.getD ((r - a) % 4096) 0) p) then 1 else 0
      decide (old + new ≤ countLegs 8 (fun k => rowLeg (rows.getD (r % 4096) 0) k == p))) &&
    (reentries cur.maps cur.rows p).all (fun u => (reentries maps rows p).contains u))

/-- Regions of the tables of a resident generation. -/
def residentRegions (i : Option Image) : List Region :=
  match i with
  | some i => i.tables.flatMap regionsOf
  | none => []

/-- R64 and R127. -/
def regionsOk (s : State) (l : LayoutParts) : Bool :=
  let cur := match s.tt.cur with | some i => i.tables | none => []
  let busy := residentRegions s.tt.cur ++ residentRegions s.tt.old
  (match s.fwd.lens with | some x => x == shLens l.shared | none => true) &&
    ((privateTables cur l.tables).flatMap regionsOf).all (fun g => busy.all (fun x => !g.meets x))

/-- A header field that Table 3-3 or R56 reserves. -/
def headerReserved (h : BitVec 512) : Bool :=
  let a := hf h 0x2A 16
  fld h (8 * 0x0C + 1) 31 != 0 || hf h 0x20 32 == 0 || decide (131072 < hf h 0x20 32) || hf h 0x28 16 == 0 ||
    decide (a < 32) || decide (hf h 0x28 16 < a)

/-- The occurrence rules of Table 3-4, and the lengths it fixes. -/
def occurrenceBad (ss : List Section) : Bool :=
  let n (k : Nat) : Nat := (ss.filter (fun x => x.ty == k)).length
  ss.any (fun x => x.ty == 0 || decide (6 < x.ty) || x.rsv != 0) || [1, 2, 4, 5, 6].any (fun k => n k != 1) ||
    decide (1 < n 3) || ss.any (fun x => (x.ty == 5 && x.len != 262144) || (x.ty == 6 && x.len != 288))

/-- Reserved fields of the bounds section (03 Table 3-12). -/
def boundsReserved (b : List Byte) : Bool :=
  (List.range 32).any (fun n => leNat (bytesAt b (8 * n + 6) 2) != 0) ||
    (List.range 4).any (fun p => leNat (bytesAt b (256 + 8 * p + 4) 4) != 0)

/-- The first check of a list that holds, as its reason. -/
def firstReason : List (Nat × Bool) → Option Nat
  | [] => none
  | (r, bad) :: cs => if bad then some r else firstReason cs

/-- The checks of Table 3-5 on the staging bytes `b`, in table order. DESIGN CHOICE: the limit of 2 MiB of pattern bodies is
judged by BODY_BYTES alone (04 R96, assumption 215). `manifest` is the page below them, `locked` says
whether the range could be locked. -/
def verifyImage (s : State) (b manifest : List Byte) (src len : Nat) (locked : Bool) : Nat ⊕ Image :=
  let h := headerOf b
  let ss := sectionsOf b h
  let rows := records 64 4096 (sectionOf b ss 5)
  let l := layoutParts (sectionOf b ss 2)
  let g := graphParts (sectionOf b ss 1)
  let q := patternParts (sectionOf b ss 4)
  let ps := q.entries.map (patternOf (sectionOf b ss 4))
  let tr := treeParts (sectionOf b ss 3)
  let cur := match s.tt.cur with | some i => i.tables | none => []
  let a := hf h 0x2A 16
  let lanes (p : Nat) : Nat := ((List.range 32).filter (fun n => mapLane h n == p)).length
  match firstReason [
    (0x12, decide (len < 128)),
    (0x10, !pairOk 512 (headerPair b).toNat),
    (0x11, hf h 0 32 != 0x52464E31 || hf h 4 16 != 1 || decide (hf h 6 16 < 5) || decide (16 < hf h 6 16)),
    (0x12, len != hf h 8 32 || !locked || decide (len < hf h 0x38 32 + 16 * hf h 6 16) ||
      ss.any (fun x => decide (len < x.off + x.len)) || !disjoint ss),
    (0x13, (crc32c ((b.drop (hf h 0x38 32)).take (16 * hf h 6 16))).toNat != hf h 0x3C 32 ||
      ss.any (fun x => (crc32c (sectionBytes b x)).toNat != x.crc)),
    (0x14, (records 64 (min 4096 ((sectionOf b ss 5).length / 64)) (sectionOf b ss 5)).any (fun r => !rowCrcOk r)),
    (0x15, headerReserved h || occurrenceBad ss || rows.any rowReserved || boundsReserved (sectionOf b ss 6) ||
      graphReserved (sectionOf b ss 1) g || patternsReserved (sectionOf b ss 4) q ps ||
      layoutReserved l (sectionOf b ss 2).length tr.trees.length rows cur ||
      treesReserved (sectionOf b ss 3) tr l.actions.length),
    (0x16, !controlOk rows h),
    (0x17, !laneMapOk rows h),
    (0x18, !scrubOk rows),
    (0x19, !legDemandOk rows a),
    (0x1A, decide (4096 < g.trans.length) || decide (1024 < g.extr.length) || decide (65536 < q.entries.length) ||
      decide (256 < q.classes.length) || decide (2097152 < fld q.hdr 96 32) ||
      (List.range 4).any (fun p => decide (12 < lanes p)) || !layoutFits l rows a (hf h 0x28 16) ||
      !treesFit tr (treeBytes s.tt.cur + treeBytes s.tt.old)),
    (0x1B, hf h 0x0C 1 == 0 && decide (16384 < hf h 0x20 32)),
    (0x1C, decide (cipherCapacity (objGet s 0x8000 0x01 0) < hf h 0x24 32)),
    (0x1D, !regionsOk s l),
    (0x1E, match s.tt.cur with | some c => !seamOk c rows l.maps a | none => false),
    (0x1F, boundsOf rows != sectionOf b ss 6),
    (0x20, (manifestFault s (manifest.take 512) b 3 len).isSome)] with
  | some r => .inl r
  | none => .inr
    { hdr := h, stored := headerPair b, rows := rows, start := g.start, pnodes := g.nodes, ptrans := g.trans,
      pextr := g.extr, patterns := ps, classes := q.classes, bodyBytes := fld q.hdr 96 32,
      offsets := (List.range 20).map (layoutOffset l.hdr) ++ [hf h 0x28 16], shared := l.shared, maps := l.maps,
      tables := l.tables, actions := l.actions, profiles := l.profiles, words := l.words, tcams := l.tcams,
      trees := tr.trees, tnodes := tr.nodes, trules := tr.rules, src := src, len := len,
      treeAt := 0 }

end Sys2Proof.Machine
end

