-- ==== Sys2Proof/Machine/Timetable.lean ====
section
/-!
DEFINITION. The timetable load interface (03 R66–R81): its commands, and what a beat boundary does to the resident images.
-/

namespace Sys2Proof.Machine

/-- The load interface takes a new value; a change of ARMED or of GEN is kept for frames being received (04 R100), as long as
one can last (02 R39: 40 beats). -/
def ttSet (s : State) (t : Tt) : State :=
  let was := (s.tt.state == .armed, s.tt.gen)
  if was = (t.state == .armed, t.gen) then { s with tt := t }
  else { s with tt := { t with past := (now s, was.1, was.2) :: s.tt.past.filter (fun e => decide (now s ≤ e.1 + 41 * 4096)) } }

/-- Whether the state was ARMED, and GEN, at a moment. -/
def ttAt (s : State) (m : Nat) : Bool × Bool :=
  match (s.tt.past.filter (fun e => decide (m < e.1))).getLast? with
  | some e => e.2
  | none => (s.tt.state == .armed, s.tt.gen)

def ttReason (s : State) (r : BitVec 8) : State := ttSet s { s.tt with reason := r }

/-- "Back" of Table 3-6. -/
def backState (s : State) : TtState := if s.tt.cur.isSome then .idle else .empty

/-- TT_STATUS.BUSY: VERIFYING, INSTALLING and the drain of R78. -/
def ttBusy (s : State) : Bool := s.tt.state == .verifying || s.tt.state == .installing || s.tt.drain

/-- A command that the present state does not list (03 R69). -/
def ttRefuse (s : State) : State :=
  ttReason s (if ttBusy s then 0x01 else 0x02)

/-- Owners of locks in the memory firewall: 0 the staged image, 2 the current, 3 the old one. -/
def relock (s : State) (a b : Nat) : State :=
  { s with hbm := { s.hbm with locks := s.hbm.locks.map (fun l => if l.2.2 = a then (l.1, l.2.1, b) else l) } }

/-- The staging range of an image with the page below it that holds the manifest (15 R354). -/
def stagingRange (src len : Nat) : Nat × Nat := if 4096 ≤ src then (src - 4096, len + 4096) else (src, len)

/-- VERIFY (03 R66): the range is locked and the checks begin. -/
def startVerify (s : State) : State :=
  let src := s.tt.src.toNat
  let len := s.tt.length.toNat
  let r := stagingRange src len
  let ok := !hbmLocked s r.1 r.2 && decide (src + len ≤ hbmSize)
  let s := if ok then lockHbm s r.1 r.2 0 else s
  record (ttSet s { s.tt with state := .verifying, reason := 0, ver := some (src, len, ok) }) (.timetable 1 s.tt.beat)

def doVerify (s : State) : State :=
  if ttBusy s then ttRefuse s
  else match s.tt.state with
    | .empty => startVerify s
    | .idle => startVerify s
    | .overlap => ttReason s 0x01
    | _ => ttRefuse s

/-- VERIFY (03 R62); with the main domain off there is no load interface (01 R23). -/
def execVerify (s : State) : Host.Outcome State Fault Refusal := .next (if mainOn s then doVerify s else s)

/-- A staged image is given up: its lock and its private regions are released (03 R69). -/
def dropStaged (s : State) : State :=
  unlockHbm (ttSet s { s.tt with state := backState s, staged := none, install := [], ver := none, target := none, swap := false }) 0

/-- The private regions of the staged image. -/
def stagedPrivate (s : State) (img : Image) : List (BitVec 512) :=
  privateTables (match s.tt.cur with | some c => c.tables | none => []) img.tables

/-- Where the trees of an image that is installed beside the current one lie: behind those of the current image, round the
region's end (DESIGN CHOICE, assumption 36). -/
def treePlace (s : State) : Nat := match s.tt.cur with | some c => (c.treeAt + treeBytes s.tt.cur) % 2147483648 | none => 0

/-- Bytes of the decision-tree region, its end followed by its start. -/
def treeRead (s : State) (a n : Nat) : List Byte :=
  (List.range n).map (fun i => hbmByte s (Config.treeRegionPage.val * 4096 + (a + i) % 2147483648))

/-- Bytes written into the decision-tree region. -/
def treeWrite (s : State) (a : Nat) (bs : List Byte) : State :=
  let base := Config.treeRegionPage.val * 4096
  hbmWrite (hbmWrite s (base + a) (bs.take (2147483648 - a))) base (bs.drop (2147483648 - a))

/-- Nodes and rules of an image as HBM holds them: nodes first, both in the order of the section (DESIGN CHOICE,
assumption 36). -/
def treeContent (i : Image) : List Byte :=
  i.tnodes.flatMap (fun n => leBytes 64 n.toNat) ++ i.trules.flatMap (fun r => leBytes 96 r.toNat)

/-- Node `n` of an image's trees, read from HBM (05 R117). -/
def treeNode (s : State) (i : Image) (n : Nat) : BitVec 512 := BitVec.ofNat 512 (leNat (treeRead s (i.treeAt + 64 * n) 64))

/-- Rule `k` of an image's trees, read from HBM. -/
def treeRule (s : State) (i : Image) (k : Nat) : BitVec 768 :=
  BitVec.ofNat 768 (leNat (treeRead s (i.treeAt + 64 * i.tnodes.length + 96 * k) 96))

/-- INSTALL in VERIFIED (03 R71). -/
def startInstall (s : State) : State :=
  match s.tt.staged with
  | none => s
  | some img =>
    let n := installIssues (stagedPrivate s img)
    record (ttSet s { s.tt with
      state := .installing, reason := 0, install := List.replicate 4 n, staged := some { img with treeAt := treePlace s } })
      (.timetable 2 s.tt.beat)

def doInstall (s : State) : State :=
  if s.tt.state = .verified ∧ !s.tt.drain then startInstall s else ttRefuse s

def execInstall (s : State) : Host.Outcome State Fault Refusal := .next (doInstall s)

/-- VERIFY ends (03 R66, R69). -/
def doVerifyDone (s : State) : State :=
  match s.tt.state, s.tt.ver with
  | .verifying, some (src, len, ok) =>
    let b := hbmRead s src len
    let m := if 4096 ≤ src then hbmRead s (src - 4096) 4096 else []
    match verifyImage s b m src len ok with
    | .inl r =>
      let s := count s 0xC050 0x02
      let s := if r = 0x10 then count (ttSet s { s.tt with fault := s.tt.fault ||| 2 }) 0xC050 0x03 else s
      ttReason (dropStaged s) (BitVec.ofNat 8 r)
    | .inr img =>
      let s := ttSet s { s.tt with state := .verified, reason := 0, staged := some img, ver := none }
      if s.tt.swap then doInstall s else s
  | _, _ => s

def execVerifyDone (s : State) : Host.Outcome State Fault Refusal := .next (doVerifyDone s)

/-- The image that the standby reports in state INSTALLED (03 R72). -/
def partnerInstalled (s : State) : Option Nat := match s.pair.cfg with | some c => c.installed | none => none

/-- ARM (03 R70, R72). DESIGN CHOICE: where PAIR_MISMATCH and ARM_LATE both apply, PAIR_MISMATCH is reported (assumption 207). -/
def doArm (s : State) : State :=
  if s.tt.state ≠ .installed ∨ s.tt.drain then ttRefuse s
  else match s.tt.staged with
    | none => s
    | some img =>
      if s.pair.state = .active ∧ partnerInstalled s ≠ some (hdrFld img 0x10 64) then ttReason s 0x21
      else if s.tt.armBeat ≠ 0 ∧ s.tt.armBeat.toNat ≤ s.tt.beat then ttReason s 0x22
      else
        let target := if s.tt.armBeat = 0 then none else some s.tt.armBeat.toNat
        record (ttSet s { s.tt with state := .armed, reason := 0, target := target }) (.timetable 3 s.tt.armBeat.toNat)

def execArm (s : State) : Host.Outcome State Fault Refusal := .next (doArm s)

/-- INSTALL ends once every pipeline has had its class 3 issues and the trees stand in HBM (03 R71); a swap goes on with ARM
(03 R81). -/
def doInstallDone (s : State) : State :=
  if s.tt.state = .installing ∧ s.tt.install.all (· == 0) then
    let s := match s.tt.staged with | some i => treeWrite s i.treeAt (treeContent i) | none => s
    let s := ttSet s { s.tt with state := .installed, install := [] }
    if s.tt.swap then
      let s := ttSet s { s.tt with swap := false, armBeat := BitVec.ofNat 64 (objGet s 0x5001 0x02 0) }
      doArm s
    else s
  else s

def execInstallDone (s : State) : Host.Outcome State Fault Refusal := .next (doInstallDone s)

/-- DISCARD (03 R69): also while BUSY, but not in the drain of R78. -/
def doDiscard (s : State) : State :=
  if s.tt.drain then ttRefuse s
  else match s.tt.state with
    | .verifying => ttReason (dropStaged s) 0
    | .verified => ttReason (dropStaged s) 0
    | .installing => ttReason (dropStaged s) 0
    | .installed => ttReason (dropStaged s) 0
    | _ => ttReason s 0x02

def execDiscard (s : State) : Host.Outcome State Fault Refusal := .next (doDiscard s)

/-- CANCEL_ARM (03 R69). -/
def doCancelArm (s : State) : State :=
  if s.tt.state = .armed ∧ !s.tt.drain then
    record (ttSet s { s.tt with state := .installed, reason := 0, target := none }) (.timetable 4 s.tt.beat)
  else if ttBusy s then ttReason s 0x01 else ttReason s 0x02

def execCancelArm (s : State) : Host.Outcome State Fault Refusal := .next (doCancelArm s)

/-! ## Generations at a beat boundary -/

/-- The generation bit of the next image made current (03 R73). -/
def nextGenBit (s : State) : Bool := s.tt.cur.isSome && !s.tt.gen

/-- An item that has not left its generation (03 R74): released ones are with the cipher engines. -/
def inGeneration (x : Item) : Bool := x.pos != .cipher

/-- TT_OLD_INFLIGHT (03 R74). -/
def oldInflight (s : State) : Nat :=
  if s.tt.old.isSome then (s.pipe.items.filter (fun x => inGeneration x && x.gen != s.tt.gen)).length else 0

/-- MAKE_CURRENT (03 R73, 06 R127, 14 Table 14-1). -/
def makeCurrent (s : State) : State :=
  match s.tt.staged with
  | none => s
  | some img =>
    let had := s.tt.cur.isSome
    let s := relock (relock s 2 3) 0 2
    let s := ttSet s { s.tt with
      state := if had then .overlap else .idle
      gen := nextGenBit s
      beat := 0
      overlap := 0
      target := none
      cur := some img
      staged := none
      old := s.tt.cur
      retried := (false, s.tt.retried.1) }
    let s := { s with fwd := { s.fwd with lens := some (shLens img.shared) } }
    record (observationChange (count s 0xC050 0x01)) (.timetable 5 0)

/-- The target boundary of an ARMED image has come (03 R70). A standby follows the active's record (14 R337). -/
def makeCurrentDue (s : State) : Bool :=
  s.tt.state == .armed && !s.tt.drain && s.pair.state != .standby && s.pair.state != .syncing &&
    (match s.tt.target with | none => true | some t => t == s.tt.beat)

/-- OVERLAP_CLOSE (03 R75). -/
def closeOverlap (s : State) : State :=
  if s.tt.state = .overlap ∧ oldInflight s = 0 then
    let s := unlockHbm (ttSet s { s.tt with state := .idle, old := none, overlap := 0, retried := (s.tt.retried.1, false) }) 3
    s
  else s

/-- TT_OVERLAP_BEATS, which holds at 0xFFFF_FFFF (03 Table 3-9). -/
def ttOverlapBeats (s : State) : Nat := min 0xFFFFFFFF s.tt.overlap

/-- The beats of an overlap, and the high-water counter, which does not wrap (03 Tables 3-9 and 3-11). -/
def countOverlap (s : State) : State :=
  if s.tt.state = .overlap then
    let n := s.tt.overlap + 1
    let s := ttSet s { s.tt with overlap := n }
    ctrAddAt s 0xC050 0x04 0 (min (2 ^ 64 - 1) n - ctrGet s 0xC050 0x04 0)
  else s

/-- What a second header fault does (03 R78). DESIGN CHOICE: an image still in VERIFYING is given up too, though the rule names
only VERIFIED, INSTALLING, INSTALLED and ARMED (assumption 208). -/
def headerLost (s : State) (gen : Bool) : State :=
  if s.pair.state ≠ .single then hardFault s 0x01 (if gen then 1 else 0)
  else
    let s := match s.tt.state with
      | .verified => dropStaged s
      | .installing => dropStaged s
      | .installed => dropStaged s
      | .armed => dropStaged s
      | .verifying => dropStaged s
      | _ => s
    if s.tt.drain then s else ttSet s { s.tt with drain := true, drainAt := now s }

/-- The header word of an image as the staging copy holds it. -/
def reloaded (s : State) (i : Image) : Image := { i with stored := headerPair (hbmRead s i.src 128) }

/-- HEADER_PAIR_FAULT (03 R78): the resident headers are checked; a bad one is reloaded, a reloaded one that is bad again
ends the generation. -/
def checkHeaders (s : State) : State :=
  let fault (s : State) (gen : Bool) : State :=
    event (count (ttSet s { s.tt with fault := s.tt.fault ||| 1 }) 0xC050 0x03) 0x0008 1 (if gen then 1 else 0)
  let s := match s.tt.cur with
    | none => s
    | some i =>
      if pairOk 512 i.stored.toNat then ttSet s { s.tt with retried := (false, s.tt.retried.2) }
      else
        let s := fault s s.tt.gen
        if s.tt.retried.1 then headerLost s s.tt.gen
        else ttSet s { s.tt with cur := some (reloaded s i), retried := (true, s.tt.retried.2) }
  match s.tt.old with
  | none => s
  | some i =>
    if pairOk 512 i.stored.toNat then ttSet s { s.tt with retried := (s.tt.retried.1, false) }
    else
      let s := fault s (!s.tt.gen)
      if s.tt.retried.2 then headerLost s (!s.tt.gen)
      else ttSet s { s.tt with old := some (reloaded s i), retried := (s.tt.retried.1, true) }

/-- A resident header is found to read as another word. -/
def upsetHeader (s : State) (u : Option (Bool × BitVec 1024)) : State :=
  match u with
  | none => s
  | some (false, w) => ttSet s { s.tt with cur := s.tt.cur.map (fun i => { i with stored := w }) }
  | some (true, w) => ttSet s { s.tt with old := s.tt.old.map (fun i => { i with stored := w }) }

/-- TT_DRAIN_END (03 R78): no item of a resident generation is in flight. -/
def endDrainTt (s : State) : State :=
  if s.tt.drain ∧ !(s.pipe.items.any inGeneration) then
    let s := unlockHbm (unlockHbm s 2) 3
    ttSet s { s.tt with state := .empty, drain := false, gen := false, cur := none, old := none, overlap := 0, retried := (false, false) }
  else s

end Sys2Proof.Machine
end

