-- ==== Sys2Proof/Machine/Parser.lean ====
section
/-!
DEFINITION. Reception, ingress, the parser and Bloodhound (02 R40, R45, 03 R58, 04 R83–R100, 16 R391).
-/

namespace Sys2Proof.Machine

/-! ## Reception (02 R40, R45, 03 R58, 16 R391) -/

def rxBuf (s : State) (p : Nat) : List RxFrame := sget [] s.net.rx p

def setRxBuf (s : State) (p : Nat) (fs : List RxFrame) : State :=
  { s with net := { s.net with rx := sset [] s.net.rx p fs } }

/-- The port has an ingress slot in the schedule in force (03 R58, R467). -/
def portHasSlot (s : State) (p : Nat) : Bool :=
  match s.tt.cur with
  | none => false
  | some i => (portLanes s p).any (fun n => i.rows.any (fun r => (List.range 4).any (fun k => rowIngress r k == n)))

/-- Banks that the scanner uses for a frame whose reception started at moment `m`: the one then current, and where it started
in ARMED the staged one too (04 R100). -/
def scanLists (s : State) (m : Nat) : List RawList :=
  let a := ttAt s m
  ⟨a.2, [], false⟩ :: (if a.1 then [⟨!a.2, [], false⟩] else [])

/-- A frame for the in-band buffer of Uhlist (16 R391). -/
def isInband (s : State) (p : Nat) (bytes : List Byte) : Bool :=
  (objGet s 0x4010 0x03 0).testBit p && beNat (bytesAt bytes 12 2) == objGet s 0x4010 0x01 0 &&
    leNat (bytesAt bytes 0 6) == objGet s 0x4010 0x02 0

/-- INBAND_DIVERT: the 64 KiB buffer takes the frame, or it is discarded and counted. -/
def divertInband (s : State) (p : Nat) (bytes : List Byte) : State :=
  let used := (s.uhl.inband.map (fun f => f.2.length)).sum
  if 1518 < bytes.length ∨ 65536 < used + bytes.length then count s 0xC215 0x0A
  else { s with uhl := { s.uhl with inband := s.uhl.inband ++ [(p, bytes)] } }

/-- A whole frame with good FCS and length has been received. -/
def acceptFrame (s : State) (p : Nat) (bytes : List Byte) (slots : Nat) : State :=
  let s := countN (count s (0xC100 + p) 0x01) (0xC100 + p) 0x02 bytes.length
  if s.pair.muzzled then count s (0xC100 + p) 0x07
  else if isInband s p bytes then divertInband s p bytes
  else if beNat (bytesAt bytes 12 2) = 0x8808 then count s (0xC100 + p) 0x06
  else if !portHasSlot s p then count s 0xC050 0x06
  else
    let f : RxFrame := ⟨s.net.nextFrame, bytes, scanLists s (now s - slots), false⟩
    setRxBuf { s with net := { s.net with nextFrame := s.net.nextFrame + 1 } } p (rxBuf s p ++ [f])

/-- FRAME_RECEIVED (02 R40): `cut` is a frame cut by loss of lock. -/
def execFrameReceived (port : BitVec 5) (bytes : List Byte) (fcsOk cut : Bool) (s : State) (slots : Nat := 0) :
    Host.Outcome State Fault Refusal :=
  let p := port.toNat
  .next (if !operUp s p then s
    else if cut then discardFrame s p 0x03
    else if bytes.length < 64 then discardFrame s p 0x04
    else if maxFrame s p < bytes.length then discardFrame s p 0x05
    else if !fcsOk then discardFrame s p 0x03
    else acceptFrame s p bytes slots)

/-! ## The scanner (04 R94, R97, R100) -/

/-- A scan against two banks runs: the state is ARMED, or a frame whose reception started in ARMED has not been scanned to its
end (04 R100, R101). -/
def dualScan (s : State) : Bool :=
  s.tt.state == .armed || s.net.rx.any (fun b => b.2.any (fun f => !f.complete && decide (1 < f.raw.length))) ||
    s.pipe.items.any (fun x => !x.scanned && decide (1 < x.raw.length))

/-- The image of the bank that a raw list was scanned against. -/
def scanImage (s : State) (gen : Bool) : Option Image :=
  if gen = s.tt.gen then s.tt.cur else (s.tt.old.or s.tt.staged)

/-- Unanchored literals that end at offset `stop`. -/
def hitsEnding (ps : List Pattern) (d : List Byte) (stop : Nat) : List RawHit :=
  (ps.zipIdx.filter (fun e => !e.1.anchored && decide (e.1.len ≤ stop + 1) &&
    bytesAt d (stop + 1 - e.1.len) e.1.len == e.1.body)).map (fun e => ⟨e.2, stop⟩)

/-- The raw hits of frame data in order of end offset; hits of one end offset in order of pattern id. -/
def rawHits (ps : List Pattern) (d : List Byte) : List RawHit := (List.range d.length).flatMap (hitsEnding ps d)

def scanList (s : State) (d : List Byte) (x : RawList) : RawList :=
  match scanImage s x.gen with
  | none => x
  | some i =>
    let hs := rawHits i.patterns d
    { x with hits := hs.take 128, overflow := decide (128 < hs.length) }

/-- Frame data: the bytes up to the FCS. -/
def frameData (bytes : List Byte) : List Byte := bytes.take (bytes.length - 4)

/-- Counters of a scanned frame (04 Table 4-12). -/
def countScan (s : State) (p n lists : Nat) : State :=
  let pipe := match s.tt.cur with | some i => lanePipe i p | none => 0
  let s := countN s (0xC060 + pipe) 0x15 n
  if 1 < lists then count s (0xC060 + pipe) 0x18 else s

/-- RAW_HIT_LIST_COMPLETE (04 R97): the frame is in the receive buffer or already in a pipeline. -/
def execRawHitListComplete (port : BitVec 5) (frame : Nat) (s : State) : Host.Outcome State Fault Refusal :=
  let p := port.toNat
  .next (match (rxBuf s p).find? (fun f => f.id == frame && !f.complete) with
    | some f =>
      let d := frameData f.bytes
      let f' := { f with raw := f.raw.map (scanList s d), complete := true }
      countScan (setRxBuf s p ((rxBuf s p).map (fun g => if g.id = frame then f' else g))) p d.length f.raw.length
    | none =>
      match itemGet s frame with
      | some x =>
        if x.scanned then s
        else countScan (itemPut s { x with raw := x.raw.map (scanList s x.bytes), scanned := true }) p x.bytes.length x.raw.length
      | none => s)

/-! ## Ingress (03 R55, R58, R73, 05 R107, R121) -/

/-- The bus at ingress: COLOUR holds 3, every other field 0 (05 R107). -/
def ingressBus : Bus := BitVec.ofNat 1024 (3 <<< 872)

def startWalk (i : Option Image) : Walk :=
  { hs := 0, depth := 0, node := match i with | some i => i.start | none => 0, seen := [], vlans := 0, mal := 0, ended := false,
    l3 := 0x3FF, l4 := 0x3FF, l4role := 0, ipSeen := none, l4ip := none, last := 0 }

/-- The frame at the head of a port's receive buffer enters pipeline `p` in the row of `slot` on `lane`. -/
def ingress (s : State) (slot p lane : Nat) : State :=
  let port := portOfLane s lane
  match rxBuf s port with
  | [] => s
  | f :: rest =>
    let s := setRxBuf s port rest
    let q := s.pipe.seqs.getD p 0
    let x : Item :=
      { id := f.id, pipe := p, gen := s.tt.gen, timGen := s.tt.gen, row := slot, seq := q, port := port, lane := lane,
        bus := ingressBus, bytes := frameData f.bytes, len := f.bytes.length, rxBytes := f.bytes.length, pos := .parser,
        walk := startWalk s.tt.cur, raw := f.raw, record := [], l2key := 0, flowKey := 0, domain := none, treeWalk := none,
        carried := [], trap := false, looked := false, back := none, scanned := f.complete }
    let s := { s with pipe := { s.pipe with items := s.pipe.items ++ [x], seqs := lset s.pipe.seqs p ((q + 1) % 2 ^ 32) } }
    count s (0xC060 + p) 0x11

/-- INGRESS_SLOT (03 R58): a frame slot; from the slot after the drain of R78 has started it is idle. -/
def execIngressSlot (slot : BitVec 12) (p : BitVec 2) (rowOk : Bool) (s : State) : Host.Outcome State Fault Refusal :=
  let s := atSlot s slot
  .next (if rowBad s rowOk then rowFailed s
    else
      let v := rowIngress (schedRow s slot.toNat) p.toNat
      if v < 32 ∧ !(s.tt.drain && decide (s.tt.drainAt < now s)) ∧ s.tt.cur.isSome then ingress s slot.toNat p.toNat v else s)

/-! ## The parser (04 R84, R86–R91) -/

/-- A byte that the parser reads: 0 past the window of 512 bytes and past the end (04 R84). -/
def winByte (d : List Byte) (i : Nat) : Nat := if i < 512 then (byteAt d i).toNat else 0

/-- `n` bytes in network byte order. -/
def winRead (d : List Byte) (i : Nat) : Nat → Nat
  | 0 => 0
  | n + 1 => winByte d i * 256 ^ n + winRead d (i + 1) n

/-- Header length of a node (04 R86). -/
def headerLen (n : BitVec 128) (d : List Byte) (hs : Nat) : Nat :=
  if pnLenMode n = 0 then pnLenBase n
  else pnLenBase n + (((winRead d (hs + pnLenOff n) 2 >>> pnLenShift n) &&& pnLenMask n) <<< pnLenMult n)

/-- The select value of a node. -/
def selectOf (n : BitVec 128) (d : List Byte) (hs : Nat) : Nat :=
  let w := pnSelWidth n
  let bytes := (w + 7) / 8
  winRead d (hs + pnSelOff n) bytes >>> (8 * bytes - w)

/-- An option list of `left` bytes from `i` is ill-formed (04 Table 4-6, kind 10); the fuel is its length. -/
def optionOverrun (d : List Byte) : Nat → Nat → Nat → Bool
  | 0, _, _ => false
  | fuel + 1, i, left =>
    if left = 0 then false
    else if winByte d i = 0 then false
    else if winByte d i = 1 then optionOverrun d fuel (i + 1) (left - 1)
    else
      let n := winByte d (i + 1)
      if left < 2 ∨ n < 2 ∨ left < n then true else optionOverrun d fuel (i + n) (left - n)

/-- The header bytes that the parser sees: its window (04 R84). -/
def window (d : List Byte) : List Byte := d.take 512

/-- A 16-bit header field in network byte order. -/
def hdr16 (h : List Byte) (i : Nat) : Nat := beNat (bytesAt h i 2)

/-- Where the IP datagram at `hs` ends by its own length field. -/
def ipEnd (v6 : Bool) (h : List Byte) (hs : Nat) : Nat :=
  if v6 then hs + 40 + hdr16 h (hs + 4) else hs + hdr16 h (hs + 2)

/-- Sum of the pseudo-header of an L4 header whose IP header starts at `ip` (04 R84, R91). -/
def pseudoSum (v6 : Bool) (h : List Byte) (ip proto len : Nat) : Nat :=
  (if v6 then sum16 (bytesAt h (ip + 8) 32) else sum16 (bytesAt h (ip + 12) 8)) + proto + len / 65536 + len % 65536

/-- The extent of an L4 datagram at `hs`: UDP by its own length, the others to the end of the IP datagram. -/
def l4Len (role : Nat) (v6 : Bool) (h : List Byte) (ip hs : Nat) : Nat :=
  if role = 7 then hdr16 h (hs + 4) else ipEnd v6 h ip - hs

/-- Protocol number of an L4 role. -/
def l4Proto (role : Nat) (v6 : Bool) : Nat := if role = 7 then 17 else if role = 8 then 6 else if v6 then 58 else 1

/-- The ones'-complement sum of an L4 datagram with its pseudo-header; `h` are the header bytes that the reader sees: the
parser its window, the rewrite unit the whole frame. -/
def l4Sum (role : Nat) (v6 : Bool) (h d : List Byte) (ip hs : Nat) : Nat :=
  let n := l4Len role v6 h ip hs
  let body := sum16 ((d.drop hs).take n)
  if role = 9 ∧ !v6 then body else body + pseudoSum v6 h ip (l4Proto role v6) n

/-- Kind 7 (04 Table 4-6, R91). -/
def l4Wrong (role : Nat) (ip : Option Nat) (d : List Byte) (hs : Nat) : Bool :=
  match ip with
  | none => false
  | some k =>
    let v6 := k % 2 == 1
    if role = 7 ∧ winRead d (hs + 6) 2 = 0 then v6
    else fold16 (l4Sum role v6 (window d) d (k / 2) hs) != 65535

/-- A fragment: offset in units of 8 bytes, more-fragments, payload length and the protocol that follows. -/
structure Frag where
  off     : Nat
  more    : Bool
  payload : Nat
  proto   : Nat
deriving DecidableEq, Repr

/-- The fragment that a node of role 4 or 6 describes. DESIGN CHOICE: with no header of role 4 or 5 before it, the payload of a
role 6 header has length 0 (assumption 210). -/
def fragOf (role len : Nat) (ip : Option Nat) (d : List Byte) (hs : Nat) : Frag :=
  if role = 4 then
    let f := winRead d (hs + 6) 2
    ⟨f % 8192, f.testBit 13, winRead d (hs + 2) 2 - len, winByte d (hs + 9)⟩
  else
    let f := winRead d (hs + 2) 2
    let dgramEnd := match ip with | some k => ipEnd (k % 2 == 1) (window d) (k / 2) | none => hs + len
    ⟨f / 8, f.testBit 0, dgramEnd - (hs + len), winByte d hs⟩

/-- Kind 14. -/
def fragBad (f : Frag) : Bool :=
  let need := if f.proto = 17 ∨ f.proto = 1 ∨ f.proto = 58 then 8 else if f.proto = 6 then 20 else 0
  decide (65535 < f.off * 8 + f.payload) || (f.off == 0 && f.more && decide (f.payload < need))

/-- Kind 13. -/
def badSource (role : Nat) (d : List Byte) (hs : Nat) : Bool :=
  if role = 1 then (winByte d (hs + 6)).testBit 0
  else if role = 4 then
    winByte d (hs + 12) / 16 == 14 || winByte d (hs + 12) == 127 || winRead d (hs + 12) 4 == 0xFFFFFFFF
  else winByte d (hs + 8) == 0xFF || winRead d (hs + 8) 16 == 1

/-- The kinds that the role checks of Table 4-6 find for a node of role `r` entered at `hs` with header length `len`. -/
def roleKinds (n : BitVec 128) (w : Walk) (d : List Byte) (len : Nat) : List Nat :=
  let r := pnRole n
  let hs := w.hs
  let have' := d.length - hs
  let v4 := r == 4
  let v6 := r == 5
  let udp := r == 7
  let tcp := r == 8
  let total := if v4 then winRead d (hs + 2) 2 else winRead d (hs + 4) 2 + 40
  let kinds : List (Nat × Bool) := [
    (2, ((v4 || v6) && decide (have' < total)) || (udp && decide (have' < winRead d (hs + 4) 2))),
    (3, v4 && pnCheck n 0 && fold16 (sum16 (bytesAt (window d) hs len)) != 65535),
    (6, (v4 && decide (total < len)) || (udp && decide (winRead d (hs + 4) 2 < 8))),
    (7, (udp || tcp || r == 9) && pnCheck n 1 && l4Wrong r w.ipSeen d hs),
    (10, pnCheck n 6 && ((v4 && optionOverrun d 512 (hs + 20) (len - 20)) || (tcp && optionOverrun d 512 (hs + 20) (len - 20)))),
    (12, pnCheck n 2 && ((v4 && winByte d (hs + 8) == 0) || (v6 && winByte d (hs + 7) == 0))),
    (13, pnCheck n 3 && (r == 1 || v4 || v6) && badSource r d hs),
    (14, pnCheck n 4 && (v4 || r == 6) && fragBad (fragOf r len w.ipSeen d hs)),
    (15, (v4 || v6) && decide (hs + total < d.length) && decide (64 + 4 * w.vlans < d.length + 4)),
    (16, pnCheck n 5 && ((v4 && (winByte d (hs + 6)).testBit 7) || (tcp && winByte d (hs + 12) % 16 != 0)))]
  (kinds.filter (·.2)).map (·.1)

/-- A fragment with a non-zero offset ends the chain after its header (04 R90). -/
def endsAtFragment (n : BitVec 128) (w : Walk) (d : List Byte) (len : Nat) : Bool :=
  pnCheck n 4 && (pnRole n == 4 || pnRole n == 6) && decide ((fragOf (pnRole n) len w.ipSeen d w.hs).off ≠ 0)

/-- The first matching transition, or none. -/
def transitionOf (i : Image) (n : BitVec 128) (sel : Nat) : Option Nat :=
  (((i.ptrans.drop (pnTrBase n)).take (pnTrCount n)).find? (fun t => sel &&& ptMask t == ptKey t)).map ptNext

/-- One extraction command: bytes of the header to the bus in network byte order (04 R87). -/
def extractOne (d : List Byte) (hs : Nat) (bus : Bus) (e : BitVec 64) : Bus :=
  setFld bus (exDst e) (8 * exLen e) (winRead d (hs + exOff e) (exLen e))

/-- The walk as the node at its position is entered: offsets of L3 and L4 headers, tags and the node entered last. -/
def enterNode (w : Walk) (n : BitVec 128) : Walk :=
  let r := pnRole n
  let w := { w with last := w.node, vlans := if r = 2 then w.vlans + 1 else w.vlans }
  if r = 4 ∨ r = 5 then { w with l3 := w.hs, ipSeen := some (2 * w.hs + (if r = 5 then 1 else 0)) }
  else if r = 7 ∨ r = 8 ∨ r = 9 then { w with l4 := w.hs, l4role := r, l4ip := w.ipSeen }
  else w

/-- One node step (04 R86): the walk and the bus after it. A node refused with kind 11 has been entered (DESIGN CHOICE,
assumption 264). -/
def nodeStep (i : Image) (d : List Byte) (w : Walk) (bus : Bus) : Walk × Bus :=
  let n := i.pnodes.getD w.node 0
  let seen := sget 0 w.seen w.node
  let v := enterNode w n
  let len := headerLen n d w.hs
  let frag := endsAtFragment n w d len
  let tr := transitionOf i n (selectOf n d w.hs)
  let next := if frag ∨ (tr.isNone ∧ pnStrict n) then 0xFF else tr.getD (pnDefault n)
  let found := (if pnRepeat n ≠ 0 ∧ pnRepeat n ≤ seen then [11] else []) ++ (if len < pnLenMin n then [9] else []) ++
    (if d.length < w.hs + len then [1] else if 512 < w.hs + len then [5] else []) ++ roleKinds n w d len ++
    (if !frag ∧ tr.isNone ∧ pnStrict n then [8] else []) ++ (if next ≠ 0xFF ∧ w.depth + 1 = 32 then [4] else [])
  if found.any (· != 4) then ({ v with mal := found.foldl min 16, ended := true }, bus)
  else
    let bus := ((i.pextr.drop (pnExBase n)).take (pnExCount n)).foldl (extractOne d w.hs) bus
    let v := { v with depth := w.depth + 1, seen := sset 0 w.seen w.node (seen + 1), hs := w.hs + len }
    if found.contains 4 then ({ v with mal := 4, ended := true }, bus)
    else if next = 0xFF then ({ v with ended := true }, bus)
    else ({ v with node := next }, bus)

/-- PARSER_NODE_STEP (04 R86): one header of an item in the parser. -/
def execParserNodeStep (item : Nat) (s : State) : Host.Outcome State Fault Refusal :=
  .next (match itemGet s item with
    | none => s
    | some x =>
      match x.pos, imageOf s x.gen with
      | .parser, some i =>
        if x.walk.ended then s
        else
          let r := nodeStep i x.bytes x.walk x.bus
          itemPut s { x with walk := r.1, bus := r.2 }
      | _, _ => s)

/-- The parser summary (04 Table 4-5). -/
def summaryOf (x : Item) (trap : Bool) : Nat :=
  x.walk.mal + (if trap then 2 ^ 5 else 0) + (if x.gen then 2 ^ 6 else 0) + x.lane * 2 ^ 7 + lenCode x.len * 2 ^ 12 +
    x.walk.hs % 1024 * 2 ^ 26 + x.walk.l3 % 1024 * 2 ^ 36 + x.walk.l4 % 1024 * 2 ^ 46 + x.walk.depth * 2 ^ 56 + x.walk.last * 2 ^ 62

/-- PARSER_OUTPUT (04 R88, R92, R93): the summary is on the bus and a malformed frame meets the action of its kind. -/
def execParserOutput (item : Nat) (s : State) : Host.Outcome State Fault Refusal :=
  .next (match itemGet s item with
    | none => s
    | some x =>
      if x.pos = .parser ∧ x.walk.ended then
        let mal := x.walk.mal
        let act := objGet s 0x5200 mal 0
        let trap := mal != 0 && act == 2
        let idx := 0xC060 + x.pipe
        let x := { x with trap := trap, pos := .stage 0, bus := setFld x.bus 0 96 (summaryOf x trap) }
        if mal = 0 then itemPut s x
        else
          let s := count s idx mal
          if act = 0 then itemRemove (count s idx 0x12) item
          else itemPut (count s idx (if trap then 0x14 else 0x13)) x
      else s)

/-! ## The confirm unit (04 R94, R98, R99) -/

/-- A kept hit: start offset, pattern id, anchored. -/
structure KeptHit where
  start    : Nat
  id       : Nat
  anchored : Bool
deriving DecidableEq, Repr

/-- The anchor unit: every anchored pattern at its offset from the payload start. -/
def anchorHits (i : Image) (d : List Byte) (pay : Nat) : List KeptHit :=
  (i.patterns.zipIdx.filter (fun e =>
    let p := e.1
    let at' := pay + p.anchor
    p.anchored && decide (at' + p.len ≤ d.length) &&
      (if p.classes then
        (List.range p.len).all (fun k =>
          (i.classes.getD (byteAt p.body k).toNat 0).getLsbD (byteAt d (at' + k)).toNat)
       else bytesAt d at' p.len == p.body))).map (fun e => ⟨pay + e.1.anchor, e.2, true⟩)

/-- Raw hits whose start lies in the payload. -/
def literalHits (i : Image) (x : RawList) (pay : Nat) : List KeptHit :=
  (x.hits.map (fun h => (⟨h.stop + 1 - (i.patterns.getD h.pattern ⟨0, 0, false, false, 0, []⟩).len, h.pattern, false⟩ : KeptHit))).filter
    (fun h => decide (pay ≤ h.start))

def keptBefore (a b : KeptHit) : Bool := decide (a.start < b.start) || (a.start == b.start && decide (a.id ≤ b.id))

/-- The match set (04 Table 4-10). -/
def matchSet (i : Image) (ks : List KeptHit) (ovf : Bool) : Nat :=
  let groups := (List.range 32).map (fun g =>
    if ks.any (fun k => (i.patterns.getD k.id ⟨0, 0, false, false, 0, []⟩).group == g) then 2 ^ g else 0)
  let first (n : Nat) : Nat := match ks[n]? with | some k => k.id | none => 0
  ks.length + (if ovf then 2 ^ 7 else 0) + groups.sum * 2 ^ 8 + first 0 * 2 ^ 40 + first 1 * 2 ^ 56 + first 2 * 2 ^ 72 +
    first 3 * 2 ^ 88

/-- A word of the match record (04 R99). -/
def recordWord (k : KeptHit) : BitVec 32 :=
  BitVec.ofNat 32 (k.id % 2 ^ 16 + k.start % 2 ^ 14 * 2 ^ 16 + (if k.anchored then 2 ^ 30 else 0))

/-- MATCH_SET_FINAL (04 R98). DESIGN CHOICE: an item whose frame was scanned against no bank of its generation has no raw hits
(assumption 211). -/
def execMatchSetFinal (item : Nat) (s : State) : Host.Outcome State Fault Refusal :=
  .next (match itemGet s item with
    | none => s
    | some x =>
      match x.pos, imageOf s x.gen with
      | .parser, _ => s
      | _, none => s
      | _, some i =>
        let pay := fld x.bus 26 10
        let raw := (x.raw.find? (fun r => r.gen == x.gen)).getD ⟨x.gen, [], false⟩
        let all := (literalHits i raw pay ++ anchorHits i x.bytes pay).mergeSort keptBefore
        let ks := all.take 64
        let ovf := raw.overflow || decide (64 < all.length)
        let s := countN s (0xC060 + x.pipe) 0x16 ks.length
        let s := if ovf then count s (0xC060 + x.pipe) 0x17 else s
        itemPut s { x with bus := setFld x.bus 96 128 (matchSet i ks ovf), record := ks.map recordWord })

end Sys2Proof.Machine
end

