-- ==== Sys2Proof/Machine/HostOps.lean ====
section
/-!
DEFINITION. Operations of the host endpoint: functions and their configuration space, MSI-X, requester identities,
address translation, reads and host writes (11 R251–R271).
-/

namespace Sys2Proof.Machine

/-! ## Functions: 0 is PF0, 1 is PF1, 2 + v is VF v -/

def fnKey (link fn : Nat) : Nat := link * 2048 + fn

def resetFn : Fn := { state := .disabled, pending := false, drain := .bme, d3 := false, cfg := [], msix := [], pba := [] }

def fnGet (s : State) (link fn : Nat) : Fn := sget resetFn s.hst.fns (fnKey link fn)

def fnPut (s : State) (link fn : Nat) (f : Fn) : State :=
  { s with hst := { s.hst with fns := sset resetFn s.hst.fns (fnKey link fn) f } }

/-- Reset values of the writable configuration double words, as PCI Express lays down (assumption 15). A function shows only
the bits that it implements (`cfgShown`). -/
def cfgReset (off : Nat) : BitVec 32 :=
  if off = 0x078 then 0x2810 else if off = 0x0A0 then 6 else if off = 0x180 then 1 else if off = 0x10C then 0x00462030
  else if off = 0x114 then 0x2000 else 0

/-- Streams whose registers the 4 KiB of configuration space hold: 200 bytes each from 0x2CC on (assumption 15). -/
def ideWord (off : Nat) : Nat := (off - 0x2CC) % 200

/-- Writable bits of a selective IDE stream's registers (11 R267, assumption 15): control, RID association, and 15 address
associations of 3 double words. -/
def ideMask (off : Nat) : BitVec 32 :=
  let w := ideWord off
  if 16 ≤ (off - 0x2CC) / 200 then 0
  else if w = 4 then 0xFF7FC301
  else if w = 12 then 0x00FFFF00
  else if w = 16 then 0xFFFFFF01
  else if 20 ≤ w then (if (w - 20) % 12 = 0 then 0xFFFFFF01 else 0xFFFFFFFF)
  else 0

def cfgGet (f : Fn) (off : Nat) : BitVec 32 := sget (cfgReset off) f.cfg off

def cfgPut (f : Fn) (off : Nat) (v : BitVec 32) : Fn := { f with cfg := sset (cfgReset off) f.cfg off v }

/-- Bits that software writes, by function kind (0 PF0, 1 PF1, 2 VF) and offset (11 R253, R255; PCI Express Base 6.0,
assumption 15). A BAR of 2^n bytes holds bits [63:n]. -/
def cfgMask (kind off : Nat) : BitVec 32 :=
  if off = 0x004 then (if kind = 2 then 0x0004 else 0x0546)
  else if off = 0x00C then (if kind = 2 then 0 else 0xFF)
  else if off = 0x010 then (if kind = 0 then 0xFE000000 else if kind = 1 then 0xC0000000 else 0)
  else if off = 0x014 then (if kind = 2 then 0 else 0xFFFFFFFF)
  else if off = 0x018 then (if kind = 1 then 0xFFFF0000 else 0)
  else if off = 0x01C then (if kind = 1 then 0xFFFFFFFF else 0)
  else if off = 0x03C then (if kind = 2 then 0 else 0xFF)
  else if off = 0x044 then 0x0003
  else if off = 0x050 then 0xC0000000
  else if off = 0x078 then (if kind = 2 then 0 else 0x7FFF)
  else if off = 0x080 then (if kind = 0 then 0x01CB else 0)
  else if off = 0x098 then (if kind = 2 then 0 else 0x17CF)
  else if off = 0x0A0 then (if kind = 0 then 0xFFBF else 0)
  else if off = 0x108 ∨ off = 0x10C then (if kind = 2 then 0 else 0x07FFF030)
  else if off = 0x114 then (if kind = 2 then 0 else 0x0000F1C1)
  else if off = 0x118 then (if kind = 2 then 0 else 0x0140)
  else if off = 0x168 then (if kind = 1 then 0x0018 else 0)
  else if off = 0x170 then (if kind = 1 then 0xFFFF else 0)
  else if off = 0x180 then (if kind = 1 then 0xFFFFFFFF else 0)
  else if off = 0x184 then (if kind = 1 then 0xFFFF0000 else 0)
  else if off = 0x188 then (if kind = 1 then 0xFFFFFFFF else 0)
  else if off = 0x1A4 then 0x801F0000
  else if off = 0x1B4 then (if kind = 2 then 0 else 0x00010000)
  else if off = 0x1C4 then 0x0001
  else if off = 0x1CC then 0xFFFFFFFF
  else if off = 0x1D8 then (if kind = 0 then 0xE3FF000F else 0)
  else if off = 0x1DC then (if kind = 0 then 0x00FB else 0)
  else if off = 0x1E4 then (if kind = 0 then 0xFE00 else 0)
  else if off = 0x284 then (if kind = 0 then 0x1FFF1FFF else 0)
  else if off = 0x298 then (if kind = 0 then 0x80000002 else 0)
  else if 0x2CC ≤ off then (if kind = 0 then ideMask off else 0)
  else 0

/-- Bits that software clears by writing 1: AER status (11 R253). -/
def cfgW1c (kind off : Nat) : BitVec 32 :=
  if off = 0x104 ∨ off = 0x110 then 0xFFFFFFFF else if kind = 2 then 0 else if off = 0x004 then 0xF9000000 else 0

/-- Fields with reserved encodings, which a write of one leaves unchanged (00 R9): lowest bit, width and whether a value is
reserved. Payload and read sizes, the target speed, LTR scales, the scales of L1 PM Substates and the algorithm of an IDE
stream (PCI Express Base 6.0, assumption 15); codes of the completion timeout are all taken (R269). -/
def cfgEncoded (off : Nat) : List (Nat × Nat × (Nat → Bool)) :=
  if off = 0x078 then [(5, 3, fun v => decide (6 ≤ v)), (12, 3, fun v => decide (6 ≤ v))]
  else if off = 0x0A0 then [(0, 4, fun v => v == 0 || decide (7 ≤ v))]
  else if off = 0x1D8 then [(29, 3, fun v => decide (6 ≤ v))]
  else if off = 0x1DC then [(0, 2, fun v => v == 3)]
  else if off = 0x284 then [(10, 3, fun v => decide (6 ≤ v)), (26, 3, fun v => decide (6 ≤ v))]
  else if 0x2CC ≤ off ∧ ideWord off = 4 then [(14, 5, fun v => v != 0)]
  else []

/-- What a configuration write places once its reserved encodings have been set aside (00 R9). -/
def cfgTaken (off : Nat) (old v : BitVec 32) : BitVec 32 :=
  (cfgEncoded off).foldl (fun w e => if e.2.2 (fld w e.1 e.2.1) then setFld w e.1 e.2.1 (fld old e.1 e.2.1) else w) v

def fnKind (fn : Nat) : Nat := if fn = 0 then 0 else if fn = 1 then 1 else 2

def fnBme (f : Fn) : Bool := (cfgGet f 0x004).getLsbD 2
def fnMse (f : Fn) : Bool := (cfgGet f 0x004).getLsbD 1
def fnMsixOn (f : Fn) : Bool := (cfgGet f 0x050).getLsbD 31
def fnMsixMasked (f : Fn) : Bool := (cfgGet f 0x050).getLsbD 30
def fnAts (f : Fn) : Bool := (cfgGet f 0x1A4).getLsbD 31

/-- PF1 holds the read size, the relaxed ordering and the timeout of its VFs, as SR-IOV lays down. -/
def pfOf (fn : Nat) : Nat := if fn = 0 then 0 else 1

/-- Page Request Enable (11 R262); a VF has a structure of its own (Table 11-3). -/
def fnPri (s : State) (link fn : Nat) : Bool := (cfgGet (fnGet s link fn) 0x1C4).getLsbD 0

/-- Page requests a function may have outstanding: what software has allocated, of a capacity of 512 (11 R262). -/
def pageAllocation (s : State) (link fn : Nat) : Nat := min 512 (cfgGet (fnGet s link fn) 0x1CC).toNat

/-- Relaxed Ordering Enable (11 R254). -/
def relaxedOn (s : State) (link fn : Nat) : Bool := (cfgGet (fnGet s link (pfOf fn)) 0x078).getLsbD 4

/-- VF Enable and VF Memory Space Enable of PF1 (12 R280). -/
def vfEnabled (s : State) (link : Nat) : Bool := (cfgGet (fnGet s link 1) 0x168).getLsbD 0
def vfMse (s : State) (link : Nat) : Bool := (cfgGet (fnGet s link 1) 0x168).getLsbD 3
def numVfs (s : State) (link : Nat) : Nat := fld (cfgGet (fnGet s link 1) 0x170) 0 16

/-- The function exists on the link (11 R251). -/
def fnPresent (s : State) (link fn : Nat) : Bool :=
  (match s.hst.links[link]? with | some l => l.state != 0 | none => false) &&
    (decide (fn < 2) || (vfEnabled s link && decide (fn - 2 < numVfs s link)))

/-- Memory Space Enable that governs a function's BARs (11 R256). -/
def memSpaceOn (s : State) (link fn : Nat) : Bool := if fn < 2 then fnMse (fnGet s link fn) else vfMse s link

/-- The function may issue requests (11 R272, R263). -/
def mayRequest (s : State) (link fn : Nat) : Bool :=
  let f := fnGet s link fn
  f.state == .enabled && !f.d3 && (match s.hst.links[link]? with | some l => l.state == 3 | none => false)

/-- Completion timeout T in slots (11 R269, Table 11-8). -/
def timeoutSlots (s : State) (link fn : Nat) : Nat :=
  match fld (cfgGet (fnGet s link (pfOf fn)) 0x098) 0 4 with
  | 1 => 100000
  | 2 => 10000000
  | 5 => 40000000
  | 6 => 160000000
  | 9 => 640000000
  | 10 => 2500000000
  | 13 => 10000000000
  | 14 => 40000000000
  | _ => 20000000

/-- Max Read Request Size in bytes (11 R254). -/
def maxRead (s : State) (link fn : Nat) : Nat :=
  min 4096 (128 * 2 ^ fld (cfgGet (fnGet s link (pfOf fn)) 0x078) 12 3)

/-- Log an uncorrectable error in the function's own AER (11 R256, R270, R271, Table 11-3). -/
def aerLog (s : State) (link fn bit : Nat) : State :=
  let f := fnGet s link fn
  fnPut s link fn (cfgPut f 0x104 (cfgGet f 0x104 ||| BitVec.ofNat 32 (2 ^ bit)))

def linkGet (s : State) (k : Nat) : Link := s.hst.links.getD k ⟨0, 0, 0, false, true, .l0, 0, false⟩

/-- A link takes a state; a change raises event 0x0302 with the link and its new state (20 Table 20-4). -/
def linkPut (s : State) (k : Nat) (l : Link) : State :=
  let was := (linkGet s k).state
  let s := { s with hst := { s.hst with links := lset s.hst.links k l } }
  if was = l.state then s else event s 0x0302 (29 + k / 2) (k + l.state * 2 ^ 8)

/-- A request, a doorbell or an interrupt starts the exit from a low-power state (11 R264). -/
def wakeLink (s : State) (k : Nat) : State :=
  if (linkGet s k).pm = .l0 then s else linkPut s k { linkGet s k with pm := .l0 }

/-- Count one on a counter of link `k` (11 Table 11-12). -/
def countLink (s : State) (k sub : Nat) : State := count s (0xC0E0 + k) sub

/-- A register of a function's BAR takes a write: the main domain is on and the function is there; with Memory Space Enable 0
the write is discarded and logged as an Unsupported Request (11 R256). -/
def barGate (s : State) (link fn : Nat) (act : State → State) : State :=
  if !mainOn s || !fnPresent s link fn then s
  else if !memSpaceOn s link fn then aerLog s link fn 20
  else act s

/-- Streams of a link that ide_streams gives it, of those whose registers fit (11 R267, assumption 15). -/
def ideAbsent (s : State) (link off : Nat) : Bool :=
  decide (0x2CC ≤ off) && decide (objGet s (0xA100 + link) 0x0A 0 ≤ (off - 0x2CC) / 200)

/-- Bits that software writes in a function's configuration space now. -/
def cfgOpen (s : State) (link fn off : Nat) : BitVec 32 := if ideAbsent s link off then 0 else cfgMask (fnKind fn) off

/-- Bits of the stored double words that a read shows: those that are written or cleared; the others are reserved (00 R8). -/
def cfgShown (s : State) (link fn off : Nat) : BitVec 32 := cfgOpen s link fn off ||| cfgW1c (fnKind fn) off

/-! ## MSI-X (11 R259) -/

/-- An MSI-X entry that is not written is masked. -/
def msixEntry (f : Fn) (v : Nat) : BitVec 128 := sget (BitVec.ofNat 128 (2 ^ 96)) f.msix v

def msixMasked (f : Fn) (v : Nat) : Bool := fnMsixMasked f || (msixEntry f v).getLsbD 96

/-- Sending an interrupt is possible; a function in D3hot issues no request (11 R263). -/
def msixReady (s : State) (link fn v : Nat) : Bool :=
  let f := fnGet s link fn
  fnMsixOn f && fnBme f && f.state == .enabled && !f.d3 && !msixMasked f v

/-- Raise a vector: sent, or its pending bit set. The fence signal stops interrupts at once (14 R333). -/
def raiseVector (s : State) (link fn v : Nat) : State :=
  if msixReady s link fn v && !s.pair.fence then emit (wakeLink s link) (.msix link fn v)
  else
    let f := fnGet s link fn
    if f.pba.contains v then s else fnPut s link fn { f with pba := f.pba ++ [v] }

/-! ## Slices -/

def resetSlice : Slice :=
  { bound := none, state := .free, pending := false, result := 0, since := 0, zeroed := false, restore := 0,
    saveLen := 0 }

def slice (s : State) (n : Nat) : Slice := sget resetSlice s.slc.sl n

def setSlice (s : State) (n : Nat) (x : Slice) : State :=
  { s with slc := { s.slc with sl := sset resetSlice s.slc.sl n x } }

/-! ## Owners: slices and the infrastructure -/

/-- 0xFFFF is the infrastructure (10 Table 10-6). -/
def ownerOf (n : Nat) : Option Nat := if n = 0xFFFF then none else some n

def channelOwner (s : State) (ch : Nat) : Option Nat := ownerOf (objGet s 0xA800 0x01 ch)

/-- The PASID that an owner's requests carry (11 R260). -/
def ownerPasid (s : State) (owner : Option Nat) : Option Nat :=
  match owner with
  | some sl => match (slice s sl).bound with | some b => if b.vf then none else some b.num | none => none
  | none => none

/-- Requester of an owner on controller `ctl`: link, function and PASID (11 R260); none: the slice's link lies on the
other controller, or the slice is not bound. -/
def requester (s : State) (owner : Option Nat) (ctl : Nat) : Option (Nat × Nat × Option Nat) :=
  match owner with
  | none => some (if s.hst.primary / 2 = ctl then s.hst.primary else ctl * 2, 0, none)
  | some sl =>
    match (slice s sl).bound with
    | none => none
    | some b =>
      if b.link / 2 ≠ ctl then none else if b.vf then some (b.link, 2 + b.num, none) else some (b.link, 1, some b.num)

/-- Link and function that an owner is bound to: MSI-X, function state (11 R259, 12 Table 12-5); PF1 of link 0 for a slice
that is bound to none. -/
def ownerFn (s : State) (owner : Option Nat) : Nat × Nat :=
  match owner with
  | none => (s.hst.primary, 0)
  | some sl => match (slice s sl).bound with | some b => (b.link, if b.vf then 2 + b.num else 1) | none => (0, 1)

/-- The slices bound to a function (11 R274). -/
def sliceBound (s : State) (link fn sl : Nat) : Bool :=
  (slice s sl).bound.isSome && ownerFn s (some sl) == (link, fn)

/-- EF1124-compatible alignment mode of an owner (10 R233); the infrastructure is native (assumption 16). -/
def compatMode (s : State) (owner : Option Nat) : Bool :=
  match owner with
  | none => false
  | some sl => objOn s 0xB000 0x0A sl

def ownerDraining (s : State) (owner : Option Nat) : Bool :=
  let f := ownerFn s owner
  (fnGet s f.1 f.2).state == .draining ||
    (match owner with | some sl => (slice s sl).state == .draining | none => false)

/-! ## Translation (11 R261, R262) -/

/-- A page's address without and with translation. -/
inductive Translated where
  | ready (addr : Nat) | wait | refused
deriving DecidableEq, Repr

/-- Translate the page of `addr` for a requester: untranslated when ATS is off or on a hit, otherwise a Translation
Request is sent once and the access waits; none is sent while the function may issue no request (11 R263, R272) or the fence
stands (14 R333). A DRAINING slice is refused (12 R287). -/
def translate (s : State) (owner : Option Nat) (r : Nat × Nat × Option Nat) (addr : Nat) (write : Bool) :
    Translated × State :=
  let drains : Bool := match owner with | some sl => (slice s sl).state == SlState.draining | none => false
  let asks := mayRequest s r.1 r.2.1 && !s.pair.fence
  if drains then (.refused, s)
  else if !fnAts (fnGet s r.1 r.2.1) then (.ready addr, s)
  else
    let page := addr / 4096
    match s.hst.atc.find? (fun (e : AtcEntry) => e.link == r.1 && e.fn == r.2.1 && e.pasid == r.2.2 && e.page == page) with
    | some e => (.ready (e.to_ * 4096 + addr % 4096), s)
    | none =>
      if !asks || s.hst.holds.any (fun (h : HHold) => h.link == r.1 && h.fn == r.2.1 && h.pasid == r.2.2 && h.page == page) then
        (.wait, s)
      else
        let tag := s.hst.nextTag
        let s := { s with hst := { s.hst with
          nextTag := tag + 1, holds := s.hst.holds ++ [HHold.mk tag r.1 r.2.1 r.2.2 page write false] } }
        (.wait, countLink (emit (wakeLink s r.1) (.ats r.1 r.2.1 r.2.2 (page * 4096) tag)) r.1 0x0B)

/-- The entries of a function leave the translation cache. -/
def atcDrop (s : State) (link fn : Nat) : State :=
  { s with hst := { s.hst with atc := s.hst.atc.filter (fun e => !(e.link == link && e.fn == fn)) } }

/-! ## Reads (11 R268) -/

/-- Tags a link may use (11 R268). -/
def tagLimit (s : State) (link : Nat) : Nat :=
  if (linkGet s link).flit then 16384
  else if (cfgGet (fnGet s link 0) 0x098).getLsbD 12 then 768 else 256

/-- Non-posted reads outstanding on a controller, quarantined tags not counted. -/
def readsOn (s : State) (ctl : Nat) : Nat := (s.hst.reads.filter (fun r => r.link / 2 == ctl && !r.quar)).length

/-- The lowest free tag of a link among the first `k`. -/
def freeTag (s : State) (link : Nat) : Nat → Nat → Option Nat
  | 0, _ => none
  | k + 1, t =>
    if s.hst.reads.any (fun r => r.link == link && r.tag == t) then freeTag s link k (t + 1) else some t

/-- Send a read, under the cached translation of `page` where it uses one; none: no tag is free and the unit waits
(11 R268). -/
def sendRead (s : State) (r : Nat × Nat × Option Nat) (addr len ch unit part : Nat) (page : Option Nat) : Option State :=
  if 8192 ≤ readsOn s (r.1 / 2) then none
  else match freeTag s r.1 (min (tagLimit s r.1) (s.hst.reads.length + 1)) 0 with
    | none => none
    | some t =>
      let h : HRead := ⟨r.1, t, r.2.1, r.2.2, addr, len, ch, unit, part, now s, false, 0, page, s.hst.nextTag⟩
      let s := { s with hst := { s.hst with reads := s.hst.reads ++ [h] } }
      some (emit (wakeLink s r.1) (.hostRead r.1 r.2.1 r.2.2 addr len t))

/-- The reads of a stopped unit or function keep their tags in quarantine until their completion, or 4T after the moment
their timeout falls (11 R271). -/
def quarantineReads (s : State) (which : HRead → Bool) : State :=
  { s with hst := { s.hst with
      reads := s.hst.reads.map (fun r =>
        if which r && !r.quar then { r with quar := true, from_ := r.since + timeoutSlots s r.link r.fn } else r) } }

/-- A host write leaves, unless the fence stops it (14 R333). -/
def hostWrite (s : State) (r : Nat × Nat × Option Nat) (addr : Nat) (bs : List Byte) (relaxed : Bool) : State :=
  if s.pair.fence || bs.isEmpty then s else emit (wakeLink s r.1) (.hostWrite r.1 r.2.1 r.2.2 addr bs relaxed)

/-- A write of the endpoint's own, a completion entry or a head-pointer write-back: never relaxed (11 R254), and translated
where ATS is on (R261). False: it waits for its translation, which has been asked for, or is refused. -/
def hostPost (s : State) (owner : Option Nat) (r : Nat × Nat × Option Nat) (addr : Nat) (bs : List Byte) : Bool × State :=
  match translate s owner r addr true with
  | (.ready a, s) => (true, hostWrite s r a bs false)
  | (_, s) => (false, s)

/-! ## Queue pairs -/

def resetQp : Qp :=
  { sqTail := 0, cqHead := 0, head := 0, cqTail := 0, pos := 0, phase := true, asked := 0, got := none, gotBeat := 0, stuck := false,
    unread := 0 }

def qpGet (s : State) (k : Nat) : Qp := sget resetQp s.slc.qps k

def qpPut (s : State) (k : Nat) (x : Qp) : State := { s with slc := { s.slc with qps := sset resetQp s.slc.qps k x } }

/-- The owner, link and number of a queue pair: slice × 64 + q, or (16,384 + link) × 64 + q. -/
def qpOwner (k : Nat) : Option Nat := if k / 64 < 16384 then some (k / 64) else none
def qpLink (s : State) (k : Nat) : Nat :=
  match qpOwner k with | some sl => (ownerFn s (some sl)).1 | none => k / 64 - 16384
def qpNum (k : Nat) : Nat := k % 64

def qpOrd (s : State) (k : Nat) : OrdQ :=
  match qpOwner k with
  | some sl => .host false sl 0 (qpNum k)
  | none => .host true 0 (qpLink s k) (qpNum k)

def qpKey : OrdQ → Nat
  | .host infra sl link q => (if infra then 16384 + link else sl) * 64 + q
  | _ => 0

/-- A ring object of an infrastructure queue pair, within the range of its row (assumption 17). -/
def infraObj (k sub : Nat) : Nat :=
  let v := Config.infraRing k sub
  match sub with
  | 1 => v % 2
  | 3 => 2 + v % 65535
  | 5 => 2 + v % 65535
  | 6 => v * 8 % 2 ^ 64
  | 7 => v % 2048
  | 8 => v % 64
  | _ => v * 64 % 2 ^ 64

/-- A ring object of a queue pair (12 Table 12-6); element [s][q] is s × 64 + q. -/
def qpObj (s : State) (k sub : Nat) : Nat :=
  match qpOwner k with
  | some _ => objGet s 0xB100 sub k
  | none => infraObj k sub

/-- The queue pair's enable is set, and its slice still owns it: its number is below qp_count (12 R281). -/
def qpEnabled (s : State) (k : Nat) : Bool :=
  qpObj s k 0x01 != 0 && (match qpOwner k with | some sl => decide (k % 64 < objGet s 0xB001 0x01 sl) | none => true)

/-- The function that a queue pair's owner uses. -/
def qpFn (s : State) (k : Nat) : Nat × Nat :=
  match qpOwner k with | some sl => ownerFn s (some sl) | none => (qpLink s k, 0)

/-! ## The mailbox (16 R389, R390) -/

def box (s : State) (k : Nat) : Mailbox := s.uhl.boxes.getD k resetMailbox

def setBox (s : State) (k : Nat) (b : Mailbox) : State := { s with uhl := { s.uhl with boxes := lset s.uhl.boxes k b } }

/-- A reply, or nothing for a PDU that was discarded, ends REQ_BUSY and raises MB_VECTOR. -/
def boxReply (s : State) (k : Nat) (bs : List Byte) : State :=
  let b := box s k
  let s := setBox s k { b with
    reply := bs, replyLen := BitVec.ofNat 13 bs.length, replyReady := true, busy := false }
  raiseVector s k 0 b.vector.toNat

/-- An EVENT PDU is placed in MB_EVENT. -/
def boxEvent (s : State) (k : Nat) (bs : List Byte) : State :=
  let b := box s k
  let s := setBox s k { b with event := bs, eventLen := BitVec.ofNat 13 bs.length, eventReady := true }
  raiseVector s k 0 b.vector.toNat

/-- A session that goes leaves no request of its mailbox busy: one that it holds, or whose reply is due, ends REQ_BUSY without a
reply (16 R390). -/
def boxLeaves (s : State) (x : Session) : State :=
  if 1 ≤ x.transport ∧ x.transport ≤ 4 ∧ (box s (x.transport - 1)).busy ∧
      (!x.held.isEmpty ∨ x.cache.any (fun c => !c.sent)) then boxReply s (x.transport - 1) []
  else s

end Sys2Proof.Machine
end

