-- ==== Sys2Proof/Machine/DmaOps.lean ====
section
/-!
DEFINITION. Operations of the DMA engine: the plan of a transfer, its chunks, reads and writes, completions, halts and
stops (10 R225–R246).
-/

namespace Sys2Proof.Machine

def resetChan : Chan :=
  { src := 0, dst := 0, count := 0, srcN := 0, dstN := 0, fill := 0, ctrl := 0, refTag := 0, appTag := 0, keySlot := 0,
    ignored := false, failDir := false, failList := false, code := 0, detail := 0, failAddr := 0, done := 0, crc := 0,
    completions := 0, state := .idle, inPre := false, route := .reg, owner := none, compat := false, sRanges := [],
    dRanges := [], sAsked := 0, dAsked := 0, sRead := 0, dRead := 0, badList := false, next := 0, fin := 0, units := [],
    nextUnit := 0, data := [], out := [], xtsRes := none, misaligned := false, flr := false, xts := false, stop := none }

def chan (s : State) (c : Nat) : Chan := sget resetChan s.dma.chans c

/-- Register block of a channel as 128 bytes (10 Table 10-1), CMD reading 0. -/
def chanBytes (x : Chan) : List Byte :=
  let st := match x.state with
    | .idle => 0 | .precheck => 1 | .active => 2 | .halted => 3 | .stopping => 4 | .quarantined => 5
  leBytes 8 x.src.toNat ++ leBytes 8 x.dst.toNat ++ leBytes 4 x.count.toNat ++ leBytes 2 x.srcN.toNat ++
  leBytes 2 x.dstN.toNat ++ leBytes 8 x.fill.toNat ++ leBytes 8 x.ctrl.toNat ++ leBytes 4 x.refTag.toNat ++
  leBytes 4 x.appTag.toNat ++ leBytes 4 x.keySlot.toNat ++ leBytes 4 0 ++
  leBytes 4 (st + (if x.ignored then 8 else 0) + (if x.failDir then 16 else 0) + (if x.failList then 32 else 0)
    + x.code.toNat * 2 ^ 8 + x.detail.toNat * 2 ^ 16) ++ leBytes 4 0 ++
  leBytes 8 x.failAddr.toNat ++ leBytes 4 x.done.toNat ++ leBytes 4 x.crc.toNat ++ leBytes 4 x.completions.toNat ++
  List.replicate 44 0

/-- A channel with the registers of a saved block. -/
def chanOf (bs : List Byte) : Chan :=
  let w (o n : Nat) : Nat := leNat (bytesAt bs o n)
  { resetChan with
    src := BitVec.ofNat 64 (w 0 8), dst := BitVec.ofNat 64 (w 8 8), count := BitVec.ofNat 32 (w 16 4)
    srcN := BitVec.ofNat 16 (w 20 2), dstN := BitVec.ofNat 16 (w 22 2), fill := BitVec.ofNat 64 (w 24 8)
    ctrl := BitVec.ofNat 64 (w 32 8), refTag := BitVec.ofNat 32 (w 40 4), appTag := BitVec.ofNat 16 (w 44 2)
    keySlot := BitVec.ofNat 20 (w 48 4), ignored := (byteAt bs 56).getLsbD 3, failDir := (byteAt bs 56).getLsbD 4
    failList := (byteAt bs 56).getLsbD 5, code := byteAt bs 57, detail := byteAt bs 58
    failAddr := BitVec.ofNat 64 (w 64 8), done := BitVec.ofNat 32 (w 72 4), crc := BitVec.ofNat 32 (w 76 4)
    completions := BitVec.ofNat 32 (w 80 4) }

/-- Each 8-byte word of the register block that differs enters the delta (14 Table 14-1). -/
def recordChan (s : State) (c : Nat) (x y : Chan) : State :=
  if recording s then
    let a := chanBytes x
    let b := chanBytes y
    (List.range 11).foldl (fun s i =>
      let v := bytesAt b (8 * i) 8
      if bytesAt a (8 * i) 8 = v then s else record s (.register (c * 256 + 8 * i) (leNat v))) s
  else s

def setChan (s : State) (c : Nat) (x : Chan) : State :=
  let s := recordChan s c (chan s c) x
  { s with dma := { s.dma with chans := sset resetChan s.dma.chans c x } }

/-! ## CTRL fields (10 Table 10-2) -/

def cOp (x : Chan) : Nat := fld x.ctrl 1 2
def cSrcSg (x : Chan) : Bool := x.ctrl.getLsbD 3
def cDstSg (x : Chan) : Bool := x.ctrl.getLsbD 4
def cSrcSpace (x : Chan) : Nat := fld x.ctrl 5 2
def cDstSpace (x : Chan) : Nat := fld x.ctrl 7 2
def cCrc (x : Chan) : Nat := fld x.ctrl 9 2
def cDif (x : Chan) : Nat := fld x.ctrl 11 2
def cBlock (x : Chan) : Nat := if x.ctrl.getLsbD 13 then 4096 else 512
def cXts (x : Chan) : Bool := x.ctrl.getLsbD 14
def cXtsDec (x : Chan) : Bool := x.ctrl.getLsbD 15
def cUrgent (x : Chan) : Bool := x.ctrl.getLsbD 16
def cNotify (x : Chan) : Bool := x.ctrl.getLsbD 17

def isCopy (x : Chan) : Bool := cOp x == 0
def isFill (x : Chan) : Bool := cOp x == 1
def isCompare (x : Chan) : Bool := cOp x == 2

/-- The bytes pass through the channel's buffers: CRC, DIF or XTS (10 R237–R239). -/
def transforms (x : Chan) : Bool := cCrc x != 0 || cDif x != 0 || cXts x

/-! ## Lengths (10 R236–R239) -/

/-- Bytes the source side needs. -/
def srcNeed (x : Chan) : Nat :=
  if isFill x then 0 else if cCrc x = 3 then x.count.toNat + 4 else x.count.toNat

/-- Bytes the destination side needs. -/
def dstNeed (x : Chan) : Nat :=
  let n := x.count.toNat
  let b := cBlock x
  if cCrc x = 2 then n + 4
  else if cDif x = 1 then n + 8 * (n / b)
  else if cDif x = 3 then n - 8 * (n / (b + 8))
  else n

/-- Source bytes consumed once `d` bytes of the processing side are done. -/
def srcOf (x : Chan) (d : Nat) : Nat :=
  let n := x.count.toNat
  let b := cBlock x
  if cCrc x = 2 then min d n
  else if cCrc x = 3 then (if d = n then n + 4 else d)
  else if cDif x = 1 then d / (b + 8) * b + min (d % (b + 8)) b
  else if cDif x = 3 then d / b * (b + 8) + d % b
  else d

/-- The source byte that byte `d` of the processing side belongs to: a tuple and an appended CRC belong to the byte before
them (10 R235). -/
def srcByte (x : Chan) (d : Nat) : Nat :=
  let n := x.count.toNat
  let b := cBlock x
  if cCrc x = 2 then min d (n - 1)
  else if cDif x = 1 then d / (b + 8) * b + min (d % (b + 8)) (b - 1)
  else if cDif x = 3 then d / b * (b + 8) + d % b
  else d

/-- The offset on the processing side that `p` bytes of the source fill: the inverse of `srcOf`. -/
def dstOf (x : Chan) (p : Nat) : Nat :=
  let n := x.count.toNat
  let b := cBlock x
  if cCrc x = 2 then (if n ≤ p then n + 4 else p)
  else if cCrc x = 3 then min p n
  else if cDif x = 1 then p / b * (b + 8) + p % b
  else if cDif x = 3 then p / (b + 8) * b + min (p % (b + 8)) b
  else p

/-- DONE_BYTES of a run of `d` bytes of the processing side (10 R240). -/
def doneBytes (x : Chan) (d : Nat) : Nat := min (srcOf x d) x.count.toNat

/-- A unit rule of R238 and R239 is broken. -/
def badUnits (x : Chan) : Bool :=
  let n := x.count.toNat
  let b := cBlock x
  if cDif x = 1 then n % b != 0
  else if cDif x ≠ 0 then n % (b + 8) != 0
  else if cXts x then n % b != 0
  else false

/-! ## Ranges and segments (10 R235) -/

def rangesLen (rs : List (Nat × Nat)) : Nat := (rs.map (·.2)).sum

/-- The address at offset `off` of ranges laid end to end, and the bytes left in that range. -/
def rangeAt : List (Nat × Nat) → Nat → Nat × Nat
  | [], _ => (0, 0)
  | (a, n) :: r, off => if off < n then (a + off, n - off) else rangeAt r (off - n)

/-- The start of the range that holds `off`. -/
def rangeStart : List (Nat × Nat) → Nat → Nat → Nat
  | [], _, acc => acc
  | (_, n) :: r, off, acc => if off < n then acc else rangeStart r (off - n) (acc + n)

/-- The pieces (address, length) of `len` bytes from `off`; at most one per range. -/
def pieces : List (Nat × Nat) → Nat → Nat → List (Nat × Nat)
  | [], _, _ => []
  | (a, n) :: r, off, len =>
    if len = 0 then []
    else if off < n then
      let k := min len (n - off)
      (a + off, k) :: pieces r 0 (len - k)
    else pieces r (off - n) len

/-- Cut a piece at every multiple of `m` of its address, at most `fuel` times. -/
def cutAt (m : Nat) : Nat → Nat × Nat → List (Nat × Nat)
  | 0, p => [p]
  | fuel + 1, (a, n) =>
    let k := m - a % m
    if n ≤ k then [(a, n)] else (a, k) :: cutAt m fuel (a + k, n - k)

/-- The two sides map byte for byte. -/
def identical (x : Chan) : Bool := cCrc x ≤ 1 && (cDif x == 0 || cDif x == 2)

/-- Length of the processing side: the destination, or the source for COMPARE (10 R225). -/
def sideLen (x : Chan) : Nat := if isCompare x then x.count.toNat else dstNeed x

/-- Start and end of the segment that holds offset `p` of the processing side (10 R235). -/
def segment (x : Chan) (p : Nat) : Nat × Nat :=
  let d0 := rangeStart x.dRanges p 0
  let d1 := p + (rangeAt x.dRanges p).2
  let q := srcByte x p
  let s0 := dstOf x (rangeStart x.sRanges q 0)
  let s1 := dstOf x (q + (rangeAt x.sRanges q).2)
  if isFill x then (d0, min d1 (sideLen x)) else (max d0 s0, min (min d1 s1) (sideLen x))

/-- Destination above source in one space, overlapping: the segment's chunks run in descending order (10 R236). -/
def descends (x : Chan) (seg : Nat × Nat) : Bool :=
  let sa := (rangeAt x.sRanges seg.1).1
  let da := (rangeAt x.dRanges seg.1).1
  isCopy x && !cXts x && identical x && cSrcSpace x == cDstSpace x && decide (sa < da) &&
    decide (da < sa + (seg.2 - seg.1))

/-- Source and destination of a segment overlap in one space (10 R236). -/
def segOverlaps (x : Chan) (seg : Nat × Nat) : Bool :=
  let sa := (rangeAt x.sRanges seg.1).1
  let da := (rangeAt x.dRanges seg.1).1
  isCopy x && cSrcSpace x == cDstSpace x && overlaps sa (seg.2 - seg.1) da (seg.2 - seg.1)

/-- The chunk at place `p` of processing order: offset and length on the processing side (10 R225, R236). -/
def chunkAt (x : Chan) (p : Nat) : Nat × Nat :=
  let seg := segment x p
  let side := if isCompare x then x.sRanges else x.dRanges
  let base := (rangeAt side seg.1).1
  let q := p - seg.1
  if descends x seg then
    let hi := seg.2 - q
    let a := base + (hi - seg.1) - 1
    let lo := max seg.1 (hi - (a % 128 + 1))
    (lo, hi - lo)
  else
    let a := base + q
    let hi := min seg.2 (p + (128 - a % 128))
    (p, hi - p)

/-! ## Form (10 R231) -/

def badForm (x : Chan) : Bool :=
  let op := cOp x
  let transform := cCrc x != 0 || cDif x != 0 || cXts x
  op == 3 || (cSrcSpace x == 3 && !isFill x) || cDstSpace x == 3 || fld x.ctrl 18 14 != 0 ||
  (cCrc x != 0 && (cDif x != 0 || cXts x)) ||
  (transform && op != 0) ||
  (cXts x && !cXtsDec x && cDif x == 3) || (cXts x && cXtsDec x && cDif x == 1) ||
  (cSrcSg x && !isFill x && x.src.toNat % 16 != 0) || (cDstSg x && x.dst.toNat % 16 != 0)

/-- A form fault that the ranges show: a transforming copy between overlapping ranges of one space (10 R231). -/
def badOverlap (x : Chan) : Bool :=
  (cCrc x ≥ 2 || cDif x != 0 || cXts x) && cSrcSpace x == cDstSpace x &&
    x.sRanges.any (fun a => x.dRanges.any (fun b => overlaps a.1 a.2 b.1 b.2))

/-- A device range inside the channel's window (10 R232). -/
def inWindow (s : State) (c : Nat) (r : Nat × Nat) : Bool :=
  let b := objGet s 0xA800 0x02 c
  let n := objGet s 0xA800 0x03 c
  r.2 == 0 || (decide (b ≤ r.1) && decide (r.1 + r.2 ≤ b + n))

/-! ## Results -/

/-- The result message of an ISSUE start (10 Table 10-8). -/
def dmaResult (c : Nat) (x : Chan) (halted : Bool) : BitVec 512 :=
  BitVec.ofNat 512 (x.code.toNat + x.detail.toNat * 2 ^ 8 + c % 4096 * 2 ^ 16 + (if halted then 2 ^ 28 else 0)
    + (if x.failDir then 2 ^ 29 else 0) + (if x.failList then 2 ^ 30 else 0) + x.done.toNat * 2 ^ 32
    + x.failAddr.toNat * 2 ^ 64 + x.crc.toNat * 2 ^ 128)

/-- A result message for a channel of a cluster; it enters the ring at RESULT_DELIVERY (07 R171). -/
def putResult (s : State) (cl ch : Nat) (msg : BitVec 512) (eng entry : Option Nat) : State :=
  let x := channel s cl ch
  setChannel s cl ch { x with results := x.results ++ [(msg, eng, entry)] }

/-- The interrupt of a channel (11 R259). -/
def dmaNotify (s : State) (c : Nat) (x : Chan) : State :=
  if cNotify x then
    let f := ownerFn s x.owner
    raiseVector s f.1 f.2 (objGet s 0xA200 0x01 c)
  else s

/-- Counters of a completion (10 Table 10-10). -/
def dmaCount (s : State) (c : Nat) (status : BitVec 8) (done : Nat) : State :=
  let s := count s 0xC0D0 0x01
  let s := countN s 0xC0D0 0x02 done
  let s := countAt s 0xC0D1 0x01 c
  let s := ctrAddAt s 0xC0D1 0x02 c done
  match status.toNat with
  | 6 => count s 0xC0D0 0x06
  | 5 => count s 0xC0D0 0x07
  | 9 => count s 0xC0D0 0x08
  | 3 => count s 0xC0D0 0x09
  | _ => s

/-- What a channel holds of a transfer is cleared when the transfer ends. -/
def chanClear (x : Chan) : Chan :=
  { x with sRanges := [], dRanges := [], sAsked := 0, dAsked := 0, sRead := 0, dRead := 0, badList := false, next := 0,
           fin := 0, units := [], nextUnit := 0, data := [], out := [], xtsRes := none, misaligned := false, xts := false,
           stop := none, inPre := false }

/-- A cipher request of a transfer that has ended belongs to no channel any more and stops (10 R239, 09 R218). -/
def orphanRequest (s : State) (c : Nat) : State :=
  { s with cip := { s.cip with
      reqs := s.cip.reqs.map (fun r =>
        if r.src = .dma c then { r with src := .dma 4096, stop := some (r.stop.getD (1, 0x0F)) } else r)
      dmaWait := s.cip.dmaWait.filter (· != c) } }

/-- The descriptors fetched enter the delta, pending acceptance (14 R322). -/
def recordDescs (s : State) (qp head esz : Nat) (bs : List Byte) : State :=
  (List.range (bs.length / esz)).foldl
    (fun s i => record s (.descriptor qp ((head + i) % qpObj s qp 0x03) (bytesAt bs (i * esz) esz))) s

/-- Destination bytes in device memory, as pieces, that a transfer of DONE_BYTES `done` leaves beyond its finished run in
processing order (10 R240, assumption 200); none before the checks have passed (10 R230), and none of a COMPARE (10 R236). -/
def beyondDone (x : Chan) (done : Nat) : List (Nat × Nat) :=
  let moved := match x.state with
    | .active => true | .stopping => true | .halted => !x.inPre | _ => false
  let fetch := match x.route with | .fetch _ => true | _ => false
  if !moved || fetch || isCompare x || cDstSpace x != 2 then []
  else
    let p := if done = doneBytes x x.fin then x.fin else if identical x then done else 0
    let seg := segment x p
    if descends x seg then pieces x.dRanges seg.1 (seg.2 - p) ++ pieces x.dRanges seg.2 (sideLen x - seg.2)
    else pieces x.dRanges p (sideLen x - p)

/-- `n` bytes of device memory from `a` become free values, but for bytes that the memory firewall locks. -/
def freeBytes (s : State) (k a n : Nat) : State :=
  (List.range n).foldl (fun s i => hbmStore s (a + i) [Config.freeByte k (a + i)]) s

/-- Destination bytes beyond DONE_BYTES are undefined after any status other than OK and TAG_FAIL (10 R240). -/
def freeBeyond (s : State) (x : Chan) (status : BitVec 8) (done : Nat) : State :=
  if status = 0 ∨ status = 3 then s
  else (beyondDone x done).foldl (fun s p => freeBytes s s.fresh p.1 p.2) { s with fresh := s.fresh + 1 }

/-- The registers of a channel that an FLR found busy are reset once it is IDLE (10 R244). -/
def flrReset (s : State) (c : Nat) : State := if (chan s c).flr then setChan s c resetChan else s

/-- A transfer completes with a status, a detail and DONE_BYTES, by its start route (10 R240). -/
def dmaComplete (s : State) (c : Nat) (status detail : BitVec 8) (done : Nat) : State :=
  let x := chan s c
  let s := orphanRequest (quarantineReads s (fun r => r.ch == c)) c
  let y := { chanClear x with
    state := .idle, code := status, detail := detail, done := BitVec.ofNat 32 done,
    failAddr := if x.state = .halted then x.failAddr else 0,
    completions := x.completions + 1 }
  let s := freeBeyond (setChan s c y) x status done
  let s := flrReset (dmaCount s c status done) c
  match x.route with
  | .reg => dmaNotify s c y
  | .issue cl e ch _ => putResult (dmaNotify s c y) cl ch (dmaResult c y false) (some e) none
  | .fetch qp =>
    let q := qpGet s qp
    if status = 0 then
      let bs := (x.data.map (·.2)).flatten
      recordDescs (qpPut s qp { q with got := some bs, gotBeat := s.clk.beat }) qp q.head (if x.compat then 32 else 64) bs
    else qpPut s qp { q with asked := 0, got := none, stuck := true }

/-- A channel with a failure latched (10 R242). -/
def latched (x : Chan) (addr : Nat) (detail : BitVec 8) (dir list : Bool) : Chan :=
  { x with
    code := 4, detail := detail, failAddr := BitVec.ofNat 64 addr, failDir := dir, failList := list
    done := BitVec.ofNat 32 (doneBytes x x.fin) }

/-- A unit that fails halts the channel and latches the failure (10 R242). A halt of an ISSUE start sends a result that does
not end the ISSUE: the engine stays the one asked. -/
def dmaHalt (s : State) (c : Nat) (addr : Nat) (detail : BitVec 8) (dir list : Bool) : State :=
  let x := chan s c
  let y := { latched x addr detail dir list with state := .halted, inPre := x.state = .precheck }
  let s := count (setChan s c y) 0xC0D0 0x03
  let s := dmaNotify s c y
  match x.route with
  | .issue cl _ ch _ => putResult s cl ch (dmaResult c y true) none none
  | _ => s

/-- FAIL_ADDR: the first byte of the failing chunk's range on the failing side, or the failing list unit (10 R242). -/
def haltAddress (x : Chan) (u : DUnit) : Nat :=
  if u.kind = 0 then (rangeAt (if u.side then x.dRanges else x.sRanges) (if u.side then u.lo else srcOf x u.lo)).1
  else (u.reads.head?.map (·.addr)).getD 0

/-- A transfer stopped from outside completes (10 R244, R245, Table 10-10). -/
def stopComplete (s : State) (c : Nat) (status detail : BitVec 8) : State :=
  dmaComplete (count s 0xC0D0 0x0B) c status detail (doneBytes (chan s c) (chan s c).fin)

/-- A stop from outside (10 R244, R245): units that wait for a read are abandoned, units whose data has arrived finish
with every write suppressed, and the channel completes at once when none is left. A channel that is STOPPING already
completes with the stop it met first. -/
def dmaStop (s : State) (c : Nat) (status detail : BitVec 8) : State :=
  let x := chan s c
  match x.state with
  | .precheck | .active | .halted =>
    let s := quarantineReads s (fun r => r.ch == c)
    let left := x.units.filter (fun u => u.kind == 0 && !u.done && u.fail.isNone && u.reads.all (fun r => r.data.isSome))
    if x.state = .halted ∨ left = [] then stopComplete s c status detail
    else setChan s c { x with state := .stopping, units := left, stop := some (status, detail) }
  | _ => s

/-- Stop every channel that a predicate names, in ascending number. -/
def dmaStopAll (s : State) (which : Nat → Chan → Bool) (status detail : BitVec 8) : State :=
  (s.dma.chans.filter (fun e => which e.1 e.2)).foldl (fun s e => dmaStop s e.1 status detail) s

/-- A pair fault on CTRL: PAIR_FAULT, counted. Found before a unit it quarantines the channel and raises a pair-fault event
(10 R246); found by the checks of a precheck it ends the transfer (10 R230). -/
def dmaPairFault (s : State) (c : Nat) (beforeUnit : Bool) : State :=
  let x := chan s c
  let s := dmaComplete (count s 0xC0D0 0x0A) c 7 0x08 (doneBytes x x.fin)
  if beforeUnit then event (setChan s c { chan s c with state := .quarantined }) 0x0007 28 c else s

/-- Units in flight. -/
def inFlight (x : Chan) : Nat := (x.units.filter (fun u => !u.done)).length

/-! ## Starting (10 R227, R229) -/

/-- COUNT 0 completes at once with OK; a draining owner refuses the start; else PRECHECK begins. -/
def dmaStart (s : State) (c : Nat) (x : Chan) (route : Route) (owner : Option Nat) : State :=
  let y : Chan := { chanClear x with
    flr := false, route := route, owner := owner, compat := compatMode s owner, failDir := false, failList := false,
    failAddr := 0, crc := 0 }
  if y.count == 0#32 then dmaComplete (setChan s c y) c 0 0 0
  else setChan s c { y with state := .precheck }

end Sys2Proof.Machine
end

