-- ==== Sys2Proof/Machine/CipOps.lean ====
section
/-!
DEFINITION. Operations of the cipher engines and of Kennel: request fields, issue, stops, slots, the cache, users and
old generations (09 R200–R218).
-/

namespace Sys2Proof.Machine

/-! ## Cipher request fields (09 Table 9-2) -/

def rAlg (r : CReq) : Nat := fld r.raw 0 4
def rDec (r : CReq) : Bool := r.raw.getLsbD 4
def rUrgent (r : CReq) : Bool := r.raw.getLsbD 5
def rSlot (r : CReq) : Nat := fld r.raw 8 20
def rMsg (r : CReq) : Nat := fld r.raw 32 32
def rAad (r : CReq) : Nat := fld r.raw 64 32
def rChannel (r : CReq) : Nat := fld r.raw 96 8
def rDu (r : CReq) : Nat := fld r.raw 104 4
def rPi (r : CReq) : Bool := r.raw.getLsbD 108
def rTagLen (r : CReq) : Nat := fld r.raw 112 6
def rSrc (r : CReq) : Nat := fld r.raw 128 64
def rDst (r : CReq) : Nat := fld r.raw 192 64
def rAadAt (r : CReq) : Nat := fld r.raw 256 64
def rIv (r : CReq) : Nat := fld r.raw 320 128
def rTagAt (r : CReq) : Nat := fld r.raw 448 64

/-- Grants of 64 bytes a request uses: its AAD first, then its message, and at least one (09 R200, R201). -/
def rGrants (r : CReq) : Nat := max 1 ((rAad r + rMsg r + 63) / 64)

/-- The bytes of a request's next grant. -/
def grantLen (r : CReq) : Nat := min 64 (rAad r + rMsg r - 64 * r.grants)

/-- Bytes of an XTS unit, and of the unit with its tuple (09 Table 9-6). -/
def unitData (r : CReq) : Nat := if rDu r = 0 then 512 else 4096
def unitBytes (r : CReq) : Nat := unitData r + (if rPi r then 8 else 0)

/-- Bytes of a block of the ALG (09 R203). -/
def rBlock (r : CReq) : Nat := if rAlg r = 8 ∨ rAlg r = 9 then 64 else 16

/-- The last block boundary at or before byte `p` of a request's stream: a boundary every block of the AAD and of the
message, and at the ends of both; the tuple of an XTS unit adds none (09 R203, R210). -/
def blockFloor (r : CReq) (p : Nat) : Nat :=
  let a := rAad r
  if a + rMsg r ≤ p then a + rMsg r
  else if p < a then p / rBlock r * rBlock r
  else if rAlg r = 3 then
    let w := (p - a) % unitBytes r
    p - w + (if unitData r ≤ w then unitData r else w / 16 * 16)
  else a + (p - a) / rBlock r * rBlock r

/-- Message bytes processed: DONE_BYTES of a request that stops (09 R205). -/
def rDone (r : CReq) : Nat := r.proc - rAad r

/-- The request writes message output at DST. -/
def hasOutput (r : CReq) : Bool := [1, 3, 4, 5, 7].contains (rAlg r)

/-- The request uses a Kennel slot (09 Table 9-3). -/
def rKeyed (r : CReq) : Bool := rAlg r != 8 && rAlg r != 11

def creq (s : State) (id : Nat) : Option CReq := s.cip.reqs.find? (fun r => r.id == id)

def creqPut (s : State) (r : CReq) : State :=
  { s with cip := { s.cip with reqs := s.cip.reqs.map (fun x => if x.id = r.id then r else x) } }

def resetEng : CEng := { queue := [], run := none, ctx := [], out := false, key := [] }

def ceng (s : State) (e : Nat) : CEng := sget resetEng s.cip.engs e

def setEng (s : State) (e : Nat) (x : CEng) : State :=
  { s with cip := { s.cip with engs := sset resetEng s.cip.engs e x } }

/-- Requests of a source that still have bytes to move: its issue queue (09 R200). -/
def issueQueue (s : State) (which : CSrc → Bool) : List CReq :=
  s.cip.reqs.filter (fun r => which r.src && decide (r.grants < rGrants r))

/-- A request enters the issue queue of its source. -/
def cipherIssue (s : State) (src : CSrc) (raw : BitVec 512) (owner : Option Nat) : State :=
  { s with cip := { s.cip with
      reqs := s.cip.reqs ++ [⟨s.cip.nextId, src, raw, owner, 0, none, false, false, none, 0, none, [], 0, false, 0⟩]
      nextId := s.cip.nextId + 1 } }

/-- Users that a predicate names stop at their next block boundary with a status and a detail (09 R218). -/
def cipStop (s : State) (which : CReq → Bool) (status detail : BitVec 8) : State :=
  { s with cip := { s.cip with
      reqs := s.cip.reqs.map (fun r => if which r && r.stop.isNone then { r with stop := some (status, detail) } else r) } }

/-- The work a Jutex request was issued for. -/
def reqWork (r : CReq) : Option Work := match r.src with | .jutex _ _ w => w | _ => none

/-! ## Kennel slots (09 R212–R214) -/

def emptySlot : KenSlot :=
  { state := .empty, kind := 0, slice := 0, infra := false, gen := 0, useCur := 0, useOld := 0, oldPresent := false,
    material := 0 }

def slotGet (s : State) (n : Nat) : KenSlot := sget emptySlot s.ken.slots n

/-- Change a slot without a delta record: use counts live only in the cached copy (09 R213). -/
def slotUse (s : State) (n : Nat) (k : KenSlot) : State :=
  { s with ken := { s.ken with slots := sset emptySlot s.ken.slots n k } }

/-- The HBM copy of a slot is written again, under the next value of the wrap counter (09 R212). -/
def slotWrap (s : State) (n : Nat) : State :=
  { s with ken := { s.ken with wraps := sset 0 s.ken.wraps n s.ken.wrap, wrap := (s.ken.wrap + 1) % 2 ^ 52 } }

/-- The metadata value (09 Table 9-8). -/
def slotMeta (k : KenSlot) : Nat :=
  (match k.state with | .empty => 0 | .live => 1 | .erasePending => 2 | .quarantined => 3)
    + k.kind % 16 * 2 ^ 3 + k.slice % 2 ^ 14 * 2 ^ 7 + (if k.infra then 2 ^ 21 else 0) + k.gen % 2 ^ 20 * 2 ^ 22
    + k.useCur % 2 ^ 10 * 2 ^ 42 + k.useOld % 2 ^ 10 * 2 ^ 52 + (if k.oldPresent then 2 ^ 62 else 0)

/-- The wrap nonce: slot, GEN and the wrap counter (09 Table 9-7), 12 bytes. -/
def wrapNonce (n gen ctr : Nat) : Nat := n % 2 ^ 20 + gen % 2 ^ 20 * 2 ^ 20 + ctr % 2 ^ 52 * 2 ^ 40

/-- The metadata that leaves the cache: the use fields read 0 (09 R213). -/
def storedMeta (k : KenSlot) : Nat := slotMeta { k with useCur := 0, useOld := 0, oldPresent := false }

/-- The 128 bytes of a wrapped slot (09 R212, Table 9-7): the metadata pair, the material and the tag of AES-256-GCM under
`key` with the pair as AAD, and the nonce. -/
def sealSlot (key : List Byte) (n ctr : Nat) (k : KenSlot) : List Byte :=
  let pair := leBytes 16 (pairOf 64 (storedMeta k))
  let iv := leBytes 12 (wrapNonce n k.gen ctr)
  let sealed := gcmText key iv (leBytes 64 k.material)
  pair ++ sealed ++ gcmTag key iv pair sealed ++ iv ++ List.replicate 20 0

/-- The slot that 128 wrapped bytes hold; none: the metadata pair or the tag is bad. -/
def unsealSlot (key : List Byte) (bs : List Byte) : Option KenSlot :=
  let pair := bytesAt bs 0 16
  let sealed := bytesAt bs 16 64
  let iv := bytesAt bs 96 12
  let m := leNat pair % 2 ^ 64
  if pairOk 64 (leNat pair) ∧ gcmTag key iv pair sealed = bytesAt bs 80 16 then
    some {
      state := match m % 8 with | 1 => .live | 2 => .erasePending | 3 => .quarantined | _ => .empty
      kind := m >>> 3 % 16, slice := m >>> 7 % 2 ^ 14, infra := m.testBit 21, gen := m >>> 22 % 2 ^ 20
      useCur := 0, useOld := 0, oldPresent := false
      material := leNat (gcmText key iv sealed) }
  else none

/-- A slot as HBM holds it, under the device key. A KENNEL_CACHE_FILL that fails is one whose copy no longer equals it. -/
def slotImage (s : State) (n : Nat) : List Byte := sealSlot (digestBytes Config.deviceKey) n (sget 0 s.ken.wraps n) (slotGet s n)

/-- Change a slot, in the cache and in HBM; the change enters the beat's delta, wrapped under the pair key (09 R212, R219,
14 R323, Table 14-1). With no pair key agreed no KENNEL record leaves (assumption 277). -/
def slotPut (s : State) (n : Nat) (k : KenSlot) : State :=
  let s := match recording s, s.pair.key with
    | true, some key => record s (.kennel n (sealSlot key n s.ken.wrap k))
    | _, _ => s
  slotWrap (slotUse s n k) n

/-- Material bytes of a KIND; 0 for a reserved kind (09 Table 9-11). -/
def kindBytes (k : Nat) : Nat :=
  match k with | 1 => 16 | 2 => 32 | 3 => 32 | 4 => 64 | 5 => 32 | 6 => 32 | 7 => 64 | 8 => 32 | _ => 0

/-- The kinds that suit an ALG (09 Table 9-3). -/
def kindSuits (alg kind : Nat) : Bool :=
  match alg with
  | 3 => kind == 3 || kind == 4
  | 7 => kind == 5
  | 9 => kind == 6 || kind == 7
  | 10 => kind == 8
  | _ => kind == 1 || kind == 2

def nextGen (g : Nat) : Nat := if g = 1048575 then 1 else g + 1

/-- A slice may create or use an empty slot of its key range, or the slot its mig_key_slot names (09 R215). -/
def sliceRange (s : State) (sl n : Nat) : Bool :=
  let b := objGet s 0xB001 0x02 sl
  decide (b ≤ n) && decide (n < b + objGet s 0xB001 0x03 sl)

/-- A request of `owner` acts on slot `n` as its owner (09 R215); an empty slot belongs to the infrastructure and to the
slice whose range holds it (assumption 18). -/
def slotOwned (s : State) (owner : Option Nat) (cores : Bool) (n : Nat) : Bool :=
  let k := slotGet s n
  match k.state, owner with
  | .empty, none => true
  | .empty, some sl => sliceRange s sl n || (cores && objGet s 0xB002 0x01 sl == n)
  | _, none => k.infra
  | _, some sl => !k.infra && k.slice == sl

/-! ## The cache (09 R213): 4,096 sets of 16, set = slot mod 4,096, least recently used out first (assumption 19) -/

def pinned (s : State) (n : Nat) : Bool :=
  let k := slotGet s n
  k.useCur != 0 || k.useOld != 0 || k.oldPresent

def cached (s : State) (n : Nat) : Bool := s.ken.cached.contains n

/-- Bring a slot into the cache; none when every place of its set is pinned. -/
def cacheIn (s : State) (n : Nat) : Option State :=
  let others := s.ken.cached.filter (· != n)
  let set := others.filter (fun m => m % 4096 == n % 4096)
  if set.length < 16 then some { s with ken := { s.ken with cached := n :: others } }
  else match (set.filter (fun m => !pinned s m)).getLast? with
    | some v => some { s with ken := { s.ken with cached := n :: others.filter (· != v) } }
    | none => none

/-- An access to a cached slot: it is the most recently used, and a hit when it has not waited for a fill. -/
def cacheTouch (s : State) (n : Nat) (missed : Bool) : State :=
  let s := if missed then s else count s 0xC0C8 0x08
  (cacheIn s n).getD s

/-- Ask HBM for a slot, once (09 R216). -/
def fetchSlot (s : State) (n : Nat) : State :=
  if cached s n || s.ken.fills.any (fun f => f.1 == n) then s
  else { s with ken := { s.ken with fills := s.ken.fills ++ [(n, false)] } }

/-! ## Results of Kennel operations -/

/-- Cipher and Kennel result (09 Table 9-4). -/
def keyResult (status detail slot gen engine done tag : Nat) : BitVec 512 :=
  BitVec.ofNat 512 (status % 256 + detail % 256 * 2 ^ 8 + slot % 2 ^ 20 * 2 ^ 16 + gen % 2 ^ 20 * 2 ^ 36
    + engine % 64 * 2 ^ 56 + done % 2 ^ 32 * 2 ^ 64 + tag % 2 ^ 128 * 2 ^ 128)

def kSlot (r : KReq) : Nat := fld r.raw 8 20
def kKind (r : KReq) : Nat := fld r.raw 4 4

/-- A Kennel operation completes: its result waits with its ledger entry, which is DONE (09 R219, 13 R299). A QUARANTINED entry
ends with PAIR_FAULT whatever the operation gave (13 R311). -/
def kenComplete (s : State) (r : KReq) (status detail gen : Nat) : State :=
  let msg := if ledQuarantined s r.entry then keyResult 7 0x63 (kSlot r) 0 63 0 0
    else keyResult status detail (kSlot r) gen 63 0 0
  let s := count s 0xC0C8 0x01
  let s := if r.issuer < 16 then putResult s r.issuer (fld r.raw 32 8) msg (some r.engine) (some r.entry)
    else { s with ken := { s.ken with results := sput s.ken.results r.entry msg } }
  ledDone s r.entry (BitVec.ofNat 8 status) (BitVec.ofNat 8 detail)

/-! ## Users, scrubs and old generations (09 R216–R218) -/

/-- Requests bound to a slot. -/
def slotUsers (s : State) (n : Nat) : List CReq :=
  s.cip.reqs.filter (fun r => rKeyed r && rSlot r == n && r.gen.isSome)

/-- An ERASE or FORCE_ERASE completes: the scrub is done and every user it found has stopped (09 R218). -/
def eraseDone (s : State) (e : KErase) : Bool := e.scrubbed && e.users.all (fun i => (creq s i).isNone)

/-- The ERASEs and FORCE_ERASEs that are done complete OK. -/
def settleErases (s : State) : State :=
  let due := s.ken.erases.filter (eraseDone s)
  let s := { s with ken := { s.ken with erases := s.ken.erases.filter (fun e => !eraseDone s e) } }
  due.foldl (fun s e => kenComplete s e.req 0 0 0) s

/-- Scrub (09 R217): material and old generation zeroed, EMPTY, owner cleared, GEN kept. The erases of the slot wait for
the users that are still bound. -/
def scrub (s : State) (n : Nat) : State :=
  let k := slotGet s n
  let users := (slotUsers s n).map (·.id)
  let s := { s with ken := { s.ken with
    old := s.ken.old.filter (fun o => o.1 != n)
    erases := s.ken.erases.map (fun e => if e.slot = n ∧ !e.scrubbed then { e with scrubbed := true, users := users } else e) } }
  settleErases (slotPut s n { k with
    state := .empty, kind := 0, slice := 0, infra := false, material := 0, oldPresent := false })

/-- A user releases the generation it is bound to (09 R216). -/
def keyRelease (s : State) (n gen : Nat) : State :=
  let k := slotGet s n
  let k := if k.gen = gen ∧ 0 < k.useCur then { k with useCur := k.useCur - 1 } else { k with useOld := k.useOld - 1 }
  let free := k.useOld = 0 ∧ k.oldPresent
  let s := if free then { s with ken := { s.ken with old := s.ken.old.filter (fun o => o.1 != n) } } else s
  let k := if free then { k with oldPresent := false } else k
  let s := slotUse s n k
  if k.state = .erasePending ∧ k.useCur = 0 ∧ k.useOld = 0 then scrub s n else settleErases s

/-- The material of a generation: the slot's own, or the old one (09 R214). -/
def keyMaterial (s : State) (n gen : Nat) : Nat :=
  let k := slotGet s n
  if k.gen = gen then k.material
  else match s.ken.old.find? (fun o => o.1 == n && o.2.1 == gen) with
    | some o => o.2.2
    | none => 0

/-- A slot becomes QUARANTINED; its users stop with PAIR_FAULT (09 R215). -/
def quarantineSlot (s : State) (n : Nat) : State :=
  let s := slotPut s n { slotGet s n with state := .quarantined }
  let s := event (count s 0xC0C8 0x0B) 0x0005 26 n
  cipStop s (fun r => rKeyed r && rSlot r == n && r.gen.isSome) 7 0x0D

/-- Store material in a slot with a new generation (09 Table 9-9, WRITE, GENERATE, IMPORT): status, detail and GEN. -/
def slotWrite (s : State) (n kind material : Nat) (owner : Option Nat) : (Nat × Nat × Nat) × State :=
  let k := slotGet s n
  let fresh : KenSlot := { k with
    state := .live, kind := kind, slice := owner.getD 0, infra := owner.isNone, gen := nextGen k.gen, material := material }
  let refuse (d : Nat) : (Nat × Nat × Nat) × State := ((8, d, 0), count s 0xC0C8 0x07)
  match k.state with
  | .erasePending => refuse 0x10
  | .empty | .quarantined => ((0, 0, fresh.gen), slotPut s n { fresh with useOld := k.useOld + k.useCur, useCur := 0 })
  | .live =>
    if k.oldPresent then refuse 0x10
    else if k.useCur = 0 then ((0, 0, fresh.gen), slotPut s n fresh)
    else if 4096 ≤ s.ken.old.length then refuse 0x11
    else
      let s := { s with ken := { s.ken with old := s.ken.old ++ [(n, k.gen, k.material)] } }
      ((0, 0, fresh.gen), slotPut s n { fresh with useOld := k.useCur, useCur := 0, oldPresent := true })

/-- Kennel takes a request into its queue, its acceptance point; none: the queue is full or no entry is free, and the
request is left with its issuer (09 R219, 13 R305). -/
def kenAccept (s : State) (q : KReq) : Option State :=
  if 1024 ≤ s.ken.queue.length ∨ !ledRoom s .kennel ∨ (islandOn s 26 ∧ !islandTakes s 26) then none
  else
    let r := ledAccept s .kennel (.kennel q.issuer) (q.owner.getD 0) q.owner.isNone false (.reply 0)
    some { r.2 with ken := { r.2.ken with queue := r.2.ken.queue ++ [{ q with entry := r.1 }] } }

/-- Kennel takes what it has room for from the clusters' issue queues, oldest first (07 R171). -/
def kenTake (s : State) : List KReq → State
  | [] => { s with ken := { s.ken with issues := [] } }
  | q :: qs =>
    match kenAccept s q with
    | some s => kenTake s qs
    | none => noteWait { s with ken := { s.ken with issues := q :: qs } }

def kenPump (s : State) : State := kenTake s s.ken.issues

/-- A Kennel operation that firmware has done for slice `sl` on slot `n` and awaits: it is accepted work of the control cores,
RUNNING, and DONE with its result, which leaves in its order (13 R299, R304, R309). None: Kennel takes none (13 R305). DESIGN
CHOICE: it is served at once, before what waits in Kennel's queue (assumption 259). -/
def coreKeyOp (s : State) (sl n : Nat) (eff : State → (Nat × Nat × Nat) × State) : Option (Nat × State) :=
  if !islandTakes s 26 ∨ !ledRoom s .kennel then none
  else
    let r := ledAccept s .kennel (.kennel 17) sl false false (.reply 0)
    let t := eff (cacheTouch (ledRun r.2 r.1) n (!cached s n))
    let s := count t.2 0xC0C8 0x01
    let s := { s with ken := { s.ken with
      results := sput s.ken.results r.1 (keyResult t.1.1 t.1.2.1 n t.1.2.2 63 0 0) } }
    some (t.1.1, ledDone s r.1 (BitVec.ofNat 8 t.1.1) (BitVec.ofNat 8 t.1.2.1))

end Sys2Proof.Machine
end

