-- ==== Sys2Proof/Machine/Dma.lean ====
section
/-!
DEFINITION. The DMA engine's commands (10): grants, starts, prechecks, chunks and the CMD register.
-/

namespace Sys2Proof.Machine

/-! ## Data of a transfer -/

/-- Bytes in order of source offset. -/
def dataPrefix (x : Chan) : List Byte := (x.data.map (·.2)).flatten

/-- The bytes taken from source offset `off` on without a gap, at most `n`. -/
def gather : Sparse (List Byte) → Nat → Nat → List Byte
  | [], _, _ => []
  | (k, bs) :: r, off, n =>
    if n = 0 then []
    else if k ≤ off ∧ off < k + bs.length then
      let part := (bs.drop (off - k)).take n
      part ++ gather r (off + part.length) (n - part.length)
    else gather r off n

/-- The tuple of block `i`: guard, application tag, reference tag, each big-endian (10 R238). -/
def difTuple (x : Chan) (i : Nat) (block : List Byte) : List Byte :=
  let ref := if cXts x then x.fill.toNat + i else x.refTag.toNat + i
  beBytes 2 (difGuard block).toNat ++ beBytes 2 x.appTag.toNat ++ beBytes 4 (ref % 2 ^ 32)

/-- Data with a tuple after each whole block of `b` bytes, block numbers from `i`. -/
def difInsert (x : Chan) (b : Nat) : Nat → Nat → List Byte → List Byte
  | 0, _, bs => bs
  | fuel + 1, i, bs =>
    if bs.length < b ∨ b = 0 then bs
    else bs.take b ++ difTuple x i (bs.take b) ++ difInsert x b fuel (i + 1) (bs.drop b)

/-- Data with the 8 bytes after each whole block of `b` bytes taken out. -/
def difStrip (b : Nat) : Nat → List Byte → List Byte
  | 0, bs => bs
  | fuel + 1, bs => if bs.length ≤ b ∨ b = 0 then bs else bs.take b ++ difStrip b fuel (bs.drop (b + 8))

/-- The first failing check of tuples: GUARD or REF_TAG (10 R238). -/
def difCheck (x : Chan) (b : Nat) : Nat → Nat → List Byte → Option (BitVec 8)
  | 0, _, _ => none
  | fuel + 1, i, bs =>
    if bs.length < b + 8 then none
    else
      let t := (bs.drop b).take 8
      let app := beNat ((t.drop 2).take 2)
      if app = 0xFFFF then difCheck x b fuel (i + 1) (bs.drop (b + 8))
      else if beNat (t.take 2) ≠ (difGuard (bs.take b)).toNat then some 0x21
      else if beNat (t.drop 4) ≠ (x.refTag.toNat + i) % 2 ^ 32 then some 0x22
      else difCheck x b fuel (i + 1) (bs.drop (b + 8))

/-- What an XTS channel has ready for the engine: its source data in order, with the tuples inserted on encryption
(10 R239). -/
def dmaInput (x : Chan) : List Byte :=
  let bs := gather x.data 0 x.count.toNat
  if !cXtsDec x && cDif x == 1 then difInsert x (cBlock x) bs.length 0 bs else bs

/-- The destination bytes of what the engine has put out: decryption with STRIP takes the tuples out (10 R239). -/
def dmaOutput (x : Chan) : List Byte :=
  if cXtsDec x && cDif x == 3 then difStrip (cBlock x) x.out.length x.out else x.out

/-- Byte `d` of the destination of an INSERT (10 R238). -/
def insertByte (x : Chan) (d : Nat) : Byte :=
  let b := cBlock x
  let block := gather x.data (d / (b + 8) * b) b
  if d % (b + 8) < b then byteAt block (d % (b + 8)) else byteAt (difTuple x (d / (b + 8)) block) (d % (b + 8) - b)

/-- The destination bytes of a chunk whose source bytes `side` have been taken; none while they wait for the cipher engine,
or for other source bytes that a tuple or an appended CRC covers (10 R237–R239). -/
def chunkOut (x : Chan) (u : DUnit) (side : List Byte) : Option (List Byte) :=
  let n := x.count.toNat
  let b := cBlock x
  let hi := u.lo + u.len
  if isFill x then
    some ((List.range u.len).map (fun i => BitVec.ofNat 8 (x.fill.toNat >>> (8 * ((u.lo + i) % 8)))))
  else if cXts x then (if (dmaOutput x).length < hi then none else some (bytesAt (dmaOutput x) u.lo u.len))
  else if cCrc x = 2 ∧ n < hi then
    let bs := gather x.data 0 n
    if bs.length < n then none else some (bytesAt (bs ++ leBytes 4 (crc32c bs).toNat) u.lo u.len)
  else if cDif x = 1 then
    let covers (i : Nat) : Bool := decide (i * (b + 8) + b < hi) && decide (u.lo < (i + 1) * (b + 8))
    if (List.range (hi / (b + 8) + 1)).any (fun i => covers i && decide ((gather x.data (i * b) b).length < b)) then none
    else some ((List.range u.len).map (fun k => insertByte x (u.lo + k)))
  else if cDif x = 3 then
    some ((side.zipIdx.filter (fun p => decide ((srcOf x u.lo + p.2) % (b + 8) < b))).map (·.1))
  else some (side.take u.len)

/-- The cipher request of an XTS channel. -/
def xtsReq (s : State) (c : Nat) : Option CReq := s.cip.reqs.find? (fun r => r.src == .dma c)

/-- Source bytes that the staging buffer of an XTS channel holds once all reads up to `next` have returned: those not yet
written, but for those that are in the engine (10 R239, assumption 230). -/
def stagedBytes (s : State) (c : Nat) (x : Chan) (next : Nat) : Nat :=
  srcOf x next - srcOf x x.fin - (match xtsReq s c with | some r => r.data.length - r.proc | none => 0)

/-- The engine can do no more with what an XTS channel has staged, and all it has put out has been written. -/
def xtsDrained (s : State) (c : Nat) (x : Chan) : Bool :=
  match xtsReq s c with
  | none => false
  | some r =>
    decide ((dmaInput x).length < 64 * r.grants + grantLen r) && decide (blockFloor r r.data.length ≤ r.proc) &&
      x.units.all (fun u => u.done || (u.staged && (chunkOut x u []).isNone))

/-! ## Reads of units -/

def unitPut (s : State) (c : Nat) (u : DUnit) : State :=
  let x := chan s c
  setChan s c { x with units := x.units.map (fun v => if v.id = u.id then u else v) }

/-- A unit's access on a side fails; `write` says whether it was a write. -/
def unitFail (s : State) (c uid : Nat) (detail : BitVec 8) (write side : Bool) : State :=
  let x := chan s c
  setChan s c { x with units := x.units.map (fun v =>
    if v.id = uid then { v with fail := some (detail, write), side := side } else v) }

def readData (s : State) (c uid part : Nat) (bs : List Byte) : State :=
  let x := chan s c
  setChan s c { x with units := x.units.map (fun v =>
    if v.id = uid then { v with reads := lmod v.reads part (fun r => { r with data := some bs }) } else v) }

/-- The space of a side. -/
def sideSpace (x : Chan) (dst : Bool) : Nat := if dst then cDstSpace x else cSrcSpace x

/-- Issue one read of a unit that has not been issued: device memory answers at once, a host read waits for its
translation and a tag (11 R261, R268). -/
def pumpRead (s : State) (c : Nat) (u : DUnit) (part : Nat) (r : DRead) : State :=
  let x := chan s c
  let space := sideSpace x r.dst
  if r.data.isSome ∨ s.hst.reads.any (fun h => h.ch == c && h.unit == u.id && h.part == part && !h.quar) then s
  else if space = 2 then readData s c u.id part (hbmRead s r.addr r.len)
  else match requester s x.owner space with
    | none => unitFail s c u.id 0x14 false r.dst
    | some q =>
      if !mayRequest s q.1 q.2.1 || s.pair.fence then s
      else match translate s x.owner q r.addr false with
        | (.wait, s) => s
        | (.refused, s) => unitFail s c u.id 0x14 false r.dst
        | (.ready a, s) =>
          let a0 := a / 4 * 4
          let n := (a + r.len + 3) / 4 * 4 - a0
          (sendRead s q a0 n c u.id part (if fnAts (fnGet s q.1 q.2.1) then some (r.addr / 4096) else none)).getD s

def pumpReads (s : State) (c : Nat) (u : DUnit) : Nat → List DRead → State
  | _, [] => s
  | k, r :: rs => pumpReads (pumpRead s c u k r) c u (k + 1) rs

/-- The failing unit that is earliest in processing order, with its failure; a detail of 0 only asks for a reissue. -/
def firstFail (x : Chan) : Option (DUnit × BitVec 8 × Bool) :=
  x.units.foldl (fun a u =>
    match u.fail, a with
    | some f, none => if f.1 = 0 then none else some (u, f)
    | some f, some b => if f.1 ≠ 0 ∧ u.pos < b.1.pos then some (u, f) else some b
    | none, a => a) none

/-- Halt for the failing unit that is earliest in processing order; one that fails after the halt, and lies before the one
latched, is latched in its place (10 R242). -/
def settleFails (s : State) (c : Nat) : State :=
  let x := chan s c
  match firstFail x with
  | none => s
  | some (u, d, write) =>
    match x.state with
    | .active | .precheck => dmaHalt s c (haltAddress x u) d write (u.kind != 0)
    | .halted => setChan s c (latched x (haltAddress x u) d write (u.kind != 0))
    | _ => s

/-- Every unit of a channel issues what it can. -/
def pumpChan (s : State) (c : Nat) : State :=
  let s := (chan s c).units.foldl (fun s u => if u.done || u.fail.isSome then s else pumpReads s c u 0 u.reads) s
  settleFails s c

/-- Every channel issues what it can: after a translation, a freed tag or a return to D0. Units that a HALTED channel had
issued run to their end (10 R242). -/
def pumpAll (s : State) : State :=
  (s.dma.chans.map (·.1)).foldl (fun s c =>
    match (chan s c).state with | .active => pumpChan s c | .precheck => pumpChan s c | .halted => pumpChan s c | _ => s) s

/-! ## Units (10 R224) -/

/-- List entries a side has. -/
def listLen (x : Chan) (dst : Bool) : Nat :=
  if dst then (if cDstSg x then x.dstN.toNat else 0)
  else if isFill x then 0 else if cSrcSg x then x.srcN.toNat else 0

/-- The reads of pieces on one side, cut at 4 KiB and at the read size (11 R254). -/
def readsOf (s : State) (x : Chan) (dst : Bool) (ps : List (Nat × Nat)) : List DRead :=
  let m := match requester s x.owner (sideSpace x dst) with
    | some q => if sideSpace x dst = 2 then 4096 else maxRead s q.1 q.2.1
    | none => 4096
  (ps.flatMap (fun p => cutAt m 40 p)).map (fun p => ⟨dst, p.1, p.2, none⟩)

/-- The chunk at `x.next`: its place, its range, and its reads. -/
def nextChunk (s : State) (x : Chan) : DUnit :=
  let ch := chunkAt x x.next
  let s0 := srcOf x ch.1
  let s1 := srcOf x (ch.1 + ch.2)
  let reads := if isFill x then []
    else if isCompare x then readsOf s x false (pieces x.sRanges ch.1 ch.2) ++ readsOf s x true (pieces x.dRanges ch.1 ch.2)
    else readsOf s x false (pieces x.sRanges s0 (s1 - s0))
  ⟨x.nextUnit, 0, x.next, ch.1, ch.2, reads, none, false, false, false⟩

/-- A later segment of a COPY issues its first read only after every write before it (10 R236); with XTS, once nothing
before it is left but bytes that the engine cannot take or finish without what follows (assumption 231). -/
def segmentOpen (s : State) (c : Nat) (x : Chan) : Bool :=
  !isCopy x || x.next != (segment x x.next).1 || x.next == x.fin || (cXts x && xtsDrained s c x)

/-- The staging buffer of 64 KiB of an XTS channel has room for the next chunk (10 R239). -/
def stagingRoom (s : State) (c : Nat) (x : Chan) : Bool :=
  !cXts x || decide (stagedBytes s c x (x.next + (chunkAt x x.next).2) ≤ 65536)

/-- The channel may issue units: its function is not in D3hot, and its owner may make host requests where it uses a host
space (10 R244, 11 R263). -/
def hostOpen (s : State) (x : Chan) : Bool :=
  let f := ownerFn s x.owner
  !(fnGet s f.1 f.2).d3 &&
  let one (space : Nat) : Bool := space == 2 || (match requester s x.owner space with
    | some q => mayRequest s q.1 q.2.1
    | none => true)
  (isFill x || one (cSrcSpace x)) && one (cDstSpace x)

/-- A unit is to be issued again after a RETRY (10 R243). -/
def againDue (x : Chan) : Bool := x.units.any (fun u => u.fail == some (0, false))

/-- Units outstanding: a chunk whose bytes lie in the staging buffer of an XTS transfer is not (10 R224, assumption 230). -/
def outstanding (x : Chan) : Nat := (x.units.filter (fun u => !u.done && !(cXts x && u.staged))).length

/-- The channel has a unit ready (10 R223): one to be issued again, a list read of a transfer whose CTRL has passed the
checks before it (10 R230), or the next chunk; at most 64 units are outstanding (10 R224). -/
def unitReady (s : State) (c : Nat) (x : Chan) : Bool :=
  let room := decide (outstanding x < 64)
  match x.state with
  | .precheck =>
    pairOk 32 x.ctrl.toNat && !badForm x && hostOpen s x && (againDue x ||
      (room && (decide (x.sAsked < listLen x false) || decide (x.dAsked < listLen x true))))
  | .active =>
    hostOpen s x && (againDue x ||
      (room && decide (x.next < sideLen x) && segmentOpen s c x && stagingRoom s c x))
  | _ => false

/-- Issue one unit: a unit to be issued again, a list read of 128 bytes, or the next chunk (10 R224, R243, R246). -/
def issueUnit (s : State) (c : Nat) : State :=
  let x := chan s c
  if !pairOk 32 x.ctrl.toNat then dmaPairFault s c true
  else match x.units.find? (fun u => u.fail == some (0, false)) with
    | some u =>
      let kept := u.staged && cXts x
      let u := { u with fail := none, staged := kept, reads := if kept then u.reads else u.reads.map (fun r => { r with data := none }) }
      pumpChan (unitPut s c u) c
    | none =>
      if x.state = .precheck then
        let dst := decide (listLen x false ≤ x.sAsked)
        let asked := if dst then x.dAsked else x.sAsked
        let n := min 8 (listLen x dst - asked)
        let base := (if dst then x.dst.toNat else x.src.toNat) + 16 * asked
        let u : DUnit := ⟨x.nextUnit, if dst then 2 else 1, asked, 0, 16 * n, readsOf s x dst [(base, 16 * n)], none, false, dst, false⟩
        let y := { x with units := x.units ++ [u], nextUnit := x.nextUnit + 1,
                          sAsked := if dst then x.sAsked else asked + n, dAsked := if dst then asked + n else x.dAsked }
        pumpChan (setChan s c y) c
      else
        let u := nextChunk s x
        let y := { x with units := x.units ++ [u], nextUnit := x.nextUnit + 1, next := x.next + u.len }
        pumpChan (setChan s c y) c

/-- The first channel of group `g` after the one served last that has a unit ready (10 R223). -/
def pickChannel (s : State) (g : Nat) : Option Nat :=
  let last := sget 63 s.dma.last g
  ((List.range 64).map (fun i => g * 64 + (last + 1 + i) % 64)).find? (fun c => unitReady s c (chan s c))

/-- DMA_GRANT (10 R223, R224). -/
def grantDma (s : State) (k : Nat) : State :=
  let g := rowDma (schedRow s s.clk.slot) k
  if g = 0xFF then s
  else match pickChannel s g with
    | none => count s 0xC0D0 0x0D
    | some c => issueUnit { s with dma := { s.dma with last := sset 63 s.dma.last g (c % 64) } } c

def execDmaGrant (slot : BitVec 12) (k : BitVec 2) (rowOk : Bool) (s : State) : Host.Outcome State Fault Refusal :=
  let s := atSlot s slot
  .next (if rowBad s rowOk then rowFailed s else grantDma s k.toNat)

/-! ## Registers (10 R226, R227) -/

/-- A write had no effect: WRITE_IGNORED. -/
def dmaIgnored (s : State) (c : Nat) : State :=
  count (setChan s c { chan s c with ignored := true }) 0xC0D0 0x0C

def chanBusy (x : Chan) : Bool :=
  match x.state with | .precheck => true | .active => true | .halted => true | .stopping => true | _ => false

/-- A field of CTRL, in both halves, keeps its old bits when a write places encoding 3 in it (00 R9). -/
def ctrlField (old : BitVec 64) (lo : Nat) (w : BitVec 64) : BitVec 64 :=
  if fld w lo 2 = 3 then setFld (setFld w lo 2 (fld old lo 2)) (lo + 32) 2 (fld old (lo + 32) 2) else w

/-- What a write of CTRL stores (10 Table 10-2): the reserved encodings of OP and of the spaces leave their fields unchanged
(00 R9), and the reserved bits stay 0 with their complements 1 (00 R8). -/
def ctrlTaken (old w : BitVec 64) : BitVec 64 :=
  ctrlField old 7 (ctrlField old 5 (ctrlField old 1 (setFld (setFld w 18 14 0) 50 14 0x3FFF)))

/-- R9 alters a write of CTRL. -/
def ctrlAltered (w : BitVec 64) : Bool := fld w 1 2 == 3 || fld w 5 2 == 3 || fld w 7 2 == 3

/-- A write of CTRL: START 1 on an IDLE channel starts it (10 R227, R229). -/
def ctrlWrite (s : State) (c : Nat) (w : BitVec 64) : State :=
  let x := chan s c
  if chanBusy x then dmaIgnored s c
  else
    let y := { x with ctrl := ctrlTaken x.ctrl w }
    if !w.getLsbD 0 then setChan s c y
    else if !pairOk 32 w.toNat || ctrlAltered w || x.state != .idle then dmaIgnored (setChan s c y) c
    else if ownerDraining s (channelOwner s c) then s
    else dmaStart s c y .reg (channelOwner s c)

def execChannelStart (ch : BitVec 12) (ctrl : BitVec 64) (s : State) : Host.Outcome State Fault Refusal :=
  .next (ctrlWrite s ch.toNat ctrl)

/-- The checks of a precheck once the lists are read, in order (10 R230). -/
def precheckFault (s : State) (c : Nat) (x : Chan) : Option (BitVec 8 × BitVec 8) :=
  let fetch := match x.route with | .fetch _ => true | _ => false
  let sR := if isFill x then [] else x.sRanges
  if badForm x || x.badList || badOverlap x then some (5, 0x01)
  else if !fetch && ((cSrcSpace x == 2 && sR.any (fun r => !inWindow s c r)) ||
      (cDstSpace x == 2 && x.dRanges.any (fun r => !inWindow s c r))) then some (4, 0x05)
  else if x.compat && (x.misaligned || sR.any (fun r => r.1 % 8 != 0) || x.dRanges.any (fun r => r.1 % 8 != 0)) then some (6, 0x04)
  else if badUnits x then some (5, 0x03)
  else if rangesLen sR < srcNeed x || rangesLen x.dRanges < dstNeed x then some (5, 0x02)
  else none

/-- Ranges of a side without a list: one range of what the side needs (10 R235). -/
def withRanges (x : Chan) : Chan :=
  { x with
    sRanges := if cSrcSg x || isFill x then x.sRanges else [(x.src.toNat, srcNeed x)]
    dRanges := if cDstSg x then x.dRanges else [(x.dst.toNat, dstNeed x)] }

/-- The cipher request of an XTS transfer (10 R239): MSG_LEN is the length of the protected side. -/
def xtsRequest (x : Chan) : BitVec 512 :=
  let msg := if cXtsDec x then srcNeed x else dstNeed x
  BitVec.ofNat 512 (3 + (if cXtsDec x then 2 ^ 4 else 0) + (if cUrgent x then 2 ^ 5 else 0) + x.keySlot.toNat * 2 ^ 8
    + msg % 2 ^ 32 * 2 ^ 32 + (if x.ctrl.getLsbD 13 then 2 ^ 104 else 0) + (if cDif x ≠ 0 then 2 ^ 108 else 0)
    + x.fill.toNat * 2 ^ 320)

/-- XTS channels that wait put their requests into the DMA engine's issue queue while it has room: 256 (09 R200). -/
def dmaCipherPump (s : State) : State :=
  let room := 256 - (issueQueue s (fun q => match q with | .dma _ => true | _ => false)).length
  let go := s.cip.dmaWait.take room
  go.foldl (fun s c => cipherIssue s (.dma c) (xtsRequest (chan s c)) (chan s c).owner)
    { s with cip := { s.cip with dmaWait := s.cip.dmaWait.drop room } }

/-- A channel becomes ACTIVE; an XTS transfer issues its cipher request (10 R228, R239). -/
def chanActivate (s : State) (c : Nat) (x : Chan) : State :=
  let s := setChan s c { x with state := .active, xts := cXts x }
  if cXts x then dmaCipherPump { s with cip := { s.cip with dmaWait := s.cip.dmaWait ++ [c] } } else s

/-- PRECHECK_DONE (10 R230): the checks run in order once every list entry has been read. A form fault of CTRL ends the
transfer before any list read. -/
def execPrecheckDone (ch : BitVec 12) (s : State) : Host.Outcome State Fault Refusal :=
  let c := ch.toNat
  let x := chan s c
  match x.state with
  | .precheck =>
    if !pairOk 32 x.ctrl.toNat then .next (dmaPairFault s c false)
    else if badForm x then .next (dmaComplete s c 5 0x01 0)
    else if x.sRead < listLen x false ∨ x.dRead < listLen x true then .next s
    else
      let y := withRanges x
      match precheckFault s c y with
      | some f => .next (dmaComplete s c f.1 f.2 0)
      | none => .next (chanActivate s c y)
  | _ => .next s

/-- Status, detail and CRC_RESULT of a finished transfer without XTS (10 R237, R238). -/
def finalStatus (x : Chan) : BitVec 8 × BitVec 8 × BitVec 32 :=
  let bs := dataPrefix x
  let n := x.count.toNat
  if cCrc x ≠ 0 then
    let crc := crc32c (bs.take n)
    if cCrc x = 3 ∧ leNat ((bs.drop n).take 4) ≠ crc.toNat then (3, 0x20, crc) else (0, 0, crc)
  else if cDif x = 2 ∨ cDif x = 3 then
    match difCheck x (cBlock x) bs.length 0 bs with
    | some d => (3, d, 0)
    | none => (0, 0, 0)
  else (0, 0, 0)

/-- Write bytes at pieces of the destination: the state, or the failing detail, or none to wait (11 R261, 10 R242). -/
def writePieces (s : State) (x : Chan) : List (Nat × Nat) → List Byte → Option (Except (BitVec 8) State)
  | [], _ => some (.ok s)
  | (a, n) :: r, bs =>
    if cDstSpace x = 2 then
      if hbmLocked s a n then some (.error 0x15)
      else writePieces (hbmWrite s a (bs.take n)) x r (bs.drop n)
    else match requester s x.owner (cDstSpace x) with
      | none => some (.error 0x14)
      | some q =>
        if (linkGet s q.1).state ≠ 3 then some (.error 0x17)
        else if !mayRequest s q.1 q.2.1 || s.pair.fence then none
        else match translate s x.owner q a true with
          | (.wait, _) => none
          | (.refused, _) => some (.error 0x14)
          | (.ready a', s) => writePieces (hostWrite s q a' (bs.take n) (relaxedOn s q.1 q.2.1)) x r (bs.drop n)

/-- The pieces of a destination range, cut at pages. -/
def dstPieces (x : Chan) (off len : Nat) : List (Nat × Nat) :=
  (pieces x.dRanges off len).flatMap (fun p => cutAt 4096 40 p)

/-- Ask for the translations a waiting write needs (11 R261). -/
def askWrites (s : State) (x : Chan) : List (Nat × Nat) → State
  | [] => s
  | (a, _) :: r =>
    if cDstSpace x = 2 then s
    else match requester s x.owner (cDstSpace x) with
      | none => s
      | some q => askWrites (translate s x.owner q a true).2 x r

/-- Advance the unbroken run over finished units (10 R240). -/
def advance (x : Chan) : Nat → Chan
  | 0 => x
  | fuel + 1 =>
    match x.units.find? (fun u => u.kind == 0 && u.done && u.pos == x.fin) with
    | some u => advance { x with fin := x.fin + u.len, units := x.units.filter (fun v => v.id != u.id) } fuel
    | none => x

/-- A chunk is finished, and the unbroken run advances. -/
def unitDone (s : State) (c : Nat) (u : DUnit) : State :=
  let x := chan s c
  let x := { x with units := x.units.map (fun v => if v.id = u.id then { v with done := true } else v) }
  setChan s c (advance x (x.units.length + 1))

/-- Write a chunk whose destination bytes are known: finished, failed, or waiting for a translation (10 R242, 11 R261). -/
def writeChunk (s : State) (c : Nat) (u : DUnit) (bs : List Byte) : State :=
  let x := chan s c
  let ps := dstPieces x u.lo u.len
  match writePieces s x ps bs with
  | none => askWrites s x ps
  | some (.error d) => settleFails (unitFail s c u.id d true true) c
  | some (.ok s) => unitDone s c u

/-- Write the staged chunks of an XTS transfer that the engine has put out (09 R205). -/
def flushStaged (s : State) (c : Nat) : State :=
  (chan s c).units.foldl (fun s u =>
    match (if u.staged && !u.done && u.fail.isNone then chunkOut (chan s c) u [] else none), (chan s c).state with
    | some bs, .active => writeChunk s c u bs
    | _, _ => s) s

/-- A transfer ends whose chunks have all finished; an XTS transfer ends with its cipher request: after OK and TAG_FAIL once
all is written, after any other status at once, with the status and 0x40 plus the detail (10 R239, R240). -/
def finishChan (s : State) (c : Nat) : State :=
  let x := chan s c
  if x.state ≠ .active then s
  else match x.xtsRes with
    | some f =>
      if f.1 = 0 ∨ f.1 = 3 then (if x.fin = sideLen x then dmaComplete s c f.1 f.2 x.count.toNat else s)
      else
        let s := flushStaged s c
        if (chan s c).state = .active then dmaComplete s c f.1 f.2 (doneBytes x (chan s c).fin) else s
    | none =>
      if x.fin = sideLen x ∧ x.xts = false then
        let f := finalStatus x
        let s := setChan s c { x with crc := f.2.2 }
        dmaComplete s c f.1 f.2.1 x.count.toNat
      else s

/-- A chunk has finished. -/
def chunkFinished (s : State) (c : Nat) (u : DUnit) : State := finishChan (unitDone s c u) c

/-- A list read returns its entries (10 R234, R235). -/
def listRead (s : State) (c : Nat) (u : DUnit) : State :=
  let x := chan s c
  let bs := (u.reads.map (fun r => r.data.getD [])).flatten
  let entries := (List.range (u.len / 16)).map (fun i => bytesAt bs (16 * i) 16)
  let all := entries.map (fun e => (leNat (e.take 8), leNat ((e.drop 8).take 4)))
  let bad := entries.any (fun e => leNat (e.drop 12) != 0)
  let rs := all.filter (fun r => r.2 != 0)
  let x := { x with
    units := x.units.filter (fun v => v.id != u.id), badList := x.badList || bad
    misaligned := x.misaligned || all.any (fun r => r.1 % 8 != 0) }
  if u.kind = 1 then setChan s c { x with sRanges := x.sRanges ++ rs, sRead := x.sRead + u.len / 16 }
  else setChan s c { x with dRanges := x.dRanges ++ rs, dRead := x.dRead + u.len / 16 }

/-- The bytes a unit has read on a side. -/
def sideBytes (u : DUnit) (dst : Bool) : List Byte :=
  ((u.reads.filter (fun r => r.dst == dst)).map (fun r => r.data.getD [])).flatten

/-- Chunks of one segment whose ranges overlap: this one may write once every read before it has returned (10 R236). -/
def earlierRead (x : Chan) (u : DUnit) : Bool :=
  let seg := segment x u.lo
  !segOverlaps x seg || x.units.all (fun v =>
    decide (u.pos ≤ v.pos) || v.done || (segment x v.lo).1 != seg.1 || v.reads.all (fun r => r.data.isSome))

/-- Take a unit's source bytes into the channel's buffer, once. -/
def stage (s : State) (c : Nat) (u : DUnit) : State :=
  let x := chan s c
  let bs := sideBytes u false
  if u.staged || !transforms x then s
  else setChan s c { x with
    data := if bs.isEmpty then x.data else sput x.data (srcOf x u.lo) bs
    units := x.units.map (fun v => if v.id = u.id then { v with staged := true } else v) }

/-- A chunk of a running or halted transfer whose reads have returned (10 R236–R239). Equal bytes of a COMPARE finish in any
order; a mismatch is acted on once every chunk before it has finished. -/
def runChunk (s : State) (c : Nat) (u : DUnit) : State :=
  let x := chan s c
  let fetch := match x.route with | .fetch _ => true | _ => false
  if isCompare x then
    let a := sideBytes u false
    let b := sideBytes u true
    if a = b then chunkFinished s c u
    else if u.pos = x.fin ∧ x.state = .active then
      dmaComplete s c 9 0x23 (u.lo + ((a.zip b).takeWhile (fun p => p.1 == p.2)).length)
    else s
  else if fetch then chunkFinished (setChan s c { x with data := sput x.data u.lo (sideBytes u false) }) c u
  else if !earlierRead x u then s
  else
    let s := stage s c u
    match chunkOut (chan s c) u (sideBytes u false) with
    | none => s
    | some bs => finishChan (writeChunk s c u bs) c

/-- A unit's read of device memory was uncorrectable (10 R242, Table 10-5): the event, and the halt of a channel that
runs. -/
def memoryFails (s : State) (c : Nat) (u : DUnit) (r : DRead) : State :=
  settleFails (unitFail (event s 0x0102 33 r.addr) c u.id 0x16 false r.dst) c

/-- CHUNK_DONE (10 R225): a list read has returned, a chunk is written or compared, or a unit of a STOPPING channel ends
with its write suppressed. `memOk` is false where its read of device memory was uncorrectable (assumption 53). -/
def execChunkDone (ch : BitVec 12) (unit : Nat) (memOk : Bool) (s : State) : Host.Outcome State Fault Refusal :=
  let c := ch.toNat
  let x := chan s c
  match x.units.find? (fun u => u.id == unit) with
  | none => .next s
  | some u =>
    if u.done || u.fail.isSome || u.reads.any (fun r => r.data.isNone) then .next s
    else match (if memOk || u.staged || x.state == .stopping then none else u.reads.find? (fun r => sideSpace x r.dst == 2)) with
    | some r => .next (memoryFails s c u r)
    | none => match x.state with
      | .stopping =>
        let left := x.units.filter (fun v => v.id != unit)
        let s := setChan s c { x with units := left }
        match left, x.stop with
        | [], some f => .next (stopComplete s c f.1 f.2)
        | _, _ => .next s
      | .precheck | .active | .halted =>
        if u.kind = 0 then .next (runChunk s c u)
        else if u.pos = (if u.kind = 1 then x.sRead else x.dRead) then .next (listRead s c u)
        else .next s
      | _ => .next s

/-! ## CMD (10 R243) -/

def dmaAbort (s : State) (c : Nat) : State :=
  let x := chan s c
  if x.state = .halted then dmaComplete (count s 0xC0D0 0x05) c x.code x.detail x.done.toNat else dmaIgnored s c

/-- A list read that has succeeded and waits for those before it. -/
def listKept (u : DUnit) : Bool := u.kind != 0 && u.fail.isNone && u.reads.all (fun r => r.data.isSome)

/-- RETRY: every unfinished unit is issued again from the first one, its reads included; finished chunks are kept. What a
chunk has put into the staging buffer of an XTS transfer stays there, and only its write is made again (assumption 232). -/
def dmaRetry (s : State) (c : Nat) : State :=
  let x := chan s c
  if x.state = .halted then
    let s := quarantineReads (count s 0xC0D0 0x04) (fun r => r.ch == c)
    finishChan (setChan s c { x with
      state := if x.inPre then .precheck else .active
      units := x.units.map (fun u => if u.done || listKept u then u else { u with fail := some (0, false) }) }) c
  else dmaIgnored s c

def dmaClear (s : State) (c : Nat) : State :=
  if (chan s c).state = .quarantined then setChan s c resetChan else dmaIgnored s c

def execDmaAbort (ch : BitVec 12) (s : State) : Host.Outcome State Fault Refusal := .next (dmaAbort s ch.toNat)

def execDmaRetry (ch : BitVec 12) (s : State) : Host.Outcome State Fault Refusal := .next (dmaRetry s ch.toNat)

def execDmaClear (ch : BitVec 12) (s : State) : Host.Outcome State Fault Refusal := .next (dmaClear s ch.toNat)

/-- A register write of a channel block (10 R226): `size` 4 or 8 bytes at an offset of Table 10-1. -/
def dmaRegWrite (s : State) (c off : Nat) (v : BitVec 64) : State :=
  let x := chan s c
  if off = 0x38 then
    setChan s c { x with ignored := x.ignored && !v.getLsbD 3 }
  else if off = 0x34 then
    match fld v 0 2 with
    | 1 => dmaAbort s c
    | 2 => dmaRetry s c
    | 3 => dmaClear s c
    | _ => s
  else if off = 0x20 then ctrlWrite s c v
  else if chanBusy x ∧ off < 0x34 then dmaIgnored s c
  else if off = 0x00 then setChan s c { x with src := v }
  else if off = 0x08 then setChan s c { x with dst := v }
  else if off = 0x10 then setChan s c { x with count := v.setWidth 32 }
  else if off = 0x14 then setChan s c { x with srcN := BitVec.ofNat 16 (fld v 0 16), dstN := BitVec.ofNat 16 (fld v 16 16) }
  else if off = 0x18 then setChan s c { x with fill := v }
  else if off = 0x28 then setChan s c { x with refTag := v.setWidth 32 }
  else if off = 0x2C then setChan s c { x with appTag := v.setWidth 16 }
  else if off = 0x30 then setChan s c { x with keySlot := v.setWidth 20 }
  else s

/-- An 8-byte write of a channel block reaches its registers in one access (11 R256): an access to a busy channel that has no
effect sets WRITE_IGNORED once. -/
def dmaWideWrite (s : State) (c off : Nat) (v : BitVec 64) : State :=
  let x := chan s c
  let halves (s : State) : State := dmaRegWrite (dmaRegWrite s c off v) c (off + 4) (v >>> 32)
  if off = 0x00 ∨ off = 0x08 ∨ off = 0x18 ∨ off = 0x20 then dmaRegWrite s c off v
  else if !chanBusy x then halves s
  else if off < 0x30 then dmaIgnored s c
  else if off = 0x30 then
    (if x.state = .halted ∧ (fld v 32 2 = 1 ∨ fld v 32 2 = 2) then halves s else dmaIgnored s c)
  else halves s

end Sys2Proof.Machine
end

