-- ==== Sys2Proof/Machine/Loss.lean ====
section
/-!
DEFINITION. Work and its workers: host items that end or are lost (13 R306, R310, R313), thread faults (07 R154, R169),
engine resets, the cluster rotation, and waits and wakes (07 R161–R168).
-/

namespace Sys2Proof.Machine

/-! ## Host items -/

/-- A host item's status is fixed: its entry is DONE with a result, HELD while its function cannot issue requests
(13 R306, R313). -/
def hostFix (s : State) (entry : Nat) (status detail : BitVec 8) (result : BitVec 64) : State :=
  match ledGet s entry with
  | none => s
  | some e =>
    let m := ledMeta s entry
    let s := ledMetaSet s entry { m with result := result, worker := none }
    let f := qpFn s (qpKey e.queue)
    let held := (fnGet s f.1 f.2).state != .enabled
    let s := match e.ref with
      | .host ix pos ph _ => { s with led := { s.led with entries := sput s.led.entries entry { e with ref := .host ix pos ph held } } }
      | _ => s
    ledFix s entry status detail

/-- A host item ends; a QUARANTINED entry waits for its place in order instead (13 R311). -/
def hostDone (s : State) (entry : Nat) (status detail : BitVec 8) (result : BitVec 64) : State :=
  if ledQuarantined s entry then s else hostFix s entry status detail result

/-- Operations a host item issued stop at their chunk or block boundary (13 R310). -/
def stopOps (s : State) (entry : Nat) : State :=
  let mine (w : Option Work) : Bool := match w with | some (.host e _) => e == entry | _ => false
  let s := dmaStopAll s (fun _ x => match x.route with | .issue _ _ _ w => mine w && x.state != .idle | _ => false) 1 0x1A
  cipStop s (fun r => mine (reqWork r)) 1 0x0F

/-- Whether every DMA and cipher operation of a host item has stopped (13 R310). -/
def opsStopped (s : State) (entry : Nat) : Bool :=
  let mine (w : Option Work) : Bool := match w with | some (.host e _) => e == entry | _ => false
  s.dma.chans.all (fun p => match p.2.route with | .issue _ _ _ w => !(mine w) || !(match p.2.state with
    | .precheck => true | .active => true | .halted => true | .stopping => true | _ => false) | _ => true) &&
    s.cip.reqs.all (fun r => !(mine (reqWork r)))

/-- The control cores no longer hold the item that had a ledger entry under a SEQ. -/
def coreDrops (s : State) (entry seq : Nat) : State :=
  { s with jx := { s.jx with coreItems := s.jx.coreItems.filter (fun x => x.1 != entry || x.2.2.2 != seq) } }

/-- A worker loses a host item: its entry goes to STOPPING (13 R310). -/
def hostLost (s : State) (entry : Nat) : State :=
  match ledGet s entry with
  | none => s
  | some e =>
    if e.state = .running then
      let s := ledMetaSet s entry { ledMeta s entry with worker := none }
      stopOps (ledPut s entry { e with state := .stopping }) entry
    else s

/-- An item that a worker of cluster `c` held is ended: a detour item is dropped and counted, a host item goes back to
the ledger (07 R169). -/
def workLost (s : State) (c : Nat) (w : Work) : State :=
  match w with
  | .detour id => itemRemove (count s (0xC090 + c) 0x07) id
  | .host e _ => hostLost s e

/-! ## Thread faults (07 R154) -/

/-- The thread goes to FAULTED, the fault is counted and raised, and its item is ended under R169. -/
def threadFault (s : State) (th : Nat) : State :=
  let t := thread s th
  let c := thCluster th
  let s := setThread s th { t with state := .faulted, item := none, place := none, gone := false, wait := none }
  let s := count s (0xC090 + c) 0x08
  let s := event s 0x0201 (6 + c) (c + thEngine th % 8 * 2 ^ 4 + th % 8 * 2 ^ 7 + t.pc.toNat % 2 ^ 32 * 2 ^ 32)
  match t.item with
  | some w => if t.gone then s else workLost s c w
  | none => s

/-! ## Time and waits -/

/-- Cluster time, 64 bits in ticks of 6.4 ns, wraps to 0 (07 R159). -/
def clusterTime (s : State) : Nat := now s / 8 % 2 ^ 64

/-- wait_max in ticks, rounded up (07 R166); 0 disables. -/
def waitMaxTicks (s : State) : Nat := (objGet s 0x5400 0x01 0 * 625 + 3) / 4

/-- The timer is armed and reached (07 R160). -/
def timerHit (s : State) (t : Thread) : Bool := t.tcmp != 0 && decide (t.tcmp.toNat ≤ clusterTime s)

/-- The maximum of a wait has expired (07 R166). -/
def waitExpired (s : State) (w : Waiting) : Bool := w.max != 0 && decide (w.max ≤ (clusterTime s + 2 ^ 64 - w.since) % 2 ^ 64)

/-- Result bits of the conditions that hold (07 R161, Table 7-4), the inbox apart. -/
def waitBits (s : State) (th : Nat) (w : Waiting) : Nat :=
  (if w.sel.getLsbD 0 && !(channel s (thCluster th) w.channel).ring.isEmpty then 1 else 0)
    + (if w.sel.getLsbD 1 && timerHit s (thread s th) then 2 else 0)
    + (if waitExpired s w then 8 else 0)

/-- A WAITING or BLOCKED thread wakes with `bits` in the register its instruction names (07 R161, R163). With a halt
pending (`before` HALTED) it halts before its next instruction (20 R455). -/
def wake (s : State) (th : Nat) (w : Waiting) (bits : Nat) : State :=
  let s := if bits / 8 % 2 = 1 then count s (0xC090 + thCluster th) 0x0A else s
  let t := thread s th
  let s := setThread s th (if t.before = .halted then { t with state := .halted, before := .runnable, wait := none }
    else { t with state := .runnable, wait := none })
  setReg s th w.rd (BitVec.ofNat 64 bits)

/-- Wake a WAITING thread when a selected condition holds. -/
def wakeIf (s : State) (th : Nat) : State :=
  match (thread s th).state, (thread s th).wait with
  | .waiting, some w => if waitBits s th w = 0 then s else wake s th w (waitBits s th w)
  | _, _ => s

/-- A message in channel `ch` wakes the threads of its home engine that wait on it (07 R161). -/
def wakeChannel (s : State) (c ch : Nat) : State :=
  ((List.range 8).map (fun i => c * 64 + ch / 32 * 8 + i)).foldl
    (fun s th => match (thread s th).wait with
      | some w => if w.sel.getLsbD 0 && w.channel == ch then wakeIf s th else s
      | none => s) s

/-! ## The rotation (07 R168) -/

/-- The engine that the strict rotation names next. -/
def nextEngine (x : Cluster) : Option Nat :=
  ((List.range 8).map (fun i => (x.rot + 1 + i) % 8)).find? (fun e => x.rotSet.getLsbD e)

/-- Pass items of the cluster inbox to the engines of the rotation set; a full inbox holds the head and those behind it. -/
def pumpCluster (s : State) (c : Nat) : Nat → State
  | 0 => s
  | fuel + 1 =>
    let x := cluster s c
    match x.inbox, nextEngine x with
    | w :: rest, some e =>
      let g := engine s (c * 8 + e)
      if g.inbox.length < 64 ∧ !x.faulted then
        let s := setCluster s c { x with inbox := rest, rot := e }
        pumpCluster (setEngine s (c * 8 + e) { engine s (c * 8 + e) with inbox := g.inbox ++ [w] }) c fuel
      else s
    | _, _ => s

def pump (s : State) (c : Nat) : State := pumpCluster s c ((cluster s c).inbox.length)

/-- Whether a work is a detour item. -/
def isDetour (w : Work) : Bool := match w with | .detour _ => true | .host _ _ => false

/-- Room in a cluster's detour or host inbox: 1,024 items each (07 R168, assumption 21). -/
def inboxRoom (s : State) (c : Nat) (w : Work) : Bool :=
  decide (((cluster s c).inbox.filter (fun v => isDetour v == isDetour w)).length < 1024)

/-- An item enters a cluster's inbox. -/
def enterCluster (s : State) (c : Nat) (w : Work) : State :=
  pump (setCluster s c { cluster s c with inbox := (cluster s c).inbox ++ [w] }) c

/-! ## Engine reset (07 R169) -/

/-- A thread of a reset engine frees its channel and ends its item. -/
def resetOne (s : State) (th : Nat) : State :=
  let t := thread s th
  let c := thCluster th
  let s := match t.owns with
    | some ch => setChannel s c ch { channel s c ch with owner := none }
    | none => s
  let s := setThread s th (resetThread th)
  match t.item with
  | some w => if t.gone then s else workLost s c w
  | none => s

/-- A home channel of a reset engine is emptied; discarded messages count. -/
def resetHome (s : State) (c ch : Nat) : State :=
  let x := channel s c ch
  let s := countN s (0xC090 + c) 0x0D x.ring.length
  setChannel s c ch { x with ring := [], ext := false }

/-- An engine reset ends the items it holds, frees its threads' channels and empties its home channels. Its ISSUEs stay
outstanding until their results come (07 R167, R171). -/
def engineReset (s : State) (e : Nat) : State :=
  let c := e / 8
  let waiting := (engine s e).inbox
  let s := ((List.range 8).map (fun i => e * 8 + i)).foldl resetOne s
  let s := setEngine s e { resetEngine with out := (engine s e).out, again := true }
  let s := waiting.foldl (fun s w => workLost s c w) s
  ((List.range 32).map (fun i => e % 8 * 32 + i)).foldl (fun s ch => resetHome s c ch) s

end Sys2Proof.Machine
end

