-- ==== Sys2Proof/Machine/Jutex.lean ====
section
/-!
DEFINITION. The Jutex instructions (07 R152–R171, Table 7-3). Each instruction is a function of the state and the thread
that issues it; `issueInstr` gives it the thread's state, its PC and the fault rule of R154.
-/

namespace Sys2Proof.Machine

/-! ## Issue -/

/-- The PC is a byte offset from 0 to 262,140 and a multiple of 4 (07). -/
def pcLegal (pc : BitVec 64) : Bool := decide (pc.toNat ≤ 262140) && pc.toNat % 4 == 0

/-- It is the thread's turn (07 R152): every thread after the one that issued last and before it, cyclically, is not RUNNABLE
or may still wait on a scratch load. -/
def turnOf (s : State) (th : Nat) : Bool :=
  let e := thEngine th
  let g := engine s e
  (List.range ((th + 15 - g.last % 8) % 8)).all (fun i =>
    let u := (g.last + 1 + i) % 8
    (thread s (e * 8 + u)).state != .runnable || g.loads.any (fun p => p.1 == u))

/-- The thread may issue: it is RUNNABLE and its turn, its cluster is not FAULTED and its island runs (07 R152, R172,
19 R433). -/
def mayIssue (s : State) (th : Nat) : Bool :=
  (thread s th).state == .runnable && turnOf s th && !(cluster s (thCluster th)).faulted && islandOn s (6 + thCluster th)

/-- The engine has issued an instruction of a thread; each issue takes a cycle of the 12 of the loads before it. -/
def noteIssue (s : State) (th : Nat) : State :=
  let g := engine s (thEngine th)
  setEngine s (thEngine th) { g with
    last := th % 8
    loads := (g.loads.filter (fun p => p.1 != th % 8 && decide (1 < p.2))).map (fun p => (p.1, p.2 - 1)) }

/-- The thread waits on a scratch load for 12 cycles (07 R152). -/
def noteLoad (s : State) (th : Nat) : State :=
  let g := engine s (thEngine th)
  setEngine s (thEngine th) { g with loads := g.loads ++ [(th % 8, 12)] }

def setPc (s : State) (th : Nat) (pc : BitVec 64) : State := setThread s th { thread s th with pc := pc }

/-- A thread issues one instruction: unused fields must be 0, the PC advances by 4, and a body that answers none is a
thread fault with the PC unmoved (07 R154, R157). A thread that may not issue does nothing. -/
def issueInstr (s : State) (th : Nat) (clean : Bool) (body : State → Option State) : State :=
  let t := thread s th
  if !mayIssue s th then s
  else
    let s := noteIssue s th
    if !clean || !pcLegal t.pc then threadFault s th
    else match body (setPc s th (t.pc + 4)) with
      | some s' => s'
      | none => threadFault s th

/-- Jump: a target outside the instruction store or not a multiple of 4 is a thread fault (07 R154). -/
def jump (s : State) (th : Nat) (pc : BitVec 64) : Option State := if pcLegal pc then some (setPc s th pc) else none

/-- An instruction that writes a function of two registers to rd (07 Table 7-3). -/
def aluOp (s : State) (th : Nat) (rd rs1 rs2 : BitVec 5) (f : BitVec 10) (op : BitVec 64 → BitVec 64 → BitVec 64) : State :=
  issueInstr s th (f == 0) (fun s => some (setReg s th rd (op (getReg s th rs1) (getReg s th rs2))))

/-- An instruction that writes a function of a register and an immediate to rd. -/
def immOp (s : State) (th : Nat) (rd rs1 : BitVec 5) (clean : Bool) (op : BitVec 64 → BitVec 64) : State :=
  issueInstr s th clean (fun s => some (setReg s th rd (op (getReg s th rs1))))

/-! ## Arithmetic -/

/-- ADD (07 Table 7-3). -/
def doAdd (s : State) (th : BitVec 10) (rd rs1 rs2 : BitVec 5) (f : BitVec 10) : State :=
  aluOp s th.toNat rd rs1 rs2 f (fun a b => a + b)

def execAdd (th : BitVec 10) (rd rs1 rs2 : BitVec 5) (f : BitVec 10) (s : State) : Host.Outcome State Fault Refusal :=
  .next (doAdd s th rd rs1 rs2 f)

/-- SUB (07 Table 7-3). -/
def doSub (s : State) (th : BitVec 10) (rd rs1 rs2 : BitVec 5) (f : BitVec 10) : State :=
  aluOp s th.toNat rd rs1 rs2 f (fun a b => a - b)

def execSub (th : BitVec 10) (rd rs1 rs2 : BitVec 5) (f : BitVec 10) (s : State) : Host.Outcome State Fault Refusal :=
  .next (doSub s th rd rs1 rs2 f)

/-- AND (07 Table 7-3). -/
def doAnd (s : State) (th : BitVec 10) (rd rs1 rs2 : BitVec 5) (f : BitVec 10) : State :=
  aluOp s th.toNat rd rs1 rs2 f (fun a b => a &&& b)

def execAnd (th : BitVec 10) (rd rs1 rs2 : BitVec 5) (f : BitVec 10) (s : State) : Host.Outcome State Fault Refusal :=
  .next (doAnd s th rd rs1 rs2 f)

/-- OR (07 Table 7-3). -/
def doOr (s : State) (th : BitVec 10) (rd rs1 rs2 : BitVec 5) (f : BitVec 10) : State :=
  aluOp s th.toNat rd rs1 rs2 f (fun a b => a ||| b)

def execOr (th : BitVec 10) (rd rs1 rs2 : BitVec 5) (f : BitVec 10) (s : State) : Host.Outcome State Fault Refusal :=
  .next (doOr s th rd rs1 rs2 f)

/-- XOR (07 Table 7-3). -/
def doXor (s : State) (th : BitVec 10) (rd rs1 rs2 : BitVec 5) (f : BitVec 10) : State :=
  aluOp s th.toNat rd rs1 rs2 f (fun a b => a ^^^ b)

def execXor (th : BitVec 10) (rd rs1 rs2 : BitVec 5) (f : BitVec 10) (s : State) : Host.Outcome State Fault Refusal :=
  .next (doXor s th rd rs1 rs2 f)

/-- SHL (07 Table 7-3). -/
def doShl (s : State) (th : BitVec 10) (rd rs1 rs2 : BitVec 5) (f : BitVec 10) : State :=
  aluOp s th.toNat rd rs1 rs2 f (fun a b => a <<< (b.toNat % 64))

def execShl (th : BitVec 10) (rd rs1 rs2 : BitVec 5) (f : BitVec 10) (s : State) : Host.Outcome State Fault Refusal :=
  .next (doShl s th rd rs1 rs2 f)

/-- SHR (07 Table 7-3). -/
def doShr (s : State) (th : BitVec 10) (rd rs1 rs2 : BitVec 5) (f : BitVec 10) : State :=
  aluOp s th.toNat rd rs1 rs2 f (fun a b => a >>> (b.toNat % 64))

def execShr (th : BitVec 10) (rd rs1 rs2 : BitVec 5) (f : BitVec 10) (s : State) : Host.Outcome State Fault Refusal :=
  .next (doShr s th rd rs1 rs2 f)

/-- SAR (07 Table 7-3). -/
def doSar (s : State) (th : BitVec 10) (rd rs1 rs2 : BitVec 5) (f : BitVec 10) : State :=
  aluOp s th.toNat rd rs1 rs2 f (fun a b => a.sshiftRight (b.toNat % 64))

def execSar (th : BitVec 10) (rd rs1 rs2 : BitVec 5) (f : BitVec 10) (s : State) : Host.Outcome State Fault Refusal :=
  .next (doSar s th rd rs1 rs2 f)

/-- MUL (07 Table 7-3). -/
def doMul (s : State) (th : BitVec 10) (rd rs1 rs2 : BitVec 5) (f : BitVec 10) : State :=
  aluOp s th.toNat rd rs1 rs2 f (fun a b => a * b)

def execMul (th : BitVec 10) (rd rs1 rs2 : BitVec 5) (f : BitVec 10) (s : State) : Host.Outcome State Fault Refusal :=
  .next (doMul s th rd rs1 rs2 f)

/-- SLTU (07 Table 7-3). -/
def doSltu (s : State) (th : BitVec 10) (rd rs1 rs2 : BitVec 5) (f : BitVec 10) : State :=
  aluOp s th.toNat rd rs1 rs2 f (fun a b => if a < b then 1 else 0)

def execSltu (th : BitVec 10) (rd rs1 rs2 : BitVec 5) (f : BitVec 10) (s : State) : Host.Outcome State Fault Refusal :=
  .next (doSltu s th rd rs1 rs2 f)

/-- SLT (07 Table 7-3). -/
def doSlt (s : State) (th : BitVec 10) (rd rs1 rs2 : BitVec 5) (f : BitVec 10) : State :=
  aluOp s th.toNat rd rs1 rs2 f (fun a b => if a.slt b then 1 else 0)

def execSlt (th : BitVec 10) (rd rs1 rs2 : BitVec 5) (f : BitVec 10) (s : State) : Host.Outcome State Fault Refusal :=
  .next (doSlt s th rd rs1 rs2 f)

/-- ADDI (07 Table 7-3). -/
def doAddi (s : State) (th : BitVec 10) (rd rs1 : BitVec 5) (imm : BitVec 15) : State :=
  immOp s th.toNat rd rs1 true (fun a => a + imm15 imm)

def execAddi (th : BitVec 10) (rd rs1 : BitVec 5) (imm : BitVec 15) (s : State) : Host.Outcome State Fault Refusal :=
  .next (doAddi s th rd rs1 imm)

/-- ANDI (07 Table 7-3). -/
def doAndi (s : State) (th : BitVec 10) (rd rs1 : BitVec 5) (imm : BitVec 15) : State :=
  immOp s th.toNat rd rs1 true (fun a => a &&& imm15 imm)

def execAndi (th : BitVec 10) (rd rs1 : BitVec 5) (imm : BitVec 15) (s : State) : Host.Outcome State Fault Refusal :=
  .next (doAndi s th rd rs1 imm)

/-- SHLI: I15[14:6] are unused and must be 0 (07 Table 7-3). -/
def doShli (s : State) (th : BitVec 10) (rd rs1 : BitVec 5) (imm : BitVec 15) : State :=
  immOp s th.toNat rd rs1 (fld imm 6 9 == 0) (fun a => a <<< (imm.toNat % 64))

def execShli (th : BitVec 10) (rd rs1 : BitVec 5) (imm : BitVec 15) (s : State) : Host.Outcome State Fault Refusal :=
  .next (doShli s th rd rs1 imm)

/-- SHRI: I15[14:6] are unused and must be 0 (07 Table 7-3). -/
def doShri (s : State) (th : BitVec 10) (rd rs1 : BitVec 5) (imm : BitVec 15) : State :=
  immOp s th.toNat rd rs1 (fld imm 6 9 == 0) (fun a => a >>> (imm.toNat % 64))

def execShri (th : BitVec 10) (rd rs1 : BitVec 5) (imm : BitVec 15) (s : State) : Host.Outcome State Fault Refusal :=
  .next (doShri s th rd rs1 imm)

/-- LUI (07 Table 7-3). -/
def doLui (s : State) (th : BitVec 10) (rd : BitVec 5) (imm : BitVec 20) : State :=
  issueInstr s th.toNat true (fun s => some (setReg s th.toNat rd (imm20 imm * 4096)))

def execLui (th : BitVec 10) (rd : BitVec 5) (imm : BitVec 20) (s : State) : Host.Outcome State Fault Refusal :=
  .next (doLui s th rd imm)

/-! ## Loads, stores and atomics -/

/-- Load `n` bytes, zero-extended, at rs1 + I15 (07 R155). -/
def loadOp (s : State) (th : Nat) (rd rs1 : BitVec 5) (imm : BitVec 15) (n : Nat) : State :=
  issueInstr s th true (fun s =>
    match windowOf s (thCluster th) (getReg s th rs1 + imm15 imm).toNat n with
    | none => none
    | some w =>
      let v := windowRead s (thCluster th) (heldWork (thread s th)) w n
      let s := match w with | .scratch _ => noteLoad s th | _ => s
      some (setReg s th rd (BitVec.ofNat 64 v)))

/-- Store `n` bytes of rs2 at rs1 + F10 (07 R155, R156). -/
def storeOp (s : State) (th : Nat) (rd rs1 rs2 : BitVec 5) (f : BitVec 10) (n : Nat) : State :=
  issueInstr s th (rd == 0) (fun s =>
    match windowOf s (thCluster th) (getReg s th rs1 + imm10 f).toNat n with
    | none => none
    | some w => some (windowWrite s (thCluster th) (heldWork (thread s th)) w n ((getReg s th rs2).toNat % 2 ^ (8 * n))))

/-- LD (07 Table 7-3). -/
def doLd (s : State) (th : BitVec 10) (rd rs1 : BitVec 5) (imm : BitVec 15) : State :=
  loadOp s th.toNat rd rs1 imm 8

def execLd (th : BitVec 10) (rd rs1 : BitVec 5) (imm : BitVec 15) (s : State) : Host.Outcome State Fault Refusal :=
  .next (doLd s th rd rs1 imm)

/-- LW (07 Table 7-3). -/
def doLw (s : State) (th : BitVec 10) (rd rs1 : BitVec 5) (imm : BitVec 15) : State :=
  loadOp s th.toNat rd rs1 imm 4

def execLw (th : BitVec 10) (rd rs1 : BitVec 5) (imm : BitVec 15) (s : State) : Host.Outcome State Fault Refusal :=
  .next (doLw s th rd rs1 imm)

/-- LH (07 Table 7-3). -/
def doLh (s : State) (th : BitVec 10) (rd rs1 : BitVec 5) (imm : BitVec 15) : State :=
  loadOp s th.toNat rd rs1 imm 2

def execLh (th : BitVec 10) (rd rs1 : BitVec 5) (imm : BitVec 15) (s : State) : Host.Outcome State Fault Refusal :=
  .next (doLh s th rd rs1 imm)

/-- LB (07 Table 7-3). -/
def doLb (s : State) (th : BitVec 10) (rd rs1 : BitVec 5) (imm : BitVec 15) : State :=
  loadOp s th.toNat rd rs1 imm 1

def execLb (th : BitVec 10) (rd rs1 : BitVec 5) (imm : BitVec 15) (s : State) : Host.Outcome State Fault Refusal :=
  .next (doLb s th rd rs1 imm)

/-- ST (07 Table 7-3). -/
def doSt (s : State) (th : BitVec 10) (rd rs1 rs2 : BitVec 5) (f : BitVec 10) : State :=
  storeOp s th.toNat rd rs1 rs2 f 8

def execSt (th : BitVec 10) (rd rs1 rs2 : BitVec 5) (f : BitVec 10) (s : State) : Host.Outcome State Fault Refusal :=
  .next (doSt s th rd rs1 rs2 f)

/-- SW (07 Table 7-3). -/
def doSw (s : State) (th : BitVec 10) (rd rs1 rs2 : BitVec 5) (f : BitVec 10) : State :=
  storeOp s th.toNat rd rs1 rs2 f 4

def execSw (th : BitVec 10) (rd rs1 rs2 : BitVec 5) (f : BitVec 10) (s : State) : Host.Outcome State Fault Refusal :=
  .next (doSw s th rd rs1 rs2 f)

/-- SH (07 Table 7-3). -/
def doSh (s : State) (th : BitVec 10) (rd rs1 rs2 : BitVec 5) (f : BitVec 10) : State :=
  storeOp s th.toNat rd rs1 rs2 f 2

def execSh (th : BitVec 10) (rd rs1 rs2 : BitVec 5) (f : BitVec 10) (s : State) : Host.Outcome State Fault Refusal :=
  .next (doSh s th rd rs1 rs2 f)

/-- SB (07 Table 7-3). -/
def doSb (s : State) (th : BitVec 10) (rd rs1 rs2 : BitVec 5) (f : BitVec 10) : State :=
  storeOp s th.toNat rd rs1 rs2 f 1

def execSb (th : BitVec 10) (rd rs1 rs2 : BitVec 5) (f : BitVec 10) (s : State) : Host.Outcome State Fault Refusal :=
  .next (doSb s th rd rs1 rs2 f)

/-- A scratch word that an atomic instruction names: 8 bytes, aligned, in scratch only (07 Table 7-3). -/
def atomicOp (s : State) (th : Nat) (rd rs1 : BitVec 5) (clean : Bool) (new : State → BitVec 64 → BitVec 64) : State :=
  issueInstr s th clean (fun s =>
    let a := (getReg s th rs1).toNat
    if a % 8 ≠ 0 ∨ scratchSize < a + 8 then none
    else
      let old := BitVec.ofNat 64 (leNat (scratchRead s (thCluster th) a 8))
      let v := new s old
      some (setReg (scratchWrite s (thCluster th) a (leBytes 8 v.toNat)) th rd old))

/-- AADD (07 Table 7-3). -/
def doAadd (s : State) (th : BitVec 10) (rd rs1 rs2 : BitVec 5) (f : BitVec 10) : State :=
  atomicOp s th.toNat rd rs1 (f == 0) (fun s old => old + getReg s th.toNat rs2)

def execAadd (th : BitVec 10) (rd rs1 rs2 : BitVec 5) (f : BitVec 10) (s : State) : Host.Outcome State Fault Refusal :=
  .next (doAadd s th rd rs1 rs2 f)

/-- ACAS (07 Table 7-3). -/
def doAcas (s : State) (th : BitVec 10) (rd rs1 rs2 : BitVec 5) (f : BitVec 10) : State :=
  atomicOp s th.toNat rd rs1 (f == 0) (fun s old => if old = getReg s th.toNat rd then getReg s th.toNat rs2 else old)

def execAcas (th : BitVec 10) (rd rs1 rs2 : BitVec 5) (f : BitVec 10) (s : State) : Host.Outcome State Fault Refusal :=
  .next (doAcas s th rd rs1 rs2 f)

/-! ## Branches and jumps -/

/-- A branch: PC + 4 × F10 from the branch's own PC when the comparison holds (07 Table 7-3). -/
def branchOp (s : State) (th : Nat) (rd rs1 rs2 : BitVec 5) (f : BitVec 10) (take : BitVec 64 → BitVec 64 → Bool) : State :=
  let pc := (thread s th).pc
  issueInstr s th (rd == 0) (fun s =>
    if take (getReg s th rs1) (getReg s th rs2) then jump s th (pc + 4 * imm10 f) else some s)

/-- BEQ (07 Table 7-3). -/
def doBeq (s : State) (th : BitVec 10) (rd rs1 rs2 : BitVec 5) (f : BitVec 10) : State :=
  branchOp s th.toNat rd rs1 rs2 f (fun a b => a == b)

def execBeq (th : BitVec 10) (rd rs1 rs2 : BitVec 5) (f : BitVec 10) (s : State) : Host.Outcome State Fault Refusal :=
  .next (doBeq s th rd rs1 rs2 f)

/-- BNE (07 Table 7-3). -/
def doBne (s : State) (th : BitVec 10) (rd rs1 rs2 : BitVec 5) (f : BitVec 10) : State :=
  branchOp s th.toNat rd rs1 rs2 f (fun a b => a != b)

def execBne (th : BitVec 10) (rd rs1 rs2 : BitVec 5) (f : BitVec 10) (s : State) : Host.Outcome State Fault Refusal :=
  .next (doBne s th rd rs1 rs2 f)

/-- BLT (07 Table 7-3). -/
def doBlt (s : State) (th : BitVec 10) (rd rs1 rs2 : BitVec 5) (f : BitVec 10) : State :=
  branchOp s th.toNat rd rs1 rs2 f (fun a b => a.slt b)

def execBlt (th : BitVec 10) (rd rs1 rs2 : BitVec 5) (f : BitVec 10) (s : State) : Host.Outcome State Fault Refusal :=
  .next (doBlt s th rd rs1 rs2 f)

/-- BLTU (07 Table 7-3). -/
def doBltu (s : State) (th : BitVec 10) (rd rs1 rs2 : BitVec 5) (f : BitVec 10) : State :=
  branchOp s th.toNat rd rs1 rs2 f (fun a b => decide (a < b))

def execBltu (th : BitVec 10) (rd rs1 rs2 : BitVec 5) (f : BitVec 10) (s : State) : Host.Outcome State Fault Refusal :=
  .next (doBltu s th rd rs1 rs2 f)

/-- JAL (07 Table 7-3). -/
def doJal (s : State) (th : BitVec 10) (rd : BitVec 5) (imm : BitVec 20) : State :=
  let pc := (thread s th.toNat).pc
  issueInstr s th.toNat true (fun s => jump (setReg s th.toNat rd (pc + 4)) th.toNat (pc + 4 * imm20 imm))

def execJal (th : BitVec 10) (rd : BitVec 5) (imm : BitVec 20) (s : State) : Host.Outcome State Fault Refusal :=
  .next (doJal s th rd imm)

/-- JR: rs1 is read before rd is written (07 Table 7-3). -/
def doJr (s : State) (th : BitVec 10) (rd rs1 rs2 : BitVec 5) (f : BitVec 10) : State :=
  let pc := (thread s th.toNat).pc
  issueInstr s th.toNat (rs2 == 0 && f == 0) (fun s =>
    jump (setReg s th.toNat rd (pc + 4)) th.toNat (getReg s th.toNat rs1))

def execJr (th : BitVec 10) (rd rs1 rs2 : BitVec 5) (f : BitVec 10) (s : State) : Host.Outcome State Fault Refusal :=
  .next (doJr s th rd rs1 rs2 f)

/-! ## Shared registers, ordering and time -/

/-- MFS (07 Table 7-3). -/
def doMfs (s : State) (th : BitVec 10) (rd rs1 rs2 : BitVec 5) (f : BitVec 10) : State :=
  issueInstr s th.toNat (rs1 == 0 && rs2 == 0 && fld f 6 4 == 0) (fun s =>
    some (setReg s th.toNat rd (getShared s th.toNat (fld f 0 6))))

def execMfs (th : BitVec 10) (rd rs1 rs2 : BitVec 5) (f : BitVec 10) (s : State) : Host.Outcome State Fault Refusal :=
  .next (doMfs s th rd rs1 rs2 f)

/-- MTS (07 Table 7-3). -/
def doMts (s : State) (th : BitVec 10) (rd rs1 rs2 : BitVec 5) (f : BitVec 10) : State :=
  issueInstr s th.toNat (rd == 0 && rs2 == 0 && fld f 6 4 == 0) (fun s =>
    some (setShared s th.toNat (fld f 0 6) (getReg s th.toNat rs1)))

def execMts (th : BitVec 10) (rd rs1 rs2 : BitVec 5) (f : BitVec 10) (s : State) : Host.Outcome State Fault Refusal :=
  .next (doMts s th rd rs1 rs2 f)

/-- AADDS (07 Table 7-3). -/
def doAadds (s : State) (th : BitVec 10) (rd rs1 rs2 : BitVec 5) (f : BitVec 10) : State :=
  issueInstr s th.toNat (rs2 == 0 && fld f 6 4 == 0) (fun s =>
    let old := getShared s th.toNat (fld f 0 6)
    some (setReg (setShared s th.toNat (fld f 0 6) (old + getReg s th.toNat rs1)) th.toNat rd old))

def execAadds (th : BitVec 10) (rd rs1 rs2 : BitVec 5) (f : BitVec 10) (s : State) : Host.Outcome State Fault Refusal :=
  .next (doAadds s th rd rs1 rs2 f)

/-- FENCE: every store is visible when the next command runs, so only the PC advances (07 Table 7-3). -/
def doFence (s : State) (th : BitVec 10) (rd rs1 rs2 : BitVec 5) (f : BitVec 10) : State :=
  issueInstr s th.toNat (rd == 0 && rs1 == 0 && rs2 == 0 && f == 0) some

def execFence (th : BitVec 10) (rd rs1 rs2 : BitVec 5) (f : BitVec 10) (s : State) : Host.Outcome State Fault Refusal :=
  .next (doFence s th rd rs1 rs2 f)

/-- TIME (07 R159). -/
def doTime (s : State) (th : BitVec 10) (rd rs1 rs2 : BitVec 5) (f : BitVec 10) : State :=
  issueInstr s th.toNat (rs1 == 0 && rs2 == 0 && f == 0) (fun s =>
    some (setReg s th.toNat rd (BitVec.ofNat 64 (clusterTime s))))

def execTime (th : BitVec 10) (rd rs1 rs2 : BitVec 5) (f : BitVec 10) (s : State) : Host.Outcome State Fault Refusal :=
  .next (doTime s th rd rs1 rs2 f)

/-- TCMP; 0 disarms (07 R160). -/
def doTcmp (s : State) (th : BitVec 10) (rd rs1 rs2 : BitVec 5) (f : BitVec 10) : State :=
  issueInstr s th.toNat (rd == 0 && rs2 == 0 && f == 0) (fun s =>
    some (setThread s th.toNat { thread s th.toNat with tcmp := getReg s th.toNat rs1 }))

def execTcmp (th : BitVec 10) (rd rs1 rs2 : BitVec 5) (f : BitVec 10) (s : State) : Host.Outcome State Fault Refusal :=
  .next (doTcmp s th rd rs1 rs2 f)

/-! ## Waiting and channels -/

/-- The wait of a WAIT or of a blocked CHOPEN that starts now (07 R161, R166). A wait on the inbox alone has no maximum. -/
def newWait (s : State) (sel : BitVec 3) (ch : Nat) (rd : BitVec 5) (limited : Bool) : Waiting :=
  ⟨sel, ch, rd, clusterTime s, if limited then waitMaxTicks s else 0⟩

/-- WAIT (07 R161). -/
def doWait (s : State) (th : BitVec 10) (rd rs1 rs2 : BitVec 5) (f : BitVec 10) : State :=
  issueInstr s th.toNat (rs2 == 0 && fld f 3 7 == 0) (fun s =>
    let sel : BitVec 3 := BitVec.ofNat 3 (fld f 0 3)
    let ch := fld (getReg s th.toNat rs1) 0 8
    if sel = 0 then some (setReg s th.toNat rd 0)
    else if sel.getLsbD 0 && ch / 32 != thEngine th.toNat % 8 then none
    else
      let w := newWait s sel ch rd (sel.getLsbD 0 || sel.getLsbD 1)
      let w0 := { w with max := 0 }
      if waitBits s th.toNat w0 ≠ 0 then some (setReg s th.toNat rd (BitVec.ofNat 64 (waitBits s th.toNat w0)))
      else some (setThread s th.toNat { thread s th.toNat with state := .waiting, wait := some w }))

def execWait (th : BitVec 10) (rd rs1 rs2 : BitVec 5) (f : BitVec 10) (s : State) : Host.Outcome State Fault Refusal :=
  .next (doWait s th rd rs1 rs2 f)

/-- The channel has no owner and its ring holds fewer than 4 messages (07 R163). -/
def channelFree (s : State) (c ch : Nat) : Bool :=
  (channel s c ch).owner.isNone && decide ((channel s c ch).ring.length < 4)

/-- The thread becomes the write owner of a channel. -/
def ownChannel (s : State) (th ch : Nat) : State :=
  let s := setChannel s (thCluster th) ch { channel s (thCluster th) ch with owner := some (thLocal th) }
  setThread s th { thread s th with owns := some ch, staging := 0 }

/-- CHOPEN (07 R163). -/
def doChopen (s : State) (th : BitVec 10) (rd rs1 rs2 : BitVec 5) (f : BitVec 10) : State :=
  issueInstr s th.toNat (rs2 == 0 && f == 0) (fun s =>
    let ch := fld (getReg s th.toNat rs1) 0 8
    if (thread s th.toNat).owns.isSome then none
    else if channelFree s (thCluster th.toNat) ch then some (setReg (ownChannel s th.toNat ch) th.toNat rd 0)
    else some (setThread s th.toNat { thread s th.toNat with state := .blocked, wait := some (newWait s 0 ch rd true) }))

def execChopen (th : BitVec 10) (rd rs1 rs2 : BitVec 5) (f : BitVec 10) (s : State) : Host.Outcome State Fault Refusal :=
  .next (doChopen s th rd rs1 rs2 f)

/-- CHPUT (07 R163). -/
def doChput (s : State) (th : BitVec 10) (rd rs1 rs2 : BitVec 5) (f : BitVec 10) : State :=
  issueInstr s th.toNat (rd == 0 && rs1 == 0 && fld f 3 7 == 0) (fun s =>
    let t := thread s th.toNat
    if t.owns.isNone then some s
    else some (setThread s th.toNat { t with
      staging := setFld t.staging (64 * fld f 0 3) 64 (getReg s th.toNat rs2).toNat }))

def execChput (th : BitVec 10) (rd rs1 rs2 : BitVec 5) (f : BitVec 10) (s : State) : Host.Outcome State Fault Refusal :=
  .next (doChput s th rd rs1 rs2 f)

/-- The first committed message that waits for room in its ring: it has no engine and no ledger entry (07 R163). -/
def parked (x : Channel) : Option (BitVec 512 × Option Nat × Option Nat) :=
  x.results.find? (fun r => r.2.1.isNone && r.2.2.isNone)

/-- A message joins the ring of a channel and wakes its waiting threads; a full ring makes it wait, and so does a message that
was committed before and waits (07 R163, R164, R171). -/
def publish (s : State) (c ch : Nat) (msg : BitVec 512) : State :=
  let x := channel s c ch
  if x.ring.length < 4 ∧ (parked x).isNone then
    wakeChannel (setChannel s c ch { x with ring := x.ring ++ [msg] }) c ch
  else putResult s c ch msg none none

/-- A control core posts a whole message to an EXT channel that is free, through the cluster's control port (07 R163). -/
def corePost (s : State) (c ch : Nat) (msg : BitVec 512) : State :=
  if (channel s c ch).ext && channelFree s c ch then
    publish (count s (0xC090 + c) 0x0B) c ch msg
  else s

/-- CHCOMMIT of a thread (07 R163). -/
def doChcommit (s : State) (th : BitVec 10) (rd rs1 rs2 : BitVec 5) (f : BitVec 10) : State :=
  issueInstr s th.toNat (rs1 == 0 && rs2 == 0 && f == 0) (fun s =>
    let t := thread s th.toNat
    let c := thCluster th.toNat
    match t.owns with
    | none => some (setReg s th.toNat rd 1)
    | some ch =>
      let s := setThread s th.toNat { t with owns := none, staging := 0 }
      let s := setChannel s c ch { channel s c ch with owner := none }
      let s := publish (count s (0xC090 + c) 0x0B) c ch t.staging
      some (setReg s th.toNat rd 0))

/-- CHCOMMIT of a thread, or a control core's post of a message: cluster, channel, message (07 R163). -/
def execChcommit (core : Option (BitVec 4 × BitVec 8 × BitVec 512)) (th : BitVec 10) (rd rs1 rs2 : BitVec 5)
    (f : BitVec 10) (s : State) : Host.Outcome State Fault Refusal :=
  .next (match core with
    | some p => corePost s p.1.toNat p.2.1.toNat p.2.2
    | none => doChcommit s th rd rs1 rs2 f)

/-- The first result message that may enter a ring: a Kennel result enters when its place in its order queue is due and
then retires (07 R171, 13 R299, R301, R309). -/
def resultDue (s : State) (x : Channel) : Option (BitVec 512 × Option Nat × Option Nat) :=
  x.results.find? (fun r => match r.2.2 with
    | none => true
    | some e => match ledGet s e with
      | some le => (ordFind s le.queue).due == le.seq
      | none => true)

/-- Deliver one result message when the ring has room. -/
def deliverResult (s : State) (c ch : Nat) : State :=
  let x := channel s c ch
  match resultDue s x with
  | none => s
  | some r =>
    if 4 ≤ x.ring.length then s
    else
      let s := setChannel s c ch { x with ring := x.ring ++ [r.1], results := x.results.erase r }
      let s := match r.2.1 with
        | some e => setEngine s (c * 8 + e) { engine s (c * 8 + e) with out := (engine s (c * 8 + e)).out - 1 }
        | none => s
      let s := match r.2.2 with | some e => ledRetire s e | none => s
      wakeChannel s c ch

def execResultDelivery (cluster : BitVec 4) (channel : BitVec 8) (s : State) : Host.Outcome State Fault Refusal :=
  .next (deliverResult s cluster.toNat channel.toNat)

/-- A ring has lost its oldest message: a committed message that waits enters at once, so that messages keep their commit
order (07 R164). -/
def takeOldest (s : State) (c ch : Nat) : State :=
  let x := channel s c ch
  let ring := x.ring.tail
  match parked x with
  | none => setChannel s c ch { x with ring := ring }
  | some r => setChannel s c ch { x with ring := ring ++ [r.1], results := x.results.erase r }

/-- CHGET; an empty ring copies nothing, wherever rs2 points (07 R164). -/
def doChget (s : State) (th : BitVec 10) (rd rs1 rs2 : BitVec 5) (f : BitVec 10) : State :=
  issueInstr s th.toNat (f == 0) (fun s =>
    let c := thCluster th.toNat
    let ch := fld (getReg s th.toNat rs1) 0 8
    let a := (getReg s th.toNat rs2).toNat
    if ch / 32 ≠ thEngine th.toNat % 8 then none
    else match (channel s c ch).ring with
      | [] => some (setReg s th.toNat rd 0)
      | m :: _ =>
        if a % 64 ≠ 0 ∨ scratchSize < a + 64 then none
        else some (setReg (scratchWrite (takeOldest s c ch) c a (leBytes 64 m.toNat)) th.toNat rd 1))

def execChget (th : BitVec 10) (rd rs1 rs2 : BitVec 5) (f : BitVec 10) (s : State) : Host.Outcome State Fault Refusal :=
  .next (doChget s th rd rs1 rs2 f)

/-- CHCFG (07 R162). -/
def doChcfg (s : State) (th : BitVec 10) (rd rs1 rs2 : BitVec 5) (f : BitVec 10) : State :=
  issueInstr s th.toNat (rd == 0 && rs2 == 0 && fld f 1 9 == 0) (fun s =>
    let c := thCluster th.toNat
    let ch := fld (getReg s th.toNat rs1) 0 8
    if ch / 32 ≠ thEngine th.toNat % 8 then none
    else some (setChannel s c ch { channel s c ch with ext := f.getLsbD 0 }))

def execChcfg (th : BitVec 10) (rd rs1 rs2 : BitVec 5) (f : BitVec 10) (s : State) : Host.Outcome State Fault Refusal :=
  .next (doChcfg s th rd rs1 rs2 f)

/-! ## Starting and stopping threads (07 R158) -/

/-- SETREG (07 R158). -/
def doSetreg (s : State) (th : BitVec 10) (rd rs1 rs2 : BitVec 5) (f : BitVec 10) : State :=
  issueInstr s th.toNat (rd == 0 && fld f 6 4 == 0) (fun s =>
    let target := thEngine th.toNat * 8 + fld (getReg s th.toNat rs1) 0 3
    let t := thread s target
    let v := getReg s th.toNat rs2
    if th.toNat % 8 ≠ 0 then none
    else if t.state = .stopped ∨ t.state = .faulted then
      if f.getLsbD 5 then some (setThread s target { t with pc := v })
      else some (setReg s target (BitVec.ofNat 5 (fld f 0 5)) v)
    else some s)

def execSetreg (th : BitVec 10) (rd rs1 rs2 : BitVec 5) (f : BitVec 10) (s : State) : Host.Outcome State Fault Refusal :=
  .next (doSetreg s th rd rs1 rs2 f)

/-- START moves one named thread that is STOPPED or FAULTED to RUNNABLE. -/
def startOne (s : State) (th : Nat) : State := setThread s th { thread s th with state := .runnable }

/-- Whether START moves thread `i` of an engine. -/
def startable (s : State) (e i : Nat) : Bool :=
  i != 0 && ((thread s (e * 8 + i)).state == .stopped || (thread s (e * 8 + i)).state == .faulted)

/-- START (07 R158). -/
def doStart (s : State) (th : BitVec 10) (rd rs1 rs2 : BitVec 5) (f : BitVec 10) : State :=
  issueInstr s th.toNat (rs2 == 0 && f == 0) (fun s =>
    let e := thEngine th.toNat
    let mask := getReg s th.toNat rs1
    if th.toNat % 8 ≠ 0 then none
    else
      let moved := (List.range 8).filter (fun i => mask.getLsbD i && startable s e i)
      let s := moved.foldl (fun s i => startOne s (e * 8 + i)) s
      some (setReg s th.toNat rd (BitVec.ofNat 64 ((moved.map (fun i => 2 ^ i)).sum))))

def execStart (th : BitVec 10) (rd rs1 rs2 : BitVec 5) (f : BitVec 10) (s : State) : Host.Outcome State Fault Refusal :=
  .next (doStart s th rd rs1 rs2 f)

/-- HALT (07 R153). -/
def doHalt (s : State) (th : BitVec 10) (rd rs1 rs2 : BitVec 5) (f : BitVec 10) : State :=
  issueInstr s th.toNat (rd == 0 && rs1 == 0 && rs2 == 0 && f == 0) (fun s =>
    some (setThread s th.toNat { thread s th.toNat with state := .stopped }))

def execHalt (th : BitVec 10) (rd rs1 rs2 : BitVec 5) (f : BitVec 10) (s : State) : Host.Outcome State Fault Refusal :=
  .next (doHalt s th rd rs1 rs2 f)

/-! ## Ending items (07 R168, R170) -/

/-- The thread lets go of its item. -/
def release (s : State) (th : Nat) : State := setThread s th { thread s th with item := none, place := none, gone := false }

/-- A detour item goes to its pipeline's return queue: its frame is cut to LENGTH less the FCS (07 R156, R168). -/
def returnItem (s : State) (id : Nat) : State :=
  match itemGet s id with
  | none => s
  | some x =>
    let t := match x.pos with | .jutex t _ _ => t | _ => 0
    let n := x.len - 4
    let x := { x with pos := .returning (t + 1) (now s + 16), bytes := bytesAt x.bytes 0 n }
    let s := itemPut s x
    { s with pipe := { s.pipe with retQ := lmod s.pipe.retQ x.pipe (fun q => q ++ [id]) } }

/-- RETURN; without an item it has no effect (07 R168, assumption 22). -/
def doRet (s : State) (th : BitVec 10) (rd rs1 rs2 : BitVec 5) (f : BitVec 10) : State :=
  issueInstr s th.toNat (rd == 0 && rs1 == 0 && rs2 == 0 && f == 0) (fun s =>
    match (thread s th.toNat).item with
    | none => some s
    | some (.host _ _) => none
    | some (.detour id) => some (returnItem (count (release s th.toNat) (0xC090 + thCluster th.toNat) 0x03) id))

def execRet (th : BitVec 10) (rd rs1 rs2 : BitVec 5) (f : BitVec 10) (s : State) : Host.Outcome State Fault Refusal :=
  .next (doRet s th rd rs1 rs2 f)

/-- DROP; successors are released as R121 states (07 R168). -/
def doDropItem (s : State) (th : BitVec 10) (rd rs1 rs2 : BitVec 5) (f : BitVec 10) : State :=
  issueInstr s th.toNat (rd == 0 && rs1 == 0 && rs2 == 0 && f == 0) (fun s =>
    match (thread s th.toNat).item with
    | none => some s
    | some (.host _ _) => none
    | some (.detour id) => some (itemRemove (count (release s th.toNat) (0xC090 + thCluster th.toNat) 0x04) id))

def execDropItem (th : BitVec 10) (rd rs1 rs2 : BitVec 5) (f : BitVec 10) (s : State) : Host.Outcome State Fault Refusal :=
  .next (doDropItem s th rd rs1 rs2 f)

/-- A COMPLETE of an item that its worker no longer has, or whose entry is lost or retired, ends nothing and counts in its
slice's late_complete (12 R287, 13 R311). -/
def lateComplete (s : State) (q : OrdQ) : State :=
  match q with | .host false sl _ _ => countAt s 0xC0F0 0x05 sl | _ => s

/-- A STATUS that a worker gives: one that is reserved is never produced, and which code stands for it is open (13 R302,
assumption 256). -/
def workerStatus (s : State) (status : BitVec 8) : BitVec 8 × State :=
  if status.toNat < 10 then (status, s)
  else
    let r := draw s
    (BitVec.ofNat 8 (r.1.toNat % 10), r.2)

/-- The worker ends the host item that has place `seq` in order queue `q` (07 R170, 13 R306). -/
def completeItem (s : State) (entry : Nat) (q : OrdQ) (seq : Nat) (status detail : BitVec 8) (result : BitVec 64) : State :=
  match ledGet s entry with
  | some e =>
    if e.state = .running ∧ e.queue = q ∧ e.seq = seq then
      let w := workerStatus s status
      hostDone w.2 entry w.1 detail result
    else lateComplete s q
  | none => lateComplete s q

/-- COMPLETE of a thread (07 R170). -/
def doComplete (s : State) (th : BitVec 10) (rd rs1 rs2 : BitVec 5) (f : BitVec 10) : State :=
  issueInstr s th.toNat (rd == 0 && f == 0) (fun s =>
    let t := thread s th.toNat
    let a := getReg s th.toNat rs1
    match t.item with
    | none => some s
    | some (.detour _) => none
    | some (.host e _) =>
      let s := release s th.toNat
      match t.place with
      | none => some s
      | some p =>
        if t.gone then some (lateComplete s p.1)
        else some (completeItem (count s (0xC090 + thCluster th.toNat) 0x05) e p.1 p.2 (BitVec.ofNat 8 (fld a 0 8))
          (BitVec.ofNat 8 (fld a 8 8)) (getReg s th.toNat rs2)))

/-- COMPLETE of a thread, or of the control core that holds an item: its ledger entry and SEQ, status, detail, result
(13 R306). -/
def execComplete (core : Option (BitVec 18 × BitVec 32 × BitVec 8 × BitVec 8 × BitVec 64)) (th : BitVec 10)
    (rd rs1 rs2 : BitVec 5) (f : BitVec 10) (s : State) : Host.Outcome State Fault Refusal :=
  .next (match core with
    | some (entry, seq, status, detail, result) =>
      match s.jx.coreItems.find? (fun x => x.1 == entry.toNat && x.2.2.2 == seq.toNat) with
      | none => s
      | some x => completeItem (coreDrops s entry.toNat seq.toNat) entry.toNat x.2.2.1 seq.toNat status detail result
    | none => doComplete s th rd rs1 rs2 f)

/-! ## ISSUE (07 R171) -/

/-- Owner of what a thread issues: the held item's slice, or the infrastructure when it holds none (09 R215). -/
def issueOwner (s : State) (t : Thread) : Option Nat :=
  match t.item with
  | some (.host _ _) => match t.place with | some (.host false sl _ _, _) => some sl | _ => none
  | some (.detour id) => (itemGet s id).map (fun x => busSlice x.bus)
  | none => none

/-- A refused DMA ISSUE answers in its result channel and touches no channel (10 R229, R241). -/
def dmaRefuse (s : State) (c : Nat) (raw : BitVec 512) (eng status detail : Nat) : State :=
  putResult s c (fld raw 268 8) (BitVec.ofNat 512 (status + detail * 2 ^ 8 + fld raw 256 12 * 2 ^ 16)) (some eng) none

/-- The registers that a DMA ISSUE loads (10 Table 10-7); the START bit of CTRL is ignored. -/
def issueChan (x : Chan) (raw : BitVec 512) : Chan :=
  { x with
    src := BitVec.ofNat 64 (fld raw 0 64), dst := BitVec.ofNat 64 (fld raw 64 64)
    count := BitVec.ofNat 32 (fld raw 128 32), srcN := BitVec.ofNat 16 (fld raw 160 16)
    dstN := BitVec.ofNat 16 (fld raw 176 16), ctrl := BitVec.ofNat 64 (fld raw 192 64)
    refTag := BitVec.ofNat 32 (fld raw 320 32), appTag := BitVec.ofNat 16 (fld raw 352 16)
    keySlot := BitVec.ofNat 20 (fld raw 384 20), fill := BitVec.ofNat 64 (fld raw 448 64) }

/-- The engine has one more ISSUE outstanding. -/
def issueOut (s : State) (e : Nat) : State := setEngine s e { engine s e with out := (engine s e).out + 1 }

/-- CTRL of a request places a reserved encoding or a reserved bit; FILL ignores SRC_SPACE (10 R231). A request has no old
field to keep, so this is a FORM fault (10 Table 10-7, assumption 235). -/
def issueCtrlBad (ctrl : BitVec 64) : Bool :=
  pairOk 32 ctrl.toNat &&
    (fld ctrl 1 2 == 3 || (fld ctrl 5 2 == 3 && fld ctrl 1 2 != 1) || fld ctrl 7 2 == 3 || fld ctrl 18 14 != 0)

/-- Status and detail with which the DMA engine refuses a request; none: it acts (10 R229, R241). -/
def dmaRefusal (s : State) (owner : Option Nat) (raw : BitVec 512) : Option (Nat × Nat) :=
  let ch := fld raw 256 12
  if fld raw 276 2 = 3 ∨ fld raw 278 42 ≠ 0 ∨ fld raw 368 16 ≠ 0 ∨ fld raw 404 44 ≠ 0 then some (5, 0x01)
  else if channelOwner s ch ≠ owner then some (4, 0x06)
  else if fld raw 276 2 ≠ 0 then none
  else if (chan s ch).state ≠ .idle ∨ ownerDraining s owner then some (8, 0x07)
  else if issueCtrlBad (BitVec.ofNat 64 (fld raw 192 64)) then some (5, 0x01)
  else none

/-- An ISSUE of engine `e` to the DMA engine that has been taken (10 R241). ABORT and RETRY have no result of their own, and
are not outstanding; a refusal answers, and is. -/
def dmaIssue (s : State) (c e : Nat) (w : Option Work) (owner : Option Nat) (raw : BitVec 512) : State :=
  let ch := fld raw 256 12
  match dmaRefusal s owner raw with
  | some r => issueOut (dmaRefuse s c raw (e % 8) r.1 r.2) e
  | none =>
    match fld raw 276 2 with
    | 0 => issueOut (dmaStart s ch (issueChan (chan s ch) raw) (.issue c (e % 8) (fld raw 268 8) w) owner) e
    | 1 => dmaAbort s ch
    | _ => dmaRetry s ch

/-- The cluster's issue queue: what its threads have issued and no cipher leg and not yet Kennel has taken (07 R171). -/
def issuesWaiting (s : State) (c : Nat) : Nat :=
  (issueQueue s (fun q => match q with | .jutex k _ _ => k == c | _ => false)).length +
    (s.ken.issues.filter (fun q => q.issuer == c)).length

/-- The owner is a slice that drains (12 R287). -/
def sliceDraining (s : State) (owner : Option Nat) : Bool :=
  match owner with | some sl => (slice s sl).state == .draining | none => false

/-- What an ISSUE answers in rd and does: target 0 cipher, 1 Kennel, 2 DMA (07 R171, assumption 23); the cluster's issue queue
holds 64, and a Kennel request for which no ledger entry may be taken is left with its issuer as by a full queue (13 R305). While
the slice drains, DMA starts meet BUSY (10 R229) and the other units' requests an aborted result (12 R287). -/
def issueTo (s : State) (th target : Nat) (raw : BitVec 512) : BitVec 64 × State :=
  let c := thCluster th
  let e := thEngine th
  let w := heldWork (thread s th)
  let owner := issueOwner s (thread s th)
  let ch := match target with | 0 => fld raw 96 8 | 1 => fld raw 32 8 | _ => fld raw 268 8
  let reset := if target = 2 then (thread s th).gone && !ownerDraining s owner
    else (thread s th).gone || sliceDraining s owner
  if !(channel s c ch).ext then (2, s)
  else if 64 ≤ issuesWaiting s c then (1, count s (0xC090 + c) 0x0F)
  else if reset then
    (0, issueOut (putResult s c ch (if target = 2 then BitVec.ofNat 512 (1 + 0x1A * 2 ^ 8 + fld raw 256 12 * 2 ^ 16)
      else keyResult 1 0x0F (fld raw 8 20) 0 (if target = 1 then 63 else 0) 0 0) (some (e % 8)) none) e)
  else match target with
    | 0 => (0, issueOut (cipherIssue s (.jutex c (e % 8) w) raw owner) e)
    | 1 =>
      if !ledRoom s .kennel then (1, noteWait (count s (0xC090 + c) 0x0F))
      else (0, issueOut (kenPump { s with ken := { s.ken with
        issues := s.ken.issues ++ [⟨raw, c, owner, e % 8, w, 0, false, []⟩] } }) e)
    | _ => (0, dmaIssue s c e w owner raw)

/-- ISSUE (07 R171); its 64-byte access to scratch is aligned to its width (07 R154, assumption 222). -/
def doIssue (s : State) (th : BitVec 10) (rd rs1 rs2 : BitVec 5) (f : BitVec 10) : State :=
  issueInstr s th.toNat (rs2 == 0 && fld f 2 8 == 0) (fun s =>
    let a := (getReg s th.toNat rs1).toNat
    if a % 64 ≠ 0 ∨ scratchSize < a + 64 ∨ fld f 0 2 = 3 then none
    else
      let r := issueTo s th.toNat (fld f 0 2) (BitVec.ofNat 512 (leNat (scratchRead s (thCluster th.toNat) a 64)))
      some (setReg r.2 th.toNat rd r.1))

/-- A cipher request of the control-core complex enters its issue queue of 256; with the queue full it is not taken
(09 R200). The control cores act as the infrastructure (09 R215). -/
def coreIssue (s : State) (raw : BitVec 512) : State :=
  if 256 ≤ (issueQueue s (fun q => q == .core)).length then s else cipherIssue s .core raw none

def execIssue (th : BitVec 10) (rd rs1 rs2 : BitVec 5) (f : BitVec 10) (s : State)
    (core : Option (BitVec 512) := none) : Host.Outcome State Fault Refusal :=
  .next (match core with | some raw => coreIssue s raw | none => doIssue s th rd rs1 rs2 f)

/-! ## Events of clusters -/

/-- TIMER_REACHED (07 R160, R161): a thread that waits on its armed timer wakes. -/
def execTimerReached (th : BitVec 10) (s : State) : Host.Outcome State Fault Refusal :=
  .next (match (thread s th.toNat).wait with
    | some w => if w.sel.getLsbD 1 && timerHit s (thread s th.toNat) then wakeIf s th.toNat else s
    | none => s)

/-- WAIT_MAX_EXPIRY (07 R166). -/
def execWaitMaxExpiry (th : BitVec 10) (s : State) : Host.Outcome State Fault Refusal :=
  let t := thread s th.toNat
  .next (match t.state, t.wait with
    | .waiting, some w => if waitExpired s w then wake s th.toNat w (waitBits s th.toNat w) else s
    | .blocked, some w => if waitExpired s w then wake s th.toNat w 8 else s
    | _, _ => s)

/-- CHOPEN_GRANT (07 R163). -/
def execChopenGrant (th : BitVec 10) (s : State) : Host.Outcome State Fault Refusal :=
  let t := thread s th.toNat
  .next (match t.state, t.wait with
    | .blocked, some w =>
      if channelFree s (thCluster th.toNat) w.channel then wake (ownChannel s th.toNat w.channel) th.toNat w 0 else s
    | _, _ => s)

/-- A wait that all-asleep detection counts: on a channel with EXT 0, no timer, no maximum (07 R167). -/
def sleeps (s : State) (th : Nat) : Bool :=
  let t := thread s th
  match t.state, t.wait with
  | .waiting, some w => w.sel.getLsbD 0 && !w.sel.getLsbD 1 && !(channel s (thCluster th) w.channel).ext && w.max == 0
  | .blocked, some w => !(channel s (thCluster th) w.channel).ext && w.max == 0
  | _, _ => false

def stateIs (s : State) (th : Nat) (l : List ThState) : Bool := l.contains (thread s th).state

/-- The all-asleep condition of an engine (07 R167). -/
def allAsleep (s : State) (e : Nat) : Bool :=
  let c := e / 8
  let own := (List.range 8).map (fun i => e * 8 + i)
  let all := (List.range 64).map (fun i => c * 64 + i)
  own.all (fun th => stateIs s th [.stopped] || sleeps s th) && own.any (sleeps s) &&
    own.all (fun th => !(sleeps s th) || (match (thread s th).wait with
      | some w => (channel s c w.channel).ring.isEmpty
      | none => true)) &&
    (engine s e).inbox.isEmpty && (engine s e).out == 0 && !(engine s e).frozen &&
    all.all (fun th => th / 8 == e || stateIs s th [.stopped, .frozen, .faulted] || sleeps s th)

/-- An engine freezes: its waiting threads go to FROZEN and it leaves dispatch (07 R167). -/
def freezeEngine (s : State) (e : Nat) : State :=
  let s := setEngine (count s (0xC090 + e / 8) 0x09) e { engine s e with frozen := true }
  ((List.range 8).map (fun i => e * 8 + i)).foldl
    (fun s th => if stateIs s th [.waiting, .blocked] then setThread s th { thread s th with state := .frozen } else s) s

/-- ALL_ASLEEP_FREEZE (07 R167): every engine of the cluster that meets the condition freezes in the same cycle. The 64
cycles have passed when the command comes. -/
def execAllAsleepFreeze (engine : BitVec 7) (s : State) : Host.Outcome State Fault Refusal :=
  let c := engine.toNat / 8
  .next (if allAsleep s engine.toNat then
      let due := ((List.range 8).map (fun i => c * 8 + i)).filter (allAsleep s)
      event (due.foldl freezeEngine s) 0x0202 (6 + c) ((due.map (fun e => 2 ^ (e % 8))).sum)
    else s)

/-- A detour item that finds no cluster is dropped and counted (07 R172). -/
def dropNoCluster (s : State) (id : Nat) : State := itemRemove (count s 0xC0A0 0x10) id

/-- DETOUR_ARRIVAL (07 R168) at the cluster that the mapping gave when the item left (R172); a full inbox drops it. -/
def execDetourArrival (item : Nat) (s : State) : Host.Outcome State Fault Refusal :=
  .next (match itemGet s item with
    | none => s
    | some x =>
      match x.pos with
      | .toCluster t c fn =>
        if inboxRoom s c (.detour item) then
          enterCluster (count (itemPut s { x with pos := .jutex t c fn }) (0xC090 + c) 0x01) c (.detour item)
        else itemRemove (count s (0xC090 + c) 0x06) item
      | _ => s)

/-- Function number of a piece of work. -/
def workFn (s : State) (w : Work) : Nat :=
  match w with
  | .host _ fn => fn % 256
  | .detour id => match itemGet s id with | some x => (match x.pos with | .jutex _ _ fn => fn % 256 | _ => 0) | none => 0

/-- A thread receives an item: WAIT returns, and the function's entry point becomes its PC; an entry of 0 faults at once
(07 R168). -/
def giveItem (s : State) (th : Nat) (w : Work) : State :=
  let c := thCluster th
  let bits := match (thread s th).wait with | some v => 4 + waitBits s th v | none => 4
  let s := match (thread s th).wait with | some v => wake s th v bits | none => s
  let entry := (sget 0 (cluster s c).store (workFn s w)).toNat
  let place := match w with | .host e _ => (ledGet s e).map (fun x => (x.queue, x.seq)) | .detour _ => none
  let s := setThread s th { thread s th with item := some w, place := place, gone := false }
  if entry = 0 then threadFault s th else setPc s th (BitVec.ofNat 64 entry)

/-- ITEM_OFFER (07 R168). -/
def execItemOffer (engine : BitVec 7) (s : State) : Host.Outcome State Fault Refusal :=
  let e := engine.toNat
  let g := Sys2Proof.Machine.engine s e
  let free (th : Nat) : Bool := (thread s th).state == .waiting && (thread s th).item.isNone &&
    (match (thread s th).wait with | some w => w.sel.getLsbD 2 | none => false)
  .next (match g.inbox, ((List.range 8).map (fun i => e * 8 + i)).find? free with
    | w :: rest, some th => pump (giveItem (setEngine s e { g with inbox := rest }) th w) (e / 8)
    | _, _ => s)

/-- CLUSTER_FAULT (07 R172): the items its engines hold are lost; it is excluded from the next beat boundary. -/
def execClusterFault (cluster : BitVec 4) (s : State) : Host.Outcome State Fault Refusal :=
  let c := cluster.toNat
  let x := Sys2Proof.Machine.cluster s c
  .next (if x.faulted then s
    else
      let s := event (setCluster s c { x with faulted := true }) 0x0203 (6 + c) c
      ((List.range 8).map (fun i => c * 8 + i)).foldl engineReset s)

/-- CORE_OFFLINE (07 R173): its host items go back to the ledger. A halted core's watchdog is paused (20 R457). -/
def execCoreOffline (core : BitVec 4) (s : State) : Host.Outcome State Fault Refusal :=
  let n := core.toNat
  .next (if s.jx.offline.getLsbD n || s.jx.halted.getLsbD n then s
    else
      let s := { s with jx := { s.jx with offline := s.jx.offline ||| BitVec.ofNat 16 (2 ^ n) } }
      let s := event (count s 0xC0A1 0x01) 0x0204 (22 + n / 8) n
      let mine := s.led.metas.filter (fun m => m.2.worker == some (.core n))
      let s := { s with jx := { s.jx with coreItems := s.jx.coreItems.filter (fun x => x.2.1 != n) } }
      mine.foldl (fun s m => hostLost (count s 0xC0A1 0x02) m.1) s)

end Sys2Proof.Machine
end

