-- ==== Sys2Proof/Machine/JutexWord.lean ====
section
/-!
DEFINITION. A Jutex instruction word as the instruction store holds it (07 R157): the debugger's STEP issues the one at
the thread's PC (20 R455).
-/

namespace Sys2Proof.Machine

/-- The word at a thread's PC. -/
def wordAt (s : State) (th : Nat) : BitVec 32 :=
  sget 0 (cluster s (thCluster th)).store ((thread s th).pc.toNat / 4 % 65536)

/-- The instruction of format R named by OP. -/
def runR (op : Nat) : Option (State → BitVec 10 → BitVec 5 → BitVec 5 → BitVec 5 → BitVec 10 → State) :=
  match op with
  | 0x01 => some doAdd | 0x02 => some doSub | 0x03 => some doAnd | 0x04 => some doOr | 0x05 => some doXor
  | 0x06 => some doShl | 0x07 => some doShr | 0x08 => some doSar | 0x09 => some doMul | 0x0A => some doSltu
  | 0x0B => some doSlt | 0x24 => some doSt | 0x25 => some doSw | 0x26 => some doSh | 0x27 => some doSb
  | 0x28 => some doAadd | 0x29 => some doAcas | 0x30 => some doBeq | 0x31 => some doBne | 0x32 => some doBlt
  | 0x33 => some doBltu | 0x35 => some doJr | 0x38 => some doMfs | 0x39 => some doMts | 0x3A => some doAadds
  | 0x3B => some doFence | 0x40 => some doTime | 0x41 => some doTcmp | 0x42 => some doWait | 0x43 => some doChopen
  | 0x44 => some doChput | 0x45 => some doChcommit | 0x46 => some doChget | 0x47 => some doChcfg
  | 0x48 => some doSetreg | 0x49 => some doStart | 0x4A => some doHalt | 0x4B => some doRet | 0x4C => some doDropItem
  | 0x4D => some doComplete | 0x4E => some doIssue
  | _ => none

/-- The instruction of format I named by OP. -/
def runI (op : Nat) : Option (State → BitVec 10 → BitVec 5 → BitVec 5 → BitVec 15 → State) :=
  match op with
  | 0x10 => some doAddi | 0x11 => some doAndi | 0x12 => some doShli | 0x13 => some doShri | 0x20 => some doLd
  | 0x21 => some doLw | 0x22 => some doLh | 0x23 => some doLb
  | _ => none

/-- The instruction of format U named by OP. -/
def runU (op : Nat) : Option (State → BitVec 10 → BitVec 5 → BitVec 20 → State) :=
  match op with
  | 0x14 => some doLui | 0x34 => some doJal
  | _ => none

/-- A thread issues the instruction of a word; every other OP faults (07 R154). -/
def runWord (s : State) (th : BitVec 10) (w : BitVec 32) : State :=
  let op := fld w 0 7
  let rd : BitVec 5 := BitVec.ofNat 5 (fld w 7 5)
  let rs1 : BitVec 5 := BitVec.ofNat 5 (fld w 12 5)
  match runR op, runI op, runU op with
  | some f, _, _ => f s th rd rs1 (BitVec.ofNat 5 (fld w 17 5)) (BitVec.ofNat 10 (fld w 22 10))
  | none, some f, _ => f s th rd rs1 (BitVec.ofNat 15 (fld w 17 15))
  | none, none, some f => f s th rd (BitVec.ofNat 20 (fld w 12 20))
  | none, none, none => issueInstr s th.toNat false (fun _ => none)

end Sys2Proof.Machine
end

