-- ==== Sys2Proof/Machine/Debug.lean ====
section
/-!
DEFINITION. The test access port and the debug access port (20 R449–R457).
-/

namespace Sys2Proof.Machine

def dbgSet (s : State) (d : Dbg) : State := { s with dbg := d }

/-! ## The test access port (20 R449) -/

def setIr (s : State) (code : BitVec 8) : State := dbgSet s { s.dbg with ir := code }

/-- TAP_RESET selects IDCODE. -/
def execTapReset (s : State) : Host.Outcome State Fault Refusal := .next (setIr s 0x01)

/-- IDCODE shifts out the identification code. -/
def execIdcode (s : State) : Host.Outcome State Fault Refusal := .next (emit (setIr s 0x01) (.tdo 0x01 0x1324847B))

/-- The chain as sampled: cells of 1.8 V pins read 0 while the main domain is off. -/
def sampledChain (s : State) (pins : BitVec 256) : BitVec 256 := if mainOn s then pins else pins &&& ~~~Config.lowCells

/-- SAMPLE/PRELOAD: the sampled chain shifts out and the preloaded one is held. -/
def execSamplePreload (sampled preload : BitVec 256) (s : State) : Host.Outcome State Fault Refusal :=
  .next (emit (dbgSet s { s.dbg with ir := 0x02, chain := preload }) (.tdo 0x02 (sampledChain s sampled).toNat))

/-- An instruction that takes pins from functional control: once unlocked, after a hard fault; else it acts as BYPASS. -/
def pinInstr (s : State) (code : BitVec 8) : State :=
  if s.dbg.unlocked then setIr (hardFault s 0x0A code.toNat) code else setIr s 0xFF

def execExtest (s : State) : Host.Outcome State Fault Refusal := .next (pinInstr s 0x03)
def execClamp (s : State) : Host.Outcome State Fault Refusal := .next (pinInstr s 0x04)
def execHighz (s : State) : Host.Outcome State Fault Refusal := .next (pinInstr s 0x05)

/-- DEBUG is taken in lock level OPEN or AUTH; in CLOSED it acts as BYPASS. -/
def execDebug (s : State) : Host.Outcome State Fault Refusal :=
  .next (setIr s (if Config.lockLevel = 2 then 0xFF else 0x10))

def execBypass (s : State) : Host.Outcome State Fault Refusal := .next (setIr s 0xFF)

/-! ## The debug access port (20 R450–R453) -/

def selKind (s : State) : Nat := fld s.dbg.sel 0 2
/-- The selected thread. -/
def selThread (s : State) : Nat := fld s.dbg.sel 2 4 * 64 + fld s.dbg.sel 6 3 * 8 + fld s.dbg.sel 9 3
def selCore (s : State) : Nat := fld s.dbg.sel 12 4

/-- STATUS.RESULT (20 Table 20-3): 0 OK, 1 NOTHING_STAGED, 2 LOCKED, 3 STATE, 4 FIREWALL, 5 NOT_POWERED, 6 AUTH. -/
def dbgResult (s : State) (r : Nat) : State := dbgSet s { s.dbg with result := BitVec.ofNat 3 r }

/-- A command to which the specification gives no result: no effect, and a free RESULT. -/
def dbgOpen (s : State) : State :=
  let r := draw s
  dbgResult r.2 (r.1.toNat % 8)

/-- The main domain is powered and an island is ON (20 R453). -/
def islandUp (s : State) (n : Nat) : Bool := s.pwr.phase == .on && sget 0 s.pwr.isl n == 0

def selIsland (s : State) : Nat :=
  if selKind s = 0 then 6 + fld s.dbg.sel 2 4 else if selKind s = 1 then 22 + selCore s / 8 else 33

/-- A command of an unlocked port whose target is powered (20 R452, R453). -/
def dbgDo (s : State) (f : State → State) : State :=
  if !s.dbg.unlocked then dbgResult s 2
  else if selKind s ≠ 3 ∧ !islandUp s (selIsland s) then dbgResult s 5
  else f s

/-- Event 0x0206 with the SEL value that names the target. -/
def haltEvent (s : State) (island sel : Nat) : State := event s 0x0206 island sel

/-! ### Halting (20 R455–R457) -/

def haltThread (s : State) (th sel : Nat) : State :=
  let t := thread s th
  if t.state = .halted then s
  else haltEvent (setThread s th { t with state := .halted, before := t.state }) (6 + thCluster th) sel

def coreBit (s : State) : BitVec 16 := BitVec.ofNat 16 (2 ^ selCore s)

def coreHalted (s : State) : Bool := s.jx.halted.getLsbD (selCore s)

/-- A core's registers take new values: those it was given or was read at are past. -/
def coreRuns (s : State) : State :=
  { s with jx := { s.jx with
      epoch := s.jx.epoch + 1
      written := s.jx.written.filter (fun e => e.1 / 65536 != selCore s) } }

/-- HALT (20 Table 20-2): a FAULTED thread stays so and the RESULT is STATE. -/
def debugHalt (s : State) : State :=
  match selKind s with
  | 0 =>
    if (thread s (selThread s)).state = .faulted then dbgResult s 3
    else dbgResult (haltThread s (selThread s) s.dbg.sel.toNat) 0
  | 1 =>
    if coreHalted s then dbgResult s 0
    else
      let s := coreRuns s
      dbgResult (haltEvent { s with jx := { s.jx with halted := s.jx.halted ||| coreBit s } } (selIsland s) s.dbg.sel.toNat) 0
  | _ => dbgOpen s

/-- A thread goes back to the state before its halt; a waiting one wakes at once on a condition that holds (20 R455). -/
def resumeThread (s : State) (th : Nat) : State :=
  let t := thread s th
  let s := setThread s th { t with state := t.before, before := .stopped }
  match t.before, t.wait with
  | .waiting, some _ => wakeIf s th
  | .blocked, some w => if waitExpired s w then wake s th w 8 else s
  | _, _ => s

/-- RESUME; STATE unless the target is halted. -/
def debugResume (s : State) : State :=
  match selKind s with
  | 0 =>
    if (thread s (selThread s)).state = .halted then dbgResult (resumeThread s (selThread s)) 0 else dbgResult s 3
  | 1 =>
    if coreHalted s then
      let s := coreRuns s
      dbgResult { s with jx := { s.jx with halted := s.jx.halted &&& ~~~(coreBit s) } } 0
    else dbgResult s 3
  | _ => dbgOpen s

/-- After the one instruction of a STEP: the thread halts, at once or with the halt pending until its wait ends. -/
def stepHalt (s : State) (th : Nat) : State :=
  let t := thread s th
  match t.state with
  | .waiting | .blocked => setThread s th { t with before := .halted }
  | .faulted | .frozen | .halted => s
  | .runnable | .stopped => setThread s th { t with state := .halted, before := t.state }

/-- STEP of a halted thread: one instruction from RUNNABLE, the next that its engine issues; a thread halted in a wait returns
to it with a halt pending. -/
def stepThread (s : State) (th : Nat) : State :=
  let t := thread s th
  match t.before with
  | .runnable =>
    let s := setThread s th { t with state := .runnable, before := .stopped }
    let s := setEngine s (thEngine th) { engine s (thEngine th) with last := th + 7 }
    dbgResult (stepHalt (runWord s (BitVec.ofNat 10 th) (wordAt s th)) th) 0
  | .waiting | .blocked => dbgResult (stepHalt (resumeThread s th) th) 0
  | _ => dbgResult s 3

def debugStep (s : State) : State :=
  match selKind s with
  | 0 => if (thread s (selThread s)).state = .halted then stepThread s (selThread s) else dbgResult s 3
  | 1 => if coreHalted s then dbgResult (coreRuns s) 0 else dbgResult s 3
  | _ => dbgOpen s

/-- ABORT_STAGED of a write owner (07 R165); NOTHING_STAGED when the thread owns no channel. -/
def abortStaged (s : State) : State :=
  let th := selThread s
  let t := thread s th
  if selKind s ≠ 0 then dbgOpen s
  else match t.owns with
    | none => dbgResult s 1
    | some ch =>
      let c := thCluster th
      let s := setThread s th { t with owns := none, staging := 0 }
      let s := setChannel s c ch { channel s c ch with owner := none }
      dbgResult (count s (0xC090 + c) 0x0C) 0

/-- ABORT_WAIT of a FROZEN thread (07 R167): rd = 0, or 8 for CHOPEN; the engine is no longer frozen. -/
def abortWait (s : State) : State :=
  let th := selThread s
  let t := thread s th
  if selKind s ≠ 0 then dbgOpen s
  else match t.state, t.wait with
    | .frozen, some w =>
      let s := setThread s th { t with state := .runnable, wait := none }
      let s := setReg s th w.rd (if w.sel = 0 then 8 else 0)
      dbgResult (setEngine s (thEngine th) { engine s (thEngine th) with frozen := false }) 0
    | _, _ => dbgResult s 3

/-! ### Registers (20 Table 20-3) -/

/-- A register of a thread by REGNO: x0–x31, PC, timer compare, s0–s63. -/
def threadReg (s : State) (th n : Nat) : Option (BitVec 64) :=
  if n < 32 then some (getReg s th (BitVec.ofNat 5 n))
  else if n = 32 then some (thread s th).pc
  else if n = 33 then some (thread s th).tcmp
  else if 64 ≤ n ∧ n < 128 then some (getShared s th (n - 64))
  else none

def setThreadReg (s : State) (th n : Nat) (v : BitVec 64) : State :=
  if n < 32 then setReg s th (BitVec.ofNat 5 n) v
  else if n = 32 then setPc s th v
  else if n = 33 then setThread s th { thread s th with tcmp := v }
  else setShared s th (n - 64) v

/-- Abstract register number of x0, which reads 0 and discards writes (RISC-V External Debug Support 0.13.2). -/
def coreZero : Nat := 0x1000

/-- A register of a control core: what was written or read since its halt, else a free value (07). -/
def coreRegister (s : State) (c n : Nat) : BitVec 64 :=
  if n = coreZero then 0
  else match sfind s.jx.written (c * 65536 + n) with
    | some v => v
    | none => Config.coreReg c n s.jx.epoch

def coreKeep (s : State) (c n : Nat) (v : BitVec 64) : State :=
  if n = coreZero then s else { s with jx := { s.jx with written := sput s.jx.written (c * 65536 + n) v } }

def setData (s : State) (v : BitVec 64) : State := dbgSet s { s.dbg with data := v }

def regRead (s : State) : State :=
  let n := s.dbg.regno.toNat
  match selKind s with
  | 0 =>
    match threadReg s (selThread s) n with
    | some v => dbgResult (setData s v) 0
    | none => dbgOpen s
  | 1 =>
    let s := if coreHalted s then s else coreRuns s
    let v := coreRegister s (selCore s) n
    dbgResult (setData (if coreHalted s then coreKeep s (selCore s) n v else s) v) 0
  | _ => dbgOpen s

/-- REG_WRITE, only to a HALTED, STOPPED or FAULTED target. -/
def regWrite (s : State) : State :=
  let n := s.dbg.regno.toNat
  let th := selThread s
  match selKind s with
  | 0 =>
    match (thread s th).state with
    | .halted | .stopped | .faulted =>
      if (threadReg s th n).isSome then dbgResult (setThreadReg s th n s.dbg.data) 0 else dbgOpen s
    | _ => dbgResult s 3
  | 1 => if coreHalted s then dbgResult (coreKeep s (selCore s) n s.dbg.data) 0 else dbgResult s 3
  | _ => dbgOpen s

/-! ### Memory (20 R453, R454) -/

/-- The size of the NOR flash, as SFDP gives it: 16 MiB to 2 GiB (15 R345). -/
def norSize : Nat := max 16777216 (min 2147483648 Config.norBytes)

/-- An erased byte of NOR reads 0xFF. -/
def norByte (s : State) (a : Nat) : Byte := sget 0xFF s.boot.nor a

def norRead (s : State) (a n : Nat) : List Byte := (List.range n).map (fun i => norByte s (a + i))

def norPut (m : Sparse Byte) (a : Nat) : List Byte → Sparse Byte
  | [] => m
  | b :: bs => norPut (sset 0xFF m a b) (a + 1) bs

def norWrite (s : State) (a : Nat) (bs : List Byte) : State :=
  { s with boot := { s.boot with nor := norPut s.boot.nor a bs } }

/-- KIND 3 commands are refused while a stage-1 copy pass runs or an image write is open (20 R454). -/
def norHeld (s : State) : Bool := passRuns s || s.boot.writing.isSome

/-- MEM_READ of 8 bytes at ADDR; none: no memory there. -/
def memRead (s : State) : Option State :=
  let a := s.dbg.addr.toNat
  let got (bs : List Byte) : State := dbgResult (setData s (BitVec.ofNat 64 (leNat bs))) 0
  match selKind s with
  | 0 =>
    match windowOf s (thCluster (selThread s)) a 8 with
    | some w => some (dbgResult (setData s (BitVec.ofNat 64
        (windowRead s (thCluster (selThread s)) (heldWork (thread s (selThread s))) w 8))) 0)
    | none => some (dbgOpen s)
  | 1 => some (dbgOpen s)
  | 2 => if a % 8 ≠ 0 then some (dbgOpen s) else if hbmSize < a + 8 then none else some (got (hbmRead s a 8))
  | _ =>
    if norHeld s then some (dbgResult s 3)
    else if a % 8 ≠ 0 then some (dbgOpen s) else if norSize < a + 8 then none else some (got (norRead s a 8))

/-- MEM_WRITE of DATA; a write-locked region answers FIREWALL and keeps its content. -/
def memWrite (s : State) : Option State :=
  let a := s.dbg.addr.toNat
  let bs := leBytes 8 s.dbg.data.toNat
  match selKind s with
  | 0 =>
    match windowOf s (thCluster (selThread s)) a 8 with
    | some (.hbm x) => some (if hbmLocked s x 8 then dbgResult s 4 else dbgResult (hbmWrite s x bs) 0)
    | some w =>
      some (dbgResult (windowWrite s (thCluster (selThread s)) (heldWork (thread s (selThread s))) w 8 s.dbg.data.toNat) 0)
    | none => some (dbgOpen s)
  | 1 => some (dbgOpen s)
  | 2 =>
    if a % 8 ≠ 0 then some (dbgOpen s)
    else if hbmSize < a + 8 then none
    else some (if hbmLocked s a 8 then dbgResult s 4 else dbgResult (hbmWrite s a bs) 0)
  | _ =>
    if norHeld s then some (dbgResult s 3)
    else if a % 8 ≠ 0 then some (dbgOpen s) else if norSize < a + 8 then none else some (dbgResult (norWrite s a bs) 0)

/-- NOR_ERASE of the 4 KiB block at ADDR, KIND 3. -/
def norErase (s : State) : Option State :=
  let a := s.dbg.addr.toNat / 4096 * 4096
  if selKind s ≠ 3 then some (dbgOpen s)
  else if norHeld s then some (dbgResult s 3)
  else if norSize ≤ a then none
  else some (dbgResult { s with boot := { s.boot with
    nor := s.boot.nor.filter (fun e => decide (e.1 < a) || decide (a + 4096 ≤ e.1)) } } 0)

/-! ### Unlocking (20 R450) -/

/-- CHALLENGE: the 32 bytes of the DRBG draw that the state names. -/
def challengeBytes (s : State) : List Byte := leBytes 32 (Config.drbg (2 ^ 64 + s.dbg.nonce)).toNat

def freshChallenge (s : State) : State := dbgSet s { s.dbg with nonce := s.dbg.nonce + 1 }

/-- The RESPONSE registers satisfy R450. -/
def responseOk (s : State) : Bool :=
  let r := leBytes 128 s.dbg.response.toNat
  let key := r.take 64
  sha256 key == Config.factoryKeyHash &&
    ecdsaVerify key (r.drop 64) (sha256 (challengeBytes s ++ leBytes 8 Config.serial.toNat))

/-- UNLOCK: in level CLOSED the port refuses every command. -/
def unlockPort (s : State) : State :=
  if Config.lockLevel = 2 then dbgResult s 2
  else
    let ok := responseOk s
    let s := freshChallenge s
    let s := event (if ok then dbgSet s { s.dbg with unlocked := true } else s) 0x0406 0 (if ok then 1 else 0)
    dbgResult s (if ok then 0 else 6)

def newChallenge (s : State) : State := if Config.lockLevel = 2 then dbgResult s 2 else dbgResult (freshChallenge s) 0

def relockPort (s : State) : State :=
  if s.dbg.unlocked then dbgResult (dbgSet s { s.dbg with unlocked := false }) 0 else dbgResult s 2

/-! ### The commands (20 Table 20-2) -/

/-- A command that may name memory that the part does not carry. -/
def dbgMem (s : State) (f : State → Option State) : Host.Outcome State Fault Refusal :=
  if !s.dbg.unlocked then .next (dbgResult s 2)
  else if selKind s ≠ 3 ∧ !islandUp s (selIsland s) then .next (dbgResult s 5)
  else match f s with
    | some s' => .next s'
    | none => .fault (.noDeviceMemory s.dbg.addr.toNat)

def execDebugHalt (s : State) : Host.Outcome State Fault Refusal := .next (dbgDo s debugHalt)
def execDebugResume (s : State) : Host.Outcome State Fault Refusal := .next (dbgDo s debugResume)
def execDebugStep (s : State) : Host.Outcome State Fault Refusal := .next (dbgDo s debugStep)
def execAbortStaged (s : State) : Host.Outcome State Fault Refusal := .next (dbgDo s abortStaged)
def execAbortWait (s : State) : Host.Outcome State Fault Refusal := .next (dbgDo s abortWait)
def execRegRead (s : State) : Host.Outcome State Fault Refusal := .next (dbgDo s regRead)
def execRegWrite (s : State) : Host.Outcome State Fault Refusal := .next (dbgDo s regWrite)
def execMemRead (s : State) : Host.Outcome State Fault Refusal := dbgMem s memRead
def execMemWrite (s : State) : Host.Outcome State Fault Refusal := dbgMem s memWrite
def execNorErase (s : State) : Host.Outcome State Fault Refusal := dbgMem s norErase
def execUnlock (s : State) : Host.Outcome State Fault Refusal := .next (unlockPort s)
def execRelock (s : State) : Host.Outcome State Fault Refusal := .next (relockPort s)
def execNewChallenge (s : State) : Host.Outcome State Fault Refusal := .next (newChallenge s)

/-- The effect of a write of CMD; a command on memory that the part does not carry has none here. -/
def dbgCommand (s : State) (cmd : Nat) : State :=
  let mem (f : State → Option State) : State := dbgDo s (fun s => (f s).getD (dbgOpen s))
  match cmd with
  | 1 => dbgDo s debugHalt | 2 => dbgDo s debugResume | 3 => dbgDo s debugStep | 4 => dbgDo s abortStaged
  | 5 => dbgDo s abortWait | 6 => dbgDo s regRead | 7 => dbgDo s regWrite | 8 => mem memRead | 9 => mem memWrite
  | 10 => mem norErase | 11 => unlockPort s | 12 => relockPort s | 13 => newChallenge s
  | _ => s

/-! ### Breakpoints (20 R455) -/

def bpOn (b : Nat) : Bool := b % 2 == 1
def bpMeets (b th : Nat) : Bool := b / 2 % 2 == 1 || b / 4 % 8 == th % 8
def bpPc (b : Nat) : Nat := b / 256 % 2 ^ 18

/-- An enabled breakpoint of the thread's engine matches its next PC. -/
def bpHit (s : State) (th : Nat) : Bool :=
  (List.range 4).any (fun n =>
    let b := sget 0 s.dbg.bps (4 * thEngine th + n)
    bpOn b && bpMeets b th && bpPc b == (thread s th).pc.toNat)

/-- BREAKPOINT: the thread halts before the instruction. -/
def execBreakpoint (th : BitVec 10) (s : State) : Host.Outcome State Fault Refusal :=
  let n := th.toNat
  .next (if (thread s n).state = .runnable ∧ bpHit s n then
      haltThread s n (n / 64 * 4 + thEngine n % 8 * 64 + n % 8 * 512)
    else s)

/-! ### Access to the registers (20 Table 20-3, Table 20-5: element e is offset 8e) -/

def threadCode : ThState → Nat
  | .stopped => 0 | .runnable => 1 | .waiting => 2 | .blocked => 3 | .halted => 4 | .frozen => 5 | .faulted => 6

/-- STATUS. -/
def dbgStatus (s : State) : Nat :=
  let t := thread s (selThread s)
  let isTh := selKind s == 0
  let st := if isTh then threadCode t.state else if selKind s = 1 then (if coreHalted s then 4 else 1) else 0
  st + s.dbg.result.toNat * 2 ^ 4 +
    (if isTh then (match t.owns with | some ch => 2 ^ 7 + ch % 256 * 2 ^ 8 | none => 0) else 0) +
    (if isTh && t.item.isSome then 2 ^ 16 else 0)

/-- A register as it reads; write-only fields read 0. -/
def dapRead (s : State) (e : Nat) : Nat :=
  match e with
  | 0 => s.dbg.sel.toNat
  | 1 => dbgStatus s
  | 2 => s.dbg.regno.toNat
  | 3 => s.dbg.data.toNat
  | 4 => s.dbg.addr.toNat
  | 5 => Config.lockLevel % 4 + (if s.dbg.unlocked then 4 else 0)
  | _ =>
    if 8 ≤ e ∧ e < 12 then sget 0 s.dbg.bps (4 * thEngine (selThread s) + (e - 8))
    else if 16 ≤ e ∧ e < 20 then leNat (bytesAt (challengeBytes s) (8 * (e - 16)) 8)
    else 0

/-- A write. Bits [9:8] of BPn must be 0; a write that breaks this leaves BPn.PC unchanged (00 R9). -/
def dapWrite (s : State) (e v : Nat) : State :=
  match e with
  | 0 => dbgCommand (dbgSet s { s.dbg with sel := BitVec.ofNat 16 (v % 2 ^ 16) }) (v / 2 ^ 32 % 16)
  | 2 => dbgSet s { s.dbg with regno := BitVec.ofNat 16 (v % 2 ^ 16) }
  | 3 => dbgSet s { s.dbg with data := BitVec.ofNat 64 v }
  | 4 => dbgSet s { s.dbg with addr := BitVec.ofNat 64 v }
  | _ =>
    if 8 ≤ e ∧ e < 12 then
      let k := 4 * thEngine (selThread s) + (e - 8)
      let pc := if v / 256 % 4 ≠ 0 then sget 0 s.dbg.bps k / 256 else v / 256 % 2 ^ 18
      dbgSet s { s.dbg with bps := sset 0 s.dbg.bps k (v % 32 + pc * 256) }
    else if 20 ≤ e ∧ e < 36 then
      dbgSet s { s.dbg with response := setFld s.dbg.response (64 * (e - 20)) 64 v }
    else s

end Sys2Proof.Machine
end

