-- ==== Sys2Proof/Machine/Nor.lean ====
section
/-!
DEFINITION. What NOR holds beside images: its directory (15 R346), the copies of the user calibration set (18 R424, R425) and
the fault log (20 R461, R462).
-/

namespace Sys2Proof.Machine

/-! ## The NOR directory (15 R346) -/

/-- A region: its type, offset and size. -/
structure NorRegion where
  ty   : Nat
  off  : Nat
  size : Nat
deriving DecidableEq, Repr

/-- One entry of 16 bytes: an entry of zeros is unused; none marks a reserved or unaligned field. -/
def norEntry (e : List Byte) : Option (Option NorRegion) :=
  let w := leNat e
  if w = 0 then some none
  else
    let r : NorRegion := ⟨w % 2 ^ 16, (w >>> 32) % 2 ^ 32, (w >>> 64) % 2 ^ 32⟩
    if (w >>> 16) % 2 ^ 16 ≠ 0 ∨ w >>> 96 ≠ 0 ∨ r.ty = 0 ∨ 11 < r.ty ∨ r.off % 4096 ≠ 0 ∨ r.size % 4096 ≠ 0 then none
    else some (some r)

/-- Each of types 1 to 9 once, types 10 and 11 at most once, no two regions overlapping. -/
def norRegionsOk (rs : List NorRegion) : Bool :=
  (List.range 12).all (fun t =>
      let n := (rs.filter (fun r => r.ty == t)).length
      if t = 0 then n == 0 else if t ≤ 9 then n == 1 else decide (n ≤ 1)) &&
    rs.all (fun a => rs.all (fun b => a.ty == b.ty || !overlaps a.off a.size b.off b.size))

/-- The copy of the directory at an offset, when it is good. -/
def norDirectoryAt (s : State) (a : Nat) : Option (List NorRegion) :=
  let bs := norRead s a 4096
  if (crc32c (bs.take 4092)).toNat ≠ leNat (bs.drop 4092) then none
  else
    let es := (List.range 32).map (fun i => norEntry (bytesAt bs (16 * i) 16))
    let rs := es.filterMap (fun e => e.join)
    if es.all (·.isSome) ∧ leNat (bytesAt bs 512 3580) = 0 ∧ norRegionsOk rs then some rs else none

/-- The first good copy. -/
def norDirectory (s : State) : Option (List NorRegion) :=
  match norDirectoryAt s 0 with
  | some d => some d
  | none => norDirectoryAt s 0x10000

def norRegion (s : State) (ty : Nat) : Option NorRegion :=
  match norDirectory s with
  | some d => d.find? (fun r => r.ty == ty)
  | none => none

/-- Bytes of a region return to the erased value. -/
def norEraseRange (s : State) (a n : Nat) : State :=
  { s with boot := { s.boot with nor := s.boot.nor.filter (fun e => decide (e.1 < a) || decide (a + n ≤ e.1)) } }

/-! ## The slot-state record (15 R353) -/

/-- Where copy `k` of the slot-state record lies; none: the region is absent or too small. -/
def recordPlace (s : State) (k : Nat) : Option Nat :=
  match norRegion s 7 with
  | some r => if 0x2000 ≤ r.size then some (r.off + 0x1000 * k) else none
  | none => none

/-- A copy whose CRC is good, with its write sequence. -/
def recordCopy (s : State) (k : Nat) : Option (Nat × List Byte) :=
  match recordPlace s k with
  | none => none
  | some a =>
    let bs := norRead s a 4096
    if (crc32c (bs.take 4092)).toNat = leNat (bs.drop 4092) then some (leNat (bytesAt bs 0 4), bs) else none

/-- The record: of the good copies the one with the higher sequence, with its copy number. -/
def slotRecord (s : State) : Option (Nat × Nat × List Byte) :=
  match recordCopy s 0, recordCopy s 1 with
  | some a, some b => if a.1 < b.1 then some (1, b) else some (0, a)
  | some a, none => some (0, a)
  | none, some b => some (1, b)
  | none, none => none

/-- The bytes of a record: sequence, six states, trial window, and the CRC in the last 4 bytes. DESIGN CHOICE (assumption 52):
the window lies at byte 10, and the bytes after it are erased. -/
def recordImage (s : State) (seq : Nat) : List Byte :=
  let body := leBytes 4 seq ++ (List.range 6).map (fun i => BitVec.ofNat 8 (s.boot.slots.getD i 0))
    ++ leBytes 2 (objGet s 0x2010 0x02 0) ++ List.replicate 4080 0xFF
  body ++ leBytes 4 (crc32c body).toNat

/-- NOR with the other copy overwritten, with the sequence plus 1 (15 R353). -/
def recordNor (s : State) : Sparse Byte :=
  let k := match slotRecord s with | some (0, _) => 1 | _ => 0
  let seq := match slotRecord s with | some (_, q, _) => (q + 1) % 2 ^ 32 | none => 1
  match recordPlace s k with
  | none => s.boot.nor
  | some a => (norWrite (norEraseRange s a 4096) a (recordImage s seq)).boot.nor

/-- The record follows the slot states and the trial window. -/
def writeRecord (s : State) : State := { s with boot := { s.boot with nor := recordNor s } }

/-- Whelp reads the record. With no good copy every slot is EMPTY and the window its default (DESIGN CHOICE,
assumption 52). A reserved state reads as REJECTED (15 Table 15-5). -/
def readRecord (s : State) : State :=
  match slotRecord s with
  | some (_, _, bs) =>
    objPut { s with boot := { s.boot with slots := (bytesAt bs 4 6).map (fun b => if 4 < b.toNat then 4 else b.toNat) } } 0x2010 0x02 0 (leNat (bytesAt bs 10 2))
  | none => objPut { s with boot := { s.boot with slots := List.replicate 6 0 } } 0x2010 0x02 0 120

/-! ## The certificate chain (15 R364) -/

/-- Copy `k` of the chain, when its CRC is good. DESIGN CHOICE (assumption 243): each half of the region holds the length in
4 bytes, the chain, and the CRC-32C of the chain. -/
def chainCopy (s : State) (k : Nat) : Option (List Byte) :=
  match norRegion s 8 with
  | none => none
  | some r =>
    let half := r.size / 2
    let a := r.off + half * k
    let n := leNat (norRead s a 4)
    let bs := norRead s (a + 4) n
    if n + 8 ≤ half ∧ n ≠ 0 ∧ (crc32c bs).toNat = leNat (norRead s (a + 4 + n) 4) then some bs else none

/-- Stage 1 takes the first copy whose CRC passes. -/
def readChain (s : State) : State :=
  { s with boot := { s.boot with chain := (chainCopy s 0).or (chainCopy s 1) } }

/-! ## The user calibration set (18 R424, Table 18-7) -/

/-- Objects of the user set: the offsets and the identity objects of 17 R400. -/
def calibObject (idx sub : Nat) : Bool :=
  (decide (0x3100 ≤ idx) && decide (idx ≤ 0x31FF)) || (idx == 0x1000 && (sub == 5 || sub == 6))

/-- The arrays of a record from offset 0x010 on, one after the other: index, sub, elements, bytes of an element. -/
def calibArrays : List (Nat × Nat × Nat × Nat) :=
  [(0x3100, 1, 32, 2), (0x3100, 2, 8, 2), (0x3110, 1, 32, 2), (0x3120, 1, 16, 4), (0x3130, 1, 34, 2), (0x3140, 1, 32, 4),
   (0x1000, 5, 1, 2), (0x1000, 6, 1, 2)]

/-- Bytes 0x010 to 0x1A7 of the copy in effect, as the objects hold it. -/
def calibBytes (s : State) : List Byte :=
  calibArrays.flatMap (fun a => (List.range a.2.2.1).flatMap (fun e => leBytes a.2.2.2 (objGet s a.1 a.2.1 e)))

/-- The record of 4 KiB of the set that the objects hold. -/
def calibRecord (s : State) (seq : Nat) : List Byte :=
  let body := bytesAt (leBytes 16 (0x5543414C + 1 * 2 ^ 32 + seq % 2 ^ 32 * 2 ^ 64) ++ calibBytes s) 0 4092
  body ++ leBytes 4 (crc32c body).toNat

/-- The values of some arrays, from their bytes, with the keys of their elements. -/
def calibSplit : List (Nat × Nat × Nat × Nat) → List Byte → List (Nat × Nat)
  | [], _ => []
  | (idx, sub, n, w) :: rest, bs =>
    (List.range n).map (fun e => (okey idx sub e, leNat (bytesAt bs (w * e) w))) ++ calibSplit rest (bs.drop (n * w))

def calibVals (bs : List Byte) : List (Nat × Nat) := calibSplit calibArrays (bs.drop 16)

/-- The integer that an encoding stands for. -/
def valueInt (d : ObjDesc) (v : Nat) : Int :=
  match d.ty with
  | 6 => signed 8 v | 7 => signed 16 v | 8 => signed 32 v
  | _ => v

/-- The value lies in the range of its object's row. -/
def inRow (key v : Nat) : Bool :=
  match objDesc (okeyIdx key) (okeySub key) with
  | some d => decide (d.least ≤ valueInt d v) && decide (valueInt d v ≤ d.most)
  | none => false

/-- Where a copy of the set lies; none: the region is absent or too small. -/
def calibPlace (s : State) (k : Nat) : Option Nat :=
  match norRegion s 9 with
  | some r => if 0x2000 ≤ r.size then some (r.off + 0x1000 * k) else none
  | none => none

/-- A copy that qualifies, with its sequence: CRC, magic and format are right and every value lies in its range (18 R425). -/
def calibCopy (s : State) (k : Nat) : Option (Nat × List Byte) :=
  match calibPlace s k with
  | none => none
  | some a =>
    let bs := norRead s a 4096
    if leNat (bytesAt bs 0 4) = 0x5543414C ∧ leNat (bytesAt bs 4 2) = 1 ∧
        (crc32c (bs.take 4092)).toNat = leNat (bs.drop 4092) ∧ (calibVals bs).all (fun v => inRow v.1 v.2) then
      some (leNat (bytesAt bs 8 4), bs)
    else none

/-! ## The fault log (20 R461, R462) -/

/-- The region of the fault log: at least 64 KiB. -/
def faultRegion (s : State) : Option NorRegion :=
  match norRegion s 10 with
  | some r => if 0x10000 ≤ r.size then some r else none
  | none => none

/-- An event record as 32 bytes (16 R385). -/
def recordBytes (e : EvRec) : List Byte :=
  leBytes 32 (e.num % 2 ^ 64 + e.time % 2 ^ 64 * 2 ^ 64 + e.cls % 256 * 2 ^ 128 + e.code % 2 ^ 16 * 2 ^ 136
    + e.island % 64 * 2 ^ 152 + (e.index % 2 ^ 16 + e.sub % 256 * 2 ^ 16) * 2 ^ 160 + e.param.toNat * 2 ^ 192)

/-- A block of the fault log; places of records that it does not hold are zeros (assumption 194). -/
def faultBlock (seq power tjHours : Nat) (records : List EvRec) : List Byte :=
  let head := leBytes 28 (0x474F4C46 + seq % 2 ^ 32 * 2 ^ 32 + power % 2 ^ 32 * 2 ^ 64 + tjHours % 2 ^ 32 * 2 ^ 96)
  let recs := bytesAt (records.flatMap recordBytes) 0 4064
  head ++ leBytes 4 (crc32c (head ++ recs)).toNat ++ recs

/-- Magic and CRC of a block are right. -/
def blockGood (bs : List Byte) : Bool :=
  leNat (bytesAt bs 0 4) == 0x474F4C46 &&
    (crc32c (bytesAt bs 0 28 ++ bs.drop 32)).toNat == leNat (bytesAt bs 28 4)

def blockSeq (bs : List Byte) : Nat := leNat (bytesAt bs 4 4)
def blockPower (bs : List Byte) : Nat := leNat (bytesAt bs 8 4)
def blockTjHours (bs : List Byte) : Nat := leNat (bytesAt bs 12 4)

/-- The highest event number of a block's records. -/
def blockNewest (bs : List Byte) : Nat :=
  ((List.range 127).map (fun k => leNat (bytesAt bs (32 + 32 * k) 8))).foldl max 0

/-- The newest block, with its sequence: a good CRC and the highest sequence. -/
def newestBlock (s : State) : Option (Nat × List Byte) :=
  match faultRegion s with
  | none => none
  | some r =>
    ((List.range (r.size / 4096)).map (fun k => norRead s (r.off + 4096 * k) 4096)).foldl
      (fun m bs =>
        let newer : Bool := match m with | some b => decide (b.1 < blockSeq bs) | none => true
        if blockGood bs && newer then some (blockSeq bs, bs) else m) none

/-- fault_log: the whole region; without one it reads empty. -/
def faultLogBytes (s : State) : List Byte :=
  match faultRegion s with
  | some r => norRead s r.off r.size
  | none => []

/-- fault_log_erase: the ring is empty, and the next block is its first. -/
def faultErase (s : State) : State :=
  match faultRegion s with
  | some r =>
    let s := norEraseRange s r.off r.size
    { s with logs := { s.logs with seq := none } }
  | none => s

end Sys2Proof.Machine
end

