-- ==== Sys2Proof/Machine/Kennel.lean ====
section
/-!
DEFINITION. The Kennel operations (09 R217–R219). A command with a request is the control cores' submission; without one
Kennel serves the head of its queue, when that request has the command's OP.
-/

namespace Sys2Proof.Machine

/-- Who a request acts for (09 R215, Table 9-11): the control cores act as the infrastructure or for a slice. -/
def kenOwner (r : KReq) : Option Nat :=
  if r.issuer = 17 then (if r.raw.getLsbD 40 then none else some (fld r.raw 41 14)) else r.owner

/-- Reserved bits of Table 9-11. -/
def kenReserved (r : KReq) : Bool :=
  fld r.raw 28 4 != 0 || fld r.raw 55 9 != 0 || fld r.raw 212 300 != 0 ||
    (r.issuer != 17 && fld r.raw 40 15 != 0)

/-- Bytes in the issuer's map; none: outside it (09 R204). -/
def kenRead (s : State) (r : KReq) (a n : Nat) : Option (List Byte) :=
  if r.issuer < 16 then mapRead s r.issuer r.work a n
  else if inCoreRegion a n then some (hbmRead s a n) else none

def kenWritable (s : State) (r : KReq) (a n : Nat) : Bool :=
  if r.issuer < 16 then mapWritable s r.issuer a n
  else inCoreRegion a n && !hbmLocked s a n

def kenOut (s : State) (r : KReq) (a : Nat) (bs : List Byte) : State :=
  if r.issuer < 16 then mapWrite s r.issuer r.work a bs else hbmStore s a bs

/-- An XTS key whose two halves are equal, which a WRITE refuses (09 R219). -/
def equalHalves (kind material : Nat) : Bool :=
  let n := kindBytes kind / 2
  (kind == 3 || kind == 4) && (leBytes (2 * n) material).take n == (leBytes (2 * n) material).drop n

/-- WRITE, GENERATE and WRAP_IMPORT store material (09 Table 9-9). -/
def kenStore (s : State) (r : KReq) (kind material : Nat) : State :=
  let n := kSlot r
  if !slotOwned s (kenOwner r) (r.issuer == 17) n then kenComplete s r 2 0x05 0
  else
    let w := slotWrite s n kind material (kenOwner r)
    kenComplete w.2 r w.1.1 w.1.2.1 w.1.2.2

def kSrc (r : KReq) : Nat := fld r.raw 64 64
def kDst (r : KReq) : Nat := fld r.raw 128 64
def kWrap (r : KReq) : Nat := fld r.raw 192 20

def doKennelWrite (s : State) (r : KReq) : State :=
  let k := kKind r
  let n := kindBytes k
  if n = 0 then kenComplete s r 5 0x01 0
  else match kenRead s r (kSrc r) n with
    | none => kenComplete s r 4 0x09 0
    | some bs =>
      if equalHalves k (leNat bs) then kenComplete s r 5 0x01 0 else kenStore s r k (leNat bs)

def doGenerate (s : State) (r : KReq) : State :=
  let n := kindBytes (kKind r)
  if n = 0 then kenComplete s r 5 0x01 0
  else
    let m := (Config.drbg s.ken.draws).toNat % 2 ^ (8 * n)
    kenStore { s with ken := { s.ken with draws := s.ken.draws + 1 } } r (kKind r) m

/-- An erase waits for its scrub and its users. -/
def eraseWaits (s : State) (r : KReq) : State :=
  { s with ken := { s.ken with erases := s.ken.erases ++ [⟨r, kSlot r, false, []⟩] } }

/-- ERASE (09 Table 9-9); its result binds and creates no generation, so GEN is 0 (Table 9-4). -/
def doErase (s : State) (r : KReq) : State :=
  let n := kSlot r
  let k := slotGet s n
  if !slotOwned s (kenOwner r) (r.issuer == 17) n then kenComplete s r 2 0x05 0
  else
    let wait := eraseWaits s r
    match k.state with
    | .empty => kenComplete s r 0 0 0
    | .quarantined => kenComplete (scrub s n) r 0 0 0
    | .erasePending => wait
    | .live =>
      if k.useCur = 0 ∧ k.useOld = 0 then kenComplete (scrub s n) r 0 0 0
      else count (slotPut wait n { k with state := .erasePending }) 0xC0C8 0x04

/-- FORCE_ERASE scrubs at once, revokes every user, and completes when the last has stopped (09 R218). -/
def doForceErase (s : State) (r : KReq) : State :=
  let n := kSlot r
  let k := slotGet s n
  if !slotOwned s (kenOwner r) (r.issuer == 17) n then kenComplete s r 2 0x05 0
  else
    let s := count s 0xC0C8 0x05
    match k.state with
    | .empty => kenComplete s r 0 0 0
    | .quarantined => kenComplete (scrub s n) r 0 0 0
    | _ =>
      let s := eraseWaits s r
      let s := cipStop s (fun q => rKeyed q && rSlot q == n && q.gen.isSome) 2 0x08
      scrub s n

def doReadMeta (s : State) (r : KReq) : State :=
  let n := kSlot r
  if !slotOwned s (kenOwner r) (r.issuer == 17) n then kenComplete s r 2 0x05 0
  else if !kenWritable s r (kDst r) 8 then kenComplete s r 4 0x09 0
  else kenComplete (kenOut s r (kDst r) (leBytes 8 (slotMeta (slotGet s n)))) r 0 0 0

/-- Why a WRAP_SLOT cannot be used: it must be a LIVE AES-256 slot of the same owner (09 Table 9-11). -/
def wrapFault (s : State) (owner : Option Nat) (cores : Bool) (n : Nat) : Option (Nat × Nat) :=
  let k := slotGet s n
  if !slotOwned s owner cores n then some (2, 0x05)
  else match k.state with
    | .empty => some (2, 0x06)
    | .erasePending => some (2, 0x07)
    | .quarantined => some (7, 0x0D)
    | .live => if k.kind = 2 then none else some (2, 0x04)

/-- A wrapped blob of 96 bytes (assumption 20): a header of 16 bytes with the metadata value, its use fields 0, in [41:0] and
the rest of the nonce, slot and wrap counter, above it; 64 bytes of encrypted material; the tag, with the header as AAD. -/
def wrapBlob (k : KenSlot) (wrapMaterial n ctr : Nat) : List Byte :=
  let h := leBytes 16 (storedMeta k + n % 2 ^ 20 * 2 ^ 42 + ctr % 2 ^ 52 * 2 ^ 62)
  let iv := leBytes 12 (wrapNonce n k.gen ctr)
  let key := leBytes 32 wrapMaterial
  let sealed := gcmText key iv (leBytes 64 k.material)
  h ++ sealed ++ gcmTag key iv h sealed

/-- The KIND and material that a blob holds, or a tag mismatch. -/
def unwrapBlob (bs : List Byte) (wrapMaterial : Nat) : Option (Nat × Nat) :=
  let h := bytesAt bs 0 16
  let v := BitVec.ofNat 128 (leNat h)
  let iv := leBytes 12 (wrapNonce (fld v 42 20) (fld v 22 20) (fld v 62 52))
  let text := bytesAt bs 16 64
  let key := leBytes 32 wrapMaterial
  if gcmTag key iv h text = bytesAt bs 80 16 then some (fld v 3 4, leNat (gcmText key iv text))
  else none

def doWrapExport (s : State) (r : KReq) : State :=
  let n := kSlot r
  let k := slotGet s n
  if !slotOwned s (kenOwner r) (r.issuer == 17) n then kenComplete s r 2 0x05 0
  else match wrapFault s (kenOwner r) (r.issuer == 17) (kWrap r), k.state with
    | some f, _ => kenComplete s r f.1 f.2 0
    | none, .empty => kenComplete s r 2 0x06 0
    | none, .erasePending => kenComplete s r 2 0x07 0
    | none, .quarantined => kenComplete s r 7 0x0D 0
    | none, .live =>
      if !kenWritable s r (kDst r) 96 then kenComplete s r 4 0x09 0
      else
        let blob := wrapBlob k (slotGet s (kWrap r)).material n s.ken.wrap
        let s := { s with ken := { s.ken with wrap := (s.ken.wrap + 1) % 2 ^ 52 } }
        kenComplete (kenOut s r (kDst r) blob) r 0 0 0

def doWrapImport (s : State) (r : KReq) : State :=
  match wrapFault s (kenOwner r) (r.issuer == 17) (kWrap r), kenRead s r (kSrc r) 96 with
  | some f, _ => kenComplete s r f.1 f.2 0
  | none, none => kenComplete s r 4 0x09 0
  | none, some bs =>
    match unwrapBlob bs (slotGet s (kWrap r)).material with
    | none => kenComplete s r 3 0x0A 0
    | some m =>
      if kindBytes m.1 = 0 || equalHalves m.1 m.2 then kenComplete s r 5 0x01 0 else kenStore s r m.1 m.2

/-- A request of a slice that is reset: stopped by name, or while the slice is DRAINING (12 R287). -/
def kenStopped (s : State) (r : KReq) : Bool :=
  r.reset || (match kenOwner r with | some sl => (slice s sl).state == .draining | none => false)

/-- The slots that serving a request reads; none for one that ends without an access. -/
def kenSlots (s : State) (r : KReq) : List Nat :=
  if kenStopped s r || !islandOn s 26 || kenReserved r then []
  else match fld r.raw 0 4 with
    | 1 | 2 | 3 | 4 | 5 => [kSlot r]
    | 6 | 7 => [kSlot r, kWrap r]
    | _ => []

/-- Serve one request (09 R219, 13 R304): a reset slice's request ends ABORTED_BY_RESET, a reserved field is a FORM fault;
with its island stopped or off every request ends BUSY, NONE (19 Table 19-3). -/
def kenServe (s : State) (r : KReq) : State :=
  let s := ledRun s r.entry
  if kenStopped s r then kenComplete s r 1 0x0F 0
  else if !islandOn s 26 then kenComplete s r 8 0 0
  else if kenReserved r then kenComplete s r 5 0x01 0
  else
    let s := (kenSlots s r).foldl (fun s n => cacheTouch s n (r.missed.contains n)) s
    match fld r.raw 0 4 with
    | 1 => doKennelWrite s r
    | 2 => doGenerate s r
    | 3 => doErase s r
    | 4 => doForceErase s r
    | 5 => doReadMeta s r
    | 6 => doWrapExport s r
    | 7 => doWrapImport s r
    | _ => kenComplete s r 5 0x01 0

/-- The slots of a request that are not cached: it waits for their fills (09 R213, R219). -/
def kenMiss (s : State) (r : KReq) : List Nat := (kenSlots s r).filter (fun n => !cached s n)

/-- The oldest request that no fill holds up, and the requests that are held up before it, in order. A request also waits
behind one that is held up and names a slot of its own (01 Table 1-3; DESIGN CHOICE, assumption 228). -/
def kenNext (s : State) : List KReq → List KReq → List KReq × Option (KReq × List KReq)
  | held, [] => (held, none)
  | held, r :: rest =>
    if (kenMiss s r).isEmpty && !held.any (fun h => (kenSlots s h).any (fun n => (kenSlots s r).contains n)) then
      (held, some (r, rest))
    else kenNext s (held ++ [r]) rest

/-- A held-up request asks HBM for the slots that it misses. -/
def kenFetch (s : State) (held : List KReq) : State × List KReq :=
  (held.foldl (fun s r => (kenMiss s r).foldl fetchSlot s) s,
    held.map (fun r => { r with missed := r.missed ++ kenMiss s r }))

/-- A reserved OP: no command has it of its own, and every Kennel command takes and serves such a request (09 R219). -/
def kenReservedOp (o : Nat) : Bool := o == 0 || decide (8 ≤ o)

/-- Submit a request of the control cores, or serve the oldest request that no fill holds up when its OP is `op`
(09 R213, R219). -/
def kennel (s : State) (op : Nat) (req : Option (BitVec 512)) : State :=
  match req with
  | some raw =>
    if fld raw 0 4 = op ∨ kenReservedOp (fld raw 0 4) then
      let owner := if raw.getLsbD 40 then none else some (fld raw 41 14)
      (kenAccept s ⟨raw, 17, owner, 0, none, 0, false, []⟩).getD (noteWait s)
    else s
  | none =>
    let x := kenNext s [] s.ken.queue
    let f := kenFetch s x.1
    match x.2 with
    | none => { f.1 with ken := { f.1.ken with queue := f.2 } }
    | some (r, rest) =>
      if fld r.raw 0 4 = op ∨ kenReservedOp (fld r.raw 0 4) then
        kenPump (kenServe { f.1 with ken := { f.1.ken with queue := f.2 ++ rest } } r)
      else { f.1 with ken := { f.1.ken with queue := f.2 ++ r :: rest } }

def execKennelWrite (req : Option (BitVec 512)) (s : State) : Host.Outcome State Fault Refusal := .next (kennel s 1 req)
def execGenerate (req : Option (BitVec 512)) (s : State) : Host.Outcome State Fault Refusal := .next (kennel s 2 req)
def execErase (req : Option (BitVec 512)) (s : State) : Host.Outcome State Fault Refusal := .next (kennel s 3 req)
def execForceErase (req : Option (BitVec 512)) (s : State) : Host.Outcome State Fault Refusal := .next (kennel s 4 req)
def execReadMeta (req : Option (BitVec 512)) (s : State) : Host.Outcome State Fault Refusal := .next (kennel s 5 req)
def execWrapExport (req : Option (BitVec 512)) (s : State) : Host.Outcome State Fault Refusal := .next (kennel s 6 req)
def execWrapImport (req : Option (BitVec 512)) (s : State) : Host.Outcome State Fault Refusal := .next (kennel s 7 req)

end Sys2Proof.Machine
end

