-- ==== Sys2Proof/Machine/Ledger.lean ====
section
/-!
DEFINITION. Host items in the work ledger (13): dispatch, re-dispatch, completion entries, aborts into reset reports, and
the check of lost places at a beat boundary.
-/

namespace Sys2Proof.Machine

/-! ## Descriptors (13 Table 13-6) -/

def descCid (d : List Byte) : Nat := leNat (bytesAt d 0 2)
def descFn (d : List Byte) : Nat := (byteAt d 2).toNat
def descTarget (d : List Byte) : Nat := (byteAt d 3).toNat % 4
def descRestart (d : List Byte) : Bool := (byteAt d 3).getLsbD 2

/-- A reserved TARGET or a reserved bit. -/
def descBad (d : List Byte) : Bool := 2 ≤ descTarget d || leNat (bytesAt d 0 8) >>> 27 != 0

/-- A 32-byte EF1124 descriptor in the native layout (13 "Host work items"). -/
def widen (d : List Byte) : List Byte :=
  let w := leNat (bytesAt d 0 2)
  leBytes 8 (leNat (bytesAt d 2 2) + w % 256 * 2 ^ 16 + w / 256 % 2 * 2 ^ 24 + w / 512 % 2 * 2 ^ 26
    + (if w / 1024 = 0 then 0 else 2 ^ 27)) ++ bytesAt d 4 28 ++ List.replicate 28 0

/-- The completion entry of a host item (13 Table 13-6). -/
def completionBytes (compat : Bool) (cid ix : Nat) (status detail : BitVec 8) (phase : Bool) (result : BitVec 64) : List Byte :=
  let ph := if phase then 1 else 0
  if compat then leBytes 8 (cid % 2 ^ 16 + status.toNat * 2 ^ 16 + ph * 2 ^ 24 + result.toNat % 2 ^ 32 * 2 ^ 32)
  else leBytes 16 (cid % 2 ^ 16 + ix % 2 ^ 16 * 2 ^ 16 + status.toNat * 2 ^ 32 + detail.toNat * 2 ^ 40 + ph * 2 ^ 48
    + result.toNat * 2 ^ 64)

def qpCompat (s : State) (k : Nat) : Bool := compatMode s (qpOwner k)

/-- The completion ring's entry at `pos` takes a completion: the write leaves, the tail follows, the vector is raised
(13 R309). The caller has checked that the write may leave. False: the write waits for its translation (11 R261), which the
state has asked for. -/
def writeCompletion (s : State) (k pos : Nat) (bs : List Byte) : Bool × State :=
  let f := qpFn s k
  let esz := if qpCompat s k then 8 else 16
  let r := hostPost s (qpOwner k) (f.1, f.2, ownerPasid s (qpOwner k)) (qpObj s k 0x04 + pos * esz) bs
  if r.1 then
    let x := qpGet r.2 k
    let s := qpPut r.2 k { x with cqTail := (pos + 1) % qpObj r.2 k 0x05, unread := x.unread + 1 }
    (true, raiseVector s f.1 f.2 (qpObj s k 0x07))
  else r

/-- Host completions may be written: the function is ENABLED and in D0, the slice is not DRAINING, no fence (13 R309,
R313, 12 R287, 14 R333). -/
def hostMayComplete (s : State) (k : Nat) : Bool :=
  let f := qpFn s k
  mayRequest s f.1 f.2 && !s.pair.fence &&
    (match qpOwner k with | some sl => (slice s sl).state != .draining | none => true)

/-! ## Dispatch (13 R306) -/

/-- The worker takes the item. -/
def takenBy (s : State) (entry : Nat) (e : LedEntry) (w : Worker) : State :=
  let s := ledMetaSet s entry { ledMeta s entry with worker := some w }
  let s := match w with
    | .core n => { s with jx := { s.jx with coreItems := s.jx.coreItems ++ [(entry, n, e.queue, e.seq)] } }
    | .cluster _ => s
  ledPut s entry { e with state := .running }

/-- No worker can take the item (13 R306, Table 13-3). -/
def noWorker (s : State) (entry : Nat) : State := hostDone (count s 0xC040 0x17) entry 1 0x61 0

/-- Items that control core `n` holds. -/
def coreLoad (s : State) (n : Nat) : Nat := (s.led.metas.filter (fun m => m.2.worker == some (.core n))).length

/-- The online control core with the fewest items, the lowest number on a tie; a core island that is off, stopped or
holds a request off is skipped (19 Table 19-3). -/
def pickCore (s : State) : Option Nat :=
  ((List.range 16).filter (fun n => !s.jx.offline.getLsbD n && islandTakes s (22 + n / 8))).foldl
    (fun b n => match b with
      | none => some n
      | some m => if coreLoad s n < coreLoad s m then some n else some m) none

/-- Every earlier item of the queue pair has been dispatched. -/
def firstAccepted (s : State) (e : LedEntry) : Bool :=
  s.led.entries.all (fun p => p.2.queue != e.queue || p.2.state != .accepted || !seqBefore p.2.seq e.seq)

def dispatchItem (s : State) (entry : Nat) (e : LedEntry) : State :=
  let d := (ledMeta s entry).desc
  let k := qpKey e.queue
  if descBad d then hostDone s entry 5 0x62 0
  else if descTarget d = 0 then
    match s.jx.map.getD ((e.slice + qpNum k) % 16) none with
    | none => noWorker s entry
    | some c =>
      let w : Work := .host entry (descFn d)
      if (cluster s c).faulted ∨ !inboxRoom s c w then s
      else enterCluster (takenBy (count s (0xC090 + c) 0x02) entry e (.cluster c)) c w
  else
    match pickCore s with
    | none => noWorker s entry
    | some n => takenBy s entry e (.core n)

/-- DISPATCH (13 R306). -/
def execDispatch (entry : BitVec 18) (s : State) : Host.Outcome State Fault Refusal :=
  .next (match ledGet s entry.toNat with
    | none => s
    | some e =>
      let draining := !e.infra && (slice s e.slice).state == .draining
      if e.kind = .host ∧ e.state = .accepted ∧ firstAccepted s e ∧ !draining then dispatchItem s entry.toNat e else s)

/-- RE_DISPATCH (13 R310): every operation has stopped; the item is accepted again, or DONE with WORKER_FAULT. -/
def execReDispatch (entry : BitVec 18) (s : State) : Host.Outcome State Fault Refusal :=
  .next (match ledGet s entry.toNat with
    | none => s
    | some e =>
      let draining := !e.infra && (slice s e.slice).state == .draining
      if e.kind = .host ∧ e.state = .stopping ∧ opsStopped s entry.toNat ∧ !draining then
        if e.restart ∧ e.attempt < 3 then
          ledPut (count s 0xC040 0x15) entry.toNat { e with state := .accepted, attempt := e.attempt + 1 }
        else hostDone (count s 0xC040 0x16) entry.toNat 1 0x60 0
      else s)

/-! ## Taking and aborting items -/

/-- An item leaves the inboxes it waits in and its holder, whose item windows then read 0 (12 R287); what waits behind it in
a cluster moves up (07 R168). -/
def takeWork (s : State) (entry : Nat) : State :=
  let isIt (w : Work) : Bool := match w with | .host e _ => e == entry | _ => false
  let place := (ledGet s entry).map (fun e => (e.queue, e.seq))
  let s : State := ledMetaSet s entry { ledMeta s entry with worker := none }
  let s : State := { s with jx := { s.jx with
      threads := s.jx.threads.map (fun p =>
        (p.1, match p.2.item with
          | some w => if isIt w && p.2.place == place then { p.2 with gone := true } else p.2
          | none => p.2))
      engines := s.jx.engines.map (fun p => (p.1, { p.2 with inbox := p.2.inbox.filter (fun w => !isIt w) }))
      clusters := s.jx.clusters.map (fun p => (p.1, { p.2 with inbox := p.2.inbox.filter (fun w => !isIt w) })) } }
  (s.jx.clusters.map (·.1)).foldl pump s

/-- The reset report of a queue pair: first aborted SQ index and count (12 R289). -/
def report (s : State) (k : Nat) : Nat × Nat := sget (0, 0) s.slc.report k

def setReport (s : State) (k : Nat) (r : Nat × Nat) : State :=
  { s with slc := { s.slc with report := sset (0, 0) s.slc.report k r } }

/-- An item retires with ABORTED_BY_RESET into the reset report (12 R289, 13 R313). -/
def abortItem (s : State) (entry : Nat) : State :=
  match ledGet s entry with
  | none => s
  | some e =>
    let k := qpKey e.queue
    let ix := match e.ref with | .host ix _ _ _ => ix | _ => 0
    let r := report s k
    let s := setReport s k (if r.2 = 0 then (ix, 1) else (r.1, r.2 + 1))
    let s := if e.infra then s else countAt s 0xC0F0 0x02 e.slice
    let s := takeWork s entry
    ledRetire (ledPut s entry { e with state := .done, status := 1, detail := 0 }) entry

/-- The entry is next in its order queue. -/
def isDue (s : State) (e : LedEntry) : Bool := (ordFind s e.queue).due == e.seq

/-! ## Lost places (13 R311) -/

/-- An order queue whose next place due is held by no entry, while a later one exists. -/
def placeLost (s : State) (o : OrdState) : Bool :=
  s.led.entries.all (fun p => p.2.queue != o.q || p.2.seq != o.due) &&
    s.led.entries.any (fun p => p.2.queue == o.q && p.2.seq != o.due)

/-- A lost place retires: a host place with ENTRY_LOST at the next completion position, any other kind at once. A completion
that waits for its translation leaves the place for the next boundary. -/
def retirePlace (s0 : State) (o : OrdState) : State :=
  let s := ordPut s0 { o with due := (o.due + 1) % 2 ^ 32, nextSq := match o.q with | .host .. => o.nextSq % qpObj s0 (qpKey o.q) 0x03 + 1 | _ => o.nextSq }
  match o.q with
  | .host .. =>
    let k := qpKey o.q
    let n := qpObj s k 0x05
    let pos := (qpGet s k).cqTail
    let wraps := s.led.entries.find? (fun p => p.2.queue == o.q && (match p.2.ref with | .host _ q _ _ => q == (pos + 1) % n | _ => false))
    let ph := match wraps with
      | some p => (match p.2.ref with | .host _ q f _ => if q = 0 then !f else f | _ => true)
      | none => (qpGet s k).phase
    let bs := completionBytes (qpCompat s k) 0 (o.nextSq % qpObj s k 0x03) 7 0x64 ph 0
    let w := writeCompletion (countAt s 0xC041 0x01 7) k pos bs
    if w.1 then w.2 else (writeCompletion s0 k pos bs).2
  | _ => countAt s 0xC041 0x01 7

/-- A worker, a block or a queue still has the unit whose entry was lost: its index then serves no later unit (assumption 10). -/
def lostBusy (s : State) (i : Nat) : Bool :=
  let mine (w : Option Work) : Bool := match w with | some (.host e _) => e == i | _ => false
  s.jx.threads.any (fun p => mine p.2.item) || s.jx.engines.any (fun p => p.2.inbox.any (fun w => mine (some w))) ||
    s.jx.clusters.any (fun p => p.2.inbox.any (fun w => mine (some w)) ||
      p.2.chans.any (fun x => x.2.results.any (fun r => r.2.2 == some i))) ||
    s.jx.coreItems.any (fun x => x.1 == i) ||
    s.dma.chans.any (fun p => match p.2.route with | .issue _ _ _ w => mine w | _ => false) ||
    s.cip.reqs.any (fun r => mine (reqWork r)) ||
    (s.ken.queue ++ s.ken.issues ++ s.ken.erases.map (·.req)).any (fun r => r.entry == i || mine r.work) ||
    (sfind s.ken.results i).isSome || s.tc.wins.any (fun w => w.cmd.any (fun c => c.entry == i)) ||
    s.objs.pend.any (fun w => w.id == i) || s.shp.queues.any (fun q => q.2.frames.any (fun f => f.entry == some i)) ||
    s.shp.fifos.any (fun q => q.2.any (fun f => f.entry == some i))

/-- The check of every order queue at a beat boundary; indices of lost entries that nothing uses any more are FREE (13 R311). -/
def settlePlaces (s : State) : State :=
  let s := s.led.orders.foldl (fun s o => if placeLost s o then retirePlace s o else s) s
  { s with led := { s.led with lost := s.led.lost.filter (lostBusy s) } }

end Sys2Proof.Machine
end

