-- ==== Sys2Proof/Machine/Slices.lean ====
section
/-!
DEFINITION. Tenant slices (12): their commands, the reset sequence, freeze, save and restore.
-/

namespace Sys2Proof.Machine

/-- Code of a slice state (12 Table 12-1). -/
def sliceCode : SlState → Nat
  | .free => 0 | .disabled => 1 | .enabled => 2 | .draining => 3 | .freezing => 4 | .frozen => 5 | .restoring => 6

/-- A change of slice state raises event 0x0701: slice in [13:0], state in [39:32] (20 Table 20-4). It enters the delta as a
record of slice_state. The event names island 28, one of those that hold slice state (01 R17; DESIGN CHOICE,
assumption 262). -/
def setSliceState (s : State) (sl : Nat) (st : SlState) : State :=
  let code := sliceCode st
  let s := record s (.object (okey 0xB000 0x01 sl) code)
  event (setSlice s sl { slice s sl with state := st, since := now s }) 0x0701 28 (sl + code * 2 ^ 32)

/-- Host entries of a slice that have not retired. -/
def sliceEntries (s : State) (sl : Nat) : List (Nat × LedEntry) :=
  s.led.entries.filter (fun p => p.2.kind == .host && !p.2.infra && p.2.slice == sl)

/-- inflight (12 "Reset with work in flight"): host items not retired, Kennel requests, DMA units and cipher users. -/
def inflight (s : State) (sl : Nat) : Nat :=
  (sliceEntries s sl).length
    + (s.led.entries.filter (fun p => p.2.kind == .kennel && !p.2.infra && p.2.slice == sl)).length
    + ((s.dma.chans.filter (fun p => p.2.owner == some sl && p.2.state != .idle)).map (fun p => inFlight p.2)).sum
    + (s.cip.reqs.filter (fun r => r.owner == some sl && r.gen.isSome)).length

/-- The slice's translations are revoked: its cache entries and requests are dropped (12 R287 step 1). -/
def revoke (s : State) (sl : Nat) : State :=
  let f := ownerFn s (some sl)
  let pasid := ownerPasid s (some sl)
  { s with hst := { s.hst with
      atc := s.hst.atc.filter (fun e => !(e.link == f.1 && e.fn == f.2 && e.pasid == pasid))
      holds := s.hst.holds.filter (fun h => !(h.link == f.1 && h.fn == f.2 && h.pasid == pasid)) } }

/-- Queue pairs of a slice. -/
def sliceQps (sl : Nat) : List Nat := (List.range 64).map (fun q => sl * 64 + q)

/-- Entry to DRAINING: steps 1 to 3 of R287. Running items go to STOPPING and leave their workers. -/
def drainSlice (s : State) (sl : Nat) : State :=
  let s := setSliceState (countAt s 0xC0F0 0x04 sl) sl .draining
  let s := setSlice s sl { slice s sl with pending := false, zeroed := false }
  let s := revoke s sl
  let s := (sliceQps sl).foldl (fun s k => setReport s k (0, 0)) s
  let s := { s with ken := { s.ken with
    queue := s.ken.queue.map (fun r => if r.owner == some sl || kenOwner r == some sl then { r with reset := true } else r)
    issues := s.ken.issues.map (fun r => if r.owner == some sl then { r with reset := true } else r) } }
  let s := (sliceEntries s sl).foldl (fun s p =>
    let s := takeWork s p.1
    if p.2.state = .running then ledPut s p.1 { p.2 with state := .stopping } else s) s
  let s := dmaStopAll s (fun _ x => x.owner == some sl) 1 0x1A
  cipStop s (fun r => r.owner == some sl) 1 0x0F

/-- The states a reset or an FLR moves to DRAINING (12 Table 12-1). -/
def resettable (st : SlState) : Bool :=
  match st with | .enabled => true | .freezing => true | .frozen => true | _ => false

/-- cmd_result. -/
def cmdResult (s : State) (sl r : Nat) : State := setSlice s sl { slice s sl with result := r }

/-- FREEZE_COMPLETE (12 R290). -/
def freezeDone (s : State) (sl : Nat) : State := setSliceState (countAt s 0xC0F0 0x06 sl) sl .frozen

/-! ## Save (12 R292, Table 12-4) -/

/-- The channels of a slice in ascending number (11 R257): channels whose owner is written and is the slice. -/
def sliceChannels (s : State) (sl : Nat) : List Nat :=
  (s.objs.vals.filter (fun p => okeyIdx p.1 == 0xA800 && okeySub p.1 == 0x01 && p.2 == sl)).map (fun p => okeyEl p.1)

/-- One queue pair's 64 bytes: the fields of Table 12-4 in order, packed, then PHASE, and whether every completion of the ring
is unread, which equal head and tail leave open (assumption 24). -/
def qpBytes (s : State) (k : Nat) : List Byte :=
  let q := qpGet s k
  leBytes 8 (qpObj s k 2) ++ leBytes 4 (qpObj s k 3) ++ leBytes 8 (qpObj s k 4) ++ leBytes 4 (qpObj s k 5) ++
  leBytes 8 (qpObj s k 6) ++ leBytes 4 q.head ++ leBytes 4 q.sqTail ++ leBytes 4 q.cqHead ++ leBytes 4 q.cqTail ++
  leBytes 2 (qpObj s k 7) ++ leBytes 1 (qpObj s k 8) ++ leBytes 1 (qpObj s k 1) ++ leBytes 1 (if q.phase then 1 else 0) ++
  leBytes 1 (if q.unread = qpObj s k 5 then 1 else 0) ++ List.replicate 10 0

/-- Put a queue pair back from its 64 bytes. -/
def qpRestore (s : State) (k : Nat) (bs : List Byte) : State :=
  let w (o n : Nat) : Nat := leNat (bytesAt bs o n)
  let put (s : State) (sub v : Nat) : State := objPut s 0xB100 sub k v
  let s := put (put (put (put (put (put (put (put s 2 (w 0 8)) 3 (w 8 4)) 4 (w 12 8)) 5 (w 20 4)) 6 (w 24 8)) 7 (w 48 2)) 8 (w 50 1)) 1 (w 51 1)
  qpPut s k { resetQp with
    head := w 32 4, sqTail := w 36 4, cqHead := w 40 4, cqTail := w 44 4, pos := w 44 4, phase := w 52 1 != 0
    unread := if w 53 1 != 0 then w 20 4 else (w 44 4 + w 20 4 - w 40 4) % w 20 4 }

/-- LIVE slots of the slice's range, from `base`. -/
def liveSlots (s : State) (sl : Nat) : List Nat :=
  (s.ken.slots.filter (fun p => sliceRange s sl p.1 && (match p.2.state with | .live => true | _ => false))).map (·.1)

/-- mig_key_slot names a LIVE AES-256 slot of the slice that lies outside every slice's key range (12 R292). -/
def migSlotOk (s : State) (sl : Nat) : Bool :=
  let m := objGet s 0xB002 0x01 sl
  let k := slotGet s m
  let inRange := (s.objs.vals.filter (fun p => okeyIdx p.1 == 0xB001 && okeySub p.1 == 0x03)).any (fun p => sliceRange s (okeyEl p.1) m)
  (match k.state with | .live => true | _ => false) && k.kind == 2 && !k.infra && k.slice == sl && !inRange

/-- The object records of queue pairs: one for each element of a tenant-writable object, the ring objects, that is not at its
default, ascending by queue pair and sub. A record has no place for the element (assumption 196). -/
def saveObjects (s : State) (ks : List Nat) : List (List Byte) :=
  ks.flatMap (fun k =>
    ([1, 2, 3, 4, 5, 6, 7, 8].filter (fun sub => qpObj s k sub != objDefault (okey 0xB100 sub k))).map (fun sub =>
      leBytes 8 (0xB100 + sub * 2 ^ 16) ++ leBytes 8 (qpObj s k sub)))

/-- The saved state's header value (12 Table 12-4). -/
def saveHeader (s : State) (sl len iv : Nat) : List Byte :=
  leBytes 64 (0x534C4331 + 1 * 2 ^ 32 + sl * 2 ^ 48 + objGet s 0xB000 0x0A sl * 2 ^ 62 + objGet s 0xB001 0x01 sl * 2 ^ 64
    + (sliceChannels s sl).length * 2 ^ 80 + objGet s 0xB001 0x02 sl * 2 ^ 96 + objGet s 0xB001 0x03 sl * 2 ^ 128
    + (liveSlots s sl).length * 2 ^ 144 + (saveObjects s (sliceQps sl)).length * 2 ^ 160 + len * 2 ^ 192 + iv % 2 ^ 96 * 2 ^ 224)

/-- WRAP_EXPORT of live slots in order, each with its offset from `base`, and the state after; none: Kennel takes one no more
(12 R292, 13 R299). -/
def exportKeys (s : State) (sl material base : Nat) : List Nat → Option (List Byte × State)
  | [] => some ([], s)
  | n :: rest =>
    let blob := wrapBlob (slotGet s n) material n s.ken.wrap
    let next (s : State) : State := { s with ken := { s.ken with wrap := (s.ken.wrap + 1) % 2 ^ 52 } }
    match coreKeyOp s sl n (fun s => ((0, 0, 0), next s)) with
    | none => none
    | some t => (exportKeys t.2 sl material base rest).map (fun r => (leBytes 4 (n - base) ++ blob ++ r.1, r.2))

/-- SAVE writes the saved state, tagged under the migration key; a state that does not fit in the control-core region, or
cannot be tagged, is refused with BUSY. -/
def saveSlice (s : State) (sl : Nat) : State :=
  let mig := objGet s 0xB002 0x01 sl
  let material := (slotGet s mig).material
  let qps := objGet s 0xB001 0x01 sl
  let live := liveSlots s sl
  let base := objGet s 0xB001 0x02 sl
  let records := saveObjects s (sliceQps sl)
  let len := 64 + 64 * qps + 128 * (sliceChannels s sl).length + 100 * live.length + 16 * records.length + 16
  let addr := objGet s 0xB002 0x02 sl
  if !migSlotOk s sl ∨ !inCoreRegion addr len ∨ hbmLocked s addr len then cmdResult s sl 1
  else match exportKeys { s with ken := { s.ken with wrap := (s.ken.wrap + 1) % 2 ^ 52 } } sl material base live with
  | none => cmdResult s sl 1
  | some (keys, t) =>
    let iv := wrapNonce mig (slotGet s mig).gen s.ken.wrap
    let body := saveHeader s sl len iv ++ (List.range qps).flatMap (fun q => qpBytes s (sl * 64 + q)) ++
      (sliceChannels s sl).flatMap (fun c => chanBytes (chan s c)) ++ keys ++ records.flatten
    let tag := gcmTag (leBytes 32 material) (leBytes 12 iv) body []
    cmdResult (setSlice (hbmWrite t addr (body ++ tag)) sl { slice t sl with saveLen := len }) sl 0

/-! ## Commands (12 R284, Table 12-1) -/

/-- A write of slice_cmd. -/
def sliceCmd (s : State) (sl cmd : Nat) : State :=
  let x := slice s sl
  let ok (s : State) : State := cmdResult s sl 0
  match cmd, x.state with
  | 1, .disabled => ok (setSliceState s sl .enabled)
  | 1, .draining => ok (setSlice s sl { x with pending := true })
  | 2, .draining => ok (setSlice s sl { x with pending := false })
  | 2, st => if resettable st then ok (drainSlice s sl) else cmdResult s sl 1
  | 3, .enabled => ok (setSliceState s sl .freezing)
  | 4, .frozen => ok (setSliceState s sl .enabled)
  | 5, .frozen => saveSlice s sl
  | 6, .disabled => ok (setSliceState s sl .restoring)
  | 7, .draining => ok (setSlice s sl { x with pending := false })
  | _, _ => cmdResult s sl 1

def execSliceEnable (slice : BitVec 14) (s : State) : Host.Outcome State Fault Refusal := .next (sliceCmd s slice.toNat 1)
def execSliceReset (slice : BitVec 14) (s : State) : Host.Outcome State Fault Refusal := .next (sliceCmd s slice.toNat 2)
def execSliceFreeze (slice : BitVec 14) (s : State) : Host.Outcome State Fault Refusal := .next (sliceCmd s slice.toNat 3)
def execSliceResume (slice : BitVec 14) (s : State) : Host.Outcome State Fault Refusal := .next (sliceCmd s slice.toNat 4)
def execSliceSave (slice : BitVec 14) (s : State) : Host.Outcome State Fault Refusal := .next (sliceCmd s slice.toNat 5)
def execSliceRestore (slice : BitVec 14) (s : State) : Host.Outcome State Fault Refusal := .next (sliceCmd s slice.toNat 6)
def execSliceDisable (slice : BitVec 14) (s : State) : Host.Outcome State Fault Refusal := .next (sliceCmd s slice.toNat 7)

/-! ## The reset sequence (12 R287–R289) -/

/-- SLICE_ITEM_RETIRE (12 R289): the item's operations have stopped and its predecessors have retired. -/
def execSliceItemRetire (entry : BitVec 18) (s : State) : Host.Outcome State Fault Refusal :=
  .next (match ledGet s entry.toNat with
    | none => s
    | some e =>
      if e.kind = .host ∧ !e.infra ∧ (slice s e.slice).state = .draining ∧ opsStopped s entry.toNat ∧ isDue s e then
        abortItem s entry.toNat
      else s)

/-- Objects of the slice instance that a reset returns to their defaults: the ring objects, which tenants write. -/
def clearRings (s : State) (sl : Nat) : State :=
  { s with
    objs := { s.objs with
      vals := s.objs.vals.filter (fun p => !(okeyIdx p.1 == 0xB100 && okeyEl p.1 / 64 == sl)) }
    slc := { s.slc with qps := s.slc.qps.filter (fun p => !(p.1 / 64 == sl)) } }

/-- Slots that a reset of a slice scrubs: its key range, and what it owns outside, the slot of its migration key (09 R218,
12 R287). -/
def sliceSlots (s : State) (sl : Nat) : List Nat :=
  (s.ken.slots.filter (fun p => sliceRange s sl p.1 ||
    ((match p.2.state with | .empty => false | _ => true) && !p.2.infra && p.2.slice == sl))).map (·.1)

/-- SLICE_ZERO (12 R287 step 5): keys are scrubbed, registers, doorbells and ring objects return to their defaults. A
QUARANTINED channel is left by CLEAR alone (10 Table 10-3). -/
def zeroSlice (s : State) (sl : Nat) : State :=
  let s := (sliceSlots s sl).foldl scrub s
  let s := ((sliceChannels s sl).filter (fun c => !(match (chan s c).state with | .quarantined => true | _ => false))).foldl
    (fun s c => setChan s c resetChan) s
  let s := clearRings s sl
  setSlice s sl { slice s sl with zeroed := true }

def execSliceZero (slice : BitVec 14) (s : State) : Host.Outcome State Fault Refusal :=
  let sl := slice.toNat
  let x := Sys2Proof.Machine.slice s sl
  .next (if x.state = .draining ∧ inflight s sl = 0 ∧ x.zeroed = false then zeroSlice s sl else s)

/-- RESET_SEQUENCE_END (12 R288). -/
def execResetSequenceEnd (slice : BitVec 14) (s : State) : Host.Outcome State Fault Refusal :=
  let sl := slice.toNat
  let x := Sys2Proof.Machine.slice s sl
  .next (if x.state = .draining ∧ x.zeroed then
      let s := setSlice s sl { x with pending := false, zeroed := false }
      setSliceState s sl (if x.pending then .enabled else .disabled)
    else s)

/-! ## Freeze (12 R290) -/

def execFreezeComplete (slice : BitVec 14) (s : State) : Host.Outcome State Fault Refusal :=
  let sl := slice.toNat
  .next (if (Sys2Proof.Machine.slice s sl).state = .freezing ∧ inflight s sl = 0 then freezeDone s sl else s)

/-- FREEZE_TIMEOUT (12 R290); an in-flight count of 0 in the same slot wins. -/
def execFreezeTimeout (slice : BitVec 14) (s : State) : Host.Outcome State Fault Refusal :=
  let sl := slice.toNat
  let x := Sys2Proof.Machine.slice s sl
  .next (if x.state = .freezing ∧ x.since + objGet s 0xB002 0x06 sl * 1250000 ≤ now s then
      if inflight s sl = 0 then freezeDone s sl
      else cmdResult (setSliceState (countAt s 0xC0F0 0x07 sl) sl .enabled) sl 1
    else s)

/-! ## Restore (12 R294) -/

/-- The first failing check of a restore: 1 TAG, 2 FORMAT, 3 SHAPE, 4 KEY_NOT_EMPTY. -/
def restoreFault (s : State) (sl : Nat) (bs : List Byte) : Option Nat :=
  let h := BitVec.ofNat 512 (leNat (bytesAt bs 0 64))
  let mig := objGet s 0xB002 0x01 sl
  let material := (slotGet s mig).material
  let body := bs.take (bs.length - 16)
  let tag := bs.drop (bs.length - 16)
  let iv := leBytes 12 (fld h 224 96)
  if bs.length < 80 ∨ !migSlotOk s sl ∨
      gcmTag (leBytes 32 material) iv body [] ≠ tag then some 1
  else if fld h 0 32 ≠ 0x534C4331 ∨ fld h 32 16 ≠ 1 then some 2
  else if fld h 62 1 ≠ objGet s 0xB000 0x0A sl ∨ fld h 64 7 ≠ objGet s 0xB001 0x01 sl ∨
      fld h 80 16 ≠ (sliceChannels s sl).length ∨ fld h 96 20 ≠ objGet s 0xB001 0x02 sl ∨
      fld h 128 16 ≠ objGet s 0xB001 0x03 sl then some 3
  else if s.ken.slots.any (fun p => sliceRange s sl p.1 && (match p.2.state with | .empty => false | _ => true)) then some 4
  else none

/-- Import keys of 100 bytes each; none is a failed import (09 R219, 12 R294, 13 R299). -/
def importKeys (s : State) (sl material : Nat) : List (List Byte) → Option State
  | [] => some s
  | b :: rest =>
    let n := objGet s 0xB001 0x02 sl + leNat (b.take 4)
    match unwrapBlob (b.drop 4) material with
    | none => none
    | some m =>
      if kindBytes m.1 = 0 ∨ equalHalves m.1 m.2 ∨ !sliceRange s sl n then none
      else match coreKeyOp s sl n (fun s => slotWrite s n m.1 m.2 (some sl)) with
        | some (0, s) => importKeys s sl material rest
        | _ => none

/-- The object records of the queue pairs at or above qp_count go back: the pairs follow one another from `q` on, and a sub
that does not rise begins the next pair (assumption 196). -/
def restoreObjects (s : State) (sl : Nat) : Nat → Nat → List (List Byte) → State
  | _, _, [] => s
  | q, last, b :: rest =>
    let sub := (byteAt b 2).toNat
    let q := if sub ≤ last then q + 1 else q
    let ring := leNat (bytesAt b 0 2) == 0xB100 && decide (1 ≤ sub) && decide (sub ≤ 8) && decide (q < 64)
    restoreObjects (if ring then objPut s 0xB100 sub (sl * 64 + q) (leNat (bytesAt b 8 8)) else s) sl q sub rest

/-- A failed restore names its result, keeps nothing and runs the reset sequence. -/
def restoreFails (s : State) (sl r : Nat) : State :=
  drainSlice (setSlice s sl { slice s sl with restore := r }) sl

/-- RESTORE_DONE (12 R294): the state at restore_addr, as long as its header says, is checked and taken. A QUARANTINED channel
keeps its registers, since CLEAR alone leaves that state (10 Table 10-3). -/
def execRestoreDone (slice : BitVec 14) (s : State) : Host.Outcome State Fault Refusal :=
  let sl := slice.toNat
  let addr := objGet s 0xB002 0x04 sl
  let len := leNat (hbmRead s (addr + 24) 4)
  let bs := if addr + len ≤ hbmSize then hbmRead s addr len else []
  .next (if (Sys2Proof.Machine.slice s sl).state ≠ .restoring then s
    else match restoreFault s sl bs with
      | some r => restoreFails s sl r
      | none =>
        let h := BitVec.ofNat 512 (leNat (bytesAt bs 0 64))
        let qps := fld h 64 7
        let chs := sliceChannels s sl
        let keysAt := 64 + 64 * qps + 128 * chs.length
        let keys := (List.range (fld h 144 16)).map (fun i => bytesAt bs (keysAt + 100 * i) 100)
        match importKeys s sl (slotGet s (objGet s 0xB002 0x01 sl)).material keys with
        | none => restoreFails s sl 5
        | some s =>
          let s := chs.zipIdx.foldl (fun s p =>
            if (chan s p.1).state = .quarantined then s
            else setChan s p.1 (chanOf (bytesAt bs (64 + 64 * qps + 128 * p.2) 128))) s
          let s := (List.range qps).foldl (fun s q => qpRestore s (sl * 64 + q) (bytesAt bs (64 + 64 * q) 64)) (clearRings s sl)
          let below := saveObjects s ((sliceQps sl).take qps)
          let objectsAt := keysAt + 100 * keys.length
          let records := (List.range (fld h 160 32)).map (fun i => bytesAt bs (objectsAt + 16 * i) 16)
          let s := restoreObjects s sl qps 0 (records.drop below.length)
          freezeDone (setSlice s sl { Sys2Proof.Machine.slice s sl with restore := 0 }) sl)

end Sys2Proof.Machine
end

