-- ==== Sys2Proof/Machine/Host.lean ====
section
/-!
DEFINITION. The host endpoint's commands (11): links, functions, doorbells, descriptor fetch, translation, completions and
link power.
-/

namespace Sys2Proof.Machine

/-! ## Links (11 R249, R250) -/

/-- The link exists under the bifurcation in force (11 Table 11-1). -/
def linkPresent (s : State) (k : Nat) : Bool := k % 2 == 0 || s.hst.bifur.getD (k / 2) 0 == 1

/-- LINK_TRAINED (11 R250; with the main domain off the endpoint is absent, 01 R23): the highest common rate not above max_rate, a width the bifurcation allows, Flit mode when the
partner advertises it and always at 64 GT/s. -/
def execLinkTrained (link : BitVec 2) (rate : BitVec 3) (width : Nat) (flit : Bool) (s : State) :
    Host.Outcome State Fault Refusal :=
  let k := link.toNat
  let l := linkGet s k
  let r := min rate.toNat (objGet s (0xA100 + k) 0x05 0)
  let most := if s.hst.bifur.getD (k / 2) 0 = 1 then 8 else 16
  let w := ([1, 2, 4, 8, 16].filter (fun n => decide (n ≤ width) && decide (n ≤ most))).getLast?.getD 0
  .next (if mainOn s ∧ linkPresent s k ∧ l.perst ∧ (l.state = 1 ∨ l.state = 2) ∧ 1 ≤ r ∧ r ≤ 6 ∧ w ≠ 0 then
      linkPut s k { l with state := 3, rate := r, width := w, flit := flit || r == 6, pm := .l0 }
    else s)

/-! ## Functions (11 R272–R276) -/

/-- An invalidation covers a page of a requester (11 R261). -/
def Inval.covers (v : Inval) (link fn : Nat) (pasid : Option Nat) (page : Nat) : Bool :=
  link == v.link && fn == v.fn && (v.pasid.isNone || pasid == v.pasid) && decide (v.first ≤ page) &&
    decide (page < v.first + v.pages)

/-- Requests issued before the invalidation under a translation that it covers, and neither completed nor timed out: those of a
stopped unit or function too (11 R261). -/
def invalBusy (s : State) (v : Inval) : Bool :=
  s.hst.reads.any (fun r => (!r.quar || decide (now s < r.from_)) && decide (r.seq ≤ v.seq) &&
    (match r.page with | some p => v.covers r.link r.fn r.pasid p | none => false))

/-- Answer the invalidations whose requests have completed or timed out (11 R261). -/
def settleInvals (s : State) : State :=
  let due := s.hst.invals.filter (fun v => !invalBusy s v)
  let s := { s with hst := { s.hst with invals := s.hst.invals.filter (fun v => invalBusy s v) } }
  due.foldl (fun s v => countLink (emit s (.invalidated v.link v.fn)) v.link 0x0C) s

/-- The functions that carry a channel's host requests (11 R260): those of its host sides, and the queue pair's for a fetch;
for a channel that uses no host space none. -/
def hostFns (s : State) (x : Chan) : List (Nat × Nat) :=
  let side (uses : Bool) (space : Nat) : List (Nat × Nat) :=
    if !uses || space == 2 then []
    else match requester s x.owner space with
      | some q => [(q.1, q.2.1)]
      | none => [ownerFn s x.owner]
  side (!isFill x) (cSrcSpace x) ++ side true (cDstSpace x) ++
    (match x.route with | .fetch k => if chanBusy x then [qpFn s k] else [] | _ => [])

/-- A channel of a function that uses a host space through it (10 R244, 11 R273). -/
def chanOnFn (s : State) (link fn : Nat) (x : Chan) : Bool := (hostFns s x).contains (link, fn)

/-- A channel of a function: through its requests, or through its owner (11 R273). -/
def chanOfFn (s : State) (link fn : Nat) (x : Chan) : Bool :=
  chanOnFn s link fn x || ((hostFns s x).isEmpty && ownerFn s x.owner == (link, fn))

/-- Stop the function's host-space channels (10 R244) and put its reads in quarantine. -/
def stopFn (s : State) (link fn : Nat) (detail : BitVec 8) : State :=
  let s := dmaStopAll s (fun _ x => chanOnFn s link fn x) 4 detail
  quarantineReads s (fun r => r.link == link && r.fn == fn)

def setBme (f : Fn) (b : Bool) : Fn :=
  cfgPut f 0x004 (if b then cfgGet f 0x004 ||| 4 else cfgGet f 0x004 &&& ~~~4)

/-- BUS_MASTER_ENABLE_CLEAR (11 R273, R275). -/
def bmeClear (s : State) (link fn : Nat) : State :=
  let f := fnGet s link fn
  if !fnPresent s link fn || !fnBme f then s
  else
    let s := countLink s link 0x08
    let f := setBme f false
    match f.state with
    | .enabled => stopFn (fnPut s link fn { f with state := .draining, drain := .bme, pending := false }) link fn 0x18
    | .draining | .disabled => fnPut s link fn { f with pending := false }

def execBusMasterEnableClear (link : BitVec 2) (fn : BitVec 11) (s : State) : Host.Outcome State Fault Refusal :=
  .next (bmeClear s link.toNat fn.toNat)

/-- BUS_MASTER_ENABLE_SET (11 R272, R275, R276): the link is up; during a drain, or an FLR, the enable is latched. -/
def bmeSet (s : State) (link fn : Nat) : State :=
  let f := fnGet s link fn
  if !fnPresent s link fn || fnBme f || (linkGet s link).state != 3 then s
  else
    let f := setBme f true
    if f.state = .draining ∨ f.drain ≠ .bme then fnPut s link fn { f with pending := true }
    else pumpAll (fnPut s link fn { f with state := .enabled })

def execBusMasterEnableSet (link : BitVec 2) (fn : BitVec 11) (s : State) : Host.Outcome State Fault Refusal :=
  .next (bmeSet s link.toNat fn.toNat)

/-- Every channel that a predicate names is IDLE, or QUARANTINED, which no drain ends (10 Table 10-3). -/
def channelsIdle (s : State) (which : Chan → Bool) : Bool := s.dma.chans.all (fun p => !(which p.2) || !(chanBusy p.2))

/-- Every channel of the function is IDLE (11 R273). -/
def fnChannelsIdle (s : State) (link fn : Nat) : Bool := channelsIdle s (chanOfFn s link fn)

/-- Host entries of a function that have not retired. -/
def fnEntries (s : State) (link fn : Nat) : List (Nat × LedEntry) :=
  s.led.entries.filter (fun p => p.2.kind == .host && qpFn s (qpKey p.2.queue) == (link, fn))

/-- The drain ends: ENABLED when an enable is pending, otherwise DISABLED. -/
def endDrain (s : State) (link fn : Nat) : State :=
  let f := fnGet s link fn
  pumpAll (fnPut s link fn { f with state := if f.pending then .enabled else .disabled, pending := false, drain := .bme })

/-- FUNCTION_DRAIN_END (11 R273, 13 R313): the channels are IDLE and every entry of the function is DONE. -/
def execFunctionDrainEnd (link : BitVec 2) (fn : BitVec 11) (s : State) : Host.Outcome State Fault Refusal :=
  let k := link.toNat
  let f := fnGet s k fn.toNat
  .next (if f.state = .draining ∧ f.drain = .bme ∧ fnChannelsIdle s k fn.toNat ∧
      (fnEntries s k fn.toNat).all (fun p => p.2.state == .done) then endDrain s k fn.toNat
    else s)

/-- Slices bound to a function that a teardown moves to DRAINING. -/
def boundSlices (s : State) (link fn : Nat) : List Nat :=
  (s.slc.sl.map (·.1)).filter (fun sl => sliceBound s link fn sl)

/-- Infrastructure queue pairs of PF0 of a link. -/
def infraQps (link : Nat) : List Nat := (List.range 64).map (fun q => (16384 + link) * 64 + q)

/-- The registers of a function's channels that are busy are to be reset once they are IDLE (10 R244). -/
def flagChannels (s : State) (link fn : Nat) : State :=
  let mine := s.dma.chans.filter (fun p => chanOfFn s link fn p.2 && chanBusy p.2)
  mine.foldl (fun s p => setChan s p.1 { chan s p.1 with flr := true }) s

/-- A transfer whose bytes for a host range behind this function have been read and not yet written (11 R276). -/
def unsentWrite (s : State) (link fn : Nat) (x : Chan) : Bool :=
  !isCompare x && cDstSpace x != 2 &&
    (match requester s x.owner (cDstSpace x) with | some q => q.1 == link && q.2.1 == fn | none => false) &&
    x.units.any (fun u => u.kind == 0 && !u.done && u.reads.all (fun r => r.data.isSome))

/-- What the function waits for from a host's translation agent is dropped with it. -/
def dropHolds (s : State) (link fn : Nat) : State :=
  { s with hst := { s.hst with holds := s.hst.holds.filter (fun h => !(h.link == link && h.fn == fn)) } }

/-- Teardown of a function: it issues nothing more, its channels complete, its slices are reset, and infrastructure
items leave their workers (11 R274 steps 1 to 4). A channel with a host write it could not send ends with LINK_DOWN on
link loss (11 R276). A DISABLED function stays DISABLED (Table 11-10). -/
def teardown (s : State) (link fn : Nat) (kind : DrainKind) : State :=
  let f := fnGet s link fn
  let s := fnPut s link fn { setBme f false with
    state := if f.state = .disabled then .disabled else .draining, drain := kind, pending := false }
  let s := flagChannels s link fn
  let s := if kind = .link then dmaStopAll s (fun _ x => unsentWrite s link fn x) 4 0x17 else s
  let s := dropHolds (settleInvals (stopFn s link fn 0x19)) link fn
  let s := (boundSlices s link fn).foldl (fun s sl => if resettable (slice s sl).state then drainSlice s sl else s) s
  if fn = 0 then
    let s := (infraQps link).foldl (fun s k => setReport s k (0, 0)) s
    (fnEntries s link fn).foldl (fun s p =>
      let s := takeWork s p.1
      if p.2.state = .running then ledPut (stopOps s p.1) p.1 { p.2 with state := .stopping } else s) s
  else s

/-- VFs that a link shows. -/
def vfList (s : State) (link : Nat) : List Nat :=
  if vfEnabled s link then (List.range (numVfs s link)).map (· + 2) else []

/-- An FLR; of PF1 it also clears VF Enable and takes every VF (11 R274). -/
def startFlr (s : State) (link fn : Nat) : State :=
  if !fnPresent s link fn then s
  else
    let vfs := if fn = 1 then vfList s link else []
    let s := teardown (countLink s link 0x09) link fn .flr
    let s := vfs.foldl (fun s v => teardown s link v .flr) s
    if fn = 1 then
      let f := fnGet s link 1
      fnPut s link 1 (cfgPut f 0x168 (cfgGet f 0x168 &&& ~~~1))
    else s

def execInitiateFlr (link : BitVec 2) (fn : BitVec 11) (s : State) : Host.Outcome State Fault Refusal :=
  .next (startFlr s link.toNat fn.toNat)

/-- Infrastructure entries whose operations have stopped retire, oldest first, into infra_report (13 R313). -/
def abortInfra (s : State) (link : Nat) : Nat → State
  | 0 => s
  | fuel + 1 =>
    match (fnEntries s link 0).find? (fun p => isDue s p.2 && opsStopped s p.1) with
    | some p => abortInfra (abortItem s p.1) link fuel
    | none => s

/-- Sticky configuration survives an FLR: the AER registers (11 R274). -/
def flrConfig (f : Fn) : Fn :=
  { f with cfg := f.cfg.filter (fun p => decide (0x104 ≤ p.1 ∧ p.1 ≤ 0x118)), msix := [], pba := [], d3 := false }

/-- An FLR of the PF0 resets its mailboxes, DOE Error with them (11 R274), and closes the sessions that run over them, the
secured ones included (16 R380, R389, 15 R366). -/
def mailboxReset (s : State) (k : Nat) : State :=
  { s with
    uhl := { s.uhl with
      boxes := lset s.uhl.boxes k resetMailbox
      sessions := s.uhl.sessions.filter (fun x => x.transport != k + 1) }
    hst := { s.hst with
      spdm := s.hst.spdm.filter (fun x => x.link != k)
      conns := lset s.hst.conns k ⟨0, false, [], [], []⟩
      links := lset s.hst.links k { linkGet s k with doeErr := false } } }

/-- No entry of an order queue is held. -/
def ordEmpty (s : State) (q : OrdQ) : Bool := s.led.entries.all (fun e => e.2.queue != q)

/-- FLR_END (11 R274): items are settled, with the replies of writes that the mailbox of a PF0 has brought (16 R390), and slices reset; registers, doorbells and fields return to reset values. -/
def execFlrEnd (link : BitVec 2) (fn : BitVec 11) (s : State) : Host.Outcome State Fault Refusal :=
  let k := link.toNat
  let n := fn.toNat
  let f := fnGet s k n
  .next (if f.drain = .bme then s
    else
      let s := if n = 0 then abortInfra s k (fnEntries s k 0).length else s
      let settled := channelsIdle s (chanOnFn s k n) && (fnEntries s k n).isEmpty &&
        (boundSlices s k n).all (fun sl => match (slice s sl).state with | .draining => false | _ => true) &&
        (n != 0 || ordEmpty s (.session (k + 1) 0))
      if !settled then s
      else
        let idle (x : Chan) : Bool := match x.state with | .idle => true | _ => false
        let mine := (s.dma.chans.map (·.1)).filter (fun c => ownerFn s (channelOwner s c) == (k, n) && idle (chan s c))
        let s := mine.foldl (fun s c => setChan s c resetChan) s
        let s := if n = 0 then mailboxReset ((infraQps k).foldl (fun s q => qpPut s q resetQp) s) k else s
        let s := atcDrop s k n
        let g := flrConfig f
        let g := if f.pending then setBme g true else g
        endDrain (fnPut s k n { g with pending := f.pending }) k n)

/-- A function moves between D0 and D3hot; back in D0 its waiting requests go on (11 R263). -/
def setDState (s : State) (k fn : Nat) (d3 : Bool) : State :=
  if !fnPresent s k fn then s
  else
    let f := fnGet s k fn
    let f := cfgPut { f with d3 := d3 } 0x044 (if d3 then 3 else 0)
    if d3 then fnPut s k fn f else pumpAll (fnPut s k fn f)

/-- D_STATE_CHANGE (11 R263). -/
def execDStateChange (link : BitVec 2) (fn : BitVec 11) (d3 : Bool) (s : State) : Host.Outcome State Fault Refusal :=
  .next (setDState s link.toNat fn.toNat d3)

/-- UNSUPPORTED_BAR_ACCESS (11 R256): 4 or 8 bytes, naturally aligned, with Memory Space Enable set, is legal. A poisoned
write is counted (Table 11-12), logged as a Poisoned TLP and, as PCI Express lays down, discarded (assumption 239). -/
def execUnsupportedBarAccess (link : BitVec 2) (fn : BitVec 11) (offset : BitVec 32) (size : Nat) (write : Bool)
    (s : State) (poisoned : Bool := false) : Host.Outcome State Fault Refusal :=
  let k := link.toNat
  let legal := (size == 4 || size == 8) && offset.toNat % size == 0 && memSpaceOn s k fn.toNat
  .next (if !fnPresent s k fn.toNat then s
    else if legal then (if write && poisoned then aerLog (countLink s k 0x04) k fn.toNat 12 else s)
    else if write then aerLog s k fn.toNat 20
    else emit s (.unsupported k fn.toNat))

/-! ## Doorbells (11 R258) -/

/-- The function of a link whose BAR shows a page (11 Tables 11-4, 11-6): PF0 the infrastructure page (16,384), a slice's
function its page, and PF1 the page of a slice that is bound to no function of the link. -/
def pageFn (s : State) (link page : Nat) : Nat :=
  let f := ownerFn s (some page)
  if page = 16384 then 0 else if (slice s page).bound.isSome ∧ f.1 = link then f.2 else 1

/-- The page is shown: its function is there, and its slice is bound to it. -/
def pageShown (s : State) (link page : Nat) : Bool :=
  fnPresent s link (pageFn s link page) && (page == 16384 ||
    (decide (page < 16384) && (slice s page).bound.isSome && (ownerFn s (some page)).1 == link))

/-- An access to a page while Memory Space Enable is 0: an Unsupported Request (11 R256). -/
def pageClosed (s : State) (link page : Nat) : Bool :=
  fnPresent s link (pageFn s link page) && !memSpaceOn s link (pageFn s link page)

/-- The queue pair that a doorbell names on a link: a slice's page, or the infrastructure page (16,384). None: the page
is not shown there. -/
def doorbellQp (s : State) (link page q : Nat) : Option Nat :=
  if pageShown s link page && memSpaceOn s link (pageFn s link page) then
    some ((if page = 16384 then 16384 + link else page) * 64 + q)
  else none

/-- The slice's state accepts doorbell writes (12 Table 12-1). -/
def doorbellOpen (s : State) (k : Nat) : Bool :=
  match qpOwner k with
  | none => true
  | some sl => match (slice s sl).state with
    | .enabled => true | .freezing => true | .frozen => true | _ => false

/-- A refused doorbell write counts on its link, and on a slice that is not ENABLED (12 Table 12-8). -/
def doorbellRefused (s : State) (link k : Nat) : State :=
  let s := countLink s link 0x07
  match qpOwner k with
  | some sl => if (slice s sl).state = .enabled then s else countAt s 0xC0F0 0x03 sl
  | none => s

/-- A device that is neither SINGLE nor ACTIVE refuses doorbell writes (14 R333). -/
def doorbellsClosed (s : State) : Bool := s.pair.state != .single && s.pair.state != .active

/-- A doorbell write reaches its queue pair: the link leaves its low-power state (11 R264), accepted or not; a page that is
not shown takes no write, and one behind Memory Space Enable 0 logs an Unsupported Request (R256). -/
def doorbell (s : State) (link page q : Nat) (act : State → Nat → State) : State :=
  match doorbellQp s link page q with
  | none => if pageClosed s link page then aerLog s link (pageFn s link page) 20 else s
  | some k =>
    let s := wakeLink s link
    if doorbellsClosed s then count s 0xC200 0x0E else act s k

/-- SQ_TAIL (11 R258): below the ring's entry count, not past the fetch head. -/
def execSqTail (link : BitVec 2) (page : BitVec 15) (q : BitVec 6) (v : BitVec 32) (s : State) :
    Host.Outcome State Fault Refusal :=
  .next (doorbell s link.toNat page.toNat q.toNat (fun s k =>
    let x := qpGet s k
    let n := qpObj s k 0x03
    let t := v.toNat
    let passes := decide ((x.head + n - 1 - x.sqTail) % n < (t + n - x.sqTail) % n)
    if doorbellOpen s k && qpEnabled s k && decide (t < n) && !passes then
      record (qpPut s k { x with sqTail := t, stuck := false }) (.register (2 ^ 24 + 2 * k) t)
    else doorbellRefused s link.toNat k))

/-- CQ_HEAD (11 R258): below the ring's entry count, not past the completion tail. -/
def execCqHead (link : BitVec 2) (page : BitVec 15) (q : BitVec 6) (v : BitVec 32) (s : State) :
    Host.Outcome State Fault Refusal :=
  .next (doorbell s link.toNat page.toNat q.toNat (fun s k =>
    let x := qpGet s k
    let n := qpObj s k 0x05
    let h := v.toNat
    let read := (h + n - x.cqHead) % n
    if doorbellOpen s k && qpEnabled s k && decide (h < n) && decide (read ≤ x.unread) then
      record (qpPut s k { x with cqHead := h, unread := x.unread - read }) (.register (2 ^ 24 + 2 * k + 1) h)
    else doorbellRefused s link.toNat k))

/-! ## Fetch and acceptance (11 R258, 13 R307) -/

/-- The fetch channel of a queue pair: the slice's local channel (12 Table 12-6), or the infrastructure's (11 R257). -/
def fetchChannel (s : State) (k : Nat) : Option Nat :=
  match qpOwner k with
  | some sl => (sliceChannels s sl)[qpObj s k 0x08]?
  | none => ((List.range 4096).filter (fun c => channelOwner s c == none))[qpObj s k 0x08]?

/-- Completion positions that are free (13 R307). -/
def freePositions (s : State) (k : Nat) : Nat :=
  let n := qpObj s k 0x05
  let x := qpGet s k
  let held := (s.led.entries.filter (fun p => p.2.queue == qpOrd s k)).length
  n - held - x.unread

/-- Host items that the ledger may take now (13 R305). -/
def hostRoom (s : State) : Nat :=
  let free := 262144 - s.led.entries.length
  let ctl := kindCount s .table + kindCount s .kennel + kindCount s .object
  min (free - (objGet s 0x7010 0x01 0 - ctl)) (objGet s 0x7010 0x02 0 - kindCount s .host)

/-- The queue pair may fetch: enabled, its slice ENABLED, its function able to issue requests, no power-down held off. -/
def mayFetch (s : State) (k : Nat) : Bool :=
  let f := qpFn s k
  qpEnabled s k && mayRequest s f.1 f.2 && !s.pair.fence && islandTakes s (29 + f.1 / 2) &&
    (match qpOwner k with | some sl => (match (slice s sl).state with | .enabled => true | _ => false) | none => true)

/-- Host items that a slice may still have accepted (12 R283): its quota less its accepted items and less the descriptors that
its other queue pairs have asked for. -/
def quotaRoom (s : State) (sl qp : Nat) : Nat :=
  objGet s 0xB001 0x05 sl - (sliceEntries s sl).length -
    (((sliceQps sl).filter (fun k => k != qp)).map (fun k => (qpGet s k).asked)).sum

/-- FETCH_START (11 R258): up to 32 descriptors, to the ring's end at most, within the quota, the ledger's limits and the
free completion positions. -/
def execFetchStart (qp : Nat) (s : State) : Host.Outcome State Fault Refusal :=
  let x := qpGet s qp
  let n := qpObj s qp 0x03
  .next (match fetchChannel s qp with
    | none => s
    | some c =>
      if !mayFetch s qp || x.stuck || x.asked != 0 || x.sqTail == x.head || chanBusy (chan s c) ||
        (match (chan s c).state with | .quarantined => true | _ => false) then s
      else
        let want := min 32 (min ((x.sqTail + n - x.head) % n) (n - x.head))
        let quota := match qpOwner qp with
          | some sl => quotaRoom s sl qp
          | none => want
        let s := match qpOwner qp with
          | some sl => if quota < want ∧ !s.slc.quota.contains sl then
              { s with slc := { s.slc with quota := s.slc.quota ++ [sl] } } else s
          | none => s
        let s := if hostRoom s < want then { s with led := { s.led with waited := true } } else s
        let m := min (min want quota) (min (hostRoom s) (freePositions s qp))
        if m = 0 then s
        else
          let esz := if qpCompat s qp then 32 else 64
          let link := qpLink s qp
          let v := (if link / 2 = 1 then 2 ^ 5 else 0) + 2 * 2 ^ 7
          let y := { chan s c with
            src := BitVec.ofNat 64 (qpObj s qp 0x02 + x.head * esz), dst := 0, count := BitVec.ofNat 32 (m * esz)
            ctrl := BitVec.ofNat 64 (pairOf 32 v) }
          dmaStart (qpPut s qp { x with asked := m, got := none }) c y (.fetch qp) (qpOwner qp))

/-- Accept one fetched descriptor at the next completion position (13 R299, R308). -/
def acceptOne (s : State) (k : Nat) (d : List Byte) : State :=
  let x := qpGet s k
  let n := qpObj s k 0x05
  let sq := qpObj s k 0x03
  let d := if qpCompat s k then widen d else d
  let sl := qpOwner k
  let r := ledAccept s .host (qpOrd s k) (sl.getD 0) sl.isNone (descRestart d) (.host x.head x.pos x.phase false)
  let s := ledMetaSet r.2 r.1 { ledMeta r.2 r.1 with desc := bytesAt d 0 64, compat := qpCompat s k }
  let s := match sl with | some sl => countAt s 0xC0F0 0x01 sl | none => s
  qpPut s k { x with
    head := (x.head + 1) % sq, pos := (x.pos + 1) % n, phase := if x.pos + 1 = n then !x.phase else x.phase }

/-- HEAD_POINTER_WRITE_BACK (13 R307): the new fetch head is written and the fetched items become accepted work; it waits
for the acknowledgement of the delta that carries the descriptors (14 R322) and for room in the delta (14 R320). -/
def execHeadPointerWriteBack (qp : Nat) (s : State) : Host.Outcome State Fault Refusal :=
  let x := qpGet s qp
  .next (match x.got with
    | none => s
    | some bs =>
      let m := x.asked
      let esz := if qpCompat s qp then 32 else 64
      if s.pair.fence then s
      else if !mayFetch s qp then qpPut s qp { x with asked := 0, got := none }
      else if !mayLeave s x.gotBeat then s
      else if !deltaRoom s (36 * m) then waitRoom s
      else if hostRoom s < m then { s with led := { s.led with waited := true } }
      else if (match qpOwner qp with | some sl => decide (quotaRoom s sl qp < m) | none => false) then s
      else
        let f := qpFn s qp
        let head := (x.head + m) % qpObj s qp 0x03
        let w := hostPost s (qpOwner qp) (f.1, f.2, ownerPasid s (qpOwner qp)) (qpObj s qp 0x06) (leBytes 8 head)
        if w.1 then
          let s := (List.range m).foldl (fun s i => acceptOne s qp (bytesAt bs (i * esz) esz)) w.2
          qpPut s qp { qpGet s qp with asked := 0, got := none }
        else w.2)

/-- MSI_X_SEND (11 R259). -/
def execMsixSend (link : BitVec 2) (fn : BitVec 11) (vector : BitVec 11) (s : State) : Host.Outcome State Fault Refusal :=
  let k := link.toNat
  let f := fnGet s k fn.toNat
  .next (if f.pba.contains vector.toNat && msixReady s k fn.toNat vector.toNat && !s.pair.fence then
      emit (wakeLink (fnPut s k fn.toNat { f with pba := f.pba.erase vector.toNat }) k) (.msix k fn.toNat vector.toNat)
    else s)

/-! ## Translation (11 R261, R262) -/

/-- Units of channels that wait for a page of a requester fail with TRANSLATION. -/
def failPage (s : State) (h : HHold) : State :=
  s.dma.chans.foldl (fun s p =>
    let x := p.2
    let onSide (dst : Bool) (a : Nat) : Bool :=
      sideSpace x dst != 2 && a / 4096 == h.page && requester s x.owner (sideSpace x dst) == some (h.link, h.fn, h.pasid)
    let readWaits (u : DUnit) : Bool := u.reads.any (fun r => r.data.isNone && onSide r.dst r.addr)
    let writeWaits (u : DUnit) : Bool := h.write && u.kind == 0 && u.reads.all (fun r => r.data.isSome) && !isCompare x &&
      (pieces x.dRanges u.lo u.len).any (fun q => onSide true q.1 || onSide true (q.1 + q.2 - 1))
    let s := x.units.foldl (fun s u =>
      if u.done || u.fail.isSome then s
      else if readWaits u then unitFail s p.1 u.id 0x14 false ((u.reads.find? (fun r => r.data.isNone && onSide r.dst r.addr)).map (·.dst) |>.getD false)
      else if writeWaits u then unitFail s p.1 u.id 0x14 true true else s) s
    settleFails s p.1) s

/-- Ask for a page (11 R262): with the allocation used up the unit waits for a response. A function that may issue no request
(11 R263, R272), or the fence (14 R333), sends none; its unit asks for the translation again once it may. -/
def askPage (s : State) (h : HHold) : State :=
  let used := (s.hst.holds.filter (fun x => x.pri && x.link == h.link && x.fn == h.fn)).length
  let tag := s.hst.nextTag
  let hold : HHold := ⟨tag, h.link, h.fn, h.pasid, h.page, h.write, true⟩
  if pageAllocation s h.link h.fn ≤ used ∨ mayRequest s h.link h.fn = false ∨ s.pair.fence then s
  else
    let s := { s with hst := { s.hst with nextTag := tag + 1, holds := s.hst.holds ++ [hold] } }
    countLink (emit (wakeLink s h.link) (.pageRequest h.link h.fn h.pasid (h.page * 4096) h.write tag)) h.link 0x0D

/-- An entry joins the cache of its controller; the oldest of 8,192 leaves. -/
def atcAdd (s : State) (e : AtcEntry) : State :=
  let mine := s.hst.atc.filter (fun x => x.link / 2 == e.link / 2)
  let atc := if 8192 ≤ mine.length then
      (match mine.head? with | some v => s.hst.atc.erase v | none => s.hst.atc) else s.hst.atc
  { s with hst := { s.hst with atc := atc ++ [e] } }

/-- TRANSLATION_COMPLETION (11 R261, R262). -/
def execTranslationCompletion (tag : Nat) (ok : Bool) (addr : BitVec 64) (s : State) : Host.Outcome State Fault Refusal :=
  .next (match s.hst.holds.find? (fun h => h.tag == tag && !h.pri) with
    | none => s
    | some h =>
      let s := { s with hst := { s.hst with holds := s.hst.holds.filter (fun x => x.tag != tag) } }
      if ok then pumpAll (atcAdd s ⟨h.link, h.fn, h.pasid, h.page, addr.toNat / 4096⟩)
      else if fnPri s h.link h.fn then askPage s h
      else failPage s h)

/-- PAGE_REQUEST_RESPONSE (11 R262): Success translates again, anything else halts. -/
def execPageRequestResponse (tag : Nat) (ok : Bool) (s : State) : Host.Outcome State Fault Refusal :=
  .next (match s.hst.holds.find? (fun h => h.tag == tag && h.pri) with
    | none => s
    | some h =>
      let s := { s with hst := { s.hst with holds := s.hst.holds.filter (fun x => x.tag != tag) } }
      pumpAll (if ok then s else failPage (countLink s h.link 0x0E) h))

/-- INVALIDATION_REQUEST (11 R261): entries of the range leave the cache, and the answer waits for what uses them. -/
def execInvalidationRequest (link : BitVec 2) (fn : BitVec 11) (pasid : Option (BitVec 20)) (addr : BitVec 64) (pages : Nat)
    (s : State) : Host.Outcome State Fault Refusal :=
  let v : Inval := ⟨link.toNat, fn.toNat, pasid.map (·.toNat), addr.toNat / 4096, pages, s.hst.nextTag⟩
  let s := { s with hst := { s.hst with
    atc := s.hst.atc.filter (fun e => !v.covers e.link e.fn e.pasid e.page), invals := s.hst.invals ++ [v] } }
  .next (settleInvals s)

/-! ## Completions (11 R270, R271) -/

/-- The data of a returned read goes to its unit; bytes read outside the range are discarded (10 R233). -/
def takeData (s : State) (r : HRead) (bs : List Byte) : State :=
  let x := chan s r.ch
  match x.units.find? (fun u => u.id == r.unit) with
  | none => s
  | some u =>
    match u.reads[r.part]? with
    | none => s
    | some d => readData s r.ch r.unit r.part (bytesAt bs (d.addr % 4) d.len)

/-- The side that an outstanding read serves: true the destination. -/
def readSide (s : State) (r : HRead) : Bool :=
  match (chan s r.ch).units.find? (fun u => u.id == r.unit) with
  | some u => (u.reads[r.part]?.map (·.dst)).getD false
  | none => false

/-- COMPLETION_RECEIVED (11 R271). Status 0 is Successful Completion, 1 Unsupported Request, any other Completer Abort. -/
def execCompletionReceived (tag : BitVec 14) (link : BitVec 2) (poisoned : Bool) (status : BitVec 3) (data : List Byte)
    (s : State) : Host.Outcome State Fault Refusal :=
  let k := link.toNat
  .next (match s.hst.reads.find? (fun r => r.link == k && r.tag == tag.toNat) with
    | none => aerLog (countLink s k 0x02) k 0 16
    | some r =>
      let s := { s with hst := { s.hst with reads := s.hst.reads.erase r } }
      if r.quar then settleInvals (pumpAll (aerLog (countLink (countLink s k 0x02) k 0x03) k r.fn 16))
      else
        let side := readSide s r
        let s := if poisoned then unitFail (aerLog (countLink s k 0x04) k r.fn 12) r.ch r.unit 0x12 false side
          else if status = 0 then takeData s r data
          else if status = 1 then unitFail (countLink s k 0x05) r.ch r.unit 0x10 false side
          else unitFail (countLink s k 0x06) r.ch r.unit 0x11 false side
        pumpAll (settleInvals (settleFails s r.ch)))

/-- COMPLETION_TIMEOUT (11 R270): T after the read's last DW. The timeout of a read whose requester was stopped only frees the
invalidations that wait for it (R261, R271). -/
def execCompletionTimeout (link : BitVec 2) (tag : BitVec 14) (s : State) : Host.Outcome State Fault Refusal :=
  let k := link.toNat
  .next (match s.hst.reads.find? (fun r => r.link == k && r.tag == tag.toNat && !r.quar) with
    | none => settleInvals s
    | some r =>
      if now s < r.since + timeoutSlots s k r.fn then s
      else
        let s := { s with hst := { s.hst with
          reads := s.hst.reads.map (fun x => if x = r then { x with quar := true, from_ := now s } else x) } }
        let s := aerLog (countLink s k 0x01) k r.fn 14
        settleInvals (settleFails (unitFail s r.ch r.unit 0x13 false (readSide s r)) r.ch))

/-- TAG_QUARANTINE_END (11 R271): 4T after the timeout. -/
def execTagQuarantineEnd (link : BitVec 2) (tag : BitVec 14) (s : State) : Host.Outcome State Fault Refusal :=
  let k := link.toNat
  .next (match s.hst.reads.find? (fun r => r.link == k && r.tag == tag.toNat && r.quar) with
    | none => s
    | some r =>
      if now s < r.from_ + 4 * timeoutSlots s k r.fn then s
      else settleInvals (pumpAll { s with hst := { s.hst with reads := s.hst.reads.erase r } }))

/-! ## Link loss, VFs and reset inputs (11 R249, R276, 12 R280) -/

/-- Functions a link shows. -/
def fnList (s : State) (k : Nat) : List Nat := [0, 1] ++ vfList s k

/-- A link goes down: the loss is counted and its functions are torn down (11 R276, R278). -/
def linkDown (s : State) (k : Nat) : State :=
  let fns := fnList s k
  let s := countLink s k 0x0A
  let s := fns.foldl (fun s n => teardown s k n .link) s
  linkPut s k { linkGet s k with state := 1, rate := 0, width := 0, flit := false, pm := .l0 }

def execDlDown (link : BitVec 2) (s : State) : Host.Outcome State Fault Refusal :=
  let k := link.toNat
  .next (if (linkGet s k).state = 3 then linkDown s k else s)

/-- PERST_ASSERT (11 R249): low resets the link and its functions, high releases it; the B inputs are ignored in ×16 mode. With
the main domain off no link is there, and only the input's level is kept (01 R23). -/
def execPerstAssert (link : BitVec 2) (level : Bool) (s : State) : Host.Outcome State Fault Refusal :=
  let k := link.toNat
  let l := linkGet s k
  .next (if !linkPresent s k || l.perst == level then s
    else if !mainOn s then { s with hst := { s.hst with links := lset s.hst.links k { l with perst := level } } }
    else if level then linkPut s k { l with perst := true, state := 2 }
    else
      let s := if l.state = 3 then linkDown s k else s
      linkPut s k { linkGet s k with perst := false, state := 1 })

/-- VF Enable of PF1: the VFs appear, or disappear as by an FLR of each (12 R280, 11 R277). -/
def setVfEnable (s : State) (k : Nat) (set : Bool) (n : Nat) : State :=
  let f := fnGet s k 1
  if !fnPresent s k 1 then s
  else if set then
    if vfEnabled s k || decide (objGet s (0xA100 + k) 0x06 0 < n) then s
    else
      let f := cfgPut f 0x170 (BitVec.ofNat 32 n)
      fnPut s k 1 (cfgPut f 0x168 (cfgGet f 0x168 ||| 1))
  else
    let s := (vfList s k).foldl (fun s v => teardown s k v .flr) s
    let f := fnGet s k 1
    fnPut s k 1 (cfgPut f 0x168 (cfgGet f 0x168 &&& ~~~1))

/-- VF_ENABLE (12 R280, 11 R277). -/
def execVfEnable (link : BitVec 2) (set : Bool) (numVfs : BitVec 11) (s : State) : Host.Outcome State Fault Refusal :=
  .next (setVfEnable s link.toNat set numVfs.toNat)

/-! ## Link power (11 R264, R265) -/

/-- ASPM Control of the primary link's PF0. -/
def aspm (s : State) (bit : Nat) : Bool := (cfgGet (fnGet s s.hst.primary 0) 0x080).getLsbD bit

def execL0sEntry (link : BitVec 2) (s : State) : Host.Outcome State Fault Refusal :=
  let k := link.toNat
  let l := linkGet s k
  .next (if l.state = 3 ∧ l.pm = .l0 ∧ l.flit = false ∧ aspm s 0 then
      countLink (linkPut s k { l with pm := .l0s }) k 0x0F else s)

/-- Every function of the link is in D3hot: the link goes to L1 whatever ASPM Control says, and the PCI-PM enables of L1 PM
Substates Control govern its substates, as PCI Express lays down (assumption 258). -/
def pciPm (s : State) (k : Nat) : Bool := (fnList s k).all (fun n => (fnGet s k n).d3)

/-- L1_ENTRY: never while a read of the link is outstanding. -/
def execL1Entry (link : BitVec 2) (s : State) : Host.Outcome State Fault Refusal :=
  let k := link.toNat
  let l := linkGet s k
  .next (if l.state = 3 ∧ l.pm = .l0 ∧ (aspm s 1 || pciPm s k) ∧ !(s.hst.reads.any (fun r => r.link == k && !r.quar)) then
      countLink (linkPut s k { l with pm := .l1 }) k 0x10 else s)

def execL1Exit (link : BitVec 2) (s : State) : Host.Outcome State Fault Refusal := .next (wakeLink s link.toNat)

/-- An LTR or threshold time in ns: value and scale of 2^(5·scale). -/
def ltrNs (v scale : Nat) : Nat := v * 2 ^ (5 * scale)

/-- L1_2_ENTRY (11 R265): a link in L1 goes to a substate that L1 PM Substates Control enables, when CLKREQ# is not asserted.
For L1.2 the LTR message goes out first, and L1.2 follows when its value is at or above LTR_L1.2_THRESHOLD; otherwise L1.1. -/
def execL12Entry (link : BitVec 2) (s : State) (clkreq : Bool := false) : Host.Outcome State Fault Refusal :=
  let k := link.toNat
  let l := linkGet s k
  let ctl := cfgGet (fnGet s k 0) 0x1D8
  let v := objGet s (0xA100 + k) 0x09 0
  let enter (s : State) (pm : LinkPm) : State := countLink (linkPut s k { linkGet s k with pm := pm }) k 0x10
  let up := if pciPm s k then 0 else 2
  let below (s : State) : State := if ctl.getLsbD (up + 1) then enter s .l11 else s
  .next (if l.state = 3 ∧ l.pm = .l1 ∧ clkreq = false then
      if ctl.getLsbD up then
        let s := emit (linkPut s k { l with ltr := v }) (.ltr k v)
        if ltrNs (fld ctl 16 10) (fld ctl 29 3) ≤ ltrNs (v % 1024) (v / 1024 % 8) then
          countLink (enter s .l12) k 0x11
        else below s
      else below s
    else s)

end Sys2Proof.Machine
end

