-- ==== Sys2Proof/Machine/Cipher.lean ====
section
/-!
DEFINITION. The cipher engines (09): grants, assignment, starts and binds, suspension, completion on every path, engine
faults, and the network path of a released item.
-/

namespace Sys2Proof.Machine

/-! ## Lengths and rules (09 Table 9-3) -/

/-- TAG_LEN in force; none: a value the ALG does not allow. -/
def tagBytes (alg len : Nat) : Option Nat :=
  match alg with
  | 1 | 2 => if len = 0 then some 16 else if len = 4 ∨ len = 8 ∨ (12 ≤ len ∧ len ≤ 16) then some len else none
  | 3 | 4 | 5 => if len = 0 then some 0 else none
  | 6 => if len = 0 then some 16 else if 4 ≤ len ∧ len ≤ 16 then some len else none
  | 7 => if len = 0 ∨ len = 16 then some 16 else none
  | 8 => if len = 0 ∨ len = 32 then some 32 else none
  | 9 => if len = 0 then some 32 else if 16 ≤ len ∧ len ≤ 32 then some len else none
  | _ => some 64

def lengthOk (r : CReq) : Bool :=
  match rAlg r with
  | 1 | 7 => true
  | 2 => rMsg r == 0
  | 3 => rMsg r % unitBytes r == 0 && rAad r == 0
  | 5 => rMsg r % 16 == 0 && rAad r == 0
  | 10 => rMsg r == 32 && rAad r == 0
  | 11 => rMsg r == 32 && rAad r == 64
  | _ => rAad r == 0

/-- Reserved encodings and bits (09 Table 9-2, Table 9-6). -/
def formBad (r : CReq) : Bool :=
  rAlg r == 0 || decide (12 ≤ rAlg r) || fld r.raw 6 2 != 0 || fld r.raw 28 4 != 0 || fld r.raw 109 3 != 0
    || fld r.raw 118 10 != 0 || (if rAlg r = 3 then decide (2 ≤ rDu r) else rDu r != 0)

/-- DIR as it counts: ignored for SHA-256 and ECDSA. -/
def verifies (r : CReq) : Bool := rDec r && rAlg r != 8 && rAlg r != 10 && rAlg r != 11

/-! ## The issuer's map (09 R204) -/

/-- Bytes at an address of the issuer's map; none: outside it. -/
def reqRead (s : State) (r : CReq) (a n : Nat) : Option (List Byte) :=
  match r.src with
  | .jutex cl _ w => mapRead s cl w a n
  | .core => if n = 0 ∨ inCoreRegion a n then some (hbmRead s a n) else none
  | .pipe _ id => (itemGet s id).map (fun x => bytesAt x.bytes a n)
  | .dma _ => some (List.replicate n 0)

def reqWritable (s : State) (r : CReq) (a n : Nat) : Bool :=
  match r.src with
  | .jutex cl _ _ => mapWritable s cl a n
  | .core => n == 0 || (inCoreRegion a n && !hbmLocked s a n)
  | _ => true

def reqWrite (s : State) (r : CReq) (a : Nat) (bs : List Byte) : State :=
  match r.src with
  | .jutex cl _ w => mapWrite s cl w a bs
  | .core => hbmStore s a bs
  | _ => s

/-- Every range of the request lies in the issuer's map. -/
def addressOk (s : State) (r : CReq) : Bool :=
  let n := (tagBytes (rAlg r) (rTagLen r)).getD 0
  (reqRead s r (rSrc r) (rMsg r)).isSome && (reqRead s r (rAadAt r) (rAad r)).isSome
    && (!hasOutput r || reqWritable s r (rDst r) (rMsg r))
    && (if verifies r || rAlg r == 11 then (reqRead s r (rTagAt r) n).isSome else reqWritable s r (rTagAt r) n)

/-- Bytes `off` to `off + n` of a request's stream, its AAD and then its message, as its source gives them. -/
def streamBytes (s : State) (r : CReq) (off n : Nat) : List Byte :=
  match r.src with
  | .dma c => bytesAt (dmaInput (chan s c)) off n
  | _ =>
    let a := rAad r
    let k := if off < a then min n (a - off) else 0
    let m := n - k
    ((reqRead s r (rAadAt r + off) k).getD (List.replicate k 0)) ++
      ((reqRead s r (rSrc r + (off + k - a)) m).getD (List.replicate m 0))

/-- The source holds the bytes of the next grant: an XTS channel, once its reads have returned. A request that has been
stopped waits for none. -/
def grantReady (s : State) (r : CReq) : Bool :=
  r.stop.isSome || match r.src with
  | .dma c => decide (64 * r.grants + grantLen r ≤ (dmaInput (chan s c)).length)
  | _ => true

/-! ## Engines (09 R201) -/

def engineOn (s : State) (e : Nat) : Bool :=
  !(ceng s e).out && islandOn s (if 32 ≤ e then 26 else 24 + e / 16) && (decide (32 ≤ e) || (objGet s 0x8000 0x02 0).testBit e)

/-- Bytes in an engine's input buffer: those the grants have delivered and the engine has not processed (09 R201). -/
def engineBytes (s : State) (e : Nat) : Nat :=
  ((s.cip.reqs.filter (fun r => r.engine == some e)).map (fun r => r.data.length - r.proc)).sum

/-! ## Processing (09 R202, R203, R210) -/

/-- IV bytes: 12 for GCM, GMAC and ChaCha20-Poly1305, else 16 (09 Table 9-3). -/
def ivBytes (r : CReq) : List Byte :=
  leBytes (if rAlg r = 1 ∨ rAlg r = 2 ∨ rAlg r = 7 then 12 else 16) (rIv r)

def reqAad (r : CReq) : List Byte := r.data.take (rAad r)
def reqMsg (r : CReq) : List Byte := (r.data.drop (rAad r)).take (rMsg r)

/-- The text that an ALG of Table 9-3 makes of `bs`, the beginning of a message: no block depends on a later one. -/
def algText (r : CReq) (key bs : List Byte) : List Byte :=
  match rAlg r with
  | 1 => gcmText key (ivBytes r) bs
  | 4 => aesCtr key (ivBytes r) bs
  | 5 => aesCbc (rDec r) key (ivBytes r) bs
  | 7 => chaText key (ivBytes r) bs
  | _ => []

/-- The tag, digest or signature that an ALG makes; `covered` is the encrypted text where it encrypts. The tag of ALG 10 takes
the number k from the draw that the state names; the private scalar is a number, least significant byte first (00 R3). -/
def algTag (s : State) (r : CReq) (key covered : List Byte) : List Byte :=
  match rAlg r with
  | 1 => gcmTag key (ivBytes r) (reqAad r) covered
  | 2 => gcmTag key (ivBytes r) (reqAad r) []
  | 6 => aesCmac key covered
  | 7 => chaTag key (ivBytes r) (reqAad r) covered
  | 8 => shaBytes covered
  | 9 => hmacBytes key covered
  | 10 => ecdsaSign (leNat key) (ecScalar (Config.drbg s.ken.draws)) (BitVec.ofNat 256 (beNat covered))
  | _ => []

/-- The tweak of data unit `i` (09 R210). -/
def xtsTweak (r : CReq) (i : Nat) : Nat := (rIv r + i) % 2 ^ 128

/-- One data unit, or the beginning of one. -/
def xtsUnit (key : List Byte) (r : CReq) (i : Nat) (bs : List Byte) : List Byte :=
  aesXts (rDec r) key (leBytes 16 (xtsTweak r i)) (bs.take (unitData r))

/-- Output for the beginning `bs` of an XTS message, from data unit `i` on: each unit, then its tuple unchanged (09 R210). -/
def xtsText (key : List Byte) (r : CReq) : Nat → Nat → List Byte → List Byte
  | 0, _, _ => []
  | fuel + 1, i, bs =>
    if bs.isEmpty then []
    else xtsUnit key r i bs ++ (bs.take (unitBytes r)).drop (unitData r) ++ xtsText key r fuel (i + 1) (bs.drop (unitBytes r))

/-- The first failing check of a message's tuples (09 R210). -/
def xtsCheck (key : List Byte) (r : CReq) : Nat → Nat → List Byte → Option (BitVec 8)
  | 0, _, _ => none
  | fuel + 1, i, bs =>
    if bs.length < unitBytes r ∨ rPi r = false then none
    else
      let plain := if rDec r then xtsUnit key r i bs else bs.take (unitData r)
      let t := (bs.drop (unitData r)).take 8
      if beNat ((t.drop 2).take 2) = 0xFFFF then xtsCheck key r fuel (i + 1) (bs.drop (unitBytes r))
      else if beNat (t.take 2) ≠ (difGuard plain).toNat then some 0x0B
      else if beNat (t.drop 4) ≠ xtsTweak r i % 2 ^ 32 then some 0x0C
      else xtsCheck key r fuel (i + 1) (bs.drop (unitBytes r))

/-- The output text for the first `n` message bytes (09 Table 9-3). -/
def textTo (key : List Byte) (r : CReq) (n : Nat) : List Byte :=
  let bs := (reqMsg r).take n
  if !hasOutput r then []
  else if rAlg r = 3 then xtsText key r (bs.length + 1) 0 bs
  else algText r key bs

/-- The engine goes on to byte `p` of the stream of its running request: a memory path writes plaintext and ciphertext as
each block is done (09 R206), an XTS transfer takes it into its channel's staging buffer (10 R239), and the network path
keeps it for the new buffer of the completed frame (09 R207). -/
def processTo (s : State) (e : Nat) (r : CReq) (p : Nat) : State :=
  let new := (textTo (ceng s e).key r (p - rAad r)).drop (rDone r)
  let s := creqPut s { r with proc := p }
  match r.src with
  | .pipe _ _ => s
  | .dma c => if c < 4096 then setChan s c { chan s c with out := (chan s c).out ++ new } else s
  | _ => if new.isEmpty then s else reqWrite s r (rDst r + rDone r) new

/-- The engine goes on with what its input buffer holds for its running request. How far it has come is a matter of time,
which the model does not keep: it is a free value, at a block boundary (09 R198, R203, assumption 233). -/
def advanceEng (s : State) (e : Nat) : State :=
  match (ceng s e).run.bind (creq s) with
  | none => s
  | some r =>
    if r.data.length ≤ r.proc then s
    else
      let d := draw s
      let p := r.proc + d.1.toNat % (r.data.length - r.proc + 1)
      processTo d.2 e r (max r.proc (blockFloor r p))

def advanceEngs (s : State) : State := (s.cip.engs.map (·.1)).foldl advanceEng s

def isEcdsa (r : CReq) : Bool := rAlg r == 10 || rAlg r == 11

/-- The engine of the least measure among some, the lowest-numbered on a tie. -/
def leastEngine (f : Nat → Nat) : List Nat → Option Nat
  | [] => none
  | e :: es =>
    match leastEngine f es with
    | some m => if f m < f e then some m else some e
    | none => some e

/-- ENGINE_ASSIGNMENT (09 R201). -/
def pickEngine (s : State) (r : CReq) : Option Nat :=
  if isEcdsa r then leastEngine (fun e => (ceng s e).queue.length) ([32, 33].filter (engineOn s))
  else leastEngine (engineBytes s) ((List.range 32).filter (engineOn s))

/-- Assign a request to an engine. -/
def assignReq (s : State) (r : CReq) (e : Nat) : State :=
  setEng (creqPut s { r with engine := some e }) e { ceng s e with queue := (ceng s e).queue ++ [r.id] }

/-- The request a grant of a source serves: the oldest URGENT one, else the oldest (09 R200). -/
def grantTarget (s : State) (which : CSrc → Bool) : Option CReq :=
  let q := issueQueue s which
  match q.find? (fun r => rUrgent r) with
  | some r => some r
  | none => q.head?

/-- The requests that an owner code of a CIPHER leg names (03 Table 3-2). -/
def legSource (code : Nat) (src : CSrc) : Bool :=
  match src with
  | .pipe p _ => code == p
  | .jutex c _ _ => code == 0x10 + c
  | .dma _ => code == 0x20
  | .core => code == 0x21

/-- A grant of 64 bytes for a source (09 R200, R201), used or not; one whose bytes would not fit counts. -/
def moveGrant (s : State) (code : Nat) : State :=
  match grantTarget s (legSource code) with
  | none => s
  | some r =>
    match (match r.engine with | some e => some e | none => pickEngine s r) with
    | none => count s 0xC0C0 0x09
    | some e =>
      if !grantReady s r then s
      else if 16384 < engineBytes s e + grantLen r then count s 0xC0C0 0x09
      else
        let s := if r.engine.isNone then assignReq s r e else s
        let bs := streamBytes s r (64 * r.grants) (grantLen r)
        creqPut s { r with engine := some e, grants := r.grants + 1, data := r.data ++ bs }

/-- The engines go on, the grant moves its bytes, and a place that this frees in the DMA engine's queue is taken. -/
def useGrant (s : State) (code : Nat) : State := dmaCipherPump (moveGrant (advanceEngs s) code)

/-- CIPHER_GRANT (09 R200, 03 R79). -/
def execCipherGrant (slot : BitVec 12) (k : BitVec 3) (rowOk : Bool) (s : State) : Host.Outcome State Fault Refusal :=
  let s := atSlot s slot
  .next (if rowBad s rowOk then rowFailed s else useGrant s (rowCipher (schedRow s slot.toNat) k.toNat))

/-! ## The ends of a request -/

/-- Admit the network-path items that no earlier item of their order domain holds back, whether its request is outstanding
or it waits as well (09 R209). -/
def settleNet (s : State) : Nat → State
  | 0 => s
  | fuel + 1 =>
    let held (w : Nat × Nat × Nat) : Bool :=
      s.cip.reqs.any (fun r => match r.src with
        | .pipe _ id => decide (r.id < w.1) && ((itemGet s id).bind (·.domain)) == some w.2.2 &&
            ((itemGet s id).map (·.pipe)) == ((itemGet s w.2.1).map (·.pipe))
        | _ => false) ||
      s.cip.waits.any (fun v => decide (v.1 < w.1) && v.2.2 == w.2.2 &&
        ((itemGet s v.2.1).map (·.pipe)) == ((itemGet s w.2.1).map (·.pipe)))
    match s.cip.waits.find? (fun w => !held w) with
    | none => s
    | some w =>
      let s := { s with cip := { s.cip with waits := s.cip.waits.filter (fun v => v.1 != w.1) } }
      match itemGet s w.2.1 with
      | some x => settleNet (admitItem (itemRemove s w.2.1) x) fuel
      | none => settleNet s fuel

/-- An item whose request has ended: admitted in order, or dropped and counted (09 R207–R209). -/
def netDone (s : State) (r : CReq) (id : Nat) (status : BitVec 8) (out : List Byte) (tag : List Byte) : State :=
  match itemGet s id with
  | none => s
  | some x =>
    let s :=
      if status = 0 then
        let n := (tagBytes (rAlg r) (rTagLen r)).getD 0
        let bs := overwrite x.bytes (rDst r) out
        let y := if verifies r then { x with bytes := bs.take (bs.length - n), len := x.len - n }
          else { x with bytes := bs ++ tag, len := x.len + n }
        let s := itemPut s y
        { s with cip := { s.cip with waits := s.cip.waits ++ [(r.id, id, x.domain.getD 0)] } }
      else itemRemove (count s 0xC0C0 (if status = 3 then 0x04 else 0x05)) id
    settleNet s (s.cip.waits.length + 1)

/-- The cipher request of an XTS transfer has ended; a halted channel acts on it after a RETRY (10 R239, assumption 234). -/
def dmaCipherDone (s : State) (c : Nat) (status detail : BitVec 8) : State :=
  let x := chan s c
  finishChan (setChan s c { x with xts := false, xtsRes := some (status, if status = 0 then 0 else 0x40 + detail) }) c

/-- A request leaves its engine. -/
def leaveEngine (s : State) (r : CReq) : State :=
  match r.engine with
  | none => s
  | some e =>
    let x := ceng s e
    setEng s e { x with
      queue := x.queue.filter (· != r.id), run := if x.run = some r.id then none else x.run
      key := if x.run = some r.id then [] else x.key, ctx := x.ctx.filter (· != r.id) }

/-- A request ends (09 R205): its key is released, its result goes to its issuer. `out` and `tag` are what a network-path
item takes; the memory paths have been written. -/
def cipherEnd (s : State) (r : CReq) (status detail : BitVec 8) (done : Nat) (out tag : List Byte) : State :=
  let s := leaveEngine s r
  let s := { s with cip := { s.cip with reqs := s.cip.reqs.filter (fun x => x.id != r.id) } }
  let s := countN (count s 0xC0C0 0x01) 0xC0C0 0x02 done
  let s := if status = 3 then count s 0xC0C0 0x03 else s
  let e := r.engine.getD 63
  let s := if e < 34 then ctrAddAt (countAt s 0xC0C1 0x01 e) 0xC0C1 0x02 e done else s
  let s := match r.gen with | some g => keyRelease s (rSlot r) g | none => s
  let tagField := if verifies r then 0 else leNat (tag.take 16)
  let msg := keyResult status.toNat detail.toNat (rSlot r) (r.gen.getD 0) e done tagField
  let s := dmaCipherPump s
  match r.src with
  | .jutex cl eng _ => putResult s cl (rChannel r) msg (some eng) none
  | .core => emit s (.result 16 0 msg)
  | .dma c => if c < 4096 then dmaCipherDone s c status detail else s
  | .pipe _ id => netDone s r id status out tag

/-! ## Start and bind (09 R202, R216) -/

/-- Why a slot cannot be bound: owner, state, kind (09 Table 9-9, R215). -/
def bindFault (s : State) (r : CReq) : Option (BitVec 8 × BitVec 8) :=
  let k := slotGet s (rSlot r)
  let net := match r.src with | .pipe _ _ => true | _ => false
  if !(slotOwned s r.owner false (rSlot r) || (net && k.state != .empty && k.infra)) then some (2, 0x05)
  else match k.state with
    | .empty => some (2, 0x06)
    | .erasePending => some (2, 0x07)
    | .quarantined => some (7, 0x0D)
    | .live => if kindSuits (rAlg r) k.kind then none else some (2, 0x04)

/-- The request takes the current generation and counts as its user. -/
def bindNow (s : State) (r : CReq) : State :=
  let k := slotGet s (rSlot r)
  let s := count (slotUse s (rSlot r) { k with useCur := k.useCur + 1 }) 0xC0C8 0x02
  creqPut s { r with gen := some k.gen, kind := k.kind, filling := false }

/-- The key schedule of a request: the material of the generation it has bound (09 R203, R216). -/
def reqKey (s : State) (r : CReq) : List Byte :=
  match r.gen with | some g => leBytes (kindBytes r.kind) (keyMaterial s (rSlot r) g) | none => []

/-- Run a request: the first block starts, at the level in force (09 R199). -/
def runNow (s : State) (e id : Nat) : State :=
  match creq s id with
  | none => s
  | some r =>
    let x := ceng s e
    let s := creqPut s { r with started := true, level := objGet s 0x8000 0x01 0 }
    setEng s e { x with queue := x.queue.filter (· != id), run := some id, key := reqKey s r }

/-- A request that has been stopped before its first block: by name, or because its slice is DRAINING (09 R218, 12 R287). -/
def stoppedEarly (s : State) (r : CReq) : Option (BitVec 8 × BitVec 8) :=
  match r.stop, r.owner with
  | some f, _ => some f
  | none, some sl => if (slice s sl).state == .draining then some (1, 0x0F) else none
  | none, none => none

/-- A bound user that is stopped counts (09 Table 9-13). -/
def countRevoked (s : State) (r : CReq) : State := if r.gen.isSome then count s 0xC0C8 0x06 else s

/-- The check of a request before its first block (09 R202), and its bind (R216), which waits for the fill of a slot that is
not cached; a request already bound, one restarted, has passed. -/
def startReq (s : State) (e : Nat) (r : CReq) : State :=
  match stoppedEarly s r with
  | some f => cipherEnd (countRevoked s r) r f.1 f.2 0 [] []
  | none =>
    if r.gen.isSome then runNow s e r.id
    else if formBad r then cipherEnd s r 5 0x01 0 [] []
    else if !lengthOk r then cipherEnd s r 5 0x02 0 [] []
    else if (tagBytes (rAlg r) (rTagLen r)).isNone then cipherEnd s r 5 0x03 0 [] []
    else if !addressOk s r then cipherEnd s r 4 0x09 0 [] []
    else if !rKeyed r then runNow s e r.id
    else if !islandOn s 26 then cipherEnd s r 8 0 0 [] []
    else if !islandTakes s 26 then s
    else if !cached s (rSlot r) then creqPut (fetchSlot s (rSlot r)) { r with filling := true, missed := true }
    else
      let s := cacheTouch s (rSlot r) r.missed
      match bindFault s r with
      | some f => cipherEnd (count s 0xC0C8 0x03) r f.1 f.2 0 [] []
      | none => runNow (bindNow s r) e r.id

/-- The most recently suspended request goes on, its key schedule rebuilt from the generation it has bound (09 R203). -/
def resumeReq (s : State) (e : Nat) (r : CReq) : State :=
  let x := ceng s e
  setEng s e { x with run := some r.id, ctx := x.ctx.filter (· != r.id), key := reqKey s r }

/-- What an engine that runs nothing takes next (09 R202, R203): with a context suspended, an URGENT request or else the
context, unless it has been revoked (R218); otherwise the first request assigned that does not wait for a fill. -/
def startNext (s : State) (e : Nat) : State :=
  let x := ceng s e
  if x.run.isSome || x.out then s
  else
    let q := x.queue.filterMap (creq s)
    let ready := q.filter (fun r => !r.filling)
    match (x.ctx.filterMap (creq s)).find? (fun r => r.stop.isNone), ready.find? rUrgent with
    | some c, none => resumeReq s e c
    | some _, some r => startReq s e r
    | none, _ => match ready with | r :: _ => startReq s e r | [] => s

/-- CIPHER_REQUEST_START (09 R202). -/
def execCipherRequestStart (e : BitVec 6) (s : State) : Host.Outcome State Fault Refusal := .next (startNext s e.toNat)

/-- A fill lands: its binds and operations go on at their next command; a slot whose HBM copy has failed its checks is
QUARANTINED. With its set pinned it waits, and the wait counts once (09 R213). -/
def landFill (s : State) (n : Nat) (ok : Bool) : State :=
  match cacheIn s n with
  | none =>
    if s.ken.fills.any (fun f => f.1 == n && f.2) then s
    else count { s with ken := { s.ken with fills := s.ken.fills.map (fun f => if f.1 = n then (n, true) else f) } } 0xC0C8 0x0A
  | some s =>
    let s := count s 0xC0C8 0x09
    let s := { s with
      ken := { s.ken with fills := s.ken.fills.filter (fun f => f.1 != n) }
      cip := { s.cip with reqs := s.cip.reqs.map (fun r => if rSlot r = n then { r with filling := false } else r) } }
    if ok then s else quarantineSlot s n

/-- KENNEL_CACHE_FILL (09 R212, R213, R215, R216): a slot that is asked for lands in the cache; a cached slot is filled again
after a pair fault on its cached metadata, and is quarantined when the HBM copy fails as well. DESIGN CHOICE: a refill that
succeeds keeps the use counts, which HBM does not hold (assumption 229). A fill waits while Kennel's island is not on. -/
def execKennelCacheFill (slot : BitVec 20) (ok : Bool) (s : State) : Host.Outcome State Fault Refusal :=
  let n := slot.toNat
  .next (if !islandOn s 26 then s
    else if s.ken.fills.any (fun f => f.1 == n) then landFill s n ok
    else if cached s n then (let s := count s 0xC0C8 0x09; if ok then s else quarantineSlot s n)
    else s)

/-- SUSPEND (09 R203): a running non-urgent request gives way to an URGENT one at its next block boundary; its state takes a
context slot. One whose last block is done completes instead. The ECDSA engines have one user each and no context slot (R213). -/
def execSuspend (e : BitVec 6) (s : State) : Host.Outcome State Fault Refusal :=
  let s := advanceEng s e.toNat
  let x := ceng s e.toNat
  let urgent := (x.queue.filterMap (creq s)).any (fun r => rUrgent r && !r.filling)
  .next (match if e.toNat < 32 then x.run else none with
    | none => s
    | some id =>
      let calm : Bool := match creq s id with | some r => !rUrgent r && r.stop.isNone && decide (r.proc < rAad r + rMsg r) | none => false
      if calm ∧ urgent ∧ x.ctx.length < 16 then
        startNext (count (setEng s e.toNat { x with run := none, ctx := id :: x.ctx, key := [] }) 0xC0C0 0x0A) e.toNat
      else s)

/-! ## Completion (09 R205–R207, R210) -/

/-- Output text, computed tag and failed tuple check of a request on all its data, under a key (09 Table 9-3). -/
def cipherCompute (s : State) (key : List Byte) (r : CReq) : List Byte × List Byte × Option (BitVec 8) :=
  let msg := reqMsg r
  let n := (tagBytes (rAlg r) (rTagLen r)).getD 0
  let text := textTo key r msg.length
  let covered := if (rAlg r = 1 ∨ rAlg r = 7) ∧ rDec r = false then text else msg
  let tag := algTag s r key covered
  match rAlg r with
  | 3 => (text, [], xtsCheck key r (msg.length + 1) 0 msg)
  | 8 | 10 => (text, tag, none)
  | _ => (text, tag.take n, none)

/-- The expected tag or signature: in memory at TAG_ADDR, on the network path behind the text (09 R206, R208). -/
def expectedTag (s : State) (r : CReq) (n : Nat) : List Byte := (reqRead s r (rTagAt r) n).getD []

/-- Status and detail of a request whose data has all been processed (09 R206, R210). -/
def cipherStatus (s : State) (r : CReq) (tag : List Byte) (dif : Option (BitVec 8)) : BitVec 8 × BitVec 8 :=
  let msg := reqMsg r
  let n := (tagBytes (rAlg r) (rTagLen r)).getD 0
  match dif with
  | some d => (3, d)
  | none =>
    if rAlg r = 11 then
      if ecdsaVerify (r.data.take 64) (expectedTag s r 64) (BitVec.ofNat 256 (beNat msg)) then (0, 0) else (3, 0x0A)
    else if verifies r ∧ 0 < n ∧ expectedTag s r n ≠ tag then (3, 0x0A)
    else (0, 0)

/-- A generated tag is written at TAG_ADDR on a memory path. -/
def writeTag (s : State) (r : CReq) (tag : List Byte) : State :=
  if verifies r || rAlg r == 11 || tag.isEmpty then s else reqWrite s r (rTagAt r) tag

/-- A request whose every block has been processed ends (09 R205–R207): the last of its output has been written, a tag is
compared or written, and an ECDSA signature takes a draw. -/
def finishReq (s : State) (e : Nat) (r : CReq) : State :=
  let c := cipherCompute s (ceng s e).key r
  let s := if r.proc < r.data.length then processTo s e r r.data.length else s
  let st := cipherStatus s r c.2.1 c.2.2
  let s := if rAlg r = 10 then { s with ken := { s.ken with draws := s.ken.draws + 1 } } else s
  cipherEnd (writeTag s r c.2.1) r st.1 st.2 (rMsg r) c.1 c.2.1

/-- The engine goes on: with no urgent work left it resumes its most recently suspended request (09 R203). -/
def resumeNext (s : State) (e : Nat) : State :=
  let x := ceng s e
  if x.run.isNone && !x.ctx.isEmpty then startNext s e else s

/-- CIPHER_REQUEST_COMPLETE (09 R205): the running request has moved and processed all its bytes. -/
def execCipherRequestComplete (e : BitVec 6) (s : State) : Host.Outcome State Fault Refusal :=
  .next (match (ceng s e.toNat).run.bind (creq s) with
    | none => s
    | some r =>
      if r.grants = rGrants r ∧ r.stop.isNone then resumeNext (finishReq s e.toNat r) e.toNat else s)

/-! ## Stops and engine faults (09 R211, R218) -/

/-- A request of an engine stops (09 R218): a running one at its next block boundary, which the engine first goes on to; a
suspended one with the DONE_BYTES of its context. Its output for DONE_BYTES message bytes has been written, and no tag. -/
def stopReq (s : State) (e id : Nat) (status detail : BitVec 8) : State :=
  let s := if (ceng s e).run = some id then advanceEng s e else s
  match creq s id with
  | none => s
  | some r => cipherEnd s r status detail (rDone r) [] []

/-- REVOKED_USER_STOP (09 R218): a revoked request of an engine, running or suspended, stops. -/
def execRevokedUserStop (e : BitVec 6) (s : State) : Host.Outcome State Fault Refusal :=
  let x := ceng s e.toNat
  let mine := ((match x.run with | some i => [i] | none => []) ++ x.ctx).filterMap (creq s)
  .next (match mine.find? (fun r => r.stop.isSome) with
    | none => s
    | some r =>
      match r.stop with
      | none => s
      | some f => resumeNext (stopReq (countRevoked s r) e.toNat r.id f.1 f.2) e.toNat)

/-- Two byte ranges of an issuer's map overlap. -/
def dstClash (r : CReq) : Bool :=
  hasOutput r && decide (0 < rMsg r) &&
    (overlaps (rDst r) (rMsg r) (rSrc r) (rMsg r) || (decide (0 < rAad r) && overlaps (rDst r) (rMsg r) (rAadAt r) (rAad r)))

/-- A request of an engine out of use restarts from byte 0 on another engine, with its binding, when it is on the network
path or its DST overlaps neither SRC nor AAD, as the sides of an XTS transfer never do (10 R231); any other ends with
ENGINE_FAULT and DONE_BYTES as written (09 R211). -/
def settleFault (s : State) (e id : Nat) : State :=
  match creq s id with
  | none => s
  | some r =>
    match (if r.started then r.stop else none) with
    | some f => stopReq (countRevoked s r) e id f.1 f.2
    | none =>
    let restart : Bool := match r.src with | .pipe _ _ => true | .dma _ => true | _ => !dstClash r
    if restart then
      let s := match r.src with
        | .dma c => if c < 4096 then setChan s c { chan s c with out := [] } else s
        | _ => s
      creqPut (count (leaveEngine s r) 0xC0C0 0x0B) { r with
        engine := none, grants := 0, data := [], proc := 0, started := false, filling := false }
    else stopReq s e id 1 0x0E

/-- Every request assigned to an engine is settled. -/
def settleEngine (s : State) (e : Nat) : State :=
  (s.cip.reqs.filter (fun r => r.engine == some e)).foldl (fun s r => settleFault s e r.id) s

def cipherIsland (e : Nat) : Nat := if e < 16 then 24 else if e < 32 then 25 else 26

/-- An engine is taken out of use (09 R211, 20 Table 20-4). -/
def engineFails (s : State) (e : Nat) : State :=
  if e < 34 ∧ !(ceng s e).out then
    let s := setEng s e { ceng s e with out := true }
    settleEngine (event s 0x0205 (cipherIsland e) e) e
  else s

/-- KAT (09 R211). -/
def execKat (e : BitVec 6) (pass : Bool) (s : State) : Host.Outcome State Fault Refusal :=
  .next (if pass ∨ 34 ≤ e.toNat then s else engineFails (count s 0xC0C0 0x0C) e.toNat)

/-- ENGINE_OUT_OF_USE (09 R211). -/
def execEngineOutOfUse (e : BitVec 6) (s : State) : Host.Outcome State Fault Refusal := .next (engineFails s e.toNat)

/-- engine_enable takes effect (09 R211): engines whose bit is cleared are out of use; a bit that is set again brings its
engine back. -/
def enginesEnabled (s : State) (was : Nat) : State :=
  let is := objGet s 0x8000 0x02 0
  (List.range 32).foldl (fun s e =>
    if was.testBit e && !is.testBit e then settleEngine (event s 0x0205 (cipherIsland e) e) e
    else if !was.testBit e && is.testBit e then setEng s e { ceng s e with out := false }
    else s) s

/-! ## The network path (09 R208, R209) -/

/-- Offset that an anchor names, from the parser summary (04 Table 4-5). -/
def anchorOf (b : Bus) (a : Nat) : Nat :=
  match a with | 0 => 0 | 1 => fld b 36 10 | 2 => fld b 46 10 | _ => fld b 26 10

/-- The request of profile `p` for an item, or the counter of the drop (09 R208, R209). -/
def netRequest (s : State) (x : Item) : Except Nat (BitVec 512) :=
  let p := busCipher x.bus
  let o (sub : Nat) : Nat := objGet s 0x8100 sub p
  let alg := o 0x01
  let dir := o 0x02
  let a := anchorOf x.bus (o 0x03)
  let n := (tagBytes alg (o 0x09)).getD 0
  let d := x.bytes.length
  let aad := a + o 0x04
  let text := a + o 0x06
  let last := if dir = 1 then d - n else d
  let ivLen := if alg = 4 then 16 else 12
  let ivAt := a + o 0x08
  let short := (decide (0 < o 0x05) && decide (d < aad + o 0x05)) || decide (d < text + (if dir = 1 then n else 0)) ||
    (o 0x07 == 1 && decide (d < ivAt + ivLen))
  if a = 0x3FF ∨ short then .error 0x07
  else if dir = 0 ∧ 16384 < x.len + n then .error 0x08
  else
    let iv := if o 0x07 = 1 then leNat (bytesAt x.bytes ivAt ivLen)
      else leNat (beBytes ivLen (fld x.bus (o 0x08) (8 * ivLen)))
    .ok (BitVec.ofNat 512 (alg + dir % 2 * 2 ^ 4 + (if o 0x0A = 1 then 2 ^ 5 else 0) + busKeySlot x.bus * 2 ^ 8
      + (last - text) * 2 ^ 32 + o 0x05 * 2 ^ 64 + o 0x09 % 64 * 2 ^ 112 + text * 2 ^ 128 + text * 2 ^ 192 + aad * 2 ^ 256
      + iv * 2 ^ 320 + last * 2 ^ 448))

/-- NETWORK_CIPHER_ISSUE (09 R208): the item enters its pipeline's issue queue, or is dropped. -/
def netIssue (s : State) (x : Item) : State :=
  if 256 ≤ (issueQueue s (legSource x.pipe)).length then itemRemove (count s 0xC0C0 0x06) x.id
  else match netRequest s x with
    | .error sub => itemRemove (count s 0xC0C0 sub) x.id
    | .ok raw => cipherIssue (itemPut s { x with pos := .cipher }) (.pipe x.pipe x.id) raw (some (busSlice x.bus))

end Sys2Proof.Machine
end

