-- ==== Sys2Proof/Machine/Flags.lean ====
section
/-!
DEFINITION. Status that is computed from the state: cluster states (07 Table 7-7), the mismatch of a pair (01 R25), the
health word (14 Table 14-2), boot conditions and the lamps (18 Table 18-2).
-/

namespace Sys2Proof.Machine

/-! ## Clusters and cores -/

def engineEnable (s : State) (c : Nat) : Nat := objGet s (0x5410 + c) 0x01 0

/-- The cluster is excluded from the next beat boundary on: engine_enable 0, FAULTED, or its island not ON (07 R172,
19 Table 19-3). -/
def excludedNow (s : State) (c : Nat) : Bool :=
  engineEnable s c == 0 || (cluster s c).faulted || !islandOn s (6 + c)

/-- The cluster that detours for cluster `c` go to: itself, or the next above it, cyclically, that is not excluded. -/
def substituteOf (s : State) (c : Nat) : Option Nat :=
  ((List.range 16).map (fun i => (c + i) % 16)).find? (fun d => !excludedNow s d)

/-- The cluster was excluded at the last beat boundary. -/
def excluded (s : State) (c : Nat) : Bool := s.jx.map.getD c none != some c

/-- cluster_state, 0x541c.02. -/
def clusterState (s : State) (c : Nat) : Nat := if (cluster s c).faulted then 2 else if excluded s c then 1 else 0

/-- cores_online, 0x5400.03: cores of a core island that is not ON read offline (19 Table 19-3). -/
def coresOnline (s : State) : List Nat :=
  (List.range 16).filter (fun n => !s.jx.offline.getLsbD n && islandOn s (22 + n / 8))

/-- A number with the listed bits set. -/
def bitsOf (ns : List Nat) : Nat := (ns.map (2 ^ ·)).sum

/-- engines_in_use, 0x8000.03: an engine of an island that is not ON reads 0 (19 Table 19-3). -/
def enginesInUse (s : State) : Nat :=
  bitsOf ((List.range 32).filter (fun e => !(ceng s e).out && islandOn s (24 + e / 16) &&
    (objGet s 0x8000 0x02 0).testBit e))

/-! ## The pair -/

/-- image_id of the current image; 0 with none (03 R72). -/
def ownImageId (s : State) : Nat := match s.tt.cur with | some i => fld i.hdr 128 64 | none => 0

/-- What R25 compares, for this device: the first that differs from the partner's, as 0x9000.0E encodes it. -/
def mismatchWith (s : State) (c : PartnerCfg) : Nat :=
  if ownImageId s ≠ c.imageId then 1
  else if objGet s 0x4000 0x01 0 ≠ c.portMode then 2
  else if observation s ≠ c.observation then 3
  else if objGet s 0x8000 0x01 0 ≠ c.scLevel then 4
  else 0

/-- The device mirrors its partner, or is mirrored by it: the pair was formed on equal configurations and changes them
together (01 R25, R22, 03 R77). -/
def pairFormed (s : State) : Bool :=
  match s.pair.state with
  | .syncing => true
  | .standby => true
  | .active => (match s.pair.partner with | some h => decide (2 ≤ h.state) | none => true)
  | .fenced => (match s.pair.partner with | some h => decide (2 ≤ h.state) | none => true)
  | _ => false

/-- Slots for which the two configurations of a formed pair may differ while a change travels from the active to the standby: a
beat for the delta, its way and 2 beats until it is applied (14 R319, R321; DESIGN CHOICE, assumption 274). -/
def mirrorLag : Nat := 5 * 4096

/-- mismatch, 0x9000.0E: why no pair is formed, or that R25 is no longer met (01 R25). -/
def mismatch (s : State) : Nat :=
  let lags := pairFormed s && (match s.pair.diffAt with | some t => decide (now s < t + mirrorLag) | none => true)
  if lags then 0 else match s.pair.cfg with | some c => mismatchWith s c | none => 0

/-- Two's complement value of a sensor reading. -/
def tempOf (t : BitVec 16) : Int := t.toInt

/-- The hottest of some readings; the lowest value with none. -/
def hottest (ts : List (BitVec 16)) : Int := ts.foldl (fun m t => max m (tempOf t)) (-32768)

/-- The health word (14 R325, Table 14-2). -/
def healthWord (s : State) : BitVec 32 :=
  let p := s.pair
  let scrub := match p.scrubAt with | some t => decide (islandUs s - t ≤ 60000000) | none => false
  let kat := (List.range 34).any (fun e => (ceng s e).out)
  let worker := (List.range 16).any (excluded s) || decide ((coresOnline s).length < 16)
  let sync := p.state == .seeking || p.state == .syncing
  BitVec.ofNat 32 (bitsOf
    (((List.range 32).filter (fun b => b ≠ 1 ∧ b ≠ 2 ∧ b < 8 ∧ p.latched.getLsbD b)) ++
      (if scrub then [1] else []) ++ (if kat then [2] else []) ++ (if worker then [8] else []) ++
      (if 10000 < hottest s.pwr.temps then [9] else []) ++ (if p.log.any (fun d => decide (d.seen + 2 < s.clk.beat)) then [10] else []) ++
      (if mismatch s ≠ 0 then [11] else []) ++ (if sync then [12] else [])))

/-- A fatal bit of a health word (14 Table 14-2): SCAN, MISMATCH or SYNC. -/
def fatalHealth (w : BitVec 32) : Bool := w.getLsbD 0 || w.getLsbD 11 || w.getLsbD 12

/-- pair_enable, 0x9000.01. -/
def pairEnabled (s : State) : Bool := objOn s 0x9000 0x01 0

/-- The held Leash epoch; none when its pair check fails (14 R329). -/
def epochOf (w : BitVec 128) : Option Nat := if pairOk 64 w.toNat then some (w.toNat % 2 ^ 64) else none

/-- A value as the pair that island 32 holds. -/
def epochPair (e : Nat) : BitVec 128 := BitVec.ofNat 128 (pairOf 64 e)

/-! ## Lamps (18 R416, Table 18-2; 15 R357) -/

/-- A lamp: off, steady, or blinking at so many tenths of a hertz. -/
inductive Lamp where
  | off | steady | blink (dHz : Nat)
  /-- `n` flashes and a dark time (15 R357) -/
  | flashes (n : Nat)
deriving DecidableEq, Repr

/-- LED_PWR, green. -/
def ledPwr (s : State) : Lamp := if s.isl.supply = 0 then .off else if mainOn s then .steady else .blink 10

/-- LED_STAT: whether green, and its pattern. With no current image a device that is not in FAULT shows the amber pattern, a
standby too (DESIGN CHOICE, assumption 250). -/
def ledStat (s : State) : Bool × Lamp :=
  let image := s.tt.cur.isSome
  match s.pair.state with
  | .fault => (false, .steady)
  | .standby => if image then (true, .blink 10) else (false, .blink 10)
  | .single | .active => if image then (true, .steady) else (false, .blink 10)
  | _ => (false, .blink 10)

/-- LED_FAULT, amber: a pattern of R357 first; an extraction refused shows before a hard fault (DESIGN CHOICE,
assumption 250). -/
def ledFault (s : State) : Lamp :=
  if 8 ≤ s.boot.code.toNat ∧ s.boot.code.toNat ≤ 14 then .flashes (s.boot.code.toNat - 7)
  else if s.isl.extract = .refused then .blink 40
  else if s.isl.ledFault then .steady else .off

/-- LED_HS, blue; 1 Hz for locate in service alone. -/
def ledHs (s : State) : Lamp :=
  match s.isl.extract with
  | .safe => .steady
  | .requested | .transferring | .poweringDown => .blink 20
  | .inService => if objOn s 0x2210 0x03 0 then .blink 10 else .off
  | .refused => .off

end Sys2Proof.Machine
end

