-- ==== Sys2Proof/Machine/Reset.lean ====
section
/-!
DEFINITION. The reset of the main domain (15 R344, 16 R374, 17 R400): every block of islands 1 to 33 returns to its reset
state, every object that the control cores serve to its default, and what island 0 holds stays.
-/

namespace Sys2Proof.Machine

/-- Indices that the control-core complex serves (17 Table 17-1). -/
def coreIndex (idx : Nat) : Bool := decide (0x4000 ≤ idx) && decide (idx < 0xD000)

/-- Counter indices that the island keeps (17 R399, 15 R368). -/
def islandCounter (idx : Nat) : Bool := idx == 0x2040 || idx == 0xC210 || idx == 0xC220 || (decide (0xC230 ≤ idx) && decide (idx < 0xC240))

/-- Entries of island objects; those of the control cores return to their defaults (16 R374). -/
def islandVals (m : Sparse Nat) : Sparse Nat := m.filter (fun e => !coreIndex (okeyIdx e.1))

/-- Links after a main-domain reset: absent with the domain off or by the bifurcation, else down (11 R249). The inputs keep
their levels. -/
def freshLink (s : State) (on : Bool) (bifur : List Nat) (k : Nat) : Link :=
  let absent := !on || (k % 2 == 1 && bifur.getD (k / 2) 0 == 0)
  { resetLink k with state := if absent then 0 else 1, perst := (linkGet s k).perst }

/-- The host endpoint after a main-domain reset: bifurcation and primary link are read then (11 R249, R252), and so are
the identity values that configuration space shows (17 R400). -/
def freshHst (s : State) (on : Bool) : Hst :=
  let bifur := [objGet s 0xA000 0x01 0, objGet s 0xA000 0x02 0]
  { State.reset.hst with
    links := (List.range 4).map (freshLink s on bifur)
    bifur := bifur
    primary := objGet s 0xA000 0x03 0
    subsys := (objGet s 0x1000 0x05 0, objGet s 0x1000 0x06 0)
    nonce := s.hst.nonce }

/-- The pair after a main-domain reset: a device in FAULT seeks again with pair_enable kept; any other is SINGLE, since
pair_enable returns to 0. The epoch held is the persisted one (14 R326, R329). -/
def freshPair (s : State) (on : Bool) : Pair :=
  let seek := s.pair.state == .fault
  { resetPair with
    state := if seek then .seeking else .single
    epoch := epochPair s.pair.persisted
    persisted := s.pair.persisted
    maxSeen := s.pair.maxSeen
    readyOut := s.pair.readyOut
    readyIn := s.pair.readyIn
    hfIn := s.pair.hfIn
    hfOut := seek && !on
    fence := seek
    muzzled := seek
    link := if on then 1 else 0
    keyNo := s.pair.keyNo }

/-- Cages when the main domain loses power: every module waits in INSERTED (18 R420). -/
def cagesDown (s : State) : State :=
  { s with isl := { s.isl with cages := s.isl.cages.map (fun c =>
      match c.state with | .empty => c | _ => { c with state := .inserted }) } }

/-- The reply of a request that the reset has not undone: it has gone out, or its write had taken effect (16 R381). -/
def replyStands (s : State) (x : Session) (c : CachedReply) : Bool :=
  c.sent || s.led.entries.any (fun e => e.2.state == .done && e.2.queue == .session x.transport x.num &&
    e.2.ref == .reply (x.num * 2 ^ 32 + c.seq % 2 ^ 32))

/-- Uhlist after a main-domain reset: the sessions that the control cores serve close and the mailboxes reset (16 R380, R389).
Of a write that was not made no reply is left. -/
def freshUhl (s : State) : Uhl :=
  { s.uhl with
    sessions := (s.uhl.sessions.filter (fun x => x.transport == 0)).map (fun x =>
      { x with cache := x.cache.filter (replyStands s x) })
    boxes := List.replicate 4 resetMailbox
    inband := []
    quarantined := s.uhl.quarantined.filter (fun k => !coreIndex (okeyIdx k)) }

/-- The reset of the main domain; `on` is false when its power goes with it. Counters of the main domain count from 0 after
power-on alone. -/
def mainReset (s : State) (on : Bool) : State :=
  let was := s.pair.state
  let vals := islandVals s.objs.vals
  let t : State := { State.reset with
    pending := s.pending
    clk := { beat := 0, slot := 0, islBase := s.clk.islBase + s.clk.slot, holdover := s.clk.holdover }
    objs := { vals := vals, pend := [],
              ctr := if on then s.objs.ctr else s.objs.ctr.filter (fun e => islandCounter (okeyIdx e.1)) }
    pair := freshPair s on
    logs := if on then s.logs else { s.logs with snap := s.objs.ctr.filter (fun e => islandCounter (okeyIdx e.1)), frozen := none }
    uhl := freshUhl s
    net := { State.reset.net with pllLocked := if on then 0xF else 0, nextFrame := s.net.nextFrame }
    ken := { State.reset.ken with wrap := s.ken.wrap, draws := s.ken.draws }
    jx := { State.reset.jx with epoch := s.jx.epoch + 1 }
    hst := freshHst s on
    boot := { s.boot with manifests := [s.boot.manifests.getD 0 none, none, none], ttOnly := false }
    isl := { s.isl with ledFault := false, waitActive := false, holdReady := false }
    pwr := { s.pwr with hold := none, reqs := [] }
    dbg := s.dbg
    hbm := { mem := if on then s.hbm.mem else [], locks := [] }
    out := s.out
    fresh := s.fresh }
  let t := if on then takeMainCalib t else t
  if was = t.pair.state then t else event t 0x0501 32 (pairCode t.pair.state)

end Sys2Proof.Machine
end

