-- ==== Sys2Proof/Machine/Power.lean ====
section
/-!
DEFINITION. Clocks and power (19): sequencing of the main domain, power states of single islands, rail faults, the
reference clock and the junction sensors; with the states of extraction (18 R417) and of the cages (18 R420) that follow
the main power.
-/

namespace Sys2Proof.Machine

/-! ## Extraction and cages -/

def extractCode : Extract → Nat
  | .inService => 0 | .requested => 1 | .transferring => 2 | .poweringDown => 3 | .safe => 4 | .refused => 5

/-- A change of extract_state raises event 0x0804; entries to SAFE and REFUSED count (18 R417, R428). -/
def setExtract (s : State) (x : Extract) : State :=
  if s.isl.extract = x then s
  else
    let s := { s with isl := { s.isl with extract := x } }
    let s := match x with | .safe => count s 0xC230 0x04 | .refused => count s 0xC230 0x05 | _ => s
    event s 0x0804 0 (extractCode x)

def cageCode : CageState → Nat
  | .empty => 0 | .inserted => 1 | .initialising => 2 | .ready => 3 | .powerDenied => 4 | .fault => 5

def cage (s : State) (c : Nat) : Cage := s.isl.cages.getD c ⟨.empty, 0, none⟩

/-- A cage takes a state; a change raises event 0x0304 with the cage and its new state (20 Table 20-4). -/
def setCage (s : State) (c : Nat) (st : CageState) : State :=
  let x := cage s c
  if x.state = st then s
  else
    let s := { s with isl := { s.isl with cages := lset s.isl.cages c { x with state := st } } }
    let s := match st with | .powerDenied => count s 0xC230 0x0A | _ => s
    event s 0x0304 0 (c + cageCode st * 2 ^ 8)

/-- INSERTED with the main domain on: the module's advertised power decides (18 Table 18-5). -/
def releaseModule (s : State) (c : Nat) : State :=
  if (cage s c).state = .inserted ∧ mainOn s then
    setCage s c (if objGet s 0x2220 0x02 c < (cage s c).power then .powerDenied else .initialising)
  else s

/-! ## Main power -/

def mainResult (s : State) (r : Nat) : State := objPut s 0x2100 0x03 0 r

/-- The stage-1 loader runs: Whelp has handed over to it (15 R344, R356). -/
def loaderRuns (s : State) : Bool := match s.boot.stage with | .whelp => false | .halted => false | _ => true

/-- Stage 1 starts a pass, and holds WP# low (15 R344, R345, R358). -/
def toStage1 (s : State) : State := { s with boot := { s.boot with stage := .stage1, code := 2, wp := true } }

/-- Stage 1 waits before it retries; the waits double from 1 s to 64 s, and WP# is released (15 R358, R359). -/
def toBackoff (s : State) (code : Nat) : State :=
  if loaderRuns s then { s with boot := { s.boot with stage := .backoff, code := BitVec.ofNat 4 code, wp := false } } else s

/-- Main power-up raises PWR_EN[0] first (19 R437). After a trip a write of ON waits until every sensor is below 95 °C (R444);
stage 1's own power-up does so too (DESIGN CHOICE, assumption 249). Stage 1 sequences main power: with Whelp halted nothing
does (15 R356). -/
def startUp (s : State) : Option State :=
  if !loaderRuns s ∨ (s.pwr.tripped ∧ 9500 ≤ hottest s.pwr.temps) then none
  else match s.pwr.phase with
    | .off => some { s with
        pwr := { s.pwr with phase := .rising 0, en := 1, good := 0, tripped := false }, boot := { s.boot with wp := true } }
    | _ => some s

/-- The rails fall, and with them the main domain (19 R438, R439). Stage 1 runs no pass until they rise again: WP# is high
(DESIGN CHOICE, assumption 279, where it was low). -/
def dropRails (s : State) : State :=
  let s := mainReset s false
  let s := if loaderRuns s then { toStage1 s with boot := { (toStage1 s).boot with wp := false } } else s
  let s := { s with pwr := { s.pwr with phase := .off, en := 0, good := 0 } }
  (List.range 16).foldl (fun s c => if (cage s c).state = .empty then s else setCage s c .inserted) s

/-- Ledger entries and DMA channels that keep a main power-down waiting (19 R438). -/
def mainInflight (s : State) : Nat :=
  (match s.pair.state with | .standby => 0 | _ => s.led.entries.length) +
    (s.dma.chans.filter (fun c => match c.2.state with | .idle => false | .quarantined => false | _ => true)).length

/-- A power-down request; none: one is held off already (19 R438). -/
def powerDownRequest (s : State) (extraction : Bool) : Option State :=
  match s.pwr.phase with
  | .on => if s.pwr.hold.isSome then none else some { s with pwr := { s.pwr with hold := some extraction } }
  | .off => some s
  | _ => some { s with pwr := { s.pwr with phase := .off, en := 0, good := 0 }, boot := { s.boot with wp := false } }

/-- A write to main_power; none: BUSY. A write of ON while a power-down is held off cancels it. -/
def mainPowerWrite (s : State) (v : Nat) : Option State :=
  if v = 0 then
    match powerDownRequest s false with
    | none => none
    | some s => some (mainResult s 0)
  else if s.pwr.hold.isSome then some (mainResult { s with pwr := { s.pwr with hold := none } } 2)
  else (startUp s).map (fun s => mainResult s 0)

/-- The rails are off at the end of an extraction: SAFE, and IN_SERVICE with a power-up when the latch is closed
(18 Table 18-3, R418). -/
def railsOff (s : State) : State :=
  match s.isl.extract with
  | .poweringDown =>
    let s := setExtract s .safe
    if s.isl.latch = .opened then s else (startUp (setExtract s .inService)).getD (setExtract s .inService)
  | _ => s

/-- PWR_GOOD_RISE (19 R437): the next enable rises, or the release of the reset is due. -/
def execPwrGoodRise (rail : BitVec 3) (s : State) : Host.Outcome State Fault Refusal :=
  .next (match s.pwr.phase with
    | .rising k =>
      if k = rail.toNat then
        let good := s.pwr.good ||| BitVec.ofNat 6 (2 ^ k)
        if k < 5 then
          { s with pwr := { s.pwr with
              phase := .rising (k + 1), good := good, en := s.pwr.en ||| BitVec.ofNat 6 (2 ^ (k + 1)) } }
        else { s with pwr := { s.pwr with phase := .releasing, good := good } }
      else s
    | _ => s)

/-- Sequencing has failed: every enable falls, RAIL_FAULT, and stage 1 retries with BOOT_CODE 0x6 (19 R437). -/
def sequenceFails (s : State) (good : BitVec 6) : State :=
  let s := { s with pwr := { s.pwr with phase := .off, en := 0, good := 0 } }
  let s := event (count (mainResult s 3) 0xC220 0x02) 0x0604 0 good.toNat
  toBackoff (eventFull s 0x0405 0 0 0 2) 6

/-- RAIL_GOOD_TIMEOUT (19 R437). -/
def execRailGoodTimeout (rail : BitVec 3) (s : State) : Host.Outcome State Fault Refusal :=
  .next (match s.pwr.phase with
    | .rising k => if k = rail.toNat then sequenceFails s s.pwr.good else s
    | _ => s)

/-- MAIN_RESET_RELEASE (19 R437): islands 1 to 33 run from their reset state, and waiting modules are released. -/
def execMainResetRelease (s : State) : Host.Outcome State Fault Refusal :=
  .next (match s.pwr.phase with
    | .releasing =>
      let t := count { takeMainCalib s with
        pwr := { s.pwr with phase := .on }
        hst := { s.hst with links := (List.range 4).map (freshLink s true s.hst.bifur) }
        net := { s.net with pllLocked := 0xF }
        pair := { s.pair with link := 1, hfOut := false } } 0xC220 0x01
      (List.range 16).foldl releaseModule t
    | _ => s)

/-- A power-down that cannot be made: BUSY; an extraction is refused (19 R434, 18 Table 18-3). -/
def powerDownRefused (s : State) : State :=
  let s := count (mainResult { s with pwr := { s.pwr with hold := none } } 1) 0xC220 0x03
  match s.isl.extract with
  | .poweringDown => setExtract { s with isl := { s.isl with holdReady := false } } .refused
  | _ => s

/-- MAIN_HOLD_OFF_EXPIRY (19 R438). -/
def execMainHoldOffExpiry (s : State) : Host.Outcome State Fault Refusal :=
  .next (if s.pwr.hold.isSome ∧ mainInflight s ≠ 0 then powerDownRefused s else s)

/-- MAIN_POWER_DOWN (19 R438). -/
def execMainPowerDown (s : State) : Host.Outcome State Fault Refusal :=
  .next (if s.pwr.hold.isSome ∧ mainInflight s = 0 then railsOff (mainResult (dropRails s) 0) else s)

/-- RAIL_FAULT (19 R439): a hard fault first, then the rails fall without hold-off, and stage 1 resequences. -/
def execRailFault (rail : BitVec 3) (s : State) : Host.Outcome State Fault Refusal :=
  let good := s.pwr.good &&& ~~~(BitVec.ofNat 6 (2 ^ rail.toNat))
  .next (if 5 < rail.toNat then s
    else match s.pwr.phase with
    | .off => s
    | .on =>
      let s := dropRails (hardFault s 0x08 good.toNat)
      railsOff (toBackoff (event (count (mainResult s 3) 0xC220 0x02) 0x0604 0 good.toNat) 6)
    | _ => if s.pwr.good.getLsbD rail.toNat then sequenceFails s good else s)

/-! ## Power of single islands -/

/-- A cluster island, a core island, and so on, that may leave ON (19 R433). -/
def maySwitch (n : Nat) : Bool := (decide (6 ≤ n) && decide (n ≤ 26)) || (decide (29 ≤ n) && decide (n ≤ 31))

/-- Links of a controller's island. -/
def islandLinks (n : Nat) : List Nat := [2 * (n - 29), 2 * (n - 29) + 1]

/-- The precondition of Table 19-3. -/
def powerPrecondition (s : State) (n : Nat) : Bool :=
  if n ≤ 21 then clusterState s (n - 6) == 1 && (List.range 16).any (fun c => c != n - 6 && !excluded s c)
  else if n ≤ 23 then (coresOnline s).any (fun c => c / 8 != n - 22)
  else if n ≤ 25 then fld (BitVec.ofNat 32 (objGet s 0x8000 0x02 0)) (16 * (n - 24)) 16 == 0
  else if n = 26 then true
  else if n ≤ 30 then
    (islandLinks n).all (fun l =>
      (List.range 1026).all (fun f => match (fnGet s l f).state with | .disabled => true | _ => false))
  else (List.range 32).all (fun p => !adminUp s p)

/-- island_inflight, 0x2110.04 (19 Table 19-3). -/
def islandInflight (s : State) (n : Nat) : Nat :=
  let c := n - 6
  if n < 6 then 0
  else if n ≤ 21 then
    (s.jx.threads.filter (fun t => t.1 / 64 == c && t.2.item.isSome && !t.2.gone)).length +
      ((s.jx.engines.filter (fun e => e.1 / 8 == c)).map (·.2.inbox.length)).sum + (cluster s c).inbox.length
  else if n ≤ 23 then
    (s.led.metas.filter (fun m => match m.2.worker with | some (.core k) => k / 8 == n - 22 | _ => false)).length
  else if n ≤ 25 then
    (s.cip.reqs.filter (fun r => match r.engine with | some e => e / 16 == n - 24 | none => false)).length
  else if n = 26 then
    s.ken.queue.length + (s.ken.slots.filter (fun k => k.2.useCur != 0 || k.2.useOld != 0 || k.2.oldPresent)).length
  else if n = 29 ∨ n = 30 then
    (s.led.entries.filter (fun e => match e.2.queue with
      | .host _ _ l _ => e.2.kind == .host && (if e.2.infra then l else (qpFn s (qpKey e.2.queue)).1) / 2 == n - 29
      | _ => false)).length
  else if n = 31 then kindCount s .frame
  else 0

def powerResult (s : State) (n r : Nat) : State := objPut s 0x2110 0x03 n r

def setIslandState (s : State) (n v : Nat) : State := { s with pwr := { s.pwr with isl := sset 0 s.pwr.isl n v } }

/-- What a controller loses with its power: configuration space, translations, tags and keys (19 R433, 11 R267). A teardown
that has begun still ends (11 R276). -/
def controllerLost (s : State) (n : Nat) : State :=
  let mine (k : Nat) : Bool := (islandLinks n).contains k
  { s with hst := { s.hst with
      fns := (s.hst.fns.filter (fun p => mine (p.1 / 2048))).foldl
        (fun m p => sset resetFn m p.1 { resetFn with drain := p.2.drain }) s.hst.fns
      reads := s.hst.reads.filter (fun r => !mine r.link)
      holds := s.hst.holds.filter (fun h => !mine h.link)
      atc := s.hst.atc.filter (fun e => !mine e.link)
      invals := s.hst.invals.filter (fun v => !mine v.link)
      spdm := s.hst.spdm.filter (fun x => !mine x.link)
      conns := (islandLinks n).foldl (fun cs k => lset cs k ⟨0, false, [], [], []⟩) s.hst.conns
      ide := s.hst.ide.filter (fun p => !mine (p.1 / 65536))
      ideOn := s.hst.ideOn.filter (fun k => !mine (k / 65536)) } }

/-- What is lost when an island goes OFF: a cluster's engines, registers and stores; the Kennel cache; the state of a host
controller (19 R433, Table 19-3). -/
def islandLost (s : State) (n : Nat) : State :=
  if n ≤ 21 then
    { s with jx := { s.jx with
        threads := s.jx.threads.filter (fun t => t.1 / 64 != n - 6)
        engines := s.jx.engines.filter (fun e => e.1 / 8 != n - 6)
        clusters := serase s.jx.clusters (n - 6) } }
  else if n = 26 then { s with ken := { s.ken with cached := [] } }
  else if n = 29 ∨ n = 30 then controllerLost s n
  else s

/-- What goes quiet when an island stops or goes off: links go to DL_Down and are absent, lanes DISABLED (19 Table 19-3,
11 R276). -/
def islandQuiet (s : State) (n : Nat) : State :=
  if n = 29 ∨ n = 30 then
    (islandLinks n).foldl (fun s l =>
      let s := if (linkGet s l).state = 3 then linkDown s l else s
      linkPut s l { linkGet s l with state := 0, rate := 0, width := 0, flit := false }) s
  else if n = 31 then (List.range 32).foldl (fun s l => setLane s l downLane) s
  else s

/-- An island becomes STOPPED (1) or OFF (2). -/
def islandLeaves (s : State) (n v : Nat) : State :=
  let s := islandQuiet (setIslandState s n v) n
  if v = 2 then islandLost s n else s

/-- The return to ON (19 Table 19-3): links train, lanes restart, cores restart at the firmware entry, and a clock value
kept for a cluster applies. The island's oscillator takes its trim (18 Table 18-6). -/
def islandReturns (s : State) (n : Nat) : State :=
  let s := takeCalib (setIslandState s n 0) 4 [n]
  if n ≤ 21 then
    match sfind s.pwr.clocks n with
    | some v => { objPut s (0x5410 + (n - 6)) 0x03 0 v with pwr := { s.pwr with clocks := serase s.pwr.clocks n } }
    | none => s
  else if n = 22 ∨ n = 23 then { s with jx := { s.jx with epoch := s.jx.epoch + 1 } }
  else if n = 29 ∨ n = 30 then
    (islandLinks n).foldl (fun s l => linkPut s l (freshLink s true s.hst.bifur l)) s
  else if n = 31 then raiseLanes (downLanes s (List.range 32)) (List.range 32)
  else s

/-- A write to island_power of an island that may leave ON; none: BUSY (19 R434, R435). The state with BUSY still counts
the refusal. With the main domain off nothing of the island returns before that domain does (01 R23). -/
def islandPowerWrite (s : State) (n v : Nat) : State × Bool :=
  let held := s.pwr.reqs.any (fun r => r.island == n)
  let busy : State × Bool := (count s 0xC220 0x03, false)
  if v = 0 then
    if held then (powerResult { s with pwr := { s.pwr with reqs := s.pwr.reqs.filter (fun r => r.island != n) } } n 2, true)
    else if islandState s n = 0 then (powerResult s n 0, true)
    else if !mainOn s then (powerResult (setIslandState s n 0) n 0, true)
    else (powerResult (islandReturns s n) n 0, true)
  else if !mainOn s || held then busy
  else if islandState s n = v then (powerResult s n 0, true)
  else if !powerPrecondition s n then (powerResult busy.1 n 1, false)
  else ({ s with pwr := { s.pwr with reqs := s.pwr.reqs ++ [⟨n, v == 2⟩] } }, true)

/-- ISLAND_POWER_EFFECT (19 R434). -/
def execIslandPowerEffect (island : BitVec 6) (s : State) : Host.Outcome State Fault Refusal :=
  let n := island.toNat
  .next (match s.pwr.reqs.find? (fun r => r.island == n) with
    | none => s
    | some r =>
      if islandInflight s n ≠ 0 then s
      else
        let s := { s with pwr := { s.pwr with reqs := s.pwr.reqs.filter (fun r => r.island != n) } }
        powerResult (islandLeaves s n (if r.off then 2 else 1)) n 0)

/-- ISLAND_HOLD_OFF_EXPIRY (19 R434): the island stays ON. -/
def execIslandHoldOffExpiry (island : BitVec 6) (s : State) : Host.Outcome State Fault Refusal :=
  let n := island.toNat
  .next (if s.pwr.reqs.any (fun r => r.island == n) ∧ islandInflight s n ≠ 0 then
      let s := { s with pwr := { s.pwr with reqs := s.pwr.reqs.filter (fun r => r.island != n) } }
      powerResult (count s 0xC220 0x03) n 1
    else s)

/-! ## Reference clock and sensors -/

/-- REFCLK_LOSS (19 R432). -/
def execRefclkLoss (s : State) : Host.Outcome State Fault Refusal :=
  .next (if s.clk.holdover then s
    else event (count { s with clk := { s.clk with holdover := true } } 0xC220 0x05) 0x0601 0 0)

/-- REFCLK_RELOCK (19 R432). -/
def execRefclkRelock (s : State) : Host.Outcome State Fault Refusal :=
  .next (if s.clk.holdover then
      { s with clk := { s.clk with holdover := false }, net := { s.net with pllLocked := if mainOn s then 0xF else 0 } }
    else s)

/-- One sample of the junction sensors (19 R444). The readings are those that the effective diode offsets give, which count
from this sample on (18 Table 18-6; DESIGN CHOICE, assumption 248). -/
def sampleTemps (s : State) (readings : List (BitVec 16)) : State :=
  let s := takeCalib s 2 (List.range 32)
  { s with pwr := { s.pwr with temps := readings } }

/-- JUNCTION_ABOVE_100 (19 R444): THERMAL of the health word follows the sample. -/
def execJunctionAbove100 (readings : List (BitVec 16)) (s : State) : Host.Outcome State Fault Refusal :=
  .next (sampleTemps s readings)

/-- JUNCTION_OVER_105 (19 R444). -/
def execJunctionOver105 (readings : List (BitVec 16)) (s : State) : Host.Outcome State Fault Refusal :=
  let s := sampleTemps s readings
  .next (if 10500 < hottest readings then event (count s 0xC220 0x07) 0x0602 0 (unsigned 64 (hottest readings)) else s)

/-- THERMAL_TRIP (19 R444). -/
def execThermalTrip (readings : List (BitVec 16)) (s : State) : Host.Outcome State Fault Refusal :=
  let s := sampleTemps s readings
  .next (if 11500 < hottest readings ∧ s.pwr.phase ≠ .off then
      let s := hardFault s 0x09 (unsigned 32 (hottest readings))
      let s := event (count s 0xC220 0x06) 0x0603 0 (unsigned 64 (hottest readings))
      let s := dropRails s
      railsOff (toBackoff { s with pwr := { s.pwr with tripped := true } } 6)
    else s)

/-- TJ_HOUR (19 R445). -/
def execTjHour (mean : BitVec 16) (s : State) : Host.Outcome State Fault Refusal :=
  .next (if 9500 < tempOf mean then count s 0xC220 0x08 else s)

end Sys2Proof.Machine
end

