-- ==== Sys2Proof/Machine/Sheepdog.lean ====
section
/-!
DEFINITION. Commands of Sheepdog (08): an egress opportunity and the last byte of a frame.
-/

namespace Sys2Proof.Machine

/-- Free bytes of a port's transmit FIFO: 32 KiB for each member lane (08 R190). -/
def fifoFree (s : State) (p : Nat) : Nat := 32768 * (portLanes s p).length - ((fifo s p).map wireLen).sum

/-- The head frame `f` of queue `q` enters the transmit FIFO of port `p` (08 R188, R190, 13 Table 13-5). -/
def dequeue (s : State) (p q : Nat) (f : QFrame) (path : List (Nat × Nat × Choice)) : State :=
  let s := path.foldl (fun s st => commitChoice s f.len st) s
  let s := (chainOf s q).foldl (fun s ln => chargeNode s f.len ln) s
  let x := queue s q
  let s := setQueue s q { x with frames := x.frames.tail }
  let s := setFifo s p (fifo s p ++ [f])
  let s := match f.entry with
    | some i => ledRun s i
    | none => s
  clearDeficits (if f.len < 64 then count s (0xC100 + p) 0x0A else s)

/-- Sheepdog serves a port that is operationally up, and until the next beat boundary one that has gone down since the last
(02 R39, 08 R190, R193; DEDUCED, assumption 206). -/
def servedPort (s : State) (p : Nat) : Bool := operUp s p || s.shp.cut.contains p

/-- One opportunity of port `p`: the state after a dequeue, or none (08 R190). -/
def serve (s : State) (p : Nat) : Option State :=
  if servedPort s p ∧ !s.pair.muzzled ∧ (eligible s 4).contains p then
    match descend s 4 p with
    | none => none
    | some path =>
      match path.getLast? with
      | none => none
      | some st =>
        let q := st.2.2.child
        match (queue s q).frames with
        | [] => none
        | f :: _ => if wireLen f ≤ fifoFree s p then some (dequeue s p q f path) else none
  else none

/-- An opportunity of a lane's port that dequeues nothing counts as unused; a row that failed leaves every one of its
opportunities unused (03 R54, R79, 08 Table 8-9). -/
def unusedOpportunity (s : State) (n : Nat) : State := if n < 32 then count s 0xC0B0 0x15 else s

/-- EGRESS_OPPORTUNITY (08 R190, 03 R54, R79). -/
def execEgressOpportunity (slot : BitVec 12) (j : BitVec 2) (rowOk : Bool) (s : State) : Host.Outcome State Fault Refusal :=
  let s := atSlot s slot
  let n := rowEgress (schedRow s slot.toNat) j.toNat
  .next (if rowBad s rowOk then unusedOpportunity (rowFailed s) n
    else if 32 ≤ n then s
    else
      match serve s (portOfLane s n) with
      | some t => t
      | none => unusedOpportunity s n)

/-- A port whose administrative down waits has sent its last frame: its lanes go to DISABLED (02 R39), and leave it at once
where the port has been written administratively up since. -/
def finishDown (s : State) (p : Nat) : State :=
  if s.net.downs.contains p then
    let s := { s with net := { s.net with downs := s.net.downs.filter (· != p) } }
    let s := (portLanes s p).foldl (fun s n => setLane s n downLane) s
    if adminUp s p then (portLanes s p).foldl bringUp s else s
  else s

/-- A waiting administrative down happens unless a frame is in transmission; a muzzled device sends none (02 R39, R46). -/
def downNow (s : State) (p : Nat) : State :=
  if (fifo s p).isEmpty ∨ !operUp s p ∨ s.pair.muzzled then finishDown s p else s

/-- Ports whose administrative down waits, with nothing left in transmission (02 R39). -/
def downPorts (s : State) : State := s.net.downs.foldl downNow s

/-- FRAME_SENT (08 R191): the frame in transmission has gone whole; it leaves the buffer and a protected one retires. -/
def execFrameSent (port : BitVec 5) (s : State) : Host.Outcome State Fault Refusal :=
  let p := port.toNat
  .next (match fifo s p with
    | [] => s
    | f :: rest =>
      if operUp s p ∧ !s.pair.muzzled ∧ !s.shp.cut.contains p then
        let s := setFifo s p rest
        let s := countN (count s (0xC100 + p) 0x08) (0xC100 + p) 0x09 (wireLen f)
        let s := countAt (count s 0xC0B0 0x03) 0xC0B1 0x03 f.queue
        let s := emit (ctrAddAt s 0xC0B1 0x04 f.queue f.len) (.frame p (macFrame f))
        finishDown (retireFrame (bufRelease s f.handle) f 0 0) p
      else s)

end Sys2Proof.Machine
end

