-- ==== Sys2Proof/Machine/FwdOps.lean ====
section
/-!
DEFINITION. The shared forwarding tables (06 R127–R144, R464): entries, buckets, quarantine, lookups, the flow cache, learn
queues and arbiters, moves and the aging sweeps. Tables are numbered 0 L2, 1 LPM IPv4, 2 LPM IPv6, 3 flow.
-/

namespace Sys2Proof.Machine

/-! ## Entries -/

/-- An empty entry with an intact control word: 16-bit pairs for L2 and flow, 4-bit pairs for routes. -/
def emptyCtl : Nat := 0xFFFF0000
def emptyRoute : Nat := 0xF0

def l2Get (s : State) (i : Nat) : BitVec 128 := sget (BitVec.ofNat 128 emptyCtl) s.fwd.l2 i
def flowGet (s : State) (i : Nat) : BitVec 512 := sget (BitVec.ofNat 512 emptyCtl) s.fwd.flow i
def lpm4Get (s : State) (i : Nat) : BitVec 48 := sget (BitVec.ofNat 48 emptyRoute) s.fwd.lpm4 i
def lpm6Get (s : State) (i : Nat) : BitVec 96 := sget (BitVec.ofNat 96 emptyRoute) s.fwd.lpm6 i

/-- An entry of a table as a number. -/
def sharedGet (s : State) (tbl i : Nat) : Nat :=
  if tbl = 0 then (l2Get s i).toNat else if tbl = 1 then (lpm4Get s i).toNat
  else if tbl = 2 then (lpm6Get s i).toNat else (flowGet s i).toNat

def entryIntact (tbl e : Nat) : Bool := if tbl = 1 ∨ tbl = 2 then pairOk 4 (e % 256) else pairOk 16 (e % 2 ^ 32)

def isQuar (s : State) (tbl i : Nat) : Bool := s.fwd.quar.contains (tbl, i)

/-- HIT and PEND of an L2 entry (06 R131). -/
def l2Hp (s : State) (i : Nat) : Nat := sget 0 s.fwd.l2hp i
def setL2Hp (s : State) (i v : Nat) : State := { s with fwd := { s.fwd with l2hp := sset 0 s.fwd.l2hp i v } }

/-- HIT and PEND of an entry of L2 or the flow table. -/
def hpGet (s : State) (flow : Bool) (i : Nat) : Nat := if flow then fld (flowGet s i) 504 2 else l2Hp s i

def flowPut (s : State) (i : Nat) (e : BitVec 512) : State :=
  { s with fwd := { s.fwd with flow := sset (BitVec.ofNat 512 emptyCtl) s.fwd.flow i e } }

def hpPut (s : State) (flow : Bool) (i v : Nat) : State :=
  if flow then flowPut s i (setFld (flowGet s i) 504 2 v) else setL2Hp s i v

/-- An entry is written whole; a quarantined place is quarantined no more, and the write enters the delta (06 R136). -/
def sharedPut (s : State) (tbl i e : Nat) : State :=
  let s := record s (.table tbl i e)
  let s := { s with fwd := { s.fwd with quar := s.fwd.quar.filter (· != (tbl, i)) } }
  if tbl = 0 then { s with fwd := { s.fwd with l2 := sset (BitVec.ofNat 128 emptyCtl) s.fwd.l2 i (BitVec.ofNat 128 e) } }
  else if tbl = 1 then { s with fwd := { s.fwd with lpm4 := sset (BitVec.ofNat 48 emptyRoute) s.fwd.lpm4 i (BitVec.ofNat 48 e) } }
  else if tbl = 2 then { s with fwd := { s.fwd with lpm6 := sset (BitVec.ofNat 96 emptyRoute) s.fwd.lpm6 i (BitVec.ofNat 96 e) } }
  else flowPut s i (BitVec.ofNat 512 e)

def sValid (e : Nat) : Bool := e.testBit 0
def sStatic (e : Nat) : Bool := e.testBit 1

/-- L2 fields (06 Table 6-3): key DOMAIN and MAC, PORT, CLASS. -/
def l2Key (e : Nat) : Nat := (e >>> 32) % 2 ^ 48 + ((e >>> 80) % 2 ^ 16) * 2 ^ 48
def l2Port (e : Nat) : Nat := (e >>> 96) % 32
def l2Class (e : Nat) : Nat := (e >>> 101) % 2048

/-- A dynamic L2 entry as the arbiter writes it. -/
def l2New (key port cls : Nat) : Nat :=
  pairOf 16 1 + key % 2 ^ 48 * 2 ^ 32 + key / 2 ^ 48 % 2 ^ 16 * 2 ^ 80 + port % 32 * 2 ^ 96 + cls % 2048 * 2 ^ 101

/-- Flow fields (06 Table 6-5). -/
def flowKeyOf (e : Nat) : Nat := (e >>> 32) % 2 ^ 320
def flowProfile (e : Nat) : Nat := (e >>> 352) % 4096

def flowNew (key port profile : Nat) : Nat :=
  pairOf 16 1 + key % 2 ^ 320 * 2 ^ 32 + profile % 4096 * 2 ^ 352 + port % 32 * 2 ^ 364 + 2 ^ 504

/-! ## Buckets (06 R131, R132, R134) -/

/-- Entries of the two candidate buckets of a key, way 0 first. -/
def candidates (flow : Bool) (key : Nat) : List Nat :=
  (List.range 2).flatMap (fun i =>
    let b := if flow then i * 8388608 + hashKey key 320 (0x10 + i) % 8388608 else i * 262144 + hashKey key 64 i % 262144
    (List.range 4).map (fun k => b * 4 + k))

/-- The two candidate buckets of a flow key. -/
def flowBuckets (key : Nat) : Nat × Nat :=
  (hashKey key 320 0x10 % 8388608, 8388608 + hashKey key 320 0x11 % 8388608)

/-- A route's key parts from VRF and masked address: bucket and KEY_HIGH (06 R132). -/
def routeBucket (v6 : Bool) (g vrf addr : Nat) : Nat × Nat :=
  let k := if v6 then addr + vrf * 2 ^ 64 else addr + vrf * 2 ^ 32
  let high := k / 2 ^ 18
  ((k % 2 ^ 18) ^^^ (hashKey high (if v6 then 56 else 24) ((if v6 then 0x28 else 0x20) + g) % 2 ^ 18), high)

/-- Entries of a route bucket. -/
def routeEntries (v6 : Bool) (bucket : Nat) : List Nat :=
  (List.range (if v6 then 4 else 8)).map (fun k => bucket * (if v6 then 4 else 8) + k)

/-- The address bits that count for a group of length `len`: 32 for IPv4, the upper 64 for IPv6. -/
def routeMask (v6 : Bool) (len addr : Nat) : Nat := prefixOfAddr (if v6 then 64 else 32) len addr
where
  prefixOfAddr (w len a : Nat) : Nat := a / 2 ^ (w - min len w) * 2 ^ (w - min len w)

/-- A shared entry fails its control-word check: quarantined, counted, event (06 R136). -/
def quarShared (s : State) (tbl i : Nat) : State :=
  let per := if tbl = 1 then 8 else 4
  let s := { s with fwd := { s.fwd with quar := s.fwd.quar ++ [(tbl, i)] } }
  event (count s 0xC080 0x15) 0x0002 27 (tbl + i / per * 2 ^ 32)

/-- Entries are read: whether one of them is quarantined or found broken, and the state. -/
def readShared (s : State) (tbl : Nat) : List Nat → Bool × State
  | [] => (false, s)
  | i :: r =>
    let broken := !isQuar s tbl i && !entryIntact tbl (sharedGet s tbl i)
    let s := if broken then quarShared s tbl i else s
    let x := readShared s tbl r
    (isQuar s tbl i || x.1, x.2)

/-- The entry that holds a key. -/
def findShared (s : State) (tbl : Nat) (same : Nat → Bool) (is : List Nat) : Option Nat :=
  is.find? (fun i => !isQuar s tbl i && sValid (sharedGet s tbl i) && same (sharedGet s tbl i))

/-- The lowest place with room: VALID 0 and not quarantined (06 R131). -/
def roomShared (s : State) (tbl : Nat) (is : List Nat) : Option Nat :=
  is.find? (fun i => !isQuar s tbl i && !sValid (sharedGet s tbl i))

/-! ## Port counts and limits (06 R140) -/

/-- Dynamic L2 entries with PORT = p. -/
def learnedCount (s : State) (p : Nat) : Nat :=
  (s.fwd.l2.filter (fun e => sValid e.2.toNat && !sStatic e.2.toNat && l2Port e.2.toNat == p)).length

def learnLimit (s : State) (p : Nat) : Nat := objGet s (0x6100 + p) 0x01 0

def atLimit (s : State) (p : Nat) : Bool := decide (learnLimit s p ≤ learnedCount s p)

/-- OVER_LIMIT at the access: queued requests count too. -/
def overLimit (s : State) (p : Nat) : Bool :=
  decide (learnLimit s p ≤ learnedCount s p + (s.fwd.l2q.filter (fun r => r.port == p)).length)

/-! ## The flow cache (06 R135) -/

/-- The set of a bucket: its number modulo the 2,048 sets (DESIGN CHOICE, assumption 271). -/
def cacheSet (b : Nat) : Nat := b % 2048

def flowCached (s : State) (b : Nat) : Bool := (sget [] s.fwd.cache (cacheSet b)).contains b

/-- A bucket becomes the most recently used of its set; the ninth is evicted and written back. Lookups and fills are the
uses (DESIGN CHOICE, assumption 271). -/
def cacheUse (s : State) (b : Nat) : State :=
  let old := sget [] s.fwd.cache (cacheSet b)
  { s with fwd := { s.fwd with cache := sset [] s.fwd.cache (cacheSet b) ((b :: old.filter (· != b)).take 8) } }

/-- A fill of both buckets is asked for (06 R135). -/
def askFill (s : State) (bs : Nat × Nat) : State :=
  if s.fwd.fills.length < 256 then { s with fwd := { s.fwd with fills := s.fwd.fills ++ [bs] } }
  else count s 0xC080 0x14

/-! ## Lookups (06 R128, R129, R133) -/

/-- A lookup's outcome: a quarantined entry was met, the value of its bus field, and its hit bit. -/
structure Look where
  faulty : Bool
  value  : Nat
  hit    : Bool
deriving DecidableEq, Repr

/-- The destination lookup: DA_PORT, DA_CLASS, DA_STATIC. -/
def lookDa (s : State) (key : Nat) : Look × State :=
  let is := candidates false key
  let r := readShared s 0 is
  match findShared r.2 0 (fun e => l2Key e == key) is with
  | some i =>
    let e := sharedGet r.2 0 i
    (⟨r.1, l2Port e + l2Class e * 2 ^ 5 + (if sStatic e then 2 ^ 16 else 0), true⟩, r.2)
  | none => (⟨r.1, 0, false⟩, r.2)

/-- The source lookup: SA_STATUS against port `p`; KNOWN sets HIT. -/
def lookSa (s : State) (key p : Nat) : Look × State :=
  let is := candidates false key
  let r := readShared s 0 is
  let s := r.2
  match findShared s 0 (fun e => l2Key e == key) is with
  | some i =>
    let e := sharedGet s 0 i
    if l2Port e = p then (⟨r.1, 1, true⟩, setL2Hp s i (l2Hp s i ||| 1))
    else (⟨r.1, if sStatic e then 6 else 2, true⟩, s)
  | none =>
    (⟨r.1, if (roomShared s 0 is).isNone then 4 else if overLimit s p then 5 else 3, false⟩, s)

/-- The longest route of a family: LPM_NEXTHOP. -/
def lookLpm (s : State) (d : BitVec 512) (v6 : Bool) (vrf addr : Nat) : List Nat → Look × State
  | [] => (⟨false, if v6 then 2 ^ 19 else 0, false⟩, s)
  | g :: gs =>
    -- groups are given longest first; each used group's bucket is read
    let len := if v6 then shLen6 d g else shLen4 d g
    if len = 0 then lookLpm s d v6 vrf addr gs
    else
      let tbl := if v6 then 2 else 1
      let rb := routeBucket v6 g vrf (routeMask v6 len addr)
      let is := routeEntries v6 rb.1
      let r := readShared s tbl is
      let rest := lookLpm r.2 d v6 vrf addr gs
      match findShared rest.2 tbl (fun e => (e >>> 1) % 8 == g && (e >>> 8) % 2 ^ (if v6 then 56 else 24) == rb.2) is with
      | some i =>
        let e := sharedGet rest.2 tbl i
        let nh := (e >>> (if v6 then 64 else 32)) % 65536
        (⟨r.1 || rest.1.faulty, nh + g * 2 ^ 16 + (if v6 then 2 ^ 19 else 0), true⟩, rest.2)
      | none => (⟨r.1 || rest.1.faulty, rest.1.value, rest.1.hit⟩, rest.2)

/-- The flow lookup: a hit, ROOM, NO_ROOM or UNRESOLVED. -/
def lookFlow (s : State) (key : Nat) : Look × State :=
  let bs := flowBuckets key
  if flowCached s bs.1 ∧ flowCached s bs.2 then
    let s := cacheUse (cacheUse (count s 0xC080 0x12) bs.2) bs.1
    let is := candidates true key
    let r := readShared s 3 is
    let s := r.2
    match findShared s 3 (fun e => flowKeyOf e == key) is with
    | some i => (⟨r.1, flowProfile (sharedGet s 3 i), true⟩, hpPut s true i (hpGet s true i ||| 1))
    | none => (⟨r.1, if (roomShared s 3 is).isSome then 1 else 2, false⟩, s)
  else (⟨false, 3, false⟩, askFill (count s 0xC080 0x13) bs)

/-- Bus field of a width, reads past bit 1,023 not arising (06 R127). -/
def busFld (b : Bus) (lo w : Nat) : Nat := fld b lo w

/-- The enabled lookups of an item on its leg (06 R128, R129): whether a quarantined entry was met, the item, the state.
SH_HIT[0] tells of the destination lookup (DESIGN CHOICE, assumption 270). -/
def sharedLookups (s : State) (d : BitVec 512) (x : Item) : Bool × Item × State :=
  let dom := busFld x.bus (shDomain d) 16 * 2 ^ 48
  let daKey := busFld x.bus (shDa d) 48 + dom
  let saKey := busFld x.bus (shSa d) 48 + dom
  let flowKey := keyOf x.bus (shFlowKey d)
  let none' : Look := ⟨false, 0, false⟩
  let a := if shOn d 0 then lookDa s daKey else (none', s)
  let b := if shOn d 1 then lookSa a.2 saKey (portOfLane s x.lane) else (none', a.2)
  let v6 := fld x.bus (shFamily d) 1 == 1
  let addr := if v6 then busFld x.bus (shAddr d) 128 / 2 ^ 64 else busFld x.bus (shAddr d) 32
  let c := if shOn d 2 then lookLpm b.2 d v6 (busFld x.bus (shVrf d) 10) addr [7, 6, 5, 4, 3, 2, 1, 0] else (none', b.2)
  let f := if shOn d 3 then lookFlow c.2 flowKey else (none', c.2)
  let bus := setFld x.bus 768 24 (a.1.value + b.1.value * 2 ^ 17)
  let bus := setFld bus 792 24 c.1.value
  let bus := setFld bus 816 12 f.1.value
  let bus := setFld bus 828 3 ((if a.1.hit then 1 else 0) + (if c.1.hit then 2 else 0) + (if f.1.hit then 4 else 0))
  (a.1.faulty || b.1.faulty || c.1.faulty || f.1.faulty, { x with bus := bus, l2key := saKey, flowKey := flowKey, looked := true }, f.2)

/-! ## Learning (06 R137–R141) -/

/-- Queue order of requests (06 R138): by the slot of entry, and in one slot by ascending pipeline; two of one pipeline
in the order of their commands (DESIGN CHOICE, assumption 272). -/
def learnAfter (r e : LearnReq) : Bool := decide (r.enters < e.enters ∨ (r.enters = e.enters ∧ r.pipe < e.pipe))

/-- A queue with a request in its place. -/
def learnInsert (r : LearnReq) (q : List LearnReq) : List LearnReq :=
  q.filter (fun e => !learnAfter r e) ++ r :: q.filter (fun e => learnAfter r e)

/-- A learn or move request enters its arbiter's queue of 4,096; what does not fit is discarded (06 R138). -/
def pushLearn (s : State) (r : LearnReq) : State :=
  let q := learnInsert { r with enters := now s } (if r.flow then s.fwd.flowq else s.fwd.l2q)
  let s := if r.flow then { s with fwd := { s.fwd with flowq := q.take 4096 } }
    else { s with fwd := { s.fwd with l2q := q.take 4096 } }
  if 4096 < q.length then count s 0xC080 0x0B else s

/-- move_hold_down in beats, rounded up (06 R141). -/
def holdDownBeats (s : State) : Nat := (objGet s 0x6000 0x03 0 * 10000000 + 32767) / 32768

/-- A move record still damps moves. -/
def moveFresh (s : State) (r : MoveRec) : Bool := decide (s.clk.beat - r.beat < holdDownBeats s)

/-- The record of an applied move (06 R141): that of the key, a free one, or none. -/
def stampMove (s : State) (key : Nat) : State :=
  let kept := s.fwd.moves.filter (fun r => r.key != key && moveFresh s r)
  if kept.length < 16384 then { s with fwd := { s.fwd with moves := kept ++ [⟨key, s.clk.beat⟩] } }
  else count s 0xC080 0x04

/-- STATION_MOVE and MOVE_FLAPPING: entry `i` holds the key on another port (06 R141). -/
def applyMove (s : State) (i : Nat) (r : LearnReq) : State :=
  if s.fwd.moves.any (fun m => m.key == r.key && moveFresh s m) then count s 0xC080 0x03
  else if atLimit s r.port then count s 0xC080 0x0A
  else
    let e := BitVec.ofNat 128 (sharedGet s 0 i)
    let e := setFld (setFld e 96 5 r.port) 101 11 r.data
    count (stampMove (sharedPut s 0 i e.toNat) r.key) 0xC080 0x02

/-- ARBITER_APPLY for the L2 table (06 Table 6-7). -/
def applyL2 (s : State) (r : LearnReq) : State :=
  let is := candidates false r.key
  let s := (readShared s 0 is).2
  match findShared s 0 (fun e => l2Key e == r.key) is with
  | some i =>
    let e := sharedGet s 0 i
    if l2Port e = r.port then count s 0xC080 0x0C
    else if sStatic e then count s 0xC080 0x05
    else applyMove s i r
  | none =>
    match roomShared s 0 is with
    | none => count s 0xC080 0x08
    | some i =>
      if atLimit s r.port then count s 0xC080 0x0A
      else setL2Hp (count (sharedPut s 0 i (l2New r.key r.port r.data)) 0xC080 0x01) i 1

/-- ARBITER_APPLY for the flow table: a present key always counts as a duplicate. -/
def applyFlow (s : State) (r : LearnReq) : State :=
  let is := candidates true r.key
  let s := (readShared s 3 is).2
  match findShared s 3 (fun e => flowKeyOf e == r.key) is with
  | some _ => count s 0xC080 0x0C
  | none =>
    match roomShared s 3 is with
    | none => count s 0xC080 0x08
    | some i => count (sharedPut s 3 i (flowNew r.key r.port r.data)) 0xC080 0x01

/-- One leg of the L2 arbiter (06 R138); a request without room in the delta waits (14 R320). -/
def learnL2 (s : State) : State :=
  match s.fwd.l2q with
  | [] => s
  | r :: rest =>
    if 820 ≤ s.fwd.applied.1 then s
    else if !deltaRoom s 32 then waitRoom s
    else
      let s := { s with fwd := { s.fwd with l2q := rest, applied := (s.fwd.applied.1 + 1, s.fwd.applied.2) } }
      applyL2 s r

/-- One leg of the flow arbiter: a request waits at the head until its buckets are cached (06 R138). -/
def learnFlow (s : State) : State :=
  match s.fwd.flowq with
  | [] => s
  | r :: rest =>
    let bs := flowBuckets r.key
    if 820 ≤ s.fwd.applied.2 then s
    else if !(flowCached s bs.1 && flowCached s bs.2) then (if s.fwd.fills.contains bs then s else askFill s bs)
    else if !deltaRoom s 80 then waitRoom s
    else
      let s := { s with fwd := { s.fwd with flowq := rest, applied := (s.fwd.applied.1, s.fwd.applied.2 + 1) } }
      applyFlow s r

/-! ## Aging (06 R142–R144) -/

def sweepOf (s : State) (flow : Bool) : Sweep := if flow then s.fwd.flowSweep else s.fwd.l2sweep

def setSweep (s : State) (flow : Bool) (x : Sweep) : State :=
  if flow then { s with fwd := { s.fwd with flowSweep := x } } else { s with fwd := { s.fwd with l2sweep := x } }

def sweepTable (flow : Bool) : Nat := if flow then 3 else 0
def sweepBuckets (flow : Bool) : Nat := if flow then 16777216 else 524288

/-- An entry's content without the bits that the device keeps beside it. -/
def sweepContent (s : State) (flow : Bool) (i : Nat) : Nat :=
  if flow then (setFld (flowGet s i) 504 2 0).toNat else sharedGet s 0 i

/-- A visited place: HIT is cleared, or PEND is set and a removal queued (06 R142). -/
def visitEntry (flow : Bool) (i : Nat) (s : State) : State :=
  let e := sharedGet s (sweepTable flow) i
  let hp := hpGet s flow i
  if isQuar s (sweepTable flow) i ∨ !sValid e ∨ sStatic e ∨ 2 ≤ hp then s
  else if hp = 1 then hpPut s flow i 0
  else
    let c := sweepContent s flow i
    let s := hpPut s flow i 2
    setSweep s flow { sweepOf s flow with removal := (sweepOf s flow).removal ++ [⟨i, c⟩] }

/-- The removal queue is full (06 R142). -/
def removalFull (s : State) (flow : Bool) : Bool := decide (4096 ≤ (sweepOf s flow).removal.length)

/-- The last `n` places of bucket `b` are visited; where the removal queue is full the sweep stops, and goes on at that place
later (06 R142; DESIGN CHOICE, assumption 220). -/
def visitPlaces (flow : Bool) (b : Nat) : Nat → State → State
  | 0, s => setSweep s flow
      { sweepOf s flow with pos := if b + 1 < sweepBuckets flow then some (b + 1) else none, place := 0 }
  | n + 1, s =>
    if removalFull s flow then setSweep s flow { sweepOf s flow with place := 3 - n, stalled := true }
    else visitPlaces flow b n (visitEntry flow (b * 4 + (3 - n)) s)

/-- BUCKET_VISIT (06 R142). -/
def visitBucket (s : State) (flow : Bool) : State :=
  let x := sweepOf s flow
  match x.pos with
  | none => s
  | some b =>
    if removalFull s flow then setSweep s flow { x with stalled := true }
    else
      let is := (List.range (4 - x.place)).map (fun k => b * 4 + x.place + k)
      visitPlaces flow b (4 - x.place) (readShared s (sweepTable flow) is).2

/-- COMPARE_AND_REMOVE of the head of the removal queue (06 R143). -/
def retireRemoval (s : State) (flow : Bool) (r : Removal) : State :=
  let x := sweepOf s flow
  let s := setSweep s flow { x with removal := x.removal.tail }
  let tbl := sweepTable flow
  let s := (readShared s tbl [r.entry]).2
  if !isQuar s tbl r.entry ∧ sweepContent s flow r.entry = r.content ∧ hpGet s flow r.entry % 2 = 0 then
    let e := sharedGet s tbl r.entry
    let gone := e / 2 ^ 32 * 2 ^ 32 + pairOf 16 (e % 2 ^ 16 / 2 * 2)
    let s := sharedPut s tbl r.entry gone
    count (hpPut s flow r.entry 0) 0xC080 (if flow then 0x0E else 0x0D)
  else count (hpPut s flow r.entry (hpGet s flow r.entry % 2)) 0xC080 0x0F

/-- A table's interval in beats, rounded up (06 R144). -/
def ageBeats (s : State) (flow : Bool) : Nat := (objGet s 0x6000 (if flow then 0x02 else 0x01) 0 * 10000000000 + 32767) / 32768

/-- A scheduled start that is due (06 R144): the pass starts, or waits for the end of the pass that still runs. It falls at slot
0 of its beat: no leg of the sweep and no boundary comes between, since each makes the start that is still due first, with the
same *N*, which changes at boundaries alone. -/
def startPass (s : State) (flow : Bool) : State :=
  let x := sweepOf s flow
  if x.nextAt ≤ s.clk.beat then
    let x := { x with nextAt := x.nextAt + ageBeats s flow }
    match x.pos with
    | none => setSweep s flow { x with pos := some 0 }
    | some _ => count (setSweep s flow { x with late := true }) 0xC080 0x10
  else s

/-- The legs of one slot in the order of R130: visits first, then other legs ascending. A leg acts once in a slot, and one out
of that order does not act (DESIGN CHOICE, assumption 221). Compare-and-removes come at the slot's end, so any order serves. -/
def legFree (s : State) (k rank : Nat) : Bool :=
  s.fwd.legs.all (fun e => e.1 != k && (rank == 2 || e.2 != 1 || (rank == 1 && decide (e.1 < k))))

/-- Leg `k` acts. -/
def onLeg (s : State) (k rank : Nat) (act : State → State) : State :=
  if legFree s k rank then act { s with fwd := { s.fwd with legs := s.fwd.legs ++ [(k, rank)] } } else s

/-- The compare-and-removes of a slot; one without room in the delta stays queued (14 R320). -/
def retireHeld (flow : Bool) : Nat → State → State
  | 0, s => s
  | n + 1, s =>
    match (sweepOf s flow).removal with
    | [] => s
    | r :: _ =>
      if deltaRoom s (if flow then 80 else 32) then retireHeld flow n (retireRemoval s flow r) else waitRoom s

/-- The end of the last slot in which a leg acted (06 R130): odd slots serve the flow sweep. -/
def endSlot (s : State) : State :=
  let s := retireHeld (s.fwd.legsAt % 2 == 1) s.fwd.held s
  { s with fwd := { s.fwd with legs := [], held := 0 } }

/-- The legs of the present slot may act: what an earlier slot left to its end is done. -/
def openSlot (s : State) : State :=
  if s.fwd.legsAt = now s then s
  else
    let s := endSlot s
    { s with fwd := { s.fwd with legsAt := now s } }

/-- One owner-5 leg of a sweep: the head of the removal queue that no other leg of the slot retires, or a visit (06 R142). A
removal without room in the delta waits (14 R320). -/
def sweepLeg (s : State) (k : Nat) (flow : Bool) : State :=
  let s := startPass s flow
  if s.fwd.held < (sweepOf s flow).removal.length then
    if deltaRoom s ((if flow then 80 else 32) * (s.fwd.held + 1)) then
      onLeg s k 2 (fun s => { s with fwd := { s.fwd with held := s.fwd.held + 1 } })
    else onLeg (waitRoom s) k 0 (fun s => visitBucket s flow)
  else onLeg s k 0 (fun s => visitBucket s flow)

/-- What a beat boundary does to a sweep: a late pass starts, and a stalled beat counts. -/
def sweepBoundary (s : State) (flow : Bool) : State :=
  let x := sweepOf s flow
  let s := if x.stalled then count s 0xC080 0x11 else s
  let late := x.late && x.pos.isNone
  setSweep s flow { x with stalled := false, late := x.late && !late, pos := if late then some 0 else x.pos }

end Sys2Proof.Machine
end

