-- ==== Sys2Proof/Machine/TableOps.lean ====
section
/-!
DEFINITION. The table command interface (06 R145–R149): windows, captured commands, shared-table commands, and the release
of a RESULT.
-/

namespace Sys2Proof.Machine

/-! ## Windows -/

def tcWin (s : State) (w : Nat) : TcWin := s.tc.wins.getD w resetTcWin

def setTcWin (s : State) (w : Nat) (x : TcWin) : State := { s with tc := { s.tc with wins := lset s.tc.wins w x } }

/-- A control sequencer's queue is full (03 R60). -/
def ctlFull (s : State) : Bool := s.pipe.ctl.any (fun q => decide (256 ≤ q.length))

/-- TC_STATUS.BUSY (06 R145). -/
def tcBusy (s : State) (w : Nat) : Bool :=
  (tcWin s w).cmd.isSome || ctlFull s || decide (256 ≤ s.tc.queue.length) || !ledRoom s .table

/-- A command waits in the control sequencers of the four pipelines. -/
def ctlPush (s : State) (c : SeqCmd) : State :=
  { s with pipe := { s.pipe with ctl := s.pipe.ctl.map (fun q => q ++ [c]) } }

/-- A TC_CMD write (06 R145, R149): without effect, refused while BUSY, or accepted with what the registers hold. With the main
domain off there is no window (01 R23). -/
def tcCommand (s : State) (w op target : Nat) (other : Bool) (table : Nat) : State :=
  if op = 0 ∨ 6 < op ∨ 4 < target ∨ !mainOn s then s
  else if tcBusy s w then
    let full := (tcWin s w).cmd.isNone && ctlFull s
    let s := noteWait (count (setTcWin s w { tcWin s w with refused := true }) 0xC080 0x17)
    if full then count s 0xC050 0x07 else s
  else
    let x := tcWin s w
    let r := ledAccept s .table (.window w) 0 true false (.reply w)
    let c : TcCmd :=
      { op := op, target := target, other := other, table := table, index := x.index, data := x.data, cmp := x.cmp,
        entry := r.1, res := List.replicate 4 none, pos := 0, fin := none }
    let s := setTcWin r.2 w { x with cmd := some c }
    if target = 0 then ctlPush s (.table w) else { s with tc := { s.tc with queue := s.tc.queue ++ [w] } }

/-- The STATUS that the ledger records for a RESULT (13 R302). -/
def tcStatus (result : Nat) : BitVec 8 := if result = 0 then 0 else if result = 4 then 9 else if result = 5 then 7 else 8

/-- A command's outcome is fixed: its entry is DONE and RESULT waits for its release (06 R149, 01 R20). -/
def tcFinish (s : State) (w : Nat) (result : Nat) (hit pend : Bool) (data : Option (BitVec 2048)) : State :=
  match (tcWin s w).cmd with
  | none => s
  | some c =>
    let s := setTcWin s w { tcWin s w with cmd := some { c with fin := some (result, hit, pend, data) } }
    ledDone s c.entry (tcStatus result) (BitVec.ofNat 8 result)

/-- The image that a generation select names (03 R76); none inside: no such generation. -/
def selectImage (s : State) (other : Bool) : Option (Option Image) :=
  if !other then some s.tt.cur
  else match s.tt.state with
    | .verified => some s.tt.staged
    | .installing => some s.tt.staged
    | .installed => some s.tt.staged
    | .armed => some s.tt.staged
    | .overlap => some s.tt.old
    | _ => none

/-! ## Stage tables (06 R148) -/

/-- The first result other than OK in ascending pipeline order. -/
def firstResult : List (Option Nat) → Nat
  | [] => rOk
  | some r :: rs => if r = rOk then firstResult rs else r
  | none :: rs => firstResult rs

/-- Pipeline `p` has its result of a stage-table command; the last of the four completes it. -/
def tcStageResult (s : State) (w p : Nat) (c : TcCmd) (r : Nat × BitVec 2048) : State :=
  let keep := if p = 0 ∧ c.op = 3 ∧ r.1 = rOk then r.2 else c.data
  let c := { c with res := lset c.res p (some r.1), data := keep }
  let s := setTcWin s w { tcWin s w with cmd := some c }
  if c.res.all Option.isSome then
    tcFinish s w (firstResult c.res) false false (if c.op = 3 ∧ c.res.headD none = some rOk then some c.data else none)
  else s

/-- The table that a stage-table command names, or its result where it names none. -/
def tcTable (s : State) (c : TcCmd) : Nat ⊕ BitVec 512 :=
  match selectImage s c.other with
  | none => .inl rGenRefused
  | some none => .inl rNoTable
  | some (some i) =>
    match i.tables.find? (fun d => tId d == c.table) with
    | none => .inl rNoTable
    | some d => if c.op = 6 then .inl rNoTable else .inr d

/-- A control slot of pipeline `p` issues a stage-table command: it goes with the slot to the stage of its table, which it
reaches in its port slot there (05 R104, R469). -/
def tcStageStep (s : State) (w p : Nat) : State :=
  match (tcWin s w).cmd with
  | none => s
  | some c =>
    let s := ledRun s c.entry
    match tcTable s c with
    | .inl r => tcStageResult s w p c (r, 0)
    | .inr d =>
      { s with pipe := { s.pipe with onWay := s.pipe.onWay ++ [(now s + entryOffset s.tt.cur (tStage d), w, p, d)] } }

/-- A stage-table command reaches its stage and executes on pipeline `p`'s copy. -/
def landCommand (s : State) (e : Nat × Nat × Nat × BitVec 512) : State :=
  match (tcWin s e.2.1).cmd with
  | none => s
  | some c =>
    let r := stageCommand s e.2.2.2 e.2.2.1 c.op c.index.toNat c.data c.cmp
    tcStageResult r.2 e.2.1 e.2.2.1 c r.1

/-- Every stage-table command due by moment `m` has reached its stage. -/
def landBy (s : State) (m : Nat) : State :=
  let due := s.pipe.onWay.filter (fun e => decide (e.1 ≤ m))
  let s := { s with pipe := { s.pipe with onWay := s.pipe.onWay.filter (fun e => decide (m < e.1)) } }
  (due.mergeSort (fun a b => decide (a.1 ≤ b.1))).foldl landCommand s

/-- The state with the slot of the beat at `slot`, in which a stage memory is used. -/
def atPort (s : State) (slot : BitVec 12) : State := let s := atSlot s slot; landBy s (now s)

/-! ## Shared tables (06 R146, R148) -/

/-- Group length of a family as the device remembers it (06 R127). -/
def rememberedLen (s : State) (v6 : Bool) (g : Nat) : Nat :=
  match s.fwd.lens with
  | some l => fld (if v6 then l.2 else l.1) (8 * g) 8
  | none => 0

/-- A route as TC_DATA carries it: group, next hop, VRF and the address bits that count (06 R146). -/
def rGroup (v : BitVec 2048) : Nat := fld v 1 3
def rVrf (v : BitVec 2048) : Nat := fld v 32 10
def rAddr (v6 : Bool) (v : BitVec 2048) : Nat := if v6 then fld v 112 64 else fld v 48 32

/-- The key of TC_DATA or TC_CMP for a shared target. -/
def tcKey (target : Nat) (v : BitVec 2048) : Nat :=
  if target = 1 then l2Key (fld v 0 128)
  else if target = 4 then flowKeyOf (fld v 0 512)
  else rGroup v + rVrf v * 2 ^ 3 + rAddr (target = 3) v * 2 ^ 13

/-- Table number and width of the control pair of a target. -/
def targetTable (target : Nat) : Nat := if target = 1 then 0 else if target = 2 then 1 else if target = 3 then 2 else 3
def targetPair (target : Nat) (v : BitVec 2048) : Bool :=
  if target = 2 ∨ target = 3 then pairOk 4 (fld v 0 8) else pairOk 16 (fld v 0 32)

/-- A reserved bit is set (06 R147 BAD_ENTRY). -/
def tcBadEntry (target : Nat) (v : BitVec 2048) : Bool :=
  if target = 1 then fld v 2 14 != 0 || fld v 112 16 != 0
  else if target = 4 then fld v 2 14 != 0 || fld v 369 135 != 0 || fld v 506 6 != 0
  else
    let v6 := target == 3
    fld v 8 8 != 0 || fld v 42 6 != 0 || (if v6 then fld v 48 64 != 0 else fld v 80 96 != 0) ||
      fld v 176 1872 != 0

/-- Address bits of the key below the group's length, which no operation takes (06 R146, R147). -/
def tcBadKey (s : State) (target : Nat) (v : BitVec 2048) : Bool :=
  (target == 2 || target == 3) &&
    (routeMask (target == 3) (rememberedLen s (target == 3) (rGroup v)) (rAddr (target == 3) v) != rAddr (target == 3) v ||
      (target == 3 && fld v 48 64 != 0))

/-- Places of a key. -/
def tcPlaces (target : Nat) (v : BitVec 2048) : List Nat :=
  if target = 1 then candidates false (tcKey 1 v)
  else if target = 4 then candidates true (tcKey 4 v)
  else routeEntries (target == 3) (routeBucket (target == 3) (rGroup v) (rVrf v) (rAddr (target == 3) v)).1

/-- An entry holds the key of `v`. -/
def tcSame (target : Nat) (v : BitVec 2048) (e : Nat) : Bool :=
  if target = 1 then l2Key e == tcKey 1 v
  else if target = 4 then flowKeyOf e == tcKey 4 v
  else
    let v6 := target == 3
    (e >>> 1) % 8 == rGroup v &&
      (e >>> 8) % 2 ^ (if v6 then 56 else 24) == (routeBucket v6 (rGroup v) (rVrf v) (rAddr v6 v)).2

/-- The stored form of TC_DATA; a flow entry's device-kept bits are ignored. -/
def tcStored (target : Nat) (v : BitVec 2048) : Nat :=
  if target = 1 then fld v 0 128
  else if target = 4 then (setFld (BitVec.ofNat 512 (fld v 0 512)) 504 2 1).toNat
  else
    let v6 := target == 3
    let high := (routeBucket v6 (rGroup v) (rVrf v) (rAddr v6 v)).2
    fld v 0 8 + high * 2 ^ 8 + fld v 16 16 * 2 ^ (if v6 then 64 else 32)

/-- TC_DATA for the entry found: a route with the VRF and address of its key. -/
def tcShown (target : Nat) (v : BitVec 2048) (e : Nat) : BitVec 2048 :=
  if target = 1 ∨ target = 4 then BitVec.ofNat 2048 e
  else
    let v6 := target == 3
    BitVec.ofNat 2048 (e % 256 + (e >>> (if v6 then 64 else 32)) % 65536 * 2 ^ 16 + rVrf v * 2 ^ 32 +
      rAddr v6 v * 2 ^ (if v6 then 112 else 48))

/-- The entry as COMPARE_REPLACE compares it: without a flow entry's device-kept bits. -/
def tcCompared (target : Nat) (v : BitVec 2048) : Nat :=
  if target = 1 then fld v 0 128
  else if target = 4 then (setFld (BitVec.ofNat 512 (fld v 0 512)) 504 2 0).toNat
  else v.toNat

/-- An entry written by a command has HIT 1 and PEND 0 (06 R148). -/
def tcWrite (s : State) (target i : Nat) (e : Nat) : State :=
  let s := sharedPut s (targetTable target) i e
  if target = 1 then setL2Hp s i 1 else s

/-- The entry with VALID 0. -/
def tcDeleted (target e : Nat) : Nat :=
  if target = 2 ∨ target = 3 then e / 256 * 256 + pairOf 4 (e % 16 / 2 * 2)
  else e / 2 ^ 32 * 2 ^ 32 + pairOf 16 (e % 2 ^ 16 / 2 * 2)

/-- A shared-table command other than FLUSH_PORT executes in one leg: result, HIT and PEND of a READ, its data. -/
def sharedCommand (s : State) (c : TcCmd) : (Nat × Bool × Bool × Option (BitVec 2048)) × State :=
  let t := c.target
  let tbl := targetTable t
  let fail (r : Nat) : Nat × Bool × Bool × Option (BitVec 2048) := (r, false, false, none)
  if (opWrites c.op && !targetPair t c.data) || (c.op == 5 && !targetPair t c.cmp) then (fail rPairFault, s)
  else if tcBadKey s t c.data || (opWrites c.op && tcBadEntry t c.data) || (c.op == 5 && tcKey t c.cmp != tcKey t c.data) then (fail rBadEntry, s)
  else
    let is := tcPlaces t c.data
    let s := (readShared s tbl is).2
    let found := findShared s tbl (tcSame t c.data) is
    match c.op, found with
    | 1, some _ => (fail rExists, s)
    | 1, none =>
      match roomShared s tbl is with
      | some i => (fail rOk, tcWrite s t i (tcStored t c.data))
      | none => (fail rNoRoom, s)
    | _, none => (fail rNotFound, s)
    | 2, some i =>
      let s := sharedPut s tbl i (tcDeleted t (sharedGet s tbl i))
      (fail rOk, if t = 1 then setL2Hp s i 0 else s)
    | 3, some i =>
      let hp := if t = 1 then hpGet s false i else if t = 4 then hpGet s true i else 0
      ((rOk, hp % 2 == 1, decide (2 ≤ hp), some (tcShown t c.data (sharedGet s tbl i))), s)
    | 5, some i =>
      if tcCompared t c.cmp = tcCompared t (tcShown t c.data (sharedGet s tbl i)) then
        (fail rOk, tcWrite s t i (tcStored t c.data))
      else (fail rMismatch, s)
    | _, some i => (fail rOk, tcWrite s t i (tcStored t c.data))

/-- One bucket of a FLUSH_PORT: its dynamic entries with the port are deleted (06 R146). -/
def flushBucket (s : State) (b port : Nat) : State :=
  let is := (List.range 4).map (fun k => b * 4 + k)
  let s := (readShared s 0 is).2
  is.foldl (fun s i =>
    let e := sharedGet s 0 i
    if !isQuar s 0 i ∧ sValid e ∧ !sStatic e ∧ l2Port e = port then setL2Hp (sharedPut s 0 i (tcDeleted 1 e)) i 0 else s) s

/-- One owner-6 leg: the command at the head of the shared command queue (06 R145, R148). -/
def commandLeg (s : State) : State :=
  match s.tc.queue with
  | [] => s
  | w :: rest =>
    match (tcWin s w).cmd with
    | none => { s with tc := { s.tc with queue := rest } }
    | some c =>
      let s := ledRun s c.entry
      let pop (s : State) : State := { s with tc := { s.tc with queue := rest } }
      match selectImage s c.other with
      | none => tcFinish (pop s) w rGenRefused false false none
      | some _ =>
        if c.op = 6 then
          if c.target ≠ 1 then tcFinish (pop s) w rNoTable false false none
          else
            let s := flushBucket s c.pos (fld c.index 0 5)
            if c.pos + 1 < 524288 then setTcWin s w { tcWin s w with cmd := some { c with pos := c.pos + 1 } }
            else tcFinish (pop s) w rOk false false none
        else
          let r := sharedCommand s c
          tcFinish (pop r.2) w r.1.1 r.1.2.1 r.1.2.2.1 r.1.2.2.2

/-- The RESULT of a window may be released: R20 holds windows 0–3 (13 R301), and a QUARANTINED entry waits for its place in
order (R311). -/
def tcReleasable (s : State) (w : Nat) (c : TcCmd) : Bool :=
  c.fin.isSome && !ledQuarantined s c.entry && (decide (4 ≤ w) ||
    (match (ledMeta s c.entry).doneBeat with | some b => mayLeave s b | none => true))

/-- TC_COMMAND_COMPLETE: RESULT is written, TC_DONE counts and the unit retires (06 R149). -/
def tcRelease (s : State) (w : Nat) : State :=
  match (tcWin s w).cmd with
  | none => s
  | some c =>
    match c.fin with
    | none => s
    | some (result, hit, pend, data) =>
      if tcReleasable s w c then
        let x := tcWin s w
        let x := { x with
          cmd := none
          result := BitVec.ofNat 8 result
          hit := if c.op = 3 ∧ result = rOk then hit else x.hit
          pend := if c.op = 3 ∧ result = rOk then pend else x.pend
          done := x.done + 1
          data := data.getD x.data }
        ledRetire (count (setTcWin s w x) 0xC080 0x16) c.entry
      else s

end Sys2Proof.Machine
end

