-- ==== Sys2Proof/Machine/ObjFx.lean ====
section
/-!
DEFINITION. What an accepted write of an object of the control cores does when it takes effect (01 R22, 16 R383, R393): the
value is stored, and the block that the object belongs to acts on it.
-/

namespace Sys2Proof.Machine

/-! ## Which way a write goes (16 R393, 03 R60) -/

/-- A run-time parameter of islands 1 to 5 or 27, which goes through the control sequencers: whether as class 0. -/
def seqClass (idx sub : Nat) : Option Bool :=
  if 0x4200 ≤ idx ∧ idx ≤ 0x421F then some (sub == 1)
  else if 0x5200 ≤ idx ∧ idx ≤ 0x5303 then some false
  else if 0x6000 ≤ idx ∧ idx ≤ 0x611F then some false
  else if 0x7000 ≤ idx ∧ idx ≤ 0x7700 ∧ idx ≠ 0x7010 ∧ idx ≠ 0x7011 then
    some ((idx == 0x7100 && sub == 0x14) || (idx == 0x7600 && sub == 0x09))
  else if idx = 0x8100 then some false
  else none

/-- The pipelines a write must reach: that of the port for a port object, else all four. -/
def seqReach (s : State) (idx : Nat) : List Nat :=
  if 0x4200 ≤ idx ∧ idx ≤ 0x421F then
    [match s.tt.cur with | some i => lanePipe i (idx - 0x4200) | none => (idx - 0x4200) / 8]
  else [0, 1, 2, 3]

/-- A write that takes effect at the first beat boundary after its acceptance (01 R22). -/
def atBoundary (idx sub : Nat) : Bool :=
  (seqClass idx sub).isSome || idx == 0x4000 || (decide (0x4100 ≤ idx) && decide (idx ≤ 0x411F)) || idx == 0x5400 ||
    (decide (0x5410 ≤ idx) && decide (idx ≤ 0x541F) && (sub == 1 || sub == 3)) || idx == 0x7010 || idx == 0x8000

/-! ## Effects, block by block -/

/-- admin_state (02 R38): lanes in DISABLED leave it, or the lanes go there once a frame in transmission has been sent (R39).
DESIGN CHOICE: an administrative up that is written while the lanes still wait for that frame leaves the earlier down to
happen, and then takes the lanes out of DISABLED (assumption 205). -/
def adminWrite (s : State) (p v : Nat) : State :=
  let s := objPut s (0x4200 + p) 0x01 0 v
  if v = 1 then (portLanes s p).foldl (fun s n => if (lane s n).state = .disabled then bringUp s n else s) s
  else
    let s := { s with net := { s.net with downs := if s.net.downs.contains p then s.net.downs else s.net.downs ++ [p] } }
    downNow s p

/-- lane_mode or interface_kind: every lane of the block restarts (02 R32). -/
def laneWrite (s : State) (idx sub v : Nat) : State :=
  let ns := blockLanes s (idx - 0x4100)
  raiseLanes (objPut (downLanes s ns) idx sub 0 v) ns

/-- A policer parameter: buckets that have not been touched hold the old bursts when it takes effect (08 R187). -/
def policerWrite (s : State) (sub n v : Nat) : State := objPut (polPut s n (polGet s n)) 0x7600 sub n v

/-- A tenant's sessions close (16 R387). -/
def closeTenants (s : State) (sl : Nat) : State :=
  let own (x : Session) : Bool := x.role == .tenant && x.slice == sl
  let s := (s.uhl.sessions.filter own).foldl boxLeaves s
  { s with uhl := { s.uhl with sessions := s.uhl.sessions.filter (fun x => !own x) } }

/-- The binding that a write of bind_kind puts in force, from link and pasid or vf as they stand (12 R279). -/
def newBinding (s : State) (sl v : Nat) : Option Binding :=
  let link := objGet s 0xB000 0x07 sl
  match v with
  | 0 => none
  | 1 => some ⟨false, link, objGet s 0xB000 0x08 sl⟩
  | _ => some ⟨true, link, objGet s 0xB000 0x09 sl⟩

def setBinding (s : State) (sl v : Nat) : State := setSlice s sl { slice s sl with bound := newBinding s sl v }

/-- bind_kind (12 R279): the binding takes effect, or the slice is unbound; link, pasid and vf have no effect until then. A
binding other than the one in force closes the tenant sessions (16 R387). -/
def bindWrite (s : State) (sl v : Nat) : State :=
  let t := setBinding (objPut s 0xB000 0x06 sl v) sl v
  let s := if (slice s sl).bound = (slice t sl).bound then t else closeTenants t sl
  match (slice s sl).state, v with
  | .disabled, 0 => setSliceState s sl .free
  | .free, 0 => s
  | .free, _ => setSliceState s sl .disabled
  | _, _ => s

/-- clock of a cluster whose island is OFF is kept for its return to ON (19 Table 19-3). -/
def clockWrite (s : State) (c v : Nat) : State :=
  if islandState s (6 + c) = 2 then { s with pwr := { s.pwr with clocks := sput s.pwr.clocks (6 + c) v } }
  else objPut s (0x5410 + c) 0x03 0 v

/-- engine_reset: each bit set resets its engine (07 R169); emptied inboxes take what waits in the cluster (R168). -/
def engineResetWrite (s : State) (c v : Nat) : State :=
  pump (((List.range 8).filter (fun i => v.testBit i)).foldl (fun s i => engineReset s (c * 8 + i)) s) c

/-- The effect of one element's write, for the objects of the control cores outside 0x9000 and 0x5001.03. -/
def coreWrite (s : State) (idx sub el v : Nat) : State :=
  if idx = 0x4000 then raiseLanes (objPut (downLanes s (List.range 32)) idx sub el v) (List.range 32)
  else if 0x4100 ≤ idx ∧ idx ≤ 0x411F ∧ sub ≤ 2 then laneWrite s idx sub v
  else if 0x4200 ≤ idx ∧ idx ≤ 0x421F ∧ sub = 1 then adminWrite s (idx - 0x4200) v
  else if 0x5410 ≤ idx ∧ idx ≤ 0x541F ∧ sub = 3 then clockWrite s (idx - 0x5410) v
  else if 0x5410 ≤ idx ∧ idx ≤ 0x541F ∧ sub = 6 then engineResetWrite s (idx - 0x5410) v
  else if idx = 0x7100 ∧ sub = 0x10 then writeEnable (objPut s idx sub el v) el v
  else if idx = 0x7100 ∧ sub = 0x18 then (if v = 1 then flushQueue s el else s)
  else if idx = 0x7100 ∧ sub = 0x26 then (if v = 1 then obsClear s el else s)
  else if idx = 0x7600 then policerWrite s sub el v
  else if idx = 0x8000 ∧ sub = 2 then enginesEnabled (objPut s 0x8000 0x02 0 v) (objGet s 0x8000 0x02 0)
  else if idx = 0xB000 ∧ sub = 3 then sliceCmd s el v
  else if idx = 0xB000 ∧ sub = 6 then bindWrite s el v
  else objPut s idx sub el v

/-! ## Run-time parameter writes that have executed -/

/-- A parameter write whose sequencers have all executed takes effect, and its entry is DONE (01 R22, 16 R383). -/
def applyParam (s : State) (w : PWrite) : State :=
  let s := w.values.foldl (fun s e => coreWrite s (okeyIdx e.1) (okeySub e.1) (okeyEl e.1) e.2) (ledRun s w.id)
  ledDone s w.id 0 0

/-- The parameter writes that take effect at this beat boundary, in acceptance order. -/
def applyParams (s : State) : State :=
  let ready := s.objs.pend.filter (fun w => w.waits.isEmpty)
  let s := { s with objs := { s.objs with pend := s.objs.pend.filter (fun w => !w.waits.isEmpty) } }
  ready.foldl applyParam s

end Sys2Proof.Machine
end

