-- ==== Sys2Proof/Machine/Pair.lean ====
section
/-!
DEFINITION. Paired operation (14): heartbeats, the state delta at the standby, the Leash, takeover, planned transfer and
hard faults.
-/

namespace Sys2Proof.Machine

/-! ## Planned transfer (14 R340) -/

/-- A write of transfer_go; none: BUSY. A request during a planned transfer has no effect. -/
def transferGo (s : State) : Option State :=
  match s.pair.transfer with
  | .asked _ => some s
  | .final _ _ => some s
  | _ =>
    if s.pair.state == .active && (match s.pair.partner with | some h => h.state == 3 | none => false) then
      some { s with pair := { s.pair with transfer := .asked false } }
    else none

/-- A write of pair_enable; none: BUSY (14 R326). -/
def pairEnableWrite (s : State) (v : Nat) : Option State :=
  let put (s : State) : State := objPut s 0x9000 0x01 0 v
  match s.pair.state with
  | .single =>
    if v = 1 then
      let s := setPairState (fence (put s)) .seeking
      some { s with pair := { s.pair with
        partner := none, cfg := none, stillAll := true, readyStill := 0, silent := false, diffAt := none } }
    else some (put s)
  | .active => if v = 0 then none else some (put s)
  | .standby => if v = 0 then none else some (put s)
  | _ =>
    if v = 0 then
      let s := setPairState (put s) .single
      some { s with pair := { s.pair with lift := true, takeover := none, partner := none, cfg := none } }
    else some (put s)

/-! ## The mirrored state of a standby (14 R319–R322, Table 14-1) -/

/-- A LEDGER record of an entry that was FREE: the unit has been accepted. -/
def mirrorAccept (s : State) (i : Nat) (e : LedEntry) : State :=
  let o := ordFind s e.queue
  let fresh := ordEmpty s e.queue
  let ix := match e.ref with | .host ix _ _ _ => ix | _ => o.nextSq
  let s := ordPut s { o with next := (e.seq + 1) % 2 ^ 32, due := if fresh then e.seq else o.due, nextSq := if fresh then ix else o.nextSq }
  let s := ledMetaSet s i emptyMeta
  let s := match e.kind, e.ref with
    | .host, .host ix pos ph _ =>
      let k := qpKey e.queue
      let d := match s.pair.heldDesc.find? (fun d => d.1 == k && d.2.1 == ix) with | some d => d.2.2 | none => []
      let d := if qpCompat s k then widen d else d
      let s := ledMetaSet s i { emptyMeta with desc := bytesAt d 0 64, compat := qpCompat s k }
      let s := { s with pair := { s.pair with heldDesc := s.pair.heldDesc.filter (fun d => !(d.1 == k && d.2.1 == ix)) } }
      let x := qpGet s k
      qpPut s k { x with
        head := (ix + 1) % qpObj s k 0x03
        pos := (pos + 1) % qpObj s k 0x05
        phase := if pos + 1 = qpObj s k 0x05 then !ph else ph }
    | _, _ => s
  ledPut s i e

/-- The frame of an entry in its queue, with a new mark. -/
def markFrame (s : State) (i q : Nat) (back : Bool) : State :=
  let x := queue s q
  setQueue s q { x with frames := x.frames.map (fun f => if f.entry == some i then { f with released := back } else f) }

/-- The frame of a retired entry leaves its queue and the packet buffer. -/
def dropFrame (s : State) (i q : Nat) : State :=
  let x := queue s q
  let gone := x.frames.filter (fun f => f.entry == some i)
  let s := setQueue s q { x with frames := x.frames.filter (fun f => f.entry != some i) }
  gone.foldl (fun s f => bufRelease s f.handle) s

/-- A LEDGER record that frees an entry: the unit has retired. -/
def mirrorRetire (s : State) (i : Nat) (e : LedEntry) : State :=
  let o := ordFind s e.queue
  let s := ordPut s { o with due := (e.seq + 1) % 2 ^ 32, nextSq := match e.ref with | .host ix _ _ _ => ix + 1 | _ => o.nextSq }
  let s := match e.kind, e.queue, e.ref with
    | .host, _, .host _ pos _ _ =>
      let k := qpKey e.queue
      qpPut s k { qpGet s k with cqTail := (pos + 1) % qpObj s k 0x05, unread := (qpGet s k).unread + 1 }
    | .table, .window w, _ => setTcWin s w { tcWin s w with result := e.detail, refused := false }
    | .frame, .frame q, _ => dropFrame s i q
    | _, _, _ => s
  ledPut (ledMetaSet s i emptyMeta) i { e with state := .free }

/-- A LEDGER record that changes an entry. A frame that goes back to ACCEPTED has been put back and is marked to be sent;
a host item that is DONE has a RESULT that the record does not carry. -/
def mirrorChange (s : State) (i : Nat) (old e : LedEntry) : State :=
  let s := match e.kind, e.queue with
    | .frame, .frame q => markFrame s i q (e.state == .accepted && old.state == .running)
    | .host, _ =>
      let m := { ledMeta s i with worker := none }
      if e.state = .done ∧ old.state ≠ .done then
        let r := draw s
        ledMetaSet r.2 i { m with result := r.1.setWidth 64 }
      else ledMetaSet s i m
    | _, _ => s
  ledPut s i e

/-- A LEDGER record (14 Table 14-1). -/
def mirrorEntry (s : State) (i : Nat) (e : LedEntry) : State :=
  match ledGet s i with
  | none => if e.state = .free then s else mirrorAccept s i e
  | some old => if e.state = .free then mirrorRetire s i e else mirrorChange s i old e

/-- A FRAME record: the frame stands at the tail of its queue, under the handle that the active gave it. -/
def mirrorFrame (s : State) (q h : Nat) (bytes : List Byte) : State :=
  let len := bytes.length + 4
  let entry := (s.led.entries.find? (fun e => e.2.kind == .frame && e.2.queue == .frame q && (match e.2.ref with
    | .frame h' => h' == h | _ => false) &&
    !((queue s q).frames.any (fun f => f.entry == some e.1)))).map (·.1)
  let bufs := match sfind s.shp.bufs h with
    | some b => sput s.shp.bufs h { b with refs := b.refs + 1 }
    | none => sput s.shp.bufs h ⟨len, (bufRoom s len).getD true, 1⟩
  let s := { s with shp := { s.shp with bufs := bufs, nextBuf := max s.shp.nextBuf (h + 1) } }
  let x := queue s q
  setQueue s q { x with frames := x.frames ++ [⟨h, bytes, len, q, now s, false, entry, true⟩] }

/-- A TABLE record: shared tables 0–3, stage words 4, ternary entries 5. -/
def mirrorTable (s : State) (t key v : Nat) : State :=
  if t < 4 then sharedPut s t key v
  else if t = 4 then stgPut s key (BitVec.ofNat 512 v)
  else
    let k := key / 4
    tcamPut s (k / 16384 / 20) (k / 16384 % 20) (k % 16384) (v % 2 ^ 640) (v / 2 ^ 640) (2 ^ (key % 4))

/-- The slice state of a code (12 Table 12-1). -/
def sliceStateOf (n : Nat) : SlState :=
  match n with
  | 1 => .disabled | 2 => .enabled | 3 => .draining | 4 => .freezing | 5 => .frozen | 6 => .restoring | _ => .free

/-- An OBJECT record. The objects of the island and of 0x9000 are each device's own, commands have their effect in records of
their own (DESIGN CHOICE, assumption 275), and a slice that leaves DRAINING has been zeroed (12 R287). -/
def mirrorObject (s : State) (key v : Nat) : State :=
  let idx := okeyIdx key
  let sub := okeySub key
  let el := okeyEl key
  if !coreIndex idx ∨ idx = 0x9000 ∨ (idx = 0x5001 ∧ sub = 3) ∨ (idx = 0xB000 ∧ sub = 3) ∨ (idx = 0xB002 ∧ sub = 7) then s
  else if idx = 0xB000 ∧ sub = 1 then
    let st := sliceStateOf v
    let s := if (slice s el).state = .draining ∧ st ≠ .draining then zeroSlice s el else s
    if (slice s el).state = st then s else setSliceState s el st
  else coreWrite s idx sub el v

/-- A REGISTER record: a doorbell, or 8 bytes of a channel's register block. -/
def mirrorRegister (s : State) (reg v : Nat) : State :=
  if 2 ^ 24 ≤ reg then
    let k := (reg - 2 ^ 24) / 2
    let x := qpGet s k
    let n := qpObj s k 0x05
    qpPut s k (if reg % 2 = 0 then { x with sqTail := v }
      else { x with cqHead := v, unread := x.unread - (v + n - x.cqHead) % n })
  else
    let c := reg / 256
    setChan s c (chanOf (overwrite (chanBytes (chan s c)) (reg % 256) (leBytes 8 v)))

/-- A TIMETABLE record: the standby keeps its own VERIFY and INSTALL. -/
def mirrorTimetable (s : State) (ev beat : Nat) : State :=
  match ev with
  | 3 => if s.tt.state = .installed then
      ttSet s { s.tt with state := .armed, target := if beat = 0 then none else some beat } else s
  | 4 => if s.tt.state = .armed then ttSet s { s.tt with state := .installed, target := none } else s
  | 5 => makeCurrent s
  | _ => s

/-- One record of a logged delta (14 Table 14-1). -/
def mirrorRecord (s : State) : DeltaRec → State
  | .ledger i e => mirrorEntry s i e
  | .descriptor k ix bs => { s with pair := { s.pair with
      heldDesc := s.pair.heldDesc.filter (fun d => !(d.1 == k && d.2.1 == ix)) ++ [(k, ix, bs)] } }
  | .frame q h bs => mirrorFrame s q h bs
  | .table t key v => mirrorTable s t key v
  | .kennel n bs => match s.pair.key.bind (fun key => unsealSlot key bs) with
    | some k => slotWrap (slotUse s n k) n
    | none => s
  | .object key v => mirrorObject s key v
  | .register r v => mirrorRegister s r v
  | .timetable ev b => mirrorTimetable s ev b

def mirrorRecords (s : State) (rs : List DeltaRec) : State := rs.foldl mirrorRecord s

/-- The oldest logged delta is applied (14 R321). -/
def applyLogged (s : State) : State :=
  match s.pair.log with
  | [] => s
  | d :: rest => mirrorRecords { s with pair := { s.pair with log := rest } } d.records

/-- Every logged delta is applied, in beat order. -/
def applyLog (s : State) : State := (List.range s.pair.log.length).foldl (fun s _ => applyLogged s) s

/-- What the bulk copy replaces: work, tables and keys (14 R328). -/
def clearMirror (s : State) : State :=
  { s with
    led := { s.led with entries := [], metas := [], orders := [] }
    shp := { s.shp with
      queues := s.shp.queues.map (fun e => (e.1, { e.2 with frames := [] })), fifos := [], bufs := [] }
    fwd := { resetFwd with lens := s.fwd.lens }
    stg := { s.stg with words := [], tcam := [] }
    ken := { s.ken with slots := [], cached := [], old := [], wraps := [], fills := [], erases := [] }
    pair := { s.pair with heldDesc := [] } }

/-! ## Delta commands -/

/-- DELTA_RECEIVED (14 R321): a whole delta is logged and acknowledged; a damaged or unfinished one is neither. -/
def execDeltaReceived (whole : Bool) (beat : Nat) (records : List DeltaRec) (final : Bool) (s : State) :
    Host.Outcome State Fault Refusal :=
  let open_ := (s.pair.state == .standby || s.pair.state == .syncing) && s.pair.takeover.isNone
  let _ := final
  .next (if whole ∧ open_ then
      emit { s with pair := { s.pair with log := s.pair.log ++ [⟨beat, records, s.clk.beat⟩], ackedIn := beat } } (.deltaAck beat)
    else s)

/-- DELTA_APPLY (14 R321). -/
def execDeltaApply (s : State) : Host.Outcome State Fault Refusal :=
  .next (if s.pair.state = .standby then applyLogged s else s)

/-- SYNC_COMPLETE (14 R328): the bulk copy, then every delta sent during it. -/
def execSyncComplete (records : List DeltaRec) (s : State) : Host.Outcome State Fault Refusal :=
  .next (if s.pair.state = .syncing then
      let s := applyLog (mirrorRecords (clearMirror s) records)
      setPairState { s with pair := { s.pair with sync := 100 } } .standby
    else s)

/-- The final delta of a planned transfer has been acknowledged: the grant goes out (14 R340 step 3). -/
def sendGrant (s : State) (extraction : Bool) : State :=
  let e := ((epochOf s.pair.epoch).getD 0 + 1) % 2 ^ 64
  let s := count (emit s (.grant e)) 0xC200 0x02
  let s := setPairState s .standby
  let s := { s with pair := { s.pair with
    epoch := epochPair e, maxSeen := max s.pair.maxSeen e, transfer := .none, delta := [], sent := [], spill := [] } }
  if extraction then
    match s.isl.extract with
    | .transferring =>
      if s.isl.latch = .opened then
        let s := setExtract s .poweringDown
        { s with isl := { s.isl with waitActive := true } }
      else setExtract s .inService
    | _ => s
  else s

/-- DELTA_ACK_RECEIVED (01 R20, 14 R319): what waited for this delta may leave. -/
def execDeltaAckReceived (beat : Nat) (s : State) : Host.Outcome State Fault Refusal :=
  .next (if recording s ∧ s.pair.sent.any (fun d => d.beat == beat) then
      let s := count { s with pair := { s.pair with
        sent := s.pair.sent.filter (fun d => beat < d.beat), spill := s.pair.spill.filter (fun d => beat < d.2)
        lastAcked := max s.pair.lastAcked beat, heldTo := some (max (s.pair.heldTo.getD 0) beat) } } 0xC200 0x07
      match s.pair.transfer with
      | .final b x => if b ≤ beat then sendGrant s x else s
      | _ => s
    else s)

/-! ## The Leash (14 R329, R330) -/

/-- The decision to take the Leash; the steps of R337 follow with TAKEOVER. -/
def takeLeash (s : State) (granted : Bool) : State :=
  let s := if !granted && s.pair.state == .standby then count s 0xC200 0x01 else s
  { s with pair := { s.pair with takeover := some granted } }

/-- GRANT (14 R340 step 4): takeover under the granted epoch. -/
def execGrant (epoch : BitVec 64) (s : State) : Host.Outcome State Fault Refusal :=
  .next (if s.pair.state = .standby then
      takeLeash { s with pair := { s.pair with
        epoch := epochPair epoch.toNat, maxSeen := max s.pair.maxSeen epoch.toNat } } true
    else s)

/-- Slots of some seconds. -/
def secondSlots (n : Nat) : Nat := n * 1250000000

/-- START_WAIT_EXPIRY (14 R327): no heartbeat has been heard for start_wait, in SEEKING or since the last one. -/
def execStartWaitExpiry (s : State) : Host.Outcome State Fault Refusal :=
  let wait := secondSlots (objGet s 0x9000 0x06 0)
  .next (if s.pair.state = .seeking ∧ mainOn s ∧ s.pair.seekAt + wait ≤ now s ∧
      (s.pair.partner.isNone ∨ s.pair.lastHb + wait ≤ now s) ∧
      (s.pair.stillAll ∨ wait ≤ 4096 * s.pair.readyStill ∨ objOn s 0x9000 0x07 0) then
      takeLeash s false
    else s)

/-- hold_down has run without a break (14 R340). -/
def holdDownOver (s : State) : Bool :=
  match s.pair.holdDown with | some t => decide (t + secondSlots (objGet s 0x9000 0x04 0) ≤ now s) | none => false

/-- HOLD_DOWN_EXPIRY (14 R340): return to the preferred device. -/
def execHoldDownExpiry (s : State) : Host.Outcome State Fault Refusal :=
  .next (if s.pair.state = .active ∧ holdDownOver s then (transferGo s).getD s else s)

/-! ## Takeover (14 R337, Table 14-5) -/

/-- Step 3 for a host item. -/
def settleHost (s : State) (i : Nat) (e : LedEntry) : State :=
  let draining := !e.infra && (slice s e.slice).state == .draining
  match e.state with
  | .done => count (ledMetaSet s i { ledMeta s i with doneBeat := none, worker := none }) 0xC200 0x0D
  | .quarantined => s
  | .free => s
  | _ =>
    if draining then (if e.state = .running then ledPut s i { e with state := .stopping } else s)
    else if e.restart ∧ e.attempt < 3 then
      ledPut (count s 0xC040 0x15) i { e with state := .accepted, attempt := e.attempt + 1 }
    else hostDone (count s 0xC040 0x16) i 1 0x60 0

/-- A table command that is executed again: no record carries what its registers held, so its operands are free values
(assumption 113). It goes the way of every command of its window (06 R145, R148). -/
def repeatCommand (s : State) (w i : Nat) : State :=
  let a := draw s
  let b := draw a.2
  let c := draw b.2
  let n := a.1.toNat
  let cmd : TcCmd :=
    { op := 1 + n % 6, target := n / 8 % 5, other := a.1.getLsbD 8, table := n / 2 ^ 16 % 2 ^ 16,
      index := (BitVec.ofNat _ (n / 2 ^ 32)), data := b.1.setWidth 2048, cmp := c.1.setWidth 2048, entry := i,
      res := List.replicate 4 none, pos := 0, fin := none }
  let s := setTcWin c.2 w { tcWin s w with cmd := some cmd }
  if cmd.target = 0 then ctlPush s (.table w) else { s with tc := { s.tc with queue := s.tc.queue ++ [w] } }

/-- A Kennel request that is executed again, with free operands as well (assumption 113). -/
def repeatRequest (s : State) (issuer i : Nat) (e : LedEntry) : State :=
  let a := draw s
  let s := a.2
  { s with ken := { s.ken with queue := s.ken.queue ++
      [⟨a.1, issuer, if e.infra then none else some e.slice, 0, none, i, false, []⟩] } }

/-- Step 3 for a unit of kinds 2 to 4: a recorded result stands. An object write's effect record is written with its
acceptance, so it completes OK (16 R383). A unit without one is executed again (Table 14-5). -/
def settleCommand (s : State) (i : Nat) (e : LedEntry) : State :=
  if e.state = .quarantined then s
  else if e.state ≠ .done then
    match e.queue with
    | .session _ _ => retireRun (ledDone s i 0 0) e.queue
    | .window w => repeatCommand s w i
    | .kennel j => repeatRequest s j i e
    | _ => s
  else
    match e.queue with
    | .window w => retireRun (setTcWin s w { tcWin s w with cmd := none, refused := false, result := e.detail }) e.queue
    | _ => retireRun s e.queue

/-- Step 3 for a protected frame of an unplanned takeover: in doubt, unless it was put back. -/
def settleFrame (s : State) (i : Nat) (e : LedEntry) : State :=
  match e.queue with
  | .frame q =>
    let marked := (queue s q).frames.any (fun f => f.entry == some i && f.released)
    if marked then s
    else
      let s := dropFrame (countAt (count s 0xC200 0x0B) 0xC0B1 0x05 q) i q
      retireRun (ledDone s i 1 0) (.frame q)
  | _ => s

/-- Step 3: every unit that is not FREE is settled. -/
def settleUnits (s : State) (planned : Bool) : State :=
  s.led.entries.foldl (fun s p => match p.2.kind with
    | .host => settleHost s p.1 p.2
    | .frame => if planned then s else settleFrame s p.1 p.2
    | _ => settleCommand s p.1 p.2) s

/-- Every queued protected frame may leave. -/
def freeFrames (s : State) : State :=
  { s with shp := { s.shp with
      queues := s.shp.queues.map (fun e => (e.1, { e.2 with frames := e.2.frames.map (fun f => { f with released := true }) })) } }

/-- Slices in DRAINING restart their reset sequence (12 R287). -/
def restartResets (s : State) : State :=
  s.slc.sl.foldl (fun s e => if e.2.state = .draining then
    revoke (setSlice s e.1 { e.2 with zeroed := false, since := now s }) e.1 else s) s

/-- The descriptors held without acceptance, in ring order from the fetch head, await their write-back (14 R322). -/
def heldRun (s : State) (k : Nat) : Nat → Nat → List Byte
  | _, 0 => []
  | ix, n + 1 =>
    match s.pair.heldDesc.find? (fun d => d.1 == k && d.2.1 == ix) with
    | some d => d.2.2 ++ heldRun s k ((ix + 1) % qpObj s k 0x03) n
    | none => []

def settleDescriptors (s : State) : State :=
  let ks := (s.pair.heldDesc.map (·.1)).eraseDups
  let t := ks.foldl (fun t k =>
    let x := qpGet s k
    let n := qpObj s k 0x03
    let bs := heldRun s k x.head (min 32 (n - x.head))
    let esz := if qpCompat s k then 32 else 64
    if bs.isEmpty then t else qpPut t k { x with asked := bs.length / esz, got := some bs, gotBeat := 0 }) s
  { t with pair := { t.pair with heldDesc := [] } }

/-- Step 4: HIT 1 and PEND 0 on every dynamic entry, and a fresh aging pass at the next boundary (06 R142); the schedule of
R144 does not move. -/
def freshAging (s : State) : State :=
  let l2 := (s.fwd.l2.filter (fun e => sValid e.2.toNat && !sStatic e.2.toNat)).map (·.1)
  let flow := (s.fwd.flow.filter (fun e => sValid e.2.toNat && !sStatic e.2.toNat)).map (·.1)
  let s := l2.foldl (fun s i => hpPut s false i 1) s
  let s := flow.foldl (fun s i => hpPut s true i 1) s
  { s with fwd := { s.fwd with
      l2sweep := { resetSweep with late := true, nextAt := s.fwd.l2sweep.nextAt },
      flowSweep := { resetSweep with late := true, nextAt := s.fwd.flowSweep.nextAt } } }

/-- Step 5: buckets and deficits at 0, policers full (08 R188). -/
def freshBuckets (s : State) : State := { s with shp := { s.shp with nodes := [], pols := [] } }

/-- Step 6: the takeover vector of every PF0 and each enabled queue-pair vector, once. -/
def takeoverVectors (s : State) : State :=
  let links := (List.range 4).filter (fun k => (linkGet s k).state != 0)
  let s := links.foldl (fun s k => raiseVector s k 0 (Config.takeoverVector % 2048)) s
  let qps := ((s.objs.vals.filter (fun e => okeyIdx e.1 == 0xB100 && okeySub e.1 == 0x01)).map (fun e => okeyEl e.1)).filter
    (qpEnabled s)
  qps.foldl (fun s k => let f := qpFn s k; raiseVector s f.1 f.2 (qpObj s k 0x07)) s

/-- An armed image whose ARM record is held is made current at the first beat boundary (14 Table 14-5). -/
def armNow (s : State) : State :=
  if s.tt.state = .armed then ttSet s { s.tt with target := none } else s

/-- The steps of R337. A device that leaves SEEKING holds no mirrored work. -/
def takeOver (s : State) (planned : Bool) : State :=
  let s := applyLog s
  let e := if planned then (epochOf s.pair.epoch).getD 0
    else (max s.pair.maxSeen ((epochOf s.pair.epoch).getD 0) + 1) % 2 ^ 64
  let s := { s with pair := { s.pair with epoch := epochPair e, persisted := e, maxSeen := max s.pair.maxSeen e } }
  let s := event s 0x0502 32 e
  let s := freeFrames (settleUnits (restartResets s) planned)
  let s := freshBuckets (freshAging (armNow (settleDescriptors s)))
  let s := setPairState (takeoverVectors s) .active
  { s with pair := { s.pair with
      takeover := none, lift := true, delta := [], sent := [], spill := [], heldTo := none, transfer := .none,
      partner := if planned then s.pair.partner else none } }

/-- TAKEOVER (14 R337). -/
def execTakeover (s : State) : Host.Outcome State Fault Refusal :=
  .next (match s.pair.takeover with
    | some planned => takeOver s planned
    | none => s)

/-! ## Hard faults (14 R334, R335) -/

/-- A cause and detail that Table 14-9 lists: the detail is 0 for causes 3, 4 and 7 and a failed island for cause 5. -/
def hardCause (c detail : Nat) : Bool :=
  decide (1 ≤ c ∧ c ≤ 10) && !((c == 3 || c == 4 || c == 7) && detail != 0) &&
    !(c == 5 && detail != 28 && detail != 32 && detail != 33)

/-- HARD_FAULT with a cause of Table 14-9; the codes outside it are never produced. A fatal health bit found by the scan
patterns latches SCAN, and the detail of that cause is the health word. -/
def execHardFault (cause : BitVec 8) (detail : BitVec 32) (s : State) : Host.Outcome State Fault Refusal :=
  let c := cause.toNat
  .next (if !hardCause c detail.toNat then s
    else if c = 6 then
      let s := { s with pair := { s.pair with latched := s.pair.latched ||| 1 } }
      hardFault s 6 (healthWord s).toNat
    else hardFault s c detail.toNat)

/-- EYE_MARGIN_LOW (14 R325, Table 14-2): bits 0 to 3 are the network lane groups, 4 the pair link; other codes are never
produced. -/
def execEyeMarginLow (bit : BitVec 3) (s : State) : Host.Outcome State Fault Refusal :=
  .next (if bit.toNat ≤ 4 then { s with pair := { s.pair with latched := s.pair.latched ||| BitVec.ofNat 32 (2 ^ (3 + bit.toNat)) } }
    else s)

/-- PAIR_HF_IN_TAKEOVER (14 R331, R334). -/
def execPairHfInTakeover (s : State) : Host.Outcome State Fault Refusal :=
  .next (match s.pair.state with
    | .standby =>
      let s := { s with pair := { s.pair with hfIn := true } }
      if s.pair.takeover.isSome then s else takeLeash s false
    | .active => { s with pair := { s.pair with hfIn := true } }
    | _ => s)

/-! ## The pair link (14 R317, R323) -/

/-- PAIR_LINK_DOWN: the link retrains at once, on the presets that are then effective (18 Table 18-6). -/
def execPairLinkDown (s : State) : Host.Outcome State Fault Refusal :=
  .next (if s.pair.link = 2 then event { takeCalib s 1 (List.range 8) with pair := { s.pair with link := 1 } } 0x0303 32 (1 * 2 ^ 8) else s)

/-- The pair key that this device's ephemeral scalar and the partner's part give, once the partner's signature is good. -/
def pairKeyOf (d : Nat) (hello : PairHello) : Option (List Byte) :=
  if ecdsaVerify hello.identity hello.signature (sha256 hello.ephemeral) then
    (ecdh d hello.ephemeral).map (fun z => digestBytes (Config.pairKdf z))
  else none

/-- A new pair key is agreed: each device signs its ephemeral key with its identity key and checks the other's. In
identity_state 3 the device signs nothing, and no key is agreed (14 R323, 15 R363). DESIGN CHOICE (assumption 277): what the
signature covers, and that a pair whose agreement fails goes on without KENNEL records. -/
def agreeKey (s : State) (hello : PairHello) : State :=
  let d := ecScalar (Config.drbg (2 ^ 69 + s.pair.keyNo))
  let s := { s with pair := { s.pair with keyNo := s.pair.keyNo + 1, key := none } }
  if identityState s = 3 then s
  else
    let mine := ecPublic d
    let r := signDigest s (sha256 mine)
    emit { r.2 with pair := { r.2.pair with key := pairKeyOf d hello } } (.pairHello ⟨identityKey, mine, r.1⟩)

/-- PAIR_LINK_UP: a new pair key is agreed, and the two configurations are compared. -/
def execPairLinkUp (cfg : PartnerCfg) (s : State) (hello : PairHello := ⟨[], [], []⟩) : Host.Outcome State Fault Refusal :=
  .next (if mainOn s ∧ s.pair.link ≠ 2 then
      let s := agreeKey s hello
      event { s with pair := { s.pair with link := 2, cfg := some cfg } } 0x0303 32 (2 * 2 ^ 8)
    else s)

end Sys2Proof.Machine
end

