-- ==== Sys2Proof/Machine/Panel.lean ====
section
/-!
DEFINITION. The person at the front panel (18): buttons, the ejector latch and extraction; optical cages; the management
link; and the store of the user calibration set.
-/

namespace Sys2Proof.Machine

/-! ## Extraction (18 R417, R418) -/

/-- Extraction asks for the main power-down; refused with BUSY it ends in REFUSED. -/
def extractionDown (s : State) : State :=
  let s := setExtract s .poweringDown
  let s := { s with isl := { s.isl with holdReady := s.pair.state == .standby } }
  match powerDownRequest s true with
  | none => setExtract { s with isl := { s.isl with holdReady := false } } .refused
  | some s => match s.pwr.phase with
    | .off => railsOff s
    | _ => s

/-- The partner is STANDBY with no fatal health bit. -/
def partnerReady (s : State) : Bool :=
  match s.pair.partner with | some h => h.state == 3 && !fatalHealth h.health | none => false

/-- The planned transfer of an extraction; one that runs already serves it. -/
def extractionTransfer (s : State) : State :=
  let t : Transfer := match s.pair.transfer with
    | .final b _ => .final b true
    | _ => .asked true
  setExtract { s with pair := { s.pair with transfer := t } } .transferring

/-- REQUESTED is entered and left in the same millisecond (18 Table 18-3). -/
def extractionRequested (s : State) : State :=
  let s := setExtract s .requested
  match s.pair.state with
  | .active => if partnerReady s then extractionTransfer s else setExtract s .refused
  | _ => extractionDown s

/-- The latch is closed, or counts as closed. -/
def latchShut (s : State) : State :=
  match s.isl.extract with
  | .safe => let s := setExtract s .inService; (startUp s).getD s
  | .refused => setExtract s .inService
  | .transferring => match s.pair.transfer with
    | .none => setExtract s .inService
    | _ => s
  | _ => s

def setLatch (s : State) (l : Latch) : State := { s with isl := { s.isl with latch := l } }

/-- LATCH_OPEN (18 R413, R415, R417). -/
def execLatchOpen (s : State) : Host.Outcome State Fault Refusal :=
  .next (if s.isl.latch = .opened then s
    else
      let s := count (setLatch s .opened) 0xC230 0x01
      match s.isl.extract with
      | .inService => extractionRequested s
      | _ => s)

/-- LATCH_CLOSE (18 R417). -/
def execLatchClose (s : State) : Host.Outcome State Fault Refusal :=
  .next (match s.isl.latch with
    | .closed => s
    | .fault => setLatch s .closed
    | .opened => latchShut (setLatch s .closed))

/-- LATCH_FAULT (18 R415): treated as closed. -/
def execLatchFault (s : State) : Host.Outcome State Fault Refusal :=
  let raise (s : State) : State := event (count (setLatch s .fault) 0xC230 0x06) 0x0803 0 2
  .next (match s.isl.latch with
    | .fault => s
    | .closed => raise s
    | .opened => latchShut (raise s))

/-! ## The attention button (18 R414) -/

/-- SHORT_PRESS: in REFUSED with the latch open it retries the extraction. -/
def execShortPress (s : State) : Host.Outcome State Fault Refusal :=
  let t := event (count s 0xC230 0x02) 0x0801 0 (extractCode s.isl.extract)
  .next (if s.isl.extract = .refused ∧ s.isl.latch = .opened then extractionRequested t else t)

/-- LONG_PRESS: a write of 1 to transfer_go. -/
def execLongPress (s : State) : Host.Outcome State Fault Refusal :=
  let t := event (count s 0xC230 0x03) 0x0802 0 (extractCode s.isl.extract)
  .next ((transferGo t).getD t)

/-! ## Optical cages (18 R419–R421) -/

/-- C2M lanes that a cage names. -/
def cageC2m (s : State) (c : Nat) : List Nat :=
  (List.range 32).filter (fun n => (objGet s 0x2220 0x01 c).testBit n && laneKind s n == 2)

/-- The module of a cage has become present: its waiting lanes go on (02 R38). -/
def cageLanesUp (s : State) (c : Nat) : State :=
  (cageC2m s c).foldl (fun s n => if (lane s n).state = .noMedia then bringUp s n else s) s

/-- The module is no longer present: its lanes wait for media (02 R38). A removal moves every lane but those in FAULT, those
in DISABLED too. -/
def cageLanesDown (s : State) (c : Nat) (removed : Bool) : State :=
  (cageC2m s c).foldl (fun s n => match (lane s n).state with
    | .disabled => if removed then setLane s n ⟨.noMedia, 0, 0⟩ else s
    | .fault => s
    | .noMedia => s
    | _ => setLane s n ⟨.noMedia, 0, 0⟩) s

/-- A new cage_lanes value counts: lanes whose presence it changes follow. -/
def cageLanesApply (s : State) (c v : Nat) : State :=
  let before := s
  let s := objPut s 0x2220 0x01 c v
  let touched := (List.range 32).filter (fun n => laneKind s n == 2 && modulePresent before n != modulePresent s n)
  touched.foldl (fun s n => match (lane s n).state with
    | .disabled => s
    | .fault => s
    | .noMedia => if modulePresent s n then bringUp s n else s
    | _ => if modulePresent s n then s else setLane s n ⟨.noMedia, 0, 0⟩) s

/-- A write of cage_lanes: at once in EMPTY, else at the next EMPTY (18 R421). -/
def cageLanesWrite (s : State) (c v : Nat) : State :=
  if (cage s c).state = .empty then cageLanesApply s c v
  else { s with isl := { s.isl with cages := lset s.isl.cages c { cage s c with lanes := some v } } }

/-- CAGE_INSERTED (18 R420): the module waits in INSERTED, and with the main domain on its advertised power decides. -/
def execCageInserted (cage : BitVec 4) (advertisedMw : Nat) (s : State) : Host.Outcome State Fault Refusal :=
  let c := cage.toNat
  .next (if (Sys2Proof.Machine.cage s c).state = .empty then
      let x := Sys2Proof.Machine.cage s c
      let s := { s with isl := { s.isl with cages := lset s.isl.cages c { x with power := advertisedMw } } }
      releaseModule (count (setCage s c .inserted) 0xC230 0x07) c
    else s)

/-- MODULE_READY (18 R420). -/
def execModuleReady (cage : BitVec 4) (s : State) : Host.Outcome State Fault Refusal :=
  let c := cage.toNat
  .next (if (Sys2Proof.Machine.cage s c).state = .initialising then cageLanesUp (setCage s c .ready) c else s)

/-- MODULE_FAULT (18 R420). -/
def execModuleFault (cage : BitVec 4) (s : State) : Host.Outcome State Fault Refusal :=
  let c := cage.toNat
  .next (if (Sys2Proof.Machine.cage s c).state = .ready then cageLanesDown (setCage s c .fault) c false else s)

/-- CAGE_INIT_TIMEOUT (18 R420). -/
def execCageInitTimeout (cage : BitVec 4) (s : State) : Host.Outcome State Fault Refusal :=
  let c := cage.toNat
  .next (if (Sys2Proof.Machine.cage s c).state = .initialising then setCage (count s 0xC230 0x09) c .fault else s)

/-- MODULE_REMOVAL (18 R421): the cage is EMPTY, its C2M lanes wait for media, and a cage_lanes value that waited counts. -/
def execModuleRemoval (cage : BitVec 4) (s : State) : Host.Outcome State Fault Refusal :=
  let c := cage.toNat
  let x := Sys2Proof.Machine.cage s c
  .next (if x.state = .empty then s
    else
      let s := cageLanesDown (setCage (count s 0xC230 0x08) c .empty) c true
      let s := { s with isl := { s.isl with cages := lset s.isl.cages c ⟨.empty, 0, none⟩ } }
      match x.lanes with
      | some v => cageLanesApply s c v
      | none => s)

/-! ## The management link (18 R409, R411) -/

/-- island_power_limited, 0x2200.02 (18 R409). -/
def powerLimited : Bool := decide (Config.podlClass.toNat ≤ 10)

/-- T1L_LINK_UP: at the negotiated amplitude, or at the forced one; a limited island forces 1.0 Vpp. -/
def execT1lLinkUp (amplitude : BitVec 1) (s : State) : Host.Outcome State Fault Refusal :=
  let forced := objGet s 0x2200 0x03 0
  let low := powerLimited || (if forced = 0 then amplitude == 1 else forced == 2)
  .next { s with isl := { s.isl with t1l := if low then 3 else 2 } }

/-- T1L_LINK_DOWN: no session closes. -/
def execT1lLinkDown (s : State) : Host.Outcome State Fault Refusal :=
  .next (if 2 ≤ s.isl.t1l then count { s with isl := { s.isl with t1l := 0 } } 0xC230 0x0B else s)

/-! ## The user calibration set (18 R423–R426) -/

/-- The user set is stored, with its sequence plus 1, over the copy not in effect, which then counts. 8 is BUSY: a copy
pass of stage 1 holds WP# low, or the store fails for want of the region and counts (18 R426). -/
def calibWrite (s : State) (key v : Nat) : State × Nat :=
  if passRuns s then (s, 8)
  else
    let t := objPutKey s key v
    let target := if s.isl.calib = 0 then 1 else 0
    let seq := (s.isl.calibSeq + 1) % 2 ^ 32
    match calibPlace s target with
    | none => (count s 0xC230 0x0D, 8)
    | some a =>
      let t := norWrite (norEraseRange t a 4096) a (calibRecord t seq)
      (count { t with isl := { t.isl with calibSeq := seq, calib := target } } 0xC230 0x0C, 0)

/-- calib_clamped, 0x2260.03. -/
def calibClamped (s : State) : Nat :=
  bitsOf ((List.range 6).filter (fun k => (List.range (calibObj k).2.2.1).any (fun e => calibValue s k e != calibSum s k e)))

/-- Stage 1 reads both copies (18 R425): of those that qualify the one with the higher sequence counts; with none, the
objects read their defaults. -/
def calibRead (s : State) : State :=
  let pick : Option (Nat × Nat × List Byte) := match calibCopy s 0, calibCopy s 1 with
    | some a, some b => if a.1 < b.1 then some (1, b) else some (0, a)
    | some a, none => some (0, a)
    | none, some b => some (1, b)
    | none, none => none
  let rest := s.objs.vals.filter (fun e => !calibObject (okeyIdx e.1) (okeySub e.1))
  let s := { s with objs := { s.objs with vals := rest } }
  match pick with
  | some (k, seq, bs) =>
    let s := { s with isl := { s.isl with calib := k, calibSeq := seq } }
    (calibVals bs).foldl (fun s e => objPutKey s e.1 e.2) s
  | none => event { s with isl := { s.isl with calib := 2, calibSeq := 0 } } 0x0404 0 0

end Sys2Proof.Machine
end

