-- ==== Sys2Proof/Machine/Boot.lean ====
section
/-!
DEFINITION. Boot (15): the NOR directory and slots, Whelp, stage 1, trial boot, image writes, the security floor, the
measurements and the challenge; the resets of the island and of the main domain; and the fault log in NOR (20).
-/

namespace Sys2Proof.Machine

/-! ## Slots (15 R347, R349, R352, R353) -/

/-- The region of slot 0–5: loader A, B, firmware A, B, timetable A, B. -/
def slotRegion (s : State) (i : Nat) : NorRegion := (norRegion s (i + 1)).getD ⟨i + 1, 0, 0⟩

/-- The image type of a slot: 1 loader, 2 firmware, 3 timetable. -/
def slotType (i : Nat) : Nat := i / 2 + 1

def blockOk (s : State) (r : NorRegion) (k : Nat) : Bool :=
  let bs := norRead s (r.off + 4096 * k) 4096
  (crc32c (bs.take 4092)).toNat == leNat (bs.drop 4092)

/-- The byte stream of the first `n` blocks of a slot. -/
def slotStream (s : State) (r : NorRegion) (n : Nat) : List Byte :=
  (List.range n).flatMap (fun k => norRead s (r.off + 4096 * k) 4092)

/-- The manifest as the slot's first block holds it. -/
def slotManifest (s : State) (i : Nat) : List Byte := norRead s (slotRegion s i).off 512

/-- Image bytes that fit the target memory of a type: 512 KiB of island SRAM, the 16 GiB control-core region from
load_offset on (07 "The control-core complex"), or HBM. -/
def targetRoom (ty load : Nat) : Nat :=
  if ty = 1 then 524288 else if ty = 2 then 17179869184 - load else hbmSize

/-- The checks of Table 15-4 on a slot: the first failing reason, or the manifest and the image. -/
def readSlot (s : State) (i : Nat) : Nat ⊕ (List Byte × List Byte) :=
  let r := slotRegion s i
  let blocks := r.size / 4096
  if blocks = 0 then .inl 3
  else if !blockOk s r 0 then .inl 1
  else
    let len := mfLength (slotManifest s i)
    let n := min ((512 + len + 4091) / 4092) blocks
    if !(List.range n).all (blockOk s r) then .inl 1
    else
      let st := slotStream s r n
      let m := st.take 512
      let image := (st.drop 512).take len
      match manifestFault s m image (slotType i) (min (blocks * 4092 - 512) (targetRoom (slotType i) (mfNat m 0x018 8))) with
      | some reason => .inl reason
      | none => .inr (m, image)

def slotState (s : State) (i : Nat) : Nat := s.boot.slots.getD i 0

/-- A slot takes a state, and the record follows (15 R353). -/
def setSlot (s : State) (i st : Nat) : State :=
  writeRecord { s with boot := { s.boot with slots := lset s.boot.slots i st } }

/-- Neither EMPTY nor REJECTED. -/
def slotEligible (s : State) (i : Nat) : Bool := decide (1 ≤ slotState s i) && decide (slotState s i ≤ 3)

/-- (security_version, build_sequence) as one number. -/
def slotPair (s : State) (i : Nat) : Nat := mfSecurity (slotManifest s i) * 2 ^ 32 + mfBuild (slotManifest s i)

/-- The eligible slots of a type, in the order in which they are tried (15 R352). -/
def slotOrder (s : State) (ty : Nat) : List Nat :=
  let a := 2 * (ty - 1)
  let b := a + 1
  match slotEligible s a, slotEligible s b with
  | true, true =>
    let first :=
      if slotPair s a ≠ slotPair s b then decide (slotPair s b < slotPair s a)
      else if (slotState s a == 3) ≠ (slotState s b == 3) then slotState s a == 3
      else true
    if first then [a, b] else [b, a]
  | true, false => [a]
  | false, true => [b]
  | false, false => []

/-- A slot is checked: slot_reason and slot_version follow. -/
def noteSlot (s : State) (i : Nat) : State :=
  let reason := match readSlot s i with | .inl r => r | .inr _ => 0
  { s with boot := { s.boot with
      reasons := lset s.boot.reasons i reason, versions := lset s.boot.versions i (slotPair s i) } }

/-- The first slot of a list that passes; every slot tried is noted. -/
def trySlots (s : State) : List Nat → State × Option (Nat × List Byte × List Byte)
  | [] => (s, none)
  | i :: rest =>
    let t := noteSlot s i
    match readSlot s i with
    | .inr (m, image) => (t, some (i, m, image))
    | .inl _ => trySlots t rest

def anyTrial (s : State) : Bool := (List.range 6).any (fun i => slotState s i == 2)

/-- Slots found in TRIAL are rejected (15 R360). With none left in TRIAL the timer is disarmed (DESIGN CHOICE, assumption
244). -/
def rejectTrials (s : State) (is : List Nat) : State :=
  let s := is.foldl (fun s i => if slotState s i = 2 then setSlot s i 4 else s) s
  if anyTrial s then s else { s with boot := { s.boot with trial := none } }

/-- A chosen slot is started: UNCONFIRMED becomes TRIAL, running_slot and the manifest follow. -/
def startSlot (s : State) (i : Nat) (m : List Byte) : State :=
  let s := if slotState s i = 1 then setSlot s i 2 else s
  let bit : BitVec 3 := BitVec.ofNat 3 (2 ^ (slotType i - 1))
  { s with boot := { s.boot with
      running := if i % 2 = 1 then s.boot.running ||| bit else s.boot.running &&& ~~~bit
      manifests := lset s.boot.manifests (slotType i - 1) (some m) } }

/-- The trial timer is armed for trial_window (15 R360, R361). -/
def armTrial (s : State) : State :=
  { s with boot := { s.boot with
      trial := some (islandUs s, objGet s 0x2010 0x02 0 * 1000000, slotState s 0 == 2 || slotState s 1 == 2) } }

def bootCode (s : State) (c : Nat) : State := { s with boot := { s.boot with code := BitVec.ofNat 4 c } }

/-! ## Whelp (15 R356, R357) -/

/-- The code of a slot reason (15 Table 15-6). -/
def haltCode (reason : Nat) : Nat :=
  match reason with
  | 1 => 0x8 | 2 => 0x9 | 3 => 0x9 | 4 => 0xA | 5 => 0xA | 6 => 0xA | _ => 0xE

/-- Whelp halts; both reasons go to the fault log. -/
def whelpHalt (s : State) (code a b : Nat) : State :=
  event { s with boot := { s.boot with stage := .halted, code := BitVec.ofNat 4 code } } 0x0401 0 (a + b * 2 ^ 8)

/-- Stage 1 is entered at the handover: the certificates (R364) and the calibration copies are read, island 0 takes its trim, and the main power-up
begins (15 R358, 18 R425, Table 18-6). -/
def enterStage1 (s : State) : State :=
  let s := takeCalib (calibRead (readChain (toStage1 s))) 4 [0]
  (startUp s).getD s

/-- Whelp's steps. The loader that passes is copied into island SRAM and locked there (15 R354). -/
def whelp (s : State) : State :=
  let s := { s with boot := { s.boot with stage := .whelp, code := 1 } }
  if Config.sramFault s.dbg.nonce then whelpHalt s 0xD 0 0
  else if Config.fuseFault s.dbg.nonce then whelpHalt s 0xC 0 0
  else
  let s := completeBanks s
  if Config.norSilent s.dbg.nonce then whelpHalt s 0xB 0 0
  else match norDirectory s with
  | none => whelpHalt s 0xB 0 0
  | some _ =>
    let s := rejectTrials (readRecord s) [0, 1]
    let order := slotOrder s 1
    match trySlots s order with
    | (s, some (i, m, image)) =>
      let fresh := slotState s i == 1
      let s := startSlot s i m
      let s := { s with boot := { s.boot with loader := some image } }
      enterStage1 (if fresh then armTrial s else s)
    | (s, none) =>
      let a := s.boot.reasons.getD 0 0
      let b := s.boot.reasons.getD 1 0
      let reason := if order.contains 0 then a else if order.contains 1 then b else 7
      whelpHalt s (haltCode reason) a b

/-! ## Resets (15 R344, 16 R374) -/

/-- What the island loses at an island reset, and at the loss of its supplies; the level outputs of GPIO and fans fall only
with the latter (18 R422). At power-on the newest block of the fault log gives the counts that go on (20 R462). -/
def islandVolatile (s : State) (powerOn : Bool) : State :=
  let s := burnEnds s
  let m := mainReset s false
  let blk := newestBlock s
  let pins (k : Nat) : Bool := !powerOn &&
    ((okeyIdx k == 0x2230 && okeySub k ≤ 2) || (okeyIdx k == 0x2240 && okeySub k == 1))
  let keep := s.objs.vals.filter (fun e => e.1 == okey 0x2010 0x02 0 || pins e.1)
  { m with
    clk := { m.clk with islBase := if powerOn then 0 else m.clk.islBase }
    objs := { vals := keep, pend := [],
              ctr := if powerOn then
                  sset 0 [] (okey 0xC220 0x08 0) (match blk with | some b => blockTjHours b.2 | none => 0)
                else m.objs.ctr }
    logs := { m.logs with
      newest := if powerOn then (match blk with | some b => blockNewest b.2 | none => 0) else m.logs.newest
      events := if powerOn then [] else m.logs.events
      pending := if powerOn then [] else m.logs.pending
      folded := if powerOn then [] else m.logs.folded
      seq := if powerOn then blk.map (·.1) else m.logs.seq
      faultNewest := if powerOn then (match blk with | some b => blockNewest b.2 | none => 0) else m.logs.faultNewest
      power := if powerOn then (match blk with | some b => (blockPower b.2 + 1) % 2 ^ 32 | none => 0) else m.logs.power
      snap := [], snapBeat := 0, frozen := none }
    uhl := { State.reset.uhl with nextNum := s.uhl.nextNum }
    isl := { resetIsl with supply := s.isl.supply }
    pwr := { resetPwr with phase := .off, en := 0, good := 0 }
    dbg := { resetDbg with nonce := s.dbg.nonce + 1 }
    boot := { resetBoot with
      nor := s.boot.nor, slots := s.boot.slots, banks := s.boot.banks, revoked := s.boot.revoked, signed := s.boot.signed
      puf := if powerOn then Config.pufFault (s.dbg.nonce + 1) else s.boot.puf
      stage := .whelp, code := 1 } }

/-- ISLAND_POWER_ON_RESET (15 R356). -/
def execIslandPowerOnReset (s : State) : Host.Outcome State Fault Refusal :=
  let s := islandVolatile s true
  .next (whelp { s with isl := { s.isl with supply := 2 } })

/-- The reset of the island and the main domain together (15 R344, R360). -/
def islandReset (s : State) : State := whelp (islandVolatile s false)

def execIslandReset (s : State) : Host.Outcome State Fault Refusal := .next (islandReset s)

/-- ISLAND_SUPPLY_LOSS (18 R408): the enables fall, and the whole device is lost. -/
def execIslandSupplyLoss (s : State) : Host.Outcome State Fault Refusal :=
  let s := islandVolatile s true
  .next { s with isl := { s.isl with supply := 0 }, boot := { s.boot with code := 0 } }

/-- A main-domain reset: stage 1 runs again from its locked copy (15 R344). -/
def mainDomainReset (s : State) : State :=
  if mainOn s ∧ loaderRuns s then toStage1 (mainReset s true) else s

def execMainDomainReset (s : State) : Host.Outcome State Fault Refusal := .next (mainDomainReset s)

/-! ## Stage 1 (15 R354, R355, R358) -/

/-- A pass that has failed at a step waits on the backoff. -/
def stage1Fails (s : State) (step code : Nat) : State := toBackoff (event s 0x0405 0 step) code

/-- A copy in HBM, locked for an owner of the memory firewall. -/
def placeImage (s : State) (a owner : Nat) (image : List Byte) : State :=
  lockHbm (hbmWrite s a image) a image.length owner

/-- The firmware copy and its manifest in the control-core region, locked until main-domain reset (15 R354). The image lies
at load_offset; the manifest's page is Config's (assumption 245). -/
def placeFirmware (s : State) (m image : List Byte) : State :=
  let base := Config.coreRegionPage.val * 4096
  placeImage (placeImage s (base + Config.firmwareManifestPage.val * 4096) 1 m) (base + mfNat m 0x018 8) 1 image

/-- A staging range that no lock covers. -/
def freeStaging (s : State) (len : Nat) : Option Nat :=
  [3, 4].findSome? (fun k => let a := Config.stagingBase k
    if 4096 ≤ a ∧ a + len ≤ hbmSize ∧ !hbmLocked s (a - 4096) (len + 4096) then some a else none)

/-- The timetable image stands at TT_SRC with its manifest at the start of the page below, and VERIFY is written (15 R355);
none: there is no room for it, or the load interface does not take VERIFY. -/
def placeTimetable (s : State) (m image : List Byte) : Option State :=
  let takes : Bool := !ttBusy s && (s.tt.state == .empty || s.tt.state == .idle)
  match freeStaging s image.length with
  | none => none
  | some a =>
    if !takes then none else
    let s := hbmWrite (hbmWrite s a image) (a - 4096) m
    let s := ttSet s { s.tt with src := BitVec.ofNat 64 a, length := BitVec.ofNat 32 image.length }
    some (doVerify s)

/-- Step 5: choose, copy and lock the timetable; whether a slot passed. -/
def bootTimetable (s : State) : State × Bool :=
  match trySlots s (slotOrder s 3) with
  | (s, none) => (event s 0x0405 0 5, false)
  | (s, some (i, m, image)) =>
    match placeTimetable (startSlot s i m) m image with
    | some t => (t, true)
    | none => (event s 0x0405 0 5, false)

/-- BOOT_CODE of a running firmware. With no timetable and a slot in TRIAL both codes apply: NO_TIMETABLE shows (DESIGN
CHOICE, assumption 246). -/
def runningCode (s : State) : Nat := if s.boot.ttOnly then 5 else if anyTrial s then 3 else 0

/-- Steps 3 to 7, with main power sequenced. -/
def stage1Pass (s : State) : State :=
  let s := rejectTrials s [2, 3, 4, 5]
  match trySlots s (slotOrder s 2) with
  | (s, none) => stage1Fails s 4 4
  | (s, some (i, m, image)) =>
    let s := placeFirmware (startSlot s i m) m image
    let r := bootTimetable s
    let s := r.1
    let s := { s with boot := { s.boot with
      stage := .running, wp := false, ttOnly := !r.2, wait := if r.2 then 1 else s.boot.wait } }
    let s := count (if anyTrial s then armTrial s else s) 0x2040 0x01
    bootCode s (runningCode s)

/-- STAGE1_PASS (15 R358). -/
def execStage1Pass (s : State) : Host.Outcome State Fault Refusal :=
  .next (if s.boot.stage = .stage1 ∧ mainOn s then stage1Pass s else s)

/-- A wait has ended, or is cut short: the whole pass is retried, or the timetable alone. A timetable slot that the latter starts
in TRIAL arms the timer, unless it runs already (assumption 244). -/
def retryBoot (s : State) : State :=
  let longer (s : State) : State := { s with boot := { s.boot with wait := min 64 (2 * s.boot.wait) } }
  if s.boot.stage = .backoff then
    match startUp s with
    | none => s
    | some t => toStage1 (longer (count t 0x2040 0x03))
  else if s.boot.stage = .running ∧ s.boot.ttOnly ∧ mainOn s then
    let r := bootTimetable (longer (count s 0x2040 0x03))
    let s := { r.1 with boot := { r.1.boot with ttOnly := !r.2, wait := if r.2 then 1 else r.1.boot.wait } }
    let s := if anyTrial s ∧ s.boot.trial.isNone then armTrial s else s
    bootCode s (runningCode s)
  else s

/-- BACKOFF_EXPIRY (15 R358). -/
def execBackoffExpiry (s : State) : Host.Outcome State Fault Refusal := .next (retryBoot s)

/-! ## Trial boot (15 R360, R361) -/

/-- A write of 1 to confirm. -/
def confirm (s : State) : State :=
  if anyTrial s then
    let s := writeRecord { s with boot := { s.boot with
      slots := s.boot.slots.map (fun x => if x = 2 then 3 else x), trial := none } }
    if s.boot.stage = .running then bootCode s (runningCode s) else s
  else s

/-- The trial window has passed. -/
def trialOver (s : State) : Bool :=
  match s.boot.trial with
  | some (start, len, _) => decide (start + len ≤ islandUs s)
  | none => false

/-- TRIAL_TIMER_EXPIRY (15 R360): rollback, with a bit for each image type in the event, and boot chooses again. -/
def execTrialTimerExpiry (s : State) : Host.Outcome State Fault Refusal :=
  .next (if trialOver s ∧ anyTrial s then
      let types := (List.range 3).filter (fun t => slotState s (2 * t) == 2 || slotState s (2 * t + 1) == 2)
      let loader := types.contains 0
      let s := rejectTrials s (List.range 6)
      let s := event (count s 0x2040 0x02) 0x0402 0 (bitsOf types)
      let s := { s with boot := { s.boot with trial := none } }
      if loader then islandReset s else mainDomainReset s
    else s)

/-- trial_remaining, 0x2010.03. -/
def trialRemaining (s : State) : Nat :=
  match s.boot.trial with
  | some (start, len, _) => (len - (islandUs s - start) + 999999) / 1000000
  | none => 0

/-! ## Image writes (15 R359, R362) -/

/-- The target slot of a type: the slot that R352 would not choose, A with none eligible; never the running slot. -/
def writeTarget (s : State) (ty : Nat) : Nat :=
  let a := 2 * (ty - 1)
  let t := match slotOrder s ty with
    | [] => a
    | i :: _ => if i = a then a + 1 else a
  let runs := (s.boot.manifests.getD (ty - 1) none).isSome && (t % 2 == if s.boot.running.getLsbD (ty - 1) then 1 else 0)
  if runs then (if t = a then a + 1 else a) else t

/-- A write of image_write.type; none: BUSY, while a copy pass runs. -/
def imageTypeWrite (s : State) (ty : Nat) : Option State :=
  if passRuns s then none
  else
    let i := writeTarget s ty
    let r := slotRegion s i
    let s := norEraseRange (setSlot (objPut s 0x2020 0x01 0 ty) i 0) r.off r.size
    some { s with boot := { s.boot with writing := some (i, 0) } }

/-- A segment of image_write.data; none: no write is open, a pass runs, or the segment runs past the slot. -/
def imageData (s : State) (bs : List Byte) : Option State :=
  match passRuns s, s.boot.writing with
  | true, _ => none
  | _, none => none
  | false, some (i, n) =>
    let r := slotRegion s i
    if r.size < n + bs.length then none
    else
      let s := norWrite s (r.off + n) bs
      some { s with boot := { s.boot with writing := some (i, n + bs.length) } }

/-- A write of image_write.commit; none: BUSY, with no write open or while a pass runs. A committed write of the type being
retried starts the next retry at once (15 R359). -/
def imageCommit (s : State) : Option State :=
  match passRuns s, s.boot.writing with
  | true, _ => none
  | _, none => none
  | false, some (i, _) =>
    let result := match readSlot s i with | .inl r => r | .inr _ => 0
    let s := noteSlot s i
    let s := if result = 0 then setSlot s i 1 else s
    let s := { s with boot := { s.boot with writing := none, commit := result } }
    let s := event s 0x0403 0 (slotType i + result * 2 ^ 8)
    let retried := (s.boot.stage == .backoff && s.boot.code == 4 && slotType i == 2) || (s.boot.ttOnly && slotType i == 3)
    some (if result = 0 ∧ retried then retryBoot s else s)

/-! ## Floor and keys (15 R350, R351) -/

/-- The manifest of the current timetable image, in the page below its source. -/
def currentManifest (s : State) : Option (List Byte) := s.tt.cur.map (fun i => hbmRead s (i.src - 4096) 512)

/-- A write of floor_advance begins a burn: the error, or the state. 5 is OUT_OF_RANGE, 8 is BUSY. -/
def floorAdvance (s : State) (v : Nat) : Nat ⊕ State :=
  let sec (m : Option (List Byte)) : Bool := match m with | some m => decide (mfSecurity m < v) | none => false
  let cur : Bool := match s.tt.cur with | some i => decide (leNat (bytesAt (leBytes 64 i.hdr.toNat) 0x18 4) < v) | none => false
  if 255 < v ∨ v < floorOf s then .inl 5
  else if sec (s.boot.manifests.getD 0 none) || sec (s.boot.manifests.getD 1 none) || cur then .inl 8
  else .inr { s with boot := { s.boot with banks := some (floorBanks s), burn := some (v, islandUs s) } }

/-- A write of revoke_key[k]: a written 1 cannot be cleared; a key in use, or the last usable one, is BUSY. -/
def revokeKey (s : State) (k v : Nat) : Nat ⊕ State :=
  let used := (currentManifest s :: s.boot.manifests.take 2).any
    (fun m => match m with | some m => mfKey m == k | none => false)
  let others := (List.range 4).any (fun j => j != k && (keyUsable s).getLsbD j)
  if v = 0 then (if s.boot.revoked.getLsbD k then .inl 5 else .inr s)
  else if s.boot.revoked.getLsbD k then .inr s
  else if used ∨ !others then .inl 8
  else .inr { s with boot := { s.boot with revoked := s.boot.revoked ||| BitVec.ofNat 4 (2 ^ k) } }

/-! ## Measurements and the challenge (15 R365, R367) -/

/-- Measurement 1–6 (15 Table 15-8). -/
def measurement (s : State) (i : Nat) : BitVec 256 :=
  let of (m : Option (List Byte)) : BitVec 256 := match m with | some m => sha256 m | none => 0
  match i with
  | 1 => Config.romDigest
  | 2 => of (s.boot.manifests.getD 0 none)
  | 3 => if mainOn s ∧ s.boot.stage = .running then of (s.boot.manifests.getD 1 none) else 0
  | 4 => if mainOn s then of (currentManifest s) else 0
  | 5 => Config.hardwareMeasurement (floorOf s) s.boot.revoked
  | _ => if s.isl.calib < 2 then sha256 (calibBytes s) else Config.noCalibration

/-- CHALLENGE_SIGNATURE_READY (15 R367); with the PUF at fault the device signs nothing (R363). -/
def execChallengeSignatureReady (s : State) : Host.Outcome State Fault Refusal :=
  .next (match s.boot.nonce with
    | none => s
    | some n =>
      if identityState s = 3 then s
      else
        let text := n ++ leBytes 8 Config.serial.toNat ++ (List.range 6).flatMap (fun i => digestBytes (measurement s (i + 1)))
        let r := signDigest s (sha256 text)
        { r.2 with boot := { r.2.boot with nonce := none, signature := some r.1 } })

/-! ## swap_go (03 R81, 15 R355) -/

/-- A timetable swap from a NOR slot: VERIFY, then INSTALL and ARM follow; none: BUSY. -/
def swapGo (s : State) : Option State :=
  if s.tt.drain ∨ !(s.tt.state == .empty || s.tt.state == .idle) then none
  else
    let i := 4 + objGet s 0x5001 0x01 0
    match readSlot s i with
    | .inl _ => some (ttReason (noteSlot s i) 0x20)
    | .inr (m, image) =>
      match placeTimetable (noteSlot s i) m image with
      | none => none
      | some t => some (ttSet t { t.tt with swap := true })

/-! ## The fault log in NOR (20 R461, R462) -/

/-- Codes whose block is written at once (20 R462). -/
def urgentCode (c : Nat) : Bool := c == 0x0401 || c == 0x0503 || c == 0x0603 || c == 0x0604

/-- A block is due: 127 records pend, the oldest has pended for 1 s, or one is urgent (20 R462). -/
def blockDue (s : State) : Bool :=
  decide (127 ≤ s.logs.pending.length) || s.logs.pending.any (fun e => urgentCode e.code) ||
    (match s.logs.pending with | e :: _ => decide (e.time + 1000000 ≤ islandUs s) | [] => false)

/-- FAULT_LOG_BLOCK_WRITE: the oldest pending records fill the next block, and the block after it is erased. With no region
the fault log stays empty. -/
def execFaultLogBlockWrite (s : State) : Host.Outcome State Fault Refusal :=
  let l := s.logs
  .next (if !blockDue s then s
    else match faultRegion s with
    | none => { s with logs := { l with pending := [] } }
    | some r =>
      let n := r.size / 4096
      let taken := l.pending.take 127
      let seq := match l.seq with | some q => (q + 1) % 2 ^ 32 | none => 0
      let s := norWrite (norEraseRange s (r.off + 4096 * (seq % n)) 4096) (r.off + 4096 * (seq % n))
        (faultBlock seq l.power (ctrGet s 0xC220 0x08 0) taken)
      let s := norEraseRange s (r.off + 4096 * ((seq + 1) % n)) 4096
      { s with logs := { l with
          pending := l.pending.drop 127
          seq := some seq
          faultNewest := (taken.getLast?.map (·.num)).getD l.faultNewest } })

end Sys2Proof.Machine
end

