-- ==== Sys2Proof/Machine/Beat.lean ====
section
/-!
DEFINITION. The beat boundary (03 R53) with every effect that it times, and the Muzzle on the lanes (02 R46).
-/

namespace Sys2Proof.Machine

/-! ## The Muzzle (02 R46, 14 R333, R334, R340) -/

/-- The Muzzle on one port: the frame in transmission is truncated, protected frames go back to the heads of their queues in
the order they had, and other unprotected ones stay. -/
def muzzlePort (s : State) (p : Nat) : State :=
  match fifo s p with
  | [] => s
  | f :: rest =>
    let sending := operUp s p && !s.shp.cut.contains p
    let s := if sending then emit (count s (0xC100 + p) 0x0C) (.truncated p) else s
    let lost := sending && !f.isProt
    let stay := (f :: rest).filter (fun g => !g.isProt)
    let s := setFifo s p (if lost then stay.tail else stay)
    let s := if lost then bufRelease s f.handle else s
    ((f :: rest).filter (·.isProt)).reverse.foldl putBack s

/-- The delta of beat `b` is closed with what fits; a beat that has records left waits for the next delta (14 R319, R320). -/
def closeDelta (s : State) (final : Bool) : State :=
  let b := s.clk.beat
  let x := deltaTake 163840 s.pair.delta
  let s := countN (count s 0xC200 0x06) 0xC200 0x08 (deltaBytes x.1)
  let spill := if x.2.isEmpty then s.pair.spill
    else (b, b + 1) :: s.pair.spill.map (fun e => if e.2 = b then (e.1, b + 1) else e)
  let s : State := { s with pair := { s.pair with sent := s.pair.sent ++ [⟨b, x.1, b⟩], delta := x.2, spill := spill } }
  if s.pair.link = 2 then emit s (.delta b ((epochOf s.pair.epoch).getD 0) x.1 final x.1.length (deltaCrc x.1)) else s

/-- The delta of the present beat is closed as the final one of a planned transfer (14 R340 step 2). -/
def closeFinal (s : State) (extraction : Bool) : State :=
  let b := s.clk.beat
  let s := closeDelta s true
  { s with pair := { s.pair with transfer := .final b extraction } }

/-- MUZZLE: the lanes stop; after that, and not before, a hard fault asserts PAIR_HF_OUT. -/
def execMuzzle (s : State) : Host.Outcome State Fault Refusal :=
  .next (if s.pair.fence && !s.pair.muzzled then
      let s := (List.range 32).foldl muzzlePort s
      let s := downPorts { s with pair := { s.pair with
        muzzled := true, hfOut := s.pair.hfOut || s.pair.hfPending, hfPending := false } }
      match s.pair.transfer with
      | .asked x => closeFinal s x
      | _ => s
    else s)

/-! ## Paired operation at a boundary (14 R319, R324–R327, R332) -/

/-- The full state as the bulk copy carries it: objects, descriptors and ledger entries, protected frames, tables, keys and
registers, in the records of Table 14-1 (14 R328). -/
def copyRecords (s : State) : List DeltaRec :=
  let objects := (s.objs.vals.filter (fun e => coreIndex (okeyIdx e.1) && okeyIdx e.1 != 0x9000)).map (fun e => DeltaRec.object e.1 e.2)
  let slices := s.slc.sl.map (fun e => DeltaRec.object (okey 0xB000 0x01 e.1) (sliceCode e.2.state))
  let work := s.led.entries.flatMap (fun e =>
    (match e.2.kind, e.2.ref with
      | .host, .host ix _ _ _ => [DeltaRec.descriptor (qpKey e.2.queue) ix (ledMeta s e.1).desc]
      | _, _ => []) ++ [DeltaRec.ledger e.1 e.2])
  let frames := (s.shp.fifos ++ s.shp.queues.map (fun e => (e.1, e.2.frames))).flatMap (fun e =>
    (e.2.filter (·.isProt)).map (fun f => DeltaRec.frame f.queue f.handle f.bytes))
  let shared := s.fwd.l2.map (fun e => DeltaRec.table 0 e.1 e.2.toNat) ++ s.fwd.flow.map (fun e => DeltaRec.table 3 e.1 e.2.toNat)
  let routes := s.fwd.lpm4.map (fun e => DeltaRec.table 1 e.1 e.2.toNat) ++ s.fwd.lpm6.map (fun e => DeltaRec.table 2 e.1 e.2.toNat)
  let stage := s.stg.words.map (fun e => DeltaRec.table 4 e.1 e.2.toNat) ++
    s.stg.tcam.map (fun e => DeltaRec.table 5 (4 * e.1) (fld e.2 0 160 + fld e.2 160 160 * 2 ^ 640))
  let keys := match s.pair.key with
    | none => []
    | some key => s.ken.slots.map (fun e => DeltaRec.kennel e.1 (sealSlot key e.1 (sget 0 s.ken.wraps e.1) e.2))
  let bells := s.slc.qps.flatMap (fun e =>
    [DeltaRec.register (2 ^ 24 + 2 * e.1) e.2.sqTail, DeltaRec.register (2 ^ 24 + 2 * e.1 + 1) e.2.cqHead])
  let chans := s.dma.chans.flatMap (fun c => (List.range 32).map (fun i =>
    DeltaRec.register (256 * c.1 + 8 * i) (leNat (bytesAt (chanBytes c.2) (8 * i) 8))))
  objects ++ slices ++ work ++ frames ++ shared ++ routes ++ stage ++ keys ++ bells ++ chans

/-- DELTA_SEND: the delta of the beat that ends is closed. With no partner that follows it goes nowhere. To a partner in
SYNCING the full state goes first, as it stands at the boundary, and deltas follow from the next beat on (14 R328). -/
def sendDelta (s : State) : State :=
  let follows := match s.pair.partner with | some h => h.state == 2 || h.state == 3 | none => false
  let syncing := match s.pair.partner with | some h => h.state == 2 | none => false
  let s := if s.pair.waited then count s 0xC200 0x09 else s
  let s := { s with pair := { s.pair with waited := false, copied := s.pair.copied && follows } }
  match s.pair.transfer with
  | .final _ _ => { s with pair := { s.pair with delta := [] } }
  | _ =>
    if recording s && follows then
      if syncing && !s.pair.copied && s.pair.link == 2 then
        let t := emit s (.bulk (copyRecords s))
        { t with pair := { t.pair with copied := true, delta := [], sent := [], spill := [] } }
      else closeDelta s false
    else { s with pair := { s.pair with delta := [], sent := [], spill := [] } }

/-- Slots since the last heartbeat received. -/
def silence (s : State) : Nat := now s - s.pair.lastHb

/-- HEARTBEAT_SEND, and its stop after 2 beats without one (14 R324, R325). A device that has heard none yet sends, and so does
one that R25 keeps SINGLE (DESIGN CHOICE, assumption 242). -/
def sendHeartbeat (s : State) : State :=
  let quiet := s.pair.silent || (s.pair.partner.isSome && decide (8192 ≤ silence s))
  let s := { s with pair := { s.pair with silent := quiet } }
  if (paired s || pairEnabled s) && s.pair.link == 2 && !quiet then
    emit s (.heartbeat ⟨pairCode s.pair.state, s.pair.epoch, healthWord s, s.clk.beat, s.pair.ackedIn⟩)
  else s

/-- The silence limits (14 R332). A planned transfer that starts at the same boundary stands; one under way does not keep the
device ACTIVE. -/
def judgeSilence (s : State) : State :=
  let n := silence s / 4096
  if s.pair.partner.isNone then s
  else match s.pair.state with
    | .active =>
      let starts := !s.pair.fence && (match s.pair.transfer with | .asked _ => true | _ => false)
      if 4 ≤ n ∧ !starts then
        let s := setPairState (fence (count s 0xC200 0x03)) .fenced
        { s with pair := { s.pair with transfer := .none } }
      else s
    | .standby =>
      if 6 ≤ n ∧ !fatalHealth (healthWord s) ∧ s.pair.takeover.isNone then takeLeash s false else s
    | .fenced =>
      if 8 ≤ n ∧ 4 ≤ s.pair.readyStill then
        let s := setPairState (count s 0xC200 0x04) .active
        { s with pair := { s.pair with partner := none, lift := true } }
      else s
    | _ => s

/-- PAIR_READY_IN as sampled at the boundary. -/
def sampleReady (s : State) (level : Bool) : State :=
  let same := s.pair.readyIn == level
  { s with pair := { s.pair with
      readyIn := level, readyStill := if same then s.pair.readyStill + 1 else 0, stillAll := s.pair.stillAll && same } }

/-- PAIR_READY_TOGGLE (14 R326, 18 R418). -/
def toggleReady (s : State) : State :=
  let toggles := match s.pair.state with
    | .active => true
    | .standby => !fatalHealth (healthWord s) && !s.isl.holdReady
    | _ => false
  if toggles then { s with pair := { s.pair with readyOut := !s.pair.readyOut } } else s

/-- MUZZLE_LIFT (02 R47); host requests that the fence held go on. -/
def liftMuzzle (s : State) : State :=
  if s.pair.lift then pumpAll { s with pair := { s.pair with lift := false, fence := false, muzzled := false } } else s

/-- A planned transfer starts at the boundary: the active stops (14 R340 step 1). -/
def startTransfer (s : State) : State :=
  match s.pair.transfer, s.pair.state with
  | .asked _, .active => fence s
  | _, _ => s

/-- An extraction whose transfer has ended with the device still ACTIVE is refused (18 Table 18-3). -/
def settleExtraction (s : State) : State :=
  if s.isl.extract = .transferring ∧ s.pair.transfer = .none ∧ s.pair.state = .active then setExtract s .refused else s

/-- A formed pair whose configurations have come to differ: MISMATCH, a fatal health bit, is a hard fault of an ACTIVE or a
STANDBY device (14 R334, Tables 14-2 and 14-3). -/
def judgeMismatch (s : State) : State :=
  if pairFormed s && (s.pair.state == .active || s.pair.state == .standby) && mismatch s != 0 then
    hardFault s 6 (healthWord s).toNat
  else s

/-- What the boundary does for the pair. -/
def pairBoundary (s : State) (readyIn : Bool) : State :=
  let s := judgeMismatch (sendHeartbeat (sampleReady s readyIn))
  settleExtraction (startTransfer (liftMuzzle (toggleReady (judgeSilence s))))

/-! ## Clusters (07 R168, R172) -/

/-- An item of an excluded cluster's inbox goes to the substitute, whose counters count it (07 R172, R175). -/
def moveItem (s : State) (to_ : Option Nat) (w : Work) : State :=
  match w, to_ with
  | .detour id, none => dropNoCluster s id
  | .host e _, none => hostLost s e
  | .detour id, some d =>
    if inboxRoom s d w then
      let s := match itemGet s id with
        | some x => (match x.pos with | .jutex t _ fn => itemPut s { x with pos := .jutex t d fn } | _ => s)
        | none => s
      enterCluster (count s (0xC090 + d) 0x01) d w
    else itemRemove (count s (0xC090 + d) 0x06) id
  | .host e _, some d =>
    if inboxRoom s d w then enterCluster (ledMetaSet s e { ledMeta s e with worker := some (.cluster d) }) d w
    else hostLost s e

/-- Items in an excluded cluster's inbox move, in inbox order. -/
def moveInbox (s : State) (c : Nat) : State :=
  if excludedNow s c then
    let ws := (cluster s c).inbox
    if ws.isEmpty then s
    else ws.foldl (fun s w => moveItem s (substituteOf s c) w) (setCluster s c { cluster s c with inbox := [] })
  else s

/-- What the engines and threads of a cluster hold when it is excluded is lost: its detour items are dropped, its host items go
back to the ledger (07 R169, R172, 13 R310). A thread runs on without the item. -/
def loseHeld (s : State) (c : Nat) : State :=
  let inboxes := ((List.range 8).map (fun i => c * 8 + i)).flatMap (fun e => (engine s e).inbox)
  let s := ((List.range 8).map (fun i => c * 8 + i)).foldl (fun s e => setEngine s e { engine s e with inbox := [] }) s
  let s := inboxes.foldl (fun s w => workLost s c w) s
  ((List.range 64).map (fun i => c * 64 + i)).foldl (fun s th =>
    let t := thread s th
    match t.item with
    | none => s
    | some w =>
      if t.gone then s
      else
        let s := setThread s th (match w with
          | .host _ _ => { t with gone := true }
          | .detour _ => { t with item := none, place := none })
        workLost s c w) s

/-- The rotation set: engines enabled and neither FROZEN nor reset in the beat that ends (07 R168; DESIGN CHOICE,
assumption 223). -/
def rotation (s : State) (c : Nat) : State :=
  let es := (List.range 8).filter (fun i => (engine s (c * 8 + i)).again)
  let set := bitsOf ((List.range 8).filter (fun i =>
    (engineEnable s c).testBit i && !(engine s (c * 8 + i)).frozen && !es.contains i))
  let s := es.foldl (fun s i => setEngine s (c * 8 + i) { engine s (c * 8 + i) with again := false }) s
  let x := cluster s c
  if x.rotSet.toNat = set then s else pump (setCluster s c { x with rotSet := BitVec.ofNat 8 set }) c

/-- CLUSTER_EXCLUSION (07 R172) and the rotation sets (R168). A cluster that the mapping of the beat that ends still named is
newly excluded. -/
def clustersBoundary (s : State) : State :=
  let map := (List.range 16).map (substituteOf s)
  let fresh := (List.range 16).filter (fun c => excludedNow s c && s.jx.map.getD c none == some c)
  let s := (List.range 16).foldl rotation { s with jx := { s.jx with map := map } }
  (List.range 16).foldl moveInbox (fresh.foldl loseHeld s)

/-! ## Snapshot (20 R458, 13 R316) -/

/-- The ledger gauges 0xC040.01–.06. -/
def ledgerGauges (s : State) : List (Nat × Nat) :=
  (okey 0xC040 0x01 0, s.led.entries.length) ::
    [LedKind.host, .table, .kennel, .object, .frame].map (fun k => (okey 0xC040 (kindNo k + 1) 0, kindCount s k))

/-- SNAPSHOT: every counter and gauge, those of the island too (17 R396, 18 R428, 19 R448). -/
def takeSnapshot (s : State) : State :=
  let counters := s.objs.ctr.filter (fun e => okeyIdx e.1 != 0x2040)
  let snap := (ledgerGauges s).foldl (fun m e => sset 0 m e.1 e.2) counters
  { s with logs := { s.logs with snap := snap, snapBeat := s.clk.beat } }

/-! ## Sheepdog and ports -/

/-- Queues and policers at a boundary (08 R178, R186, R193, R195). -/
def sheepdogBoundary (s : State) : State :=
  let s := portsDown s
  let s := clearDeficits (s.shp.queues.foldl (fun s e => drainEnd s e.1) s)
  let s := fillPolicers s
  s.shp.queues.foldl (fun s e => sampleQueue s e.1) s

/-- Beats in which something waited (12 Table 12-8, 13 R316). -/
def countWaits (s : State) : State :=
  let s := s.slc.quota.foldl (fun s sl => countAt s 0xC0F0 0x08 sl) s
  let s := if s.led.waited then count s 0xC040 0x1D else s
  { s with slc := { s.slc with quota := [] }, led := { s.led with waited := false } }

/-! ## What the memories and lanes report -/

/-- FEC counts of a lane enter its port's counters (02 R51). -/
def countFec (s : State) (x : BitVec 5 × Nat × Nat) : State :=
  let p := 0xC100 + portOfLane s x.1.toNat
  countN (countN s p 0x0D x.2.1) p 0x0E x.2.2

/-- The island that serves an object: 0, or the control-core complex, of whose islands 22 and 23 an event names 22
(01 R12, R17; DESIGN CHOICE, assumption 261). -/
def objIsland (idx : Nat) : Nat := if 0x4000 ≤ idx ∧ idx < 0xD000 then 22 else 0

/-- OBJECT_QUARANTINE (16 R373, 17 R402): the stored pair of a critical object's element is bad; the block keeps the last
intact value that it read. -/
def objectFault (s : State) (k : Nat) : State :=
  match objDesc (okeyIdx k) (okeySub k) with
  | none => s
  | some d =>
    if d.critical ∧ okeyEl k < max 1 d.elems ∧ !s.uhl.quarantined.contains k then
      eventFull { s with uhl := { s.uhl with quarantined := s.uhl.quarantined ++ [k] } } 0x0006 (objIsland (okeyIdx k))
        (okeyIdx k) (okeySub k) (BitVec.ofNat 64 (okeyEl k))
    else s

/-- A word of code or of the function table, which change only in an excluded cluster (07 R172). -/
def loadCode (s : State) (x : BitVec 4 × BitVec 16 × BitVec 32) : State :=
  let c := x.1.toNat
  if excluded s c then
    setCluster s c { cluster s c with store := sset 0 (cluster s c).store x.2.1.toNat x.2.2 }
  else s

/-- Correctable memory errors of an island: at most one record a second, with the number folded into it (20 R460). -/
def correctable (s : State) (isl n : Nat) : State :=
  let x := sget (none, 0) s.logs.folded isl
  let due : Bool := match x.1 with | some at' => decide (at' + 1000000 ≤ islandUs s) | none => true
  let put (s : State) (y : Option Nat × Nat) : State :=
    { s with logs := { s.logs with folded := sset (none, 0) s.logs.folded isl y } }
  if x.2 + n = 0 then s
  else if due then event (put s (some (islandUs s), 0)) 0x0101 isl (x.2 + n)
  else put s (x.1, x.2 + n)

/-- The errors that a beat corrected, and those that waited for their second to pass. -/
def correctables (s : State) (news : List (BitVec 6 × BitVec 32)) : State :=
  let fresh := news.foldl (fun s e => correctable s e.1.toNat e.2.toNat) s
  (fresh.logs.folded.map (·.1)).foldl (fun s isl => correctable s isl 0) fresh

/-- What a beat's memories and lanes report (02 R51, 16 R373, 20 Table 20-4). -/
def heedNews (s : State) (n : BeatNews) : State :=
  let s := n.code.foldl loadCode (n.objects.foldl objectFault (n.fec.foldl countFec s))
  correctables s n.corrected

/-! ## The boundary -/

/-- Time goes on to slot 0 of the next beat; TT_BEAT counts. -/
def nextBeat (s : State) : State :=
  { s with
    clk := { s.clk with beat := s.clk.beat + 1, slot := 0, islBase := s.clk.islBase + 4096 }
    tt := { s.tt with beat := s.tt.beat + 1 }
    fwd := { s.fwd with applied := (0, 0) } }

/-- The generations at a boundary (03 R73–R78). -/
def timetableBoundary (s : State) (upset : Option (Bool × BitVec 1024)) : State :=
  let s := closeOverlap (countOverlap (upsetHeader s upset))
  let s := if makeCurrentDue s then makeCurrent s else s
  checkHeaders (endDrainTt s)

/-- BEAT_BOUNDARY (03 R53). Buckets gain the credit of the beat that ends before parameter writes take effect, so a queue
enabled at the boundary starts at 0 (08 R188; DESIGN CHOICE, assumption 209). -/
def beatBoundary (s : State) (readyIn : Bool) (upset : Option (Bool × BitVec 1024)) (news : BeatNews) : State :=
  let s := heedNews s news
  let s := startPass (startPass (endSlot (landBy s (s.clk.beat * 4096 + 4095))) false) true
  let s := nextBeat (sendDelta (countWaits s))
  let s := pairBoundary s readyIn
  let s := timetableBoundary (applyParams (creditNodes s)) upset
  let s := sheepdogBoundary (downPorts s)
  let s := kenPump (clustersBoundary s)
  let s := sweepBoundary (sweepBoundary s false) true
  takeSnapshot (settlePlaces s)

end Sys2Proof.Machine
end

