-- ==== Sys2Proof/Machine/UhlOps.lean ====
section
/-!
DEFINITION. Uhlist sessions and replies (16 R377–R381, R389–R392), whatever the transport.
-/

namespace Sys2Proof.Machine

/-! ## Messages (16 Table 16-4) -/

/-- Body limit of a transport: 4,064 in a mailbox, else 1,468 (16 R377). -/
def bodyMax (transport : Nat) : Nat := if 1 ≤ transport ∧ transport ≤ 4 then 4064 else 1468

/-- The 16-byte header. -/
def pduHeader (op : Nat) (isReply : Bool) (session seq len err : Nat) : List Byte :=
  leBytes 16 (1 + op % 64 * 2 ^ 8 + (if isReply then 2 ^ 14 else 0) + session % 2 ^ 16 * 2 ^ 16 + seq % 2 ^ 32 * 2 ^ 32
    + len % 2 ^ 13 * 2 ^ 64 + err % 256 * 2 ^ 80)

/-- The tag over header and body (16 R380): the first 16 bytes of the HMAC output. -/
def pduTag (key : BitVec 256) (bs : List Byte) : List Byte := (hmacBytes (digestBytes key) bs).take 16

/-! ## Sessions -/

def sessionFind (s : State) (transport num : Nat) : Option Session :=
  s.uhl.sessions.find? (fun x => x.transport == transport && x.num == num)

def sessionPut (s : State) (x : Session) : State :=
  { s with uhl := { s.uhl with
      sessions := s.uhl.sessions.map (fun y => if y.transport == x.transport && y.num == x.num then x else y) } }

/-- A session goes; a request of it that its mailbox still holds ends (16 R390). -/
def sessionDrop (s : State) (transport num : Nat) : State :=
  let s := match sessionFind s transport num with | some x => boxLeaves s x | none => s
  { s with uhl := { s.uhl with sessions := s.uhl.sessions.filter (fun y => !(y.transport == transport && y.num == num)) } }

/-- The order queue of a session's writes: the session's own, or the mailbox of a link (13 Table 13-1). -/
def replyQueue (transport num : Nat) : OrdQ :=
  .session transport (if 1 ≤ transport ∧ transport ≤ 4 then 0 else num)

/-- The session and SEQ that an object entry's reply reference names (13 Table 13-4). -/
def replyRef (e : LedEntry) : Nat × Nat := match e.ref with | .reply n => (n / 2 ^ 32, n % 2 ^ 32) | _ => (0, 0)

/-- The entry holds a write of the session. -/
def ofSession (transport num : Nat) (e : LedEntry) : Bool :=
  e.kind == .object && e.queue == replyQueue transport num && (replyRef e).1 == num

/-- A session of an object entry that has not been released is held open for its reply. -/
def repliesDue (s : State) (transport num : Nat) : Bool := s.led.entries.any (fun e => ofSession transport num e.2)

/-- A closed session goes once its last reply is out (16 R380). -/
def settleSession (s : State) (transport num : Nat) : State :=
  match sessionFind s transport num with
  | some x => if x.closing && !repliesDue s transport num then sessionDrop s transport num else s
  | none => s

/-- Sessions open on a transport, 0x1040.04. -/
def sessionsOpen (s : State) (transport : Nat) : Nat :=
  (s.uhl.sessions.filter (fun x => x.transport == transport && x.proved && !x.closing)).length

def sessionLimit (transport : Nat) : Nat := if transport = 0 then 32 else if transport ≤ 4 then 4 else 16

/-- Counter of a transport (16 Table 16-11). -/
def countUhl (s : State) (transport sub : Nat) : State := count s (0xC210 + transport) sub

/-! ## Replies -/

/-- An in-band reply: a frame to the peer, admitted to the port's reply queue without the port check (16 R392). -/
def inbandReply (s : State) (peer : Nat × Nat) (bs : List Byte) : State :=
  let mac := objGet s 0x4010 0x02 0
  let frame := beBytes 6 peer.1 ++ leBytes 6 mac ++ beBytes 2 (objGet s 0x4010 0x01 0) ++ bs
  (admitOne s (objGet s 0x4010 0x04 peer.2) none 0 (frame.length + 4) frame none).2

/-- A reply PDU leaves on its transport; a session gives it a tag. -/
def sendReply (s : State) (transport op session seq err : Nat) (body : List Byte) (key : Option (BitVec 256))
    (peer : Nat × Nat) : State :=
  let hb := pduHeader op true session seq body.length err ++ body
  let bs := match key with | some k => hb ++ pduTag k hb | none => hb
  let s := countUhl s transport 0x02
  if transport = 5 then inbandReply s peer bs
  else
    let s := emit s (.pdu transport session op seq err body)
    if transport = 0 then s else boxReply s (transport - 1) bs

/-- A reply in a session: it is cached, 16 replies at most, and sent (16 R381). -/
def sessionReply (s : State) (x : Session) (seq op : Nat) (request : List Byte) (err : Nat) (body : List Byte) : State :=
  let others := x.cache.filter (fun c => c.seq != seq)
  let cache := (others ++ [⟨seq, op, request, some (err, body), true, x.peer⟩])
  let s := sessionPut s { x with cache := cache.drop (cache.length - 16) }
  sendReply s x.transport op x.num seq err body (some x.key) x.peer

/-- The reply of an accepted write, kept until its ledger entry is released. -/
def holdReply (s : State) (x : Session) (seq op : Nat) (request : List Byte) : State :=
  let cache := (x.cache.filter (fun c => c.seq != seq)) ++ [⟨seq, op, request, some (0, []), false, x.peer⟩]
  sessionPut s { x with cache := cache.drop (cache.length - 16) }

end Sys2Proof.Machine
end

