-- ==== Sys2Proof/Machine/Release.lean ====
section
/-!
DEFINITION. The release of DONE entries in order (13 R309, R311, 01 R20) and memory errors in accepted work (13 R312).
-/

namespace Sys2Proof.Machine

/-- The entry at an order queue's next place. -/
def dueEntry (s : State) (q : OrdQ) : Option (Nat × LedEntry) :=
  s.led.entries.find? (fun e => e.2.queue == q && e.2.seq == (ordFind s q).due)

/-- R20 lets the completion of an entry leave. -/
def entryMayLeave (s : State) (i : Nat) : Bool :=
  match (ledMeta s i).doneBeat with | some b => mayLeave s b | none => true

/-- A frame's copy leaves its queue or its FIFO; one in transmission is ended with a PCS error code. -/
def pullFrame (s : State) (i q : Nat) : State :=
  let p := queuePort s q
  let fs := fifo s p
  let mine := fs.filter (fun f => f.entry == some i)
  let sending := match fs with | f :: _ => f.entry == some i && operUp s p && !s.pair.muzzled && !s.shp.cut.contains p | [] => false
  let s := if sending then emit s (.truncated p) else s
  let s := setFifo s p (fs.filter (fun f => f.entry != some i))
  dropFrame (mine.foldl (fun s f => bufRelease s f.handle) s) i q

/-- The checks of both halves of an entry by a reader: bits 0 and 2 a failed STATE pair, bits 1 and 3 a failed ECC, of half 0
and of half 1. The entry is lost, quarantined, or its bad half is rewritten (13 R311). -/
def checkHalves (s : State) (i : Nat) (halves : BitVec 4) : State :=
  match ledGet s i with
  | none => s
  | some e =>
    let bad0 := halves.getLsbD 0 || halves.getLsbD 1
    let bad1 := halves.getLsbD 2 || halves.getLsbD 3
    if halves.getLsbD 1 && halves.getLsbD 3 then
      let s := event (count s 0xC040 0x1A) 0x0103 28 i
      let s := { s with led := { s.led with
        entries := serase s.led.entries i, metas := serase s.led.metas i, lost := s.led.lost ++ [i] } }
      if paired s then hardFault s 0x02 i else s
    else if bad0 && bad1 then
      if e.state = .quarantined then s
      else ledPut (event (count s 0xC040 0x19) 0x0004 28 i) i { e with state := .quarantined }
    else if bad0 || bad1 then event (count s 0xC040 0x18) 0x0004 28 i
    else s

/-- The command of a window waits nowhere any more. -/
def forgetCommand (s : State) (w : Nat) : State :=
  { s with
    tc := { s.tc with queue := s.tc.queue.filter (· != w) }
    pipe := { s.pipe with
      ctl := s.pipe.ctl.map (fun q => q.filter (· != .table w)), onWay := s.pipe.onWay.filter (fun e => e.2.1 != w) } }

/-- The command of a window is dropped with RESULT 0x05, the one that stands for PAIR_FAULT (13 R302). -/
def dropCommand (s : State) (w i : Nat) : State :=
  match (tcWin s w).cmd with
  | none => s
  | some c =>
    if c.entry = i then
      setTcWin (forgetCommand s w) w { tcWin s w with cmd := some { c with fin := some (5, false, false, none) } }
    else s

/-- The request of a Kennel entry waits nowhere any more. -/
def forgetRequest (s : State) (i : Nat) : State :=
  { s with ken := { s.ken with
      queue := s.ken.queue.filter (fun q => q.entry != i), erases := s.ken.erases.filter (fun e => e.req.entry != i) } }

/-- The request of a Kennel entry is dropped, and its result, unless it has one, is PAIR_FAULT (09 Table 9-4). -/
def dropRequest (s : State) (i : Nat) : State :=
  match (s.ken.queue ++ s.ken.erases.map (·.req)).find? (fun r => r.entry == i) with
  | none => s
  | some r => kenComplete (forgetRequest s i) r 7 0x63 0

/-- An object write that has not taken effect waits nowhere any more. -/
def forgetWrite (s : State) (i : Nat) : State :=
  { s with
    objs := { s.objs with pend := s.objs.pend.filter (fun w => w.id != i) }
    pipe := { s.pipe with ctl := s.pipe.ctl.map (fun q => q.filter (fun c => c != .stop i && c != .write i)) } }

/-- The reply of an object write is never sent. -/
def forgetReply (s : State) (transport : Nat) (e : LedEntry) : State :=
  match sessionFind s transport (replyRef e).1 with
  | none => s
  | some x => sessionPut s { x with cache := x.cache.filter (fun c => c.seq != (replyRef e).2) }

/-- An object write that has not taken effect is dropped, and its reply is error 9 (assumption 260). -/
def dropWrite (s : State) (i transport : Nat) (e : LedEntry) : State :=
  let s := forgetWrite s i
  match sessionFind s transport (replyRef e).1 with
  | none => s
  | some x => sessionPut s { x with
      cache := x.cache.map (fun c => if c.seq = (replyRef e).2 then { c with reply := some (9, []) } else c) }

/-- A QUARANTINED entry at its place in order becomes DONE with PAIR_FAULT, DETAIL ENTRY_QUARANTINED; the block that runs the
unit lets go of it (13 R311; DESIGN CHOICE, assumption 260). -/
def quarantineDone (s : State) (i : Nat) (e : LedEntry) : State :=
  match e.kind, e.queue with
  | .host, _ => hostFix (takeWork s i) i 7 0x63 0
  | .frame, .frame q => ledFix (pullFrame s i q) i 7 0x63
  | .table, .window w => ledFix (dropCommand s w i) i 7 0x63
  | .kennel, _ => ledFix (dropRequest s i) i 7 0x63
  | .object, .session t _ => ledFix (dropWrite s i t e) i 7 0x63
  | _, _ => ledFix s i 7 0x63

/-- A host item's completion is written at its own position with its own PHASE (13 R308, R309). -/
def releaseHost (s : State) (i : Nat) (e : LedEntry) : State :=
  match e.ref with
  | .host ix pos ph _ =>
    let k := qpKey e.queue
    if hostMayComplete s k && entryMayLeave s i then
      let m := ledMeta s i
      let w := writeCompletion s k pos (completionBytes m.compat (descCid m.desc) ix e.status e.detail ph m.result)
      if w.1 then ledRetire w.2 i else w.2
    else s
  | _ => s

/-- RESULT of a window is written; one without a command in its window takes it from the entry's DETAIL. -/
def releaseTable (s : State) (w i : Nat) (e : LedEntry) : State :=
  match (tcWin s w).cmd with
  | some _ => tcRelease s w
  | none =>
    if decide (4 ≤ w) || entryMayLeave s i then ledRetire (setTcWin s w { tcWin s w with result := e.detail }) i else s

/-- The channel of a cluster in which the result of an entry waits. -/
def resultChannel (s : State) (c i : Nat) : Option Nat :=
  ((cluster s c).chans.find? (fun x => x.2.results.any (fun r => r.2.2 == some i))).map (·.1)

/-- A Kennel result is delivered. -/
def releaseKennel (s : State) (issuer i : Nat) : State :=
  if issuer < 16 then
    match resultChannel s issuer i with
    | some ch => deliverResult s issuer ch
    | none => ledRetire s i
  else
    let s := match sfind s.ken.results i with
      | some m => emit { s with ken := { s.ken with results := serase s.ken.results i } } (.result issuer 0 m)
      | none => s
    ledRetire s i

/-- A write reply is sent. -/
def releaseReply (s : State) (transport i : Nat) (e : LedEntry) : State :=
  if entryMayLeave s i then
    let num := (replyRef e).1
    let seq := (replyRef e).2
    let s := ledRetire s i
    match sessionFind s transport num with
    | none => s
    | some x =>
      match x.cache.find? (fun c => c.seq == seq) with
      | some c =>
        let r := c.reply.getD (0, [])
        let s := sessionPut s { x with cache := x.cache.map (fun d => if d.seq == seq then { d with sent := true } else d) }
        settleSession (sendReply s transport c.op num seq r.1 r.2 (some x.key) c.peer) transport num
      | none => settleSession s transport num
  else s

/-- LEDGER_RELEASE (13 R309): the entry at its place is read and, when DONE, released. -/
def execLedgerRelease (queue : OrdQ) (halves : BitVec 4) (s : State) : Host.Outcome State Fault Refusal :=
  .next (match dueEntry s queue with
    | none => s
    | some (i, _) =>
      let s := checkHalves s i halves
      let s := match ledGet s i with
        | some e => if e.state = .quarantined then quarantineDone s i e else s
        | none => s
      match ledGet s i with
      | none => s
      | some e =>
        if e.state ≠ .done then s
        else match queue with
          | .host .. => releaseHost s i e
          | .window w => releaseTable s w i e
          | .kennel n => releaseKennel s n i
          | .session t _ => releaseReply s t i e
          | .frame _ => ledRetire s i)

/-- MEMORY_UNCORRECTABLE (13 R312): a stored descriptor, or a protected frame, cannot be read. -/
def execMemoryUncorrectable (entry : BitVec 18) (s : State) : Host.Outcome State Fault Refusal :=
  let i := entry.toNat
  .next (match ledGet s i with
    | none => s
    | some e =>
      match e.state with
      | .done => s
      | .quarantined => s
      | _ =>
        match e.kind, e.queue with
        | .host, _ => hostDone (takeWork s i) i 4 0x16 0
        | .frame, .frame q =>
          let s := event (count s 0xC040 0x1B) 0x0104 28 (q + e.seq % 2 ^ 32 * 2 ^ 32)
          retireRun (ledDone (pullFrame s i q) i 4 0x16) (.frame q)
        | _, _ => s)

end Sys2Proof.Machine
end

