-- ==== Sys2Proof/Machine/ObjRead.lean ====
section
/-!
DEFINITION. What a read of an object gives (16 R382, 17 R398–R404, 20 R459): the objects that report state, the counters of
the snapshot, and every other object as it is held.
-/

namespace Sys2Proof.Machine

/-! ## Timetable and pipelines (03 Table 3-10, 04, 05) -/

/-- Figures of an image, 0x5002 and 0x5003; `gap` is what a gap figure reads with no image. -/
def readFigures (img : Option Image) (gap sub : Nat) : Nat :=
  match img with
  | none => if sub = 3 then gap else 0
  | some i => match sub with
    | 1 => hdrFld i 0x28 16 | 2 => hdrFld i 0x2C 16 | 3 => hdrFld i 0x2E 16 | 4 => hdrFld i 0x24 32 | _ => hdrFld i 0x0C 1

/-- Lane figures of an image, 0x5100 + n (03 R465). -/
def readLaneFigures (img : Option Image) (gap n sub : Nat) : Nat :=
  match img with
  | none => if sub = 2 then gap else 0
  | some i => match sub with
    | 1 => (laneSlots i.rows n).length
    | 2 => gapMax (laneSlots i.rows n)
    | _ => egressOpps i.rows n

def ttCode : TtState → Nat
  | .empty => 0 | .idle => 1 | .verifying => 2 | .verified => 3 | .installing => 4 | .installed => 5 | .armed => 6 | .overlap => 7

def imageId (i : Option Image) : Nat := match i with | some i => hdrFld i 0x10 64 | none => 0

/-- 0x5000. -/
def readTimetable (s : State) (sub : Nat) : Nat :=
  if !mainOn s then 0 else match sub with
  | 1 => ttCode s.tt.state
  | 2 => if s.tt.gen then 1 else 0
  | 3 => imageId s.tt.cur
  | 4 => imageId s.tt.staged
  | 5 => oldInflight s
  | 6 => s.tt.beat
  | _ => s.tt.reason.toNat

/-- 0x5210, 0x5211 and 0x5301: `staged` picks the staged image. -/
def readCounts (i : Option Image) (what : Nat) : Nat :=
  match i with
  | none => 0
  | some i => match what with
    | 0 => i.patterns.length | 1 => i.bodyBytes | 2 => i.pnodes.length | 3 => i.trules.length | _ => i.tables.length

/-- Items held in a reorder unit, 0x5303. -/
def reorderHeld (s : State) (p : Nat) : Nat :=
  (s.pipe.items.filter (fun x => x.pipe == p && (match x.pos with | .reorder _ => true | _ => false))).length

/-- 0x5000–0x53FF. -/
def readPipes (s : State) (idx sub : Nat) : Nat :=
  if idx = 0x5000 then readTimetable s sub
  else if idx = 0x5002 then readFigures s.tt.cur 4096 sub
  else if idx = 0x5003 then readFigures s.tt.staged 0 sub
  else if idx < 0x5200 then
    if sub ≤ 3 then readLaneFigures s.tt.cur 4096 (idx - 0x5100) sub else readLaneFigures s.tt.staged 0 (idx - 0x5100) (sub - 3)
  else match idx, sub with
    | 0x5210, 1 => readCounts s.tt.cur 0
    | 0x5210, 2 => readCounts s.tt.staged 0
    | 0x5210, 3 => readCounts s.tt.cur 1
    | 0x5210, 4 => readCounts s.tt.staged 1
    | 0x5210, _ => if dualScan s then 1 else 0
    | 0x5211, 1 => readCounts s.tt.cur 2
    | 0x5211, _ => readCounts s.tt.staged 2
    | 0x5301, 1 => readCounts s.tt.cur 3
    | 0x5301, 2 => readCounts s.tt.staged 3
    | 0x5301, 3 => readCounts s.tt.cur 4
    | 0x5301, _ => readCounts s.tt.staged 4
    | 0x5302, _ => (s.stg.last.getD (sub - 1) 0).toNat
    | _, _ => reorderHeld s (sub - 1)

/-! ## Lanes and ports (02 Tables 2-5 to 2-7) -/

/-- 0x4100 + n. -/
def readLane (s : State) (n sub : Nat) : Nat :=
  let l := lane s n
  match sub with
  | 5 => laneCode l.state
  | 6 => if l.state = .up then l.mode else 0
  | 7 => l.fec
  | _ => (calibValue s 0 n).toNat

/-- 0x4200 + p. -/
def readPort (s : State) (p sub : Nat) : Nat :=
  match sub with
  | 3 => operState s p
  | 4 => portSpeed s p
  | 5 => bitsOf (portLanes s p)
  | _ => match s.tt.cur with | some i => lanePipe i p | none => 0

/-! ## Jutex, tables, queues, cipher (06, 07, 08, 09) -/

/-- 0x5410 + c. -/
def readCluster (s : State) (c sub : Nat) : Nat :=
  match sub with
  | 2 => clusterState s c
  | 4 => match s.jx.map.getD c none with | some d => if d = c then 0xFF else d | none => 0xFF
  | 5 => bitsOf ((List.range 8).filter (fun i => (engine s (c * 8 + i)).frozen))
  | _ => min 1024 (cluster s c).inbox.length

def validCount {n : Nat} (m : Sparse (BitVec n)) : Nat := (m.filter (fun e => e.2.getLsbD 0)).length

/-- 0x6001. -/
def readTables (s : State) (sub : Nat) : Nat :=
  match sub with
  | 1 => validCount s.fwd.l2
  | 2 => validCount s.fwd.lpm4
  | 3 => validCount s.fwd.lpm6
  | 4 => validCount s.fwd.flow
  | _ => (s.fwd.moves.filter (moveFresh s)).length

/-- 0x7000. -/
def readShp (s : State) (sub : Nat) : Nat :=
  match sub with
  | 2 => enabledQueues s
  | 3 => observation s
  | 4 => recordsUsed s
  | 5 => onDieUsed s
  | _ => overflowUsed s

def queueCode : QState → Nat
  | .disabled => 0 | .enabled => 1 | .draining => 2

/-- 0x7100; queue observation reads 0 on a standby (08 R195). -/
def readQueue (s : State) (sub q : Nat) : Nat :=
  let x := queue s q
  if 0x20 ≤ sub ∧ s.pair.state = .standby then 0
  else match sub with
    | 0x11 => queueCode x.state
    | 0x12 => if x.pending then 1 else 0
    | 0x20 => x.sDepthB
    | 0x21 => x.sDepthF
    | 0x22 => x.sSojourn
    | 0x23 => x.sSojournMax
    | 0x24 => x.depthHw
    | _ => if x.sampled then 1 else 0

def slotsIn (s : State) (st : KenState) : Nat := (s.ken.slots.filter (fun e => e.2.state == st)).length

/-- 0x8000 and 0x8001. -/
def readCipher (s : State) (idx sub : Nat) : Nat :=
  match idx, sub with
  | 0x8000, 3 => enginesInUse s % 2 ^ 32
  | 0x8000, _ => bitsOf ((List.range 2).filter (fun k => !(ceng s (32 + k)).out))
  | _, 1 => slotsIn s .live
  | _, 2 => slotsIn s .erasePending
  | _, 3 => slotsIn s .quarantined
  | _, 4 => s.ken.old.length
  | _, _ => (s.ken.cached.filter (pinned s)).length

/-! ## Pair, host, DMA (14 R342, 11 Table 11-11, 10 Table 10-6) -/

/-- 0x9000. -/
def readPair (s : State) (sub : Nat) : Nat :=
  match sub with
  | 0x02 => pairCode s.pair.state
  | 0x0B => s.pair.epoch.toNat % 2 ^ 64
  | 0x0C => (healthWord s).toNat
  | 0x0D => match s.pair.partner with | some h => h.health.toNat | none => 0
  | 0x0E => mismatch s
  | 0x0F => s.pair.link
  | 0x10 => s.pair.sync
  | _ => s.pair.lastAcked

def fnCode : FnState → Nat
  | .enabled => 0 | .draining => 1 | .disabled => 2

def boolNat (b : Bool) : Nat := if b then 1 else 0

/-- 0xA100 + k. -/
def readLink (s : State) (k sub : Nat) : Nat :=
  let l := linkGet s k
  match sub with
  | 0x01 => l.state
  | 0x02 => l.rate
  | 0x03 => l.width
  | 0x04 => boolNat l.flit
  | 0x0B => fnCode (fnGet s k 0).state
  | 0x0C => boolNat (fnGet s k 0).pending
  | 0x0D => fnCode (fnGet s k 1).state
  | 0x0E => boolNat (fnGet s k 1).pending
  | 0x0F => (s.hst.reads.filter (fun r => r.link == k && !r.quar)).length
  | _ => (s.hst.reads.filter (fun r => r.link == k && r.quar)).length

def chanCode : ChState → Nat
  | .idle => 0 | .precheck => 1 | .active => 2 | .halted => 3 | .stopping => 4 | .quarantined => 5

/-- 0xA800 and 0xA801. -/
def readDma (s : State) (idx sub el : Nat) : Nat :=
  if idx = 0xA800 then chanCode (chan s el).state
  else if sub = 1 then (s.dma.chans.filter (fun e => e.2.state != .idle)).length
  else (s.dma.chans.filter (fun e => e.2.state == .halted)).length

/-! ## Slices (12 Tables 12-5 to 12-7, 16 R388) -/

/-- The function that a bound slice uses. -/
def sliceFn (s : State) (sl : Nat) : Option Fn :=
  if (slice s sl).bound.isNone then none
  else
    let f := ownerFn s (some sl)
    some (fnGet s f.1 f.2)

/-- The queues of a slice's view, lowest first: those whose chain passes a slice node that carries its number. -/
def viewQueues (s : State) (sl : Nat) : List Nat :=
  (List.range 131072).filter (fun q => objGet s 0x7200 0x10 (parentOf s 0 q) == sl)

/-- A counter as a read serves it: the frozen snapshot, or the newest completed one (20 R459). -/
def snapGet (s : State) (idx sub el : Nat) : Nat :=
  match s.logs.frozen with
  | some f => sget 0 f.1 (okey idx sub el)
  | none => sget 0 s.logs.snap (okey idx sub el)

/-- 0xB020 for element *i* of slice *s*. -/
def readView (s : State) (sub el : Nat) : Nat :=
  match (viewQueues s (el / 131072))[el % 131072]? with
  | none => 0
  | some q =>
    if sub = 1 then q
    else if sub ≤ 7 then readQueue s (0x1E + sub) q
    else snapGet s 0xC0B1 (sub - 7) q

/-- 0xB000 to 0xB100. -/
def readSlice (s : State) (idx sub el : Nat) : Nat :=
  let x := slice s el
  match idx, sub with
  | 0xB000, 0x01 => sliceCode x.state
  | 0xB000, 0x02 => boolNat x.pending
  | 0xB000, 0x04 => x.result
  | 0xB000, 0x05 => inflight s el
  | 0xB000, 0x0B => match sliceFn s el with | some f => fnCode f.state | none => 2
  | 0xB000, _ => match sliceFn s el with | some f => boolNat f.pending | none => 0
  | 0xB001, 0x04 => (sliceChannels s el).length
  | 0xB001, _ => (sliceEntries s el).length
  | 0xB002, 0x03 => x.saveLen
  | 0xB002, _ => x.restore
  | 0xB010, 0x01 => (sget (0, 0) s.slc.report el).1
  | 0xB010, _ => (sget (0, 0) s.slc.report el).2
  | 0xB020, _ => readView s sub el
  | _, 0x09 => (qpGet s el).head
  | _, _ => (qpGet s el).cqTail

/-! ## The island's objects (15, 18, 19) -/

def asciiNat (t : String) : Nat := leNat (t.toList.map (fun c => BitVec.ofNat 8 c.toNat))

/-- 0x1000–0x2040. -/
def readBoot (s : State) (idx sub el : Nat) : Nat :=
  match idx, sub with
  | 0x1000, 0x01 => Config.serial.toNat
  | 0x1000, 0x02 => if identityState s = 3 then (Config.freeValue s.fresh).toNat else leNat identityKey
  | 0x1000, 0x03 => identityState s
  | 0x1000, 0x04 => 1
  | 0x1000, _ => asciiNat "EF3248-CA"
  | 0x1010, _ => leNat (digestBytes (measurement s (el + 1)))
  | 0x1020, _ => match s.boot.signature with | some b => leNat (bytesAt b 0 64) | none => 0
  | 0x1030, _ => leNat (digestBytes Config.factoryKeyHash)
  | 0x1040, 0x01 => Config.mgmtMac.toNat
  | 0x1040, _ => sessionsOpen s el
  | 0x2000, 0x01 => s.boot.code.toNat
  | 0x2000, 0x02 => s.boot.slots.getD el 0
  | 0x2000, 0x03 => s.boot.reasons.getD el 0
  | 0x2000, 0x04 => s.boot.versions.getD el 0
  | 0x2000, _ => s.boot.running.toNat
  | 0x2010, _ => trialRemaining s
  | 0x2020, _ => s.boot.commit
  | 0x2030, 0x01 => floorOf s
  | 0x2030, 0x03 => boolNat (s.boot.revoked.getLsbD el)
  | 0x2030, _ => (keyUsable s).toNat
  | _, _ => ctrGet s 0x2040 sub 0

/-- The mean range of a sensor that has not been sampled, as a free value in the range of tj_max (19 Table 19-9). -/
def drawTemp (s : State) : Nat × State :=
  let r := draw s
  (unsigned 16 ((r.1.toNat % 20501 : Nat) - 5500), r.2)

/-- tj_max and tj_sensor (19 R444). -/
def readTemp (s : State) (sub el : Nat) : Nat × State :=
  if sub = 1 then (if s.pwr.temps.isEmpty then drawTemp s else (unsigned 16 (hottest s.pwr.temps), s))
  else match s.pwr.temps[el]? with
    | some t => (t.toNat, s)
    | none => drawTemp s

/-- A level or a measurement that only the pins know, below `n`: a free value. -/
def drawBelow (s : State) (n : Nat) : Nat × State :=
  let r := draw s
  (r.1.toNat % n, r.2)

def latchCode : Latch → Nat
  | .closed => 0 | .opened => 1 | .fault => 2

/-- 0x2100–0x2260. -/
def readIsland (s : State) (idx sub el : Nat) : Nat × State :=
  match idx, sub with
  | 0x2100, 0x01 => (boolNat (s.pwr.phase != .off), s)
  | 0x2100, 0x05 => (s.pwr.good.toNat, s)
  | 0x2110, 0x01 => (islandState s el, s)
  | 0x2110, 0x04 => (islandInflight s el, s)
  | 0x2120, _ => readTemp s sub el
  | 0x2130, _ => (boolNat (!s.clk.holdover), s)
  | 0x2200, 0x01 => (Config.podlClass.toNat, s)
  | 0x2200, 0x02 => (boolNat powerLimited, s)
  | 0x2200, 0x04 => (s.isl.t1l, s)
  | 0x2200, 0x05 => (s.isl.supply.toNat, s)
  | 0x2200, 0x06 => drawBelow s 4001
  | 0x2210, 0x01 => (latchCode s.isl.latch, s)
  | 0x2210, 0x02 => (extractCode s.isl.extract, s)
  | 0x2220, 0x03 => (cageCode (cage s el).state, s)
  | 0x2230, _ => drawBelow s 65536
  | 0x2240, _ => let r := drawBelow s 65536; (if r.1 < 300 then 0 else r.1, r.2)
  | 0x2260, 0x01 => (s.isl.calib, s)
  | 0x2260, 0x02 => (s.isl.calibSeq, s)
  | 0x2260, _ => (calibClamped s, s)
  | _, _ => (objGet s idx sub el, s)

/-- 0x3000–0x3040, the factory calibration (17 Table 17-3). -/
def readFactory (idx sub el : Nat) : Nat :=
  match idx, sub with
  | 0x3000, 0x01 => Config.factoryCalib 0 el % 2 ^ 16
  | 0x3000, _ => Config.factoryCalib 1 el % 2 ^ 16
  | 0x3010, _ => Config.factoryCalib 2 el % 2 ^ 16
  | 0x3020, _ => Config.factoryCalib 3 el % 2 ^ 32
  | 0x3030, _ => Config.factoryCalib 4 el % 2 ^ 16
  | _, _ => Config.factoryCalib 5 el % 2 ^ 32

/-! ## Logs (16 R385, 20 R461, Table 20-5) -/

/-- 0xD000–0xE010. -/
def readLogs (s : State) (idx sub el : Nat) : Nat :=
  match idx, sub with
  | 0xD000, 0x01 => match s.logs.frozen with | some f => f.2 | none => s.logs.snapBeat
  | 0xD000, 0x04 => Config.lockLevel
  | 0xD000, 0x05 => boolNat s.dbg.unlocked
  | 0xD010, _ => dapRead s el
  | 0xE000, 0x01 => s.logs.newest
  | 0xE000, _ => match sfind s.logs.events el with | some e => leNat (recordBytes e) | none => 0
  | 0xE010, 0x02 => s.logs.faultNewest
  | _, _ => match faultRegion s with | some r => r.size % 2 ^ 32 | none => 0

/-! ## Counters -/

/-- A counter; 0xC064, 0xC074 and 0xC0A0 sum their pipelines and clusters (04 R102, 07 R175). The counters of the island
come from the snapshot while the main domain is on (17 R396, 18 R428, 19 R448); 0x2040 is read at the moment of the read. -/
def readCounter (s : State) (idx sub el : Nat) : Nat :=
  if idx = 0x2040 ∨ (islandCounter idx ∧ !mainOn s) then ctrGet s idx sub el
  else if idx = 0xC064 then ((List.range 4).map (fun p => snapGet s (0xC060 + p) sub el)).sum % 2 ^ 64
  else if idx = 0xC074 then ((List.range 4).map (fun p => snapGet s (0xC070 + p) sub el)).sum % 2 ^ 64
  else if idx = 0xC0A0 ∧ sub ≠ 0x10 then ((List.range 16).map (fun c => snapGet s (0xC090 + c) sub el)).sum % 2 ^ 64
  else snapGet s idx sub el

/-! ## Any object -/

/-- The object can be written by some role. -/
def ObjDesc.writable (d : ObjDesc) : Bool := d.acc &&& 0x2222 != 0

/-- An object that only reports, by its chapter. -/
def readReport (s : State) (idx sub el : Nat) : Nat × State :=
  if idx < 0x2100 then (readBoot s idx sub el, s)
  else if idx < 0x3000 then readIsland s idx sub el
  else if idx < 0x4000 then (readFactory idx sub el, s)
  else if idx = 0x4000 then (s.net.pllLocked.toNat, s)
  else if idx < 0x4200 then (readLane s (idx - 0x4100) sub, s)
  else if idx < 0x5000 then (readPort s (idx - 0x4200) sub, s)
  else if idx < 0x5400 then (readPipes s idx sub, s)
  else if idx = 0x5400 then
    (if sub = 2 then bitsOf ((List.range 16).filter (fun c => !excluded s c)) else bitsOf (coresOnline s), s)
  else if idx < 0x6000 then (readCluster s (idx - 0x5410) sub, s)
  else if idx = 0x6001 then (readTables (openSlot s) sub, s)
  else if idx < 0x7000 then (learnedCount (openSlot s) (idx - 0x6100), s)
  else if idx = 0x7000 then (readShp s sub, s)
  else if idx = 0x7011 then
    ((let r := sget (0, 0) s.slc.report (16384 * 64 + el); if sub = 1 then r.1 else r.2), s)
  else if idx < 0x8000 then (readQueue s sub el, s)
  else if idx < 0x9000 then (readCipher s idx sub, s)
  else if idx = 0x9000 then (readPair s sub, s)
  else if idx < 0xA800 then (readLink s (idx - 0xA100) sub, s)
  else if idx < 0xB000 then (readDma s idx sub el, s)
  else if idx < 0xC000 then (readSlice s idx sub el, s)
  else if idx < 0xD000 then (readCounter s idx sub el, s)
  else (readLogs s idx sub el, s)

/-- A flush that has been accepted and not yet made reads 1 (08 R194). -/
def flushPending (s : State) (q : Nat) : Bool := s.objs.pend.any (fun w => w.values.any (fun v => v == (okey 0x7100 0x18 q, 1)))

/-- The value of one element as a read gives it. -/
def objRead (s : State) (idx sub el : Nat) : Nat × State :=
  match objDesc idx sub with
  | none => (0, s)
  | some d =>
    if !d.writable then readReport s idx sub el
    else if idx = 0x2030 ∧ sub = 3 then (readBoot s idx sub el, s)
    else if (idx = 0x2100 ∨ idx = 0x2110) ∧ sub = 1 then readIsland s idx sub el
    else if idx = 0xD010 then (dapRead s el, s)
    else if idx = 0x7100 ∧ sub = 0x18 then (boolNat (flushPending s el), s)
    else if idx = 0x8100 ∧ el = 0 then (0, s)
    else (objGet s idx sub el, s)

/-- OCTETS that the directory gives no fixed length: certificate_chain, empty unless identity_state is 0 (15 R363), and
fault_log. -/
def longOctets (s : State) (idx : Nat) : Option (List Byte) :=
  if idx = 0x1001 then some (if identityState s = 0 then s.boot.chain.getD [] else [])
  else if idx = 0xE010 then some (faultLogBytes s)
  else none

/-- The bytes of one element, of `d`. -/
def objBytes (s : State) (d : ObjDesc) (idx sub el : Nat) : List Byte × State :=
  match (if d.ty = 10 then longOctets s idx else none) with
  | some b => (b, s)
  | none =>
    let r := objRead s idx sub el
    (leBytes d.size r.1, r.2)

/-- The bytes of some elements, in order. -/
def objsBytes (s : State) (d : ObjDesc) (idx sub : Nat) : List Nat → List Byte × State
  | [] => ([], s)
  | e :: es =>
    let r := objBytes s d idx sub e
    let t := objsBytes r.2 d idx sub es
    (r.1 ++ t.1, t.2)

end Sys2Proof.Machine
end

