-- ==== Sys2Proof/Machine/ObjWrite.lean ====
section
/-!
DEFINITION. Writes of objects (16 R372, R383, R393, R394): the checks of Table 16-2 that look at a value, the range and
state rules of the chapters, and what an accepted write does.
-/

namespace Sys2Proof.Machine

/-! ## Check 5: the range of the object's own row (16 R372) -/

/-- The value lies in the row's range and is no reserved encoding. -/
def valueOk (d : ObjDesc) (idx sub el v : Nat) : Bool :=
  let n := valueInt d v
  if d.ty = 10 then idx != 0x4010 || v % 2 == 0
  else decide (d.least ≤ n) && decide (n ≤ d.most) && v % d.align == 0 &&
    (if idx = 0xA800 ∧ sub = 1 then decide (v < 16384) || v == 0xFFFF
     else if idx = 0x8100 then el != 0 && (sub != 1 || v == 1 || v == 2 || v == 4 || v == 7)
     else if idx / 4 = 0xA100 / 4 ∧ sub = 9 then decide (v / 1024 % 8 ≤ 5) && v / 8192 % 4 == 0
     else if idx = 0x2110 ∧ sub = 1 then v == 0 || maySwitch el
     else true)

/-! ## Check 8, first part: rules that relate the value to other objects or to device state -/

/-- The value that an element has once every accepted write has taken effect (01 R22). -/
def objNext (s : State) (idx sub el : Nat) : Nat :=
  match (s.objs.pend.flatMap (fun w => w.values)).reverse.find? (fun v => v.1 == okey idx sub el) with
  | some v => v.2
  | none => objGet s idx sub el

/-- 0x7600: a TRTCM policer whose rate2 is below rate1 is refused (08 Table 8-8). -/
def policerRule (s : State) (sub n v : Nat) : Bool :=
  let get (k : Nat) : Nat := if k = sub then v else objNext s 0x7600 k n
  get 1 != 2 || decide (get 3 ≤ get 5)

/-- 0xA800.02 and .03: the window lies in device memory and covers no write-locked region (10 R247). -/
def windowRule (s : State) (sub c v : Nat) : Bool :=
  let get (k : Nat) : Nat := if k = sub then v else objGet s 0xA800 k c
  decide (get 2 + get 3 ≤ hbmSize) && (get 3 == 0 || !hbmLocked s (get 2) (get 3))

/-- A cluster's HBM window lies wholly in the control-core region or in the decision-tree region; size 0 maps nothing
(07 R174, Table 7-2). -/
def hbmWindowRule (base size : Nat) : Bool := size == 0 || inCoreRegion base size || inTreeRegion base size

/-- A link that the present bifurcation does not create (11 R249). -/
def linkAbsent (s : State) (k : Nat) : Bool := k % 2 == 1 && s.hst.bifur.getD (k / 2) 0 == 0

/-- Another slice than `sl` has the binding (12 R280). -/
def boundElsewhere (s : State) (sl : Nat) (b : Binding) : Bool :=
  s.slc.sl.any (fun e => e.1 != sl && e.2.bound == some b)

/-- 0xB000.06 to .0A (12 R280, 01 R26). -/
def bindRule (s : State) (sub sl v : Nat) : Bool :=
  let get (k : Nat) : Nat := if k = sub then v else objGet s 0xB000 k sl
  let link := get 7
  !(sub == 7 && linkAbsent s v) &&
    (match get 6 with
     | 0 => true
     | 1 => !linkAbsent s link && get 0x0A == 0 && !boundElsewhere s sl ⟨false, link, get 8⟩
     | _ => !linkAbsent s link && decide (get 9 < objGet s (0xA100 + link) 0x06 0) && !boundElsewhere s sl ⟨true, link, get 9⟩)

/-- Slices that have a key range. -/
def keyRangeSlices (s : State) : List Nat :=
  (s.objs.vals.filter (fun e => okeyIdx e.1 == 0xB001 && okeySub e.1 == 0x03)).map (fun e => okeyEl e.1)

/-- mig_key_slot of some slice names a slot that a predicate takes; a slice that has not written it names slot 0. -/
def migSlotIn (s : State) (covers : Nat → Bool) : Bool :=
  let named := s.objs.vals.filter (fun e => okeyIdx e.1 == 0xB002 && okeySub e.1 == 0x01)
  named.any (fun e => covers e.2) || (decide (named.length < 16384) && covers 0)

/-- 0xB001.02 and .03 (12 R282). -/
def keyRangeRule (s : State) (sub sl v : Nat) : Bool :=
  let get (k : Nat) : Nat := if k = sub then v else objGet s 0xB001 k sl
  let base := get 2
  let n := get 3
  let covers (k : Nat) : Bool := decide (base ≤ k) && decide (k < base + n)
  let others := (keyRangeSlices s).filter (fun o => o != sl)
  decide (base + n ≤ 1048576) &&
    (n == 0 || (!others.any (fun o => overlaps base n (objGet s 0xB001 0x02 o) (objGet s 0xB001 0x03 o)) &&
      !s.ken.slots.any (fun k => k.2.infra && covers k.1) &&
      !migSlotIn s covers))

/-- The highest MSI-X vector of the function that an owner uses (11 R259). -/
def topVector (s : State) (owner : Option Nat) : Nat :=
  match owner with
  | some sl => match (slice s sl).bound with | some b => if b.vf then 64 else 2047 | none => 2047
  | none => 2047

/-- 0xB100 (12 R297, Table 12-6). -/
def ringRule (s : State) (sub k v : Nat) : Bool :=
  let sl := k / 64
  if sub = 1 then
    v == 0 || (decide (k % 64 < objGet s 0xB001 0x01 sl) && decide (qpObj s k 0x08 < min 64 (sliceChannels s sl).length))
  else if sub = 7 then decide (v ≤ topVector s (some sl))
  else true

/-- A key and text under the session key: the AES-256 key that mig_key_material carries, once its tag is right (12 R293). -/
def migKey (key : BitVec 256) (addr : List Byte) (v : Nat) : Option Nat :=
  let bs := leBytes 60 v
  let iv := bs.take 12
  let text := bytesAt bs 12 32
  if gcmTag (digestBytes key) iv addr text = bs.drop 44 then some (leNat (gcmText (digestBytes key) iv text))
  else none

def migRule (s : State) (key : BitVec 256) (addr : List Byte) (sl v : Nat) : Bool :=
  let m := objGet s 0xB002 0x01 sl
  (migKey key addr v).isSome && !(keyRangeSlices s).any (fun o => sliceRange s o m) && !(slotGet s m).infra

/-- No lane that another cage names, by its value in force or by one accepted that waits for EMPTY (18 R419, R421; DEDUCED, assumption 286). -/
def cageRule (s : State) (c v : Nat) : Bool :=
  (List.range 16).all (fun o => o == c || v &&& (objGet s 0x2220 0x01 o ||| (cage s o).lanes.getD 0) == 0)

/-- The rules of the first part of check 8; false is OUT_OF_RANGE. -/
def relationOk (s : State) (key : BitVec 256) (addr : List Byte) (idx sub el v : Nat) : Bool :=
  if 0x4100 ≤ idx ∧ idx ≤ 0x411F ∧ sub = 1 then !(v == 1 && objNext s idx 0x02 0 == 2)
  else if 0x4100 ≤ idx ∧ idx ≤ 0x411F ∧ sub = 2 then !(v == 2 && objNext s idx 0x01 0 == 1)
  else if (idx = 0x4010 ∧ sub = 4) ∨ (idx = 0x7500 ∧ sub = 0x11) then queuePort s v == el
  else if 0x5410 ≤ idx ∧ idx ≤ 0x541F ∧ sub = 8 then hbmWindowRule v (objGet s idx 0x09 0)
  else if 0x5410 ≤ idx ∧ idx ≤ 0x541F ∧ sub = 9 then hbmWindowRule (objGet s idx 0x08 0) v
  else if idx = 0x7600 then policerRule s sub el v
  else if idx = 0x8100 ∧ sub = 8 then objNext s 0x8100 0x07 el == 1 || (decide (v < 1024) && v % 8 == 0)
  else if idx = 0x8100 ∧ sub = 9 then (tagBytes (objNext s 0x8100 0x01 el) v).isSome
  else if 0xA100 ≤ idx ∧ idx ≤ 0xA103 ∧ (sub = 6 ∨ sub = 0x0A) then
    decide (((List.range 4).map (fun k => if 0xA100 + k = idx then v else objGet s (0xA100 + k) sub 0)).sum ≤ (if sub = 6 then 1024 else 64))
  else if idx = 0xA200 then decide (v ≤ topVector s (channelOwner s el))
  else if idx = 0xA800 ∧ sub ≠ 1 then windowRule s sub el v
  else if idx = 0xB000 ∧ sub ≠ 3 then bindRule s sub el v
  else if idx = 0xB001 ∧ (sub = 2 ∨ sub = 3) then keyRangeRule s sub el v
  else if idx = 0xB002 ∧ sub = 2 then inCoreRegion v 64
  else if idx = 0xB002 ∧ sub = 7 then migRule s key addr el v
  else if idx = 0xB100 then ringRule s sub el v
  else if idx = 0x2220 ∧ sub = 1 then cageRule s el v
  else if idx = 0x2030 ∧ sub = 2 then decide (floorOf s ≤ v)
  else if idx = 0x2030 ∧ sub = 3 then v != 0 || !s.boot.revoked.getLsbD el
  else true

/-! ## Check 8, second part: the object's state allows the write; false is BUSY -/

/-- A queue whose chain passes node `n` of level `l` holds a frame (08 R177). -/
def nodeHolds (s : State) (l n : Nat) : Bool :=
  s.shp.queues.any (fun e => !e.2.frames.isEmpty && (chainOf s e.1).contains (l, n))

/-- The value in force of an element and those of accepted writes that wait for a boundary. -/
def valuesComing (s : State) (idx sub el : Nat) : List Nat :=
  objGet s idx sub el :: ((s.objs.pend.flatMap (·.values)).filter (fun v => v.1 == okey idx sub el)).map (·.2)

/-- Some queue that holds a frame would change its protection, with the class it has or one it is about to have (08 R183). -/
def maskMoves (s : State) (v : Nat) : Bool :=
  s.shp.queues.any (fun e =>
    !e.2.frames.isEmpty && (valuesComing s 0x7100 0x13 e.1).any (fun c => v.testBit c != isProtected s e.1))

/-- The same for a queue's class, with the mask in force or one about to be (08 R183). -/
def classMoves (s : State) (q v : Nat) : Bool :=
  !(queue s q).frames.isEmpty && (valuesComing s 0x7000 0x01 0).any (fun m => m.testBit v != isProtected s q)

/-- Queues that a write of enable counts: enabled and draining ones, and those whose enable has been accepted (08 R179). -/
def declaredRoom (s : State) (q : Nat) : Bool :=
  let asked := (((s.objs.pend.flatMap (fun w => w.values)).filter (fun v =>
    okeyIdx v.1 == 0x7100 && okeySub v.1 == 0x10 && v.2 == 1 && okeyEl v.1 != q &&
      (queue s (okeyEl v.1)).state == .disabled)).map (·.1)).eraseDups
  match s.tt.cur with
  | some i => decide (enabledQueues s + asked.length + 1 ≤ hdrFld i 0x20 32)
  | none => true

def sliceIdle (s : State) (sl : Nat) : Bool :=
  match (slice s sl).state with | .free => true | .disabled => true | _ => false

/-- A raise of sc_level: no resident or staged image has more grants than the new level allows (03 R68, 09 R199). -/
def levelRule (s : State) (v : Nat) : Bool :=
  decide (v ≤ objNext s 0x8000 0x01 0) ||
    [s.tt.cur, s.tt.old, s.tt.staged].all (fun i => match i with
      | some i => decide (hdrFld i 0x24 32 ≤ cipherCapacity v)
      | none => true)

/-- The state rules of the chapters for objects of the control cores. -/
def stateOk (s : State) (idx sub el v : Nat) : Bool :=
  if idx = 0x4000 then (List.range 32).all (fun p => (portLanes s p).isEmpty || !adminUp s p)
  else if 0x4100 ≤ idx ∧ idx ≤ 0x411F ∧ sub ≤ 2 then
    (blockLanes s (idx - 0x4100)).all (fun n => !adminUp s (portOfLane s n))
  else if idx ∈ [0x7100, 0x7200, 0x7300, 0x7400] ∧ sub = 1 then !nodeHolds s ((idx - 0x7100) / 0x100) el
  else if idx = 0x7100 ∧ sub = 0x10 then
    !(v == 1 && (queue s el).state == .disabled) || declaredRoom s el
  else if idx = 0x7100 ∧ sub = 0x13 then !classMoves s el v
  else if idx = 0x7000 ∧ sub = 1 then !maskMoves s v
  else if idx = 0x8000 ∧ sub = 1 then levelRule s v
  else if 0xA100 ≤ idx ∧ idx ≤ 0xA103 ∧ sub = 6 then !vfEnabled s (idx - 0xA100)
  else if idx = 0xA800 then (match (chan s el).state with | .idle => true | .quarantined => true | _ => false)
  else if (idx = 0xB000 ∧ sub ≠ 3) ∨ idx = 0xB001 then sliceIdle s el
  else if idx = 0xB100 ∧ sub ≠ 1 then qpObj s el 0x01 == 0
  else true

/-- The state as a later element of one WRITE meets it: an earlier element's value is accepted (16 R372, R382), and a binding
is in force. -/
def assumed (s : State) (k v : Nat) : State :=
  let t := objPutKey s k v
  let t := if okeyIdx k = 0xB000 ∧ okeySub k = 0x06 then setBinding t (okeyEl k) v else t
  { t with objs := { t.objs with pend := t.objs.pend ++ [⟨0, [(k, v)], [], false⟩] } }

/-- Every element of a WRITE passes a check of part 8, each against the state with the earlier elements accepted. -/
def eachOk (f : State → Nat → Nat → Nat → Nat → Bool) (s : State) (idx sub : Nat) : List (Nat × Nat) → Bool
  | [] => true
  | (el, v) :: r => f s idx sub el v && eachOk f (assumed s (okey idx sub el) v) idx sub r

/-! ## What an accepted write does: the state, and an error when its effect is refused -/

/-- The outcome of an effect that may be refused with BUSY. -/
def orBusy (s : State) (t : Option State) : State × Nat := match t with | some t => (t, 0) | none => (s, 8)

def orError (s : State) (t : Nat ⊕ State) : State × Nat := match t with | .inr t => (t, 0) | .inl e => (s, e)

/-- snapshot_freeze (20 R459): the present snapshot is held, or let go. -/
def freezeWrite (s : State) (v : Nat) : State :=
  let s := objPut s 0xD000 0x02 0 v
  if v = 0 then { s with logs := { s.logs with frozen := none } }
  else if s.logs.frozen.isSome then s
  else { s with logs := { s.logs with frozen := some (s.logs.snap, s.logs.snapBeat) } }

/-- Objects of the island. -/
def islandWrite (s : State) (idx sub el v : Nat) : State × Nat :=
  if calibObject idx sub then calibWrite s (okey idx sub el) v
  else match idx, sub with
    | 0x1020, _ => ({ s with boot := { s.boot with nonce := some (leBytes 32 v), signature := none } }, 0)
    | 0x2010, 0x01 => (if v = 1 then confirm s else s, 0)
    | 0x2010, 0x02 => (writeRecord (objPut s idx sub el v), 0)
    | 0x2020, 0x01 => orBusy s (imageTypeWrite s v)
    | 0x2020, 0x03 => if v = 1 then orBusy s (imageCommit s) else (s, 0)
    | 0x2030, 0x02 => orError s ((floorAdvance s v).map id (fun t => objPut t idx sub el v))
    | 0x2030, 0x03 => orError s (revokeKey s el v)
    | 0x2100, 0x01 => orBusy s (mainPowerWrite s v)
    | 0x2110, 0x01 => let r := islandPowerWrite s el v; (r.1, if r.2 then 0 else 8)
    | 0x2220, 0x01 => (cageLanesWrite s el v, 0)
    | 0xD000, 0x02 => (freezeWrite s v, 0)
    | 0xD010, _ => (dapWrite s el v, 0)
    | 0xE010, _ => (if v = 1 then faultErase s else s, 0)
    | _, _ => (objPut s idx sub el v, 0)

/-- A write of slice_cmd; refused with BUSY where Table 12-1 or SAVE refuses it (12 R284, R292). -/
def cmdWrite (s : State) (sl v : Nat) : State × Nat :=
  let t := sliceCmd s sl v
  (t, if (slice t sl).result = 1 then 8 else 0)

/-- A write of mig_key_material: a Kennel WRITE of KIND AES-256 for the slice, which a slice that drains aborts (12 R287,
R293). -/
def migWrite (s : State) (key : BitVec 256) (addr : List Byte) (sl v : Nat) : State × Nat :=
  match migKey key addr v with
  | none => (s, 5)
  | some m =>
    let n := objGet s 0xB002 0x01 sl
    if sliceDraining s (some sl) ∨ !slotOwned s (some sl) true n then (s, 8)
    else match coreKeyOp s sl n (fun s => slotWrite s n 2 m (some sl)) with
      | none => (s, 8)
      | some t => (t.2, if t.1 = 0 then 0 else 8)

/-- Objects of the control cores that take effect at once. -/
def coresWrite (s : State) (key : BitVec 256) (addr : List Byte) (idx sub el v : Nat) : State × Nat :=
  match idx, sub with
  | 0x9000, 0x01 => orBusy s (pairEnableWrite s v)
  | 0x9000, 0x08 => if v = 1 then orBusy s (transferGo s) else (s, 0)
  | 0x9000, 0x09 => (if v = 1 then hardFault s 7 0 else s, 0)
  | 0x9000, _ => (objPut s idx sub el v, 0)
  | 0x5001, 0x03 => if v = 1 then orBusy s (swapGo s) else (s, 0)
  | 0xB000, 0x03 => cmdWrite s el v
  | 0xB002, 0x07 => migWrite s key addr el v
  | _, _ => (coreWrite s idx sub el v, 0)

/-- The effect of one element's write. -/
def objEffect (s : State) (key : BitVec 256) (addr : List Byte) (k v : Nat) : State × Nat :=
  let idx := okeyIdx k
  if coreIndex idx then coresWrite s key addr idx (okeySub k) (okeyEl k) v
  else islandWrite s idx (okeySub k) (okeyEl k) v

/-- The effects of a write's elements, in order; one that is refused refuses the write whole, and leaves only what its
refusal itself does. -/
def objEffects (s : State) (key : BitVec 256) (addr : List Byte) : State → List (Nat × Nat) → State × Nat
  | t, [] => (t, 0)
  | t, (k, v) :: r =>
    let u := objEffect t key addr k v
    if u.2 = 0 then objEffects s key addr u.1 r else ((objEffect s key addr k v).1, u.2)

/-- An accepted write enters the delta (14 Table 14-1). Key material never crosses the link in clear (14 R323): the record of
mig_key_material carries 0, and the key travels in a KENNEL record. -/
def recordWrite (s : State) (vals : List (Nat × Nat)) : State :=
  vals.foldl (fun s e => record s (.object e.1 (if okeyIdx e.1 = 0xB002 ∧ okeySub e.1 = 7 then 0 else e.2))) s

/-- An accepted write stores fresh pairs and lifts the quarantine (16 R373). -/
def liftQuarantine (s : State) (vals : List (Nat × Nat)) : State :=
  { s with uhl := { s.uhl with quarantined := s.uhl.quarantined.filter (fun k => !vals.any (fun e => e.1 == k)) } }

end Sys2Proof.Machine
end

