-- ==== Sys2Proof/Machine/Uhlist.lean ====
section
/-!
DEFINITION. The Uhlist server (16): receipt of PDUs, sessions, the order of requests, DESCRIBE, READ, WRITE, block
transfers, events and the mailbox.
-/

namespace Sys2Proof.Machine

/-! ## Receipt (16 R377, R389–R391) -/

/-- The control cores serve: the main domain is on, firmware has started and a core is online (01 R12, R13, 07 R173). -/
def coresServe (s : State) : Bool := mainOn s && s.boot.stage == .running && !(coresOnline s).isEmpty

/-- The island serves: its loader runs. -/
def islandServes (s : State) : Bool := match s.boot.stage with | .whelp => false | .halted => false | _ => true

/-- The operation and PDU that some bytes spell; none: the PDU is discarded (16 R377). -/
def parsePdu (t : Nat) (bs : List Byte) : Option (Nat × Pdu) :=
  let w := leNat (bytesAt bs 0 16)
  let session := w >>> 16 % 2 ^ 16
  let len := w >>> 64 % 2 ^ 13
  if w % 256 ≠ 1 ∨ w.testBit 15 ∨ w >>> 77 % 8 ≠ 0 ∨ w >>> 88 ≠ 0 ∨ bodyMax t < len ∨
      bs.length < 16 + len + (if session = 0 then 0 else 16) then none
  else some (w >>> 8 % 64, ⟨t, session, w >>> 32 % 2 ^ 32, bytesAt bs 16 len,
    if session = 0 then 0 else BitVec.ofNat 128 (leNat (bytesAt bs (16 + len) 16))⟩)

/-- The bytes that a mailbox submits. -/
def boxRequest (b : Mailbox) : List Byte := (List.range b.reqLen.toNat).map (fun i => sget 0 b.req i)

/-- The payload of an Ethernet frame, and its sender: source MAC and port. -/
def framePayload (f : Nat × List Byte) : List Byte := f.2.drop 14
def framePeer (f : Nat × List Byte) : Nat × Nat := (beNat (bytesAt f.2 6 6), f.1)

/-- What waits on a transport: the bytes, where the transport holds them, the sender, and the state without them. -/
def waiting (s : State) (t : Nat) : Option (Option (List Byte) × (Nat × Nat) × State) :=
  if t = 0 then (if islandServes s then some (none, (0, 0), s) else none)
  else if !coresServe s then none
  else if t ≤ 4 then
    let b := box s (t - 1)
    if b.busy then some (some (boxRequest b), (0, 0), s) else none
  else if t = 5 then
    match s.uhl.inband with
    | [] => none
    | f :: r => some (some (framePayload f), framePeer f, { s with uhl := { s.uhl with inband := r } })
  else none

/-- A PDU that gets no reply; a mailbox ends REQ_BUSY (16 R390). -/
def discardPdu (s : State) (t : Nat) : State := if 1 ≤ t ∧ t ≤ 4 then boxReply s (t - 1) [] else s

def malformed (s : State) (t : Nat) : State := discardPdu (countUhl (countUhl s t 0x01) t 0x03) t

/-- A PDU that names a session that is not open; the mailbox answers NO_SESSION, under a tag that no key gives (16 R380,
Table 16-6). -/
def noSession (s : State) (op : Nat) (p : Pdu) : State :=
  let s := countUhl s p.transport 0x04
  if 1 ≤ p.transport ∧ p.transport ≤ 4 then
    if p.session = 0 then sendReply s p.transport op 0 p.seq 0x0B [] none (0, 0)
    else
      let r := draw s
      sendReply r.2 p.transport op p.session p.seq 0x0B [] (some (r.1.setWidth 256)) (0, 0)
  else s

/-! ## OPEN and PROVE (16 R378, R379) -/

def roleOf (n : Nat) : Role := match n with | 0 => .factory | 1 => .operator | 2 => .hostDriver | _ => .tenant

def roleNo : Role → Nat
  | .factory => 0 | .operator => 1 | .hostDriver => 2 | .tenant => 3

/-- The first number from `n` on that no session of the transport has. -/
def freeSession (s : State) (t : Nat) : Nat → Nat → Nat
  | 0, n => n
  | k + 1, n =>
    let n := if n = 0 ∨ 65535 < n then 1 else n
    if (sessionFind s t n).isSome then freeSession s t k (n + 1) else n

/-- OPEN that names no session: refused, or a session is assigned. DESIGN CHOICE (assumption 276): a client key that is no
point of the curve is answered AUTH. -/
def openSession (s : State) (p : Pdu) (peer : Nat × Nat) : State :=
  let t := p.transport
  let say (s : State) (err : Nat) (body : List Byte) : State := sendReply s t 1 0 p.seq err body none peer
  let role := (byteAt p.body 0).toNat
  if p.body.length ≠ 99 then say s 0x0F []
  else if identityState s = 3 ∨ 3 < role then say (countUhl s t 0x05) 0x0A []
  else if sessionLimit t ≤ (s.uhl.sessions.filter (fun x => x.transport == t)).length then say (countUhl s t 0x05) 0x08 []
  else
    let num := freeSession s t (s.uhl.sessions.length + 1) s.uhl.nextNum
    let nonce := leBytes 32 (Config.drbg (2 ^ 65 + s.fresh)).toNat
    let d := ecScalar (Config.drbg (2 ^ 67 + s.fresh))
    let reply := leBytes 2 num ++ nonce ++ ecPublic d
    let hash := sha256 (p.body ++ reply)
    match ecdh d (bytesAt p.body 35 64) with
    | none => say (countUhl s t 0x05) 0x0A []
    | some z =>
    let key := hmac z (bytesAt p.body 3 32 ++ nonce ++ [0x55, 0x68, 0x6C, 0x69, 0x73, 0x74])
    let r := signDigest { s with fresh := s.fresh + 1 } hash
    let x : Session :=
      { transport := t, num := num, role := roleOf role, slice := leNat (bytesAt p.body 1 2) % 16384, hash := hash, key := key,
        proved := false, closing := false, expect := 1, held := [], cache := [], mask := 0, events := [], missed := 0,
        unacked := [], eventSeq := 1, stream := none, peer := peer, since := islandUs s }
    let s := { r.2 with uhl := { r.2.uhl with sessions := r.2.uhl.sessions ++ [x], nextNum := num + 1 } }
    say s 0 (reply ++ bytesAt r.1 0 64)

/-- The public key that a role's KEY_INDEX names. -/
def roleKey (s : State) (x : Session) (ki : Nat) : Option (List Byte) :=
  match x.role with
  | .factory => if ki = 0 ∧ sha256 Config.factoryKey = Config.factoryKeyHash then some Config.factoryKey else none
  | .operator => if ki < 8 then some (leBytes 64 (objGet s 0x1030 0x02 ki)) else none
  | .hostDriver => if ki < 4 then some (leBytes 64 (objGet s 0x1030 0x03 ki)) else none
  | .tenant => if (slice s x.slice).bound.isNone then none else some (leBytes 64 (objGet s 0xB003 0x01 x.slice))

/-- The PROVE is good: the signature of the role key, or an open mailbox. -/
def proveOk (s : State) (x : Session) (body : List Byte) : Bool :=
  let ki := (byteAt body 0).toNat
  if x.role = .hostDriver ∧ ki = 0xFF then
    decide (1 ≤ x.transport) && decide (x.transport ≤ 4) && objOn s 0x1030 0x04 0 && !body.isEmpty
  else
    match roleKey s x ki with
    | none => false
    | some k => body.length == 65 && k.any (fun b => b != 0) &&
        ecdsaVerify k (body.drop 1) (sha256 (digestBytes x.hash ++ [1]))

def proveSession (s : State) (x : Session) (p : Pdu) : State :=
  if proveOk s x p.body then sessionReply s { x with proved := true } 0 2 p.body 0 []
  else sessionDrop (sendReply (countUhl s x.transport 0x05) x.transport 2 x.num 0 0x0A [] (some x.key) x.peer) x.transport x.num

/-! ## Addresses and visibility (16 R369, R371, R382, R386–R388) -/

/-- An object address. -/
structure ObjAddr where
  idx : Nat
  sub : Nat
  el  : Option Nat
deriving DecidableEq, Repr

/-- The 8 bytes of an address; none: a reserved bit is set. -/
def addrOf (body : List Byte) : Option ObjAddr :=
  let w := leNat (bytesAt body 0 8)
  if w >>> 25 % 128 ≠ 0 then none
  else some ⟨w % 2 ^ 16, w >>> 16 % 256, if w.testBit 24 then some (w >>> 32) else none⟩

/-- A role's access to an object: bit 0 read, bit 1 write. -/
def accessOf (r : Role) (d : ObjDesc) : Nat := d.acc >>> (4 * roleNo r) % 4

/-- A tenant sees its slice's subtree, where its role has some access; the other roles see every object. -/
def sees (r : Role) (idx : Nat) (d : ObjDesc) : Bool :=
  match r with
  | .tenant => ((decide (0xB000 ≤ idx) && decide (idx ≤ 0xBFFF)) || idx == 0xC0F0) && accessOf r d != 0
  | _ => true

/-- The subs of an index that a role sees. -/
def subsSeen (r : Role) (idx : Nat) : List ObjDesc :=
  directory.filter (fun d => decide (d.lo ≤ idx) && decide (idx ≤ d.hi) && sees r idx d)

/-- Sub 0x00 of an index: its highest sub. -/
def topSub (idx : Nat) : Nat :=
  ((directory.filter (fun d => decide (d.lo ≤ idx) && decide (idx ≤ d.hi))).map (·.sub)).foldl max 0

/-- A tenant names an element of a per-slice object: an element outside its subtree, as an object that does not exist
(16 R386, 12 Table 12-2, assumption 240). -/
def foreignElement (x : Session) (a : ObjAddr) : Bool :=
  x.role == .tenant && ((decide (0xB000 ≤ a.idx) && decide (a.idx < 0xB010)) || a.idx == 0xC0F0) && a.sub != 0 && a.el.isSome

/-- The descriptor of an object that the session sees; sub 0x00 is a U8 that can be read. -/
def objSeen (x : Session) (a : ObjAddr) : Option ObjDesc :=
  if a.sub = 0 then
    match subsSeen x.role a.idx with
    | [] => none
    | _ =>
      let acc := 0x0111 + (if (subsSeen .tenant a.idx).isEmpty then 0 else 0x1000)
      some ⟨a.idx, a.idx, 0, 2, acc, 0, topSub a.idx, 0, 0, 255, 1, 0, ""⟩
  else match objDesc a.idx a.sub with
    | some d => if sees x.role a.idx d && !foreignElement x a then some d else none
    | none => none

/-- Elements that exist for the session: `base` and how many from the element named on; none: NO_ELEMENT. -/
def objElements (s : State) (x : Session) (d : ObjDesc) (a : ObjAddr) (count : Nat) : Option (List Nat) :=
  let run (base el limit : Nat) : Option (List Nat) :=
    if el + count ≤ limit then some ((List.range count).map (fun i => base + el + i)) else none
  let perSlice := (decide (0xB000 ≤ a.idx) && decide (a.idx < 0xB010)) || a.idx == 0xC0F0
  let isView := a.idx == 0xB020
  if x.role = .tenant ∧ perSlice ∧ a.sub ≠ 0 then
    if count = 1 then some [x.slice] else none
  else if d.elems = 0 then
    match a.el with
    | none => if count = 1 then some [0] else none
    | some _ => none
  else match a.el with
    | none => none
    | some e =>
      if x.role = .tenant then
        if isView then run (131072 * x.slice) e (min 131072 (viewQueues s x.slice).length)
        else run (64 * x.slice) e 64
      else if isView then
        let sl := e / 131072
        if 16384 ≤ sl then none else run (131072 * sl) (e % 131072) (min 131072 (viewQueues s sl).length)
      else run 0 e d.elems

/-- The server of an index cannot be reached (01 R13, 17 R399). -/
def unreachable (s : State) (idx : Nat) : Bool := coreIndex idx && !islandCounter idx && !coresServe s

/-- dap_register in lock level CLOSED (20 R451). -/
def dapClosed (idx : Nat) : Bool := idx == 0xD010 && Config.lockLevel == 2

/-- island_power of island 0 is read-only (19 R447). -/
def fixedElement (a : ObjAddr) (es : List Nat) : Bool := a.idx == 0x2110 && a.sub == 1 && es.contains 0

/-- A paired device that is not active refuses writes of the control cores' ranges, 0x9000 apart (16 R394). -/
def notActive (s : State) (idx : Nat) : Bool :=
  coreIndex idx && idx != 0x9000 && (match s.pair.state with | .single => false | .active => false | _ => true)

/-! ## DESCRIBE (16 R376) -/

def asciiBytes (n : Nat) (t : String) : List Byte := bytesAt (t.toList.map (fun c => BitVec.ofNat 8 c.toNat)) 0 n

/-- Elements and FLAGS as the session's role numbers them (16 R371, R388). -/
def describeElems (s : State) (x : Session) (d : ObjDesc) (idx : Nat) : Nat × Nat :=
  if x.role = .tenant then
    let n := if (0xB000 ≤ idx ∧ idx < 0xB010) ∨ idx = 0xC0F0 ∨ d.sub = 0 then 0
      else if idx = 0xB020 then (viewQueues s x.slice).length else 64
    (n, d.flags % 4)
  else (d.elems, if d.sub ≠ 0 ∧ (idx = 0xB020 ∨ idx = 0xB010 ∨ idx = 0xB100) then d.flags ||| 4 else d.flags % 4)

def describeBody (s : State) (x : Session) (d : ObjDesc) (a : ObjAddr) (addr : List Byte) : List Byte :=
  let n := describeElems s x d a.idx
  let dflt := if d.ty = 10 then d.least.toNat else d.dfltAt a.idx 0
  addr ++ leBytes 1 (d.ty + (if n.1 = 0 then 0 else 0x80)) ++ leBytes 1 n.2 ++ leBytes 2 d.acc ++ leBytes 4 n.1 ++
    leBytes 8 dflt ++ leBytes 8 (unsigned 64 d.least) ++ leBytes 8 (unsigned 64 d.most) ++ asciiBytes 8 d.unit

/-! ## Replies of a session -/

def answer (s : State) (t num : Nat) (op : Nat) (p : Pdu) (err : Nat) (body : List Byte) : State :=
  match sessionFind s t num with
  | some x => sessionReply s x p.seq op p.body err body
  | none => s

/-- The reply OK of an accepted write, until its entry is released (16 R383). -/
def holdWrite (s : State) (x : Session) (op : Nat) (p : Pdu) : State :=
  match sessionFind s x.transport x.num with
  | some x => holdReply s x p.seq op p.body
  | none => s

/-! ## READ (16 R382) -/

/-- The checks of a read, in the order of Table 16-2: an error, or the descriptor and the elements. The timetable state objects
are answered with 0 while the main domain is off (15 R368). -/
def readChecks (s : State) (x : Session) (a : ObjAddr) (count : Nat) : Nat ⊕ (ObjDesc × List Nat) :=
  match objSeen x a with
  | none => .inl 1
  | some d =>
    match objElements s x d a count with
    | none => .inl 2
    | some es =>
      if !(accessOf x.role d).testBit 0 || dapClosed a.idx then .inl 3
      else if unreachable s a.idx && !(a.idx == 0x5000 && !mainOn s) then .inl 6
      else if es.any (fun e => s.uhl.quarantined.contains (okey a.idx a.sub e)) then .inl 9
      else .inr (d, es)

/-- Bytes of one value; long OCTETS are as long as they are. -/
def valueSize (s : State) (d : ObjDesc) (a : ObjAddr) : Nat :=
  match (if d.ty = 10 then longOctets s a.idx else none) with
  | some b => b.length
  | none => d.size

def readValues (s : State) (d : ObjDesc) (a : ObjAddr) (es : List Nat) : List Byte × State :=
  if a.sub = 0 then (leBytes 1 (topSub a.idx), s) else objsBytes s d a.idx a.sub es

def serveRead (s : State) (x : Session) (p : Pdu) : (Nat × List Byte) × State :=
  match addrOf p.body with
  | none => ((0x0F, []), s)
  | some a =>
    if p.body.length ≠ 10 then ((0x0F, []), s)
    else
      let count := max 1 (leNat (bytesAt p.body 8 2))
      match readChecks s x a count with
      | .inl e => ((e, []), s)
      | .inr (d, es) =>
        let n := valueSize s d a
        if bodyMax x.transport < 8 + es.length * n ∨ (d.ty = 10 ∧ 1024 < n) then ((0x0D, []), s)
        else
          let r := readValues s d a es
          ((0, p.body.take 8 ++ r.1), r.2)

/-- BLOCK_READ (16 R384): OCTETS alone. -/
def serveBlockRead (s : State) (x : Session) (p : Pdu) : (Nat × List Byte) × State :=
  match addrOf p.body with
  | none => ((0x0F, []), s)
  | some a =>
    if p.body.length ≠ 14 then ((0x0F, []), s)
    else
      match readChecks s x a 1 with
      | .inl e => ((e, []), s)
      | .inr (d, es) =>
        if d.ty ≠ 10 then ((4, []), s)
        else
          let r := readValues s d a es
          let bs := (r.1.drop (leNat (bytesAt p.body 8 4))).take (leNat (bytesAt p.body 12 2))
          if bodyMax x.transport < bs.length then ((0x0D, []), s) else ((0, bs), r.2)

/-! ## WRITE (16 R383) -/

/-- Values of `n` bytes each, as numbers. -/
def valuesOf (n : Nat) : Nat → List Byte → List Nat
  | 0, _ => []
  | k + 1, bs => leNat (bs.take n) :: valuesOf n k (bs.drop n)

/-- A host driver writes channel_vector for channels of the functions it drives alone (11 Table 11-11): over the mailbox of a
link, those of that link; a session on another transport drives none (assumption 241). -/
def vectorAllowed (s : State) (x : Session) (a : ObjAddr) (es : List Nat) : Bool :=
  !(a.idx == 0xA200 && x.role == .hostDriver) ||
    es.all (fun c => (ownerFn s (channelOwner s c)).1 + 1 == x.transport)

/-- Checks 1 to 8 of a write, but for the room: an error, or the values with their keys. -/
def writeChecks (s : State) (x : Session) (a : ObjAddr) (count : Nat) (addr data : List Byte) : Nat ⊕ List (Nat × Nat) :=
  match objSeen x a with
  | none => .inl 1
  | some d =>
    match objElements s x d a count with
    | none => .inl 2
    | some es =>
      let vals := es.zip (valuesOf d.size count data)
      if !(accessOf x.role d).testBit 1 || dapClosed a.idx || fixedElement a es || !vectorAllowed s x a es then .inl 3
      else if d.ty = 11 ∨ data.length ≠ count * d.size then .inl 4
      else if vals.any (fun v => !valueOk d a.idx a.sub v.1 v.2) then .inl 5
      else if unreachable s a.idx then .inl 6
      else if notActive s a.idx then .inl 7
      else if !eachOk (fun s => relationOk s x.key addr) s a.idx a.sub vals then .inl 5
      else if coreIndex a.idx && !eachOk stateOk s a.idx a.sub vals then .inl 8
      else .inr (vals.map (fun v => (okey a.idx a.sub v.1, v.2)))

/-- A write becomes accepted work of KIND 4 (13 R299). -/
def acceptWrite (s : State) (x : Session) (seq : Nat) : Nat × State :=
  let own : Bool := x.role == .tenant
  ledAccept s .object (replyQueue x.transport x.num) (if own then x.slice else 0) (!own) false
    (.reply (x.num * 2 ^ 32 + seq % 2 ^ 32))

/-- A write that takes effect at once. The island's own ranges are served whether or not the main domain takes work: then
the write has no ledger entry, and its reply leaves at once (01 R12, 19 R438). -/
def writeNow (s : State) (x : Session) (op : Nat) (p : Pdu) (core : Bool) (eff : State → State × Nat) : State :=
  let led := core || (mainOn s && s.pwr.hold.isNone)
  if led && !ledRoom s .object then answer s x.transport x.num op p 8 []
  else if led then
    let r := acceptWrite s x p.seq
    let t := eff (ledRun r.2 r.1)
    if t.2 ≠ 0 then answer (eff s).1 x.transport x.num op p t.2 []
    else
      let u := ledDone t.1 r.1 0 0
      if (ledGet u r.1).isSome then holdWrite u x op p else answer u x.transport x.num op p 0 []
  else
    let t := eff s
    answer t.1 x.transport x.num op p t.2 []

/-- A place in the control sequencer of each pipeline that a write must reach (16 R393). -/
def seqRoom (s : State) (idx sub : Nat) : Bool :=
  (seqClass idx sub).isNone || (seqReach s idx).all (fun p => decide ((s.pipe.ctl.getD p []).length < 256))

/-- A run-time parameter write waits in its sequencers, or for the boundary alone (01 R22, 16 R393). -/
def writeAtBoundary (s : State) (x : Session) (op : Nat) (p : Pdu) (idx sub : Nat) (vals : List (Nat × Nat)) : State :=
  if !seqRoom s idx sub then answer (count s 0xC050 0x07) x.transport x.num op p 8 []
  else if !ledRoom s .object then answer s x.transport x.num op p 8 []
  else
    let r := acceptWrite s x p.seq
    let ps := if (seqClass idx sub).isSome then seqReach s idx else []
    let c : SeqCmd := if seqClass idx sub = some true then .stop r.1 else .write r.1
    let t := liftQuarantine (recordWrite r.2 vals) vals
    let t := { t with
      objs := { t.objs with pend := t.objs.pend ++ [⟨r.1, vals, ps, seqClass idx sub == some true⟩] }
      pipe := { t.pipe with ctl := ps.foldl (fun m k => lset m k (m.getD k [] ++ [c])) t.pipe.ctl } }
    holdWrite t x op p

/-- A write whose checks have passed. -/
def writePassed (s : State) (x : Session) (op : Nat) (p : Pdu) (a : ObjAddr) (vals : List (Nat × Nat)) : State :=
  if coreIndex a.idx && atBoundary a.idx a.sub then writeAtBoundary s x op p a.idx a.sub vals
  else
    writeNow s x op p (coreIndex a.idx) (fun t =>
      let r := objEffects t x.key (p.body.take 8) t vals
      if r.2 = 0 then (liftQuarantine (recordWrite r.1 vals) vals, 0) else r)

def serveWrite (s : State) (x : Session) (p : Pdu) : State :=
  let no (e : Nat) : State := answer s x.transport x.num 7 p e []
  match addrOf p.body with
  | none => no 0x0F
  | some a =>
    if p.body.length < 10 then no 0x0F
    else
      match writeChecks s x a (max 1 (leNat (bytesAt p.body 8 2))) (p.body.take 8) (p.body.drop 10) with
      | .inl e => no e
      | .inr vals => writePassed s x 7 p a vals

/-! ## BLOCK_WRITE (16 R384, 15 R362) -/

/-- The segment continues the session's stream for the object, or opens one. -/
def segmentFits (s : State) (x : Session) (key off : Nat) : Bool :=
  off == 0 || (x.stream == some (key, off) && (match s.boot.writing with | some (_, n) => n == off | none => true))

/-- A segment of image_write.data; OFFSET 0 starts the stream again. -/
def segmentEffect (off : Nat) (data : List Byte) (s : State) : State × Nat :=
  let s := if off = 0 then { s with boot := { s.boot with writing := s.boot.writing.map (fun w => (w.1, 0)) } } else s
  orBusy s (imageData s data)

def noteStream (s : State) (x : Session) (key n : Nat) : State :=
  match sessionFind s x.transport x.num with
  | some x => sessionPut s { x with stream := some (key, n) }
  | none => s

def serveBlockWrite (s : State) (x : Session) (p : Pdu) : State :=
  let no (e : Nat) : State := answer s x.transport x.num 9 p e []
  let off := leNat (bytesAt p.body 8 4)
  let data := p.body.drop 12
  match addrOf p.body with
  | none => no 0x0F
  | some a =>
    if p.body.length < 12 then no 0x0F
    else
      match objSeen x a with
      | none => no 1
      | some d =>
        if d.ty = 11 then
          let key := okey a.idx a.sub 0
          if a.el.isSome then no 2
          else if !(accessOf x.role d).testBit 1 then no 3
          else if !segmentFits s x key off then no 0x0E
          else writeNow s x 9 p false (fun t =>
            let r := segmentEffect off data t
            if r.2 = 0 then (noteStream r.1 x key (off + data.length), 0) else (t, r.2))
        else if d.ty = 10 ∧ off = 0 then
          match writeChecks s x a 1 (p.body.take 8) data with
          | .inl e => no e
          | .inr vals => writePassed s x 9 p a vals
        else if (objElements s x d a 1).isNone then no 2
        else if !(accessOf x.role d).testBit 1 || dapClosed a.idx then no 3
        else no 4

/-! ## Events (16 R385) -/

/-- Records of 32 bytes that one EVENT PDU holds. -/
def eventLimit (t : Nat) : Nat := bodyMax t / 32

/-- An EVENT PDU leaves. -/
def sendEvent (s : State) (x : Session) (seq : Nat) (rs : List EvRec) : State :=
  let body := rs.flatMap recordBytes
  let hb := pduHeader 11 false x.num seq body.length 0 ++ body
  let s := countUhl (countUhl s x.transport 0x02) x.transport 0x08
  let bs := hb ++ pduTag x.key hb
  if x.transport = 5 then inbandReply s x.peer bs
  else
    let s := emit s (.eventPdu x.transport x.num seq rs)
    if x.transport = 0 then s else boxEvent s (x.transport - 1) bs

/-- Records that no EVENT PDU has carried yet. -/
def unsentEvents (x : Session) : List EvRec := x.events.drop (x.unacked.map (·.2.1)).sum

/-- An EVENT PDU may be placed now: a mailbox takes one at a time. -/
def eventPlace (s : State) (t : Nat) : Bool := !(decide (1 ≤ t) && decide (t ≤ 4)) || !(box s (t - 1)).eventReady

/-- EVENT: the oldest records not sent yet. -/
def sendNextEvent (s : State) (x : Session) : State :=
  let rs := (unsentEvents x).take (eventLimit x.transport)
  if rs.isEmpty ∨ !x.proved ∨ x.closing ∨ !eventPlace s x.transport then s
  else
    let s := sessionPut s { x with unacked := x.unacked ++ [(x.eventSeq, rs.length, islandUs s)], eventSeq := x.eventSeq + 1 }
    sendEvent s x x.eventSeq rs

/-- The moment of the last sending of an EVENT PDU is this one. -/
def markSent (s : State) (x : Session) (seq : Nat) : State :=
  match sessionFind s x.transport x.num with
  | some y => sessionPut s { y with
      unacked := y.unacked.map (fun u => if u.1 = seq then (u.1, u.2.1, islandUs s) else u) }
  | none => s

/-- Unacknowledged PDUs are sent again, oldest first, each event_retry after its last sending (16 R385). -/
def resendEvents (s : State) (x : Session) : List (Nat × Nat × Nat) → List EvRec → State
  | [], _ => s
  | (seq, n, sent) :: r, es =>
    if !eventPlace s x.transport then s
    else if sent + objGet s 0x1040 0x03 0 * 1000 ≤ islandUs s then
      resendEvents (markSent (sendEvent s x seq (es.take n)) x seq) x r (es.drop n)
    else resendEvents s x r (es.drop n)

/-- The record of class 15 with the number missed is queued as soon as there is room; a tenant is given class 7 alone
(16 R386). -/
def queueMissed (s : State) (t num : Nat) : State :=
  match sessionFind s t num with
  | none => s
  | some x =>
    if x.missed = 0 ∨ 256 ≤ x.events.length ∨ x.role = .tenant then s
    else
      let e : EvRec := ⟨s.logs.newest + 1, islandUs s, 15, 0x0F01, 0, 0, 0, BitVec.ofNat 64 x.missed⟩
      let s := { s with logs := { s.logs with
        newest := s.logs.newest + 1, events := sput s.logs.events ((s.logs.newest + 1) % 4096) e } }
      sessionPut s { x with events := x.events ++ [e], missed := 0 }

/-- EVENT_ACK frees the records of every EVENT PDU up to `n`. -/
def ackEvents (s : State) (x : Session) (n : Nat) : State :=
  let gone := x.unacked.filter (fun u => decide (u.1 ≤ n))
  let s := sessionPut s { x with
    events := x.events.drop (gone.map (·.2.1)).sum, unacked := x.unacked.filter (fun u => !decide (u.1 ≤ n)) }
  queueMissed s x.transport x.num

/-! ## Requests in SEQ order (16 R380, R381) -/

/-- CLOSE: its reply leaves, and the session ends with its last reply. -/
def closeSession (s : State) (x : Session) (p : Pdu) : State :=
  let s := answer s x.transport x.num 3 p 0 []
  match sessionFind s x.transport x.num with
  | some y => settleSession (sessionPut s { y with closing := true, held := [] }) x.transport x.num
  | none => s

/-- One request, at its turn. -/
def serveRequest (s : State) (x : Session) (op : Nat) (p : Pdu) : State :=
  let say (s : State) (err : Nat) (body : List Byte) : State := answer s x.transport x.num op p err body
  match op with
  | 3 => if p.body.isEmpty then closeSession s x p else say s 0x0F []
  | 4 => say s (if p.body.isEmpty then 0 else 0x0F) []
  | 5 =>
    match addrOf p.body with
    | none => say s 0x0F []
    | some a =>
      if p.body.length ≠ 8 then say s 0x0F []
      else match objSeen x a with
        | none => say s 1 []
        | some d => if unreachable s a.idx then say s 6 [] else say s 0 (describeBody s x d a p.body)
  | 6 => let r := serveRead s x p; say r.2 r.1.1 r.1.2
  | 7 => serveWrite s x p
  | 8 => let r := serveBlockRead s x p; say r.2 r.1.1 r.1.2
  | 9 => serveBlockWrite s x p
  | 10 =>
    if p.body.length = 2 then say (sessionPut s { x with mask := BitVec.ofNat 16 (leNat p.body) }) 0 [] else say s 0x0F []
  | 12 => if p.body.length = 4 then say (ackEvents s x (leNat p.body)) 0 [] else say s 0x0F []
  | _ => say s 0x0F []

/-- A request of the session that has not taken effect. -/
def sessionWaits (s : State) (t num : Nat) : Bool :=
  s.led.entries.any (fun e => ofSession t num e.2 && e.2.state != .done)

/-- Requests of a session whose turn has come are executed, at most `n`. -/
def pumpSession (s : State) (t num : Nat) : Nat → State
  | 0 => s
  | n + 1 =>
    match sessionFind s t num with
    | none => s
    | some x =>
      if !x.proved ∨ x.closing ∨ sessionWaits s t num then s
      else match x.held.find? (fun h => h.2.1.seq == x.expect) with
        | none => s
        | some h =>
          let y := { x with held := x.held.filter (fun g => g.2.1.seq != x.expect), expect := x.expect + 1, peer := h.2.2 }
          pumpSession (serveRequest (sessionPut s y) y h.1 h.2.1) t num n

/-- Every session's requests whose turn has come. -/
def pumpSessions (s : State) : State := s.uhl.sessions.foldl (fun s x => pumpSession s x.transport x.num 17) s

/-- The cached reply of a duplicate may be sent: it has been, or its ledger entry is gone. -/
def replyFree (s : State) (x : Session) (c : CachedReply) : Bool :=
  c.sent || !s.led.entries.any (fun e => ofSession x.transport x.num e.2 && (replyRef e.2).2 == c.seq)

/-- A duplicate: its cached reply again, to its own sender, or nothing. -/
def duplicate (s : State) (x : Session) (p : Pdu) (peer : Nat × Nat) : State :=
  let s := countUhl s x.transport 0x06
  match x.cache.find? (fun c => c.seq == p.seq) with
  | some c =>
    match c.reply with
    | some r =>
      if c.body = p.body ∧ replyFree s x c then sendReply s x.transport c.op x.num c.seq r.1 r.2 (some x.key) peer
      else discardPdu s x.transport
    | none => discardPdu s x.transport
  | none => discardPdu s x.transport

/-- A request of an open session, by its SEQ. -/
def windowed (s : State) (x : Session) (op : Nat) (p : Pdu) (peer : Nat × Nat) : State :=
  if x.expect ≤ p.seq ∧ p.seq ≤ x.expect + 15 then
    if x.held.any (fun h => h.2.1.seq == p.seq) then discardPdu s x.transport
    else pumpSession (sessionPut s { x with held := x.held ++ [(op, p, peer)] }) x.transport x.num 17
  else if p.seq < x.expect ∧ x.expect ≤ p.seq + 16 then duplicate s x p peer
  else sendReply (countUhl s x.transport 0x07) x.transport op x.num p.seq 0x0C [] (some x.key) peer

/-- The tag over header and body is right. -/
def tagOk (x : Session) (op : Nat) (p : Pdu) : Bool :=
  pduTag x.key (pduHeader op false p.session p.seq p.body.length 0 ++ p.body) == leBytes 16 p.tag.toNat

/-- A PDU that is no OPEN, by the session it names. -/
def inSession (s : State) (op : Nat) (p : Pdu) (peer : Nat × Nat) : State :=
  match sessionFind s p.transport p.session with
  | none => noSession s op p
  | some x =>
    let y := { x with since := islandUs s }
    if !tagOk x op p then discardPdu (countUhl s p.transport 0x04) p.transport
    else if !x.proved then (if op = 2 ∧ p.seq = 0 then proveSession s { y with peer := peer } p else noSession s op p)
    else if x.closing then noSession s op p
    else windowed (sessionPut s y) y op p peer

/-- A PDU of a transport is taken. Where the transport holds the bytes, the command is the one that they spell. -/
def takePdu (s : State) (op : Nat) (p : Pdu) : State :=
  match waiting s p.transport with
  | none => s
  | some (bs, peer, t) =>
    let spelt : Bool := match bs with
      | some b => parsePdu p.transport b == some (op, p)
      | none => true
    if !spelt then s
    else if bodyMax p.transport < p.body.length then malformed t p.transport
    else
      let t := countUhl t p.transport 0x01
      if p.session = 0 then (if op = 1 then openSession t p peer else noSession t op p) else inSession t op p peer

/-! ## The commands -/

/-- OPEN (16 R378). -/
def execUhOpen (pdu : Pdu) (s : State) : Host.Outcome State Fault Refusal := .next (takePdu s 1 pdu)
/-- PROVE (16 R378). -/
def execUhProve (pdu : Pdu) (s : State) : Host.Outcome State Fault Refusal := .next (takePdu s 2 pdu)
/-- CLOSE (16 R380). -/
def execUhClose (pdu : Pdu) (s : State) : Host.Outcome State Fault Refusal := .next (takePdu s 3 pdu)
/-- KEEPALIVE (16 R380). -/
def execKeepalive (pdu : Pdu) (s : State) : Host.Outcome State Fault Refusal := .next (takePdu s 4 pdu)
/-- DESCRIBE (16 R376). -/
def execUhDescribe (pdu : Pdu) (s : State) : Host.Outcome State Fault Refusal := .next (takePdu s 5 pdu)
/-- READ (16 R382). -/
def execUhRead (pdu : Pdu) (s : State) : Host.Outcome State Fault Refusal := .next (takePdu s 6 pdu)
/-- WRITE (16 R383). -/
def execUhWrite (pdu : Pdu) (s : State) : Host.Outcome State Fault Refusal := .next (takePdu s 7 pdu)
/-- BLOCK_READ (16 R384). -/
def execBlockRead (pdu : Pdu) (s : State) : Host.Outcome State Fault Refusal := .next (takePdu s 8 pdu)
/-- BLOCK_WRITE (16 R384). -/
def execBlockWrite (pdu : Pdu) (s : State) : Host.Outcome State Fault Refusal := .next (takePdu s 9 pdu)
/-- SUBSCRIBE (16 R385). -/
def execSubscribe (pdu : Pdu) (s : State) : Host.Outcome State Fault Refusal := .next (takePdu s 10 pdu)
/-- EVENT_ACK (16 R385). -/
def execEventAck (pdu : Pdu) (s : State) : Host.Outcome State Fault Refusal := .next (takePdu s 12 pdu)

/-- RESERVED_OP (16 Table 16-5): OP 0 or 13 to 63, answered BAD_REQUEST at its turn; so is OP 11, which a device alone sends
(DESIGN CHOICE, assumption 280). -/
def execReservedOp (op : BitVec 6) (pdu : Pdu) (s : State) : Host.Outcome State Fault Refusal :=
  .next (if op.toNat = 0 ∨ op.toNat = 11 ∨ 13 ≤ op.toNat then takePdu s op.toNat pdu else s)

/-- MALFORMED_PDU (16 R377): what waits on the transport spells no PDU. -/
def execMalformedPdu (transport : Nat) (link : BitVec 2) (s : State) : Host.Outcome State Fault Refusal :=
  let k := if 1 ≤ transport ∧ transport ≤ 4 then link.toNat + 1 else transport
  .next (match waiting s k with
    | none => s
    | some (none, _, t) => malformed t k
    | some (some b, _, t) => if (parsePdu k b).isNone then malformed t k else s)

/-- PROVE_TIMEOUT (16 R378): 10 s have passed since the OPEN. -/
def execProveTimeout (transport : Nat) (session : BitVec 16) (s : State) : Host.Outcome State Fault Refusal :=
  .next (match sessionFind s transport session.toNat with
    | some x => if x.proved ∨ islandUs s < x.since + 10000000 then s else sessionDrop s transport session.toNat
    | none => s)

/-- SESSION_IDLE_EXPIRY (16 R380): session_idle has passed with no tagged PDU of the client. -/
def execSessionIdleExpiry (transport : Nat) (session : BitVec 16) (s : State) : Host.Outcome State Fault Refusal :=
  .next (match sessionFind s transport session.toNat with
    | some x =>
      if x.proved ∧ x.since + objGet s 0x1040 0x02 0 * 1000000 ≤ islandUs s then sessionDrop s transport session.toNat else s
    | none => s)

/-- EVENT (16 R385). -/
def execUhEvent (transport : Nat) (session : BitVec 16) (s : State) : Host.Outcome State Fault Refusal :=
  .next (match sessionFind s transport session.toNat with | some x => sendNextEvent s x | none => s)

/-- EVENT_RETRY_EXPIRY (16 R385). -/
def execEventRetryExpiry (transport : Nat) (session : BitVec 16) (s : State) : Host.Outcome State Fault Refusal :=
  .next (match sessionFind s transport session.toNat with
    | some x => if x.proved ∧ !x.closing then resendEvents s x x.unacked x.events else s
    | none => s)

/-- A write of 1 to MB_GO (16 R390). -/
def mailboxGo (s : State) (k : Nat) : State :=
  let b := box s k
  setBox s k (if b.busy || b.replyReady then { b with ignored := true } else { b with busy := true })

/-- MB_GO (16 R390). -/
def execMbGo (link : BitVec 2) (s : State) : Host.Outcome State Fault Refusal :=
  .next (barGate s link.toNat 0 (fun s => mailboxGo s link.toNat))

/-- EVENT_READY_CLEAR (16 R390). -/
def execEventReadyClear (link : BitVec 2) (s : State) : Host.Outcome State Fault Refusal :=
  .next (barGate s link.toNat 0 (fun s => setBox s link.toNat { box s link.toNat with eventReady := false }))

/-- FREEZE_MAX_EXPIRY (20 R459): a snapshot that is held is let go. -/
def execFreezeMaxExpiry (s : State) : Host.Outcome State Fault Refusal :=
  .next (if s.logs.frozen.isSome then freezeWrite s 0 else s)

end Sys2Proof.Machine
end

