-- ==== Sys2Proof/Machine/Boundary.lean ====
section
/-!
DEFINITION. The beat boundary as a command (03 R53): the work of `beatBoundary`, after which the requests whose turn has
come are served (16 R396).
-/

namespace Sys2Proof.Machine

/-- A beat of island time with the main domain off: nothing of that domain happens. Object faults and corrected errors of the
island are heeded, its counters are captured, and held requests are served (16 R373, R385, 20 R458, assumption 49). -/
def islandBeat (s : State) (news : BeatNews) : State :=
  let s := (news.objects.filter (fun k => !coreIndex (okeyIdx k))).foldl objectFault s
  let s := correctables s (news.corrected.filter (fun e => e.1 == 0))
  pumpSessions (takeSnapshot { s with clk := { s.clk with slot := 0, islBase := s.clk.islBase + 4096 } })

/-- BEAT_BOUNDARY (03 R53). -/
def execBeatBoundary (readyIn : Bool) (upset : Option (Bool × BitVec 1024)) (s : State)
    (news : BeatNews := ⟨[], [], [], [], []⟩) : Host.Outcome State Fault Refusal :=
  .next (if mainOn s then
      let s := news.ledger.foldl (fun s x => checkHalves s x.1.toNat x.2) s
      pumpSessions (beatBoundary s readyIn upset news)
    else islandBeat s news)

end Sys2Proof.Machine
end

