-- ==== Sys2Proof/Machine/Registers.lean ====
section
/-!
DEFINITION. REGISTER_WRITE (00 R7–R9): writes of register fields that no row of their own names. Registers are taken as
double words; an 8-byte write to two of them writes the lower one first, and CTRL of a DMA channel is written whole.
-/

namespace Sys2Proof.Machine

/-- `w` with one half replaced: the half that holds offset `off` of an 8-byte register. -/
def putHalf (w : BitVec 64) (off v : Nat) : BitVec 64 := setFld w (if off % 8 = 4 then 32 else 0) 32 v

/-! ## Timetable load interface (03 Table 3-9) -/

def ttRegWrite (s : State) (off v : Nat) : State :=
  match off with
  | 0x000 =>
    match v % 16 with
    | 1 => doVerify s
    | 2 => doInstall s
    | 3 => doArm s
    | 4 => doDiscard s
    | 5 => doCancelArm s
    | _ => s
  | 0x008 => ttSet s { s.tt with src := putHalf s.tt.src off (v / 4096 * 4096) }
  | 0x00C => ttSet s { s.tt with src := putHalf s.tt.src off v }
  | 0x010 => ttSet s { s.tt with length := BitVec.ofNat 32 v }
  | 0x018 => ttSet s { s.tt with armBeat := putHalf s.tt.armBeat off v }
  | 0x01C => ttSet s { s.tt with armBeat := putHalf s.tt.armBeat off v }
  | 0x030 => ttSet s { s.tt with fault := s.tt.fault &&& ~~~(BitVec.ofNat 3 v) }
  | _ => s

/-! ## Table command windows (06 Table 6-9) -/

def tcRegWrite (s : State) (w off v : Nat) : State :=
  let x := tcWin s w
  if off = 0x000 then tcCommand s w (v % 16) (v / 16 % 16) (v / 256 % 2 == 1) (v / 65536 % 65536)
  else if off = 0x004 then setTcWin s w { x with refused := x.refused && v / 2 % 2 == 0 }
  else if off = 0x008 then setTcWin s w { x with index := BitVec.ofNat 24 v }
  else if 0x100 ≤ off ∧ off < 0x200 then setTcWin s w { x with data := setFld x.data (8 * (off - 0x100)) 32 v }
  else if 0x200 ≤ off ∧ off < 0x300 then setTcWin s w { x with cmp := setFld x.cmp (8 * (off - 0x200)) 32 v }
  else s

/-! ## DMA channels (10 Table 10-1) -/

/-- A write of one double word; a write of one half of CTRL leaves the other as it is. -/
def dmaHalfWrite (s : State) (c off v : Nat) : State :=
  let x := chan s c
  let whole (w : BitVec 64) : State := dmaRegWrite s c (off / 8 * 8) (putHalf w off v)
  match off / 8 with
  | 0 => whole x.src
  | 1 => whole x.dst
  | 3 => whole x.fill
  | 4 => whole x.ctrl
  | _ => dmaRegWrite s c off (BitVec.ofNat 64 v)

/-- The channel that a slice page, or the infrastructure page, shows as local channel `k` (11 R257). A slice's page is
shown while the slice is bound. -/
def viewChannel (s : State) (link page k : Nat) : Option Nat :=
  if k < 64 ∧ (doorbellQp s link page 0).isSome then
    let o : Option Nat := if page = 16384 then none else some page
    ((List.range 4096).filter (fun c => channelOwner s c == o))[k]?
  else none

/-! ## Configuration space (11 R253–R255) -/

/-- A configuration write of one double word: Bus Master Enable, D-state, Initiate FLR and VF Enable act; the other
writable bits are stored, but for reserved encodings. NumVFs takes no value above total_vfs, and none while VF Enable is 1. A
change of ATS Enable empties the function's part of the translation cache, as ATS lays down (assumption 15). -/
def cfgWrite (s : State) (link fn off v : Nat) : State :=
  let kind := fnKind fn
  let mask := cfgOpen s link fn off
  let f := fnGet s link fn
  let old := cfgGet f off
  let vb := BitVec.ofNat 32 v
  let merged : BitVec 32 := ((old &&& ~~~mask) ||| (cfgTaken off old vb &&& mask)) &&& ~~~(vb &&& cfgW1c kind off)
  if !fnPresent s link fn then s
  else if off = 0x004 then
    let s := fnPut s link fn (cfgPut f off ((merged &&& ~~~4) ||| (old &&& 4)))
    if vb.getLsbD 2 then bmeSet s link fn else bmeClear s link fn
  else if off = 0x044 then
    match v % 4 with
    | 0 => if f.d3 then setDState s link fn false else s
    | 3 => setDState s link fn true
    | _ => s
  else if off = 0x078 ∧ vb.getLsbD 15 then startFlr (fnPut s link fn (cfgPut f off merged)) link fn
  else if off = 0x168 ∧ kind = 1 then
    let s := fnPut s link fn (cfgPut f off ((merged &&& ~~~1) ||| (old &&& 1)))
    if vb.getLsbD 0 == old.getLsbD 0 then s else setVfEnable s link (vb.getLsbD 0) (numVfs s link)
  else if off = 0x170 ∧ kind = 1 then
    if vfEnabled s link || decide (objGet s (0xA100 + link) 0x06 0 < v % 65536) then s else fnPut s link fn (cfgPut f off merged)
  else if off = 0x298 ∧ kind = 0 then
    let s := if vb.getLsbD 0 then linkPut s link { linkGet s link with doeErr := false } else s
    fnPut s link fn (cfgPut f off (merged &&& 2))
  else if off = 0x1A4 then
    let s := fnPut s link fn (cfgPut f off merged)
    if vb.getLsbD 31 == old.getLsbD 31 then s else atcDrop s link fn
  else if mask = 0 ∧ cfgW1c kind off = 0 then s
  else fnPut s link fn (cfgPut f off merged)

/-- Vectors of a function's MSI-X table (11 R259). -/
def msixCount (fn : Nat) : Nat := if fn < 2 then 2048 else 65

/-- One double word of an MSI-X table entry; address bits [1:0] and the control bits above the mask are reserved. -/
def msixWrite (s : State) (link fn vec dw v : Nat) : State :=
  let f := fnGet s link fn
  let w := if dw = 0 then v / 4 * 4 else if dw = 3 then v % 2 else v
  if msixCount fn ≤ vec then s
  else
    let e := setFld (msixEntry f vec) (32 * dw) 32 w
    fnPut s link fn { f with msix := sset (BitVec.ofNat 128 (2 ^ 96)) f.msix vec e }

/-! ## Mailbox (16 Table 16-9, R390) -/

def mbRegWrite (s : State) (k off v : Nat) : State :=
  let b := box s k
  if off < 0x1000 then
    if b.busy then setBox s k { b with ignored := true }
    else
      setBox s k { b with
        req := (List.range 4).foldl (fun m i => sset 0 m (off + i) (BitVec.ofNat 8 (v >>> (8 * i)))) b.req }
  else if off = 0x3000 then
    if b.busy then setBox s k { b with ignored := true }
    else if 16 ≤ v % 8192 ∧ v % 8192 ≤ 4096 then setBox s k { b with reqLen := BitVec.ofNat 13 v }
    else s
  else if off = 0x3004 then (if v % 2 = 1 ∨ b.busy then mailboxGo s k else s)
  else if off = 0x3008 then
    setBox s k { b with
      replyReady := b.replyReady && v / 2 % 2 == 0
      eventReady := b.eventReady && v / 4 % 2 == 0
      ignored := b.ignored && v / 8 % 2 == 0 }
  else if off = 0x3010 then setBox s k { b with vector := BitVec.ofNat 11 v }
  else s

/-! ## Debug access port (20 Table 20-3) -/

/-- A write of one double word of an 8-byte register of the port. -/
def dapHalfWrite (s : State) (off v : Nat) : State :=
  let e := off / 8
  let old : Nat := if 20 ≤ e ∧ e < 36 then fld s.dbg.response (64 * (e - 20)) 64 else if e = 1 ∨ e = 5 then 0 else dapRead s e
  dapWrite s e (putHalf (BitVec.ofNat 64 old) off v).toNat

/-! ## The command -/

/-- A device-wide register: only the PF0 of the primary link shows it (11 R252). -/
def primaryGate (s : State) (link : Nat) (act : State → State) : State :=
  barGate s link 0 (fun s => if link = s.hst.primary then act s else s)

/-- Whether a write reaches its register (11 R252, R256). Table command windows 4 to 7 are reached by the control cores only
(06 R145); the debug access port is on in every power state. -/
def regGate (s : State) (reg : RegAddr) (act : State → State) : State :=
  match reg with
  | .timetable link _ => primaryGate s link.toNat act
  | .window link w _ => if w.toNat < 4 then primaryGate s link.toNat act else if mainOn s then act s else s
  | .channel link _ _ => primaryGate s link.toNat act
  | .view link page _ _ =>
    if !mainOn s then s
    else if pageClosed s link.toNat page.toNat then aerLog s link.toNat (pageFn s link.toNat page.toNat) 20
    else act s
  | .config _ _ _ => if mainOn s then act s else s
  | .msix link fn _ _ => barGate s link.toNat fn.toNat act
  | .mailbox link _ => barGate s link.toNat 0 act
  | .dap _ => act s

/-- One double word of a register space. -/
def regDouble (s : State) (reg : RegAddr) (up : Nat) (v : Nat) : State :=
  match reg with
  | .timetable _ off => ttRegWrite s (off.toNat + up) v
  | .window _ w off => tcRegWrite s w.toNat (off.toNat + up) v
  | .channel _ ch off => dmaHalfWrite s ch.toNat (off.toNat + up) v
  | .view link page k off =>
    match viewChannel s link.toNat page.toNat k.toNat with
    | some c => dmaHalfWrite s c (off.toNat + up) v
    | none => s
  | .config link fn r => if up = 0 then cfgWrite s link.toNat fn.toNat r.toNat v else s
  | .msix link fn vec dw =>
    if dw.toNat + up / 4 < 4 then msixWrite s link.toNat fn.toNat vec.toNat (dw.toNat + up / 4) v else s
  | .mailbox link off => mbRegWrite s link.toNat (off.toNat + up) v
  | .dap off => dapHalfWrite s (off.toNat + up) v

/-- The offset of a register in its space, which a write must be aligned to. -/
def regOffset : RegAddr → Nat
  | .timetable _ off => off.toNat
  | .window _ _ off => off.toNat
  | .channel _ _ off => off.toNat
  | .view _ _ _ off => off.toNat
  | .config _ _ r => r.toNat
  | .msix _ _ _ dw => 4 * dw.toNat
  | .mailbox _ off => off.toNat
  | .dap off => off.toNat

/-- The channel and the offset of its block that an 8-byte write reaches in one access (00 R6, 11 R256). -/
def wideChannel (s : State) : RegAddr → Option (Nat × Nat)
  | .channel _ ch off => some (ch.toNat, off.toNat)
  | .view link page k off => (viewChannel s link.toNat page.toNat k.toNat).map (fun c => (c, off.toNat))
  | _ => none

/-- An 8-byte write: the registers of a DMA channel and of the debug port in one access, others as two double words. -/
def regWide (s : State) (reg : RegAddr) (v : BitVec 64) : State :=
  match wideChannel s reg, reg with
  | some x, _ => dmaWideWrite s x.1 x.2 v
  | none, .dap off => dapWrite s (off.toNat / 8) v.toNat
  | none, _ => regDouble (regDouble s reg 0 (fld v 0 32)) reg 4 (fld v 32 32)

/-- REGISTER_WRITE (00 R7): 4 bytes, or 8 when `wide`, naturally aligned; other accesses are UNSUPPORTED_BAR_ACCESS. -/
def execRegisterWrite (reg : RegAddr) (wide : Bool) (v : BitVec 64) (s : State) : Host.Outcome State Fault Refusal :=
  .next (if regOffset reg % (if wide then 8 else 4) ≠ 0 then s
    else regGate s reg (fun s => if wide then regWide s reg v else regDouble s reg 0 (fld v 0 32)))

end Sys2Proof.Machine
end

