-- ==== Sys2Proof/Machine/RegRead.lean ====
section
/-!
DEFINITION. What a read of a register returns (00 R7, R8): the read columns of the register tables. No command reads a
register, and no register of the device has a read that changes state; these functions say what the host and the control
cores are answered. Reserved bits, write-only fields and offsets that no table lists read 0.
-/

namespace Sys2Proof.Machine

/-- The double word of a 64-bit register that an offset names. -/
def halfOf (w : Nat) (off : Nat) : Nat := if off % 8 = 4 then w / 2 ^ 32 % 2 ^ 32 else w % 2 ^ 32

def bitOf (b : Bool) (n : Nat) : Nat := if b then 2 ^ n else 0

/-! ## Timetable load interface (03 Table 3-9) -/

def ttRegRead (s : State) (off : Nat) : Nat :=
  match off with
  | 0x004 => ttCode s.tt.state + bitOf (ttBusy s) 4 + bitOf s.tt.gen 5 + bitOf (s.tt.state == .overlap) 6 + s.tt.reason.toNat * 2 ^ 8
  | 0x008 | 0x00C => halfOf s.tt.src.toNat off
  | 0x010 => s.tt.length.toNat
  | 0x018 | 0x01C => halfOf s.tt.armBeat.toNat off
  | 0x020 | 0x024 => halfOf s.tt.beat off
  | 0x028 => oldInflight s % 2 ^ 24
  | 0x02C => if s.tt.state = .overlap then min s.tt.overlap 0xFFFFFFFF else 0
  | 0x030 => s.tt.fault.toNat
  | _ => 0

/-! ## Table command windows (06 Table 6-9) -/

def tcRegRead (s : State) (w off : Nat) : Nat :=
  let x := tcWin s w
  if off = 0x004 then bitOf (tcBusy s w) 0 + bitOf x.refused 1 + x.result.toNat * 2 ^ 8 + bitOf x.hit 16 + bitOf x.pend 17
  else if off = 0x008 then x.index.toNat
  else if off = 0x00C then x.done.toNat
  else if 0x100 ≤ off ∧ off < 0x200 then fld x.data (8 * (off - 0x100)) 32
  else if 0x200 ≤ off ∧ off < 0x300 then fld x.cmp (8 * (off - 0x200)) 32
  else 0

/-! ## DMA channels (10 Table 10-1) -/

def chanRegRead (s : State) (c off : Nat) : Nat := leNat (bytesAt (chanBytes (chan s c)) off 4)

/-! ## Slice pages (11 Tables 11-6, 11-7) -/

/-- A double word of the doorbells of queue pair `q` of a page, `at_` 0 SQ_TAIL and 4 CQ_HEAD. -/
def doorbellRead (s : State) (link page q at_ : Nat) : Nat :=
  match doorbellQp s link page q with
  | none => 0
  | some k => if at_ = 0 then (qpGet s k).sqTail else if at_ = 4 then (qpGet s k).cqHead else 0

/-! ## MSI-X (11 R259) and the mailbox (16 Table 16-9) -/

def msixRegRead (s : State) (link fn vec dw : Nat) : Nat :=
  if msixCount fn ≤ vec then 0 else fld (msixEntry (fnGet s link fn) vec) (32 * dw) 32

/-- A double word of the pending bits. -/
def pbaRead (s : State) (link fn dw : Nat) : Nat :=
  ((List.range 32).map (fun i => bitOf ((fnGet s link fn).pba.contains (32 * dw + i)) i)).sum

def mbRegRead (s : State) (k off : Nat) : Nat :=
  let b := box s k
  if off < 0x1000 then leNat ((List.range 4).map (fun i => sget 0 b.req (off + i)))
  else if off < 0x2000 then leNat (bytesAt b.reply (off - 0x1000) 4)
  else if off < 0x3000 then leNat (bytesAt b.event (off - 0x2000) 4)
  else match off with
    | 0x3000 => b.reqLen.toNat
    | 0x3008 => bitOf b.busy 0 + bitOf b.replyReady 1 + bitOf b.eventReady 2 + bitOf b.ignored 3
    | 0x300C => b.replyLen.toNat + b.eventLen.toNat * 2 ^ 16
    | 0x3010 => b.vector.toNat
    | _ => 0

/-! ## Configuration space (11 R253–R255, R261–R269) -/

/-- The capability headers of a function kind, 0 PF0, 1 PF1, 2 VF: offset and value (11 Table 11-3, in the format and with the
identifiers of PCI Express, assumption 15). -/
def capHeaders (kind : Nat) : List (Nat × Nat) :=
  let ext (off id next : Nat) : Nat × Nat := (off, id + (if id = 1 then 2 else 1) * 2 ^ 16 + next * 2 ^ 20)
  let msix := 0x7011 + (if kind = 2 then 64 else 2047) * 2 ^ 16
  [(0x040, 0x00035001), (0x050, msix), (0x070, 0x00020010)] ++
    (match kind with
     | 0 => [ext 0x100 0x01 0x148, ext 0x148 0x03 0x158, ext 0x158 0x0E 0x1A0, ext 0x1A0 0x0F 0x1B0, ext 0x1B0 0x1B 0x1C0,
             ext 0x1C0 0x13 0x1D0, ext 0x1D0 0x1E 0x1E0, ext 0x1E0 0x19 0x200, ext 0x200 0x25 0x210, ext 0x210 0x26 0x240,
             ext 0x240 0x2A 0x270, ext 0x270 0x31 0x280, ext 0x280 0x18 0x290, ext 0x290 0x2E 0x2C0, ext 0x2C0 0x30 0]
     | 1 => [ext 0x100 0x01 0x148, ext 0x148 0x03 0x158, ext 0x158 0x0E 0x160, ext 0x160 0x10 0x1A0, ext 0x1A0 0x0F 0x1B0,
             ext 0x1B0 0x1B 0x1C0, ext 0x1C0 0x13 0]
     | _ => [ext 0x100 0x01 0x158, ext 0x158 0x0E 0x1A0, ext 0x1A0 0x0F 0x1C0, ext 0x1C0 0x13 0])

/-- Every Tx and Rx key sub-stream of a stream is in use (11 R267). -/
def ideSecure (s : State) (link stream : Nat) : Bool :=
  (List.range 3).all (fun sub => [0, 2].all (fun dir => [0, 1].any (fun set =>
    s.hst.ideOn.contains ((link * 256 + stream) * 256 + (sub * 16 + dir + set)))))

/-- A double word of a selective IDE stream's registers that no write sets: 15 address associations, and the state of the
stream, 2 Secure or 0 Insecure (11 R267, assumption 15). -/
def ideFixed (s : State) (link off : Nat) : Nat :=
  let i := (off - 0x2CC) / 200
  if objGet s (0xA100 + link) 0x0A 0 ≤ i then 0
  else if ideWord off = 0 then 15
  else if ideWord off = 8 then (if ideSecure s link i then 2 else 0)
  else 0

/-- Read-only bits of configuration space (11 Tables 11-2 to 11-4, R254, R255, R261 to R269); their places are those of PCI
Express (assumption 15). -/
def cfgFixed (s : State) (link fn off : Nat) : Nat :=
  let kind := fnKind fn
  let l := linkGet s link
  let width := if s.hst.bifur.getD (link / 2) 0 = 1 then 8 else 16
  match (capHeaders kind).find? (fun h => h.1 == off) with
  | some h => h.2
  | none =>
    match off with
    | 0x000 => if kind = 2 then 0xFFFFFFFF else if kind = 0 then 0x32481F3D else 0x32491F3D
    | 0x004 => 0x00100000
    | 0x008 => 0x12000000 + (objRead s 0x1000 0x04 0).1
    | 0x00C => if kind = 2 then 0 else 0x00800000
    | 0x010 => if kind = 2 then 0 else 4
    | 0x018 => if kind = 1 then 4 else 0
    | 0x02C => s.hst.subsys.1 + s.hst.subsys.2 * 2 ^ 16
    | 0x034 => 0x40
    | 0x044 => 8
    | 0x054 => if kind = 0 then 0x00300000 else if kind = 1 then 2 else 0x8000
    | 0x058 => if kind = 0 then 0x00308000 else if kind = 1 then 0x8002 else 0xC000
    | 0x074 => 0x10008022
    | 0x07C => 6 + width * 2 ^ 4 + 3 * 2 ^ 10 + 5 * 2 ^ 12 + 3 * 2 ^ 15 + 2 ^ 22
    | 0x080 => l.rate * 2 ^ 16 + l.width * 2 ^ 20
    | 0x094 => 0x0003000F + (if kind = 0 then 2 ^ 11 else 0)
    | 0x09C => 0x7E
    | 0x14C => if kind = 2 then 0 else fld Config.serial 0 32
    | 0x150 => if kind = 2 then 0 else fld Config.serial 32 32
    | 0x15C => if kind = 0 then 0x0100 else 0
    | 0x16C => if kind = 1 then objGet s (0xA100 + link) 0x06 0 * (1 + 2 ^ 16) else 0
    | 0x174 => if kind = 1 then 0x00010001 else 0
    | 0x178 => if kind = 1 then 0x324A0000 else 0
    | 0x17C => if kind = 1 then 0x0553 else 0
    | 0x184 => if kind = 1 then 4 else 0
    | 0x1A4 => 0x0020
    | 0x1B4 => if kind = 2 then 0 else 0x1400
    | 0x1C4 => bitOf (!fnPri s link fn && !s.hst.holds.any (fun h => h.pri && h.link == link && h.fn == fn)) 24
    | 0x1C8 => 512
    | 0x1D4 => if kind = 0 then 0x1F + 2 ^ 16 + 7 * 2 ^ 19 else 0
    | 0x204 => if kind = 0 then 0x80000001 else 0
    | 0x29C => if kind = 0 then bitOf l.doeErr 2 else 0
    | 0x2C4 =>
      let n := objGet s (0xA100 + link) 0x0A 0
      if kind = 0 then bitOf (decide (0 < n)) 1 + 0x60 + (n - 1) * 2 ^ 16 else 0
    | _ => if kind = 0 ∧ 0x2CC ≤ off then ideFixed s link off else 0

/-- A read of configuration space; a function that is not there answers nothing. -/
def cfgRead (s : State) (link fn off : Nat) : Nat :=
  if fnPresent s link fn then (BitVec.ofNat 32 (cfgFixed s link fn off) ||| (cfgGet (fnGet s link fn) off &&& cfgShown s link fn off)).toNat
  else 0

/-! ## The read column -/

/-- A read of one double word; none: the register is not there, or the read meets Memory Space Enable 0, and completes with
Unsupported Request (11 R252, R256, R257). -/
def registerRead (s : State) : RegAddr → Option Nat
  | .timetable link off => readGate s link.toNat 0 (if link.toNat = s.hst.primary then ttRegRead s off.toNat else 0)
  | .window link w off =>
    if w.toNat < 4 then readGate s link.toNat 0 (if link.toNat = s.hst.primary then tcRegRead s w.toNat off.toNat else 0)
    else some (tcRegRead s w.toNat off.toNat)
  | .channel link c off => readGate s link.toNat 0 (if link.toNat = s.hst.primary then chanRegRead s c.toNat off.toNat else 0)
  | .view link page k off =>
    readGate s link.toNat (pageFn s link.toNat page.toNat)
      (match viewChannel s link.toNat page.toNat k.toNat with | some c => chanRegRead s c off.toNat | none => 0)
  | .config link fn r => if fnPresent s link.toNat fn.toNat then some (cfgRead s link.toNat fn.toNat r.toNat) else none
  | .msix link fn vec dw => readGate s link.toNat fn.toNat (msixRegRead s link.toNat fn.toNat vec.toNat dw.toNat)
  | .mailbox link off => readGate s link.toNat 0 (mbRegRead s link.toNat off.toNat)
  | .dap off => some (halfOf (dapRead s (off.toNat / 8)) off.toNat)
where
  readGate (s : State) (link fn v : Nat) : Option Nat :=
    if mainOn s && fnPresent s link fn && memSpaceOn s link fn then some v else none

end Sys2Proof.Machine
end

