-- ==== Sys2Proof/Machine/Spdm.lean ====
section
/-!
DEFINITION. The SPDM 1.2 responder (15 R366): connection, transcripts, signatures, key schedule and secured messages. Message
layouts, transcripts and labels are those of DMTF DSP0274 1.2 and DSP0277, which the specification cites (PRESUMED where it
does not repeat them, assumption 188).
-/

namespace Sys2Proof.Machine

/-- Bytes from their values. -/
def bytesOf (ns : List Nat) : List Byte := ns.map (BitVec.ofNat 8)

/-- The DOE mailbox of a link answers: its PF0 is there, and no DOE Error stands. -/
def doeUp (s : State) (k : Nat) : Bool := mainOn s && fnPresent s k 0 && !(linkGet s k).doeErr

/-- An object that the mailbox refuses sets DOE Error (11 R266). -/
def doeError (s : State) (k : Nat) : State := linkPut s k { linkGet s k with doeErr := true }

/-! ## Connection and sessions -/

def spdmConn (s : State) (k : Nat) : SpdmConn := s.hst.conns.getD k ⟨0, false, [], [], []⟩

def setConn (s : State) (k : Nat) (c : SpdmConn) : State := { s with hst := { s.hst with conns := lset s.hst.conns k c } }

def spdmFind (s : State) (k sid : Nat) : Option SpdmSession := s.hst.spdm.find? (fun x => x.link == k && x.sid == sid)

def setSpdm (s : State) (x : SpdmSession) : State :=
  { s with hst := { s.hst with
      spdm := s.hst.spdm.map (fun y => if y.link = x.link ∧ y.sid = x.sid then x else y) } }

def dropSpdm (s : State) (which : SpdmSession → Bool) : State :=
  { s with hst := { s.hst with spdm := s.hst.spdm.filter (fun x => !which x) } }

/-- Sessions whose requester has been silent for twice the heartbeat period end. -/
def spdmExpire (s : State) : State :=
  dropSpdm s (fun x => x.period != 0 && decide (x.last + 2000000 * x.period < islandUs s))

/-- The lowest responder session number free on a link. -/
def freeSpdm (s : State) (k : Nat) : Nat :=
  ((List.range 5).filter (fun n => !s.hst.spdm.any (fun x => x.link == k && x.sid / 65536 == n + 1))).headD 0 + 1

/-- ERROR with an error code of SPDM 1.2 and its data. -/
def spdmErr (code data : Nat) : List Byte := bytesOf [0x12, 0x7F, code, data]

/-! ## Signatures -/

/-- X‖Y or r‖s as SPDM orders it: each number most significant byte first. -/
def spdmPair (bs : List Byte) : List Byte := (bytesAt bs 0 32).reverse ++ (bytesAt bs 32 32).reverse

/-- A signature over a transcript: ECDSA over the hash of the prefix "dmtf-spdm-v1.2.*" four times, the context, a number of
characters, padded with zeros in front to 36, and the hash of the transcript. -/
def spdmSign (s : State) (context : Nat) (transcript : List Byte) : List Byte × State :=
  let prefix_ := (List.range 4).flatMap (fun _ => beBytes 16 0x646d74662d7370646d2d76312e322e2a)
  let r := signDigest s (sha256 (prefix_ ++ beBytes 36 context ++ shaBytes transcript))
  (spdmPair r.1, r.2)

/-- "responder-challenge_auth signing" and its like for measurements and key exchange. -/
def ctxChallenge : Nat := 0x726573706f6e6465722d6368616c6c656e67655f61757468207369676e696e67
def ctxMeasure : Nat := 0x726573706f6e6465722d6d6561737572656d656e7473207369676e696e67
def ctxExchange : Nat := 0x726573706f6e6465722d6b65795f65786368616e67655f727370207369676e696e67

/-! ## Key schedule -/

/-- HKDF-Expand of a secret: `len` bytes for "spdm1.2 ", a label and a context. -/
def spdmExpand (secret label context : List Byte) (len : Nat) : List Byte :=
  (hmacBytes secret (leBytes 2 len ++ beBytes 8 0x7370646d312e3220 ++ label ++ context ++ [1])).take len

/-- "req hs data", "rsp hs data", "req app data" and "rsp app data". -/
def reqHs : List Byte := beBytes 11 0x7265712068732064617461
def rspHs : List Byte := beBytes 11 0x7273702068732064617461
def reqApp : List Byte := beBytes 12 0x726571206170702064617461
def rspApp : List Byte := beBytes 12 0x727370206170702064617461

/-- The secret of a handshake, from the X coordinate of the shared point. -/
def handshakeSecret (z : List Byte) : List Byte := hmacBytes (List.replicate 32 0) z

/-- The master secret: label "derived". -/
def masterSecret (hs : List Byte) : List Byte :=
  hmacBytes (spdmExpand hs (beBytes 7 0x64657269766564) [] 32) (List.replicate 32 0)

/-- The verify data of a direction: label "finished". -/
def finishedData (direction transcript : List Byte) : List Byte :=
  hmacBytes (spdmExpand direction (beBytes 8 0x66696e6973686564) [] 32) (shaBytes transcript)

/-- The next traffic secret after a KEY_UPDATE: label "traffic upd". -/
def nextSecret (secret : List Byte) : List Byte := spdmExpand secret (beBytes 11 0x7472616666696320757064) [] 32

/-! ## Secured messages -/

/-- Key and IV of a message: labels "key" and "iv", the IV combined with the message's number. -/
def msgKey (secret : List Byte) : List Byte := spdmExpand secret (beBytes 3 0x6b6579) [] 32
def msgIv (secret : List Byte) (seq : Nat) : List Byte :=
  xorBytes (spdmExpand secret (beBytes 2 0x6976) [] 12) (leBytes 12 seq)

/-- What is authenticated beside the text: the session identifier and the length of text and tag. -/
def msgAad (sid len : Nat) : List Byte := leBytes 4 sid ++ leBytes 2 len

/-- A message as it travels: AES-256-GCM text and tag over its length and itself. -/
def spdmSeal (secret : List Byte) (seq sid : Nat) (msg : List Byte) : List Byte :=
  let text := gcmText (msgKey secret) (msgIv secret seq) (leBytes 2 msg.length ++ msg)
  text ++ gcmTag (msgKey secret) (msgIv secret seq) (msgAad sid (text.length + 16)) text

/-- The message in text and tag; none: the tag fails. -/
def spdmOpen (secret : List Byte) (seq sid : Nat) (body : List Byte) : Option (List Byte) :=
  let text := body.take (body.length - 16)
  if body.length < 18 ∨ gcmTag (msgKey secret) (msgIv secret seq) (msgAad sid body.length) text ≠ body.drop (body.length - 16) then
    none
  else
    let plain := gcmText (msgKey secret) (msgIv secret seq) text
    let n := leNat (plain.take 2)
    if plain.length < n + 2 then none else some ((plain.drop 2).take n)

/-! ## Certificates and measurements -/

/-- The chain in certificate slot 0, as SPDM forms it: length, hash of the root certificate, certificates. Slot 0 is empty
unless identity_state is 0 (15 R364). -/
def spdmChain (s : State) : List Byte :=
  let c := s.boot.chain.getD []
  let root := match derItem c with | some (_, _, rest) => c.take (c.length - rest.length) | none => c
  leBytes 2 (36 + c.length) ++ [0, 0] ++ shaBytes root ++ c

def chainServed (s : State) : Bool := identityState s == 0

/-- One measurement block, in the DMTF measurement form (15 Table 15-8). -/
def measurementBlock (s : State) (i : Nat) : List Byte :=
  let ty := if i = 1 then 0 else if i ≤ 4 then 1 else if i = 5 then 2 else 3
  bytesOf [i, 1, 35, 0, ty, 32, 0] ++ digestBytes (measurement s i)

def measurementBlocks (s : State) : List Byte := (List.range 6).flatMap (fun i => measurementBlock s (i + 1))

/-- MeasurementSummaryHash: type 0 none, 0xFF of every measurement. Which measurements type 1 covers is not stated: its hash
is a free value. None inside: another type. -/
def summaryHash (s : State) (ty : Nat) : Option (List Byte) :=
  if ty = 0 then some []
  else if ty = 0xFF then some (shaBytes (measurementBlocks s))
  else if ty = 1 then some (digestBytes ((Config.freeValue s.fresh).setWidth 256))
  else none

/-- The hash of the chain of slot 0, or of the identity key where the requester holds it (slot 0xFF). With the chain not
served none is stated for slot 0: a free value. -/
def chainHash (s : State) (slot : Nat) : List Byte :=
  if slot = 15 then shaBytes (spdmPair identityKey)
  else if chainServed s then shaBytes (spdmChain s)
  else digestBytes ((Config.freeValue (s.fresh + 1)).setWidth 256)

/-- The 32-byte nonce of an answer, and the state after its draw. -/
def spdmNonce (s : State) : List Byte := leBytes 32 (Config.drbg (2 ^ 66 + s.hst.nonce)).toNat
def nonceDrawn (s : State) : State := { s with hst := { s.hst with nonce := s.hst.nonce + 1 }, fresh := s.fresh + 2 }

/-! ## Requests -/

/-- GET_VERSION: the connection and its sessions begin anew; version 1.2 is offered. -/
def spdmVersion (s : State) (k : Nat) (req : List Byte) : State × List Byte :=
  let r := bytesOf [0x10, 0x04, 0, 0, 0, 1, 0, 0x12]
  (setConn (dropSpdm s (fun x => x.link == k)) k ⟨1, false, req ++ r, [], []⟩, r)

/-- GET_CAPABILITIES: CERT, CHAL, MEAS with signature, MEAS_FRESH, ENCRYPT, MAC, KEY_EX, HBEAT and KEY_UPD (15 R366); a
message may fill the 65,536 bytes of a data object behind its 8-byte header (11 R266). -/
def spdmCapabilities (s : State) (k : Nat) (req : List Byte) : State × List Byte :=
  let c := spdmConn s k
  if c.stage ≠ 1 then (s, spdmErr 0x04 0)
  else if req.length ≠ 20 then (s, spdmErr 0x01 0)
  else
    let r := bytesOf [0x12, 0x61, 0, 0, 0] ++ [Config.spdmTiming, 0, 0] ++ leBytes 4 0x62F6 ++ leBytes 4 65528 ++ leBytes 4 65528
    (setConn s k { c with stage := 2, vca := c.vca ++ req ++ r }, r)

/-- What the device selects of a requester's algorithm structure: secp256r1, AES-256-GCM, the SPDM key schedule. -/
def spdmSelect (ty v : Nat) : Nat :=
  if ty = 2 then v &&& 8 else if ty = 3 then v &&& 2 else if ty = 5 then v &&& 1 else 0

/-- NEGOTIATE_ALGORITHMS (15 R366). -/
def spdmAlgorithms (s : State) (k : Nat) (req : List Byte) : State × List Byte :=
  let c := spdmConn s k
  let n := (byteAt req 2).toNat
  let ext := 4 * ((byteAt req 28).toNat + (byteAt req 29).toNat)
  let parts := (List.range n).map (fun i =>
    ((byteAt req (32 + ext + 4 * i)).toNat, leNat (bytesAt req (34 + ext + 4 * i) 2)))
  let meas := (byteAt req 6).toNat % 2
  if c.stage ≠ 2 then (s, spdmErr 0x04 0)
  else if req.length ≠ 32 + ext + 4 * n ∨ leNat (bytesAt req 4 2) ≠ req.length ∨ !(byteAt req 8).getLsbD 4 ∨
      !(byteAt req 12).getLsbD 0 then (s, spdmErr 0x01 0)
  else
    let r := bytesOf [0x12, 0x63, n, 0] ++ leBytes 2 (36 + 4 * n) ++ bytesOf [meas, (byteAt req 7).toNat &&& 2] ++
      leBytes 4 (2 * meas) ++ leBytes 4 0x10 ++ leBytes 4 1 ++ List.replicate 16 0 ++
      parts.flatMap (fun p => bytesOf [p.1, 0x20] ++ leBytes 2 (spdmSelect p.1 p.2))
    let has (ty : Nat) : Bool := parts.any (fun p => p.1 == ty && spdmSelect p.1 p.2 != 0)
    (setConn s k { c with stage := 3, kex := has 2 && has 3 && has 5, vca := c.vca ++ req ++ r }, r)

/-- A digest or certificate message joins the transcript that CHALLENGE signs; those within a session do not. -/
def noteCerts (s : State) (k : Nat) (sess : Option SpdmSession) (req r : List Byte) : State × List Byte :=
  match sess with
  | some _ => (s, r)
  | none => let c := spdmConn s k; (setConn s k { c with certs := c.certs ++ req ++ r }, r)

/-- GET_DIGESTS: slot 0 holds the chain; in identity_state 1 to 3 it is empty (15 R364, R366). -/
def spdmDigests (s : State) (k : Nat) (sess : Option SpdmSession) (req : List Byte) : State × List Byte :=
  noteCerts s k sess req (if chainServed s then bytesOf [0x12, 0x01, 0, 1] ++ shaBytes (spdmChain s)
    else bytesOf [0x12, 0x01, 0, 0])

/-- GET_CERTIFICATE: the portion of the chain from OFFSET on; an empty slot answers InvalidRequest. -/
def spdmCertificate (s : State) (k : Nat) (sess : Option SpdmSession) (req : List Byte) : State × List Byte :=
  let slot := (byteAt req 2).toNat % 16
  let off := leNat (bytesAt req 4 2)
  let part := ((spdmChain s).drop off).take (leNat (bytesAt req 6 2))
  if req.length ≠ 8 ∨ slot ≠ 0 ∨ !chainServed s ∨ (spdmChain s).length ≤ off then (s, spdmErr 0x01 0)
  else
    noteCerts s k sess req (bytesOf [0x12, 0x02, 0, 0] ++ leBytes 2 part.length ++
      leBytes 2 ((spdmChain s).length - off - part.length) ++ part)

/-- CHALLENGE, signed with the identity key. With the PUF at fault the device signs nothing (15 R363). -/
def spdmChallenge (s : State) (k : Nat) (req : List Byte) : State × List Byte :=
  let c := spdmConn s k
  let slot := (byteAt req 2).toNat % 16
  match summaryHash s (byteAt req 3).toNat with
  | none => (s, spdmErr 0x01 0)
  | some m =>
    if req.length ≠ 36 ∨ (slot ≠ 0 ∧ slot ≠ 15) then (s, spdmErr 0x01 0)
    else if identityState s = 3 then (s, spdmErr 0x05 0)
    else
      let text := bytesOf [0x12, 0x03, slot, if chainServed s then 1 else 0] ++ chainHash s slot ++ spdmNonce s ++ m ++ [0, 0]
      let r := spdmSign (nonceDrawn s) ctxChallenge (c.vca ++ c.certs ++ req ++ text)
      (setConn r.2 k { c with certs := [] }, text ++ r.1)

/-- The measurement messages so far, of the session or of the connection, and their record. -/
def measLog (s : State) (k : Nat) (sess : Option SpdmSession) : List Byte :=
  match sess with | some x => x.meas | none => (spdmConn s k).meas

def setMeasLog (s : State) (k : Nat) (sess : Option SpdmSession) (log : List Byte) : State :=
  match sess with
  | some x => setSpdm s { x with meas := log }
  | none => setConn s k { spdmConn s k with meas := log }

/-- GET_MEASUREMENTS: the count, one measurement or all six, signed on request. -/
def spdmMeasurements (s : State) (k : Nat) (sess : Option SpdmSession) (req : List Byte) : State × List Byte :=
  let sign : Bool := (byteAt req 2).getLsbD 0
  let op := (byteAt req 3).toNat
  let record := if op = 0 then [] else if op = 0xFF then measurementBlocks s else measurementBlock s op
  let blocks := if op = 0 then 0 else if op = 0xFF then 6 else 1
  let slot := (byteAt req 36).toNat % 16
  let text := bytesOf [0x12, 0x60, if op = 0 then 6 else 0, if sign then slot else 0, blocks] ++ leBytes 3 record.length ++
    record ++ spdmNonce s ++ [0, 0]
  let log := measLog s k sess ++ req ++ text
  if req.length ≠ (if sign then 37 else 4) ∨ (6 < op ∧ op ≠ 0xFF) then (s, spdmErr 0x01 0)
  else if !sign then (setMeasLog (nonceDrawn s) k sess log, text)
  else if slot ≠ 0 ∧ slot ≠ 15 then (s, spdmErr 0x01 0)
  else if identityState s = 3 then (s, spdmErr 0x05 0)
  else
    let r := spdmSign (nonceDrawn s) ctxMeasure ((spdmConn s k).vca ++ log)
    (setMeasLog r.2 k sess [], text ++ r.1)

/-- KEY_EXCHANGE opens a session in its handshake; a fifth of a PF0 answers SessionLimitExceeded (15 R366). The heartbeat
period is the device's: a free value. A requester's key that is no point of the curve answers InvalidRequest. -/
def spdmKeyExchange (s : State) (k : Nat) (req : List Byte) : State × List Byte :=
  let c := spdmConn s k
  let slot := (byteAt req 3).toNat
  let d := ecScalar (Config.drbg (2 ^ 68 + s.hst.nonce))
  let n := freeSpdm s k
  match summaryHash s (byteAt req 2).toNat, ecdh d (spdmPair (bytesAt req 40 64)) with
  | some m, some z =>
    if req.length < 106 ∨ req.length ≠ 106 + leNat (bytesAt req 104 2) ∨ (slot ≠ 0 ∧ slot ≠ 255) ∨ !c.kex then
      (s, spdmErr 0x01 0)
    else if 4 ≤ (s.hst.spdm.filter (fun x => x.link == k)).length then (s, spdmErr 0x0A 0)
    else if identityState s = 3 then (s, spdmErr 0x05 0)
    else
      let period := (Config.freeValue s.fresh).toNat % 256
      let text := bytesOf [0x12, 0x64, period, 0] ++ leBytes 2 n ++ [0, 0] ++ spdmNonce s ++ spdmPair (ecPublic d) ++ m ++
        leBytes 2 Config.spdmOpaque.length ++ Config.spdmOpaque
      let th := c.vca ++ chainHash s (slot % 16) ++ req ++ text
      let r := spdmSign (nonceDrawn s) ctxExchange th
      let hs := handshakeSecret z
      let th := th ++ r.1
      let rsp := spdmExpand hs rspHs (shaBytes th) 32
      let verify := finishedData rsp th
      let x : SpdmSession :=
        { link := k, sid := leNat (bytesAt req 4 2) + 65536 * n, open_ := false, secret := hs, th := th ++ verify,
          reqKey := spdmExpand hs reqHs (shaBytes th) 32, rspKey := rsp, reqSeq := 0, rspSeq := 0, meas := [],
          period := period, last := islandUs s }
      ({ r.2 with hst := { r.2.hst with spdm := r.2.hst.spdm ++ [x] } }, text ++ r.1 ++ verify)
  | _, _ => (s, spdmErr 0x01 0)

/-- A request outside a session, by its code. What needs the algorithms waits for them. -/
def spdmServe (s : State) (k : Nat) (req : List Byte) : State × List Byte :=
  let code := (byteAt req 1).toNat
  if req.length < 4 then (s, spdmErr 0x01 0)
  else if code = 0x84 then (if byteAt req 0 = 0x10 then spdmVersion s k req else (s, spdmErr 0x41 0))
  else if byteAt req 0 ≠ 0x12 then (s, spdmErr 0x41 0)
  else if code = 0xE1 then spdmCapabilities s k req
  else if code = 0xE3 then spdmAlgorithms s k req
  else if !([0x81, 0x82, 0x83, 0xE0, 0xE4, 0xE5, 0xE8, 0xE9, 0xEC, 0xFE].contains code) then (s, spdmErr 0x07 code)
  else if (spdmConn s k).stage ≠ 3 then (s, spdmErr 0x04 0)
  else match code with
    | 0x81 => spdmDigests s k none req
    | 0x82 => spdmCertificate s k none req
    | 0x83 => spdmChallenge s k req
    | 0xE0 => spdmMeasurements s k none req
    | 0xE4 => spdmKeyExchange s k req
    | _ => (s, spdmErr 0x04 0)

/-! ## Messages in a session -/

/-- FINISH: the requester's verify data ends the handshake, and the application secrets follow. Verify data that fails answers
DecryptError and ends the session. The state is the one in which FINISH_RSP goes out, under the handshake's secret. -/
def spdmFinish (s : State) (x : SpdmSession) (req : List Byte) : State × List Byte :=
  let head := req.take 4
  if x.open_ then (s, spdmErr 0x04 0)
  else if req.length ≠ 36 ∨ (byteAt req 2).getLsbD 0 then (s, spdmErr 0x01 0)
  else if finishedData x.reqKey (x.th ++ head) ≠ req.drop 4 then (dropSpdm s (fun y => y.link == x.link && y.sid == x.sid), spdmErr 0x06 0)
  else (setSpdm s { x with th := x.th ++ req }, bytesOf [0x12, 0x65, 0, 0])

/-- After FINISH_RSP: the application secrets. -/
def spdmOpened (s : State) (k sid : Nat) : State :=
  match spdmFind s k sid with
  | none => s
  | some x =>
    let th := shaBytes (x.th ++ bytesOf [0x12, 0x65, 0, 0])
    let ms := masterSecret x.secret
    setSpdm s { x with open_ := true, reqKey := spdmExpand ms reqApp th 32, rspKey := spdmExpand ms rspApp th 32,
                       reqSeq := 0, rspSeq := 0 }

/-- KEY_UPDATE: 1 renews the requester's secret, 2 both, 3 verifies the new one. -/
def spdmKeyUpdate (s : State) (x : SpdmSession) (req : List Byte) : State × List Byte :=
  let op := (byteAt req 2).toNat
  let ack := bytesOf [0x12, 0x69, op, (byteAt req 3).toNat]
  if req.length ≠ 4 then (s, spdmErr 0x01 0)
  else match op with
    | 1 => (setSpdm s { x with reqKey := nextSecret x.reqKey, reqSeq := 0 }, ack)
    | 2 => (setSpdm s { x with reqKey := nextSecret x.reqKey, reqSeq := 0, rspKey := nextSecret x.rspKey, rspSeq := 0 }, ack)
    | 3 => (s, ack)
    | _ => (s, spdmErr 0x01 0)

/-- An answer goes out in its session; one whose session has gone goes out in the clear. -/
def spdmReply (s : State) (k sid : Nat) (msg : List Byte) : State :=
  match spdmFind s k sid with
  | none => emit s (.spdm k (byteAt msg 1).toNat msg)
  | some x =>
    emit (setSpdm s { x with rspSeq := x.rspSeq + 1 }) (.secured k sid (spdmSeal x.rspKey x.rspSeq sid msg))

end Sys2Proof.Machine
end

