-- ==== Sys2Proof/Machine/Attest.lean ====
section
/-!
DEFINITION. The DOE mailboxes (11 R266), the SPDM requests that arrive in them (15 R366), and IDE_KM (11 R267).
-/

namespace Sys2Proof.Machine

/-! ## DOE (11 R266) -/

/-- The protocol of a DOE Discovery index and the next index: Discovery, CMA/SPDM, Secured CMA/SPDM. -/
def doeProtocol (i : Nat) : Nat := if i < 3 then 1 + 2 ^ 16 * i + 2 ^ 24 * ((i + 1) % 3) else 0xFFFF

/-- DOE_DISCOVERY (11 R266): an object of more than 65,536 bytes, or one that is no Discovery object of 3 double words, is
refused. -/
def execDoeDiscovery (link : BitVec 2) (object : List (BitVec 32)) (s : State) : Host.Outcome State Fault Refusal :=
  let k := link.toNat
  .next (if !doeUp s k then s
    else match object with
      | [h, n, i] =>
        if h = 1 ∧ fld n 0 18 = 3 then emit s (.doe k [1, 3, BitVec.ofNat 32 (doeProtocol (fld i 0 8))]) else doeError s k
      | _ => doeError s k)

/-! ## SPDM (15 R366) -/

/-- An SPDM request as the mailbox takes it, one DOE object with its 8-byte header: it is served by its own request code. The
exchanges that have no row of their own, GET_VERSION, GET_CAPABILITIES and NEGOTIATE_ALGORITHMS, and codes that SPDM 1.2 does
not have or the device does not support, arrive with any of the rows (DESIGN CHOICE, assumption 285). -/
def spdmTake (s : State) (k : Nat) (object : List Byte) : State :=
  let s := spdmExpire s
  if !doeUp s k then s
  else if 65536 < object.length + 8 then doeError s k
  else
    let r := spdmServe s k object
    emit r.1 (.spdm k (byteAt r.2 1).toNat r.2)

/-- GET_DIGESTS (15 R366). -/
def execGetDigests (link : BitVec 2) (object : List Byte) (s : State) : Host.Outcome State Fault Refusal :=
  .next (spdmTake s link.toNat object)

/-- GET_CERTIFICATE (15 R366). -/
def execGetCertificate (link : BitVec 2) (object : List Byte) (s : State) : Host.Outcome State Fault Refusal :=
  .next (spdmTake s link.toNat object)

/-- CHALLENGE (15 R366). -/
def execChallenge (link : BitVec 2) (object : List Byte) (s : State) : Host.Outcome State Fault Refusal :=
  .next (spdmTake s link.toNat object)

/-- GET_MEASUREMENTS (15 R366). -/
def execGetMeasurements (link : BitVec 2) (object : List Byte) (s : State) : Host.Outcome State Fault Refusal :=
  .next (spdmTake s link.toNat object)

/-- KEY_EXCHANGE (15 R366). -/
def execKeyExchange (link : BitVec 2) (object : List Byte) (s : State) : Host.Outcome State Fault Refusal :=
  .next (spdmTake s link.toNat object)

/-! ## IDE_KM (11 R267) -/

/-- Key sub-streams that IDE_KM names: key set in bit 0, direction in bit 1, sub-streams 0 to 2 in bits [7:4]. -/
def ideSub (b : Nat) : Bool := b / 4 % 4 == 0 && b / 16 < 3

/-- The number of a key sub-stream of a stream of a link. -/
def ideKey (k stream sub : Nat) : Nat := (k * 256 + stream) * 256 + sub

/-- K_SET_GO puts a programmed key sub-stream to use in place of the other key set's (11 R267). -/
def keySetGo (s : State) (k stream sub : Nat) : State :=
  let key := ideKey k stream sub
  if (sfind s.hst.ide key).isNone then s
  else
    let other := ideKey k stream (if sub % 2 = 0 then sub + 1 else sub - 1)
    { s with hst := { s.hst with ideOn := s.hst.ideOn.filter (fun x => x != key && x != other) ++ [key] } }

/-- K_SET_STOP ends the use of a key sub-stream. -/
def keySetStop (s : State) (k stream sub : Nat) : State :=
  { s with hst := { s.hst with ideOn := s.hst.ideOn.filter (· != ideKey k stream sub) } }

/-- A KEY_PROG of a stream that ide_streams gives the link sets its key: the state and the status of its acknowledgement. -/
def keyProg (s : State) (k : Nat) (object : List Byte) : State × Nat :=
  let stream := (byteAt object 4).toNat
  let sub := (byteAt object 6).toNat
  if object.length ≠ 48 then (s, 1)
  else if (byteAt object 7).toNat ≠ 0 then (s, 2)
  else if objGet s (0xA100 + k) 0x0A 0 ≤ stream ∨ !ideSub sub then (s, 3)
  else
    ({ s with hst := { s.hst with ide := sset 0 s.hst.ide (ideKey k stream sub) (BitVec.ofNat 512 (leNat (bytesAt object 8 40))) } }, 0)

/-- The IDE Extended Capability of the PF0 of a link, as QUERY_RESP carries it (11 Table 11-3). -/
def ideRegisters (s : State) (k : Nat) : List Byte :=
  (List.range ((0x1000 - 0x2C0) / 4)).flatMap (fun i => leBytes 4 (cfgRead s k 0 (0x2C0 + 4 * i)))

/-- An IDE_KM message and its answer: QUERY, KEY_PROG, K_SET_GO, K_SET_STOP; another identifier is not answered. -/
def ideKmServe (s : State) (k : Nat) (object : List Byte) : State × Option (List Byte) :=
  let stream := byteAt object 4
  let sub := byteAt object 6
  let ack (id status : Nat) : List Byte := bytesOf [0, id, 0, 0] ++ [stream, BitVec.ofNat 8 status, sub, byteAt object 7]
  if byteAt object 0 ≠ 0 then (s, none)
  else match (byteAt object 1).toNat with
    | 0 => (s, if object.length = 4 then some (bytesOf [0, 1, 0, (byteAt object 3).toNat, 0, 0, 0, 0] ++ ideRegisters s k) else none)
    | 2 => let r := keyProg s k object; (r.1, some (ack 3 r.2))
    | 4 => if object.length < 8 then (s, none) else (keySetGo s k stream.toNat sub.toNat, some (ack 6 0))
    | 5 => if object.length < 8 then (s, none) else (keySetStop s k stream.toNat sub.toNat, some (ack 6 0))
    | _ => (s, none)

/-- A vendor-defined header of the PCI-SIG, with the length of its payload. -/
def vendorHeader (code len : Nat) : List Byte := bytesOf [0x12, code, 0, 0, 3, 0, 2, 1, 0] ++ leBytes 2 len

/-- A vendor-defined request in an open session: IDE_KM of the PCI-SIG. -/
def spdmVendor (s : State) (x : SpdmSession) (req : List Byte) : State × List Byte :=
  if !x.open_ ∨ req.take 11 ≠ vendorHeader 0xFE (req.length - 11) then (s, spdmErr 0x01 0)
  else match ideKmServe s x.link (req.drop 11) with
    | (t, some r) => (t, vendorHeader 0x7E r.length ++ r)
    | (t, none) => (t, spdmErr 0x01 0)

/-- A message of a session, decrypted, by its code: the handshake takes FINISH alone. -/
def sessionServe (s : State) (x : SpdmSession) (req : List Byte) : State × List Byte :=
  let code := (byteAt req 1).toNat
  if req.length < 4 then (s, spdmErr 0x01 0)
  else if byteAt req 0 ≠ 0x12 then (s, spdmErr 0x41 0)
  else if !x.open_ ∧ code ≠ 0xE5 then (s, spdmErr 0x04 0)
  else match code with
    | 0x81 => spdmDigests s x.link (some x) req
    | 0x82 => spdmCertificate s x.link (some x) req
    | 0xE0 => spdmMeasurements s x.link (some x) req
    | 0xE5 => spdmFinish s x req
    | 0xE8 => (s, bytesOf [0x12, 0x68, 0, 0])
    | 0xE9 => spdmKeyUpdate s x req
    | 0xEC => (s, bytesOf [0x12, 0x6C, 0, 0])
    | 0xFE => spdmVendor s x req
    | _ => (s, spdmErr 0x04 0)

/-- A message of a session is served and answered in it. END_SESSION closes the session behind its answer, and the application
secrets follow FINISH_RSP. -/
def sessionTake (s : State) (x : SpdmSession) (msg : List Byte) : State :=
  let x := { x with reqSeq := x.reqSeq + 1, last := islandUs s }
  let r := sessionServe (setSpdm s x) x msg
  let t := spdmReply r.1 x.link x.sid r.2
  match (byteAt r.2 1).toNat with
  | 0x65 => spdmOpened t x.link x.sid
  | 0x6C => dropSpdm t (fun y => y.link == x.link && y.sid == x.sid)
  | _ => t

/-- IDE_KM (11 R267): a message in a secured session of the PF0, as its text and tag. One whose data object is longer than
65,536 bytes, its headers of 8 and of 6 bytes counted, is refused (R266). A message whose tag fails ends its session and
answers DecryptError. -/
def execIdeKm (link : BitVec 2) (session : BitVec 32) (object : List Byte) (s : State) : Host.Outcome State Fault Refusal :=
  let k := link.toNat
  let s := spdmExpire s
  .next (if !doeUp s k then s
    else if 65536 < object.length + 14 then doeError s k
    else match spdmFind s k session.toNat with
      | none => s
      | some x =>
        match spdmOpen x.reqKey x.reqSeq x.sid object with
        | some msg => sessionTake s x msg
        | none =>
          emit (dropSpdm s (fun y => y.link == k && y.sid == x.sid)) (.spdm k 0x7F (spdmErr 0x06 0)))

end Sys2Proof.Machine
end

