-- ==== Sys2Proof/Machine/Control.lean ====
section
/-!
DEFINITION. Control slots (03 R59–R61, R71).
-/

namespace Sys2Proof.Machine

def cmdClass : SeqCmd → Nat
  | .stop _ => 0
  | .table _ => 1
  | .write _ => 2

/-- The oldest command of the highest class present (03 R60). -/
def nextCmd (q : List SeqCmd) : Option SeqCmd :=
  match q.find? (fun c => cmdClass c == 0) with
  | some c => some c
  | none =>
    match q.find? (fun c => cmdClass c == 1) with
    | some c => some c
    | none => q.head?

/-- A parameter write has executed in pipeline `p`; it takes effect at a beat boundary once all have (01 R22, 03 R61). -/
def writeExecuted (s : State) (id p : Nat) : State :=
  { s with objs := { s.objs with
      pend := s.objs.pend.map (fun w => if w.id = id then { w with waits := w.waits.filter (· != p) } else w) } }

/-- A class 3 issue of pipeline `p` (03 R71). -/
def installIssue (s : State) (p : Nat) : State :=
  match s.tt.state, s.tt.staged with
  | .installing, some img =>
    let left := s.tt.install.getD p 0
    if left = 0 then s
    else
      let priv := stagedPrivate s img
      let s := installWord s img priv p (installIssues priv - left)
      ttSet s { s.tt with install := lset s.tt.install p (left - 1) }
  | _, _ => s

/-- One control slot of pipeline `p`. -/
def controlStep (s : State) (p : Nat) : State :=
  match nextCmd (s.pipe.ctl.getD p []) with
  | none => installIssue s p
  | some c =>
    let s := { s with pipe := { s.pipe with ctl := lset s.pipe.ctl p ((s.pipe.ctl.getD p []).erase c) } }
    match c with
    | .stop id => writeExecuted s id p
    | .table w => tcStageStep s w p
    | .write id => writeExecuted s id p

/-- CONTROL_SLOT (03 R60, R79). -/
def execControlSlot (slot : BitVec 12) (p : BitVec 2) (s : State) (rowOk : Bool := true) : Host.Outcome State Fault Refusal :=
  let s := atPort s slot
  .next (if rowBad s rowOk then rowFailed s
    else if rowIngress (schedRow s slot.toNat) p.toNat = 0x3E then controlStep s p.toNat else s)

end Sys2Proof.Machine
end

