-- ==== Sys2Proof/Machine/Rewrite.lean ====
section
/-!
DEFINITION. The rewrite unit's edits and checksum fixes (05 R123, Table 5-11).
-/

namespace Sys2Proof.Machine

/-- The anchor of an edit: frame start, L3_OFF, L4_OFF, PAYLOAD_OFF. -/
def editAnchor (bus : Bus) (a : Nat) : Nat :=
  if a = 0 then 0 else if a = 1 then fld bus 36 10 else if a = 2 then fld bus 46 10 else fld bus 26 10

/-- Bytes of a field of the bus, most significant first; bits past 1,023 read 0 (DESIGN CHOICE, assumption 266). -/
def busBytes (bus : Bus) (src n : Nat) : List Byte := beBytes n (fld bus src (8 * n))

/-- Two bytes written in network byte order, within the frame. -/
def put16 (d : List Byte) (off v : Nat) : List Byte := overwrite d off (beBytes 2 v)

/-- FIX_IPV4: the header checksum at L3_OFF, when it names an IPv4 header. -/
def fixIpv4 (w : Walk) (d : List Byte) : List Byte :=
  match w.ipSeen with
  | none => d
  | some k =>
    if k % 2 = 1 then d
    else
      let off := k / 2
      let n := (byteAt d off).toNat % 16 * 4
      let d := put16 d (off + 10) 0
      put16 d (off + 10) (inetSum ((d.drop off).take n))

/-- Where an L4 role keeps its checksum. -/
def sumAt (role : Nat) : Nat := if role = 7 then 6 else if role = 8 then 16 else 2

/-- FIX_L4: the checksum of the header at L4_OFF; a UDP checksum of 0 under IPv4 stays 0, and one that
computes to 0 is written as 0xFFFF (DESIGN CHOICE, assumption 265). -/
def fixL4 (w : Walk) (d : List Byte) : List Byte :=
  match w.l4ip with
  | none => d
  | some k =>
    if w.l4 = 0x3FF then d
    else
      let v6 := k % 2 == 1
      let at' := w.l4 + sumAt w.l4role
      if w.l4role = 7 ∧ !v6 ∧ beNat (bytesAt d at' 2) = 0 then d
      else
        let d := put16 d at' 0
        let v := 65535 - fold16 (l4Sum w.l4role v6 d d (k / 2) w.l4)
        put16 d at' (if w.l4role = 7 ∧ v = 0 then 65535 else v)

/-- One edit word. -/
def editOne (bus : Bus) (w : Walk) (d : List Byte) (e : Nat) : List Byte :=
  let op := e % 4
  let anchor := editAnchor bus (e / 4 % 4)
  let at' := anchor + e / 16 % 512
  let n := e / 2 ^ 13 % 64 + 1
  let src := e / 2 ^ 19 % 1024
  if anchor = 0x3FF ∨ d.length < at' then d
  else
    let d := if op = 0 then overwrite d at' (busBytes bus src n)
      else if op = 1 then d.take at' ++ busBytes bus src n ++ d.drop at'
      else d.take at' ++ d.drop (at' + n)
    let d := if e.testBit 29 then fixIpv4 w d else d
    if e.testBit 30 then fixL4 w d else d

/-- The edits of a profile in order; OP 3 ends it. -/
def runEdits (bus : Bus) (w : Walk) (d : List Byte) : List Nat → List Byte
  | [] => d
  | e :: es => if e % 4 = 3 then d else runEdits bus w (editOne bus w d e) es

/-- The edit words of a profile. -/
def profileEdits (p : BitVec 1024) : List Nat := (List.range 16).map (fun i => fld p (64 * i) 64)

end Sys2Proof.Machine
end

