-- ==== Sys2Proof/Machine/Actions.lean ====
section
/-!
DEFINITION. Action primitives (05 R114, R115, R137, Tables 5-5 and 5-6, 06 Table 6-6).
-/

namespace Sys2Proof.Machine

/-- Where an action runs: in a stage, or at the end of a tree walk, when learn requests wait for the return-row leg. -/
structure ActCtx where
  /-- action data and its width in bits -/
  data  : Nat
  width : Nat
  away  : Bool
deriving DecidableEq, Repr

/-- The item, the first DETOUR (false) or TREE (true) of the stage, and the state. -/
structure ActSt where
  s     : State
  x     : Item
  leave : Option (Bool × Nat)
deriving DecidableEq, Repr

def busSet (a : ActSt) (lo w v : Nat) : ActSt := { a with x := { a.x with bus := setFld a.x.bus lo w v } }

def fwdKind (a : ActSt) (k : Nat) : ActSt := busSet a 854 2 k

/-- Action data bits; those past the entry's data are free (the specification gives them no value). -/
def dataBits (s : State) (c : ActCtx) (lo w : Nat) : Nat × State :=
  if lo + w ≤ c.width then ((c.data >>> lo) % 2 ^ w, s)
  else
    let r := draw s
    (((c.data % 2 ^ c.width + r.1.toNat * 2 ^ c.width) >>> lo) % 2 ^ w, r.2)

/-- A learn or move request is raised: at once, or carried by the return-row leg (05 R106, 06 R138). -/
def raiseLearn (a : ActSt) (away : Bool) (r : LearnReq) : ActSt :=
  if away then { a with x := { a.x with carried := a.x.carried ++ [r] } } else { a with s := pushLearn a.s r }

/-- The request that an item raises in the present slot (06 R138). -/
def learnOf (a : ActSt) (flow move : Bool) (data : Nat) : LearnReq :=
  ⟨flow, move, if flow then a.x.flowKey else a.x.l2key, portOfLane a.s a.x.lane, data, a.x.gen, now a.s, a.x.pipe, now a.s⟩

/-- LEARN (06 R137, Table 6-6). -/
def actLearn (a : ActSt) (away : Bool) (imm : Nat) : ActSt :=
  let port := portOfLane a.s a.x.lane
  let sub (n : Nat) : ActSt := { a with s := count a.s 0xC080 n }
  if imm % 2 = 0 then
    let req (move : Bool) : LearnReq := learnOf a false move (imm / 2 % 2048)
    match fld a.x.bus (768 + 17) 3 with
    | 2 => raiseLearn a away (req true)
    | 3 => raiseLearn a away (req false)
    | 4 => fwdKind (sub 0x06) (if objGet a.s 0x6000 0x04 0 = 1 then 3 else 2)
    | 5 =>
      let b := sub 0x09
      fwdKind { b with s := count b.s (0xC180 + port) 0x01 } (if objGet a.s (0x6100 + port) 0x02 0 = 0 then 3 else 2)
    | 6 => sub 0x05
    | _ => a
  else if fld a.x.bus 830 1 = 1 then a
  else
    match fld a.x.bus 816 12 with
    | 1 => raiseLearn a away (learnOf a true false (imm / 2 % 4096))
    | 3 => raiseLearn a away (learnOf a true false (imm / 2 % 4096))
    | 2 => fwdKind (sub 0x07) (if objGet a.s 0x6000 0x05 0 = 1 then 3 else 2)
    | _ => a

/-- DETOUR or TREE: the first in a stage takes effect; later ones, and any that a tree's action runs, are counted (05 R115).
A trapped frame is not redirected (04 R92). -/
def actLeave (a : ActSt) (away tree : Bool) (n : Nat) : ActSt :=
  if a.x.trap then a
  else if away ∨ a.leave.isSome then { a with s := count a.s (0xC070 + a.x.pipe) 0x10 }
  else { a with leave := some (tree, n) }

/-- One primitive word. -/
def runPrim (c : ActCtx) (a : ActSt) (p : BitVec 64) : ActSt :=
  let n := pWidth p
  let imm := pImm p
  match pOp p with
  | 1 => busSet a (pDst p) n imm
  | 2 => busSet a (pDst p) n (fld a.x.bus (pSrc p) n)
  | 3 =>
    let r := dataBits a.s c (pSrc p) n
    busSet { a with s := r.2 } (pDst p) n r.1
  | 4 => busSet a (pDst p) n (fld a.x.bus (pDst p) n + imm)
  | 5 => fwdKind a 1
  | 6 => busSet (fwdKind a 2) 856 16 imm
  | 7 => fwdKind a 3
  | 8 => actLeave a c.away false (imm % 256)
  | 9 => actLeave a c.away true (imm % 256)
  | 10 => busSet a 874 16 imm
  | 11 => busSet a 938 12 imm
  | 12 => actLearn a c.away imm
  | _ => a

/-- An action: its primitives in order, up to its first NOP. -/
def runAction (i : Image) (act : Nat) (c : ActCtx) (a : ActSt) : ActSt :=
  (actionPrims (i.actions.getD act 0)).foldl (runPrim c) a

end Sys2Proof.Machine
end

