-- ==== Sys2Proof/Machine/Stages.lean ====
section
/-!
DEFINITION. Match-action stages, detours, tree walks and returns (03 R57, 05 R104–R120, R468).
-/

namespace Sys2Proof.Machine

/-! ## Stages (05 R104, R109–R115) -/

/-- The tables of stage `t` in the order exact, ternary, LPM, range (05 R109, R114). -/
def stageTables (i : Image) (t : Nat) : List (BitVec 512) :=
  (List.range 4).filterMap (fun k => i.tables.find? (fun d => tStage d == t && tKind d == k))

/-- The item holds the memory port of stage `t` in this slot: its row and the entry offset of the generation whose
timing it follows give the slot (05 R104, R105). -/
def portDue (s : State) (x : Item) (t slot : Nat) : Bool :=
  slot == (x.row + entryOffset (imageOf s x.timGen) t) % 4096

/-- A lookup and its counts (05 Table 5-13). -/
def lookCounted (s : State) (d : BitVec 512) (p : Nat) (bus : Bus) : Hit × State :=
  let r := lookTable s d p bus
  let idx := 0xC070 + p
  let s := count r.2 idx (0x01 + tKind d)
  (r.1, if r.1.hit.isSome then count s idx (0x05 + tKind d) else s)

/-- Every lookup of a stage, on the bus as the item brings it. -/
def lookAll (p : Nat) (bus : Bus) : List (BitVec 512) → State → List (BitVec 512 × Hit) × State
  | [], s => ([], s)
  | d :: ds, s =>
    let r := lookCounted s d p bus
    let q := lookAll p bus ds r.2
    ((d, r.1) :: q.1, q.2)

/-- The action of one lookup: that of the hit, or MISS_ACTION, which has no entry and so no data. -/
def runLook (i : Image) (a : ActSt) (h : BitVec 512 × Hit) : ActSt :=
  match h.2.hit with
  | some (act, data, width) => runAction i (tActBase h.1 + act) ⟨data, width, false⟩ a
  | none => runAction i (tActBase h.1 + tMiss h.1) ⟨0, 0, false⟩ a

/-- An item at stage `t`: lookups, then actions; a quarantined word read in mode 0 drops the item (05 R113). -/
def stageStep (s : State) (i : Image) (x : Item) (t : Nat) : State :=
  let r := lookAll x.pipe x.bus (stageTables i t) s
  if r.1.any (fun h => h.2.faulty) && objGet s 0x5300 0x01 0 == 0 then
    itemRemove (count r.2 (0xC070 + x.pipe) 0x0A) x.id
  else
    let a := r.1.foldl (runLook i) ⟨r.2, x, none⟩
    itemPut a.s { a.x with pos := match a.leave with
      | some (tree, n) => .leaving t tree n
      | none => .stage (t + 1) }

/-- STAGE_PORT_SLOT (05 R104). -/
def execStagePortSlot (slot : BitVec 12) (item : Nat) (s : State) : Host.Outcome State Fault Refusal :=
  let s := atPort s slot
  .next (match itemGet s item with
    | none => s
    | some x =>
      match x.pos, imageOf s x.gen with
      | .stage t, some i => if t < 20 ∧ portDue s x t slot.toNat then stageStep s i x t else s
      | _, _ => s)

/-- SCRUB_SLOT (05 R113, R468): the port that row `slot − I[stage]` gives to the scrubber, unless a returning item has
taken the position of that row (R105). -/
def execScrubSlot (slot : BitVec 12) (p : BitVec 2) (stage : Nat) (s : State) (rowOk : Bool := true) : Host.Outcome State Fault Refusal :=
  let s := atPort s slot
  let row := (slot.toNat + 65536 - entryOffset s.tt.cur stage) % 4096
  let taken := s.pipe.items.any (fun x => x.pipe == p.toNat && x.pos == .stage stage && portDue s x stage slot.toNat)
  let m := now s - entryOffset s.tt.cur stage
  .next (if rowBadAt s m rowOk then rowFailedAt s m
    else if stage < 20 ∧ rowPort (schedRow s row) p.toNat stage = 1 ∧ !taken then scrubStage s p.toNat stage else s)

/-! ## Leaving (03 R57, 05 R115–R117) -/

/-- An item is in walker `w` of pipeline `p`. -/
def inWalker (p w : Nat) (x : Item) : Bool :=
  x.pipe == p && (match x.pos with | .walker _ _ k => k == w | _ => false)

/-- The lowest-numbered idle walker of a pipeline (05 R117). -/
def idleWalker (s : State) (p : Nat) : Option Nat :=
  (List.range 64).find? (fun w => !(s.pipe.items.any (inWalker p w)))

/-- The head of the tree request queue goes to an idle walker; tree_walks counts it. -/
def pumpTree (s : State) (p : Nat) : State :=
  match s.pipe.treeQ.getD p [], idleWalker s p with
  | id :: rest, some w =>
    match itemGet s id with
    | none => s
    | some x =>
      match x.pos with
      | .treeQueue t n =>
        let s := { s with pipe := { s.pipe with treeQ := lset s.pipe.treeQ p rest } }
        count (itemPut s { x with pos := .walker t n w }) (0xC070 + p) 0x0C
      | _ => s
  | _, _ => s

/-- The walk of tree `n` as it starts: the key from the bus and the root (05 R116). -/
def startTree (i : Image) (bus : Bus) (n : Nat) : TreeWalk :=
  let t := i.trees.getD n 0
  { tree := n, key := BitVec.ofNat 320 (keyOf bus (trKey t)), node := trRoot t, leaf := false, rule := 0, left := 0,
    best := none, reading := false }

/-- An item leaves for a tree: the request queue of 1,024 items, or the drop (05 R117). -/
def leaveTree (s : State) (x : Item) (t n : Nat) : State :=
  if 1024 ≤ (s.pipe.treeQ.getD x.pipe []).length then itemRemove (count s (0xC070 + x.pipe) 0x0E) x.id
  else
    match imageOf s x.gen with
    | none => s
    | some i =>
      let s := itemPut s { x with pos := .treeQueue t n, treeWalk := some (startTree i x.bus n) }
      pumpTree { s with pipe := { s.pipe with treeQ := lmod s.pipe.treeQ x.pipe (fun q => q ++ [x.id]) } } x.pipe

/-- An item leaves for a Jutex function: the cluster of the row's DETOUR field, or its substitute under the mapping in force;
with every cluster excluded it is dropped at the stage (03 R57, 07 R172). -/
def leaveJutex (s : State) (x : Item) (t fn slot : Nat) (rowOk : Bool) : State :=
  if rowBad s rowOk then dropNoCluster (rowFailed s) x.id
  else
    let c := rowDetour (schedRow s slot) x.pipe
    match (if 16 ≤ c then none else s.jx.map.getD c none) with
    | none => dropNoCluster s x.id
    | some d => count (itemPut s { x with pos := .toCluster t d fn }) (0xC070 + x.pipe) 0x0B

/-- The order domain is read when the item first leaves (05 R121). -/
def fixDomain (x : Item) : Item :=
  match x.domain with
  | some _ => x
  | none => { x with domain := some (busOrderKey x.bus) }

/-- DETOUR_LEAVE (03 R57, 05 R115). -/
def execDetourLeave (slot : BitVec 12) (item : Nat) (rowOk : Bool) (s : State) : Host.Outcome State Fault Refusal :=
  let s := atSlot s slot
  .next (match itemGet s item with
    | none => s
    | some x =>
      match x.pos with
      | .leaving t tree n =>
        if portDue s x (t + 1) slot.toNat then
          let x := fixDomain x
          if tree then leaveTree s x t n else leaveJutex s x t n slot.toNat rowOk
        else s
      | _ => s)

/-! ## Walks (05 R116–R119) -/

/-- WALK_GRANT (05 R117): the walker that the row names makes one read. -/
def execWalkGrant (slot : BitVec 12) (p : BitVec 2) (rowOk : Bool) (s : State) : Host.Outcome State Fault Refusal :=
  let s := atSlot s slot
  .next (if rowBad s rowOk then rowFailed s
    else
      match s.pipe.items.find? (inWalker p.toNat (rowWalk (schedRow s slot.toNat) p.toNat)) with
      | none => s
      | some x =>
        match x.treeWalk with
        | some w => itemPut s { x with treeWalk := some { w with reading := true } }
        | none => s)

/-- A walk that stops: the item is dropped and the walker is idle (05 R119). `code` is the pair-fault or the memory
event; the parameter of an uncorrectable read is open, the specification gives a tree no address. -/
def walkError (s : State) (x : Item) (code island param : Nat) : State :=
  let s := event (count s (0xC070 + x.pipe) 0x0F) code island param
  pumpTree (itemRemove s x.id) x.pipe

/-- The end of a walk: the winner's action or DEFAULT_ACTION runs on the bus and the item waits for its return row. -/
def walkEnd (s : State) (i : Image) (x : Item) (t : Nat) (w : TreeWalk) : State :=
  let d := i.trees.getD w.tree 0
  let a := match w.best with
    | some (_, r) =>
      runAction i (trActBase d + ruleAction r) ⟨ruleData r, 64, true⟩ ⟨s, x, none⟩
    | none =>
      runAction i (trActBase d + trDefault d) ⟨0, 0, true⟩ ⟨count s (0xC070 + x.pipe) 0x0D, x, none⟩
  let s := itemPut a.s { a.x with pos := .returning (t + 1) (now s + 1), treeWalk := none }
  pumpTree { s with pipe := { s.pipe with retQ := lmod s.pipe.retQ x.pipe (fun q => q ++ [x.id]) } } x.pipe

/-- The better of the best rule so far and the next rule: the lower PRIORITY, and the earlier on a tie. -/
def bestRule (best : Option (Nat × BitVec 768)) (key : BitVec 320) (r : BitVec 768) : Option (Nat × BitVec 768) :=
  if ruleValid r && (key.toNat &&& ruleMask r == ruleValue r) then
    match best with
    | some b => if rulePriority r < b.1 then some (rulePriority r, r) else some b
    | none => some (rulePriority r, r)
  else best

/-- The data of a walker's read: an internal node, a leaf or a rule. -/
def walkData (s : State) (i : Image) (x : Item) (t : Nat) (w : TreeWalk) : State :=
  if w.leaf then
    let r := treeRule s i w.rule
    if !ruleOk r then walkError s x 0x0003 (1 + x.pipe) w.rule
    else
      let w := { w with best := bestRule w.best w.key r, rule := w.rule + 1, left := w.left - 1, reading := false }
      if w.left = 0 then walkEnd s i x t w else itemPut s { x with treeWalk := some w }
  else
    let n := treeNode s i w.node
    if !tnOk n then walkError s x 0x0003 (1 + x.pipe) w.node
    else if tnLeaf n then
      if tnRules n = 0 then walkEnd s i x t w
      else itemPut s { x with treeWalk := some { w with leaf := true, rule := tnBase n, left := tnRules n, reading := false } }
    else
      let child := tnBase n + (w.key.toNat >>> tnCutOff n) % 2 ^ tnCutBits n
      itemPut s { x with treeWalk := some { w with node := child, reading := false } }

/-- WALK_READ_DATA (05 R116, R119); `readOk` is false for an uncorrectable read. -/
def execWalkReadData (p : BitVec 2) (w : BitVec 6) (readOk : Bool) (s : State) : Host.Outcome State Fault Refusal :=
  .next (match s.pipe.items.find? (inWalker p.toNat w.toNat) with
    | none => s
    | some x =>
      match x.pos, x.treeWalk, imageOf s x.gen with
      | .walker t _ _, some k, some i =>
        if !k.reading then s
        else if readOk then walkData s i x t k
        else
          let r := draw s
          walkError r.2 x 0x0102 33 (r.1.toNat % 2 ^ 64)
      | _, _, _ => s)

/-! ## Returns (05 R105, R106) -/

/-- The first item of a return queue that re-enters at stage `u` now. -/
def returnDue (s : State) (p u : Nat) : Option Item :=
  ((s.pipe.retQ.getD p []).filterMap (itemGet s)).find? (fun x =>
    match x.pos with
    | .returning v due => v == u && decide (due ≤ now s)
    | _ => false)

/-- RETURN_SLOT (05 R105): a return row of the current schedule and its re-entry stage. -/
def execReturnSlot (slot : BitVec 12) (p : BitVec 2) (s : State) (rowOk : Bool := true) : Host.Outcome State Fault Refusal :=
  let s := atSlot s slot
  .next (match s.tt.cur with
    | none => s
    | some i =>
      if rowBad s rowOk then rowFailed s
      else if rowIngress (schedRow s slot.toNat) p.toNat ≠ 0x3D then s
      else
        let u := (i.maps.getD p.toNat []).getD slot.toNat 0
        match returnDue s p.toNat u with
        | none => s
        | some x =>
          let row := (slot.toNat + 65536 - entryOffset s.tt.cur u) % 4096
          let s := itemPut s { x with row := row, timGen := s.tt.gen, back := some slot.toNat, pos := .stage u }
          { s with pipe := { s.pipe with retQ := lmod s.pipe.retQ p.toNat (fun q => q.filter (· != x.id)) } })

end Sys2Proof.Machine
end

