-- ==== Sys2Proof/Machine/Deparser.lean ====
section
/-!
DEFINITION. The deparser: fate, metering and rewriting, and the reorder unit (05 R121–R124, 04 R92, 08 R185).
-/

namespace Sys2Proof.Machine

/-! ## The reorder unit (05 R121, R122) -/

/-- Item `y` holds back item `x`: an earlier item of its pipeline and order domain that is still outstanding. -/
def holdsBack (x y : Item) : Bool :=
  y.pipe == x.pipe && y.pos != .cipher && y.domain.isSome && y.domain == x.domain && seqBefore y.seq x.seq

def isHeld (s : State) (x : Item) : Bool := s.pipe.items.any (holdsBack x)

/-- A predecessor of item `x` has been released or dropped in this very slot; `jutex` asks for a drop by Jutex alone. -/
def leftNow (s : State) (x : Item) (jutex : Bool) : Bool :=
  s.pipe.leftAt == now s && s.pipe.left.any (fun y =>
    y.1 == x.pipe && x.domain == some y.2.1 && seqBefore y.2.2.1 x.seq && (!jutex || y.2.2.2))

/-- reorder_occupancy_p. -/
def reorderCount (s : State) (p : Nat) : Nat :=
  (s.pipe.items.filter (fun x => x.pipe == p && (match x.pos with | .reorder _ => true | _ => false))).length

/-- A released item goes to the cipher issue path or to Sheepdog (05 R124); a trapped one to the trap queue (04 R92). -/
def releaseItem (s : State) (x : Item) : State :=
  if busCipher x.bus ≠ 0 ∧ !x.trap then netIssue (noteLeft s x) x else admitItem (itemRemove s x.id) x

/-- REORDER_ARRIVAL: released at once, held, or released out of order from a full unit. An item whose last predecessor Jutex
drops in this slot is held until the next (05 R122). -/
def reorderArrive (s : State) (x : Item) : State :=
  let x := fixDomain x
  if !isHeld s x ∧ !leftNow s x true then releaseItem s x
  else if 8192 ≤ reorderCount s x.pipe then releaseItem (count s (0xC070 + x.pipe) 0x12) x
  else count (itemPut s { x with pos := .reorder (now s) }) (0xC070 + x.pipe) 0x11

/-- The held item of a pipeline of the lowest sequence among some. -/
def lowestSeq : List Item → Option Item
  | [] => none
  | x :: xs =>
    match lowestSeq xs with
    | some y => if seqBefore y.seq x.seq then some y else some x
    | none => some x

def heldItems (s : State) (p : Nat) : List Item :=
  s.pipe.items.filter (fun x => x.pipe == p && (match x.pos with | .reorder _ => true | _ => false))

/-- REORDER_RELEASE (05 R121): a held item whose last predecessor has been released or dropped in an earlier slot. -/
def execReorderRelease (slot : BitVec 12) (p : BitVec 2) (s : State) : Host.Outcome State Fault Refusal :=
  let s := atSlot s slot
  .next (match lowestSeq ((heldItems s p.toNat).filter (fun x => !isHeld s x && !leftNow s x false)) with
    | some x => releaseItem s x
    | none => s)

/-- Held longer than reorder_hold_max beats (05 R122). -/
def holdExpired (s : State) (x : Item) : Bool :=
  let most := objGet s 0x5300 0x02 0
  match x.pos with
  | .reorder since => most != 0 && decide (since + 4096 * most + 1 ≤ now s)
  | _ => false

/-- REORDER_TIMEOUT (05 R122). -/
def execReorderTimeout (slot : BitVec 12) (p : BitVec 2) (s : State) : Host.Outcome State Fault Refusal :=
  let s := atSlot s slot
  .next (match lowestSeq ((heldItems s p.toNat).filter (holdExpired s)) with
    | some x => releaseItem (count s (0xC070 + x.pipe) 0x13) x
    | none => s)

/-! ## The rewrite unit (05 R123, R124, 08 R185) -/

/-- The frame after its profile; a REWRITE above PROFILE_COUNT counts in rewrite_unknown. -/
def rewriteItem (s : State) (i : Image) (x : Item) : Item × State :=
  let n := busRewrite x.bus
  if n = 0 ∨ x.trap then (x, s)
  else if i.profiles.length < n then (x, count s (0xC070 + x.pipe) 0x16)
  else
    let d := runEdits x.bus x.walk x.bytes (profileEdits (i.profiles.getD (n - 1) 0))
    ({ x with bytes := d, len := d.length + 4 }, s)

/-- A passing or trapped item: metered over its length before any edit, rewritten, and on to the reorder unit. -/
def passItem (s : State) (i : Image) (x : Item) : State :=
  let m := meter s (busPolicer x.bus) (busColour x.bus) x.len
  if m.1.2 then itemRemove m.2 x.id
  else
    let r := rewriteItem m.2 i { x with bus := setFld x.bus 872 2 m.1.1 }
    reorderArrive r.2 r.1

/-- Fate of an item at the rewrite unit (05 R124). -/
def settleFate (s : State) (i : Image) (x : Item) : State :=
  if x.trap ∨ busFwd x.bus = 1 ∨ busFwd x.bus = 2 then passItem s i x
  else if busFwd x.bus = 0 then itemRemove (count s (0xC070 + x.pipe) 0x14) x.id
  else itemRemove (count s (0xC070 + x.pipe) 0x15) x.id

/-- REWRITE_UNIT (05 R104, R124): in slot s + base_latency. -/
def execRewriteUnit (slot : BitVec 12) (item : Nat) (s : State) : Host.Outcome State Fault Refusal :=
  let s := atSlot s slot
  .next (match itemGet s item with
    | none => s
    | some x =>
      match x.pos, imageOf s x.gen with
      | .stage 20, some i =>
        if slot.toNat = (x.row + baseLatency (imageOf s x.timGen)) % 4096 then settleFate s i x else s
      | _, _ => s)

end Sys2Proof.Machine
end

