-- ==== Sys2Proof/Machine/Heartbeats.lean ====
section
/-!
DEFINITION. Heartbeats (14 R324–R330): what a device does on hearing its partner, and how it gives way.
-/

namespace Sys2Proof.Machine

/-- The partner holds what was accepted in beat `b`: it has acknowledged that beat's delta and all before it. -/
def partnerHolds (s : State) (b : Nat) : Bool :=
  (match s.pair.heldTo with | some t => decide (b ≤ t) | none => false) && !(s.pair.spill.any (fun d => d.1 == b))

/-- The device gives way to a partner with a higher epoch: it discards what the partner does not hold (14 R330). -/
def discardUnheld (s : State) : State :=
  let gone := s.led.entries.filter (fun e => !partnerHolds s e.2.acceptBeat)
  gone.foldl (fun s e =>
    let s := match e.2.kind, e.2.queue with
      | .frame, .frame q =>
        let s := count s 0xC200 0x0C
        let fs := s.shp.fifos.map (fun f => (f.1, f.2.filter (fun x => x.entry != some e.1)))
        dropFrame { s with shp := { s.shp with fifos := fs.filter (fun f => !f.2.isEmpty) } } e.1 q
      | .host, _ => takeWork s e.1
      | .table, .window w => let s := forgetCommand s w; setTcWin s w { tcWin s w with cmd := none }
      | .kennel, _ => forgetRequest s e.1
      | .object, .session t _ => forgetReply (forgetWrite s e.1) t e.2
      | _, _ => s
    let s := ledMetaSet s e.1 emptyMeta
    { s with led := { s.led with entries := serase s.led.entries e.1 } }) s

/-- Entry to SYNCING. -/
def toSyncing (s : State) : State :=
  let s := setPairState s .syncing
  { s with pair := { s.pair with sync := 0, delta := [], sent := [], spill := [], heldTo := none, log := [], transfer := .none, takeover := none } }

/-- Two devices that differ in what R25 compares form no pair: this one runs single (01 R25). -/
def runSingle (s : State) : State :=
  let s := setPairState s .single
  { s with pair := { s.pair with lift := true, transfer := .none } }

/-- A heartbeat with a higher epoch (14 R326, R330): the device joins the pair of its new active, unless the two differ. -/
def giveWay (s : State) (e : Nat) (cfg : PartnerCfg) : State :=
  if mismatchWith s cfg ≠ 0 then runSingle s
  else
  let s := { s with pair := { s.pair with epoch := epochPair e } }
  match s.pair.state with
  | .standby => toSyncing s
  | .active => toSyncing (discardUnheld (fence s))
  | .fenced => toSyncing (discardUnheld (fence s))
  | _ => s

/-- Two SEEKING devices hear each other: the Leash goes to the higher persisted epoch, then to the preferred device, then to
the lower serial number (14 R327). -/
def winsSeeking (s : State) (theirs : Nat) (cfg : PartnerCfg) : Bool :=
  let mine := s.pair.persisted
  if mine ≠ theirs then decide (theirs < mine)
  else
    let pref := objOn s 0x9000 0x03 0
    if pref ≠ cfg.preferred then pref else decide (Config.serial.toNat < cfg.serial)

/-- What a heartbeat does to a SEEKING device (01 R25, 14 R326, R327). -/
def seekHeard (s : State) (hb : Heartbeat) (cfg : PartnerCfg) : State :=
  let e := (epochOf hb.epoch).getD 0
  if mismatchWith s cfg ≠ 0 then runSingle s
  else if hb.state = 4 then toSyncing { s with pair := { s.pair with epoch := epochPair e } }
  else if hb.state = 1 then
    if winsSeeking s e cfg then takeLeash s false else toSyncing { s with pair := { s.pair with epoch := epochPair e } }
  else s

/-- hold_down starts, goes on or breaks with each heartbeat of the standby (14 R340). -/
def trackHoldDown (s : State) (hb : Heartbeat) : State :=
  let pref := match s.pair.cfg with | some c => c.preferred | none => false
  let runs := s.pair.state == .active && objOn s 0x9000 0x05 0 && pref && hb.state == 3 && hb.health == 0
  { s with pair := { s.pair with holdDown := if runs then some (s.pair.holdDown.getD (now s)) else none } }

/-- An extraction whose power-down waits for the partner to be ACTIVE (18 R418). -/
def extractionHeard (s : State) (hb : Heartbeat) : State :=
  if s.isl.waitActive ∧ hb.state = 4 then
    let s := { s with isl := { s.isl with waitActive := false, holdReady := true } }
    match powerDownRequest s true with
    | some s => railsOff' s
    | none => setExtract s .refused
  else s
where
  /-- With the main domain already off the extraction is complete. -/
  railsOff' (s : State) : State := match s.pwr.phase with | .off => railsOff s | _ => s

/-- A heartbeat that has passed its pair check (14 R324). -/
def heard (s : State) (hb : Heartbeat) (cfg : PartnerCfg) (e : Nat) : State :=
  let held := (epochOf s.pair.epoch).getD 0
  let s := { s with pair := { s.pair with
    partner := some hb, lastHb := now s, maxSeen := max s.pair.maxSeen e, cfg := some cfg, silent := false,
    diffAt := if mismatchWith s cfg = 0 then none else some (s.pair.diffAt.getD (now s)),
    hfIn := s.pair.hfIn && hb.state == 6 } }
  let s := extractionHeard (trackHoldDown s hb) hb
  match s.pair.state with
  | .seeking => seekHeard s hb cfg
  | .standby => if held < e ∧ s.pair.takeover.isNone then giveWay s e cfg else s
  | .active => if held < e then giveWay s e cfg else s
  | .fenced => if held < e then giveWay s e cfg else s
  | _ => s

/-- HEARTBEAT_RECEIVED (14 R324). -/
def execHeartbeatReceived (hb : Heartbeat) (cfg : PartnerCfg) (s : State) : Host.Outcome State Fault Refusal :=
  .next (if (s.pair.state = .single ∧ !pairEnabled s) ∨ s.pair.link ≠ 2 then s
    else match epochOf hb.epoch with
      | none => count s 0xC200 0x0A
      | some e => heard s hb cfg e)

end Sys2Proof.Machine
end

