-- ==== Sys2Proof/Machine/Tables.lean ====
section
/-!
DEFINITION. Commands of the shared tables and of the table command interface (06).
-/

namespace Sys2Proof.Machine

/-- A leg of the row of a slot has this owner (03 Table 3-2). -/
def legIs (s : State) (slot : BitVec 12) (k owner : Nat) : Bool := rowLeg (schedRow s slot.toNat) k == owner

/-- The first leg of the row of a slot that belongs to pipeline `p` and has not acted: at a seam a row may give two, for an
old and a new item due in one slot (03 R53, R67). -/
def legOf (s : State) (slot : BitVec 12) (p : Nat) : Option Nat :=
  (List.range 8).find? (fun k => legIs s slot k p && legFree s k 1)

/-- Pipeline `p`'s leg of the row of a slot acts. -/
def onPipeLeg (s : State) (slot : BitVec 12) (p : Nat) (act : State → State) : State :=
  match legOf s slot p with
  | none => s
  | some k => onLeg s k 1 act

/-- The learn requests that a return-row leg carries enter their queues (05 R106, 06 R138). -/
def carryLearns (s : State) (x : Item) : State :=
  x.carried.foldl pushLearn (itemPut s { x with carried := [], back := none })

/-- The access of an item that has entered in a frame slot (06 R128). -/
def access (s : State) (x : Item) : State :=
  match imageOf s x.gen with
  | none => s
  | some i =>
    let r := sharedLookups s i.shared x
    let s := itemPut r.2.2 r.2.1
    if r.1 ∧ objGet s 0x5300 0x01 0 = 0 then itemRemove (count s (0xC070 + x.pipe) 0x0A) x.id else s

/-- SHARED_TABLE_ACCESS (06 R128, 03 R56, R79). A row that failed gives no leg: the fields read 0 and what the leg would
have carried is not made. -/
def execSharedTableAccess (slot : BitVec 12) (item : Nat) (rowOk : Bool) (s : State) : Host.Outcome State Fault Refusal :=
  let s := openSlot (atSlot s slot)
  .next (match itemGet s item with
    | none => s
    | some x =>
      match x.back with
      | some r =>
        if (r + sharedOffset (imageOf s x.timGen)) % 4096 ≠ slot.toNat then s
        else if rowBad s rowOk then rowFailed (itemPut s { x with carried := [], back := none })
        else onPipeLeg s slot x.pipe (fun s => carryLearns s x)
      | none =>
        if x.looked ∨ x.pos = .parser ∨ (x.row + sharedOffset (imageOf s x.timGen)) % 4096 ≠ slot.toNat then s
        else if rowBad s rowOk then rowFailed (itemPut s { x with looked := true })
        else onPipeLeg s slot x.pipe (fun s => access s x))

/-- LEARN_LEG (06 R138): even slots serve the L2 arbiter, odd slots the flow arbiter. -/
def execLearnLeg (slot : BitVec 12) (k : BitVec 3) (s : State) (rowOk : Bool := true) : Host.Outcome State Fault Refusal :=
  let s := openSlot (atSlot s slot)
  .next (if rowBad s rowOk then rowFailed s
    else if legIs s slot k.toNat 4 then
      onLeg s k.toNat 1 (fun s => if slot.toNat % 2 = 0 then learnL2 s else learnFlow s)
    else s)

/-- AGING_LEG (06 R142): even slots serve the L2 sweep, odd slots the flow sweep. -/
def execAgingLeg (slot : BitVec 12) (k : BitVec 3) (s : State) (rowOk : Bool := true) : Host.Outcome State Fault Refusal :=
  let s := openSlot (atSlot s slot)
  .next (if rowBad s rowOk then rowFailed s
    else if legIs s slot k.toNat 5 then sweepLeg s k.toNat (slot.toNat % 2 == 1) else s)

/-- COMMAND_LEG (06 R145, R148). -/
def execCommandLeg (slot : BitVec 12) (k : BitVec 3) (s : State) (rowOk : Bool := true) : Host.Outcome State Fault Refusal :=
  let s := openSlot (atSlot s slot)
  .next (if rowBad s rowOk then rowFailed s
    else if legIs s slot k.toNat 6 then onLeg s k.toNat 1 commandLeg else s)

/-- FLOW_FILL_LAND (06 R135): the oldest fill lands; evicted buckets are written back. -/
def execFlowFillLand (s : State) : Host.Outcome State Fault Refusal :=
  .next (match s.fwd.fills with
    | [] => s
    | (a, b) :: rest => cacheUse (cacheUse { s with fwd := { s.fwd with fills := rest } } b) a)

/-- AGING_PASS_START (06 R144). -/
def execAgingPassStart (flow : Bool) (s : State) : Host.Outcome State Fault Refusal := .next (startPass s flow)

/-- INSERT (06 R146). -/
def execTcInsert (w : BitVec 3) (target : BitVec 4) (genSel : BitVec 1) (tableId : BitVec 16) (s : State) :
    Host.Outcome State Fault Refusal := .next (tcCommand s w.toNat 1 target.toNat (genSel == 1) tableId.toNat)

/-- DELETE (06 R146). -/
def execTcDelete (w : BitVec 3) (target : BitVec 4) (genSel : BitVec 1) (tableId : BitVec 16) (s : State) :
    Host.Outcome State Fault Refusal := .next (tcCommand s w.toNat 2 target.toNat (genSel == 1) tableId.toNat)

/-- READ (06 R146). -/
def execTcRead (w : BitVec 3) (target : BitVec 4) (genSel : BitVec 1) (tableId : BitVec 16) (s : State) :
    Host.Outcome State Fault Refusal := .next (tcCommand s w.toNat 3 target.toNat (genSel == 1) tableId.toNat)

/-- REPLACE (06 R146). -/
def execTcReplace (w : BitVec 3) (target : BitVec 4) (genSel : BitVec 1) (tableId : BitVec 16) (s : State) :
    Host.Outcome State Fault Refusal := .next (tcCommand s w.toNat 4 target.toNat (genSel == 1) tableId.toNat)

/-- COMPARE_REPLACE (06 R146). -/
def execTcCompareReplace (w : BitVec 3) (target : BitVec 4) (genSel : BitVec 1) (tableId : BitVec 16) (s : State) :
    Host.Outcome State Fault Refusal := .next (tcCommand s w.toNat 5 target.toNat (genSel == 1) tableId.toNat)

/-- FLUSH_PORT (06 R146). -/
def execFlushPort (w : BitVec 3) (target : BitVec 4) (genSel : BitVec 1) (tableId : BitVec 16) (s : State) :
    Host.Outcome State Fault Refusal := .next (tcCommand s w.toNat 6 target.toNat (genSel == 1) tableId.toNat)

/-- TC_COMMAND_COMPLETE (06 R149). -/
def execTcCommandComplete (w : BitVec 3) (s : State) : Host.Outcome State Fault Refusal := .next (tcRelease s w.toNat)

end Sys2Proof.Machine
end

