-- ==== Sys2Proof/Machine/Dispatch.lean ====
section
/-!
DEFINITION. The meaning of each command: one arm per constructor, one direct call per arm.
-/

namespace Sys2Proof.Machine

def exec (i : Instr) (s : State) : Host.Outcome State Fault Refusal :=
  match i with
  | .beatBoundary readyIn upset news => Sys2Proof.Machine.execBeatBoundary readyIn upset s news
  | .ingressSlot slot p rowOk => Sys2Proof.Machine.execIngressSlot slot p rowOk s
  | .controlSlot slot p rowOk => Sys2Proof.Machine.execControlSlot slot p s rowOk
  | .returnSlot slot p rowOk => Sys2Proof.Machine.execReturnSlot slot p s rowOk
  | .stagePortSlot slot item => Sys2Proof.Machine.execStagePortSlot slot item s
  | .scrubSlot slot p stage rowOk => Sys2Proof.Machine.execScrubSlot slot p stage s rowOk
  | .sharedTableAccess slot item rowOk => Sys2Proof.Machine.execSharedTableAccess slot item rowOk s
  | .egressOpportunity slot j rowOk => Sys2Proof.Machine.execEgressOpportunity slot j rowOk s
  | .dmaGrant slot k rowOk => Sys2Proof.Machine.execDmaGrant slot k rowOk s
  | .cipherGrant slot k rowOk => Sys2Proof.Machine.execCipherGrant slot k rowOk s
  | .walkGrant slot p rowOk => Sys2Proof.Machine.execWalkGrant slot p rowOk s
  | .learnLeg slot k rowOk => Sys2Proof.Machine.execLearnLeg slot k s rowOk
  | .agingLeg slot k rowOk => Sys2Proof.Machine.execAgingLeg slot k s rowOk
  | .commandLeg slot k rowOk => Sys2Proof.Machine.execCommandLeg slot k s rowOk
  | .anResolution lane abilities rsReq brReq brAbil => Sys2Proof.Machine.execAnResolution lane abilities rsReq brReq brAbil s
  | .trainingDone lane => Sys2Proof.Machine.execTrainingDone lane s
  | .trainingFailure lane => Sys2Proof.Machine.execTrainingFailure lane s
  | .lockAcquired lane => Sys2Proof.Machine.execLockAcquired lane s
  | .lossOfLock lane midFrame => Sys2Proof.Machine.execLossOfLock lane midFrame s
  | .pllLossOfLock group => Sys2Proof.Machine.execPllLossOfLock group s
  | .serdesFault lane => Sys2Proof.Machine.execSerdesFault lane s
  | .frameReceived port bytes fcsOk cut slots => Sys2Proof.Machine.execFrameReceived port bytes fcsOk cut s slots
  | .rawHitListComplete port frame => Sys2Proof.Machine.execRawHitListComplete port frame s
  | .frameSent port => Sys2Proof.Machine.execFrameSent port s
  | .muzzle => Sys2Proof.Machine.execMuzzle s
  | .verify => Sys2Proof.Machine.execVerify s
  | .verifyDone => Sys2Proof.Machine.execVerifyDone s
  | .install => Sys2Proof.Machine.execInstall s
  | .installDone => Sys2Proof.Machine.execInstallDone s
  | .arm => Sys2Proof.Machine.execArm s
  | .discard => Sys2Proof.Machine.execDiscard s
  | .cancelArm => Sys2Proof.Machine.execCancelArm s
  | .parserNodeStep item => Sys2Proof.Machine.execParserNodeStep item s
  | .parserOutput item => Sys2Proof.Machine.execParserOutput item s
  | .matchSetFinal item => Sys2Proof.Machine.execMatchSetFinal item s
  | .detourLeave slot item rowOk => Sys2Proof.Machine.execDetourLeave slot item rowOk s
  | .walkReadData p w readOk => Sys2Proof.Machine.execWalkReadData p w readOk s
  | .rewriteUnit slot item => Sys2Proof.Machine.execRewriteUnit slot item s
  | .reorderRelease slot p => Sys2Proof.Machine.execReorderRelease slot p s
  | .reorderTimeout slot p => Sys2Proof.Machine.execReorderTimeout slot p s
  | .flowFillLand => Sys2Proof.Machine.execFlowFillLand s
  | .agingPassStart flow => Sys2Proof.Machine.execAgingPassStart flow s
  | .tcInsert w target genSel tableId => Sys2Proof.Machine.execTcInsert w target genSel tableId s
  | .tcDelete w target genSel tableId => Sys2Proof.Machine.execTcDelete w target genSel tableId s
  | .tcRead w target genSel tableId => Sys2Proof.Machine.execTcRead w target genSel tableId s
  | .tcReplace w target genSel tableId => Sys2Proof.Machine.execTcReplace w target genSel tableId s
  | .tcCompareReplace w target genSel tableId => Sys2Proof.Machine.execTcCompareReplace w target genSel tableId s
  | .flushPort w target genSel tableId => Sys2Proof.Machine.execFlushPort w target genSel tableId s
  | .tcCommandComplete w => Sys2Proof.Machine.execTcCommandComplete w s
  | .add th rd rs1 rs2 f => Sys2Proof.Machine.execAdd th rd rs1 rs2 f s
  | .sub th rd rs1 rs2 f => Sys2Proof.Machine.execSub th rd rs1 rs2 f s
  | .and th rd rs1 rs2 f => Sys2Proof.Machine.execAnd th rd rs1 rs2 f s
  | .or th rd rs1 rs2 f => Sys2Proof.Machine.execOr th rd rs1 rs2 f s
  | .xor th rd rs1 rs2 f => Sys2Proof.Machine.execXor th rd rs1 rs2 f s
  | .shl th rd rs1 rs2 f => Sys2Proof.Machine.execShl th rd rs1 rs2 f s
  | .shr th rd rs1 rs2 f => Sys2Proof.Machine.execShr th rd rs1 rs2 f s
  | .sar th rd rs1 rs2 f => Sys2Proof.Machine.execSar th rd rs1 rs2 f s
  | .mul th rd rs1 rs2 f => Sys2Proof.Machine.execMul th rd rs1 rs2 f s
  | .sltu th rd rs1 rs2 f => Sys2Proof.Machine.execSltu th rd rs1 rs2 f s
  | .slt th rd rs1 rs2 f => Sys2Proof.Machine.execSlt th rd rs1 rs2 f s
  | .addi th rd rs1 imm => Sys2Proof.Machine.execAddi th rd rs1 imm s
  | .andi th rd rs1 imm => Sys2Proof.Machine.execAndi th rd rs1 imm s
  | .shli th rd rs1 imm => Sys2Proof.Machine.execShli th rd rs1 imm s
  | .shri th rd rs1 imm => Sys2Proof.Machine.execShri th rd rs1 imm s
  | .lui th rd imm => Sys2Proof.Machine.execLui th rd imm s
  | .ld th rd rs1 imm => Sys2Proof.Machine.execLd th rd rs1 imm s
  | .lw th rd rs1 imm => Sys2Proof.Machine.execLw th rd rs1 imm s
  | .lh th rd rs1 imm => Sys2Proof.Machine.execLh th rd rs1 imm s
  | .lb th rd rs1 imm => Sys2Proof.Machine.execLb th rd rs1 imm s
  | .st th rd rs1 rs2 f => Sys2Proof.Machine.execSt th rd rs1 rs2 f s
  | .sw th rd rs1 rs2 f => Sys2Proof.Machine.execSw th rd rs1 rs2 f s
  | .sh th rd rs1 rs2 f => Sys2Proof.Machine.execSh th rd rs1 rs2 f s
  | .sb th rd rs1 rs2 f => Sys2Proof.Machine.execSb th rd rs1 rs2 f s
  | .aadd th rd rs1 rs2 f => Sys2Proof.Machine.execAadd th rd rs1 rs2 f s
  | .acas th rd rs1 rs2 f => Sys2Proof.Machine.execAcas th rd rs1 rs2 f s
  | .beq th rd rs1 rs2 f => Sys2Proof.Machine.execBeq th rd rs1 rs2 f s
  | .bne th rd rs1 rs2 f => Sys2Proof.Machine.execBne th rd rs1 rs2 f s
  | .blt th rd rs1 rs2 f => Sys2Proof.Machine.execBlt th rd rs1 rs2 f s
  | .bltu th rd rs1 rs2 f => Sys2Proof.Machine.execBltu th rd rs1 rs2 f s
  | .jal th rd imm => Sys2Proof.Machine.execJal th rd imm s
  | .jr th rd rs1 rs2 f => Sys2Proof.Machine.execJr th rd rs1 rs2 f s
  | .mfs th rd rs1 rs2 f => Sys2Proof.Machine.execMfs th rd rs1 rs2 f s
  | .mts th rd rs1 rs2 f => Sys2Proof.Machine.execMts th rd rs1 rs2 f s
  | .aadds th rd rs1 rs2 f => Sys2Proof.Machine.execAadds th rd rs1 rs2 f s
  | .fence th rd rs1 rs2 f => Sys2Proof.Machine.execFence th rd rs1 rs2 f s
  | .time th rd rs1 rs2 f => Sys2Proof.Machine.execTime th rd rs1 rs2 f s
  | .tcmp th rd rs1 rs2 f => Sys2Proof.Machine.execTcmp th rd rs1 rs2 f s
  | .wait th rd rs1 rs2 f => Sys2Proof.Machine.execWait th rd rs1 rs2 f s
  | .chopen th rd rs1 rs2 f => Sys2Proof.Machine.execChopen th rd rs1 rs2 f s
  | .chput th rd rs1 rs2 f => Sys2Proof.Machine.execChput th rd rs1 rs2 f s
  | .chcommit core th rd rs1 rs2 f => Sys2Proof.Machine.execChcommit core th rd rs1 rs2 f s
  | .chget th rd rs1 rs2 f => Sys2Proof.Machine.execChget th rd rs1 rs2 f s
  | .chcfg th rd rs1 rs2 f => Sys2Proof.Machine.execChcfg th rd rs1 rs2 f s
  | .setreg th rd rs1 rs2 f => Sys2Proof.Machine.execSetreg th rd rs1 rs2 f s
  | .start th rd rs1 rs2 f => Sys2Proof.Machine.execStart th rd rs1 rs2 f s
  | .halt th rd rs1 rs2 f => Sys2Proof.Machine.execHalt th rd rs1 rs2 f s
  | .ret th rd rs1 rs2 f => Sys2Proof.Machine.execRet th rd rs1 rs2 f s
  | .dropItem th rd rs1 rs2 f => Sys2Proof.Machine.execDropItem th rd rs1 rs2 f s
  | .complete core th rd rs1 rs2 f => Sys2Proof.Machine.execComplete core th rd rs1 rs2 f s
  | .issue th rd rs1 rs2 f core => Sys2Proof.Machine.execIssue th rd rs1 rs2 f s core
  | .timerReached th => Sys2Proof.Machine.execTimerReached th s
  | .waitMaxExpiry th => Sys2Proof.Machine.execWaitMaxExpiry th s
  | .chopenGrant th => Sys2Proof.Machine.execChopenGrant th s
  | .allAsleepFreeze engine => Sys2Proof.Machine.execAllAsleepFreeze engine s
  | .detourArrival item => Sys2Proof.Machine.execDetourArrival item s
  | .itemOffer engine => Sys2Proof.Machine.execItemOffer engine s
  | .clusterFault cluster => Sys2Proof.Machine.execClusterFault cluster s
  | .coreOffline core => Sys2Proof.Machine.execCoreOffline core s
  | .resultDelivery cluster channel => Sys2Proof.Machine.execResultDelivery cluster channel s
  | .cipherRequestStart e => Sys2Proof.Machine.execCipherRequestStart e s
  | .kennelCacheFill slot ok => Sys2Proof.Machine.execKennelCacheFill slot ok s
  | .suspend e => Sys2Proof.Machine.execSuspend e s
  | .cipherRequestComplete e => Sys2Proof.Machine.execCipherRequestComplete e s
  | .kat e pass => Sys2Proof.Machine.execKat e pass s
  | .engineOutOfUse e => Sys2Proof.Machine.execEngineOutOfUse e s
  | .kennelWrite req => Sys2Proof.Machine.execKennelWrite req s
  | .generate req => Sys2Proof.Machine.execGenerate req s
  | .erase req => Sys2Proof.Machine.execErase req s
  | .forceErase req => Sys2Proof.Machine.execForceErase req s
  | .readMeta req => Sys2Proof.Machine.execReadMeta req s
  | .wrapExport req => Sys2Proof.Machine.execWrapExport req s
  | .wrapImport req => Sys2Proof.Machine.execWrapImport req s
  | .revokedUserStop e => Sys2Proof.Machine.execRevokedUserStop e s
  | .channelStart ch ctrl => Sys2Proof.Machine.execChannelStart ch ctrl s
  | .precheckDone ch => Sys2Proof.Machine.execPrecheckDone ch s
  | .chunkDone ch unit memOk => Sys2Proof.Machine.execChunkDone ch unit memOk s
  | .dmaAbort ch => Sys2Proof.Machine.execDmaAbort ch s
  | .dmaRetry ch => Sys2Proof.Machine.execDmaRetry ch s
  | .dmaClear ch => Sys2Proof.Machine.execDmaClear ch s
  | .linkTrained link rate width flit => Sys2Proof.Machine.execLinkTrained link rate width flit s
  | .busMasterEnableClear link fn => Sys2Proof.Machine.execBusMasterEnableClear link fn s
  | .busMasterEnableSet link fn => Sys2Proof.Machine.execBusMasterEnableSet link fn s
  | .functionDrainEnd link fn => Sys2Proof.Machine.execFunctionDrainEnd link fn s
  | .initiateFlr link fn => Sys2Proof.Machine.execInitiateFlr link fn s
  | .flrEnd link fn => Sys2Proof.Machine.execFlrEnd link fn s
  | .dStateChange link fn d3 => Sys2Proof.Machine.execDStateChange link fn d3 s
  | .unsupportedBarAccess link fn offset size write poisoned => Sys2Proof.Machine.execUnsupportedBarAccess link fn offset size write s poisoned
  | .sqTail link page q v => Sys2Proof.Machine.execSqTail link page q v s
  | .cqHead link page q v => Sys2Proof.Machine.execCqHead link page q v s
  | .fetchStart qp => Sys2Proof.Machine.execFetchStart qp s
  | .headPointerWriteBack qp => Sys2Proof.Machine.execHeadPointerWriteBack qp s
  | .dispatch entry => Sys2Proof.Machine.execDispatch entry s
  | .msixSend link fn vector => Sys2Proof.Machine.execMsixSend link fn vector s
  | .translationCompletion tag ok addr => Sys2Proof.Machine.execTranslationCompletion tag ok addr s
  | .invalidationRequest link fn pasid addr pages => Sys2Proof.Machine.execInvalidationRequest link fn pasid addr pages s
  | .pageRequestResponse tag ok => Sys2Proof.Machine.execPageRequestResponse tag ok s
  | .completionReceived tag link poisoned status data => Sys2Proof.Machine.execCompletionReceived tag link poisoned status data s
  | .completionTimeout link tag => Sys2Proof.Machine.execCompletionTimeout link tag s
  | .tagQuarantineEnd link tag => Sys2Proof.Machine.execTagQuarantineEnd link tag s
  | .dlDown link => Sys2Proof.Machine.execDlDown link s
  | .l0sEntry link => Sys2Proof.Machine.execL0sEntry link s
  | .l1Entry link => Sys2Proof.Machine.execL1Entry link s
  | .l1Exit link => Sys2Proof.Machine.execL1Exit link s
  | .l12Entry link clkreq => Sys2Proof.Machine.execL12Entry link s clkreq
  | .doeDiscovery link object => Sys2Proof.Machine.execDoeDiscovery link object s
  | .getDigests link object => Sys2Proof.Machine.execGetDigests link object s
  | .challenge link object => Sys2Proof.Machine.execChallenge link object s
  | .getMeasurements link object => Sys2Proof.Machine.execGetMeasurements link object s
  | .keyExchange link object => Sys2Proof.Machine.execKeyExchange link object s
  | .ideKm link session object => Sys2Proof.Machine.execIdeKm link session object s
  | .sliceEnable slice => Sys2Proof.Machine.execSliceEnable slice s
  | .sliceReset slice => Sys2Proof.Machine.execSliceReset slice s
  | .sliceItemRetire entry => Sys2Proof.Machine.execSliceItemRetire entry s
  | .sliceZero slice => Sys2Proof.Machine.execSliceZero slice s
  | .resetSequenceEnd slice => Sys2Proof.Machine.execResetSequenceEnd slice s
  | .sliceFreeze slice => Sys2Proof.Machine.execSliceFreeze slice s
  | .freezeComplete slice => Sys2Proof.Machine.execFreezeComplete slice s
  | .freezeTimeout slice => Sys2Proof.Machine.execFreezeTimeout slice s
  | .sliceResume slice => Sys2Proof.Machine.execSliceResume slice s
  | .sliceSave slice => Sys2Proof.Machine.execSliceSave slice s
  | .sliceRestore slice => Sys2Proof.Machine.execSliceRestore slice s
  | .restoreDone slice => Sys2Proof.Machine.execRestoreDone slice s
  | .sliceDisable slice => Sys2Proof.Machine.execSliceDisable slice s
  | .ledgerRelease queue halves => Sys2Proof.Machine.execLedgerRelease queue halves s
  | .reDispatch entry => Sys2Proof.Machine.execReDispatch entry s
  | .memoryUncorrectable entry => Sys2Proof.Machine.execMemoryUncorrectable entry s
  | .heartbeatReceived hb cfg => Sys2Proof.Machine.execHeartbeatReceived hb cfg s
  | .deltaReceived whole beat records final => Sys2Proof.Machine.execDeltaReceived whole beat records final s
  | .deltaAckReceived beat => Sys2Proof.Machine.execDeltaAckReceived beat s
  | .deltaApply => Sys2Proof.Machine.execDeltaApply s
  | .takeover => Sys2Proof.Machine.execTakeover s
  | .hardFault cause detail => Sys2Proof.Machine.execHardFault cause detail s
  | .pairHfInTakeover => Sys2Proof.Machine.execPairHfInTakeover s
  | .startWaitExpiry => Sys2Proof.Machine.execStartWaitExpiry s
  | .syncComplete records => Sys2Proof.Machine.execSyncComplete records s
  | .pairLinkDown => Sys2Proof.Machine.execPairLinkDown s
  | .pairLinkUp cfg hello => Sys2Proof.Machine.execPairLinkUp cfg s hello
  | .grant epoch => Sys2Proof.Machine.execGrant epoch s
  | .holdDownExpiry => Sys2Proof.Machine.execHoldDownExpiry s
  | .islandPowerOnReset => Sys2Proof.Machine.execIslandPowerOnReset s
  | .islandReset => Sys2Proof.Machine.execIslandReset s
  | .mainDomainReset => Sys2Proof.Machine.execMainDomainReset s
  | .stage1Pass => Sys2Proof.Machine.execStage1Pass s
  | .backoffExpiry => Sys2Proof.Machine.execBackoffExpiry s
  | .trialTimerExpiry => Sys2Proof.Machine.execTrialTimerExpiry s
  | .challengeSignatureReady => Sys2Proof.Machine.execChallengeSignatureReady s
  | .uhOpen pdu => Sys2Proof.Machine.execUhOpen pdu s
  | .uhProve pdu => Sys2Proof.Machine.execUhProve pdu s
  | .proveTimeout transport session => Sys2Proof.Machine.execProveTimeout transport session s
  | .uhClose pdu => Sys2Proof.Machine.execUhClose pdu s
  | .keepalive pdu => Sys2Proof.Machine.execKeepalive pdu s
  | .sessionIdleExpiry transport session => Sys2Proof.Machine.execSessionIdleExpiry transport session s
  | .uhDescribe pdu => Sys2Proof.Machine.execUhDescribe pdu s
  | .uhRead pdu => Sys2Proof.Machine.execUhRead pdu s
  | .uhWrite pdu => Sys2Proof.Machine.execUhWrite pdu s
  | .blockRead pdu => Sys2Proof.Machine.execBlockRead pdu s
  | .blockWrite pdu => Sys2Proof.Machine.execBlockWrite pdu s
  | .subscribe pdu => Sys2Proof.Machine.execSubscribe pdu s
  | .uhEvent transport session => Sys2Proof.Machine.execUhEvent transport session s
  | .eventAck pdu => Sys2Proof.Machine.execEventAck pdu s
  | .eventRetryExpiry transport session => Sys2Proof.Machine.execEventRetryExpiry transport session s
  | .reservedOp op pdu => Sys2Proof.Machine.execReservedOp op pdu s
  | .malformedPdu transport link => Sys2Proof.Machine.execMalformedPdu transport link s
  | .mbGo link => Sys2Proof.Machine.execMbGo link s
  | .eventReadyClear link => Sys2Proof.Machine.execEventReadyClear link s
  | .shortPress => Sys2Proof.Machine.execShortPress s
  | .longPress => Sys2Proof.Machine.execLongPress s
  | .latchOpen => Sys2Proof.Machine.execLatchOpen s
  | .latchClose => Sys2Proof.Machine.execLatchClose s
  | .latchFault => Sys2Proof.Machine.execLatchFault s
  | .cageInserted cage advertisedMw => Sys2Proof.Machine.execCageInserted cage advertisedMw s
  | .moduleReady cage => Sys2Proof.Machine.execModuleReady cage s
  | .moduleFault cage => Sys2Proof.Machine.execModuleFault cage s
  | .cageInitTimeout cage => Sys2Proof.Machine.execCageInitTimeout cage s
  | .moduleRemoval cage => Sys2Proof.Machine.execModuleRemoval cage s
  | .t1lLinkUp amplitude => Sys2Proof.Machine.execT1lLinkUp amplitude s
  | .t1lLinkDown => Sys2Proof.Machine.execT1lLinkDown s
  | .islandPowerEffect island => Sys2Proof.Machine.execIslandPowerEffect island s
  | .islandHoldOffExpiry island => Sys2Proof.Machine.execIslandHoldOffExpiry island s
  | .pwrGoodRise rail => Sys2Proof.Machine.execPwrGoodRise rail s
  | .railGoodTimeout rail => Sys2Proof.Machine.execRailGoodTimeout rail s
  | .mainResetRelease => Sys2Proof.Machine.execMainResetRelease s
  | .mainHoldOffExpiry => Sys2Proof.Machine.execMainHoldOffExpiry s
  | .mainPowerDown => Sys2Proof.Machine.execMainPowerDown s
  | .railFault rail => Sys2Proof.Machine.execRailFault rail s
  | .refclkLoss => Sys2Proof.Machine.execRefclkLoss s
  | .refclkRelock => Sys2Proof.Machine.execRefclkRelock s
  | .junctionOver105 readings => Sys2Proof.Machine.execJunctionOver105 readings s
  | .thermalTrip readings => Sys2Proof.Machine.execThermalTrip readings s
  | .tjHour mean => Sys2Proof.Machine.execTjHour mean s
  | .tapReset => Sys2Proof.Machine.execTapReset s
  | .idcode => Sys2Proof.Machine.execIdcode s
  | .samplePreload sampled preload => Sys2Proof.Machine.execSamplePreload sampled preload s
  | .extest => Sys2Proof.Machine.execExtest s
  | .clamp => Sys2Proof.Machine.execClamp s
  | .highz => Sys2Proof.Machine.execHighz s
  | .debug => Sys2Proof.Machine.execDebug s
  | .bypass => Sys2Proof.Machine.execBypass s
  | .debugHalt => Sys2Proof.Machine.execDebugHalt s
  | .debugResume => Sys2Proof.Machine.execDebugResume s
  | .debugStep => Sys2Proof.Machine.execDebugStep s
  | .abortStaged => Sys2Proof.Machine.execAbortStaged s
  | .abortWait => Sys2Proof.Machine.execAbortWait s
  | .regRead => Sys2Proof.Machine.execRegRead s
  | .regWrite => Sys2Proof.Machine.execRegWrite s
  | .memRead => Sys2Proof.Machine.execMemRead s
  | .memWrite => Sys2Proof.Machine.execMemWrite s
  | .norErase => Sys2Proof.Machine.execNorErase s
  | .unlock => Sys2Proof.Machine.execUnlock s
  | .relock => Sys2Proof.Machine.execRelock s
  | .newChallenge => Sys2Proof.Machine.execNewChallenge s
  | .breakpoint th => Sys2Proof.Machine.execBreakpoint th s
  | .freezeMaxExpiry => Sys2Proof.Machine.execFreezeMaxExpiry s
  | .faultLogBlockWrite => Sys2Proof.Machine.execFaultLogBlockWrite s
  | .registerWrite reg wide v => Sys2Proof.Machine.execRegisterWrite reg wide v s
  | .islandSupplyLoss => Sys2Proof.Machine.execIslandSupplyLoss s
  | .perstAssert link level => Sys2Proof.Machine.execPerstAssert link level s
  | .vfEnable link set numVfs => Sys2Proof.Machine.execVfEnable link set numVfs s
  | .getCertificate link object => Sys2Proof.Machine.execGetCertificate link object s
  | .junctionAbove100 readings => Sys2Proof.Machine.execJunctionAbove100 readings s
  | .eyeMarginLow bit => Sys2Proof.Machine.execEyeMarginLow bit s

end Sys2Proof.Machine
end

