-- ==== Sys2Proof/Safety.lean ====
section
/-!
DEFINITION. What counts as a safe step, and the terms the statements use.
-/

namespace Sys2Proof

/-- A step from `s` completes: neither a fault nor a refusal. -/
def Safe (s : Machine.State) : Prop := ∃ t, Machine.step s = .next t

/-- A thread issues its next instruction: it is RUNNABLE, its cluster is not FAULTED, its island runs and its PC is legal
(07 R152, R154, R172). -/
def CanIssue (s : Machine.State) (th : BitVec 10) : Prop :=
  Machine.mayIssue s th.toNat = true ∧ Machine.pcLegal (Machine.thread s th.toNat).pc = true

/-- The PC of a thread has moved to the next word. -/
def PcNext (s t : Machine.State) (th : BitVec 10) : Prop :=
  (Machine.thread t th.toNat).pc = (Machine.thread s th.toNat).pc + 4

/-- Register `rd` of a thread has taken the value `v`, x0 none; its other registers are as before (07 R153). -/
def WroteReg (s t : Machine.State) (th : BitVec 10) (rd : BitVec 5) (v : BitVec 64) : Prop :=
  ∀ r, Machine.getReg t th.toNat r = if r = rd ∧ r ≠ 0 then v else Machine.getReg s th.toNat r

/-- Every thread but `th` is as before. -/
def OtherThreads (s t : Machine.State) (th : BitVec 10) : Prop :=
  ∀ n, n ≠ th.toNat → Machine.thread t n = Machine.thread s n

/-- Nothing but Jutex threads, engines and clusters differs. -/
def OutsideJutex (s t : Machine.State) : Prop :=
  { t with jx := { t.jx with threads := s.jx.threads, engines := s.jx.engines, clusters := s.jx.clusters } } = s

/-- No engine differs but in its note of the instruction that `th` has issued (07 R152). -/
def OnlyIssued (s t : Machine.State) (th : BitVec 10) : Prop :=
  (∀ e, e ≠ Machine.thEngine th.toNat → Machine.engine t e = Machine.engine s e) ∧
    { Machine.engine t (Machine.thEngine th.toNat) with
      last := (Machine.engine s (Machine.thEngine th.toNat)).last
      loads := (Machine.engine s (Machine.thEngine th.toNat)).loads } = Machine.engine s (Machine.thEngine th.toNat)

/-- A thread may issue an ISSUE of `raw` at scratch address rs1, and the message is to be taken: its result channel is an EXT
channel, the cluster's issue queue has room and the item it holds has not been taken by a reset (07 R154, R171). -/
def IssueTaken (s : Machine.State) (th : BitVec 10) (rs1 : BitVec 5) (raw : BitVec 512) (ch : Nat) : Prop :=
  CanIssue s th ∧ (Machine.getReg s th.toNat rs1).toNat % 64 = 0 ∧ (Machine.getReg s th.toNat rs1).toNat + 64 ≤ 2097152 ∧
    raw = BitVec.ofNat 512 (Machine.leNat
      (Machine.scratchRead s (Machine.thCluster th.toNat) (Machine.getReg s th.toNat rs1).toNat 64)) ∧
    (Machine.channel s (Machine.thCluster th.toNat) ch).ext = true ∧
    Machine.issuesWaiting s (Machine.thCluster th.toNat) < 64 ∧ (Machine.thread s th.toNat).gone = false

/-- Every byte of device memory is as before. -/
def SameMemory (s t : Machine.State) : Prop := ∀ a, Machine.hbmByte t a = Machine.hbmByte s a

/-- Every object value is as before. -/
def SameObjects (s t : Machine.State) : Prop := ∀ idx sub el, Machine.objGet t idx sub el = Machine.objGet s idx sub el

/-- The checks of a request before its first block pass: it is not stopped, and it is bound already or its form, lengths and
addresses are good and a slot that it uses is cached and may be bound (09 R202, R216). -/
def RequestRuns (s : Machine.State) (r : Machine.CReq) : Prop :=
  Machine.stoppedEarly s r = none ∧ (r.gen.isSome = true ∨
    (Machine.formBad r = false ∧ Machine.lengthOk r = true ∧
      (Machine.tagBytes (Machine.rAlg r) (Machine.rTagLen r)).isSome = true ∧ Machine.addressOk s r = true ∧
      (Machine.rKeyed r = false ∨ (Machine.islandTakes s 26 = true ∧ Machine.cached s (Machine.rSlot r) = true ∧
        Machine.bindFault s r = none))))

/-- Kennel can serve the head `r` of its queue with operation `op`: island 26 runs, the request was not taken by a reset
and its owner does not drain, its reserved bits are 0, its slots are cached, and no ISSUE waits for room in the queue
(09 R213, R219, Table 9-11). -/
def KennelServes (s : Machine.State) (r : Machine.KReq) (rest : List Machine.KReq) (op : Nat) : Prop :=
  s.ken.queue = r :: rest ∧ r.reset = false ∧ Machine.islandOn s 26 = true ∧ Machine.kenReserved r = false ∧
    Machine.fld r.raw 0 4 = op ∧ s.ken.issues = [] ∧ (∀ n ∈ Machine.kenSlots s r, Machine.cached s n = true) ∧ ∀ sl, Machine.kenOwner r = some sl → (Machine.slice s sl).state ≠ .draining

/-- Ledger entry `i` holds work, and no failed pair quarantines it (13 R304, R311). -/
def EntryOpen (s : Machine.State) (i : Nat) : Prop :=
  ∃ e, Machine.ledGet s i = some e ∧ e.state ≠ .quarantined

/-- Ledger entry `i` is DONE with a status (13 R304, R306). -/
def EntryDone (t : Machine.State) (i : Nat) (status : BitVec 8) : Prop :=
  ∃ e, Machine.ledGet t i = some e ∧ e.state = .done ∧ e.status = status

/-- A request PDU of the management transport that its session takes at its turn: the loader serves, the session is
proved, open, with nothing held and no write under way, the tag is right and SEQ is the one expected (16 R380, R381). -/
def Served (s : Machine.State) (p : Pdu) (x : Machine.Session) : Prop :=
  p.transport = 0 ∧ p.session ≠ 0 ∧ p.body.length ≤ 1468 ∧ Machine.islandServes s = true ∧
    Machine.sessionFind s 0 p.session = some x ∧ x.proved = true ∧ x.closing = false ∧ x.held = [] ∧ p.seq = x.expect ∧
    Machine.sessionWaits s 0 p.session = false

/-- The answer of the management transport to a request. -/
def Replied (t : Machine.State) (op : Nat) (p : Pdu) (err : Nat) (body : List Byte) : Prop :=
  .pdu 0 p.session op p.seq err body ∈ t.out

/-- The registers of a link's mailbox take a write: the main domain is on, its PF0 is there with Memory Space Enable 1 (11
R256, 16 R389). -/
def BoxOpen (s : Machine.State) (k : Nat) : Prop :=
  Machine.mainOn s = true ∧ Machine.fnPresent s k 0 = true ∧ Machine.memSpaceOn s k 0 = true ∧ s.uhl.boxes.length = 4

/-- An SPDM 1.2 request of one code in a DOE mailbox that answers, with the algorithms negotiated (15 R366). -/
def SpdmReady (s : Machine.State) (k code : Nat) (req : List Byte) : Prop :=
  Machine.doeUp s k = true ∧ (Machine.spdmConn s k).stage = 3 ∧ 4 ≤ req.length ∧ req.length ≤ 65528 ∧
    Machine.byteAt req 0 = 0x12 ∧ (Machine.byteAt req 1).toNat = code

/-- The debug port is unlocked and names thread `th`, whose cluster island is powered (20 R452, R453). -/
def DapAtThread (s : Machine.State) (th : BitVec 10) : Prop :=
  s.dbg.unlocked = true ∧ Machine.selKind s = 0 ∧ Machine.selThread s = th.toNat ∧
    Machine.islandUp s (Machine.selIsland s) = true

/-- A command of the debug port that acts on the target that SEL names (20 Table 20-2). -/
def DapCommand (c : Instr) : Prop :=
  c = .debugHalt ∨ c = .debugResume ∨ c = .debugStep ∨ c = .abortStaged ∨ c = .abortWait ∨ c = .regRead ∨ c = .regWrite ∨
    c = .memRead ∨ c = .memWrite ∨ c = .norErase

/-- Only the Uhlist server's own state, objects, counters, logs, free-value counter and outputs differ. -/
def OnlyUhlist (s t : Machine.State) : Prop :=
  { t with uhl := s.uhl, objs := s.objs, logs := s.logs, out := s.out, fresh := s.fresh } = s

/-- What every step keeps: both memories in canonical form, each fixed bank of registers with its number of members, and
the slot within its beat. -/
def Inv (s : Machine.State) : Prop :=
  Machine.Memory.wf s.hbm.mem = true ∧ Machine.swf 0xFF s.boot.nor = true ∧ s.clk.slot < 4096 ∧
    s.net.lanes.length = 32 ∧ s.pipe.ctl.length = 4 ∧ s.hst.links.length = 4 ∧ s.uhl.boxes.length = 4 ∧
    s.isl.cages.length = 16 ∧ s.tc.wins.length = 8

end Sys2Proof
end

