-- ==== Sys2Proof/WellFormed.lean ====
section
/-!
DEFINITION. Which commands are well formed: operands within the ranges that their rules give, where the operand's type
alone does not say so.
-/

namespace Sys2Proof

/-- A Uhlist transport: 0 the management link, 1 to 4 the mailboxes, 5 in-band (16 Table 16-1). -/
def transportOk (t : Nat) : Bool := decide (t ≤ 5)

/-- A queue pair of a slice, or of the infrastructure page of one of four links (12 Table 12-6). -/
def qpOk (qp : Nat) : Bool := decide (qp < (16384 + 4) * 64)

/-- A command is well formed. -/
def wellFormed : Instr → Bool
  | .scrubSlot _ _ stage _ => decide (stage < 20)
  | .linkTrained _ _ width _ => [1, 2, 4, 8, 16].contains width
  | .fetchStart qp => qpOk qp
  | .headPointerWriteBack qp => qpOk qp
  | .hardFault cause _ => decide (1 ≤ cause.toNat) && decide (cause.toNat ≤ 10)
  | .eyeMarginLow bit => decide (bit.toNat ≤ 4)
  | .proveTimeout t _ => transportOk t
  | .sessionIdleExpiry t _ => transportOk t
  | .uhEvent t _ => transportOk t
  | .eventRetryExpiry t _ => transportOk t
  | .malformedPdu t _ => transportOk t
  | .frameReceived _ bytes _ _ _ => !bytes.isEmpty
  | _ => true

end Sys2Proof
end

