-- ==== Sys2Proof/Certificates/Slice0/Obligations.lean ====
section
/-!
DEFINITION. The statements about the model.
-/

section
open Sys2Proof Sys2Proof.Machine

/-- For a lane in the state its event leaves: AN_RESOLUTION takes the lane from AN to the highest common ability (the
native PMD, else the fastest advertised mode both sides have) and to TRAINING, or to LOCKING for 1000BASE-KX;
TRAINING_DONE takes TRAINING to LOCKING; TRAINING_FAILURE takes it back to AN; LOCK_ACQUIRED takes LOCKING to UP;
LOSS_OF_LOCK takes UP to AN, or to LOCKING for a C2M lane; SERDES_FAULT, and PLL_LOSS_OF_LOCK with the reference
present for all eight lanes of the group, take a lane that is not DISABLED to FAULT, and the group's PLL reads
unlocked. Each command answers a next state. Formalises 02 Table 2-4 (R38); 02 R35; 02 R36. -/
def Obligations.LaneCommandsTakeEffect : Prop :=
  (∀ (s : State) (n : BitVec 5) (ab : BitVec 6) (rs br ba : Bool) (m : Nat),
    s.net.lanes.length = 32 → (lane s n.toNat).state = .an →
    ((m = 0 ∧ (advertised s n.toNat &&& ab.toNat).testBit 5 = true) ∨
      (2 ≤ m ∧ m ≤ 6 ∧ (advertised s n.toNat &&& ab.toNat).testBit 5 = false ∧
        (advertised s n.toNat &&& ab.toNat).testBit (m - 2) = true ∧
        ∀ i, i < m - 2 → (advertised s n.toNat &&& ab.toNat).testBit i = false)) →
    ∃ t, exec (.anResolution n ab rs br ba) s = .next t ∧
      (lane t n.toNat).state = (if m = 6 then .locking else .training) ∧ (lane t n.toNat).mode = m) ∧
  (∀ (s : State) (n : BitVec 5), s.net.lanes.length = 32 → (lane s n.toNat).state = .training →
    ∃ t, exec (.trainingDone n) s = .next t ∧ (lane t n.toNat).state = .locking ∧
      (lane t n.toNat).mode = (lane s n.toNat).mode) ∧
  (∀ (s : State) (n : BitVec 5), s.net.lanes.length = 32 → (lane s n.toNat).state = .training →
    ∃ t, exec (.trainingFailure n) s = .next t ∧ (lane t n.toNat).state = .an) ∧
  (∀ (s : State) (n : BitVec 5), s.net.lanes.length = 32 → (lane s n.toNat).state = .locking →
    ∃ t, exec (.lockAcquired n) s = .next t ∧ (lane t n.toNat).state = .up) ∧
  (∀ (s : State) (n : BitVec 5) (mid : Bool), s.net.lanes.length = 32 → (lane s n.toNat).state = .up →
    ∃ t, exec (.lossOfLock n mid) s = .next t ∧
      (lane t n.toNat).state = (if laneKind s n.toNat = 2 then .locking else .an)) ∧
  (∀ (s : State) (n : BitVec 5), s.net.lanes.length = 32 → (lane s n.toNat).state ≠ .disabled →
    ∃ t, exec (.serdesFault n) s = .next t ∧ (lane t n.toNat).state = .fault) ∧
  (∀ (s : State) (g : BitVec 2), s.net.lanes.length = 32 → s.clk.holdover = false →
    ∃ t, exec (.pllLossOfLock g) s = .next t ∧ t.net.pllLocked.getLsbD g.toNat = false ∧
      ∀ i, i < 8 → (lane s (8 * g.toNat + i)).state ≠ .disabled → (lane t (8 * g.toNat + i)).state = .fault)

/-- TRAINING_DONE, LOCK_ACQUIRED, TRAINING_FAILURE, LOSS_OF_LOCK, AN_RESOLUTION and SERDES_FAULT change no other lane,
no receive buffer, no byte of device memory, no ledger entry, no Kennel slot, no DMA channel, no timetable register
and no object value; only lane, port counters, the link-down note and the event log may change. Formalises 02 Lane
states; 02 Table 2-4. -/
def Obligations.LaneCommandsKeepOtherState : Prop :=
  ∀ (s t : State) (n : BitVec 5) (c : Instr),
    (c = .trainingDone n ∨ c = .lockAcquired n ∨ c = .trainingFailure n ∨ c = .serdesFault n ∨
      (∃ mid, c = .lossOfLock n mid) ∨ (∃ ab rs br ba, c = .anResolution n ab rs br ba)) →
    exec c s = .next t →
    (∀ m, m ≠ n.toNat → lane t m = lane s m) ∧ t.net.rx = s.net.rx ∧ t.net.pllLocked = s.net.pllLocked ∧
      (∀ a, hbmByte t a = hbmByte s a) ∧ t.led = s.led ∧ t.ken = s.ken ∧ t.dma = s.dma ∧ t.tt = s.tt ∧
      (∀ idx sub el, objGet t idx sub el = objGet s idx sub el)

/-- In a device that is SINGLE, in service, with its main domain on, no Uhlist session, no accepted parameter write
waiting and no DMA channel that a thread's ISSUE has started, BEAT_BOUNDARY answers a next state whose beat is one
more, whose slot is 0 and whose TT_BEAT is one more where no image is ARMED; it leaves the queue of waiting commands
and every byte of device memory as they were. Formalises 03 R53; 03 R70. -/
def Obligations.BeatBoundaryStartsNextBeat : Prop :=
  ∀ (s : State) (readyIn : Bool) (upset : Option (Bool × BitVec 1024)) (news : BeatNews),
    mainOn s = true → s.pair.state = .single → s.uhl.sessions = [] → s.objs.pend = [] → s.isl.extract = .inService →
    s.pair.takeover = none → s.pair.transfer = .none → (∀ p ∈ s.dma.chans, ∀ a b d w, p.2.route ≠ .issue a b d w) →
    ∃ t, exec (.beatBoundary readyIn upset news) s = .next t ∧ t.clk.beat = s.clk.beat + 1 ∧ t.clk.slot = 0 ∧
      (s.tt.state ≠ .armed → t.tt.beat = s.tt.beat + 1) ∧ t.pending = s.pending ∧ (∀ a, hbmByte t a = hbmByte s a)

/-- Outside the drain: VERIFY, with the main domain on, in EMPTY or IDLE goes to VERIFYING with REASON 0; VERIFY_DONE
ends VERIFYING in VERIFIED, or back in IDLE or EMPTY; INSTALL in VERIFIED with a staged image goes to INSTALLING;
INSTALL_DONE with no issue left goes to INSTALLED, the image's trees standing in the decision-tree region of HBM; ARM
in INSTALLED goes to ARMED with the target of TT_ARM_BEAT, where a paired device's partner has the image installed and
the target is not past; DISCARD of a staged image goes back to IDLE or EMPTY with nothing staged; CANCEL_ARM in ARMED
goes back to INSTALLED. Each answers a next state. Formalises 03 R69 Table 3-6; 03 R70; 03 R71; 03 R72. -/
def Obligations.TimetableCommandsTakeEffect : Prop :=
  (∀ s : State, mainOn s = true → (s.tt.state = .empty ∨ s.tt.state = .idle) → s.tt.drain = false →
    ∃ t, exec .verify s = .next t ∧ t.tt.state = .verifying ∧ t.tt.reason = 0) ∧
  (∀ (s : State) (v : Nat × Nat × Bool), s.tt.state = .verifying → s.tt.ver = some v → s.tt.swap = false →
    ∃ t, exec .verifyDone s = .next t ∧ t.tt.ver = none ∧
      ((t.tt.state = .verified ∧ t.tt.reason = 0 ∧ t.tt.staged.isSome = true) ∨
        (t.tt.state = (if s.tt.cur.isSome then .idle else .empty) ∧ t.tt.staged = none))) ∧
  (∀ s : State, s.tt.state = .verified → s.tt.drain = false → s.tt.staged.isSome = true →
    ∃ t, exec .install s = .next t ∧ t.tt.state = .installing ∧ t.tt.reason = 0 ∧ t.tt.install.length = 4) ∧
  (∀ s : State, s.tt.state = .installing → s.tt.install.all (· == 0) = true → s.tt.swap = false →
    ∃ t, exec .installDone s = .next t ∧ t.tt.state = .installed ∧
      ∀ img, s.tt.staged = some img → img.treeAt < 2147483648 → (treeContent img).length ≤ 2147483648 →
        treeRead t img.treeAt (treeContent img).length = treeContent img) ∧
  (∀ (s : State) (img : Image), s.tt.state = .installed → s.tt.drain = false → s.tt.staged = some img →
    (s.pair.state = .active → partnerInstalled s = some (hdrFld img 0x10 64)) →
    (s.tt.armBeat = 0 ∨ s.tt.beat < s.tt.armBeat.toNat) →
    ∃ t, exec .arm s = .next t ∧ t.tt.state = .armed ∧ t.tt.reason = 0 ∧
      t.tt.target = (if s.tt.armBeat = 0 then none else some s.tt.armBeat.toNat)) ∧
  (∀ s : State, (s.tt.state = .verifying ∨ s.tt.state = .verified ∨ s.tt.state = .installing ∨ s.tt.state = .installed) →
    s.tt.drain = false →
    ∃ t, exec .discard s = .next t ∧ t.tt.state = (if s.tt.cur.isSome then .idle else .empty) ∧ t.tt.staged = none ∧
      t.tt.reason = 0) ∧
  (∀ s : State, s.tt.state = .armed → s.tt.drain = false →
    ∃ t, exec .cancelArm s = .next t ∧ t.tt.state = .installed ∧ t.tt.target = none ∧ t.tt.reason = 0)

/-- VERIFY outside EMPTY and IDLE, INSTALL outside VERIFIED, ARM outside INSTALLED and CANCEL_ARM outside ARMED leave
the whole state as it is but for TT_STATUS.REASON, which reads BUSY (1) or STATE (2). Formalises 03 R69 Table 3-6. -/
def Obligations.TimetableCommandsRefuseByState : Prop :=
  ∀ (s : State) (c : Instr),
    ((c = .verify ∧ mainOn s = true ∧ s.tt.state ≠ .empty ∧ s.tt.state ≠ .idle) ∨ (c = .install ∧ s.tt.state ≠ .verified) ∨
      (c = .arm ∧ s.tt.state ≠ .installed) ∨ (c = .cancelArm ∧ s.tt.state ≠ .armed)) →
    ∃ r : BitVec 8, (r = 1 ∨ r = 2) ∧ exec c s = .next { s with tt := { s.tt with reason := r } }

/-- VERIFY, VERIFY_DONE, INSTALL, INSTALL_DONE, ARM, DISCARD and CANCEL_ARM change no byte of device memory, but that
INSTALL_DONE puts the staged image's trees where they lie in the decision-tree region, no lane, no Sheepdog queue, no
ledger entry, no Kennel slot, no DMA channel, no stage word, no session, no clock, and neither the current nor the old
image nor the generation bit. Formalises 03 Loading and arming; 03 R69. -/
def Obligations.TimetableCommandsKeepOtherState : Prop :=
  ∀ (s t : State) (c : Instr),
    (c = .verify ∨ c = .verifyDone ∨ c = .install ∨ c = .installDone ∨ c = .arm ∨ c = .discard ∨ c = .cancelArm) →
    exec c s = .next t →
    (c ≠ .installDone → SameMemory s t) ∧
      (∀ img, s.tt.staged = some img → img.treeAt < 2147483648 → (treeContent img).length ≤ 2147483648 → ∀ a,
        (∀ i, i < (treeContent img).length → a ≠ Config.treeRegionPage.val * 4096 + (img.treeAt + i) % 2147483648) →
        hbmByte t a = hbmByte s a) ∧
      (s.tt.staged = none → SameMemory s t) ∧ t.net = s.net ∧ t.shp = s.shp ∧ t.led = s.led ∧ t.ken = s.ken ∧ t.dma = s.dma ∧
      t.stg = s.stg ∧ t.uhl = s.uhl ∧ t.clk = s.clk ∧ t.tt.cur = s.tt.cur ∧ t.tt.old = s.tt.old ∧ t.tt.gen = s.tt.gen ∧
      t.pending = s.pending

/-- In a row that has not failed its ROWCRC: INGRESS_SLOT of a frame row moves the head frame of the lane's port into
the pipeline with the current generation bit and the next sequence. CONTROL_SLOT executes the only waiting parameter
write of its pipeline. RETURN_SLOT puts the due item at its re-entry stage. STAGE_PORT_SLOT of an item due at a stage
moves it to the next stage, out to a detour, or drops it. SCRUB_SLOT advances the stage's scrub pointer by one modulo
2,048. SHARED_TABLE_ACCESS marks the item's lookups as done, or drops it. EGRESS_OPPORTUNITY appends the head frame of
one queue to the port's FIFO, or counts an idle opportunity. WALK_GRANT makes the walker's read. Formalises 03 R58; 03
R60; 05 R104; 05 R105; 05 R117; 05 R468; 06 R128; 08 R190. -/
def Obligations.PipelineSlotsTakeEffect : Prop :=
  (∀ (s : State) (slot : BitVec 12) (p : BitVec 2) (f : RxFrame) (rest : List RxFrame),
    s.tt.drain = false → s.tt.cur.isSome = true → rowBad (atSlot s slot) true = false → rowIngress (schedRow s slot.toNat) p.toNat < 32 →
    rxBuf s (portOfLane s (rowIngress (schedRow s slot.toNat) p.toNat)) = f :: rest →
    ∃ t x, exec (.ingressSlot slot p true) s = .next t ∧ t.pipe.items = s.pipe.items ++ [x] ∧ x.id = f.id ∧
      x.gen = s.tt.gen ∧ x.seq = s.pipe.seqs.getD p.toNat 0 ∧ x.pos = .parser ∧ x.len = f.bytes.length ∧
      rxBuf t (portOfLane s (rowIngress (schedRow s slot.toNat) p.toNat)) = rest) ∧
  (∀ (s : State) (slot : BitVec 12) (p : BitVec 2) (id : Nat),
    s.pipe.ctl.length = 4 → rowBad (atSlot s slot) true = false → rowIngress (schedRow s slot.toNat) p.toNat = 0x3E → s.pipe.ctl.getD p.toNat [] = [.write id] →
    ∃ t, exec (.controlSlot slot p true) s = .next t ∧ t.pipe.ctl.getD p.toNat [] = [] ∧
      ∀ w ∈ t.objs.pend, w.id = id → p.toNat ∉ w.waits) ∧
  (∀ (s : State) (slot : BitVec 12) (p : BitVec 2) (i : Image) (x : Item),
    s.tt.cur = some i → rowBad (atSlot s slot) true = false → rowIngress (schedRow s slot.toNat) p.toNat = 0x3D →
    returnDue (atSlot s slot) p.toNat ((i.maps.getD p.toNat []).getD slot.toNat 0) = some x →
    ∃ t y, exec (.returnSlot slot p true) s = .next t ∧ itemGet t x.id = some y ∧
      y.pos = .stage ((i.maps.getD p.toNat []).getD slot.toNat 0) ∧ y.back = some slot.toNat) ∧
  (∀ (s : State) (slot : BitVec 12) (item k : Nat) (x : Item) (i : Image),
    itemGet s item = some x → x.pos = .stage k → k < 20 → imageOf s x.gen = some i → portDue s x k slot.toNat = true →
    ∃ t, exec (.stagePortSlot slot item) s = .next t ∧
      (itemGet t item = none ∨ ∃ y, itemGet t item = some y ∧
        (y.pos = .stage (k + 1) ∨ ∃ tree n, y.pos = .leaving k tree n))) ∧
  (∀ (s : State) (slot : BitVec 12) (p : BitVec 2) (stage : Nat),
    stage < 20 → rowBadAt (atSlot s slot) (now (atSlot s slot) - entryOffset s.tt.cur stage) true = false →
    rowPort (schedRow s ((slot.toNat + 65536 - entryOffset s.tt.cur stage) % 4096)) p.toNat stage = 1 →
    (∀ x ∈ s.pipe.items, x.pos ≠ .stage stage) →
    ∃ t, exec (.scrubSlot slot p stage true) s = .next t ∧
      sget 0 t.stg.scrub (20 * p.toNat + stage) = (sget 0 s.stg.scrub (20 * p.toNat + stage) + 1) % 2048) ∧
  (∀ (s : State) (slot : BitVec 12) (item k : Nat) (x : Item) (i : Image),
    rowBad (atSlot s slot) true = false → itemGet s item = some x → x.back = none → x.looked = false → x.pos ≠ .parser → imageOf s x.gen = some i →
    (x.row + sharedOffset (imageOf s x.timGen)) % 4096 = slot.toNat →
    legOf (openSlot (atSlot s slot)) slot x.pipe = some k →
    ∃ t, exec (.sharedTableAccess slot item true) s = .next t ∧
      (itemGet t item = none ∨ ∃ y, itemGet t item = some y ∧ y.looked = true)) ∧
  (∀ (s : State) (slot : BitVec 12) (j : BitVec 2), rowBad (atSlot s slot) true = false → rowEgress (schedRow s slot.toNat) j.toNat < 32 →
    ∃ t, exec (.egressOpportunity slot j true) s = .next t ∧
      ((∃ q f, (queue s q).frames.head? = some f ∧
          fifo t (portOfLane s (rowEgress (schedRow s slot.toNat) j.toNat)) =
            fifo s (portOfLane s (rowEgress (schedRow s slot.toNat) j.toNat)) ++ [f]) ∨
        (t.shp = s.shp ∧ ctrGet t 0xC0B0 0x15 0 = (ctrGet s 0xC0B0 0x15 0 + 1) % 2 ^ 64))) ∧
  (∀ (s : State) (slot : BitVec 12) (p : BitVec 2) (x : Item) (w : TreeWalk), rowBad (atSlot s slot) true = false →
    s.pipe.items.find? (inWalker p.toNat (rowWalk (schedRow s slot.toNat) p.toNat)) = some x → x.treeWalk = some w →
    ∃ t y, exec (.walkGrant slot p true) s = .next t ∧ itemGet t x.id = some y ∧
      y.treeWalk = some { w with reading := true })

/-- On a port that is operationally up, FRAME_RECEIVED of a frame cut by loss of lock, or of 64 bytes to max_frame
with a bad FCS, counts one rx_fcs_error; of a frame shorter than 64 bytes that is not cut one rx_runt, whatever its
FCS; of one longer than max_frame one rx_oversize; each of these changes nothing but that one counter, and in a
muzzled device rx_discarded_muzzle with it. A frame of right length with good FCS counts one rx_frames. Formalises 02
R40; 02 Table 2-8. -/
def Obligations.ReceivedFramesAreCounted : Prop :=
  ∀ (s : State) (port : BitVec 5) (bytes : List Byte) (fcsOk cut : Bool) (slots : Nat), operUp s port.toNat = true →
    ((cut = true ∨ (64 ≤ bytes.length ∧ bytes.length ≤ maxFrame s port.toNat ∧ fcsOk = false)) →
      exec (.frameReceived port bytes fcsOk cut slots) s = .next (if s.pair.muzzled then
        ctrAddAt (ctrAddAt s (0xC100 + port.toNat) 0x03 0 1) (0xC100 + port.toNat) 0x07 0 1
        else ctrAddAt s (0xC100 + port.toNat) 0x03 0 1)) ∧
    ((cut = false ∧ bytes.length < 64) →
      exec (.frameReceived port bytes fcsOk cut slots) s = .next (if s.pair.muzzled then
        ctrAddAt (ctrAddAt s (0xC100 + port.toNat) 0x04 0 1) (0xC100 + port.toNat) 0x07 0 1
        else ctrAddAt s (0xC100 + port.toNat) 0x04 0 1)) ∧
    ((cut = false ∧ 64 ≤ bytes.length ∧ maxFrame s port.toNat < bytes.length) →
      exec (.frameReceived port bytes fcsOk cut slots) s = .next (if s.pair.muzzled then
        ctrAddAt (ctrAddAt s (0xC100 + port.toNat) 0x05 0 1) (0xC100 + port.toNat) 0x07 0 1
        else ctrAddAt s (0xC100 + port.toNat) 0x05 0 1)) ∧
    ((cut = false ∧ fcsOk = true ∧ 64 ≤ bytes.length ∧ bytes.length ≤ maxFrame s port.toNat) →
      ∃ t, exec (.frameReceived port bytes fcsOk cut slots) s = .next t ∧
        ctrGet t (0xC100 + port.toNat) 0x01 0 = (ctrGet s (0xC100 + port.toNat) 0x01 0 + 1) % 2 ^ 64)

/-- RAW_HIT_LIST_COMPLETE marks the frame in the receive buffer as scanned. PARSER_NODE_STEP of a walk that has not
ended gives the item the walk and bus of one node step and keeps it in the parser. PARSER_OUTPUT of an ended walk
without malformation takes the item to stage 0; with a malformation whose action object reads 0 it drops the item.
MATCH_SET_FINAL of an item past the parser writes a match record of at most 64 words and leaves its place. Formalises
04 R84; 04 R92; 04 R97; 04 R98; 04 R99. -/
def Obligations.ParserAndScannerTakeEffect : Prop :=
  (∀ (s : State) (port : BitVec 5) (frame : Nat) (f : RxFrame),
    (rxBuf s port.toNat).find? (fun g => g.id == frame && !g.complete) = some f →
    ∃ t, exec (.rawHitListComplete port frame) s = .next t ∧ ∃ g ∈ rxBuf t port.toNat, g.id = frame ∧ g.complete = true) ∧
  (∀ (s : State) (item : Nat) (x : Item) (i : Image),
    itemGet s item = some x → x.pos = .parser → imageOf s x.gen = some i → x.walk.ended = false →
    ∃ t y, exec (.parserNodeStep item) s = .next t ∧ itemGet t item = some y ∧ y.pos = .parser ∧
      (y.walk, y.bus) = nodeStep i x.bytes x.walk x.bus) ∧
  (∀ (s : State) (item : Nat) (x : Item),
    itemGet s item = some x → x.pos = .parser → x.walk.ended = true →
    ∃ t, exec (.parserOutput item) s = .next t ∧
      (x.walk.mal = 0 → ∃ y, itemGet t item = some y ∧ y.pos = .stage 0 ∧ y.trap = false) ∧
      (x.walk.mal ≠ 0 → objGet s 0x5200 x.walk.mal 0 = 0 → itemGet t item = none) ∧
      (x.walk.mal ≠ 0 → objGet s 0x5200 x.walk.mal 0 ≠ 0 → ∃ y, itemGet t item = some y ∧ y.pos = .stage 0)) ∧
  (∀ (s : State) (item : Nat) (x : Item) (i : Image),
    itemGet s item = some x → x.pos ≠ .parser → imageOf s x.gen = some i →
    ∃ t y, exec (.matchSetFinal item) s = .next t ∧ itemGet t item = some y ∧ y.pos = x.pos ∧ y.record.length ≤ 64)

/-- DETOUR_LEAVE of an item due at the next stage takes it to the cluster that the row names or its substitute, or
into the tree request queue or a walker. WALK_READ_DATA of an inner node that HBM holds whole moves the walk to the
child that the cut bits of the key select; a read that failed drops the item. REWRITE_UNIT of an item due there takes
it out of that unit; an item whose forwarding decision is none is dropped and counted. REORDER_RELEASE and
REORDER_TIMEOUT take the held item of the lowest sequence among those they release out of the reorder unit. Formalises
05 R115; 05 R117; 05 R118; 05 R121; 05 R122; 05 R124. -/
def Obligations.DetoursWalksAndReorderTakeEffect : Prop :=
  (∀ (s : State) (slot : BitVec 12) (item k n d : Nat) (x : Item),
    itemGet s item = some x → x.pos = .leaving k false n → portDue s x (k + 1) slot.toNat = true →
    rowBad (atSlot s slot) true = false → rowDetour (schedRow s slot.toNat) x.pipe < 16 →
    s.jx.map.getD (rowDetour (schedRow s slot.toNat) x.pipe) none = some d →
    ∃ t y, exec (.detourLeave slot item true) s = .next t ∧ itemGet t item = some y ∧
      y.pos = .toCluster k d n ∧ y.domain.isSome = true) ∧
  (∀ (s : State) (slot : BitVec 12) (item k n : Nat) (rowOk : Bool) (x : Item) (i : Image),
    itemGet s item = some x → x.pos = .leaving k true n → portDue s x (k + 1) slot.toNat = true →
    imageOf s x.gen = some i → (s.pipe.treeQ.getD x.pipe []).length < 1024 →
    ∃ t y, exec (.detourLeave slot item rowOk) s = .next t ∧ itemGet t item = some y ∧
      (y.pos = .treeQueue k n ∨ ∃ w, y.pos = .walker k n w)) ∧
  (∀ (s : State) (p : BitVec 2) (w : BitVec 6) (x : Item) (k n v : Nat) (i : Image) (tw : TreeWalk),
    s.pipe.items.find? (inWalker p.toNat w.toNat) = some x → x.pos = .walker k n v → x.treeWalk = some tw →
    imageOf s x.gen = some i → tw.reading = true →
    (tw.leaf = false → tnOk (treeNode s i tw.node) = true → tnLeaf (treeNode s i tw.node) = false →
      ∃ t y, exec (.walkReadData p w true) s = .next t ∧ itemGet t x.id = some y ∧
        y.treeWalk = some { tw with
          node := tnBase (treeNode s i tw.node) +
            (tw.key.toNat >>> tnCutOff (treeNode s i tw.node)) % 2 ^ tnCutBits (treeNode s i tw.node)
          reading := false }) ∧
    (∃ t, exec (.walkReadData p w false) s = .next t ∧ itemGet t x.id = none)) ∧
  (∀ (s : State) (slot : BitVec 12) (item : Nat) (x : Item) (i : Image),
    itemGet s item = some x → x.pos = .stage 20 → imageOf s x.gen = some i →
    slot.toNat = (x.row + baseLatency (imageOf s x.timGen)) % 4096 →
    ∃ t, exec (.rewriteUnit slot item) s = .next t ∧ (∀ y, itemGet t item = some y → y.pos ≠ .stage 20) ∧
      (x.trap = false → busFwd x.bus = 0 →
        itemGet t item = none ∧ ctrGet t (0xC070 + x.pipe) 0x14 0 = (ctrGet s (0xC070 + x.pipe) 0x14 0 + 1) % 2 ^ 64)) ∧
  (∀ (s : State) (slot : BitVec 12) (p : BitVec 2) (x : Item),
    lowestSeq ((heldItems s p.toNat).filter (fun y => !isHeld s y && !leftNow (atSlot s slot) y false)) = some x →
    ∃ t, exec (.reorderRelease slot p) s = .next t ∧ ∀ y since, itemGet t x.id = some y → y.pos ≠ .reorder since) ∧
  (∀ (s : State) (slot : BitVec 12) (p : BitVec 2) (x : Item),
    lowestSeq ((heldItems s p.toNat).filter (holdExpired (atSlot s slot))) = some x →
    ∃ t, exec (.reorderTimeout slot p) s = .next t ∧ ∀ y since, itemGet t x.id = some y → y.pos ≠ .reorder since)

/-- INGRESS_SLOT, RAW_HIT_LIST_COMPLETE, PARSER_NODE_STEP, PARSER_OUTPUT, MATCH_SET_FINAL, WALK_GRANT, RETURN_SLOT and
SCRUB_SLOT change no byte of device memory, no Kennel slot, no ledger entry, no DMA channel, no lane, no Sheepdog
queue, no Jutex thread, no slice and no object value. FRAME_SENT, MUZZLE and EGRESS_OPPORTUNITY change no byte of
device memory, no Kennel slot, no DMA channel, no Jutex state, no forwarding table, no stage word, no host register,
no slice and no waiting command, and FRAME_SENT changes no other port's transmit FIFO. Formalises 03 R58; 04 The
parser; 05 Detours; 08 R190; 08 R191. -/
def Obligations.PipelineAndEgressCommandsKeepOtherState : Prop :=
  (∀ (s t : State) (c : Instr),
    ((∃ slot p ok, c = .ingressSlot slot p ok) ∨ (∃ port f, c = .rawHitListComplete port f) ∨ (∃ i, c = .parserNodeStep i) ∨
      (∃ i, c = .parserOutput i) ∨ (∃ i, c = .matchSetFinal i) ∨ (∃ slot p ok, c = .walkGrant slot p ok) ∨
      (∃ slot p ok, c = .returnSlot slot p ok) ∨ (∃ slot p st ok, c = .scrubSlot slot p st ok)) →
    exec c s = .next t →
    (∀ a, hbmByte t a = hbmByte s a) ∧ t.ken = s.ken ∧ t.led = s.led ∧ t.dma = s.dma ∧ t.net.lanes = s.net.lanes ∧
      t.shp = s.shp ∧ t.jx = s.jx ∧ t.slc = s.slc ∧ (∀ idx sub el, objGet t idx sub el = objGet s idx sub el)) ∧
  (∀ (s t : State) (c : Instr),
    ((∃ p, c = .frameSent p) ∨ c = .muzzle ∨ (∃ slot j ok, c = .egressOpportunity slot j ok)) → exec c s = .next t →
    SameMemory s t ∧ t.ken = s.ken ∧ t.dma = s.dma ∧ t.jx = s.jx ∧ t.fwd = s.fwd ∧ t.stg = s.stg ∧ t.hst = s.hst ∧
      t.slc = s.slc ∧ t.pending = s.pending) ∧
  (∀ (s t : State) (p : BitVec 5) (n : Nat), n ≠ p.toNat → exec (.frameSent p) s = .next t → fifo t n = fifo s n)

/-- In a row that has not failed its ROWCRC, for a leg that is next in the order of its slot: a learn leg with room
takes the head request of the L2 queue in an even slot and of the flow queue, once both its buckets are cached, in an
odd slot, and counts it against the beat. An aging leg with no removal waiting and no start due goes on to the next
bucket, or ends the pass, or marks the sweep stalled. A command leg takes the head of the command queue, and a command
other than FLUSH_PORT has its result fixed. FLOW_FILL_LAND brings both buckets of the oldest fill into the cache.
AGING_PASS_START whose time has come starts the pass, or marks it late while one runs. Formalises 06 R135; 06 R138; 06
R142; 06 R144; 06 R148. -/
def Obligations.SharedTableLegsTakeEffect : Prop :=
  (∀ (s u : State) (slot : BitVec 12) (k : BitVec 3) (r : LearnReq) (rest : List LearnReq),
    u = openSlot (atSlot s slot) → rowBad u true = false → legFree u k.toNat 1 = true →
    legIs u slot k.toNat 4 = true → slot.toNat % 2 = 0 → u.fwd.l2q = r :: rest → u.fwd.applied.1 < 820 →
    deltaRoom u 32 = true →
    ∃ t, exec (.learnLeg slot k true) s = .next t ∧ t.fwd.l2q = rest ∧ t.fwd.applied.1 = u.fwd.applied.1 + 1) ∧
  (∀ (s u : State) (slot : BitVec 12) (k : BitVec 3) (r : LearnReq) (rest : List LearnReq),
    u = openSlot (atSlot s slot) → rowBad u true = false → legFree u k.toNat 1 = true →
    legIs u slot k.toNat 4 = true → slot.toNat % 2 = 1 → u.fwd.flowq = r :: rest → u.fwd.applied.2 < 820 →
    flowCached u (flowBuckets r.key).1 = true → flowCached u (flowBuckets r.key).2 = true → deltaRoom u 80 = true →
    ∃ t, exec (.learnLeg slot k true) s = .next t ∧ t.fwd.flowq = rest ∧ t.fwd.applied.2 = u.fwd.applied.2 + 1) ∧
  (∀ (s u : State) (slot : BitVec 12) (k : BitVec 3) (b : Nat),
    u = openSlot (atSlot s slot) → rowBad u true = false → legFree u k.toNat 0 = true →
    legIs u slot k.toNat 5 = true → (sweepOf u (slot.toNat % 2 == 1)).removal = [] →
    (sweepOf u (slot.toNat % 2 == 1)).pos = some b → u.clk.beat < (sweepOf u (slot.toNat % 2 == 1)).nextAt →
    ∃ t, exec (.agingLeg slot k true) s = .next t ∧
      ((sweepOf t (slot.toNat % 2 == 1)).pos =
          (if b + 1 < sweepBuckets (slot.toNat % 2 == 1) then some (b + 1) else none) ∨
        (sweepOf t (slot.toNat % 2 == 1)).stalled = true)) ∧
  (∀ (s u : State) (slot : BitVec 12) (k : BitVec 3) (w : Nat) (rest : List Nat) (c : TcCmd),
    u = openSlot (atSlot s slot) → rowBad u true = false → legFree u k.toNat 1 = true →
    legIs u slot k.toNat 6 = true → u.tc.queue = w :: rest → w < u.tc.wins.length → (tcWin u w).cmd = some c →
    c.op ≠ 6 →
    ∃ t d, exec (.commandLeg slot k true) s = .next t ∧ t.tc.queue = rest ∧ (tcWin t w).cmd = some d ∧ d.fin.isSome = true) ∧
  (∀ (s : State) (a b : Nat) (rest : List (Nat × Nat)), s.fwd.fills = (a, b) :: rest →
    ∃ t, exec .flowFillLand s = .next t ∧ t.fwd.fills = rest ∧ flowCached t a = true ∧ flowCached t b = true) ∧
  (∀ (s : State) (flow : Bool), (sweepOf s flow).nextAt ≤ s.clk.beat →
    ∃ t, exec (.agingPassStart flow) s = .next t ∧ (sweepOf t flow).nextAt = (sweepOf s flow).nextAt + ageBeats s flow ∧
      ((sweepOf s flow).pos = none → (sweepOf t flow).pos = some 0) ∧
      ((sweepOf s flow).pos ≠ none → (sweepOf t flow).late = true))

/-- INSERT, DELETE, READ, REPLACE, COMPARE_REPLACE and FLUSH_PORT with a target from 0 to 4, given to a window that is
not BUSY with the main domain on, put into the window a command with that operation and target and the values of
TC_INDEX, TC_DATA and TC_CMP. Given while BUSY they change no command: REFUSED reads 1 and commands_refused rises by
one. TC_COMMAND_COMPLETE of a command that may be released empties the window, stores its RESULT and raises TC_DONE by
one. Formalises 06 R145; 06 R149. -/
def Obligations.TableCommandsAreAcceptedOrRefused : Prop :=
  (∀ (s : State) (w : BitVec 3) (tg : BitVec 4) (g : BitVec 1) (tbl : BitVec 16) (c : Instr) (op : Nat),
    ((c = .tcInsert w tg g tbl ∧ op = 1) ∨ (c = .tcDelete w tg g tbl ∧ op = 2) ∨ (c = .tcRead w tg g tbl ∧ op = 3) ∨
      (c = .tcReplace w tg g tbl ∧ op = 4) ∨ (c = .tcCompareReplace w tg g tbl ∧ op = 5) ∨
      (c = .flushPort w tg g tbl ∧ op = 6)) →
    tg.toNat ≤ 4 → s.tc.wins.length = 8 → mainOn s = true →
    (tcBusy s w.toNat = false →
      ∃ t d, exec c s = .next t ∧ (tcWin t w.toNat).cmd = some d ∧ d.op = op ∧ d.target = tg.toNat ∧
        d.table = tbl.toNat ∧ d.other = (g == 1) ∧ d.index = (tcWin s w.toNat).index ∧ d.data = (tcWin s w.toNat).data ∧
        d.cmp = (tcWin s w.toNat).cmp) ∧
    (tcBusy s w.toNat = true →
      ∃ t, exec c s = .next t ∧ (tcWin t w.toNat).cmd = (tcWin s w.toNat).cmd ∧ (tcWin t w.toNat).refused = true ∧
        ctrGet t 0xC080 0x17 0 = (ctrGet s 0xC080 0x17 0 + 1) % 2 ^ 64)) ∧
  (∀ (s : State) (w : BitVec 3) (c : TcCmd) (r : Nat) (hit pend : Bool) (data : Option (BitVec 2048)),
    s.tc.wins.length = 8 → (tcWin s w.toNat).cmd = some c → c.fin = some (r, hit, pend, data) →
    tcReleasable s w.toNat c = true →
    ∃ t, exec (.tcCommandComplete w) s = .next t ∧ (tcWin t w.toNat).cmd = none ∧
      (tcWin t w.toNat).result = BitVec.ofNat 8 r ∧ (tcWin t w.toNat).done = (tcWin s w.toNat).done + 1)

/-- INSERT, DELETE, READ, REPLACE, COMPARE_REPLACE and FLUSH_PORT as commands change no shared table, no stage word,
no other window, no byte of device memory, no Kennel slot, no lane and no object value: the table changes when a leg
or a control slot executes the command. Formalises 06 R145; 06 R148. -/
def Obligations.TableCommandsKeepOtherState : Prop :=
  ∀ (s t : State) (w : BitVec 3) (tg : BitVec 4) (g : BitVec 1) (tbl : BitVec 16) (c : Instr),
    (c = .tcInsert w tg g tbl ∨ c = .tcDelete w tg g tbl ∨ c = .tcRead w tg g tbl ∨ c = .tcReplace w tg g tbl ∨
      c = .tcCompareReplace w tg g tbl ∨ c = .flushPort w tg g tbl) →
    exec c s = .next t →
    t.fwd = s.fwd ∧ t.stg = s.stg ∧ (∀ v, v ≠ w.toNat → tcWin t v = tcWin s v) ∧ (∀ a, hbmByte t a = hbmByte s a) ∧
      t.ken = s.ken ∧ t.net = s.net ∧ (∀ idx sub el, objGet t idx sub el = objGet s idx sub el)

/-- A thread that may issue completes ADD, SUB, AND, OR, XOR, SHL, SHR, SAR, MUL, SLTU, SLT, ADDI, ANDI, SHLI, SHRI,
LUI, MFS, TIME and FENCE with their unused fields 0: rd takes the result that the opcode table gives (x0 takes
nothing), the PC advances by 4, every other register, every other thread and everything outside the threads is as
before. Formalises 07 Table 7-3; 07 R153; 07 R157; 07 R159. -/
def Obligations.JutexArithmeticWritesResult : Prop :=
  ∀ (s : State) (c : Instr) (th : BitVec 10) (rd rs1 rs2 : BitVec 5) (i15 : BitVec 15) (i20 : BitVec 20) (f : BitVec 10)
    (v : BitVec 64), CanIssue s th →
    ((c = .add th rd rs1 rs2 0 ∧ v = getReg s th.toNat rs1 + getReg s th.toNat rs2) ∨
      (c = .sub th rd rs1 rs2 0 ∧ v = getReg s th.toNat rs1 - getReg s th.toNat rs2) ∨
      (c = .and th rd rs1 rs2 0 ∧ v = getReg s th.toNat rs1 &&& getReg s th.toNat rs2) ∨
      (c = .or th rd rs1 rs2 0 ∧ v = getReg s th.toNat rs1 ||| getReg s th.toNat rs2) ∨
      (c = .xor th rd rs1 rs2 0 ∧ v = getReg s th.toNat rs1 ^^^ getReg s th.toNat rs2) ∨
      (c = .shl th rd rs1 rs2 0 ∧ v = getReg s th.toNat rs1 <<< ((getReg s th.toNat rs2).toNat % 64)) ∨
      (c = .shr th rd rs1 rs2 0 ∧ v = getReg s th.toNat rs1 >>> ((getReg s th.toNat rs2).toNat % 64)) ∨
      (c = .sar th rd rs1 rs2 0 ∧ v = (getReg s th.toNat rs1).sshiftRight ((getReg s th.toNat rs2).toNat % 64)) ∨
      (c = .mul th rd rs1 rs2 0 ∧ v = getReg s th.toNat rs1 * getReg s th.toNat rs2) ∨
      (c = .sltu th rd rs1 rs2 0 ∧ v = if getReg s th.toNat rs1 < getReg s th.toNat rs2 then 1 else 0) ∨
      (c = .slt th rd rs1 rs2 0 ∧ v = if (getReg s th.toNat rs1).slt (getReg s th.toNat rs2) then 1 else 0) ∨
      (c = .addi th rd rs1 i15 ∧ v = getReg s th.toNat rs1 + i15.signExtend 64) ∨
      (c = .andi th rd rs1 i15 ∧ v = getReg s th.toNat rs1 &&& i15.signExtend 64) ∨
      (c = .shli th rd rs1 i15 ∧ i15.toNat < 64 ∧ v = getReg s th.toNat rs1 <<< i15.toNat) ∨
      (c = .shri th rd rs1 i15 ∧ i15.toNat < 64 ∧ v = getReg s th.toNat rs1 >>> i15.toNat) ∨
      (c = .lui th rd i20 ∧ v = i20.signExtend 64 <<< 12) ∨
      (c = .mfs th rd 0 0 f ∧ f.toNat < 64 ∧ v = getShared s th.toNat f.toNat) ∨
      (c = .time th rd 0 0 0 ∧ v = BitVec.ofNat 64 (now s / 8)) ∨ (c = .fence th 0 0 0 0 ∧ rd = 0)) →
    ∃ t, exec c s = .next t ∧ PcNext s t th ∧ WroteReg s t th rd v ∧ OtherThreads s t th ∧
      OnlyIssued s t th ∧ t.jx.clusters = s.jx.clusters ∧ OutsideJutex s t

/-- A thread that may issue completes LD, LW, LH and LB at rs1 + I15 when the window map holds the 8, 4, 2 or 1
aligned bytes: rd takes what the window reads, zero-extended. MTS writes rs1 to the shared register F10[5:0]; AADDS
adds rs1 to it and gives rd the old value; TCMP writes the timer compare. The PC advances by 4, and no other register,
thread, engine or state outside Jutex changes (the engine notes the issue, R152). Formalises 07 R155 Table 7-2; 07
Table 7-3; 07 R160. -/
def Obligations.JutexLoadsAndSharedRegisters : Prop :=
  (∀ (s : State) (c : Instr) (th : BitVec 10) (rd rs1 : BitVec 5) (imm : BitVec 15) (n : Nat) (w : Window),
    CanIssue s th →
    ((c = .ld th rd rs1 imm ∧ n = 8) ∨ (c = .lw th rd rs1 imm ∧ n = 4) ∨ (c = .lh th rd rs1 imm ∧ n = 2) ∨
      (c = .lb th rd rs1 imm ∧ n = 1)) →
    windowOf s (thCluster th.toNat) (getReg s th.toNat rs1 + imm.signExtend 64).toNat n = some w →
    ∃ t, exec c s = .next t ∧ PcNext s t th ∧
      WroteReg s t th rd (BitVec.ofNat 64 (windowRead s (thCluster th.toNat) (heldWork (thread s th.toNat)) w n)) ∧
      OtherThreads s t th ∧ OnlyIssued s t th ∧ t.jx.clusters = s.jx.clusters ∧ OutsideJutex s t) ∧
  (∀ (s : State) (th : BitVec 10) (rs1 : BitVec 5) (f : BitVec 10), CanIssue s th → f.toNat < 64 →
    ∃ t, exec (.mts th 0 rs1 0 f) s = .next t ∧ PcNext s t th ∧ WroteReg s t th 0 0 ∧ OtherThreads s t th ∧
      (∀ n, n < 64 → getShared t th.toNat n = if n = f.toNat then getReg s th.toNat rs1 else getShared s th.toNat n) ∧
      (∀ e, e ≠ thEngine th.toNat → engine t e = engine s e) ∧ t.jx.clusters = s.jx.clusters ∧ OutsideJutex s t) ∧
  (∀ (s : State) (th : BitVec 10) (rd rs1 : BitVec 5) (f : BitVec 10), CanIssue s th → f.toNat < 64 →
    ∃ t, exec (.aadds th rd rs1 0 f) s = .next t ∧ PcNext s t th ∧
      WroteReg s t th rd (getShared s th.toNat f.toNat) ∧ OtherThreads s t th ∧
      (∀ n, n < 64 → getShared t th.toNat n =
        if n = f.toNat then getShared s th.toNat n + getReg s th.toNat rs1 else getShared s th.toNat n) ∧
      (∀ e, e ≠ thEngine th.toNat → engine t e = engine s e) ∧ t.jx.clusters = s.jx.clusters ∧ OutsideJutex s t) ∧
  (∀ (s : State) (th : BitVec 10) (rs1 : BitVec 5), CanIssue s th →
    ∃ t, exec (.tcmp th 0 rs1 0 0) s = .next t ∧ PcNext s t th ∧ (thread t th.toNat).tcmp = getReg s th.toNat rs1 ∧
      WroteReg s t th 0 0 ∧ OtherThreads s t th ∧ OnlyIssued s t th ∧ t.jx.clusters = s.jx.clusters ∧
      OutsideJutex s t)

/-- A thread that may issue completes ST, SW, SH and SB at an aligned scratch address rs1 + F10: the 8, 4, 2 or 1
bytes there take the low bytes of rs2, little-endian. AADD and ACAS at an 8-byte aligned scratch address rs1 write the
sum, or rs2 where the old value equals rd, and give rd the old value. The PC advances by 4; every other scratch byte,
every other cluster and thread, every engine and everything outside Jutex is as before. Formalises 07 Table 7-2; 07
Table 7-3; 07 R155. -/
def Obligations.JutexStoresWriteScratch : Prop :=
  (∀ (s : State) (c : Instr) (th : BitVec 10) (rs1 rs2 : BitVec 5) (f : BitVec 10) (n a : Nat), CanIssue s th →
    ((c = .st th 0 rs1 rs2 f ∧ n = 8) ∨ (c = .sw th 0 rs1 rs2 f ∧ n = 4) ∨ (c = .sh th 0 rs1 rs2 f ∧ n = 2) ∨
      (c = .sb th 0 rs1 rs2 f ∧ n = 1)) →
    a = (getReg s th.toNat rs1 + f.signExtend 64).toNat → a % n = 0 → a + n ≤ 2097152 →
    ∃ t, exec c s = .next t ∧ PcNext s t th ∧ WroteReg s t th 0 0 ∧ OtherThreads s t th ∧
      (∀ b, sget 0 (cluster t (thCluster th.toNat)).scratch b =
        if a ≤ b ∧ b < a + n then BitVec.ofNat 8 ((getReg s th.toNat rs2).toNat / 2 ^ (8 * (b - a)))
        else sget 0 (cluster s (thCluster th.toNat)).scratch b) ∧
      (∀ k, k ≠ thCluster th.toNat → cluster t k = cluster s k) ∧ OnlyIssued s t th ∧ OutsideJutex s t) ∧
  (∀ (s : State) (c : Instr) (th : BitVec 10) (rd rs1 rs2 : BitVec 5) (old v : BitVec 64) (a : Nat), CanIssue s th →
    old = BitVec.ofNat 64 (leNat (scratchRead s (thCluster th.toNat) a 8)) →
    ((c = .aadd th rd rs1 rs2 0 ∧ v = old + getReg s th.toNat rs2) ∨
      (c = .acas th rd rs1 rs2 0 ∧ v = if old = getReg s th.toNat rd then getReg s th.toNat rs2 else old)) →
    a = (getReg s th.toNat rs1).toNat → a % 8 = 0 → a + 8 ≤ 2097152 →
    ∃ t, exec c s = .next t ∧ PcNext s t th ∧ WroteReg s t th rd old ∧ OtherThreads s t th ∧
      (∀ b, sget 0 (cluster t (thCluster th.toNat)).scratch b =
        if a ≤ b ∧ b < a + 8 then BitVec.ofNat 8 (v.toNat / 2 ^ (8 * (b - a)))
        else sget 0 (cluster s (thCluster th.toNat)).scratch b) ∧
      (∀ k, k ≠ thCluster th.toNat → cluster t k = cluster s k) ∧ OnlyIssued s t th ∧ OutsideJutex s t)

/-- A thread that may issue completes BEQ, BNE, BLT and BLTU: where the comparison of rs1 with rs2 holds and the
target PC + 4 x F10 is legal the PC is the target, where it does not hold the PC advances by 4; JAL jumps to PC + 4 x
I20 and JR to rs1 (read before rd is written) when the target is legal, and rd takes the PC plus 4. No other register,
thread, engine, cluster or state outside Jutex changes. Formalises 07 Table 7-3; 07 R154. -/
def Obligations.JutexBranchesAndJumps : Prop :=
  (∀ (s : State) (c : Instr) (th : BitVec 10) (rs1 rs2 : BitVec 5) (f : BitVec 10) (taken : Bool), CanIssue s th →
    ((c = .beq th 0 rs1 rs2 f ∧ taken = decide (getReg s th.toNat rs1 = getReg s th.toNat rs2)) ∨
      (c = .bne th 0 rs1 rs2 f ∧ taken = decide (getReg s th.toNat rs1 ≠ getReg s th.toNat rs2)) ∨
      (c = .blt th 0 rs1 rs2 f ∧ taken = decide ((getReg s th.toNat rs1).toInt < (getReg s th.toNat rs2).toInt)) ∨
      (c = .bltu th 0 rs1 rs2 f ∧ taken = decide ((getReg s th.toNat rs1).toNat < (getReg s th.toNat rs2).toNat))) →
    (taken = true → pcLegal ((thread s th.toNat).pc + 4 * f.signExtend 64) = true) →
    ∃ t, exec c s = .next t ∧
      (thread t th.toNat).pc = (thread s th.toNat).pc + 4 * (if taken then f.signExtend 64 else 1) ∧
      WroteReg s t th 0 0 ∧ OtherThreads s t th ∧ OnlyIssued s t th ∧ t.jx.clusters = s.jx.clusters ∧
      OutsideJutex s t) ∧
  (∀ (s : State) (c : Instr) (th : BitVec 10) (rd rs1 : BitVec 5) (imm : BitVec 20) (target : BitVec 64), CanIssue s th →
    ((c = .jal th rd imm ∧ target = (thread s th.toNat).pc + 4 * imm.signExtend 64) ∨
      (c = .jr th rd rs1 0 0 ∧ target = getReg s th.toNat rs1)) →
    pcLegal target = true →
    ∃ t, exec c s = .next t ∧ (thread t th.toNat).pc = target ∧ WroteReg s t th rd ((thread s th.toNat).pc + 4) ∧
      OtherThreads s t th ∧ OnlyIssued s t th ∧ t.jx.clusters = s.jx.clusters ∧ OutsideJutex s t)

/-- WAIT with no condition returns 0 in rd and with conditions none of which holds puts the thread in WAITING. CHOPEN
of a free channel by a thread that owns none makes it the owner and gives rd 0; of a channel in use it puts the thread
in BLOCKED. CHPUT of an owner writes rs2 to one of the eight words of its staging buffer. CHCOMMIT of an owner frees
the channel, appends the staging buffer to a ring with room, and gives rd 0. CHGET of the home engine takes the oldest
message to scratch and gives rd 1, or gives rd 0 from an empty ring. CHCFG of the home engine sets EXT. Each advances
the PC by 4. Formalises 07 R161; 07 R162; 07 R163; 07 R164. -/
def Obligations.JutexChannelsAndWaits : Prop :=
  (∀ (s : State) (th : BitVec 10) (rd rs1 : BitVec 5), CanIssue s th →
    ∃ t, exec (.wait th rd rs1 0 0) s = .next t ∧ PcNext s t th ∧ WroteReg s t th rd 0 ∧
      (thread t th.toNat).state = .runnable) ∧
  (∀ (s : State) (th : BitVec 10) (rd rs1 : BitVec 5) (f : BitVec 10), CanIssue s th → f.toNat < 8 → f ≠ 0 →
    (f.getLsbD 0 = true → (getReg s th.toNat rs1).toNat % 256 / 32 = thEngine th.toNat % 8 ∧
      (channel s (thCluster th.toNat) ((getReg s th.toNat rs1).toNat % 256)).ring = []) →
    (f.getLsbD 1 = true → timerHit s (thread s th.toNat) = false) →
    ∃ t, exec (.wait th rd rs1 0 f) s = .next t ∧ PcNext s t th ∧ (thread t th.toNat).state = .waiting ∧
      WroteReg s t th 0 0 ∧ OtherThreads s t th) ∧
  (∀ (s : State) (th : BitVec 10) (rd rs1 : BitVec 5) (ch : Nat), CanIssue s th →
    ch = (getReg s th.toNat rs1).toNat % 256 → (thread s th.toNat).owns = none →
    ∃ t, exec (.chopen th rd rs1 0 0) s = .next t ∧ PcNext s t th ∧ OtherThreads s t th ∧
      (if (channel s (thCluster th.toNat) ch).owner = none ∧ (channel s (thCluster th.toNat) ch).ring.length < 4 then
        (thread t th.toNat).owns = some ch ∧ WroteReg s t th rd 0 ∧
          (channel t (thCluster th.toNat) ch).owner = some (th.toNat % 64)
      else (thread t th.toNat).state = .blocked ∧ WroteReg s t th 0 0)) ∧
  (∀ (s : State) (th : BitVec 10) (rs2 : BitVec 5) (f : BitVec 10), CanIssue s th → f.toNat < 8 →
    ∃ t, exec (.chput th 0 0 rs2 f) s = .next t ∧ PcNext s t th ∧ WroteReg s t th 0 0 ∧ OtherThreads s t th ∧
      ∀ k, k < 8 → (thread t th.toNat).staging.extractLsb' (64 * k) 64 =
        if k = f.toNat ∧ (thread s th.toNat).owns.isSome then getReg s th.toNat rs2
        else (thread s th.toNat).staging.extractLsb' (64 * k) 64) ∧
  (∀ (s : State) (th : BitVec 10) (rd : BitVec 5) (ch : Nat), CanIssue s th → (thread s th.toNat).owns = some ch →
    (channel s (thCluster th.toNat) ch).ring.length < 4 →
    ∃ t, exec (.chcommit none th rd 0 0 0) s = .next t ∧ PcNext s t th ∧ WroteReg s t th rd 0 ∧
      (thread t th.toNat).owns = none ∧ (channel t (thCluster th.toNat) ch).owner = none ∧
      (channel t (thCluster th.toNat) ch).ring =
        (channel s (thCluster th.toNat) ch).ring ++ [(thread s th.toNat).staging]) ∧
  (∀ (s : State) (th : BitVec 10) (rd rs1 rs2 : BitVec 5) (ch a : Nat), CanIssue s th →
    ch = (getReg s th.toNat rs1).toNat % 256 → ch / 32 = thEngine th.toNat % 8 → a = (getReg s th.toNat rs2).toNat →
    a % 64 = 0 → a + 64 ≤ 2097152 →
    ∃ t, exec (.chget th rd rs1 rs2 0) s = .next t ∧ PcNext s t th ∧ OtherThreads s t th ∧
      (match (channel s (thCluster th.toNat) ch).ring with
        | [] => WroteReg s t th rd 0 ∧ t.jx.clusters = s.jx.clusters
        | m :: rest => WroteReg s t th rd 1 ∧ (channel t (thCluster th.toNat) ch).ring = rest ∧
          ∀ b, sget 0 (cluster t (thCluster th.toNat)).scratch b =
            if a ≤ b ∧ b < a + 64 then BitVec.ofNat 8 (m.toNat / 2 ^ (8 * (b - a)))
            else sget 0 (cluster s (thCluster th.toNat)).scratch b)) ∧
  (∀ (s : State) (th : BitVec 10) (rs1 : BitVec 5) (f : BitVec 10) (ch : Nat), CanIssue s th → f.toNat < 2 →
    ch = (getReg s th.toNat rs1).toNat % 256 → ch / 32 = thEngine th.toNat % 8 →
    ∃ t, exec (.chcfg th 0 rs1 0 f) s = .next t ∧ PcNext s t th ∧ WroteReg s t th 0 0 ∧ OtherThreads s t th ∧
      (channel t (thCluster th.toNat) ch).ext = f.getLsbD 0)

/-- Thread 0 of an engine writes a register or the PC of a STOPPED or FAULTED thread of its engine with SETREG, and
with START makes the named threads 1 to 7 that are STOPPED or FAULTED RUNNABLE, rd taking their mask; HALT stops its
thread. Each advances the issuing thread's PC by 4 and changes nothing outside the threads. Formalises 07 R153; 07
R158. -/
def Obligations.JutexThreadControl : Prop :=
  (∀ (s : State) (th : BitVec 10) (rs1 rs2 : BitVec 5) (f : BitVec 10) (n : Nat), CanIssue s th → th.toNat % 8 = 0 →
    f.toNat < 64 → n = th.toNat + (getReg s th.toNat rs1).toNat % 8 →
    ((thread s n).state = .stopped ∨ (thread s n).state = .faulted) →
    ∃ t, exec (.setreg th 0 rs1 rs2 f) s = .next t ∧ PcNext s t th ∧
      (if f.getLsbD 5 then (thread t n).pc = getReg s th.toNat rs2 ∧ ∀ r, getReg t n r = getReg s n r
      else (thread t n).pc = (thread s n).pc ∧
        ∀ r : BitVec 5, getReg t n r = if r.toNat = f.toNat ∧ r ≠ 0 then getReg s th.toNat rs2 else getReg s n r) ∧
      (∀ m, m ≠ n → m ≠ th.toNat → thread t m = thread s m) ∧
      OnlyIssued s t th ∧
      { t with jx := { t.jx with threads := s.jx.threads, engines := s.jx.engines } } = s) ∧
  (∀ (s : State) (th : BitVec 10) (rd rs1 : BitVec 5), CanIssue s th → th.toNat % 8 = 0 →
    ∃ t, exec (.start th rd rs1 0 0) s = .next t ∧ PcNext s t th ∧
      (∀ i, 1 ≤ i → i < 8 → (thread t (th.toNat + i)).state =
        if (getReg s th.toNat rs1).getLsbD i = true ∧
          ((thread s (th.toNat + i)).state = .stopped ∨ (thread s (th.toNat + i)).state = .faulted) then .runnable
        else (thread s (th.toNat + i)).state) ∧
      (rd ≠ 0 → ∀ i, i < 64 → ((getReg t th.toNat rd).getLsbD i = true ↔
        (1 ≤ i ∧ i < 8 ∧ (getReg s th.toNat rs1).getLsbD i = true ∧
          ((thread s (th.toNat + i)).state = .stopped ∨ (thread s (th.toNat + i)).state = .faulted)))) ∧
      OnlyIssued s t th ∧
      { t with jx := { t.jx with threads := s.jx.threads, engines := s.jx.engines } } = s) ∧
  (∀ (s : State) (th : BitVec 10), CanIssue s th →
    ∃ t, exec (.halt th 0 0 0 0) s = .next t ∧ PcNext s t th ∧ (thread t th.toNat).state = .stopped ∧
      OtherThreads s t th ∧ OnlyIssued s t th ∧
      { t with jx := { t.jx with threads := s.jx.threads, engines := s.jx.engines } } = s)

/-- RET of a detour item puts it on its pipeline's return queue with its frame cut to LENGTH less the FCS; DROP of a
detour item takes it out of the machine's items; COMPLETE of a running host item that the thread still has puts its
ledger entry in DONE with status rs1[7:0] where Table 13-3 gives that code (another code is never produced: a free
value below 10 stands for it, assumption 256), detail rs1[15:8] and result rs2; COMPLETE of a control core does so for
a running entry that the core holds under its SEQ, with its own operands. After the three a thread holds no item.
ISSUE of a message whose result channel has EXT 1, with room in the cluster's issue queue, gives rd 0: to the ciphers
it appends a request that holds the message, to Kennel with room it enters Kennel's queue, and a START of the DMA
engine on an IDLE channel of the same owner takes the channel to PRECHECK. ISSUE of a control core appends its cipher
request. With EXT 0 ISSUE gives rd 2. Each advances a thread's PC by 4. Formalises 07 R168; 07 R170; 07 R171; 09 R200;
09 R219; 10 R241; 13 R306. -/
def Obligations.JutexItemsEnd : Prop :=
  (∀ (s : State) (th : BitVec 10) (id : Nat) (x : Item), CanIssue s th → (thread s th.toNat).item = some (.detour id) →
    itemGet s id = some x →
    ∃ t y, exec (.ret th 0 0 0 0) s = .next t ∧ PcNext s t th ∧ (thread t th.toNat).item = none ∧
      itemGet t id = some y ∧ (∃ k due, y.pos = .returning k due) ∧ y.bytes = bytesAt x.bytes 0 (x.len - 4) ∧
      t.pipe.retQ = lmod s.pipe.retQ x.pipe (fun q => q ++ [id])) ∧
  (∀ (s : State) (th : BitVec 10) (id : Nat), CanIssue s th → (thread s th.toNat).item = some (.detour id) →
    ∃ t, exec (.dropItem th 0 0 0 0) s = .next t ∧ PcNext s t th ∧ (thread t th.toNat).item = none ∧
      itemGet t id = none) ∧
  (∀ (s : State) (th : BitVec 10) (rs1 rs2 : BitVec 5) (i fn : Nat) (e : LedEntry), CanIssue s th →
    (thread s th.toNat).item = some (.host i fn) → (thread s th.toNat).gone = false → ledGet s i = some e →
    (thread s th.toNat).place = some (e.queue, e.seq) → e.state = .running →
    ∃ t e', exec (.complete none th 0 rs1 rs2 0) s = .next t ∧ PcNext s t th ∧ (thread t th.toNat).item = none ∧
      ledGet t i = some e' ∧ e'.state = .done ∧ e'.status.toNat < 10 ∧
      ((getReg s th.toNat rs1).toNat % 256 < 10 → e'.status = (getReg s th.toNat rs1).setWidth 8) ∧
      e'.detail = (getReg s th.toNat rs1 >>> 8).setWidth 8 ∧ (ledMeta t i).result = getReg s th.toNat rs2) ∧
  (∀ (s : State) (i : BitVec 18) (seq : BitVec 32) (status detail : BitVec 8) (result : BitVec 64) (th : BitVec 10)
    (rd rs1 rs2 : BitVec 5) (f : BitVec 10) (n : Nat) (e : LedEntry),
    ledGet s i.toNat = some e → e.state = .running → e.seq = seq.toNat →
    s.jx.coreItems.find? (fun y => y.1 == i.toNat && y.2.2.2 == seq.toNat) = some (i.toNat, n, e.queue, seq.toNat) →
    ∃ t e', exec (.complete (some (i, seq, status, detail, result)) th rd rs1 rs2 f) s = .next t ∧
      ledGet t i.toNat = some e' ∧ e'.state = .done ∧ e'.status.toNat < 10 ∧ (status.toNat < 10 → e'.status = status) ∧
      e'.detail = detail ∧ (ledMeta t i.toNat).result = result) ∧
  (∀ (s : State) (th : BitVec 10) (rd rs1 : BitVec 5) (raw : BitVec 512), IssueTaken s th rs1 raw (fld raw 96 8) →
    sliceDraining s (issueOwner s (thread s th.toNat)) = false →
    ∃ t q, exec (.issue th rd rs1 0 0 none) s = .next t ∧ PcNext s t th ∧ WroteReg s t th rd 0 ∧ OtherThreads s t th ∧
      t.cip.reqs = s.cip.reqs ++ [q] ∧ q.raw = raw ∧ q.owner = issueOwner s (thread s th.toNat) ∧ q.grants = 0 ∧
      q.src = .jutex (thCluster th.toNat) (thEngine th.toNat % 8) (thread s th.toNat).item) ∧
  (∀ (s : State) (th : BitVec 10) (rd rs1 : BitVec 5) (raw : BitVec 512), IssueTaken s th rs1 raw (fld raw 32 8) →
    sliceDraining s (issueOwner s (thread s th.toNat)) = false → s.ken.issues = [] → s.ken.queue.length < 1024 →
    ledRoom s .kennel = true → islandTakes s 26 = true →
    ∃ t q, exec (.issue th rd rs1 0 1 none) s = .next t ∧ PcNext s t th ∧ WroteReg s t th rd 0 ∧ OtherThreads s t th ∧
      t.ken.queue = s.ken.queue ++ [q] ∧ q.raw = raw ∧ q.owner = issueOwner s (thread s th.toNat)) ∧
  (∀ (s : State) (th : BitVec 10) (rd rs1 : BitVec 5) (raw : BitVec 512), IssueTaken s th rs1 raw (fld raw 268 8) →
    fld raw 276 2 = 0 → fld raw 278 42 = 0 → fld raw 368 16 = 0 → fld raw 404 44 = 0 → fld raw 128 32 ≠ 0 →
    issueCtrlBad (BitVec.ofNat 64 (fld raw 192 64)) = false →
    channelOwner s (fld raw 256 12) = issueOwner s (thread s th.toNat) →
    (chan s (fld raw 256 12)).state = .idle → ownerDraining s (issueOwner s (thread s th.toNat)) = false →
    ∃ t, exec (.issue th rd rs1 0 2 none) s = .next t ∧ PcNext s t th ∧ WroteReg s t th rd 0 ∧ OtherThreads s t th ∧
      (chan t (fld raw 256 12)).state = .precheck ∧
      (chan t (fld raw 256 12)).src = BitVec.ofNat 64 (fld raw 0 64) ∧
      (chan t (fld raw 256 12)).dst = BitVec.ofNat 64 (fld raw 64 64) ∧
      (chan t (fld raw 256 12)).count = BitVec.ofNat 32 (fld raw 128 32)) ∧
  (∀ (s : State) (raw : BitVec 512) (th : BitVec 10) (rd rs1 rs2 : BitVec 5) (f : BitVec 10),
    (issueQueue s (fun q => q == .core)).length < 256 →
    ∃ t q, exec (.issue th rd rs1 rs2 f (some raw)) s = .next t ∧ t.cip.reqs = s.cip.reqs ++ [q] ∧ q.raw = raw ∧
      q.owner = none ∧ q.src = .core ∧ q.grants = 0) ∧
  (∀ (s : State) (th : BitVec 10) (rd rs1 : BitVec 5) (f : BitVec 10) (a : Nat) (raw : BitVec 512), CanIssue s th →
    f.toNat < 3 → a = (getReg s th.toNat rs1).toNat → a % 64 = 0 → a + 64 ≤ 2097152 →
    raw = BitVec.ofNat 512 (leNat (scratchRead s (thCluster th.toNat) a 64)) →
    (channel s (thCluster th.toNat) (raw.toNat / 2 ^ (if f = 0 then 96 else if f = 1 then 32 else 268) % 256)).ext = false →
    ∃ t, exec (.issue th rd rs1 0 f none) s = .next t ∧ PcNext s t th ∧ WroteReg s t th rd 2 ∧ OtherThreads s t th ∧
      OutsideJutex s t)

/-- A thread that may issue goes to FAULTED, with its PC where it was and no item, on an R-format arithmetic
instruction with F10 not 0, on a load or store that no window holds, and on a JR to an illegal target; a thread that
is not RUNNABLE changes nothing. Formalises 07 R154; 07 R157. -/
def Obligations.JutexIllegalIssueFaults : Prop :=
  (∀ (s : State) (c : Instr) (th : BitVec 10) (rd rs1 rs2 : BitVec 5) (imm : BitVec 15) (f : BitVec 10), CanIssue s th →
    ((f ≠ 0 ∧ (c = .add th rd rs1 rs2 f ∨ c = .sub th rd rs1 rs2 f ∨ c = .mul th rd rs1 rs2 f)) ∨
      (windowOf s (thCluster th.toNat) (getReg s th.toNat rs1 + imm.signExtend 64).toNat 8 = none ∧
        c = .ld th rd rs1 imm) ∨
      (windowOf s (thCluster th.toNat) (getReg s th.toNat rs1 + f.signExtend 64).toNat 8 = none ∧
        c = .st th 0 rs1 rs2 f) ∨
      (pcLegal (getReg s th.toNat rs1) = false ∧ c = .jr th rd rs1 0 0)) →
    ∃ t, exec c s = .next t ∧ t = threadFault (noteIssue s th.toNat) th.toNat ∧
      ((thread s th.toNat).item = none → (thread t th.toNat).state = .faulted ∧
        (thread t th.toNat).pc = (thread s th.toNat).pc ∧ (thread t th.toNat).item = none ∧ OtherThreads s t th)) ∧
  (∀ (s : State) (th : BitVec 10) (rd rs1 rs2 : BitVec 5) (f : BitVec 10), (thread s th.toNat).state ≠ .runnable →
    exec (.add th rd rs1 rs2 f) s = .next s)

/-- TIMER_REACHED wakes a WAITING thread whose selected timer is reached; WAIT_MAX_EXPIRY wakes a WAITING or BLOCKED
thread past its maximum; CHOPEN_GRANT makes the BLOCKED thread the owner of its channel once free. DETOUR_ARRIVAL puts
the item on its cluster where the inbox has room, and drops it where it has none. ITEM_OFFER gives the engine's head
item to its lowest free waiting thread. RESULT_DELIVERY appends a due message to a ring with room. CLUSTER_FAULT sets
FAULTED; CORE_OFFLINE takes a running core offline; ALL_ASLEEP_FREEZE freezes an engine that meets the condition.
Formalises 07 R160; 07 R161; 07 R163; 07 R166; 07 R167; 07 R168; 07 R171; 07 R172; 07 R173. -/
def Obligations.JutexEventsTakeEffect : Prop :=
  (∀ (s : State) (th : BitVec 10) (w : Waiting), (thread s th.toNat).state = .waiting →
    (thread s th.toNat).wait = some w → w.sel.getLsbD 1 = true → timerHit s (thread s th.toNat) = true →
    (thread s th.toNat).before ≠ .halted →
    ∃ t, exec (.timerReached th) s = .next t ∧ (thread t th.toNat).state = .runnable ∧ (thread t th.toNat).wait = none ∧
      (w.rd ≠ 0 → (getReg t th.toNat w.rd).getLsbD 1 = true)) ∧
  (∀ (s : State) (th : BitVec 10) (w : Waiting),
    ((thread s th.toNat).state = .waiting ∨ (thread s th.toNat).state = .blocked) →
    (thread s th.toNat).wait = some w → waitExpired s w = true → (thread s th.toNat).before ≠ .halted →
    ∃ t, exec (.waitMaxExpiry th) s = .next t ∧ (thread t th.toNat).state = .runnable ∧ (thread t th.toNat).wait = none ∧
      (w.rd ≠ 0 → (getReg t th.toNat w.rd).getLsbD 3 = true)) ∧
  (∀ (s : State) (th : BitVec 10) (w : Waiting), (thread s th.toNat).state = .blocked →
    (thread s th.toNat).wait = some w → (channel s (thCluster th.toNat) w.channel).owner = none →
    (channel s (thCluster th.toNat) w.channel).ring.length < 4 → (thread s th.toNat).before ≠ .halted →
    ∃ t, exec (.chopenGrant th) s = .next t ∧ (thread t th.toNat).state = .runnable ∧
      (thread t th.toNat).owns = some w.channel ∧ (w.rd ≠ 0 → getReg t th.toNat w.rd = 0) ∧
      (channel t (thCluster th.toNat) w.channel).owner = some (th.toNat % 64)) ∧
  (∀ (s : State) (item tree c fn : Nat) (x : Item), itemGet s item = some x → x.pos = .toCluster tree c fn →
    ∃ t, exec (.detourArrival item) s = .next t ∧
      itemGet t item = (if inboxRoom s c (.detour item) then some { x with pos := .jutex tree c fn } else none)) ∧
  (∀ (s : State) (e : BitVec 7) (w : Work) (rest : List Work) (th : Nat), (engine s e.toNat).inbox = w :: rest →
    ((List.range 8).map (fun i => e.toNat * 8 + i)).find? (fun n => (thread s n).state == .waiting &&
      (thread s n).item.isNone && (match (thread s n).wait with | some v => v.sel.getLsbD 2 | none => false)) = some th →
    (sget 0 (cluster s (e.toNat / 8)).store (workFn s w)).toNat ≠ 0 →
    ∃ t, exec (.itemOffer e) s = .next t ∧ (thread t th).item = some w ∧
      (thread t th).pc = BitVec.ofNat 64 (sget 0 (cluster s (e.toNat / 8)).store (workFn s w)).toNat) ∧
  (∀ (s : State) (c : BitVec 4) (ch : BitVec 8) (m : BitVec 512) (rest : List (BitVec 512 × Option Nat × Option Nat)),
    (channel s c.toNat ch.toNat).results = (m, none, none) :: rest → (channel s c.toNat ch.toNat).ring.length < 4 →
    ∃ t, exec (.resultDelivery c ch) s = .next t ∧
      (channel t c.toNat ch.toNat).ring = (channel s c.toNat ch.toNat).ring ++ [m] ∧
      (channel t c.toNat ch.toNat).results = rest) ∧
  (∀ (s : State) (c : BitVec 4), (cluster s c.toNat).faulted = false →
    ∃ t, exec (.clusterFault c) s = .next t ∧ (cluster t c.toNat).faulted = true) ∧
  (∀ (s : State) (n : BitVec 4), s.jx.offline.getLsbD n.toNat = false → s.jx.halted.getLsbD n.toNat = false →
    ∃ t, exec (.coreOffline n) s = .next t ∧ t.jx.offline.getLsbD n.toNat = true) ∧
  (∀ (s : State) (e : BitVec 7), allAsleep s e.toNat = true →
    ∃ t, exec (.allAsleepFreeze e) s = .next t ∧ (engine t e.toNat).frozen = true)

/-- An arithmetic, branch, WAIT, CHOPEN, CHPUT, CHCFG, SETREG, START or HALT instruction of a thread that holds no
item changes no byte of device memory, no lane, pipeline, Sheepdog queue, ledger entry, Kennel slot, DMA channel,
timetable register or waiting command; only Jutex state, counters and the event log may change. Formalises 07 R152; 07
R154; 07 Table 7-3. -/
def Obligations.JutexInstructionsKeepOtherState : Prop :=
  ∀ (s t : State) (c : Instr) (th : BitVec 10) (rd rs1 rs2 : BitVec 5) (i15 : BitVec 15) (f : BitVec 10),
    (c = .add th rd rs1 rs2 f ∨ c = .addi th rd rs1 i15 ∨ c = .beq th rd rs1 rs2 f ∨ c = .jr th rd rs1 rs2 f ∨
      c = .wait th rd rs1 rs2 f ∨ c = .chopen th rd rs1 rs2 f ∨ c = .chput th rd rs1 rs2 f ∨
      c = .chcfg th rd rs1 rs2 f ∨ c = .setreg th rd rs1 rs2 f ∨ c = .start th rd rs1 rs2 f ∨ c = .halt th rd rs1 rs2 f) →
    (thread s th.toNat).item = none → exec c s = .next t →
    SameMemory s t ∧ t.net = s.net ∧ t.pipe = s.pipe ∧ t.shp = s.shp ∧ t.led = s.led ∧ t.ken = s.ken ∧ t.dma = s.dma ∧
      t.tt = s.tt ∧ t.pending = s.pending

/-- FRAME_SENT on a port that is up, not muzzled and not in a cut frame takes the first frame out of the port's
transmit FIFO, sends it as the MAC frame, and counts it; on a port with an empty FIFO it changes nothing. MUZZLE of a
fenced device sets muzzled, and asserts PAIR_HF_OUT when a hard fault waits for it; of a device that is not fenced it
changes nothing. Formalises 08 R191; 02 R46; 14 R333; 14 R334. -/
def Obligations.FramesSentAndMuzzle : Prop :=
  (∀ (s : State) (p : BitVec 5) (f : QFrame) (rest : List QFrame), fifo s p.toNat = f :: rest →
    operUp s p.toNat = true → s.pair.muzzled = false → p.toNat ∉ s.shp.cut →
    ∃ t, exec (.frameSent p) s = .next t ∧ fifo t p.toNat = rest ∧ .frame p.toNat (macFrame f) ∈ t.out ∧
      ctrGet t (0xC100 + p.toNat) 0x08 0 = (ctrGet s (0xC100 + p.toNat) 0x08 0 + 1) % 2 ^ 64) ∧
  (∀ (s : State) (p : BitVec 5), fifo s p.toNat = [] → exec (.frameSent p) s = .next s) ∧
  (∀ s : State, s.pair.fence = true → s.pair.muzzled = false →
    ∃ t, exec .muzzle s = .next t ∧ t.pair.muzzled = true ∧ t.pair.hfOut = (s.pair.hfOut || s.pair.hfPending) ∧
      t.pair.hfPending = false) ∧
  (∀ s : State, s.pair.fence = false → exec .muzzle s = .next s)

/-- CIPHER_GRANT on a row that has not failed, once the engines have gone on, gives the request that its source's
queue names its next bytes where the engine's buffer has room; a request not yet assigned takes its engine with them.
CIPHER_REQUEST_START runs the first request of an idle engine whose checks pass, and one with a slot binds the slot's
generation and counts as its user; it ends with its stop, or with FORM, one that is stopped or of bad form.
KENNEL_CACHE_FILL of a slot that is asked for, with room in its set and its island on, caches it and releases the
requests that wait for it. SUSPEND moves a calm running request of an engine below 32 to a free context and runs the
urgent one. CIPHER_REQUEST_COMPLETE ends a running request of the control cores whose bytes have all moved, and
REVOKED_USER_STOP one that is stopped. A KAT that passes changes nothing; one that fails, and ENGINE_OUT_OF_USE, take
the engine out of use. Formalises 09 R200; 09 R201; 09 R202; 09 R203; 09 R205; 09 R211; 09 R213; 09 R216; 09 R218. -/
def Obligations.CipherEnginesTakeEffect : Prop :=
  (∀ (s u : State) (slot : BitVec 12) (k : BitVec 3) (r : CReq) (e : Nat),
    rowBad (atSlot s slot) true = false → u = advanceEngs (atSlot s slot) →
    grantTarget u (legSource (rowCipher (schedRow s slot.toNat) k.toNat)) = some r →
    (r.engine = some e ∨ (r.engine = none ∧ pickEngine u r = some e)) → grantReady u r = true →
    engineBytes u e + grantLen r ≤ 16384 →
    ∃ t r', exec (.cipherGrant slot k true) s = .next t ∧ creq t r.id = some r' ∧ r'.engine = some e ∧
      r'.grants = r.grants + 1 ∧ r'.data = r.data ++ streamBytes u r (64 * r.grants) (grantLen r)) ∧
  (∀ (s : State) (e : BitVec 6) (r : CReq) (rest : List CReq),
    (ceng s e.toNat).run = none → (ceng s e.toNat).out = false → (ceng s e.toNat).ctx = [] →
    ((ceng s e.toNat).queue.filterMap (creq s)).filter (fun q => !q.filling) = r :: rest → RequestRuns s r →
    ∃ t r', exec (.cipherRequestStart e) s = .next t ∧ (ceng t e.toNat).run = some r.id ∧ creq t r.id = some r' ∧
      r'.started = true ∧ r'.level = objGet s 0x8000 0x01 0 ∧
      (r.gen = none → rKeyed r = true → r'.gen = some (slotGet s (rSlot r)).gen ∧
        (slotGet t (rSlot r)).useCur = (slotGet s (rSlot r)).useCur + 1)) ∧
  (∀ (s : State) (e : BitVec 6) (r : CReq) (rest : List CReq) (f : BitVec 8 × BitVec 8),
    (ceng s e.toNat).run = none → (ceng s e.toNat).out = false → (ceng s e.toNat).ctx = [] →
    ((ceng s e.toNat).queue.filterMap (creq s)).filter (fun q => !q.filling) = r :: rest → r.src = .core →
    r.engine = some e.toNat → r.gen = none → r.id < s.cip.nextId →
    (stoppedEarly s r = some f ∨ (stoppedEarly s r = none ∧ formBad r = true ∧ f = (5, 0x01))) →
    ∃ t, exec (.cipherRequestStart e) s = .next t ∧ creq t r.id = none ∧
      .result 16 0 (keyResult f.1.toNat f.2.toNat (rSlot r) 0 e.toNat 0 0) ∈ t.out) ∧
  (∀ (s : State) (n : BitVec 20), islandOn s 26 = true → s.ken.fills.any (fun f => f.1 == n.toNat) = true →
    (s.ken.cached.filter (fun m => m != n.toNat && m % 4096 == n.toNat % 4096)).length < 16 →
    ∃ t, exec (.kennelCacheFill n true) s = .next t ∧ (∀ f ∈ t.ken.fills, f.1 ≠ n.toNat) ∧ n.toNat ∈ t.ken.cached ∧
      (∀ q ∈ t.cip.reqs, rSlot q = n.toNat → q.filling = false) ∧ t.ken.slots = s.ken.slots) ∧
  (∀ (s u : State) (e : BitVec 6) (id : Nat) (r v : CReq), e.toNat < 32 → u = advanceEng s e.toNat →
    (ceng u e.toNat).run = some id → creq u id = some r → rUrgent r = false → r.stop = none →
    r.proc < rAad r + rMsg r → (ceng u e.toNat).ctx.length < 16 → (ceng u e.toNat).out = false →
    (((ceng u e.toNat).queue.filterMap (creq u)).filter (fun q => !q.filling)).find? rUrgent = some v →
    RequestRuns u v →
    ∃ t, exec (.suspend e) s = .next t ∧ (ceng t e.toNat).run = some v.id ∧
      (ceng t e.toNat).ctx = id :: (ceng u e.toNat).ctx) ∧
  (∀ (s : State) (e : BitVec 6) (id : Nat) (r : CReq), (ceng s e.toNat).run = some id → creq s id = some r →
    r.src = .core → r.engine = some e.toNat → r.grants = rGrants r → r.stop = none → (ceng s e.toNat).ctx = [] →
    r.id < s.cip.nextId →
    ∃ t m, exec (.cipherRequestComplete e) s = .next t ∧ creq t r.id = none ∧ .result 16 0 m ∈ t.out) ∧
  (∀ (s : State) (e : BitVec 6) (id : Nat) (r : CReq) (f : BitVec 8 × BitVec 8), (ceng s e.toNat).run = some id →
    creq s id = some r → r.stop = some f → r.src = .core → r.engine = some e.toNat → (ceng s e.toNat).ctx = [] →
    r.id < s.cip.nextId →
    ∃ t m, exec (.revokedUserStop e) s = .next t ∧ creq t r.id = none ∧ .result 16 0 m ∈ t.out) ∧
  (∀ (s : State) (e : BitVec 6), exec (.kat e true) s = .next s) ∧
  (∀ (s : State) (e : BitVec 6) (c : Instr), e.toNat < 34 → (c = .kat e false ∨ c = .engineOutOfUse e) →
    (∀ r ∈ s.cip.reqs, r.engine ≠ some e.toNat) →
    ∃ t, exec c s = .next t ∧ (ceng t e.toNat).out = true)

/-- For the request at the head of the queue that Kennel can serve and that owns its slot: GENERATE of a known kind,
and WRITE from a readable source that is no XTS key of equal halves, make an EMPTY slot LIVE with that kind, the owner
and the next generation. ERASE and FORCE_ERASE of an unused LIVE slot scrub it: EMPTY, no material, the same
generation. READ_META of the control cores writes the slot's 8 metadata bytes to memory not locked. WRAP_EXPORT of a
LIVE slot under a usable wrap slot, to writable memory, ends OK and advances the wrap counter. WRAP_IMPORT under an
unusable wrap slot ends with the fault's status and changes no slot. Each takes the request off the queue and makes
its ledger entry DONE. Formalises 09 Table 9-9; 09 Table 9-11; 09 R215; 09 R217; 09 R218; 09 R219. -/
def Obligations.KennelOperationsTakeEffect : Prop :=
  (∀ (s : State) (c : Instr) (r : KReq) (rest : List KReq) (op : Nat), KennelServes s r rest op →
    ((c = .generate none ∧ op = 2) ∨
      (c = .kennelWrite none ∧ op = 1 ∧ ∃ bs, kenRead s r (kSrc r) (kindBytes (kKind r)) = some bs ∧
        equalHalves (kKind r) (leNat bs) = false)) →
    kindBytes (kKind r) ≠ 0 → slotOwned s (kenOwner r) (r.issuer == 17) (kSlot r) = true →
    (slotGet s (kSlot r)).state = .empty → EntryOpen s r.entry →
    ∃ t, exec c s = .next t ∧ t.ken.queue = rest ∧ (slotGet t (kSlot r)).state = .live ∧
      (slotGet t (kSlot r)).kind = kKind r ∧ (slotGet t (kSlot r)).gen = nextGen (slotGet s (kSlot r)).gen ∧
      (slotGet t (kSlot r)).infra = (kenOwner r).isNone ∧ (∀ n, n ≠ kSlot r → slotGet t n = slotGet s n) ∧
      EntryDone t r.entry 0) ∧
  (∀ (s : State) (c : Instr) (r : KReq) (rest : List KReq) (op : Nat), KennelServes s r rest op →
    (c = .erase none ∧ op = 3) →
    slotOwned s (kenOwner r) (r.issuer == 17) (kSlot r) = true →
    (slotGet s (kSlot r)).state = .live → (slotGet s (kSlot r)).useCur = 0 → (slotGet s (kSlot r)).useOld = 0 →
    EntryOpen s r.entry →
    ∃ t, exec c s = .next t ∧ t.ken.queue = rest ∧ (slotGet t (kSlot r)).state = .empty ∧
      (slotGet t (kSlot r)).material = 0 ∧ (slotGet t (kSlot r)).gen = (slotGet s (kSlot r)).gen ∧
      (∀ n, n ≠ kSlot r → slotGet t n = slotGet s n) ∧ EntryDone t r.entry 0) ∧
  (∀ (s : State) (r : KReq) (rest : List KReq), KennelServes s r rest 4 →
    slotOwned s (kenOwner r) (r.issuer == 17) (kSlot r) = true → (slotGet s (kSlot r)).state = .live →
    ∃ t, exec (.forceErase none) s = .next t ∧ t.ken.queue = rest ∧ (slotGet t (kSlot r)).state = .empty ∧
      (slotGet t (kSlot r)).material = 0 ∧ (slotGet t (kSlot r)).gen = (slotGet s (kSlot r)).gen ∧
      (∀ n, n ≠ kSlot r → slotGet t n = slotGet s n) ∧
      (∀ q ∈ t.cip.reqs, rKeyed q = true → rSlot q = kSlot r → q.gen.isSome = true → q.stop.isSome = true)) ∧
  (∀ (s : State) (r : KReq) (rest : List KReq), KennelServes s r rest 5 → r.issuer = 17 →
    slotOwned s (kenOwner r) true (kSlot r) = true → inCoreRegion (kDst r) 8 = true → hbmLocked s (kDst r) 8 = false →
    EntryOpen s r.entry →
    ∃ t, exec (.readMeta none) s = .next t ∧ t.ken.queue = rest ∧
      hbmRead t (kDst r) 8 = leBytes 8 (slotMeta (slotGet s (kSlot r))) ∧
      (∀ a, a < kDst r ∨ kDst r + 8 ≤ a → hbmByte t a = hbmByte s a) ∧ t.ken.slots = s.ken.slots ∧
      EntryDone t r.entry 0) ∧
  (∀ (s : State) (r : KReq) (rest : List KReq), KennelServes s r rest 6 → r.issuer = 17 →
    slotOwned s (kenOwner r) true (kSlot r) = true → (slotGet s (kSlot r)).state = .live →
    wrapFault s (kenOwner r) (r.issuer == 17) (kWrap r) = none → inCoreRegion (kDst r) 96 = true → hbmLocked s (kDst r) 96 = false →
    EntryOpen s r.entry →
    ∃ t, exec (.wrapExport none) s = .next t ∧ t.ken.queue = rest ∧ t.ken.wrap = (s.ken.wrap + 1) % 2 ^ 52 ∧
      (∀ a, a < kDst r ∨ kDst r + 96 ≤ a → hbmByte t a = hbmByte s a) ∧ t.ken.slots = s.ken.slots ∧
      hbmRead t (kDst r) 96 = wrapBlob (slotGet s (kSlot r)) (slotGet s (kWrap r)).material (kSlot r) s.ken.wrap ∧
      EntryDone t r.entry 0) ∧
  (∀ (s : State) (r : KReq) (rest : List KReq) (f : Nat × Nat), KennelServes s r rest 7 →
    wrapFault s (kenOwner r) (r.issuer == 17) (kWrap r) = some f → EntryOpen s r.entry →
    ∃ t, exec (.wrapImport none) s = .next t ∧ t.ken.queue = rest ∧ t.ken.slots = s.ken.slots ∧
      EntryDone t r.entry (BitVec.ofNat 8 f.1)) ∧
  (∀ (s : State) (r : KReq) (rest : List KReq) (bs : List Byte) (m : Nat × Nat), KennelServes s r rest 7 →
    wrapFault s (kenOwner r) (r.issuer == 17) (kWrap r) = none → kenRead s r (kSrc r) 96 = some bs →
    ∃ t, exec (.wrapImport none) s = .next t ∧ t.ken.queue = rest ∧
      (unwrapBlob bs (slotGet s (kWrap r)).material = some m → kindBytes m.1 ≠ 0 → equalHalves m.1 m.2 = false →
        slotOwned s (kenOwner r) (r.issuer == 17) (kSlot r) = true → (slotGet s (kSlot r)).state = .empty →
        (slotGet t (kSlot r)).state = .live ∧ (slotGet t (kSlot r)).kind = m.1 ∧ (slotGet t (kSlot r)).material = m.2))

/-- GENERATE, ERASE, FORCE_ERASE, READ_META and WRAP_EXPORT of a request that does not own its slot complete with
KEY_FAULT (2), leave every slot, every byte of memory and the wrap counter as they were, and take the request off the
queue. Formalises 09 R215; 09 Table 9-11. -/
def Obligations.KennelRefusesForeignSlots : Prop :=
  ∀ (s : State) (c : Instr) (r : KReq) (rest : List KReq) (op : Nat), KennelServes s r rest op →
    ((c = .generate none ∧ op = 2 ∧ kindBytes (kKind r) ≠ 0) ∨ (c = .erase none ∧ op = 3) ∨ (c = .forceErase none ∧ op = 4) ∨
      (c = .readMeta none ∧ op = 5) ∨ (c = .wrapExport none ∧ op = 6)) →
    slotOwned s (kenOwner r) (r.issuer == 17) (kSlot r) = false → EntryOpen s r.entry →
    ∃ t, exec c s = .next t ∧ t.ken.queue = rest ∧ t.ken.slots = s.ken.slots ∧ t.ken.wrap = s.ken.wrap ∧
      SameMemory s t ∧ EntryDone t r.entry 2

/-- CIPHER_GRANT, GENERATE, ERASE and FORCE_ERASE change no lane, no Sheepdog queue, no timetable image, no forwarding
table, no stage word, no slice, no host register and no waiting command; CIPHER_GRANT changes nothing of Kennel, and
no byte of device memory while no engine runs a request. Formalises 09 R200; 09 R203; 09 R217. -/
def Obligations.CipherAndKennelKeepOtherState : Prop :=
  (∀ (s t : State) (c : Instr),
    ((∃ slot k ok, c = .cipherGrant slot k ok) ∨ (∃ req, c = .generate req) ∨ (∃ req, c = .erase req) ∨
      (∃ req, c = .forceErase req)) → exec c s = .next t →
    t.net = s.net ∧ t.shp = s.shp ∧ t.fwd = s.fwd ∧ t.stg = s.stg ∧ t.slc = s.slc ∧ t.hst = s.hst ∧ t.pending = s.pending ∧
      t.tt.cur = s.tt.cur) ∧
  (∀ (s t : State) (slot : BitVec 12) (k : BitVec 3) (ok : Bool), exec (.cipherGrant slot k ok) s = .next t →
    t.ken = s.ken ∧ ((∀ e, (ceng s e).run = none) → SameMemory s t))

/-- CHANNEL_START with START 1 and a whole CTRL word that holds no reserved encoding, on an IDLE channel whose owner
does not drain, stores CTRL: COUNT 0 completes at once with OK, else the channel is in PRECHECK. PRECHECK_DONE with
the lists read and no check failing takes the channel to ACTIVE; a bad form, or else the failing check, ends the
transfer of a channel that no FLR resets with its status and detail. DMA_GRANT on a row that has not failed, of a
group with no ready channel, counts; else it gives the next ready channel its next unit: an ACTIVE one its next chunk,
one in PRECHECK up to 8 list entries. ABORT of a HALTED channel completes it with its latched status; RETRY puts it
back in PRECHECK, or in ACTIVE where chunks are left, with its unfinished units to be issued again; CLEAR resets a
QUARANTINED channel. Formalises 10 R223; 10 R224; 10 R227; 10 R228; 10 R230; 10 R231; 10 R243. -/
def Obligations.DmaCommandsTakeEffect : Prop :=
  (∀ (s : State) (c : BitVec 12) (ctrl : BitVec 64), (chan s c.toNat).state = .idle → ctrl.getLsbD 0 = true →
    pairOk 32 ctrl.toNat = true → ctrlAltered ctrl = false →
    ownerDraining s (channelOwner s c.toNat) = false →
    ∃ t, exec (.channelStart c ctrl) s = .next t ∧ (chan t c.toNat).ctrl = ctrlTaken (chan s c.toNat).ctrl ctrl ∧
      (if (chan s c.toNat).count = 0 then (chan t c.toNat).state = .idle ∧ (chan t c.toNat).code = 0 ∧
          (chan t c.toNat).completions = (chan s c.toNat).completions + 1
        else (chan t c.toNat).state = .precheck ∧ (chan t c.toNat).owner = channelOwner s c.toNat)) ∧
  (∀ (s : State) (c : BitVec 12), (chan s c.toNat).state = .precheck → pairOk 32 (chan s c.toNat).ctrl.toNat = true →
    badForm (chan s c.toNat) = false → listLen (chan s c.toNat) false ≤ (chan s c.toNat).sRead →
    listLen (chan s c.toNat) true ≤ (chan s c.toNat).dRead →
    precheckFault s c.toNat (withRanges (chan s c.toNat)) = none →
    ∃ t, exec (.precheckDone c) s = .next t ∧ (chan t c.toNat).state = .active ∧
      (chan t c.toNat).sRanges = (withRanges (chan s c.toNat)).sRanges ∧
      (chan t c.toNat).dRanges = (withRanges (chan s c.toNat)).dRanges) ∧
  (∀ (s : State) (c : BitVec 12) (f : BitVec 8 × BitVec 8), (chan s c.toNat).state = .precheck →
    (chan s c.toNat).flr = false → pairOk 32 (chan s c.toNat).ctrl.toNat = true →
    ((badForm (chan s c.toNat) = true ∧ f = (5, 1)) ∨
      (badForm (chan s c.toNat) = false ∧ listLen (chan s c.toNat) false ≤ (chan s c.toNat).sRead ∧
        listLen (chan s c.toNat) true ≤ (chan s c.toNat).dRead ∧
        precheckFault s c.toNat (withRanges (chan s c.toNat)) = some f)) →
    ∃ t, exec (.precheckDone c) s = .next t ∧ (chan t c.toNat).state = .idle ∧ (chan t c.toNat).code = f.1 ∧
      (chan t c.toNat).detail = f.2) ∧
  (∀ (s : State) (slot : BitVec 12) (k : BitVec 2), rowBad (atSlot s slot) true = false →
    rowDma (schedRow s slot.toNat) k.toNat ≠ 0xFF →
    pickChannel (atSlot s slot) (rowDma (schedRow s slot.toNat) k.toNat) = none →
    ∃ t, exec (.dmaGrant slot k true) s = .next t ∧ ctrGet t 0xC0D0 0x0D 0 = (ctrGet s 0xC0D0 0x0D 0 + 1) % 2 ^ 64 ∧
      t.dma = s.dma) ∧
  (∀ (s : State) (slot : BitVec 12) (k : BitVec 2) (c : Nat), rowBad (atSlot s slot) true = false →
    rowDma (schedRow s slot.toNat) k.toNat ≠ 0xFF →
    pickChannel (atSlot s slot) (rowDma (schedRow s slot.toNat) k.toNat) = some c →
    pairOk 32 (chan s c).ctrl.toNat = true → (∀ u ∈ (chan s c).units, u.fail ≠ some (0, false)) →
    ((chan s c).state = .active →
      ∃ t, exec (.dmaGrant slot k true) s = .next t ∧ (chan t c).nextUnit = (chan s c).nextUnit + 1 ∧
        (chan t c).next = (chan s c).next + (chunkAt (chan s c) (chan s c).next).2) ∧
    ((chan s c).state = .precheck → (chan s c).sAsked < listLen (chan s c) false →
      ∃ t, exec (.dmaGrant slot k true) s = .next t ∧ (chan t c).nextUnit = (chan s c).nextUnit + 1 ∧
        (chan t c).sAsked = (chan s c).sAsked + min 8 (listLen (chan s c) false - (chan s c).sAsked))) ∧
  (∀ (s : State) (c : BitVec 12), (chan s c.toNat).state = .halted → (chan s c.toNat).flr = false →
    ∃ t, exec (.dmaAbort c) s = .next t ∧ (chan t c.toNat).state = .idle ∧
      (chan t c.toNat).code = (chan s c.toNat).code ∧ (chan t c.toNat).detail = (chan s c.toNat).detail ∧
      (chan t c.toNat).completions = (chan s c.toNat).completions + 1) ∧
  (∀ (s : State) (c : BitVec 12), (chan s c.toNat).state = .halted →
    ((chan s c.toNat).inPre = true ∨
      ((chan s c.toNat).xtsRes = none ∧ (chan s c.toNat).fin ≠ sideLen (chan s c.toNat))) →
    ∃ t, exec (.dmaRetry c) s = .next t ∧
      (chan t c.toNat).state = (if (chan s c.toNat).inPre then .precheck else .active) ∧
      (chan t c.toNat).units = (chan s c.toNat).units.map
        (fun u => if u.done || listKept u then u else { u with fail := some (0, false) })) ∧
  (∀ (s : State) (c : BitVec 12), (chan s c.toNat).state = .quarantined →
    ∃ t, exec (.dmaClear c) s = .next t ∧ chan t c.toNat = resetChan)

/-- A CTRL write while the channel is in PRECHECK, ACTIVE, HALTED or STOPPING, ABORT or RETRY outside HALTED, and
CLEAR outside QUARANTINED change nothing of any channel but the channel's WRITE_IGNORED, which reads 1. Formalises 10
R226; 10 R227; 10 R243. -/
def Obligations.DmaWritesIgnoredWhenBusy : Prop :=
  ∀ (s : State) (c : BitVec 12) (ctrl : BitVec 64) (i : Instr),
    ((i = .channelStart c ctrl ∧ ((chan s c.toNat).state = .precheck ∨ (chan s c.toNat).state = .active ∨
        (chan s c.toNat).state = .halted ∨ (chan s c.toNat).state = .stopping)) ∨
      ((i = .dmaAbort c ∨ i = .dmaRetry c) ∧ (chan s c.toNat).state ≠ .halted) ∨
      (i = .dmaClear c ∧ (chan s c.toNat).state ≠ .quarantined)) →
    ∃ t, exec i s = .next t ∧ chan t c.toNat = { chan s c.toNat with ignored := true } ∧
      (∀ n, n ≠ c.toNat → chan t n = chan s n) ∧ SameMemory s t ∧ t.hst = s.hst ∧ t.jx = s.jx ∧ t.pending = s.pending

/-- CHUNK_DONE of the only unit of an ACTIVE FILL channel without a transform, whose chunk lies in one piece of device
memory that no lock covers, writes the fill pattern there (byte i of the chunk is the pattern's byte (lo + i) mod 8)
and leaves every other byte of memory as it was. CHUNK_DONE of the next list read of a channel in PRECHECK counts the
entries read and takes the unit out. CHUNK_DONE that reports an uncorrectable read of device memory halts an ACTIVE
channel with BUS_ABORT (4), detail MEM_UNCORRECTABLE (0x16). CHUNK_DONE of a unit that is not there changes nothing.
Formalises 10 R225; 10 R234; 10 R235; 10 R242. -/
def Obligations.DmaChunksMoveBytes : Prop :=
  (∀ (s : State) (c : BitVec 12) (u : DUnit) (a : Nat), (chan s c.toNat).units = [u] → u.kind = 0 → u.done = false →
    u.fail = none → u.reads = [] → (chan s c.toNat).state = .active → isFill (chan s c.toNat) = true →
    isCompare (chan s c.toNat) = false → transforms (chan s c.toNat) = false → cDstSpace (chan s c.toNat) = 2 →
    (∀ q, (chan s c.toNat).route ≠ .fetch q) → (chan s c.toNat).xtsRes = none → dstPieces (chan s c.toNat) u.lo u.len = [(a, u.len)] →
    hbmLocked s a u.len = false →
    ∃ t, exec (.chunkDone c u.id true) s = .next t ∧
      hbmRead t a u.len = (List.range u.len).map
        (fun i => BitVec.ofNat 8 ((chan s c.toNat).fill.toNat / 2 ^ (8 * ((u.lo + i) % 8)))) ∧
      ∀ b, b < a ∨ a + u.len ≤ b → hbmByte t b = hbmByte s b) ∧
  (∀ (s : State) (c : BitVec 12) (u : DUnit), (chan s c.toNat).units = [u] → u.done = false → u.fail = none →
    (∀ r ∈ u.reads, r.data.isSome = true) → (chan s c.toNat).state = .precheck →
    ((u.kind = 1 ∧ u.pos = (chan s c.toNat).sRead) ∨ (u.kind = 2 ∧ u.pos = (chan s c.toNat).dRead)) →
    ∃ t, exec (.chunkDone c u.id true) s = .next t ∧ (chan t c.toNat).units = [] ∧
      (chan t c.toNat).sRead + (chan t c.toNat).dRead =
        (chan s c.toNat).sRead + (chan s c.toNat).dRead + u.len / 16 ∧ SameMemory s t) ∧
  (∀ (s : State) (c : BitVec 12) (u : DUnit), (chan s c.toNat).units = [u] → u.kind = 0 → u.done = false →
    u.fail = none → (∀ r ∈ u.reads, r.data.isSome = true) → (chan s c.toNat).state = .active →
    u.staged = false → (∃ r ∈ u.reads, sideSpace (chan s c.toNat) r.dst = 2) →
    ∃ t, exec (.chunkDone c u.id false) s = .next t ∧ (chan t c.toNat).state = .halted ∧ (chan t c.toNat).code = 4 ∧
      (chan t c.toNat).detail = 0x16) ∧
  (∀ (s : State) (c : BitVec 12) (n : Nat) (memOk : Bool), (∀ u ∈ (chan s c.toNat).units, u.id ≠ n) →
    exec (.chunkDone c n memOk) s = .next s)

/-- CHANNEL_START, PRECHECK_DONE, CLEAR, and RETRY of a channel that keeps no result of its cipher request change no
byte of device memory; ABORT changes none but destination bytes beyond DONE_BYTES of a transfer whose checks had
passed (10 R240: those are undefined; which bytes lie beyond in processing order is the model's reading, assumption
200). Each of the five changes no other channel, no lane, no pipeline item, no Sheepdog queue, no timetable register,
no forwarding table, no stage word, no Kennel slot and no waiting command. Formalises 10 R226; 10 R228; 10 R243. -/
def Obligations.DmaCommandsKeepOtherState : Prop :=
  ∀ (s t : State) (c : BitVec 12) (i : Instr),
    ((∃ ctrl, i = .channelStart c ctrl) ∨ i = .precheckDone c ∨ i = .dmaAbort c ∨ i = .dmaRetry c ∨ i = .dmaClear c) →
    (i = .dmaRetry c → (chan s c.toNat).xtsRes = none) → exec i s = .next t →
    (∀ n, n ≠ c.toNat → chan t n = chan s n) ∧ (i ≠ .dmaAbort c → SameMemory s t) ∧
      (∀ a, (∀ p ∈ beyondDone (chan s c.toNat) (chan s c.toNat).done.toNat, a < p.1 ∨ p.1 + p.2 ≤ a) →
        hbmByte t a = hbmByte s a) ∧
      t.net = s.net ∧ t.pipe = s.pipe ∧ t.shp = s.shp ∧
      t.tt = s.tt ∧ t.fwd = s.fwd ∧ t.stg = s.stg ∧ t.ken = s.ken ∧ t.pending = s.pending

/-- With the four links of the machine and the main domain on: LINK_TRAINED of a present link out of PERST brings it
up at the lower of the partner's and the allowed rate; DL_DOWN of a link that is up and PERST# low take its rate and
width to 0; L0S_ENTRY and L1_ENTRY put a link that is up, in L0, and enabled for it (L0s outside Flit mode, L1 without
outstanding reads) in L0s and L1; L1_EXIT brings a sleeping link back to L0; L1_2_ENTRY of a link in L1 with L1.2
enabled (for PCI-PM where every function is in D3hot, else for ASPM) and CLKREQ# not asserted sends the LTR message
and puts the link in L1.2 when the reported latency is at or above the threshold, else in L1.1 where that is enabled.
Formalises 11 R249; 11 R250; 11 R264; 11 R265; 11 R276. -/
def Obligations.HostLinksTakeEffect : Prop :=
  (∀ (s : State) (k : BitVec 2) (rate : BitVec 3) (w : Nat) (flit : Bool), s.hst.links.length = 4 →
    mainOn s = true → linkPresent s k.toNat = true → (linkGet s k.toNat).perst = true → (linkGet s k.toNat).state = 1 →
    1 ≤ rate.toNat → rate.toNat ≤ 6 → 1 ≤ objGet s (0xA100 + k.toNat) 0x05 0 → 1 ≤ w →
    ∃ t, exec (.linkTrained k rate w flit) s = .next t ∧ (linkGet t k.toNat).state = 3 ∧
      (linkGet t k.toNat).rate = min rate.toNat (objGet s (0xA100 + k.toNat) 0x05 0) ∧
      (linkGet t k.toNat).pm = .l0 ∧ (linkGet t k.toNat).width ∣ 16 ∧ (linkGet t k.toNat).width ≤ w) ∧
  (∀ (s : State) (k : BitVec 2), s.hst.links.length = 4 → (linkGet s k.toNat).state = 3 →
    ∃ t, exec (.dlDown k) s = .next t ∧ (linkGet t k.toNat).state = 1 ∧ (linkGet t k.toNat).rate = 0 ∧
      (linkGet t k.toNat).width = 0) ∧
  (∀ (s : State) (k : BitVec 2), s.hst.links.length = 4 → mainOn s = true → linkPresent s k.toNat = true →
    (linkGet s k.toNat).perst = true →
    ∃ t, exec (.perstAssert k false) s = .next t ∧ (linkGet t k.toNat).perst = false ∧ (linkGet t k.toNat).state = 1) ∧
  (∀ (s : State) (k : BitVec 2), s.hst.links.length = 4 → (linkGet s k.toNat).state = 3 → (linkGet s k.toNat).pm = .l0 →
    (linkGet s k.toNat).flit = false → aspm s 0 = true →
    ∃ t, exec (.l0sEntry k) s = .next t ∧ (linkGet t k.toNat).pm = .l0s) ∧
  (∀ (s : State) (k : BitVec 2), s.hst.links.length = 4 → (linkGet s k.toNat).state = 3 → (linkGet s k.toNat).pm = .l0 →
    aspm s 1 = true → (∀ r ∈ s.hst.reads, r.link = k.toNat → r.quar = true) →
    ∃ t, exec (.l1Entry k) s = .next t ∧ (linkGet t k.toNat).pm = .l1) ∧
  (∀ (s : State) (k : BitVec 2), s.hst.links.length = 4 →
    ∃ t, exec (.l1Exit k) s = .next t ∧ (linkGet t k.toNat).pm = .l0) ∧
  (∀ (s : State) (k : BitVec 2) (up : Nat), s.hst.links.length = 4 → (linkGet s k.toNat).state = 3 →
    (linkGet s k.toNat).pm = .l1 → up = (if pciPm s k.toNat then 0 else 2) →
    (cfgGet (fnGet s k.toNat 0) 0x1D8).getLsbD up = true →
    ∃ t, exec (.l12Entry k false) s = .next t ∧ .ltr k.toNat (objGet s (0xA100 + k.toNat) 0x09 0) ∈ t.out ∧
      (linkGet t k.toNat).pm = (if ltrNs (fld (cfgGet (fnGet s k.toNat 0) 0x1D8) 16 10)
          (fld (cfgGet (fnGet s k.toNat 0) 0x1D8) 29 3) ≤ ltrNs (objGet s (0xA100 + k.toNat) 0x09 0 % 1024)
            (objGet s (0xA100 + k.toNat) 0x09 0 / 1024 % 8) then .l12
        else if (cfgGet (fnGet s k.toNat 0) 0x1D8).getLsbD (up + 1) then .l11 else .l1))

/-- BUS_MASTER_ENABLE_SET of a present DISABLED function of a link that is up, in no FLR, enables it;
BUS_MASTER_ENABLE_CLEAR of an ENABLED one puts it in DRAINING with bus mastering off; FUNCTION_DRAIN_END of a draining
function with idle channels and no open entry ends in DISABLED, or ENABLED with an enable pending; INITIATE_FLR of a
present VF with no slice begins its FLR, in DRAINING unless it is DISABLED, and FLR_END of a settled one ends it with
the MSI-X table cleared; D_STATE_CHANGE sets D3hot or D0; VF_ENABLE of PF1 shows VFs up to the limit; an unsupported
read of a BAR is answered Unsupported Request, an unsupported write is logged so in AER, and a legal access without
poison changes nothing. Formalises 11 R256; 11 R263; 11 R272; 11 R273; 11 R274; 11 R275; 11 R277. -/
def Obligations.HostFunctionsTakeEffect : Prop :=
  (∀ (s : State) (k : BitVec 2) (fn : BitVec 11), fnPresent s k.toNat fn.toNat = true →
    (fnGet s k.toNat fn.toNat).state = .disabled → (fnGet s k.toNat fn.toNat).drain = .bme →
    (linkGet s k.toNat).state = 3 → fnBme (fnGet s k.toNat fn.toNat) = false → s.dma.chans = [] →
    ∃ t, exec (.busMasterEnableSet k fn) s = .next t ∧ (fnGet t k.toNat fn.toNat).state = .enabled ∧
      fnBme (fnGet t k.toNat fn.toNat) = true) ∧
  (∀ (s : State) (k : BitVec 2) (fn : BitVec 11), fnPresent s k.toNat fn.toNat = true →
    (fnGet s k.toNat fn.toNat).state = .enabled → fnBme (fnGet s k.toNat fn.toNat) = true → s.dma.chans = [] →
    ∃ t, exec (.busMasterEnableClear k fn) s = .next t ∧ (fnGet t k.toNat fn.toNat).state = .draining ∧
      fnBme (fnGet t k.toNat fn.toNat) = false) ∧
  (∀ (s : State) (k : BitVec 2) (fn : BitVec 11), (fnGet s k.toNat fn.toNat).state = .draining →
    (fnGet s k.toNat fn.toNat).drain = .bme → s.dma.chans = [] → s.led.entries = [] →
    ∃ t, exec (.functionDrainEnd k fn) s = .next t ∧ (fnGet t k.toNat fn.toNat).state =
      (if (fnGet s k.toNat fn.toNat).pending then .enabled else .disabled)) ∧
  (∀ (s : State) (k : BitVec 2) (fn : BitVec 11), 2 ≤ fn.toNat → fnPresent s k.toNat fn.toNat = true →
    s.dma.chans = [] → boundSlices s k.toNat fn.toNat = [] →
    ∃ t, exec (.initiateFlr k fn) s = .next t ∧ (fnGet t k.toNat fn.toNat).state =
        (if (fnGet s k.toNat fn.toNat).state = .disabled then .disabled else .draining) ∧
      (fnGet t k.toNat fn.toNat).drain = .flr) ∧
  (∀ (s : State) (k : BitVec 2) (fn : BitVec 11), fn.toNat ≠ 0 →
    (fnGet s k.toNat fn.toNat).drain = .flr → s.dma.chans = [] → s.led.entries = [] →
    boundSlices s k.toNat fn.toNat = [] →
    ∃ t, exec (.flrEnd k fn) s = .next t ∧ (fnGet t k.toNat fn.toNat).msix = [] ∧
      (fnGet t k.toNat fn.toNat).state = (if (fnGet s k.toNat fn.toNat).pending then .enabled else .disabled)) ∧
  (∀ (s : State) (k : BitVec 2) (fn : BitVec 11) (d3 : Bool), fnPresent s k.toNat fn.toNat = true → s.dma.chans = [] →
    ∃ t, exec (.dStateChange k fn d3) s = .next t ∧ (fnGet t k.toNat fn.toNat).d3 = d3) ∧
  (∀ (s : State) (k : BitVec 2) (n : BitVec 11), fnPresent s k.toNat 1 = true → vfEnabled s k.toNat = false →
    n.toNat ≤ objGet s (0xA100 + k.toNat) 0x06 0 →
    ∃ t, exec (.vfEnable k true n) s = .next t ∧ vfEnabled t k.toNat = true ∧ numVfs t k.toNat = n.toNat) ∧
  (∀ (s : State) (k : BitVec 2) (fn : BitVec 11) (off : BitVec 32) (size : Nat) (p : Bool), fnPresent s k.toNat fn.toNat = true →
    ((size ≠ 4 ∧ size ≠ 8) ∨ off.toNat % size ≠ 0 ∨ memSpaceOn s k.toNat fn.toNat = false) →
    (∃ t, exec (.unsupportedBarAccess k fn off size false p) s = .next t ∧ t.out = s.out ++ [.unsupported k.toNat fn.toNat]) ∧
    exec (.unsupportedBarAccess k fn off size true p) s = .next (aerLog s k.toNat fn.toNat 20)) ∧
  (∀ (s : State) (k : BitVec 2) (fn : BitVec 11) (off : BitVec 32) (size : Nat) (wr : Bool),
    (size = 4 ∨ size = 8) → off.toNat % size = 0 → memSpaceOn s k.toNat fn.toNat = true →
    exec (.unsupportedBarAccess k fn off size wr false) s = .next s)

/-- A shown doorbell of an open and enabled queue pair takes a tail below the ring's entry count that does not pass
the fetch head, and a head below the completion ring's count that does not pass the completions written; any other
value counts as refused and the pointers stay. A device that is neither SINGLE nor ACTIVE refuses the write and counts
it, and the link wakes all the same. FETCH_START of a queue pair with nothing new to fetch changes nothing, and of one
with descriptors, room everywhere and an idle local channel starts the channel for them. HEAD_POINTER_WRITE_BACK of a
fetch of one descriptor, with room, nothing held and its address translated, writes the new head and accepts one host
item. MSIX_SEND of a pending vector that may go sends it and clears its pending bit. Formalises 11 R258; 11 R259; 13
R307; 13 R308; 14 R333. -/
def Obligations.DoorbellsAndFetch : Prop :=
  (∀ (s : State) (k : BitVec 2) (page : BitVec 15) (q : BitVec 6) (v : BitVec 32) (n : Nat),
    doorbellQp s k.toNat page.toNat q.toNat = some n → doorbellsClosed s = false →
    (∃ t, exec (.sqTail k page q v) s = .next t ∧ (qpGet t n).sqTail =
      (if doorbellOpen s n = true ∧ qpEnabled s n = true ∧ v.toNat < qpObj s n 0x03 ∧
          (v.toNat + qpObj s n 0x03 - (qpGet s n).sqTail) % qpObj s n 0x03 ≤
            ((qpGet s n).head + qpObj s n 0x03 - 1 - (qpGet s n).sqTail) % qpObj s n 0x03
        then v.toNat else (qpGet s n).sqTail)) ∧
    (∃ t, exec (.cqHead k page q v) s = .next t ∧ (qpGet t n).cqHead =
      (if doorbellOpen s n = true ∧ qpEnabled s n = true ∧ v.toNat < qpObj s n 0x05 ∧
          (v.toNat + qpObj s n 0x05 - (qpGet s n).cqHead) % qpObj s n 0x05 ≤ (qpGet s n).unread
        then v.toNat else (qpGet s n).cqHead))) ∧
  (∀ (s : State) (k : BitVec 2) (page : BitVec 15) (q : BitVec 6) (v : BitVec 32) (n : Nat),
    doorbellQp s k.toNat page.toNat q.toNat = some n → doorbellsClosed s = true →
    exec (.sqTail k page q v) s = .next (count (wakeLink s k.toNat) 0xC200 0x0E) ∧
      exec (.cqHead k page q v) s = .next (count (wakeLink s k.toNat) 0xC200 0x0E)) ∧
  (∀ (s : State) (qp : Nat), (qpGet s qp).sqTail = (qpGet s qp).head → exec (.fetchStart qp) s = .next s) ∧
  (∀ (s : State) (qp c sl : Nat), fetchChannel s qp = some c → qpOwner qp = some sl → mayFetch s qp = true →
    (qpGet s qp).stuck = false → (qpGet s qp).asked = 0 → (chan s c).state = .idle →
    (qpGet s qp).head < (qpGet s qp).sqTail → (qpGet s qp).sqTail < qpObj s qp 0x03 → qpObj s qp 0x03 ≤ 65536 →
    0 < quotaRoom s sl qp → 0 < hostRoom s → 0 < freePositions s qp →
    ∃ t, exec (.fetchStart qp) s = .next t ∧ (chan t c).state = .precheck ∧ (chan t c).route = .fetch qp ∧
      1 ≤ (qpGet t qp).asked ∧ (qpGet t qp).asked ≤ (qpGet s qp).sqTail - (qpGet s qp).head ∧
      (qpGet t qp).asked ≤ 32) ∧
  (∀ (s : State) (qp : Nat) (d : List Byte), (qpGet s qp).got = some d → (qpGet s qp).asked = 1 →
    s.pair.fence = false → mayFetch s qp = true → mayLeave s (qpGet s qp).gotBeat = true → deltaRoom s 36 = true →
    1 ≤ hostRoom s → (∀ sl, qpOwner qp = some sl → 1 ≤ quotaRoom s sl qp) →
    (hostPost s (qpOwner qp) ((qpFn s qp).1, (qpFn s qp).2, ownerPasid s (qpOwner qp)) (qpObj s qp 0x06)
      (leBytes 8 (((qpGet s qp).head + 1) % qpObj s qp 0x03))).1 = true →
    ∃ t e i, exec (.headPointerWriteBack qp) s = .next t ∧ (qpGet t qp).asked = 0 ∧ (qpGet t qp).got = none ∧
      (qpGet t qp).head = ((qpGet s qp).head + 1) % qpObj s qp 0x03 ∧ ledGet t i = some e ∧ e.kind = .host ∧
      e.queue = qpOrd s qp ∧ e.state = .accepted) ∧
  (∀ (s : State) (k : BitVec 2) (fn v : BitVec 11), v.toNat ∈ (fnGet s k.toNat fn.toNat).pba →
    msixReady s k.toNat fn.toNat v.toNat = true → s.pair.fence = false →
    ∃ t, exec (.msixSend k fn v) s = .next t ∧ .msix k.toNat fn.toNat v.toNat ∈ t.out ∧
      (fnGet t k.toNat fn.toNat).pba = (fnGet s k.toNat fn.toNat).pba.erase v.toNat)

/-- TRANSLATION_COMPLETION and PAGE_REQUEST_RESPONSE take the request they answer out of the waiting ones when no
channel waits. INVALIDATION_REQUEST takes the range's entries out of the cache, and is answered at once when no read
of the function is outstanding. COMPLETION_RECEIVED of an outstanding read takes it out; of an unknown tag counts an
unexpected completion. COMPLETION_TIMEOUT of a read older than T quarantines its tag; TAG_QUARANTINE_END of a tag
quarantined 4T ago frees it. Formalises 11 R261; 11 R262; 11 R270; 11 R271. -/
def Obligations.HostTranslationsAndCompletions : Prop :=
  (∀ (s : State) (tag : Nat) (ok : Bool) (addr : BitVec 64) (h : HHold), s.hst.holds = [h] → h.tag = tag →
    h.pri = false → s.dma.chans = [] →
    ∃ t, exec (.translationCompletion tag ok addr) s = .next t ∧
      (if ok then t.hst.holds = [] ∧ ⟨h.link, h.fn, h.pasid, h.page, addr.toNat / 4096⟩ ∈ t.hst.atc
        else ∀ x ∈ t.hst.holds, x.pri = true)) ∧
  (∀ (s : State) (tag : Nat) (ok : Bool) (h : HHold), s.hst.holds = [h] → h.tag = tag → h.pri = true → s.dma.chans = [] →
    ∃ t, exec (.pageRequestResponse tag ok) s = .next t ∧ t.hst.holds = []) ∧
  (∀ (s : State) (k : BitVec 2) (fn : BitVec 11) (addr : BitVec 64) (n : Nat), s.hst.invals = [] → s.hst.reads = [] →
    ∃ t, exec (.invalidationRequest k fn none addr n) s = .next t ∧ t.hst.invals = [] ∧
      .invalidated k.toNat fn.toNat ∈ t.out ∧
      ∀ e ∈ t.hst.atc, e.link = k.toNat → e.fn = fn.toNat → e.page < addr.toNat / 4096 ∨ addr.toNat / 4096 + n ≤ e.page) ∧
  (∀ (s : State) (tag : BitVec 14) (k : BitVec 2) (p : Bool) (st : BitVec 3) (d : List Byte) (r : HRead),
    s.hst.reads = [r] → r.link = k.toNat → r.tag = tag.toNat → s.dma.chans = [] →
    ∃ t, exec (.completionReceived tag k p st d) s = .next t ∧ t.hst.reads = []) ∧
  (∀ (s : State) (tag : BitVec 14) (k : BitVec 2) (p : Bool) (st : BitVec 3) (d : List Byte),
    (∀ r ∈ s.hst.reads, r.link = k.toNat → r.tag ≠ tag.toNat) →
    ∃ t, exec (.completionReceived tag k p st d) s = .next t ∧
      ctrGet t (0xC0E0 + k.toNat) 0x02 0 = (ctrGet s (0xC0E0 + k.toNat) 0x02 0 + 1) % 2 ^ 64 ∧ t.dma = s.dma) ∧
  (∀ (s : State) (tag : BitVec 14) (k : BitVec 2) (r : HRead), s.hst.reads = [r] → r.link = k.toNat → r.tag = tag.toNat →
    r.quar = false → r.since + timeoutSlots s k.toNat r.fn ≤ now s →
    ∃ t, exec (.completionTimeout k tag) s = .next t ∧ t.hst.reads.any (fun x => x.tag == tag.toNat && x.quar) = true ∧
      ctrGet t (0xC0E0 + k.toNat) 0x01 0 = (ctrGet s (0xC0E0 + k.toNat) 0x01 0 + 1) % 2 ^ 64) ∧
  (∀ (s : State) (tag : BitVec 14) (k : BitVec 2) (r : HRead), s.hst.reads = [r] → r.link = k.toNat → r.tag = tag.toNat →
    r.quar = true → r.from_ + 4 * timeoutSlots s k.toNat r.fn ≤ now s → s.dma.chans = [] →
    ∃ t, exec (.tagQuarantineEnd k tag) s = .next t ∧ t.hst.reads = [])

/-- LINK_TRAINED, L0S_ENTRY, L1_ENTRY, L1_EXIT, L1_2_ENTRY, SQ_TAIL, CQ_HEAD, MSIX_SEND, UNSUPPORTED_BAR_ACCESS,
INVALIDATION_REQUEST, BUS_MASTER_ENABLE_SET with no DMA channel in use and FETCH_START change no byte of device
memory, no lane, pipeline item, Sheepdog queue, timetable register, forwarding table, stage word, Jutex state, Kennel
slot or waiting command. Formalises 11 R250; 11 R258; 11 R259; 11 R264. -/
def Obligations.HostCommandsKeepOtherState : Prop :=
  ∀ (s t : State) (c : Instr),
    ((∃ k r w f, c = .linkTrained k r w f) ∨ (∃ k, c = .l0sEntry k ∨ c = .l1Entry k ∨ c = .l1Exit k ∨ ∃ q, c = .l12Entry k q) ∨
      (∃ k p q v, c = .sqTail k p q v ∨ c = .cqHead k p q v) ∨ (∃ k fn v, c = .msixSend k fn v) ∨
      (∃ k fn o n w p, c = .unsupportedBarAccess k fn o n w p) ∨ (∃ k fn p a n, c = .invalidationRequest k fn p a n) ∨
      (∃ qp, c = .fetchStart qp) ∨ (s.dma.chans = [] ∧ ∃ k fn, c = .busMasterEnableSet k fn)) →
    exec c s = .next t →
    SameMemory s t ∧ t.net = s.net ∧ t.pipe = s.pipe ∧ t.shp = s.shp ∧ t.tt = s.tt ∧ t.fwd = s.fwd ∧ t.stg = s.stg ∧
      t.jx = s.jx ∧ t.ken = s.ken ∧ t.pending = s.pending

/-- ENABLE of a DISABLED slice enables it; RESET of an ENABLED, FREEZING or FROZEN slice puts it in DRAINING; FREEZE
of an ENABLED one in FREEZING; RESUME of a FROZEN one in ENABLED; RESTORE of a DISABLED one in RESTORING; DISABLE of a
DRAINING one clears its pending enable; SAVE of a FROZEN one writes the saved state when the migration key allows it,
the range lies in the control-core region and Kennel takes the exports of its live keys, and reads BUSY (1) without
such a key. Each reads cmd_result OK (0) where it acts. FREEZE_COMPLETE of a FREEZING slice with nothing in flight
freezes it; FREEZE_TIMEOUT past freeze_timeout with work in flight goes back to ENABLED with BUSY; SLICE_ZERO of a
drained DRAINING slice marks it zeroed; RESET_SEQUENCE_END then ends in DISABLED, or in ENABLED with an enable
pending. Formalises 12 R284 Table 12-1; 12 R285; 12 R287; 12 R288; 12 R290; 12 R292. -/
def Obligations.SliceCommandsTakeEffect : Prop :=
  (∀ (s : State) (n : BitVec 14), (slice s n.toNat).state = .disabled →
    ∃ t, exec (.sliceEnable n) s = .next t ∧ (slice t n.toNat).state = .enabled ∧ (slice t n.toNat).result = 0) ∧
  (∀ (s : State) (n : BitVec 14), (slice s n.toNat).state = .draining →
    ∃ t, exec (.sliceEnable n) s = .next t ∧ (slice t n.toNat).state = .draining ∧ (slice t n.toNat).pending = true ∧
      (slice t n.toNat).result = 0) ∧
  (∀ (s : State) (n : BitVec 14), ((slice s n.toNat).state = .enabled ∨ (slice s n.toNat).state = .freezing ∨
      (slice s n.toNat).state = .frozen) →
    ∃ t, exec (.sliceReset n) s = .next t ∧ (slice t n.toNat).state = .draining ∧ (slice t n.toNat).zeroed = false ∧
      (slice t n.toNat).result = 0) ∧
  (∀ (s : State) (n : BitVec 14), (slice s n.toNat).state = .enabled →
    ∃ t, exec (.sliceFreeze n) s = .next t ∧ (slice t n.toNat).state = .freezing ∧ (slice t n.toNat).result = 0 ∧
      (slice t n.toNat).since = now s) ∧
  (∀ (s : State) (n : BitVec 14), (slice s n.toNat).state = .frozen →
    ∃ t, exec (.sliceResume n) s = .next t ∧ (slice t n.toNat).state = .enabled ∧ (slice t n.toNat).result = 0) ∧
  (∀ (s : State) (n : BitVec 14), (slice s n.toNat).state = .disabled →
    ∃ t, exec (.sliceRestore n) s = .next t ∧ (slice t n.toNat).state = .restoring ∧ (slice t n.toNat).result = 0) ∧
  (∀ (s : State) (n : BitVec 14), (slice s n.toNat).state = .draining →
    ∃ t, exec (.sliceDisable n) s = .next t ∧ (slice t n.toNat).state = .draining ∧ (slice t n.toNat).pending = false ∧
      (slice t n.toNat).result = 0) ∧
  (∀ (s : State) (n : BitVec 14), (slice s n.toNat).state = .frozen →
    ∃ t, exec (.sliceSave n) s = .next t ∧ (slice t n.toNat).state = .frozen ∧
      ((slice t n.toNat).result = 0 ∨ (slice t n.toNat).result = 1) ∧
      (migSlotOk s n.toNat = false → (slice t n.toNat).result = 1 ∧ SameMemory s t) ∧
      (∀ len, len = 64 + 64 * objGet s 0xB001 0x01 n.toNat + 128 * (sliceChannels s n.toNat).length +
          100 * (liveSlots s n.toNat).length + 16 * (saveObjects s (sliceQps n.toNat)).length + 16 →
        (liveSlots s n.toNat = [] ∨ (recording s = false ∧ islandTakes s 26 = true ∧ s.pwr.hold = none ∧ mainOn s = true ∧
          s.led.entries.length + (liveSlots s n.toNat).length < 262144)) →
        migSlotOk s n.toNat = true → s.hbm.locks = [] → inCoreRegion (objGet s 0xB002 0x02 n.toNat) len = true →
        (slice t n.toNat).result = 0 ∧ (slice t n.toNat).saveLen = len)) ∧
  (∀ (s : State) (n : BitVec 14), (slice s n.toNat).state = .freezing → inflight s n.toNat = 0 →
    ∃ t, exec (.freezeComplete n) s = .next t ∧ (slice t n.toNat).state = .frozen) ∧
  (∀ (s : State) (n : BitVec 14), (slice s n.toNat).state = .freezing → inflight s n.toNat ≠ 0 →
    (slice s n.toNat).since + objGet s 0xB002 0x06 n.toNat * 1250000 ≤ now s →
    ∃ t, exec (.freezeTimeout n) s = .next t ∧ (slice t n.toNat).state = .enabled ∧ (slice t n.toNat).result = 1) ∧
  (∀ (s : State) (n : BitVec 14), (slice s n.toNat).state = .draining → inflight s n.toNat = 0 →
    (slice s n.toNat).zeroed = false →
    ∃ t, exec (.sliceZero n) s = .next t ∧ (slice t n.toNat).zeroed = true ∧ (slice t n.toNat).state = .draining) ∧
  (∀ (s : State) (n : BitVec 14), (slice s n.toNat).state = .draining → (slice s n.toNat).zeroed = true →
    ∃ t, exec (.resetSequenceEnd n) s = .next t ∧ (slice t n.toNat).state =
      (if (slice s n.toNat).pending then .enabled else .disabled) ∧ (slice t n.toNat).pending = false)

/-- SLICE_ITEM_RETIRE of a host item of a DRAINING slice that is next in its queue and whose operations have stopped
takes its entry out of the ledger and counts it in the queue pair's reset report. RESTORE_DONE of a RESTORING slice
without a usable migration key names TAG (1) in restore_result; a saved state that passes the checks and holds no key
leaves the slice FROZEN with restore_result OK (0), and one that fails them drains it with the failing check in
restore_result; outside RESTORING it changes nothing. Formalises 12 R289; 12 R294. -/
def Obligations.SliceItemsAndRestore : Prop :=
  (∀ (s : State) (i : BitVec 18) (e : LedEntry), ledGet s i.toNat = some e → e.kind = .host → e.infra = false →
    (slice s e.slice).state = .draining → opsStopped s i.toNat = true → isDue s e = true →
    ∃ t, exec (.sliceItemRetire i) s = .next t ∧ ledGet t i.toNat = none ∧
      (report t (qpKey e.queue)).2 = (report s (qpKey e.queue)).2 + 1) ∧
  (∀ (s : State) (n : BitVec 14), (slice s n.toNat).state = .restoring → migSlotOk s n.toNat = false →
    ∃ t, exec (.restoreDone n) s = .next t ∧ (slice t n.toNat).restore = 1 ∧ (slice t n.toNat).state = .draining) ∧
  (∀ (s : State) (n : BitVec 14), (slice s n.toNat).state = .restoring →
    ∃ t, exec (.restoreDone n) s = .next t ∧ ((slice t n.toNat).state = .frozen ∧ (slice t n.toNat).restore = 0 ∨
      (slice t n.toNat).state = .draining ∧ 1 ≤ (slice t n.toNat).restore ∧ (slice t n.toNat).restore ≤ 5)) ∧
  (∀ (s : State) (n : BitVec 14) (a len : Nat) (bs : List Byte), (slice s n.toNat).state = .restoring →
    a = objGet s 0xB002 0x04 n.toNat → len = leNat (hbmRead s (a + 24) 4) → a + len ≤ hbmSize → bs = hbmRead s a len →
    ∃ t, exec (.restoreDone n) s = .next t ∧
      (match restoreFault s n.toNat bs with
        | some r => (slice t n.toNat).state = .draining ∧ (slice t n.toNat).restore = r
        | none => leNat (bytesAt bs 18 2) = 0 → (slice t n.toNat).state = .frozen ∧ (slice t n.toNat).restore = 0)) ∧
  (∀ (s : State) (n : BitVec 14), (slice s n.toNat).state ≠ .restoring → exec (.restoreDone n) s = .next s)

/-- ENABLE, FREEZE, RESUME, RESTORE, DISABLE, FREEZE_COMPLETE, FREEZE_TIMEOUT and RESET_SEQUENCE_END change no other
slice, no queue pair, no object value, no byte of device memory, no lane, pipeline item, Sheepdog queue, timetable
register, forwarding table, stage word, Jutex state, Kennel slot, DMA channel, ledger entry or waiting command; RESET
and SAVE change no other slice. Formalises 12 R284; 12 R290. -/
def Obligations.SliceCommandsKeepOtherState : Prop :=
  (∀ (s t : State) (c : Instr) (n : BitVec 14),
    (c = .sliceEnable n ∨ c = .sliceFreeze n ∨ c = .sliceResume n ∨ c = .sliceRestore n ∨ c = .sliceDisable n ∨
      c = .freezeComplete n ∨ c = .freezeTimeout n ∨ c = .resetSequenceEnd n) → exec c s = .next t →
    (∀ m, m ≠ n.toNat → slice t m = slice s m) ∧ t.slc.qps = s.slc.qps ∧ SameObjects s t ∧ SameMemory s t ∧ t.net = s.net ∧
      t.pipe = s.pipe ∧ t.shp = s.shp ∧ t.tt = s.tt ∧ t.fwd = s.fwd ∧ t.stg = s.stg ∧ t.jx = s.jx ∧ t.ken = s.ken ∧
      t.dma = s.dma ∧ t.led = s.led ∧ t.pending = s.pending) ∧
  (∀ (s t : State) (c : Instr) (n : BitVec 14), (c = .sliceReset n ∨ c = .sliceSave n) → exec c s = .next t →
    ∀ m, m ≠ n.toNat → slice t m = slice s m)

/-- DISPATCH of the first ACCEPTED host item of its queue, whose slice does not drain: a bad descriptor ends it DONE
with FORM (5); with TARGET 1 and a control core to take it the item is RUNNING with that core as its worker; with
TARGET 0 and no cluster left in the map it ends DONE with status 1. RE_DISPATCH of a STOPPING item whose operations
have stopped accepts a restartable one again with one more attempt, below 3, and ends any other DONE with WORKER_FAULT
(1). LEDGER_RELEASE retires the DONE frame entry that is due. MEMORY_UNCORRECTABLE of a host item that is not DONE
ends it DONE with status 4. Formalises 13 R306; 13 R309; 13 R310; 13 R312. -/
def Obligations.LedgerCommandsTakeEffect : Prop :=
  (∀ (s : State) (i : BitVec 18) (e : LedEntry), ledGet s i.toNat = some e → e.kind = .host → e.state = .accepted →
    firstAccepted s e = true → (e.infra = true ∨ (slice s e.slice).state ≠ .draining) →
    ∃ t, exec (.dispatch i) s = .next t ∧
      (if descBad (ledMeta s i.toNat).desc then EntryDone t i.toNat 5
      else if descTarget (ledMeta s i.toNat).desc = 0 then
        (s.jx.map.getD ((e.slice + qpNum (qpKey e.queue)) % 16) none = none → EntryDone t i.toNat 1)
      else match pickCore s with
        | none => EntryDone t i.toNat 1
        | some n => (ledMeta t i.toNat).worker = some (.core n) ∧
          ∃ e', ledGet t i.toNat = some e' ∧ e'.state = .running)) ∧
  (∀ (s : State) (i : BitVec 18) (e : LedEntry) (c : Nat), ledGet s i.toNat = some e → e.kind = .host →
    e.state = .accepted → firstAccepted s e = true → (e.infra = true ∨ (slice s e.slice).state ≠ .draining) →
    descBad (ledMeta s i.toNat).desc = false → descTarget (ledMeta s i.toNat).desc = 0 →
    s.jx.map.getD ((e.slice + qpNum (qpKey e.queue)) % 16) none = some c → (cluster s c).faulted = false →
    inboxRoom s c (.host i.toNat (descFn (ledMeta s i.toNat).desc)) = true →
    ∃ t e', exec (.dispatch i) s = .next t ∧ ledGet t i.toNat = some e' ∧ e'.state = .running ∧
      (ledMeta t i.toNat).worker = some (.cluster c)) ∧
  (∀ (s : State) (i : BitVec 18) (e : LedEntry), ledGet s i.toNat = some e → e.kind = .host → e.state = .stopping →
    opsStopped s i.toNat = true → (e.infra = true ∨ (slice s e.slice).state ≠ .draining) →
    ∃ t, exec (.reDispatch i) s = .next t ∧
      (if e.restart = true ∧ e.attempt < 3 then ledGet t i.toNat = some { e with state := .accepted, attempt := e.attempt + 1 }
      else EntryDone t i.toNat 1)) ∧
  (∀ (s : State) (q i : Nat) (e : LedEntry), dueEntry s (.frame q) = some (i, e) → ledGet s i = some e → e.state = .done →
    ∃ t, exec (.ledgerRelease (.frame q) 0) s = .next t ∧ ledGet t i = none ∧
      ctrGet t 0xC041 0x01 e.status.toNat = (ctrGet s 0xC041 0x01 e.status.toNat + 1) % 2 ^ 64) ∧
  (∀ (s : State) (i : BitVec 18) (e : LedEntry), ledGet s i.toNat = some e → e.kind = .host →
    (e.state = .accepted ∨ e.state = .running ∨ e.state = .stopping) →
    ∃ t, exec (.memoryUncorrectable i) s = .next t ∧ EntryDone t i.toNat 4)

/-- HEARTBEAT_RECEIVED on an up pair link with an intact epoch makes it the partner's last heartbeat in a STANDBY
device whose epoch is no lower; a broken epoch pair only counts. DELTA_RECEIVED in STANDBY logs and acknowledges a
whole delta. DELTA_APPLY takes the oldest logged delta out. DELTA_ACK_RECEIVED drops the acknowledged deltas.
SYNC_COMPLETE ends SYNCING in STANDBY with sync_progress 100. GRANT in STANDBY takes the Leash; START_WAIT_EXPIRY
takes it in SEEKING when start_wait has run without a partner; TAKEOVER with no work held ends in ACTIVE.
PAIR_HF_IN_TAKEOVER takes the Leash in STANDBY. PAIR_LINK_DOWN and PAIR_LINK_UP change link_state, and PAIR_LINK_UP
agrees a pair key where both devices have signed their part (what is signed is the model's choice, assumption 277).
HOLD_DOWN_EXPIRY asks for a planned transfer once hold_down has run in an ACTIVE device whose partner is in STANDBY,
and changes nothing outside a running hold-down. Formalises 14 R319; 14 R321; 14 R323; 14 R324; 14 R327; 14 R328; 14
R331; 14 R334; 14 R337; 14 R340. -/
def Obligations.PairCommandsTakeEffect : Prop :=
  (∀ (s : State) (hb : Heartbeat) (cfg : PartnerCfg) (e : Nat), s.pair.state = .standby → s.pair.link = 2 →
    epochOf hb.epoch = some e → e ≤ (epochOf s.pair.epoch).getD 0 → s.isl.waitActive = false →
    ∃ t, exec (.heartbeatReceived hb cfg) s = .next t ∧ t.pair.partner = some hb ∧ t.pair.lastHb = now s ∧
      t.pair.state = .standby) ∧
  (∀ (s : State) (hb : Heartbeat) (cfg : PartnerCfg), s.pair.state ≠ .single → s.pair.link = 2 → epochOf hb.epoch = none →
    exec (.heartbeatReceived hb cfg) s = .next (count s 0xC200 0x0A)) ∧
  (∀ (s : State) (b : Nat) (rs : List DeltaRec) (fin : Bool), s.pair.state = .standby → s.pair.takeover = none →
    ∃ t, exec (.deltaReceived true b rs fin) s = .next t ∧ t.pair.log = s.pair.log ++ [⟨b, rs, s.clk.beat⟩] ∧ t.pair.ackedIn = b ∧
      t.out = s.out ++ [.deltaAck b]) ∧
  (∀ (s : State) (d : Delta) (rest : List Delta), s.pair.state = .standby → s.pair.log = d :: rest → d.records = [] →
    ∃ t, exec .deltaApply s = .next t ∧ t.pair.log = rest) ∧
  (∀ (s : State) (b : Nat) (d : Delta), s.pair.state = .active → d ∈ s.pair.sent → d.beat = b → s.pair.transfer = .none →
    ∃ t, exec (.deltaAckReceived b) s = .next t ∧ (∀ x ∈ t.pair.sent, b < x.beat) ∧ b ≤ t.pair.lastAcked) ∧
  (∀ (s : State), s.pair.state = .syncing → s.pair.log = [] →
    ∃ t, exec (.syncComplete []) s = .next t ∧ t.pair.state = .standby ∧ t.pair.sync = 100 ∧ t.led.entries = []) ∧
  (∀ (s : State) (e : BitVec 64), s.pair.state = .standby →
    ∃ t, exec (.grant e) s = .next t ∧ t.pair.takeover = some true ∧ t.pair.epoch = epochPair e.toNat) ∧
  (∀ s : State, s.pair.state = .seeking → s.pair.partner = none → mainOn s = true → s.pair.stillAll = true →
    s.pair.seekAt + secondSlots (objGet s 0x9000 0x06 0) ≤ now s →
    ∃ t, exec .startWaitExpiry s = .next t ∧ t.pair.takeover = some false) ∧
  (∀ (s : State) (p : Bool), s.pair.takeover = some p → s.pair.log = [] → s.led.entries = [] → s.slc.sl = [] →
    s.pair.heldDesc = [] → s.objs.vals = [] →
    ∃ t, exec .takeover s = .next t ∧ t.pair.state = .active ∧ t.pair.takeover = none ∧ t.pair.lift = true) ∧
  (∀ s : State, s.pair.state = .standby → s.pair.takeover = none →
    ∃ t, exec .pairHfInTakeover s = .next t ∧ t.pair.takeover = some false ∧ t.pair.hfIn = true) ∧
  (∀ s : State, s.pair.link = 2 → ∃ t, exec .pairLinkDown s = .next t ∧ t.pair.link = 1) ∧
  (∀ (s : State) (cfg : PartnerCfg) (hello : PairHello), mainOn s = true → s.pair.link ≠ 2 →
    ∃ t, exec (.pairLinkUp cfg hello) s = .next t ∧ t.pair.link = 2 ∧ t.pair.keyNo = s.pair.keyNo + 1 ∧
      t.pair.cfg = some cfg ∧
      (if identityState s = 3 ∨ ecdsaVerify hello.identity hello.signature (sha256 hello.ephemeral) = false then
        t.pair.key = none
      else t.pair.key.isSome = ecOn (pairNat hello.ephemeral) ∧ t.boot.signed = s.boot.signed + 1)) ∧
  (∀ s : State, s.pair.holdDown = none → exec .holdDownExpiry s = .next s) ∧
  (∀ (s : State) (h : Heartbeat) (at_ : Nat), s.pair.state = .active → s.pair.partner = some h → h.state = 3 →
    s.pair.transfer = .none → s.pair.holdDown = some at_ → at_ + secondSlots (objGet s 0x9000 0x04 0) ≤ now s →
    exec .holdDownExpiry s = .next { s with pair := { s.pair with transfer := .asked false } })

/-- HARD_FAULT with a cause of 1 to 10 and a detail that the table gives it counts; a device that is not SINGLE is
fenced, in FAULT, with PAIR_HF_OUT asserted where it is muzzled and pending until it is muzzled elsewhere; a SINGLE
device keeps its pair state and its fence. A cause or detail outside the table changes nothing. EYE_MARGIN_LOW latches
its bit of the health word. Formalises 14 R325; 14 R334; 14 R335; 14 Table 14-9. -/
def Obligations.HardFaultsFenceAPairedDevice : Prop :=
  (∀ (s : State) (c : BitVec 8) (d : BitVec 32), 1 ≤ c.toNat → c.toNat ≤ 10 →
    ((c = 3 ∨ c = 4 ∨ c = 7) → d = 0) → (c = 5 → d = 28 ∨ d = 32 ∨ d = 33) →
    ∃ t, exec (.hardFault c d) s = .next t ∧ ctrGet t 0xC200 0x05 0 = (ctrGet s 0xC200 0x05 0 + 1) % 2 ^ 64 ∧
      (if s.pair.state = .single then t.pair.state = .single ∧ t.pair.fence = s.pair.fence
      else t.pair.state = .fault ∧ t.pair.fence = true ∧ t.pair.takeover = none ∧
        (if s.pair.muzzled then t.pair.hfOut = true else t.pair.hfPending = true))) ∧
  (∀ (s : State) (c : BitVec 8) (d : BitVec 32), (c.toNat = 0 ∨ 10 < c.toNat ∨
    ((c = 3 ∨ c = 4 ∨ c = 7) ∧ d ≠ 0) ∨ (c = 5 ∧ d ≠ 28 ∧ d ≠ 32 ∧ d ≠ 33)) → exec (.hardFault c d) s = .next s) ∧
  (∀ (s : State) (b : BitVec 3), b.toNat ≤ 4 →
    ∃ t, exec (.eyeMarginLow b) s = .next t ∧ t.pair.latched.getLsbD (3 + b.toNat) = true ∧
      { t with pair := { t.pair with latched := s.pair.latched } } = s)

/-- DISPATCH and RE_DISPATCH change no byte of device memory, no lane, pipeline item, Sheepdog queue, timetable
register, forwarding table, stage word, Kennel slot, DMA channel, slice, host register or waiting command, and no
other ledger entry. DELTA_RECEIVED, GRANT, START_WAIT_EXPIRY, PAIR_HF_IN_TAKEOVER, PAIR_LINK_DOWN, PAIR_LINK_UP,
HARD_FAULT and EYE_MARGIN_LOW change no byte of device memory, no lane, pipeline item, Sheepdog queue, timetable
register, forwarding table, stage word, Jutex state, Kennel slot, DMA channel, slice, ledger entry or waiting command.
Formalises 13 R306; 13 R310; 14 R321; 14 R323; 14 R334. -/
def Obligations.LedgerAndPairCommandsKeepOtherState : Prop :=
  (∀ (s t : State) (c : Instr) (i : BitVec 18), (c = .dispatch i ∨ c = .reDispatch i) → exec c s = .next t →
    SameMemory s t ∧ t.net = s.net ∧ t.pipe = s.pipe ∧ t.shp = s.shp ∧ t.tt = s.tt ∧ t.fwd = s.fwd ∧ t.stg = s.stg ∧
      t.ken = s.ken ∧ t.dma = s.dma ∧ t.slc = s.slc ∧ t.hst = s.hst ∧ t.pending = s.pending ∧
      ∀ n, n ≠ i.toNat → ledGet t n = ledGet s n) ∧
  (∀ (s t : State) (c : Instr),
    ((∃ w b rs f, c = .deltaReceived w b rs f) ∨ (∃ e, c = .grant e) ∨ c = .startWaitExpiry ∨ c = .pairHfInTakeover ∨
      c = .pairLinkDown ∨ (∃ cfg hello, c = .pairLinkUp cfg hello) ∨ (∃ x d, c = .hardFault x d) ∨ (∃ b, c = .eyeMarginLow b)) →
    exec c s = .next t →
    SameMemory s t ∧ t.net = s.net ∧ t.pipe = s.pipe ∧ t.shp = s.shp ∧ t.tt = s.tt ∧ t.fwd = s.fwd ∧ t.stg = s.stg ∧
      t.jx = s.jx ∧ t.ken = s.ken ∧ t.dma = s.dma ∧ t.slc = s.slc ∧ t.led = s.led ∧ t.pending = s.pending)

/-- ISLAND_POWER_ON_RESET and ISLAND_RESET leave the test port at its reset state (unlocked in lock level OPEN alone)
and Whelp's result: stage 1 with a loader locked and the first rail rising, or a halt with main power off and no
loader. ISLAND_SUPPLY_LOSS leaves the supply 0, the enables 0 and BOOT_CODE 0. MAIN_DOMAIN_RESET with the main domain
on and the loader running starts beat 0 again in stage 1 and keeps memory and the log; with it off it changes nothing.
STAGE1_PASS in stage 1 runs the first firmware slot that passes, counts the pass and releases WP#, or, with none,
waits in backoff with BOOT_CODE 4. BACKOFF_EXPIRY in backoff doubles the wait up to 64 s and goes back to stage 1.
TRIAL_TIMER_EXPIRY once the armed trial_window of the firmware has run rejects the TRIAL slots.
CHALLENGE_SIGNATURE_READY for a waiting nonce signs unless the identity is at fault. FAULT_LOG_BLOCK_WRITE of a block
that is due takes the oldest 127 pending records, which the next block of the region holds behind its header; without
a region it empties the pending records. Formalises 15 R344; 15 R356; 15 R358; 15 R360; 15 R363; 15 R367; 18 R408; 20
R461. -/
def Obligations.BootCommandsTakeEffect : Prop :=
  (∀ (s : State) (c : Instr), (c = .islandPowerOnReset ∨ c = .islandReset) →
    ∃ t, exec c s = .next t ∧ t.dbg.unlocked = (Config.lockLevel == 0) ∧ t.dbg.ir = 1 ∧ t.led.entries = [] ∧
      t.clk.beat = 0 ∧ t.clk.slot = 0 ∧
      ((t.boot.stage = .stage1 ∧ t.boot.code = 2 ∧ t.boot.loader.isSome = true ∧ t.boot.wp = true ∧ t.pwr.phase = .rising 0 ∧
          t.pwr.en = 1) ∨
        (t.boot.stage = .halted ∧ 8 ≤ t.boot.code.toNat ∧ t.boot.loader = none ∧ t.pwr.phase = .off ∧ t.pwr.en = 0))) ∧
  (∀ s : State, ∃ t, exec .islandSupplyLoss s = .next t ∧ t.isl.supply = 0 ∧ t.boot.code = 0 ∧ t.pwr.phase = .off ∧
    t.pwr.en = 0) ∧
  (∀ s : State, mainOn s = true → loaderRuns s = true →
    ∃ t, exec .mainDomainReset s = .next t ∧ t.clk.beat = 0 ∧ t.clk.slot = 0 ∧ t.boot.stage = .stage1 ∧
      t.led.entries = [] ∧ t.pipe.items = [] ∧ t.tt.cur = none ∧ t.hbm.locks = [] ∧ SameMemory s t ∧
      t.boot.nor = s.boot.nor) ∧
  (∀ s : State, mainOn s = false → exec .mainDomainReset s = .next s) ∧
  (∀ s u : State, s.boot.stage = .stage1 → mainOn s = true → s.boot.manifests.length = 3 →
    u = rejectTrials s [2, 3, 4, 5] →
    ∃ t, exec .stage1Pass s = .next t ∧ t.boot.wp = false ∧
      (match (trySlots u (slotOrder u 2)).2 with
        | some (i, m, _) => t.boot.stage = .running ∧ t.boot.manifests.getD 1 none = some m ∧
            t.boot.running.getLsbD 1 = decide (i % 2 = 1) ∧
            ctrGet t 0x2040 0x01 0 = (ctrGet s 0x2040 0x01 0 + 1) % 2 ^ 64
        | none => t.boot.stage = .backoff ∧ t.boot.code = 4)) ∧
  (∀ s : State, s.boot.stage = .stage1 → mainOn s = true → s.boot.nor = [] →
    ∃ t, exec .stage1Pass s = .next t ∧ t.boot.stage = .backoff ∧ t.boot.code = 4) ∧
  (∀ s : State, s.boot.stage = .backoff → s.pwr.tripped = false →
    ∃ t, exec .backoffExpiry s = .next t ∧ t.boot.stage = .stage1 ∧ t.boot.wait = min 64 (2 * s.boot.wait)) ∧
  (∀ (s : State) (x : Nat × Nat × Bool), s.boot.trial = some x → x.1 + x.2.1 ≤ islandUs s →
    s.boot.slots = [0, 0, 2, 0, 0, 0] →
    ∃ t, exec .trialTimerExpiry s = .next t ∧ t.boot.slots = [0, 0, 4, 0, 0, 0] ∧ t.boot.trial = none) ∧
  (∀ (s : State) (n : List Byte), s.boot.nonce = some n → identityState s ≠ 3 →
    ∃ t, exec .challengeSignatureReady s = .next t ∧ t.boot.nonce = none ∧
      t.boot.signature = some (signDigest s (sha256 (n ++ leBytes 8 Config.serial.toNat ++
        (List.range 6).flatMap (fun i => digestBytes (measurement s (i + 1)))))).1) ∧
  (∀ (s : State), identityState s = 3 → exec .challengeSignatureReady s = .next s) ∧
  (∀ s : State, blockDue s = true → s.boot.nor = [] →
    ∃ t, exec .faultLogBlockWrite s = .next t ∧ t.logs.pending = []) ∧
  (∀ (s : State) (q : Nat), blockDue s = true → q = (match s.logs.seq with | some n => (n + 1) % 2 ^ 32 | none => 0) →
    ∃ t, exec .faultLogBlockWrite s = .next t ∧
      (match faultRegion s with
        | none => t.logs.pending = []
        | some _ => t.logs.pending = s.logs.pending.drop 127 ∧ t.logs.seq = some q))

/-- On a link whose DOE mailbox answers: DOE_DISCOVERY of a Discovery object answers the protocol of its index and the
next index, and sets DOE Error for any other object. Once the algorithms are negotiated: GET_DIGESTS answers DIGESTS
with the hash of the chain where slot 0 holds it; GET_CERTIFICATE within the chain answers the portion asked for;
CHALLENGE answers a signed CHALLENGE_AUTH; GET_MEASUREMENTS answers the measurement blocks asked for, signed on
request; KEY_EXCHANGE adds a session in its handshake, and a fifth one is refused. The signed answers need an identity
that is not at fault. A request of another version answers ERROR. IDE_KM in an open session, in a message whose tag is
right: KEY_PROG for a stream that the link has stores the key, K_SET_GO of a programmed key puts it to use, and each
is answered in the session; a message whose tag fails ends the session. Formalises 11 R266; 11 R267; 15 R366. -/
def Obligations.AttestationCommandsTakeEffect : Prop :=
  (∀ (s : State) (k : BitVec 2) (n i : BitVec 32), doeUp s k.toNat = true → n.toNat % 2 ^ 18 = 3 →
    ∃ t, exec (.doeDiscovery k [1, n, i]) s = .next t ∧
      t.out = s.out ++ [.doe k.toNat [1, 3, BitVec.ofNat 32 (if i.toNat % 256 < 3 then
        1 + 2 ^ 16 * (i.toNat % 256) + 2 ^ 24 * ((i.toNat % 256 + 1) % 3) else 0xFFFF)]]) ∧
  (∀ (s : State) (k : BitVec 2) (ws : List (BitVec 32)), s.hst.links.length = 4 → doeUp s k.toNat = true → ws.length ≠ 3 →
    ∃ t, exec (.doeDiscovery k ws) s = .next t ∧ (linkGet t k.toNat).doeErr = true ∧ t.out = s.out) ∧
  (∀ (s : State) (k : BitVec 2) (b : List Byte), SpdmReady s k.toNat 0x81 b →
    ∃ t, exec (.getDigests k b) s = .next t ∧ t.out = s.out ++ [.spdm k.toNat 0x01
      (if identityState s = 0 then [0x12, 0x01, 0, 1] ++ shaBytes (spdmChain s) else [0x12, 0x01, 0, 0])]) ∧
  (∀ (s : State) (k : BitVec 2) (b part : List Byte) (off : Nat), SpdmReady s k.toNat 0x82 b → identityState s = 0 →
    b.length = 8 → (byteAt b 2).toNat % 16 = 0 → off = leNat (bytesAt b 4 2) → off < (spdmChain s).length →
    part = ((spdmChain s).drop off).take (leNat (bytesAt b 6 2)) →
    ∃ t, exec (.getCertificate k b) s = .next t ∧ t.out = s.out ++ [.spdm k.toNat 0x02 ([0x12, 0x02, 0, 0] ++
      leBytes 2 part.length ++ leBytes 2 ((spdmChain s).length - off - part.length) ++ part)]) ∧
  (∀ (s : State) (k : BitVec 2) (b m : List Byte) (slot : Nat), SpdmReady s k.toNat 0x83 b → identityState s ≠ 3 →
    b.length = 36 → slot = (byteAt b 2).toNat % 16 → (slot = 0 ∨ slot = 15) →
    summaryHash s (byteAt b 3).toNat = some m →
    ∃ t sig, exec (.challenge k b) s = .next t ∧ t.out = s.out ++ [.spdm k.toNat 0x03
        ([0x12, 0x03, BitVec.ofNat 8 slot, if identityState s = 0 then 1 else 0] ++ chainHash s slot ++ spdmNonce s ++ m ++
          [0, 0] ++ sig)] ∧
      t.boot.signed = s.boot.signed + 1 ∧ t.hst.nonce = s.hst.nonce + 1 ∧ (spdmConn t k.toNat).certs = []) ∧
  (∀ (s : State) (k : BitVec 2) (b blocks : List Byte) (op : Nat), SpdmReady s k.toNat 0xE0 b →
    op = (byteAt b 3).toNat → (op ≤ 6 ∨ op = 0xFF) →
    blocks = (if op = 0 then [] else if op = 0xFF then measurementBlocks s else measurementBlock s op) →
    ((byteAt b 2).getLsbD 0 = false → b.length = 4 →
      ∃ t, exec (.getMeasurements k b) s = .next t ∧ t.out = s.out ++ [.spdm k.toNat 0x60
        ([0x12, 0x60, if op = 0 then 6 else 0, 0, if op = 0 then 0 else if op = 0xFF then 6 else 1] ++
          leBytes 3 blocks.length ++ blocks ++ spdmNonce s ++ [0, 0])] ∧ t.boot.signed = s.boot.signed) ∧
    ((byteAt b 2).getLsbD 0 = true → b.length = 37 → identityState s ≠ 3 →
      ((byteAt b 36).toNat % 16 = 0 ∨ (byteAt b 36).toNat % 16 = 15) →
      ∃ t sig, exec (.getMeasurements k b) s = .next t ∧ t.out = s.out ++ [.spdm k.toNat 0x60
        ([0x12, 0x60, if op = 0 then 6 else 0, BitVec.ofNat 8 ((byteAt b 36).toNat % 16),
            if op = 0 then 0 else if op = 0xFF then 6 else 1] ++
          leBytes 3 blocks.length ++ blocks ++ spdmNonce s ++ [0, 0] ++ sig)] ∧
        t.boot.signed = s.boot.signed + 1 ∧ (spdmConn t k.toNat).meas = [])) ∧
  (∀ (s : State) (k : BitVec 2) (b m : List Byte), SpdmReady s k.toNat 0xE4 b → (spdmConn s k.toNat).kex = true →
    106 ≤ b.length → b.length = 106 + leNat (bytesAt b 104 2) → (byteAt b 3 = 0 ∨ byteAt b 3 = 255) →
    ecOn (pairNat (spdmPair (bytesAt b 40 64))) = true → summaryHash s (byteAt b 2).toNat = some m →
    (identityState s ≠ 3 → ((spdmExpire s).hst.spdm.filter (fun x => x.link == k.toNat)).length < 4 →
      ∃ t x body, exec (.keyExchange k b) s = .next t ∧ t.out = s.out ++ [.spdm k.toNat 0x64 body] ∧
        body.take 2 = [0x12, 0x64] ∧ t.hst.spdm = (spdmExpire s).hst.spdm ++ [x] ∧ x.link = k.toNat ∧
        x.sid % 65536 = leNat (bytesAt b 4 2) ∧ x.open_ = false) ∧
    (4 ≤ ((spdmExpire s).hst.spdm.filter (fun x => x.link == k.toNat)).length →
      ∃ t, exec (.keyExchange k b) s = .next t ∧ t.out = s.out ++ [.spdm k.toNat 0x7F [0x12, 0x7F, 0x0A, 0]] ∧
        t.hst.spdm = (spdmExpire s).hst.spdm)) ∧
  (∀ (s : State) (k : BitVec 2) (b : List Byte), doeUp s k.toNat = true → 4 ≤ b.length → b.length ≤ 65528 →
    (byteAt b 0).toNat ≠ 0x12 → (byteAt b 1).toNat = 0x81 →
    ∃ t, exec (.getDigests k b) s = .next t ∧ t.out = s.out ++ [.spdm k.toNat 0x7F [0x12, 0x7F, 0x41, 0]]) ∧
  (∀ (s : State) (k : BitVec 2) (sid : BitVec 32) (b km : List Byte) (z : SpdmSession) (stream sub : Nat),
    doeUp s k.toNat = true → b.length + 14 ≤ 65536 → spdmFind (spdmExpire s) k.toNat sid.toNat = some z →
    z.open_ = true → spdmOpen z.reqKey z.reqSeq z.sid b = some (vendorHeader 0xFE km.length ++ km) →
    stream = (byteAt km 4).toNat → sub = (byteAt km 6).toNat → byteAt km 0 = 0 →
    (byteAt km 1 = 2 → km.length = 48 → byteAt km 7 = 0 → stream < objGet s (0xA100 + k.toNat) 0x0A 0 →
      ideSub sub = true →
      ∃ t body, exec (.ideKm k sid b) s = .next t ∧ t.out = s.out ++ [.secured k.toNat sid.toNat body] ∧
        sget 0 t.hst.ide ((k.toNat * 256 + stream) * 256 + sub) = BitVec.ofNat 512 (leNat (bytesAt km 8 40))) ∧
    (byteAt km 1 = 4 → km.length = 8 → (sfind s.hst.ide (ideKey k.toNat stream sub)).isSome = true →
      ∃ t body, exec (.ideKm k sid b) s = .next t ∧ t.out = s.out ++ [.secured k.toNat sid.toNat body] ∧
        ideKey k.toNat stream sub ∈ t.hst.ideOn)) ∧
  (∀ (s : State) (k : BitVec 2) (sid : BitVec 32) (b : List Byte) (z : SpdmSession), doeUp s k.toNat = true →
    b.length + 14 ≤ 65536 → spdmFind (spdmExpire s) k.toNat sid.toNat = some z →
    spdmOpen z.reqKey z.reqSeq z.sid b = none →
    ∃ t, exec (.ideKm k sid b) s = .next t ∧ spdmFind t k.toNat sid.toNat = none ∧
      t.out = s.out ++ [.spdm k.toNat 0x7F [0x12, 0x7F, 0x06, 0]])

/-- A request of the management transport with a right tag that its session takes at its turn: KEEPALIVE with an empty
body is answered OK; CLOSE is answered OK and the session is gone or closing; DESCRIBE of an object that the session
does not see answers NO_OBJECT (1), and READ and BLOCK_READ of it too; WRITE with a short body and BLOCK_WRITE with a
short body answer BAD_REQUEST (15); SUBSCRIBE with two bytes sets the class mask; EVENT_ACK with four bytes is
answered OK; RESERVED_OP answers BAD_REQUEST. The next request expected is one later, where the session is still
there, and nothing but the server's own state, objects, logs and outputs changes. Formalises 16 R376; 16 R380; 16
R381; 16 R382; 16 R383; 16 R384; 16 R385; 16 Table 16-2; 16 Table 16-5. -/
def Obligations.UhlistRequestsAreServed : Prop :=
  ∀ (s : State) (p : Pdu) (x : Session) (c : Instr) (op err : Nat), Served s p x → tagOk x op p = true →
    ((c = .keepalive p ∧ op = 4 ∧ p.body = [] ∧ err = 0) ∨ (c = .uhClose p ∧ op = 3 ∧ p.body = [] ∧ err = 0) ∨
      (c = .uhDescribe p ∧ op = 5 ∧ p.body.length = 8 ∧ err = 1 ∧ ∃ a, addrOf p.body = some a ∧ objSeen x a = none) ∨
      (c = .uhRead p ∧ op = 6 ∧ p.body.length = 10 ∧ err = 1 ∧ ∃ a, addrOf p.body = some a ∧ objSeen x a = none) ∨
      (c = .blockRead p ∧ op = 8 ∧ p.body.length = 14 ∧ err = 1 ∧ ∃ a, addrOf p.body = some a ∧ objSeen x a = none) ∨
      (c = .uhWrite p ∧ op = 7 ∧ p.body.length < 10 ∧ err = 15) ∨
      (c = .blockWrite p ∧ op = 9 ∧ p.body.length < 12 ∧ err = 15) ∨
      (c = .subscribe p ∧ op = 10 ∧ p.body.length = 2 ∧ err = 0) ∨
      (c = .eventAck p ∧ op = 12 ∧ p.body.length = 4 ∧ err = 0) ∨
      (∃ o : BitVec 6, c = .reservedOp o p ∧ op = o.toNat ∧ (op = 0 ∨ 13 ≤ op) ∧ err = 15)) →
    ∃ t, exec c s = .next t ∧ Replied t op p err [] ∧ OnlyUhlist s t ∧
      (∀ y, sessionFind t 0 p.session = some y → y.expect = x.expect + 1) ∧
      (op = 3 → ∀ y, sessionFind t 0 p.session = some y → y.closing = true) ∧
      (op = 10 → ∃ y, sessionFind t 0 p.session = some y ∧ y.mask = BitVec.ofNat 16 (leNat p.body))

/-- For an island object (dap_register apart) that the session sees and may read, READ of one element answers OK with
the address and the value, and DESCRIBE answers OK with its 40-byte body; BLOCK_READ of an OCTETS object answers OK
with at most the bytes asked for. An operator's WRITE of 0 or 1 to 0x5001.01 in a device whose cores do not serve is
answered UNREACHABLE (6) and changes no object. With the main domain off and no delta being recorded, an operator's
WRITE of 10 to 600 to 0x2010.02 (trial_window) is answered OK and the object takes the value; a value above 600 is
answered OUT_OF_RANGE (5) and changes no object; and a WRITE to 0x2010.03, which the operator may only read, is
answered NO_ACCESS (3). A BLOCK_WRITE of 32 bytes to the challenge nonce 0x1020.01 is answered OK and the nonce waits
for its signature. Nothing but the server's own state, objects, logs, outputs and free values changes, and the NOR
record of the slots with trial_window, and the nonce. Formalises 16 R376; 16 R382; 16 R383; 16 R384; 16 Table 16-2. -/
def Obligations.UhlistReadsAndWrites : Prop :=
  (∀ (s : State) (p : Pdu) (x : Session) (a : ObjAddr) (d : ObjDesc) (e : Nat), Served s p x → tagOk x 6 p = true →
    p.body.length = 10 → leNat (bytesAt p.body 8 2) ≤ 1 → addrOf p.body = some a → a.sub ≠ 0 → a.idx ≠ 0xD010 →
    coreIndex a.idx = false → objSeen x a = some d → objElements s x d a 1 = some [e] → (accessOf x.role d).testBit 0 = true → d.ty < 10 →
    okey a.idx a.sub e ∉ s.uhl.quarantined →
    ∃ t v, exec (.uhRead p) s = .next t ∧ OnlyUhlist s t ∧ Replied t 6 p 0 (p.body.take 8 ++ v) ∧ v.length ≤ d.size) ∧
  (∀ (s : State) (p : Pdu) (x : Session) (a : ObjAddr) (d : ObjDesc), Served s p x → tagOk x 5 p = true →
    p.body.length = 8 → addrOf p.body = some a → coreIndex a.idx = false → objSeen x a = some d →
    ∃ t, exec (.uhDescribe p) s = .next t ∧ OnlyUhlist s t ∧ Replied t 5 p 0 (describeBody s x d a p.body)) ∧
  (∀ (s : State) (p : Pdu) (x : Session) (a : ObjAddr) (d : ObjDesc) (e : Nat), Served s p x → tagOk x 8 p = true →
    p.body.length = 14 → addrOf p.body = some a → coreIndex a.idx = false → objSeen x a = some d →
    objElements s x d a 1 = some [e] → (accessOf x.role d).testBit 0 = true → d.ty = 10 →
    leNat (bytesAt p.body 12 2) ≤ 1468 → okey a.idx a.sub e ∉ s.uhl.quarantined →
    ∃ t bs, exec (.blockRead p) s = .next t ∧ OnlyUhlist s t ∧ Replied t 8 p 0 bs ∧ bs.length ≤ leNat (bytesAt p.body 12 2)) ∧
  (∀ (s : State) (p : Pdu) (x : Session) (v : BitVec 8), Served s p x → tagOk x 7 p = true → x.role = .operator →
    p.body = leBytes 8 (0x5001 + 1 * 2 ^ 16) ++ [1, 0, v] → v.toNat ≤ 1 → coresServe s = false → s.uhl.quarantined = [] →
    ∃ t, exec (.uhWrite p) s = .next t ∧ OnlyUhlist s t ∧ Replied t 7 p 6 [] ∧ SameObjects s t) ∧
  (∀ (s : State) (p : Pdu) (x : Session) (v : BitVec 16), Served s p x → tagOk x 7 p = true → x.role = .operator →
    p.body = leBytes 8 (0x2010 + 2 * 2 ^ 16) ++ [1, 0] ++ leBytes 2 v.toNat → 10 ≤ v.toNat → mainOn s = false → recording s = false →
    ∃ t, exec (.uhWrite p) s = .next t ∧ OnlyUhlist s { t with boot := { t.boot with nor := s.boot.nor } } ∧
      (if v.toNat ≤ 600 then Replied t 7 p 0 [] ∧ objGet t 0x2010 2 0 = v.toNat
      else Replied t 7 p 5 [] ∧ SameObjects s t)) ∧
  (∀ (s : State) (p : Pdu) (x : Session) (v : BitVec 16), Served s p x → tagOk x 7 p = true → x.role = .operator →
    p.body = leBytes 8 (0x2010 + 3 * 2 ^ 16) ++ [1, 0] ++ leBytes 2 v.toNat →
    ∃ t, exec (.uhWrite p) s = .next t ∧ OnlyUhlist s t ∧ Replied t 7 p 3 [] ∧ SameObjects s t) ∧
  (∀ (s : State) (p : Pdu) (x : Session) (nonce : List Byte), Served s p x → tagOk x 9 p = true → x.role = .operator →
    p.body = leBytes 8 (0x1020 + 1 * 2 ^ 16) ++ [0, 0, 0, 0] ++ nonce → nonce.length = 32 → mainOn s = false →
    ∃ t, exec (.blockWrite p) s = .next t ∧ Replied t 9 p 0 [] ∧ t.boot.nonce = some nonce ∧ t.boot.signature = none)

/-- On the management transport with the loader serving: OPEN with a body of another length than 99 answers
BAD_REQUEST (15) with session 0; OPEN adds a session where the identity is not at fault, the transport has room and
the client's key is a point of the curve, and answers OK with its number; without room it is refused BUSY (8), and
with the identity at fault or a key off the curve AUTH (10; the latter is the model's choice, assumption 276). PROVE
of an unproved session proves it or drops it. PROVE_TIMEOUT drops a session unproved after 10 s, SESSION_IDLE_EXPIRY a
proved one idle for session_idle. EVENT sends the oldest unsent records, EVENT_RETRY_EXPIRY sends an unacknowledged
EVENT PDU again after event_retry and leaves the session's records as they are. MALFORMED_PDU counts. With Memory
Space Enable 1, MB_GO of a free mailbox makes it busy, of a busy one sets MB_IGNORED, and EVENT_READY_CLEAR clears
EVENT_READY; with Memory Space Enable 0 each is logged as an Unsupported Request alone. The events, the expiries, a
malformed PDU and the mailbox commands change nothing but the server's own state, objects, logs and outputs, and,
where a session leaves its mailbox, the interrupt's pending bit. Formalises 16 R377; 16 R378; 16 R380; 16 R385; 16
R389; 16 R390. -/
def Obligations.UhlistSessionsComeAndGo : Prop :=
  (∀ (s : State) (p : Pdu), p.transport = 0 → p.session = 0 → p.body.length ≤ 1468 → islandServes s = true →
    p.body.length ≠ 99 →
    ∃ t, exec (.uhOpen p) s = .next t ∧ .pdu 0 0 1 p.seq 0x0F [] ∈ t.out ∧ t.uhl.sessions = s.uhl.sessions) ∧
  (∀ (s : State) (p : Pdu), p.transport = 0 → p.session = 0 → islandServes s = true → p.body.length = 99 →
    (byteAt p.body 0).toNat ≤ 3 →
    (identityState s ≠ 3 → (s.uhl.sessions.filter (fun x => x.transport == 0)).length < 32 →
      ecOn (pairNat (bytesAt p.body 35 64)) = true →
      ∃ t x body, exec (.uhOpen p) s = .next t ∧ t.uhl.sessions = s.uhl.sessions ++ [x] ∧ x.transport = 0 ∧
        x.proved = false ∧ x.expect = 1 ∧ x.role = roleOf (byteAt p.body 0).toNat ∧ .pdu 0 0 1 p.seq 0 body ∈ t.out ∧
        body.take 2 = leBytes 2 x.num) ∧
    (identityState s = 3 → ∃ t, exec (.uhOpen p) s = .next t ∧ .pdu 0 0 1 p.seq 0x0A [] ∈ t.out ∧
      t.uhl.sessions = s.uhl.sessions) ∧
    (identityState s ≠ 3 → 32 ≤ (s.uhl.sessions.filter (fun x => x.transport == 0)).length →
      ∃ t, exec (.uhOpen p) s = .next t ∧ .pdu 0 0 1 p.seq 0x08 [] ∈ t.out ∧ t.uhl.sessions = s.uhl.sessions) ∧
    (identityState s ≠ 3 → (s.uhl.sessions.filter (fun x => x.transport == 0)).length < 32 →
      ecOn (pairNat (bytesAt p.body 35 64)) = false →
      ∃ t, exec (.uhOpen p) s = .next t ∧ .pdu 0 0 1 p.seq 0x0A [] ∈ t.out ∧ t.uhl.sessions = s.uhl.sessions)) ∧
  (∀ (s : State) (p : Pdu) (x : Session), p.transport = 0 → p.session ≠ 0 → p.body.length ≤ 1468 → islandServes s = true →
    sessionFind s 0 p.session = some x → x.proved = false → p.seq = 0 → tagOk x 2 p = true →
    ∃ t, exec (.uhProve p) s = .next t ∧
      (if proveOk s x p.body then ∃ y, sessionFind t 0 p.session = some y ∧ y.proved = true
      else sessionFind t 0 p.session = none)) ∧
  (∀ (s : State) (tr : Nat) (n : BitVec 16) (x : Session), sessionFind s tr n.toNat = some x → x.proved = false →
    x.since + 10000000 ≤ islandUs s →
    ∃ t, exec (.proveTimeout tr n) s = .next t ∧ sessionFind t tr n.toNat = none) ∧
  (∀ (s : State) (tr : Nat) (n : BitVec 16) (x : Session), sessionFind s tr n.toNat = some x → x.proved = true →
    x.since + objGet s 0x1040 0x02 0 * 1000000 ≤ islandUs s →
    ∃ t, exec (.sessionIdleExpiry tr n) s = .next t ∧ sessionFind t tr n.toNat = none) ∧
  (∀ (s : State) (n : BitVec 16) (x : Session) (r : EvRec) (rest : List EvRec), sessionFind s 0 n.toNat = some x →
    x.proved = true → x.closing = false → x.unacked = [] → x.events = r :: rest →
    ∃ t, exec (.uhEvent 0 n) s = .next t ∧ .eventPdu 0 n.toNat x.eventSeq ((r :: rest).take 45) ∈ t.out) ∧
  (∀ (s : State) (n : BitVec 16) (x : Session) (q k sent : Nat), sessionFind s 0 n.toNat = some x →
    x.proved = true → x.closing = false → x.unacked = [(q, k, sent)] → sent + objGet s 0x1040 0x03 0 * 1000 ≤ islandUs s →
    ∃ t, exec (.eventRetryExpiry 0 n) s = .next t ∧ .eventPdu 0 n.toNat q (x.events.take k) ∈ t.out ∧
      sessionFind t 0 n.toNat = some { x with unacked := [(q, k, islandUs s)] }) ∧
  (∀ (s : State) (k : BitVec 2), islandServes s = true →
    ∃ t, exec (.malformedPdu 0 k) s = .next t ∧ ctrGet t 0xC210 0x03 0 = (ctrGet s 0xC210 0x03 0 + 1) % 2 ^ 64 ∧
      t.uhl = s.uhl) ∧
  (∀ (s : State) (k : BitVec 2), BoxOpen s k.toNat →
    ∃ t, exec (.mbGo k) s = .next t ∧
      (if (box s k.toNat).busy = true ∨ (box s k.toNat).replyReady = true then
        box t k.toNat = { box s k.toNat with ignored := true } else box t k.toNat = { box s k.toNat with busy := true })) ∧
  (∀ (s : State) (k : BitVec 2), BoxOpen s k.toNat →
    ∃ t, exec (.eventReadyClear k) s = .next t ∧ box t k.toNat = { box s k.toNat with eventReady := false }) ∧
  (∀ (s : State) (k : BitVec 2) (c : Instr), (c = .mbGo k ∨ c = .eventReadyClear k) → mainOn s = true →
    fnPresent s k.toNat 0 = true → memSpaceOn s k.toNat 0 = false → exec c s = .next (aerLog s k.toNat 0 20)) ∧
  (∀ (s t : State) (c : Instr), ((∃ tr n, c = .proveTimeout tr n) ∨ (∃ tr n, c = .sessionIdleExpiry tr n)) →
    exec c s = .next t → OnlyUhlist s { t with hst := s.hst }) ∧
  (∀ (s t : State) (c : Instr), ((∃ n, c = .uhEvent 0 n) ∨ (∃ n, c = .eventRetryExpiry 0 n) ∨ (∃ k, c = .malformedPdu 0 k) ∨
      (∃ k, (c = .mbGo k ∨ c = .eventReadyClear k) ∧ memSpaceOn s k.toNat 0 = true)) → exec c s = .next t → OnlyUhlist s t)

/-- SHORT_PRESS and LONG_PRESS count. LATCH_OPEN of a latch that is not open opens and counts it; in service it asks a
SINGLE device with main power on and no power-down held off for the power-down (POWERING_DOWN), an ACTIVE device whose
partner is ready for the transfer, and refuses an ACTIVE device whose partner is not. LATCH_CLOSE of an open latch in
REFUSED or SAFE puts the device back in service. LATCH_FAULT shows the fault and counts. CAGE_INSERTED of an empty
cage waits, and with the main domain on its power decides between POWER_DENIED and INITIALISING. MODULE_READY,
MODULE_FAULT, CAGE_INIT_TIMEOUT and MODULE_REMOVAL move the cage to READY, FAULT, FAULT and EMPTY. T1L_LINK_UP and
T1L_LINK_DOWN set the link state, 0x2200.04. Formalises 18 R411; 18 R413; 18 R414; 18 R415; 18 R417; 18 R420; 18 R421.
-/
def Obligations.PanelAndCageCommandsTakeEffect : Prop :=
  (∀ s : State, ∃ t, exec .shortPress s = .next t ∧ ctrGet t 0xC230 0x02 0 = (ctrGet s 0xC230 0x02 0 + 1) % 2 ^ 64 ∧
    SameMemory s t ∧ t.jx = s.jx ∧ t.ken = s.ken) ∧
  (∀ s : State, ∃ t, exec .longPress s = .next t ∧ ctrGet t 0xC230 0x03 0 = (ctrGet s 0xC230 0x03 0 + 1) % 2 ^ 64 ∧
    SameMemory s t ∧ t.pwr = s.pwr ∧ t.isl = s.isl) ∧
  (∀ s : State, s.isl.latch ≠ .opened →
    ∃ t, exec .latchOpen s = .next t ∧ t.isl.latch = .opened ∧
      ctrGet t 0xC230 0x01 0 = (ctrGet s 0xC230 0x01 0 + 1) % 2 ^ 64 ∧
      (s.isl.extract = .inService → s.pair.state = .single → s.pwr.phase = .on → s.pwr.hold = none →
        t.isl.extract = .poweringDown ∧ t.pwr.hold = some true) ∧
      (s.isl.extract = .inService → s.pair.state = .active →
        t.isl.extract = if partnerReady s then .transferring else .refused)) ∧
  (∀ s : State, s.isl.latch = .opened → (s.isl.extract = .refused ∨ s.isl.extract = .safe) →
    ∃ t, exec .latchClose s = .next t ∧ t.isl.latch = .closed ∧ t.isl.extract = .inService) ∧
  (∀ s : State, s.isl.latch ≠ .fault →
    ∃ t, exec .latchFault s = .next t ∧ t.isl.latch = .fault ∧
      ctrGet t 0xC230 0x06 0 = (ctrGet s 0xC230 0x06 0 + 1) % 2 ^ 64) ∧
  (∀ (s : State) (c : BitVec 4) (mw : Nat), s.isl.cages.length = 16 → (cage s c.toNat).state = .empty →
    ∃ t, exec (.cageInserted c mw) s = .next t ∧ (cage t c.toNat).power = mw ∧
      (cage t c.toNat).state = if mainOn s then (if objGet s 0x2220 0x02 c.toNat < mw then .powerDenied else .initialising)
        else .inserted) ∧
  (∀ (s : State) (c : BitVec 4), s.isl.cages.length = 16 →
    ((cage s c.toNat).state = .initialising → ∃ t, exec (.moduleReady c) s = .next t ∧ (cage t c.toNat).state = .ready) ∧
    ((cage s c.toNat).state = .ready → ∃ t, exec (.moduleFault c) s = .next t ∧ (cage t c.toNat).state = .fault) ∧
    ((cage s c.toNat).state = .initialising → ∃ t, exec (.cageInitTimeout c) s = .next t ∧ (cage t c.toNat).state = .fault) ∧
    ((cage s c.toNat).state ≠ .empty → ∃ t, exec (.moduleRemoval c) s = .next t ∧ cage t c.toNat = ⟨.empty, 0, none⟩)) ∧
  (∀ (s : State) (a : BitVec 1), ∃ t, exec (.t1lLinkUp a) s = .next t ∧ (t.isl.t1l = 2 ∨ t.isl.t1l = 3) ∧
    t = { s with isl := { s.isl with t1l := t.isl.t1l } }) ∧
  (∀ s : State, 2 ≤ s.isl.t1l → ∃ t, exec .t1lLinkDown s = .next t ∧ t.isl.t1l = 0 ∧ t.uhl = s.uhl)

/-- With the loader running: PWR_GOOD_RISE of the rail waited for raises the next enable, or after the last makes the
release due; RAIL_GOOD_TIMEOUT of it drops every enable and leaves stage 1 in backoff with BOOT_CODE 6.
MAIN_RESET_RELEASE turns the main domain on. MAIN_HOLD_OFF_EXPIRY with work in flight ends the power-down request with
BUSY; MAIN_POWER_DOWN with none drops the rails. RAIL_FAULT of a rail of the running device drops the rails.
ISLAND_POWER_EFFECT of the only request, with nothing in flight and, for a host controller, its links down, stops the
island or turns it off; ISLAND_HOLD_OFF_EXPIRY with work in flight leaves it as it is with BUSY. REFCLK_LOSS starts
holdover and REFCLK_RELOCK ends it. JUNCTION_ABOVE_100 and JUNCTION_OVER_105 store the sample, the latter counting
above 105 degrees. THERMAL_TRIP above 115 degrees drops the rails and holds the trip. TJ_HOUR above 95 degrees counts.
Formalises 19 R432; 19 R434; 19 R437; 19 R438; 19 R439; 19 R444; 19 R445; 19 Table 19-3. -/
def Obligations.PowerCommandsTakeEffect : Prop :=
  (∀ (s : State) (rail : BitVec 3), s.pwr.phase = .rising rail.toNat → rail.toNat ≤ 5 →
    (∃ t, exec (.pwrGoodRise rail) s = .next t ∧
      (rail.toNat < 5 → t.pwr.phase = .rising (rail.toNat + 1) ∧
        t.pwr.en = s.pwr.en ||| BitVec.ofNat 6 (2 ^ (rail.toNat + 1))) ∧
      (rail.toNat = 5 → t.pwr.phase = .releasing ∧ t.pwr.en = s.pwr.en) ∧
      t.pwr.good = s.pwr.good ||| BitVec.ofNat 6 (2 ^ rail.toNat) ∧ { t with pwr := s.pwr } = s) ∧
    (loaderRuns s = true → ∃ t, exec (.railGoodTimeout rail) s = .next t ∧ t.pwr.phase = .off ∧ t.pwr.en = 0 ∧ t.boot.stage = .backoff ∧
      t.boot.code = 6)) ∧
  (∀ s : State, s.pwr.phase = .releasing →
    ∃ t, exec .mainResetRelease s = .next t ∧ mainOn t = true ∧ t.net.pllLocked = 0xF ∧
      ctrGet t 0xC220 0x01 0 = (ctrGet s 0xC220 0x01 0 + 1) % 2 ^ 64 ∧ SameMemory s t) ∧
  (∀ s : State, s.pwr.hold.isSome = true → s.isl.extract = .inService →
    (mainInflight s ≠ 0 → ∃ t, exec .mainHoldOffExpiry s = .next t ∧ t.pwr.hold = none ∧ t.pwr.phase = s.pwr.phase ∧
      objGet t 0x2100 0x03 0 = 1 ∧ SameMemory s t) ∧
    (mainInflight s = 0 → loaderRuns s = true → ∃ t, exec .mainPowerDown s = .next t ∧ t.pwr.phase = .off ∧ t.pwr.en = 0 ∧ t.pwr.hold = none ∧
      t.boot.stage = .stage1 ∧ t.hbm.mem = [] ∧ t.led.entries = [] ∧ objGet t 0x2100 0x03 0 = 0)) ∧
  (∀ (s : State) (rail : BitVec 3), s.pwr.phase = .on → rail.toNat ≤ 5 → s.isl.extract = .inService → loaderRuns s = true →
    ∃ t, exec (.railFault rail) s = .next t ∧ t.pwr.phase = .off ∧ t.pwr.en = 0 ∧ t.boot.stage = .backoff ∧
      t.boot.code = 6 ∧ objGet t 0x2100 0x03 0 = 3) ∧
  (∀ (s : State) (n : BitVec 6) (r : PowReq), s.pwr.reqs = [r] → r.island = n.toNat →
    (islandInflight s n.toNat = 0 → (n.toNat = 29 ∨ n.toNat = 30 → ∀ k, (linkGet s k).state ≠ 3) →
      ∃ t, exec (.islandPowerEffect n) s = .next t ∧ t.pwr.reqs = [] ∧
        islandState t n.toNat = (if r.off then 2 else 1) ∧ objGet t 0x2110 0x03 n.toNat = 0 ∧ SameMemory s t) ∧
    (islandInflight s n.toNat ≠ 0 → ∃ t, exec (.islandHoldOffExpiry n) s = .next t ∧ t.pwr.reqs = [] ∧
      t.pwr.isl = s.pwr.isl ∧ objGet t 0x2110 0x03 n.toNat = 1 ∧ SameMemory s t ∧ t.jx = s.jx)) ∧
  (∀ s : State, s.clk.holdover = false → ∃ t, exec .refclkLoss s = .next t ∧ t.clk = { s.clk with holdover := true } ∧
    t.net = s.net) ∧
  (∀ s : State, s.clk.holdover = true → ∃ t, exec .refclkRelock s = .next t ∧ t.clk = { s.clk with holdover := false } ∧
    t.net.lanes = s.net.lanes) ∧
  (∀ (s : State) (r : List (BitVec 16)),
    (∃ t, exec (.junctionAbove100 r) s = .next t ∧ t.pwr = { s.pwr with temps := r } ∧
      { t with pwr := s.pwr, isl := { t.isl with calibUsed := s.isl.calibUsed } } = s) ∧
    (hottest r ≤ 10500 → ∃ t, exec (.junctionOver105 r) s = .next t ∧ t.pwr = { s.pwr with temps := r } ∧
      { t with pwr := s.pwr, isl := { t.isl with calibUsed := s.isl.calibUsed } } = s) ∧
    (10500 < hottest r → ∃ t, exec (.junctionOver105 r) s = .next t ∧ t.pwr = { s.pwr with temps := r } ∧
      ctrGet t 0xC220 0x07 0 = (ctrGet s 0xC220 0x07 0 + 1) % 2 ^ 64) ∧
    (11500 < hottest r → s.pwr.phase ≠ .off → s.isl.extract = .inService → loaderRuns s = true →
      ∃ t, exec (.thermalTrip r) s = .next t ∧ t.pwr.phase = .off ∧ t.pwr.en = 0 ∧ t.pwr.tripped = true ∧
        t.boot.stage = .backoff)) ∧
  (∀ (s : State) (m : BitVec 16), ∃ t, exec (.tjHour m) s = .next t ∧ SameObjects s t ∧
    ctrGet t 0xC220 0x08 0 = if 9500 < m.toInt then (ctrGet s 0xC220 0x08 0 + 1) % 2 ^ 64 else ctrGet s 0xC220 0x08 0)

/-- TAP_RESET and IDCODE select IDCODE, which shifts out 0x1324847B; SAMPLE_PRELOAD shifts the chain out, the cells of
the 1.8 V pins as 0 while the main domain is off (which cells those are is open: assumption 254), and holds the
preloaded one; BYPASS selects BYPASS. EXTEST, CLAMP and HIGHZ act as BYPASS while locked, and once unlocked count a
hard fault and are selected; DEBUG is selected unless the lock level is CLOSED. UNLOCK with a response that satisfies
R450 unlocks, another answers AUTH, each with a fresh challenge, and in level CLOSED it answers LOCKED. RELOCK locks;
NEW_CHALLENGE takes a fresh challenge. FREEZE_MAX_EXPIRY lets the held snapshot go. A misaligned REGISTER_WRITE, and
one to the timetable registers with the main domain off, in a PF0 that is not there or in a PF0 of another link than
the primary one, changes nothing; in the PF0 of the primary link with Memory Space Enable 1 TT_LENGTH, TT_FAULT (write
1 to clear) and TC_INDEX take what is written, and so does DATA of the debug port. Formalises 00 R7; 03 Table 3-9; 06
Table 6-9; 11 R252; 20 R449; 20 R450; 20 R459; 20 Table 20-3. -/
def Obligations.TestPortAndRegisterWritesTakeEffect : Prop :=
  (∀ s : State, exec .tapReset s = .next { s with dbg := { s.dbg with ir := 1 } }) ∧
  (∀ s : State, exec .idcode s = .next { s with dbg := { s.dbg with ir := 1 }, out := s.out ++ [.tdo 1 0x1324847B] }) ∧
  (∀ (s : State) (a b : BitVec 256), exec (.samplePreload a b) s =
    .next { s with
      dbg := { s.dbg with ir := 2, chain := b }
      out := s.out ++ [.tdo 2 (if mainOn s then a.toNat else (a &&& ~~~Config.lowCells).toNat)] }) ∧
  (∀ s : State, exec .bypass s = .next { s with dbg := { s.dbg with ir := 0xFF } }) ∧
  (∀ (s : State) (c : Instr) (code : BitVec 8),
    ((c = .extest ∧ code = 3) ∨ (c = .clamp ∧ code = 4) ∨ (c = .highz ∧ code = 5)) →
    (s.dbg.unlocked = false → exec c s = .next { s with dbg := { s.dbg with ir := 0xFF } }) ∧
    (s.dbg.unlocked = true → ∃ t, exec c s = .next t ∧ t.dbg = { s.dbg with ir := code } ∧ t.isl.ledFault = true ∧
      (s.pair.state ≠ .single → t.pair.state = .fault ∧ t.pair.fence = true) ∧ SameMemory s t ∧ t.ken = s.ken)) ∧
  (∀ s : State, exec .debug s =
    .next { s with dbg := { s.dbg with ir := if Config.lockLevel = 2 then 0xFF else 0x10 } }) ∧
  (∀ s : State, ∃ t, exec .unlock s = .next t ∧
    (if Config.lockLevel = 2 then t = { s with dbg := { s.dbg with result := 2 } }
    else t.dbg.nonce = s.dbg.nonce + 1 ∧ t.dbg.unlocked = (responseOk s || s.dbg.unlocked) ∧
      t.dbg.result = if responseOk s then 0 else 6) ∧ SameMemory s t ∧ t.jx = s.jx) ∧
  (∀ s : State, exec .relock s =
    .next { s with dbg := { s.dbg with unlocked := false, result := if s.dbg.unlocked then 0 else 2 } }) ∧
  (∀ s : State, exec .newChallenge s = .next (if Config.lockLevel = 2 then { s with dbg := { s.dbg with result := 2 } }
    else { s with dbg := { s.dbg with nonce := s.dbg.nonce + 1, result := 0 } })) ∧
  (∀ s : State, s.logs.frozen.isSome = true →
    ∃ t, exec .freezeMaxExpiry s = .next t ∧ t.logs = { s.logs with frozen := none } ∧ objGet t 0xD000 0x02 0 = 0) ∧
  (∀ (s : State) (r : RegAddr) (wide : Bool) (v : BitVec 64), regOffset r % (if wide then 8 else 4) ≠ 0 →
    exec (.registerWrite r wide v) s = .next s) ∧
  (∀ (s : State) (k : BitVec 2) (off : BitVec 12) (wide : Bool) (v : BitVec 64),
    (mainOn s = false ∨ fnPresent s k.toNat 0 = false ∨ (memSpaceOn s k.toNat 0 = true ∧ k.toNat ≠ s.hst.primary)) →
    exec (.registerWrite (.timetable k off) wide v) s = .next s) ∧
  (∀ (s : State) (k : BitVec 2) (v : BitVec 64), mainOn s = true → fnPresent s k.toNat 0 = true →
    memSpaceOn s k.toNat 0 = true → k.toNat = s.hst.primary →
    exec (.registerWrite (.timetable k 0x010) false v) s = .next { s with tt := { s.tt with length := v.setWidth 32 } } ∧
    exec (.registerWrite (.timetable k 0x030) false v) s =
      .next { s with tt := { s.tt with fault := s.tt.fault &&& ~~~(v.setWidth 3) } } ∧
    ∀ w : BitVec 3, s.tc.wins.length = 8 → ∃ t, exec (.registerWrite (.window k w 0x008) false v) s = .next t ∧
      tcWin t w.toNat = { tcWin s w.toNat with index := v.setWidth 24 } ∧
      ∀ n, n ≠ w.toNat → tcWin t n = tcWin s n) ∧
  (∀ (s : State) (v : BitVec 64), exec (.registerWrite (.dap 0x018) true v) s = .next { s with dbg := { s.dbg with data := v } })

/-- While the port is locked each debug command answers LOCKED (2), and unlocked with its target not powered
NOT_POWERED (5), and nothing else changes. On a powered thread: HALT halts one neither faulted nor halted and answers
STATE (3) for a faulted one; RESUME of one halted while runnable makes it runnable; STEP of it leaves it neither
runnable nor stopped; ABORT_STAGED frees the channel that its write owner staged, or answers NOTHING_STAGED (1);
ABORT_WAIT makes a frozen thread runnable with 0 or 8 in rd and its engine not frozen; REG_READ reads x0 to x31 and
the PC; REG_WRITE of a halted thread writes x1 to x31. In device memory MEM_READ reads and MEM_WRITE writes 8 bytes,
or answers FIREWALL (4) and keeps them where write-locked. NOR_ERASE erases one 4 KiB block. Memory that the part does
not carry is the fault noDeviceMemory (the model's choice, assumption 108). BREAKPOINT halts a runnable thread that a
breakpoint meets and no other. Formalises 20 R450; 20 R452; 20 R453; 20 R454; 20 R455; 20 Table 20-2; 20 Table 20-3.
-/
def Obligations.DebugCommandsActOnTheTarget : Prop :=
  (∀ (s : State) (c : Instr), DapCommand c →
    (s.dbg.unlocked = false → exec c s = .next { s with dbg := { s.dbg with result := 2 } }) ∧
    (s.dbg.unlocked = true → selKind s ≠ 3 → islandUp s (selIsland s) = false →
      exec c s = .next { s with dbg := { s.dbg with result := 5 } })) ∧
  (∀ (s : State) (th : BitVec 10), DapAtThread s th →
    ((thread s th.toNat).state = .faulted → exec .debugHalt s = .next { s with dbg := { s.dbg with result := 3 } }) ∧
    ((thread s th.toNat).state ≠ .faulted → (thread s th.toNat).state ≠ .halted →
      ∃ t, exec .debugHalt s = .next t ∧ t.dbg.result = 0 ∧
        thread t th.toNat = { thread s th.toNat with state := .halted, before := (thread s th.toNat).state } ∧
        OtherThreads s t th ∧ SameMemory s t) ∧
    ((thread s th.toNat).state = .halted → (thread s th.toNat).before = .runnable →
      (∃ t, exec .debugResume s = .next t ∧ t.dbg.result = 0 ∧ (thread t th.toNat).state = .runnable ∧ OtherThreads s t th) ∧
      ∃ t, exec .debugStep s = .next t ∧ t.dbg.result = 0 ∧ (thread t th.toNat).state ≠ .runnable ∧
        (thread t th.toNat).state ≠ .stopped) ∧
    ((thread s th.toNat).owns = none → exec .abortStaged s = .next { s with dbg := { s.dbg with result := 1 } }) ∧
    (∀ ch, (thread s th.toNat).owns = some ch →
      ∃ t, exec .abortStaged s = .next t ∧ t.dbg.result = 0 ∧ (thread t th.toNat).owns = none ∧
        (channel t (thCluster th.toNat) ch).owner = none) ∧
    (∀ w, (thread s th.toNat).state = .frozen → (thread s th.toNat).wait = some w →
      ∃ t, exec .abortWait s = .next t ∧ t.dbg.result = 0 ∧ (thread t th.toNat).state = .runnable ∧
        (thread t th.toNat).wait = none ∧ WroteReg s t th w.rd (if w.sel = 0 then 8 else 0) ∧
        (engine t (thEngine th.toNat)).frozen = false) ∧
    (∀ r : BitVec 5, s.dbg.regno = r.setWidth 16 →
      exec .regRead s = .next { s with dbg := { s.dbg with data := getReg s th.toNat r, result := 0 } } ∧
      ((thread s th.toNat).state = .halted →
        ∃ t, exec .regWrite s = .next t ∧ t.dbg = { s.dbg with result := 0 } ∧ WroteReg s t th r s.dbg.data ∧
          OtherThreads s t th ∧ SameMemory s t)) ∧
    (s.dbg.regno = 32 →
      exec .regRead s = .next { s with dbg := { s.dbg with data := (thread s th.toNat).pc, result := 0 } })) ∧
  (∀ s : State, s.dbg.unlocked = true → selKind s = 2 → islandUp s 33 = true → s.dbg.addr.toNat % 8 = 0 →
    (s.dbg.addr.toNat + 8 ≤ hbmSize → exec .memRead s = .next { s with dbg := { s.dbg with
      data := BitVec.ofNat 64 (leNat (hbmRead s s.dbg.addr.toNat 8)), result := 0 } }) ∧
    (s.dbg.addr.toNat + 8 ≤ hbmSize → ∃ t, exec .memWrite s = .next t ∧
      (if hbmLocked s s.dbg.addr.toNat 8 then t = { s with dbg := { s.dbg with result := 4 } }
      else t.dbg.result = 0 ∧ ∀ a, hbmByte t a = if s.dbg.addr.toNat ≤ a ∧ a < s.dbg.addr.toNat + 8 then
        byteAt (leBytes 8 s.dbg.data.toNat) (a - s.dbg.addr.toNat) else hbmByte s a)) ∧
    (hbmSize < s.dbg.addr.toNat + 8 → exec .memRead s = .fault (.noDeviceMemory s.dbg.addr.toNat) ∧
      exec .memWrite s = .fault (.noDeviceMemory s.dbg.addr.toNat))) ∧
  (∀ s : State, s.dbg.unlocked = true → selKind s = 3 → norHeld s = false →
    (s.dbg.addr.toNat / 4096 * 4096 < norSize → ∃ t, exec .norErase s = .next t ∧ t.dbg.result = 0 ∧ SameMemory s t ∧
      ∀ a, norByte t a = if a / 4096 = s.dbg.addr.toNat / 4096 then 0xFF else norByte s a) ∧
    (norSize ≤ s.dbg.addr.toNat / 4096 * 4096 → exec .norErase s = .fault (.noDeviceMemory s.dbg.addr.toNat))) ∧
  (∀ (s : State) (th : BitVec 10),
    ((thread s th.toNat).state = .runnable → bpHit s th.toNat = true →
      ∃ t, exec (.breakpoint th) s = .next t ∧ (thread t th.toNat).state = .halted ∧ OtherThreads s t th) ∧
    (((thread s th.toNat).state ≠ .runnable ∨ bpHit s th.toNat = false) → exec (.breakpoint th) s = .next s))

/-- For every command, state and queue, a step of the state with that command at the front of its queue is the
command's effect on the state with the queue's rest. With an empty queue a step changes nothing (the model's choice,
assumption 5). Formalises 00 Scope; 95 What each step holds. -/
def Obligations.StepTakesTheFrontCommand : Prop :=
  (∀ (c : Instr) (rest : List Instr) (s : State), step { s with pending := c :: rest } = exec c { s with pending := rest }) ∧
  (∀ s : State, s.pending = [] → step s = .next s)

/-- The state after reset meets the invariant that every step keeps; no command waits; every counter reads 0; every
lane is DISABLED, the timetable is EMPTY with armBeat 0 and no image, every DMA channel is at its reset state (IDLE),
every key slot is EMPTY, every cluster channel has no owner and an empty ring, no frame is in flight, the ledger is
empty, the device is SINGLE and not fenced, cluster time is 0 and the test port has IDCODE selected. Formalises 02
R51; 03 Table 3-9; 07 R159; 07 R162; 10 Table 10-1; 13 R299; 20 R449; 20 R452. -/
def Obligations.ResetLeavesEveryBlockIdle : Prop :=
  Inv State.reset ∧ State.reset.pending = [] ∧ (∀ idx sub el, ctrGet State.reset idx sub el = 0) ∧
    (∀ l ∈ State.reset.net.lanes, l.state = .disabled) ∧ State.reset.tt.state = .empty ∧ State.reset.tt.armBeat = 0 ∧
    State.reset.tt.cur = none ∧ (∀ c, (chan State.reset c).state = .idle) ∧ (∀ n, (slotGet State.reset n).state = .empty) ∧
    (∀ c ch, (channel State.reset c ch).owner = none) ∧ State.reset.pipe.items = [] ∧ State.reset.led.entries = [] ∧
    State.reset.pair.state = .single ∧ State.reset.pair.fence = false ∧ clusterTime State.reset = 0 ∧
    State.reset.dbg.ir = 1

/-- From every state that meets the invariant, whatever command stands at the front of the queue, a step that answers
a next state answers one that meets it: the list of device memory and the list of NOR bytes stay in canonical form
(addresses strictly rising, no entry equal to what an unlisted address reads as), the slot stays below 4,096, and
lanes, control sequencers, host links, mailboxes, cages and command windows keep their number. Formalises 00 Table
0-1; 02 R28; 03 R60; 11 R249; 15 R345; 16 R389; 18 R419; 06 R145. -/
def Obligations.EveryStepKeepsTheInvariant : Prop :=
  ∀ s t : State, Inv s → step s = .next t → Inv t

/-- Every command in every state answers a next state, whose queue of waiting commands is that of the state before;
only MEM_READ, MEM_WRITE and NOR_ERASE of the debug port can end otherwise, in the fault noDeviceMemory at the address
of ADDR (the model's choice, assumption 108). No command is refused. Formalises 95 What each step holds; 20 R453. -/
def Obligations.EveryCommandCompletes : Prop :=
  ∀ (c : Instr) (s : State),
    (∃ t, exec c s = .next t ∧ t.pending = s.pending) ∨
      ((c = .memRead ∨ c = .memWrite ∨ c = .norErase) ∧ exec c s = .fault (.noDeviceMemory s.dbg.addr.toNat))

/-- A slice set to EF1124-compatible mode can be bound only to a VF: an operator's request to bind such a slice to a
PASID is refused with OUT_OF_RANGE (5) and the slice stays unbound, and a request to set a slice bound to a PASID to
the compatible mode is refused in the same way. No object changes. Formalises 01 R26. -/
def Obligations.CompatibleSlicesBindOnlyToVfs : Prop :=
  ∀ (s : State) (p : Pdu) (x : Session) (sl : BitVec 14) (sub : Nat), Served s p x → tagOk x 7 p = true →
    x.role = .operator → coresServe s = true → (s.pair.state = .single ∨ s.pair.state = .active) →
    ((sub = 0x06 ∧ objGet s 0xB000 0x0A sl.toNat = 1 ∧ objGet s 0xB000 0x06 sl.toNat = 0) ∨
      (sub = 0x0A ∧ objGet s 0xB000 0x06 sl.toNat = 1 ∧ objGet s 0xB000 0x0A sl.toNat = 0)) →
    p.body = leBytes 8 (0xB000 + sub * 2 ^ 16 + 2 ^ 24 + sl.toNat * 2 ^ 32) ++ [1, 0, 1] →
    ∃ t, exec (.uhWrite p) s = .next t ∧ Replied t 7 p 5 [] ∧ SameObjects s t ∧
      (sub = 0x06 → objGet t 0xB000 0x06 sl.toNat = 0)

/-- A paired word of 2n bits that carries v holds the low n bits of v in bits n-1 to 0 and their complement in bits
2n-1 to n, and nothing above. A paired word is intact exactly when each bit of its upper half differs from the bit of
its lower half, that is when the exclusive-OR of its halves has all n bits set; any other content is a pair fault.
Formalises 00 R5. -/
def Obligations.PairedWordsHoldComplements : Prop :=
  (∀ n v i : Nat, i < n →
    (pairOf n v).testBit i = v.testBit i ∧ (pairOf n v).testBit (n + i) = !(v.testBit i)) ∧
  (∀ n v : Nat, pairOf n v < 2 ^ (2 * n)) ∧
  (∀ n w : Nat, pairOk n w = true ↔ ∀ i, i < n → w.testBit (n + i) = !(w.testBit i)) ∧
  (∀ n v : Nat, pairOk n (pairOf n v) = true)

end
end

