-- ==== Sys2Proof/Laws/Sparse.lean ====
section
/-!
SUPPORT. Laws of sparse stores: read after write, and the canonical form that every write keeps.
-/

namespace Sys2Proof.Machine

theorem sfind_sput {α : Type} (m : Sparse α) (k j : Nat) (v : α) :
    sfind (sput m k v) j = if j = k then some v else sfind m j := by
  induction m with
  | nil => by_cases h : j = k <;> simp [sput, sfind, h, eq_comm] <;> omega
  | cons e r ih =>
    obtain ⟨k', v'⟩ := e
    simp only [sput]
    split
    · by_cases h : j = k
      · simp [sfind, h]
      · simp [sfind, h, Ne.symm h]
    · split
      · rename_i h1 h2
        subst h2
        by_cases h : j = k
        · simp [sfind, h]
        · simp [sfind, h, Ne.symm h]
      · by_cases h : j = k
        · subst h; simp only [sfind]; rw [if_neg (by omega), ih]; simp
        · simp only [sfind, ih, h, if_false]

theorem sfind_serase {α : Type} (m : Sparse α) (k j : Nat) :
    sfind (serase m k) j = if j = k then none else sfind m j := by
  induction m with
  | nil => simp [serase, sfind]
  | cons e r ih =>
    obtain ⟨k', v'⟩ := e
    simp only [serase, List.filter_cons] at ih ⊢
    by_cases h : k' = k
    · subst h
      simp only [bne_self_eq_false, Bool.false_eq_true, if_false, ih, sfind]
      by_cases hj : j = k'
      · simp [hj]
      · simp [hj, Ne.symm hj]
    · simp only [bne_iff_ne, ne_eq, h, not_false_eq_true, if_true, sfind, ih]
      by_cases hj : j = k
      · subst hj; simp [h]
      · simp [hj]

/-- Read after write: the written key gives the value written, every other key what it gave before. -/
theorem sget_sset {α : Type} [DecidableEq α] (d : α) (m : Sparse α) (k j : Nat) (v : α) :
    sget d (sset d m k v) j = if j = k then v else sget d m j := by
  unfold sget sset
  split
  · rename_i h; rw [sfind_serase]; split <;> simp [h]
  · rw [sfind_sput]; split <;> simp

@[simp] theorem sget_sset_self {α : Type} [DecidableEq α] (d : α) (m : Sparse α) (k : Nat) (v : α) :
    sget d (sset d m k v) k = v := by simp [sget_sset]

theorem sget_sset_ne {α : Type} [DecidableEq α] (d : α) (m : Sparse α) {k j : Nat} (v : α) (h : j ≠ k) :
    sget d (sset d m k v) j = sget d m j := by simp [sget_sset, h]

theorem sfind_sset_ne {α : Type} [DecidableEq α] (d : α) (m : Sparse α) {k j : Nat} (v : α) (h : j ≠ k) :
    sfind (sset d m k v) j = sfind m j := by
  unfold sset
  split
  · rw [sfind_serase, if_neg h]
  · rw [sfind_sput, if_neg h]

/-- A read elsewhere, whatever it takes for an unlisted key. -/
theorem sget_sset_far {α : Type} [DecidableEq α] (c d : α) (m : Sparse α) {k j : Nat} (v : α) (h : j ≠ k) :
    sget c (sset d m k v) j = sget c m j := by
  unfold sget
  rw [sfind_sset_ne d m v h]

@[simp] theorem sget_nil {α : Type} (d : α) (k : Nat) : sget d [] k = d := rfl

/-! ## The canonical form -/

theorem srising_cons {α : Type} (e : Nat × α) (r : Sparse α) :
    srising (e :: r) = true ↔ (∀ x ∈ r, e.1 < x.1) ∧ srising r = true := by
  induction r generalizing e with
  | nil => simp [srising]
  | cons x r ih =>
    obtain ⟨a, u⟩ := e
    obtain ⟨b, v⟩ := x
    simp only [srising, Bool.and_eq_true, decide_eq_true_eq]
    rw [ih (b, v)]
    constructor
    · rintro ⟨hab, hr, hs⟩
      refine ⟨?_, hr, hs⟩
      intro y hy
      rcases List.mem_cons.mp hy with rfl | hy
      · exact hab
      · exact lt_trans hab (hr y hy)
    · rintro ⟨hall, hr, hs⟩
      exact ⟨hall (b, v) (by simp), hr, hs⟩

theorem mem_sput {α : Type} {m : Sparse α} {k : Nat} {v : α} {x : Nat × α} (h : x ∈ sput m k v) :
    x = (k, v) ∨ x ∈ m := by
  induction m with
  | nil => simpa [sput] using h
  | cons e r ih =>
    obtain ⟨k', v'⟩ := e
    simp only [sput] at h
    split at h
    · simpa using h
    · split at h
      · rcases List.mem_cons.mp h with h | h
        · exact .inl h
        · exact .inr (List.mem_cons_of_mem _ h)
      · rcases List.mem_cons.mp h with h | h
        · exact .inr (by simp [h])
        · rcases ih h with h | h
          · exact .inl h
          · exact .inr (List.mem_cons_of_mem _ h)

theorem srising_sput {α : Type} (m : Sparse α) (k : Nat) (v : α) (h : srising m = true) :
    srising (sput m k v) = true := by
  induction m with
  | nil => rfl
  | cons e r ih =>
    obtain ⟨k', v'⟩ := e
    have hc := (srising_cons _ _).mp h
    simp only [sput]
    split
    · rename_i hk
      rw [srising_cons]
      refine ⟨?_, h⟩
      intro x hx
      rcases List.mem_cons.mp hx with rfl | hx
      · exact hk
      · exact lt_trans hk (hc.1 x hx)
    · split
      · rename_i _ hk
        subst hk
        rw [srising_cons]
        exact ⟨hc.1, hc.2⟩
      · rw [srising_cons]
        refine ⟨?_, ih hc.2⟩
        intro x hx
        rcases mem_sput hx with rfl | hx
        · show k' < k; omega
        · exact hc.1 x hx

theorem srising_filter {α : Type} (p : Nat × α → Bool) (m : Sparse α) (h : srising m = true) :
    srising (m.filter p) = true := by
  induction m with
  | nil => rfl
  | cons e r ih =>
    have hc := (srising_cons _ _).mp h
    simp only [List.filter_cons]
    split
    · rw [srising_cons]
      exact ⟨fun x hx => hc.1 x (List.mem_filter.mp hx).1, ih hc.2⟩
    · exact ih hc.2

/-- A write keeps the canonical form. -/
theorem swf_sset {α : Type} [DecidableEq α] (d : α) (m : Sparse α) (k : Nat) (v : α) (h : swf d m = true) :
    swf d (sset d m k v) = true := by
  simp only [swf, Bool.and_eq_true, List.all_eq_true, decide_eq_true_eq] at h ⊢
  unfold sset
  split
  · exact ⟨srising_filter _ _ h.1, fun x hx => h.2 x (List.mem_filter.mp hx).1⟩
  · rename_i hv
    refine ⟨srising_sput _ _ _ h.1, ?_⟩
    intro x hx
    rcases mem_sput hx with rfl | hx
    · exact hv
    · exact h.2 x hx

end Sys2Proof.Machine
end

