-- ==== Sys2Proof/Laws/State.lean ====
section
/-!
SUPPORT. What each one-field update of the state leaves as it was: one lemma per update, a conjunct per field, each true by
definition; the lemmas fire as rewrite rules.
-/

namespace Sys2Proof.Machine.Laws

open Sys2Proof Sys2Proof.Machine

@[simp] theorem atSlot_frame (s : State) (slot : BitVec 12) :
    (atSlot s slot).pending = s.pending ∧ (atSlot s slot).objs = s.objs ∧ (atSlot s slot).led = s.led ∧
    (atSlot s slot).pair = s.pair ∧ (atSlot s slot).logs = s.logs ∧ (atSlot s slot).uhl = s.uhl ∧
    (atSlot s slot).net = s.net ∧ (atSlot s slot).shp = s.shp ∧ (atSlot s slot).tt = s.tt ∧
    (atSlot s slot).pipe = s.pipe ∧ (atSlot s slot).stg = s.stg ∧ (atSlot s slot).fwd = s.fwd ∧
    (atSlot s slot).tc = s.tc ∧ (atSlot s slot).jx = s.jx ∧ (atSlot s slot).cip = s.cip ∧
    (atSlot s slot).ken = s.ken ∧ (atSlot s slot).dma = s.dma ∧ (atSlot s slot).hst = s.hst ∧
    (atSlot s slot).slc = s.slc ∧ (atSlot s slot).boot = s.boot ∧ (atSlot s slot).isl = s.isl ∧
    (atSlot s slot).pwr = s.pwr ∧ (atSlot s slot).dbg = s.dbg ∧ (atSlot s slot).hbm = s.hbm ∧
    (atSlot s slot).out = s.out ∧ (atSlot s slot).fresh = s.fresh := by and_intros <;> rfl

@[simp] theorem emit_frame (s : State) (o : Output) :
    (emit s o).pending = s.pending ∧ (emit s o).clk = s.clk ∧ (emit s o).objs = s.objs ∧ (emit s o).led = s.led ∧
    (emit s o).pair = s.pair ∧ (emit s o).logs = s.logs ∧ (emit s o).uhl = s.uhl ∧ (emit s o).net = s.net ∧
    (emit s o).shp = s.shp ∧ (emit s o).tt = s.tt ∧ (emit s o).pipe = s.pipe ∧ (emit s o).stg = s.stg ∧
    (emit s o).fwd = s.fwd ∧ (emit s o).tc = s.tc ∧ (emit s o).jx = s.jx ∧ (emit s o).cip = s.cip ∧
    (emit s o).ken = s.ken ∧ (emit s o).dma = s.dma ∧ (emit s o).hst = s.hst ∧ (emit s o).slc = s.slc ∧
    (emit s o).boot = s.boot ∧ (emit s o).isl = s.isl ∧ (emit s o).pwr = s.pwr ∧ (emit s o).dbg = s.dbg ∧
    (emit s o).hbm = s.hbm ∧ (emit s o).fresh = s.fresh := by and_intros <;> rfl

@[simp] theorem hbmWrite_frame (s : State) (a : Nat) (bs : List Byte) :
    (hbmWrite s a bs).pending = s.pending ∧ (hbmWrite s a bs).clk = s.clk ∧ (hbmWrite s a bs).objs = s.objs ∧
    (hbmWrite s a bs).led = s.led ∧ (hbmWrite s a bs).pair = s.pair ∧ (hbmWrite s a bs).logs = s.logs ∧
    (hbmWrite s a bs).uhl = s.uhl ∧ (hbmWrite s a bs).net = s.net ∧ (hbmWrite s a bs).shp = s.shp ∧
    (hbmWrite s a bs).tt = s.tt ∧ (hbmWrite s a bs).pipe = s.pipe ∧ (hbmWrite s a bs).stg = s.stg ∧
    (hbmWrite s a bs).fwd = s.fwd ∧ (hbmWrite s a bs).tc = s.tc ∧ (hbmWrite s a bs).jx = s.jx ∧
    (hbmWrite s a bs).cip = s.cip ∧ (hbmWrite s a bs).ken = s.ken ∧ (hbmWrite s a bs).dma = s.dma ∧
    (hbmWrite s a bs).hst = s.hst ∧ (hbmWrite s a bs).slc = s.slc ∧ (hbmWrite s a bs).boot = s.boot ∧
    (hbmWrite s a bs).isl = s.isl ∧ (hbmWrite s a bs).pwr = s.pwr ∧ (hbmWrite s a bs).dbg = s.dbg ∧
    (hbmWrite s a bs).out = s.out ∧ (hbmWrite s a bs).fresh = s.fresh := by and_intros <;> rfl

@[simp] theorem unlockHbm_frame (s : State) (owner : Nat) :
    (unlockHbm s owner).pending = s.pending ∧ (unlockHbm s owner).clk = s.clk ∧ (unlockHbm s owner).objs = s.objs ∧
    (unlockHbm s owner).led = s.led ∧ (unlockHbm s owner).pair = s.pair ∧ (unlockHbm s owner).logs = s.logs ∧
    (unlockHbm s owner).uhl = s.uhl ∧ (unlockHbm s owner).net = s.net ∧ (unlockHbm s owner).shp = s.shp ∧
    (unlockHbm s owner).tt = s.tt ∧ (unlockHbm s owner).pipe = s.pipe ∧ (unlockHbm s owner).stg = s.stg ∧
    (unlockHbm s owner).fwd = s.fwd ∧ (unlockHbm s owner).tc = s.tc ∧ (unlockHbm s owner).jx = s.jx ∧
    (unlockHbm s owner).cip = s.cip ∧ (unlockHbm s owner).ken = s.ken ∧ (unlockHbm s owner).dma = s.dma ∧
    (unlockHbm s owner).hst = s.hst ∧ (unlockHbm s owner).slc = s.slc ∧ (unlockHbm s owner).boot = s.boot ∧
    (unlockHbm s owner).isl = s.isl ∧ (unlockHbm s owner).pwr = s.pwr ∧ (unlockHbm s owner).dbg = s.dbg ∧
    (unlockHbm s owner).out = s.out ∧ (unlockHbm s owner).fresh = s.fresh := by and_intros <;> rfl

@[simp] theorem lockHbm_frame (s : State) (a n owner : Nat) :
    (lockHbm s a n owner).pending = s.pending ∧ (lockHbm s a n owner).clk = s.clk ∧
    (lockHbm s a n owner).objs = s.objs ∧ (lockHbm s a n owner).led = s.led ∧ (lockHbm s a n owner).pair = s.pair ∧
    (lockHbm s a n owner).logs = s.logs ∧ (lockHbm s a n owner).uhl = s.uhl ∧ (lockHbm s a n owner).net = s.net ∧
    (lockHbm s a n owner).shp = s.shp ∧ (lockHbm s a n owner).tt = s.tt ∧ (lockHbm s a n owner).pipe = s.pipe ∧
    (lockHbm s a n owner).stg = s.stg ∧ (lockHbm s a n owner).fwd = s.fwd ∧ (lockHbm s a n owner).tc = s.tc ∧
    (lockHbm s a n owner).jx = s.jx ∧ (lockHbm s a n owner).cip = s.cip ∧ (lockHbm s a n owner).ken = s.ken ∧
    (lockHbm s a n owner).dma = s.dma ∧ (lockHbm s a n owner).hst = s.hst ∧ (lockHbm s a n owner).slc = s.slc ∧
    (lockHbm s a n owner).boot = s.boot ∧ (lockHbm s a n owner).isl = s.isl ∧ (lockHbm s a n owner).pwr = s.pwr ∧
    (lockHbm s a n owner).dbg = s.dbg ∧ (lockHbm s a n owner).out = s.out ∧ (lockHbm s a n owner).fresh = s.fresh := by and_intros <;> rfl

@[simp] theorem objPutKey_frame (s : State) (k v : Nat) :
    (objPutKey s k v).pending = s.pending ∧ (objPutKey s k v).clk = s.clk ∧ (objPutKey s k v).led = s.led ∧
    (objPutKey s k v).pair = s.pair ∧ (objPutKey s k v).logs = s.logs ∧ (objPutKey s k v).uhl = s.uhl ∧
    (objPutKey s k v).net = s.net ∧ (objPutKey s k v).shp = s.shp ∧ (objPutKey s k v).tt = s.tt ∧
    (objPutKey s k v).pipe = s.pipe ∧ (objPutKey s k v).stg = s.stg ∧ (objPutKey s k v).fwd = s.fwd ∧
    (objPutKey s k v).tc = s.tc ∧ (objPutKey s k v).jx = s.jx ∧ (objPutKey s k v).cip = s.cip ∧
    (objPutKey s k v).ken = s.ken ∧ (objPutKey s k v).dma = s.dma ∧ (objPutKey s k v).hst = s.hst ∧
    (objPutKey s k v).slc = s.slc ∧ (objPutKey s k v).boot = s.boot ∧ (objPutKey s k v).isl = s.isl ∧
    (objPutKey s k v).pwr = s.pwr ∧ (objPutKey s k v).dbg = s.dbg ∧ (objPutKey s k v).hbm = s.hbm ∧
    (objPutKey s k v).out = s.out ∧ (objPutKey s k v).fresh = s.fresh := by and_intros <;> rfl

@[simp] theorem ctrAddAt_frame (s : State) (idx sub el n : Nat) :
    (ctrAddAt s idx sub el n).pending = s.pending ∧ (ctrAddAt s idx sub el n).clk = s.clk ∧
    (ctrAddAt s idx sub el n).led = s.led ∧ (ctrAddAt s idx sub el n).pair = s.pair ∧
    (ctrAddAt s idx sub el n).logs = s.logs ∧ (ctrAddAt s idx sub el n).uhl = s.uhl ∧
    (ctrAddAt s idx sub el n).net = s.net ∧ (ctrAddAt s idx sub el n).shp = s.shp ∧
    (ctrAddAt s idx sub el n).tt = s.tt ∧ (ctrAddAt s idx sub el n).pipe = s.pipe ∧
    (ctrAddAt s idx sub el n).stg = s.stg ∧ (ctrAddAt s idx sub el n).fwd = s.fwd ∧
    (ctrAddAt s idx sub el n).tc = s.tc ∧ (ctrAddAt s idx sub el n).jx = s.jx ∧
    (ctrAddAt s idx sub el n).cip = s.cip ∧ (ctrAddAt s idx sub el n).ken = s.ken ∧
    (ctrAddAt s idx sub el n).dma = s.dma ∧ (ctrAddAt s idx sub el n).hst = s.hst ∧
    (ctrAddAt s idx sub el n).slc = s.slc ∧ (ctrAddAt s idx sub el n).boot = s.boot ∧
    (ctrAddAt s idx sub el n).isl = s.isl ∧ (ctrAddAt s idx sub el n).pwr = s.pwr ∧
    (ctrAddAt s idx sub el n).dbg = s.dbg ∧ (ctrAddAt s idx sub el n).hbm = s.hbm ∧
    (ctrAddAt s idx sub el n).out = s.out ∧ (ctrAddAt s idx sub el n).fresh = s.fresh := by and_intros <;> rfl

@[simp] theorem waitRoom_frame (s : State) :
    (waitRoom s).pending = s.pending ∧ (waitRoom s).clk = s.clk ∧ (waitRoom s).objs = s.objs ∧
    (waitRoom s).led = s.led ∧ (waitRoom s).logs = s.logs ∧ (waitRoom s).uhl = s.uhl ∧ (waitRoom s).net = s.net ∧
    (waitRoom s).shp = s.shp ∧ (waitRoom s).tt = s.tt ∧ (waitRoom s).pipe = s.pipe ∧ (waitRoom s).stg = s.stg ∧
    (waitRoom s).fwd = s.fwd ∧ (waitRoom s).tc = s.tc ∧ (waitRoom s).jx = s.jx ∧ (waitRoom s).cip = s.cip ∧
    (waitRoom s).ken = s.ken ∧ (waitRoom s).dma = s.dma ∧ (waitRoom s).hst = s.hst ∧ (waitRoom s).slc = s.slc ∧
    (waitRoom s).boot = s.boot ∧ (waitRoom s).isl = s.isl ∧ (waitRoom s).pwr = s.pwr ∧ (waitRoom s).dbg = s.dbg ∧
    (waitRoom s).hbm = s.hbm ∧ (waitRoom s).out = s.out ∧ (waitRoom s).fresh = s.fresh := by and_intros <;> rfl

@[simp] theorem ledMetaSet_frame (s : State) (i : Nat) (m : LedMeta) :
    (ledMetaSet s i m).pending = s.pending ∧ (ledMetaSet s i m).clk = s.clk ∧ (ledMetaSet s i m).objs = s.objs ∧
    (ledMetaSet s i m).pair = s.pair ∧ (ledMetaSet s i m).logs = s.logs ∧ (ledMetaSet s i m).uhl = s.uhl ∧
    (ledMetaSet s i m).net = s.net ∧ (ledMetaSet s i m).shp = s.shp ∧ (ledMetaSet s i m).tt = s.tt ∧
    (ledMetaSet s i m).pipe = s.pipe ∧ (ledMetaSet s i m).stg = s.stg ∧ (ledMetaSet s i m).fwd = s.fwd ∧
    (ledMetaSet s i m).tc = s.tc ∧ (ledMetaSet s i m).jx = s.jx ∧ (ledMetaSet s i m).cip = s.cip ∧
    (ledMetaSet s i m).ken = s.ken ∧ (ledMetaSet s i m).dma = s.dma ∧ (ledMetaSet s i m).hst = s.hst ∧
    (ledMetaSet s i m).slc = s.slc ∧ (ledMetaSet s i m).boot = s.boot ∧ (ledMetaSet s i m).isl = s.isl ∧
    (ledMetaSet s i m).pwr = s.pwr ∧ (ledMetaSet s i m).dbg = s.dbg ∧ (ledMetaSet s i m).hbm = s.hbm ∧
    (ledMetaSet s i m).out = s.out ∧ (ledMetaSet s i m).fresh = s.fresh := by and_intros <;> rfl

@[simp] theorem ordPut_frame (s : State) (o : OrdState) :
    (ordPut s o).pending = s.pending ∧ (ordPut s o).clk = s.clk ∧ (ordPut s o).objs = s.objs ∧
    (ordPut s o).pair = s.pair ∧ (ordPut s o).logs = s.logs ∧ (ordPut s o).uhl = s.uhl ∧ (ordPut s o).net = s.net ∧
    (ordPut s o).shp = s.shp ∧ (ordPut s o).tt = s.tt ∧ (ordPut s o).pipe = s.pipe ∧ (ordPut s o).stg = s.stg ∧
    (ordPut s o).fwd = s.fwd ∧ (ordPut s o).tc = s.tc ∧ (ordPut s o).jx = s.jx ∧ (ordPut s o).cip = s.cip ∧
    (ordPut s o).ken = s.ken ∧ (ordPut s o).dma = s.dma ∧ (ordPut s o).hst = s.hst ∧ (ordPut s o).slc = s.slc ∧
    (ordPut s o).boot = s.boot ∧ (ordPut s o).isl = s.isl ∧ (ordPut s o).pwr = s.pwr ∧ (ordPut s o).dbg = s.dbg ∧
    (ordPut s o).hbm = s.hbm ∧ (ordPut s o).out = s.out ∧ (ordPut s o).fresh = s.fresh := by and_intros <;> rfl

@[simp] theorem fence_frame (s : State) :
    (fence s).pending = s.pending ∧ (fence s).clk = s.clk ∧ (fence s).objs = s.objs ∧ (fence s).led = s.led ∧
    (fence s).logs = s.logs ∧ (fence s).uhl = s.uhl ∧ (fence s).net = s.net ∧ (fence s).shp = s.shp ∧
    (fence s).tt = s.tt ∧ (fence s).pipe = s.pipe ∧ (fence s).stg = s.stg ∧ (fence s).fwd = s.fwd ∧
    (fence s).tc = s.tc ∧ (fence s).jx = s.jx ∧ (fence s).cip = s.cip ∧ (fence s).ken = s.ken ∧
    (fence s).dma = s.dma ∧ (fence s).hst = s.hst ∧ (fence s).slc = s.slc ∧ (fence s).boot = s.boot ∧
    (fence s).isl = s.isl ∧ (fence s).pwr = s.pwr ∧ (fence s).dbg = s.dbg ∧ (fence s).hbm = s.hbm ∧
    (fence s).out = s.out ∧ (fence s).fresh = s.fresh := by and_intros <;> rfl

@[simp] theorem itemsMap_frame (s : State) (f : Item → Item) :
    (itemsMap s f).pending = s.pending ∧ (itemsMap s f).clk = s.clk ∧ (itemsMap s f).objs = s.objs ∧
    (itemsMap s f).led = s.led ∧ (itemsMap s f).pair = s.pair ∧ (itemsMap s f).logs = s.logs ∧
    (itemsMap s f).uhl = s.uhl ∧ (itemsMap s f).net = s.net ∧ (itemsMap s f).shp = s.shp ∧
    (itemsMap s f).tt = s.tt ∧ (itemsMap s f).stg = s.stg ∧ (itemsMap s f).fwd = s.fwd ∧ (itemsMap s f).tc = s.tc ∧
    (itemsMap s f).jx = s.jx ∧ (itemsMap s f).cip = s.cip ∧ (itemsMap s f).ken = s.ken ∧
    (itemsMap s f).dma = s.dma ∧ (itemsMap s f).hst = s.hst ∧ (itemsMap s f).slc = s.slc ∧
    (itemsMap s f).boot = s.boot ∧ (itemsMap s f).isl = s.isl ∧ (itemsMap s f).pwr = s.pwr ∧
    (itemsMap s f).dbg = s.dbg ∧ (itemsMap s f).hbm = s.hbm ∧ (itemsMap s f).out = s.out ∧
    (itemsMap s f).fresh = s.fresh := by and_intros <;> rfl

@[simp] theorem itemRemove_frame (s : State) (id : Nat) :
    (itemRemove s id).pending = s.pending ∧ (itemRemove s id).clk = s.clk ∧ (itemRemove s id).objs = s.objs ∧
    (itemRemove s id).led = s.led ∧ (itemRemove s id).pair = s.pair ∧ (itemRemove s id).logs = s.logs ∧
    (itemRemove s id).uhl = s.uhl ∧ (itemRemove s id).net = s.net ∧ (itemRemove s id).shp = s.shp ∧
    (itemRemove s id).tt = s.tt ∧ (itemRemove s id).stg = s.stg ∧ (itemRemove s id).fwd = s.fwd ∧
    (itemRemove s id).tc = s.tc ∧ (itemRemove s id).jx = s.jx ∧ (itemRemove s id).cip = s.cip ∧
    (itemRemove s id).ken = s.ken ∧ (itemRemove s id).dma = s.dma ∧ (itemRemove s id).hst = s.hst ∧
    (itemRemove s id).slc = s.slc ∧ (itemRemove s id).boot = s.boot ∧ (itemRemove s id).isl = s.isl ∧
    (itemRemove s id).pwr = s.pwr ∧ (itemRemove s id).dbg = s.dbg ∧ (itemRemove s id).hbm = s.hbm ∧
    (itemRemove s id).out = s.out ∧ (itemRemove s id).fresh = s.fresh := by
  unfold itemRemove noteLeft
  split
  · split <;> (and_intros <;> rfl)
  · (and_intros <;> rfl)

@[simp] theorem setThread_frame (s : State) (th : Nat) (t : Thread) :
    (setThread s th t).pending = s.pending ∧ (setThread s th t).clk = s.clk ∧ (setThread s th t).objs = s.objs ∧
    (setThread s th t).led = s.led ∧ (setThread s th t).pair = s.pair ∧ (setThread s th t).logs = s.logs ∧
    (setThread s th t).uhl = s.uhl ∧ (setThread s th t).net = s.net ∧ (setThread s th t).shp = s.shp ∧
    (setThread s th t).tt = s.tt ∧ (setThread s th t).pipe = s.pipe ∧ (setThread s th t).stg = s.stg ∧
    (setThread s th t).fwd = s.fwd ∧ (setThread s th t).tc = s.tc ∧ (setThread s th t).cip = s.cip ∧
    (setThread s th t).ken = s.ken ∧ (setThread s th t).dma = s.dma ∧ (setThread s th t).hst = s.hst ∧
    (setThread s th t).slc = s.slc ∧ (setThread s th t).boot = s.boot ∧ (setThread s th t).isl = s.isl ∧
    (setThread s th t).pwr = s.pwr ∧ (setThread s th t).dbg = s.dbg ∧ (setThread s th t).hbm = s.hbm ∧
    (setThread s th t).out = s.out ∧ (setThread s th t).fresh = s.fresh := by and_intros <;> rfl

@[simp] theorem setEngine_frame (s : State) (e : Nat) (x : Engine) :
    (setEngine s e x).pending = s.pending ∧ (setEngine s e x).clk = s.clk ∧ (setEngine s e x).objs = s.objs ∧
    (setEngine s e x).led = s.led ∧ (setEngine s e x).pair = s.pair ∧ (setEngine s e x).logs = s.logs ∧
    (setEngine s e x).uhl = s.uhl ∧ (setEngine s e x).net = s.net ∧ (setEngine s e x).shp = s.shp ∧
    (setEngine s e x).tt = s.tt ∧ (setEngine s e x).pipe = s.pipe ∧ (setEngine s e x).stg = s.stg ∧
    (setEngine s e x).fwd = s.fwd ∧ (setEngine s e x).tc = s.tc ∧ (setEngine s e x).cip = s.cip ∧
    (setEngine s e x).ken = s.ken ∧ (setEngine s e x).dma = s.dma ∧ (setEngine s e x).hst = s.hst ∧
    (setEngine s e x).slc = s.slc ∧ (setEngine s e x).boot = s.boot ∧ (setEngine s e x).isl = s.isl ∧
    (setEngine s e x).pwr = s.pwr ∧ (setEngine s e x).dbg = s.dbg ∧ (setEngine s e x).hbm = s.hbm ∧
    (setEngine s e x).out = s.out ∧ (setEngine s e x).fresh = s.fresh := by and_intros <;> rfl

@[simp] theorem setCluster_frame (s : State) (c : Nat) (x : Cluster) :
    (setCluster s c x).pending = s.pending ∧ (setCluster s c x).clk = s.clk ∧ (setCluster s c x).objs = s.objs ∧
    (setCluster s c x).led = s.led ∧ (setCluster s c x).pair = s.pair ∧ (setCluster s c x).logs = s.logs ∧
    (setCluster s c x).uhl = s.uhl ∧ (setCluster s c x).net = s.net ∧ (setCluster s c x).shp = s.shp ∧
    (setCluster s c x).tt = s.tt ∧ (setCluster s c x).pipe = s.pipe ∧ (setCluster s c x).stg = s.stg ∧
    (setCluster s c x).fwd = s.fwd ∧ (setCluster s c x).tc = s.tc ∧ (setCluster s c x).cip = s.cip ∧
    (setCluster s c x).ken = s.ken ∧ (setCluster s c x).dma = s.dma ∧ (setCluster s c x).hst = s.hst ∧
    (setCluster s c x).slc = s.slc ∧ (setCluster s c x).boot = s.boot ∧ (setCluster s c x).isl = s.isl ∧
    (setCluster s c x).pwr = s.pwr ∧ (setCluster s c x).dbg = s.dbg ∧ (setCluster s c x).hbm = s.hbm ∧
    (setCluster s c x).out = s.out ∧ (setCluster s c x).fresh = s.fresh := by and_intros <;> rfl

@[simp] theorem fnPut_frame (s : State) (link fn : Nat) (f : Fn) :
    (fnPut s link fn f).pending = s.pending ∧ (fnPut s link fn f).clk = s.clk ∧ (fnPut s link fn f).objs = s.objs ∧
    (fnPut s link fn f).led = s.led ∧ (fnPut s link fn f).pair = s.pair ∧ (fnPut s link fn f).logs = s.logs ∧
    (fnPut s link fn f).uhl = s.uhl ∧ (fnPut s link fn f).net = s.net ∧ (fnPut s link fn f).shp = s.shp ∧
    (fnPut s link fn f).tt = s.tt ∧ (fnPut s link fn f).pipe = s.pipe ∧ (fnPut s link fn f).stg = s.stg ∧
    (fnPut s link fn f).fwd = s.fwd ∧ (fnPut s link fn f).tc = s.tc ∧ (fnPut s link fn f).jx = s.jx ∧
    (fnPut s link fn f).cip = s.cip ∧ (fnPut s link fn f).ken = s.ken ∧ (fnPut s link fn f).dma = s.dma ∧
    (fnPut s link fn f).slc = s.slc ∧ (fnPut s link fn f).boot = s.boot ∧ (fnPut s link fn f).isl = s.isl ∧
    (fnPut s link fn f).pwr = s.pwr ∧ (fnPut s link fn f).dbg = s.dbg ∧ (fnPut s link fn f).hbm = s.hbm ∧
    (fnPut s link fn f).out = s.out ∧ (fnPut s link fn f).fresh = s.fresh := by and_intros <;> rfl

@[simp] theorem setSlice_frame (s : State) (n : Nat) (x : Slice) :
    (setSlice s n x).pending = s.pending ∧ (setSlice s n x).clk = s.clk ∧ (setSlice s n x).objs = s.objs ∧
    (setSlice s n x).led = s.led ∧ (setSlice s n x).pair = s.pair ∧ (setSlice s n x).logs = s.logs ∧
    (setSlice s n x).uhl = s.uhl ∧ (setSlice s n x).net = s.net ∧ (setSlice s n x).shp = s.shp ∧
    (setSlice s n x).tt = s.tt ∧ (setSlice s n x).pipe = s.pipe ∧ (setSlice s n x).stg = s.stg ∧
    (setSlice s n x).fwd = s.fwd ∧ (setSlice s n x).tc = s.tc ∧ (setSlice s n x).jx = s.jx ∧
    (setSlice s n x).cip = s.cip ∧ (setSlice s n x).ken = s.ken ∧ (setSlice s n x).dma = s.dma ∧
    (setSlice s n x).hst = s.hst ∧ (setSlice s n x).boot = s.boot ∧ (setSlice s n x).isl = s.isl ∧
    (setSlice s n x).pwr = s.pwr ∧ (setSlice s n x).dbg = s.dbg ∧ (setSlice s n x).hbm = s.hbm ∧
    (setSlice s n x).out = s.out ∧ (setSlice s n x).fresh = s.fresh := by and_intros <;> rfl

@[simp] theorem quarantineReads_frame (s : State) (which : HRead → Bool) :
    (quarantineReads s which).pending = s.pending ∧ (quarantineReads s which).clk = s.clk ∧
    (quarantineReads s which).objs = s.objs ∧ (quarantineReads s which).led = s.led ∧
    (quarantineReads s which).pair = s.pair ∧ (quarantineReads s which).logs = s.logs ∧
    (quarantineReads s which).uhl = s.uhl ∧ (quarantineReads s which).net = s.net ∧
    (quarantineReads s which).shp = s.shp ∧ (quarantineReads s which).tt = s.tt ∧
    (quarantineReads s which).pipe = s.pipe ∧ (quarantineReads s which).stg = s.stg ∧
    (quarantineReads s which).fwd = s.fwd ∧ (quarantineReads s which).tc = s.tc ∧
    (quarantineReads s which).jx = s.jx ∧ (quarantineReads s which).cip = s.cip ∧
    (quarantineReads s which).ken = s.ken ∧ (quarantineReads s which).dma = s.dma ∧
    (quarantineReads s which).slc = s.slc ∧ (quarantineReads s which).boot = s.boot ∧
    (quarantineReads s which).isl = s.isl ∧ (quarantineReads s which).pwr = s.pwr ∧
    (quarantineReads s which).dbg = s.dbg ∧ (quarantineReads s which).hbm = s.hbm ∧
    (quarantineReads s which).out = s.out ∧ (quarantineReads s which).fresh = s.fresh := by and_intros <;> rfl

@[simp] theorem qpPut_frame (s : State) (k : Nat) (x : Qp) :
    (qpPut s k x).pending = s.pending ∧ (qpPut s k x).clk = s.clk ∧ (qpPut s k x).objs = s.objs ∧
    (qpPut s k x).led = s.led ∧ (qpPut s k x).pair = s.pair ∧ (qpPut s k x).logs = s.logs ∧
    (qpPut s k x).uhl = s.uhl ∧ (qpPut s k x).net = s.net ∧ (qpPut s k x).shp = s.shp ∧ (qpPut s k x).tt = s.tt ∧
    (qpPut s k x).pipe = s.pipe ∧ (qpPut s k x).stg = s.stg ∧ (qpPut s k x).fwd = s.fwd ∧ (qpPut s k x).tc = s.tc ∧
    (qpPut s k x).jx = s.jx ∧ (qpPut s k x).cip = s.cip ∧ (qpPut s k x).ken = s.ken ∧ (qpPut s k x).dma = s.dma ∧
    (qpPut s k x).hst = s.hst ∧ (qpPut s k x).boot = s.boot ∧ (qpPut s k x).isl = s.isl ∧
    (qpPut s k x).pwr = s.pwr ∧ (qpPut s k x).dbg = s.dbg ∧ (qpPut s k x).hbm = s.hbm ∧ (qpPut s k x).out = s.out ∧
    (qpPut s k x).fresh = s.fresh := by and_intros <;> rfl

@[simp] theorem orphanRequest_frame (s : State) (c : Nat) :
    (orphanRequest s c).pending = s.pending ∧ (orphanRequest s c).clk = s.clk ∧ (orphanRequest s c).objs = s.objs ∧
    (orphanRequest s c).led = s.led ∧ (orphanRequest s c).pair = s.pair ∧ (orphanRequest s c).logs = s.logs ∧
    (orphanRequest s c).uhl = s.uhl ∧ (orphanRequest s c).net = s.net ∧ (orphanRequest s c).shp = s.shp ∧
    (orphanRequest s c).tt = s.tt ∧ (orphanRequest s c).pipe = s.pipe ∧ (orphanRequest s c).stg = s.stg ∧
    (orphanRequest s c).fwd = s.fwd ∧ (orphanRequest s c).tc = s.tc ∧ (orphanRequest s c).jx = s.jx ∧
    (orphanRequest s c).ken = s.ken ∧ (orphanRequest s c).dma = s.dma ∧ (orphanRequest s c).hst = s.hst ∧
    (orphanRequest s c).slc = s.slc ∧ (orphanRequest s c).boot = s.boot ∧ (orphanRequest s c).isl = s.isl ∧
    (orphanRequest s c).pwr = s.pwr ∧ (orphanRequest s c).dbg = s.dbg ∧ (orphanRequest s c).hbm = s.hbm ∧
    (orphanRequest s c).out = s.out ∧ (orphanRequest s c).fresh = s.fresh := by and_intros <;> rfl

@[simp] theorem creqPut_frame (s : State) (r : CReq) :
    (creqPut s r).pending = s.pending ∧ (creqPut s r).clk = s.clk ∧ (creqPut s r).objs = s.objs ∧
    (creqPut s r).led = s.led ∧ (creqPut s r).pair = s.pair ∧ (creqPut s r).logs = s.logs ∧
    (creqPut s r).uhl = s.uhl ∧ (creqPut s r).net = s.net ∧ (creqPut s r).shp = s.shp ∧ (creqPut s r).tt = s.tt ∧
    (creqPut s r).pipe = s.pipe ∧ (creqPut s r).stg = s.stg ∧ (creqPut s r).fwd = s.fwd ∧ (creqPut s r).tc = s.tc ∧
    (creqPut s r).jx = s.jx ∧ (creqPut s r).ken = s.ken ∧ (creqPut s r).dma = s.dma ∧ (creqPut s r).hst = s.hst ∧
    (creqPut s r).slc = s.slc ∧ (creqPut s r).boot = s.boot ∧ (creqPut s r).isl = s.isl ∧
    (creqPut s r).pwr = s.pwr ∧ (creqPut s r).dbg = s.dbg ∧ (creqPut s r).hbm = s.hbm ∧ (creqPut s r).out = s.out ∧
    (creqPut s r).fresh = s.fresh := by and_intros <;> rfl

@[simp] theorem setEng_frame (s : State) (e : Nat) (x : CEng) :
    (setEng s e x).pending = s.pending ∧ (setEng s e x).clk = s.clk ∧ (setEng s e x).objs = s.objs ∧
    (setEng s e x).led = s.led ∧ (setEng s e x).pair = s.pair ∧ (setEng s e x).logs = s.logs ∧
    (setEng s e x).uhl = s.uhl ∧ (setEng s e x).net = s.net ∧ (setEng s e x).shp = s.shp ∧
    (setEng s e x).tt = s.tt ∧ (setEng s e x).pipe = s.pipe ∧ (setEng s e x).stg = s.stg ∧
    (setEng s e x).fwd = s.fwd ∧ (setEng s e x).tc = s.tc ∧ (setEng s e x).jx = s.jx ∧ (setEng s e x).ken = s.ken ∧
    (setEng s e x).dma = s.dma ∧ (setEng s e x).hst = s.hst ∧ (setEng s e x).slc = s.slc ∧
    (setEng s e x).boot = s.boot ∧ (setEng s e x).isl = s.isl ∧ (setEng s e x).pwr = s.pwr ∧
    (setEng s e x).dbg = s.dbg ∧ (setEng s e x).hbm = s.hbm ∧ (setEng s e x).out = s.out ∧
    (setEng s e x).fresh = s.fresh := by and_intros <;> rfl

@[simp] theorem cipherIssue_frame (s : State) (src : CSrc) (raw : BitVec 512) (owner : Option Nat) :
    (cipherIssue s src raw owner).pending = s.pending ∧ (cipherIssue s src raw owner).clk = s.clk ∧
    (cipherIssue s src raw owner).objs = s.objs ∧ (cipherIssue s src raw owner).led = s.led ∧
    (cipherIssue s src raw owner).pair = s.pair ∧ (cipherIssue s src raw owner).logs = s.logs ∧
    (cipherIssue s src raw owner).uhl = s.uhl ∧ (cipherIssue s src raw owner).net = s.net ∧
    (cipherIssue s src raw owner).shp = s.shp ∧ (cipherIssue s src raw owner).tt = s.tt ∧
    (cipherIssue s src raw owner).pipe = s.pipe ∧ (cipherIssue s src raw owner).stg = s.stg ∧
    (cipherIssue s src raw owner).fwd = s.fwd ∧ (cipherIssue s src raw owner).tc = s.tc ∧
    (cipherIssue s src raw owner).jx = s.jx ∧ (cipherIssue s src raw owner).ken = s.ken ∧
    (cipherIssue s src raw owner).dma = s.dma ∧ (cipherIssue s src raw owner).hst = s.hst ∧
    (cipherIssue s src raw owner).slc = s.slc ∧ (cipherIssue s src raw owner).boot = s.boot ∧
    (cipherIssue s src raw owner).isl = s.isl ∧ (cipherIssue s src raw owner).pwr = s.pwr ∧
    (cipherIssue s src raw owner).dbg = s.dbg ∧ (cipherIssue s src raw owner).hbm = s.hbm ∧
    (cipherIssue s src raw owner).out = s.out ∧ (cipherIssue s src raw owner).fresh = s.fresh := by and_intros <;> rfl

@[simp] theorem cipStop_frame (s : State) (which : CReq → Bool) (status detail : BitVec 8) :
    (cipStop s which status detail).pending = s.pending ∧ (cipStop s which status detail).clk = s.clk ∧
    (cipStop s which status detail).objs = s.objs ∧ (cipStop s which status detail).led = s.led ∧
    (cipStop s which status detail).pair = s.pair ∧ (cipStop s which status detail).logs = s.logs ∧
    (cipStop s which status detail).uhl = s.uhl ∧ (cipStop s which status detail).net = s.net ∧
    (cipStop s which status detail).shp = s.shp ∧ (cipStop s which status detail).tt = s.tt ∧
    (cipStop s which status detail).pipe = s.pipe ∧ (cipStop s which status detail).stg = s.stg ∧
    (cipStop s which status detail).fwd = s.fwd ∧ (cipStop s which status detail).tc = s.tc ∧
    (cipStop s which status detail).jx = s.jx ∧ (cipStop s which status detail).ken = s.ken ∧
    (cipStop s which status detail).dma = s.dma ∧ (cipStop s which status detail).hst = s.hst ∧
    (cipStop s which status detail).slc = s.slc ∧ (cipStop s which status detail).boot = s.boot ∧
    (cipStop s which status detail).isl = s.isl ∧ (cipStop s which status detail).pwr = s.pwr ∧
    (cipStop s which status detail).dbg = s.dbg ∧ (cipStop s which status detail).hbm = s.hbm ∧
    (cipStop s which status detail).out = s.out ∧ (cipStop s which status detail).fresh = s.fresh := by and_intros <;> rfl

@[simp] theorem slotUse_frame (s : State) (n : Nat) (k : KenSlot) :
    (slotUse s n k).pending = s.pending ∧ (slotUse s n k).clk = s.clk ∧ (slotUse s n k).objs = s.objs ∧
    (slotUse s n k).led = s.led ∧ (slotUse s n k).pair = s.pair ∧ (slotUse s n k).logs = s.logs ∧
    (slotUse s n k).uhl = s.uhl ∧ (slotUse s n k).net = s.net ∧ (slotUse s n k).shp = s.shp ∧
    (slotUse s n k).tt = s.tt ∧ (slotUse s n k).pipe = s.pipe ∧ (slotUse s n k).stg = s.stg ∧
    (slotUse s n k).fwd = s.fwd ∧ (slotUse s n k).tc = s.tc ∧ (slotUse s n k).jx = s.jx ∧
    (slotUse s n k).cip = s.cip ∧ (slotUse s n k).dma = s.dma ∧ (slotUse s n k).hst = s.hst ∧
    (slotUse s n k).slc = s.slc ∧ (slotUse s n k).boot = s.boot ∧ (slotUse s n k).isl = s.isl ∧
    (slotUse s n k).pwr = s.pwr ∧ (slotUse s n k).dbg = s.dbg ∧ (slotUse s n k).hbm = s.hbm ∧
    (slotUse s n k).out = s.out ∧ (slotUse s n k).fresh = s.fresh := by and_intros <;> rfl

@[simp] theorem setReport_frame (s : State) (k : Nat) (r : Nat × Nat) :
    (setReport s k r).pending = s.pending ∧ (setReport s k r).clk = s.clk ∧ (setReport s k r).objs = s.objs ∧
    (setReport s k r).led = s.led ∧ (setReport s k r).pair = s.pair ∧ (setReport s k r).logs = s.logs ∧
    (setReport s k r).uhl = s.uhl ∧ (setReport s k r).net = s.net ∧ (setReport s k r).shp = s.shp ∧
    (setReport s k r).tt = s.tt ∧ (setReport s k r).pipe = s.pipe ∧ (setReport s k r).stg = s.stg ∧
    (setReport s k r).fwd = s.fwd ∧ (setReport s k r).tc = s.tc ∧ (setReport s k r).jx = s.jx ∧
    (setReport s k r).cip = s.cip ∧ (setReport s k r).ken = s.ken ∧ (setReport s k r).dma = s.dma ∧
    (setReport s k r).hst = s.hst ∧ (setReport s k r).boot = s.boot ∧ (setReport s k r).isl = s.isl ∧
    (setReport s k r).pwr = s.pwr ∧ (setReport s k r).dbg = s.dbg ∧ (setReport s k r).hbm = s.hbm ∧
    (setReport s k r).out = s.out ∧ (setReport s k r).fresh = s.fresh := by and_intros <;> rfl

@[simp] theorem setQueue_frame (s : State) (q : Nat) (x : Queue) :
    (setQueue s q x).pending = s.pending ∧ (setQueue s q x).clk = s.clk ∧ (setQueue s q x).objs = s.objs ∧
    (setQueue s q x).led = s.led ∧ (setQueue s q x).pair = s.pair ∧ (setQueue s q x).logs = s.logs ∧
    (setQueue s q x).uhl = s.uhl ∧ (setQueue s q x).net = s.net ∧ (setQueue s q x).tt = s.tt ∧
    (setQueue s q x).pipe = s.pipe ∧ (setQueue s q x).stg = s.stg ∧ (setQueue s q x).fwd = s.fwd ∧
    (setQueue s q x).tc = s.tc ∧ (setQueue s q x).jx = s.jx ∧ (setQueue s q x).cip = s.cip ∧
    (setQueue s q x).ken = s.ken ∧ (setQueue s q x).dma = s.dma ∧ (setQueue s q x).hst = s.hst ∧
    (setQueue s q x).slc = s.slc ∧ (setQueue s q x).boot = s.boot ∧ (setQueue s q x).isl = s.isl ∧
    (setQueue s q x).pwr = s.pwr ∧ (setQueue s q x).dbg = s.dbg ∧ (setQueue s q x).hbm = s.hbm ∧
    (setQueue s q x).out = s.out ∧ (setQueue s q x).fresh = s.fresh := by and_intros <;> rfl

@[simp] theorem setFifo_frame (s : State) (p : Nat) (fs : List QFrame) :
    (setFifo s p fs).pending = s.pending ∧ (setFifo s p fs).clk = s.clk ∧ (setFifo s p fs).objs = s.objs ∧
    (setFifo s p fs).led = s.led ∧ (setFifo s p fs).pair = s.pair ∧ (setFifo s p fs).logs = s.logs ∧
    (setFifo s p fs).uhl = s.uhl ∧ (setFifo s p fs).net = s.net ∧ (setFifo s p fs).tt = s.tt ∧
    (setFifo s p fs).pipe = s.pipe ∧ (setFifo s p fs).stg = s.stg ∧ (setFifo s p fs).fwd = s.fwd ∧
    (setFifo s p fs).tc = s.tc ∧ (setFifo s p fs).jx = s.jx ∧ (setFifo s p fs).cip = s.cip ∧
    (setFifo s p fs).ken = s.ken ∧ (setFifo s p fs).dma = s.dma ∧ (setFifo s p fs).hst = s.hst ∧
    (setFifo s p fs).slc = s.slc ∧ (setFifo s p fs).boot = s.boot ∧ (setFifo s p fs).isl = s.isl ∧
    (setFifo s p fs).pwr = s.pwr ∧ (setFifo s p fs).dbg = s.dbg ∧ (setFifo s p fs).hbm = s.hbm ∧
    (setFifo s p fs).out = s.out ∧ (setFifo s p fs).fresh = s.fresh := by and_intros <;> rfl

@[simp] theorem polPut_frame (s : State) (n : Nat) (p : PolSt) :
    (polPut s n p).pending = s.pending ∧ (polPut s n p).clk = s.clk ∧ (polPut s n p).objs = s.objs ∧
    (polPut s n p).led = s.led ∧ (polPut s n p).pair = s.pair ∧ (polPut s n p).logs = s.logs ∧
    (polPut s n p).uhl = s.uhl ∧ (polPut s n p).net = s.net ∧ (polPut s n p).tt = s.tt ∧
    (polPut s n p).pipe = s.pipe ∧ (polPut s n p).stg = s.stg ∧ (polPut s n p).fwd = s.fwd ∧
    (polPut s n p).tc = s.tc ∧ (polPut s n p).jx = s.jx ∧ (polPut s n p).cip = s.cip ∧ (polPut s n p).ken = s.ken ∧
    (polPut s n p).dma = s.dma ∧ (polPut s n p).hst = s.hst ∧ (polPut s n p).slc = s.slc ∧
    (polPut s n p).boot = s.boot ∧ (polPut s n p).isl = s.isl ∧ (polPut s n p).pwr = s.pwr ∧
    (polPut s n p).dbg = s.dbg ∧ (polPut s n p).hbm = s.hbm ∧ (polPut s n p).out = s.out ∧
    (polPut s n p).fresh = s.fresh := by and_intros <;> rfl

@[simp] theorem setNode_frame (s : State) (l n : Nat) (x : NodeSt) :
    (setNode s l n x).pending = s.pending ∧ (setNode s l n x).clk = s.clk ∧ (setNode s l n x).objs = s.objs ∧
    (setNode s l n x).led = s.led ∧ (setNode s l n x).pair = s.pair ∧ (setNode s l n x).logs = s.logs ∧
    (setNode s l n x).uhl = s.uhl ∧ (setNode s l n x).net = s.net ∧ (setNode s l n x).tt = s.tt ∧
    (setNode s l n x).pipe = s.pipe ∧ (setNode s l n x).stg = s.stg ∧ (setNode s l n x).fwd = s.fwd ∧
    (setNode s l n x).tc = s.tc ∧ (setNode s l n x).jx = s.jx ∧ (setNode s l n x).cip = s.cip ∧
    (setNode s l n x).ken = s.ken ∧ (setNode s l n x).dma = s.dma ∧ (setNode s l n x).hst = s.hst ∧
    (setNode s l n x).slc = s.slc ∧ (setNode s l n x).boot = s.boot ∧ (setNode s l n x).isl = s.isl ∧
    (setNode s l n x).pwr = s.pwr ∧ (setNode s l n x).dbg = s.dbg ∧ (setNode s l n x).hbm = s.hbm ∧
    (setNode s l n x).out = s.out ∧ (setNode s l n x).fresh = s.fresh := by and_intros <;> rfl

@[simp] theorem stgPut_frame (s : State) (k : Nat) (w : BitVec 512) :
    (stgPut s k w).pending = s.pending ∧ (stgPut s k w).clk = s.clk ∧ (stgPut s k w).objs = s.objs ∧
    (stgPut s k w).led = s.led ∧ (stgPut s k w).pair = s.pair ∧ (stgPut s k w).logs = s.logs ∧
    (stgPut s k w).uhl = s.uhl ∧ (stgPut s k w).net = s.net ∧ (stgPut s k w).shp = s.shp ∧
    (stgPut s k w).tt = s.tt ∧ (stgPut s k w).pipe = s.pipe ∧ (stgPut s k w).fwd = s.fwd ∧
    (stgPut s k w).tc = s.tc ∧ (stgPut s k w).jx = s.jx ∧ (stgPut s k w).cip = s.cip ∧ (stgPut s k w).ken = s.ken ∧
    (stgPut s k w).dma = s.dma ∧ (stgPut s k w).hst = s.hst ∧ (stgPut s k w).slc = s.slc ∧
    (stgPut s k w).boot = s.boot ∧ (stgPut s k w).isl = s.isl ∧ (stgPut s k w).pwr = s.pwr ∧
    (stgPut s k w).dbg = s.dbg ∧ (stgPut s k w).hbm = s.hbm ∧ (stgPut s k w).out = s.out ∧
    (stgPut s k w).fresh = s.fresh := by and_intros <;> rfl

@[simp] theorem ttSet_frame (s : State) (t : Tt) :
    (ttSet s t).pending = s.pending ∧ (ttSet s t).clk = s.clk ∧ (ttSet s t).objs = s.objs ∧
    (ttSet s t).led = s.led ∧ (ttSet s t).pair = s.pair ∧ (ttSet s t).logs = s.logs ∧ (ttSet s t).uhl = s.uhl ∧
    (ttSet s t).net = s.net ∧ (ttSet s t).shp = s.shp ∧ (ttSet s t).pipe = s.pipe ∧ (ttSet s t).stg = s.stg ∧
    (ttSet s t).fwd = s.fwd ∧ (ttSet s t).tc = s.tc ∧ (ttSet s t).jx = s.jx ∧ (ttSet s t).cip = s.cip ∧
    (ttSet s t).ken = s.ken ∧ (ttSet s t).dma = s.dma ∧ (ttSet s t).hst = s.hst ∧ (ttSet s t).slc = s.slc ∧
    (ttSet s t).boot = s.boot ∧ (ttSet s t).isl = s.isl ∧ (ttSet s t).pwr = s.pwr ∧ (ttSet s t).dbg = s.dbg ∧
    (ttSet s t).hbm = s.hbm ∧ (ttSet s t).out = s.out ∧ (ttSet s t).fresh = s.fresh := by
  unfold ttSet
  dsimp only
  split <;> (and_intros <;> rfl)

@[simp] theorem setRxBuf_frame (s : State) (p : Nat) (fs : List RxFrame) :
    (setRxBuf s p fs).pending = s.pending ∧ (setRxBuf s p fs).clk = s.clk ∧ (setRxBuf s p fs).objs = s.objs ∧
    (setRxBuf s p fs).led = s.led ∧ (setRxBuf s p fs).pair = s.pair ∧ (setRxBuf s p fs).logs = s.logs ∧
    (setRxBuf s p fs).uhl = s.uhl ∧ (setRxBuf s p fs).shp = s.shp ∧ (setRxBuf s p fs).tt = s.tt ∧
    (setRxBuf s p fs).pipe = s.pipe ∧ (setRxBuf s p fs).stg = s.stg ∧ (setRxBuf s p fs).fwd = s.fwd ∧
    (setRxBuf s p fs).tc = s.tc ∧ (setRxBuf s p fs).jx = s.jx ∧ (setRxBuf s p fs).cip = s.cip ∧
    (setRxBuf s p fs).ken = s.ken ∧ (setRxBuf s p fs).dma = s.dma ∧ (setRxBuf s p fs).hst = s.hst ∧
    (setRxBuf s p fs).slc = s.slc ∧ (setRxBuf s p fs).boot = s.boot ∧ (setRxBuf s p fs).isl = s.isl ∧
    (setRxBuf s p fs).pwr = s.pwr ∧ (setRxBuf s p fs).dbg = s.dbg ∧ (setRxBuf s p fs).hbm = s.hbm ∧
    (setRxBuf s p fs).out = s.out ∧ (setRxBuf s p fs).fresh = s.fresh := by and_intros <;> rfl

@[simp] theorem setL2Hp_frame (s : State) (i v : Nat) :
    (setL2Hp s i v).pending = s.pending ∧ (setL2Hp s i v).clk = s.clk ∧ (setL2Hp s i v).objs = s.objs ∧
    (setL2Hp s i v).led = s.led ∧ (setL2Hp s i v).pair = s.pair ∧ (setL2Hp s i v).logs = s.logs ∧
    (setL2Hp s i v).uhl = s.uhl ∧ (setL2Hp s i v).net = s.net ∧ (setL2Hp s i v).shp = s.shp ∧
    (setL2Hp s i v).tt = s.tt ∧ (setL2Hp s i v).pipe = s.pipe ∧ (setL2Hp s i v).stg = s.stg ∧
    (setL2Hp s i v).tc = s.tc ∧ (setL2Hp s i v).jx = s.jx ∧ (setL2Hp s i v).cip = s.cip ∧
    (setL2Hp s i v).ken = s.ken ∧ (setL2Hp s i v).dma = s.dma ∧ (setL2Hp s i v).hst = s.hst ∧
    (setL2Hp s i v).slc = s.slc ∧ (setL2Hp s i v).boot = s.boot ∧ (setL2Hp s i v).isl = s.isl ∧
    (setL2Hp s i v).pwr = s.pwr ∧ (setL2Hp s i v).dbg = s.dbg ∧ (setL2Hp s i v).hbm = s.hbm ∧
    (setL2Hp s i v).out = s.out ∧ (setL2Hp s i v).fresh = s.fresh := by and_intros <;> rfl

@[simp] theorem flowPut_frame (s : State) (i : Nat) (e : BitVec 512) :
    (flowPut s i e).pending = s.pending ∧ (flowPut s i e).clk = s.clk ∧ (flowPut s i e).objs = s.objs ∧
    (flowPut s i e).led = s.led ∧ (flowPut s i e).pair = s.pair ∧ (flowPut s i e).logs = s.logs ∧
    (flowPut s i e).uhl = s.uhl ∧ (flowPut s i e).net = s.net ∧ (flowPut s i e).shp = s.shp ∧
    (flowPut s i e).tt = s.tt ∧ (flowPut s i e).pipe = s.pipe ∧ (flowPut s i e).stg = s.stg ∧
    (flowPut s i e).tc = s.tc ∧ (flowPut s i e).jx = s.jx ∧ (flowPut s i e).cip = s.cip ∧
    (flowPut s i e).ken = s.ken ∧ (flowPut s i e).dma = s.dma ∧ (flowPut s i e).hst = s.hst ∧
    (flowPut s i e).slc = s.slc ∧ (flowPut s i e).boot = s.boot ∧ (flowPut s i e).isl = s.isl ∧
    (flowPut s i e).pwr = s.pwr ∧ (flowPut s i e).dbg = s.dbg ∧ (flowPut s i e).hbm = s.hbm ∧
    (flowPut s i e).out = s.out ∧ (flowPut s i e).fresh = s.fresh := by and_intros <;> rfl

@[simp] theorem setTcWin_frame (s : State) (w : Nat) (x : TcWin) :
    (setTcWin s w x).pending = s.pending ∧ (setTcWin s w x).clk = s.clk ∧ (setTcWin s w x).objs = s.objs ∧
    (setTcWin s w x).led = s.led ∧ (setTcWin s w x).pair = s.pair ∧ (setTcWin s w x).logs = s.logs ∧
    (setTcWin s w x).uhl = s.uhl ∧ (setTcWin s w x).net = s.net ∧ (setTcWin s w x).shp = s.shp ∧
    (setTcWin s w x).tt = s.tt ∧ (setTcWin s w x).pipe = s.pipe ∧ (setTcWin s w x).stg = s.stg ∧
    (setTcWin s w x).fwd = s.fwd ∧ (setTcWin s w x).jx = s.jx ∧ (setTcWin s w x).cip = s.cip ∧
    (setTcWin s w x).ken = s.ken ∧ (setTcWin s w x).dma = s.dma ∧ (setTcWin s w x).hst = s.hst ∧
    (setTcWin s w x).slc = s.slc ∧ (setTcWin s w x).boot = s.boot ∧ (setTcWin s w x).isl = s.isl ∧
    (setTcWin s w x).pwr = s.pwr ∧ (setTcWin s w x).dbg = s.dbg ∧ (setTcWin s w x).hbm = s.hbm ∧
    (setTcWin s w x).out = s.out ∧ (setTcWin s w x).fresh = s.fresh := by and_intros <;> rfl

@[simp] theorem ctlPush_frame (s : State) (c : SeqCmd) :
    (ctlPush s c).pending = s.pending ∧ (ctlPush s c).clk = s.clk ∧ (ctlPush s c).objs = s.objs ∧
    (ctlPush s c).led = s.led ∧ (ctlPush s c).pair = s.pair ∧ (ctlPush s c).logs = s.logs ∧
    (ctlPush s c).uhl = s.uhl ∧ (ctlPush s c).net = s.net ∧ (ctlPush s c).shp = s.shp ∧ (ctlPush s c).tt = s.tt ∧
    (ctlPush s c).stg = s.stg ∧ (ctlPush s c).fwd = s.fwd ∧ (ctlPush s c).tc = s.tc ∧ (ctlPush s c).jx = s.jx ∧
    (ctlPush s c).cip = s.cip ∧ (ctlPush s c).ken = s.ken ∧ (ctlPush s c).dma = s.dma ∧ (ctlPush s c).hst = s.hst ∧
    (ctlPush s c).slc = s.slc ∧ (ctlPush s c).boot = s.boot ∧ (ctlPush s c).isl = s.isl ∧
    (ctlPush s c).pwr = s.pwr ∧ (ctlPush s c).dbg = s.dbg ∧ (ctlPush s c).hbm = s.hbm ∧ (ctlPush s c).out = s.out ∧
    (ctlPush s c).fresh = s.fresh := by and_intros <;> rfl

@[simp] theorem writeExecuted_frame (s : State) (id p : Nat) :
    (writeExecuted s id p).pending = s.pending ∧ (writeExecuted s id p).clk = s.clk ∧
    (writeExecuted s id p).led = s.led ∧ (writeExecuted s id p).pair = s.pair ∧
    (writeExecuted s id p).logs = s.logs ∧ (writeExecuted s id p).uhl = s.uhl ∧
    (writeExecuted s id p).net = s.net ∧ (writeExecuted s id p).shp = s.shp ∧ (writeExecuted s id p).tt = s.tt ∧
    (writeExecuted s id p).pipe = s.pipe ∧ (writeExecuted s id p).stg = s.stg ∧
    (writeExecuted s id p).fwd = s.fwd ∧ (writeExecuted s id p).tc = s.tc ∧ (writeExecuted s id p).jx = s.jx ∧
    (writeExecuted s id p).cip = s.cip ∧ (writeExecuted s id p).ken = s.ken ∧ (writeExecuted s id p).dma = s.dma ∧
    (writeExecuted s id p).hst = s.hst ∧ (writeExecuted s id p).slc = s.slc ∧
    (writeExecuted s id p).boot = s.boot ∧ (writeExecuted s id p).isl = s.isl ∧
    (writeExecuted s id p).pwr = s.pwr ∧ (writeExecuted s id p).dbg = s.dbg ∧ (writeExecuted s id p).hbm = s.hbm ∧
    (writeExecuted s id p).out = s.out ∧ (writeExecuted s id p).fresh = s.fresh := by and_intros <;> rfl

@[simp] theorem dbgSet_frame (s : State) (d : Dbg) :
    (dbgSet s d).pending = s.pending ∧ (dbgSet s d).clk = s.clk ∧ (dbgSet s d).objs = s.objs ∧
    (dbgSet s d).led = s.led ∧ (dbgSet s d).pair = s.pair ∧ (dbgSet s d).logs = s.logs ∧ (dbgSet s d).uhl = s.uhl ∧
    (dbgSet s d).net = s.net ∧ (dbgSet s d).shp = s.shp ∧ (dbgSet s d).tt = s.tt ∧ (dbgSet s d).pipe = s.pipe ∧
    (dbgSet s d).stg = s.stg ∧ (dbgSet s d).fwd = s.fwd ∧ (dbgSet s d).tc = s.tc ∧ (dbgSet s d).jx = s.jx ∧
    (dbgSet s d).cip = s.cip ∧ (dbgSet s d).ken = s.ken ∧ (dbgSet s d).dma = s.dma ∧ (dbgSet s d).hst = s.hst ∧
    (dbgSet s d).slc = s.slc ∧ (dbgSet s d).boot = s.boot ∧ (dbgSet s d).isl = s.isl ∧ (dbgSet s d).pwr = s.pwr ∧
    (dbgSet s d).hbm = s.hbm ∧ (dbgSet s d).out = s.out ∧ (dbgSet s d).fresh = s.fresh := by and_intros <;> rfl

@[simp] theorem coreRuns_frame (s : State) :
    (coreRuns s).pending = s.pending ∧ (coreRuns s).clk = s.clk ∧ (coreRuns s).objs = s.objs ∧
    (coreRuns s).led = s.led ∧ (coreRuns s).pair = s.pair ∧ (coreRuns s).logs = s.logs ∧ (coreRuns s).uhl = s.uhl ∧
    (coreRuns s).net = s.net ∧ (coreRuns s).shp = s.shp ∧ (coreRuns s).tt = s.tt ∧ (coreRuns s).pipe = s.pipe ∧
    (coreRuns s).stg = s.stg ∧ (coreRuns s).fwd = s.fwd ∧ (coreRuns s).tc = s.tc ∧ (coreRuns s).cip = s.cip ∧
    (coreRuns s).ken = s.ken ∧ (coreRuns s).dma = s.dma ∧ (coreRuns s).hst = s.hst ∧ (coreRuns s).slc = s.slc ∧
    (coreRuns s).boot = s.boot ∧ (coreRuns s).isl = s.isl ∧ (coreRuns s).pwr = s.pwr ∧ (coreRuns s).dbg = s.dbg ∧
    (coreRuns s).hbm = s.hbm ∧ (coreRuns s).out = s.out ∧ (coreRuns s).fresh = s.fresh := by and_intros <;> rfl

@[simp] theorem norWrite_frame (s : State) (a : Nat) (bs : List Byte) :
    (norWrite s a bs).pending = s.pending ∧ (norWrite s a bs).clk = s.clk ∧ (norWrite s a bs).objs = s.objs ∧
    (norWrite s a bs).led = s.led ∧ (norWrite s a bs).pair = s.pair ∧ (norWrite s a bs).logs = s.logs ∧
    (norWrite s a bs).uhl = s.uhl ∧ (norWrite s a bs).net = s.net ∧ (norWrite s a bs).shp = s.shp ∧
    (norWrite s a bs).tt = s.tt ∧ (norWrite s a bs).pipe = s.pipe ∧ (norWrite s a bs).stg = s.stg ∧
    (norWrite s a bs).fwd = s.fwd ∧ (norWrite s a bs).tc = s.tc ∧ (norWrite s a bs).jx = s.jx ∧
    (norWrite s a bs).cip = s.cip ∧ (norWrite s a bs).ken = s.ken ∧ (norWrite s a bs).dma = s.dma ∧
    (norWrite s a bs).hst = s.hst ∧ (norWrite s a bs).slc = s.slc ∧ (norWrite s a bs).isl = s.isl ∧
    (norWrite s a bs).pwr = s.pwr ∧ (norWrite s a bs).dbg = s.dbg ∧ (norWrite s a bs).hbm = s.hbm ∧
    (norWrite s a bs).out = s.out ∧ (norWrite s a bs).fresh = s.fresh := by and_intros <;> rfl

@[simp] theorem cagesDown_frame (s : State) :
    (cagesDown s).pending = s.pending ∧ (cagesDown s).clk = s.clk ∧ (cagesDown s).objs = s.objs ∧
    (cagesDown s).led = s.led ∧ (cagesDown s).pair = s.pair ∧ (cagesDown s).logs = s.logs ∧
    (cagesDown s).uhl = s.uhl ∧ (cagesDown s).net = s.net ∧ (cagesDown s).shp = s.shp ∧ (cagesDown s).tt = s.tt ∧
    (cagesDown s).pipe = s.pipe ∧ (cagesDown s).stg = s.stg ∧ (cagesDown s).fwd = s.fwd ∧ (cagesDown s).tc = s.tc ∧
    (cagesDown s).jx = s.jx ∧ (cagesDown s).cip = s.cip ∧ (cagesDown s).ken = s.ken ∧ (cagesDown s).dma = s.dma ∧
    (cagesDown s).hst = s.hst ∧ (cagesDown s).slc = s.slc ∧ (cagesDown s).boot = s.boot ∧
    (cagesDown s).pwr = s.pwr ∧ (cagesDown s).dbg = s.dbg ∧ (cagesDown s).hbm = s.hbm ∧ (cagesDown s).out = s.out ∧
    (cagesDown s).fresh = s.fresh := by and_intros <;> rfl

@[simp] theorem toStage1_frame (s : State) :
    (toStage1 s).pending = s.pending ∧ (toStage1 s).clk = s.clk ∧ (toStage1 s).objs = s.objs ∧
    (toStage1 s).led = s.led ∧ (toStage1 s).pair = s.pair ∧ (toStage1 s).logs = s.logs ∧ (toStage1 s).uhl = s.uhl ∧
    (toStage1 s).net = s.net ∧ (toStage1 s).shp = s.shp ∧ (toStage1 s).tt = s.tt ∧ (toStage1 s).pipe = s.pipe ∧
    (toStage1 s).stg = s.stg ∧ (toStage1 s).fwd = s.fwd ∧ (toStage1 s).tc = s.tc ∧ (toStage1 s).jx = s.jx ∧
    (toStage1 s).cip = s.cip ∧ (toStage1 s).ken = s.ken ∧ (toStage1 s).dma = s.dma ∧ (toStage1 s).hst = s.hst ∧
    (toStage1 s).slc = s.slc ∧ (toStage1 s).isl = s.isl ∧ (toStage1 s).pwr = s.pwr ∧ (toStage1 s).dbg = s.dbg ∧
    (toStage1 s).hbm = s.hbm ∧ (toStage1 s).out = s.out ∧ (toStage1 s).fresh = s.fresh := by and_intros <;> rfl

@[simp] theorem toBackoff_frame (s : State) (code : Nat) :
    (toBackoff s code).pending = s.pending ∧ (toBackoff s code).clk = s.clk ∧ (toBackoff s code).objs = s.objs ∧
    (toBackoff s code).led = s.led ∧ (toBackoff s code).pair = s.pair ∧ (toBackoff s code).logs = s.logs ∧
    (toBackoff s code).uhl = s.uhl ∧ (toBackoff s code).net = s.net ∧ (toBackoff s code).shp = s.shp ∧
    (toBackoff s code).tt = s.tt ∧ (toBackoff s code).pipe = s.pipe ∧ (toBackoff s code).stg = s.stg ∧
    (toBackoff s code).fwd = s.fwd ∧ (toBackoff s code).tc = s.tc ∧ (toBackoff s code).jx = s.jx ∧
    (toBackoff s code).cip = s.cip ∧ (toBackoff s code).ken = s.ken ∧ (toBackoff s code).dma = s.dma ∧
    (toBackoff s code).hst = s.hst ∧ (toBackoff s code).slc = s.slc ∧ (toBackoff s code).isl = s.isl ∧
    (toBackoff s code).pwr = s.pwr ∧ (toBackoff s code).dbg = s.dbg ∧ (toBackoff s code).hbm = s.hbm ∧
    (toBackoff s code).out = s.out ∧ (toBackoff s code).fresh = s.fresh := by
  unfold toBackoff; split <;> simp

@[simp] theorem setIslandState_frame (s : State) (n v : Nat) :
    (setIslandState s n v).pending = s.pending ∧ (setIslandState s n v).clk = s.clk ∧
    (setIslandState s n v).objs = s.objs ∧ (setIslandState s n v).led = s.led ∧
    (setIslandState s n v).pair = s.pair ∧ (setIslandState s n v).logs = s.logs ∧
    (setIslandState s n v).uhl = s.uhl ∧ (setIslandState s n v).net = s.net ∧ (setIslandState s n v).shp = s.shp ∧
    (setIslandState s n v).tt = s.tt ∧ (setIslandState s n v).pipe = s.pipe ∧ (setIslandState s n v).stg = s.stg ∧
    (setIslandState s n v).fwd = s.fwd ∧ (setIslandState s n v).tc = s.tc ∧ (setIslandState s n v).jx = s.jx ∧
    (setIslandState s n v).cip = s.cip ∧ (setIslandState s n v).ken = s.ken ∧ (setIslandState s n v).dma = s.dma ∧
    (setIslandState s n v).hst = s.hst ∧ (setIslandState s n v).slc = s.slc ∧
    (setIslandState s n v).boot = s.boot ∧ (setIslandState s n v).isl = s.isl ∧
    (setIslandState s n v).dbg = s.dbg ∧ (setIslandState s n v).hbm = s.hbm ∧ (setIslandState s n v).out = s.out ∧
    (setIslandState s n v).fresh = s.fresh := by and_intros <;> rfl

@[simp] theorem sampleTemps_frame (s : State) (readings : List (BitVec 16)) :
    (sampleTemps s readings).pending = s.pending ∧ (sampleTemps s readings).clk = s.clk ∧
    (sampleTemps s readings).objs = s.objs ∧ (sampleTemps s readings).led = s.led ∧
    (sampleTemps s readings).pair = s.pair ∧ (sampleTemps s readings).logs = s.logs ∧
    (sampleTemps s readings).uhl = s.uhl ∧ (sampleTemps s readings).net = s.net ∧
    (sampleTemps s readings).shp = s.shp ∧ (sampleTemps s readings).tt = s.tt ∧
    (sampleTemps s readings).pipe = s.pipe ∧ (sampleTemps s readings).stg = s.stg ∧
    (sampleTemps s readings).fwd = s.fwd ∧ (sampleTemps s readings).tc = s.tc ∧
    (sampleTemps s readings).jx = s.jx ∧ (sampleTemps s readings).cip = s.cip ∧
    (sampleTemps s readings).ken = s.ken ∧ (sampleTemps s readings).dma = s.dma ∧
    (sampleTemps s readings).hst = s.hst ∧ (sampleTemps s readings).slc = s.slc ∧
    (sampleTemps s readings).boot = s.boot ∧ (sampleTemps s readings).dbg = s.dbg ∧ (sampleTemps s readings).hbm = s.hbm ∧
    (sampleTemps s readings).out = s.out ∧ (sampleTemps s readings).fresh = s.fresh := by
  simp [sampleTemps, takeCalib]

@[simp] theorem setConn_frame (s : State) (k : Nat) (c : SpdmConn) :
    (setConn s k c).pending = s.pending ∧ (setConn s k c).clk = s.clk ∧ (setConn s k c).objs = s.objs ∧
    (setConn s k c).led = s.led ∧ (setConn s k c).pair = s.pair ∧ (setConn s k c).logs = s.logs ∧
    (setConn s k c).uhl = s.uhl ∧ (setConn s k c).net = s.net ∧ (setConn s k c).shp = s.shp ∧
    (setConn s k c).tt = s.tt ∧ (setConn s k c).pipe = s.pipe ∧ (setConn s k c).stg = s.stg ∧
    (setConn s k c).fwd = s.fwd ∧ (setConn s k c).tc = s.tc ∧ (setConn s k c).jx = s.jx ∧
    (setConn s k c).cip = s.cip ∧ (setConn s k c).ken = s.ken ∧ (setConn s k c).dma = s.dma ∧
    (setConn s k c).slc = s.slc ∧ (setConn s k c).boot = s.boot ∧ (setConn s k c).isl = s.isl ∧
    (setConn s k c).pwr = s.pwr ∧ (setConn s k c).dbg = s.dbg ∧ (setConn s k c).hbm = s.hbm ∧
    (setConn s k c).out = s.out ∧ (setConn s k c).fresh = s.fresh := by and_intros <;> rfl

@[simp] theorem setSpdm_frame (s : State) (x : SpdmSession) :
    (setSpdm s x).pending = s.pending ∧ (setSpdm s x).clk = s.clk ∧ (setSpdm s x).objs = s.objs ∧
    (setSpdm s x).led = s.led ∧ (setSpdm s x).pair = s.pair ∧ (setSpdm s x).logs = s.logs ∧
    (setSpdm s x).uhl = s.uhl ∧ (setSpdm s x).net = s.net ∧ (setSpdm s x).shp = s.shp ∧ (setSpdm s x).tt = s.tt ∧
    (setSpdm s x).pipe = s.pipe ∧ (setSpdm s x).stg = s.stg ∧ (setSpdm s x).fwd = s.fwd ∧ (setSpdm s x).tc = s.tc ∧
    (setSpdm s x).jx = s.jx ∧ (setSpdm s x).cip = s.cip ∧ (setSpdm s x).ken = s.ken ∧ (setSpdm s x).dma = s.dma ∧
    (setSpdm s x).slc = s.slc ∧ (setSpdm s x).boot = s.boot ∧ (setSpdm s x).isl = s.isl ∧ (setSpdm s x).pwr = s.pwr ∧
    (setSpdm s x).dbg = s.dbg ∧ (setSpdm s x).hbm = s.hbm ∧ (setSpdm s x).out = s.out ∧
    (setSpdm s x).fresh = s.fresh := by and_intros <;> rfl

@[simp] theorem dropSpdm_frame (s : State) (which : SpdmSession → Bool) :
    (dropSpdm s which).pending = s.pending ∧ (dropSpdm s which).clk = s.clk ∧ (dropSpdm s which).objs = s.objs ∧
    (dropSpdm s which).led = s.led ∧ (dropSpdm s which).pair = s.pair ∧ (dropSpdm s which).logs = s.logs ∧
    (dropSpdm s which).uhl = s.uhl ∧ (dropSpdm s which).net = s.net ∧ (dropSpdm s which).shp = s.shp ∧
    (dropSpdm s which).tt = s.tt ∧ (dropSpdm s which).pipe = s.pipe ∧ (dropSpdm s which).stg = s.stg ∧
    (dropSpdm s which).fwd = s.fwd ∧ (dropSpdm s which).tc = s.tc ∧ (dropSpdm s which).jx = s.jx ∧
    (dropSpdm s which).cip = s.cip ∧ (dropSpdm s which).ken = s.ken ∧ (dropSpdm s which).dma = s.dma ∧
    (dropSpdm s which).slc = s.slc ∧ (dropSpdm s which).boot = s.boot ∧ (dropSpdm s which).isl = s.isl ∧
    (dropSpdm s which).pwr = s.pwr ∧ (dropSpdm s which).dbg = s.dbg ∧ (dropSpdm s which).hbm = s.hbm ∧
    (dropSpdm s which).out = s.out ∧ (dropSpdm s which).fresh = s.fresh := by and_intros <;> rfl

/-- A vector changes the host side and the outputs alone. -/
theorem raiseVector_eq (s : State) (link fn v : Nat) : ∃ h o, raiseVector s link fn v = { s with hst := h, out := o } := by
  refine ⟨(raiseVector s link fn v).hst, (raiseVector s link fn v).out, ?_⟩
  by_cases hr : (msixReady s link fn v && !s.pair.fence) = true
  · by_cases hp : (linkGet s link).pm = .l0 <;> simp [raiseVector, wakeLink, hr, hp, emit, linkPut]
  · by_cases hb : v ∈ (fnGet s link fn).pba <;> simp [raiseVector, hr, hb, fnPut]

/-- A session that leaves its mailbox changes the server's own state, the host side and the outputs alone. -/
theorem boxLeaves_eq (s : State) (x : Session) : ∃ u h o, boxLeaves s x = { s with uhl := u, hst := h, out := o } := by
  unfold boxLeaves
  split
  · obtain ⟨h, o, e⟩ := raiseVector_eq (setBox s (x.transport - 1) { box s (x.transport - 1) with
      reply := [], replyLen := 0, replyReady := true, busy := false }) (x.transport - 1) 0 (box s (x.transport - 1)).vector.toNat
    exact ⟨_, h, o, e⟩
  · exact ⟨s.uhl, s.hst, s.out, rfl⟩

theorem boxLeaves_foldl (l : List Session) (s : State) :
    ∃ u h o, l.foldl boxLeaves s = { s with uhl := u, hst := h, out := o } := by
  induction l generalizing s with
  | nil => exact ⟨s.uhl, s.hst, s.out, rfl⟩
  | cons x l ih =>
    obtain ⟨u, h, o, e⟩ := boxLeaves_eq s x
    obtain ⟨u', h', o', e'⟩ := ih { s with uhl := u, hst := h, out := o }
    exact ⟨u', h', o', by rw [List.foldl_cons, e, e']⟩

@[simp] theorem closeTenants_frame (s : State) (sl : Nat) :
    (closeTenants s sl).pending = s.pending ∧ (closeTenants s sl).clk = s.clk ∧ (closeTenants s sl).objs = s.objs ∧
    (closeTenants s sl).led = s.led ∧ (closeTenants s sl).pair = s.pair ∧ (closeTenants s sl).logs = s.logs ∧
    (closeTenants s sl).net = s.net ∧ (closeTenants s sl).shp = s.shp ∧ (closeTenants s sl).tt = s.tt ∧
    (closeTenants s sl).pipe = s.pipe ∧ (closeTenants s sl).stg = s.stg ∧ (closeTenants s sl).fwd = s.fwd ∧
    (closeTenants s sl).tc = s.tc ∧ (closeTenants s sl).jx = s.jx ∧ (closeTenants s sl).cip = s.cip ∧
    (closeTenants s sl).ken = s.ken ∧ (closeTenants s sl).dma = s.dma ∧ (closeTenants s sl).slc = s.slc ∧ (closeTenants s sl).boot = s.boot ∧ (closeTenants s sl).isl = s.isl ∧
    (closeTenants s sl).pwr = s.pwr ∧ (closeTenants s sl).dbg = s.dbg ∧ (closeTenants s sl).hbm = s.hbm ∧
    (closeTenants s sl).fresh = s.fresh := by
  obtain ⟨u, h, o, e⟩ := boxLeaves_foldl (s.uhl.sessions.filter (fun x => x.role == .tenant && x.slice == sl)) s
  simp [closeTenants, e]

@[simp] theorem setLatch_frame (s : State) (l : Latch) :
    (setLatch s l).pending = s.pending ∧ (setLatch s l).clk = s.clk ∧ (setLatch s l).objs = s.objs ∧
    (setLatch s l).led = s.led ∧ (setLatch s l).pair = s.pair ∧ (setLatch s l).logs = s.logs ∧
    (setLatch s l).uhl = s.uhl ∧ (setLatch s l).net = s.net ∧ (setLatch s l).shp = s.shp ∧
    (setLatch s l).tt = s.tt ∧ (setLatch s l).pipe = s.pipe ∧ (setLatch s l).stg = s.stg ∧
    (setLatch s l).fwd = s.fwd ∧ (setLatch s l).tc = s.tc ∧ (setLatch s l).jx = s.jx ∧ (setLatch s l).cip = s.cip ∧
    (setLatch s l).ken = s.ken ∧ (setLatch s l).dma = s.dma ∧ (setLatch s l).hst = s.hst ∧
    (setLatch s l).slc = s.slc ∧ (setLatch s l).boot = s.boot ∧ (setLatch s l).pwr = s.pwr ∧
    (setLatch s l).dbg = s.dbg ∧ (setLatch s l).hbm = s.hbm ∧ (setLatch s l).out = s.out ∧
    (setLatch s l).fresh = s.fresh := by and_intros <;> rfl

/-- A slot's state and its record are fields of boot (15 R353). -/
theorem setSlot_boot (s : State) (i st : Nat) : ∃ b, setSlot s i st = { s with boot := b } := by
  unfold setSlot writeRecord
  generalize recordNor _ = m
  exact ⟨_, rfl⟩

@[simp] theorem setSlot_frame (s : State) (i st : Nat) :
    (setSlot s i st).pending = s.pending ∧ (setSlot s i st).clk = s.clk ∧ (setSlot s i st).objs = s.objs ∧
    (setSlot s i st).led = s.led ∧ (setSlot s i st).pair = s.pair ∧ (setSlot s i st).logs = s.logs ∧
    (setSlot s i st).uhl = s.uhl ∧ (setSlot s i st).net = s.net ∧ (setSlot s i st).shp = s.shp ∧
    (setSlot s i st).tt = s.tt ∧ (setSlot s i st).pipe = s.pipe ∧ (setSlot s i st).stg = s.stg ∧
    (setSlot s i st).fwd = s.fwd ∧ (setSlot s i st).tc = s.tc ∧ (setSlot s i st).jx = s.jx ∧
    (setSlot s i st).cip = s.cip ∧ (setSlot s i st).ken = s.ken ∧ (setSlot s i st).dma = s.dma ∧
    (setSlot s i st).hst = s.hst ∧ (setSlot s i st).slc = s.slc ∧ (setSlot s i st).isl = s.isl ∧
    (setSlot s i st).pwr = s.pwr ∧ (setSlot s i st).dbg = s.dbg ∧ (setSlot s i st).hbm = s.hbm ∧
    (setSlot s i st).out = s.out ∧ (setSlot s i st).fresh = s.fresh := by
  obtain ⟨b, h⟩ := setSlot_boot s i st
  rw [h]
  simp only [and_self]

@[simp] theorem armTrial_frame (s : State) :
    (armTrial s).pending = s.pending ∧ (armTrial s).clk = s.clk ∧ (armTrial s).objs = s.objs ∧
    (armTrial s).led = s.led ∧ (armTrial s).pair = s.pair ∧ (armTrial s).logs = s.logs ∧ (armTrial s).uhl = s.uhl ∧
    (armTrial s).net = s.net ∧ (armTrial s).shp = s.shp ∧ (armTrial s).tt = s.tt ∧ (armTrial s).pipe = s.pipe ∧
    (armTrial s).stg = s.stg ∧ (armTrial s).fwd = s.fwd ∧ (armTrial s).tc = s.tc ∧ (armTrial s).jx = s.jx ∧
    (armTrial s).cip = s.cip ∧ (armTrial s).ken = s.ken ∧ (armTrial s).dma = s.dma ∧ (armTrial s).hst = s.hst ∧
    (armTrial s).slc = s.slc ∧ (armTrial s).isl = s.isl ∧ (armTrial s).pwr = s.pwr ∧ (armTrial s).dbg = s.dbg ∧
    (armTrial s).hbm = s.hbm ∧ (armTrial s).out = s.out ∧ (armTrial s).fresh = s.fresh := by and_intros <;> rfl

@[simp] theorem bootCode_frame (s : State) (c : Nat) :
    (bootCode s c).pending = s.pending ∧ (bootCode s c).clk = s.clk ∧ (bootCode s c).objs = s.objs ∧
    (bootCode s c).led = s.led ∧ (bootCode s c).pair = s.pair ∧ (bootCode s c).logs = s.logs ∧
    (bootCode s c).uhl = s.uhl ∧ (bootCode s c).net = s.net ∧ (bootCode s c).shp = s.shp ∧
    (bootCode s c).tt = s.tt ∧ (bootCode s c).pipe = s.pipe ∧ (bootCode s c).stg = s.stg ∧
    (bootCode s c).fwd = s.fwd ∧ (bootCode s c).tc = s.tc ∧ (bootCode s c).jx = s.jx ∧ (bootCode s c).cip = s.cip ∧
    (bootCode s c).ken = s.ken ∧ (bootCode s c).dma = s.dma ∧ (bootCode s c).hst = s.hst ∧
    (bootCode s c).slc = s.slc ∧ (bootCode s c).isl = s.isl ∧ (bootCode s c).pwr = s.pwr ∧
    (bootCode s c).dbg = s.dbg ∧ (bootCode s c).hbm = s.hbm ∧ (bootCode s c).out = s.out ∧
    (bootCode s c).fresh = s.fresh := by and_intros <;> rfl

@[simp] theorem norEraseRange_frame (s : State) (a n : Nat) :
    (norEraseRange s a n).pending = s.pending ∧ (norEraseRange s a n).clk = s.clk ∧
    (norEraseRange s a n).objs = s.objs ∧ (norEraseRange s a n).led = s.led ∧ (norEraseRange s a n).pair = s.pair ∧
    (norEraseRange s a n).logs = s.logs ∧ (norEraseRange s a n).uhl = s.uhl ∧ (norEraseRange s a n).net = s.net ∧
    (norEraseRange s a n).shp = s.shp ∧ (norEraseRange s a n).tt = s.tt ∧ (norEraseRange s a n).pipe = s.pipe ∧
    (norEraseRange s a n).stg = s.stg ∧ (norEraseRange s a n).fwd = s.fwd ∧ (norEraseRange s a n).tc = s.tc ∧
    (norEraseRange s a n).jx = s.jx ∧ (norEraseRange s a n).cip = s.cip ∧ (norEraseRange s a n).ken = s.ken ∧
    (norEraseRange s a n).dma = s.dma ∧ (norEraseRange s a n).hst = s.hst ∧ (norEraseRange s a n).slc = s.slc ∧
    (norEraseRange s a n).isl = s.isl ∧ (norEraseRange s a n).pwr = s.pwr ∧ (norEraseRange s a n).dbg = s.dbg ∧
    (norEraseRange s a n).hbm = s.hbm ∧ (norEraseRange s a n).out = s.out ∧ (norEraseRange s a n).fresh = s.fresh := by and_intros <;> rfl

@[simp] theorem sessionPut_frame (s : State) (x : Session) :
    (sessionPut s x).pending = s.pending ∧ (sessionPut s x).clk = s.clk ∧ (sessionPut s x).objs = s.objs ∧
    (sessionPut s x).led = s.led ∧ (sessionPut s x).pair = s.pair ∧ (sessionPut s x).logs = s.logs ∧
    (sessionPut s x).net = s.net ∧ (sessionPut s x).shp = s.shp ∧ (sessionPut s x).tt = s.tt ∧
    (sessionPut s x).pipe = s.pipe ∧ (sessionPut s x).stg = s.stg ∧ (sessionPut s x).fwd = s.fwd ∧
    (sessionPut s x).tc = s.tc ∧ (sessionPut s x).jx = s.jx ∧ (sessionPut s x).cip = s.cip ∧
    (sessionPut s x).ken = s.ken ∧ (sessionPut s x).dma = s.dma ∧ (sessionPut s x).hst = s.hst ∧
    (sessionPut s x).slc = s.slc ∧ (sessionPut s x).boot = s.boot ∧ (sessionPut s x).isl = s.isl ∧
    (sessionPut s x).pwr = s.pwr ∧ (sessionPut s x).dbg = s.dbg ∧ (sessionPut s x).hbm = s.hbm ∧
    (sessionPut s x).out = s.out ∧ (sessionPut s x).fresh = s.fresh := by and_intros <;> rfl

@[simp] theorem sessionDrop_frame (s : State) (transport num : Nat) :
    (sessionDrop s transport num).pending = s.pending ∧ (sessionDrop s transport num).clk = s.clk ∧
    (sessionDrop s transport num).objs = s.objs ∧ (sessionDrop s transport num).led = s.led ∧
    (sessionDrop s transport num).pair = s.pair ∧ (sessionDrop s transport num).logs = s.logs ∧
    (sessionDrop s transport num).net = s.net ∧ (sessionDrop s transport num).shp = s.shp ∧
    (sessionDrop s transport num).tt = s.tt ∧ (sessionDrop s transport num).pipe = s.pipe ∧
    (sessionDrop s transport num).stg = s.stg ∧ (sessionDrop s transport num).fwd = s.fwd ∧
    (sessionDrop s transport num).tc = s.tc ∧ (sessionDrop s transport num).jx = s.jx ∧
    (sessionDrop s transport num).cip = s.cip ∧ (sessionDrop s transport num).ken = s.ken ∧
    (sessionDrop s transport num).dma = s.dma ∧ (sessionDrop s transport num).slc = s.slc ∧ (sessionDrop s transport num).boot = s.boot ∧
    (sessionDrop s transport num).isl = s.isl ∧ (sessionDrop s transport num).pwr = s.pwr ∧
    (sessionDrop s transport num).dbg = s.dbg ∧ (sessionDrop s transport num).hbm = s.hbm ∧
    (sessionDrop s transport num).fresh = s.fresh := by
  unfold sessionDrop
  split
  · obtain ⟨u, h, o, e⟩ := boxLeaves_eq s ‹_›
    simp [e]
  · and_intros <;> rfl

@[simp] theorem setBox_frame (s : State) (k : Nat) (b : Mailbox) :
    (setBox s k b).pending = s.pending ∧ (setBox s k b).clk = s.clk ∧ (setBox s k b).objs = s.objs ∧
    (setBox s k b).led = s.led ∧ (setBox s k b).pair = s.pair ∧ (setBox s k b).logs = s.logs ∧
    (setBox s k b).net = s.net ∧ (setBox s k b).shp = s.shp ∧ (setBox s k b).tt = s.tt ∧
    (setBox s k b).pipe = s.pipe ∧ (setBox s k b).stg = s.stg ∧ (setBox s k b).fwd = s.fwd ∧
    (setBox s k b).tc = s.tc ∧ (setBox s k b).jx = s.jx ∧ (setBox s k b).cip = s.cip ∧ (setBox s k b).ken = s.ken ∧
    (setBox s k b).dma = s.dma ∧ (setBox s k b).hst = s.hst ∧ (setBox s k b).slc = s.slc ∧
    (setBox s k b).boot = s.boot ∧ (setBox s k b).isl = s.isl ∧ (setBox s k b).pwr = s.pwr ∧
    (setBox s k b).dbg = s.dbg ∧ (setBox s k b).hbm = s.hbm ∧ (setBox s k b).out = s.out ∧
    (setBox s k b).fresh = s.fresh := by and_intros <;> rfl

@[simp] theorem liftQuarantine_frame (s : State) (vals : List (Nat × Nat)) :
    (liftQuarantine s vals).pending = s.pending ∧ (liftQuarantine s vals).clk = s.clk ∧
    (liftQuarantine s vals).objs = s.objs ∧ (liftQuarantine s vals).led = s.led ∧
    (liftQuarantine s vals).pair = s.pair ∧ (liftQuarantine s vals).logs = s.logs ∧
    (liftQuarantine s vals).net = s.net ∧ (liftQuarantine s vals).shp = s.shp ∧ (liftQuarantine s vals).tt = s.tt ∧
    (liftQuarantine s vals).pipe = s.pipe ∧ (liftQuarantine s vals).stg = s.stg ∧
    (liftQuarantine s vals).fwd = s.fwd ∧ (liftQuarantine s vals).tc = s.tc ∧ (liftQuarantine s vals).jx = s.jx ∧
    (liftQuarantine s vals).cip = s.cip ∧ (liftQuarantine s vals).ken = s.ken ∧
    (liftQuarantine s vals).dma = s.dma ∧ (liftQuarantine s vals).hst = s.hst ∧
    (liftQuarantine s vals).slc = s.slc ∧ (liftQuarantine s vals).boot = s.boot ∧
    (liftQuarantine s vals).isl = s.isl ∧ (liftQuarantine s vals).pwr = s.pwr ∧
    (liftQuarantine s vals).dbg = s.dbg ∧ (liftQuarantine s vals).hbm = s.hbm ∧
    (liftQuarantine s vals).out = s.out ∧ (liftQuarantine s vals).fresh = s.fresh := by and_intros <;> rfl

@[simp] theorem count_frame (s : State) (idx sub : Nat) :
    (count s idx sub).pending = s.pending ∧ (count s idx sub).clk = s.clk ∧ (count s idx sub).led = s.led ∧
    (count s idx sub).pair = s.pair ∧ (count s idx sub).logs = s.logs ∧ (count s idx sub).uhl = s.uhl ∧
    (count s idx sub).net = s.net ∧ (count s idx sub).shp = s.shp ∧ (count s idx sub).tt = s.tt ∧
    (count s idx sub).pipe = s.pipe ∧ (count s idx sub).stg = s.stg ∧ (count s idx sub).fwd = s.fwd ∧
    (count s idx sub).tc = s.tc ∧ (count s idx sub).jx = s.jx ∧ (count s idx sub).cip = s.cip ∧
    (count s idx sub).ken = s.ken ∧ (count s idx sub).dma = s.dma ∧ (count s idx sub).hst = s.hst ∧
    (count s idx sub).slc = s.slc ∧ (count s idx sub).boot = s.boot ∧ (count s idx sub).isl = s.isl ∧
    (count s idx sub).pwr = s.pwr ∧ (count s idx sub).dbg = s.dbg ∧ (count s idx sub).hbm = s.hbm ∧
    (count s idx sub).out = s.out ∧ (count s idx sub).fresh = s.fresh := by and_intros <;> rfl

@[simp] theorem countN_frame (s : State) (idx sub n : Nat) :
    (countN s idx sub n).pending = s.pending ∧ (countN s idx sub n).clk = s.clk ∧
    (countN s idx sub n).led = s.led ∧ (countN s idx sub n).pair = s.pair ∧ (countN s idx sub n).logs = s.logs ∧
    (countN s idx sub n).uhl = s.uhl ∧ (countN s idx sub n).net = s.net ∧ (countN s idx sub n).shp = s.shp ∧
    (countN s idx sub n).tt = s.tt ∧ (countN s idx sub n).pipe = s.pipe ∧ (countN s idx sub n).stg = s.stg ∧
    (countN s idx sub n).fwd = s.fwd ∧ (countN s idx sub n).tc = s.tc ∧ (countN s idx sub n).jx = s.jx ∧
    (countN s idx sub n).cip = s.cip ∧ (countN s idx sub n).ken = s.ken ∧ (countN s idx sub n).dma = s.dma ∧
    (countN s idx sub n).hst = s.hst ∧ (countN s idx sub n).slc = s.slc ∧ (countN s idx sub n).boot = s.boot ∧
    (countN s idx sub n).isl = s.isl ∧ (countN s idx sub n).pwr = s.pwr ∧ (countN s idx sub n).dbg = s.dbg ∧
    (countN s idx sub n).hbm = s.hbm ∧ (countN s idx sub n).out = s.out ∧ (countN s idx sub n).fresh = s.fresh := by and_intros <;> rfl

@[simp] theorem objPut_frame (s : State) (idx sub el v : Nat) :
    (objPut s idx sub el v).pending = s.pending ∧ (objPut s idx sub el v).clk = s.clk ∧
    (objPut s idx sub el v).led = s.led ∧ (objPut s idx sub el v).pair = s.pair ∧
    (objPut s idx sub el v).logs = s.logs ∧ (objPut s idx sub el v).uhl = s.uhl ∧
    (objPut s idx sub el v).net = s.net ∧ (objPut s idx sub el v).shp = s.shp ∧ (objPut s idx sub el v).tt = s.tt ∧
    (objPut s idx sub el v).pipe = s.pipe ∧ (objPut s idx sub el v).stg = s.stg ∧
    (objPut s idx sub el v).fwd = s.fwd ∧ (objPut s idx sub el v).tc = s.tc ∧ (objPut s idx sub el v).jx = s.jx ∧
    (objPut s idx sub el v).cip = s.cip ∧ (objPut s idx sub el v).ken = s.ken ∧
    (objPut s idx sub el v).dma = s.dma ∧ (objPut s idx sub el v).hst = s.hst ∧
    (objPut s idx sub el v).slc = s.slc ∧ (objPut s idx sub el v).boot = s.boot ∧
    (objPut s idx sub el v).isl = s.isl ∧ (objPut s idx sub el v).pwr = s.pwr ∧
    (objPut s idx sub el v).dbg = s.dbg ∧ (objPut s idx sub el v).hbm = s.hbm ∧
    (objPut s idx sub el v).out = s.out ∧ (objPut s idx sub el v).fresh = s.fresh := by and_intros <;> rfl

@[simp] theorem dbgResult_frame (s : State) (r : Nat) :
    (dbgResult s r).pending = s.pending ∧ (dbgResult s r).clk = s.clk ∧ (dbgResult s r).objs = s.objs ∧
    (dbgResult s r).led = s.led ∧ (dbgResult s r).pair = s.pair ∧ (dbgResult s r).logs = s.logs ∧
    (dbgResult s r).uhl = s.uhl ∧ (dbgResult s r).net = s.net ∧ (dbgResult s r).shp = s.shp ∧
    (dbgResult s r).tt = s.tt ∧ (dbgResult s r).pipe = s.pipe ∧ (dbgResult s r).stg = s.stg ∧
    (dbgResult s r).fwd = s.fwd ∧ (dbgResult s r).tc = s.tc ∧ (dbgResult s r).jx = s.jx ∧
    (dbgResult s r).cip = s.cip ∧ (dbgResult s r).ken = s.ken ∧ (dbgResult s r).dma = s.dma ∧
    (dbgResult s r).hst = s.hst ∧ (dbgResult s r).slc = s.slc ∧ (dbgResult s r).boot = s.boot ∧
    (dbgResult s r).isl = s.isl ∧ (dbgResult s r).pwr = s.pwr ∧ (dbgResult s r).hbm = s.hbm ∧
    (dbgResult s r).out = s.out ∧ (dbgResult s r).fresh = s.fresh := by and_intros <;> rfl

@[simp] theorem setIr_frame (s : State) (code : BitVec 8) :
    (setIr s code).pending = s.pending ∧ (setIr s code).clk = s.clk ∧ (setIr s code).objs = s.objs ∧
    (setIr s code).led = s.led ∧ (setIr s code).pair = s.pair ∧ (setIr s code).logs = s.logs ∧
    (setIr s code).uhl = s.uhl ∧ (setIr s code).net = s.net ∧ (setIr s code).shp = s.shp ∧
    (setIr s code).tt = s.tt ∧ (setIr s code).pipe = s.pipe ∧ (setIr s code).stg = s.stg ∧
    (setIr s code).fwd = s.fwd ∧ (setIr s code).tc = s.tc ∧ (setIr s code).jx = s.jx ∧ (setIr s code).cip = s.cip ∧
    (setIr s code).ken = s.ken ∧ (setIr s code).dma = s.dma ∧ (setIr s code).hst = s.hst ∧
    (setIr s code).slc = s.slc ∧ (setIr s code).boot = s.boot ∧ (setIr s code).isl = s.isl ∧
    (setIr s code).pwr = s.pwr ∧ (setIr s code).hbm = s.hbm ∧ (setIr s code).out = s.out ∧
    (setIr s code).fresh = s.fresh := by and_intros <;> rfl

@[simp] theorem mainResult_frame (s : State) (r : Nat) :
    (mainResult s r).pending = s.pending ∧ (mainResult s r).clk = s.clk ∧ (mainResult s r).led = s.led ∧
    (mainResult s r).pair = s.pair ∧ (mainResult s r).logs = s.logs ∧ (mainResult s r).uhl = s.uhl ∧
    (mainResult s r).net = s.net ∧ (mainResult s r).shp = s.shp ∧ (mainResult s r).tt = s.tt ∧
    (mainResult s r).pipe = s.pipe ∧ (mainResult s r).stg = s.stg ∧ (mainResult s r).fwd = s.fwd ∧
    (mainResult s r).tc = s.tc ∧ (mainResult s r).jx = s.jx ∧ (mainResult s r).cip = s.cip ∧
    (mainResult s r).ken = s.ken ∧ (mainResult s r).dma = s.dma ∧ (mainResult s r).hst = s.hst ∧
    (mainResult s r).slc = s.slc ∧ (mainResult s r).boot = s.boot ∧ (mainResult s r).isl = s.isl ∧
    (mainResult s r).pwr = s.pwr ∧ (mainResult s r).dbg = s.dbg ∧ (mainResult s r).hbm = s.hbm ∧
    (mainResult s r).out = s.out ∧ (mainResult s r).fresh = s.fresh := by and_intros <;> rfl

@[simp] theorem powerResult_frame (s : State) (n r : Nat) :
    (powerResult s n r).pending = s.pending ∧ (powerResult s n r).clk = s.clk ∧ (powerResult s n r).led = s.led ∧
    (powerResult s n r).pair = s.pair ∧ (powerResult s n r).logs = s.logs ∧ (powerResult s n r).uhl = s.uhl ∧
    (powerResult s n r).net = s.net ∧ (powerResult s n r).shp = s.shp ∧ (powerResult s n r).tt = s.tt ∧
    (powerResult s n r).pipe = s.pipe ∧ (powerResult s n r).stg = s.stg ∧ (powerResult s n r).fwd = s.fwd ∧
    (powerResult s n r).tc = s.tc ∧ (powerResult s n r).jx = s.jx ∧ (powerResult s n r).cip = s.cip ∧
    (powerResult s n r).ken = s.ken ∧ (powerResult s n r).dma = s.dma ∧ (powerResult s n r).hst = s.hst ∧
    (powerResult s n r).slc = s.slc ∧ (powerResult s n r).boot = s.boot ∧ (powerResult s n r).isl = s.isl ∧
    (powerResult s n r).pwr = s.pwr ∧ (powerResult s n r).dbg = s.dbg ∧ (powerResult s n r).hbm = s.hbm ∧
    (powerResult s n r).out = s.out ∧ (powerResult s n r).fresh = s.fresh := by and_intros <;> rfl

@[simp] theorem setPc_frame (s : State) (th : Nat) (pc : BitVec 64) :
    (setPc s th pc).pending = s.pending ∧ (setPc s th pc).clk = s.clk ∧ (setPc s th pc).objs = s.objs ∧
    (setPc s th pc).led = s.led ∧ (setPc s th pc).pair = s.pair ∧ (setPc s th pc).logs = s.logs ∧
    (setPc s th pc).uhl = s.uhl ∧ (setPc s th pc).net = s.net ∧ (setPc s th pc).shp = s.shp ∧
    (setPc s th pc).tt = s.tt ∧ (setPc s th pc).pipe = s.pipe ∧ (setPc s th pc).stg = s.stg ∧
    (setPc s th pc).fwd = s.fwd ∧ (setPc s th pc).tc = s.tc ∧ (setPc s th pc).cip = s.cip ∧
    (setPc s th pc).ken = s.ken ∧ (setPc s th pc).dma = s.dma ∧ (setPc s th pc).hst = s.hst ∧
    (setPc s th pc).slc = s.slc ∧ (setPc s th pc).boot = s.boot ∧ (setPc s th pc).isl = s.isl ∧
    (setPc s th pc).pwr = s.pwr ∧ (setPc s th pc).dbg = s.dbg ∧ (setPc s th pc).hbm = s.hbm ∧
    (setPc s th pc).out = s.out ∧ (setPc s th pc).fresh = s.fresh := by and_intros <;> rfl

end Sys2Proof.Machine.Laws
end

