-- ==== Sys2Proof/Laws/Memory.lean ====
section
/-!
SUPPORT. Laws of device memory and of NOR: every operation on them keeps the canonical form, a read after a write gives
what was written, and a write leaves every other byte as it was.
-/

namespace Sys2Proof.Machine.Laws

open Sys2Proof Sys2Proof.Machine

theorem memPut_wf (m : List Host.Cell) (a : Nat) (bs : List Byte) (h : Memory.wf m = true) :
    Memory.wf (memPut m a bs) = true := by
  induction bs generalizing m a with
  | nil => exact h
  | cons b r ih => exact ih _ _ (swf_sset _ _ _ _ h)

theorem hbmWrite_wf (s : State) (a : Nat) (bs : List Byte) (h : Memory.wf s.hbm.mem = true) :
    Memory.wf (hbmWrite s a bs).hbm.mem = true := memPut_wf _ _ _ h

theorem hbmStore_wf (s : State) (a : Nat) (bs : List Byte) (h : Memory.wf s.hbm.mem = true) :
    Memory.wf (hbmStore s a bs).hbm.mem = true := by
  unfold hbmStore
  split
  · exact h
  · exact hbmWrite_wf s a bs h

theorem sget_memPut (m : List Host.Cell) (a x : Nat) (bs : List Byte) :
    sget emptyByte (memPut m a bs) x =
      if a ≤ x ∧ x < a + bs.length then bs.getD (x - a) 0 else sget emptyByte m x := by
  induction bs generalizing m a with
  | nil => simp [memPut]
  | cons b r ih =>
    simp only [memPut, ih, sget_sset, List.length_cons]
    rcases Nat.lt_trichotomy x a with h | h | h
    · rw [if_neg (by omega), if_neg (by omega), if_neg (by omega)]
    · subst h; simp
    · obtain ⟨k, rfl⟩ : ∃ k, x = a + 1 + k := ⟨x - (a + 1), by omega⟩
      rw [show a + 1 + k - a = k + 1 from by omega, show a + 1 + k - (a + 1) = k from by omega]
      by_cases hk : k < r.length
      · rw [if_pos (by omega), if_pos (by omega)]; simp
      · rw [if_neg (by omega), if_neg (by omega), if_neg (by omega)]

/-- Read after write: the bytes written, and every other byte as before. -/
theorem hbmByte_hbmWrite (s : State) (a x : Nat) (bs : List Byte) :
    hbmByte (hbmWrite s a bs) x =
      if a ≤ x ∧ x < a + bs.length then bs.getD (x - a) 0 else hbmByte s x := sget_memPut _ _ _ _

/-- A store does nothing to a locked range; else it writes its bytes and no other. -/
theorem hbmByte_hbmStore (s : State) (a x : Nat) (bs : List Byte) :
    hbmByte (hbmStore s a bs) x =
      if hbmLocked s a bs.length = false ∧ a ≤ x ∧ x < a + bs.length then bs.getD (x - a) 0 else hbmByte s x := by
  unfold hbmStore
  by_cases h : hbmLocked s a bs.length = true
  · simp [h]
  · simp only [Bool.not_eq_true] at h
    simp [h, hbmByte_hbmWrite]

theorem hbmByte_congr {s t : State} (h : t.hbm.mem = s.hbm.mem) (a : Nat) : hbmByte t a = hbmByte s a := by
  simp [hbmByte, h]

theorem hbmRead_length (s : State) (a n : Nat) : (hbmRead s a n).length = n := by simp [hbmRead]

/-! ## NOR -/

theorem norPut_wf (m : Sparse Byte) (a : Nat) (bs : List Byte) (h : swf 0xFF m = true) : swf 0xFF (norPut m a bs) = true := by
  induction bs generalizing m a with
  | nil => exact h
  | cons b r ih => exact ih _ _ (swf_sset _ _ _ _ h)

theorem norWrite_wf (s : State) (a : Nat) (bs : List Byte) (h : swf 0xFF s.boot.nor = true) :
    swf 0xFF (norWrite s a bs).boot.nor = true := norPut_wf _ _ _ h

theorem swf_filter {α : Type} [DecidableEq α] (d : α) (p : Nat × α → Bool) (m : Sparse α) (h : swf d m = true) :
    swf d (m.filter p) = true := by
  simp only [swf, Bool.and_eq_true, List.all_eq_true, decide_eq_true_eq] at h ⊢
  exact ⟨srising_filter _ _ h.1, fun x hx => h.2 x (List.mem_filter.1 hx).1⟩

/-! ## Destinations of transfers that failed (10 R240) -/

theorem freeBytes_wf (s : State) (k a n : Nat) (h : Memory.wf s.hbm.mem = true) :
    Memory.wf (freeBytes s k a n).hbm.mem = true := by
  unfold freeBytes
  generalize List.range n = l
  induction l generalizing s with
  | nil => exact h
  | cons i r ih => exact ih _ (hbmStore_wf _ _ _ h)

/-- Bytes outside the range keep their value. -/
theorem hbmByte_freeBytes (s : State) (k a n x : Nat) (hx : x < a ∨ a + n ≤ x) :
    hbmByte (freeBytes s k a n) x = hbmByte s x := by
  unfold freeBytes
  have hl : ∀ i ∈ List.range n, i < n := fun i => List.mem_range.1
  generalize List.range n = l at hl
  induction l generalizing s with
  | nil => rfl
  | cons i r ih =>
    simp only [List.foldl_cons]
    rw [ih _ (fun j hj => hl j (List.mem_cons_of_mem _ hj)), hbmByte_hbmStore, if_neg]
    have := hl i (List.mem_cons_self ..)
    simp only [List.length_singleton]
    omega

theorem freeBeyond_wf (s : State) (x : Chan) (st : BitVec 8) (done : Nat) (h : Memory.wf s.hbm.mem = true) :
    Memory.wf (freeBeyond s x st done).hbm.mem = true := by
  unfold freeBeyond
  split
  · exact h
  · generalize beyondDone x done = l
    have h' : Memory.wf ({ s with fresh := s.fresh + 1 } : State).hbm.mem = true := h
    generalize ({ s with fresh := s.fresh + 1 } : State) = u at h'
    induction l generalizing u with
    | nil => exact h'
    | cons p r ih => exact ih _ (freeBytes_wf _ _ _ _ h')

/-- Only bytes beyond DONE_BYTES become free values. -/
theorem hbmByte_freeBeyond (s : State) (x : Chan) (st : BitVec 8) (done a : Nat)
    (ha : ∀ p ∈ beyondDone x done, a < p.1 ∨ p.1 + p.2 ≤ a) : hbmByte (freeBeyond s x st done) a = hbmByte s a := by
  unfold freeBeyond
  split
  · rfl
  · revert ha
    generalize beyondDone x done = l
    intro ha
    rw [show hbmByte s a = hbmByte { s with fresh := s.fresh + 1 } a from rfl]
    generalize ({ s with fresh := s.fresh + 1 } : State) = u
    induction l generalizing u with
    | nil => rfl
    | cons p r ih =>
      simp only [List.foldl_cons]
      rw [ih (fun q hq => ha q (List.mem_cons_of_mem _ hq)), hbmByte_freeBytes _ _ _ _ _ (ha p (List.mem_cons_self ..))]

theorem hbmStore_hbm (s : State) (a : Nat) (bs : List Byte) : hbmStore s a bs = { s with hbm := (hbmStore s a bs).hbm } := by
  unfold hbmStore
  split <;> rfl

theorem freeBytes_hbm (s : State) (k a n : Nat) : freeBytes s k a n = { s with hbm := (freeBytes s k a n).hbm } := by
  unfold freeBytes
  generalize List.range n = l
  induction l generalizing s with
  | nil => rfl
  | cons i r ih =>
    simp only [List.foldl_cons]
    rw [ih, hbmStore_hbm s]

/-- Nothing but device memory and the number of the next free value changes. -/
theorem freeBeyond_frame (s : State) (x : Chan) (st : BitVec 8) (done : Nat) :
    freeBeyond s x st done =
      { s with hbm := (freeBeyond s x st done).hbm, fresh := (freeBeyond s x st done).fresh } := by
  unfold freeBeyond
  split
  · rfl
  · generalize beyondDone x done = l
    suffices ∀ u : State, l.foldl (fun s p => freeBytes s s.fresh p.1 p.2) u =
        { u with hbm := (l.foldl (fun s p => freeBytes s s.fresh p.1 p.2) u).hbm } by
      rw [this]
    intro u
    induction l generalizing u with
    | nil => rfl
    | cons p r ih =>
      simp only [List.foldl_cons]
      rw [ih, freeBytes_hbm u]

theorem reset_memory_wf : Memory.wf State.reset.hbm.mem = true := rfl

end Sys2Proof.Machine.Laws
end

