-- ==== Sys2Proof/Laws/Shared.lean ====
section
/-!
SUPPORT. What the shared operations do: counters, objects, events, outputs, lanes, threads, ledger entries, mailboxes and the
decision-tree region.
-/

namespace Sys2Proof.Machine.Laws

open Sys2Proof Sys2Proof.Machine

/-! ## Counters and objects -/

theorem ctrGet_ctrAddAt (s : State) (i u e j v f n : Nat) :
    ctrGet (ctrAddAt s i u e n) j v f =
      if okey j v f = okey i u e then (ctrGet s i u e + n) % 2 ^ 64 else ctrGet s j v f := by
  simp [ctrGet, ctrAddAt, sget_sset]

@[simp] theorem ctrGet_count_self (s : State) (i u : Nat) : ctrGet (count s i u) i u 0 = (ctrGet s i u 0 + 1) % 2 ^ 64 := by
  simp [count, ctrGet_ctrAddAt]

@[simp] theorem count_vals (s : State) (i u : Nat) : (count s i u).objs.vals = s.objs.vals := rfl

@[simp] theorem count_pend (s : State) (i u : Nat) : (count s i u).objs.pend = s.objs.pend := rfl

theorem objGet_congr {s t : State} (h : t.objs.vals = s.objs.vals) (i u e : Nat) : objGet t i u e = objGet s i u e := by
  simp [objGet, h]

theorem objGet_objPut (s : State) (i u e v j w f : Nat) :
    objGet (objPut s i u e v) j w f = if okey j w f = okey i u e then v else objGet s j w f := by
  unfold objGet objPut objPutKey
  generalize okey j w f = a
  generalize okey i u e = b
  generalize objDefault = g
  by_cases h : a = b
  · subst h
    rw [if_pos rfl]
    exact sget_sset_self _ _ _ _
  · rw [if_neg h]
    exact sget_sset_far _ _ _ _ h

/-! ## Events -/

theorem countOverruns_eq (s : State) (e : EvRec) (l : List Session) :
    ∃ c, countOverruns s e l = { s with objs := { s.objs with ctr := c } } := by
  induction l generalizing s with
  | nil => exact ⟨s.objs.ctr, rfl⟩
  | cons x r ih =>
    simp only [countOverruns]
    obtain ⟨c, h⟩ := ih (if x.wants e && !(decide (x.events.length < 256) && x.missed == 0)
      then count s (0xC210 + x.transport) 0x09 else s)
    refine ⟨c, h.trans ?_⟩
    split <;> rfl

/-- An event changes the log, the sessions' queues of records and a session's count of missed records, and nothing else. -/
theorem eventFull_eq (s : State) (k i x u : Nat) (p : BitVec 64) :
    ∃ c l y, eventFull s k i x u p =
      { s with objs := { s.objs with ctr := c }, logs := l, uhl := { s.uhl with sessions := y } } := by
  unfold eventFull
  obtain ⟨c, h⟩ := countOverruns_eq s ⟨s.logs.newest + 1, islandUs s, k / 256, k, i, x, u, p⟩ s.uhl.sessions
  refine ⟨c, ?_⟩
  simp only [h]
  exact ⟨_, _, rfl⟩

@[simp] theorem eventFull_frame (s : State) (k i x u : Nat) (p : BitVec 64) :
    (eventFull s k i x u p).pending = s.pending ∧ (eventFull s k i x u p).clk = s.clk ∧
    (eventFull s k i x u p).led = s.led ∧ (eventFull s k i x u p).pair = s.pair ∧
    (eventFull s k i x u p).net = s.net ∧ (eventFull s k i x u p).shp = s.shp ∧ (eventFull s k i x u p).tt = s.tt ∧
    (eventFull s k i x u p).pipe = s.pipe ∧ (eventFull s k i x u p).stg = s.stg ∧
    (eventFull s k i x u p).fwd = s.fwd ∧ (eventFull s k i x u p).tc = s.tc ∧ (eventFull s k i x u p).jx = s.jx ∧
    (eventFull s k i x u p).cip = s.cip ∧ (eventFull s k i x u p).ken = s.ken ∧
    (eventFull s k i x u p).dma = s.dma ∧ (eventFull s k i x u p).hst = s.hst ∧
    (eventFull s k i x u p).slc = s.slc ∧ (eventFull s k i x u p).boot = s.boot ∧
    (eventFull s k i x u p).isl = s.isl ∧ (eventFull s k i x u p).pwr = s.pwr ∧
    (eventFull s k i x u p).dbg = s.dbg ∧ (eventFull s k i x u p).hbm = s.hbm ∧
    (eventFull s k i x u p).out = s.out ∧ (eventFull s k i x u p).fresh = s.fresh ∧
    (eventFull s k i x u p).objs.vals = s.objs.vals ∧ (eventFull s k i x u p).objs.pend = s.objs.pend ∧
    (eventFull s k i x u p).uhl.boxes = s.uhl.boxes := by
  obtain ⟨c, l, y, h⟩ := eventFull_eq s k i x u p
  simp [h]

@[simp] theorem event_frame (s : State) (k i n : Nat) :
    (event s k i n).pending = s.pending ∧ (event s k i n).clk = s.clk ∧ (event s k i n).led = s.led ∧
    (event s k i n).pair = s.pair ∧ (event s k i n).net = s.net ∧ (event s k i n).shp = s.shp ∧
    (event s k i n).tt = s.tt ∧ (event s k i n).pipe = s.pipe ∧ (event s k i n).stg = s.stg ∧
    (event s k i n).fwd = s.fwd ∧ (event s k i n).tc = s.tc ∧ (event s k i n).jx = s.jx ∧
    (event s k i n).cip = s.cip ∧ (event s k i n).ken = s.ken ∧ (event s k i n).dma = s.dma ∧
    (event s k i n).hst = s.hst ∧ (event s k i n).slc = s.slc ∧ (event s k i n).boot = s.boot ∧
    (event s k i n).isl = s.isl ∧ (event s k i n).pwr = s.pwr ∧ (event s k i n).dbg = s.dbg ∧
    (event s k i n).hbm = s.hbm ∧ (event s k i n).out = s.out ∧ (event s k i n).fresh = s.fresh ∧
    (event s k i n).objs.vals = s.objs.vals ∧ (event s k i n).objs.pend = s.objs.pend ∧
    (event s k i n).uhl.boxes = s.uhl.boxes := by
  simp [event]

/-! ## Lanes (02 R38) -/

theorem notePort_frame (b s : State) (p : Nat) : (notePort b s p).net = s.net := by
  unfold notePort
  split <;> simp

theorem noteDown_frame (b s : State) (p : Nat) : (noteDown b s p).net = s.net := by
  unfold noteDown
  split <;> simp

/-- Setting a lane changes that lane alone in the ports' state. -/
theorem setLane_net (s : State) (n : Nat) (l : Lane) :
    (setLane s n l).net = { s.net with lanes := lset s.net.lanes n l } := by
  unfold setLane
  simp only []
  split <;> simp [notePort_frame, noteDown_frame]

theorem lane_setLane (s : State) (n : Nat) (l : Lane) (h : n < s.net.lanes.length) : lane (setLane s n l) n = l := by
  simp [lane, setLane_net, lset, h]

theorem lane_setLane_ne (s : State) (n m : Nat) (l : Lane) (h : m ≠ n) : lane (setLane s n l) m = lane s m := by
  simp [lane, setLane_net, lset, h.symm]

/-! ## Threads (07 R153) -/

theorem thread_setThread (s : State) (n m : Nat) (t : Thread) :
    thread (setThread s n t) m = if m = n then t else thread s m := by
  unfold thread setThread
  by_cases h : m = n
  · subst h; simp
  · simp only [h, if_false]; exact sget_sset_far _ _ _ _ h

/-- The registers of a thread after a write of one of them: x0 keeps reading 0. -/
theorem getReg_setReg (s : State) (n : Nat) (r q : BitVec 5) (v : BitVec 64) :
    getReg (setReg s n r v) n q = if q = r ∧ q ≠ 0 then v else getReg s n q := by
  unfold setReg
  by_cases hr : r = 0
  · subst hr
    by_cases hq : q = 0 <;> simp [hq]
  · simp only [hr, if_false, getReg, thread_setThread, if_true]
    by_cases hq : q = 0
    · simp [hq]
    · by_cases h : q = r
      · subst h; rw [if_neg hq, if_pos ⟨rfl, hq⟩]; exact sget_sset_self _ _ _ _
      · have : q.toNat ≠ r.toNat := fun e => h (BitVec.eq_of_toNat_eq e)
        simp [h, sget_sset_ne _ _ _ this]

/-! ## Ledger, windows, mailboxes -/

theorem box_setBox (s : State) (k n : Nat) (b : Mailbox) (h : k < s.uhl.boxes.length) :
    box (setBox s k b) n = if n = k then b else box s n := by
  by_cases e : n = k
  · subst e; simp [box, setBox, lset, h]
  · simp [box, setBox, lset, e, Ne.symm e]

theorem tcWin_setTcWin (s : State) (k n : Nat) (x : TcWin) (h : k < s.tc.wins.length) :
    tcWin (setTcWin s k x) n = if n = k then x else tcWin s n := by
  by_cases e : n = k
  · subst e; simp [tcWin, setTcWin, lset, h]
  · simp [tcWin, setTcWin, lset, e, Ne.symm e]

/-! ## The decision-tree region -/

/-- Two writes of a cyclic region of `n` bytes, its end and then its start, list byte `i` of the string at its place. -/
theorem hbmByte_wrap (s : State) (base a n i : Nat) (bs : List Byte) (ha : a < n) (hn : bs.length ≤ n) (hi : i < bs.length) :
    hbmByte (hbmWrite (hbmWrite s (base + a) (bs.take (n - a))) base (bs.drop (n - a))) (base + (a + i) % n) =
      bs.getD i 0 := by
  rw [hbmByte_hbmWrite, hbmByte_hbmWrite, List.length_take, List.length_drop]
  by_cases h : a + i < n
  · rw [Nat.mod_eq_of_lt h, if_neg (by omega), if_pos (by omega), show base + (a + i) - (base + a) = i by omega]
    simp [List.getD_eq_getElem?_getD, show i < n - a by omega]
  · rw [Nat.mod_eq_sub_mod (by omega), Nat.mod_eq_of_lt (by omega), if_pos (by omega),
      show base + (a + i - n) - base = i - (n - a) by omega]
    simp [List.getD_eq_getElem?_getD, show n - a + (i - (n - a)) = i by omega]

/-- What is written into the decision-tree region reads back, whole. -/
theorem treeRead_treeWrite (s : State) (a : Nat) (bs : List Byte) (ha : a < 2147483648) (hn : bs.length ≤ 2147483648) :
    treeRead (treeWrite s a bs) a bs.length = bs := by
  rw [treeRead]
  refine List.ext_getElem (by rw [List.length_map, List.length_range]) fun i _ hi => ?_
  rw [List.getElem_map, List.getElem_range]
  exact (hbmByte_wrap s _ a _ i bs ha hn hi).trans (List.getD_eq_getElem _ _ hi)

end Sys2Proof.Machine.Laws
end

