-- ==== Sys2Proof/Tests/Slice0.lean ====
section
/-!
SUPPORT. Tests: ill-formed commands, small steps with expected values from the specification, and for each statement
with hypotheses a witness: concrete states and operands that meet the hypotheses of every clause, with what the
command then answers.
-/

namespace Sys2Proof.Tests

set_option Elab.async false

open Sys2Proof.Machine

/-- The state after reset with the debug port locked, whatever the lock level. -/
abbrev S0 : State := { State.reset with dbg := { resetDbg with unlocked := false }, boot := { resetBoot with puf := false } }

/-- A command answers a next state of which `p` holds. -/
def after (c : Instr) (s : State) (p : State → Bool) : Bool :=
  match exec c s with
  | .next t => p t
  | _ => false

/-- A command answers a fault or a refusal of which `p` holds. -/
def faults (c : Instr) (s : State) (f : Fault) : Bool :=
  match exec c s with
  | .fault g => decide (g = f)
  | _ => false

/-- A beat of which memories and lanes report nothing. -/
def noNews : BeatNews := ⟨[], [], [], [], []⟩

/-- `s` with object values. -/
def objs (s : State) (l : List (Nat × Nat × Nat × Nat)) : State :=
  l.foldl (fun s x => objPut s x.1 x.2.1 x.2.2.1 x.2.2.2) s

/-! ## Well-formedness -/

theorem test_wellFormed_scrub_stage : wellFormed (.scrubSlot 0 0 20 true) = false := by decide
theorem test_wellFormed_link_width : wellFormed (.linkTrained 0 1 3 false) = false := by decide
theorem test_wellFormed_fetch_qp : wellFormed (.fetchStart ((16384 + 4) * 64)) = false := by decide
theorem test_wellFormed_head_qp : wellFormed (.headPointerWriteBack ((16384 + 4) * 64)) = false := by decide
theorem test_wellFormed_cause_low : wellFormed (.hardFault 0 0) = false := by decide
theorem test_wellFormed_cause_high : wellFormed (.hardFault 11 0) = false := by decide
theorem test_wellFormed_eye_bit : wellFormed (.eyeMarginLow 5) = false := by decide
theorem test_wellFormed_prove_transport : wellFormed (.proveTimeout 6 0) = false := by decide
theorem test_wellFormed_idle_transport : wellFormed (.sessionIdleExpiry 6 0) = false := by decide
theorem test_wellFormed_event_transport : wellFormed (.uhEvent 6 0) = false := by decide
theorem test_wellFormed_retry_transport : wellFormed (.eventRetryExpiry 6 0) = false := by decide
theorem test_wellFormed_malformed_transport : wellFormed (.malformedPdu 6 0) = false := by decide
theorem test_wellFormed_empty_frame : wellFormed (.frameReceived 0 [] true false 0) = false := by decide
theorem test_wellFormed_accepts :
    wellFormed (.scrubSlot 0 0 19 true) = true ∧ wellFormed (.hardFault 10 0) = true ∧ wellFormed .verify = true := by decide

/-- The state after reset meets the invariant. -/
theorem reset_inv : Sys2Proof.Inv State.reset := by unfold Sys2Proof.Inv; decide +kernel

/-! ## Lanes and the timetable -/

/-- Lane 3 in a state. -/
def laneS (l : LaneState) (m : Nat) : State :=
  { S0 with net := { S0.net with lanes := (List.replicate 32 ⟨.disabled, 0, 0⟩).set 3 ⟨l, m, 0⟩ } }

def laneIs (t : State) (l : LaneState) : Bool := decide ((lane t 3).state = l)

theorem witness_LaneCommandsTakeEffect :
    ((laneS .an 0).net.lanes.length = 32 ∧ (lane (laneS .an 0) 3).state = .an ∧
      (advertised (laneS .an 0) 3 &&& (32 : BitVec 6).toNat).testBit 5 = true ∧
      after (.anResolution 3 32 false false false) (laneS .an 0) (fun t => laneIs t .training) = true) ∧
    ((advertised (objs (laneS .an 0) [(0x4103, 1, 0, 6)]) 3 &&& (31 : BitVec 6).toNat).testBit 5 = false ∧
      (advertised (objs (laneS .an 0) [(0x4103, 1, 0, 6)]) 3 &&& (31 : BitVec 6).toNat).testBit 4 = true ∧
      (∀ i, i < 4 → (advertised (objs (laneS .an 0) [(0x4103, 1, 0, 6)]) 3 &&& (31 : BitVec 6).toNat).testBit i = false) ∧
      after (.anResolution 3 31 false false false) (objs (laneS .an 0) [(0x4103, 1, 0, 6)])
        (fun t => laneIs t .locking && decide ((lane t 3).mode = 6)) = true) ∧
    ((laneS .training 2).net.lanes.length = 32 ∧ (lane (laneS .training 2) 3).state = .training ∧ (lane (laneS .locking 2) 3).state = .locking ∧
      (lane (laneS .up 2) 3).state = .up) ∧
    after (.trainingDone 3) (laneS .training 2) (fun t => laneIs t .locking && decide ((lane t 3).mode = 2)) = true ∧
    after (.trainingFailure 3) (laneS .training 2) (fun t => laneIs t .an) = true ∧
    after (.lockAcquired 3) (laneS .locking 2) (fun t => laneIs t .up) = true ∧
    after (.lossOfLock 3 true) (laneS .up 2) (fun t => laneIs t .an) = true ∧
    (laneKind (objs (laneS .up 2) [(0x4103, 2, 0, 2)]) 3 = 2 ∧
      after (.lossOfLock 3 false) (objs (laneS .up 2) [(0x4103, 2, 0, 2)]) (fun t => laneIs t .locking) = true) ∧
    after (.serdesFault 3) (laneS .up 2) (fun t => laneIs t .fault) = true ∧
    (S0.clk.holdover = false ∧ after (.pllLossOfLock 0) (laneS .up 2)
      (fun t => laneIs t .fault && !t.net.pllLocked.getLsbD 0 && decide ((lane t 0).state = .disabled)) = true) := by
  decide +kernel

theorem witness_LaneCommandsKeepOtherState :
    after (.lossOfLock 3 true) (laneS .up 2) (fun t => decide (lane t 4 = lane S0 4)) = true := by decide +kernel

theorem witness_BeatBoundaryStartsNextBeat :
    mainOn S0 = true ∧ S0.pair.state = .single ∧ S0.uhl.sessions = [] ∧ S0.objs.pend = [] ∧ S0.isl.extract = .inService ∧
      S0.pair.takeover = none ∧ S0.pair.transfer = .none ∧ S0.dma.chans = [] ∧
      after (.beatBoundary false none noNews) { S0 with clk := { S0.clk with beat := 4, slot := 4095 } }
        (fun t => decide (t.clk.beat = 5 ∧ t.clk.slot = 0 ∧ t.tt.beat = 1)) = true := by decide +kernel

/-- An image with one schedule row and a header, all else empty. -/
def imgOf (hdr row : Nat) : Image :=
  { hdr := BitVec.ofNat 512 hdr, stored := 0, rows := [BitVec.ofNat 512 row], start := 0, pnodes := [], ptrans := [],
    pextr := [], patterns := [], classes := [], bodyBytes := 0, offsets := List.replicate 20 0, shared := 0,
    maps := List.replicate 4 [0], tables := [], actions := [], profiles := [], words := [], tcams := [], trees := [],
    tnodes := [], trules := [], src := 0, len := 0, treeAt := 0 }

def ttS (st : TtState) : State := { S0 with tt := { S0.tt with state := st, staged := some (imgOf 0 0) } }

def ttIs (t : State) (st : TtState) : Bool := decide (t.tt.state = st)

theorem witness_TimetableCommandsTakeEffect :
    (mainOn S0 = true ∧ S0.tt.drain = false ∧ after .verify S0 (fun t => ttIs t .verifying && decide (t.tt.reason = 0)) = true) ∧
    after .verify { S0 with tt := { S0.tt with state := .idle } } (fun t => ttIs t .verifying) = true ∧
    (S0.tt.state = .empty ∧ (ttS .verified).tt.drain = false ∧ (ttS .verified).tt.staged = some (imgOf 0 0) ∧
      (ttS .verified).tt.swap = false ∧ (ttS .installed).pair.state = .single ∧ hdrFld (imgOf 0 0) 0x10 64 = 0) ∧
    after .verifyDone { S0 with tt := { S0.tt with state := .verifying, ver := some (0, 0, true) } }
      (fun t => ttIs t .empty && decide (t.tt.ver = none)) = true ∧
    after .install (ttS .verified) (fun t => ttIs t .installing && decide (t.tt.install.length = 4)) = true ∧
    after .installDone { ttS .installing with tt := { (ttS .installing).tt with install := [0, 0, 0, 0] } }
      (fun t => ttIs t .installed) = true ∧
    ((ttS .installed).tt.armBeat = 0 ∧
      after .arm (ttS .installed) (fun t => ttIs t .armed && decide (t.tt.target = none)) = true) ∧
    after .arm { ttS .installed with tt := { (ttS .installed).tt with armBeat := 7, beat := 6 } }
      (fun t => ttIs t .armed && decide (t.tt.target = some 7)) = true ∧
    after .arm { ttS .installed with pair := { S0.pair with state := .active, cfg := some ⟨0, 0, 0, 0, 0, false, some 0⟩ } }
      (fun t => ttIs t .armed) = true ∧
    after .discard (ttS .installed) (fun t => ttIs t .empty && decide (t.tt.staged = none)) = true ∧
    after .discard { ttS .verified with tt := { (ttS .verified).tt with cur := some (imgOf 0 0) } }
      (fun t => ttIs t .idle) = true ∧
    after .cancelArm (ttS .armed) (fun t => ttIs t .installed) = true := by decide +kernel

theorem witness_TimetableCommandsRefuseByState :
    ((ttS .armed).tt.state ≠ .empty ∧ (ttS .armed).tt.state ≠ .idle ∧ S0.tt.state ≠ .verified ∧ S0.tt.state ≠ .installed ∧
      S0.tt.state ≠ .armed) ∧
    after .verify (ttS .armed) (fun t => decide (t.tt.reason = 1 ∨ t.tt.reason = 2)) = true ∧
    after .install S0 (fun t => decide (t.tt.reason = 1 ∨ t.tt.reason = 2)) = true ∧
    after .arm S0 (fun t => decide (t.tt.reason = 1 ∨ t.tt.reason = 2)) = true ∧
    after .cancelArm S0 (fun t => decide (t.tt.reason = 1 ∨ t.tt.reason = 2)) = true := by decide +kernel

theorem witness_TimetableCommandsKeepOtherState :
    after .verify S0 (fun t => decide (t.net = S0.net ∧ t.tt.gen = S0.tt.gen)) = true := by decide +kernel

/-! ## Pipelines, parser, detours and the reorder unit -/

/-- An item of pipeline 0 at a place. -/
def itemAt (id : Nat) (pos : Pos) : Item :=
  { id := id, pipe := 0, gen := false, timGen := false, row := 0, seq := 0, port := 0, lane := 0, bus := ingressBus,
    bytes := List.replicate 60 0, len := 64, rxBytes := 64, pos := pos, walk := startWalk none, raw := [], record := [],
    l2key := 0, flowKey := 0, domain := none, treeWalk := none, carried := [], trap := false, scanned := true,
    looked := false, back := none }

/-- The state with an image of one schedule row, items in flight and return queue of pipeline 0. -/
def pipeS (row : Nat) (xs : List Item) (ret : List Nat) : State :=
  { S0 with tt := { S0.tt with state := .idle, cur := some (imgOf 0 row) },
            pipe := { S0.pipe with items := xs, retQ := [ret, [], [], []] } }

def frame64 (id : Nat) : RxFrame := { id := id, bytes := List.replicate 64 0, raw := [], complete := false }

/-- A frame waits in the receive buffer of the port of lane 3. -/
def rxS (row : Nat) : State :=
  setRxBuf (pipeS row [] []) (portOfLane (pipeS row [] []) 3) [frame64 9]

def posIs (t : State) (id : Nat) (pos : Pos) : Bool := (itemGet t id).any (fun y => y.pos == pos)

def treeItem : Item := { itemAt 7 (.walker 3 0 7) with treeWalk := some ⟨0, 1, 0, false, 0, 0, none, true⟩ }

def ctlS : State :=
  { S0 with pipe := { S0.pipe with ctl := [[.write 5], [], [], []] }, objs := { S0.objs with pend := [⟨5, [], [0, 1], false⟩] } }

theorem witness_PipelineSlotsTakeEffect :
    ((rxS 3).tt.drain = false ∧ rowBad (atSlot (rxS 3) 0) true = false ∧ (rxS 3).tt.cur.isSome = true ∧ rowIngress (schedRow (rxS 3) 0) 0 = 3 ∧
      rxBuf (rxS 3) (portOfLane (rxS 3) 3) = [frame64 9] ∧
      after (.ingressSlot 0 0 true) (rxS 3) (fun t => posIs t 9 .parser && decide (rxBuf t (portOfLane (rxS 3) 3) = [])) = true) ∧
    (ctlS.pipe.ctl.length = 4 ∧ rowIngress (schedRow ctlS 0) 0 = 0x3E ∧ ctlS.pipe.ctl.getD 0 [] = [.write 5] ∧
      after (.controlSlot 0 0 true) ctlS (fun t => decide (t.pipe.ctl.getD 0 [] = [] ∧ t.objs.pend.map (·.waits) = [[1]])) = true) ∧
    (rowIngress (schedRow (pipeS 0x3D [itemAt 7 (.returning 0 0)] [7]) 0) 0 = 0x3D ∧
      returnDue (pipeS 0x3D [itemAt 7 (.returning 0 0)] [7]) 0 0 = some (itemAt 7 (.returning 0 0)) ∧
      after (.returnSlot 0 0 true) (pipeS 0x3D [itemAt 7 (.returning 0 0)] [7]) (fun t => posIs t 7 (.stage 0)) = true) ∧
    (itemGet (pipeS 0 [itemAt 7 (.stage 3)] []) 7 = some (itemAt 7 (.stage 3)) ∧
      portDue (pipeS 0 [itemAt 7 (.stage 3)] []) (itemAt 7 (.stage 3)) 3 0 = true ∧
      after (.stagePortSlot 0 7) (pipeS 0 [itemAt 7 (.stage 3)] []) (fun t => posIs t 7 (.stage 4)) = true) ∧
    (portDue (pipeS 0 [itemAt 7 (.stage 19)] []) (itemAt 7 (.stage 19)) 19 0 = true ∧
      after (.stagePortSlot 0 7) (pipeS 0 [itemAt 7 (.stage 19)] []) (fun t => posIs t 7 (.stage 20)) = true) ∧
    (rowPort (schedRow S0 ((200 + 65536 - entryOffset S0.tt.cur 2) % 4096)) 0 2 = 1 ∧
      after (.scrubSlot 200 0 2 true) { S0 with stg := { S0.stg with scrub := [(2, 2047)] } }
        (fun t => decide (sget 0 t.stg.scrub 2 = 0)) = true) ∧
    ((0 + sharedOffset (imageOf (pipeS 0 [itemAt 7 (.stage 0)] []) false)) % 4096 = 0 ∧
      legOf (openSlot (atSlot (pipeS 0 [itemAt 7 (.stage 0)] []) 0)) 0 0 = some 0 ∧
      after (.sharedTableAccess 0 7 true) (pipeS 0 [itemAt 7 (.stage 0)] [])
        (fun t => (itemGet t 7).any (fun y => y.looked)) = true) ∧
    (rowEgress (schedRow S0 0) 0 < 32 ∧
      after (.egressOpportunity 0 0 true) S0 (fun t => decide (ctrGet t 0xC0B0 0x15 0 = 1)) = true) ∧
    ((pipeS (7 * 2 ^ 288) [treeItem] []).pipe.items.find? (inWalker 0 (rowWalk (schedRow (pipeS (7 * 2 ^ 288) [treeItem] []) 0) 0)) =
        some treeItem ∧
      after (.walkGrant 0 0 true) (pipeS (7 * 2 ^ 288) [treeItem] []) (fun t => (itemGet t 7).any (fun y =>
        y.treeWalk.any (fun w => w.reading))) = true) := by decide +kernel

/-- Every lane of the block of lane 3 is up. -/
def upS : State := { S0 with net := { S0.net with lanes := List.replicate 32 ⟨.up, 0, 0⟩ } }

theorem witness_ReceivedFramesAreCounted :
    operUp upS 0 = true ∧ 64 ≤ maxFrame upS 0 ∧ maxFrame upS 0 < 20000 ∧
    after (.frameReceived 0 (List.replicate 64 0) true true 0) upS (fun t => decide (ctrGet t 0xC100 3 0 = 1)) = true ∧
    after (.frameReceived 0 (List.replicate 64 0) false false 0) upS (fun t => decide (ctrGet t 0xC100 3 0 = 1)) = true ∧
    after (.frameReceived 0 (List.replicate 63 0) true false 0) { upS with pair := { S0.pair with muzzled := true } }
      (fun t => decide (ctrGet t 0xC100 4 0 = 1 ∧ ctrGet t 0xC100 7 0 = 1)) = true ∧
    after (.frameReceived 0 (List.replicate 63 0) true false 0) upS (fun t => decide (ctrGet t 0xC100 4 0 = 1)) = true ∧
    after (.frameReceived 0 (List.replicate 20000 0) true false 0) upS (fun t => decide (ctrGet t 0xC100 5 0 = 1)) = true ∧
    after (.frameReceived 0 (List.replicate 64 0) true false 0) upS (fun t => decide (ctrGet t 0xC100 1 0 = 1)) = true := by
  decide +kernel

/-- The same item with its parser walk at the end. -/
def walked (mal : Nat) : Item := { itemAt 7 .parser with walk := { startWalk none with ended := true, mal := mal } }

theorem witness_ParserAndScannerTakeEffect :
    ((rxBuf (rxS 0) (portOfLane (rxS 0) 3)).find? (fun g => g.id == 9 && !g.complete) = some (frame64 9) ∧
      after (.rawHitListComplete (BitVec.ofNat 5 (portOfLane (rxS 0) 3)) 9) (rxS 0)
        (fun t => (rxBuf t (portOfLane (rxS 0) 3)).any (fun g => g.complete)) = true) ∧
    ((itemAt 7 .parser).walk.ended = false ∧ imageOf (pipeS 0 [itemAt 7 .parser] []) false = some (imgOf 0 0) ∧
      after (.parserNodeStep 7) (pipeS 0 [itemAt 7 .parser] []) (fun t => posIs t 7 .parser) = true) ∧
    after (.parserOutput 7) (pipeS 0 [walked 0] []) (fun t => posIs t 7 (.stage 0)) = true ∧
    (objGet (objs (pipeS 0 [walked 2] []) [(0x5200, 2, 0, 0)]) 0x5200 2 0 = 0 ∧
      after (.parserOutput 7) (objs (pipeS 0 [walked 2] []) [(0x5200, 2, 0, 0)]) (fun t => (itemGet t 7).isNone) = true) ∧
    (objGet (objs (pipeS 0 [walked 2] []) [(0x5200, 2, 0, 1)]) 0x5200 2 0 ≠ 0 ∧
      after (.parserOutput 7) (objs (pipeS 0 [walked 2] []) [(0x5200, 2, 0, 1)]) (fun t => posIs t 7 (.stage 0)) = true) ∧
    after (.matchSetFinal 7) (pipeS 0 [itemAt 7 (.stage 1)] [])
      (fun t => posIs t 7 (.stage 1) && (itemGet t 7).any (fun y => decide (y.record.length ≤ 64))) = true := by
  decide +kernel

/-- An inner tree node: complement pair, base 5, one cut bit. -/
def innerNode : Nat := 0xFFFF0000 + 5 * 2 ^ 64

/-- The walker's item under an image with one inner tree node, which the decision-tree region holds. -/
def treeS : State :=
  treeWrite { pipeS 0 [treeItem] [] with
    tt := { (pipeS 0 [] []).tt with cur := some { imgOf 0 0 with tnodes := [BitVec.ofNat 512 innerNode] } } } 0 (leBytes 64 innerNode)

theorem treeS_node (i : Image) (h : i.treeAt = 0) : treeNode treeS i 0 = BitVec.ofNat 512 innerNode := by
  have e : treeRead treeS 0 64 = leBytes 64 innerNode := Laws.treeRead_treeWrite _ 0 (leBytes 64 innerNode) (by decide) (by decide)
  rw [treeNode, h, Nat.mul_zero, Nat.add_zero, e]
  decide +kernel

def heldS : State := { pipeS 0 [{ itemAt 7 (.reorder 0) with domain := some 1 }] [] with clk := { S0.clk with beat := 100000 } }

theorem witness_DetoursWalksAndReorderTakeEffect :
    (portDue (pipeS 0 [itemAt 7 (.leaving 3 false 1)] []) (itemAt 7 (.leaving 3 false 1)) 4 0 = true ∧
      rowDetour (schedRow (pipeS 0 [itemAt 7 (.leaving 3 false 1)] []) 0) 0 < 16 ∧
      after (.detourLeave 0 7 true) (pipeS 0 [itemAt 7 (.leaving 3 false 1)] []) (fun t => posIs t 7 (.toCluster 3 0 1) &&
        (itemGet t 7).any (fun y => y.domain.isSome)) = true) ∧
    (((pipeS 0 [itemAt 7 (.leaving 3 true 0)] []).pipe.treeQ.getD 0 []).length < 1024 ∧
      after (.detourLeave 0 7 true) (pipeS 0 [itemAt 7 (.leaving 3 true 0)] []) (fun t => posIs t 7 (.walker 3 0 0)) = true) ∧
    (treeS.pipe.items.find? (inWalker 0 7) = some treeItem ∧
      tnOk (BitVec.ofNat 512 innerNode) = true ∧ tnLeaf (BitVec.ofNat 512 innerNode) = false ∧
      tnBase (BitVec.ofNat 512 innerNode) = 5 ∧ tnCutBits (BitVec.ofNat 512 innerNode) = 1 ∧
      after (.walkReadData 0 7 false) treeS (fun t => (itemGet t 7).isNone) = true) ∧
    (busFwd ingressBus = 0 ∧ baseLatency (imageOf (pipeS 0 [itemAt 7 (.stage 20)] []) false) = 0 ∧
      after (.rewriteUnit 0 7) (pipeS 0 [itemAt 7 (.stage 20)] [])
        (fun t => (itemGet t 7).isNone && decide (ctrGet t 0xC070 0x14 0 = 1)) = true) ∧
    (lowestSeq ((heldItems heldS 0).filter (fun y => !isHeld heldS y && !leftNow (atSlot heldS 0) y false)) = some { itemAt 7 (.reorder 0) with domain := some 1 } ∧
      after (.reorderRelease 0 0) heldS (fun t => !posIs t 7 (.reorder 0)) = true) ∧
    (lowestSeq ((heldItems heldS 0).filter (holdExpired (atSlot heldS 0))) = some { itemAt 7 (.reorder 0) with domain := some 1 } ∧
      after (.reorderTimeout 0 0) heldS (fun t => !posIs t 7 (.reorder 0)) = true) := by decide +kernel

theorem witness_PipelineAndEgressCommandsKeepOtherState :
    after (.ingressSlot 0 0 true) (rxS 3) (fun t => decide (t.stg = S0.stg)) = true ∧
    after (.scrubSlot 200 0 2 true) S0 (fun t => decide (t.ken = S0.ken)) = true ∧ after .muzzle S0 (fun _ => true) = true ∧
    after (.frameSent 1) S0 (fun t => decide (fifo t 2 = fifo S0 2)) = true := by decide +kernel

/-! ## Shared tables and the table command interface -/

def fwdS (f : Fwd) : State := { S0 with fwd := f }

def learn1 (flow : Bool) : LearnReq := ⟨flow, false, 0x123456, 2, 0, false, 0, 0, 0⟩

/-- The flow learn queue holds one request and both its buckets are cached. -/
def flowS : State :=
  cacheUse (cacheUse (fwdS { S0.fwd with flowq := [learn1 true] }) (flowBuckets 0x123456).1) (flowBuckets 0x123456).2

def cmdOf (op : Nat) (fin : Option (Nat × Bool × Bool × Option (BitVec 2048))) : TcCmd :=
  ⟨op, 1, false, 0, 0, 0, 0, 0, List.replicate 4 none, 0, fin⟩

/-- Window 1 holds a command. -/
def winS (c : TcCmd) (q : List Nat) : State := { setTcWin S0 1 { resetTcWin with cmd := some c } with tc :=
  { (setTcWin S0 1 { resetTcWin with cmd := some c }).tc with queue := q } }

theorem witness_SharedTableLegsTakeEffect :
    (legIs S0 0 2 4 = true ∧ S0.fwd.applied.1 < 820 ∧ deltaRoom (fwdS { S0.fwd with l2q := [learn1 false] }) 32 = true ∧
      after (.learnLeg 0 2 true) (fwdS { S0.fwd with l2q := [learn1 false] })
        (fun t => decide (t.fwd.l2q = [] ∧ t.fwd.applied.1 = 1)) = true) ∧
    (legIs flowS 1 2 4 = true ∧ flowCached flowS (flowBuckets 0x123456).1 = true ∧ flowCached flowS (flowBuckets 0x123456).2 = true ∧
      flowS.fwd.flowq = [learn1 true] ∧ deltaRoom flowS 80 = true ∧
      after (.learnLeg 1 2 true) flowS (fun t => decide (t.fwd.flowq = [] ∧ t.fwd.applied.2 = 1)) = true) ∧
    (legIs S0 0 4 5 = true ∧
      (sweepOf (fwdS { S0.fwd with l2sweep := { resetSweep with pos := some 3 } }) false).removal = [] ∧
      after (.agingLeg 0 4 true) (fwdS { S0.fwd with l2sweep := { resetSweep with pos := some 3 } })
        (fun t => decide (t.fwd.l2sweep.pos = some 4)) = true) ∧
    after (.agingLeg 1 4 true) (fwdS { S0.fwd with flowSweep := { resetSweep with pos := some 16777215 } })
      (fun t => decide (t.fwd.flowSweep.pos = none)) = true ∧
    (legIs S0 0 0 6 = true ∧ (tcWin (winS (cmdOf 3 none) [1]) 1).cmd = some (cmdOf 3 none) ∧ (winS (cmdOf 3 none) [1]).tc.queue = [1] ∧
      after (.commandLeg 0 0 true) (winS (cmdOf 3 none) [1]) (fun t => decide (t.tc.queue = []) &&
        (tcWin t 1).cmd.any (fun d => d.fin.isSome)) = true) ∧
    after .flowFillLand (fwdS { S0.fwd with fills := [(5, 8388613)] })
      (fun t => decide (t.fwd.fills = []) && flowCached t 5 && flowCached t 8388613) = true ∧
    ((sweepOf S0 true).nextAt ≤ S0.clk.beat ∧ after (.agingPassStart true) S0
      (fun t => decide (t.fwd.flowSweep.pos = some 0 ∧ t.fwd.flowSweep.nextAt = ageBeats S0 true)) = true) ∧
    after (.agingPassStart false) (fwdS { S0.fwd with l2sweep := { resetSweep with pos := some 3 } })
      (fun t => t.fwd.l2sweep.late) = true := by decide +kernel

theorem witness_TableCommandsAreAcceptedOrRefused :
    (tcBusy S0 1 = false ∧ S0.tc.wins.length = 8 ∧ mainOn S0 = true ∧ after (.tcInsert 1 4 0 9) S0 (fun t => (tcWin t 1).cmd.any (fun d =>
      decide (d.op = 1 ∧ d.target = 4 ∧ d.table = 9 ∧ d.other = false))) = true) ∧
    after (.flushPort 1 0 1 9) S0 (fun t => (tcWin t 1).cmd.any (fun d => decide (d.op = 6) && d.other)) = true ∧
    (tcBusy (winS (cmdOf 3 none) []) 1 = true ∧ mainOn (winS (cmdOf 3 none) []) = true ∧ after (.tcRead 1 1 0 0) (winS (cmdOf 3 none) [])
      (fun t => (tcWin t 1).refused && decide (ctrGet t 0xC080 0x17 0 = 1)) = true) ∧
    (tcReleasable (winS (cmdOf 3 (some (4, false, false, none))) []) 1 (cmdOf 3 (some (4, false, false, none))) = true ∧
      after (.tcCommandComplete 1) (winS (cmdOf 3 (some (4, false, false, none))) [])
        (fun t => decide ((tcWin t 1).cmd = none ∧ (tcWin t 1).result = 4 ∧ (tcWin t 1).done = 1)) = true) := by
  decide +kernel

theorem witness_TableCommandsKeepOtherState :
    after (.tcDelete 1 1 0 0) S0 (fun t => decide (t.fwd = S0.fwd ∧ tcWin t 2 = tcWin S0 2)) = true := by decide +kernel

/-! ## Jutex -/

/-- Thread 0 with x1 = 5, x2 = 7, x3 = 64, x4 = −5, x5 an address in no window. -/
def thS : State := setThread S0 0 { resetThread 0 with regs := [(1, 5), (2, 7), (3, 64), (4, -5), (5, 0x01000090)] }

theorem thS_canIssue : CanIssue thS 0 := ⟨by decide +kernel, by decide +kernel⟩

def regIs (t : State) (r : BitVec 5) (v : BitVec 64) : Bool := getReg t 0 r == v

def pcIs (t : State) (v : BitVec 64) : Bool := (thread t 0).pc == v

theorem witness_JutexArithmeticWritesResult :
    CanIssue thS 0 ∧
    (after (.add 0 6 1 2 0) thS (fun t => regIs t 6 12 && pcIs t 0x404) = true ∧
     after (.sub 0 6 1 2 0) thS (fun t => regIs t 6 (-2)) = true ∧
     after (.and 0 6 1 2 0) thS (fun t => regIs t 6 5) = true ∧
     after (.or 0 6 1 2 0) thS (fun t => regIs t 6 7) = true ∧
     after (.xor 0 6 1 2 0) thS (fun t => regIs t 6 2) = true ∧
     after (.shl 0 6 1 3 0) thS (fun t => regIs t 6 5) = true ∧
     after (.shr 0 6 4 1 0) thS (fun t => regIs t 6 0x07FFFFFFFFFFFFFF) = true ∧
     after (.sar 0 6 4 1 0) thS (fun t => regIs t 6 (-1)) = true ∧
     after (.mul 0 4 4 4 0) thS (fun t => regIs t 4 25) = true ∧
     after (.sltu 0 6 1 4 0) thS (fun t => regIs t 6 1) = true ∧
     after (.slt 0 6 1 4 0) thS (fun t => regIs t 6 0) = true ∧
     after (.addi 0 6 1 (-1)) thS (fun t => regIs t 6 4) = true ∧
     after (.andi 0 6 4 (-4)) thS (fun t => regIs t 6 (-8)) = true ∧
     after (.shli 0 6 1 63) thS (fun t => regIs t 6 0x8000000000000000) = true ∧
     after (.shri 0 6 4 63) thS (fun t => regIs t 6 1) = true ∧
     after (.lui 0 6 (-1)) thS (fun t => regIs t 6 (-4096)) = true ∧
     after (.mfs 0 6 0 0 63) (setShared thS 0 63 9) (fun t => regIs t 6 9) = true ∧
     after (.time 0 6 0 0 0) { thS with clk := { S0.clk with slot := 17 } } (fun t => regIs t 6 2) = true ∧
     after (.fence 0 0 0 0 0) thS (fun t => pcIs t 0x404) = true ∧
     after (.add 0 0 1 2 0) thS (fun t => regIs t 0 0 && pcIs t 0x404) = true) := ⟨thS_canIssue, by decide +kernel⟩

/-- Scratch of cluster 0 holds 8 bytes 1 to 8 at address 64. -/
def memS : State := scratchWrite thS 0 64 [1, 2, 3, 4, 5, 6, 7, 8]

theorem memS_canIssue : CanIssue memS 0 := ⟨by decide +kernel, by decide +kernel⟩

theorem witness_JutexLoadsAndSharedRegisters :
    CanIssue memS 0 ∧
    (windowOf memS 0 (getReg memS 0 3 + (0 : BitVec 15).signExtend 64).toNat 8 = some (.scratch 64) ∧
     after (.ld 0 6 3 0) memS (fun t => regIs t 6 0x0807060504030201) = true ∧
     after (.lw 0 6 3 4) memS (fun t => regIs t 6 0x08070605) = true ∧
     after (.lh 0 6 3 6) memS (fun t => regIs t 6 0x0807) = true ∧
     after (.lb 0 6 3 7) memS (fun t => regIs t 6 8) = true ∧
     after (.mts 0 0 1 0 63) memS (fun t => decide (getShared t 0 63 = 5 ∧ getShared t 0 62 = 0)) = true ∧
     after (.aadds 0 6 1 0 63) (setShared memS 0 63 9) (fun t => decide (getShared t 0 63 = 14) && regIs t 6 9) = true ∧
     after (.tcmp 0 0 1 0 0) memS (fun t => decide ((thread t 0).tcmp = 5)) = true) := ⟨memS_canIssue, by decide +kernel⟩

theorem witness_JutexStoresWriteScratch :
    CanIssue memS 0 ∧
    ((getReg memS 0 3 + (0 : BitVec 10).signExtend 64).toNat = 64 ∧
     after (.st 0 0 3 4 0) memS (fun t => decide (scratchRead t 0 64 8 = [0xFB, 255, 255, 255, 255, 255, 255, 255])) = true ∧
     after (.sw 0 0 3 4 4) memS (fun t => decide (scratchRead t 0 66 6 = [3, 4, 0xFB, 255, 255, 255])) = true ∧
     after (.sh 0 0 3 4 2) memS (fun t => decide (scratchRead t 0 64 6 = [1, 2, 0xFB, 255, 5, 6])) = true ∧
     after (.sb 0 0 3 4 1) memS (fun t => decide (scratchRead t 0 64 3 = [1, 0xFB, 3])) = true ∧
     after (.aadd 0 6 3 1 0) memS (fun t => regIs t 6 0x0807060504030201 && decide (scratchRead t 0 64 2 = [6, 2])) = true ∧
     after (.acas 0 6 3 1 0) memS (fun t => regIs t 6 0x0807060504030201 && decide (scratchRead t 0 64 2 = [1, 2])) = true ∧
     after (.acas 0 6 3 1 0) (setReg memS 0 6 0x0807060504030201)
       (fun t => regIs t 6 0x0807060504030201 && decide (scratchRead t 0 64 2 = [5, 0])) = true) :=
  ⟨memS_canIssue, by decide +kernel⟩

theorem witness_JutexBranchesAndJumps :
    CanIssue thS 0 ∧
    (pcLegal ((thread thS 0).pc + 4 * (-256 : BitVec 10).signExtend 64) = true ∧
     after (.beq 0 0 1 1 (-256)) thS (fun t => pcIs t 0) = true ∧ after (.beq 0 0 1 2 (-256)) thS (fun t => pcIs t 0x404) = true ∧
     after (.bne 0 0 1 2 3) thS (fun t => pcIs t 0x40C) = true ∧ after (.blt 0 0 4 1 3) thS (fun t => pcIs t 0x40C) = true ∧
     after (.bltu 0 0 4 1 3) thS (fun t => pcIs t 0x404) = true ∧
     after (.jal 0 6 2) thS (fun t => pcIs t 0x408 && regIs t 6 0x404) = true ∧
     (pcLegal (getReg thS 0 3) = true ∧ after (.jr 0 3 3 0 0) thS (fun t => pcIs t 64 && regIs t 3 0x404) = true)) :=
  ⟨thS_canIssue, by decide +kernel⟩

/-- Thread 0 owns channel 5 with a staged message. -/
def ownS : State :=
  setChannel (setThread thS 0 { thread thS 0 with owns := some 5, staging := 77 }) 0 5 { resetChannel with owner := some 0 }

/-- Channel 5 holds one message. -/
def ringS : State := setChannel thS 0 5 { resetChannel with ring := [0x0201] }

theorem ownS_canIssue : CanIssue ownS 0 := ⟨by decide +kernel, by decide +kernel⟩
theorem ringS_canIssue : CanIssue ringS 0 := ⟨by decide +kernel, by decide +kernel⟩

theorem witness_JutexChannelsAndWaits :
    (CanIssue thS 0 ∧ CanIssue ownS 0 ∧ CanIssue ringS 0) ∧
    (after (.wait 0 6 1 0 0) thS (fun t => regIs t 6 0 && decide ((thread t 0).state = .runnable)) = true ∧
     (((getReg thS 0 1).toNat % 256 / 32 = 0 ∧ (channel thS 0 5).ring = [] ∧ timerHit thS (thread thS 0) = false) ∧
       after (.wait 0 6 1 0 7) thS (fun t => decide ((thread t 0).state = .waiting) && pcIs t 0x404) = true) ∧
     ((thread thS 0).owns = none ∧ after (.chopen 0 6 1 0 0) thS
       (fun t => decide ((thread t 0).owns = some 5 ∧ (channel t 0 5).owner = some 0) && regIs t 6 0) = true) ∧
     after (.chopen 0 6 1 0 0) (setChannel thS 0 5 { resetChannel with owner := some 9 })
       (fun t => decide ((thread t 0).state = .blocked)) = true ∧
     after (.chput 0 0 0 4 7) ownS (fun t => decide ((thread t 0).staging.extractLsb' 448 64 = -5)) = true ∧
     ((thread ownS 0).owns = some 5 ∧ (channel ownS 0 5).results = [] ∧ after (.chcommit none 0 6 0 0 0) ownS
       (fun t => decide ((thread t 0).owns = none ∧ (channel t 0 5).owner = none ∧ (channel t 0 5).ring = [77])) = true) ∧
     after (.chget 0 6 1 3 0) ringS
       (fun t => regIs t 6 1 && decide ((channel t 0 5).ring = [] ∧ scratchRead t 0 64 3 = [1, 2, 0])) = true ∧
     after (.chget 0 6 1 3 0) thS (fun t => regIs t 6 0) = true ∧
     after (.chcfg 0 0 1 0 1) thS (fun t => (channel t 0 5).ext) = true) :=
  ⟨⟨thS_canIssue, ownS_canIssue, ringS_canIssue⟩, by decide +kernel⟩

theorem witness_JutexThreadControl :
    CanIssue thS 0 ∧
    ((thread thS 5).state = .stopped ∧ after (.setreg 0 0 1 4 32) thS (fun t => decide ((thread t 5).pc = -5)) = true ∧
     after (.setreg 0 0 1 4 31) thS (fun t => decide (getReg t 5 31 = -5)) = true ∧
     after (.setreg 0 0 1 4 0) thS (fun t => decide (getReg t 5 0 = 0)) = true ∧
     after (.start 0 6 4 0 0) thS (fun t => regIs t 6 0xFA && decide ((thread t 1).state = .runnable ∧ (thread t 2).state = .stopped)) = true ∧
     after (.halt 0 0 0 0 0) thS (fun t => decide ((thread t 0).state = .stopped) && pcIs t 0x404) = true) :=
  ⟨thS_canIssue, by decide +kernel⟩

/-- An item that thread 0 holds. -/
def holdS (w : Work) : State :=
  setThread { thS with pipe := { S0.pipe with items := [itemAt 7 (.jutex 3 0 1)] } } 0 { thread thS 0 with item := some w }

def hostEntry (st : LedState) : LedEntry :=
  ⟨st, .host, true, 1, .host false 0 0 0, 0, 0, false, 0, 0, 0, .host 0 0 false false⟩

def ledS (s : State) (e : LedEntry) (m : LedMeta) : State :=
  { s with led := { s.led with entries := [(4, e)], metas := [(4, m)] } }

def hostS : State :=
  ledS (setThread (holdS (.host 4 1)) 0 { thread (holdS (.host 4 1)) 0 with place := some (.host false 0 0 0, 0) })
    (hostEntry .running) { emptyMeta with worker := some (.cluster 0) }
def coreS : State :=
  ledS { S0 with jx := { S0.jx with coreItems := [(4, 2, .host false 0 0 0, 0)] } } (hostEntry .running)
    { emptyMeta with worker := some (.core 2) }

/-- Channel 0 of cluster 0 takes results from outside the cluster; and with it a DMA message at 64: COUNT 8, START 1. -/
def extS : State := setChannel thS 0 0 { channel thS 0 0 with ext := true }
def extDmaS : State := scratchWrite (scratchWrite extS 0 80 (leBytes 4 8)) 0 88 (leBytes 8 (pairOf 32 1))
def dmaRaw : BitVec 512 := BitVec.ofNat 512 (8 * 2 ^ 128 + pairOf 32 1 * 2 ^ 192)

theorem extS_issues : IssueTaken extS 0 3 0 0 := ⟨⟨by decide +kernel, by decide +kernel⟩, by decide +kernel⟩
theorem extDmaS_issues : IssueTaken extDmaS 0 3 dmaRaw (fld dmaRaw 268 8) :=
  ⟨⟨by decide +kernel, by decide +kernel⟩, by decide +kernel⟩

theorem holdS_canIssue : CanIssue (holdS (.detour 7)) 0 := ⟨by decide +kernel, by decide +kernel⟩
theorem hostS_canIssue : CanIssue hostS 0 := ⟨by decide +kernel, by decide +kernel⟩

theorem witness_JutexItemsEnd :
    (CanIssue (holdS (.detour 7)) 0 ∧ CanIssue hostS 0 ∧ CanIssue thS 0 ∧ IssueTaken extS 0 3 0 0 ∧
      IssueTaken extDmaS 0 3 dmaRaw (fld dmaRaw 268 8)) ∧
    ((thread (holdS (.detour 7)) 0).item = some (.detour 7) ∧ itemGet (holdS (.detour 7)) 7 = some (itemAt 7 (.jutex 3 0 1)) ∧
     after (.ret 0 0 0 0 0) (holdS (.detour 7)) (fun t => decide ((thread t 0).item = none ∧ t.pipe.retQ = [[7], [], [], []]) &&
       (itemGet t 7).any (fun y => match y.pos with | .returning _ _ => true | _ => false)) = true ∧
     after (.dropItem 0 0 0 0 0) (holdS (.detour 7)) (fun t => (itemGet t 7).isNone) = true ∧
     ((thread hostS 0).item = some (.host 4 1) ∧ (thread hostS 0).gone = false ∧
       (thread hostS 0).place = some ((hostEntry .running).queue, (hostEntry .running).seq) ∧ ledGet hostS 4 = some (hostEntry .running) ∧
       after (.complete none 0 0 1 2 0) hostS (fun t => (ledGet t 4).any (fun e => decide (e.state = .done ∧ e.status = 5)) &&
         decide ((ledMeta t 4).result = 7 ∧ (thread t 0).item = none)) = true) ∧
     ((ledMeta coreS 4).worker = some (.core 2) ∧
       coreS.jx.coreItems.find? (fun y => y.1 == 4 && y.2.2.2 == 0) = some (4, 2, (hostEntry .running).queue, 0) ∧ ledGet coreS 4 = some (hostEntry .running) ∧
       after (.complete (some (4, 0, 1, 2, 9)) 0 0 0 0 0) coreS (fun t => (ledGet t 4).any (fun e =>
         decide (e.state = .done ∧ e.status = 1 ∧ e.detail = 2))) = true) ∧
     (fld (0 : BitVec 512) 96 8 = 0 ∧ fld (0 : BitVec 512) 32 8 = 0 ∧
       sliceDraining extS (issueOwner extS (thread extS 0)) = false ∧ after (.issue 0 6 3 0 0 none) extS (fun t =>
         regIs t 6 0 && pcIs t 0x404 && decide (t.cip.reqs.length = 1 ∧ t.cip.reqs.all (fun q => q.raw == 0))) = true) ∧
     (extS.ken.issues = [] ∧ extS.ken.queue = [] ∧ ledRoom extS .kennel = true ∧ islandTakes extS 26 = true ∧
       after (.issue 0 6 3 0 1 none) extS (fun t => regIs t 6 0 && decide (t.ken.queue.map (fun q => q.raw) = [0])) = true) ∧
     (fld dmaRaw 276 2 = 0 ∧ fld dmaRaw 278 42 = 0 ∧ fld dmaRaw 368 16 = 0 ∧ fld dmaRaw 404 44 = 0 ∧ fld dmaRaw 128 32 = 8 ∧
       issueCtrlBad (BitVec.ofNat 64 (fld dmaRaw 192 64)) = false ∧ channelOwner extDmaS 0 = issueOwner extDmaS (thread extDmaS 0) ∧
       (chan extDmaS 0).state = .idle ∧ ownerDraining extDmaS none = false ∧ issueOwner extDmaS (thread extDmaS 0) = none ∧
       after (.issue 0 6 3 0 2 none) extDmaS (fun t => regIs t 6 0 && decide ((chan t 0).state = .precheck ∧
         (chan t 0).count = 8)) = true) ∧
     ((issueQueue S0 (fun q => q == .core)).length < 256 ∧
       after (.issue 0 0 0 0 0 (some 5)) S0 (fun t => decide (t.cip.reqs.map (fun q => q.raw) = [5])) = true) ∧
     ((channel thS 0 0).ext = false ∧ scratchRead thS 0 64 64 = List.replicate 64 0 ∧
       after (.issue 0 6 3 0 2 none) thS (fun t => regIs t 6 2 && pcIs t 0x404) = true)) :=
  ⟨⟨holdS_canIssue, hostS_canIssue, thS_canIssue, extS_issues, extDmaS_issues⟩, by decide +kernel⟩

theorem witness_JutexIllegalIssueFaults :
    CanIssue thS 0 ∧
    ((thread thS 0).item = none ∧ windowOf thS 0 (getReg thS 0 5 + (0 : BitVec 15).signExtend 64).toNat 8 = none ∧
     windowOf thS 0 (getReg thS 0 5 + (0 : BitVec 10).signExtend 64).toNat 8 = none ∧ pcLegal (getReg thS 0 1) = false ∧
     after (.sub 0 6 1 2 1) thS (fun t => decide ((thread t 0).state = .faulted) && pcIs t 0x400) = true ∧
     after (.ld 0 6 5 0) thS (fun t => decide ((thread t 0).state = .faulted)) = true ∧
     after (.st 0 0 5 1 0) thS (fun t => decide ((thread t 0).state = .faulted)) = true ∧
     after (.jr 0 0 1 0 0) thS (fun t => decide ((thread t 0).state = .faulted)) = true ∧
     ((thread thS 1).state ≠ .runnable ∧ after (.add 1 6 1 2 0) thS (fun t => decide (t = thS)) = true)) :=
  ⟨thS_canIssue, by decide +kernel⟩

/-- Thread 0 waits. -/
def waitS (st : ThState) (w : Waiting) : State :=
  setThread { S0 with clk := { S0.clk with beat := 10 } } 0 { resetThread 0 with state := st, wait := some w, tcmp := 1 }

/-- The eight threads of engine 0 are stopped but thread 0, which waits on channel 5; the cluster's others are stopped. -/
def sleepS : State :=
  (List.range 64).foldl (fun s th => if th % 8 = 0 ∧ th ≠ 0 then setThread s th { resetThread th with state := .stopped } else s)
    (waitS .waiting ⟨1, 5, 6, 0, 0⟩)

/-- An item on its way to a cluster under a map that names none. -/
def noMapS : State :=
  { S0 with
    pipe := { S0.pipe with items := [itemAt 7 (.toCluster 3 2 1)] }
    jx := { S0.jx with map := List.replicate 16 none } }

/-- An item on its way to cluster 2, whose inbox holds 1,024 detours. -/
def fullS : State :=
  setCluster { S0 with pipe := { S0.pipe with items := [itemAt 7 (.toCluster 3 2 1)] } } 2
    { resetCluster with inbox := List.replicate 1024 (.detour 9) }

/-- A host item at the head of engine 0's inbox, thread 0 in WAIT on work, function 1 at 0x800. -/
def offerS : State :=
  setCluster (setEngine (ledS (waitS .waiting ⟨4, 5, 6, 0, 0⟩) (hostEntry .running) emptyMeta) 0
    { resetEngine with inbox := [.host 4 1] }) 0 { resetCluster with store := [(1, 0x800)] }

theorem witness_JutexEventsTakeEffect :
    (timerHit (waitS .waiting ⟨2, 5, 6, 0, 0⟩) (thread (waitS .waiting ⟨2, 5, 6, 0, 0⟩) 0) = true ∧
      (thread (waitS .waiting ⟨2, 5, 6, 0, 0⟩) 0).before ≠ .halted ∧
      after (.timerReached 0) (waitS .waiting ⟨2, 5, 6, 0, 0⟩)
        (fun t => decide ((thread t 0).state = .runnable ∧ (thread t 0).wait = none) && (getReg t 0 6).getLsbD 1) = true) ∧
    (waitExpired (waitS .waiting ⟨1, 5, 6, 0, 7⟩) ⟨1, 5, 6, 0, 7⟩ = true ∧ after (.waitMaxExpiry 0) (waitS .waiting ⟨1, 5, 6, 0, 7⟩)
      (fun t => decide ((thread t 0).state = .runnable) && regIs t 6 8) = true) ∧
    after (.waitMaxExpiry 0) (waitS .blocked ⟨0, 5, 6, 0, 7⟩)
      (fun t => decide ((thread t 0).state = .runnable) && regIs t 6 8) = true ∧
    ((channel (waitS .blocked ⟨0, 5, 6, 0, 0⟩) 0 5).owner = none ∧ after (.chopenGrant 0) (waitS .blocked ⟨0, 5, 6, 0, 0⟩)
      (fun t => decide ((thread t 0).owns = some 5 ∧ (channel t 0 5).owner = some 0)) = true) ∧
    (S0.jx.map.getD 2 none = some 2 ∧
      inboxRoom { S0 with pipe := { S0.pipe with items := [itemAt 7 (.toCluster 3 2 1)] } } 2 (.detour 7) = true ∧
      after (.detourArrival 7) { S0 with pipe := { S0.pipe with items := [itemAt 7 (.toCluster 3 2 1)] } }
        (fun t => posIs t 7 (.jutex 3 2 1)) = true) ∧
    (inboxRoom fullS 2 (.detour 7) = false ∧ posIs fullS 7 (.toCluster 3 2 1) = true ∧
      after (.detourArrival 7) fullS (fun t => (itemGet t 7).isNone) = true) ∧
    ((engine offerS 0).inbox = [.host 4 1] ∧ (sget 0 (cluster offerS 0).store (workFn offerS (.host 4 1))).toNat = 0x800 ∧
      after (.itemOffer 0) offerS (fun t => decide ((thread t 0).item = some (.host 4 1)) && pcIs t 0x800) = true) ∧
    after (.resultDelivery 0 5) (setChannel S0 0 5 { resetChannel with results := [(9, none, none)] })
      (fun t => decide ((channel t 0 5).ring = [9] ∧ (channel t 0 5).results = [])) = true ∧
    ((cluster S0 3).faulted = false ∧ after (.clusterFault 3) S0 (fun t => (cluster t 3).faulted) = true) ∧
    (S0.jx.offline.getLsbD 3 = false ∧ S0.jx.halted.getLsbD 3 = false ∧
      after (.coreOffline 3) S0 (fun t => t.jx.offline.getLsbD 3) = true) ∧
    (allAsleep sleepS 0 = true ∧ after (.allAsleepFreeze 0) sleepS (fun t => (engine t 0).frozen) = true) := by
  decide +kernel

theorem witness_JutexInstructionsKeepOtherState :
    (thread thS 0).item = none ∧ after (.chopen 0 6 1 0 0) thS (fun t => decide (t.net = thS.net ∧ t.ken = thS.ken)) = true := by
  decide +kernel

/-! ## Egress and the Muzzle -/

def qframe : QFrame := ⟨1, List.replicate 60 0, 64, 5, 0, true, none, false⟩

theorem witness_FramesSentAndMuzzle :
    (fifo (setFifo upS 0 [qframe]) 0 = [qframe] ∧ operUp (setFifo upS 0 [qframe]) 0 = true ∧ upS.pair.muzzled = false ∧
      upS.shp.cut = [] ∧ after (.frameSent 0) (setFifo upS 0 [qframe])
        (fun t => decide (fifo t 0 = [] ∧ ctrGet t 0xC100 8 0 = 1 ∧ t.out = [.frame 0 (macFrame qframe)])) = true) ∧
    (fifo S0 0 = [] ∧ after (.frameSent 0) S0 (fun t => decide (t = S0)) = true) ∧
    after .muzzle { S0 with pair := { S0.pair with fence := true, hfPending := true } }
      (fun t => t.pair.muzzled && t.pair.hfOut && !t.pair.hfPending) = true ∧
    (S0.pair.fence = false ∧ after .muzzle S0 (fun t => decide (t = S0)) = true) := by decide +kernel

/-! ## Cipher engines and Kennel -/

/-- A SHA-256 request over 64 bytes at 0, its digest to 4096; of the control cores, running on engine 3. -/
def shaReq (id : Nat) (urgent : Bool) : CReq :=
  ⟨id, .core, BitVec.ofNat 512 (8 + (if urgent then 32 else 0) + 64 * 2 ^ 32 + 4096 * 2 ^ 448), none, 0, some 3, true, false,
    some 1, 0, none, [], 0, false, 0⟩

/-- One of alg 0, which is reserved. -/
def badReq : CReq := { shaReq 1 false with raw := 0, gen := none, started := false }

/-- Requests of a thread of cluster 0, not started, and not yet on an engine: SHA-256, and AES-CMAC with slot 6. -/
def jutReq (id : Nat) (urgent : Bool) : CReq :=
  { shaReq id urgent with src := .jutex 0 0 none, started := false, gen := none, engine := none }

def macReq : CReq := { jutReq 1 false with raw := BitVec.ofNat 512 (6 + 6 * 2 ^ 8 + 64 * 2 ^ 32 + 4096 * 2 ^ 448) }

/-- A live slot of the infrastructure, and one of slice 9. -/
def liveSlot (infra : Bool) : KenSlot := ⟨.live, 2, 9, infra, 5, 0, 0, false, 3⟩

def cipS (rs : List CReq) (e : CEng) : State :=
  { S0 with
    cip := { S0.cip with reqs := rs, engs := [(3, e)], nextId := 3 }
    ken := { S0.ken with slots := [(6, liveSlot true)], cached := [6] } }

theorem jutReq_runs : RequestRuns (cipS [jutReq 1 false] { resetEng with queue := [1] }) (jutReq 1 false) := by
  unfold RequestRuns; decide +kernel

theorem macReq_runs : RequestRuns (cipS [macReq] { resetEng with queue := [1] }) macReq := by
  unfold RequestRuns; decide +kernel

theorem urgentReq_runs :
    RequestRuns (cipS [shaReq 1 false, jutReq 2 true] { resetEng with run := some 1, queue := [2] }) (jutReq 2 true) := by
  unfold RequestRuns; decide +kernel

theorem witness_CipherEnginesTakeEffect :
    (rowBad (atSlot (cipS [jutReq 1 false] resetEng) 0) true = false ∧
      grantTarget (advanceEngs (atSlot (cipS [jutReq 1 false] resetEng) 0)) (legSource (rowCipher (schedRow S0 0) 0)) =
        some (jutReq 1 false) ∧
      pickEngine (advanceEngs (atSlot (cipS [jutReq 1 false] resetEng) 0)) (jutReq 1 false) = some 0 ∧
      grantReady (cipS [jutReq 1 false] resetEng) (jutReq 1 false) = true ∧ engineBytes (cipS [jutReq 1 false] resetEng) 0 = 0 ∧
      after (.cipherGrant 0 0 true) (cipS [jutReq 1 false] resetEng) (fun t => (creq t 1).any (fun r =>
        decide (r.grants = 1 ∧ r.engine = some 0 ∧ r.data = List.replicate 64 0))) = true) ∧
    (RequestRuns (cipS [jutReq 1 false] { resetEng with queue := [1] }) (jutReq 1 false) ∧
      RequestRuns (cipS [macReq] { resetEng with queue := [1] }) macReq ∧
      RequestRuns (cipS [shaReq 1 false, jutReq 2 true] { resetEng with run := some 1, queue := [2] }) (jutReq 2 true)) ∧
    (rKeyed macReq = true ∧ after (.cipherRequestStart 3) (cipS [macReq] { resetEng with queue := [1] }) (fun t =>
      (creq t 1).any (fun r => decide (r.gen = some 5 ∧ r.started)) &&
        decide ((ceng t 3).run = some 1 ∧ (slotGet t 6).useCur = 1)) = true) ∧
    (formBad badReq = true ∧ (ceng (cipS [badReq] { resetEng with queue := [1] }) 3).run = none ∧
      after (.cipherRequestStart 3) (cipS [badReq] { resetEng with queue := [1] })
        (fun t => decide (creq t 1 = none ∧ .result 16 0 (keyResult 5 1 0 0 3 0 0) ∈ t.out)) = true) ∧
    after (.cipherRequestStart 3) (cipS [{ badReq with stop := some (2, 8) }] { resetEng with queue := [1] })
      (fun t => decide (creq t 1 = none ∧ .result 16 0 (keyResult 2 8 0 0 3 0 0) ∈ t.out)) = true ∧
    (S0.cip.reqs = [] ∧ S0.ken.cached = [] ∧ after (.kennelCacheFill 9 true) { S0 with ken := { S0.ken with fills := [(9, false)] } }
      (fun t => decide (t.ken.fills = [] ∧ 9 ∈ t.ken.cached)) = true) ∧
    (rUrgent (shaReq 1 false) = false ∧ (shaReq 1 false).proc < rAad (shaReq 1 false) + rMsg (shaReq 1 false) ∧
      rUrgent (jutReq 2 true) = true ∧
      after (.suspend 3) (cipS [shaReq 1 false, jutReq 2 true] { resetEng with run := some 1, queue := [2] })
        (fun t => decide ((ceng t 3).run = some 2 ∧ (ceng t 3).ctx = [1])) = true) ∧
    (rGrants (shaReq 1 false) = 1 ∧ (shaReq 1 false).src = .core ∧
      after (.cipherRequestComplete 3) (cipS [{ shaReq 1 false with grants := 1 }] { resetEng with run := some 1 })
        (fun t => decide (creq t 1 = none)) = true) ∧
    (S0.cip.reqs = [] ∧ after (.kat 33 false) S0 (fun t => (ceng t 33).out) = true ∧
      after (.engineOutOfUse 0) S0 (fun t => (ceng t 0).out) = true) ∧
    after (.revokedUserStop 3) (cipS [{ shaReq 1 false with stop := some (2, 8) }] { resetEng with run := some 1 })
      (fun t => decide (creq t 1 = none)) = true :=
  ⟨by decide +kernel, ⟨jutReq_runs, macReq_runs, urgentReq_runs⟩, by decide +kernel⟩

/-- A Kennel request of a thread of cluster 0 for the infrastructure: OP, KIND, SLOT, SRC, DST 4096, WRAP_SLOT. -/
def kraw (op kind slot src wrap : Nat) : BitVec 512 :=
  BitVec.ofNat 512 (op + kind * 2 ^ 4 + slot * 2 ^ 8 + src * 2 ^ 64 + 4096 * 2 ^ 128 + wrap * 2 ^ 192)

def kreq (op kind slot src wrap : Nat) : KReq := ⟨kraw op kind slot src wrap, 0, none, 0, none, 4, false, []⟩

/-- The request at the head of Kennel's queue; slots 6 and 8 live and the infrastructure's, slot 7 another owner's; scratch
bytes of cluster 0 at 0 to 31 that are not all equal. -/
def kenS (r : KReq) : State :=
  scratchWrite { ledS S0 ⟨.running, .kennel, false, 1, .kennel 17, 0, 0, true, 0, 0, 0, .reply 0⟩ emptyMeta with
    ken := { S0.ken with
      slots := [(6, liveSlot true), (7, liveSlot false), (8, liveSlot true)], queue := [r], cached := [1, 5, 6, 7, 8] } }
    0 0 [1]

theorem kenS_serves (op kind slot src wrap : Nat) (h : kenReserved (kreq op kind slot src wrap) = false ∧
    fld (kraw op kind slot src wrap) 0 4 = op ∧
    ∀ n ∈ kenSlots (kenS (kreq op kind slot src wrap)) (kreq op kind slot src wrap),
      cached (kenS (kreq op kind slot src wrap)) n = true) :
    KennelServes (kenS (kreq op kind slot src wrap)) (kreq op kind slot src wrap) [] op :=
  ⟨rfl, rfl, rfl, h.1, h.2.1, rfl, h.2.2, fun _ e => nomatch e⟩

/-- A request of the control cores, OP 5 or 6 on slot 6 for the infrastructure with WRAP_SLOT 8, to the first bytes of the
control-core region. -/
def coreReq (op : Nat) : KReq :=
  ⟨BitVec.ofNat 512 (op + 6 * 2 ^ 8 + 2 ^ 40 + Config.coreRegionPage.val * 4096 * 2 ^ 128 + 8 * 2 ^ 192), 17, none, 0, none, 4,
    false, []⟩

set_option exponentiation.threshold 512 in
theorem coreReq_fld (op lo len : Nat) :
    fld (coreReq op).raw lo len = (op + 6 * 2 ^ 8 + 2 ^ 40 + Config.coreRegionPage.val * 4096 * 2 ^ 128 + 8 * 2 ^ 192) % 2 ^ 512
      / 2 ^ lo % 2 ^ len := by
  rw [fld, coreReq, BitVec.toNat_ofNat, Nat.shiftRight_eq_div_pow]

theorem coreReq_serves (op : Nat) (h : op = 5 ∨ op = 6) :
    KennelServes (kenS (coreReq op)) (coreReq op) [] op ∧ kSlot (coreReq op) = 6 ∧ kWrap (coreReq op) = 8 ∧
      kDst (coreReq op) = Config.coreRegionPage.val * 4096 ∧ kenOwner (coreReq op) = none := by
  have hp := Config.coreRegionPage.isLt
  have slot : kSlot (coreReq op) = 6 := by unfold kSlot; rw [coreReq_fld]; omega
  have wrap : kWrap (coreReq op) = 8 := by unfold kWrap; rw [coreReq_fld]; omega
  have dst : kDst (coreReq op) = Config.coreRegionPage.val * 4096 := by unfold kDst; rw [coreReq_fld]; omega
  have code : fld (coreReq op).raw 0 4 = op := by rw [coreReq_fld]; omega
  have infra : fld (coreReq op).raw 40 1 = 1 := by rw [coreReq_fld]; omega
  have reserved : kenReserved (coreReq op) = false := by
    simp only [kenReserved, coreReq_fld, Bool.or_eq_false_iff, Bool.and_eq_false_iff, bne_eq_false_iff_eq]
    exact ⟨⟨⟨by omega, by omega⟩, by omega⟩, .inl rfl⟩
  have owner : kenOwner (coreReq op) = none := by
    have hb : (coreReq op).raw.getLsbD 40 = true := by
      rw [BitVec.getLsbD, Nat.testBit_eq_decide_div_mod_eq]
      simpa [fld, Nat.shiftRight_eq_div_pow] using infra
    simp only [kenOwner, show (coreReq op).issuer = 17 from rfl, hb, if_true]
  refine ⟨⟨rfl, rfl, rfl, reserved, code, rfl, ?_, fun _ e => by rw [owner] at e; cases e⟩, slot, wrap, dst, owner⟩
  intro n hn
  have hn : n = 6 ∨ n = 8 := by
    unfold kenSlots at hn
    split at hn
    · cases hn
    · rw [code, slot, wrap] at hn
      rcases h with rfl | rfl
      · exact .inl (List.mem_singleton.mp hn)
      · simpa using hn
  rcases hn with rfl | rfl <;> rfl

/-- The first bytes of the control-core region lie in it. -/
theorem inCoreRegion_base (n : Nat) (h : n ≤ 17179869184) : inCoreRegion (Config.coreRegionPage.val * 4096) n = true := by
  unfold inCoreRegion
  exact decide_eq_true ⟨Nat.le_refl _, Nat.add_le_add_left h _⟩

/-- What READ_META and WRAP_EXPORT of the control cores need of the memory they write. -/
theorem coreReq_writes (op n : Nat) (h : op = 5 ∨ op = 6) (hn : n ≤ 96) : inCoreRegion (kDst (coreReq op)) n = true := by
  rw [(coreReq_serves op h).2.2.2.1]
  exact inCoreRegion_base n (Nat.le_trans hn (by decide))

theorem kenS_unlocked (r : KReq) (a n : Nat) : hbmLocked (kenS r) a n = false := rfl

def doneIs (t : State) (status : BitVec 8) : Bool := (ledGet t 4).any (fun e => decide (e.state = .done ∧ e.status = status))

def slotIs (t : State) (n : Nat) (st : KenState) : Bool := decide ((slotGet t n).state = st)

/-- Slot 6, wrapped under the material of slot 8: header, encrypted material and tag. -/
def blobBytes : List Byte := leBytes 96
  0xa94d2f9992f25acb367b4f7d2f72ca9ed5301649a917d7baddb9dd0a1815347457ba2067102dfe216380bb8094501b9b5f1fc524a465d9b07eabaf1568658dbb2f63c66394f4cbf68beaf9c8524dd33500000000000000000000180001600491

theorem blobBytes_wraps : blobBytes = wrapBlob (liveSlot true) 3 6 0 ∧ unwrapBlob blobBytes 3 = some (2, 3) := by decide +kernel

def importS : State := scratchWrite (kenS (kreq 7 0 5 0 8)) 0 0 blobBytes

theorem witness_KennelOperationsTakeEffect :
    (KennelServes (kenS (kreq 2 2 5 0 0)) (kreq 2 2 5 0 0) [] 2 ∧ KennelServes (kenS (kreq 1 3 5 0 0)) (kreq 1 3 5 0 0) [] 1 ∧
      KennelServes (kenS (kreq 3 0 6 0 0)) (kreq 3 0 6 0 0) [] 3 ∧ KennelServes (kenS (kreq 4 0 6 0 0)) (kreq 4 0 6 0 0) [] 4 ∧
      KennelServes (kenS (coreReq 5)) (coreReq 5) [] 5 ∧ KennelServes (kenS (coreReq 6)) (coreReq 6) [] 6 ∧
      KennelServes (kenS (kreq 7 0 5 0 1)) (kreq 7 0 5 0 1) [] 7) ∧
    ((kindBytes (kKind (kreq 2 2 5 0 0)) ≠ 0 ∧ slotOwned (kenS (kreq 2 2 5 0 0)) none true 5 = true ∧
       (slotGet (kenS (kreq 2 2 5 0 0)) 5).state = .empty ∧
       after (.generate none) (kenS (kreq 2 2 5 0 0)) (fun t => slotIs t 5 .live && doneIs t 0 &&
         decide ((slotGet t 5).kind = 2 ∧ (slotGet t 5).gen = 1 ∧ t.ken.queue = [])) = true) ∧
     (kenRead (kenS (kreq 1 3 5 0 0)) (kreq 1 3 5 0 0) (kSrc (kreq 1 3 5 0 0)) 32 = some (1 :: List.replicate 31 0) ∧
       equalHalves (kKind (kreq 1 3 5 0 0)) 1 = false ∧ after (.kennelWrite none) (kenS (kreq 1 3 5 0 0)) (fun t => slotIs t 5 .live && doneIs t 0 &&
         decide ((slotGet t 5).material = 1)) = true) ∧
     (slotOwned (kenS (kreq 3 0 6 0 0)) none true 6 = true ∧ (slotGet (kenS (kreq 3 0 6 0 0)) 6).useCur = 0 ∧
       after (.erase none) (kenS (kreq 3 0 6 0 0)) (fun t => slotIs t 6 .empty && doneIs t 0 &&
         decide ((slotGet t 6).material = 0 ∧ (slotGet t 6).gen = 5)) = true) ∧
     after (.forceErase none) (kenS (kreq 4 0 6 0 0)) (fun t => slotIs t 6 .empty && decide (t.ken.queue = [])) = true ∧
     (wrapFault (kenS (kreq 7 0 5 0 1)) none false 1 = some (2, 6) ∧
       after (.wrapImport none) (kenS (kreq 7 0 5 0 1)) (fun t => doneIs t 2 && decide (t.ken.queue = [])) = true) ∧
     (slotOwned (kenS (coreReq 5)) none true 6 = true ∧ (slotGet (kenS (coreReq 6)) 6).state = .live ∧
       wrapFault (kenS (coreReq 6)) none true 8 = none ∧ EntryOpen (kenS (coreReq 5)) 4 ∧ EntryOpen (kenS (coreReq 6)) 4) ∧
     (wrapFault importS none false 8 = none ∧ kenRead importS (kreq 7 0 5 0 8) 0 96 = some blobBytes ∧ (slotGet importS 8).material = 3 ∧ slotOwned importS none false 5 = true ∧
       (slotGet importS 5).state = .empty ∧ kindBytes 2 ≠ 0 ∧ equalHalves 2 3 = false)) :=
  ⟨⟨kenS_serves _ _ _ _ _ (by decide +kernel), kenS_serves _ _ _ _ _ (by decide +kernel), kenS_serves _ _ _ _ _ (by decide +kernel),
    kenS_serves _ _ _ _ _ (by decide +kernel), (coreReq_serves 5 (.inl rfl)).1, (coreReq_serves 6 (.inr rfl)).1,
    kenS_serves _ _ _ _ _ (by decide +kernel)⟩, by decide +kernel, by decide +kernel, by decide +kernel, by decide +kernel,
    by decide +kernel, ⟨rfl, rfl, rfl, ⟨_, rfl, by decide⟩, ⟨_, rfl, by decide⟩⟩, by decide +kernel⟩

theorem witness_KennelRefusesForeignSlots :
    (KennelServes (kenS (kreq 2 2 7 0 0)) (kreq 2 2 7 0 0) [] 2 ∧ KennelServes (kenS (kreq 3 0 7 0 0)) (kreq 3 0 7 0 0) [] 3 ∧
      KennelServes (kenS (kreq 4 0 7 0 0)) (kreq 4 0 7 0 0) [] 4 ∧ KennelServes (kenS (kreq 5 0 7 0 0)) (kreq 5 0 7 0 0) [] 5 ∧
      KennelServes (kenS (kreq 6 0 7 0 8)) (kreq 6 0 7 0 8) [] 6) ∧
    (slotOwned (kenS (kreq 2 2 7 0 0)) none true 7 = false ∧
     after (.generate none) (kenS (kreq 2 2 7 0 0)) (fun t => doneIs t 2) = true ∧
     after (.erase none) (kenS (kreq 3 0 7 0 0)) (fun t => doneIs t 2 && slotIs t 7 .live) = true ∧
     after (.forceErase none) (kenS (kreq 4 0 7 0 0)) (fun t => doneIs t 2 && slotIs t 7 .live) = true ∧
     after (.readMeta none) (kenS (kreq 5 0 7 0 0)) (fun t => doneIs t 2) = true ∧
     after (.wrapExport none) (kenS (kreq 6 0 7 0 8)) (fun t => doneIs t 2) = true) :=
  ⟨⟨kenS_serves _ _ _ _ _ (by decide +kernel), kenS_serves _ _ _ _ _ (by decide +kernel), kenS_serves _ _ _ _ _ (by decide +kernel),
    kenS_serves _ _ _ _ _ (by decide +kernel), kenS_serves _ _ _ _ _ (by decide +kernel)⟩, by decide +kernel⟩

theorem witness_CipherAndKennelKeepOtherState :
    after (.erase none) (kenS (kreq 3 0 6 0 0)) (fun t => decide (t.net = S0.net ∧ t.stg = S0.stg)) = true ∧
    (∀ e ∈ (cipS [jutReq 1 false] resetEng).cip.engs, e.2.run = none) ∧
    after (.cipherGrant 0 0 true) (cipS [jutReq 1 false] resetEng)
      (fun t => decide (t.ken = (cipS [] resetEng).ken ∧ t.cip.reqs ≠ [jutReq 1 false])) = true := by
  decide +kernel

/-! ## DMA -/

/-- START, FILL, destination in device memory, as a paired word. -/
def fillCtrl : BitVec 64 := BitVec.ofNat 64 (pairOf 32 (1 + 2 + 256))

def fillX (st : ChState) : Chan :=
  { resetChan with
    count := 8, fill := 0x0807060504030201, dst := 64, ctrl := fillCtrl, state := st, sRanges := [], dRanges := [(64, 8)] }

def chS (x : Chan) : State := objs { S0 with dma := { S0.dma with chans := [(0, x)] } } [(0xA800, 3, 0, 4096)]

def chIs (t : State) (st : ChState) (code : BitVec 8) : Bool := decide ((chan t 0).state = st ∧ (chan t 0).code = code)

def badX : Chan := { fillX .precheck with ctrl := BitVec.ofNat 64 (pairOf 32 (1 + 6 + 256)) }

def fillUnit : DUnit := ⟨0, 0, 0, 0, 8, [], none, false, false, false⟩

/-- A unit of a copy whose 8 bytes have been read from device memory. -/
def memUnit : DUnit := ⟨0, 0, 0, 0, 8, [⟨false, 32, 8, some (List.replicate 8 0)⟩], none, false, false, false⟩

def listX : Chan :=
  { fillX .precheck with
    srcN := 1, ctrl := BitVec.ofNat 64 (pairOf 32 (1 + 8 + 64 + 256)),
    units := [⟨0, 1, 0, 0, 16, [⟨false, 0, 16, some (List.replicate 16 0)⟩], none, false, false, false⟩] }

theorem witness_DmaCommandsTakeEffect :
    ((chan S0 0).state = .idle ∧ fillCtrl.getLsbD 0 = true ∧ ctrlAltered fillCtrl = false ∧
      pairOk 32 (ctrlTaken (chan S0 0).ctrl fillCtrl).toNat = true ∧
      ownerDraining S0 (channelOwner S0 0) = false ∧ after (.channelStart 0 fillCtrl) S0
        (fun t => chIs t .idle 0 && decide ((chan t 0).completions = 1)) = true) ∧
    after (.channelStart 0 fillCtrl) (chS (fillX .idle)) (fun t => chIs t .precheck 0) = true ∧
    (badForm badX = true ∧ pairOk 32 badX.ctrl.toNat = true ∧
      after (.precheckDone 0) (chS badX) (fun t => chIs t .idle 5 && decide ((chan t 0).detail = 1)) = true) ∧
    (badForm (fillX .precheck) = false ∧ listLen (fillX .precheck) false = 0 ∧ listLen (fillX .precheck) true = 0 ∧
      precheckFault (chS (fillX .precheck)) 0 (withRanges (fillX .precheck)) = none ∧
      after (.precheckDone 0) (chS (fillX .precheck)) (fun t => chIs t .active 0) = true) ∧
    (precheckFault (objs (chS (fillX .precheck)) [(0xA800, 3, 0, 64)]) 0 (withRanges (fillX .precheck)) = some (4, 5) ∧
      after (.precheckDone 0) (objs (chS (fillX .precheck)) [(0xA800, 3, 0, 64)]) (fun t => chIs t .idle 4) = true) ∧
    (rowBad (atSlot S0 0) true = false ∧ rowDma (schedRow S0 0) 0 = 0 ∧ pickChannel (atSlot S0 0) 0 = none ∧
      after (.dmaGrant 0 0 true) S0 (fun t => decide (ctrGet t 0xC0D0 0x0D 0 = 1 ∧ t.dma = S0.dma)) = true) ∧
    (rowBad (atSlot (chS (fillX .active)) 0) true = false ∧ pickChannel (atSlot (chS (fillX .active)) 0) 0 = some 0 ∧
      (fillX .active).units = [] ∧ pairOk 32 (fillX .active).ctrl.toNat = true ∧
      after (.dmaGrant 0 0 true) (chS (fillX .active))
        (fun t => decide ((chan t 0).nextUnit = 1 ∧ (chan t 0).next = 8)) = true) ∧
    (pickChannel (atSlot (chS { listX with units := [] }) 0) 0 = some 0 ∧ pairOk 32 listX.ctrl.toNat = true ∧
      listX.sAsked < listLen listX false ∧ after (.dmaGrant 0 0 true) (chS { listX with units := [] })
        (fun t => decide ((chan t 0).nextUnit = 1 ∧ (chan t 0).sAsked = 1)) = true) ∧
    after (.dmaAbort 0) (chS { fillX .halted with code := 4, detail := 5 })
      (fun t => chIs t .idle 4 && decide ((chan t 0).completions = 1)) = true ∧
    ((fillX .halted).xtsRes = none ∧ (fillX .halted).fin ≠ sideLen (fillX .halted) ∧ listKept fillUnit = false) ∧
    after (.dmaRetry 0) (chS { fillX .halted with units := [fillUnit] }) (fun t => chIs t .active 0 &&
      decide ((chan t 0).units.map (·.fail) = [some (0, false)])) = true ∧
    after (.dmaRetry 0) (chS { fillX .halted with inPre := true }) (fun t => chIs t .precheck 0) = true ∧
    after (.dmaClear 0) (chS (fillX .quarantined)) (fun t => decide (chan t 0 = resetChan)) = true := by decide +kernel

theorem witness_DmaWritesIgnoredWhenBusy :
    after (.channelStart 0 fillCtrl) (chS (fillX .stopping)) (fun t => (chan t 0).ignored) = true ∧
    after (.dmaAbort 0) (chS (fillX .active)) (fun t => decide (chan t 0 = { fillX .active with ignored := true })) = true ∧
    after (.dmaRetry 0) S0 (fun t => (chan t 0).ignored) = true ∧
    after (.dmaClear 0) (chS (fillX .halted)) (fun t => (chan t 0).ignored) = true := by decide +kernel

theorem witness_DmaChunksMoveBytes :
    (isFill (fillX .active) = true ∧ isCompare (fillX .active) = false ∧ transforms (fillX .active) = false ∧
      cDstSpace (fillX .active) = 2 ∧ (fillX .active).route = .reg ∧ dstPieces (fillX .active) 0 8 = [(64, 8)] ∧
      hbmLocked (chS (fillX .active)) 64 8 = false ∧
      after (.chunkDone 0 0 true) (chS { fillX .active with units := [fillUnit] })
        (fun t => decide (hbmRead t 63 10 = [0, 1, 2, 3, 4, 5, 6, 7, 8, 0])) = true) ∧
    (listX.sRead = 0 ∧ after (.chunkDone 0 0 true) (chS listX) (fun t => decide ((chan t 0).units = [] ∧ (chan t 0).sRead = 1)) = true) ∧
    after (.chunkDone 0 0 false) (chS { fillX .active with ctrl := BitVec.ofNat 64 (pairOf 32 (1 + 64 + 256)), units := [memUnit] })
      (fun t => decide ((chan t 0).state = .halted ∧ (chan t 0).code = 4 ∧ (chan t 0).detail = 0x16)) = true ∧
    after (.chunkDone 0 9 true) (chS { fillX .active with units := [fillUnit] })
      (fun t => decide (t = chS { fillX .active with units := [fillUnit] })) = true := by decide +kernel

theorem witness_DmaCommandsKeepOtherState :
    after (.channelStart 1 fillCtrl) (chS (fillX .active)) (fun t => decide (chan t 0 = fillX .active)) = true ∧
      beyondDone (fillX .halted) 0 = [(64, 8)] ∧ beyondDone { fillX .halted with fin := 3 } 3 = [(67, 5)] ∧
      beyondDone { fillX .halted with inPre := true } 0 = [] ∧
      after (.dmaAbort 0) (chS { fillX .halted with code := 4 }) (fun t => decide ((chan t 0).state = .idle ∧ t.fresh = S0.fresh + 1)) = true := by
  decide +kernel

/-! ## Host endpoint -/

/-- Link 0 in a state, with PF0 and PF1 of link 0. -/
def linkS (l : Link) (fns : Sparse Fn) : State :=
  { S0 with hst := { S0.hst with links := [l, resetLink 1, resetLink 2, resetLink 3], fns := fns } }

def upLink : Link := { resetLink 0 with state := 3, rate := 5, width := 16 }

/-- A function with a command register and one more configuration word. -/
def fnOf (st : FnState) (cmd : BitVec 32) (more : Sparse (BitVec 32)) : Fn := { resetFn with state := st, cfg := (4, cmd) :: more }

def pmIs (t : State) (pm : LinkPm) : Bool := decide ((linkGet t 0).pm = pm)

theorem witness_HostLinksTakeEffect :
    (S0.hst.links.length = 4 ∧ linkPresent S0 0 = true ∧ (linkGet S0 0).perst = true ∧ (linkGet S0 0).state = 1 ∧
      1 ≤ objGet S0 0xA100 5 0 ∧ after (.linkTrained 0 5 4 false) S0
        (fun t => decide ((linkGet t 0).state = 3 ∧ (linkGet t 0).rate = 5 ∧ (linkGet t 0).width = 4)) = true) ∧
    ((linkGet (linkS upLink []) 0).state = 3 ∧ after (.dlDown 0) (linkS upLink [])
      (fun t => decide ((linkGet t 0).state = 1 ∧ (linkGet t 0).rate = 0 ∧ (linkGet t 0).width = 0)) = true) ∧
    (linkPresent (linkS upLink []) 0 = true ∧ (linkGet (linkS upLink []) 0).perst = true ∧
      after (.perstAssert 0 false) (linkS upLink []) (fun t => decide ((linkGet t 0).state = 1 ∧ (linkGet t 0).perst = false)) = true) ∧
    ((linkS upLink [(0, fnOf .disabled 0 [(0x80, 1)])]).hst.primary = 0 ∧ aspm (linkS upLink [(0, fnOf .disabled 0 [(0x80, 1)])]) 0 = true ∧
      after (.l0sEntry 0) (linkS upLink [(0, fnOf .disabled 0 [(0x80, 1)])]) (fun t => pmIs t .l0s) = true) ∧
    (aspm (linkS upLink [(0, fnOf .disabled 0 [(0x80, 2)])]) 1 = true ∧
      after (.l1Entry 0) (linkS upLink [(0, fnOf .disabled 0 [(0x80, 2)])]) (fun t => pmIs t .l1) = true) ∧
    after (.l1Exit 0) (linkS { upLink with pm := .l1 } []) (fun t => pmIs t .l0) = true ∧
    ((cfgGet (fnGet (linkS { upLink with pm := .l1 } [(0, fnOf .disabled 0 [(0x1D8, 4)])]) 0 0) 0x1D8).getLsbD 2 = true ∧
      after (.l12Entry 0 false) (linkS { upLink with pm := .l1 } [(0, fnOf .disabled 0 [(0x1D8, 4)])]) (fun t => pmIs t .l12) = true) ∧
    after (.l12Entry 0 false) (linkS { upLink with pm := .l1 } [(0, fnOf .disabled 0 [(0x1D8, 4 + 1023 * 2 ^ 16 + 5 * 2 ^ 29)])])
      (fun t => pmIs t .l1 && decide (t.out.length = 1)) = true ∧
    after (.l12Entry 0 false) (linkS { upLink with pm := .l1 } [(0, fnOf .disabled 0 [(0x1D8, 12 + 1023 * 2 ^ 16 + 5 * 2 ^ 29)])])
      (fun t => pmIs t .l11) = true := by decide +kernel

def fnIs (t : State) (fn : Nat) (st : FnState) : Bool := decide ((fnGet t 0 fn).state = st)

/-- VF 0 enabled on PF1. -/
def vfS (f : Fn) : State := linkS upLink [(1, fnOf .disabled 0 [(0x168, 1), (0x170, 2)]), (2, f)]

theorem witness_HostFunctionsTakeEffect :
    (fnPresent (linkS upLink []) 0 0 = true ∧ fnBme (fnGet (linkS upLink []) 0 0) = false ∧ S0.dma.chans = [] ∧
      (fnGet (linkS upLink []) 0 0).state = .disabled ∧ (fnGet (linkS upLink []) 0 0).drain = .bme ∧
      after (.busMasterEnableSet 0 0) (linkS upLink []) (fun t => fnIs t 0 .enabled && fnBme (fnGet t 0 0)) = true) ∧
    (fnBme (fnOf .enabled 4 []) = true ∧ after (.busMasterEnableClear 0 0) (linkS upLink [(0, fnOf .enabled 4 [])])
      (fun t => fnIs t 0 .draining && !fnBme (fnGet t 0 0)) = true) ∧
    after (.functionDrainEnd 0 0) (linkS upLink [(0, fnOf .draining 0 [])]) (fun t => fnIs t 0 .disabled) = true ∧
    after (.functionDrainEnd 0 0) (linkS upLink [(0, { fnOf .draining 0 [] with pending := true })]) (fun t => fnIs t 0 .enabled) = true ∧
    (fnPresent (vfS (fnOf .enabled 4 [])) 0 2 = true ∧ boundSlices (vfS (fnOf .enabled 4 [])) 0 2 = [] ∧ after (.initiateFlr 0 2) (vfS (fnOf .enabled 4 []))
      (fun t => fnIs t 2 .draining && decide ((fnGet t 0 2).drain = .flr)) = true) ∧
    after (.flrEnd 0 2) (vfS { fnOf .draining 0 [] with drain := .flr, msix := [(0, 5)] })
      (fun t => fnIs t 2 .disabled && decide ((fnGet t 0 2).msix = [])) = true ∧
    after (.flrEnd 0 1) (linkS upLink [(1, { fnOf .draining 0 [] with drain := .flr, pending := true })]) (fun t => fnIs t 1 .enabled) = true ∧
    after (.dStateChange 0 0 true) S0 (fun t => (fnGet t 0 0).d3) = true ∧
    (fnPresent S0 0 1 = true ∧ vfEnabled S0 0 = false ∧ 2 ≤ objGet (objs S0 [(0xA100, 6, 0, 4)]) 0xA100 6 0 ∧
      after (.vfEnable 0 true 2) (objs S0 [(0xA100, 6, 0, 4)]) (fun t => vfEnabled t 0 && decide (numVfs t 0 = 2)) = true) ∧
    (memSpaceOn S0 0 0 = false ∧ after (.unsupportedBarAccess 0 0 0 4 false false) S0
      (fun t => decide (t.out = [.unsupported 0 0])) = true) ∧
    (memSpaceOn (linkS upLink [(0, fnOf .enabled 2 [])]) 0 0 = true ∧
      after (.unsupportedBarAccess 0 0 2 4 false false) (linkS upLink [(0, fnOf .enabled 2 [])]) (fun t => decide (t.out = [.unsupported 0 0])) = true ∧
      after (.unsupportedBarAccess 0 0 0 3 false false) (linkS upLink [(0, fnOf .enabled 2 [])]) (fun t => decide (t.out = [.unsupported 0 0])) = true ∧
      after (.unsupportedBarAccess 0 0 4 4 true false) (linkS upLink [(0, fnOf .enabled 2 [])]) (fun t => decide (t.out = [])) = true) := by
  decide +kernel

/-- Slice 5, of PASID 5 on link 0, enabled, its queue pair 0 of 16 entries each, DMA channel 9 its own. -/
def qpS (x : Qp) : State :=
  qpPut (setSlice (objs (linkS upLink [(1, fnOf .enabled 6 [])])
    [(0xA800, 1, 9, 5), (0xB001, 1, 5, 1), (0xB001, 5, 5, 100), (0xB100, 1, 320, 1), (0xB100, 3, 320, 16), (0xB100, 5, 320, 16)])
    5 { resetSlice with state := .enabled, bound := some ⟨false, 0, 5⟩ }) 320 x

/-- Two descriptors to fetch, and one that has been fetched. -/
def fetchS : State := qpS { resetQp with sqTail := 2 }
def gotS : State := qpS { resetQp with sqTail := 1, got := some (List.replicate 64 0), asked := 1 }

/-- PF0 of link 0 with MSI-X on and vector 3 pending and unmasked. -/
def msiS : State := linkS upLink [(0, { fnOf .enabled 6 [(0x50, 0x80000000)] with msix := [(3, 0)], pba := [3] })]

theorem witness_DoorbellsAndFetch :
    (doorbellQp (qpS resetQp) 0 5 0 = some 320 ∧ doorbellsClosed (qpS resetQp) = false ∧
      after (.sqTail 0 5 0 15) (qpS resetQp) (fun t => decide ((qpGet t 320).sqTail = 15)) = true ∧
      after (.sqTail 0 5 0 16) (qpS resetQp) (fun t => decide ((qpGet t 320).sqTail = 0)) = true ∧
      after (.cqHead 0 5 0 2) (qpS { resetQp with unread := 2 }) (fun t => decide ((qpGet t 320).cqHead = 2)) = true ∧
      after (.cqHead 0 5 0 3) (qpS { resetQp with unread := 2 }) (fun t => decide ((qpGet t 320).cqHead = 0)) = true) ∧
    (doorbellsClosed { qpS resetQp with pair := { S0.pair with state := .standby } } = true ∧
      after (.sqTail 0 5 0 2) { qpS resetQp with pair := { S0.pair with state := .standby } }
        (fun t => decide ((qpGet t 320).sqTail = 0 ∧ ctrGet t 0xC200 0x0E 0 = 1)) = true) ∧
    after (.fetchStart 320) (qpS resetQp) (fun t => decide (t = qpS resetQp)) = true ∧
    (fetchChannel fetchS 320 = some 9 ∧ qpOwner 320 = some 5 ∧ mayFetch fetchS 320 = true ∧ (chan fetchS 9).state = .idle ∧
      qpObj fetchS 320 3 = 16 ∧ 0 < quotaRoom fetchS 5 320 ∧ 0 < hostRoom fetchS ∧
      0 < freePositions fetchS 320 ∧ after (.fetchStart 320) fetchS
        (fun t => decide ((chan t 9).state = .precheck ∧ (chan t 9).route = .fetch 320 ∧ (qpGet t 320).asked = 2)) = true) ∧
    (gotS.pair.fence = false ∧ mayFetch gotS 320 = true ∧ mayLeave gotS 0 = true ∧ deltaRoom gotS 36 = true ∧
      1 ≤ hostRoom gotS ∧ 1 ≤ quotaRoom gotS 5 320 ∧ (hostPost gotS (some 5) ((qpFn gotS 320).1, (qpFn gotS 320).2, ownerPasid gotS (some 5))
        (qpObj gotS 320 6) (leBytes 8 1)).1 = true ∧
      after (.headPointerWriteBack 320) gotS (fun t => decide ((qpGet t 320).head = 1 ∧ (qpGet t 320).asked = 0) &&
          (t.led.entries.any (fun e => decide (e.2.state = .accepted ∧ e.2.kind = .host)))) = true) ∧
    (msixReady msiS 0 0 3 = true ∧ msiS.pair.fence = false ∧
      after (.msixSend 0 0 3) msiS (fun t => decide (t.out = [.msix 0 0 3] ∧ (fnGet t 0 0).pba = [])) = true) := by
  decide +kernel

def hstS (h : Hst) : State := { S0 with hst := h }

def hread : HRead := ⟨0, 5, 0, none, 0, 64, 9, 0, 0, 0, false, 0, none, 0⟩

theorem witness_HostTranslationsAndCompletions :
    (S0.dma.chans = [] ∧ after (.translationCompletion 5 true 0x3000) (hstS { S0.hst with holds := [⟨5, 0, 1, none, 2, false, false⟩] })
      (fun t => decide (t.hst.holds = [] ∧ t.hst.atc = [⟨0, 1, none, 2, 3⟩])) = true) ∧
    after (.translationCompletion 5 false 0) (hstS { S0.hst with holds := [⟨5, 0, 1, none, 2, false, false⟩] })
      (fun t => t.hst.holds.all (fun x => x.pri)) = true ∧
    after (.pageRequestResponse 5 true) (hstS { S0.hst with holds := [⟨5, 0, 1, none, 2, false, true⟩] })
      (fun t => decide (t.hst.holds = [])) = true ∧
    after (.pageRequestResponse 5 false) (hstS { S0.hst with holds := [⟨5, 0, 1, none, 2, false, true⟩] })
      (fun t => decide (t.hst.holds = [])) = true ∧
    (S0.hst.invals = [] ∧ S0.hst.reads = [] ∧ after (.invalidationRequest 0 1 none 0x2000 1)
      (hstS { S0.hst with atc := [⟨0, 1, none, 2, 3⟩, ⟨0, 1, none, 3, 3⟩] })
      (fun t => decide (t.hst.atc = [⟨0, 1, none, 3, 3⟩] ∧ t.out = [.invalidated 0 1])) = true) ∧
    after (.completionReceived 5 0 false 0 []) (hstS { S0.hst with reads := [hread] }) (fun t => decide (t.hst.reads = [])) = true ∧
    after (.completionReceived 6 0 false 0 []) (hstS { S0.hst with reads := [hread] })
      (fun t => decide (ctrGet t 0xC0E0 2 0 = 1)) = true ∧
    (hread.since + timeoutSlots S0 0 0 ≤ now { S0 with clk := { S0.clk with beat := 100000 } } ∧
      after (.completionTimeout 0 5) { hstS { S0.hst with reads := [hread] } with clk := { S0.clk with beat := 100000 } }
        (fun t => decide (t.hst.reads.map (fun r => (r.tag, r.quar)) = [(5, true)] ∧ ctrGet t 0xC0E0 1 0 = 1)) = true) ∧
    (4 * timeoutSlots S0 0 0 ≤ now { S0 with clk := { S0.clk with beat := 100000 } } ∧
      after (.tagQuarantineEnd 0 5) { hstS { S0.hst with reads := [{ hread with quar := true }] } with clk := { S0.clk with beat := 100000 } }
        (fun t => decide (t.hst.reads = [])) = true) := by decide +kernel

theorem witness_HostCommandsKeepOtherState :
    after (.linkTrained 0 5 4 false) S0 (fun t => decide (t.net = S0.net)) = true ∧
    (S0.dma.chans = [] ∧ after (.busMasterEnableSet 0 0) S0 (fun t => decide (t.ken = S0.ken)) = true) := by decide +kernel

/-! ## Slices -/

def slS (st : SlState) : State := setSlice S0 7 { resetSlice with state := st }

def slIs (t : State) (st : SlState) (res : Nat) : Bool := decide ((slice t 7).state = st ∧ (slice t 7).result = res)

/-- A host item of slice 7 in the ledger. -/
def slItem (st : LedState) : LedEntry := { hostEntry st with slice := 7, queue := .host false 7 0 0 }

def busyS (st : SlState) : State := { ledS (slS st) (slItem .running) emptyMeta with clk := { S0.clk with beat := 100000000 } }

/-- Slice 7 FROZEN with a live AES-256 migration slot of its own. -/
def migS : State :=
  { slS .frozen with
    objs := { S0.objs with vals :=
      [(okey 0xB001 1 7, 1), (okey 0xB002 1 7, 6), (okey 0xB002 2 7, Config.coreRegionPage.val * 4096)] }
    ken := { S0.ken with slots := [(6, { liveSlot false with slice := 7 })] } }

/-- The same with a live key in the slice's range. -/
def liveS : State :=
  { migS with
    objs := { S0.objs with vals := [(okey 0xB001 1 7, 1), (okey 0xB001 2 7, 9), (okey 0xB001 3 7, 1), (okey 0xB002 1 7, 6),
      (okey 0xB002 2 7, Config.coreRegionPage.val * 4096)] }
    ken := { S0.ken with slots := [(6, { liveSlot false with slice := 7 }), (9, { liveSlot false with slice := 7 })] } }

theorem saveObjects_length (s : State) : ∀ ks, (saveObjects s ks).length ≤ 8 * ks.length
  | [] => Nat.le_refl _
  | k :: ks => by
    have h := saveObjects_length s ks
    rw [saveObjects] at h ⊢
    rw [List.flatMap_cons, List.length_append, List.length_map, List.length_cons]
    exact Nat.le_trans (Nat.add_le_add (List.length_filter_le _ _) h) (by simp; omega)

/-- The saved state of a slice of one queue pair, however many objects of it are not at their default. -/
theorem saved_fits (s : State) (n : Nat) (h : n ≤ 300) :
    inCoreRegion (Config.coreRegionPage.val * 4096) (n + 16 * (saveObjects s (sliceQps 7)).length + 16) = true := by
  have b := saveObjects_length s (sliceQps 7)
  rw [show (sliceQps 7).length = 64 from rfl] at b
  exact inCoreRegion_base _ (by omega)

theorem witness_SliceCommandsTakeEffect :
    (inCoreRegion (objGet migS 0xB002 2 7) (64 + 64 * 1 + 128 * 0 + 100 * 0 + 16 * (saveObjects migS (sliceQps 7)).length + 16) = true ∧
      inCoreRegion (objGet liveS 0xB002 2 7) (64 + 64 * 1 + 128 * 0 + 100 * 1 + 16 * (saveObjects liveS (sliceQps 7)).length + 16) = true) ∧
    ((slice (slS .disabled) 7).state = .disabled ∧ after (.sliceEnable 7) (slS .disabled) (fun t => slIs t .enabled 0) = true) ∧
    after (.sliceEnable 7) (slS .draining) (fun t => slIs t .draining 0 && (slice t 7).pending) = true ∧
    after (.sliceReset 7) (slS .enabled) (fun t => slIs t .draining 0) = true ∧
    after (.sliceReset 7) (slS .freezing) (fun t => slIs t .draining 0) = true ∧
    after (.sliceReset 7) (slS .frozen) (fun t => slIs t .draining 0) = true ∧
    after (.sliceFreeze 7) (slS .enabled) (fun t => slIs t .freezing 0) = true ∧
    after (.sliceResume 7) (slS .frozen) (fun t => slIs t .enabled 0) = true ∧
    after (.sliceRestore 7) (slS .disabled) (fun t => slIs t .restoring 0) = true ∧
    after (.sliceDisable 7) (slS .draining) (fun t => slIs t .draining 0) = true ∧
    (migSlotOk (slS .frozen) 7 = false ∧ after (.sliceSave 7) (slS .frozen) (fun t => slIs t .frozen 1) = true) ∧
    (migSlotOk migS 7 = true ∧ migS.hbm.locks = [] ∧ objGet migS 0xB001 1 7 = 1 ∧ sliceChannels migS 7 = [] ∧
      liveSlots migS 7 = []) ∧
    (migSlotOk liveS 7 = true ∧ liveSlots liveS 7 = [9] ∧ recording liveS = false ∧ islandTakes liveS 26 = true ∧
      liveS.pwr.hold = none ∧ mainOn liveS = true ∧ objGet liveS 0xB001 1 7 = 1 ∧ sliceChannels liveS 7 = []) ∧
    (inflight (slS .freezing) 7 = 0 ∧ after (.freezeComplete 7) (slS .freezing) (fun t => slIs t .frozen 0) = true) ∧
    (inflight (busyS .freezing) 7 = 1 ∧ (slice (busyS .freezing) 7).since + objGet (busyS .freezing) 0xB002 6 7 * 1250000 ≤ now (busyS .freezing) ∧
      after (.freezeTimeout 7) (busyS .freezing) (fun t => slIs t .enabled 1) = true) ∧
    (inflight (slS .draining) 7 = 0 ∧ (slice (slS .draining) 7).zeroed = false ∧
      after (.sliceZero 7) (slS .draining) (fun t => slIs t .draining 0 && (slice t 7).zeroed) = true) ∧
    after (.resetSequenceEnd 7) (setSlice S0 7 { resetSlice with state := .draining, zeroed := true })
      (fun t => slIs t .disabled 0) = true ∧
    after (.resetSequenceEnd 7) (setSlice S0 7 { resetSlice with state := .draining, zeroed := true, pending := true })
      (fun t => slIs t .enabled 0) = true := by
  refine ⟨⟨saved_fits migS _ (by decide), saved_fits liveS _ (by decide)⟩, ?_⟩
  decide +kernel

/-- A saved state of slice 7 with no queue pair, channel, key or object record, under its migration slot 6. -/
def savedBytes : List Byte :=
  leBytes 64 (0x534C4331 + 2 ^ 32 + 7 * 2 ^ 48 + 80 * 2 ^ 192) ++ leBytes 16 0x1fe37d3e5370cf46c39e2244719559ad

/-- Slice 7 in RESTORING, the saved state at 4,096. -/
def restS : State :=
  hbmWrite (objs { slS .restoring with ken := { S0.ken with slots := [(6, { liveSlot false with slice := 7 })] } }
    [(0xB002, 1, 7, 6), (0xB002, 4, 7, 4096)]) 4096 savedBytes

theorem witness_SliceItemsAndRestore :
    (leNat (hbmRead restS (4096 + 24) 4) = 80 ∧ hbmRead restS 4096 80 = savedBytes ∧ restoreFault restS 7 savedBytes = none ∧
      leNat (bytesAt savedBytes 18 2) = 0 ∧ 4096 + 80 ≤ hbmSize ∧ after (.restoreDone 7) restS
        (fun t => decide ((slice t 7).state = .frozen ∧ (slice t 7).restore = 0)) = true) ∧
    (ledGet (ledS (slS .draining) (slItem .done) emptyMeta) 4 = some (slItem .done) ∧
      opsStopped (ledS (slS .draining) (slItem .done) emptyMeta) 4 = true ∧
      isDue (ledS (slS .draining) (slItem .done) emptyMeta) (slItem .done) = true ∧
      after (.sliceItemRetire 4) (ledS (slS .draining) (slItem .done) emptyMeta)
        (fun t => decide (ledGet t 4 = none ∧ (report t (qpKey (.host false 7 0 0))).2 = 1)) = true) ∧
    (migSlotOk (slS .restoring) 7 = false ∧ after (.restoreDone 7) (slS .restoring)
      (fun t => decide ((slice t 7).state = .draining ∧ (slice t 7).restore = 1)) = true) ∧
    after (.restoreDone 7) (slS .frozen) (fun t => decide (t = slS .frozen)) = true := by decide +kernel

theorem witness_SliceCommandsKeepOtherState :
    after (.sliceEnable 7) (slS .disabled) (fun t => decide (slice t 8 = slice S0 8 ∧ t.dma = S0.dma)) = true ∧
    after (.sliceReset 7) (slS .enabled) (fun t => decide (slice t 8 = slice S0 8)) = true := by decide +kernel

/-! ## The ledger and paired operation -/

def descOf (target : Nat) : List Byte := [0, 0, 1, BitVec.ofNat 8 target] ++ List.replicate 60 0

/-- A host item of the infrastructure, its descriptor's TARGET as given. -/
def itemS (s : State) (st : LedState) (target : Nat) : State :=
  ledS s { hostEntry st with infra := true, queue := .host true 0 0 0 } { emptyMeta with desc := descOf target }

def frameEntry : LedEntry := ⟨.done, .frame, false, 1, .frame 5, 0, 0, true, 6, 0, 0, .frame 1⟩

theorem witness_LedgerCommandsTakeEffect :
    (firstAccepted (itemS S0 .accepted 3) { hostEntry .accepted with infra := true, queue := .host true 0 0 0 } = true ∧
      descBad (descOf 3) = true ∧ after (.dispatch 4) (itemS S0 .accepted 3) (fun t => doneIs t 5) = true) ∧
    (descBad (descOf 1) = false ∧ descTarget (descOf 1) = 1 ∧ pickCore (itemS S0 .accepted 1) = some 0 ∧
      after (.dispatch 4) (itemS S0 .accepted 1) (fun t => decide ((ledMeta t 4).worker = some (.core 0)) &&
        (ledGet t 4).any (fun e => decide (e.state = .running))) = true) ∧
    (pickCore { itemS S0 .accepted 1 with jx := { S0.jx with offline := 0xFFFF } } = none ∧
      after (.dispatch 4) { itemS S0 .accepted 1 with jx := { S0.jx with offline := 0xFFFF } } (fun t => doneIs t 1) = true) ∧
    (noMapS.jx.map.getD 0 none = none ∧ descTarget (descOf 0) = 0 ∧
      after (.dispatch 4) (itemS noMapS .accepted 0) (fun t => doneIs t 1) = true) ∧
    (S0.jx.map.getD 0 none = some 0 ∧ (cluster S0 0).faulted = false ∧ inboxRoom (itemS S0 .accepted 0) 0 (.host 4 1) = true ∧
      after (.dispatch 4) (itemS S0 .accepted 0) (fun t => decide ((ledMeta t 4).worker = some (.cluster 0)) &&
        (ledGet t 4).any (fun e => decide (e.state = .running))) = true) ∧
    (opsStopped (itemS S0 .stopping 0) 4 = true ∧ after (.reDispatch 4) (itemS S0 .stopping 0)
      (fun t => (ledGet t 4).any (fun e => decide (e.state = .accepted ∧ e.attempt = 2))) = true) ∧
    after (.reDispatch 4) (ledS S0 { hostEntry .stopping with attempt := 3 } emptyMeta) (fun t => doneIs t 1) = true ∧
    (dueEntry (ledS S0 frameEntry emptyMeta) (.frame 5) = some (4, frameEntry) ∧ after (.ledgerRelease (.frame 5) 0)
      (ledS S0 frameEntry emptyMeta) (fun t => decide (ledGet t 4 = none ∧ ctrGet t 0xC041 1 6 = 1)) = true) ∧
    after (.memoryUncorrectable 4) (itemS S0 .running 0) (fun t => doneIs t 4) = true := by decide +kernel

def pairS (p : Pair) : State := { S0 with pair := p }

def stby : Pair := { S0.pair with state := .standby, link := 2 }

/-- An ACTIVE device whose hold_down runs since slot 0, its partner in STANDBY. -/
def heldDown : Pair := { stby with state := .active, holdDown := some 0, partner := some ⟨3, epochPair 0, 0, 0, 0⟩ }

/-- A long time after reset. -/
def laterS (s : State) : State := { s with clk := { s.clk with beat := 10 ^ 12, islBase := 10 ^ 15 } }

def hbOf (epoch : BitVec 128) : Heartbeat := ⟨4, epoch, 0, 0, 0⟩

def cfg0 : PartnerCfg := ⟨0, 0, 0, 0, 0, false, none⟩

theorem witness_PairCommandsTakeEffect :
    (epochOf (epochPair 0) = some 0 ∧ (epochOf stby.epoch).getD 0 = 0 ∧ S0.isl.waitActive = false ∧
      after (.heartbeatReceived (hbOf (epochPair 0)) cfg0) (pairS stby)
        (fun t => decide (t.pair.partner = some (hbOf (epochPair 0)) ∧ t.pair.state = .standby)) = true) ∧
    (epochOf 0 = none ∧ after (.heartbeatReceived (hbOf 0) cfg0) (pairS stby)
      (fun t => decide (t = count (pairS stby) 0xC200 0x0A)) = true) ∧
    after (.deltaReceived true 3 [.object 1 2] false) (pairS stby)
      (fun t => decide (t.pair.log = [⟨3, [.object 1 2], 0⟩] ∧ t.pair.ackedIn = 3 ∧ t.out = [.deltaAck 3])) = true ∧
    after .deltaApply (pairS { stby with log := [⟨3, [], 0⟩] }) (fun t => decide (t.pair.log = [])) = true ∧
    after (.deltaAckReceived 3) (pairS { stby with state := .active, sent := [⟨3, [], 3⟩, ⟨4, [], 4⟩] })
      (fun t => decide (t.pair.sent = [⟨4, [], 4⟩] ∧ 3 ≤ t.pair.lastAcked)) = true ∧
    after (.syncComplete []) (pairS { stby with state := .syncing })
      (fun t => decide (t.pair.state = .standby ∧ t.pair.sync = 100)) = true ∧
    after (.grant 9) (pairS stby) (fun t => decide (t.pair.takeover = some true ∧ t.pair.epoch = epochPair 9)) = true ∧
    (mainOn S0 = true ∧ S0.pair.stillAll = true ∧ S0.pair.partner = none ∧
      after .startWaitExpiry (laterS (pairS { stby with state := .seeking })) (fun t => decide (t.pair.takeover = some false)) = true) ∧
    (S0.led.entries = [] ∧ S0.slc.sl = [] ∧ S0.pair.heldDesc = [] ∧ S0.objs.vals = [] ∧
      after .takeover (pairS { stby with takeover := some false })
        (fun t => decide (t.pair.state = .active ∧ t.pair.takeover = none ∧ t.pair.lift = true)) = true) ∧
    (stby.takeover = none ∧ after .pairHfInTakeover (pairS stby) (fun t => decide (t.pair.takeover = some false)) = true) ∧
    after .pairLinkDown (pairS stby) (fun t => decide (t.pair.link = 1)) = true ∧
    (S0.pair.link ≠ 2 ∧ after (.pairLinkUp cfg0) S0 (fun t => decide (t.pair.link = 2 ∧ t.pair.keyNo = 1 ∧ t.pair.cfg = some cfg0)) = true) ∧
    (S0.pair.holdDown = none ∧ after .holdDownExpiry S0 (fun t => decide (t = S0)) = true) ∧
    (stby.transfer = .none ∧ 0 + secondSlots (objGet (laterS (pairS heldDown)) 0x9000 4 0) ≤ now (laterS (pairS heldDown)) ∧
      after .holdDownExpiry (laterS (pairS heldDown)) (fun t => decide (t.pair.transfer = .asked false)) = true) := by
  decide +kernel

theorem witness_HardFaultsFenceAPairedDevice :
    after (.hardFault 1 0) S0 (fun t => decide (ctrGet t 0xC200 5 0 = 1 ∧ t.pair.state = .single ∧ t.pair.fence = false)) = true ∧
    after (.hardFault 10 0) (pairS stby) (fun t => decide (t.pair.state = .fault) && t.pair.fence && t.pair.hfPending) = true ∧
    after (.hardFault 6 0) (pairS stby) (fun t => decide (t.pair.state = .fault ∧ ctrGet t 0xC200 5 0 = 1)) = true ∧
    after (.hardFault 0 0) S0 (fun t => decide (t = S0)) = true ∧ after (.hardFault 11 0) S0 (fun t => decide (t = S0)) = true ∧
    after (.hardFault 5 33) (pairS { stby with muzzled := true }) (fun t => decide (t.pair.state = .fault) && t.pair.hfOut) = true ∧
    after (.hardFault 3 1) S0 (fun t => decide (t = S0)) = true ∧
    after (.eyeMarginLow 4) S0 (fun t => t.pair.latched.getLsbD 7) = true := by decide +kernel

theorem witness_LedgerAndPairCommandsKeepOtherState :
    after (.dispatch 4) (itemS S0 .accepted 1) (fun t => decide (t.net = S0.net ∧ t.dma = S0.dma)) = true ∧
    after (.grant 9) (pairS stby) (fun t => decide (t.led = S0.led)) = true := by decide +kernel

/-! ## Boot and attestation -/

theorem witness_BootCommandsTakeEffect :
    after .islandSupplyLoss S0 (fun t => decide (t.isl.supply = 0 ∧ t.boot.code = 0 ∧ t.pwr.phase = .off ∧ t.pwr.en = 0)) = true ∧
    (mainOn S0 = true ∧ loaderRuns S0 = true ∧ after .mainDomainReset { S0 with clk := { S0.clk with beat := 7 } }
      (fun t => decide (t.clk.beat = 0 ∧ t.boot.stage = .stage1 ∧ t.tt.cur = none)) = true) ∧
    (mainOn { S0 with pwr := { S0.pwr with phase := .off } } = false ∧ after .mainDomainReset { S0 with pwr := { S0.pwr with phase := .off } }
      (fun t => decide (t = { S0 with pwr := { S0.pwr with phase := .off } })) = true) ∧
    (S0.boot.stage = .stage1 ∧ S0.boot.nor = [] ∧ S0.boot.manifests.length = 3 ∧ after .stage1Pass S0 (fun t => decide (t.boot.stage = .backoff ∧ t.boot.code = 4)) = true) ∧
    (S0.pwr.tripped = false ∧ after .backoffExpiry { S0 with boot := { S0.boot with stage := .backoff, wait := 40 } }
      (fun t => decide (t.boot.stage = .stage1 ∧ t.boot.wait = 64)) = true) ∧
    after .trialTimerExpiry { S0 with boot := { S0.boot with slots := [0, 0, 2, 0, 0, 0], trial := some (0, 0, false) } }
      (fun t => decide (t.boot.slots = [0, 0, 4, 0, 0, 0] ∧ t.boot.trial = none)) = true ∧
    (({ S0.boot with nonce := some [1] } : Boot).nonce = some [1] ∧ identityState { S0 with boot := { S0.boot with nonce := some [1] } } = 1 ∧
      identityState { S0 with boot := { S0.boot with puf := true } } = 3) ∧
    (blockDue { S0 with logs := { S0.logs with pending := [⟨1, 0, 0, 0x0503, 0, 0, 0, 0⟩] } } = true ∧ S0.boot.nor = []) := by decide +kernel

/-- A DER item of fewer than 128 bytes: tag, length, content. -/
def der (tag : Byte) (body : List Byte) : List Byte := tag :: BitVec.ofNat 8 body.length :: body

theorem derItem_der (tag : Byte) (body rest : List Byte) (h : body.length < 128) :
    derItem (der tag body ++ rest) = some (tag, body, rest) := by
  have n : byteAt (BitVec.ofNat 8 body.length :: (body ++ rest)) 0 = BitVec.ofNat 8 body.length := rfl
  have e : (BitVec.ofNat 8 body.length).toNat = body.length := by rw [BitVec.toNat_ofNat]; omega
  have l : derLength (BitVec.ofNat 8 body.length :: (body ++ rest)) = some (body.length, 1) := by
    rw [derLength, n, e, if_pos h]
  show (match derLength (BitVec.ofNat 8 body.length :: (body ++ rest)) with
    | none => none
    | some (len, n) => _) = _
  rw [l]
  simp

theorem derItems_der (fuel : Nat) (tag : Byte) (body rest : List Byte) (h : body.length < 128) :
    derItems (fuel + 1) (der tag body ++ rest) = (tag, body) :: derItems fuel rest := by
  rw [derItems, derItem_der _ _ _ h]

theorem derItems_last (fuel : Nat) (tag : Byte) (body : List Byte) (h : body.length < 128) :
    derItems (fuel + 1) (der tag body) = [(tag, body)] := by
  have e := derItems_der fuel tag body [] h
  rw [List.append_nil] at e
  rw [e]
  cases fuel <;> rfl

/-- The point that a device certificate carries: X and Y of the identity key, most significant byte first. -/
def keyPoint : List Byte := [0, 4] ++ (identityKey.take 32).reverse ++ (identityKey.drop 32).reverse

/-- The subject public key information, and five short fields before it. -/
def keyInfo : List Byte := der 0x30 (der 0x30 [] ++ der 0x03 keyPoint)
def tbs : List Byte := der 2 [] ++ (der 2 [] ++ (der 2 [] ++ (der 2 [] ++ (der 2 [] ++ keyInfo))))

/-- Two certificates, the second with the identity key. -/
def keyChain : List Byte := der 0x30 [] ++ der 0x30 (der 0x30 tbs)

theorem identityKey_length : identityKey.length = 64 := by
  unfold identityKey ecPublic pairBytes; rfl

theorem keyPoint_length : keyPoint.length = 66 := by simp [keyPoint, identityKey_length]
theorem keyInfo_length : keyInfo.length = 72 := by simp [keyInfo, der, keyPoint_length]
theorem tbs_length : tbs.length = 82 := by simp [tbs, der, keyInfo_length]

theorem keyChain_key : certKey (deviceCert keyChain) = identityKey := by
  have dev : deviceCert keyChain = der 0x30 tbs := by
    rw [deviceCert, keyChain, derItems_der _ _ _ _ (by decide), derItems_last _ _ _ (by simp [der, tbs_length])]
    rfl
  have fields : derItems 10 tbs = [(2, []), (2, []), (2, []), (2, []), (2, []), (0x30, der 0x30 [] ++ der 0x03 keyPoint)] := by
    rw [tbs, keyInfo]
    repeat rw [derItems_der _ _ _ _ (by decide)]
    rw [derItems_last _ _ _ (by simp [der, keyPoint_length])]
  have point : derItems 2 (der 0x30 [] ++ der 0x03 keyPoint) = [(0x30, []), (3, keyPoint)] := by
    rw [derItems_der _ _ _ _ (by decide), derItems_last _ _ _ (by rw [keyPoint_length]; decide)]
  have body : derBody (derItems 3 (der 0x30 tbs)) 0 = tbs := by
    rw [derItems_last _ _ _ (by rw [tbs_length]; decide)]; rfl
  have cut : keyPoint.drop 2 = (identityKey.take 32).reverse ++ (identityKey.drop 32).reverse := rfl
  have half : (identityKey.take 32).reverse.length = 32 := by simp [identityKey_length]
  have rear : keyPoint.drop 34 = (identityKey.drop 32).reverse := by
    rw [show keyPoint.drop 34 = (keyPoint.drop 2).drop 32 by rw [List.drop_drop], cut]
    exact List.drop_left' half
  rw [dev, certKey, body, fields]
  show (let p := derBody (derItems 2 (der 0x30 [] ++ der 0x03 keyPoint)) 1
    if p.take 2 = [0, 4] ∧ p.length = 66 then ((p.drop 2).take 32).reverse ++ (p.drop 34).reverse else []) = identityKey
  rw [point]
  show (if keyPoint.take 2 = [0, 4] ∧ keyPoint.length = 66 then
    ((keyPoint.drop 2).take 32).reverse ++ (keyPoint.drop 34).reverse else []) = identityKey
  rw [if_pos ⟨rfl, keyPoint_length⟩, rear, cut, List.take_left' half, List.reverse_reverse, List.reverse_reverse,
    List.take_append_drop]

/-- PF0 of link 0 with the algorithms negotiated and sessions. -/
def spdmS (l : List SpdmSession) : State := hstS { S0.hst with conns := [⟨3, true, [], [], []⟩, ⟨0, false, [], [], []⟩], spdm := l }

/-- The device holds a chain whose device certificate carries its identity key: identity state 0. -/
def chainS : State := { spdmS [] with boot := { S0.boot with chain := some keyChain } }

theorem chainS_identity : identityState chainS = 0 := by
  have p : chainS.boot.puf = false := rfl
  have c : chainS.boot.chain = some keyChain := rfl
  rw [identityState, p, c]
  simp [keyChain_key]

/-- Any such state takes a request of 4 to 65,528 bytes of version 1.2, whatever chain it holds. -/
theorem spdmS_ready (l : List SpdmSession) (c : Option (List Byte)) (code : Nat) (b : List Byte)
    (h : 4 ≤ b.length ∧ b.length ≤ 65528 ∧ byteAt b 0 = 0x12 ∧ (byteAt b 1).toNat = code) :
    SpdmReady { spdmS l with boot := { S0.boot with chain := c } } 0 code b :=
  ⟨rfl, rfl, h⟩

/-- A KEY_EXCHANGE whose ephemeral key is the base point of the curve, without opaque data. -/
def kexReq : List Byte :=
  [0x12, 0xE4, 0, 0, 1, 0, 0, 0] ++ List.replicate 32 7 ++ beBytes 32 ecG.1 ++ beBytes 32 ecG.2 ++ [0, 0]

/-- A session of link 0 with a number, its requester's secret of 32 bytes 1. -/
def spdmSess (sid : Nat) : SpdmSession :=
  { link := 0, sid := sid, open_ := true, secret := [], th := [], reqKey := List.replicate 32 1, rspKey := List.replicate 32 2,
    reqSeq := 0, rspSeq := 0, meas := [], period := 0, last := 0 }

/-- KEY_PROG and K_SET_GO of key set 0, sub-stream 0, of stream 0. -/
def progMsg : List Byte := [0, 2, 0, 0, 0, 0, 0, 0] ++ List.replicate 40 3
def goMsg : List Byte := [0, 4, 0, 0, 0, 0, 0, 0]

/-- One stream given to link 0, one session open. -/
def ideS : State := objs (spdmS [spdmSess 65537]) [(0xA100, 0x0A, 0, 1)]

/-- The two messages behind their vendor header, as they travel: AES-256-GCM text and tag. -/
def progBody : List Byte := leBytes 77
  0x981738c3011caddeb1cba5262e9bca5b56bcf19d495c8ee13d37011dcaa755f844903a57414a53d315ea84ed9163cf983f137263e02686dbaebc13b7d6c2a0968f183c636f55232dcde034fe4f
def goBody : List Byte := leBytes 37 0x9caaaef9523852ad441b4db4371187daebc13b7d6c2a6968f203c636f55232dcde034fe67

/-- The key and the IV that the session's secret gives its first message. -/
theorem spdmSess_key : msgKey (List.replicate 32 1) = digestBytes 29161137520745264497783876546312831230556361533883707908108006610456405402937 := by
  have h : hmac (List.replicate 32 1) (leBytes 2 32 ++ beBytes 8 0x7370646d312e3220 ++ beBytes 3 0x6b6579 ++ [] ++ [1]) =
    29161137520745264497783876546312831230556361533883707908108006610456405402937 := by decide +kernel
  rw [msgKey, spdmExpand, hmacBytes, h]
  decide

theorem spdmSess_iv : msgIv (List.replicate 32 1) 0 =
    (digestBytes 17697725155809725529266198547009055833275997511715314751686870174022353843687).take 12 := by
  have h : hmac (List.replicate 32 1) (leBytes 2 12 ++ beBytes 8 0x7370646d312e3220 ++ beBytes 2 0x6976 ++ [] ++ [1]) =
    17697725155809725529266198547009055833275997511715314751686870174022353843687 := by decide +kernel
  rw [msgIv, spdmExpand, hmacBytes, h]
  decide

theorem progBody_opens : spdmOpen (List.replicate 32 1) 0 65537 progBody = some (vendorHeader 0xFE progMsg.length ++ progMsg) := by
  unfold spdmOpen
  rw [spdmSess_key, spdmSess_iv]
  decide +kernel

theorem goBody_opens : spdmOpen (List.replicate 32 1) 0 65537 goBody = some (vendorHeader 0xFE goMsg.length ++ goMsg) := by
  unfold spdmOpen
  rw [spdmSess_key, spdmSess_iv]
  decide +kernel

theorem witness_AttestationCommandsTakeEffect :
    (doeUp S0 0 = true ∧ (3 : BitVec 32).toNat % 2 ^ 18 = 3 ∧ after (.doeDiscovery 0 [1, 3, 2]) S0
      (fun t => decide (t.out = [.doe 0 [1, 3, 0x00020001]])) = true) ∧
    after (.doeDiscovery 0 [1, 3, 3]) S0 (fun t => decide (t.out = [.doe 0 [1, 3, 0xFFFF]])) = true ∧
    (S0.hst.links.length = 4 ∧ after (.doeDiscovery 0 []) S0 (fun t => (linkGet t 0).doeErr && decide (t.out = [])) = true) ∧
    after (.getDigests 0 [0x12, 0x81, 0, 0]) (spdmS []) (fun t => decide (t.out = [.spdm 0 1 [0x12, 1, 0, 0]])) = true ∧
    (byteAt [0x11, 0x81, 0, 0] 0).toNat ≠ 0x12 ∧
    after (.getDigests 0 [0x11, 0x81, 0, 0]) S0 (fun t => decide (t.out = [.spdm 0 0x7F [0x12, 0x7F, 0x41, 0]])) = true := by
  decide +kernel

theorem witness_SpdmRequests :
    SpdmReady (spdmS []) 0 0x81 [0x12, 0x81, 0, 0] ∧
    (SpdmReady chainS 0 0x82 [0x12, 0x82, 0, 0, 0, 0, 0xFF, 0] ∧ identityState chainS = 0 ∧ 0 < (spdmChain chainS).length) ∧
    (SpdmReady (spdmS []) 0 0x83 ([0x12, 0x83, 0, 0] ++ List.replicate 32 9) ∧ identityState (spdmS []) = 1 ∧
      summaryHash (spdmS []) 0 = some []) ∧
    (SpdmReady (spdmS []) 0 0xE0 [0x12, 0xE0, 0, 0xFF] ∧
      SpdmReady (spdmS []) 0 0xE0 ([0x12, 0xE0, 1, 6] ++ List.replicate 32 9 ++ [15])) ∧
    (SpdmReady (spdmS []) 0 0xE4 kexReq ∧ SpdmReady (spdmS ((List.range 4).map (fun i => spdmSess (65537 + i)))) 0 0xE4 kexReq) :=
  ⟨spdmS_ready [] none _ _ (by decide), ⟨spdmS_ready [] (some keyChain) _ _ (by decide), chainS_identity, by simp [spdmChain, leBytes]⟩,
    ⟨spdmS_ready [] none _ _ (by decide), rfl, rfl⟩, ⟨spdmS_ready [] none _ _ (by decide), spdmS_ready [] none _ _ (by decide)⟩,
    have kex : 4 ≤ kexReq.length ∧ kexReq.length ≤ 65528 ∧ byteAt kexReq 0 = 0x12 ∧ (byteAt kexReq 1).toNat = 0xE4 := by decide +kernel
    ⟨spdmS_ready [] none _ _ kex, spdmS_ready _ none _ _ kex⟩⟩

theorem witness_KeyExchange :
    ((spdmConn (spdmS []) 0).kex = true ∧ kexReq.length = 106 + leNat (bytesAt kexReq 104 2) ∧ byteAt kexReq 3 = 0 ∧
      ecOn (pairNat (spdmPair (bytesAt kexReq 40 64))) = true ∧ summaryHash (spdmS []) (byteAt kexReq 2).toNat = some []) ∧
    ((spdmExpire (spdmS [])).hst.spdm.filter (fun x => x.link == 0)).length < 4 ∧
    4 ≤ ((spdmExpire (spdmS ((List.range 4).map (fun i => spdmSess (65537 + i))))).hst.spdm.filter (fun x => x.link == 0)).length := by
  decide +kernel

theorem witness_IdeKm :
    (doeUp ideS 0 = true ∧ spdmFind (spdmExpire ideS) 0 (65537 : BitVec 32).toNat = some (spdmSess 65537) ∧
      objGet ideS 0xA100 0x0A 0 = 1 ∧ ideSub 0 = true ∧ byteAt progMsg 1 = 2 ∧ progMsg.length = 48 ∧ byteAt goMsg 1 = 4 ∧
      goMsg.length = 8) ∧
    (sfind { ideS with hst := { ideS.hst with ide := [(ideKey 0 0 0, 5)] } }.hst.ide (ideKey 0 0 0)).isSome = true ∧
    (progBody.length + 14 ≤ 65536 ∧ goBody.length + 14 ≤ 65536) ∧
    (spdmOpen (spdmSess 65537).reqKey 0 65537 [] = none ∧
      after (.ideKm 0 65537 []) ideS (fun t => decide (t.hst.spdm = [] ∧ t.out = [.spdm 0 0x7F [0x12, 0x7F, 6, 0]])) = true) := by
  decide +kernel

/-! ## Uhlist -/

theorem leBytes_leNat : ∀ l : List Byte, leBytes l.length (leNat l) = l
  | [] => rfl
  | b :: l => by
    have h := b.isLt
    have e : (b.toNat + 256 * leNat l) / 256 = leNat l := by omega
    have f : BitVec.ofNat 8 (b.toNat + 256 * leNat l) = b := by
      apply BitVec.eq_of_toNat_eq
      rw [BitVec.toNat_ofNat]
      omega
    show BitVec.ofNat 8 (b.toNat + 256 * leNat l) :: leBytes l.length ((b.toNat + 256 * leNat l) / 256) = b :: l
    rw [e, f, leBytes_leNat l]

theorem leNat_lt : ∀ l : List Byte, leNat l < 256 ^ l.length
  | [] => by decide
  | b :: l => by
    have h := b.isLt
    have i := leNat_lt l
    show b.toNat + 256 * leNat l < 256 ^ (l.length + 1)
    rw [Nat.pow_succ]
    omega

/-- A request with the tag that its session's key gives it. -/
def pduOf (x : Session) (op session seq : Nat) (body : List Byte) : Pdu :=
  ⟨0, session, seq, body, BitVec.ofNat 128 (leNat (pduTag x.key (pduHeader op false session seq body.length 0 ++ body)))⟩

theorem tagOk_pduOf (x : Session) (op session seq : Nat) (body : List Byte) : tagOk x op (pduOf x op session seq body) = true := by
  have n : ∀ bs, (pduTag x.key bs).length = 16 := fun _ => rfl
  have b := leNat_lt (pduTag x.key (pduHeader op false session seq body.length 0 ++ body))
  have e := leBytes_leNat (pduTag x.key (pduHeader op false session seq body.length 0 ++ body))
  rw [n] at b e
  show (pduTag x.key (pduHeader op false session seq body.length 0 ++ body) ==
    leBytes 16 (BitVec.ofNat 128 (leNat (pduTag x.key (pduHeader op false session seq body.length 0 ++ body)))).toNat) = true
  rw [BitVec.toNat_ofNat, Nat.mod_eq_of_lt (by simpa using b), e]
  exact beq_self_eq_true _

def sess (role : Role) (proved : Bool) : Session :=
  ⟨0, 1, role, 0, 0, 0, proved, false, 5, [], [], 0, [], 0, [], 0, none, (0, 0), 0⟩

/-- One session of the management transport. -/
def uhlS (x : Session) : State := { S0 with uhl := { S0.uhl with sessions := [x] } }

/-- The next request of the proved operator session. -/
def req (op : Nat) (body : List Byte) : Pdu := pduOf (sess .operator true) op 1 5 body

theorem req_served (op : Nat) (body : List Byte) (h : body.length ≤ 1468) :
    Served (uhlS (sess .operator true)) (req op body) (sess .operator true) :=
  ⟨rfl, Nat.one_ne_zero, h, rfl, rfl, rfl, rfl, rfl, rfl, rfl⟩

/-- The address of 0x0001.01, which no session sees. -/
def nowhere : List Byte := leBytes 8 (1 + 1 * 2 ^ 16)

theorem witness_UhlistRequestsAreServed :
    (∀ op body, body.length ≤ 1468 → Served (uhlS (sess .operator true)) (req op body) (sess .operator true) ∧
      tagOk (sess .operator true) op (req op body) = true) ∧
    (addrOf nowhere = some ⟨1, 1, none⟩ ∧ addrOf (nowhere ++ [1, 0]) = some ⟨1, 1, none⟩ ∧
      addrOf (nowhere ++ [0, 0, 0, 0, 1, 0]) = some ⟨1, 1, none⟩ ∧ objSeen (sess .operator true) ⟨1, 1, none⟩ = none) :=
  ⟨fun op body h => ⟨req_served op body h, tagOk_pduOf _ _ _ _ _⟩, by decide +kernel⟩

/-- The session in a device whose main domain is off. -/
def offS : State := { uhlS (sess .operator true) with pwr := { S0.pwr with phase := .off } }

theorem witness_UhlistReadsAndWrites :
    (∀ op body, body.length ≤ 1468 → Served (uhlS (sess .operator true)) (req op body) (sess .operator true) ∧
      Served offS (req op body) (sess .operator true) ∧ tagOk (sess .operator true) op (req op body) = true) ∧
    ((addrOf (leBytes 8 (0x2010 + 2 * 2 ^ 16) ++ [1, 0]) = some ⟨0x2010, 2, none⟩ ∧ coreIndex 0x2010 = false ∧
       (objSeen (sess .operator true) ⟨0x2010, 2, none⟩).any (fun d =>
         decide (objElements (uhlS (sess .operator true)) (sess .operator true) d ⟨0x2010, 2, none⟩ 1 = some [0] ∧
           (accessOf .operator d).testBit 0 = true ∧ d.ty < 10)) = true) ∧
     (addrOf (leBytes 8 (0x1000 + 2 * 2 ^ 16) ++ [0, 0, 0, 0, 64, 0]) = some ⟨0x1000, 2, none⟩ ∧
       (objSeen (sess .operator true) ⟨0x1000, 2, none⟩).any (fun d =>
         decide (objElements (uhlS (sess .operator true)) (sess .operator true) d ⟨0x1000, 2, none⟩ 1 = some [0] ∧
           (accessOf .operator d).testBit 0 = true ∧ d.ty = 10)) = true) ∧
     (coresServe (uhlS (sess .operator true)) = false ∧ (uhlS (sess .operator true)).uhl.quarantined = [] ∧
       mainOn offS = false ∧ recording offS = false)) ∧
    (leBytes 8 (0x1020 + 1 * 2 ^ 16) ++ [0, 0, 0, 0] ++ List.replicate 32 (7 : Byte)).length ≤ 1468 :=
  ⟨fun op body h => ⟨req_served op body h, ⟨rfl, Nat.one_ne_zero, h, rfl, rfl, rfl, rfl, rfl, rfl, rfl⟩, tagOk_pduOf _ _ _ _ _⟩,
    by decide +kernel, by decide⟩

/-- The main domain on and the control cores serving. -/
def coresS (s : State) : State := { s with boot := { s.boot with stage := .running } }

/-- A request of the operator to write 1 to one of slice 3's objects. -/
def sliceBody (sub : Nat) : List Byte := leBytes 8 (0xB000 + sub * 2 ^ 16 + 2 ^ 24 + 3 * 2 ^ 32) ++ [1, 0, 1]

theorem witness_CompatibleSlicesBindOnlyToVfs :
    (Served (objs (coresS (uhlS (sess .operator true))) [(0xB000, 0x0A, 3, 1)]) (req 7 (sliceBody 6)) (sess .operator true) ∧
      Served (objs (coresS (uhlS (sess .operator true))) [(0xB000, 6, 3, 1)]) (req 7 (sliceBody 0x0A)) (sess .operator true) ∧
      tagOk (sess .operator true) 7 (req 7 (sliceBody 6)) = true ∧ tagOk (sess .operator true) 7 (req 7 (sliceBody 0x0A)) = true) ∧
    (coresServe (coresS (uhlS (sess .operator true))) = true ∧
      objGet (objs (coresS (uhlS (sess .operator true))) [(0xB000, 0x0A, 3, 1)]) 0xB000 0x0A 3 = 1 ∧
      objGet (objs (coresS (uhlS (sess .operator true))) [(0xB000, 0x0A, 3, 1)]) 0xB000 6 3 = 0 ∧
      objGet (objs (coresS (uhlS (sess .operator true))) [(0xB000, 6, 3, 1)]) 0xB000 6 3 = 1 ∧
      objGet (objs (coresS (uhlS (sess .operator true))) [(0xB000, 6, 3, 1)]) 0xB000 0x0A 3 = 0) :=
  ⟨⟨⟨rfl, Nat.one_ne_zero, by decide, rfl, rfl, rfl, rfl, rfl, rfl, rfl⟩,
    ⟨rfl, Nat.one_ne_zero, by decide, rfl, rfl, rfl, rfl, rfl, rfl, rfl⟩, tagOk_pduOf _ _ _ _ _, tagOk_pduOf _ _ _ _ _⟩,
    by decide +kernel⟩

def ev0 : EvRec := ⟨1, 0, 3, 0, 0, 0, 0, 0⟩

/-- An OPEN of an operator's client whose ephemeral key is the base point of the curve. -/
def openReq : Pdu := ⟨0, 0, 0, 0 :: List.replicate 34 0 ++ pairBytes ecG, 0⟩

/-- PF0 of link 3 is there, its command register as given. -/
def boxS (cmd : BitVec 32) (b : Mailbox) : State :=
  setBox (fnPut (linkPut S0 3 { upLink with state := 3 }) 3 0 (fnOf .enabled cmd [])) 3 b

theorem witness_UhlistSessionsComeAndGo :
    tagOk (sess .operator false) 2 (pduOf (sess .operator false) 2 1 0 []) = true ∧
    (islandServes S0 = true ∧ after (.uhOpen ⟨0, 0, 0, [], 0⟩) S0
      (fun t => decide (t.out = [.pdu 0 0 1 0 0x0F []] ∧ t.uhl.sessions = [])) = true ∧
     sessionFind (uhlS (sess .operator false)) 0 1 = some (sess .operator false) ∧
     after (.proveTimeout 0 1) (laterS (uhlS (sess .operator false))) (fun t => decide (t.uhl.sessions = [])) = true ∧
     after (.sessionIdleExpiry 0 1) (laterS (uhlS (sess .operator true))) (fun t => decide (t.uhl.sessions = [])) = true ∧
     after (.uhEvent 0 1) (uhlS { sess .operator true with events := [ev0] })
       (fun t => decide (t.out = [.eventPdu 0 1 0 [ev0]])) = true ∧
     after (.eventRetryExpiry 0 1) (laterS (uhlS { sess .operator true with events := [ev0], unacked := [(0, 1, 0)] }))
       (fun t => decide (t.out = [.eventPdu 0 1 0 [ev0]])) = true ∧
     after (.malformedPdu 0 0) S0 (fun t => decide (ctrGet t 0xC210 3 0 = 1)) = true) ∧
    ((mainOn (boxS 2 resetMailbox) = true ∧ fnPresent (boxS 2 resetMailbox) 3 0 = true ∧
        memSpaceOn (boxS 2 resetMailbox) 3 0 = true ∧ (boxS 2 resetMailbox).uhl.boxes.length = 4) ∧
     after (.mbGo 3) (boxS 2 resetMailbox) (fun t => (box t 3).busy) = true ∧
     after (.mbGo 3) (boxS 2 { resetMailbox with replyReady := true }) (fun t => (box t 3).ignored && !(box t 3).busy) = true ∧
     after (.eventReadyClear 3) (boxS 2 { resetMailbox with eventReady := true }) (fun t => !(box t 3).eventReady) = true) ∧
    (memSpaceOn (boxS 0 resetMailbox) 3 0 = false ∧ fnPresent (boxS 0 resetMailbox) 3 0 = true) :=
  ⟨tagOk_pduOf _ _ _ _ _, by decide +kernel⟩

theorem witness_Open :
    (openReq.body.length = 99 ∧ (byteAt openReq.body 0).toNat ≤ 3 ∧ ecOn (pairNat (bytesAt openReq.body 35 64)) = true ∧
      identityState S0 = 1 ∧ (S0.uhl.sessions.filter (fun x => x.transport == 0)).length < 32) ∧
    (identityState { S0 with boot := { S0.boot with puf := true } } = 3 ∧ islandServes { S0 with boot := { S0.boot with puf := true } } = true ∧
      after (.uhOpen openReq) { S0 with boot := { S0.boot with puf := true } } (fun t => decide (t.out = [.pdu 0 0 1 0 0x0A []])) = true) ∧
    (32 ≤ (List.filter (fun x => x.transport == 0) (List.replicate 32 (sess .operator true))).length ∧
      after (.uhOpen openReq) { S0 with uhl := { S0.uhl with sessions := List.replicate 32 (sess .operator true) } }
        (fun t => decide (t.out = [.pdu 0 0 1 0 8 []])) = true) ∧
    (ecOn (pairNat (bytesAt (List.replicate 99 (0 : Byte)) 35 64)) = false ∧
      after (.uhOpen ⟨0, 0, 0, List.replicate 99 0, 0⟩) S0 (fun t => decide (t.out = [.pdu 0 0 1 0 0x0A []])) = true) := by
  decide +kernel

/-! ## Panel, cages, power, test and debug ports -/

def cageS (st : CageState) : State :=
  { S0 with isl := { S0.isl with cages := (List.replicate 16 ⟨.empty, 0, none⟩).set 2 ⟨st, 1, none⟩ } }

def cageIs (t : State) (st : CageState) : Bool := decide ((cage t 2).state = st)

theorem witness_PanelAndCageCommandsTakeEffect :
    after .shortPress S0 (fun t => decide (ctrGet t 0xC230 2 0 = 1)) = true ∧
    after .longPress S0 (fun t => decide (ctrGet t 0xC230 3 0 = 1)) = true ∧
    (S0.isl.latch ≠ .opened ∧ S0.isl.extract = .inService ∧ S0.pair.state = .single ∧ S0.pwr.phase = .on ∧ S0.pwr.hold = none ∧
      after .latchOpen S0 (fun t => decide (t.isl.latch = .opened ∧ t.isl.extract = .poweringDown ∧ t.pwr.hold = some true)) = true) ∧
    (partnerReady (pairS { stby with state := .active }) = false ∧
      after .latchOpen (pairS { stby with state := .active }) (fun t => decide (t.isl.extract = .refused)) = true) ∧
    (partnerReady (pairS { stby with state := .active, partner := some ⟨3, epochPair 0, 0, 0, 0⟩ }) = true ∧
      after .latchOpen (pairS { stby with state := .active, partner := some ⟨3, epochPair 0, 0, 0, 0⟩ })
        (fun t => decide (t.isl.extract = .transferring)) = true) ∧
    after .latchClose { S0 with isl := { S0.isl with latch := .opened, extract := .refused } }
      (fun t => decide (t.isl.latch = .closed ∧ t.isl.extract = .inService)) = true ∧
    after .latchClose { S0 with isl := { S0.isl with latch := .opened, extract := .safe } }
      (fun t => decide (t.isl.latch = .closed ∧ t.isl.extract = .inService)) = true ∧
    after .latchFault S0 (fun t => decide (t.isl.latch = .fault ∧ ctrGet t 0xC230 6 0 = 1)) = true ∧
    (S0.isl.cages.length = 16 ∧ objGet S0 0x2220 2 2 < 1000000 ∧ after (.cageInserted 2 1000000) (cageS .empty) (fun t => cageIs t .powerDenied) = true ∧
      after (.cageInserted 2 0) (cageS .empty) (fun t => cageIs t .initialising) = true) ∧
    after (.cageInserted 2 0) { cageS .empty with pwr := { S0.pwr with phase := .off } } (fun t => cageIs t .inserted) = true ∧
    after (.moduleReady 2) (cageS .initialising) (fun t => cageIs t .ready) = true ∧
    after (.moduleFault 2) (cageS .ready) (fun t => cageIs t .fault) = true ∧
    after (.cageInitTimeout 2) (cageS .initialising) (fun t => cageIs t .fault) = true ∧
    after (.moduleRemoval 2) (cageS .ready) (fun t => decide (cage t 2 = ⟨.empty, 0, none⟩)) = true ∧
    after .t1lLinkDown { S0 with isl := { S0.isl with t1l := 3 } } (fun t => decide (t.isl.t1l = 0)) = true := by decide +kernel

def pwrS (p : Pwr) : State := { S0 with pwr := p }

/-- Island 6, which holds cluster 0, is asked to stop or to power off. -/
def reqS (s : State) (off : Bool) : State := { s with pwr := { s.pwr with reqs := [⟨6, off⟩] } }

theorem witness_PowerCommandsTakeEffect :
    after (.pwrGoodRise 0) (pwrS { S0.pwr with phase := .rising 0, en := 1, good := 0 })
      (fun t => decide (t.pwr.phase = .rising 1 ∧ t.pwr.en = 3 ∧ t.pwr.good = 1)) = true ∧
    after (.pwrGoodRise 5) (pwrS { S0.pwr with phase := .rising 5, good := 31 })
      (fun t => decide (t.pwr.phase = .releasing ∧ t.pwr.good = 63)) = true ∧
    after (.railGoodTimeout 5) (pwrS { S0.pwr with phase := .rising 5 })
      (fun t => decide (t.pwr.phase = .off ∧ t.pwr.en = 0 ∧ t.boot.stage = .backoff ∧ t.boot.code = 6)) = true ∧
    after .mainResetRelease (pwrS { S0.pwr with phase := .releasing })
      (fun t => mainOn t && decide (t.net.pllLocked = 0xF ∧ ctrGet t 0xC220 1 0 = 1)) = true ∧
    (mainInflight (pwrS { S0.pwr with hold := some false }) = 0 ∧ loaderRuns (pwrS { S0.pwr with hold := some false }) = true ∧
      after .mainPowerDown (pwrS { S0.pwr with hold := some false })
      (fun t => decide (t.pwr.phase = .off ∧ t.pwr.hold = none ∧ t.boot.stage = .stage1)) = true) ∧
    (mainInflight (ledS (pwrS { S0.pwr with hold := some false }) (hostEntry .running) emptyMeta) ≠ 0 ∧
      after .mainHoldOffExpiry (ledS (pwrS { S0.pwr with hold := some false }) (hostEntry .running) emptyMeta)
        (fun t => decide (t.pwr.hold = none ∧ t.pwr.phase = .on ∧ objGet t 0x2100 3 0 = 1)) = true) ∧
    after (.railFault 5) S0 (fun t => decide (t.pwr.phase = .off ∧ t.boot.code = 6 ∧ objGet t 0x2100 3 0 = 3)) = true ∧
    (islandInflight (reqS S0 true) 6 = 0 ∧ after (.islandPowerEffect 6) (reqS S0 true)
      (fun t => decide (t.pwr.reqs = [] ∧ islandState t 6 = 2)) = true) ∧
    after (.islandPowerEffect 6) (reqS S0 false) (fun t => decide (islandState t 6 = 1 ∧ objGet t 0x2110 3 6 = 0)) = true ∧
    (islandInflight (reqS (holdS (.detour 7)) true) 6 ≠ 0 ∧ after (.islandHoldOffExpiry 6) (reqS (holdS (.detour 7)) true)
      (fun t => decide (t.pwr.reqs = [] ∧ islandState t 6 = 0 ∧ objGet t 0x2110 3 6 = 1)) = true) ∧
    after .refclkLoss S0 (fun t => t.clk.holdover) = true ∧
    after .refclkRelock { S0 with clk := { S0.clk with holdover := true } } (fun t => !t.clk.holdover) = true ∧
    (hottest [10500] ≤ 10500 ∧ after (.junctionOver105 [10500]) S0 (fun t => decide (ctrGet t 0xC220 7 0 = 0)) = true) ∧
    (10500 < hottest [9000, 10501] ∧ after (.junctionOver105 [9000, 10501]) S0
      (fun t => decide (ctrGet t 0xC220 7 0 = 1 ∧ t.pwr.temps = [9000, 10501])) = true) ∧
    (11500 < hottest [11501] ∧ after (.thermalTrip [11501]) S0
      (fun t => decide (t.pwr.phase = .off ∧ t.boot.stage = .backoff) && t.pwr.tripped) = true) ∧
    after (.tjHour 9500) S0 (fun t => decide (ctrGet t 0xC220 8 0 = 0)) = true ∧
    after (.tjHour 9501) S0 (fun t => decide (ctrGet t 0xC220 8 0 = 1)) = true := by decide +kernel

def dbgS (d : Dbg) : State := { S0 with dbg := d }

/-- PF0 of link 0, the primary one, with Memory Space Enable 1; and PF0 of link 1 with it. -/
def regS : State := linkS upLink [(0, fnOf .enabled 2 [])]
def otherS : State := fnPut S0 1 0 (fnOf .enabled 2 [])

theorem witness_TestPortAndRegisterWritesTakeEffect :
    after .tapReset (dbgS { S0.dbg with ir := 0x10 }) (fun t => decide (t.dbg.ir = 1)) = true ∧
    after .idcode S0 (fun t => decide (t.out = [.tdo 1 0x1324847B])) = true ∧
    after (.samplePreload 5 9) S0 (fun t => decide (t.dbg.ir = 2 ∧ t.dbg.chain = 9 ∧ t.out = [.tdo 2 5])) = true ∧
    after .bypass S0 (fun t => decide (t.dbg.ir = 0xFF)) = true ∧
    (S0.dbg.unlocked = false ∧ after .extest S0 (fun t => decide (t.dbg.ir = 0xFF)) = true) ∧
    after .clamp (dbgS { S0.dbg with unlocked := true }) (fun t => decide (t.dbg.ir = 4) && t.isl.ledFault) = true ∧
    after .highz (dbgS { S0.dbg with unlocked := true }) (fun t => decide (t.dbg.ir = 5)) = true ∧
    after .extest { dbgS { S0.dbg with unlocked := true } with pair := stby }
      (fun t => decide (t.dbg.ir = 3 ∧ t.pair.state = .fault) && t.pair.fence) = true ∧
    after .relock (dbgS { S0.dbg with unlocked := true }) (fun t => !t.dbg.unlocked && decide (t.dbg.result = 0)) = true ∧
    after .freezeMaxExpiry { S0 with logs := { S0.logs with frozen := some ([], 0) } }
      (fun t => t.logs.frozen.isNone && decide (objGet t 0xD000 2 0 = 0)) = true ∧
    (regOffset (.timetable 0 0x012) % 4 = 2 ∧ after (.registerWrite (.timetable 0 0x012) false 5) S0 (fun t => decide (t = S0)) = true) ∧
    (mainOn (pwrS { S0.pwr with phase := .off }) = false ∧ after (.registerWrite (.timetable 0 0x010) false 5) (pwrS { S0.pwr with phase := .off })
      (fun t => decide (t = pwrS { S0.pwr with phase := .off })) = true) ∧
    (mainOn regS = true ∧ fnPresent regS 0 0 = true ∧ memSpaceOn regS 0 0 = true ∧ regS.hst.primary = 0 ∧
      regS.tc.wins.length = 8) ∧
    (fnPresent S0 1 0 = false ∧ after (.registerWrite (.timetable 1 0x010) false 5) S0 (fun t => decide (t = S0)) = true) ∧
    (memSpaceOn otherS 1 0 = true ∧ (1 : Nat) ≠ otherS.hst.primary ∧
      after (.registerWrite (.timetable 1 0x010) false 5) otherS (fun t => decide (t = otherS)) = true) ∧
    after (.registerWrite (.timetable 0 0x010) false 5) regS (fun t => decide (t.tt.length = 5)) = true ∧
    after (.registerWrite (.timetable 0 0x030) false 2) { regS with tt := { S0.tt with fault := 7 } } (fun t => decide (t.tt.fault = 5)) = true ∧
    after (.registerWrite (.window 0 7 0x008) false 9) regS (fun t => decide ((tcWin t 7).index = 9)) = true ∧
    after (.registerWrite (.dap 0x018) true 9) S0 (fun t => decide (t.dbg.data = 9)) = true := by decide +kernel

/-- The debug port is unlocked and names thread 0 of cluster 0, which is in a state. -/
def dapS (d : Dbg) (t : Thread) : State := setThread (dbgS { d with unlocked := true, sel := 0 }) 0 t

def thIs (t : State) (st : ThState) (res : BitVec 3) : Bool := decide ((thread t 0).state = st ∧ t.dbg.result = res)

def haltedT : Thread := { resetThread 0 with state := .halted, before := .runnable }

theorem dapS_atThread (d : Dbg) (t : Thread) : DapAtThread (dapS d t) 0 :=
  ⟨rfl, rfl, (by decide : fld (0 : BitVec 16) 2 4 * 64 + fld (0 : BitVec 16) 6 3 * 8 + fld (0 : BitVec 16) 9 3 = 0), rfl⟩

/-- Device memory selected, at an address; NOR selected, at one. -/
def memSel (kind a : Nat) : State :=
  dbgS { S0.dbg with unlocked := true, sel := BitVec.ofNat 16 kind, addr := BitVec.ofNat 64 a, data := 0x0102030405060708 }

/-- NOR selected with no boot pass running, two bytes around a block's start written. -/
def norS (a : Nat) : State :=
  { memSel 3 a with boot := { S0.boot with stage := .running, nor := [(4095, 1), (4096, 2)] } }

/-- The flash has a size between 16 MiB and 2 GiB (15 R345), whatever its part. -/
theorem norSize_bounds : 16777216 ≤ norSize ∧ norSize ≤ 2147483648 := by unfold norSize; omega

theorem norErase_norS (a : Nat) (h : (norS a).dbg.addr.toNat / 4096 * 4096 < norSize) :
    exec .norErase (norS a) = .next (dbgResult { norS a with boot := { (norS a).boot with
      nor := (norS a).boot.nor.filter (fun e => decide (e.1 < (norS a).dbg.addr.toNat / 4096 * 4096) ||
        decide ((norS a).dbg.addr.toNat / 4096 * 4096 + 4096 ≤ e.1)) } } 0) := by
  show (match norErase (norS a) with
    | some s' => Host.Outcome.next s'
    | none => .fault (Fault.noDeviceMemory (norS a).dbg.addr.toNat)) = _
  have e : norErase (norS a) = if norSize ≤ (norS a).dbg.addr.toNat / 4096 * 4096 then none else some _ := rfl
  rw [e, if_neg (by omega)]

theorem norErase_past (a : Nat) (h : norSize ≤ (norS a).dbg.addr.toNat / 4096 * 4096) :
    exec .norErase (norS a) = .fault (.noDeviceMemory (norS a).dbg.addr.toNat) := by
  show (match norErase (norS a) with
    | some s' => Host.Outcome.next s'
    | none => .fault (Fault.noDeviceMemory (norS a).dbg.addr.toNat)) = _
  have e : norErase (norS a) = if norSize ≤ (norS a).dbg.addr.toNat / 4096 * 4096 then none else some _ := rfl
  rw [e, if_pos h]

theorem witness_NorErase :
    (4096 < norSize ∧ after .norErase (norS 4097) (fun t => decide (norByte t 4095 = 1 ∧ norByte t 4096 = 0xFF)) = true) ∧
    (norSize ≤ 2 ^ 63 / 4096 * 4096 ∧ faults .norErase (norS (2 ^ 63)) (.noDeviceMemory (2 ^ 63)) = true) := by
  have b := norSize_bounds
  have f : 4096 < norSize := by omega
  have g : norSize ≤ 2 ^ 63 / 4096 * 4096 := by omega
  refine ⟨⟨f, ?_⟩, g, ?_⟩
  · have a : (norS 4097).dbg.addr.toNat / 4096 * 4096 = 4096 := by decide +kernel
    rw [after, norErase_norS 4097 (by rw [a]; exact f)]; decide +kernel
  · have a : (norS (2 ^ 63)).dbg.addr.toNat / 4096 * 4096 = 2 ^ 63 / 4096 * 4096 := by decide +kernel
    rw [faults, norErase_past (2 ^ 63) (by rw [a]; exact g)]; decide +kernel

theorem witness_DebugCommandsActOnTheTarget :
    (∀ d t, DapAtThread (dapS d t) 0) ∧
    ((S0.dbg.unlocked = false ∧ after .debugHalt S0 (fun t => decide (t.dbg.result = 2)) = true) ∧
     (islandUp { dapS S0.dbg haltedT with pwr := { S0.pwr with phase := .off } } 6 = false ∧
       after .regRead { dapS S0.dbg haltedT with pwr := { S0.pwr with phase := .off } } (fun t => decide (t.dbg.result = 5)) = true) ∧
     after .debugHalt (dapS S0.dbg { resetThread 0 with state := .faulted }) (fun t => thIs t .faulted 3) = true ∧
     after .debugHalt (dapS S0.dbg (resetThread 0)) (fun t => thIs t .halted 0) = true ∧
     after .debugResume (dapS S0.dbg haltedT) (fun t => thIs t .runnable 0) = true ∧
     after .debugStep (dapS S0.dbg haltedT) (fun t => decide (t.dbg.result = 0 ∧ (thread t 0).state ≠ .runnable)) = true ∧
     after .abortStaged (dapS S0.dbg haltedT) (fun t => decide (t.dbg.result = 1)) = true ∧
     after .abortStaged (setChannel (dapS S0.dbg { haltedT with owns := some 5 }) 0 5 { resetChannel with owner := some 0 })
       (fun t => decide ((thread t 0).owns = none ∧ (channel t 0 5).owner = none)) = true ∧
     after .abortWait (dapS S0.dbg { resetThread 0 with state := .frozen, wait := some ⟨1, 5, 6, 0, 0⟩ })
       (fun t => thIs t .runnable 0 && regIs t 6 0) = true ∧
     after .abortWait (dapS S0.dbg { resetThread 0 with state := .frozen, wait := some ⟨0, 5, 6, 0, 0⟩ })
       (fun t => thIs t .runnable 0 && regIs t 6 8) = true ∧
     after .regRead (dapS { S0.dbg with regno := 31 } { haltedT with regs := [(31, 9)] }) (fun t => decide (t.dbg.data = 9)) = true ∧
     after .regRead (dapS { S0.dbg with regno := 32 } haltedT) (fun t => decide (t.dbg.data = 0x400)) = true ∧
     after .regWrite (dapS { S0.dbg with regno := 31, data := 4 } haltedT) (fun t => regIs t 31 4) = true ∧
     (selKind (memSel 2 (hbmSize - 8)) = 2 ∧ islandUp (memSel 2 0) 33 = true ∧ after .memWrite (memSel 2 (hbmSize - 8))
       (fun t => decide (t.dbg.result = 0 ∧ hbmByte t (hbmSize - 8) = 8 ∧ hbmByte t (hbmSize - 1) = 1)) = true) ∧
     after .memRead (memSel 2 (hbmSize - 8)) (fun t => decide (t.dbg.data = 0 ∧ t.dbg.result = 0)) = true ∧
     (faults .memRead (memSel 2 hbmSize) (.noDeviceMemory hbmSize) = true ∧ faults .memWrite (memSel 2 hbmSize) (.noDeviceMemory hbmSize) = true) ∧
     (hbmLocked { memSel 2 64 with hbm := { S0.hbm with locks := [(64, 8, 0)] } } 64 8 = true ∧
       after .memWrite { memSel 2 64 with hbm := { S0.hbm with locks := [(64, 8, 0)] } }
         (fun t => decide (t.dbg.result = 4 ∧ hbmByte t 64 = 0)) = true) ∧
     (selKind (memSel 3 0) = 3 ∧ norHeld (norS 4097) = false ∧ norHeld (norS (2 ^ 63)) = false) ∧
     (bpHit (dbgS { S0.dbg with bps := [(3, 3 + 0x400 * 256)] }) 0 = true ∧ after (.breakpoint 0) (dbgS { S0.dbg with bps := [(3, 3 + 0x400 * 256)] })
       (fun t => decide ((thread t 0).state = .halted)) = true) ∧
     (bpHit S0 0 = false ∧ (thread S0 0).state = .runnable ∧
       after (.breakpoint 0) S0 (fun t => decide (t = S0)) = true)) :=
  ⟨dapS_atThread, by decide +kernel⟩

/-! ## The block as a whole -/

theorem witness_StepTakesTheFrontCommand :
    S0.pending = [] ∧ (match step { S0 with pending := [.shortPress, .verify] } with
      | .next t => decide (t.pending = [.verify] ∧ ctrGet t 0xC230 2 0 = 1)
      | _ => false) = true := by decide +kernel

theorem witness_EveryStepKeepsTheInvariant :
    Sys2Proof.Inv S0 ∧ Sys2Proof.Inv { S0 with pending := [.verify] } ∧
      (match step { S0 with pending := [.verify] } with | .next t => ttIs t .verifying | _ => false) = true := by
  unfold Sys2Proof.Inv; decide +kernel

/-- The complement stands in the upper half (00 R5). -/
theorem test_pair_word : pairOf 16 0x1234 = 0xEDCB1234 ∧ pairOk 16 0xEDCB1234 = true ∧ pairOk 16 0xEDCB1235 = false := by decide

/-- Source: 19 Table 19-3 and 11 R276: the link of a controller that is powered off goes down, counts, and is absent. -/
theorem test_controller_off :
    after (.islandPowerEffect 29) { linkS upLink [(0, fnOf .disabled 6 [])] with pwr := { S0.pwr with reqs := [⟨29, true⟩] } }
      (fun t => decide ((linkGet t 0).state = 0 ∧ ctrGet t 0xC0E0 0x0A 0 = 1 ∧ cfgGet (fnGet t 0 0) 4 = 0 ∧
        islandState t 29 = 2)) = true := by decide +kernel

/-- The table gives no row bits, so no word spells a command. -/
theorem test_unknown_word : decodeTableWord 32 0 = none := by decide

end Sys2Proof.Tests
end

section
/-!
SUPPORT. Paired words (00 R5), hard faults (14 R334), the test port (20 R449, R450), the held snapshot (20 R459), and which
writes of registers reach their register (00 R7, 11 R252).
-/

namespace Sys2Proof.Machine.Laws

open Sys2Proof Sys2Proof.Machine

/-! ## Paired words (00 R5) -/

theorem pairOf_eq_mul_add (n v : Nat) : pairOf n v = 2 ^ n * (2 ^ n - (v % 2 ^ n + 1)) + v % 2 ^ n := by
  rw [pairOf, Nat.add_comm, Nat.mul_comm, Nat.sub_sub, Nat.add_comm 1]

/-- The low half carries the value, the high half its complement, and nothing stands above. -/
theorem testBit_pairOf (n v j : Nat) :
    (pairOf n v).testBit j = if j < n then v.testBit j else decide (j - n < n) && !v.testBit (j - n) := by
  have hlt : v % 2 ^ n < 2 ^ n := Nat.mod_lt _ (Nat.two_pow_pos n)
  rw [pairOf_eq_mul_add, Nat.testBit_two_pow_mul_add _ hlt, Nat.testBit_two_pow_sub_succ hlt]
  by_cases h : j < n
  · simp [h]
  · by_cases hj : j - n < n <;> simp [h, hj]

theorem pairOf_lt (n v : Nat) : pairOf n v < 2 ^ (2 * n) := by
  refine Nat.lt_pow_two_of_testBit _ fun j hj => ?_
  rw [testBit_pairOf, if_neg (by omega), decide_eq_false (by omega), Bool.false_and]

/-- The exclusive-OR of the halves has all `n` bits set exactly when the halves differ in each bit. -/
theorem pairOk_iff_testBit (n w : Nat) :
    pairOk n w = true ↔ ∀ i, i < n → w.testBit (n + i) = !(w.testBit i) := by
  have hbit (i : Nat) : ((w % 2 ^ n) ^^^ ((w >>> n) % 2 ^ n)).testBit i =
      (decide (i < n) && (w.testBit i ^^ w.testBit (n + i))) := by
    by_cases hi : i < n <;> simp [Nat.testBit_mod_two_pow, Nat.testBit_shiftRight, hi]
  rw [pairOk, beq_iff_eq]
  constructor
  · intro h i hi
    have hset := hbit i
    rw [h, Nat.testBit_two_pow_sub_one] at hset
    cases hw : w.testBit i <;> simpa [hi, hw] using hset
  · intro h
    refine Nat.eq_of_testBit_eq fun i => ?_
    rw [hbit, Nat.testBit_two_pow_sub_one]
    by_cases hi : i < n
    · simp [hi, h i hi]
    · simp [hi]

theorem pairOk_pairOf (n v : Nat) : pairOk n (pairOf n v) = true := by
  refine (pairOk_iff_testBit n _).2 fun i hi => ?_
  simp [testBit_pairOf, hi]

/-! ## Hard faults (14 R334, R335) -/

/-- A change of pair state changes that state and its timers, and beside them what an event changes, and a counter. -/
@[simp] theorem setPairState_frame (s : State) (p : PairState) :
    (setPairState s p).pair.state = p ∧ (setPairState s p).pair.fence = s.pair.fence ∧
    (setPairState s p).pending = s.pending ∧ (setPairState s p).clk = s.clk ∧ (setPairState s p).led = s.led ∧
    (setPairState s p).net = s.net ∧ (setPairState s p).shp = s.shp ∧ (setPairState s p).tt = s.tt ∧
    (setPairState s p).pipe = s.pipe ∧ (setPairState s p).stg = s.stg ∧ (setPairState s p).fwd = s.fwd ∧
    (setPairState s p).tc = s.tc ∧ (setPairState s p).jx = s.jx ∧ (setPairState s p).cip = s.cip ∧
    (setPairState s p).ken = s.ken ∧ (setPairState s p).dma = s.dma ∧ (setPairState s p).hst = s.hst ∧
    (setPairState s p).slc = s.slc ∧ (setPairState s p).boot = s.boot ∧ (setPairState s p).isl = s.isl ∧
    (setPairState s p).pwr = s.pwr ∧ (setPairState s p).dbg = s.dbg ∧ (setPairState s p).hbm = s.hbm ∧
    (setPairState s p).out = s.out ∧ (setPairState s p).fresh = s.fresh ∧
    (setPairState s p).objs.vals = s.objs.vals := by
  unfold setPairState
  by_cases h : s.pair.state = p
  · simp [h]
  · by_cases hp : p = .syncing
    · subst hp; simp [h]
    · simp [h, hp]

/-- A hard fault lights the fault LED, and of the rest changes the pair state and what an event changes. -/
@[simp] theorem hardFault_frame (s : State) (cause detail : Nat) :
    (hardFault s cause detail).isl = { s.isl with ledFault := true } ∧
    (hardFault s cause detail).pending = s.pending ∧ (hardFault s cause detail).clk = s.clk ∧
    (hardFault s cause detail).led = s.led ∧ (hardFault s cause detail).net = s.net ∧
    (hardFault s cause detail).shp = s.shp ∧ (hardFault s cause detail).tt = s.tt ∧
    (hardFault s cause detail).pipe = s.pipe ∧ (hardFault s cause detail).stg = s.stg ∧
    (hardFault s cause detail).fwd = s.fwd ∧ (hardFault s cause detail).tc = s.tc ∧
    (hardFault s cause detail).jx = s.jx ∧ (hardFault s cause detail).cip = s.cip ∧
    (hardFault s cause detail).ken = s.ken ∧ (hardFault s cause detail).dma = s.dma ∧
    (hardFault s cause detail).hst = s.hst ∧ (hardFault s cause detail).slc = s.slc ∧
    (hardFault s cause detail).boot = s.boot ∧ (hardFault s cause detail).pwr = s.pwr ∧
    (hardFault s cause detail).dbg = s.dbg ∧ (hardFault s cause detail).hbm = s.hbm ∧
    (hardFault s cause detail).out = s.out ∧ (hardFault s cause detail).fresh = s.fresh ∧
    (hardFault s cause detail).objs.vals = s.objs.vals := by
  unfold hardFault
  by_cases h : s.pair.state = .single <;> simp [h]

/-- A paired device goes to FAULT, fenced. -/
theorem hardFault_fences (s : State) (cause detail : Nat) (h : s.pair.state ≠ .single) :
    (hardFault s cause detail).pair.state = .fault ∧ (hardFault s cause detail).pair.fence = true := by
  simp [hardFault, fence, h]

/-! ## The test port (20 R449, R450) -/

@[simp] theorem dbgSet_dbg (s : State) (d : Dbg) : (dbgSet s d).dbg = d := rfl

@[simp] theorem setIr_dbg (s : State) (code : BitVec 8) : (setIr s code).dbg = { s.dbg with ir := code } := rfl

@[simp] theorem dbgResult_dbg (s : State) (r : Nat) :
    (dbgResult s r).dbg = { s.dbg with result := BitVec.ofNat 3 r } := rfl

theorem sameMemory_of_hbm {s t : State} (h : t.hbm = s.hbm) : SameMemory s t := hbmByte_congr (by rw [h])

theorem pinInstr_locked (s : State) (code : BitVec 8) (h : s.dbg.unlocked = false) : pinInstr s code = setIr s 0xFF := by
  simp [pinInstr, h]

theorem pinInstr_unlocked (s : State) (code : BitVec 8) (h : s.dbg.unlocked = true) :
    pinInstr s code = setIr (hardFault s 0x0A code.toNat) code := if_pos h

/-- EXTEST, CLAMP and HIGHZ are one instruction, but for their code. -/
theorem exec_pinInstr (s : State) (c : Instr) (code : BitVec 8)
    (hc : (c = .extest ∧ code = 3) ∨ (c = .clamp ∧ code = 4) ∨ (c = .highz ∧ code = 5)) :
    exec c s = .next (pinInstr s code) := by
  obtain ⟨rfl, rfl⟩ | ⟨rfl, rfl⟩ | ⟨rfl, rfl⟩ := hc <;> rfl

theorem unlockPort_closed (s : State) (h : Config.lockLevel = 2) : unlockPort s = dbgResult s 2 := if_pos h

/-- Outside level CLOSED, UNLOCK takes a fresh challenge, and unlocks on a response that is good. -/
theorem unlockPort_dbg (s : State) (h : Config.lockLevel ≠ 2) :
    (unlockPort s).dbg = { s.dbg with
      nonce := s.dbg.nonce + 1, unlocked := responseOk s || s.dbg.unlocked, result := if responseOk s then 0 else 6 } := by
  rw [unlockPort, if_neg h]
  cases hr : responseOk s <;> simp [freshChallenge]

/-- UNLOCK touches neither device memory nor the Jutex threads. -/
theorem unlockPort_frame (s : State) : (unlockPort s).hbm = s.hbm ∧ (unlockPort s).jx = s.jx := by
  unfold unlockPort
  by_cases h : Config.lockLevel = 2
  · simp [h]
  · by_cases hr : responseOk s = true <;> simp [h, hr, freshChallenge]

theorem relockPort_eq (s : State) :
    relockPort s = { s with dbg := { s.dbg with unlocked := false, result := if s.dbg.unlocked then 0 else 2 } } := by
  obtain h | h := Bool.eq_false_or_eq_true s.dbg.unlocked
  · rw [relockPort, if_pos h, if_pos h]; rfl
  · rw [relockPort, if_neg (by simp [h]), if_neg (by simp [h]), ← h]; rfl

/-- DATA, at 0x018 of the port (20 Table 20-3). -/
theorem dapWrite_data (s : State) (v : BitVec 64) : dapWrite s 3 v.toNat = dbgSet s { s.dbg with data := v } := by
  rw [dapWrite, BitVec.ofNat_toNat, BitVec.setWidth_eq]

/-! ## The held snapshot (20 R459) -/

theorem freezeWrite_zero (s : State) :
    freezeWrite s 0 = { objPut s 0xD000 0x02 0 0 with logs := { s.logs with frozen := none } } := rfl

theorem objGet_freezeWrite (s : State) : objGet (freezeWrite s 0) 0xD000 0x02 0 = 0 :=
  calc objGet (freezeWrite s 0) 0xD000 0x02 0
    _ = objGet (objPut s 0xD000 0x02 0 0) 0xD000 0x02 0 := objGet_congr (by rw [freezeWrite_zero]) ..
    _ = 0 := by rw [objGet_objPut, if_pos rfl]

/-! ## Writes of registers (00 R7, 11 R252, R256) -/

/-- The low `n` bits of a field that starts at bit 0. -/
theorem ofNat_fld_zero {w : Nat} (v : BitVec w) {n len : Nat} (h : n ≤ len) :
    BitVec.ofNat n (fld v 0 len) = v.setWidth n := by
  refine BitVec.eq_of_toNat_eq ?_
  simp [fld, Nat.mod_mod_of_dvd _ (Nat.pow_dvd_pow 2 h)]

theorem exec_registerWrite_misaligned (s : State) (r : RegAddr) (wide : Bool) (v : BitVec 64)
    (h : regOffset r % (if wide then 8 else 4) ≠ 0) : exec (.registerWrite r wide v) s = .next s :=
  congrArg Host.Outcome.next (if_pos h)

theorem exec_registerWrite_aligned (s : State) (r : RegAddr) (wide : Bool) (v : BitVec 64)
    (h : regOffset r % (if wide then 8 else 4) = 0) : exec (.registerWrite r wide v) s =
      .next (regGate s r fun s => if wide then regWide s r v else regDouble s r 0 (fld v 0 32)) :=
  congrArg Host.Outcome.next (if_neg fun hn => hn h)

/-- A device-wide register is not shown with the main domain off, in a PF0 that is not there, or in one that is not the
primary link's. -/
theorem primaryGate_shut (s : State) (link : Nat) (act : State → State)
    (h : mainOn s = false ∨ fnPresent s link 0 = false ∨ (memSpaceOn s link 0 = true ∧ link ≠ s.hst.primary)) :
    primaryGate s link act = s := by
  unfold primaryGate barGate
  obtain hoff | habsent | ⟨hmse, hlink⟩ := h
  · simp [hoff]
  · simp [habsent]
  · simp [hmse, hlink]

theorem primaryGate_open (s : State) (link : Nat) (act : State → State) (hon : mainOn s = true)
    (hpresent : fnPresent s link 0 = true) (hmse : memSpaceOn s link 0 = true) (hlink : link = s.hst.primary) :
    primaryGate s link act = act s := by
  subst hlink
  simp [primaryGate, barGate, hon, hpresent, hmse]

theorem exec_registerWrite_timetable_shut (s : State) (k : BitVec 2) (off : BitVec 12) (wide : Bool) (v : BitVec 64)
    (h : mainOn s = false ∨ fnPresent s k.toNat 0 = false ∨ (memSpaceOn s k.toNat 0 = true ∧ k.toNat ≠ s.hst.primary)) :
    exec (.registerWrite (.timetable k off) wide v) s = .next s := by
  by_cases ha : regOffset (.timetable k off) % (if wide then 8 else 4) = 0
  · rw [exec_registerWrite_aligned s _ wide v ha, regGate, primaryGate_shut s k.toNat _ h]
  · exact exec_registerWrite_misaligned s _ wide v ha

section
variable (s : State) (k : BitVec 2) (v : BitVec 64) (hon : mainOn s = true) (hpresent : fnPresent s k.toNat 0 = true)
  (hmse : memSpaceOn s k.toNat 0 = true) (hlink : k.toNat = s.hst.primary)
include hon hpresent hmse hlink

theorem exec_registerWrite_timetable_open (off : BitVec 12) (h : off.toNat % 4 = 0) :
    exec (.registerWrite (.timetable k off) false v) s = .next (ttRegWrite s off.toNat (fld v 0 32)) := by
  rw [exec_registerWrite_aligned s (.timetable k off) false v h, regGate,
    primaryGate_open s _ _ hon hpresent hmse hlink]
  rfl

theorem exec_registerWrite_window_open (w : BitVec 3) (off : BitVec 12) (h : off.toNat % 4 = 0) :
    exec (.registerWrite (.window k w off) false v) s = .next (tcRegWrite s w.toNat off.toNat (fld v 0 32)) := by
  rw [exec_registerWrite_aligned s (.window k w off) false v h, regGate, primaryGate_open s _ _ hon hpresent hmse hlink,
    if_pos hon, ite_self]
  rfl

end

/-- TT_LENGTH (03 Table 3-9). -/
theorem ttRegWrite_length (s : State) (v : BitVec 64) :
    ttRegWrite s 0x010 (fld v 0 32) = { s with tt := { s.tt with length := v.setWidth 32 } } := by
  rw [ttRegWrite, ofNat_fld_zero v (Nat.le_refl _)]
  exact if_pos rfl

/-- TT_FAULT, whose bits a write of 1 clears (03 Table 3-9). -/
theorem ttRegWrite_fault (s : State) (v : BitVec 64) :
    ttRegWrite s 0x030 (fld v 0 32) = { s with tt := { s.tt with fault := s.tt.fault &&& ~~~(v.setWidth 3) } } := by
  rw [ttRegWrite, ofNat_fld_zero v (by decide)]
  exact if_pos rfl

/-- TC_INDEX (06 Table 6-9). -/
theorem tcRegWrite_index (s : State) (w : Nat) (v : BitVec 64) :
    tcRegWrite s w 0x008 (fld v 0 32) = setTcWin s w { tcWin s w with index := v.setWidth 24 } := by
  simp [tcRegWrite, ofNat_fld_zero]

end Sys2Proof.Machine.Laws
end

section
/-!
CLAIMS. The statements about paired words, the test port and writes of registers.
-/

namespace Sys2Proof.Proofs

open Sys2Proof Sys2Proof.Machine Sys2Proof.Machine.Laws

/-- Settles O60: the bits of the two halves, read off one by one. -/
theorem pairedWordsHoldComplements : Obligations.PairedWordsHoldComplements := by
  refine ⟨fun n v i hi => ⟨?_, ?_⟩, pairOf_lt, pairOk_iff_testBit, pairOk_pairOf⟩ <;>
    simp [testBit_pairOf, hi]

/-- Once unlocked, an instruction that takes the pins counts a hard fault and is selected. -/
theorem pinInstr_takes_effect (s : State) (code : BitVec 8) (h : s.dbg.unlocked = true) :
    (pinInstr s code).dbg = { s.dbg with ir := code } ∧ (pinInstr s code).isl.ledFault = true ∧
      (s.pair.state ≠ .single → (pinInstr s code).pair.state = .fault ∧ (pinInstr s code).pair.fence = true) ∧
      SameMemory s (pinInstr s code) ∧ (pinInstr s code).ken = s.ken := by
  rw [pinInstr_unlocked s code h]
  refine ⟨by simp, by simp, fun hp => ?_, sameMemory_of_hbm (by simp), by simp⟩
  simpa using hardFault_fences s 0x0A code.toNat hp

theorem exec_unlock_takes_effect (s : State) : ∃ t, exec .unlock s = .next t ∧
    (if Config.lockLevel = 2 then t = { s with dbg := { s.dbg with result := 2 } }
    else t.dbg.nonce = s.dbg.nonce + 1 ∧ t.dbg.unlocked = (responseOk s || s.dbg.unlocked) ∧
      t.dbg.result = if responseOk s then 0 else 6) ∧ SameMemory s t ∧ t.jx = s.jx := by
  obtain ⟨hmem, hjx⟩ := unlockPort_frame s
  refine ⟨unlockPort s, rfl, ?_, sameMemory_of_hbm hmem, hjx⟩
  split
  case isTrue h => exact unlockPort_closed s h
  case isFalse h => simp [unlockPort_dbg s h]

theorem exec_freezeMaxExpiry_takes_effect (s : State) (h : s.logs.frozen.isSome = true) :
    ∃ t, exec .freezeMaxExpiry s = .next t ∧ t.logs = { s.logs with frozen := none } ∧ objGet t 0xD000 0x02 0 = 0 :=
  ⟨freezeWrite s 0, congrArg Host.Outcome.next (if_pos h), by rw [freezeWrite_zero], objGet_freezeWrite s⟩

/-- TC_INDEX of one window takes what is written, and the other windows keep theirs. -/
theorem exec_registerWrite_index (s : State) (k : BitVec 2) (v : BitVec 64) (w : BitVec 3) (hon : mainOn s = true)
    (hpresent : fnPresent s k.toNat 0 = true) (hmse : memSpaceOn s k.toNat 0 = true) (hlink : k.toNat = s.hst.primary)
    (hwins : s.tc.wins.length = 8) :
    ∃ t, exec (.registerWrite (.window k w 0x008) false v) s = .next t ∧
      tcWin t w.toNat = { tcWin s w.toNat with index := v.setWidth 24 } ∧ ∀ n, n ≠ w.toNat → tcWin t n = tcWin s n := by
  have hread := fun n => tcWin_setTcWin s w.toNat n { tcWin s w.toNat with index := v.setWidth 24 } (hwins ▸ w.isLt)
  refine ⟨_, (exec_registerWrite_window_open s k v hon hpresent hmse hlink w 0x008 rfl).trans
    (congrArg Host.Outcome.next (tcRegWrite_index s w.toNat v)), ?_, fun n hn => ?_⟩
  · rw [hread, if_pos rfl]
  · rw [hread, if_neg hn]

/-- Settles O53, command by command: the port's instructions, its locks, the snapshot, and the writes that a gate stops or
lets through. -/
theorem testPortAndRegisterWritesTakeEffect : Obligations.TestPortAndRegisterWritesTakeEffect := by
  refine ⟨fun _ => rfl, fun _ => rfl, fun s a b => ?preload, fun _ => rfl, fun s c code hc => ⟨?locked, ?unlocked⟩,
    fun _ => rfl, exec_unlock_takes_effect, fun s => congrArg _ (relockPort_eq s), fun _ => rfl,
    exec_freezeMaxExpiry_takes_effect, exec_registerWrite_misaligned, exec_registerWrite_timetable_shut,
    fun s k v hon hpresent hmse hlink => ⟨?length, ?fault, fun w hwins => ?index⟩, fun s v => ?data⟩
  case preload =>
    have hout : (sampledChain s a).toNat = if mainOn s then a.toNat else (a &&& ~~~Config.lowCells).toNat :=
      apply_ite BitVec.toNat _ _ _
    rw [← hout]; rfl
  case locked =>
    intro h
    rw [exec_pinInstr s c code hc, pinInstr_locked s code h]; rfl
  case unlocked =>
    exact fun h => ⟨_, exec_pinInstr s c code hc, pinInstr_takes_effect s code h⟩
  case length =>
    rw [exec_registerWrite_timetable_open s k v hon hpresent hmse hlink 0x010 rfl, ← ttRegWrite_length]; rfl
  case fault =>
    rw [exec_registerWrite_timetable_open s k v hon hpresent hmse hlink 0x030 rfl, ← ttRegWrite_fault]; rfl
  case index => exact exec_registerWrite_index s k v w hon hpresent hmse hlink hwins
  case data =>
    rw [exec_registerWrite_aligned s _ true v rfl]
    exact congrArg Host.Outcome.next (dapWrite_data s v)

end Sys2Proof.Proofs
end

section
/-!
SUPPORT. Byte strings and the addresses that they spell (00 R3, 16 R382), the sessions of the Uhlist server, a request at its
turn (16 R380, R381), and a write of a slice's binding (12 R280, 16 R372).
-/

namespace Sys2Proof.Machine.Laws

open Sys2Proof Sys2Proof.Machine

/-! ## Byte strings and addresses -/

@[simp] theorem length_leBytes (n v : Nat) : (leBytes n v).length = n := by
  induction n generalizing v with
  | zero => rfl
  | succ n ih => simp [leBytes, ih]

theorem leNat_leBytes (n v : Nat) : leNat (leBytes n v) = v % 256 ^ n := by
  induction n generalizing v with
  | zero => simp [leBytes, leNat, Nat.mod_one]
  | succ n ih => rw [leBytes, leNat, ih, BitVec.toNat_ofNat, pow_succ' 256 n]; exact Nat.mod_mul.symm

theorem bytesAt_append (bs cs : List Byte) : bytesAt (bs ++ cs) 0 bs.length = bs := by simp [bytesAt]

/-- The address of an element, whatever follows it. -/
theorem addrOf_element (idx sub el : Nat) (rest : List Byte) (hidx : idx < 2 ^ 16) (hsub : sub < 2 ^ 8) (hel : el < 2 ^ 32) :
    addrOf (leBytes 8 (idx + sub * 2 ^ 16 + 2 ^ 24 + el * 2 ^ 32) ++ rest) = some ⟨idx, sub, some el⟩ := by
  obtain ⟨w, hw⟩ : ∃ w, w = idx + sub * 2 ^ 16 + 2 ^ 24 + el * 2 ^ 32 := ⟨_, rfl⟩
  have hread : leNat (bytesAt (leBytes 8 w ++ rest) 0 8) = w := by
    have hbytes := bytesAt_append (leBytes 8 w) rest
    rw [length_leBytes] at hbytes
    rw [hbytes, leNat_leBytes, Nat.mod_eq_of_lt (by omega)]
  have hbit : w.testBit 24 = true := by
    rw [Nat.testBit_eq_decide_div_mod_eq, decide_eq_true_eq]; omega
  rw [← hw]
  simp only [addrOf, hread, hbit, Nat.shiftRight_eq_div_pow, if_true]
  rw [if_neg (by omega), show w % 2 ^ 16 = idx by omega, show w / 2 ^ 16 % 256 = sub by omega,
    show w / 2 ^ 32 = el by omega]

/-! ## Sessions -/

/-- A session that is found has the numbers it is looked up by. -/
theorem sessionFind_numbers {s : State} {t n : Nat} {x : Session} (h : sessionFind s t n = some x) :
    x.transport = t ∧ x.num = n := by
  simpa using List.find?_some h

@[simp] theorem sessionFind_countUhl (s : State) (tr sub t n : Nat) :
    sessionFind (countUhl s tr sub) t n = sessionFind s t n := rfl

@[simp] theorem sessionFind_emit (s : State) (o : Output) (t n : Nat) : sessionFind (emit s o) t n = sessionFind s t n := rfl

@[simp] theorem islandUs_countUhl (s : State) (tr sub : Nat) : islandUs (countUhl s tr sub) = islandUs s := rfl

/-- A session that is put takes the place of the one with its numbers. -/
theorem sessionFind_sessionPut {s : State} {t n : Nat} {x y : Session} (h : sessionFind s t n = some x)
    (ht : y.transport = t) (hn : y.num = n) : sessionFind (sessionPut s y) t n = some y := by
  subst ht hn
  have hpred : ((fun z : Session => z.transport == y.transport && z.num == y.num) ∘
      fun z => if z.transport == y.transport && z.num == y.num then y else z) =
      fun z => z.transport == y.transport && z.num == y.num := by
    funext z
    rw [Function.comp_apply]
    split
    · simp_all
    · rfl
  unfold sessionFind at h
  rw [sessionFind, sessionPut, List.find?_map, hpred, h, Option.map_some, if_pos (List.find?_some h)]

/-- Of two sessions with the same numbers the later put stands. -/
theorem sessionPut_sessionPut (s : State) {x y : Session} (ht : y.transport = x.transport) (hn : y.num = x.num) :
    sessionPut (sessionPut s x) y = sessionPut s y := by
  have hlater : ((fun z => if z.transport == y.transport && z.num == y.num then y else z) ∘
      fun z => if z.transport == x.transport && z.num == x.num then x else z) =
      fun z : Session => if z.transport == y.transport && z.num == y.num then y else z := by
    funext z
    by_cases hz : z.transport = x.transport ∧ z.num = x.num <;> simp [ht, hn, hz]
  simp only [sessionPut, List.map_map, hlater]

/-! ## A request at its turn (16 R380, R381) -/

/-- The session once the request that it held has its turn. -/
def turnTaken (x : Session) (peer : Nat × Nat) : Session :=
  { x with held := [], expect := x.expect + 1, peer := peer }

/-- The session when a PDU with a good tag arrives. -/
def heardAt (x : Session) (us : Nat) : Session := { x with since := us }

theorem pumpSession_of_held_nil {s : State} {t n : Nat} {x : Session} (h : sessionFind s t n = some x) (hx : x.held = [])
    (k : Nat) : pumpSession s t n k = s := by
  cases k with
  | zero => rfl
  | succ k => simp [pumpSession, h, hx]

/-- The one request that a session holds is served when its turn has come. -/
theorem pumpSession_of_held {s : State} {t n : Nat} {x : Session} {op : Nat} {p : Pdu} {peer : Nat × Nat}
    (hfind : sessionFind s t n = some x) (hproved : x.proved = true) (hopen : x.closing = false)
    (hwait : sessionWaits s t n = false) (hheld : x.held = [(op, p, peer)]) (hseq : p.seq = x.expect) (k : Nat) :
    pumpSession s t n (k + 1) =
      pumpSession (serveRequest (sessionPut s (turnTaken x peer)) (turnTaken x peer) op p) t n k := by
  simp [pumpSession, hfind, hproved, hopen, hwait, hheld, hseq, turnTaken]

/-- A request with the SEQ that its session expects is served at once when nothing is held and no write is under way. -/
theorem windowed_expected {s : State} {x : Session} {t n : Nat} (op : Nat) {p : Pdu} (peer : Nat × Nat)
    (hfind : sessionFind s t n = some x) (hproved : x.proved = true) (hopen : x.closing = false)
    (hwait : sessionWaits s t n = false) (hheld : x.held = []) (hseq : p.seq = x.expect) :
    windowed s x op p peer =
      pumpSession (serveRequest (sessionPut s (turnTaken x peer)) (turnTaken x peer) op p) t n 16 := by
  obtain ⟨rfl, rfl⟩ := sessionFind_numbers hfind
  have hput := sessionFind_sessionPut (y := { x with held := [(op, p, peer)] }) hfind rfl rfl
  have hturn : sessionPut (sessionPut s { x with held := [(op, p, peer)] }) (turnTaken x peer) =
      sessionPut s (turnTaken x peer) := sessionPut_sessionPut s rfl rfl
  rw [windowed, if_pos (by omega), hheld, ← hturn]
  exact pumpSession_of_held hput hproved hopen hwait rfl hseq 16

/-- A session as a request of the management transport finds it at its turn. -/
def servedSession (s : State) (x : Session) : Session := turnTaken (heardAt x (islandUs s)) (0, 0)

/-- The state in which that request is executed: the PDU has been counted. -/
def atTurn (s : State) (x : Session) : State := sessionPut (countUhl s 0 0x01) (servedSession s x)

theorem takePdu_inSession {s : State} {p : Pdu} {x : Session} (op : Nat) (h : Served s p x) :
    takePdu s op p = inSession (countUhl s 0 0x01) op p (0, 0) := by
  obtain ⟨htrans, hsess, hlen, hserves, -⟩ := h
  have hmax : ¬bodyMax 0 < p.body.length := Nat.not_lt.2 hlen
  simp [takePdu, waiting, htrans, hserves, hmax, hsess]

theorem inSession_served {s : State} {p : Pdu} {x : Session} {op : Nat} (h : Served s p x) (htag : tagOk x op p = true) :
    inSession (countUhl s 0 0x01) op p (0, 0) =
      windowed (sessionPut (countUhl s 0 0x01) (heardAt x (islandUs s))) (heardAt x (islandUs s)) op p (0, 0) := by
  obtain ⟨htrans, -, -, -, hfind, hproved, hopen, -⟩ := h
  simp [inSession, htrans, hfind, htag, hproved, hopen, heardAt]

/-- A served request is executed at its turn; what its session still holds follows. -/
theorem takePdu_served {s : State} {p : Pdu} {x : Session} {op : Nat} (h : Served s p x) (htag : tagOk x op p = true) :
    takePdu s op p = pumpSession (serveRequest (atTurn s x) (servedSession s x) op p) 0 p.session 16 := by
  rw [takePdu_inSession op h, inSession_served h htag]
  obtain ⟨-, -, -, -, hfind, hproved, hopen, hheld, hseq, hwait⟩ := h
  obtain ⟨hx0, hxn⟩ := sessionFind_numbers hfind
  have hput := sessionFind_sessionPut (s := countUhl s 0 0x01) (y := heardAt x (islandUs s))
    (by rwa [sessionFind_countUhl]) hx0 hxn
  have hturn : sessionPut (sessionPut (countUhl s 0 0x01) (heardAt x (islandUs s))) (servedSession s x) = atTurn s x :=
    sessionPut_sessionPut _ rfl rfl
  rw [← hturn]
  exact windowed_expected op (0, 0) hput hproved hopen hwait hheld hseq

theorem sessionFind_atTurn {s : State} {p : Pdu} {x : Session} (h : Served s p x) :
    sessionFind (atTurn s x) 0 p.session = some (servedSession s x) := by
  obtain ⟨-, -, -, -, hfind, -⟩ := h
  obtain ⟨hx0, hxn⟩ := sessionFind_numbers hfind
  exact sessionFind_sessionPut (by rwa [sessionFind_countUhl]) hx0 hxn

/-! ## Answers -/

/-- The session with a reply in its cache (16 R381). -/
def withReply (x : Session) (seq op : Nat) (request : List Byte) (err : Nat) (body : List Byte) : Session :=
  let cache := x.cache.filter (fun c => c.seq != seq) ++ [⟨seq, op, request, some (err, body), true, x.peer⟩]
  { x with cache := cache.drop (cache.length - 16) }

/-- An answer of the management transport is cached, counted and sent. -/
theorem answer_management {s : State} {n : Nat} {x : Session} (h : sessionFind s 0 n = some x) (op : Nat) (p : Pdu) (err : Nat)
    (body : List Byte) : answer s 0 n op p err body =
      emit (countUhl (sessionPut s (withReply x p.seq op p.body err body)) 0 0x02) (.pdu 0 n op p.seq err body) := by
  obtain ⟨hx0, hxn⟩ := sessionFind_numbers h
  simp [answer, h, sessionReply, sendReply, hx0, hxn, withReply]

/-- A request that is only answered: the answer is sent, and no object changes. -/
theorem takePdu_answered {s : State} {p : Pdu} {x : Session} {op err : Nat} {body : List Byte} (h : Served s p x)
    (htag : tagOk x op p = true)
    (hserve : serveRequest (atTurn s x) (servedSession s x) op p = answer (atTurn s x) 0 p.session op p err body) :
    Replied (takePdu s op p) op p err body ∧ SameObjects s (takePdu s op p) := by
  have hfind := sessionFind_atTurn h
  obtain ⟨hx0, hxn⟩ := sessionFind_numbers hfind
  have hput := sessionFind_sessionPut (y := withReply (servedSession s x) p.seq op p.body err body) hfind hx0 hxn
  have htake : takePdu s op p = answer (atTurn s x) 0 p.session op p err body := by
    rw [takePdu_served h htag, hserve, answer_management hfind]
    refine pumpSession_of_held_nil (x := withReply (servedSession s x) p.seq op p.body err body) ?_ rfl 16
    rw [sessionFind_emit, sessionFind_countUhl, hput]
  rw [htake, answer_management hfind]
  exact ⟨List.mem_append_right _ (List.mem_singleton_self _), fun idx sub el => rfl⟩

/-- A WRITE that its checks refuse is only answered. -/
theorem serveWrite_refused {s : State} {x : Session} {p : Pdu} {a : ObjAddr} {e : Nat} (ha : addrOf p.body = some a)
    (hlen : 10 ≤ p.body.length)
    (h : writeChecks s x a (max 1 (leNat (bytesAt p.body 8 2))) (p.body.take 8) (p.body.drop 10) = .inl e) :
    serveWrite s x p = answer s x.transport x.num 7 p e [] := by
  simp [serveWrite, ha, Nat.not_lt.2 hlen, h]

/-! ## A write of a slice's binding (12 R280, 16 R372) -/

/-- Binding mode 1 is refused in the compatible mode, whichever of the two is written. -/
theorem bindRule_pasid_compat {s : State} {sub sl v : Nat} (hmode : (if 6 = sub then v else objGet s 0xB000 6 sl) = 1)
    (hcompat : (if 0x0A = sub then v else objGet s 0xB000 0x0A sl) = 1) : bindRule s sub sl v = false := by
  simp [bindRule, hmode, hcompat]

/-- An operator sees every object of the directory. -/
theorem objSeen_operator {x : Session} {a : ObjAddr} (hrole : x.role = .operator) (hsub : a.sub ≠ 0) :
    objSeen x a = objDesc a.idx a.sub := by
  rw [objSeen, if_neg hsub]
  cases objDesc a.idx a.sub <;> simp [hrole, sees, foreignElement]

theorem objDesc_bindMode :
    objDesc 0xB000 0x06 = some ⟨0xB000, 0xB000, 0x06, 9, 0x1133, 16384, 0, 0, 0, 2, 1, 5, ""⟩ := by decide +kernel

theorem objDesc_compatMode :
    objDesc 0xB000 0x0A = some ⟨0xB000, 0xB000, 0x0A, 9, 0x1133, 16384, 0, 0, 0, 1, 1, 5, ""⟩ := by decide +kernel

/-- bind_mode and compat_mode have one byte for each slice, which an operator writes and in which 1 is a value. -/
theorem objSeen_bindRow {x : Session} {sub : Nat} (el : Nat) (hrole : x.role = .operator) (hsub : sub = 6 ∨ sub = 0x0A) :
    ∃ d, objSeen x ⟨0xB000, sub, some el⟩ = some d ∧ d.elems = 16384 ∧ d.size = 1 ∧ d.ty = 9 ∧
      (accessOf x.role d).testBit 1 = true ∧ valueOk d 0xB000 sub el 1 = true := by
  rw [hrole]
  obtain rfl | rfl := hsub
  · exact ⟨_, (objSeen_operator hrole (by simp)).trans objDesc_bindMode, rfl, rfl, rfl, rfl, rfl⟩
  · exact ⟨_, (objSeen_operator hrole (by simp)).trans objDesc_compatMode, rfl, rfl, rfl, rfl, rfl⟩

/-- An operator's write of 1 to bind_mode or compat_mode that bindRule does not let pass is OUT_OF_RANGE. -/
theorem writeChecks_bindRow_refused {s : State} {x : Session} {sub el : Nat} (addr : List Byte) (hrole : x.role = .operator)
    (hsub : sub = 6 ∨ sub = 0x0A) (hel : el < 16384) (hcores : coresServe s = true)
    (hpair : s.pair.state = .single ∨ s.pair.state = .active) (hbind : bindRule s sub el 1 = false) :
    writeChecks s x ⟨0xB000, sub, some el⟩ 1 addr [1] = .inl 5 := by
  obtain ⟨d, hseen, helems, hsize, hty, hacc, hval⟩ := objSeen_bindRow el hrole hsub
  have hes : objElements s x d ⟨0xB000, sub, some el⟩ 1 = some [el] := by
    simp [objElements, hrole, helems, Nat.lt_iff_add_one_le.1 hel]
  have hactive : notActive s 0xB000 = false := by
    obtain h | h := hpair <;> simp [notActive, h]
  have hrel : relationOk s x.key addr 0xB000 sub el 1 = false := by
    obtain rfl | rfl := hsub <;> simpa [relationOk] using hbind
  simp [writeChecks, hseen, hes, hacc, hsize, hty, hval, hactive, hrel, dapClosed, fixedElement, vectorAllowed, unreachable,
    hcores, valuesOf, leNat, eachOk]

end Sys2Proof.Machine.Laws
end

section
/-!
CLAIMS. The statement about slices in EF1124-compatible mode (01 R26).
-/

namespace Sys2Proof.Proofs

open Sys2Proof Sys2Proof.Machine Sys2Proof.Machine.Laws

/-- Settles O59: the rule on bindings refuses either write, and a write that is refused is only answered. -/
theorem compatibleSlicesBindOnlyToVfs : Obligations.CompatibleSlicesBindOnlyToVfs := by
  intro s p x sl sub hserved htag hrole hcores hpair hmode hbody
  have hsub : sub = 6 ∨ sub = 0x0A := hmode.imp And.left And.left
  have hbind : bindRule (atTurn s x) sub sl.toNat 1 = false := by
    obtain ⟨rfl, hcompat, -⟩ | ⟨rfl, hpasid, -⟩ := hmode
    · exact bindRule_pasid_compat rfl hcompat
    · exact bindRule_pasid_compat hpasid rfl
  have hserve : serveRequest (atTurn s x) (servedSession s x) 7 p = answer (atTurn s x) 0 p.session 7 p 5 [] := by
    obtain ⟨hx0, hxn⟩ := sessionFind_numbers (sessionFind_atTurn hserved)
    rw [← hx0, ← hxn]
    refine serveWrite_refused (a := ⟨0xB000, sub, some sl.toNat⟩) ?_ ?_ ?_
    · rw [hbody]
      exact addrOf_element 0xB000 sub sl.toNat _ (by decide) (by omega) (by omega)
    · simp [hbody]
    · rw [hbody]
      exact writeChecks_bindRow_refused _ hrole hsub sl.isLt hcores hpair hbind
  obtain ⟨hreply, hobjs⟩ := takePdu_answered hserved htag hserve
  refine ⟨takePdu s 7 p, rfl, hreply, hobjs, fun h6 => ?_⟩
  obtain ⟨-, -, hunbound⟩ | ⟨rfl, -⟩ := hmode
  · rw [hobjs, hunbound]
  · contradiction

end Sys2Proof.Proofs
end

section
/-!
SUPPORT. What it means that a state, an optional state, an outcome keeps the invariant, and the rules for the shapes in which
the model builds a state: a record update beside the banks, a conditional, a fold.
-/

namespace Sys2Proof.Machine.Laws

open Sys2Proof Sys2Proof.Machine

variable {s : State}

/-- The outcome's next state, where there is one, meets the invariant. -/
def Kept (o : Host.Outcome State Fault Refusal) : Prop := ∀ t, o = .next t → Inv t

/-- The optional state, where there is one, meets the invariant. -/
def InvSome (o : Option State) : Prop := ∀ t, o = some t → Inv t

/-- A record update that leaves the banks alone. -/
theorem inv_with {u : State} {pending clk objs led pair logs uhl net shp tt pipe stg fwd tc jx cip ken dma hst slc boot isl
    pwr dbg hbm out fresh} (h : Inv u) (hmem : hbm.mem = u.hbm.mem := by rfl)
    (hnor : boot.nor = u.boot.nor := by rfl) (hslot : clk.slot = u.clk.slot := by rfl)
    (hlanes : net.lanes = u.net.lanes := by rfl) (hctl : pipe.ctl = u.pipe.ctl := by rfl)
    (hlinks : hst.links = u.hst.links := by rfl) (hboxes : uhl.boxes = u.uhl.boxes := by rfl)
    (hcages : isl.cages = u.isl.cages := by rfl) (hwins : tc.wins = u.tc.wins := by rfl) :
    Inv ⟨pending, clk, objs, led, pair, logs, uhl, net, shp, tt, pipe, stg, fwd, tc, jx, cip, ken, dma, hst, slc, boot, isl,
      pwr, dbg, hbm, out, fresh⟩ := by
  unfold Inv
  dsimp only
  rw [hmem, hnor, hslot, hlanes, hctl, hlinks, hboxes, hcages, hwins]
  exact h

theorem kept_next {t : State} (h : Inv t) : Kept (.next t) := fun _ e => by cases e; exact h

theorem kept_fault {f : Fault} : Kept (.fault f) := fun _ e => by cases e

theorem invSome_some {t : State} (h : Inv t) : InvSome (some t) := fun _ e => by cases e; exact h

theorem invSome_none : InvSome none := fun _ e => by cases e

section

variable {α : Type} {c : Prop} [Decidable c]

theorem inv_ite {a b : State} (ha : Inv a) (hb : Inv b) : Inv (if c then a else b) := by
  split <;> assumption

theorem inv_ite_fst {a b : State × α} (ha : Inv a.1) (hb : Inv b.1) : Inv (if c then a else b).1 := by
  split <;> assumption

theorem inv_ite_snd {a b : α × State} (ha : Inv a.2) (hb : Inv b.2) : Inv (if c then a else b).2 := by
  split <;> assumption

theorem inv_ite_act {a b : ActSt} (ha : Inv a.s) (hb : Inv b.s) : Inv (if c then a else b).s := by
  split <;> assumption

theorem kept_ite {a b : Host.Outcome State Fault Refusal} (ha : Kept a) (hb : Kept b) :
    Kept (if c then a else b) := by
  split <;> assumption

theorem invSome_ite {a b : Option State} (ha : InvSome a) (hb : InvSome b) : InvSome (if c then a else b) := by
  split <;> assumption

end

section

variable {α β : Type}

theorem inv_foldl {f : State → β → State} (hf : ∀ s x, Inv s → Inv (f s x)) {l : List β} (h : Inv s) :
    Inv (l.foldl f s) :=
  List.foldlRecOn l f h (fun _ ht x _ => hf _ x ht)

theorem inv_foldl_act {f : ActSt → β → ActSt} (hf : ∀ s x, Inv s.s → Inv (f s x).s) {l : List β}
    {s : ActSt} (h : Inv s.s) : Inv (l.foldl f s).s :=
  List.foldlRecOn (motive := fun t => Inv t.s) l f h (fun _ ht x _ => hf _ x ht)

theorem inv_of_fst {p : State × α} {t : State} {a : α} (h : Inv p.1) (e : p = (t, a)) : Inv t := by subst e; exact h

theorem inv_of_snd {p : α × State} {t : State} {a : α} (h : Inv p.2) (e : p = (a, t)) : Inv t := by subst e; exact h

theorem inv_getD {o : Option State} (h : Inv s) (ho : InvSome o) : Inv (o.getD s) := by
  cases o with
  | none => exact h
  | some t => exact ho t rfl

end

theorem length_lset {α : Type} (l : List α) (k : Nat) (v : α) : (lset l k v).length = l.length :=
  List.length_set

end Sys2Proof.Machine.Laws
end

section
/-! SUPPORT. The operations that the blocks share, ports, shapers, stage memory, trust, timetable and parser keep the
invariant. -/

namespace Sys2Proof.Machine.Laws

open Sys2Proof Sys2Proof.Machine

variable {s : State}

/-! ### Machine/State.lean -/

theorem inv_reset : Inv State.reset :=
  ⟨rfl, rfl, Nat.zero_lt_succ 4095, List.length_replicate, rfl, rfl, rfl, rfl, rfl⟩

/-! ### Machine/Ops.lean -/

theorem inv_atSlot {slot : BitVec 12} (h : Inv s) : Inv (atSlot s slot) := by
  obtain ⟨hmem, hnor, -, hrest⟩ := h
  exact ⟨hmem, hnor, slot.isLt, hrest⟩

theorem inv_emit {o : Output} (h : Inv s) : Inv (emit s o) := h

theorem inv_draw (h : Inv s) : Inv (draw s).2 := h

theorem wf_memPut {m : List Host.Cell} {a : Nat} {bs : List Byte} (h : Memory.wf m = true) :
    Memory.wf (memPut m a bs) = true := by
  induction bs generalizing m a with
  | nil => exact h
  | cons b bs ih => exact ih (swf_sset emptyByte m a b h)

theorem inv_hbmWrite {a : Nat} {bs : List Byte} (h : Inv s) : Inv (hbmWrite s a bs) := by
  obtain ⟨hmem, hrest⟩ := h
  exact ⟨wf_memPut hmem, hrest⟩

theorem inv_hbmStore {a : Nat} {bs : List Byte} (h : Inv s) : Inv (hbmStore s a bs) := inv_ite h (inv_hbmWrite h)

theorem inv_unlockHbm {owner : Nat} (h : Inv s) : Inv (unlockHbm s owner) := h

theorem inv_lockHbm {a n owner : Nat} (h : Inv s) : Inv (lockHbm s a n owner) := h

theorem inv_objPutKey {k v : Nat} (h : Inv s) : Inv (objPutKey s k v) := h

theorem inv_objPut {idx sub el v : Nat} (h : Inv s) : Inv (objPut s idx sub el v) := inv_objPutKey h

theorem inv_takeCalib {kind : Nat} {els : List Nat} (h : Inv s) : Inv (takeCalib s kind els) := h

theorem inv_takeMainCalib (h : Inv s) : Inv (takeMainCalib s) := inv_takeCalib (inv_takeCalib (inv_takeCalib h))

theorem inv_ctrAddAt {idx sub el n : Nat} (h : Inv s) : Inv (ctrAddAt s idx sub el n) := h

theorem inv_count {idx sub : Nat} (h : Inv s) : Inv (count s idx sub) := inv_ctrAddAt h

theorem inv_countN {idx sub n : Nat} (h : Inv s) : Inv (countN s idx sub n) := inv_ctrAddAt h

theorem inv_countAt {idx sub el : Nat} (h : Inv s) : Inv (countAt s idx sub el) := inv_ctrAddAt h

theorem inv_countOverruns {e : EvRec} {l : List Session} (h : Inv s) : Inv (countOverruns s e l) := by
  induction l generalizing s with
  | nil => exact h
  | cons x l ih => exact ih (inv_ite (inv_count h) h)

theorem inv_eventFull {code island idx sub : Nat} {param : BitVec 64} (h : Inv s) :
    Inv (eventFull s code island idx sub param) :=
  inv_countOverruns h

theorem inv_event {code island param : Nat} (h : Inv s) : Inv (event s code island param) := inv_eventFull h

theorem inv_record {r : DeltaRec} (h : Inv s) : Inv (record s r) := inv_ite h h

theorem inv_waitRoom (h : Inv s) : Inv (waitRoom s) := h

theorem inv_ledMetaSet {i : Nat} {m : LedMeta} (h : Inv s) : Inv (ledMetaSet s i m) := h

theorem inv_ledPut {i : Nat} {e : LedEntry} (h : Inv s) : Inv (ledPut s i e) := inv_record h

theorem inv_noteWait (h : Inv s) : Inv (noteWait s) := inv_ite (inv_ite h h) (inv_waitRoom (inv_ite h h))

theorem inv_ordPut {o : OrdState} (h : Inv s) : Inv (ordPut s o) := h

theorem inv_ledAccept {k : LedKind} {q : OrdQ} {slice : Nat} {infra restart : Bool} {ref : LedRef} (h : Inv s) :
    Inv (ledAccept s k q slice infra restart ref).2 :=
  inv_ledPut (inv_count (inv_ledMetaSet (inv_ordPut h)))

theorem inv_ledRun {i : Nat} (h : Inv s) : Inv (ledRun s i) := by
  unfold ledRun
  split
  · exact inv_ite (inv_ledPut h) h
  · exact h

theorem inv_ledFix {i : Nat} {status detail : BitVec 8} (h : Inv s) : Inv (ledFix s i status detail) := by
  unfold ledFix
  split
  · exact h
  · exact inv_ledMetaSet (inv_ledPut (inv_ite (inv_count h) h))

theorem inv_ledDone {i : Nat} {status detail : BitVec 8} (h : Inv s) : Inv (ledDone s i status detail) :=
  inv_ite h (inv_ledFix h)

theorem inv_ledRetire {i : Nat} (h : Inv s) : Inv (ledRetire s i) := by
  unfold ledRetire
  split
  · exact h
  · exact inv_ledPut (inv_ledMetaSet (inv_ordPut (inv_countAt h)))

theorem inv_retireUpTo {q : OrdQ} {n : Nat} (h : Inv s) : Inv (retireUpTo s q n) := by
  induction n generalizing s with
  | zero => exact h
  | succ n ih =>
    unfold retireUpTo
    split
    · exact ih (inv_ledRetire h)
    · exact h

theorem inv_retireRun {q : OrdQ} (h : Inv s) : Inv (retireRun s q) := inv_retireUpTo h

theorem inv_setPairState {p : PairState} (h : Inv s) : Inv (setPairState s p) :=
  inv_ite h (inv_event (inv_ite (inv_count h) h))

theorem inv_fence (h : Inv s) : Inv (fence s) := h

theorem inv_hardFault {cause detail : Nat} (h : Inv s) : Inv (hardFault s cause detail) :=
  inv_ite (inv_event (inv_count h)) (inv_setPairState (inv_fence (inv_event (inv_count h))))

/-! ### Machine/Rows.lean -/

theorem inv_rowFailedAt {m : Nat} (h : Inv s) : Inv (rowFailedAt s m) := by
  unfold rowFailedAt
  split
  · exact h
  · extract_lets t
    have ht : Inv t := inv_count h
    clear_value t
    exact ht

theorem inv_rowFailed (h : Inv s) : Inv (rowFailed s) := inv_rowFailedAt h

/-! ### Machine/Operands.lean -/

theorem inv_itemsMap {f : Item → Item} (h : Inv s) : Inv (itemsMap s f) := h

theorem inv_itemPut {x : Item} (h : Inv s) : Inv (itemPut s x) := inv_itemsMap h

theorem inv_noteLeft {x : Item} (h : Inv s) : Inv (noteLeft s x) := by
  unfold noteLeft
  split <;> exact h

theorem inv_itemRemove {id : Nat} (h : Inv s) : Inv (itemRemove s id) := by
  unfold itemRemove
  extract_lets t
  have ht : Inv t := by
    dsimp only [t]
    split
    · exact inv_noteLeft h
    · exact h
  exact ht

theorem inv_setThread {th : Nat} {t : Thread} (h : Inv s) : Inv (setThread s th t) := h

theorem inv_setEngine {e : Nat} {x : Engine} (h : Inv s) : Inv (setEngine s e x) := h

theorem inv_setCluster {c : Nat} {x : Cluster} (h : Inv s) : Inv (setCluster s c x) := h

theorem inv_setChannel {c ch : Nat} {x : Channel} (h : Inv s) : Inv (setChannel s c ch x) := inv_setCluster h

theorem inv_setReg {th : Nat} {r : BitVec 5} {v : BitVec 64} (h : Inv s) : Inv (setReg s th r v) :=
  inv_ite h (inv_setThread h)

theorem inv_setShared {th n : Nat} {v : BitVec 64} (h : Inv s) : Inv (setShared s th n v) := inv_setEngine h

theorem inv_scratchWrite {c a : Nat} {bs : List Byte} (h : Inv s) : Inv (scratchWrite s c a bs) := inv_setCluster h

theorem inv_windowStore {c : Nat} {w : Option Work} {win : Window} {bs : List Byte} (h : Inv s) :
    Inv (windowStore s c w win bs) := by
  unfold windowStore
  extract_lets
  split
  · exact inv_scratchWrite h
  · split
    · exact h
    · exact inv_itemPut (inv_ite h (inv_ctrAddAt h))
  · split
    · exact h
    · exact inv_itemPut h
  · split
    · exact h
    · exact inv_itemPut h
  · exact inv_hbmStore h
  · exact h
  · exact h
  · exact h

theorem inv_windowWrite {c : Nat} {w : Option Work} {win : Window} {n v : Nat} (h : Inv s) :
    Inv (windowWrite s c w win n v) :=
  inv_windowStore h

theorem inv_mapWrite {c : Nat} {w : Option Work} {a : Nat} {bs : List Byte} (h : Inv s) :
    Inv (mapWrite s c w a bs) := by
  unfold mapWrite
  split
  · exact inv_windowStore h
  · exact h

/-! ### Machine/Ports.lean -/

theorem inv_noteDown {before : State} {p : Nat} (h : Inv s) : Inv (noteDown before s p) := by
  unfold noteDown
  split
  · extract_lets t
    have ht : Inv t := inv_count h
    clear_value t
    exact ht
  · exact h

theorem inv_notePort {before : State} {p : Nat} (h : Inv s) : Inv (notePort before s p) := inv_ite h (inv_eventFull h)

theorem inv_setLane {n : Nat} {l : Lane} (h : Inv s) : Inv (setLane s n l) := by
  have hset : Inv { s with net := { s.net with lanes := lset s.net.lanes n l } } := by
    obtain ⟨hmem, hnor, hslot, hlanes, hrest⟩ := h
    exact ⟨hmem, hnor, hslot, (length_lset ..).trans hlanes, hrest⟩
  have hnoted := inv_notePort (before := s) (p := portOfLane s n)
    (inv_noteDown (before := s) (p := portOfLane s n) hset)
  exact inv_ite (inv_eventFull hnoted) hnoted

theorem inv_bringUp {n : Nat} (h : Inv s) : Inv (bringUp s n) :=
  inv_ite (inv_setLane h) (inv_ite (inv_ite (inv_setLane h) (inv_setLane h)) (inv_setLane h))

theorem inv_restartAn {n : Nat} (h : Inv s) : Inv (restartAn s n) := inv_setLane (inv_count h)

theorem inv_downLanes {ns : List Nat} (h : Inv s) : Inv (downLanes s ns) := inv_foldl (fun _ _ => inv_setLane) h

theorem inv_raiseLanes {ns : List Nat} (h : Inv s) : Inv (raiseLanes s ns) :=
  inv_foldl (fun _ _ h' => inv_ite (inv_bringUp h') h') h

theorem inv_startTraining {n : Nat} {l : Lane} (h : Inv s) : Inv (startTraining s n l) :=
  inv_setLane (inv_takeCalib h)

theorem kept_execAnResolution {lane : BitVec 5} {abilities : BitVec 6} {rsReq brReq brAbil : Bool} (h : Inv s) :
    Kept (execAnResolution lane abilities rsReq brReq brAbil s) := by
  unfold execAnResolution
  extract_lets
  refine kept_next (inv_ite ?_ h)
  split
  · exact h
  · exact inv_ite (inv_setLane h) (inv_startTraining h)

theorem kept_execTrainingDone {lane : BitVec 5} (h : Inv s) : Kept (execTrainingDone lane s) :=
  kept_next (inv_ite (inv_setLane h) h)

theorem kept_execTrainingFailure {lane : BitVec 5} (h : Inv s) : Kept (execTrainingFailure lane s) :=
  kept_next (inv_ite (inv_restartAn (inv_count h)) h)

theorem kept_execLockAcquired {lane : BitVec 5} (h : Inv s) : Kept (execLockAcquired lane s) :=
  kept_next (inv_ite (inv_setLane h) h)

theorem inv_discardFrame {p sub : Nat} (h : Inv s) : Inv (discardFrame s p sub) :=
  inv_ite (inv_count (inv_count h)) (inv_count h)

theorem kept_execLossOfLock {lane : BitVec 5} {midFrame : Bool} (h : Inv s) :
    Kept (execLossOfLock lane midFrame s) := by
  unfold execLossOfLock
  extract_lets _ _ t
  have ht : Inv t := inv_ite (inv_discardFrame h) h
  exact kept_next (inv_ite (inv_ite (inv_setLane ht) (inv_restartAn ht)) h)

theorem inv_laneFault {n : Nat} (h : Inv s) : Inv (laneFault s n) := inv_ite h (inv_setLane h)

theorem kept_execPllLossOfLock {group : BitVec 2} (h : Inv s) : Kept (execPllLossOfLock group s) :=
  kept_next (inv_ite h (inv_foldl (fun _ _ => inv_laneFault) h))

theorem kept_execSerdesFault {lane : BitVec 5} (h : Inv s) : Kept (execSerdesFault lane s) :=
  kept_next (inv_laneFault h)

/-! ### Machine/ShpOps.lean -/

theorem inv_setQueue {q : Nat} {x : Queue} (h : Inv s) : Inv (setQueue s q x) := h

theorem inv_setFifo {p : Nat} {fs : List QFrame} (h : Inv s) : Inv (setFifo s p fs) := h

theorem inv_bufRelease {h : Nat} (hI : Inv s) : Inv (bufRelease s h) := by
  unfold bufRelease
  split <;> exact hI

theorem inv_refuse {q idx sub : Nat} (h : Inv s) : Inv (refuse s q idx sub) := inv_countAt (inv_count h)

theorem inv_bufTake {len : Nat} {held : Option Nat} (h : Inv s) : Inv (bufTake s len held).2 := by
  unfold bufTake
  split
  · split <;> exact h
  · exact inv_ite h (inv_count h)

theorem inv_enqueue {q len : Nat} {bytes : List Byte} {held : Option Nat} (h : Inv s) :
    Inv (enqueue s q len bytes held).2 := by
  unfold enqueue
  extract_lets _ _ _ _ _ _ t
  have ht : Inv t.2 := inv_ite_snd (inv_record (inv_ledAccept (inv_bufTake h))) (inv_bufTake h)
  exact inv_ctrAddAt (inv_countAt (inv_countN (inv_count (inv_setQueue (inv_ite ht (inv_count ht))))))

theorem inv_admitOne {q : Nat} {egress : Option Nat} {colour len : Nat} {bytes : List Byte} {held : Option Nat}
    (h : Inv s) : Inv (admitOne s q egress colour len bytes held).2 := by
  unfold admitOne
  split
  · exact inv_refuse h
  · exact inv_ite_snd (inv_refuse (inv_waitRoom h)) (inv_enqueue h)

theorem inv_floodTo {colour len : Nat} {bytes : List Byte} {held : Option Nat} {ps : List Nat} (h : Inv s) :
    Inv (floodTo s colour len bytes held ps) := by
  induction ps generalizing s held with
  | nil => exact h
  | cons p ps ih => exact ih (inv_admitOne (inv_count h))

theorem inv_admitItem {x : Item} (h : Inv s) : Inv (admitItem s x) :=
  inv_ite (inv_admitOne h) (inv_ite (inv_ite (inv_count h) (inv_floodTo h)) (inv_admitOne h))

theorem inv_polPut {n : Nat} {p : PolSt} (h : Inv s) : Inv (polPut s n p) := h

theorem inv_meter {n colour len : Nat} (h : Inv s) : Inv (meter s n colour len).2 := by
  unfold meter
  split
  · exact inv_countAt (inv_countAt h)
  · extract_lets _ _ _ _ _ t
    have ht : Inv t := inv_countAt (inv_polPut h)
    exact inv_ite_snd h (inv_ite (inv_countAt ht) ht)

theorem inv_fillPolicers (h : Inv s) : Inv (fillPolicers s) := h

theorem inv_setNode {l n : Nat} {x : NodeSt} (h : Inv s) : Inv (setNode s l n x) := h

theorem inv_creditNode {l n : Nat} (h : Inv s) : Inv (creditNode s l n) := inv_setNode h

theorem inv_creditNodes (h : Inv s) : Inv (creditNodes s) := inv_foldl (fun _ _ => inv_creditNode) h

theorem inv_zeroBuckets {l n : Nat} (h : Inv s) : Inv (zeroBuckets s l n) := inv_setNode h

theorem inv_commitChoice {len : Nat} {st : Nat × Nat × Choice} (h : Inv s) : Inv (commitChoice s len st) := by
  unfold commitChoice
  extract_lets _ _ _ _ t
  have ht : Inv t := inv_foldl (fun _ _ => inv_setNode) (inv_setNode h)
  exact inv_ite (inv_setNode h) (inv_setNode ht)

theorem inv_chargeNode {len : Nat} {ln : Nat × Nat} (h : Inv s) : Inv (chargeNode s len ln) := inv_setNode h

theorem inv_clearDeficits (h : Inv s) : Inv (clearDeficits s) := h

theorem inv_retireFrame {f : QFrame} {status detail : BitVec 8} (h : Inv s) :
    Inv (retireFrame s f status detail) := by
  unfold retireFrame
  split
  · exact h
  · exact inv_retireRun (inv_ledDone h)

theorem inv_putBack {f : QFrame} (h : Inv s) : Inv (putBack s f) := by
  unfold putBack
  extract_lets t
  have ht : Inv t := by
    dsimp only [t]
    split
    · split
      · exact inv_ite (inv_ledPut h) h
      · exact h
    · exact h
  exact inv_setQueue ht

theorem inv_takeBack {f : QFrame} (h : Inv s) : Inv (takeBack s f) :=
  inv_ite (inv_putBack (inv_count h)) (inv_bufRelease (inv_count h))

theorem inv_emptyFifo {p : Nat} (h : Inv s) : Inv (emptyFifo s p) :=
  inv_foldl (fun _ _ => inv_takeBack) (inv_setFifo h)

theorem inv_portsDown (h : Inv s) : Inv (portsDown s) := by
  unfold portsDown
  extract_lets t _ u
  have ht : Inv t := inv_foldl (fun _ _ h' => inv_ite (inv_emptyFifo h') h') h
  clear_value t
  have hu : Inv u := inv_with ht
  clear_value u
  refine inv_foldl ?_ hu
  intro _ _ h'
  extract_lets _ _ _ v
  have hv : Inv v := inv_setQueue h'
  clear_value v
  exact inv_ite (inv_foldl (fun _ _ h'' => inv_bufRelease (inv_count h'')) hv) h'

theorem inv_flushQueue {q : Nat} (h : Inv s) : Inv (flushQueue s q) := by
  unfold flushQueue
  extract_lets _ _ _ t
  have ht : Inv t := inv_foldl (fun _ _ h' => inv_bufRelease (inv_count (inv_retireFrame h'))) (inv_setQueue h)
  exact inv_objPut ht

theorem inv_enableQueue {q : Nat} (h : Inv s) : Inv (enableQueue s q) := inv_zeroBuckets (inv_setQueue h)

theorem inv_writeEnable {q v : Nat} (h : Inv s) : Inv (writeEnable s q v) := by
  unfold writeEnable
  extract_lets
  split
  · exact inv_ite (inv_enableQueue h) h
  · exact inv_ite (inv_setQueue h) h
  · exact inv_setQueue h

theorem inv_drainEnd {q : Nat} (h : Inv s) : Inv (drainEnd s q) :=
  inv_ite (inv_ite (inv_enableQueue h) (inv_setQueue h)) h

theorem inv_sampleQueue {q : Nat} (h : Inv s) : Inv (sampleQueue s q) := inv_ite (inv_setQueue h) h

theorem inv_observationChange (h : Inv s) : Inv (observationChange s) :=
  inv_ite h (inv_foldl (fun _ _ => inv_setQueue) h)

theorem inv_obsClear {q : Nat} (h : Inv s) : Inv (obsClear s q) := inv_setQueue h

/-! ### Machine/StageMem.lean -/

theorem inv_stgPut {k : Nat} {w : BitVec 512} (h : Inv s) : Inv (stgPut s k w) := h

theorem inv_tcamPut {p t u value mask n : Nat} (h : Inv s) : Inv (tcamPut s p t u value mask n) := by
  induction n generalizing s u value mask with
  | zero => exact h
  | succ n ih => exact ih (inv_with h)

theorem inv_quarantineWord {p t b w : Nat} {tern : Option Nat} (h : Inv s) : Inv (quarantineWord s p t b w tern) :=
  inv_ite h (inv_event (inv_count h))

theorem inv_readWord {p t b w bits : Nat} {tern : Option Nat} (h : Inv s) : Inv (readWord s p t b w bits tern).2 :=
  inv_ite_snd h (inv_ite_snd h (inv_quarantineWord h))

theorem inv_readWords {p t bits : Nat} {l : List (Nat × Nat)} (h : Inv s) : Inv (readWords s p t bits l).2 := by
  induction l generalizing s with
  | nil => exact h
  | cons x l ih => exact ih (inv_readWord h)

theorem inv_entryPut {d : BitVec 512} {p b w i e : Nat} (h : Inv s) : Inv (entryPut s d p b w i e) :=
  inv_record (inv_stgPut h)

theorem inv_ternarySearch {d : BitVec 512} {p key : Nat} {faulty : Bool} {i n : Nat} (h : Inv s) :
    Inv (ternarySearch s d p key faulty i n).2 := by
  induction n generalizing s faulty i with
  | zero => exact h
  | succ n ih =>
    refine inv_ite_snd (inv_ite_snd (inv_ite_snd ?_ ?_) ?_) ?_
    · exact inv_readWord h
    · exact ih (inv_readWord h)
    · exact ih (inv_readWord h)
    · exact ih h

theorem inv_lookTable {d : BitVec 512} {p : Nat} {bus : Bus} (h : Inv s) : Inv (lookTable s d p bus).2 := by
  unfold lookTable
  extract_lets
  split
  · exact inv_ternarySearch h
  · exact inv_ite_snd (inv_readWord h) (inv_readWord h)
  · exact inv_readWords h

theorem inv_keyedPlace {d : BitVec 512} {p op : Nat} {data cmp : BitVec 2048} (h : Inv s) :
    Inv (keyedPlace s d p op data cmp).2 :=
  inv_ite_snd h (inv_readWords h)

theorem inv_indexedPlace {d : BitVec 512} {p index : Nat} (h : Inv s) : Inv (indexedPlace s d p index).2 :=
  inv_ite_snd h (inv_readWord h)

theorem inv_writeEntry {d : BitVec 512} {p index : Nat} {pl : Nat × Nat × Nat} {v : BitVec 2048} (h : Inv s) :
    Inv (writeEntry s d p index pl v) :=
  inv_entryPut (inv_ite (inv_record (inv_tcamPut h)) h)

theorem inv_stageCommand {d : BitVec 512} {p op index : Nat} {data cmp : BitVec 2048} (h : Inv s) :
    Inv (stageCommand s d p op index data cmp).2 := by
  unfold stageCommand
  split
  · exact h
  · split
    · exact h
    · extract_lets t
      have ht : Inv t.2 := inv_ite_snd (inv_keyedPlace h) (inv_indexedPlace h)
      refine inv_ite_snd ht ?_
      split
      · exact ht
      · split
        · exact inv_writeEntry ht
        · exact ht
      · exact ht
      · exact inv_writeEntry ht
      · exact ht
      · exact inv_ite_snd (inv_writeEntry ht) ht
      · exact inv_writeEntry ht

theorem inv_noteScrub {ok : Bool} (h : Inv s) : Inv (noteScrub s ok) := inv_ite h h

theorem inv_scrubStage {p t : Nat} (h : Inv s) : Inv (scrubStage s p t) := by
  unfold scrubStage
  extract_lets _ u
  have hu : Inv u := inv_foldl (fun _ _ hv => inv_noteScrub (inv_readWord hv)) h
  clear_value u
  exact hu

theorem inv_installWord {img : Image} {priv : List (BitVec 512)} {p n : Nat} (h : Inv s) :
    Inv (installWord s img priv p n) := by
  unfold installWord
  refine inv_foldl (fun t k ht => ?_) h
  extract_lets u
  have hu : Inv u := by
    dsimp only [u]
    split
    · exact inv_stgPut ht
    · exact ht
  clear_value u
  split
  · refine inv_foldl (fun v j hv => ?_) hu
    exact hv
  · exact hu

/-! ### Machine/Trust.lean -/

theorem inv_burnEnds (h : Inv s) : Inv (burnEnds s) := h

theorem inv_completeBanks (h : Inv s) : Inv (completeBanks s) := h

theorem inv_signDigest {d : BitVec 256} (h : Inv s) : Inv (signDigest s d).2 := h

/-! ### Machine/Timetable.lean -/

theorem inv_ttSet {t : Tt} (h : Inv s) : Inv (ttSet s t) := inv_ite h h

theorem inv_ttReason {r : BitVec 8} (h : Inv s) : Inv (ttReason s r) := inv_ttSet h

theorem inv_ttRefuse (h : Inv s) : Inv (ttRefuse s) := inv_ttReason h

theorem inv_relock {a b : Nat} (h : Inv s) : Inv (relock s a b) := h

theorem inv_startVerify (h : Inv s) : Inv (startVerify s) := inv_record (inv_ttSet (inv_ite (inv_lockHbm h) h))

theorem inv_doVerify (h : Inv s) : Inv (doVerify s) := by
  refine inv_ite (inv_ttRefuse h) ?_
  split
  · exact inv_startVerify h
  · exact inv_startVerify h
  · exact inv_ttReason h
  · exact inv_ttRefuse h

theorem kept_execVerify (h : Inv s) : Kept (execVerify s) := kept_next (inv_ite (inv_doVerify h) h)

theorem inv_dropStaged (h : Inv s) : Inv (dropStaged s) := inv_unlockHbm (inv_ttSet h)

theorem inv_treeWrite {a : Nat} {bs : List Byte} (h : Inv s) : Inv (treeWrite s a bs) := inv_hbmWrite (inv_hbmWrite h)

theorem inv_startInstall (h : Inv s) : Inv (startInstall s) := by
  unfold startInstall
  split
  · exact h
  · exact inv_record (inv_ttSet h)

theorem inv_doInstall (h : Inv s) : Inv (doInstall s) := inv_ite (inv_startInstall h) (inv_ttRefuse h)

theorem kept_execInstall (h : Inv s) : Kept (execInstall s) := kept_next (inv_doInstall h)

theorem inv_doVerifyDone (h : Inv s) : Inv (doVerifyDone s) := by
  unfold doVerifyDone
  split
  · extract_lets
    split
    · exact inv_ttReason (inv_dropStaged (inv_ite (inv_count (inv_ttSet (inv_count h))) (inv_count h)))
    · exact inv_ite (inv_doInstall (inv_ttSet h)) (inv_ttSet h)
  · exact h

theorem kept_execVerifyDone (h : Inv s) : Kept (execVerifyDone s) := kept_next (inv_doVerifyDone h)

theorem inv_doArm (h : Inv s) : Inv (doArm s) := by
  refine inv_ite (inv_ttRefuse h) ?_
  split
  · exact h
  · exact inv_ite (inv_ttReason h) (inv_ite (inv_ttReason h) (inv_record (inv_ttSet h)))

theorem kept_execArm (h : Inv s) : Kept (execArm s) := kept_next (inv_doArm h)

theorem inv_doInstallDone (h : Inv s) : Inv (doInstallDone s) := by
  unfold doInstallDone
  split
  · extract_lets t
    have ht : Inv t := by
      dsimp only [t]
      split
      · exact inv_treeWrite h
      · exact h
    exact inv_ite (inv_doArm (inv_ttSet (inv_ttSet ht))) (inv_ttSet ht)
  · exact h

theorem kept_execInstallDone (h : Inv s) : Kept (execInstallDone s) := kept_next (inv_doInstallDone h)

theorem inv_doDiscard (h : Inv s) : Inv (doDiscard s) := by
  refine inv_ite (inv_ttRefuse h) ?_
  split
  · exact inv_ttReason (inv_dropStaged h)
  · exact inv_ttReason (inv_dropStaged h)
  · exact inv_ttReason (inv_dropStaged h)
  · exact inv_ttReason (inv_dropStaged h)
  · exact inv_ttReason h

theorem kept_execDiscard (h : Inv s) : Kept (execDiscard s) := kept_next (inv_doDiscard h)

theorem inv_doCancelArm (h : Inv s) : Inv (doCancelArm s) :=
  inv_ite (inv_record (inv_ttSet h)) (inv_ite (inv_ttReason h) (inv_ttReason h))

theorem kept_execCancelArm (h : Inv s) : Kept (execCancelArm s) := kept_next (inv_doCancelArm h)

theorem inv_makeCurrent (h : Inv s) : Inv (makeCurrent s) := by
  unfold makeCurrent
  split
  · exact h
  · exact inv_record (inv_observationChange (inv_count (inv_ttSet (inv_relock (inv_relock h)))))

theorem inv_closeOverlap (h : Inv s) : Inv (closeOverlap s) := inv_ite (inv_unlockHbm (inv_ttSet h)) h

theorem inv_countOverlap (h : Inv s) : Inv (countOverlap s) := inv_ite (inv_ctrAddAt (inv_ttSet h)) h

theorem inv_headerLost {gen : Bool} (h : Inv s) : Inv (headerLost s gen) := by
  unfold headerLost
  split
  · exact inv_hardFault h
  · extract_lets t
    have ht : Inv t := by
      dsimp only [t]
      split
      · exact inv_dropStaged h
      · exact inv_dropStaged h
      · exact inv_dropStaged h
      · exact inv_dropStaged h
      · exact inv_dropStaged h
      · exact h
    exact inv_ite ht (inv_ttSet ht)

theorem inv_checkHeaders (h : Inv s) : Inv (checkHeaders s) := by
  unfold checkHeaders
  extract_lets _ _ t _ u _ v
  have ht : Inv t := inv_event (inv_count (inv_ttSet h))
  have hu : Inv u := by
    dsimp only [u]
    split
    · exact h
    · exact inv_ite (inv_ttSet h) (inv_ite (inv_headerLost ht) (inv_ttSet ht))
  have hv : Inv v := inv_event (inv_count (inv_ttSet hu))
  split
  · exact hu
  · exact inv_ite (inv_ttSet hu) (inv_ite (inv_headerLost hv) (inv_ttSet hv))

theorem inv_upsetHeader {u : Option (Bool × BitVec 1024)} (h : Inv s) : Inv (upsetHeader s u) := by
  unfold upsetHeader
  split
  · exact h
  · exact inv_ttSet h
  · exact inv_ttSet h

theorem inv_endDrainTt (h : Inv s) : Inv (endDrainTt s) := inv_ite (inv_ttSet (inv_unlockHbm (inv_unlockHbm h))) h

/-! ### Machine/Parser.lean -/

theorem inv_setRxBuf {p : Nat} {fs : List RxFrame} (h : Inv s) : Inv (setRxBuf s p fs) := h

theorem inv_divertInband {p : Nat} {bytes : List Byte} (h : Inv s) : Inv (divertInband s p bytes) :=
  inv_ite (inv_count h) h

theorem inv_acceptFrame {p : Nat} {bytes : List Byte} {slots : Nat} (h : Inv s) :
    Inv (acceptFrame s p bytes slots) := by
  unfold acceptFrame
  extract_lets t
  have ht : Inv t := inv_countN (inv_count h)
  exact inv_ite (inv_count ht) (inv_ite (inv_divertInband ht) (inv_ite (inv_count ht) (inv_ite (inv_count ht)
      (inv_setRxBuf (inv_with ht)))))

theorem kept_execFrameReceived {port : BitVec 5} {bytes : List Byte} {fcsOk cut : Bool} {slots : Nat} (h : Inv s) :
    Kept (execFrameReceived port bytes fcsOk cut s slots) :=
  kept_next (inv_ite h (inv_ite (inv_discardFrame h) (inv_ite (inv_discardFrame h) (inv_ite (inv_discardFrame h)
    (inv_ite (inv_discardFrame h) (inv_acceptFrame h))))))

theorem inv_countScan {p n lists : Nat} (h : Inv s) : Inv (countScan s p n lists) :=
  inv_ite (inv_count (inv_countN h)) (inv_countN h)

theorem kept_execRawHitListComplete {port : BitVec 5} {frame : Nat} (h : Inv s) :
    Kept (execRawHitListComplete port frame s) := by
  unfold execRawHitListComplete
  extract_lets
  refine kept_next ?_
  split
  · exact inv_countScan (inv_setRxBuf h)
  · split
    · exact inv_ite h (inv_countScan (inv_itemPut h))
    · exact h

theorem inv_ingress {slot p lane : Nat} (h : Inv s) : Inv (ingress s slot p lane) := by
  unfold ingress
  extract_lets
  split
  · exact h
  · extract_lets t
    have ht : Inv t := inv_setRxBuf h
    clear_value t
    exact inv_count ht

theorem kept_execIngressSlot {slot : BitVec 12} {p : BitVec 2} {rowOk : Bool} (h : Inv s) :
    Kept (execIngressSlot slot p rowOk s) :=
  kept_next (inv_ite (inv_rowFailed (inv_atSlot h)) (inv_ite (inv_ingress (inv_atSlot h)) (inv_atSlot h)))

theorem kept_execParserNodeStep {item : Nat} (h : Inv s) : Kept (execParserNodeStep item s) := by
  refine kept_next ?_
  split
  · exact h
  · split
    · exact inv_ite h (inv_itemPut h)
    · exact h

theorem kept_execParserOutput {item : Nat} (h : Inv s) : Kept (execParserOutput item s) := by
  refine kept_next ?_
  split
  · exact h
  · exact inv_ite (inv_ite (inv_itemPut h) (inv_ite (inv_itemRemove (inv_count (inv_count h))) (inv_itemPut (inv_count
        (inv_count h))))) h

theorem kept_execMatchSetFinal {item : Nat} (h : Inv s) : Kept (execMatchSetFinal item s) := by
  refine kept_next ?_
  split
  · exact h
  · split
    · exact h
    · exact h
    · exact inv_itemPut (inv_ite (inv_count (inv_countN h)) (inv_countN h))

end Sys2Proof.Machine.Laws
end

section
/-! SUPPORT. The operations of the host interface, the DMA engines and the cipher engines, and the loss of a frame,
keep the invariant. -/

namespace Sys2Proof.Machine.Laws

open Sys2Proof Sys2Proof.Machine

variable {s : State}

/-! ### Machine/HostOps.lean -/

theorem inv_fnPut {link fn : Nat} {f : Fn} (h : Inv s) : Inv (fnPut s link fn f) := h

theorem inv_aerLog {link fn bit : Nat} (h : Inv s) : Inv (aerLog s link fn bit) := inv_fnPut h

theorem inv_linkPut {k : Nat} {l : Link} (h : Inv s) : Inv (linkPut s k l) := by
  have hset : Inv { s with hst := { s.hst with links := lset s.hst.links k l } } := by
    obtain ⟨hmem, hnor, hslot, hlanes, hctl, hlinks, hrest⟩ := h
    exact ⟨hmem, hnor, hslot, hlanes, hctl, (length_lset ..).trans hlinks, hrest⟩
  exact inv_ite hset (inv_event hset)

theorem inv_wakeLink {k : Nat} (h : Inv s) : Inv (wakeLink s k) := inv_ite h (inv_linkPut h)

theorem inv_countLink {k sub : Nat} (h : Inv s) : Inv (countLink s k sub) := inv_count h

theorem inv_barGate {link fn : Nat} {act : State → State} (h : Inv s) (hact : ∀ t, Inv t → Inv (act t)) :
    Inv (barGate s link fn act) :=
  inv_ite h (inv_ite (inv_aerLog h) (hact _ h))

theorem inv_raiseVector {link fn v : Nat} (h : Inv s) : Inv (raiseVector s link fn v) :=
  inv_ite (inv_emit (inv_wakeLink h)) (inv_ite h (inv_fnPut h))

theorem inv_setSlice {n : Nat} {x : Slice} (h : Inv s) : Inv (setSlice s n x) := h

theorem inv_translate {owner : Option Nat} {r : Nat × Nat × Option Nat} {addr : Nat} {write : Bool} (h : Inv s) :
    Inv (Machine.translate s owner r addr write).2 := by
  unfold Machine.translate
  extract_lets
  refine inv_ite_snd h (inv_ite_snd h ?_)
  split
  · exact h
  · exact inv_ite_snd h (inv_countLink (inv_emit (inv_wakeLink h)))

theorem inv_atcDrop {link fn : Nat} (h : Inv s) : Inv (atcDrop s link fn) := h

theorem invSome_sendRead {r : Nat × Nat × Option Nat} {addr len ch unit part : Nat} {page : Option Nat} (h : Inv s) :
    InvSome (sendRead s r addr len ch unit part page) := by
  refine invSome_ite invSome_none ?_
  split
  · exact invSome_none
  · exact invSome_some (inv_emit (inv_wakeLink h))

theorem inv_quarantineReads {which : HRead → Bool} (h : Inv s) : Inv (quarantineReads s which) := h

theorem inv_hostWrite {r : Nat × Nat × Option Nat} {addr : Nat} {bs : List Byte} {relaxed : Bool} (h : Inv s) :
    Inv (hostWrite s r addr bs relaxed) :=
  inv_ite h (inv_emit (inv_wakeLink h))

theorem inv_hostPost {owner : Option Nat} {r : Nat × Nat × Option Nat} {addr : Nat} {bs : List Byte} (h : Inv s) :
    Inv (hostPost s owner r addr bs).2 := by
  unfold hostPost
  split
  next e =>
    exact inv_hostWrite (inv_of_snd (inv_translate h) e)
  next e =>
    exact inv_of_snd (inv_translate h) e

theorem inv_qpPut {k : Nat} {x : Qp} (h : Inv s) : Inv (qpPut s k x) := h

theorem inv_setBox {k : Nat} {b : Mailbox} (h : Inv s) : Inv (setBox s k b) := by
  obtain ⟨hmem, hnor, hslot, hlanes, hctl, hlinks, hboxes, hrest⟩ := h
  exact ⟨hmem, hnor, hslot, hlanes, hctl, hlinks, (length_lset ..).trans hboxes, hrest⟩

theorem inv_boxReply {k : Nat} {bs : List Byte} (h : Inv s) : Inv (boxReply s k bs) := inv_raiseVector (inv_setBox h)

theorem inv_boxEvent {k : Nat} {bs : List Byte} (h : Inv s) : Inv (boxEvent s k bs) := inv_raiseVector (inv_setBox h)

theorem inv_boxLeaves {x : Session} (h : Inv s) : Inv (boxLeaves s x) := inv_ite (inv_boxReply h) h

/-! ### Machine/DmaOps.lean -/

theorem inv_recordChan {c : Nat} {x y : Chan} (h : Inv s) : Inv (recordChan s c x y) :=
  inv_ite (inv_foldl (fun _ _ h' => inv_ite h' (inv_record h')) h) h

theorem inv_setChan {c : Nat} {x : Chan} (h : Inv s) : Inv (setChan s c x) := inv_recordChan h

theorem inv_putResult {cl ch : Nat} {msg : BitVec 512} {eng entry : Option Nat} (h : Inv s) :
    Inv (putResult s cl ch msg eng entry) :=
  inv_setChannel h

theorem inv_dmaNotify {c : Nat} {x : Chan} (h : Inv s) : Inv (dmaNotify s c x) := inv_ite (inv_raiseVector h) h

theorem inv_dmaCount {c : Nat} {status : BitVec 8} {done : Nat} (h : Inv s) : Inv (dmaCount s c status done) := by
  unfold dmaCount
  extract_lets
  split
  · exact inv_count (inv_ctrAddAt (inv_countAt (inv_countN (inv_count h))))
  · exact inv_count (inv_ctrAddAt (inv_countAt (inv_countN (inv_count h))))
  · exact inv_count (inv_ctrAddAt (inv_countAt (inv_countN (inv_count h))))
  · exact inv_count (inv_ctrAddAt (inv_countAt (inv_countN (inv_count h))))
  · exact inv_ctrAddAt (inv_countAt (inv_countN (inv_count h)))

theorem inv_orphanRequest {c : Nat} (h : Inv s) : Inv (orphanRequest s c) := h

theorem inv_recordDescs {qp head esz : Nat} {bs : List Byte} (h : Inv s) : Inv (recordDescs s qp head esz bs) :=
  inv_foldl (fun _ _ => inv_record) h

theorem inv_freeBytes {k a n : Nat} (h : Inv s) : Inv (freeBytes s k a n) :=
  inv_foldl (fun _ _ => inv_hbmStore) h

theorem inv_freeBeyond {x : Chan} {status : BitVec 8} {done : Nat} (h : Inv s) : Inv (freeBeyond s x status done) :=
  inv_ite h (inv_foldl (fun _ _ => inv_freeBytes) h)

theorem inv_flrReset {c : Nat} (h : Inv s) : Inv (flrReset s c) := inv_ite (inv_setChan h) h

theorem inv_dmaComplete {c : Nat} {status detail : BitVec 8} {done : Nat} (h : Inv s) :
    Inv (dmaComplete s c status detail done) := by
  unfold dmaComplete
  extract_lets _ _ _ _ _ t
  have ht : Inv t := inv_flrReset (inv_dmaCount (inv_freeBeyond (inv_setChan (inv_orphanRequest (inv_quarantineReads
      h)))))
  split
  · exact inv_dmaNotify ht
  · exact inv_putResult (inv_dmaNotify ht)
  · exact inv_ite (inv_recordDescs (inv_qpPut ht)) (inv_qpPut ht)

theorem inv_dmaHalt {c addr : Nat} {detail : BitVec 8} {dir list : Bool} (h : Inv s) :
    Inv (dmaHalt s c addr detail dir list) := by
  unfold dmaHalt
  extract_lets _ _ _ t
  have ht : Inv t := inv_count (inv_setChan h)
  split
  · exact inv_putResult (inv_dmaNotify ht)
  · exact inv_dmaNotify ht

theorem inv_stopComplete {c : Nat} {status detail : BitVec 8} (h : Inv s) : Inv (stopComplete s c status detail) :=
  inv_dmaComplete (inv_count h)

theorem inv_dmaStop {c : Nat} {status detail : BitVec 8} (h : Inv s) : Inv (dmaStop s c status detail) := by
  unfold dmaStop
  extract_lets
  split
  · exact inv_ite (inv_stopComplete (inv_quarantineReads h)) (inv_setChan (inv_quarantineReads h))
  · exact inv_ite (inv_stopComplete (inv_quarantineReads h)) (inv_setChan (inv_quarantineReads h))
  · exact inv_ite (inv_stopComplete (inv_quarantineReads h)) (inv_setChan (inv_quarantineReads h))
  · exact h

theorem inv_dmaStopAll {which : Nat → Chan → Bool} {status detail : BitVec 8} (h : Inv s) :
    Inv (dmaStopAll s which status detail) :=
  inv_foldl (fun _ _ => inv_dmaStop) h

theorem inv_dmaPairFault {c : Nat} {beforeUnit : Bool} (h : Inv s) : Inv (dmaPairFault s c beforeUnit) := by
  unfold dmaPairFault
  extract_lets _ t
  have ht : Inv t := inv_dmaComplete (inv_count h)
  exact inv_ite (inv_event (inv_setChan ht)) ht

theorem inv_dmaStart {c : Nat} {x : Chan} {route : Route} {owner : Option Nat} (h : Inv s) :
    Inv (dmaStart s c x route owner) :=
  inv_ite (inv_dmaComplete (inv_setChan h)) (inv_setChan h)

/-! ### Machine/CipOps.lean -/

theorem inv_creqPut {r : CReq} (h : Inv s) : Inv (creqPut s r) := h

theorem inv_setEng {e : Nat} {x : CEng} (h : Inv s) : Inv (setEng s e x) := h

theorem inv_cipherIssue {src : CSrc} {raw : BitVec 512} {owner : Option Nat} (h : Inv s) :
    Inv (cipherIssue s src raw owner) :=
  h

theorem inv_cipStop {which : CReq → Bool} {status detail : BitVec 8} (h : Inv s) :
    Inv (cipStop s which status detail) :=
  h

theorem inv_slotUse {n : Nat} {k : KenSlot} (h : Inv s) : Inv (slotUse s n k) := h

theorem inv_slotWrap {n : Nat} (h : Inv s) : Inv (slotWrap s n) := h

theorem inv_slotPut {n : Nat} {k : KenSlot} (h : Inv s) : Inv (slotPut s n k) := by
  unfold slotPut
  extract_lets t
  have ht : Inv t := by
    dsimp only [t]
    split
    · exact inv_record h
    · exact h
  exact inv_slotWrap (inv_slotUse ht)

theorem invSome_cacheIn {n : Nat} (h : Inv s) : InvSome (cacheIn s n) := by
  unfold cacheIn
  extract_lets
  refine invSome_ite (invSome_some h) ?_
  split
  · exact invSome_some h
  · exact invSome_none

theorem inv_cacheTouch {n : Nat} {missed : Bool} (h : Inv s) : Inv (cacheTouch s n missed) := by
  unfold cacheTouch
  extract_lets t
  have ht : Inv t := inv_ite h (inv_count h)
  exact inv_getD ht (invSome_cacheIn ht)

theorem inv_fetchSlot {n : Nat} (h : Inv s) : Inv (fetchSlot s n) := inv_ite h h

theorem inv_kenComplete {r : KReq} {status detail gen : Nat} (h : Inv s) :
    Inv (kenComplete s r status detail gen) := by
  unfold kenComplete
  extract_lets _ t _ u
  have ht : Inv t := inv_count h
  clear_value t
  have hu : Inv u := inv_ite (inv_putResult ht) ht
  clear_value u
  exact inv_ledDone hu

theorem inv_settleErases (h : Inv s) : Inv (settleErases s) := inv_foldl (fun _ _ => inv_kenComplete) h

theorem inv_scrub {n : Nat} (h : Inv s) : Inv (scrub s n) := inv_settleErases (inv_slotPut h)

theorem inv_keyRelease {n gen : Nat} (h : Inv s) : Inv (keyRelease s n gen) :=
  inv_ite (inv_scrub (inv_slotUse (inv_ite h h))) (inv_settleErases (inv_slotUse (inv_ite h h)))

theorem inv_quarantineSlot {n : Nat} (h : Inv s) : Inv (quarantineSlot s n) :=
  inv_cipStop (inv_event (inv_count (inv_slotPut h)))

theorem inv_slotWrite {n kind material : Nat} {owner : Option Nat} (h : Inv s) :
    Inv (slotWrite s n kind material owner).2 := by
  unfold slotWrite
  extract_lets
  split
  · exact inv_count h
  · exact inv_slotPut h
  · exact inv_slotPut h
  · exact inv_ite_snd (inv_count h) (inv_ite_snd (inv_slotPut h) (inv_ite_snd (inv_count h) (inv_slotPut h)))

theorem invSome_kenAccept {q : KReq} (h : Inv s) : InvSome (kenAccept s q) :=
  invSome_ite invSome_none (invSome_some (inv_ledAccept h))

theorem inv_kenTake {l : List KReq} (h : Inv s) : Inv (kenTake s l) := by
  induction l generalizing s with
  | nil => exact h
  | cons q l ih =>
    unfold kenTake
    split
    next t e => exact ih (invSome_kenAccept h _ e)
    next => exact inv_noteWait h

theorem inv_kenPump (h : Inv s) : Inv (kenPump s) := inv_kenTake h

/-- An operation of a core on a key slot: what it answers keeps the invariant where its effect on the slot does. -/
theorem inv_coreKeyOp {sl n : Nat} {eff : State → (Nat × Nat × Nat) × State} {r : Nat × State} (h : Inv s)
    (heff : ∀ t, Inv t → Inv (eff t).2) (e : coreKeyOp s sl n eff = some r) : Inv r.2 := by
  unfold coreKeyOp at e
  split at e
  · cases e
  · extract_lets q t u _ v at e
    have hu : Inv u := inv_count (heff _ (inv_cacheTouch (inv_ledRun (inv_ledAccept h))))
    clear_value u
    have hv : Inv v := hu
    cases e
    exact inv_ledDone hv

/-! ### Machine/Dma.lean -/

theorem inv_unitPut {c : Nat} {u : DUnit} (h : Inv s) : Inv (unitPut s c u) := inv_setChan h

theorem inv_unitFail {c uid : Nat} {detail : BitVec 8} {write side : Bool} (h : Inv s) :
    Inv (unitFail s c uid detail write side) :=
  inv_setChan h

theorem inv_readData {c uid part : Nat} {bs : List Byte} (h : Inv s) : Inv (readData s c uid part bs) := inv_setChan h

theorem inv_pumpRead {c : Nat} {u : DUnit} {part : Nat} {r : DRead} (h : Inv s) : Inv (pumpRead s c u part r) := by
  unfold pumpRead
  extract_lets
  split
  · exact h
  · split
    · exact inv_readData h
    · split
      · exact inv_unitFail h
      · split
        · exact h
        · split
          next e =>
            exact inv_of_snd (inv_translate h) e
          next e =>
            exact inv_unitFail (inv_of_snd (inv_translate h) e)
          next e =>
            exact inv_getD (inv_of_snd (inv_translate h) e) (invSome_sendRead (inv_of_snd (inv_translate h) e))

theorem inv_pumpReads {c : Nat} {u : DUnit} {k : Nat} {l : List DRead} (h : Inv s) : Inv (pumpReads s c u k l) := by
  induction l generalizing s k with
  | nil => exact h
  | cons r l ih => exact ih (inv_pumpRead h)

theorem inv_settleFails {c : Nat} (h : Inv s) : Inv (settleFails s c) := by
  unfold settleFails
  extract_lets
  split
  · exact h
  · split
    · exact inv_dmaHalt h
    · exact inv_dmaHalt h
    · exact inv_setChan h
    · exact h

theorem inv_pumpChan {c : Nat} (h : Inv s) : Inv (pumpChan s c) := by
  unfold pumpChan
  extract_lets t
  have ht : Inv t := inv_foldl (fun _ _ h' => inv_ite h' (inv_pumpReads h')) h
  exact inv_settleFails ht

theorem inv_pumpAll (h : Inv s) : Inv (pumpAll s) := by
  refine inv_foldl (fun _ _ h' => ?_) h
  split
  · exact inv_pumpChan h'
  · exact inv_pumpChan h'
  · exact inv_pumpChan h'
  · exact h'

theorem inv_issueUnit {c : Nat} (h : Inv s) : Inv (issueUnit s c) := by
  unfold issueUnit
  extract_lets
  refine inv_ite (inv_dmaPairFault h) ?_
  split
  · exact inv_pumpChan (inv_unitPut h)
  · exact inv_ite (inv_pumpChan (inv_setChan h)) (inv_pumpChan (inv_setChan h))

theorem inv_grantDma {k : Nat} (h : Inv s) : Inv (grantDma s k) := by
  unfold grantDma
  extract_lets
  refine inv_ite h ?_
  split
  · exact inv_count h
  · exact inv_issueUnit h

theorem kept_execDmaGrant {slot : BitVec 12} {k : BitVec 2} {rowOk : Bool} (h : Inv s) :
    Kept (execDmaGrant slot k rowOk s) :=
  kept_next (inv_ite (inv_rowFailed (inv_atSlot h)) (inv_grantDma (inv_atSlot h)))

theorem inv_dmaIgnored {c : Nat} (h : Inv s) : Inv (dmaIgnored s c) := inv_count (inv_setChan h)

theorem inv_ctrlWrite {c : Nat} {w : BitVec 64} (h : Inv s) : Inv (ctrlWrite s c w) :=
  inv_ite (inv_dmaIgnored h) (inv_ite (inv_setChan h) (inv_ite (inv_dmaIgnored (inv_setChan h)) (inv_ite h
    (inv_dmaStart h))))

theorem kept_execChannelStart {ch : BitVec 12} {ctrl : BitVec 64} (h : Inv s) : Kept (execChannelStart ch ctrl s) :=
  kept_next (inv_ctrlWrite h)

theorem inv_dmaCipherPump (h : Inv s) : Inv (dmaCipherPump s) := inv_foldl (fun _ _ => inv_cipherIssue) h

theorem inv_chanActivate {c : Nat} {x : Chan} (h : Inv s) : Inv (chanActivate s c x) :=
  inv_ite (inv_dmaCipherPump (inv_setChan h)) (inv_setChan h)

theorem kept_execPrecheckDone {ch : BitVec 12} (h : Inv s) : Kept (execPrecheckDone ch s) := by
  unfold execPrecheckDone
  extract_lets
  split
  · refine kept_ite (kept_next (inv_dmaPairFault h)) (kept_ite (kept_next (inv_dmaComplete h)) (kept_ite (kept_next h)
        ?_))
    split
    · exact kept_next (inv_dmaComplete h)
    · exact kept_next (inv_chanActivate h)
  · exact kept_next h

/-- The pieces of a write, each to device memory or to the host, up to the one that stops it. -/
theorem inv_writePieces {x : Chan} {l : List (Nat × Nat)} {bs : List Byte} {t : State} (h : Inv s)
    (e : writePieces s x l bs = some (.ok t)) : Inv t := by
  induction l generalizing s bs with
  | nil => cases e; exact h
  | cons p l ih =>
    unfold writePieces at e
    split at e
    · split at e
      · cases e
      · exact ih (inv_hbmWrite h) e
    · split at e
      · cases e
      · split at e
        · cases e
        · split at e
          · cases e
          · split at e
            · cases e
            · cases e
            next he => exact ih (inv_hostWrite (inv_of_snd (inv_translate h) he)) e

theorem inv_askWrites {x : Chan} {l : List (Nat × Nat)} (h : Inv s) : Inv (askWrites s x l) := by
  induction l generalizing s with
  | nil => exact h
  | cons p l ih =>
    unfold askWrites
    split
    · exact h
    · split
      · exact h
      · exact ih (inv_translate h)

theorem inv_unitDone {c : Nat} {u : DUnit} (h : Inv s) : Inv (unitDone s c u) := inv_setChan h

theorem inv_writeChunk {c : Nat} {u : DUnit} {bs : List Byte} (h : Inv s) : Inv (writeChunk s c u bs) := by
  unfold writeChunk
  extract_lets
  split
  · exact inv_askWrites h
  · exact inv_settleFails (inv_unitFail h)
  next e => exact inv_unitDone (inv_writePieces h e)

theorem inv_flushStaged {c : Nat} (h : Inv s) : Inv (flushStaged s c) := by
  refine inv_foldl (fun _ _ h' => ?_) h
  split
  · exact inv_writeChunk h'
  · exact h'

theorem inv_finishChan {c : Nat} (h : Inv s) : Inv (finishChan s c) := by
  unfold finishChan
  extract_lets
  refine inv_ite h ?_
  split
  · exact inv_ite (inv_ite (inv_dmaComplete h) h) (inv_ite (inv_dmaComplete (inv_flushStaged h)) (inv_flushStaged h))
  · exact inv_ite (inv_dmaComplete (inv_setChan h)) h

theorem inv_chunkFinished {c : Nat} {u : DUnit} (h : Inv s) : Inv (chunkFinished s c u) :=
  inv_finishChan (inv_unitDone h)

theorem inv_listRead {c : Nat} {u : DUnit} (h : Inv s) : Inv (listRead s c u) :=
  inv_ite (inv_setChan h) (inv_setChan h)

theorem inv_stage {c : Nat} {u : DUnit} (h : Inv s) : Inv (stage s c u) := inv_ite h (inv_setChan h)

theorem inv_runChunk {c : Nat} {u : DUnit} (h : Inv s) : Inv (runChunk s c u) := by
  unfold runChunk
  extract_lets
  refine inv_ite (inv_ite (inv_chunkFinished h) (inv_ite (inv_dmaComplete h) h)) (inv_ite (inv_chunkFinished
      (inv_setChan h)) (inv_ite h ?_))
  split
  · exact inv_stage h
  · exact inv_finishChan (inv_writeChunk (inv_stage h))

theorem inv_memoryFails {c : Nat} {u : DUnit} {r : DRead} (h : Inv s) : Inv (memoryFails s c u r) :=
  inv_settleFails (inv_unitFail (inv_event h))

theorem kept_execChunkDone {ch : BitVec 12} {unit : Nat} {memOk : Bool} (h : Inv s) :
    Kept (execChunkDone ch unit memOk s) := by
  unfold execChunkDone
  extract_lets
  split
  · exact kept_next h
  · refine kept_ite (kept_next h) ?_
    split
    · exact kept_next (inv_memoryFails h)
    · split
      · split
        · exact kept_next (inv_stopComplete (inv_setChan h))
        · exact kept_next (inv_setChan h)
      · exact kept_ite (kept_next (inv_runChunk h)) (kept_ite (kept_next (inv_listRead h)) (kept_next h))
      · exact kept_ite (kept_next (inv_runChunk h)) (kept_ite (kept_next (inv_listRead h)) (kept_next h))
      · exact kept_ite (kept_next (inv_runChunk h)) (kept_ite (kept_next (inv_listRead h)) (kept_next h))
      · exact kept_next h

theorem inv_dmaAbort {c : Nat} (h : Inv s) : Inv (dmaAbort s c) :=
  inv_ite (inv_dmaComplete (inv_count h)) (inv_dmaIgnored h)

theorem inv_dmaRetry {c : Nat} (h : Inv s) : Inv (dmaRetry s c) :=
  inv_ite (inv_finishChan (inv_setChan (inv_quarantineReads (inv_count h)))) (inv_dmaIgnored h)

theorem inv_dmaClear {c : Nat} (h : Inv s) : Inv (dmaClear s c) := inv_ite (inv_setChan h) (inv_dmaIgnored h)

theorem kept_execDmaAbort {ch : BitVec 12} (h : Inv s) : Kept (execDmaAbort ch s) := kept_next (inv_dmaAbort h)

theorem kept_execDmaRetry {ch : BitVec 12} (h : Inv s) : Kept (execDmaRetry ch s) := kept_next (inv_dmaRetry h)

theorem kept_execDmaClear {ch : BitVec 12} (h : Inv s) : Kept (execDmaClear ch s) := kept_next (inv_dmaClear h)

theorem inv_dmaRegWrite {c off : Nat} {v : BitVec 64} (h : Inv s) : Inv (dmaRegWrite s c off v) := by
  unfold dmaRegWrite
  extract_lets
  refine inv_ite (inv_setChan h) (inv_ite ?_ (inv_ite (inv_ctrlWrite h) (inv_ite (inv_dmaIgnored h) (inv_ite
      (inv_setChan h) (inv_ite (inv_setChan h) (inv_ite (inv_setChan h) (inv_ite (inv_setChan h) (inv_ite (inv_setChan
      h) (inv_ite (inv_setChan h) (inv_ite (inv_setChan h) (inv_ite (inv_setChan h) h)))))))))))
  split
  · exact inv_dmaAbort h
  · exact inv_dmaRetry h
  · exact inv_dmaClear h
  · exact h

theorem inv_dmaWideWrite {c off : Nat} {v : BitVec 64} (h : Inv s) : Inv (dmaWideWrite s c off v) :=
  inv_ite (inv_dmaRegWrite h) (inv_ite (inv_dmaRegWrite (inv_dmaRegWrite h)) (inv_ite (inv_dmaIgnored h) (inv_ite
    (inv_ite (inv_dmaRegWrite (inv_dmaRegWrite h)) (inv_dmaIgnored h)) (inv_dmaRegWrite (inv_dmaRegWrite h)))))

/-! ### Machine/Loss.lean -/

theorem inv_hostFix {entry : Nat} {status detail : BitVec 8} {result : BitVec 64} (h : Inv s) :
    Inv (hostFix s entry status detail result) := by
  unfold hostFix
  split
  · exact h
  · extract_lets _ t _ _ _ u
    have ht : Inv t := inv_ledMetaSet h
    clear_value t
    have hu : Inv u := by
      dsimp only [u]
      split <;> exact ht
    clear_value u
    exact inv_ledFix hu

theorem inv_hostDone {entry : Nat} {status detail : BitVec 8} {result : BitVec 64} (h : Inv s) :
    Inv (hostDone s entry status detail result) :=
  inv_ite h (inv_hostFix h)

theorem inv_stopOps {entry : Nat} (h : Inv s) : Inv (stopOps s entry) := inv_cipStop (inv_dmaStopAll h)

theorem inv_coreDrops {entry seq : Nat} (h : Inv s) : Inv (coreDrops s entry seq) := h

theorem inv_hostLost {entry : Nat} (h : Inv s) : Inv (hostLost s entry) := by
  unfold hostLost
  split
  · exact h
  · exact inv_ite (inv_stopOps (inv_ledPut (inv_ledMetaSet h))) h

theorem inv_workLost {c : Nat} {w : Work} (h : Inv s) : Inv (workLost s c w) := by
  unfold workLost
  split
  · exact inv_itemRemove (inv_count h)
  · exact inv_hostLost h

theorem inv_threadFault {th : Nat} (h : Inv s) : Inv (threadFault s th) := by
  unfold threadFault
  extract_lets
  split
  · exact inv_ite (inv_event (inv_count (inv_setThread h))) (inv_workLost (inv_event (inv_count (inv_setThread h))))
  · exact inv_event (inv_count (inv_setThread h))

theorem inv_wake {th : Nat} {w : Waiting} {bits : Nat} (h : Inv s) : Inv (wake s th w bits) :=
  inv_setReg (inv_setThread (inv_ite (inv_count h) h))

theorem inv_wakeIf {th : Nat} (h : Inv s) : Inv (wakeIf s th) := by
  unfold wakeIf
  split
  · exact inv_ite h (inv_wake h)
  · exact h

theorem inv_wakeChannel {c ch : Nat} (h : Inv s) : Inv (wakeChannel s c ch) := by
  refine inv_foldl (fun _ _ h' => ?_) h
  split
  · exact inv_ite (inv_wakeIf h') h'
  · exact h'

theorem inv_pumpCluster {c n : Nat} (h : Inv s) : Inv (pumpCluster s c n) := by
  induction n generalizing s with
  | zero => exact h
  | succ n ih =>
    unfold pumpCluster
    extract_lets
    split
    · exact inv_ite (ih (inv_setEngine (inv_setCluster h))) h
    · exact h

theorem inv_pump {c : Nat} (h : Inv s) : Inv (pump s c) := inv_pumpCluster h

theorem inv_enterCluster {c : Nat} {w : Work} (h : Inv s) : Inv (enterCluster s c w) := inv_pump (inv_setCluster h)

theorem inv_resetOne {th : Nat} (h : Inv s) : Inv (resetOne s th) := by
  unfold resetOne
  extract_lets _ _ t
  have ht : Inv t := by
    dsimp only [t]
    split
    · exact inv_setChannel h
    · exact h
  split
  · exact inv_ite (inv_setThread ht) (inv_workLost (inv_setThread ht))
  · exact inv_setThread ht

theorem inv_resetHome {c ch : Nat} (h : Inv s) : Inv (resetHome s c ch) := inv_setChannel (inv_countN h)

theorem inv_engineReset {e : Nat} (h : Inv s) : Inv (engineReset s e) := by
  unfold engineReset
  extract_lets _ _ t _ _ u
  have ht : Inv t := inv_foldl (fun _ _ => inv_resetOne) h
  have hu : Inv u := inv_foldl (fun _ _ => inv_workLost) (inv_setEngine ht)
  exact inv_foldl (fun _ _ => inv_resetHome) hu

end Sys2Proof.Machine.Laws
end

section
/-! SUPPORT. The operations of the Jutex cores, the debug port, the NOR memory, the Kennel and the ledger keep the
invariant. -/

namespace Sys2Proof.Machine.Laws

open Sys2Proof Sys2Proof.Machine

variable {s : State}

/-! ### Machine/Jutex.lean -/

theorem inv_noteIssue {th : Nat} (h : Inv s) : Inv (noteIssue s th) := inv_setEngine h

theorem inv_noteLoad {th : Nat} (h : Inv s) : Inv (noteLoad s th) := inv_setEngine h

theorem inv_setPc {th : Nat} {pc : BitVec 64} (h : Inv s) : Inv (setPc s th pc) := inv_setThread h

/-- One instruction: whatever its body does, the fault path and the issue itself keep the invariant. -/
theorem inv_issueInstr {th : Nat} {clean : Bool} {body : State → Option State} (h : Inv s)
    (hbody : ∀ t, Inv t → InvSome (body t)) : Inv (issueInstr s th clean body) := by
  unfold issueInstr
  extract_lets
  split
  · exact h
  · split
    · exact inv_threadFault (inv_noteIssue h)
    · split
      next e => exact hbody _ (inv_setPc (inv_noteIssue h)) _ e
      next => exact inv_threadFault (inv_noteIssue h)

theorem invSome_jump {th : Nat} {pc : BitVec 64} (h : Inv s) : InvSome (jump s th pc) :=
  invSome_ite (invSome_some (inv_setPc h)) invSome_none

theorem inv_aluOp {th : Nat} {rd rs1 rs2 : BitVec 5} {f : BitVec 10} {op : BitVec 64 → BitVec 64 → BitVec 64}
    (h : Inv s) : Inv (aluOp s th rd rs1 rs2 f op) :=
  inv_issueInstr h (fun _ h' => invSome_some (inv_setReg h'))

theorem inv_immOp {th : Nat} {rd rs1 : BitVec 5} {clean : Bool} {op : BitVec 64 → BitVec 64} (h : Inv s) :
    Inv (immOp s th rd rs1 clean op) :=
  inv_issueInstr h (fun _ h' => invSome_some (inv_setReg h'))

theorem inv_doAdd {th : BitVec 10} {rd rs1 rs2 : BitVec 5} {f : BitVec 10} (h : Inv s) :
    Inv (doAdd s th rd rs1 rs2 f) :=
  inv_aluOp h

theorem kept_execAdd {th : BitVec 10} {rd rs1 rs2 : BitVec 5} {f : BitVec 10} (h : Inv s) :
    Kept (execAdd th rd rs1 rs2 f s) :=
  kept_next (inv_doAdd h)

theorem inv_doSub {th : BitVec 10} {rd rs1 rs2 : BitVec 5} {f : BitVec 10} (h : Inv s) :
    Inv (doSub s th rd rs1 rs2 f) :=
  inv_aluOp h

theorem kept_execSub {th : BitVec 10} {rd rs1 rs2 : BitVec 5} {f : BitVec 10} (h : Inv s) :
    Kept (execSub th rd rs1 rs2 f s) :=
  kept_next (inv_doSub h)

theorem inv_doAnd {th : BitVec 10} {rd rs1 rs2 : BitVec 5} {f : BitVec 10} (h : Inv s) :
    Inv (doAnd s th rd rs1 rs2 f) :=
  inv_aluOp h

theorem kept_execAnd {th : BitVec 10} {rd rs1 rs2 : BitVec 5} {f : BitVec 10} (h : Inv s) :
    Kept (execAnd th rd rs1 rs2 f s) :=
  kept_next (inv_doAnd h)

theorem inv_doOr {th : BitVec 10} {rd rs1 rs2 : BitVec 5} {f : BitVec 10} (h : Inv s) :
    Inv (doOr s th rd rs1 rs2 f) :=
  inv_aluOp h

theorem kept_execOr {th : BitVec 10} {rd rs1 rs2 : BitVec 5} {f : BitVec 10} (h : Inv s) :
    Kept (execOr th rd rs1 rs2 f s) :=
  kept_next (inv_doOr h)

theorem inv_doXor {th : BitVec 10} {rd rs1 rs2 : BitVec 5} {f : BitVec 10} (h : Inv s) :
    Inv (doXor s th rd rs1 rs2 f) :=
  inv_aluOp h

theorem kept_execXor {th : BitVec 10} {rd rs1 rs2 : BitVec 5} {f : BitVec 10} (h : Inv s) :
    Kept (execXor th rd rs1 rs2 f s) :=
  kept_next (inv_doXor h)

theorem inv_doShl {th : BitVec 10} {rd rs1 rs2 : BitVec 5} {f : BitVec 10} (h : Inv s) :
    Inv (doShl s th rd rs1 rs2 f) :=
  inv_aluOp h

theorem kept_execShl {th : BitVec 10} {rd rs1 rs2 : BitVec 5} {f : BitVec 10} (h : Inv s) :
    Kept (execShl th rd rs1 rs2 f s) :=
  kept_next (inv_doShl h)

theorem inv_doShr {th : BitVec 10} {rd rs1 rs2 : BitVec 5} {f : BitVec 10} (h : Inv s) :
    Inv (doShr s th rd rs1 rs2 f) :=
  inv_aluOp h

theorem kept_execShr {th : BitVec 10} {rd rs1 rs2 : BitVec 5} {f : BitVec 10} (h : Inv s) :
    Kept (execShr th rd rs1 rs2 f s) :=
  kept_next (inv_doShr h)

theorem inv_doSar {th : BitVec 10} {rd rs1 rs2 : BitVec 5} {f : BitVec 10} (h : Inv s) :
    Inv (doSar s th rd rs1 rs2 f) :=
  inv_aluOp h

theorem kept_execSar {th : BitVec 10} {rd rs1 rs2 : BitVec 5} {f : BitVec 10} (h : Inv s) :
    Kept (execSar th rd rs1 rs2 f s) :=
  kept_next (inv_doSar h)

theorem inv_doMul {th : BitVec 10} {rd rs1 rs2 : BitVec 5} {f : BitVec 10} (h : Inv s) :
    Inv (doMul s th rd rs1 rs2 f) :=
  inv_aluOp h

theorem kept_execMul {th : BitVec 10} {rd rs1 rs2 : BitVec 5} {f : BitVec 10} (h : Inv s) :
    Kept (execMul th rd rs1 rs2 f s) :=
  kept_next (inv_doMul h)

theorem inv_doSltu {th : BitVec 10} {rd rs1 rs2 : BitVec 5} {f : BitVec 10} (h : Inv s) :
    Inv (doSltu s th rd rs1 rs2 f) :=
  inv_aluOp h

theorem kept_execSltu {th : BitVec 10} {rd rs1 rs2 : BitVec 5} {f : BitVec 10} (h : Inv s) :
    Kept (execSltu th rd rs1 rs2 f s) :=
  kept_next (inv_doSltu h)

theorem inv_doSlt {th : BitVec 10} {rd rs1 rs2 : BitVec 5} {f : BitVec 10} (h : Inv s) :
    Inv (doSlt s th rd rs1 rs2 f) :=
  inv_aluOp h

theorem kept_execSlt {th : BitVec 10} {rd rs1 rs2 : BitVec 5} {f : BitVec 10} (h : Inv s) :
    Kept (execSlt th rd rs1 rs2 f s) :=
  kept_next (inv_doSlt h)

theorem inv_doAddi {th : BitVec 10} {rd rs1 : BitVec 5} {imm : BitVec 15} (h : Inv s) :
    Inv (doAddi s th rd rs1 imm) :=
  inv_immOp h

theorem kept_execAddi {th : BitVec 10} {rd rs1 : BitVec 5} {imm : BitVec 15} (h : Inv s) :
    Kept (execAddi th rd rs1 imm s) :=
  kept_next (inv_doAddi h)

theorem inv_doAndi {th : BitVec 10} {rd rs1 : BitVec 5} {imm : BitVec 15} (h : Inv s) :
    Inv (doAndi s th rd rs1 imm) :=
  inv_immOp h

theorem kept_execAndi {th : BitVec 10} {rd rs1 : BitVec 5} {imm : BitVec 15} (h : Inv s) :
    Kept (execAndi th rd rs1 imm s) :=
  kept_next (inv_doAndi h)

theorem inv_doShli {th : BitVec 10} {rd rs1 : BitVec 5} {imm : BitVec 15} (h : Inv s) :
    Inv (doShli s th rd rs1 imm) :=
  inv_immOp h

theorem kept_execShli {th : BitVec 10} {rd rs1 : BitVec 5} {imm : BitVec 15} (h : Inv s) :
    Kept (execShli th rd rs1 imm s) :=
  kept_next (inv_doShli h)

theorem inv_doShri {th : BitVec 10} {rd rs1 : BitVec 5} {imm : BitVec 15} (h : Inv s) :
    Inv (doShri s th rd rs1 imm) :=
  inv_immOp h

theorem kept_execShri {th : BitVec 10} {rd rs1 : BitVec 5} {imm : BitVec 15} (h : Inv s) :
    Kept (execShri th rd rs1 imm s) :=
  kept_next (inv_doShri h)

theorem inv_doLui {th : BitVec 10} {rd : BitVec 5} {imm : BitVec 20} (h : Inv s) : Inv (doLui s th rd imm) :=
  inv_issueInstr h (fun _ h' => invSome_some (inv_setReg h'))

theorem kept_execLui {th : BitVec 10} {rd : BitVec 5} {imm : BitVec 20} (h : Inv s) : Kept (execLui th rd imm s) :=
  kept_next (inv_doLui h)

theorem inv_loadOp {th : Nat} {rd rs1 : BitVec 5} {imm : BitVec 15} {n : Nat} (h : Inv s) :
    Inv (loadOp s th rd rs1 imm n) := by
  unfold loadOp
  refine inv_issueInstr h ?_
  intro _ h'
  split
  · exact invSome_none
  · extract_lets _ t
    have ht : Inv t := by
      dsimp only [t]
      split
      · exact inv_noteLoad h'
      · exact h'
    exact invSome_some (inv_setReg ht)

theorem inv_storeOp {th : Nat} {rd rs1 rs2 : BitVec 5} {f : BitVec 10} {n : Nat} (h : Inv s) :
    Inv (storeOp s th rd rs1 rs2 f n) := by
  refine inv_issueInstr h (fun _ h' => ?_)
  split
  · exact invSome_none
  · exact invSome_some (inv_windowWrite h')

theorem inv_doLd {th : BitVec 10} {rd rs1 : BitVec 5} {imm : BitVec 15} (h : Inv s) : Inv (doLd s th rd rs1 imm) :=
  inv_loadOp h

theorem kept_execLd {th : BitVec 10} {rd rs1 : BitVec 5} {imm : BitVec 15} (h : Inv s) :
    Kept (execLd th rd rs1 imm s) :=
  kept_next (inv_doLd h)

theorem inv_doLw {th : BitVec 10} {rd rs1 : BitVec 5} {imm : BitVec 15} (h : Inv s) : Inv (doLw s th rd rs1 imm) :=
  inv_loadOp h

theorem kept_execLw {th : BitVec 10} {rd rs1 : BitVec 5} {imm : BitVec 15} (h : Inv s) :
    Kept (execLw th rd rs1 imm s) :=
  kept_next (inv_doLw h)

theorem inv_doLh {th : BitVec 10} {rd rs1 : BitVec 5} {imm : BitVec 15} (h : Inv s) : Inv (doLh s th rd rs1 imm) :=
  inv_loadOp h

theorem kept_execLh {th : BitVec 10} {rd rs1 : BitVec 5} {imm : BitVec 15} (h : Inv s) :
    Kept (execLh th rd rs1 imm s) :=
  kept_next (inv_doLh h)

theorem inv_doLb {th : BitVec 10} {rd rs1 : BitVec 5} {imm : BitVec 15} (h : Inv s) : Inv (doLb s th rd rs1 imm) :=
  inv_loadOp h

theorem kept_execLb {th : BitVec 10} {rd rs1 : BitVec 5} {imm : BitVec 15} (h : Inv s) :
    Kept (execLb th rd rs1 imm s) :=
  kept_next (inv_doLb h)

theorem inv_doSt {th : BitVec 10} {rd rs1 rs2 : BitVec 5} {f : BitVec 10} (h : Inv s) :
    Inv (doSt s th rd rs1 rs2 f) :=
  inv_storeOp h

theorem kept_execSt {th : BitVec 10} {rd rs1 rs2 : BitVec 5} {f : BitVec 10} (h : Inv s) :
    Kept (execSt th rd rs1 rs2 f s) :=
  kept_next (inv_doSt h)

theorem inv_doSw {th : BitVec 10} {rd rs1 rs2 : BitVec 5} {f : BitVec 10} (h : Inv s) :
    Inv (doSw s th rd rs1 rs2 f) :=
  inv_storeOp h

theorem kept_execSw {th : BitVec 10} {rd rs1 rs2 : BitVec 5} {f : BitVec 10} (h : Inv s) :
    Kept (execSw th rd rs1 rs2 f s) :=
  kept_next (inv_doSw h)

theorem inv_doSh {th : BitVec 10} {rd rs1 rs2 : BitVec 5} {f : BitVec 10} (h : Inv s) :
    Inv (doSh s th rd rs1 rs2 f) :=
  inv_storeOp h

theorem kept_execSh {th : BitVec 10} {rd rs1 rs2 : BitVec 5} {f : BitVec 10} (h : Inv s) :
    Kept (execSh th rd rs1 rs2 f s) :=
  kept_next (inv_doSh h)

theorem inv_doSb {th : BitVec 10} {rd rs1 rs2 : BitVec 5} {f : BitVec 10} (h : Inv s) :
    Inv (doSb s th rd rs1 rs2 f) :=
  inv_storeOp h

theorem kept_execSb {th : BitVec 10} {rd rs1 rs2 : BitVec 5} {f : BitVec 10} (h : Inv s) :
    Kept (execSb th rd rs1 rs2 f s) :=
  kept_next (inv_doSb h)

theorem inv_atomicOp {th : Nat} {rd rs1 : BitVec 5} {clean : Bool} {new : State → BitVec 64 → BitVec 64} (h : Inv s) :
    Inv (atomicOp s th rd rs1 clean new) :=
  inv_issueInstr h (fun _ h' => invSome_ite invSome_none (invSome_some (inv_setReg (inv_scratchWrite h'))))

theorem inv_doAadd {th : BitVec 10} {rd rs1 rs2 : BitVec 5} {f : BitVec 10} (h : Inv s) :
    Inv (doAadd s th rd rs1 rs2 f) :=
  inv_atomicOp h

theorem kept_execAadd {th : BitVec 10} {rd rs1 rs2 : BitVec 5} {f : BitVec 10} (h : Inv s) :
    Kept (execAadd th rd rs1 rs2 f s) :=
  kept_next (inv_doAadd h)

theorem inv_doAcas {th : BitVec 10} {rd rs1 rs2 : BitVec 5} {f : BitVec 10} (h : Inv s) :
    Inv (doAcas s th rd rs1 rs2 f) :=
  inv_atomicOp h

theorem kept_execAcas {th : BitVec 10} {rd rs1 rs2 : BitVec 5} {f : BitVec 10} (h : Inv s) :
    Kept (execAcas th rd rs1 rs2 f s) :=
  kept_next (inv_doAcas h)

theorem inv_branchOp {th : Nat} {rd rs1 rs2 : BitVec 5} {f : BitVec 10} {take : BitVec 64 → BitVec 64 → Bool}
    (h : Inv s) : Inv (branchOp s th rd rs1 rs2 f take) :=
  inv_issueInstr h (fun _ h' => invSome_ite (invSome_jump h') (invSome_some h'))

theorem inv_doBeq {th : BitVec 10} {rd rs1 rs2 : BitVec 5} {f : BitVec 10} (h : Inv s) :
    Inv (doBeq s th rd rs1 rs2 f) :=
  inv_branchOp h

theorem kept_execBeq {th : BitVec 10} {rd rs1 rs2 : BitVec 5} {f : BitVec 10} (h : Inv s) :
    Kept (execBeq th rd rs1 rs2 f s) :=
  kept_next (inv_doBeq h)

theorem inv_doBne {th : BitVec 10} {rd rs1 rs2 : BitVec 5} {f : BitVec 10} (h : Inv s) :
    Inv (doBne s th rd rs1 rs2 f) :=
  inv_branchOp h

theorem kept_execBne {th : BitVec 10} {rd rs1 rs2 : BitVec 5} {f : BitVec 10} (h : Inv s) :
    Kept (execBne th rd rs1 rs2 f s) :=
  kept_next (inv_doBne h)

theorem inv_doBlt {th : BitVec 10} {rd rs1 rs2 : BitVec 5} {f : BitVec 10} (h : Inv s) :
    Inv (doBlt s th rd rs1 rs2 f) :=
  inv_branchOp h

theorem kept_execBlt {th : BitVec 10} {rd rs1 rs2 : BitVec 5} {f : BitVec 10} (h : Inv s) :
    Kept (execBlt th rd rs1 rs2 f s) :=
  kept_next (inv_doBlt h)

theorem inv_doBltu {th : BitVec 10} {rd rs1 rs2 : BitVec 5} {f : BitVec 10} (h : Inv s) :
    Inv (doBltu s th rd rs1 rs2 f) :=
  inv_branchOp h

theorem kept_execBltu {th : BitVec 10} {rd rs1 rs2 : BitVec 5} {f : BitVec 10} (h : Inv s) :
    Kept (execBltu th rd rs1 rs2 f s) :=
  kept_next (inv_doBltu h)

theorem inv_doJal {th : BitVec 10} {rd : BitVec 5} {imm : BitVec 20} (h : Inv s) : Inv (doJal s th rd imm) :=
  inv_issueInstr h (fun _ h' => invSome_jump (inv_setReg h'))

theorem kept_execJal {th : BitVec 10} {rd : BitVec 5} {imm : BitVec 20} (h : Inv s) : Kept (execJal th rd imm s) :=
  kept_next (inv_doJal h)

theorem inv_doJr {th : BitVec 10} {rd rs1 rs2 : BitVec 5} {f : BitVec 10} (h : Inv s) :
    Inv (doJr s th rd rs1 rs2 f) :=
  inv_issueInstr h (fun _ h' => invSome_jump (inv_setReg h'))

theorem kept_execJr {th : BitVec 10} {rd rs1 rs2 : BitVec 5} {f : BitVec 10} (h : Inv s) :
    Kept (execJr th rd rs1 rs2 f s) :=
  kept_next (inv_doJr h)

theorem inv_doMfs {th : BitVec 10} {rd rs1 rs2 : BitVec 5} {f : BitVec 10} (h : Inv s) :
    Inv (doMfs s th rd rs1 rs2 f) :=
  inv_issueInstr h (fun _ h' => invSome_some (inv_setReg h'))

theorem kept_execMfs {th : BitVec 10} {rd rs1 rs2 : BitVec 5} {f : BitVec 10} (h : Inv s) :
    Kept (execMfs th rd rs1 rs2 f s) :=
  kept_next (inv_doMfs h)

theorem inv_doMts {th : BitVec 10} {rd rs1 rs2 : BitVec 5} {f : BitVec 10} (h : Inv s) :
    Inv (doMts s th rd rs1 rs2 f) :=
  inv_issueInstr h (fun _ h' => invSome_some (inv_setShared h'))

theorem kept_execMts {th : BitVec 10} {rd rs1 rs2 : BitVec 5} {f : BitVec 10} (h : Inv s) :
    Kept (execMts th rd rs1 rs2 f s) :=
  kept_next (inv_doMts h)

theorem inv_doAadds {th : BitVec 10} {rd rs1 rs2 : BitVec 5} {f : BitVec 10} (h : Inv s) :
    Inv (doAadds s th rd rs1 rs2 f) :=
  inv_issueInstr h (fun _ h' => invSome_some (inv_setReg (inv_setShared h')))

theorem kept_execAadds {th : BitVec 10} {rd rs1 rs2 : BitVec 5} {f : BitVec 10} (h : Inv s) :
    Kept (execAadds th rd rs1 rs2 f s) :=
  kept_next (inv_doAadds h)

theorem inv_doFence {th : BitVec 10} {rd rs1 rs2 : BitVec 5} {f : BitVec 10} (h : Inv s) :
    Inv (doFence s th rd rs1 rs2 f) :=
  inv_issueInstr h (fun _ => invSome_some)

theorem kept_execFence {th : BitVec 10} {rd rs1 rs2 : BitVec 5} {f : BitVec 10} (h : Inv s) :
    Kept (execFence th rd rs1 rs2 f s) :=
  kept_next (inv_doFence h)

theorem inv_doTime {th : BitVec 10} {rd rs1 rs2 : BitVec 5} {f : BitVec 10} (h : Inv s) :
    Inv (doTime s th rd rs1 rs2 f) :=
  inv_issueInstr h (fun _ h' => invSome_some (inv_setReg h'))

theorem kept_execTime {th : BitVec 10} {rd rs1 rs2 : BitVec 5} {f : BitVec 10} (h : Inv s) :
    Kept (execTime th rd rs1 rs2 f s) :=
  kept_next (inv_doTime h)

theorem inv_doTcmp {th : BitVec 10} {rd rs1 rs2 : BitVec 5} {f : BitVec 10} (h : Inv s) :
    Inv (doTcmp s th rd rs1 rs2 f) :=
  inv_issueInstr h (fun _ h' => invSome_some (inv_setThread h'))

theorem kept_execTcmp {th : BitVec 10} {rd rs1 rs2 : BitVec 5} {f : BitVec 10} (h : Inv s) :
    Kept (execTcmp th rd rs1 rs2 f s) :=
  kept_next (inv_doTcmp h)

theorem inv_doWait {th : BitVec 10} {rd rs1 rs2 : BitVec 5} {f : BitVec 10} (h : Inv s) :
    Inv (doWait s th rd rs1 rs2 f) :=
  inv_issueInstr h (fun _ h' => invSome_ite (invSome_some (inv_setReg h')) (invSome_ite invSome_none (invSome_ite
    (invSome_some (inv_setReg h')) (invSome_some (inv_setThread h')))))

theorem kept_execWait {th : BitVec 10} {rd rs1 rs2 : BitVec 5} {f : BitVec 10} (h : Inv s) :
    Kept (execWait th rd rs1 rs2 f s) :=
  kept_next (inv_doWait h)

theorem inv_ownChannel {th ch : Nat} (h : Inv s) : Inv (ownChannel s th ch) := inv_setThread (inv_setChannel h)

theorem inv_doChopen {th : BitVec 10} {rd rs1 rs2 : BitVec 5} {f : BitVec 10} (h : Inv s) :
    Inv (doChopen s th rd rs1 rs2 f) :=
  inv_issueInstr h (fun _ h' => invSome_ite invSome_none (invSome_ite (invSome_some (inv_setReg (inv_ownChannel h')))
    (invSome_some (inv_setThread h'))))

theorem kept_execChopen {th : BitVec 10} {rd rs1 rs2 : BitVec 5} {f : BitVec 10} (h : Inv s) :
    Kept (execChopen th rd rs1 rs2 f s) :=
  kept_next (inv_doChopen h)

theorem inv_doChput {th : BitVec 10} {rd rs1 rs2 : BitVec 5} {f : BitVec 10} (h : Inv s) :
    Inv (doChput s th rd rs1 rs2 f) :=
  inv_issueInstr h (fun _ h' => invSome_ite (invSome_some h') (invSome_some (inv_setThread h')))

theorem kept_execChput {th : BitVec 10} {rd rs1 rs2 : BitVec 5} {f : BitVec 10} (h : Inv s) :
    Kept (execChput th rd rs1 rs2 f s) :=
  kept_next (inv_doChput h)

theorem inv_publish {c ch : Nat} {msg : BitVec 512} (h : Inv s) : Inv (publish s c ch msg) :=
  inv_ite (inv_wakeChannel (inv_setChannel h)) (inv_putResult h)

theorem inv_corePost {c ch : Nat} {msg : BitVec 512} (h : Inv s) : Inv (corePost s c ch msg) :=
  inv_ite (inv_publish (inv_count h)) h

theorem inv_doChcommit {th : BitVec 10} {rd rs1 rs2 : BitVec 5} {f : BitVec 10} (h : Inv s) :
    Inv (doChcommit s th rd rs1 rs2 f) := by
  unfold doChcommit
  refine inv_issueInstr h ?_
  intro _ h'
  extract_lets
  split
  · exact invSome_some (inv_setReg h')
  · exact invSome_some (inv_setReg (inv_publish (inv_count (inv_setChannel (inv_setThread h')))))

theorem kept_execChcommit {core : Option (BitVec 4 × BitVec 8 × BitVec 512)} {th : BitVec 10} {rd rs1 rs2 : BitVec 5}
    {f : BitVec 10} (h : Inv s) : Kept (execChcommit core th rd rs1 rs2 f s) := by
  refine kept_next ?_
  split
  · exact inv_corePost h
  · exact inv_doChcommit h

theorem inv_deliverResult {c ch : Nat} (h : Inv s) : Inv (deliverResult s c ch) := by
  unfold deliverResult
  extract_lets
  split
  · exact h
  · split
    · exact h
    · extract_lets _ t u
      have ht : Inv t := by
        dsimp only [t]
        split
        · exact inv_setEngine (inv_setChannel h)
        · exact inv_setChannel h
      have hu : Inv u := by
        dsimp only [u]
        split
        · exact inv_ledRetire ht
        · exact ht
      exact inv_wakeChannel hu

theorem kept_execResultDelivery {cluster : BitVec 4} {channel : BitVec 8} (h : Inv s) :
    Kept (execResultDelivery cluster channel s) :=
  kept_next (inv_deliverResult h)

theorem inv_takeOldest {c ch : Nat} (h : Inv s) : Inv (takeOldest s c ch) := by
  unfold takeOldest
  extract_lets
  split <;> exact inv_setChannel h

theorem inv_doChget {th : BitVec 10} {rd rs1 rs2 : BitVec 5} {f : BitVec 10} (h : Inv s) :
    Inv (doChget s th rd rs1 rs2 f) := by
  unfold doChget
  refine inv_issueInstr h ?_
  intro _ h'
  extract_lets
  refine invSome_ite invSome_none ?_
  split
  · exact invSome_some (inv_setReg h')
  · exact invSome_ite invSome_none (invSome_some (inv_setReg (inv_scratchWrite (inv_takeOldest h'))))

theorem kept_execChget {th : BitVec 10} {rd rs1 rs2 : BitVec 5} {f : BitVec 10} (h : Inv s) :
    Kept (execChget th rd rs1 rs2 f s) :=
  kept_next (inv_doChget h)

theorem inv_doChcfg {th : BitVec 10} {rd rs1 rs2 : BitVec 5} {f : BitVec 10} (h : Inv s) :
    Inv (doChcfg s th rd rs1 rs2 f) :=
  inv_issueInstr h (fun _ h' => invSome_ite invSome_none (invSome_some (inv_setChannel h')))

theorem kept_execChcfg {th : BitVec 10} {rd rs1 rs2 : BitVec 5} {f : BitVec 10} (h : Inv s) :
    Kept (execChcfg th rd rs1 rs2 f s) :=
  kept_next (inv_doChcfg h)

theorem inv_doSetreg {th : BitVec 10} {rd rs1 rs2 : BitVec 5} {f : BitVec 10} (h : Inv s) :
    Inv (doSetreg s th rd rs1 rs2 f) :=
  inv_issueInstr h (fun _ h' => invSome_ite invSome_none (invSome_ite (invSome_ite (invSome_some (inv_setThread h'))
    (invSome_some (inv_setReg h'))) (invSome_some h')))

theorem kept_execSetreg {th : BitVec 10} {rd rs1 rs2 : BitVec 5} {f : BitVec 10} (h : Inv s) :
    Kept (execSetreg th rd rs1 rs2 f s) :=
  kept_next (inv_doSetreg h)

theorem inv_startOne {th : Nat} (h : Inv s) : Inv (startOne s th) := inv_setThread h

theorem inv_doStart {th : BitVec 10} {rd rs1 rs2 : BitVec 5} {f : BitVec 10} (h : Inv s) :
    Inv (doStart s th rd rs1 rs2 f) := by
  unfold doStart
  refine inv_issueInstr h ?_
  intro _ h'
  extract_lets _ _ _ t
  have ht : Inv t := inv_foldl (fun _ _ h'' => inv_startOne h'') h'
  exact invSome_ite invSome_none (invSome_some (inv_setReg ht))

theorem kept_execStart {th : BitVec 10} {rd rs1 rs2 : BitVec 5} {f : BitVec 10} (h : Inv s) :
    Kept (execStart th rd rs1 rs2 f s) :=
  kept_next (inv_doStart h)

theorem inv_doHalt {th : BitVec 10} {rd rs1 rs2 : BitVec 5} {f : BitVec 10} (h : Inv s) :
    Inv (doHalt s th rd rs1 rs2 f) :=
  inv_issueInstr h (fun _ h' => invSome_some (inv_setThread h'))

theorem kept_execHalt {th : BitVec 10} {rd rs1 rs2 : BitVec 5} {f : BitVec 10} (h : Inv s) :
    Kept (execHalt th rd rs1 rs2 f s) :=
  kept_next (inv_doHalt h)

theorem inv_release {th : Nat} (h : Inv s) : Inv (release s th) := inv_setThread h

theorem inv_returnItem {id : Nat} (h : Inv s) : Inv (returnItem s id) := by
  unfold returnItem
  split
  · exact h
  · extract_lets _ _ _ t
    have ht : Inv t := inv_itemPut h
    clear_value t
    exact ht

theorem inv_doRet {th : BitVec 10} {rd rs1 rs2 : BitVec 5} {f : BitVec 10} (h : Inv s) :
    Inv (doRet s th rd rs1 rs2 f) := by
  refine inv_issueInstr h (fun _ h' => ?_)
  split
  · exact invSome_some h'
  · exact invSome_none
  · exact invSome_some (inv_returnItem (inv_count (inv_release h')))

theorem kept_execRet {th : BitVec 10} {rd rs1 rs2 : BitVec 5} {f : BitVec 10} (h : Inv s) :
    Kept (execRet th rd rs1 rs2 f s) :=
  kept_next (inv_doRet h)

theorem inv_doDropItem {th : BitVec 10} {rd rs1 rs2 : BitVec 5} {f : BitVec 10} (h : Inv s) :
    Inv (doDropItem s th rd rs1 rs2 f) := by
  refine inv_issueInstr h (fun _ h' => ?_)
  split
  · exact invSome_some h'
  · exact invSome_none
  · exact invSome_some (inv_itemRemove (inv_count (inv_release h')))

theorem kept_execDropItem {th : BitVec 10} {rd rs1 rs2 : BitVec 5} {f : BitVec 10} (h : Inv s) :
    Kept (execDropItem th rd rs1 rs2 f s) :=
  kept_next (inv_doDropItem h)

theorem inv_lateComplete {q : OrdQ} (h : Inv s) : Inv (lateComplete s q) := by
  unfold lateComplete
  split
  · exact inv_countAt h
  · exact h

theorem inv_workerStatus {status : BitVec 8} (h : Inv s) : Inv (workerStatus s status).2 := inv_ite_snd h (inv_draw h)

theorem inv_completeItem {entry : Nat} {q : OrdQ} {seq : Nat} {status detail : BitVec 8} {result : BitVec 64}
    (h : Inv s) : Inv (completeItem s entry q seq status detail result) := by
  unfold completeItem
  split
  · exact inv_ite (inv_hostDone (inv_workerStatus h)) (inv_lateComplete h)
  · exact inv_lateComplete h

theorem inv_doComplete {th : BitVec 10} {rd rs1 rs2 : BitVec 5} {f : BitVec 10} (h : Inv s) :
    Inv (doComplete s th rd rs1 rs2 f) := by
  unfold doComplete
  refine inv_issueInstr h ?_
  intro _ h'
  extract_lets
  split
  · exact invSome_some h'
  · exact invSome_none
  · split
    · exact invSome_some (inv_release h')
    · exact invSome_ite (invSome_some (inv_lateComplete (inv_release h'))) (invSome_some (inv_completeItem (inv_count
          (inv_release h'))))

theorem kept_execComplete {core : Option (BitVec 18 × BitVec 32 × BitVec 8 × BitVec 8 × BitVec 64)} {th : BitVec 10}
    {rd rs1 rs2 : BitVec 5} {f : BitVec 10} (h : Inv s) : Kept (execComplete core th rd rs1 rs2 f s) := by
  refine kept_next ?_
  split
  · split
    · exact h
    · exact inv_completeItem (inv_coreDrops h)
  · exact inv_doComplete h

theorem inv_dmaRefuse {c : Nat} {raw : BitVec 512} {eng status detail : Nat} (h : Inv s) :
    Inv (dmaRefuse s c raw eng status detail) :=
  inv_putResult h

theorem inv_issueOut {e : Nat} (h : Inv s) : Inv (issueOut s e) := inv_setEngine h

theorem inv_dmaIssue {c e : Nat} {w : Option Work} {owner : Option Nat} {raw : BitVec 512} (h : Inv s) :
    Inv (dmaIssue s c e w owner raw) := by
  unfold dmaIssue
  extract_lets
  split
  · exact inv_issueOut (inv_dmaRefuse h)
  · split
    · exact inv_issueOut (inv_dmaStart h)
    · exact inv_dmaAbort h
    · exact inv_dmaRetry h

theorem inv_issueTo {th target : Nat} {raw : BitVec 512} (h : Inv s) : Inv (issueTo s th target raw).2 := by
  unfold issueTo
  extract_lets
  refine inv_ite_snd h (inv_ite_snd (inv_count h) (inv_ite_snd (inv_issueOut (inv_putResult h)) ?_))
  split
  · exact inv_issueOut (inv_cipherIssue h)
  · exact inv_ite_snd (inv_noteWait (inv_count h)) (inv_issueOut (inv_kenPump h))
  · exact inv_dmaIssue h

theorem inv_doIssue {th : BitVec 10} {rd rs1 rs2 : BitVec 5} {f : BitVec 10} (h : Inv s) :
    Inv (doIssue s th rd rs1 rs2 f) :=
  inv_issueInstr h (fun _ h' => invSome_ite invSome_none (invSome_some (inv_setReg (inv_issueTo h'))))

theorem inv_coreIssue {raw : BitVec 512} (h : Inv s) : Inv (coreIssue s raw) := inv_ite h (inv_cipherIssue h)

theorem kept_execIssue {th : BitVec 10} {rd rs1 rs2 : BitVec 5} {f : BitVec 10} {core : Option (BitVec 512)}
    (h : Inv s) : Kept (execIssue th rd rs1 rs2 f s core) := by
  refine kept_next ?_
  split
  · exact inv_coreIssue h
  · exact inv_doIssue h

theorem kept_execTimerReached {th : BitVec 10} (h : Inv s) : Kept (execTimerReached th s) := by
  refine kept_next ?_
  split
  · exact inv_ite (inv_wakeIf h) h
  · exact h

theorem kept_execWaitMaxExpiry {th : BitVec 10} (h : Inv s) : Kept (execWaitMaxExpiry th s) := by
  unfold execWaitMaxExpiry
  extract_lets
  refine kept_next ?_
  split
  · exact inv_ite (inv_wake h) h
  · exact inv_ite (inv_wake h) h
  · exact h

theorem kept_execChopenGrant {th : BitVec 10} (h : Inv s) : Kept (execChopenGrant th s) := by
  unfold execChopenGrant
  extract_lets
  refine kept_next ?_
  split
  · exact inv_ite (inv_wake (inv_ownChannel h)) h
  · exact h

theorem inv_freezeEngine {e : Nat} (h : Inv s) : Inv (freezeEngine s e) :=
  inv_foldl (fun _ _ h' => inv_ite (inv_setThread h') h') (inv_setEngine (inv_count h))

theorem kept_execAllAsleepFreeze {engine : BitVec 7} (h : Inv s) : Kept (execAllAsleepFreeze engine s) :=
  kept_next (inv_ite (inv_event (inv_foldl (fun _ _ => inv_freezeEngine) h)) h)

theorem inv_dropNoCluster {id : Nat} (h : Inv s) : Inv (dropNoCluster s id) := inv_itemRemove (inv_count h)

theorem kept_execDetourArrival {item : Nat} (h : Inv s) : Kept (execDetourArrival item s) := by
  refine kept_next ?_
  split
  · exact h
  · split
    · exact inv_ite (inv_enterCluster (inv_count (inv_itemPut h))) (inv_itemRemove (inv_count h))
    · exact h

theorem inv_giveItem {th : Nat} {w : Work} (h : Inv s) : Inv (giveItem s th w) := by
  unfold giveItem
  extract_lets _ _ t
  have ht : Inv t := by
    dsimp only [t]
    split
    · exact inv_wake h
    · exact h
  exact inv_ite (inv_threadFault (inv_setThread ht)) (inv_setPc (inv_setThread ht))

theorem kept_execItemOffer {engine : BitVec 7} (h : Inv s) : Kept (execItemOffer engine s) := by
  unfold execItemOffer
  extract_lets
  refine kept_next ?_
  split
  · exact inv_pump (inv_giveItem (inv_setEngine h))
  · exact h

theorem kept_execClusterFault {cluster : BitVec 4} (h : Inv s) : Kept (execClusterFault cluster s) :=
  kept_next (inv_ite h (inv_foldl (fun _ _ => inv_engineReset) (inv_event (inv_setCluster h))))

theorem kept_execCoreOffline {core : BitVec 4} (h : Inv s) : Kept (execCoreOffline core s) :=
  kept_next (inv_ite h (inv_foldl (fun _ _ h' => inv_hostLost (inv_count h')) (inv_event (inv_count h))))

/-! ### Machine/JutexWord.lean -/

theorem inv_runR {op : Nat} {f : State → BitVec 10 → BitVec 5 → BitVec 5 → BitVec 5 → BitVec 10 → State}
    {th : BitVec 10} {rd rs1 rs2 : BitVec 5} {x : BitVec 10} (h : Inv s) (e : runR op = some f) :
    Inv (f s th rd rs1 rs2 x) := by
  unfold runR at e
  split at e <;> cases e
  · exact inv_doAdd h
  · exact inv_doSub h
  · exact inv_doAnd h
  · exact inv_doOr h
  · exact inv_doXor h
  · exact inv_doShl h
  · exact inv_doShr h
  · exact inv_doSar h
  · exact inv_doMul h
  · exact inv_doSltu h
  · exact inv_doSlt h
  · exact inv_doSt h
  · exact inv_doSw h
  · exact inv_doSh h
  · exact inv_doSb h
  · exact inv_doAadd h
  · exact inv_doAcas h
  · exact inv_doBeq h
  · exact inv_doBne h
  · exact inv_doBlt h
  · exact inv_doBltu h
  · exact inv_doJr h
  · exact inv_doMfs h
  · exact inv_doMts h
  · exact inv_doAadds h
  · exact inv_doFence h
  · exact inv_doTime h
  · exact inv_doTcmp h
  · exact inv_doWait h
  · exact inv_doChopen h
  · exact inv_doChput h
  · exact inv_doChcommit h
  · exact inv_doChget h
  · exact inv_doChcfg h
  · exact inv_doSetreg h
  · exact inv_doStart h
  · exact inv_doHalt h
  · exact inv_doRet h
  · exact inv_doDropItem h
  · exact inv_doComplete h
  · exact inv_doIssue h

theorem inv_runI {op : Nat} {f : State → BitVec 10 → BitVec 5 → BitVec 5 → BitVec 15 → State} {th : BitVec 10}
    {rd rs1 : BitVec 5} {x : BitVec 15} (h : Inv s) (e : runI op = some f) : Inv (f s th rd rs1 x) := by
  unfold runI at e
  split at e <;> cases e
  · exact inv_doAddi h
  · exact inv_doAndi h
  · exact inv_doShli h
  · exact inv_doShri h
  · exact inv_doLd h
  · exact inv_doLw h
  · exact inv_doLh h
  · exact inv_doLb h

theorem inv_runU {op : Nat} {f : State → BitVec 10 → BitVec 5 → BitVec 20 → State} {th : BitVec 10} {rd : BitVec 5}
    {x : BitVec 20} (h : Inv s) (e : runU op = some f) : Inv (f s th rd x) := by
  unfold runU at e
  split at e <;> cases e
  · exact inv_doLui h
  · exact inv_doJal h

theorem inv_runWord {th : BitVec 10} {w : BitVec 32} (h : Inv s) : Inv (runWord s th w) := by
  unfold runWord
  extract_lets op rd rs1
  clear_value op
  split
  next e => exact inv_runR h e
  next e => exact inv_runI h e
  next e => exact inv_runU h e
  next => exact inv_issueInstr h (fun _ _ => invSome_none)

/-! ### Machine/Debug.lean -/

theorem inv_dbgSet {d : Dbg} (h : Inv s) : Inv (dbgSet s d) := h

theorem inv_setIr {code : BitVec 8} (h : Inv s) : Inv (setIr s code) := inv_dbgSet h

theorem kept_execTapReset (h : Inv s) : Kept (execTapReset s) := kept_next (inv_setIr h)

theorem kept_execIdcode (h : Inv s) : Kept (execIdcode s) := kept_next (inv_emit (inv_setIr h))

theorem kept_execSamplePreload {sampled preload : BitVec 256} (h : Inv s) :
    Kept (execSamplePreload sampled preload s) :=
  kept_next (inv_emit (inv_dbgSet h))

theorem inv_pinInstr {code : BitVec 8} (h : Inv s) : Inv (pinInstr s code) :=
  inv_ite (inv_setIr (inv_hardFault h)) (inv_setIr h)

theorem kept_execExtest (h : Inv s) : Kept (execExtest s) := kept_next (inv_pinInstr h)

theorem kept_execClamp (h : Inv s) : Kept (execClamp s) := kept_next (inv_pinInstr h)

theorem kept_execHighz (h : Inv s) : Kept (execHighz s) := kept_next (inv_pinInstr h)

theorem kept_execDebug (h : Inv s) : Kept (execDebug s) := kept_next (inv_setIr h)

theorem kept_execBypass (h : Inv s) : Kept (execBypass s) := kept_next (inv_setIr h)

theorem inv_dbgResult {r : Nat} (h : Inv s) : Inv (dbgResult s r) := inv_dbgSet h

theorem inv_dbgOpen (h : Inv s) : Inv (dbgOpen s) := inv_dbgResult (inv_draw h)

theorem inv_dbgDo {f : State → State} (h : Inv s) (hf : ∀ t, Inv t → Inv (f t)) : Inv (dbgDo s f) :=
  inv_ite (inv_dbgResult h) (inv_ite (inv_dbgResult h) (hf _ h))

theorem inv_haltEvent {island sel : Nat} (h : Inv s) : Inv (haltEvent s island sel) := inv_event h

theorem inv_haltThread {th sel : Nat} (h : Inv s) : Inv (haltThread s th sel) :=
  inv_ite h (inv_haltEvent (inv_setThread h))

theorem inv_coreRuns (h : Inv s) : Inv (coreRuns s) := h

theorem inv_debugHalt (h : Inv s) : Inv (debugHalt s) := by
  unfold debugHalt
  split
  · exact inv_ite (inv_dbgResult h) (inv_dbgResult (inv_haltThread h))
  · exact inv_ite (inv_dbgResult h) (inv_dbgResult (inv_haltEvent (inv_coreRuns h)))
  · exact inv_dbgOpen h

theorem inv_resumeThread {th : Nat} (h : Inv s) : Inv (resumeThread s th) := by
  unfold resumeThread
  extract_lets
  split
  · exact inv_wakeIf (inv_setThread h)
  · exact inv_ite (inv_wake (inv_setThread h)) (inv_setThread h)
  · exact inv_setThread h

theorem inv_debugResume (h : Inv s) : Inv (debugResume s) := by
  unfold debugResume
  split
  · exact inv_ite (inv_dbgResult (inv_resumeThread h)) (inv_dbgResult h)
  · exact inv_ite (inv_dbgResult (inv_coreRuns h)) (inv_dbgResult h)
  · exact inv_dbgOpen h

theorem inv_stepHalt {th : Nat} (h : Inv s) : Inv (stepHalt s th) := by
  unfold stepHalt
  extract_lets
  split
  · exact inv_setThread h
  · exact inv_setThread h
  · exact h
  · exact h
  · exact h
  · exact inv_setThread h
  · exact inv_setThread h

theorem inv_stepThread {th : Nat} (h : Inv s) : Inv (stepThread s th) := by
  unfold stepThread
  extract_lets
  split
  · exact inv_dbgResult (inv_stepHalt (inv_runWord (inv_setEngine (inv_setThread h))))
  · exact inv_dbgResult (inv_stepHalt (inv_resumeThread h))
  · exact inv_dbgResult (inv_stepHalt (inv_resumeThread h))
  · exact inv_dbgResult h

theorem inv_debugStep (h : Inv s) : Inv (debugStep s) := by
  unfold debugStep
  split
  · exact inv_ite (inv_stepThread h) (inv_dbgResult h)
  · exact inv_ite (inv_dbgResult (inv_coreRuns h)) (inv_dbgResult h)
  · exact inv_dbgOpen h

theorem inv_abortStaged (h : Inv s) : Inv (abortStaged s) := by
  unfold abortStaged
  extract_lets
  refine inv_ite (inv_dbgOpen h) ?_
  split
  · exact inv_dbgResult h
  · exact inv_dbgResult (inv_count (inv_setChannel (inv_setThread h)))

theorem inv_abortWait (h : Inv s) : Inv (abortWait s) := by
  unfold abortWait
  extract_lets
  refine inv_ite (inv_dbgOpen h) ?_
  split
  · exact inv_dbgResult (inv_setEngine (inv_setReg (inv_setThread h)))
  · exact inv_dbgResult h

theorem inv_setThreadReg {th n : Nat} {v : BitVec 64} (h : Inv s) : Inv (setThreadReg s th n v) :=
  inv_ite (inv_setReg h) (inv_ite (inv_setPc h) (inv_ite (inv_setThread h) (inv_setShared h)))

theorem inv_coreKeep {c n : Nat} {v : BitVec 64} (h : Inv s) : Inv (coreKeep s c n v) := inv_ite h h

theorem inv_setData {v : BitVec 64} (h : Inv s) : Inv (setData s v) := inv_dbgSet h

theorem inv_regRead (h : Inv s) : Inv (regRead s) := by
  unfold regRead
  extract_lets _ t
  have ht : Inv t := inv_ite h (inv_coreRuns h)
  split
  · split
    · exact inv_dbgResult (inv_setData h)
    · exact inv_dbgOpen h
  · exact inv_dbgResult (inv_setData (inv_ite (inv_coreKeep ht) ht))
  · exact inv_dbgOpen h

theorem inv_regWrite (h : Inv s) : Inv (regWrite s) := by
  unfold regWrite
  extract_lets
  split
  · split
    · exact inv_ite (inv_dbgResult (inv_setThreadReg h)) (inv_dbgOpen h)
    · exact inv_ite (inv_dbgResult (inv_setThreadReg h)) (inv_dbgOpen h)
    · exact inv_ite (inv_dbgResult (inv_setThreadReg h)) (inv_dbgOpen h)
    · exact inv_dbgResult h
  · exact inv_ite (inv_dbgResult (inv_coreKeep h)) (inv_dbgResult h)
  · exact inv_dbgOpen h

theorem swf_norPut {m : Sparse Byte} {a : Nat} {bs : List Byte} (h : swf 0xFF m = true) :
    swf 0xFF (norPut m a bs) = true := by
  induction bs generalizing m a with
  | nil => exact h
  | cons b bs ih => exact ih (swf_sset 0xFF m a b h)

theorem inv_nor {m : Sparse Byte} (h : Inv s) (hm : swf 0xFF m = true) :
    Inv { s with boot := { s.boot with nor := m } } := by
  obtain ⟨hmem, -, hrest⟩ := h
  exact ⟨hmem, hm, hrest⟩

theorem swf_nor (h : Inv s) : swf 0xFF s.boot.nor = true := by
  obtain ⟨-, hnor, -⟩ := h
  exact hnor

theorem inv_norWrite {a : Nat} {bs : List Byte} (h : Inv s) :
    Inv (norWrite s a bs) := inv_nor h (swf_norPut (swf_nor h))

theorem invSome_memRead (h : Inv s) : InvSome (memRead s) := by
  unfold memRead
  extract_lets
  split
  · split
    · exact invSome_some (inv_dbgResult (inv_setData h))
    · exact invSome_some (inv_dbgOpen h)
  · exact invSome_some (inv_dbgOpen h)
  · exact invSome_ite (invSome_some (inv_dbgOpen h)) (invSome_ite invSome_none (invSome_some (inv_dbgResult
        (inv_setData h))))
  · exact invSome_ite (invSome_some (inv_dbgResult h)) (invSome_ite (invSome_some (inv_dbgOpen h)) (invSome_ite
        invSome_none (invSome_some (inv_dbgResult (inv_setData h)))))

theorem invSome_memWrite (h : Inv s) : InvSome (memWrite s) := by
  unfold memWrite
  extract_lets
  split
  · split
    · exact invSome_some (inv_ite (inv_dbgResult h) (inv_dbgResult (inv_hbmWrite h)))
    · exact invSome_some (inv_dbgResult (inv_windowWrite h))
    · exact invSome_some (inv_dbgOpen h)
  · exact invSome_some (inv_dbgOpen h)
  · exact invSome_ite (invSome_some (inv_dbgOpen h)) (invSome_ite invSome_none (invSome_some (inv_ite (inv_dbgResult
        h) (inv_dbgResult (inv_hbmWrite h)))))
  · exact invSome_ite (invSome_some (inv_dbgResult h)) (invSome_ite (invSome_some (inv_dbgOpen h)) (invSome_ite
        invSome_none (invSome_some (inv_dbgResult (inv_norWrite h)))))

theorem invSome_norErase (h : Inv s) : InvSome (norErase s) :=
  invSome_ite (invSome_some (inv_dbgOpen h)) (invSome_ite (invSome_some (inv_dbgResult h)) (invSome_ite invSome_none
    (invSome_some (inv_dbgResult (inv_nor h (swf_filter _ _ _ (swf_nor h)))))))

theorem inv_freshChallenge (h : Inv s) : Inv (freshChallenge s) := inv_dbgSet h

theorem inv_unlockPort (h : Inv s) : Inv (unlockPort s) :=
  inv_ite (inv_dbgResult h) (inv_dbgResult (inv_event (inv_ite (inv_dbgSet (inv_freshChallenge h)) (inv_freshChallenge
    h))))

theorem inv_newChallenge (h : Inv s) : Inv (newChallenge s) :=
  inv_ite (inv_dbgResult h) (inv_dbgResult (inv_freshChallenge h))

theorem inv_relockPort (h : Inv s) : Inv (relockPort s) := inv_ite (inv_dbgResult (inv_dbgSet h)) (inv_dbgResult h)

theorem kept_dbgMem {f : State → Option State} (h : Inv s) (hf : ∀ t, Inv t → InvSome (f t)) : Kept (dbgMem s f) := by
  unfold dbgMem
  split
  · exact kept_next (inv_dbgResult h)
  · split
    · exact kept_next (inv_dbgResult h)
    · split
      next e =>
        exact kept_next ((hf _ h) _ e)
      · exact kept_fault

theorem kept_execDebugHalt (h : Inv s) : Kept (execDebugHalt s) :=
  kept_next (inv_dbgDo h (fun _ => inv_debugHalt))

theorem kept_execDebugResume (h : Inv s) : Kept (execDebugResume s) :=
  kept_next (inv_dbgDo h (fun _ => inv_debugResume))

theorem kept_execDebugStep (h : Inv s) : Kept (execDebugStep s) :=
  kept_next (inv_dbgDo h (fun _ => inv_debugStep))

theorem kept_execAbortStaged (h : Inv s) : Kept (execAbortStaged s) :=
  kept_next (inv_dbgDo h (fun _ => inv_abortStaged))

theorem kept_execAbortWait (h : Inv s) : Kept (execAbortWait s) :=
  kept_next (inv_dbgDo h (fun _ => inv_abortWait))

theorem kept_execRegRead (h : Inv s) : Kept (execRegRead s) := kept_next (inv_dbgDo h (fun _ => inv_regRead))

theorem kept_execRegWrite (h : Inv s) : Kept (execRegWrite s) := kept_next (inv_dbgDo h (fun _ => inv_regWrite))

theorem kept_execMemRead (h : Inv s) : Kept (execMemRead s) := kept_dbgMem h (fun _ => invSome_memRead)

theorem kept_execMemWrite (h : Inv s) : Kept (execMemWrite s) := kept_dbgMem h (fun _ => invSome_memWrite)

theorem kept_execNorErase (h : Inv s) : Kept (execNorErase s) := kept_dbgMem h (fun _ => invSome_norErase)

theorem kept_execUnlock (h : Inv s) : Kept (execUnlock s) := kept_next (inv_unlockPort h)

theorem kept_execRelock (h : Inv s) : Kept (execRelock s) := kept_next (inv_relockPort h)

theorem kept_execNewChallenge (h : Inv s) : Kept (execNewChallenge s) := kept_next (inv_newChallenge h)

theorem inv_dbgCommand {cmd : Nat} (h : Inv s) : Inv (dbgCommand s cmd) := by
  unfold dbgCommand
  extract_lets
  split
  · exact inv_dbgDo h (fun _ => inv_debugHalt)
  · exact inv_dbgDo h (fun _ => inv_debugResume)
  · exact inv_dbgDo h (fun _ => inv_debugStep)
  · exact inv_dbgDo h (fun _ => inv_abortStaged)
  · exact inv_dbgDo h (fun _ => inv_abortWait)
  · exact inv_dbgDo h (fun _ => inv_regRead)
  · exact inv_dbgDo h (fun _ => inv_regWrite)
  · exact inv_dbgDo h (fun _ h' => inv_getD (inv_dbgOpen h') (invSome_memRead h'))
  · exact inv_dbgDo h (fun _ h' => inv_getD (inv_dbgOpen h') (invSome_memWrite h'))
  · exact inv_dbgDo h (fun _ h' => inv_getD (inv_dbgOpen h') (invSome_norErase h'))
  · exact inv_unlockPort h
  · exact inv_relockPort h
  · exact inv_newChallenge h
  · exact h

theorem kept_execBreakpoint {th : BitVec 10} (h : Inv s) : Kept (execBreakpoint th s) :=
  kept_next (inv_ite (inv_haltThread h) h)

theorem inv_dapWrite {e v : Nat} (h : Inv s) : Inv (dapWrite s e v) := by
  unfold dapWrite
  split
  · exact inv_dbgCommand (inv_dbgSet h)
  · exact inv_dbgSet h
  · exact inv_dbgSet h
  · exact inv_dbgSet h
  · exact inv_ite (inv_dbgSet h) (inv_ite (inv_dbgSet h) h)

/-! ### Machine/Nor.lean -/

theorem inv_norEraseRange {a n : Nat} (h : Inv s) :
    Inv (norEraseRange s a n) := inv_nor h (swf_filter _ _ _ (swf_nor h))

/-- The kernel, comparing a definition with its body where that body is a `match`, evaluates the value matched on,
    here one
read from the NOR memory with its checksum: the definition is replaced as a function, below its arguments, which
    compares
the bodies as they stand. -/
theorem swf_recordNor (h : Inv s) : swf 0xFF (recordNor s) = true := by
  generalize hf : recordNor = f
  delta recordNor at hf
  subst hf
  beta_reduce
  extract_lets k seq
  clear_value k seq
  split
  · exact swf_nor h
  · exact swf_nor (inv_norWrite (inv_norEraseRange h))

theorem inv_writeRecord (h : Inv s) : Inv (writeRecord s) := inv_nor h (swf_recordNor h)

theorem inv_readRecord (h : Inv s) : Inv (readRecord s) := by
  generalize hf : readRecord = f
  delta readRecord at hf
  subst hf
  beta_reduce
  split
  · exact inv_objPut (inv_with h)
  · exact inv_objPut (inv_with h)

theorem inv_readChain (h : Inv s) : Inv (readChain s) := inv_with h

theorem inv_faultErase (h : Inv s) : Inv (faultErase s) := by
  generalize hf : faultErase = f
  delta faultErase at hf
  subst hf
  beta_reduce
  split
  · exact inv_norEraseRange h
  · exact h

/-! ### Machine/Kennel.lean -/

theorem inv_kenOut {r : KReq} {a : Nat} {bs : List Byte} (h : Inv s) : Inv (kenOut s r a bs) :=
  inv_ite (inv_mapWrite h) (inv_hbmStore h)

theorem inv_kenStore {r : KReq} {kind material : Nat} (h : Inv s) : Inv (kenStore s r kind material) :=
  inv_ite (inv_kenComplete h) (inv_kenComplete (inv_slotWrite h))

theorem inv_doKennelWrite {r : KReq} (h : Inv s) : Inv (doKennelWrite s r) := by
  unfold doKennelWrite
  extract_lets
  refine inv_ite (inv_kenComplete h) ?_
  split
  · exact inv_kenComplete h
  · exact inv_ite (inv_kenComplete h) (inv_kenStore h)

theorem inv_doGenerate {r : KReq} (h : Inv s) : Inv (doGenerate s r) := inv_ite (inv_kenComplete h) (inv_kenStore h)

theorem inv_eraseWaits {r : KReq} (h : Inv s) : Inv (eraseWaits s r) := h

theorem inv_doErase {r : KReq} (h : Inv s) : Inv (doErase s r) := by
  unfold doErase
  extract_lets
  refine inv_ite (inv_kenComplete h) ?_
  split
  · exact inv_kenComplete h
  · exact inv_kenComplete (inv_scrub h)
  · exact inv_eraseWaits h
  · exact inv_ite (inv_kenComplete (inv_scrub h)) (inv_count (inv_slotPut (inv_eraseWaits h)))

theorem inv_doForceErase {r : KReq} (h : Inv s) : Inv (doForceErase s r) := by
  unfold doForceErase
  extract_lets
  refine inv_ite (inv_kenComplete h) ?_
  split
  · exact inv_kenComplete (inv_count h)
  · exact inv_kenComplete (inv_scrub (inv_count h))
  · exact inv_scrub (inv_cipStop (inv_eraseWaits (inv_count h)))

theorem inv_doReadMeta {r : KReq} (h : Inv s) : Inv (doReadMeta s r) :=
  inv_ite (inv_kenComplete h) (inv_ite (inv_kenComplete h) (inv_kenComplete (inv_kenOut h)))

theorem inv_doWrapExport {r : KReq} (h : Inv s) : Inv (doWrapExport s r) := by
  unfold doWrapExport
  extract_lets
  refine inv_ite (inv_kenComplete h) ?_
  split
  · exact inv_kenComplete h
  · exact inv_kenComplete h
  · exact inv_kenComplete h
  · exact inv_kenComplete h
  · exact inv_ite (inv_kenComplete h) (inv_kenComplete (inv_kenOut h))

theorem inv_doWrapImport {r : KReq} (h : Inv s) : Inv (doWrapImport s r) := by
  unfold doWrapImport
  split
  · exact inv_kenComplete h
  · exact inv_kenComplete h
  · split
    · exact inv_kenComplete h
    · exact inv_ite (inv_kenComplete h) (inv_kenStore h)

theorem inv_kenServe {r : KReq} (h : Inv s) : Inv (kenServe s r) := by
  unfold kenServe
  extract_lets _ t
  have ht : Inv t := inv_foldl (fun _ _ => inv_cacheTouch) (inv_ledRun h)
  refine inv_ite (inv_kenComplete (inv_ledRun h)) (inv_ite (inv_kenComplete (inv_ledRun h)) (inv_ite (inv_kenComplete
      (inv_ledRun h)) ?_))
  split
  · exact inv_doKennelWrite ht
  · exact inv_doGenerate ht
  · exact inv_doErase ht
  · exact inv_doForceErase ht
  · exact inv_doReadMeta ht
  · exact inv_doWrapExport ht
  · exact inv_doWrapImport ht
  · exact inv_kenComplete ht

theorem inv_kenFetch {held : List KReq} (h : Inv s) : Inv (kenFetch s held).1 :=
  inv_foldl (fun _ _ h' => inv_foldl (fun _ _ h'' => inv_fetchSlot h'') h') h

theorem inv_kennel {op : Nat} {req : Option (BitVec 512)} (h : Inv s) : Inv (kennel s op req) := by
  unfold kennel
  split
  · exact inv_ite (inv_getD (inv_noteWait h) (invSome_kenAccept h)) h
  · extract_lets
    split
    · exact inv_kenFetch h
    · exact inv_ite (inv_kenPump (inv_kenServe (inv_kenFetch h))) (inv_kenFetch h)

theorem kept_execKennelWrite {req : Option (BitVec 512)} (h : Inv s) : Kept (execKennelWrite req s) :=
  kept_next (inv_kennel h)

theorem kept_execGenerate {req : Option (BitVec 512)} (h : Inv s) : Kept (execGenerate req s) :=
  kept_next (inv_kennel h)

theorem kept_execErase {req : Option (BitVec 512)} (h : Inv s) : Kept (execErase req s) := kept_next (inv_kennel h)

theorem kept_execForceErase {req : Option (BitVec 512)} (h : Inv s) : Kept (execForceErase req s) :=
  kept_next (inv_kennel h)

theorem kept_execReadMeta {req : Option (BitVec 512)} (h : Inv s) : Kept (execReadMeta req s) :=
  kept_next (inv_kennel h)

theorem kept_execWrapExport {req : Option (BitVec 512)} (h : Inv s) : Kept (execWrapExport req s) :=
  kept_next (inv_kennel h)

theorem kept_execWrapImport {req : Option (BitVec 512)} (h : Inv s) : Kept (execWrapImport req s) :=
  kept_next (inv_kennel h)

/-! ### Machine/Ledger.lean -/

theorem inv_writeCompletion {k pos : Nat} {bs : List Byte} (h : Inv s) : Inv (writeCompletion s k pos bs).2 :=
  inv_ite_snd (inv_raiseVector (inv_qpPut (inv_hostPost h))) (inv_hostPost h)

theorem inv_takenBy {entry : Nat} {e : LedEntry} {w : Worker} (h : Inv s) : Inv (takenBy s entry e w) := by
  unfold takenBy
  extract_lets _ t _ u
  have ht : Inv t := inv_ledMetaSet h
  clear_value t
  have hu : Inv u := by
    dsimp only [u]
    split <;> exact ht
  clear_value u
  exact inv_ledPut hu

theorem inv_noWorker {entry : Nat} (h : Inv s) : Inv (noWorker s entry) := inv_hostDone (inv_count h)

theorem inv_dispatchItem {entry : Nat} {e : LedEntry} (h : Inv s) : Inv (dispatchItem s entry e) := by
  unfold dispatchItem
  extract_lets
  refine inv_ite (inv_hostDone h) (inv_ite ?_ ?_)
  · split
    · exact inv_noWorker h
    · exact inv_ite h (inv_enterCluster (inv_takenBy (inv_count h)))
  · split
    · exact inv_noWorker h
    · exact inv_takenBy h

theorem kept_execDispatch {entry : BitVec 18} (h : Inv s) : Kept (execDispatch entry s) := by
  refine kept_next ?_
  split
  · exact h
  · exact inv_ite (inv_dispatchItem h) h

theorem kept_execReDispatch {entry : BitVec 18} (h : Inv s) : Kept (execReDispatch entry s) := by
  refine kept_next ?_
  split
  · exact h
  · exact inv_ite (inv_ite (inv_ledPut (inv_count h)) (inv_hostDone (inv_count h))) h

theorem inv_takeWork {entry : Nat} (h : Inv s) : Inv (takeWork s entry) := by
  unfold takeWork
  extract_lets _ _ _ t
  have ht : Inv t := inv_ledMetaSet h
  clear_value t
  exact inv_foldl (fun _ _ => inv_pump) ht

theorem inv_setReport {k : Nat} {r : Nat × Nat} (h : Inv s) : Inv (setReport s k r) := h

theorem inv_abortItem {entry : Nat} (h : Inv s) : Inv (abortItem s entry) := by
  unfold abortItem
  split
  · exact h
  · exact inv_ledRetire (inv_ledPut (inv_takeWork (inv_ite (inv_setReport h) (inv_countAt (inv_setReport h)))))

theorem inv_retirePlace {t : State} {o : OrdState} (h : Inv t) : Inv (retirePlace t o) := by
  unfold retirePlace
  extract_lets
  split
  · exact inv_ite (inv_writeCompletion (inv_countAt (inv_ordPut h))) (inv_writeCompletion h)
  · exact inv_countAt (inv_ordPut h)

theorem inv_settlePlaces (h : Inv s) : Inv (settlePlaces s) := by
  unfold settlePlaces
  extract_lets t
  have ht : Inv t := inv_foldl (fun _ _ h' => inv_ite (inv_retirePlace h') h') h
  exact ht

end Sys2Proof.Machine.Laws
end

section
/-! SUPPORT. The operations of slices, host links, cipher work, reset and power keep the invariant. -/

namespace Sys2Proof.Machine.Laws

open Sys2Proof Sys2Proof.Machine

variable {s : State}

/-! ### Machine/Slices.lean -/

theorem inv_setSliceState {sl : Nat} {st : SlState} (h : Inv s) : Inv (setSliceState s sl st) :=
  inv_event (inv_setSlice (inv_record h))

theorem inv_revoke {sl : Nat} (h : Inv s) : Inv (revoke s sl) := h

theorem inv_drainSlice {sl : Nat} (h : Inv s) : Inv (drainSlice s sl) := by
  unfold drainSlice
  extract_lets _ _ _ _ t _ _ u
  have ht : Inv t := inv_foldl (fun _ _ => inv_setReport) (inv_revoke (inv_setSlice (inv_setSliceState
      (inv_countAt h))))
  have hu : Inv u := inv_foldl (fun _ _ h' => inv_ite (inv_ledPut (inv_takeWork h')) (inv_takeWork h')) (inv_with ht)
  exact inv_cipStop (inv_dmaStopAll hu)

theorem inv_cmdResult {sl r : Nat} (h : Inv s) : Inv (cmdResult s sl r) := inv_setSlice h

theorem inv_freezeDone {sl : Nat} (h : Inv s) : Inv (freezeDone s sl) := inv_setSliceState (inv_countAt h)

theorem inv_qpRestore {k : Nat} {bs : List Byte} (h : Inv s) : Inv (qpRestore s k bs) :=
  inv_qpPut (inv_objPut (inv_objPut (inv_objPut (inv_objPut (inv_objPut (inv_objPut (inv_objPut (inv_objPut h))))))))

theorem inv_exportKeys {sl material base : Nat} {l : List Nat} {r : List Byte × State} (h : Inv s)
    (e : exportKeys s sl material base l = some r) : Inv r.2 := by
  induction l generalizing s r with
  | nil => cases e; exact h
  | cons n l ih =>
    unfold exportKeys at e
    extract_lets _ next at e
    split at e
    · cases e
    next t ht =>
      obtain ⟨q, hq, rfl⟩ := Option.map_eq_some_iff.1 e
      have hnext : ∀ u, Inv u → Inv (next u) := fun _ hu => hu
      have hq2 : Inv q.2 := ih (r := q) (inv_coreKeyOp h hnext ht) hq
      exact hq2

theorem inv_saveSlice {sl : Nat} (h : Inv s) : Inv (saveSlice s sl) := by
  unfold saveSlice
  extract_lets
  split
  · exact inv_cmdResult h
  · split
    · exact inv_cmdResult h
    next e =>
      have ht := inv_exportKeys (s := { s with ken := { s.ken with wrap := (s.ken.wrap + 1) % 2 ^ 52 } }) h e
      exact inv_cmdResult (inv_setSlice (inv_hbmWrite ht))

theorem inv_sliceCmd {sl cmd : Nat} (h : Inv s) : Inv (sliceCmd s sl cmd) := by
  unfold sliceCmd
  extract_lets
  split
  · exact inv_cmdResult (inv_setSliceState h)
  · exact inv_cmdResult (inv_setSlice h)
  · exact inv_cmdResult (inv_setSlice h)
  · exact inv_ite (inv_cmdResult (inv_drainSlice h)) (inv_cmdResult h)
  · exact inv_cmdResult (inv_setSliceState h)
  · exact inv_cmdResult (inv_setSliceState h)
  · exact inv_saveSlice h
  · exact inv_cmdResult (inv_setSliceState h)
  · exact inv_cmdResult (inv_setSlice h)
  · exact inv_cmdResult h

theorem kept_execSliceEnable {slice : BitVec 14} (h : Inv s) : Kept (execSliceEnable slice s) :=
  kept_next (inv_sliceCmd h)

theorem kept_execSliceReset {slice : BitVec 14} (h : Inv s) : Kept (execSliceReset slice s) :=
  kept_next (inv_sliceCmd h)

theorem kept_execSliceFreeze {slice : BitVec 14} (h : Inv s) : Kept (execSliceFreeze slice s) :=
  kept_next (inv_sliceCmd h)

theorem kept_execSliceResume {slice : BitVec 14} (h : Inv s) : Kept (execSliceResume slice s) :=
  kept_next (inv_sliceCmd h)

theorem kept_execSliceSave {slice : BitVec 14} (h : Inv s) : Kept (execSliceSave slice s) :=
  kept_next (inv_sliceCmd h)

theorem kept_execSliceRestore {slice : BitVec 14} (h : Inv s) : Kept (execSliceRestore slice s) :=
  kept_next (inv_sliceCmd h)

theorem kept_execSliceDisable {slice : BitVec 14} (h : Inv s) : Kept (execSliceDisable slice s) :=
  kept_next (inv_sliceCmd h)

theorem kept_execSliceItemRetire {entry : BitVec 18} (h : Inv s) : Kept (execSliceItemRetire entry s) := by
  refine kept_next ?_
  split
  · exact h
  · exact inv_ite (inv_abortItem h) h

theorem inv_clearRings {sl : Nat} (h : Inv s) : Inv (clearRings s sl) := h

theorem inv_zeroSlice {sl : Nat} (h : Inv s) : Inv (zeroSlice s sl) := by
  unfold zeroSlice
  extract_lets t u
  have ht : Inv t := inv_foldl (fun _ _ => inv_scrub) h
  have hu : Inv u := inv_foldl (fun _ _ => inv_setChan) ht
  exact inv_setSlice (inv_clearRings hu)

theorem kept_execSliceZero {slice : BitVec 14} (h : Inv s) : Kept (execSliceZero slice s) :=
  kept_next (inv_ite (inv_zeroSlice h) h)

theorem kept_execResetSequenceEnd {slice : BitVec 14} (h : Inv s) : Kept (execResetSequenceEnd slice s) :=
  kept_next (inv_ite (inv_setSliceState (inv_setSlice h)) h)

theorem kept_execFreezeComplete {slice : BitVec 14} (h : Inv s) : Kept (execFreezeComplete slice s) :=
  kept_next (inv_ite (inv_freezeDone h) h)

theorem kept_execFreezeTimeout {slice : BitVec 14} (h : Inv s) : Kept (execFreezeTimeout slice s) :=
  kept_next (inv_ite (inv_ite (inv_freezeDone h) (inv_cmdResult (inv_setSliceState (inv_countAt h)))) h)

theorem invSome_importKeys {sl material : Nat} {l : List (List Byte)} (h : Inv s) :
    InvSome (importKeys s sl material l) := by
  induction l generalizing s with
  | nil => exact invSome_some h
  | cons b l ih =>
    unfold importKeys
    extract_lets
    split
    · exact invSome_none
    · split
      · exact invSome_none
      · split
        next e => exact ih (inv_coreKeyOp h (fun _ ht => inv_slotWrite ht) e)
        next => exact invSome_none

theorem inv_restoreObjects {sl q last : Nat} {l : List (List Byte)} (h : Inv s) :
    Inv (restoreObjects s sl q last l) := by
  induction l generalizing s q last with
  | nil => exact h
  | cons b l ih => exact ih (inv_ite (inv_objPut h) h)

theorem inv_restoreFails {sl r : Nat} (h : Inv s) : Inv (restoreFails s sl r) := inv_drainSlice (inv_setSlice h)

theorem kept_execRestoreDone {slice : BitVec 14} (h : Inv s) : Kept (execRestoreDone slice s) := by
  unfold execRestoreDone
  extract_lets
  refine kept_next ?_
  split
  · exact h
  · split
    · exact inv_restoreFails h
    · split
      · exact inv_restoreFails h
      next e =>
        extract_lets t u
        have ht : Inv t := inv_foldl (fun _ _ h' => inv_ite h' (inv_setChan h')) ((invSome_importKeys h) _ e)
        have hu : Inv u := inv_foldl (fun _ _ => inv_qpRestore) (inv_clearRings ht)
        exact inv_freezeDone (inv_setSlice (inv_restoreObjects hu))

/-! ### Machine/Host.lean -/

theorem kept_execLinkTrained {link : BitVec 2} {rate : BitVec 3} {width : Nat} {flit : Bool} (h : Inv s) :
    Kept (execLinkTrained link rate width flit s) :=
  kept_next (inv_ite (inv_linkPut h) h)

theorem inv_settleInvals (h : Inv s) : Inv (settleInvals s) := inv_foldl (fun _ _ h' => inv_countLink (inv_emit h')) h

theorem inv_stopFn {link fn : Nat} {detail : BitVec 8} (h : Inv s) : Inv (stopFn s link fn detail) :=
  inv_quarantineReads (inv_dmaStopAll h)

theorem inv_bmeClear {link fn : Nat} (h : Inv s) : Inv (bmeClear s link fn) := by
  unfold bmeClear
  extract_lets
  refine inv_ite h ?_
  split
  · exact inv_stopFn (inv_fnPut (inv_countLink h))
  · exact inv_fnPut (inv_countLink h)
  · exact inv_fnPut (inv_countLink h)

theorem kept_execBusMasterEnableClear {link : BitVec 2} {fn : BitVec 11} (h : Inv s) :
    Kept (execBusMasterEnableClear link fn s) :=
  kept_next (inv_bmeClear h)

theorem inv_bmeSet {link fn : Nat} (h : Inv s) : Inv (bmeSet s link fn) :=
  inv_ite h (inv_ite (inv_fnPut h) (inv_pumpAll (inv_fnPut h)))

theorem kept_execBusMasterEnableSet {link : BitVec 2} {fn : BitVec 11} (h : Inv s) :
    Kept (execBusMasterEnableSet link fn s) :=
  kept_next (inv_bmeSet h)

theorem inv_endDrain {link fn : Nat} (h : Inv s) : Inv (endDrain s link fn) := inv_pumpAll (inv_fnPut h)

theorem kept_execFunctionDrainEnd {link : BitVec 2} {fn : BitVec 11} (h : Inv s) :
    Kept (execFunctionDrainEnd link fn s) :=
  kept_next (inv_ite (inv_endDrain h) h)

theorem inv_flagChannels {link fn : Nat} (h : Inv s) : Inv (flagChannels s link fn) :=
  inv_foldl (fun _ _ => inv_setChan) h

theorem inv_dropHolds {link fn : Nat} (h : Inv s) : Inv (dropHolds s link fn) := h

theorem inv_teardown {link fn : Nat} {kind : DrainKind} (h : Inv s) : Inv (teardown s link fn kind) := by
  unfold teardown
  extract_lets _ _ _ _ _ _ t u
  have ht : Inv t := inv_foldl (fun _ _ h' => inv_ite (inv_drainSlice h') h') (inv_dropHolds (inv_settleInvals
      (inv_stopFn (inv_ite (inv_dmaStopAll (inv_flagChannels (inv_fnPut h))) (inv_flagChannels (inv_fnPut h))))))
  have hu : Inv u := inv_foldl (fun _ _ => inv_setReport) ht
  exact inv_ite (inv_foldl (fun _ _ h' => inv_ite (inv_ledPut (inv_stopOps (inv_takeWork h'))) (inv_takeWork h')) hu)
      ht

theorem inv_startFlr {link fn : Nat} (h : Inv s) : Inv (startFlr s link fn) := by
  unfold startFlr
  split
  · exact h
  · extract_lets _ _ t
    have ht : Inv t := inv_foldl (fun _ _ => inv_teardown) (inv_teardown (inv_countLink h))
    exact inv_ite (inv_fnPut ht) ht

theorem kept_execInitiateFlr {link : BitVec 2} {fn : BitVec 11} (h : Inv s) : Kept (execInitiateFlr link fn s) :=
  kept_next (inv_startFlr h)

theorem inv_abortInfra {link n : Nat} (h : Inv s) : Inv (abortInfra s link n) := by
  induction n generalizing s with
  | zero => exact h
  | succ n ih =>
    unfold abortInfra
    split
    · exact ih (inv_abortItem h)
    · exact h

theorem inv_mailboxReset {k : Nat} (h : Inv s) : Inv (mailboxReset s k) := by
  obtain ⟨hmem, hnor, hslot, hlanes, hctl, hlinks, hboxes, hrest⟩ := h
  exact ⟨hmem, hnor, hslot, hlanes, hctl, (length_lset ..).trans hlinks, (length_lset ..).trans hboxes, hrest⟩

theorem kept_execFlrEnd {link : BitVec 2} {fn : BitVec 11} (h : Inv s) : Kept (execFlrEnd link fn s) := by
  unfold execFlrEnd
  extract_lets _ _ _ t _ _ _ u
  have ht : Inv t := inv_ite (inv_abortInfra h) h
  have hu : Inv u := inv_foldl (fun _ _ => inv_setChan) ht
  exact kept_next (inv_ite h (inv_ite ht (inv_endDrain (inv_fnPut (inv_atcDrop (inv_ite (inv_mailboxReset (inv_foldl
      (fun _ _ => inv_qpPut) hu)) hu))))))

theorem inv_setDState {k fn : Nat} {d3 : Bool} (h : Inv s) : Inv (setDState s k fn d3) :=
  inv_ite h (inv_ite (inv_fnPut h) (inv_pumpAll (inv_fnPut h)))

theorem kept_execDStateChange {link : BitVec 2} {fn : BitVec 11} {d3 : Bool} (h : Inv s) :
    Kept (execDStateChange link fn d3 s) :=
  kept_next (inv_setDState h)

theorem kept_execUnsupportedBarAccess {link : BitVec 2} {fn : BitVec 11} {offset : BitVec 32} {size : Nat}
    {write : Bool} {poisoned : Bool} (h : Inv s) :
    Kept (execUnsupportedBarAccess link fn offset size write s poisoned) :=
  kept_next (inv_ite h (inv_ite (inv_ite (inv_aerLog (inv_countLink h)) h) (inv_ite (inv_aerLog h) (inv_emit h))))

theorem inv_doorbellRefused {link k : Nat} (h : Inv s) : Inv (doorbellRefused s link k) := by
  unfold doorbellRefused
  extract_lets
  split
  · exact inv_ite (inv_countLink h) (inv_countAt (inv_countLink h))
  · exact inv_countLink h

theorem inv_doorbell {link page q : Nat} {act : State → Nat → State} (h : Inv s)
    (hact : ∀ t x1, Inv t → Inv (act t x1)) : Inv (doorbell s link page q act) := by
  unfold doorbell
  split
  · exact inv_ite (inv_aerLog h) h
  · exact inv_ite (inv_count (inv_wakeLink h)) (hact _ _ (inv_wakeLink h))

theorem kept_execSqTail {link : BitVec 2} {page : BitVec 15} {q : BitVec 6} {v : BitVec 32} (h : Inv s) :
    Kept (execSqTail link page q v s) :=
  kept_next (inv_doorbell h (fun _ _ h' => inv_ite (inv_record (inv_qpPut h')) (inv_doorbellRefused h')))

theorem kept_execCqHead {link : BitVec 2} {page : BitVec 15} {q : BitVec 6} {v : BitVec 32} (h : Inv s) :
    Kept (execCqHead link page q v s) :=
  kept_next (inv_doorbell h (fun _ _ h' => inv_ite (inv_record (inv_qpPut h')) (inv_doorbellRefused h')))

theorem kept_execFetchStart {qp : Nat} (h : Inv s) : Kept (execFetchStart qp s) := by
  unfold execFetchStart
  extract_lets _ _ _ _ _ t
  have ht : Inv t := by
    dsimp only [t]
    split
    · exact inv_ite h h
    · exact h
  refine kept_next ?_
  split
  · exact h
  · exact inv_ite h (inv_ite (inv_ite ht ht) (inv_dmaStart (inv_qpPut (inv_ite ht ht))))

theorem inv_acceptOne {k : Nat} {d : List Byte} (h : Inv s) : Inv (acceptOne s k d) := by
  unfold acceptOne
  extract_lets x n sq d' sl r _ t u
  have ht : Inv t := inv_ledMetaSet (inv_ledAccept h)
  have hu : Inv u := by
    cases hsl : qpOwner k with
    | none => simpa only [u, sl, hsl] using ht
    | some sl' => simpa only [u, sl, hsl] using inv_countAt ht
  exact inv_qpPut hu

theorem kept_execHeadPointerWriteBack {qp : Nat} (h : Inv s) : Kept (execHeadPointerWriteBack qp s) := by
  unfold execHeadPointerWriteBack
  extract_lets
  refine kept_next ?_
  split
  · exact h
  · refine inv_ite h (inv_ite (inv_qpPut h) (inv_ite h (inv_ite (inv_waitRoom h) (inv_ite h (inv_ite h (inv_ite ?_
        (inv_hostPost h)))))))
    exact inv_qpPut (inv_foldl (fun _ _ ht => inv_acceptOne ht) (inv_hostPost h))

theorem kept_execMsixSend {link : BitVec 2} {fn vector : BitVec 11} (h : Inv s) :
    Kept (execMsixSend link fn vector s) :=
  kept_next (inv_ite (inv_emit (inv_wakeLink (inv_fnPut h))) h)

theorem inv_failPage {h : HHold} (hI : Inv s) : Inv (failPage s h) := by
  unfold failPage
  refine inv_foldl ?_ hI
  intro _ _ h'
  extract_lets _ _ _ _ t
  have ht : Inv t := inv_foldl (fun _ _ h'' => inv_ite h'' (inv_ite (inv_unitFail h'') (inv_ite (inv_unitFail h'')
      h''))) h'
  exact inv_settleFails ht

theorem inv_askPage {h : HHold} (hI : Inv s) : Inv (askPage s h) :=
  inv_ite hI (inv_countLink (inv_emit (inv_wakeLink hI)))

theorem inv_atcAdd {e : AtcEntry} (h : Inv s) : Inv (atcAdd s e) := h

theorem kept_execTranslationCompletion {tag : Nat} {ok : Bool} {addr : BitVec 64} (h : Inv s) :
    Kept (execTranslationCompletion tag ok addr s) := by
  refine kept_next ?_
  split
  · exact h
  · exact inv_ite (inv_pumpAll (inv_atcAdd h)) (inv_ite (inv_askPage h) (inv_failPage h))

theorem kept_execPageRequestResponse {tag : Nat} {ok : Bool} (h : Inv s) :
    Kept (execPageRequestResponse tag ok s) := by
  refine kept_next ?_
  split
  · exact h
  · exact inv_pumpAll (inv_ite h (inv_failPage (inv_countLink h)))

theorem kept_execInvalidationRequest {link : BitVec 2} {fn : BitVec 11} {pasid : Option (BitVec 20)}
    {addr : BitVec 64} {pages : Nat} (h : Inv s) : Kept (execInvalidationRequest link fn pasid addr pages s) :=
  kept_next (inv_settleInvals h)

theorem inv_takeData {r : HRead} {bs : List Byte} (h : Inv s) : Inv (takeData s r bs) := by
  unfold takeData
  extract_lets
  split
  · exact h
  · split
    · exact h
    · exact inv_readData h

theorem kept_execCompletionReceived {tag : BitVec 14} {link : BitVec 2} {poisoned : Bool} {status : BitVec 3}
    {data : List Byte} (h : Inv s) : Kept (execCompletionReceived tag link poisoned status data s) := by
  unfold execCompletionReceived
  extract_lets
  refine kept_next ?_
  split
  · exact inv_aerLog (inv_countLink h)
  · exact inv_ite (inv_settleInvals (inv_pumpAll (inv_aerLog (inv_countLink (inv_countLink h))))) (inv_pumpAll
        (inv_settleInvals (inv_settleFails (inv_ite (inv_unitFail (inv_aerLog (inv_countLink h))) (inv_ite
        (inv_takeData h) (inv_ite (inv_unitFail (inv_countLink h)) (inv_unitFail (inv_countLink h))))))))

theorem kept_execCompletionTimeout {link : BitVec 2} {tag : BitVec 14} (h : Inv s) :
    Kept (execCompletionTimeout link tag s) := by
  unfold execCompletionTimeout
  extract_lets
  refine kept_next ?_
  split
  · exact inv_settleInvals h
  · exact inv_ite h (inv_settleInvals (inv_settleFails (inv_unitFail (inv_aerLog (inv_countLink h)))))

theorem kept_execTagQuarantineEnd {link : BitVec 2} {tag : BitVec 14} (h : Inv s) :
    Kept (execTagQuarantineEnd link tag s) := by
  unfold execTagQuarantineEnd
  extract_lets
  refine kept_next ?_
  split
  · exact h
  · exact inv_ite h (inv_settleInvals (inv_pumpAll h))

theorem inv_linkDown {k : Nat} (h : Inv s) : Inv (linkDown s k) := by
  unfold linkDown
  extract_lets _ _ t
  have ht : Inv t := inv_foldl (fun _ _ => inv_teardown) (inv_countLink h)
  exact inv_linkPut ht

theorem kept_execDlDown {link : BitVec 2} (h : Inv s) : Kept (execDlDown link s) :=
  kept_next (inv_ite (inv_linkDown h) h)

theorem kept_execPerstAssert {link : BitVec 2} {level : Bool} (h : Inv s) : Kept (execPerstAssert link level s) := by
  have hoff : Inv { s with hst := { s.hst with
      links := lset s.hst.links link.toNat { linkGet s link.toNat with perst := level } } } := by
    obtain ⟨hmem, hnor, hslot, hlanes, hctl, hlinks, hrest⟩ := h
    exact ⟨hmem, hnor, hslot, hlanes, hctl, (length_lset ..).trans hlinks, hrest⟩
  exact kept_next (inv_ite h (inv_ite hoff (inv_ite (inv_linkPut h) (inv_linkPut (inv_ite (inv_linkDown h) h)))))

theorem inv_setVfEnable {k : Nat} {set : Bool} {n : Nat} (h : Inv s) : Inv (setVfEnable s k set n) := by
  unfold setVfEnable
  extract_lets _ _ t
  have ht : Inv t := inv_foldl (fun _ _ => inv_teardown) h
  exact inv_ite h (inv_ite (inv_ite h (inv_fnPut h)) (inv_fnPut ht))

theorem kept_execVfEnable {link : BitVec 2} {set : Bool} {numVfs : BitVec 11} (h : Inv s) :
    Kept (execVfEnable link set numVfs s) :=
  kept_next (inv_setVfEnable h)

theorem kept_execL0sEntry {link : BitVec 2} (h : Inv s) : Kept (execL0sEntry link s) :=
  kept_next (inv_ite (inv_countLink (inv_linkPut h)) h)

theorem kept_execL1Entry {link : BitVec 2} (h : Inv s) : Kept (execL1Entry link s) :=
  kept_next (inv_ite (inv_countLink (inv_linkPut h)) h)

theorem kept_execL1Exit {link : BitVec 2} (h : Inv s) : Kept (execL1Exit link s) := kept_next (inv_wakeLink h)

theorem kept_execL12Entry {link : BitVec 2} {clkreq : Bool} (h : Inv s) : Kept (execL12Entry link s clkreq) := by
  unfold execL12Entry
  extract_lets _ _ _ _ _ _ _ t
  have ht : Inv t := inv_emit (inv_linkPut h)
  exact kept_next (inv_ite (inv_ite (inv_ite (inv_countLink (inv_countLink (inv_linkPut ht))) (inv_ite (inv_countLink
      (inv_linkPut ht)) ht)) (inv_ite (inv_countLink (inv_linkPut h)) h)) h)

/-! ### Machine/Cipher.lean -/

theorem inv_reqWrite {r : CReq} {a : Nat} {bs : List Byte} (h : Inv s) : Inv (reqWrite s r a bs) := by
  unfold reqWrite
  split
  · exact inv_mapWrite h
  · exact inv_hbmStore h
  · exact h

theorem inv_processTo {e : Nat} {r : CReq} {p : Nat} (h : Inv s) : Inv (processTo s e r p) := by
  unfold processTo
  extract_lets
  split
  · exact inv_creqPut h
  · exact inv_ite (inv_setChan (inv_creqPut h)) (inv_creqPut h)
  · exact inv_ite (inv_creqPut h) (inv_reqWrite (inv_creqPut h))

theorem inv_advanceEng {e : Nat} (h : Inv s) : Inv (advanceEng s e) := by
  unfold advanceEng
  split
  · exact h
  · exact inv_ite h (inv_processTo (inv_draw h))

theorem inv_advanceEngs (h : Inv s) : Inv (advanceEngs s) := inv_foldl (fun _ _ => inv_advanceEng) h

theorem inv_assignReq {r : CReq} {e : Nat} (h : Inv s) : Inv (assignReq s r e) := inv_setEng (inv_creqPut h)

theorem inv_moveGrant {code : Nat} (h : Inv s) : Inv (moveGrant s code) := by
  unfold moveGrant
  split
  · exact h
  · split
    · exact inv_count h
    · exact inv_ite h (inv_ite (inv_count h) (inv_creqPut (inv_ite (inv_assignReq h) h)))

theorem inv_useGrant {code : Nat} (h : Inv s) : Inv (useGrant s code) :=
  inv_dmaCipherPump (inv_moveGrant (inv_advanceEngs h))

theorem kept_execCipherGrant {slot : BitVec 12} {k : BitVec 3} {rowOk : Bool} (h : Inv s) :
    Kept (execCipherGrant slot k rowOk s) :=
  kept_next (inv_ite (inv_rowFailed (inv_atSlot h)) (inv_useGrant (inv_atSlot h)))

theorem inv_settleNet {n : Nat} (h : Inv s) : Inv (settleNet s n) := by
  induction n generalizing s with
  | zero => exact h
  | succ n ih =>
    unfold settleNet
    extract_lets
    split
    · exact h
    · extract_lets
      split
      · exact ih (inv_admitItem (inv_itemRemove h))
      · exact ih h

theorem inv_netDone {r : CReq} {id : Nat} {status : BitVec 8} {out tag : List Byte} (h : Inv s) :
    Inv (netDone s r id status out tag) := by
  unfold netDone
  split
  · exact h
  · extract_lets _ _ _ t _ u
    have ht : Inv t := inv_itemPut h
    clear_value t
    have hu : Inv u := inv_ite ht (inv_itemRemove (inv_count h))
    clear_value u
    exact inv_settleNet hu

theorem inv_dmaCipherDone {c : Nat} {status detail : BitVec 8} (h : Inv s) : Inv (dmaCipherDone s c status detail) :=
  inv_finishChan (inv_setChan h)

theorem inv_leaveEngine {r : CReq} (h : Inv s) : Inv (leaveEngine s r) := by
  unfold leaveEngine
  split
  · exact h
  · exact inv_setEng h

theorem inv_cipherEnd {r : CReq} {status detail : BitVec 8} {done : Nat} {out tag : List Byte} (h : Inv s) :
    Inv (cipherEnd s r status detail done out tag) := by
  unfold cipherEnd
  extract_lets _ _ _ t u _ v w _ _ x
  have ht : Inv t := inv_countN (inv_count (inv_leaveEngine h))
  have hu : Inv u := inv_ite (inv_count ht) ht
  have hv : Inv v := inv_ite (inv_ctrAddAt (inv_countAt hu)) hu
  have hw : Inv w := by
    dsimp only [w]
    split
    · exact inv_keyRelease hv
    · exact hv
  have hx : Inv x := inv_dmaCipherPump hw
  split
  · exact inv_putResult hx
  · exact inv_emit hx
  · exact inv_ite (inv_dmaCipherDone hx) hx
  · exact inv_netDone hx

theorem inv_bindNow {r : CReq} (h : Inv s) : Inv (bindNow s r) := inv_creqPut (inv_count (inv_slotUse h))

theorem inv_runNow {e id : Nat} (h : Inv s) : Inv (runNow s e id) := by
  unfold runNow
  split
  · exact h
  · exact inv_setEng (inv_creqPut h)

theorem inv_countRevoked {r : CReq} (h : Inv s) : Inv (countRevoked s r) := inv_ite (inv_count h) h

theorem inv_startReq {e : Nat} {r : CReq} (h : Inv s) : Inv (startReq s e r) := by
  unfold startReq
  split
  · exact inv_cipherEnd (inv_countRevoked h)
  · split
    · exact inv_runNow h
    · split
      · exact inv_cipherEnd h
      · split
        · exact inv_cipherEnd h
        · split
          · exact inv_cipherEnd h
          · split
            · exact inv_cipherEnd h
            · split
              · exact inv_runNow h
              · split
                · exact inv_cipherEnd h
                · split
                  · exact h
                  · split
                    · exact inv_creqPut (inv_fetchSlot h)
                    · extract_lets
                      split
                      · exact inv_cipherEnd (inv_count (inv_cacheTouch h))
                      · exact inv_runNow (inv_bindNow (inv_cacheTouch h))

theorem inv_resumeReq {e : Nat} {r : CReq} (h : Inv s) : Inv (resumeReq s e r) := inv_setEng h

theorem inv_startNext {e : Nat} (h : Inv s) : Inv (startNext s e) := by
  unfold startNext
  refine inv_ite h ?_
  dsimp only
  split
  · exact inv_resumeReq h
  · exact inv_startReq h
  · split
    · exact inv_startReq h
    · exact h

theorem kept_execCipherRequestStart {e : BitVec 6} (h : Inv s) : Kept (execCipherRequestStart e s) :=
  kept_next (inv_startNext h)

theorem inv_landFill {n : Nat} {ok : Bool} (h : Inv s) : Inv (landFill s n ok) := by
  unfold landFill
  split
  · exact inv_ite h (inv_count h)
  next e =>
    extract_lets t
    have ht : Inv t := inv_count ((invSome_cacheIn h) _ e)
    exact inv_ite ht (inv_quarantineSlot ht)

theorem kept_execKennelCacheFill {slot : BitVec 20} {ok : Bool} (h : Inv s) : Kept (execKennelCacheFill slot ok s) :=
  kept_next (inv_ite h (inv_ite (inv_landFill h) (inv_ite (inv_ite (inv_count h) (inv_quarantineSlot (inv_count h)))
    h)))

theorem kept_execSuspend {e : BitVec 6} (h : Inv s) : Kept (execSuspend e s) := by
  unfold execSuspend
  extract_lets
  refine kept_next ?_
  split
  · exact inv_advanceEng h
  · exact inv_ite (inv_startNext (inv_count (inv_setEng (inv_advanceEng h)))) (inv_advanceEng h)

theorem inv_writeTag {r : CReq} {tag : List Byte} (h : Inv s) : Inv (writeTag s r tag) := inv_ite h (inv_reqWrite h)

theorem inv_finishReq {e : Nat} {r : CReq} (h : Inv s) : Inv (finishReq s e r) := by
  unfold finishReq
  extract_lets _ t
  have ht : Inv t := inv_ite (inv_processTo h) h
  exact inv_cipherEnd (inv_writeTag (inv_ite ht ht))

theorem inv_resumeNext {e : Nat} (h : Inv s) : Inv (resumeNext s e) := inv_ite (inv_startNext h) h

theorem kept_execCipherRequestComplete {e : BitVec 6} (h : Inv s) : Kept (execCipherRequestComplete e s) := by
  refine kept_next ?_
  split
  · exact h
  · exact inv_ite (inv_resumeNext (inv_finishReq h)) h

theorem inv_stopReq {e id : Nat} {status detail : BitVec 8} (h : Inv s) : Inv (stopReq s e id status detail) := by
  unfold stopReq
  extract_lets t
  have ht : Inv t := inv_ite (inv_advanceEng h) h
  split
  · exact ht
  · exact inv_cipherEnd ht

theorem kept_execRevokedUserStop {e : BitVec 6} (h : Inv s) : Kept (execRevokedUserStop e s) := by
  unfold execRevokedUserStop
  extract_lets
  refine kept_next ?_
  split
  · exact h
  · split
    · exact h
    · exact inv_resumeNext (inv_stopReq (inv_countRevoked h))

theorem inv_settleFault {e id : Nat} (h : Inv s) : Inv (settleFault s e id) := by
  unfold settleFault
  split
  · exact h
  · split
    · exact inv_stopReq (inv_countRevoked h)
    · extract_lets _ t
      have ht : Inv t := by
        dsimp only [t]
        split
        · exact inv_ite (inv_setChan h) h
        · exact h
      exact inv_ite (inv_creqPut (inv_count (inv_leaveEngine ht))) (inv_stopReq h)

theorem inv_settleEngine {e : Nat} (h : Inv s) : Inv (settleEngine s e) :=
  inv_foldl (fun _ _ => inv_settleFault) h

theorem inv_engineFails {e : Nat} (h : Inv s) : Inv (engineFails s e) :=
  inv_ite (inv_settleEngine (inv_event (inv_setEng h))) h

theorem kept_execKat {e : BitVec 6} {pass : Bool} (h : Inv s) : Kept (execKat e pass s) :=
  kept_next (inv_ite h (inv_engineFails (inv_count h)))

theorem kept_execEngineOutOfUse {e : BitVec 6} (h : Inv s) : Kept (execEngineOutOfUse e s) :=
  kept_next (inv_engineFails h)

theorem inv_enginesEnabled {was : Nat} (h : Inv s) : Inv (enginesEnabled s was) :=
  inv_foldl (fun _ _ h' => inv_ite (inv_settleEngine (inv_event h')) (inv_ite (inv_setEng h') h')) h

theorem inv_netIssue {x : Item} (h : Inv s) : Inv (netIssue s x) := by
  refine inv_ite (inv_itemRemove (inv_count h)) ?_
  split
  · exact inv_itemRemove (inv_count h)
  · exact inv_cipherIssue (inv_itemPut h)

/-! ### Machine/Reset.lean -/

theorem inv_mainReset {on : Bool} (h : Inv s) : Inv (mainReset s on) := by
  unfold mainReset
  extract_lets was vals _ _ _ _ _ _ _ _ t u
  have ht : Inv t := by
    obtain ⟨hmem, hnor, -, -, -, -, -, hcages, -⟩ := h
    obtain ⟨-, -, -, hlanes, hctl, -, -, -, hwins⟩ := inv_reset
    refine ⟨?_, by exact hnor, Nat.zero_lt_succ 4095, hlanes, hctl, ?_, List.length_replicate, by exact hcages, hwins⟩
    · cases on
      · rfl
      · exact hmem
    · exact (List.length_map _).trans List.length_range
  have hu : Inv u := inv_ite (inv_takeMainCalib ht) ht
  clear_value u
  exact inv_ite hu (inv_event hu)

/-! ### Machine/Power.lean -/

theorem inv_setExtract {x : Extract} (h : Inv s) : Inv (setExtract s x) := by
  unfold setExtract
  split
  · exact h
  · extract_lets _ _ t
    have ht : Inv t := by
      dsimp only [t]
      split
      · exact inv_count h
      · exact inv_count h
      · exact h
    exact inv_event ht

theorem inv_cages {l : List Cage} (h : Inv s) (hl : l.length = 16) :
    Inv { s with isl := { s.isl with cages := l } } := by
  obtain ⟨hmem, hnor, hslot, hlanes, hctl, hlinks, hboxes, -, hwins⟩ := h
  exact ⟨hmem, hnor, hslot, hlanes, hctl, hlinks, hboxes, hl, hwins⟩

theorem inv_cagePut {c : Nat} {x : Cage} (h : Inv s) :
    Inv { s with isl := { s.isl with cages := lset s.isl.cages c x } } := by
  refine inv_cages h ?_
  obtain ⟨-, -, -, -, -, -, -, hcages, -⟩ := h
  exact (length_lset ..).trans hcages

theorem inv_setCage {c : Nat} {st : CageState} (h : Inv s) : Inv (setCage s c st) := by
  unfold setCage
  extract_lets
  split
  · exact h
  · cases st
    case powerDenied => exact inv_event (inv_count (inv_cagePut h))
    all_goals exact inv_event (inv_cagePut h)

theorem inv_releaseModule {c : Nat} (h : Inv s) : Inv (releaseModule s c) := inv_ite (inv_setCage h) h

theorem inv_mainResult {r : Nat} (h : Inv s) : Inv (mainResult s r) := inv_objPut h

theorem inv_toStage1 (h : Inv s) : Inv (toStage1 s) := h

theorem inv_toBackoff {code : Nat} (h : Inv s) : Inv (toBackoff s code) := inv_ite h h

theorem invSome_startUp (h : Inv s) : InvSome (startUp s) := by
  refine invSome_ite invSome_none ?_
  split <;> exact invSome_some h

theorem inv_dropRails (h : Inv s) : Inv (dropRails s) :=
  inv_foldl (fun _ _ h' => inv_ite h' (inv_setCage h')) (inv_ite (inv_toStage1 (inv_mainReset h)) (inv_mainReset h))

theorem invSome_powerDownRequest {extraction : Bool} (h : Inv s) : InvSome (powerDownRequest s extraction) := by
  unfold powerDownRequest
  split
  · exact invSome_ite invSome_none (invSome_some h)
  · exact invSome_some h
  · exact invSome_some h

theorem invSome_mainPowerWrite {v : Nat} (h : Inv s) : InvSome (mainPowerWrite s v) := by
  unfold mainPowerWrite
  split
  · split
    · exact invSome_none
    next e => exact invSome_some (inv_mainResult (invSome_powerDownRequest h _ e))
  · split
    · exact invSome_some (inv_mainResult h)
    · intro t e
      obtain ⟨u, hu, rfl⟩ := Option.map_eq_some_iff.1 e
      exact inv_mainResult (invSome_startUp h _ hu)

theorem inv_railsOff (h : Inv s) : Inv (railsOff s) := by
  unfold railsOff
  split
  · exact inv_ite (inv_setExtract h) (inv_getD (inv_setExtract (inv_setExtract h)) (invSome_startUp (inv_setExtract
        (inv_setExtract h))))
  · exact h

theorem kept_execPwrGoodRise {rail : BitVec 3} (h : Inv s) : Kept (execPwrGoodRise rail s) := by
  refine kept_next ?_
  split
  · exact inv_ite (inv_ite h h) h
  · exact h

theorem inv_sequenceFails {good : BitVec 6} (h : Inv s) : Inv (sequenceFails s good) :=
  inv_toBackoff (inv_eventFull (inv_event (inv_count (inv_mainResult h))))

theorem kept_execRailGoodTimeout {rail : BitVec 3} (h : Inv s) : Kept (execRailGoodTimeout rail s) := by
  refine kept_next ?_
  split
  · exact inv_ite (inv_sequenceFails h) h
  · exact h

/-- The lanes come from the state before the calibration is taken, the other banks from the state after it. -/
theorem kept_execMainResetRelease (h : Inv s) : Kept (execMainResetRelease s) := by
  unfold execMainResetRelease
  refine kept_next ?_
  split
  · have hcal := inv_takeMainCalib h
    generalize takeMainCalib s = t at hcal
    refine inv_foldl (fun _ _ hv => inv_releaseModule hv) (inv_count ?_)
    obtain ⟨-, -, -, hlanes, -⟩ := h
    obtain ⟨hmem, hnor, hslot, -, hctl, -, hrest⟩ := hcal
    exact ⟨hmem, hnor, hslot, hlanes, hctl, (List.length_map _).trans List.length_range, hrest⟩
  · exact h

theorem inv_powerDownRefused (h : Inv s) : Inv (powerDownRefused s) := by
  unfold powerDownRefused
  extract_lets _ t
  have ht : Inv t := inv_count (inv_mainResult h)
  split
  · exact inv_setExtract ht
  · exact ht

theorem kept_execMainHoldOffExpiry (h : Inv s) : Kept (execMainHoldOffExpiry s) :=
  kept_next (inv_ite (inv_powerDownRefused h) h)

theorem kept_execMainPowerDown (h : Inv s) : Kept (execMainPowerDown s) :=
  kept_next (inv_ite (inv_railsOff (inv_mainResult (inv_dropRails h))) h)

theorem kept_execRailFault {rail : BitVec 3} (h : Inv s) : Kept (execRailFault rail s) := by
  unfold execRailFault
  extract_lets
  refine kept_next (inv_ite h ?_)
  split
  · exact h
  · exact inv_railsOff (inv_toBackoff (inv_event (inv_count (inv_mainResult (inv_dropRails (inv_hardFault h))))))
  · exact inv_ite (inv_sequenceFails h) h

theorem inv_powerResult {n r : Nat} (h : Inv s) : Inv (powerResult s n r) := inv_objPut h

theorem inv_setIslandState {n v : Nat} (h : Inv s) : Inv (setIslandState s n v) := h

theorem inv_controllerLost {n : Nat} (h : Inv s) : Inv (controllerLost s n) := h

theorem inv_islandLost {n : Nat} (h : Inv s) : Inv (islandLost s n) :=
  inv_ite h (inv_ite h (inv_ite (inv_controllerLost h) h))

theorem inv_islandQuiet {n : Nat} (h : Inv s) : Inv (islandQuiet s n) :=
  inv_ite (inv_foldl (fun _ _ h' => inv_linkPut (inv_ite (inv_linkDown h') h')) h) (inv_ite (inv_foldl (fun _ _ h' =>
    inv_setLane h') h) h)

theorem inv_islandLeaves {n v : Nat} (h : Inv s) : Inv (islandLeaves s n v) := by
  unfold islandLeaves
  extract_lets t
  have ht : Inv t := inv_islandQuiet (inv_setIslandState h)
  exact inv_ite (inv_islandLost ht) ht

theorem inv_islandReturns {n : Nat} (h : Inv s) : Inv (islandReturns s n) := by
  unfold islandReturns
  extract_lets t
  have ht : Inv t := inv_takeCalib (inv_setIslandState h)
  clear_value t
  split
  · split
    · extract_lets u
      have hu : Inv u := inv_objPut ht
      clear_value u
      exact hu
    · exact ht
  · exact inv_ite ht (inv_ite (inv_foldl (fun _ _ => inv_linkPut) ht) (inv_ite (inv_raiseLanes (inv_downLanes
        ht)) ht))

theorem inv_islandPowerWrite {n v : Nat} (h : Inv s) : Inv (islandPowerWrite s n v).1 :=
  inv_ite_fst (inv_ite_fst (inv_powerResult h) (inv_ite_fst (inv_powerResult h) (inv_ite_fst (inv_powerResult
    (inv_setIslandState h)) (inv_powerResult (inv_islandReturns h))))) (inv_ite_fst (inv_count h) (inv_ite_fst
    (inv_powerResult h) (inv_ite_fst (inv_powerResult (inv_count h)) h)))

theorem kept_execIslandPowerEffect {island : BitVec 6} (h : Inv s) : Kept (execIslandPowerEffect island s) := by
  unfold execIslandPowerEffect
  extract_lets
  refine kept_next ?_
  split
  · exact h
  · exact inv_ite h (inv_powerResult (inv_islandLeaves h))

theorem kept_execIslandHoldOffExpiry {island : BitVec 6} (h : Inv s) : Kept (execIslandHoldOffExpiry island s) :=
  kept_next (inv_ite (inv_powerResult (inv_count h)) h)

theorem kept_execRefclkLoss (h : Inv s) : Kept (execRefclkLoss s) := kept_next (inv_ite h (inv_event (inv_count h)))

theorem kept_execRefclkRelock (h : Inv s) : Kept (execRefclkRelock s) := kept_next (inv_ite h h)

theorem inv_sampleTemps {readings : List (BitVec 16)} (h : Inv s) : Inv (sampleTemps s readings) := by
  unfold sampleTemps
  extract_lets t
  have ht : Inv t := inv_takeCalib h
  clear_value t
  exact inv_with ht

theorem kept_execJunctionAbove100 {readings : List (BitVec 16)} (h : Inv s) :
    Kept (execJunctionAbove100 readings s) :=
  kept_next (inv_sampleTemps h)

theorem kept_execJunctionOver105 {readings : List (BitVec 16)} (h : Inv s) : Kept (execJunctionOver105 readings s) :=
  kept_next (inv_ite (inv_event (inv_count (inv_sampleTemps h))) (inv_sampleTemps h))

theorem kept_execThermalTrip {readings : List (BitVec 16)} (h : Inv s) : Kept (execThermalTrip readings s) := by
  unfold execThermalTrip
  extract_lets t u v w
  have ht : Inv t := inv_sampleTemps h
  clear_value t
  have hu : Inv u := inv_hardFault ht
  clear_value u
  have hv : Inv v := inv_event (inv_count hu)
  clear_value v
  have hw : Inv w := inv_dropRails hv
  clear_value w
  exact kept_next (inv_ite (inv_railsOff (inv_toBackoff (inv_with hw))) ht)

theorem kept_execTjHour {mean : BitVec 16} (h : Inv s) : Kept (execTjHour mean s) :=
  kept_next (inv_ite (inv_count h) h)

/-! ### Machine/Sheepdog.lean -/

theorem inv_dequeue {p q : Nat} {f : QFrame} {path : List (Nat × Nat × Choice)} (h : Inv s) :
    Inv (dequeue s p q f path) := by
  unfold dequeue
  extract_lets t u _ _ _ v
  have ht : Inv t := inv_foldl (fun _ _ => inv_commitChoice) h
  have hu : Inv u := inv_foldl (fun _ _ => inv_chargeNode) ht
  have hv : Inv v := by
    dsimp only [v]
    split
    · exact inv_ledRun (inv_setFifo (inv_setQueue hu))
    · exact inv_setFifo (inv_setQueue hu)
  exact inv_clearDeficits (inv_ite (inv_count hv) hv)

theorem invSome_serve {p : Nat} (h : Inv s) : InvSome (serve s p) := by
  unfold serve
  split
  · split
    · exact invSome_none
    · split
      · exact invSome_none
      · extract_lets
        split
        · exact invSome_none
        · exact invSome_ite (invSome_some (inv_dequeue h)) invSome_none
  · exact invSome_none

theorem inv_unusedOpportunity {n : Nat} (h : Inv s) : Inv (unusedOpportunity s n) := inv_ite (inv_count h) h

theorem kept_execEgressOpportunity {slot : BitVec 12} {j : BitVec 2} {rowOk : Bool} (h : Inv s) :
    Kept (execEgressOpportunity slot j rowOk s) := by
  unfold execEgressOpportunity
  extract_lets
  refine kept_next ?_
  split
  · exact inv_unusedOpportunity (inv_rowFailed (inv_atSlot h))
  · split
    · exact inv_atSlot h
    · split
      next e =>
        exact (invSome_serve (inv_atSlot h)) _ e
      · exact inv_unusedOpportunity (inv_atSlot h)

theorem inv_finishDown {p : Nat} (h : Inv s) : Inv (finishDown s p) := by
  unfold finishDown
  split
  · extract_lets _ _ t
    have ht : Inv t := inv_foldl (fun _ _ => inv_setLane) h
    exact inv_ite (inv_foldl (fun _ _ => inv_bringUp) ht) ht
  · exact h

theorem inv_downNow {p : Nat} (h : Inv s) : Inv (downNow s p) := inv_ite (inv_finishDown h) h

theorem inv_downPorts (h : Inv s) : Inv (downPorts s) := inv_foldl (fun _ _ => inv_downNow) h

theorem kept_execFrameSent {port : BitVec 5} (h : Inv s) : Kept (execFrameSent port s) := by
  unfold execFrameSent
  extract_lets
  refine kept_next ?_
  split
  · exact h
  · exact inv_ite (inv_finishDown (inv_retireFrame (inv_bufRelease (inv_emit (inv_ctrAddAt (inv_countAt (inv_count
        (inv_countN (inv_count (inv_setFifo h)))))))))) h

end Sys2Proof.Machine.Laws
end

section
/-! SUPPORT. The operations of forwarding, tables, the pair and the panel, and the boot, keep the invariant. -/

namespace Sys2Proof.Machine.Laws

open Sys2Proof Sys2Proof.Machine

variable {s : State}

/-! ### Machine/FwdOps.lean -/

theorem inv_setL2Hp {i v : Nat} (h : Inv s) : Inv (setL2Hp s i v) := h

theorem inv_flowPut {i : Nat} {e : BitVec 512} (h : Inv s) : Inv (flowPut s i e) := h

theorem inv_hpPut {flow : Bool} {i v : Nat} (h : Inv s) : Inv (hpPut s flow i v) :=
  inv_ite (inv_flowPut h) (inv_setL2Hp h)

theorem inv_sharedPut {tbl i e : Nat} (h : Inv s) : Inv (sharedPut s tbl i e) :=
  inv_ite (inv_record h) (inv_ite (inv_record h) (inv_ite (inv_record h) (inv_flowPut (inv_record h))))

theorem inv_quarShared {tbl i : Nat} (h : Inv s) : Inv (quarShared s tbl i) := inv_event (inv_count h)

theorem inv_readShared {tbl : Nat} {l : List Nat} (h : Inv s) : Inv (readShared s tbl l).2 := by
  induction l generalizing s with
  | nil => exact h
  | cons i l ih => exact ih (inv_ite (inv_quarShared h) h)

theorem inv_cacheUse {b : Nat} (h : Inv s) : Inv (cacheUse s b) := h

theorem inv_askFill {bs : Nat × Nat} (h : Inv s) : Inv (askFill s bs) := inv_ite h (inv_count h)

theorem inv_lookDa {key : Nat} (h : Inv s) : Inv (lookDa s key).2 := by
  unfold lookDa
  extract_lets _ t
  have ht : Inv t.2 := inv_readShared h
  clear_value t
  split <;> exact ht

theorem inv_lookSa {key p : Nat} (h : Inv s) : Inv (lookSa s key p).2 := by
  unfold lookSa
  extract_lets _ t
  have ht : Inv t.2 := inv_readShared h
  clear_value t
  split
  · exact inv_ite_snd (inv_setL2Hp ht) ht
  · exact ht

theorem inv_lookLpm {d : BitVec 512} {v6 : Bool} {vrf addr : Nat} {l : List Nat} (h : Inv s) :
    Inv (lookLpm s d v6 vrf addr l).2 := by
  induction l generalizing s with
  | nil => exact h
  | cons g l ih =>
    refine inv_ite_snd (ih h) ?_
    dsimp only
    split <;> exact ih (inv_readShared h)

theorem inv_lookFlow {key : Nat} (h : Inv s) : Inv (lookFlow s key).2 := by
  unfold lookFlow
  extract_lets _ t _ u
  have ht : Inv t := inv_cacheUse (inv_cacheUse (inv_count h))
  clear_value t
  have hu : Inv u.2 := inv_readShared ht
  clear_value u
  refine inv_ite_snd ?_ (inv_askFill (inv_count h))
  split
  · exact inv_hpPut hu
  · exact hu

theorem inv_sharedLookups {d : BitVec 512} {x : Item} (h : Inv s) : Inv (sharedLookups s d x).2.2 := by
  unfold sharedLookups
  extract_lets _ _ _ _ _ t u _ _ v
  have ht : Inv t.2 := inv_ite_snd (inv_lookDa h) h
  have hu : Inv u.2 := inv_ite_snd (inv_lookSa ht) ht
  have hv : Inv v.2 := inv_ite_snd (inv_lookLpm hu) hu
  exact inv_ite_snd (inv_lookFlow hv) hv

theorem inv_pushLearn {r : LearnReq} (h : Inv s) : Inv (pushLearn s r) :=
  inv_ite (inv_count (inv_ite h h)) (inv_ite h h)

theorem inv_stampMove {key : Nat} (h : Inv s) : Inv (stampMove s key) := inv_ite h (inv_count h)

theorem inv_applyMove {i : Nat} {r : LearnReq} (h : Inv s) : Inv (applyMove s i r) :=
  inv_ite (inv_count h) (inv_ite (inv_count h) (inv_count (inv_stampMove (inv_sharedPut h))))

theorem inv_applyL2 {r : LearnReq} (h : Inv s) : Inv (applyL2 s r) := by
  unfold applyL2
  extract_lets
  split
  · exact inv_ite (inv_count (inv_readShared h)) (inv_ite (inv_count (inv_readShared h)) (inv_applyMove
        (inv_readShared h)))
  · split
    · exact inv_count (inv_readShared h)
    · exact inv_ite (inv_count (inv_readShared h)) (inv_setL2Hp (inv_count (inv_sharedPut (inv_readShared h))))

theorem inv_applyFlow {r : LearnReq} (h : Inv s) : Inv (applyFlow s r) := by
  unfold applyFlow
  extract_lets
  split
  · exact inv_count (inv_readShared h)
  · split
    · exact inv_count (inv_readShared h)
    · exact inv_count (inv_sharedPut (inv_readShared h))

theorem inv_learnL2 (h : Inv s) : Inv (learnL2 s) := by
  unfold learnL2
  split
  · exact h
  · exact inv_ite h (inv_ite (inv_waitRoom h) (inv_applyL2 h))

theorem inv_learnFlow (h : Inv s) : Inv (learnFlow s) := by
  unfold learnFlow
  split
  · exact h
  · exact inv_ite h (inv_ite (inv_ite h (inv_askFill h)) (inv_ite (inv_waitRoom h) (inv_applyFlow h)))

theorem inv_setSweep {flow : Bool} {x : Sweep} (h : Inv s) : Inv (setSweep s flow x) := inv_ite h h

theorem inv_visitEntry {flow : Bool} {i : Nat} (h : Inv s) : Inv (visitEntry flow i s) :=
  inv_ite h (inv_ite (inv_hpPut h) (inv_setSweep (inv_hpPut h)))

theorem inv_visitPlaces {flow : Bool} {b n : Nat} (h : Inv s) : Inv (visitPlaces flow b n s) := by
  induction n generalizing s with
  | zero => exact inv_setSweep h
  | succ n ih => exact inv_ite (inv_setSweep h) (ih (inv_visitEntry h))

theorem inv_visitBucket {flow : Bool} (h : Inv s) : Inv (visitBucket s flow) := by
  unfold visitBucket
  extract_lets
  split
  · exact h
  · exact inv_ite (inv_setSweep h) (inv_visitPlaces (inv_readShared h))

theorem inv_retireRemoval {flow : Bool} {r : Removal} (h : Inv s) : Inv (retireRemoval s flow r) :=
  inv_ite (inv_count (inv_hpPut (inv_sharedPut (inv_readShared (inv_setSweep h))))) (inv_count (inv_hpPut
    (inv_readShared (inv_setSweep h))))

theorem inv_startPass {flow : Bool} (h : Inv s) : Inv (startPass s flow) := by
  unfold startPass
  extract_lets
  refine inv_ite ?_ h
  split
  · exact inv_setSweep h
  · exact inv_count (inv_setSweep h)

theorem inv_onLeg {k rank : Nat} {act : State → State} (h : Inv s) (hact : ∀ t, Inv t → Inv (act t)) :
    Inv (onLeg s k rank act) :=
  inv_ite (hact _ h) h

theorem inv_retireHeld {flow : Bool} {n : Nat} (h : Inv s) : Inv (retireHeld flow n s) := by
  induction n generalizing s with
  | zero => exact h
  | succ n ih =>
    unfold retireHeld
    split
    · exact h
    · exact inv_ite (ih (inv_retireRemoval h)) (inv_waitRoom h)

theorem inv_endSlot (h : Inv s) : Inv (endSlot s) := inv_retireHeld h

theorem inv_openSlot (h : Inv s) : Inv (openSlot s) := inv_ite h (inv_endSlot h)

theorem inv_sweepLeg {k : Nat} {flow : Bool} (h : Inv s) : Inv (sweepLeg s k flow) :=
  inv_ite (inv_ite (inv_onLeg (inv_startPass h) (fun _ h' => h')) (inv_onLeg (inv_waitRoom (inv_startPass h)) (fun _
    h' => inv_visitBucket h'))) (inv_onLeg (inv_startPass h) (fun _ => inv_visitBucket))

theorem inv_sweepBoundary {flow : Bool} (h : Inv s) : Inv (sweepBoundary s flow) :=
  inv_setSweep (inv_ite (inv_count h) h)

/-! ### Machine/TableOps.lean -/

theorem inv_setTcWin {w : Nat} {x : TcWin} (h : Inv s) : Inv (setTcWin s w x) := by
  obtain ⟨hmem, hnor, hslot, hlanes, hctl, hlinks, hboxes, hcages, hwins⟩ := h
  exact ⟨hmem, hnor, hslot, hlanes, hctl, hlinks, hboxes, hcages, (length_lset ..).trans hwins⟩

theorem inv_ctl {l : List (List SeqCmd)} (h : Inv s) (hl : l.length = s.pipe.ctl.length) :
    Inv { s with pipe := { s.pipe with ctl := l } } := by
  obtain ⟨hmem, hnor, hslot, hlanes, hctl, hrest⟩ := h
  exact ⟨hmem, hnor, hslot, hlanes, hl.trans hctl, hrest⟩

theorem inv_ctlPush {c : SeqCmd} (h : Inv s) : Inv (ctlPush s c) := inv_ctl h (List.length_map _)

theorem inv_tcCommand {w op target : Nat} {other : Bool} {table : Nat} (h : Inv s) :
    Inv (tcCommand s w op target other table) := by
  unfold tcCommand
  split
  · exact h
  · split
    · extract_lets _ _ t
      have ht : Inv t := inv_noteWait (inv_count (inv_setTcWin h))
      exact inv_ite (inv_count ht) ht
    · exact inv_ite (inv_ctlPush (inv_setTcWin (inv_ledAccept h))) (inv_setTcWin (inv_ledAccept h))

theorem inv_tcFinish {w result : Nat} {hit pend : Bool} {data : Option (BitVec 2048)} (h : Inv s) :
    Inv (tcFinish s w result hit pend data) := by
  unfold tcFinish
  split
  · exact h
  · exact inv_ledDone (inv_setTcWin h)

theorem inv_tcStageResult {w p : Nat} {c : TcCmd} {r : Nat × BitVec 2048} (h : Inv s) :
    Inv (tcStageResult s w p c r) :=
  inv_ite (inv_tcFinish (inv_setTcWin h)) (inv_setTcWin h)

theorem inv_tcStageStep {w p : Nat} (h : Inv s) : Inv (tcStageStep s w p) := by
  unfold tcStageStep
  split
  · exact h
  · extract_lets
    split
    · exact inv_tcStageResult (inv_ledRun h)
    · exact inv_ledRun h

theorem inv_landCommand {e : Nat × Nat × Nat × BitVec 512} (h : Inv s) : Inv (landCommand s e) := by
  unfold landCommand
  split
  · exact h
  · exact inv_tcStageResult (inv_stageCommand h)

theorem inv_landBy {m : Nat} (h : Inv s) : Inv (landBy s m) := inv_foldl (fun _ _ => inv_landCommand) h

theorem inv_atPort {slot : BitVec 12} (h : Inv s) : Inv (atPort s slot) := inv_landBy (inv_atSlot h)

theorem inv_tcWrite {target i e : Nat} (h : Inv s) : Inv (tcWrite s target i e) :=
  inv_ite (inv_setL2Hp (inv_sharedPut h)) (inv_sharedPut h)

theorem inv_sharedCommand {c : TcCmd} (h : Inv s) : Inv (sharedCommand s c).2 := by
  unfold sharedCommand
  extract_lets
  refine inv_ite_snd h (inv_ite_snd h ?_)
  split
  · exact inv_readShared h
  · split
    · exact inv_tcWrite (inv_readShared h)
    · exact inv_readShared h
  · exact inv_readShared h
  · exact inv_ite (inv_setL2Hp (inv_sharedPut (inv_readShared h))) (inv_sharedPut (inv_readShared h))
  · exact inv_readShared h
  · exact inv_ite_snd (inv_tcWrite (inv_readShared h)) (inv_readShared h)
  · exact inv_tcWrite (inv_readShared h)

theorem inv_flushBucket {b port : Nat} (h : Inv s) : Inv (flushBucket s b port) :=
  inv_foldl (fun _ _ h' => inv_ite (inv_setL2Hp (inv_sharedPut h')) h') (inv_readShared h)

theorem inv_commandLeg (h : Inv s) : Inv (commandLeg s) := by
  unfold commandLeg
  split
  · exact h
  · split
    · exact inv_with h
    · extract_lets t _ u _ v
      have ht : Inv t := inv_ledRun h
      clear_value t
      have hu : Inv u := inv_flushBucket ht
      clear_value u
      have hv : Inv v.2 := inv_sharedCommand ht
      clear_value v
      split
      · exact inv_tcFinish (inv_with ht)
      · exact inv_ite (inv_ite (inv_tcFinish (inv_with ht)) (inv_ite (inv_setTcWin hu) (inv_tcFinish (inv_with hu))))
            (inv_tcFinish (inv_with hv))

theorem inv_tcRelease {w : Nat} (h : Inv s) : Inv (tcRelease s w) := by
  unfold tcRelease
  split
  · exact h
  · split
    · exact h
    · exact inv_ite (inv_ledRetire (inv_count (inv_setTcWin h))) h

/-! ### Machine/ObjFx.lean -/

theorem inv_adminWrite {p v : Nat} (h : Inv s) : Inv (adminWrite s p v) := by
  unfold adminWrite
  extract_lets t
  have ht : Inv t := inv_objPut h
  clear_value t
  exact inv_ite (inv_foldl (fun _ _ h' => inv_ite (inv_bringUp h') h') ht) (inv_downNow ht)

theorem inv_laneWrite {idx sub v : Nat} (h : Inv s) : Inv (laneWrite s idx sub v) :=
  inv_raiseLanes (inv_objPut (inv_downLanes h))

theorem inv_policerWrite {sub n v : Nat} (h : Inv s) : Inv (policerWrite s sub n v) := inv_objPut (inv_polPut h)

theorem inv_closeTenants {sl : Nat} (h : Inv s) : Inv (closeTenants s sl) := by
  unfold closeTenants
  extract_lets _ t
  have ht : Inv t := inv_foldl (fun _ _ => inv_boxLeaves) h
  exact ht

theorem inv_setBinding {sl v : Nat} (h : Inv s) : Inv (setBinding s sl v) := inv_setSlice h

theorem inv_bindWrite {sl v : Nat} (h : Inv s) : Inv (bindWrite s sl v) := by
  unfold bindWrite
  extract_lets t u
  have ht : Inv t := inv_setBinding (inv_objPut h)
  have hu : Inv u := inv_ite ht (inv_closeTenants ht)
  split
  · exact inv_setSliceState hu
  · exact hu
  · exact inv_setSliceState hu
  · exact hu

theorem inv_clockWrite {c v : Nat} (h : Inv s) : Inv (clockWrite s c v) := inv_ite h (inv_objPut h)

theorem inv_engineResetWrite {c v : Nat} (h : Inv s) : Inv (engineResetWrite s c v) :=
  inv_pump (inv_foldl (fun _ _ => inv_engineReset) h)

theorem inv_coreWrite {idx sub el v : Nat} (h : Inv s) : Inv (coreWrite s idx sub el v) :=
  inv_ite (inv_raiseLanes (inv_objPut (inv_downLanes h))) (inv_ite (inv_laneWrite h) (inv_ite (inv_adminWrite h)
    (inv_ite (inv_clockWrite h) (inv_ite (inv_engineResetWrite h) (inv_ite (inv_writeEnable (inv_objPut h)) (inv_ite
    (inv_ite (inv_flushQueue h) h) (inv_ite (inv_ite (inv_obsClear h) h) (inv_ite (inv_policerWrite h) (inv_ite
    (inv_enginesEnabled (inv_objPut h)) (inv_ite (inv_sliceCmd h) (inv_ite (inv_bindWrite h) (inv_objPut h))))))))))))

theorem inv_applyParam {w : PWrite} (h : Inv s) : Inv (applyParam s w) := by
  unfold applyParam
  extract_lets t
  have ht : Inv t := inv_foldl (fun _ _ => inv_coreWrite) (inv_ledRun h)
  exact inv_ledDone ht

theorem inv_applyParams (h : Inv s) : Inv (applyParams s) := inv_foldl (fun _ _ => inv_applyParam) h

/-! ### Machine/Pair.lean -/

theorem invSome_transferGo (h : Inv s) : InvSome (transferGo s) := by
  unfold transferGo
  split
  · exact invSome_some h
  · exact invSome_some h
  · exact invSome_ite (invSome_some h) invSome_none

theorem invSome_pairEnableWrite {v : Nat} (h : Inv s) : InvSome (pairEnableWrite s v) := by
  unfold pairEnableWrite
  extract_lets
  split
  · exact invSome_ite (invSome_some (inv_setPairState (inv_fence (inv_objPut h)))) (invSome_some (inv_objPut h))
  · exact invSome_ite invSome_none (invSome_some (inv_objPut h))
  · exact invSome_ite invSome_none (invSome_some (inv_objPut h))
  · exact invSome_ite (invSome_some (inv_setPairState (inv_objPut h))) (invSome_some (inv_objPut h))

theorem inv_mirrorAccept {i : Nat} {e : LedEntry} (h : Inv s) : Inv (mirrorAccept s i e) := by
  unfold mirrorAccept
  extract_lets o fresh ix t u k src v
  have hu : Inv u := inv_ledMetaSet (inv_ordPut h)
  clear_value u
  have hv : Inv v := by
    dsimp -zeta only [v]
    split
    · extract_lets d d' w src w' x
      have hw : Inv w := inv_ledMetaSet hu
      clear_value w
      have hw' : Inv w' := hw
      exact inv_qpPut hw'
    · exact hu
  exact inv_ledPut hv

theorem inv_markFrame {i q : Nat} {back : Bool} (h : Inv s) : Inv (markFrame s i q back) := inv_setQueue h

theorem inv_dropFrame {i q : Nat} (h : Inv s) : Inv (dropFrame s i q) :=
  inv_foldl (fun _ _ => inv_bufRelease) (inv_setQueue h)

theorem inv_mirrorRetire {i : Nat} {e : LedEntry} (h : Inv s) : Inv (mirrorRetire s i e) := by
  unfold mirrorRetire
  extract_lets _ _ _ _ t
  have ht : Inv t := by
    dsimp only [t]
    split
    · exact inv_qpPut (inv_ordPut h)
    · exact inv_setTcWin (inv_ordPut h)
    · exact inv_dropFrame (inv_ordPut h)
    · exact inv_ordPut h
  exact inv_ledPut (inv_ledMetaSet ht)

theorem inv_mirrorChange {i : Nat} {old e : LedEntry} (h : Inv s) : Inv (mirrorChange s i old e) := by
  unfold mirrorChange
  extract_lets _ _ _ t
  have ht : Inv t := by
    dsimp only [t]
    split
    · exact inv_markFrame h
    · exact inv_ite (inv_ledMetaSet (inv_draw h)) (inv_ledMetaSet h)
    · exact h
  exact inv_ledPut ht

theorem inv_mirrorEntry {i : Nat} {e : LedEntry} (h : Inv s) : Inv (mirrorEntry s i e) := by
  unfold mirrorEntry
  split
  · exact inv_ite h (inv_mirrorAccept h)
  · exact inv_ite (inv_mirrorRetire h) (inv_mirrorChange h)

theorem inv_mirrorFrame {q h : Nat} {bytes : List Byte} (hI : Inv s) : Inv (mirrorFrame s q h bytes) :=
  inv_setQueue hI

theorem inv_mirrorTable {t key v : Nat} (h : Inv s) : Inv (mirrorTable s t key v) :=
  inv_ite (inv_sharedPut h) (inv_ite (inv_stgPut h) (inv_tcamPut h))

theorem inv_mirrorObject {key v : Nat} (h : Inv s) : Inv (mirrorObject s key v) := by
  unfold mirrorObject
  extract_lets _ _ _ _ t
  have ht : Inv t := inv_ite (inv_zeroSlice h) h
  exact inv_ite h (inv_ite (inv_ite ht (inv_setSliceState ht)) (inv_coreWrite h))

theorem inv_mirrorRegister {reg v : Nat} (h : Inv s) : Inv (mirrorRegister s reg v) :=
  inv_ite (inv_qpPut h) (inv_setChan h)

theorem inv_mirrorTimetable {ev beat : Nat} (h : Inv s) : Inv (mirrorTimetable s ev beat) := by
  unfold mirrorTimetable
  split
  · exact inv_ite (inv_ttSet h) h
  · exact inv_ite (inv_ttSet h) h
  · exact inv_makeCurrent h
  · exact h

theorem inv_mirrorRecord {x1 : DeltaRec} (h : Inv s) : Inv (mirrorRecord s x1) := by
  unfold mirrorRecord
  split
  · exact inv_mirrorEntry h
  · exact h
  · exact inv_mirrorFrame h
  · exact inv_mirrorTable h
  · split
    · exact inv_slotWrap (inv_slotUse h)
    · exact h
  · exact inv_mirrorObject h
  · exact inv_mirrorRegister h
  · exact inv_mirrorTimetable h

theorem inv_mirrorRecords {rs : List DeltaRec} (h : Inv s) : Inv (mirrorRecords s rs) :=
  inv_foldl (fun _ _ => inv_mirrorRecord) h

theorem inv_applyLogged (h : Inv s) : Inv (applyLogged s) := by
  unfold applyLogged
  split
  · exact h
  · exact inv_mirrorRecords h

theorem inv_applyLog (h : Inv s) : Inv (applyLog s) := inv_foldl (fun _ _ => inv_applyLogged) h

theorem inv_clearMirror (h : Inv s) : Inv (clearMirror s) := h

theorem kept_execDeltaReceived {whole : Bool} {beat : Nat} {records : List DeltaRec} {final : Bool} (h : Inv s) :
    Kept (execDeltaReceived whole beat records final s) :=
  kept_next (inv_ite (inv_emit h) h)

theorem kept_execDeltaApply (h : Inv s) : Kept (execDeltaApply s) := kept_next (inv_ite (inv_applyLogged h) h)

theorem kept_execSyncComplete {records : List DeltaRec} (h : Inv s) : Kept (execSyncComplete records s) :=
  kept_next (inv_ite (inv_setPairState (inv_applyLog (inv_mirrorRecords (inv_clearMirror h)))) h)

theorem inv_sendGrant {extraction : Bool} (h : Inv s) : Inv (sendGrant s extraction) := by
  unfold sendGrant
  extract_lets _ t u _ v w
  have ht : Inv t := inv_count (inv_emit h)
  clear_value t
  have hu : Inv u := inv_setPairState ht
  clear_value u
  have hv : Inv v := inv_with hu
  clear_value v
  have hw : Inv w := inv_setExtract hv
  clear_value w
  refine inv_ite ?_ hv
  split
  · exact inv_ite (inv_with hw) (inv_setExtract hv)
  · exact hv

theorem kept_execDeltaAckReceived {beat : Nat} (h : Inv s) : Kept (execDeltaAckReceived beat s) := by
  unfold execDeltaAckReceived
  refine kept_next ?_
  split
  · extract_lets
    split
    · exact inv_ite (inv_sendGrant (inv_count h)) (inv_count h)
    · exact inv_count h
  · exact h

theorem inv_takeLeash {granted : Bool} (h : Inv s) : Inv (takeLeash s granted) := inv_ite (inv_count h) h

theorem kept_execGrant {epoch : BitVec 64} (h : Inv s) : Kept (execGrant epoch s) :=
  kept_next (inv_ite (inv_takeLeash (inv_with h)) h)

theorem kept_execStartWaitExpiry (h : Inv s) : Kept (execStartWaitExpiry s) := kept_next (inv_ite (inv_takeLeash h) h)

theorem kept_execHoldDownExpiry (h : Inv s) : Kept (execHoldDownExpiry s) :=
  kept_next (inv_ite (inv_getD h (invSome_transferGo h)) h)

theorem inv_settleHost {i : Nat} {e : LedEntry} (h : Inv s) : Inv (settleHost s i e) := by
  unfold settleHost
  extract_lets
  split
  · exact inv_count (inv_ledMetaSet h)
  · exact h
  · exact h
  · exact inv_ite (inv_ite (inv_ledPut h) h) (inv_ite (inv_ledPut (inv_count h)) (inv_hostDone (inv_count h)))

theorem inv_repeatCommand {w i : Nat} (h : Inv s) : Inv (repeatCommand s w i) :=
  inv_ite (inv_ctlPush (inv_setTcWin (inv_draw (inv_draw (inv_draw h))))) (inv_setTcWin (inv_draw (inv_draw (inv_draw
    h))))

theorem inv_repeatRequest {issuer i : Nat} {e : LedEntry} (h : Inv s) : Inv (repeatRequest s issuer i e) := inv_draw h

theorem inv_settleCommand {i : Nat} {e : LedEntry} (h : Inv s) : Inv (settleCommand s i e) := by
  refine inv_ite h (inv_ite ?_ ?_)
  · split
    · exact inv_retireRun (inv_ledDone h)
    · exact inv_repeatCommand h
    · exact inv_repeatRequest h
    · exact h
  · split
    · exact inv_retireRun (inv_setTcWin h)
    · exact inv_retireRun h

theorem inv_settleFrame {i : Nat} {e : LedEntry} (h : Inv s) : Inv (settleFrame s i e) := by
  unfold settleFrame
  split
  · exact inv_ite h (inv_retireRun (inv_ledDone (inv_dropFrame (inv_countAt (inv_count h)))))
  · exact h

theorem inv_settleUnits {planned : Bool} (h : Inv s) : Inv (settleUnits s planned) := by
  refine inv_foldl (fun _ _ h' => ?_) h
  split
  · exact inv_settleHost h'
  · exact inv_ite h' (inv_settleFrame h')
  · exact inv_settleCommand h'

theorem inv_freeFrames (h : Inv s) : Inv (freeFrames s) := h

theorem inv_restartResets (h : Inv s) : Inv (restartResets s) :=
  inv_foldl (fun _ _ h' => inv_ite (inv_revoke (inv_setSlice h')) h') h

theorem inv_settleDescriptors (h : Inv s) : Inv (settleDescriptors s) := by
  unfold settleDescriptors
  extract_lets _ t
  have ht : Inv t := inv_foldl (fun _ _ h' => inv_ite h' (inv_qpPut h')) h
  exact ht

theorem inv_freshAging (h : Inv s) : Inv (freshAging s) := by
  unfold freshAging
  extract_lets _ _ t u
  have ht : Inv t := inv_foldl (fun _ _ => inv_hpPut) h
  have hu : Inv u := inv_foldl (fun _ _ => inv_hpPut) ht
  exact hu

theorem inv_freshBuckets (h : Inv s) : Inv (freshBuckets s) := h

theorem inv_takeoverVectors (h : Inv s) : Inv (takeoverVectors s) := by
  unfold takeoverVectors
  extract_lets _ t
  have ht : Inv t := inv_foldl (fun _ _ => inv_raiseVector) h
  exact inv_foldl (fun _ _ => inv_raiseVector) ht

theorem inv_armNow (h : Inv s) : Inv (armNow s) := inv_ite (inv_ttSet h) h

theorem inv_takeOver {planned : Bool} (h : Inv s) : Inv (takeOver s planned) := by
  unfold takeOver
  extract_lets t _ _ u v w x y
  have ht : Inv t := inv_applyLog h
  clear_value t
  have hu : Inv u := inv_with ht
  clear_value u
  have hv : Inv v := inv_event hu
  clear_value v
  have hw : Inv w := inv_freeFrames (inv_settleUnits (inv_restartResets hv))
  clear_value w
  have hx : Inv x := inv_freshBuckets (inv_freshAging (inv_armNow (inv_settleDescriptors hw)))
  clear_value x
  have hy : Inv y := inv_setPairState (inv_takeoverVectors hx)
  clear_value y
  exact inv_with hy

theorem kept_execTakeover (h : Inv s) : Kept (execTakeover s) := by
  refine kept_next ?_
  split
  · exact inv_takeOver h
  · exact h

theorem kept_execHardFault {cause : BitVec 8} {detail : BitVec 32} (h : Inv s) :
    Kept (execHardFault cause detail s) :=
  kept_next (inv_ite h (inv_ite (inv_hardFault h) (inv_hardFault h)))

theorem kept_execEyeMarginLow {bit : BitVec 3} (h : Inv s) : Kept (execEyeMarginLow bit s) := kept_next (inv_ite h h)

theorem kept_execPairHfInTakeover (h : Inv s) : Kept (execPairHfInTakeover s) := by
  refine kept_next ?_
  split
  · exact inv_ite h (inv_takeLeash h)
  · exact h
  · exact h

theorem kept_execPairLinkDown (h : Inv s) : Kept (execPairLinkDown s) :=
  kept_next (inv_ite (inv_event (inv_takeCalib h)) h)

theorem inv_agreeKey {hello : PairHello} (h : Inv s) : Inv (agreeKey s hello) := by
  unfold agreeKey
  extract_lets _ _ _ _ t
  have ht : Inv t.2 := inv_signDigest h
  clear_value t
  exact inv_ite h (inv_emit ht)

theorem kept_execPairLinkUp {cfg : PartnerCfg} {hello : PairHello} (h : Inv s) :
    Kept (execPairLinkUp cfg s hello) :=
  kept_next (inv_ite (inv_event (inv_agreeKey h)) h)

/-! ### Machine/Panel.lean -/

theorem inv_extractionDown (h : Inv s) : Inv (extractionDown s) := by
  unfold extractionDown
  extract_lets t _ u
  have hu : Inv u := inv_setExtract h
  clear_value u
  split
  · exact inv_setExtract hu
  next v e =>
    have hv := invSome_powerDownRequest hu v e
    split
    · exact inv_railsOff hv
    · exact hv

theorem inv_extractionTransfer (h : Inv s) : Inv (extractionTransfer s) := inv_setExtract h

theorem inv_extractionRequested (h : Inv s) : Inv (extractionRequested s) := by
  unfold extractionRequested
  extract_lets
  split
  · exact inv_ite (inv_extractionTransfer (inv_setExtract h)) (inv_setExtract (inv_setExtract h))
  · exact inv_extractionDown (inv_setExtract h)

theorem inv_latchShut (h : Inv s) : Inv (latchShut s) := by
  unfold latchShut
  split
  · exact inv_getD (inv_setExtract h) (invSome_startUp (inv_setExtract h))
  · exact inv_setExtract h
  · split
    · exact inv_setExtract h
    · exact h
  · exact h

theorem inv_setLatch {l : Latch} (h : Inv s) : Inv (setLatch s l) := h

theorem kept_execLatchOpen (h : Inv s) : Kept (execLatchOpen s) := by
  unfold execLatchOpen
  refine kept_next ?_
  split
  · exact h
  · extract_lets t
    have ht : Inv t := inv_count (inv_setLatch h)
    split
    · exact inv_extractionRequested ht
    · exact ht

theorem kept_execLatchClose (h : Inv s) : Kept (execLatchClose s) := by
  refine kept_next ?_
  split
  · exact h
  · exact inv_setLatch h
  · exact inv_latchShut (inv_setLatch h)

theorem kept_execLatchFault (h : Inv s) : Kept (execLatchFault s) := by
  unfold execLatchFault
  extract_lets
  refine kept_next ?_
  split
  · exact h
  · exact inv_event (inv_count (inv_setLatch h))
  · exact inv_latchShut (inv_event (inv_count (inv_setLatch h)))

theorem kept_execShortPress (h : Inv s) : Kept (execShortPress s) := by
  unfold execShortPress
  extract_lets t
  have ht : Inv t := inv_event (inv_count h)
  exact kept_next (inv_ite (inv_extractionRequested ht) ht)

theorem kept_execLongPress (h : Inv s) : Kept (execLongPress s) := by
  unfold execLongPress
  extract_lets t
  have ht : Inv t := inv_event (inv_count h)
  exact kept_next (inv_getD ht (invSome_transferGo ht))

theorem inv_cageLanesUp {c : Nat} (h : Inv s) : Inv (cageLanesUp s c) :=
  inv_foldl (fun _ _ h' => inv_ite (inv_bringUp h') h') h

theorem inv_cageLanesDown {c : Nat} {removed : Bool} (h : Inv s) : Inv (cageLanesDown s c removed) := by
  refine inv_foldl (fun _ _ h' => ?_) h
  split
  · exact inv_ite (inv_setLane h') h'
  · exact h'
  · exact h'
  · exact inv_setLane h'

theorem inv_cageLanesApply {c v : Nat} (h : Inv s) : Inv (cageLanesApply s c v) := by
  unfold cageLanesApply
  extract_lets
  refine inv_foldl (fun _ _ h' => ?_) (inv_objPut h)
  split
  · exact h'
  · exact h'
  · exact inv_ite (inv_bringUp h') h'
  · exact inv_ite h' (inv_setLane h')

theorem inv_cageLanesWrite {c v : Nat} (h : Inv s) : Inv (cageLanesWrite s c v) :=
  inv_ite (inv_cageLanesApply h) (inv_cagePut h)

theorem kept_execCageInserted {cage : BitVec 4} {advertisedMw : Nat} (h : Inv s) :
    Kept (execCageInserted cage advertisedMw s) :=
  kept_next (inv_ite (inv_releaseModule (inv_count (inv_setCage (inv_cagePut h)))) h)

theorem kept_execModuleReady {cage : BitVec 4} (h : Inv s) : Kept (execModuleReady cage s) :=
  kept_next (inv_ite (inv_cageLanesUp (inv_setCage h)) h)

theorem kept_execModuleFault {cage : BitVec 4} (h : Inv s) : Kept (execModuleFault cage s) :=
  kept_next (inv_ite (inv_cageLanesDown (inv_setCage h)) h)

theorem kept_execCageInitTimeout {cage : BitVec 4} (h : Inv s) : Kept (execCageInitTimeout cage s) :=
  kept_next (inv_ite (inv_setCage (inv_count h)) h)

theorem kept_execModuleRemoval {cage : BitVec 4} (h : Inv s) : Kept (execModuleRemoval cage s) := by
  have hput : Inv _ := inv_cagePut (c := cage.toNat) (x := ⟨.empty, 0, none⟩)
    (inv_cageLanesDown (c := cage.toNat) (removed := true) (inv_setCage (c := cage.toNat) (st := .empty) (inv_count
        (idx := 0xC230) (sub := 0x08) h)))
  unfold execModuleRemoval
  refine kept_next (inv_ite h ?_)
  dsimp only
  split
  · exact inv_cageLanesApply hput
  · exact hput

theorem kept_execT1lLinkUp {amplitude : BitVec 1} (h : Inv s) : Kept (execT1lLinkUp amplitude s) := kept_next h

theorem kept_execT1lLinkDown (h : Inv s) : Kept (execT1lLinkDown s) := kept_next (inv_ite (inv_count h) h)

/-- Through a name for the answer: below a projection the kernel evaluates the `match` on the place of the copy. -/
theorem inv_calibWrite {key v : Nat} (h : Inv s) : Inv (calibWrite s key v).1 := by
  generalize hr : calibWrite s key v = r
  unfold calibWrite at hr
  split at hr
  · subst hr; exact h
  · extract_lets t target seq at hr
    have ht : Inv t := inv_objPutKey h
    clear_value t target seq
    split at hr
    · subst hr; exact inv_count h
    next a e =>
      extract_lets u at hr
      have hu : Inv u := inv_norWrite (inv_norEraseRange ht)
      clear_value u
      subst hr
      refine inv_count ?_
      exact hu

/-- The reader of a copy is held as an unknown, so that the kernel does not evaluate it. -/
theorem inv_calibRead (h : Inv s) : Inv (calibRead s) := by
  obtain ⟨f, hf⟩ := exists_eq (a' := calibRead)
  rw [← hf]
  delta calibRead at hf
  obtain ⟨copy, hcopy⟩ := exists_eq (a' := calibCopy)
  rw [← hcopy] at hf
  subst hf
  beta_reduce
  extract_lets pick rest _ t
  have ht : Inv t := h
  clear_value t pick
  split
  · exact inv_foldl (fun _ _ hu => inv_objPutKey hu) (inv_with ht)
  · exact inv_event (inv_with ht)

/-! ### Machine/Boot.lean -/

theorem inv_setSlot {i st : Nat} (h : Inv s) : Inv (setSlot s i st) := inv_writeRecord h

theorem inv_noteSlot {i : Nat} (h : Inv s) : Inv (noteSlot s i) := h

/-- The slots tried in turn with the reading of a slot as a parameter: the kernel evaluates `readSlot` wherever it
unfolds `trySlots`. -/
def trySlotsWith (read : State → Nat → Nat ⊕ (List Byte × List Byte)) (s : State) :
    List Nat → State × Option (Nat × List Byte × List Byte)
  | [] => (s, none)
  | i :: rest =>
    let t := noteSlot s i
    match read s i with
    | .inr (m, image) => (t, some (i, m, image))
    | .inl _ => trySlotsWith read t rest

/-- Both recursions run over the list with the reader of a slot as an unknown. -/
theorem trySlots_eq : trySlots = trySlotsWith readSlot := by
  obtain ⟨f, hf⟩ := exists_eq (a' := trySlots)
  rw [← hf]
  delta trySlots trySlots._f at hf
  obtain ⟨read, hread⟩ := exists_eq (a' := readSlot)
  rw [← hread] at hf ⊢
  subst hf
  funext s l
  induction l generalizing s with
  | nil => rfl
  | cons i l ih =>
    rw [trySlotsWith, ← ih] <;> rfl

theorem inv_trySlotsWith {read : State → Nat → Nat ⊕ (List Byte × List Byte)} {l : List Nat} (h : Inv s) :
    Inv (trySlotsWith read s l).1 := by
  induction l generalizing s with
  | nil => exact h
  | cons i l ih =>
    unfold trySlotsWith
    extract_lets t
    have ht : Inv t := inv_noteSlot h
    split
    · exact ht
    · exact ih ht

theorem inv_trySlots {l : List Nat} (h : Inv s) : Inv (trySlots s l).1 := by
  rw [trySlots_eq]
  exact inv_trySlotsWith h

theorem inv_rejectTrials {is : List Nat} (h : Inv s) : Inv (rejectTrials s is) := by
  unfold rejectTrials
  extract_lets t
  have ht : Inv t := inv_foldl (fun _ _ h' => inv_ite (inv_setSlot h') h') h
  exact inv_ite ht ht

theorem inv_startSlot {i : Nat} {m : List Byte} (h : Inv s) : Inv (startSlot s i m) := inv_ite (inv_setSlot h) h

theorem inv_armTrial (h : Inv s) : Inv (armTrial s) := h

theorem inv_bootCode {c : Nat} (h : Inv s) : Inv (bootCode s c) := h

theorem inv_whelpHalt {code a b : Nat} (h : Inv s) : Inv (whelpHalt s code a b) := inv_event h

theorem inv_enterStage1 (h : Inv s) : Inv (enterStage1 s) := by
  unfold enterStage1
  extract_lets t
  have ht : Inv t := inv_takeCalib (inv_calibRead (inv_readChain (inv_toStage1 h)))
  exact inv_getD ht (invSome_startUp ht)

/-- The readers of the NOR memory are held as unknowns, of which `inv_trySlots` says what the proof needs. -/
theorem inv_whelp (h : Inv s) : Inv (whelp s) := by
  obtain ⟨f, hf⟩ := exists_eq (a' := whelp)
  rw [← hf]
  delta whelp at hf
  obtain ⟨directory, hdirectory⟩ := exists_eq (a' := norDirectory)
  obtain ⟨try', htry⟩ := exists_eq (a' := trySlots)
  have hslots {t : State} {l : List Nat} (ht : Inv t) : Inv (try' t l).1 := by
    rw [htry]; exact inv_trySlots ht
  rw [← hdirectory, ← htry] at hf
  subst hf
  beta_reduce
  extract_lets _ t u v order
  have ht : Inv t := inv_with h
  clear_value t
  have hu : Inv u := inv_completeBanks ht
  clear_value u
  have hv : Inv v := inv_rejectTrials (inv_readRecord hu)
  clear_value v order
  refine inv_ite (inv_whelpHalt ht) (inv_ite (inv_whelpHalt ht) (inv_ite (inv_whelpHalt hu) ?_))
  split
  · exact inv_whelpHalt hu
  · split
    next w i m image e =>
      have hw := inv_startSlot (i := i) (m := m) (inv_of_fst (hslots hv) e)
      exact inv_enterStage1 (inv_ite (inv_armTrial (inv_with hw)) (inv_with hw))
    next w e => exact inv_whelpHalt (inv_of_fst (hslots hv) e)

theorem inv_islandVolatile {powerOn : Bool} (h : Inv s) : Inv (islandVolatile s powerOn) := by
  unfold islandVolatile
  extract_lets t m
  obtain ⟨-, hnor, -⟩ := inv_burnEnds h
  obtain ⟨hmem, -, hslot, hlanes, hctl, hlinks, -, -, hwins⟩ : Inv m := inv_mainReset (inv_burnEnds h)
  exact ⟨hmem, hnor, hslot, hlanes, hctl, hlinks, List.length_replicate, List.length_replicate, hwins⟩

theorem kept_execIslandPowerOnReset (h : Inv s) : Kept (execIslandPowerOnReset s) :=
  kept_next (inv_whelp (inv_islandVolatile h))

theorem inv_islandReset (h : Inv s) : Inv (islandReset s) := inv_whelp (inv_islandVolatile h)

theorem kept_execIslandReset (h : Inv s) : Kept (execIslandReset s) := kept_next (inv_islandReset h)

theorem kept_execIslandSupplyLoss (h : Inv s) : Kept (execIslandSupplyLoss s) := kept_next (inv_islandVolatile h)

theorem inv_mainDomainReset (h : Inv s) : Inv (mainDomainReset s) := inv_ite (inv_toStage1 (inv_mainReset h)) h

theorem kept_execMainDomainReset (h : Inv s) : Kept (execMainDomainReset s) := kept_next (inv_mainDomainReset h)

theorem inv_stage1Fails {step code : Nat} (h : Inv s) : Inv (stage1Fails s step code) := inv_toBackoff (inv_event h)

theorem inv_placeImage {a owner : Nat} {image : List Byte} (h : Inv s) : Inv (placeImage s a owner image) :=
  inv_lockHbm (inv_hbmWrite h)

theorem inv_placeFirmware {m image : List Byte} (h : Inv s) : Inv (placeFirmware s m image) :=
  inv_placeImage (inv_placeImage h)

theorem invSome_placeTimetable {m image : List Byte} (h : Inv s) : InvSome (placeTimetable s m image) := by
  unfold placeTimetable
  extract_lets
  split
  · exact invSome_none
  · exact invSome_ite invSome_none (invSome_some (inv_doVerify (inv_ttSet (inv_hbmWrite (inv_hbmWrite h)))))

theorem inv_bootTimetable (h : Inv s) : Inv (bootTimetable s).1 := by
  unfold bootTimetable
  split
  next e =>
    exact inv_event (inv_of_fst (inv_trySlots h) e)
  next e =>
    split
    next e' =>
      exact (invSome_placeTimetable (inv_startSlot (inv_of_fst (inv_trySlots h) e))) _ e'
    · exact inv_event (inv_of_fst (inv_trySlots h) e)

theorem inv_stage1Pass (h : Inv s) : Inv (stage1Pass s) := by
  unfold stage1Pass
  extract_lets
  split
  next e =>
    exact inv_stage1Fails (inv_of_fst (inv_trySlots (inv_rejectTrials h)) e)
  next e =>
    extract_lets _ t
    have ht : Inv t.1 := inv_bootTimetable (inv_placeFirmware (inv_startSlot (inv_of_fst (inv_trySlots
        (inv_rejectTrials h)) e)))
    exact inv_bootCode (inv_count (inv_ite (inv_armTrial ht) ht))

theorem kept_execStage1Pass (h : Inv s) : Kept (execStage1Pass s) := kept_next (inv_ite (inv_stage1Pass h) h)

theorem inv_retryBoot (h : Inv s) : Inv (retryBoot s) := by
  unfold retryBoot
  extract_lets longer r _ _ t u
  have hlonger {v : State} (hv : Inv v) : Inv (longer v) := hv
  have hr : Inv r.1 := inv_bootTimetable (hlonger (inv_count h))
  clear_value r longer
  have ht : Inv t := hr
  clear_value t
  split
  · split
    · exact h
    next v e => exact inv_toStage1 (hlonger (inv_count (invSome_startUp h v e)))
  · exact inv_ite (inv_bootCode (inv_ite (inv_armTrial ht) ht)) h

theorem kept_execBackoffExpiry (h : Inv s) : Kept (execBackoffExpiry s) := kept_next (inv_retryBoot h)

theorem inv_confirm (h : Inv s) : Inv (confirm s) :=
  inv_ite (inv_ite (inv_bootCode (inv_writeRecord h)) (inv_writeRecord h)) h

theorem kept_execTrialTimerExpiry (h : Inv s) : Kept (execTrialTimerExpiry s) := by
  unfold execTrialTimerExpiry
  refine kept_next ?_
  split
  · extract_lets _ _ t u _ v
    have ht : Inv t := inv_rejectTrials h
    clear_value t
    have hu : Inv u := inv_event (inv_count ht)
    clear_value u
    have hv : Inv v := inv_with hu
    clear_value v
    exact inv_ite (inv_islandReset hv) (inv_mainDomainReset hv)
  · exact h

theorem invSome_imageTypeWrite {ty : Nat} (h : Inv s) : InvSome (imageTypeWrite s ty) := by
  unfold imageTypeWrite
  split
  · exact invSome_none
  · extract_lets _ _ t
    have ht : Inv t := inv_norEraseRange (inv_setSlot (inv_objPut h))
    clear_value t
    exact invSome_some (inv_with ht)

theorem invSome_imageData {bs : List Byte} (h : Inv s) : InvSome (imageData s bs) := by
  unfold imageData
  split
  · exact invSome_none
  · exact invSome_none
  · exact invSome_ite invSome_none (invSome_some (inv_norWrite h))

/-- The reader of a slot is held as an unknown. -/
theorem invSome_imageCommit (h : Inv s) : InvSome (imageCommit s) := by
  obtain ⟨f, hf⟩ := exists_eq (a' := imageCommit)
  rw [← hf]
  delta imageCommit at hf
  obtain ⟨read, hread⟩ := exists_eq (a' := readSlot)
  rw [← hread] at hf
  subst hf
  beta_reduce
  split
  · exact invSome_none
  · exact invSome_none
  · extract_lets result t u _ v w
    have hu : Inv u := inv_ite (inv_setSlot (inv_noteSlot h)) (inv_noteSlot h)
    clear_value u
    have hv : Inv v := inv_with hu
    clear_value v
    exact invSome_some (inv_ite (inv_retryBoot (inv_event hv)) (inv_event hv))

theorem inv_floorAdvance {v : Nat} {t : State} (h : Inv s) (e : floorAdvance s v = .inr t) : Inv t := by
  unfold floorAdvance at e
  extract_lets at e
  split at e
  · cases e
  · split at e
    · cases e
    · cases e; exact h

theorem inv_revokeKey {k v : Nat} {t : State} (h : Inv s) (e : revokeKey s k v = .inr t) : Inv t := by
  unfold revokeKey at e
  extract_lets at e
  split at e
  · split at e
    · cases e
    · cases e; exact h
  · split at e
    · cases e; exact h
    · split at e
      · cases e
      · cases e; exact h

theorem kept_execChallengeSignatureReady (h : Inv s) : Kept (execChallengeSignatureReady s) := by
  unfold execChallengeSignatureReady
  refine kept_next ?_
  split
  · exact h
  · split
    · exact h
    · extract_lets _ t
      have ht : Inv t.2 := inv_signDigest h
      clear_value t
      exact ht

theorem invSome_swapGo (h : Inv s) : InvSome (swapGo s) := by
  unfold swapGo
  split
  · exact invSome_none
  · extract_lets
    split
    · exact invSome_some (inv_ttReason (inv_noteSlot h))
    · split
      · exact invSome_none
      next e =>
        exact invSome_some (inv_ttSet ((invSome_placeTimetable (inv_noteSlot h)) _ e))

theorem kept_execFaultLogBlockWrite (h : Inv s) : Kept (execFaultLogBlockWrite s) := by
  generalize hf : execFaultLogBlockWrite = f
  delta execFaultLogBlockWrite at hf
  subst hf
  refine kept_next (inv_ite h ?_)
  split
  · exact inv_with h
  · extract_lets n taken seq t u
    have hu : Inv u := inv_norEraseRange (inv_norWrite (inv_norEraseRange h))
    clear_value u
    exact inv_with hu

end Sys2Proof.Machine.Laws
end

section
/-! SUPPORT. The operations of the beat, the release of ledger entries and the Uhlist server keep the invariant. -/

namespace Sys2Proof.Machine.Laws

open Sys2Proof Sys2Proof.Machine

variable {s : State}

/-! ### Machine/Beat.lean -/

theorem inv_muzzlePort {p : Nat} (h : Inv s) : Inv (muzzlePort s p) := by
  unfold muzzlePort
  split
  · exact h
  · extract_lets _ t
    have ht : Inv t := inv_ite (inv_emit (inv_count h)) h
    exact inv_foldl (fun _ _ => inv_putBack) (inv_ite (inv_bufRelease (inv_setFifo ht)) (inv_setFifo ht))

theorem inv_closeDelta {final : Bool} (h : Inv s) : Inv (closeDelta s final) := by
  unfold closeDelta
  extract_lets _ _ t
  have ht : Inv t := inv_countN (inv_count h)
  exact inv_ite (inv_emit ht) ht

theorem inv_closeFinal {extraction : Bool} (h : Inv s) : Inv (closeFinal s extraction) := inv_closeDelta h

theorem kept_execMuzzle (h : Inv s) : Kept (execMuzzle s) := by
  unfold execMuzzle
  refine kept_next ?_
  split
  · extract_lets t _ u
    have ht : Inv t := inv_foldl (fun _ _ => inv_muzzlePort) h
    clear_value t
    have hu : Inv u := inv_downPorts (inv_with ht)
    clear_value u
    split
    · exact inv_closeFinal hu
    · exact hu
  · exact h

theorem inv_sendDelta (h : Inv s) : Inv (sendDelta s) := by
  unfold sendDelta
  extract_lets _ _ t _ _ _ u
  have ht : Inv t := inv_ite (inv_count h) h
  clear_value t
  have hu : Inv u := inv_emit ht
  clear_value u
  split
  · exact ht
  · exact inv_ite (inv_ite hu (inv_closeDelta ht)) ht

theorem inv_sendHeartbeat (h : Inv s) : Inv (sendHeartbeat s) := inv_ite (inv_emit h) h

theorem inv_judgeSilence (h : Inv s) : Inv (judgeSilence s) := by
  unfold judgeSilence
  extract_lets
  refine inv_ite h ?_
  split
  · exact inv_ite (inv_setPairState (inv_fence (inv_count h))) h
  · exact inv_ite (inv_takeLeash h) h
  · exact inv_ite (inv_setPairState (inv_count h)) h
  · exact h

theorem inv_sampleReady {level : Bool} (h : Inv s) : Inv (sampleReady s level) := h

theorem inv_toggleReady (h : Inv s) : Inv (toggleReady s) := inv_ite h h

theorem inv_liftMuzzle (h : Inv s) : Inv (liftMuzzle s) := inv_ite (inv_pumpAll h) h

theorem inv_startTransfer (h : Inv s) : Inv (startTransfer s) := by
  unfold startTransfer
  split
  · exact inv_fence h
  · exact h

theorem inv_settleExtraction (h : Inv s) : Inv (settleExtraction s) := inv_ite (inv_setExtract h) h

theorem inv_judgeMismatch (h : Inv s) : Inv (judgeMismatch s) := inv_ite (inv_hardFault h) h

theorem inv_pairBoundary {readyIn : Bool} (h : Inv s) : Inv (pairBoundary s readyIn) :=
  inv_settleExtraction (inv_startTransfer (inv_liftMuzzle (inv_toggleReady (inv_judgeSilence (inv_judgeMismatch
    (inv_sendHeartbeat (inv_sampleReady h)))))))

theorem inv_moveItem {to_ : Option Nat} {w : Work} (h : Inv s) : Inv (moveItem s to_ w) := by
  unfold moveItem
  split
  · exact inv_dropNoCluster h
  · exact inv_hostLost h
  · split
    · extract_lets t
      have ht : Inv t := by
        dsimp only [t]
        split
        · split
          · exact inv_itemPut h
          · exact h
        · exact h
      exact inv_enterCluster (inv_count ht)
    · exact inv_itemRemove (inv_count h)
  · exact inv_ite (inv_enterCluster (inv_ledMetaSet h)) (inv_hostLost h)

theorem inv_moveInbox {c : Nat} (h : Inv s) : Inv (moveInbox s c) :=
  inv_ite (inv_ite h (inv_foldl (fun _ _ => inv_moveItem) (inv_setCluster h))) h

theorem inv_loseHeld {c : Nat} (h : Inv s) : Inv (loseHeld s c) := by
  unfold loseHeld
  extract_lets _ t u
  have ht : Inv t := inv_foldl (fun _ _ => inv_setEngine) h
  have hu : Inv u := inv_foldl (fun _ _ => inv_workLost) ht
  refine inv_foldl ?_ hu
  intro _ _ h'
  extract_lets
  split
  · exact h'
  · exact inv_ite h' (inv_workLost (inv_setThread h'))

theorem inv_rotation {c : Nat} (h : Inv s) : Inv (Machine.rotation s c) := by
  unfold Machine.rotation
  extract_lets _ _ t
  have ht : Inv t := inv_foldl (fun _ _ => inv_setEngine) h
  exact inv_ite ht (inv_pump (inv_setCluster ht))

theorem inv_clustersBoundary (h : Inv s) : Inv (clustersBoundary s) := by
  unfold clustersBoundary
  extract_lets _ _ _ t
  have ht : Inv t := inv_foldl (fun _ _ => inv_rotation) h
  exact inv_foldl (fun _ _ => inv_moveInbox) (inv_foldl (fun _ _ => inv_loseHeld) ht)

theorem inv_takeSnapshot (h : Inv s) : Inv (takeSnapshot s) := h

theorem inv_sheepdogBoundary (h : Inv s) : Inv (sheepdogBoundary s) :=
  inv_foldl (fun _ _ => inv_sampleQueue) (inv_fillPolicers (inv_clearDeficits (inv_foldl (fun _ _ h' =>
    inv_drainEnd h') (inv_portsDown h))))

theorem inv_countWaits (h : Inv s) : Inv (countWaits s) := by
  unfold countWaits
  extract_lets t
  have ht : Inv t := inv_foldl (fun _ _ => inv_countAt) h
  exact inv_ite (inv_count ht) ht

theorem inv_countFec {x : BitVec 5 × Nat × Nat} (h : Inv s) : Inv (countFec s x) := inv_countN (inv_countN h)

theorem inv_objectFault {k : Nat} (h : Inv s) : Inv (objectFault s k) := by
  unfold objectFault
  split
  · exact h
  · exact inv_ite (inv_eventFull h) h

theorem inv_loadCode {x : BitVec 4 × BitVec 16 × BitVec 32} (h : Inv s) : Inv (loadCode s x) :=
  inv_ite (inv_setCluster h) h

theorem inv_correctable {isl n : Nat} (h : Inv s) : Inv (correctable s isl n) := inv_ite h (inv_ite (inv_event h) h)

theorem inv_correctables {news : List (BitVec 6 × BitVec 32)} (h : Inv s) : Inv (correctables s news) := by
  unfold correctables
  extract_lets t
  have ht : Inv t := inv_foldl (fun _ _ => inv_correctable) h
  exact inv_foldl (fun _ _ => inv_correctable) ht

theorem inv_heedNews {n : BeatNews} (h : Inv s) : Inv (heedNews s n) := by
  unfold heedNews
  extract_lets t
  have ht : Inv t := inv_foldl (fun _ _ => inv_loadCode) (inv_foldl (fun _ _ => inv_objectFault)
      (inv_foldl (fun _ _ => inv_countFec) h))
  exact inv_correctables ht

theorem inv_slotZero {beat islBase : Nat} {holdover : Bool} (h : Inv s) :
    Inv { s with clk := ⟨beat, 0, islBase, holdover⟩ } := by
  obtain ⟨hmem, hnor, -, hrest⟩ := h
  exact ⟨hmem, hnor, Nat.zero_lt_succ _, hrest⟩

theorem inv_nextBeat (h : Inv s) : Inv (nextBeat s) := by
  have hclk : Inv { s with clk := { s.clk with beat := s.clk.beat + 1, slot := 0, islBase := s.clk.islBase + 4096 } } :=
    inv_slotZero h
  exact hclk

theorem inv_timetableBoundary {upset : Option (Bool × BitVec 1024)} (h : Inv s) :
    Inv (timetableBoundary s upset) := by
  unfold timetableBoundary
  extract_lets t
  have ht : Inv t := inv_closeOverlap (inv_countOverlap (inv_upsetHeader h))
  exact inv_checkHeaders (inv_endDrainTt (inv_ite (inv_makeCurrent ht) ht))

theorem inv_beatBoundary {readyIn : Bool} {upset : Option (Bool × BitVec 1024)} {news : BeatNews} (h : Inv s) :
    Inv (beatBoundary s readyIn upset news) :=
  inv_takeSnapshot (inv_settlePlaces (inv_sweepBoundary (inv_sweepBoundary (inv_kenPump (inv_clustersBoundary
    (inv_sheepdogBoundary (inv_downPorts (inv_timetableBoundary (inv_applyParams (inv_creditNodes (inv_pairBoundary
    (inv_nextBeat (inv_sendDelta (inv_countWaits (inv_startPass (inv_startPass (inv_endSlot (inv_landBy (inv_heedNews
    h)))))))))))))))))))

/-! ### Machine/UhlOps.lean -/

theorem inv_sessionPut {x : Session} (h : Inv s) : Inv (sessionPut s x) := h

theorem inv_sessionDrop {transport num : Nat} (h : Inv s) : Inv (sessionDrop s transport num) := by
  unfold sessionDrop
  extract_lets t
  have ht : Inv t := by
    dsimp only [t]
    split
    · exact inv_boxLeaves h
    · exact h
  exact ht

theorem inv_settleSession {transport num : Nat} (h : Inv s) : Inv (settleSession s transport num) := by
  unfold settleSession
  split
  · exact inv_ite (inv_sessionDrop h) h
  · exact h

theorem inv_countUhl {transport sub : Nat} (h : Inv s) : Inv (countUhl s transport sub) := inv_count h

theorem inv_inbandReply {peer : Nat × Nat} {bs : List Byte} (h : Inv s) : Inv (inbandReply s peer bs) :=
  inv_admitOne h

theorem inv_sendReply {transport op session seq err : Nat} {body : List Byte} {key : Option (BitVec 256)}
    {peer : Nat × Nat} (h : Inv s) : Inv (sendReply s transport op session seq err body key peer) :=
  inv_ite (inv_inbandReply (inv_countUhl h)) (inv_ite (inv_emit (inv_countUhl h)) (inv_boxReply (inv_emit
    (inv_countUhl h))))

theorem inv_sessionReply {x : Session} {seq op : Nat} {request : List Byte} {err : Nat} {body : List Byte}
    (h : Inv s) : Inv (sessionReply s x seq op request err body) :=
  inv_sendReply (inv_sessionPut h)

theorem inv_holdReply {x : Session} {seq op : Nat} {request : List Byte} (h : Inv s) :
    Inv (holdReply s x seq op request) :=
  inv_sessionPut h

/-! ### Machine/Release.lean -/

theorem inv_pullFrame {i q : Nat} (h : Inv s) : Inv (pullFrame s i q) :=
  inv_dropFrame (inv_foldl (fun _ _ => inv_bufRelease) (inv_setFifo (inv_ite (inv_emit h) h)))

theorem inv_checkHalves {i : Nat} {halves : BitVec 4} (h : Inv s) : Inv (checkHalves s i halves) := by
  unfold checkHalves
  split
  · exact h
  · extract_lets _ _ t
    have ht : Inv t := inv_event (inv_count h)
    exact inv_ite (inv_ite (inv_hardFault ht) ht) (inv_ite (inv_ite h (inv_ledPut (inv_event (inv_count h)))) (inv_ite
        (inv_event (inv_count h)) h))

theorem inv_forgetCommand {w : Nat} (h : Inv s) : Inv (forgetCommand s w) := by
  have hctl := inv_ctl (l := s.pipe.ctl.map (fun q => q.filter (· != .table w))) h (List.length_map _)
  exact hctl

theorem inv_dropCommand {w i : Nat} (h : Inv s) : Inv (dropCommand s w i) := by
  unfold dropCommand
  split
  · exact h
  · exact inv_ite (inv_setTcWin (inv_forgetCommand h)) h

theorem inv_forgetRequest {i : Nat} (h : Inv s) : Inv (forgetRequest s i) := h

theorem inv_dropRequest {i : Nat} (h : Inv s) : Inv (dropRequest s i) := by
  unfold dropRequest
  split
  · exact h
  · exact inv_kenComplete (inv_forgetRequest h)

theorem inv_forgetWrite {i : Nat} (h : Inv s) : Inv (forgetWrite s i) := by
  have hctl := inv_ctl (l := s.pipe.ctl.map (fun q => q.filter (fun c => c != .stop i && c != .write i))) h
    (List.length_map _)
  exact hctl

theorem inv_forgetReply {transport : Nat} {e : LedEntry} (h : Inv s) : Inv (forgetReply s transport e) := by
  unfold forgetReply
  split
  · exact h
  · exact inv_sessionPut h

theorem inv_dropWrite {i transport : Nat} {e : LedEntry} (h : Inv s) : Inv (dropWrite s i transport e) := by
  unfold dropWrite
  extract_lets
  split
  · exact inv_forgetWrite h
  · exact inv_sessionPut (inv_forgetWrite h)

theorem inv_quarantineDone {i : Nat} {e : LedEntry} (h : Inv s) : Inv (quarantineDone s i e) := by
  unfold quarantineDone
  split
  · exact inv_hostFix (inv_takeWork h)
  · exact inv_ledFix (inv_pullFrame h)
  · exact inv_ledFix (inv_dropCommand h)
  · exact inv_ledFix (inv_dropRequest h)
  · exact inv_ledFix (inv_dropWrite h)
  · exact inv_ledFix h

theorem inv_releaseHost {i : Nat} {e : LedEntry} (h : Inv s) : Inv (releaseHost s i e) := by
  unfold releaseHost
  split
  · exact inv_ite (inv_ite (inv_ledRetire (inv_writeCompletion h)) (inv_writeCompletion h)) h
  · exact h

theorem inv_releaseTable {w i : Nat} {e : LedEntry} (h : Inv s) : Inv (releaseTable s w i e) := by
  unfold releaseTable
  split
  · exact inv_tcRelease h
  · exact inv_ite (inv_ledRetire (inv_setTcWin h)) h

theorem inv_releaseKennel {issuer i : Nat} (h : Inv s) : Inv (releaseKennel s issuer i) := by
  unfold releaseKennel
  split
  · split
    · exact inv_deliverResult h
    · exact inv_ledRetire h
  · extract_lets _ t
    have ht : Inv t := by
      dsimp only [t]
      split
      · exact inv_emit h
      · exact h
    exact inv_ledRetire ht

theorem inv_releaseReply {transport i : Nat} {e : LedEntry} (h : Inv s) : Inv (releaseReply s transport i e) := by
  unfold releaseReply
  split
  · extract_lets
    split
    · exact inv_ledRetire h
    · split
      · exact inv_settleSession (inv_sendReply (inv_sessionPut (inv_ledRetire h)))
      · exact inv_settleSession (inv_ledRetire h)
  · exact h

theorem kept_execLedgerRelease {queue : OrdQ} {halves : BitVec 4} (h : Inv s) :
    Kept (execLedgerRelease queue halves s) := by
  unfold execLedgerRelease
  refine kept_next ?_
  split
  · exact h
  · extract_lets _ t
    have ht : Inv t := by
      dsimp only [t]
      split
      · exact inv_ite (inv_quarantineDone (inv_checkHalves h)) (inv_checkHalves h)
      · exact inv_checkHalves h
    split
    · exact ht
    · refine inv_ite ht ?_
      split
      · exact inv_releaseHost ht
      · exact inv_releaseTable ht
      · exact inv_releaseKennel ht
      · exact inv_releaseReply ht
      · exact inv_ledRetire ht

theorem kept_execMemoryUncorrectable {entry : BitVec 18} (h : Inv s) : Kept (execMemoryUncorrectable entry s) := by
  unfold execMemoryUncorrectable
  extract_lets
  refine kept_next ?_
  split
  · exact h
  · split
    · exact h
    · exact h
    · split
      · exact inv_hostDone (inv_takeWork h)
      · exact inv_retireRun (inv_ledDone (inv_pullFrame (inv_event (inv_count h))))
      · exact h

/-! ### Machine/ObjRead.lean -/

theorem inv_drawTemp (h : Inv s) : Inv (drawTemp s).2 := inv_draw h

theorem inv_readTemp {sub el : Nat} (h : Inv s) : Inv (readTemp s sub el).2 := by
  refine inv_ite_snd (inv_ite_snd (inv_drawTemp h) h) ?_
  split
  · exact h
  · exact inv_drawTemp h

theorem inv_drawBelow {n : Nat} (h : Inv s) : Inv (drawBelow s n).2 := inv_draw h

theorem inv_readIsland {idx sub el : Nat} (h : Inv s) : Inv (readIsland s idx sub el).2 := by
  unfold readIsland
  split
  · exact h
  · exact h
  · exact h
  · exact h
  · exact inv_readTemp h
  · exact h
  · exact h
  · exact h
  · exact h
  · exact h
  · exact inv_drawBelow h
  · exact h
  · exact h
  · exact h
  · exact inv_drawBelow h
  · extract_lets t
    have ht : Inv t.2 := inv_drawBelow h
    clear_value t
    exact ht
  · exact h
  · exact h
  · exact h
  · exact h

theorem inv_readReport {idx sub el : Nat} (h : Inv s) : Inv (readReport s idx sub el).2 :=
  inv_ite_snd h (inv_ite_snd (inv_readIsland h) (inv_ite_snd h (inv_ite_snd h (inv_ite_snd h (inv_ite_snd h
    (inv_ite_snd h (inv_ite_snd h (inv_ite_snd h (inv_ite_snd h (inv_ite_snd h (inv_ite_snd h (inv_ite_snd h
    (inv_ite_snd h (inv_ite_snd h (inv_ite_snd h (inv_ite_snd h (inv_ite_snd h (inv_ite_snd h (inv_ite_snd h
    h)))))))))))))))))))

theorem inv_objRead {idx sub el : Nat} (h : Inv s) : Inv (objRead s idx sub el).2 := by
  unfold objRead
  split
  · exact h
  · exact inv_ite_snd (inv_readReport h) (inv_ite_snd h (inv_ite_snd (inv_readIsland h) (inv_ite_snd h (inv_ite_snd h
        (inv_ite_snd h h)))))

theorem inv_objBytes {d : ObjDesc} {idx sub el : Nat} (h : Inv s) : Inv (objBytes s d idx sub el).2 := by
  unfold objBytes
  split
  · exact h
  · exact inv_objRead h

theorem inv_objsBytes {d : ObjDesc} {idx sub : Nat} {l : List Nat} (h : Inv s) : Inv (objsBytes s d idx sub l).2 := by
  induction l generalizing s with
  | nil => exact h
  | cons e l ih => exact ih (inv_objBytes h)

/-! ### Machine/ObjWrite.lean -/

theorem inv_orBusy {t : Option State} (h : Inv s) (ht : InvSome t) : Inv (orBusy s t).1 := by
  cases t with
  | none => exact h
  | some t => exact ht t rfl

theorem inv_orError {r : Nat ⊕ State} (h : Inv s) (hr : ∀ t, r = .inr t → Inv t) : Inv (orError s r).1 := by
  cases r with
  | inl e => exact h
  | inr t => exact hr t rfl

theorem inv_freezeWrite {v : Nat} (h : Inv s) : Inv (freezeWrite s v) := by
  unfold freezeWrite
  extract_lets t
  have ht : Inv t := inv_objPut h
  clear_value t
  exact inv_ite ht (inv_ite ht ht)

theorem inv_islandWrite {idx sub el v : Nat} (h : Inv s) : Inv (islandWrite s idx sub el v).1 := by
  unfold islandWrite
  refine inv_ite_fst (inv_calibWrite h) ?_
  split
  · exact h
  · exact inv_ite (inv_confirm h) h
  · exact inv_writeRecord (inv_objPut h)
  · exact inv_orBusy h (invSome_imageTypeWrite h)
  · exact inv_ite_fst (inv_orBusy h (invSome_imageCommit h)) h
  · refine inv_orError h (fun t e => ?_)
    cases hf : floorAdvance s v with
    | inl x => rw [hf] at e; cases e
    | inr u => rw [hf] at e; cases e; exact inv_objPut (inv_floorAdvance h hf)
  · exact inv_orError h (fun _ e => inv_revokeKey h e)
  · exact inv_orBusy h (invSome_mainPowerWrite h)
  · exact inv_islandPowerWrite h
  · exact inv_cageLanesWrite h
  · exact inv_freezeWrite h
  · exact inv_dapWrite h
  · exact inv_ite (inv_faultErase h) h
  · exact inv_objPut h

theorem inv_cmdWrite {sl v : Nat} (h : Inv s) : Inv (cmdWrite s sl v).1 := inv_sliceCmd h

theorem inv_migWrite {key : BitVec 256} {addr : List Byte} {sl v : Nat} (h : Inv s) :
    Inv (migWrite s key addr sl v).1 := by
  unfold migWrite
  split
  · exact h
  · extract_lets
    split
    · exact h
    · split
      · exact h
      next e => exact inv_coreKeyOp h (fun _ ht => inv_slotWrite ht) e

theorem inv_coresWrite {key : BitVec 256} {addr : List Byte} {idx sub el v : Nat} (h : Inv s) :
    Inv (coresWrite s key addr idx sub el v).1 := by
  unfold coresWrite
  split
  · exact inv_orBusy h (invSome_pairEnableWrite h)
  · exact inv_ite_fst (inv_orBusy h (invSome_transferGo h)) h
  · exact inv_ite (inv_hardFault h) h
  · exact inv_objPut h
  · exact inv_ite_fst (inv_orBusy h (invSome_swapGo h)) h
  · exact inv_cmdWrite h
  · exact inv_migWrite h
  · exact inv_coreWrite h

theorem inv_objEffect {key : BitVec 256} {addr : List Byte} {k v : Nat} (h : Inv s) :
    Inv (objEffect s key addr k v).1 :=
  inv_ite_fst (inv_coresWrite h) (inv_islandWrite h)

theorem inv_objEffects {key : BitVec 256} {addr : List Byte} {t : State} {l : List (Nat × Nat)} (h : Inv s)
    (ht : Inv t) : Inv (objEffects s key addr t l).1 := by
  induction l generalizing t with
  | nil => exact ht
  | cons x l ih => exact inv_ite_fst (ih (inv_objEffect ht)) (inv_objEffect h)

theorem inv_recordWrite {vals : List (Nat × Nat)} (h : Inv s) : Inv (recordWrite s vals) :=
  inv_foldl (fun _ _ => inv_record) h

theorem inv_liftQuarantine {vals : List (Nat × Nat)} (h : Inv s) : Inv (liftQuarantine s vals) := h

/-! ### Machine/Uhlist.lean -/

theorem inv_waiting {n : Nat} {r : Option (List Byte) × (Nat × Nat) × State} (h : Inv s) (e : waiting s n = some r) :
    Inv r.2.2 := by
  unfold waiting at e
  split at e
  · split at e
    · cases e; exact h
    · cases e
  · split at e
    · cases e
    · split at e
      · extract_lets at e
        split at e
        · cases e; exact h
        · cases e
      · split at e
        · split at e
          · cases e
          · cases e; exact h
        · cases e

theorem inv_discardPdu {t : Nat} (h : Inv s) : Inv (discardPdu s t) := inv_ite (inv_boxReply h) h

theorem inv_malformed {t : Nat} (h : Inv s) : Inv (malformed s t) := inv_discardPdu (inv_countUhl (inv_countUhl h))

theorem inv_noSession {op : Nat} {p : Pdu} (h : Inv s) : Inv (noSession s op p) :=
  inv_ite (inv_ite (inv_sendReply (inv_countUhl h)) (inv_sendReply (inv_draw (inv_countUhl h)))) (inv_countUhl h)

theorem inv_openSession {p : Pdu} {peer : Nat × Nat} (h : Inv s) : Inv (openSession s p peer) := by
  unfold openSession
  extract_lets _ _ _ _ _ _ _ _ t
  have ht : Inv t.2 := inv_signDigest h
  clear_value t
  refine inv_ite (inv_sendReply h) (inv_ite (inv_sendReply (inv_countUhl h)) (inv_ite (inv_sendReply (inv_countUhl h))
      ?_))
  split
  · exact inv_sendReply (inv_countUhl h)
  · exact inv_sendReply ht

theorem inv_proveSession {x : Session} {p : Pdu} (h : Inv s) : Inv (proveSession s x p) :=
  inv_ite (inv_sessionReply h) (inv_sessionDrop (inv_sendReply (inv_countUhl h)))

theorem inv_answer {t num op : Nat} {p : Pdu} {err : Nat} {body : List Byte} (h : Inv s) :
    Inv (answer s t num op p err body) := by
  unfold answer
  split
  · exact inv_sessionReply h
  · exact h

theorem inv_holdWrite {x : Session} {op : Nat} {p : Pdu} (h : Inv s) : Inv (holdWrite s x op p) := by
  unfold holdWrite
  split
  · exact inv_holdReply h
  · exact h

theorem inv_readValues {d : ObjDesc} {a : ObjAddr} {es : List Nat} (h : Inv s) : Inv (readValues s d a es).2 :=
  inv_ite_snd h (inv_objsBytes h)

theorem inv_serveRead {x : Session} {p : Pdu} (h : Inv s) : Inv (serveRead s x p).2 := by
  unfold serveRead
  split
  · exact h
  · split
    · exact h
    · extract_lets
      split
      · exact h
      · exact inv_ite_snd h (inv_readValues h)

theorem inv_serveBlockRead {x : Session} {p : Pdu} (h : Inv s) : Inv (serveBlockRead s x p).2 := by
  unfold serveBlockRead
  split
  · exact h
  · refine inv_ite_snd h ?_
    split
    · exact h
    · exact inv_ite_snd h (inv_ite_snd h (inv_readValues h))

theorem inv_acceptWrite {x : Session} {seq : Nat} (h : Inv s) : Inv (acceptWrite s x seq).2 := inv_ledAccept h

theorem inv_writeNow {x : Session} {op : Nat} {p : Pdu} {core : Bool} {eff : State → State × Nat} (h : Inv s)
    (heff : ∀ t, Inv t → Inv (eff t).1) : Inv (writeNow s x op p core eff) := by
  unfold writeNow
  extract_lets _ _ u
  have hu : Inv u.1 := heff _ (inv_ledRun (inv_acceptWrite h))
  exact inv_ite (inv_answer h) (inv_ite (inv_ite (inv_answer (heff _ h)) (inv_ite (inv_holdWrite (inv_ledDone hu))
      (inv_answer (inv_ledDone hu)))) (inv_answer (heff _ h)))

theorem length_foldl_lset {α β : Type} (f : List α → β → Nat) (g : List α → β → α) (l : List β) (m : List α) :
    (l.foldl (fun m k => lset m (f m k) (g m k)) m).length = m.length := by
  induction l generalizing m with
  | nil => rfl
  | cons k l ih => exact (ih _).trans (length_lset ..)

theorem inv_writeAtBoundary {x : Session} {op : Nat} {p : Pdu} {idx sub : Nat} {vals : List (Nat × Nat)} (h : Inv s) :
    Inv (writeAtBoundary s x op p idx sub vals) := by
  unfold writeAtBoundary
  split
  · exact inv_answer (inv_count h)
  · split
    · exact inv_answer h
    · extract_lets r ps c t _ _ u
      have ht : Inv t := inv_liftQuarantine (inv_recordWrite (inv_acceptWrite h))
      have hu : Inv u := inv_ctl ht (length_foldl_lset _ _ ps t.pipe.ctl)
      exact inv_holdWrite hu

theorem inv_writePassed {x : Session} {op : Nat} {p : Pdu} {a : ObjAddr} {vals : List (Nat × Nat)} (h : Inv s) :
    Inv (writePassed s x op p a vals) :=
  inv_ite (inv_writeAtBoundary h) (inv_writeNow h (fun _ h' => inv_ite_fst (inv_liftQuarantine (inv_recordWrite
    (inv_objEffects h' h'))) (inv_objEffects h' h')))

theorem inv_serveWrite {x : Session} {p : Pdu} (h : Inv s) : Inv (serveWrite s x p) := by
  unfold serveWrite
  extract_lets
  split
  · exact inv_answer h
  · refine inv_ite (inv_answer h) ?_
    split
    · exact inv_answer h
    · exact inv_writePassed h

theorem inv_segmentEffect {off : Nat} {data : List Byte} (h : Inv s) : Inv (segmentEffect off data s).1 :=
  inv_orBusy (inv_ite h h) (invSome_imageData (inv_ite h h))

theorem inv_noteStream {x : Session} {key n : Nat} (h : Inv s) : Inv (noteStream s x key n) := by
  unfold noteStream
  split
  · exact inv_sessionPut h
  · exact h

theorem inv_serveBlockWrite {x : Session} {p : Pdu} (h : Inv s) : Inv (serveBlockWrite s x p) := by
  unfold serveBlockWrite
  extract_lets
  split
  · exact inv_answer h
  · refine inv_ite (inv_answer h) ?_
    split
    · exact inv_answer h
    · refine inv_ite (inv_ite (inv_answer h) (inv_ite (inv_answer h) (inv_ite (inv_answer h) (inv_writeNow h (fun _ h'
          => inv_ite_fst (inv_noteStream (inv_segmentEffect h')) h'))))) (inv_ite ?_ (inv_ite (inv_answer h) (inv_ite
          (inv_answer h) (inv_answer h))))
      split
      · exact inv_answer h
      · exact inv_writePassed h

theorem inv_sendEvent {x : Session} {seq : Nat} {rs : List EvRec} (h : Inv s) : Inv (sendEvent s x seq rs) := by
  unfold sendEvent
  extract_lets _ _ t
  have ht : Inv t := inv_countUhl (inv_countUhl h)
  exact inv_ite (inv_inbandReply ht) (inv_ite (inv_emit ht) (inv_boxEvent (inv_emit ht)))

theorem inv_sendNextEvent {x : Session} (h : Inv s) : Inv (sendNextEvent s x) :=
  inv_ite h (inv_sendEvent (inv_sessionPut h))

theorem inv_markSent {x : Session} {seq : Nat} (h : Inv s) : Inv (markSent s x seq) := by
  unfold markSent
  split
  · exact inv_sessionPut h
  · exact h

theorem inv_resendEvents {x : Session} {l : List (Nat × Nat × Nat)} {es : List EvRec} (h : Inv s) :
    Inv (resendEvents s x l es) := by
  induction l generalizing s x es with
  | nil => exact h
  | cons r l ih => exact inv_ite h (inv_ite (ih (inv_markSent (inv_sendEvent h))) (ih h))

theorem inv_queueMissed {t num : Nat} (h : Inv s) : Inv (queueMissed s t num) := by
  unfold queueMissed
  split
  · exact h
  · exact inv_ite h (inv_sessionPut h)

theorem inv_ackEvents {x : Session} {n : Nat} (h : Inv s) : Inv (ackEvents s x n) :=
  inv_queueMissed (inv_sessionPut h)

theorem inv_closeSession {x : Session} {p : Pdu} (h : Inv s) : Inv (closeSession s x p) := by
  unfold closeSession
  extract_lets
  split
  · exact inv_settleSession (inv_sessionPut (inv_answer h))
  · exact inv_answer h

theorem inv_serveRequest {x : Session} {op : Nat} {p : Pdu} (h : Inv s) : Inv (serveRequest s x op p) := by
  unfold serveRequest
  extract_lets
  split
  · exact inv_ite (inv_closeSession h) (inv_answer h)
  · exact inv_answer h
  · split
    · exact inv_answer h
    · refine inv_ite (inv_answer h) ?_
      split
      · exact inv_answer h
      · exact inv_ite (inv_answer h) (inv_answer h)
  · exact inv_answer (inv_serveRead h)
  · exact inv_serveWrite h
  · exact inv_answer (inv_serveBlockRead h)
  · exact inv_serveBlockWrite h
  · exact inv_ite (inv_answer (inv_sessionPut h)) (inv_answer h)
  · exact inv_ite (inv_answer (inv_ackEvents h)) (inv_answer h)
  · exact inv_answer h

theorem inv_pumpSession {t num n : Nat} (h : Inv s) : Inv (pumpSession s t num n) := by
  induction n generalizing s with
  | zero => exact h
  | succ n ih =>
    unfold pumpSession
    split
    · exact h
    · split
      · exact h
      · split
        · exact h
        · exact ih (inv_serveRequest (inv_sessionPut h))

theorem inv_pumpSessions (h : Inv s) : Inv (pumpSessions s) := inv_foldl (fun _ _ => inv_pumpSession) h

theorem inv_duplicate {x : Session} {p : Pdu} {peer : Nat × Nat} (h : Inv s) : Inv (duplicate s x p peer) := by
  unfold duplicate
  extract_lets
  split
  · split
    · exact inv_ite (inv_sendReply (inv_countUhl h)) (inv_discardPdu (inv_countUhl h))
    · exact inv_discardPdu (inv_countUhl h)
  · exact inv_discardPdu (inv_countUhl h)

theorem inv_windowed {x : Session} {op : Nat} {p : Pdu} {peer : Nat × Nat} (h : Inv s) :
    Inv (windowed s x op p peer) :=
  inv_ite (inv_ite (inv_discardPdu h) (inv_pumpSession (inv_sessionPut h))) (inv_ite (inv_duplicate h) (inv_sendReply
    (inv_countUhl h)))

theorem inv_inSession {op : Nat} {p : Pdu} {peer : Nat × Nat} (h : Inv s) : Inv (inSession s op p peer) := by
  unfold inSession
  split
  · exact inv_noSession h
  · exact inv_ite (inv_discardPdu (inv_countUhl h)) (inv_ite (inv_ite (inv_proveSession h) (inv_noSession h)) (inv_ite
        (inv_noSession h) (inv_windowed (inv_sessionPut h))))

theorem inv_takePdu {op : Nat} {p : Pdu} (h : Inv s) : Inv (takePdu s op p) := by
  unfold takePdu
  split
  · exact h
  next bs peer t e =>
    have ht : Inv t := inv_waiting h e
    exact inv_ite h (inv_ite (inv_malformed ht) (inv_ite (inv_ite (inv_openSession (inv_countUhl ht))
      (inv_noSession (inv_countUhl ht))) (inv_inSession (inv_countUhl ht))))

theorem kept_execUhOpen {pdu : Pdu} (h : Inv s) : Kept (execUhOpen pdu s) := kept_next (inv_takePdu h)

theorem kept_execUhProve {pdu : Pdu} (h : Inv s) : Kept (execUhProve pdu s) := kept_next (inv_takePdu h)

theorem kept_execUhClose {pdu : Pdu} (h : Inv s) : Kept (execUhClose pdu s) := kept_next (inv_takePdu h)

theorem kept_execKeepalive {pdu : Pdu} (h : Inv s) : Kept (execKeepalive pdu s) := kept_next (inv_takePdu h)

theorem kept_execUhDescribe {pdu : Pdu} (h : Inv s) : Kept (execUhDescribe pdu s) := kept_next (inv_takePdu h)

theorem kept_execUhRead {pdu : Pdu} (h : Inv s) : Kept (execUhRead pdu s) := kept_next (inv_takePdu h)

theorem kept_execUhWrite {pdu : Pdu} (h : Inv s) : Kept (execUhWrite pdu s) := kept_next (inv_takePdu h)

theorem kept_execBlockRead {pdu : Pdu} (h : Inv s) : Kept (execBlockRead pdu s) := kept_next (inv_takePdu h)

theorem kept_execBlockWrite {pdu : Pdu} (h : Inv s) : Kept (execBlockWrite pdu s) := kept_next (inv_takePdu h)

theorem kept_execSubscribe {pdu : Pdu} (h : Inv s) : Kept (execSubscribe pdu s) := kept_next (inv_takePdu h)

theorem kept_execEventAck {pdu : Pdu} (h : Inv s) : Kept (execEventAck pdu s) := kept_next (inv_takePdu h)

theorem kept_execReservedOp {op : BitVec 6} {pdu : Pdu} (h : Inv s) : Kept (execReservedOp op pdu s) :=
  kept_next (inv_ite (inv_takePdu h) h)

theorem kept_execMalformedPdu {transport : Nat} {link : BitVec 2} (h : Inv s) :
    Kept (execMalformedPdu transport link s) := by
  unfold execMalformedPdu
  extract_lets
  refine kept_next ?_
  split
  · exact h
  next e => exact inv_malformed (inv_waiting h e)
  next e => exact inv_ite (inv_malformed (inv_waiting h e)) h

theorem kept_execProveTimeout {transport : Nat} {session : BitVec 16} (h : Inv s) :
    Kept (execProveTimeout transport session s) := by
  refine kept_next ?_
  split
  · exact inv_ite h (inv_sessionDrop h)
  · exact h

theorem kept_execSessionIdleExpiry {transport : Nat} {session : BitVec 16} (h : Inv s) :
    Kept (execSessionIdleExpiry transport session s) := by
  refine kept_next ?_
  split
  · exact inv_ite (inv_sessionDrop h) h
  · exact h

theorem kept_execUhEvent {transport : Nat} {session : BitVec 16} (h : Inv s) :
    Kept (execUhEvent transport session s) := by
  refine kept_next ?_
  split
  · exact inv_sendNextEvent h
  · exact h

theorem kept_execEventRetryExpiry {transport : Nat} {session : BitVec 16} (h : Inv s) :
    Kept (execEventRetryExpiry transport session s) := by
  refine kept_next ?_
  split
  · exact inv_ite (inv_resendEvents h) h
  · exact h

theorem inv_mailboxGo {k : Nat} (h : Inv s) : Inv (mailboxGo s k) := inv_setBox h

theorem kept_execMbGo {link : BitVec 2} (h : Inv s) : Kept (execMbGo link s) :=
  kept_next (inv_barGate h (fun _ => inv_mailboxGo))

theorem kept_execEventReadyClear {link : BitVec 2} (h : Inv s) : Kept (execEventReadyClear link s) :=
  kept_next (inv_barGate h (fun _ => inv_setBox))

theorem kept_execFreezeMaxExpiry (h : Inv s) : Kept (execFreezeMaxExpiry s) :=
  kept_next (inv_ite (inv_freezeWrite h) h)

/-! ### Machine/Boundary.lean -/

theorem inv_islandBeat {news : BeatNews} (h : Inv s) : Inv (islandBeat s news) :=
  inv_pumpSessions (inv_takeSnapshot (inv_slotZero (inv_correctables (inv_foldl (fun _ _ ht => inv_objectFault ht)
    h))))

theorem kept_execBeatBoundary {readyIn : Bool} {upset : Option (Bool × BitVec 1024)} {news : BeatNews} (h : Inv s) :
    Kept (execBeatBoundary readyIn upset s news) := by
  unfold execBeatBoundary
  refine kept_next ?_
  split
  · extract_lets t
    have ht : Inv t := inv_foldl (fun _ _ => inv_checkHalves) h
    exact inv_pumpSessions (inv_beatBoundary ht)
  · exact inv_islandBeat h

end Sys2Proof.Machine.Laws
end

section
/-! SUPPORT. The operations of the registers, SPDM, the stages and the remaining commands, and `exec`, keep the
invariant. -/

namespace Sys2Proof.Machine.Laws

open Sys2Proof Sys2Proof.Machine

variable {s : State}

/-! ### Machine/Registers.lean -/

theorem inv_ttRegWrite {off v : Nat} (h : Inv s) : Inv (ttRegWrite s off v) := by
  unfold ttRegWrite
  split
  · split
    · exact inv_doVerify h
    · exact inv_doInstall h
    · exact inv_doArm h
    · exact inv_doDiscard h
    · exact inv_doCancelArm h
    · exact h
  · exact inv_ttSet h
  · exact inv_ttSet h
  · exact inv_ttSet h
  · exact inv_ttSet h
  · exact inv_ttSet h
  · exact inv_ttSet h
  · exact h

theorem inv_tcRegWrite {w off v : Nat} (h : Inv s) : Inv (tcRegWrite s w off v) :=
  inv_ite (inv_tcCommand h) (inv_ite (inv_setTcWin h) (inv_ite (inv_setTcWin h) (inv_ite (inv_setTcWin h) (inv_ite
    (inv_setTcWin h) h))))

theorem inv_dmaHalfWrite {c off v : Nat} (h : Inv s) : Inv (dmaHalfWrite s c off v) := by
  unfold dmaHalfWrite
  extract_lets
  split <;> exact inv_dmaRegWrite h

theorem inv_cfgWrite {link fn off v : Nat} (h : Inv s) : Inv (cfgWrite s link fn off v) := by
  unfold cfgWrite
  extract_lets
  refine inv_ite h (inv_ite (inv_ite (inv_bmeSet (inv_fnPut h)) (inv_bmeClear (inv_fnPut h))) (inv_ite ?_ (inv_ite
      (inv_startFlr (inv_fnPut h)) (inv_ite (inv_ite (inv_fnPut h) (inv_setVfEnable (inv_fnPut h))) (inv_ite (inv_ite
      h (inv_fnPut h)) (inv_ite (inv_fnPut (inv_ite (inv_linkPut h) h)) (inv_ite (inv_ite (inv_fnPut h) (inv_atcDrop
      (inv_fnPut h))) (inv_ite h (inv_fnPut h)))))))))
  split
  · exact inv_ite (inv_setDState h) h
  · exact inv_setDState h
  · exact h

theorem inv_msixWrite {link fn vec dw v : Nat} (h : Inv s) : Inv (msixWrite s link fn vec dw v) :=
  inv_ite h (inv_fnPut h)

theorem inv_mbRegWrite {k off v : Nat} (h : Inv s) : Inv (mbRegWrite s k off v) :=
  inv_ite (inv_ite (inv_setBox h) (inv_setBox h)) (inv_ite (inv_ite (inv_setBox h) (inv_ite (inv_setBox h) h))
    (inv_ite (inv_ite (inv_mailboxGo h) h) (inv_ite (inv_setBox h) (inv_ite (inv_setBox h) h))))

theorem inv_dapHalfWrite {off v : Nat} (h : Inv s) : Inv (dapHalfWrite s off v) := inv_dapWrite h

theorem inv_primaryGate {link : Nat} {act : State → State} (h : Inv s) (hact : ∀ t, Inv t → Inv (act t)) :
    Inv (primaryGate s link act) :=
  inv_barGate h (fun _ h' => inv_ite (hact _ h') h')

theorem inv_regGate {reg : RegAddr} {act : State → State} (h : Inv s) (hact : ∀ t, Inv t → Inv (act t)) :
    Inv (regGate s reg act) := by
  unfold regGate
  split
  · exact inv_primaryGate h (fun _ h' => hact _ h')
  · exact inv_ite (inv_primaryGate h (fun _ h' => hact _ h')) (inv_ite (hact _ h) h)
  · exact inv_primaryGate h (fun _ h' => hact _ h')
  · exact inv_ite h (inv_ite (inv_aerLog h) (hact _ h))
  · exact inv_ite (hact _ h) h
  · exact inv_barGate h (fun _ h' => hact _ h')
  · exact inv_barGate h (fun _ h' => hact _ h')
  · exact hact _ h

theorem inv_regDouble {reg : RegAddr} {up v : Nat} (h : Inv s) : Inv (regDouble s reg up v) := by
  unfold regDouble
  split
  · exact inv_ttRegWrite h
  · exact inv_tcRegWrite h
  · exact inv_dmaHalfWrite h
  · split
    · exact inv_dmaHalfWrite h
    · exact h
  · exact inv_ite (inv_cfgWrite h) h
  · exact inv_ite (inv_msixWrite h) h
  · exact inv_mbRegWrite h
  · exact inv_dapHalfWrite h

theorem inv_regWide {reg : RegAddr} {v : BitVec 64} (h : Inv s) : Inv (regWide s reg v) := by
  unfold regWide
  split
  · exact inv_dmaWideWrite h
  · exact inv_dapWrite h
  · exact inv_regDouble (inv_regDouble h)

theorem kept_execRegisterWrite {reg : RegAddr} {wide : Bool} {v : BitVec 64} (h : Inv s) :
    Kept (execRegisterWrite reg wide v s) :=
  kept_next (inv_ite h (inv_regGate h (fun _ h' => inv_ite (inv_regWide h') (inv_regDouble h'))))

/-! ### Machine/Spdm.lean -/

theorem inv_doeError {k : Nat} (h : Inv s) : Inv (doeError s k) := inv_linkPut h

theorem inv_setConn {k : Nat} {c : SpdmConn} (h : Inv s) : Inv (setConn s k c) := h

theorem inv_setSpdm {x : SpdmSession} (h : Inv s) : Inv (setSpdm s x) := h

theorem inv_dropSpdm {which : SpdmSession → Bool} (h : Inv s) : Inv (dropSpdm s which) := h

theorem inv_spdmExpire (h : Inv s) : Inv (spdmExpire s) := inv_dropSpdm h

theorem inv_spdmSign {context : Nat} {transcript : List Byte} (h : Inv s) :
    Inv (spdmSign s context transcript).2 := by
  unfold spdmSign
  extract_lets _ t
  have ht : Inv t.2 := inv_signDigest h
  clear_value t
  exact ht

theorem inv_nonceDrawn (h : Inv s) : Inv (nonceDrawn s) := h

theorem inv_spdmVersion {k : Nat} {req : List Byte} (h : Inv s) : Inv (spdmVersion s k req).1 :=
  inv_setConn (inv_dropSpdm h)

theorem inv_spdmCapabilities {k : Nat} {req : List Byte} (h : Inv s) : Inv (spdmCapabilities s k req).1 :=
  inv_ite_fst h (inv_ite_fst h (inv_setConn h))

theorem inv_spdmAlgorithms {k : Nat} {req : List Byte} (h : Inv s) : Inv (spdmAlgorithms s k req).1 :=
  inv_ite_fst h (inv_ite_fst h (inv_setConn h))

theorem inv_noteCerts {k : Nat} {sess : Option SpdmSession} {req r : List Byte} (h : Inv s) :
    Inv (noteCerts s k sess req r).1 := by
  unfold noteCerts
  split
  · exact h
  · exact inv_setConn h

theorem inv_spdmDigests {k : Nat} {sess : Option SpdmSession} {req : List Byte} (h : Inv s) :
    Inv (spdmDigests s k sess req).1 :=
  inv_noteCerts h

theorem inv_spdmCertificate {k : Nat} {sess : Option SpdmSession} {req : List Byte} (h : Inv s) :
    Inv (spdmCertificate s k sess req).1 :=
  inv_ite_fst h (inv_noteCerts h)

theorem inv_spdmChallenge {k : Nat} {req : List Byte} (h : Inv s) : Inv (spdmChallenge s k req).1 := by
  unfold spdmChallenge
  extract_lets
  split
  · exact h
  · exact inv_ite_fst h (inv_ite_fst h (inv_setConn (inv_spdmSign (inv_nonceDrawn h))))

theorem inv_setMeasLog {k : Nat} {sess : Option SpdmSession} {log : List Byte} (h : Inv s) :
    Inv (setMeasLog s k sess log) := by
  unfold setMeasLog
  split
  · exact inv_setSpdm h
  · exact inv_setConn h

theorem inv_spdmMeasurements {k : Nat} {sess : Option SpdmSession} {req : List Byte} (h : Inv s) :
    Inv (spdmMeasurements s k sess req).1 :=
  inv_ite_fst h (inv_ite_fst (inv_setMeasLog (inv_nonceDrawn h)) (inv_ite_fst h (inv_ite_fst h (inv_setMeasLog
    (inv_spdmSign (inv_nonceDrawn h))))))

theorem inv_spdmKeyExchange {k : Nat} {req : List Byte} (h : Inv s) : Inv (spdmKeyExchange s k req).1 := by
  unfold spdmKeyExchange
  extract_lets
  split
  · split
    · exact h
    · split
      · exact h
      · split
        · exact h
        · extract_lets _ _ t
          have ht : Inv t.2 := inv_spdmSign (inv_nonceDrawn h)
          clear_value t
          exact ht
  · exact h

theorem inv_spdmServe {k : Nat} {req : List Byte} (h : Inv s) : Inv (spdmServe s k req).1 := by
  unfold spdmServe
  refine inv_ite_fst h (inv_ite_fst (inv_ite_fst (inv_spdmVersion h) h) (inv_ite_fst h (inv_ite_fst
    (inv_spdmCapabilities h) (inv_ite_fst (inv_spdmAlgorithms h) (inv_ite_fst h (inv_ite_fst h ?_))))))
  split
  · exact inv_spdmDigests h
  · exact inv_spdmCertificate h
  · exact inv_spdmChallenge h
  · exact inv_spdmMeasurements h
  · exact inv_spdmKeyExchange h
  · exact h

theorem inv_spdmFinish {x : SpdmSession} {req : List Byte} (h : Inv s) : Inv (spdmFinish s x req).1 :=
  inv_ite_fst h (inv_ite_fst h (inv_ite_fst (inv_dropSpdm h) (inv_setSpdm h)))

theorem inv_spdmOpened {k sid : Nat} (h : Inv s) : Inv (spdmOpened s k sid) := by
  unfold spdmOpened
  split
  · exact h
  · exact inv_setSpdm h

theorem inv_spdmKeyUpdate {x : SpdmSession} {req : List Byte} (h : Inv s) : Inv (spdmKeyUpdate s x req).1 := by
  unfold spdmKeyUpdate
  refine inv_ite_fst h ?_
  split
  · exact inv_setSpdm h
  · exact inv_setSpdm h
  · exact h
  · exact h

theorem inv_spdmReply {k sid : Nat} {msg : List Byte} (h : Inv s) : Inv (spdmReply s k sid msg) := by
  unfold spdmReply
  split
  · exact inv_emit h
  · exact inv_emit (inv_setSpdm h)

/-! ### Machine/Attest.lean -/

theorem kept_execDoeDiscovery {link : BitVec 2} {object : List (BitVec 32)} (h : Inv s) :
    Kept (execDoeDiscovery link object s) := by
  unfold execDoeDiscovery
  extract_lets
  refine kept_next (inv_ite h ?_)
  split
  · exact inv_ite (inv_emit h) (inv_doeError h)
  · exact inv_doeError h

theorem inv_spdmTake {k : Nat} {object : List Byte} (h : Inv s) : Inv (spdmTake s k object) :=
  inv_ite (inv_spdmExpire h) (inv_ite (inv_doeError (inv_spdmExpire h)) (inv_emit (inv_spdmServe (inv_spdmExpire h))))

theorem kept_execGetDigests {link : BitVec 2} {object : List Byte} (h : Inv s) :
    Kept (execGetDigests link object s) :=
  kept_next (inv_spdmTake h)

theorem kept_execGetCertificate {link : BitVec 2} {object : List Byte} (h : Inv s) :
    Kept (execGetCertificate link object s) :=
  kept_next (inv_spdmTake h)

theorem kept_execChallenge {link : BitVec 2} {object : List Byte} (h : Inv s) : Kept (execChallenge link object s) :=
  kept_next (inv_spdmTake h)

theorem kept_execGetMeasurements {link : BitVec 2} {object : List Byte} (h : Inv s) :
    Kept (execGetMeasurements link object s) :=
  kept_next (inv_spdmTake h)

theorem kept_execKeyExchange {link : BitVec 2} {object : List Byte} (h : Inv s) :
    Kept (execKeyExchange link object s) :=
  kept_next (inv_spdmTake h)

theorem inv_keySetGo {k stream sub : Nat} (h : Inv s) : Inv (keySetGo s k stream sub) := inv_ite h h

theorem inv_keySetStop {k stream sub : Nat} (h : Inv s) : Inv (keySetStop s k stream sub) := h

theorem inv_keyProg {k : Nat} {object : List Byte} (h : Inv s) : Inv (keyProg s k object).1 :=
  inv_ite_fst h (inv_ite_fst h (inv_ite_fst h h))

theorem inv_ideKmServe {k : Nat} {object : List Byte} (h : Inv s) : Inv (ideKmServe s k object).1 := by
  unfold ideKmServe
  extract_lets
  refine inv_ite_fst h ?_
  split
  · exact h
  · exact inv_keyProg h
  · exact inv_ite_fst h (inv_keySetGo h)
  · exact inv_ite_fst h (inv_keySetStop h)
  · exact h

theorem inv_spdmVendor {x : SpdmSession} {req : List Byte} (h : Inv s) : Inv (spdmVendor s x req).1 := by
  unfold spdmVendor
  split
  · exact h
  · split
    next e =>
      exact inv_of_fst (inv_ideKmServe h) e
    next e =>
      exact inv_of_fst (inv_ideKmServe h) e

theorem inv_sessionServe {x : SpdmSession} {req : List Byte} (h : Inv s) : Inv (sessionServe s x req).1 := by
  unfold sessionServe
  refine inv_ite_fst h (inv_ite_fst h (inv_ite_fst h ?_))
  split
  · exact inv_spdmDigests h
  · exact inv_spdmCertificate h
  · exact inv_spdmMeasurements h
  · exact inv_spdmFinish h
  · exact h
  · exact inv_spdmKeyUpdate h
  · exact h
  · exact inv_spdmVendor h
  · exact h

theorem inv_sessionTake {x : SpdmSession} {msg : List Byte} (h : Inv s) : Inv (sessionTake s x msg) := by
  unfold sessionTake
  extract_lets _ t
  have ht : Inv t.1 := inv_sessionServe (inv_setSpdm h)
  split
  · exact inv_spdmOpened (inv_spdmReply ht)
  · exact inv_dropSpdm (inv_spdmReply ht)
  · exact inv_spdmReply ht

theorem kept_execIdeKm {link : BitVec 2} {session : BitVec 32} {object : List Byte} (h : Inv s) :
    Kept (execIdeKm link session object s) := by
  unfold execIdeKm
  extract_lets
  refine kept_next (inv_ite (inv_spdmExpire h) (inv_ite (inv_doeError (inv_spdmExpire h)) ?_))
  split
  · exact inv_spdmExpire h
  · split
    · exact inv_sessionTake (inv_spdmExpire h)
    · exact inv_emit (inv_dropSpdm (inv_spdmExpire h))

/-! ### Machine/Control.lean -/

theorem inv_writeExecuted {id p : Nat} (h : Inv s) : Inv (writeExecuted s id p) := h

theorem inv_installIssue {p : Nat} (h : Inv s) : Inv (installIssue s p) := by
  unfold installIssue
  split
  · exact inv_ite h (inv_ttSet (inv_installWord h))
  · exact h

theorem inv_controlStep {p : Nat} (h : Inv s) : Inv (controlStep s p) := by
  unfold controlStep
  split
  · exact inv_installIssue h
  · extract_lets _ t
    have ht : Inv t := inv_ctl h (length_lset ..)
    split
    · exact inv_writeExecuted ht
    · exact inv_tcStageStep ht
    · exact inv_writeExecuted ht

theorem kept_execControlSlot {slot : BitVec 12} {p : BitVec 2} {rowOk : Bool} (h : Inv s) :
    Kept (execControlSlot slot p s rowOk) :=
  kept_next (inv_ite (inv_rowFailed (inv_atPort h)) (inv_ite (inv_controlStep (inv_atPort h)) (inv_atPort h)))

/-! ### Machine/Actions.lean -/

theorem inv_busSet {a : ActSt} {lo w v : Nat} (h : Inv a.s) : Inv (busSet a lo w v).s := h

theorem inv_fwdKind {a : ActSt} {k : Nat} (h : Inv a.s) : Inv (fwdKind a k).s := inv_busSet h

theorem inv_dataBits {c : ActCtx} {lo w : Nat} (h : Inv s) : Inv (dataBits s c lo w).2 := inv_ite_snd h (inv_draw h)

theorem inv_raiseLearn {a : ActSt} {away : Bool} {r : LearnReq} (h : Inv a.s) : Inv (raiseLearn a away r).s :=
  inv_ite_act h (inv_pushLearn h)

theorem inv_actLearn {a : ActSt} {away : Bool} {imm : Nat} (h : Inv a.s) : Inv (actLearn a away imm).s := by
  unfold actLearn
  extract_lets
  refine inv_ite_act ?_ (inv_ite_act h ?_)
  · split
    · exact inv_raiseLearn h
    · exact inv_raiseLearn h
    · exact inv_fwdKind (inv_count h)
    · exact inv_fwdKind (inv_count (inv_count h))
    · exact inv_count h
    · exact h
  · split
    · exact inv_raiseLearn h
    · exact inv_raiseLearn h
    · exact inv_fwdKind (inv_count h)
    · exact h

theorem inv_actLeave {a : ActSt} {away tree : Bool} {n : Nat} (h : Inv a.s) : Inv (actLeave a away tree n).s :=
  inv_ite_act h (inv_ite_act (inv_count h) h)

theorem inv_runPrim {c : ActCtx} {a : ActSt} {p : BitVec 64} (h : Inv a.s) : Inv (runPrim c a p).s := by
  unfold runPrim
  extract_lets
  split
  · exact inv_busSet h
  · exact inv_busSet h
  · exact inv_busSet (inv_dataBits h)
  · exact inv_busSet h
  · exact inv_fwdKind h
  · exact inv_busSet (inv_fwdKind h)
  · exact inv_fwdKind h
  · exact inv_actLeave h
  · exact inv_actLeave h
  · exact inv_busSet h
  · exact inv_busSet h
  · exact inv_actLearn h
  · exact h

theorem inv_runAction {i : Image} {act : Nat} {c : ActCtx} {a : ActSt} (h : Inv a.s) : Inv (runAction i act c a).s :=
  inv_foldl_act (fun _ _ => inv_runPrim) h

/-! ### Machine/Stages.lean -/

theorem inv_lookCounted {d : BitVec 512} {p : Nat} {bus : Bus} (h : Inv s) : Inv (lookCounted s d p bus).2 :=
  inv_ite (inv_count (inv_count (inv_lookTable h))) (inv_count (inv_lookTable h))

theorem inv_lookAll {p : Nat} {bus : Bus} {l : List (BitVec 512)} (h : Inv s) : Inv (lookAll p bus l s).2 := by
  induction l generalizing s with
  | nil => exact h
  | cons d l ih => exact ih (inv_lookCounted h)

theorem inv_runLook {i : Image} {a : ActSt} {h : BitVec 512 × Hit} (hI : Inv a.s) : Inv (runLook i a h).s := by
  unfold runLook
  split <;> exact inv_runAction hI

theorem inv_stageStep {i : Image} {x : Item} {t : Nat} (h : Inv s) : Inv (stageStep s i x t) := by
  unfold stageStep
  extract_lets _ u
  have hu : Inv u.s := inv_foldl_act (fun _ _ => inv_runLook) (inv_lookAll h)
  exact inv_ite (inv_itemRemove (inv_count (inv_lookAll h))) (inv_itemPut hu)

theorem kept_execStagePortSlot {slot : BitVec 12} {item : Nat} (h : Inv s) :
    Kept (execStagePortSlot slot item s) := by
  unfold execStagePortSlot
  extract_lets
  refine kept_next ?_
  split
  · exact inv_atPort h
  · split
    · exact inv_ite (inv_stageStep (inv_atPort h)) (inv_atPort h)
    · exact inv_atPort h

theorem kept_execScrubSlot {slot : BitVec 12} {p : BitVec 2} {stage : Nat} {rowOk : Bool} (h : Inv s) :
    Kept (execScrubSlot slot p stage s rowOk) :=
  kept_next (inv_ite (inv_rowFailedAt (inv_atPort h)) (inv_ite (inv_scrubStage (inv_atPort h)) (inv_atPort h)))

theorem inv_pumpTree {p : Nat} (h : Inv s) : Inv (pumpTree s p) := by
  unfold pumpTree
  split
  · split
    · exact h
    · split
      · exact inv_count (inv_itemPut h)
      · exact h
  · exact h

theorem inv_leaveTree {x : Item} {t n : Nat} (h : Inv s) : Inv (leaveTree s x t n) := by
  unfold leaveTree
  split
  · exact inv_itemRemove (inv_count h)
  · split
    · exact h
    · extract_lets u
      have hu : Inv u := inv_itemPut h
      clear_value u
      exact inv_pumpTree hu

theorem inv_leaveJutex {x : Item} {t fn slot : Nat} {rowOk : Bool} (h : Inv s) :
    Inv (leaveJutex s x t fn slot rowOk) := by
  unfold leaveJutex
  split
  · exact inv_dropNoCluster (inv_rowFailed h)
  · extract_lets
    split
    · exact inv_dropNoCluster h
    · exact inv_count (inv_itemPut h)

theorem kept_execDetourLeave {slot : BitVec 12} {item : Nat} {rowOk : Bool} (h : Inv s) :
    Kept (execDetourLeave slot item rowOk s) := by
  unfold execDetourLeave
  extract_lets
  refine kept_next ?_
  split
  · exact inv_atSlot h
  · split
    · exact inv_ite (inv_ite (inv_leaveTree (inv_atSlot h)) (inv_leaveJutex (inv_atSlot h))) (inv_atSlot h)
    · exact inv_atSlot h

theorem kept_execWalkGrant {slot : BitVec 12} {p : BitVec 2} {rowOk : Bool} (h : Inv s) :
    Kept (execWalkGrant slot p rowOk s) := by
  unfold execWalkGrant
  extract_lets
  refine kept_next (inv_ite (inv_rowFailed (inv_atSlot h)) ?_)
  split
  · exact inv_atSlot h
  · split
    · exact inv_itemPut (inv_atSlot h)
    · exact inv_atSlot h

theorem inv_walkError {x : Item} {code island param : Nat} (h : Inv s) : Inv (walkError s x code island param) :=
  inv_pumpTree (inv_itemRemove (inv_event (inv_count h)))

theorem inv_walkEnd {i : Image} {x : Item} {t : Nat} {w : TreeWalk} (h : Inv s) : Inv (walkEnd s i x t w) := by
  unfold walkEnd
  extract_lets _ u _ v
  have hu : Inv u.s := by
    dsimp only [u]
    split
    · exact inv_runAction h
    · exact inv_runAction (inv_count h)
  clear_value u
  have hv : Inv v := inv_itemPut hu
  clear_value v
  exact inv_pumpTree hv

theorem inv_walkData {i : Image} {x : Item} {t : Nat} {w : TreeWalk} (h : Inv s) : Inv (walkData s i x t w) :=
  inv_ite (inv_ite (inv_walkError h) (inv_ite (inv_walkEnd h) (inv_itemPut h))) (inv_ite (inv_walkError h) (inv_ite
    (inv_ite (inv_walkEnd h) (inv_itemPut h)) (inv_itemPut h)))

theorem kept_execWalkReadData {p : BitVec 2} {w : BitVec 6} {readOk : Bool} (h : Inv s) :
    Kept (execWalkReadData p w readOk s) := by
  refine kept_next ?_
  split
  · exact h
  · split
    · exact inv_ite h (inv_ite (inv_walkData h) (inv_walkError (inv_draw h)))
    · exact h

theorem kept_execReturnSlot {slot : BitVec 12} {p : BitVec 2} {rowOk : Bool} (h : Inv s) :
    Kept (execReturnSlot slot p s rowOk) := by
  unfold execReturnSlot
  have hat := inv_atSlot (slot := slot) h
  generalize atSlot s slot = t at hat
  refine kept_next ?_
  split
  · exact hat
  · refine inv_ite (inv_rowFailed hat) (inv_ite hat ?_)
    extract_lets u row
    split
    · exact hat
    · extract_lets v
      have hv : Inv v := inv_itemPut hat
      clear_value v
      exact hv

/-! ### Machine/Deparser.lean -/

theorem inv_releaseItem {x : Item} (h : Inv s) : Inv (releaseItem s x) :=
  inv_ite (inv_netIssue (inv_noteLeft h)) (inv_admitItem (inv_itemRemove h))

theorem inv_reorderArrive {x : Item} (h : Inv s) : Inv (reorderArrive s x) :=
  inv_ite (inv_releaseItem h) (inv_ite (inv_releaseItem (inv_count h)) (inv_count (inv_itemPut h)))

theorem kept_execReorderRelease {slot : BitVec 12} {p : BitVec 2} (h : Inv s) :
    Kept (execReorderRelease slot p s) := by
  unfold execReorderRelease
  extract_lets
  refine kept_next ?_
  split
  · exact inv_releaseItem (inv_atSlot h)
  · exact inv_atSlot h

theorem kept_execReorderTimeout {slot : BitVec 12} {p : BitVec 2} (h : Inv s) :
    Kept (execReorderTimeout slot p s) := by
  unfold execReorderTimeout
  extract_lets
  refine kept_next ?_
  split
  · exact inv_releaseItem (inv_count (inv_atSlot h))
  · exact inv_atSlot h

theorem inv_rewriteItem {i : Image} {x : Item} (h : Inv s) : Inv (rewriteItem s i x).2 :=
  inv_ite_snd h (inv_ite_snd (inv_count h) h)

theorem inv_passItem {i : Image} {x : Item} (h : Inv s) : Inv (passItem s i x) :=
  inv_ite (inv_itemRemove (inv_meter h)) (inv_reorderArrive (inv_rewriteItem (inv_meter h)))

theorem inv_settleFate {i : Image} {x : Item} (h : Inv s) : Inv (settleFate s i x) :=
  inv_ite (inv_passItem h) (inv_ite (inv_itemRemove (inv_count h)) (inv_itemRemove (inv_count h)))

theorem kept_execRewriteUnit {slot : BitVec 12} {item : Nat} (h : Inv s) : Kept (execRewriteUnit slot item s) := by
  unfold execRewriteUnit
  extract_lets
  refine kept_next ?_
  split
  · exact inv_atSlot h
  · split
    · exact inv_ite (inv_settleFate (inv_atSlot h)) (inv_atSlot h)
    · exact inv_atSlot h

/-! ### Machine/Heartbeats.lean -/

theorem inv_discardUnheld (h : Inv s) : Inv (discardUnheld s) := by
  unfold discardUnheld
  refine inv_foldl (fun t e ht => ?_) h
  extract_lets u fs _ v w
  have hu : Inv u := inv_count ht
  have hv : Inv v := by
    dsimp only [v]
    split
    · exact inv_dropFrame hu
    · exact inv_takeWork ht
    · exact inv_setTcWin (inv_forgetCommand ht)
    · exact inv_forgetRequest ht
    · exact inv_forgetReply (inv_forgetWrite ht)
    · exact ht
  clear_value v
  have hw : Inv w := inv_ledMetaSet hv
  clear_value w
  exact hw

theorem inv_toSyncing (h : Inv s) : Inv (toSyncing s) := inv_setPairState h

theorem inv_runSingle (h : Inv s) : Inv (runSingle s) := inv_setPairState h

theorem inv_giveWay {e : Nat} {cfg : PartnerCfg} (h : Inv s) : Inv (giveWay s e cfg) := by
  unfold giveWay
  split
  · exact inv_runSingle h
  · extract_lets
    split
    · exact inv_toSyncing (inv_with h)
    · exact inv_toSyncing (inv_discardUnheld (inv_fence (inv_with h)))
    · exact inv_toSyncing (inv_discardUnheld (inv_fence (inv_with h)))
    · exact inv_with h

theorem inv_seekHeard {hb : Heartbeat} {cfg : PartnerCfg} (h : Inv s) : Inv (seekHeard s hb cfg) :=
  inv_ite (inv_runSingle h) (inv_ite (inv_toSyncing (inv_with h)) (inv_ite (inv_ite (inv_takeLeash h) (inv_toSyncing
    (inv_with h))) h))

theorem inv_trackHoldDown {hb : Heartbeat} (h : Inv s) : Inv (trackHoldDown s hb) := h

/-- The local step of `extractionHeard`: the rails go down once the main domain is off. -/
theorem inv_extractionHeard_railsOff' (h : Inv s) : Inv (extractionHeard.railsOff' s) := by
  unfold extractionHeard.railsOff'
  split
  · exact inv_railsOff h
  · exact h

theorem inv_extractionHeard {hb : Heartbeat} (h : Inv s) : Inv (extractionHeard s hb) := by
  unfold extractionHeard
  split
  · extract_lets _ u
    have hu : Inv u := h
    clear_value u
    split
    next t e => exact inv_extractionHeard_railsOff' (invSome_powerDownRequest hu t e)
    next => exact inv_setExtract hu
  · exact h

theorem inv_heard {hb : Heartbeat} {cfg : PartnerCfg} {e : Nat} (h : Inv s) : Inv (heard s hb cfg e) := by
  unfold heard
  extract_lets _ _ _ t
  have ht : Inv t := inv_extractionHeard (inv_trackHoldDown h)
  split
  · exact inv_seekHeard ht
  · exact inv_ite (inv_giveWay ht) ht
  · exact inv_ite (inv_giveWay ht) ht
  · exact inv_ite (inv_giveWay ht) ht
  · exact ht

theorem kept_execHeartbeatReceived {hb : Heartbeat} {cfg : PartnerCfg} (h : Inv s) :
    Kept (execHeartbeatReceived hb cfg s) := by
  refine kept_next (inv_ite h ?_)
  split
  · exact inv_count h
  · exact inv_heard h

/-! ### Machine/Tables.lean -/

theorem inv_onPipeLeg {slot : BitVec 12} {p : Nat} {act : State → State} (h : Inv s)
    (hact : ∀ t, Inv t → Inv (act t)) : Inv (onPipeLeg s slot p act) := by
  unfold onPipeLeg
  split
  · exact h
  · exact inv_onLeg h (fun _ h' => hact _ h')

theorem inv_carryLearns {x : Item} (h : Inv s) : Inv (carryLearns s x) :=
  inv_foldl (fun _ _ => inv_pushLearn) (inv_itemPut h)

theorem inv_access {x : Item} (h : Inv s) : Inv (access s x) := by
  unfold access
  split
  · exact h
  · exact inv_ite (inv_itemRemove (inv_count (inv_itemPut (inv_sharedLookups h)))) (inv_itemPut (inv_sharedLookups h))

theorem kept_execSharedTableAccess {slot : BitVec 12} {item : Nat} {rowOk : Bool} (h : Inv s) :
    Kept (execSharedTableAccess slot item rowOk s) := by
  unfold execSharedTableAccess
  extract_lets t
  have ht : Inv t := inv_openSlot (inv_atSlot h)
  refine kept_next ?_
  split
  · exact ht
  · split
    · exact inv_ite ht (inv_ite (inv_rowFailed (inv_itemPut ht)) (inv_onPipeLeg ht (fun _ => inv_carryLearns)))
    · exact inv_ite ht (inv_ite (inv_rowFailed (inv_itemPut ht)) (inv_onPipeLeg ht (fun _ => inv_access)))

theorem kept_execLearnLeg {slot : BitVec 12} {k : BitVec 3} {rowOk : Bool} (h : Inv s) :
    Kept (execLearnLeg slot k s rowOk) := by
  unfold execLearnLeg
  extract_lets t
  have ht : Inv t := inv_openSlot (inv_atSlot h)
  exact kept_next (inv_ite (inv_rowFailed ht) (inv_ite (inv_onLeg ht (fun _ h' => inv_ite (inv_learnL2 h')
      (inv_learnFlow h'))) ht))

theorem kept_execAgingLeg {slot : BitVec 12} {k : BitVec 3} {rowOk : Bool} (h : Inv s) :
    Kept (execAgingLeg slot k s rowOk) := by
  unfold execAgingLeg
  extract_lets t
  have ht : Inv t := inv_openSlot (inv_atSlot h)
  exact kept_next (inv_ite (inv_rowFailed ht) (inv_ite (inv_sweepLeg ht) ht))

theorem kept_execCommandLeg {slot : BitVec 12} {k : BitVec 3} {rowOk : Bool} (h : Inv s) :
    Kept (execCommandLeg slot k s rowOk) := by
  unfold execCommandLeg
  extract_lets t
  have ht : Inv t := inv_openSlot (inv_atSlot h)
  exact kept_next (inv_ite (inv_rowFailed ht) (inv_ite (inv_onLeg ht (fun _ => inv_commandLeg)) ht))

theorem kept_execFlowFillLand (h : Inv s) : Kept (execFlowFillLand s) := by
  refine kept_next ?_
  split
  · exact h
  · exact inv_cacheUse (inv_cacheUse h)

theorem kept_execAgingPassStart {flow : Bool} (h : Inv s) : Kept (execAgingPassStart flow s) :=
  kept_next (inv_startPass h)

theorem kept_execTcInsert {w : BitVec 3} {target : BitVec 4} {genSel : BitVec 1} {tableId : BitVec 16} (h : Inv s) :
    Kept (execTcInsert w target genSel tableId s) :=
  kept_next (inv_tcCommand h)

theorem kept_execTcDelete {w : BitVec 3} {target : BitVec 4} {genSel : BitVec 1} {tableId : BitVec 16} (h : Inv s) :
    Kept (execTcDelete w target genSel tableId s) :=
  kept_next (inv_tcCommand h)

theorem kept_execTcRead {w : BitVec 3} {target : BitVec 4} {genSel : BitVec 1} {tableId : BitVec 16} (h : Inv s) :
    Kept (execTcRead w target genSel tableId s) :=
  kept_next (inv_tcCommand h)

theorem kept_execTcReplace {w : BitVec 3} {target : BitVec 4} {genSel : BitVec 1} {tableId : BitVec 16} (h : Inv s) :
    Kept (execTcReplace w target genSel tableId s) :=
  kept_next (inv_tcCommand h)

theorem kept_execTcCompareReplace {w : BitVec 3} {target : BitVec 4} {genSel : BitVec 1} {tableId : BitVec 16}
    (h : Inv s) : Kept (execTcCompareReplace w target genSel tableId s) :=
  kept_next (inv_tcCommand h)

theorem kept_execFlushPort {w : BitVec 3} {target : BitVec 4} {genSel : BitVec 1} {tableId : BitVec 16} (h : Inv s) :
    Kept (execFlushPort w target genSel tableId s) :=
  kept_next (inv_tcCommand h)

theorem kept_execTcCommandComplete {w : BitVec 3} (h : Inv s) : Kept (execTcCommandComplete w s) :=
  kept_next (inv_tcRelease h)

/-! ### Machine/Dispatch.lean -/

/-- Every command of the table keeps the invariant: one lemma for each arm of `exec`. -/
theorem kept_exec {i : Instr} (h : Inv s) : Kept (exec i s) := by
  unfold exec
  split
  · exact kept_execBeatBoundary h
  · exact kept_execIngressSlot h
  · exact kept_execControlSlot h
  · exact kept_execReturnSlot h
  · exact kept_execStagePortSlot h
  · exact kept_execScrubSlot h
  · exact kept_execSharedTableAccess h
  · exact kept_execEgressOpportunity h
  · exact kept_execDmaGrant h
  · exact kept_execCipherGrant h
  · exact kept_execWalkGrant h
  · exact kept_execLearnLeg h
  · exact kept_execAgingLeg h
  · exact kept_execCommandLeg h
  · exact kept_execAnResolution h
  · exact kept_execTrainingDone h
  · exact kept_execTrainingFailure h
  · exact kept_execLockAcquired h
  · exact kept_execLossOfLock h
  · exact kept_execPllLossOfLock h
  · exact kept_execSerdesFault h
  · exact kept_execFrameReceived h
  · exact kept_execRawHitListComplete h
  · exact kept_execFrameSent h
  · exact kept_execMuzzle h
  · exact kept_execVerify h
  · exact kept_execVerifyDone h
  · exact kept_execInstall h
  · exact kept_execInstallDone h
  · exact kept_execArm h
  · exact kept_execDiscard h
  · exact kept_execCancelArm h
  · exact kept_execParserNodeStep h
  · exact kept_execParserOutput h
  · exact kept_execMatchSetFinal h
  · exact kept_execDetourLeave h
  · exact kept_execWalkReadData h
  · exact kept_execRewriteUnit h
  · exact kept_execReorderRelease h
  · exact kept_execReorderTimeout h
  · exact kept_execFlowFillLand h
  · exact kept_execAgingPassStart h
  · exact kept_execTcInsert h
  · exact kept_execTcDelete h
  · exact kept_execTcRead h
  · exact kept_execTcReplace h
  · exact kept_execTcCompareReplace h
  · exact kept_execFlushPort h
  · exact kept_execTcCommandComplete h
  · exact kept_execAdd h
  · exact kept_execSub h
  · exact kept_execAnd h
  · exact kept_execOr h
  · exact kept_execXor h
  · exact kept_execShl h
  · exact kept_execShr h
  · exact kept_execSar h
  · exact kept_execMul h
  · exact kept_execSltu h
  · exact kept_execSlt h
  · exact kept_execAddi h
  · exact kept_execAndi h
  · exact kept_execShli h
  · exact kept_execShri h
  · exact kept_execLui h
  · exact kept_execLd h
  · exact kept_execLw h
  · exact kept_execLh h
  · exact kept_execLb h
  · exact kept_execSt h
  · exact kept_execSw h
  · exact kept_execSh h
  · exact kept_execSb h
  · exact kept_execAadd h
  · exact kept_execAcas h
  · exact kept_execBeq h
  · exact kept_execBne h
  · exact kept_execBlt h
  · exact kept_execBltu h
  · exact kept_execJal h
  · exact kept_execJr h
  · exact kept_execMfs h
  · exact kept_execMts h
  · exact kept_execAadds h
  · exact kept_execFence h
  · exact kept_execTime h
  · exact kept_execTcmp h
  · exact kept_execWait h
  · exact kept_execChopen h
  · exact kept_execChput h
  · exact kept_execChcommit h
  · exact kept_execChget h
  · exact kept_execChcfg h
  · exact kept_execSetreg h
  · exact kept_execStart h
  · exact kept_execHalt h
  · exact kept_execRet h
  · exact kept_execDropItem h
  · exact kept_execComplete h
  · exact kept_execIssue h
  · exact kept_execTimerReached h
  · exact kept_execWaitMaxExpiry h
  · exact kept_execChopenGrant h
  · exact kept_execAllAsleepFreeze h
  · exact kept_execDetourArrival h
  · exact kept_execItemOffer h
  · exact kept_execClusterFault h
  · exact kept_execCoreOffline h
  · exact kept_execResultDelivery h
  · exact kept_execCipherRequestStart h
  · exact kept_execKennelCacheFill h
  · exact kept_execSuspend h
  · exact kept_execCipherRequestComplete h
  · exact kept_execKat h
  · exact kept_execEngineOutOfUse h
  · exact kept_execKennelWrite h
  · exact kept_execGenerate h
  · exact kept_execErase h
  · exact kept_execForceErase h
  · exact kept_execReadMeta h
  · exact kept_execWrapExport h
  · exact kept_execWrapImport h
  · exact kept_execRevokedUserStop h
  · exact kept_execChannelStart h
  · exact kept_execPrecheckDone h
  · exact kept_execChunkDone h
  · exact kept_execDmaAbort h
  · exact kept_execDmaRetry h
  · exact kept_execDmaClear h
  · exact kept_execLinkTrained h
  · exact kept_execBusMasterEnableClear h
  · exact kept_execBusMasterEnableSet h
  · exact kept_execFunctionDrainEnd h
  · exact kept_execInitiateFlr h
  · exact kept_execFlrEnd h
  · exact kept_execDStateChange h
  · exact kept_execUnsupportedBarAccess h
  · exact kept_execSqTail h
  · exact kept_execCqHead h
  · exact kept_execFetchStart h
  · exact kept_execHeadPointerWriteBack h
  · exact kept_execDispatch h
  · exact kept_execMsixSend h
  · exact kept_execTranslationCompletion h
  · exact kept_execInvalidationRequest h
  · exact kept_execPageRequestResponse h
  · exact kept_execCompletionReceived h
  · exact kept_execCompletionTimeout h
  · exact kept_execTagQuarantineEnd h
  · exact kept_execDlDown h
  · exact kept_execL0sEntry h
  · exact kept_execL1Entry h
  · exact kept_execL1Exit h
  · exact kept_execL12Entry h
  · exact kept_execDoeDiscovery h
  · exact kept_execGetDigests h
  · exact kept_execChallenge h
  · exact kept_execGetMeasurements h
  · exact kept_execKeyExchange h
  · exact kept_execIdeKm h
  · exact kept_execSliceEnable h
  · exact kept_execSliceReset h
  · exact kept_execSliceItemRetire h
  · exact kept_execSliceZero h
  · exact kept_execResetSequenceEnd h
  · exact kept_execSliceFreeze h
  · exact kept_execFreezeComplete h
  · exact kept_execFreezeTimeout h
  · exact kept_execSliceResume h
  · exact kept_execSliceSave h
  · exact kept_execSliceRestore h
  · exact kept_execRestoreDone h
  · exact kept_execSliceDisable h
  · exact kept_execLedgerRelease h
  · exact kept_execReDispatch h
  · exact kept_execMemoryUncorrectable h
  · exact kept_execHeartbeatReceived h
  · exact kept_execDeltaReceived h
  · exact kept_execDeltaAckReceived h
  · exact kept_execDeltaApply h
  · exact kept_execTakeover h
  · exact kept_execHardFault h
  · exact kept_execPairHfInTakeover h
  · exact kept_execStartWaitExpiry h
  · exact kept_execSyncComplete h
  · exact kept_execPairLinkDown h
  · exact kept_execPairLinkUp h
  · exact kept_execGrant h
  · exact kept_execHoldDownExpiry h
  · exact kept_execIslandPowerOnReset h
  · exact kept_execIslandReset h
  · exact kept_execMainDomainReset h
  · exact kept_execStage1Pass h
  · exact kept_execBackoffExpiry h
  · exact kept_execTrialTimerExpiry h
  · exact kept_execChallengeSignatureReady h
  · exact kept_execUhOpen h
  · exact kept_execUhProve h
  · exact kept_execProveTimeout h
  · exact kept_execUhClose h
  · exact kept_execKeepalive h
  · exact kept_execSessionIdleExpiry h
  · exact kept_execUhDescribe h
  · exact kept_execUhRead h
  · exact kept_execUhWrite h
  · exact kept_execBlockRead h
  · exact kept_execBlockWrite h
  · exact kept_execSubscribe h
  · exact kept_execUhEvent h
  · exact kept_execEventAck h
  · exact kept_execEventRetryExpiry h
  · exact kept_execReservedOp h
  · exact kept_execMalformedPdu h
  · exact kept_execMbGo h
  · exact kept_execEventReadyClear h
  · exact kept_execShortPress h
  · exact kept_execLongPress h
  · exact kept_execLatchOpen h
  · exact kept_execLatchClose h
  · exact kept_execLatchFault h
  · exact kept_execCageInserted h
  · exact kept_execModuleReady h
  · exact kept_execModuleFault h
  · exact kept_execCageInitTimeout h
  · exact kept_execModuleRemoval h
  · exact kept_execT1lLinkUp h
  · exact kept_execT1lLinkDown h
  · exact kept_execIslandPowerEffect h
  · exact kept_execIslandHoldOffExpiry h
  · exact kept_execPwrGoodRise h
  · exact kept_execRailGoodTimeout h
  · exact kept_execMainResetRelease h
  · exact kept_execMainHoldOffExpiry h
  · exact kept_execMainPowerDown h
  · exact kept_execRailFault h
  · exact kept_execRefclkLoss h
  · exact kept_execRefclkRelock h
  · exact kept_execJunctionOver105 h
  · exact kept_execThermalTrip h
  · exact kept_execTjHour h
  · exact kept_execTapReset h
  · exact kept_execIdcode h
  · exact kept_execSamplePreload h
  · exact kept_execExtest h
  · exact kept_execClamp h
  · exact kept_execHighz h
  · exact kept_execDebug h
  · exact kept_execBypass h
  · exact kept_execDebugHalt h
  · exact kept_execDebugResume h
  · exact kept_execDebugStep h
  · exact kept_execAbortStaged h
  · exact kept_execAbortWait h
  · exact kept_execRegRead h
  · exact kept_execRegWrite h
  · exact kept_execMemRead h
  · exact kept_execMemWrite h
  · exact kept_execNorErase h
  · exact kept_execUnlock h
  · exact kept_execRelock h
  · exact kept_execNewChallenge h
  · exact kept_execBreakpoint h
  · exact kept_execFreezeMaxExpiry h
  · exact kept_execFaultLogBlockWrite h
  · exact kept_execRegisterWrite h
  · exact kept_execIslandSupplyLoss h
  · exact kept_execPerstAssert h
  · exact kept_execVfEnable h
  · exact kept_execGetCertificate h
  · exact kept_execJunctionAbove100 h
  · exact kept_execEyeMarginLow h

end Sys2Proof.Machine.Laws
end

section
/-!
CLAIMS. The invariant of both memories and of the register banks (00 Table 0-1; 02 R28; 03 R60; 11 R249; 15 R345; 16 R389;
18 R419; 06 R145).
-/

namespace Sys2Proof.Proofs

open Sys2Proof Sys2Proof.Machine Sys2Proof.Machine.Laws

/-- Settles O57: taking the command off the queue touches no bank, and `kept_exec` holds of every command. -/
theorem everyStepKeepsTheInvariant : Obligations.EveryStepKeepsTheInvariant := by
  unfold Obligations.EveryStepKeepsTheInvariant
  intro s t h e
  unfold step at e
  split at e
  case h_1 => exact kept_next h t e
  case h_2 c rest _ =>
    have hrest : Inv { s with pending := rest } := h
    exact kept_exec hrest t e

end Sys2Proof.Proofs
end

section
/-!
SUPPORT. The highest common ability of a lane (02 R35), training and faults of lanes (02 R36, R38), and the counters of
discarded and accepted frames (02 R40, R45).
-/

namespace Sys2Proof.Machine.Laws

open Sys2Proof Sys2Proof.Machine

/-! ## Abilities -/

theorem bestAbility_of_native {c : Nat} (h : c.testBit 5 = true) : bestAbility c = some 0 := if_pos h

/-- The fastest mode both sides have stands at the lowest bit of the common abilities. -/
theorem bestAbility_of_lowest {c m : Nat} (hm : 2 ≤ m ∧ m ≤ 6) (hnative : c.testBit 5 = false)
    (hbit : c.testBit (m - 2) = true) (hlow : ∀ i, i < m - 2 → c.testBit i = false) : bestAbility c = some m := by
  have hfind : (List.range 5).find? (fun i => c.testBit i) = some (m - 2) :=
    List.find?_range_eq_some.2 ⟨hbit, List.mem_range.2 (by omega), fun i hi => by simp [hlow i hi]⟩
  rw [bestAbility, if_neg (by simp [hnative]), hfind, Option.map_some, Nat.sub_add_cancel hm.1]

/-! ## Lanes -/

theorem lane_restartAn {s : State} {n : Nat} (h : n < s.net.lanes.length) : lane (restartAn s n) n = ⟨.an, 0, 0⟩ :=
  lane_setLane _ _ _ h

theorem lane_startTraining {s : State} {n : Nat} {l : Lane} (h : n < s.net.lanes.length) :
    lane (startTraining s n l) n = { l with state := .training } :=
  lane_setLane _ _ _ h

theorem discardFrame_eq (s : State) (p sub : Nat) :
    discardFrame s p sub = if s.pair.muzzled then
      ctrAddAt (ctrAddAt s (0xC100 + p) sub 0 1) (0xC100 + p) 0x07 0 1 else ctrAddAt s (0xC100 + p) sub 0 1 := rfl

theorem discardFrame_frame (s : State) (p sub : Nat) :
    (discardFrame s p sub).net = s.net ∧ (discardFrame s p sub).objs.vals = s.objs.vals := by
  rw [discardFrame_eq]
  split <;> exact ⟨rfl, rfl⟩

theorem length_lanes_laneFault (s : State) (n : Nat) : (laneFault s n).net.lanes.length = s.net.lanes.length := by
  unfold laneFault
  split
  · rfl
  · rw [setLane_net]; exact List.length_set

theorem pllLocked_laneFault (s : State) (n : Nat) : (laneFault s n).net.pllLocked = s.net.pllLocked := by
  unfold laneFault
  split
  · rfl
  · rw [setLane_net]

/-- A fault of lane `m` takes it to FAULT unless it is DISABLED; every other lane keeps its state. -/
theorem state_laneFault (s : State) (m : Nat) {n : Nat} (h : n < s.net.lanes.length) :
    (lane (laneFault s m) n).state =
      if n = m ∧ (lane s n).state ≠ .disabled then .fault else (lane s n).state := by
  unfold laneFault
  by_cases hm : n = m
  · subst hm
    by_cases hd : (lane s n).state = .disabled
    · simp [hd]
    · simp [hd, lane_setLane s n _ h]
  · simp only [hm, false_and, if_false]
    split
    · rfl
    · rw [lane_setLane_ne s m n _ hm]

theorem pllLocked_foldl_laneFault (s : State) (ns : List Nat) :
    (ns.foldl laneFault s).net.pllLocked = s.net.pllLocked :=
  List.foldlRecOn (motive := fun t => t.net.pllLocked = s.net.pllLocked) ns laneFault rfl
    (fun t ht n _ => (pllLocked_laneFault t n).trans ht)

/-- Faults of a list of lanes take each one of them that is not DISABLED to FAULT. -/
theorem state_foldl_laneFault {ns : List Nat} {s : State} {n : Nat} (h : n < s.net.lanes.length)
    (hs : (lane s n).state = .fault ∨ n ∈ ns ∧ (lane s n).state ≠ .disabled) :
    (lane (ns.foldl laneFault s) n).state = .fault := by
  induction ns generalizing s with
  | nil => simpa using hs
  | cons m ns ih =>
    refine ih (by rwa [length_lanes_laneFault]) ?_
    rw [state_laneFault s m h]
    rcases hs with hf | ⟨hmem, hd⟩
    · left; simp [hf]
    · by_cases hm : n = m
      · left; rw [if_pos ⟨hm, hd⟩]
      · right
        rw [if_neg (fun hc => hm hc.1)]
        exact ⟨(List.mem_cons.1 hmem).resolve_left hm, hd⟩

/-- A field of one bit that is set to 0 reads 0. -/
theorem getLsbD_setFld_clear {n : Nat} (w : BitVec n) (g : Nat) : (setFld w g 1 0).getLsbD g = false := by
  simp only [setFld, BitVec.getLsbD_or, BitVec.getLsbD_and, BitVec.getLsbD_not, BitVec.getLsbD_ofNat,
    Nat.testBit_shiftLeft]
  cases decide (g < n) <;> simp

/-! ## Frames -/

theorem ctrGet_countN_ne (s : State) {i u j v : Nat} (n : Nat) (h : okey j v 0 ≠ okey i u 0) :
    ctrGet (countN s i u n) j v 0 = ctrGet s j v 0 := by
  rw [countN, ctrGet_ctrAddAt, if_neg h]

theorem divertInband_rxFrames (s : State) (p : Nat) (bytes : List Byte) (j : Nat) :
    ctrGet (divertInband s p bytes) j 0x01 0 = ctrGet s j 0x01 0 := by
  unfold divertInband
  extract_lets
  split
  · exact ctrGet_countN_ne s 1 (by simp only [okey]; omega)
  · rfl

theorem ctrGet_acceptFrame (s : State) {p : Nat} (bytes : List Byte) (slots : Nat) (hp : p < 32) :
    ctrGet (acceptFrame s p bytes slots) (0xC100 + p) 0x01 0 = (ctrGet s (0xC100 + p) 0x01 0 + 1) % 2 ^ 64 := by
  unfold acceptFrame
  extract_lets t
  have ht : ctrGet t (0xC100 + p) 0x01 0 = (ctrGet s (0xC100 + p) 0x01 0 + 1) % 2 ^ 64 :=
    (ctrGet_countN_ne _ _ (by simp only [okey]; omega)).trans (ctrGet_count_self s _ _)
  rw [← ht]
  split
  · exact ctrGet_countN_ne t 1 (by simp only [okey]; omega)
  · split
    · exact divertInband_rxFrames t p bytes _
    · split
      · exact ctrGet_countN_ne t 1 (by simp only [okey]; omega)
      · split
        · exact ctrGet_countN_ne t 1 (by simp only [okey]; omega)
        · rfl

end Sys2Proof.Machine.Laws
end

section
/-!
CLAIMS. The lane commands (02 Table 2-4) and the reception of frames (02 R40, Table 2-8).
-/

namespace Sys2Proof.Proofs

open Sys2Proof Sys2Proof.Machine Sys2Proof.Machine.Laws

variable {s : State} {n : BitVec 5}

theorem lane_lt_length (hs : s.net.lanes.length = 32) : n.toNat < s.net.lanes.length := hs ▸ n.isLt

/-- AN_RESOLUTION of a lane in AN whose common abilities have the best mode `m`. -/
theorem anResolution_takes {ab : BitVec 6} {rs br ba : Bool} {m : Nat} (hs : s.net.lanes.length = 32)
    (hl : (lane s n.toNat).state = .an) (hbest : bestAbility (advertised s n.toNat &&& ab.toNat) = some m) :
    ∃ t, exec (.anResolution n ab rs br ba) s = .next t ∧
      (lane t n.toNat).state = (if m = 6 then .locking else .training) ∧ (lane t n.toNat).mode = m := by
  refine ⟨_, rfl, ?_⟩
  rw [if_pos hl, hbest]
  dsimp only
  by_cases hm : m = 6
  · rw [if_pos hm, if_pos hm, lane_setLane _ _ _ (lane_lt_length hs)]
    exact ⟨rfl, rfl⟩
  · rw [if_neg hm, if_neg hm, lane_startTraining (lane_lt_length hs)]
    exact ⟨rfl, rfl⟩

theorem trainingDone_takes (hs : s.net.lanes.length = 32) (hl : (lane s n.toNat).state = .training) :
    ∃ t, exec (.trainingDone n) s = .next t ∧ (lane t n.toNat).state = .locking ∧
      (lane t n.toNat).mode = (lane s n.toNat).mode := by
  refine ⟨_, rfl, ?_⟩
  rw [if_pos hl, lane_setLane _ _ _ (lane_lt_length hs)]
  exact ⟨rfl, rfl⟩

theorem trainingFailure_takes (hs : s.net.lanes.length = 32) (hl : (lane s n.toNat).state = .training) :
    ∃ t, exec (.trainingFailure n) s = .next t ∧ (lane t n.toNat).state = .an := by
  refine ⟨_, rfl, ?_⟩
  rw [if_pos hl, lane_restartAn]
  simpa using lane_lt_length hs

theorem lockAcquired_takes (hs : s.net.lanes.length = 32) (hl : (lane s n.toNat).state = .locking) :
    ∃ t, exec (.lockAcquired n) s = .next t ∧ (lane t n.toNat).state = .up := by
  refine ⟨_, rfl, ?_⟩
  rw [if_pos hl, lane_setLane _ _ _ (lane_lt_length hs)]

/-- The frame cut by the loss of lock counts and leaves the lanes and the lane's kind. -/
theorem lossOfLock_takes {mid : Bool} (hs : s.net.lanes.length = 32) (hl : (lane s n.toNat).state = .up) :
    ∃ t, exec (.lossOfLock n mid) s = .next t ∧
      (lane t n.toNat).state = (if laneKind s n.toNat = 2 then .locking else .an) := by
  refine ⟨_, rfl, ?_⟩
  rw [if_pos hl]
  extract_lets t
  have ht : t.net = s.net ∧ t.objs.vals = s.objs.vals := by
    dsimp only [t]
    split
    · exact discardFrame_frame ..
    · exact ⟨rfl, rfl⟩
  obtain ⟨hnet, hvals⟩ := ht
  have hlen : n.toNat < t.net.lanes.length := by rw [hnet]; exact lane_lt_length hs
  have hkind : laneKind t n.toNat = laneKind s n.toNat := objGet_congr hvals ..
  rw [hkind]
  split
  · rw [lane_setLane _ _ _ hlen]
  · rw [lane_restartAn hlen]

theorem serdesFault_takes (hs : s.net.lanes.length = 32) (hl : (lane s n.toNat).state ≠ .disabled) :
    ∃ t, exec (.serdesFault n) s = .next t ∧ (lane t n.toNat).state = .fault :=
  ⟨_, rfl, by rw [state_laneFault s _ (lane_lt_length hs), if_pos ⟨rfl, hl⟩]⟩

theorem pllLossOfLock_takes {g : BitVec 2} (hs : s.net.lanes.length = 32) (href : s.clk.holdover = false) :
    ∃ t, exec (.pllLossOfLock g) s = .next t ∧ t.net.pllLocked.getLsbD g.toNat = false ∧
      ∀ i, i < 8 → (lane s (8 * g.toNat + i)).state ≠ .disabled → (lane t (8 * g.toNat + i)).state = .fault := by
  refine ⟨_, rfl, ?_⟩
  rw [if_neg (by simp [href])]
  refine ⟨?_, fun i hi hd => ?_⟩
  · rw [pllLocked_foldl_laneFault]
    exact getLsbD_setFld_clear ..
  · have hlt : 8 * g.toNat + i < s.net.lanes.length := by have := g.isLt; omega
    exact state_foldl_laneFault hlt (.inr ⟨List.mem_map_of_mem (List.mem_range.2 hi), hd⟩)

/-- The common ability that each disjunct of O1's first clause describes is the one `bestAbility` finds. -/
theorem bestAbility_of_highest {c m : Nat}
    (h : (m = 0 ∧ c.testBit 5 = true) ∨
      (2 ≤ m ∧ m ≤ 6 ∧ c.testBit 5 = false ∧ c.testBit (m - 2) = true ∧ ∀ i, i < m - 2 → c.testBit i = false)) :
    bestAbility c = some m := by
  rcases h with ⟨rfl, hnative⟩ | ⟨hlo, hhi, hnative, hbit, hlow⟩
  · exact bestAbility_of_native hnative
  · exact bestAbility_of_lowest ⟨hlo, hhi⟩ hnative hbit hlow

/-- Settles O1: a clause for each command, by what setting a lane does to that lane. -/
theorem laneCommandsTakeEffect : Obligations.LaneCommandsTakeEffect := by
  unfold Obligations.LaneCommandsTakeEffect
  exact ⟨fun _ _ _ _ _ _ _ hs hl hm => anResolution_takes hs hl (bestAbility_of_highest hm),
    fun _ _ => trainingDone_takes, fun _ _ => trainingFailure_takes, fun _ _ => lockAcquired_takes,
    fun _ _ _ => lossOfLock_takes, fun _ _ => serdesFault_takes, fun _ _ => pllLossOfLock_takes⟩

/-- Settles O8: the branches of FRAME_RECEIVED in their order; what an accepted frame counts besides rx_frames stands on
other counters. -/
theorem receivedFramesAreCounted : Obligations.ReceivedFramesAreCounted := by
  unfold Obligations.ReceivedFramesAreCounted
  intro s port bytes fcsOk cut slots hup
  have hexec : exec (.frameReceived port bytes fcsOk cut slots) s = .next (if cut then discardFrame s port.toNat 0x03
      else if bytes.length < 64 then discardFrame s port.toNat 0x04
      else if maxFrame s port.toNat < bytes.length then discardFrame s port.toNat 0x05
      else if !fcsOk then discardFrame s port.toNat 0x03
      else acceptFrame s port.toNat bytes slots) := by
    refine congrArg Host.Outcome.next (if_neg ?_)
    simp [hup]
  simp only [hexec, ← discardFrame_eq]
  refine ⟨?_, ?_, ?_, ?_⟩
  · rintro (hcut | ⟨hmin, hmax, hfcs⟩)
    · rw [if_pos hcut]
    · simp [Nat.not_lt.2 hmin, Nat.not_lt.2 hmax, hfcs]
  · rintro ⟨hcut, hrunt⟩
    simp [hcut, hrunt]
  · rintro ⟨hcut, hmin, hlong⟩
    simp [hcut, Nat.not_lt.2 hmin, hlong]
  · rintro ⟨hcut, hfcs, hmin, hmax⟩
    refine ⟨_, rfl, ?_⟩
    simp only [hcut, hfcs, Nat.not_lt.2 hmin, Nat.not_lt.2 hmax, if_false, Bool.not_true, Bool.false_eq_true]
    exact ctrGet_acceptFrame s bytes slots port.isLt

end Sys2Proof.Proofs
end

section
/-!
SUPPORT. The load interface (03 R66 to R72): what a write of its registers and a record leave as they were, what its commands
touch, and where the trees of an installed image lie.
-/

namespace Sys2Proof.Machine.Laws

open Sys2Proof Sys2Proof.Machine

@[simp] theorem record_frame (s : State) (r : DeltaRec) :
    (record s r).pending = s.pending ∧ (record s r).clk = s.clk ∧ (record s r).objs = s.objs ∧
    (record s r).led = s.led ∧ (record s r).logs = s.logs ∧ (record s r).uhl = s.uhl ∧ (record s r).net = s.net ∧
    (record s r).shp = s.shp ∧ (record s r).tt = s.tt ∧ (record s r).pipe = s.pipe ∧ (record s r).stg = s.stg ∧
    (record s r).fwd = s.fwd ∧ (record s r).tc = s.tc ∧ (record s r).jx = s.jx ∧ (record s r).cip = s.cip ∧
    (record s r).ken = s.ken ∧ (record s r).dma = s.dma ∧ (record s r).hst = s.hst ∧ (record s r).slc = s.slc ∧
    (record s r).boot = s.boot ∧ (record s r).isl = s.isl ∧ (record s r).pwr = s.pwr ∧ (record s r).dbg = s.dbg ∧
    (record s r).hbm = s.hbm ∧ (record s r).out = s.out ∧ (record s r).fresh = s.fresh := by
  unfold record
  split <;> simp

/-- A write of the load interface's registers may note the change in their history, and is else taken as it is. -/
@[simp] theorem ttSet_tt (s : State) (t : Tt) :
    (ttSet s t).tt.state = t.state ∧ (ttSet s t).tt.reason = t.reason ∧ (ttSet s t).tt.drain = t.drain ∧
    (ttSet s t).tt.gen = t.gen ∧ (ttSet s t).tt.beat = t.beat ∧ (ttSet s t).tt.target = t.target ∧
    (ttSet s t).tt.cur = t.cur ∧ (ttSet s t).tt.staged = t.staged ∧ (ttSet s t).tt.old = t.old ∧
    (ttSet s t).tt.install = t.install ∧ (ttSet s t).tt.swap = t.swap ∧ (ttSet s t).tt.ver = t.ver := by
  unfold ttSet
  dsimp only
  split <;> simp

/-- A write that changes neither ARMED nor GEN notes nothing. -/
theorem ttSet_of_unarmed (s : State) {t : Tt} (hstate : t.state = s.tt.state) (hgen : t.gen = s.tt.gen) :
    ttSet s t = { s with tt := t } := by
  rw [ttSet, hstate, hgen]
  exact if_pos rfl

theorem ttReason_eq (s : State) (r : BitVec 8) : ttReason s r = { s with tt := { s.tt with reason := r } } :=
  ttSet_of_unarmed s rfl rfl

@[simp] theorem dropStaged_tt (s : State) :
    (dropStaged s).tt.state = backState s ∧ (dropStaged s).tt.staged = none ∧ (dropStaged s).tt.ver = none := by
  simp [dropStaged]

/-! ## What the load interface touches -/

/-- From `b` to `s` only the load interface's registers, counters, the delta and the memory firewall's locks have changed. -/
def LoadOnly (b s : State) : Prop :=
  s.hbm.mem = b.hbm.mem ∧ s.net = b.net ∧ s.shp = b.shp ∧ s.led = b.led ∧ s.ken = b.ken ∧ s.dma = b.dma ∧ s.stg = b.stg ∧
    s.uhl = b.uhl ∧ s.clk = b.clk ∧ s.tt.cur = b.tt.cur ∧ s.tt.old = b.tt.old ∧ s.tt.gen = b.tt.gen ∧ s.pending = b.pending

section

variable {b s : State}

theorem loadOnly_self (s : State) : LoadOnly s s := by simp [LoadOnly]

theorem loadOnly_ite {p : Prop} [Decidable p] {t : State} (hs : LoadOnly b s) (ht : LoadOnly b t) :
    LoadOnly b (if p then s else t) := iteInduction (fun _ => hs) (fun _ => ht)

theorem loadOnly_record {r : DeltaRec} (h : LoadOnly b s) : LoadOnly b (record s r) := loadOnly_ite h h

theorem loadOnly_ttSet {t : Tt} (h : LoadOnly b s) (hcur : t.cur = s.tt.cur) (hold : t.old = s.tt.old)
    (hgen : t.gen = s.tt.gen) : LoadOnly b (ttSet s t) := by
  simpa [LoadOnly, hcur, hold, hgen] using h

theorem loadOnly_ttReason {r : BitVec 8} (h : LoadOnly b s) : LoadOnly b (ttReason s r) := loadOnly_ttSet h rfl rfl rfl

theorem loadOnly_ttRefuse (h : LoadOnly b s) : LoadOnly b (ttRefuse s) := loadOnly_ttReason h

theorem loadOnly_count {i u : Nat} (h : LoadOnly b s) : LoadOnly b (count s i u) := h

theorem loadOnly_dropStaged (h : LoadOnly b s) : LoadOnly b (dropStaged s) := by
  have ht : LoadOnly b (ttSet s { s.tt with
    state := backState s, staged := none, install := [], ver := none, target := none, swap := false }) :=
    loadOnly_ttSet h rfl rfl rfl
  exact ht

theorem loadOnly_startVerify (h : LoadOnly b s) : LoadOnly b (startVerify s) :=
  loadOnly_record (loadOnly_ttSet (loadOnly_ite h h) rfl rfl rfl)

theorem loadOnly_doVerify (h : LoadOnly b s) : LoadOnly b (doVerify s) := by
  refine loadOnly_ite (loadOnly_ttRefuse h) ?_
  split
  · exact loadOnly_startVerify h
  · exact loadOnly_startVerify h
  · exact loadOnly_ttReason h
  · exact loadOnly_ttRefuse h

theorem loadOnly_doInstall (h : LoadOnly b s) : LoadOnly b (doInstall s) := by
  refine loadOnly_ite ?_ (loadOnly_ttRefuse h)
  unfold startInstall
  split
  · exact h
  · exact loadOnly_record (loadOnly_ttSet h rfl rfl rfl)

theorem loadOnly_doVerifyDone (h : LoadOnly b s) : LoadOnly b (doVerifyDone s) := by
  unfold doVerifyDone
  split
  · extract_lets
    split
    · exact loadOnly_ttReason (loadOnly_dropStaged (loadOnly_ite (loadOnly_count (loadOnly_ttSet h rfl rfl rfl)) h))
    · exact loadOnly_ite (loadOnly_doInstall (loadOnly_ttSet h rfl rfl rfl)) (loadOnly_ttSet h rfl rfl rfl)
  · exact h

theorem loadOnly_doArm (h : LoadOnly b s) : LoadOnly b (doArm s) := by
  refine loadOnly_ite (loadOnly_ttRefuse h) ?_
  split
  · exact h
  · exact loadOnly_ite (loadOnly_ttReason h) (loadOnly_ite (loadOnly_ttReason h)
      (loadOnly_record (loadOnly_ttSet h rfl rfl rfl)))

theorem loadOnly_doDiscard (h : LoadOnly b s) : LoadOnly b (doDiscard s) := by
  refine loadOnly_ite (loadOnly_ttRefuse h) ?_
  split
  · exact loadOnly_ttReason (loadOnly_dropStaged h)
  · exact loadOnly_ttReason (loadOnly_dropStaged h)
  · exact loadOnly_ttReason (loadOnly_dropStaged h)
  · exact loadOnly_ttReason (loadOnly_dropStaged h)
  · exact loadOnly_ttReason h

theorem loadOnly_doCancelArm (h : LoadOnly b s) : LoadOnly b (doCancelArm s) :=
  loadOnly_ite (loadOnly_record (loadOnly_ttSet h rfl rfl rfl)) (loadOnly_ite (loadOnly_ttReason h) (loadOnly_ttReason h))

end

/-! ## The trees of an installed image -/

/-- The state in which INSTALL_DONE goes on: the staged image's trees stand in HBM. -/
def treesWritten (s : State) : State :=
  match s.tt.staged with
  | some i => treeWrite s i.treeAt (treeContent i)
  | none => s

theorem treesWritten_none {s : State} (h : s.tt.staged = none) : treesWritten s = s := by simp [treesWritten, h]

theorem treesWritten_some {s : State} {i : Image} (h : s.tt.staged = some i) :
    treesWritten s = treeWrite s i.treeAt (treeContent i) := by simp [treesWritten, h]

/-- Beside device memory the trees' arrival changes nothing. -/
theorem treesWritten_eq (s : State) : treesWritten s = { s with hbm := (treesWritten s).hbm } := by
  unfold treesWritten
  split <;> rfl

/-- A byte outside the places of a string in the decision-tree region keeps its value. -/
theorem hbmByte_treeWrite_of_ne (s : State) {a x : Nat} {bs : List Byte} (ha : a < 2147483648)
    (hn : bs.length ≤ 2147483648)
    (hx : ∀ i, i < bs.length → x ≠ Config.treeRegionPage.val * 4096 + (a + i) % 2147483648) :
    hbmByte (treeWrite s a bs) x = hbmByte s x := by
  unfold treeWrite
  generalize Config.treeRegionPage.val * 4096 = base at hx ⊢
  dsimp only
  rw [hbmByte_hbmWrite, hbmByte_hbmWrite, List.length_take, List.length_drop, if_neg, if_neg]
  · rintro ⟨hlo, hhi⟩
    exact hx (x - (base + a)) (by omega) (by rw [Nat.mod_eq_of_lt (by omega)]; omega)
  · rintro ⟨hlo, hhi⟩
    refine hx (x - base + (2147483648 - a)) (by omega) ?_
    rw [show a + (x - base + (2147483648 - a)) = x - base + 2147483648 by omega, Nat.add_mod_right,
      Nat.mod_eq_of_lt (by omega)]
    omega

theorem doInstallDone_eq (s : State) (h : s.tt.state = .installing ∧ s.tt.install.all (· == 0) = true) :
    doInstallDone s =
      let t := ttSet (treesWritten s) { (treesWritten s).tt with state := .installed, install := [] }
      if t.tt.swap then
        doArm (ttSet t { t.tt with swap := false, armBeat := BitVec.ofNat 64 (objGet t 0x5001 0x02 0) })
      else t := if_pos h

theorem doInstallDone_idle (s : State) (h : ¬(s.tt.state = .installing ∧ s.tt.install.all (· == 0) = true)) :
    doInstallDone s = s := if_neg h

/-- INSTALL_DONE does nothing, or goes on from the state in which the trees stand in HBM. -/
theorem loadOnly_doInstallDone (s : State) : LoadOnly s (doInstallDone s) ∨ LoadOnly (treesWritten s) (doInstallDone s) := by
  by_cases h : s.tt.state = .installing ∧ s.tt.install.all (· == 0) = true
  · right
    rw [doInstallDone_eq s h]
    have ht : LoadOnly (treesWritten s)
        (ttSet (treesWritten s) { (treesWritten s).tt with state := .installed, install := [] }) :=
      loadOnly_ttSet (loadOnly_self _) rfl rfl rfl
    exact loadOnly_ite (loadOnly_doArm (loadOnly_ttSet ht rfl rfl rfl)) ht
  · left
    rw [doInstallDone_idle s h]
    exact loadOnly_self s

end Sys2Proof.Machine.Laws
end

section
/-!
CLAIMS. The timetable load interface (03 R69 to R72, Table 3-6).
-/

namespace Sys2Proof.Proofs

open Sys2Proof Sys2Proof.Machine Sys2Proof.Machine.Laws

variable {s : State}

/-! ## Commands that the state does not list -/

theorem ttRefuse_reason (s : State) :
    ∃ r : BitVec 8, (r = 1 ∨ r = 2) ∧ ttRefuse s = { s with tt := { s.tt with reason := r } } := by
  refine ⟨_, ?_, ttReason_eq s _⟩
  split
  · exact .inl rfl
  · exact .inr rfl

theorem doVerify_refused (hempty : s.tt.state ≠ .empty) (hidle : s.tt.state ≠ .idle) :
    ∃ r : BitVec 8, (r = 1 ∨ r = 2) ∧ doVerify s = { s with tt := { s.tt with reason := r } } := by
  unfold doVerify
  split
  · exact ttRefuse_reason s
  · split
    · contradiction
    · contradiction
    · exact ⟨1, .inl rfl, ttReason_eq s 1⟩
    · exact ttRefuse_reason s

theorem doCancelArm_refused (h : s.tt.state ≠ .armed) :
    ∃ r : BitVec 8, (r = 1 ∨ r = 2) ∧ doCancelArm s = { s with tt := { s.tt with reason := r } } := by
  rw [doCancelArm, if_neg (fun hc => h hc.1)]
  split
  · exact ⟨1, .inl rfl, ttReason_eq s 1⟩
  · exact ⟨2, .inr rfl, ttReason_eq s 2⟩

/-- Settles O5, command by command: each one's first branch is closed, and what is left writes REASON alone. -/
theorem timetableCommandsRefuseByState : Obligations.TimetableCommandsRefuseByState := by
  unfold Obligations.TimetableCommandsRefuseByState
  rintro s c (⟨rfl, hon, hempty, hidle⟩ | ⟨rfl, h⟩ | ⟨rfl, h⟩ | ⟨rfl, h⟩)
  · obtain ⟨r, hr, he⟩ := doVerify_refused hempty hidle
    exact ⟨r, hr, congrArg Host.Outcome.next ((if_pos hon).trans he)⟩
  · obtain ⟨r, hr, he⟩ := ttRefuse_reason s
    exact ⟨r, hr, congrArg Host.Outcome.next ((if_neg (fun hc => h hc.1)).trans he)⟩
  · obtain ⟨r, hr, he⟩ := ttRefuse_reason s
    exact ⟨r, hr, congrArg Host.Outcome.next ((if_pos (.inl h)).trans he)⟩
  · obtain ⟨r, hr, he⟩ := doCancelArm_refused h
    exact ⟨r, hr, congrArg Host.Outcome.next he⟩

/-! ## Commands that the state lists -/

theorem verify_takes (hon : mainOn s = true) (hstate : s.tt.state = .empty ∨ s.tt.state = .idle)
    (hdrain : s.tt.drain = false) :
    ∃ t, exec .verify s = .next t ∧ t.tt.state = .verifying ∧ t.tt.reason = 0 := by
  have hverify : doVerify s = startVerify s := by
    rcases hstate with h | h <;> simp [doVerify, ttBusy, h, hdrain]
  refine ⟨startVerify s, congrArg Host.Outcome.next ((if_pos hon).trans hverify), ?_⟩
  simp [startVerify]

/-- VERIFY_DONE: the checks' result decides between VERIFIED and the state before VERIFY. -/
theorem verifyDone_takes {v : Nat × Nat × Bool} (hstate : s.tt.state = .verifying) (hver : s.tt.ver = some v)
    (hswap : s.tt.swap = false) :
    ∃ t, exec .verifyDone s = .next t ∧ t.tt.ver = none ∧
      ((t.tt.state = .verified ∧ t.tt.reason = 0 ∧ t.tt.staged.isSome = true) ∨
        (t.tt.state = (if s.tt.cur.isSome then .idle else .empty) ∧ t.tt.staged = none)) := by
  obtain ⟨src, len, ok⟩ := v
  refine ⟨doVerifyDone s, rfl, ?_⟩
  unfold doVerifyDone
  simp only [hstate, hver]
  split
  case h_1 r _ =>
    have hback : ∀ t : State, t.tt.cur = s.tt.cur → backState t = if s.tt.cur.isSome then .idle else .empty := by
      intro t ht; rw [backState, ht]
    simp only [ttReason_eq, dropStaged_tt, true_and]
    refine .inr ⟨hback _ ?_, trivial⟩
    split <;> simp
  case h_2 img _ => simp [hswap]

theorem install_takes (hstate : s.tt.state = .verified) (hdrain : s.tt.drain = false)
    (hstaged : s.tt.staged.isSome = true) :
    ∃ t, exec .install s = .next t ∧ t.tt.state = .installing ∧ t.tt.reason = 0 ∧ t.tt.install.length = 4 := by
  obtain ⟨img, himg⟩ := Option.isSome_iff_exists.1 hstaged
  refine ⟨startInstall s, congrArg Host.Outcome.next (if_pos ⟨hstate, by simp [hdrain]⟩), ?_⟩
  simp [startInstall, himg]

/-- INSTALL_DONE: the registers change after the trees, which read back as they were written. -/
theorem installDone_takes (hstate : s.tt.state = .installing) (hall : s.tt.install.all (· == 0) = true)
    (hswap : s.tt.swap = false) :
    ∃ t, exec .installDone s = .next t ∧ t.tt.state = .installed ∧
      ∀ img, s.tt.staged = some img → img.treeAt < 2147483648 → (treeContent img).length ≤ 2147483648 →
        treeRead t img.treeAt (treeContent img).length = treeContent img := by
  have htt : (treesWritten s).tt = s.tt := by rw [treesWritten_eq]
  refine ⟨ttSet (treesWritten s) { (treesWritten s).tt with state := .installed, install := [] },
    congrArg Host.Outcome.next ?_, by simp, fun img himg hat hlen => ?_⟩
  · rw [doInstallDone_eq s ⟨hstate, hall⟩]
    simp [htt, hswap]
  · rw [treesWritten_some himg]
    calc treeRead (ttSet (treeWrite s img.treeAt (treeContent img)) _) img.treeAt (treeContent img).length
      _ = treeRead (treeWrite s img.treeAt (treeContent img)) img.treeAt (treeContent img).length := by
        simp [treeRead, hbmByte]
      _ = treeContent img := treeRead_treeWrite s _ _ hat hlen

theorem arm_takes {img : Image} (hstate : s.tt.state = .installed) (hdrain : s.tt.drain = false)
    (hstaged : s.tt.staged = some img)
    (hpartner : s.pair.state = .active → partnerInstalled s = some (hdrFld img 0x10 64))
    (hbeat : s.tt.armBeat = 0 ∨ s.tt.beat < s.tt.armBeat.toNat) :
    ∃ t, exec .arm s = .next t ∧ t.tt.state = .armed ∧ t.tt.reason = 0 ∧
      t.tt.target = (if s.tt.armBeat = 0 then none else some s.tt.armBeat.toNat) := by
  have hmatch : ¬(s.pair.state = .active ∧ partnerInstalled s ≠ some (hdrFld img 0x10 64)) :=
    fun h => h.2 (hpartner h.1)
  have hlate : ¬(s.tt.armBeat ≠ 0 ∧ s.tt.armBeat.toNat ≤ s.tt.beat) :=
    fun h => hbeat.elim h.1 (Nat.not_lt.2 h.2)
  refine ⟨doArm s, rfl, ?_⟩
  simp only [doArm, hstate, hdrain, hstaged, hmatch, hlate]
  simp

theorem discard_takes
    (hstate : s.tt.state = .verifying ∨ s.tt.state = .verified ∨ s.tt.state = .installing ∨ s.tt.state = .installed)
    (hdrain : s.tt.drain = false) :
    ∃ t, exec .discard s = .next t ∧ t.tt.state = (if s.tt.cur.isSome then .idle else .empty) ∧ t.tt.staged = none ∧
      t.tt.reason = 0 := by
  have hdiscard : doDiscard s = ttReason (dropStaged s) 0 := by
    rcases hstate with h | h | h | h <;> simp [doDiscard, hdrain, h]
  refine ⟨_, congrArg Host.Outcome.next hdiscard, ?_⟩
  simp [ttReason_eq, backState]

theorem cancelArm_takes (hstate : s.tt.state = .armed) (hdrain : s.tt.drain = false) :
    ∃ t, exec .cancelArm s = .next t ∧ t.tt.state = .installed ∧ t.tt.target = none ∧ t.tt.reason = 0 := by
  refine ⟨_, congrArg Host.Outcome.next (if_pos ⟨hstate, by simp [hdrain]⟩), ?_⟩
  simp

/-- Settles O4: a clause for each command, by the branch that its state opens. -/
theorem timetableCommandsTakeEffect : Obligations.TimetableCommandsTakeEffect := by
  unfold Obligations.TimetableCommandsTakeEffect
  exact ⟨fun _ => verify_takes, fun _ _ => verifyDone_takes, fun _ => install_takes, fun _ => installDone_takes,
    fun _ _ => arm_takes, fun _ => discard_takes, fun _ => cancelArm_takes⟩

/-! ## What they leave alone -/

/-- VERIFY to CANCEL_ARM but INSTALL_DONE touch the load interface only. -/
theorem loadOnly_exec {c : Instr} {t : State}
    (hc : c = .verify ∨ c = .verifyDone ∨ c = .install ∨ c = .arm ∨ c = .discard ∨ c = .cancelArm)
    (he : exec c s = .next t) : LoadOnly s t := by
  have hself := loadOnly_self s
  rcases hc with rfl | rfl | rfl | rfl | rfl | rfl <;> cases he
  · exact loadOnly_ite (loadOnly_doVerify hself) hself
  · exact loadOnly_doVerifyDone hself
  · exact loadOnly_doInstall hself
  · exact loadOnly_doArm hself
  · exact loadOnly_doDiscard hself
  · exact loadOnly_doCancelArm hself

/-- Settles O6: all but INSTALL_DONE touch the load interface only, and so does that one once the trees are written. -/
theorem timetableCommandsKeepOtherState : Obligations.TimetableCommandsKeepOtherState := by
  unfold Obligations.TimetableCommandsKeepOtherState
  intro s t c hc he
  have hkept : LoadOnly s t ∨ c = .installDone ∧ LoadOnly (treesWritten s) t := by
    by_cases hdone : c = .installDone
    · subst hdone
      cases he
      exact (loadOnly_doInstallDone s).imp_right fun h => ⟨rfl, h⟩
    · exact .inl (loadOnly_exec (by simpa [hdone] using hc) he)
  obtain ⟨hmem, hrest⟩ | ⟨rfl, hmem, hrest⟩ := hkept
  · have hsame : SameMemory s t := hbmByte_congr hmem
    exact ⟨fun _ => hsame, fun _ _ _ _ a _ => hsame a, fun _ => hsame, hrest⟩
  · have hbyte : ∀ a, hbmByte t a = hbmByte (treesWritten s) a := hbmByte_congr hmem
    refine ⟨fun h => absurd rfl h, fun img himg hat hlen a ha => ?_, fun hnone a => ?_, ?_⟩
    · rw [hbyte, treesWritten_some himg, hbmByte_treeWrite_of_ne s hat hlen ha]
    · rw [hbyte, treesWritten_none hnone]
    · rw [treesWritten_eq] at hrest
      exact hrest

end Sys2Proof.Proofs
end

section
/-!
SUPPORT. What the tables' side of the pipelines touches: look-ups, scrubs, table commands that land, learn requests and removals
that retire (05 R109 to R113, 06 R128, R137 to R148) work on entries, counters, logs and the delta.
-/

namespace Sys2Proof.Machine.Laws

open Sys2Proof Sys2Proof.Machine

/-- From `b` to `s` table work has been done at most: the queue of commands, time, the timetable, the items, the waiting writes,
objects, scrub pointers, memory, DMA, lanes and Sheepdog stand as they did, and no session has come or gone. -/
def TableWork (b s : State) : Prop :=
  s.pending = b.pending ∧ s.clk = b.clk ∧ s.tt = b.tt ∧ s.pipe.items = b.pipe.items ∧ s.pipe.ctl = b.pipe.ctl ∧
    s.objs.vals = b.objs.vals ∧ s.objs.pend = b.objs.pend ∧ s.stg.scrub = b.stg.scrub ∧ s.hbm = b.hbm ∧ s.dma = b.dma ∧
    s.net = b.net ∧ s.shp = b.shp ∧ s.uhl.sessions.length = b.uhl.sessions.length

section

variable {b s : State}

theorem tableWork_self (s : State) : TableWork s s := by simp [TableWork]

theorem TableWork.clk (h : TableWork b s) : s.clk = b.clk := by obtain ⟨-, hclk, -⟩ := h; exact hclk

theorem TableWork.tt (h : TableWork b s) : s.tt = b.tt := by obtain ⟨-, -, htt, -⟩ := h; exact htt

theorem TableWork.items (h : TableWork b s) : s.pipe.items = b.pipe.items := by
  obtain ⟨-, -, -, hitems, -⟩ := h; exact hitems

theorem TableWork.ctl (h : TableWork b s) : s.pipe.ctl = b.pipe.ctl := by obtain ⟨-, -, -, -, hctl, -⟩ := h; exact hctl

theorem TableWork.scrub (h : TableWork b s) : s.stg.scrub = b.stg.scrub := by
  obtain ⟨-, -, -, -, -, -, -, hscrub, -⟩ := h; exact hscrub

theorem TableWork.shp (h : TableWork b s) : s.shp = b.shp := by
  obtain ⟨-, -, -, -, -, -, -, -, -, -, -, hshp, -⟩ := h; exact hshp

theorem TableWork.itemGet (h : TableWork b s) (id : Nat) : itemGet s id = itemGet b id := by
  rw [Machine.itemGet, h.items, Machine.itemGet]

theorem TableWork.imageOf (h : TableWork b s) (gen : Bool) : imageOf s gen = imageOf b gen := by
  rw [Machine.imageOf, h.tt, Machine.imageOf]

theorem TableWork.now (h : TableWork b s) : now s = now b := by rw [Machine.now, h.clk, Machine.now]

theorem TableWork.schedRow (h : TableWork b s) (slot : Nat) : schedRow s slot = schedRow b slot := by
  rw [Machine.schedRow, h.tt, Machine.schedRow]

theorem TableWork.rowBadAt (h : TableWork b s) (m : Nat) (ok : Bool) : rowBadAt s m ok = rowBadAt b m ok := by
  rw [Machine.rowBadAt, h.tt, Machine.rowBadAt]

theorem TableWork.rowBad (h : TableWork b s) (ok : Bool) : rowBad s ok = rowBad b ok := by
  rw [Machine.rowBad, h.rowBadAt, h.now, Machine.rowBad]

variable {α : Type} {c : Prop} [Decidable c]

theorem tableWork_ite {u v : State} (hu : TableWork b u) (hv : TableWork b v) : TableWork b (if c then u else v) :=
  iteInduction (fun _ => hu) (fun _ => hv)

theorem tableWork_ite_snd {u v : α × State} (hu : TableWork b u.2) (hv : TableWork b v.2) :
    TableWork b (if c then u else v).2 :=
  iteInduction (motive := fun r : α × State => TableWork b r.2) (fun _ => hu) (fun _ => hv)

theorem tableWork_foldl {f : State → α → State} (hf : ∀ s x, TableWork b s → TableWork b (f s x)) {l : List α}
    (h : TableWork b s) : TableWork b (l.foldl f s) :=
  List.foldlRecOn l f h (fun _ ht x _ => hf _ x ht)

/-! ## Shared operations -/

theorem length_sessions_eventFull (s : State) (k i x u : Nat) (p : BitVec 64) :
    (eventFull s k i x u p).uhl.sessions.length = s.uhl.sessions.length := by
  unfold eventFull
  obtain ⟨c, h⟩ := countOverruns_eq s ⟨s.logs.newest + 1, islandUs s, k / 256, k, i, x, u, p⟩ s.uhl.sessions
  simp [h]

theorem tableWork_event {k i n : Nat} (h : TableWork b s) : TableWork b (event s k i n) := by
  have hlen : (event s k i n).uhl.sessions.length = s.uhl.sessions.length := length_sessions_eventFull ..
  simpa [TableWork, hlen] using h

theorem tableWork_count {i u : Nat} (h : TableWork b s) : TableWork b (count s i u) := h

theorem tableWork_record {r : DeltaRec} (h : TableWork b s) : TableWork b (record s r) := tableWork_ite h h

theorem tableWork_ledPut {i : Nat} {e : LedEntry} (h : TableWork b s) : TableWork b (ledPut s i e) := tableWork_record h

theorem tableWork_ledRun {i : Nat} (h : TableWork b s) : TableWork b (ledRun s i) := by
  unfold ledRun
  split
  · exact tableWork_ite (tableWork_ledPut h) h
  · exact h

theorem tableWork_ledFix {i : Nat} {status detail : BitVec 8} (h : TableWork b s) :
    TableWork b (ledFix s i status detail) := by
  unfold ledFix
  split
  · exact h
  · exact tableWork_ledPut (tableWork_ite (tableWork_count h) h)

theorem tableWork_ledDone {i : Nat} {status detail : BitVec 8} (h : TableWork b s) :
    TableWork b (ledDone s i status detail) :=
  tableWork_ite h (tableWork_ledFix h)

/-! ## Stage words (05 R109 to R113) -/

theorem tableWork_tcamPut {p t u value mask n : Nat} (h : TableWork b s) : TableWork b (tcamPut s p t u value mask n) := by
  have hput : ∀ {t : State} (m : Sparse (BitVec 320)), TableWork b t →
      TableWork b { t with stg := { t.stg with tcam := m } } := fun _ ht => ht
  induction n generalizing s u value mask with
  | zero => exact h
  | succ n ih =>
    rw [tcamPut]
    exact ih (hput _ h)

theorem tableWork_quarantineWord {p t k w : Nat} {tern : Option Nat} (h : TableWork b s) :
    TableWork b (quarantineWord s p t k w tern) :=
  tableWork_ite h (tableWork_event h)

theorem tableWork_readWord {p t k w bits : Nat} {tern : Option Nat} (h : TableWork b s) :
    TableWork b (readWord s p t k w bits tern).2 :=
  tableWork_ite_snd h (tableWork_ite_snd h (tableWork_quarantineWord h))

theorem tableWork_readWords {p t bits : Nat} {l : List (Nat × Nat)} (h : TableWork b s) :
    TableWork b (readWords s p t bits l).2 := by
  induction l generalizing s with
  | nil => exact h
  | cons x l ih => exact ih (tableWork_readWord h)

theorem tableWork_writeEntry {d : BitVec 512} {p index : Nat} {pl : Nat × Nat × Nat} {v : BitVec 2048}
    (h : TableWork b s) : TableWork b (writeEntry s d p index pl v) := by
  have hput : ∀ {t : State} {k w i e : Nat}, TableWork b t → TableWork b (entryPut t d p k w i e) :=
    fun ht => tableWork_record ht
  exact hput (tableWork_ite (tableWork_record (tableWork_tcamPut h)) h)

theorem tableWork_ternarySearch {d : BitVec 512} {p key : Nat} {faulty : Bool} {i n : Nat} (h : TableWork b s) :
    TableWork b (ternarySearch s d p key faulty i n).2 := by
  induction n generalizing s faulty i with
  | zero => exact h
  | succ n ih =>
    have hread := fun q k w bits tern => tableWork_readWord (p := p) (t := q) (k := k) (w := w) (bits := bits)
      (tern := tern) h
    exact tableWork_ite_snd
      (tableWork_ite_snd (tableWork_ite_snd (hread ..) (ih (hread ..))) (ih (hread ..))) (ih h)

theorem tableWork_lookTable {d : BitVec 512} {p : Nat} {bus : Bus} (h : TableWork b s) :
    TableWork b (lookTable s d p bus).2 := by
  unfold lookTable
  extract_lets
  split
  · exact tableWork_ternarySearch h
  · exact tableWork_ite_snd (tableWork_readWord h) (tableWork_readWord h)
  · exact tableWork_readWords h

theorem tableWork_lookCounted {d : BitVec 512} {p : Nat} {bus : Bus} (h : TableWork b s) :
    TableWork b (lookCounted s d p bus).2 :=
  tableWork_ite (tableWork_count (tableWork_count (tableWork_lookTable h))) (tableWork_count (tableWork_lookTable h))

theorem tableWork_lookAll {p : Nat} {bus : Bus} {l : List (BitVec 512)} (h : TableWork b s) :
    TableWork b (lookAll p bus l s).2 := by
  induction l generalizing s with
  | nil => exact h
  | cons d l ih => exact ih (tableWork_lookCounted h)

/-! ## Table commands that land (06 R146 to R148) -/

theorem tableWork_stageCommand {d : BitVec 512} {p op index : Nat} {data cmp : BitVec 2048} (h : TableWork b s) :
    TableWork b (stageCommand s d p op index data cmp).2 := by
  unfold stageCommand
  refine tableWork_ite_snd h (tableWork_ite_snd h ?_)
  extract_lets r
  have hr : TableWork b r.2 :=
    tableWork_ite_snd (tableWork_ite_snd h (tableWork_readWords h)) (tableWork_ite_snd h (tableWork_readWord h))
  clear_value r
  refine tableWork_ite_snd hr ?_
  split
  · exact hr
  · split
    · exact tableWork_writeEntry hr
    · exact hr
  · exact hr
  · exact tableWork_writeEntry hr
  · exact hr
  · exact tableWork_ite_snd (tableWork_writeEntry hr) hr
  · exact tableWork_writeEntry hr

theorem tableWork_tcFinish {w result : Nat} {hit pend : Bool} {data : Option (BitVec 2048)} (h : TableWork b s) :
    TableWork b (tcFinish s w result hit pend data) := by
  unfold tcFinish
  split
  · exact h
  · exact tableWork_ledDone h

theorem tableWork_landCommand {e : Nat × Nat × Nat × BitVec 512} (h : TableWork b s) :
    TableWork b (landCommand s e) := by
  unfold landCommand
  split
  · exact h
  · exact tableWork_ite (tableWork_tcFinish (tableWork_stageCommand h)) (tableWork_stageCommand h)

theorem tableWork_landBy {m : Nat} (h : TableWork b s) : TableWork b (landBy s m) :=
  tableWork_foldl (fun _ _ => tableWork_landCommand) h

/-- A slot-owned command with a memory port starts from its slot, once the commands on their way have landed. -/
theorem tableWork_atPort (s : State) (slot : BitVec 12) : TableWork (atSlot s slot) (atPort s slot) :=
  tableWork_landBy (tableWork_self _)

/-! ## Shared tables (06 R128, R137 to R144) -/

theorem tableWork_readShared {tbl : Nat} {l : List Nat} (h : TableWork b s) : TableWork b (readShared s tbl l).2 := by
  induction l generalizing s with
  | nil => exact h
  | cons i l ih => exact ih (tableWork_ite (tableWork_event h) h)

theorem tableWork_hpPut {flow : Bool} {i v : Nat} (h : TableWork b s) : TableWork b (hpPut s flow i v) :=
  tableWork_ite h h

theorem tableWork_sharedPut {tbl i e : Nat} (h : TableWork b s) : TableWork b (sharedPut s tbl i e) := by
  have hr : TableWork b (record s (.table tbl i e)) := tableWork_record h
  exact tableWork_ite hr (tableWork_ite hr (tableWork_ite hr hr))

theorem tableWork_setSweep {flow : Bool} {x : Sweep} (h : TableWork b s) : TableWork b (setSweep s flow x) :=
  tableWork_ite h h

theorem tableWork_retireRemoval {flow : Bool} {r : Removal} (h : TableWork b s) :
    TableWork b (retireRemoval s flow r) := by
  have hread : TableWork b (readShared (setSweep s flow { sweepOf s flow with removal := (sweepOf s flow).removal.tail })
      (sweepTable flow) [r.entry]).2 := tableWork_readShared (tableWork_setSweep h)
  exact tableWork_ite (tableWork_count (tableWork_hpPut (tableWork_sharedPut hread)))
    (tableWork_count (tableWork_hpPut hread))

theorem tableWork_retireHeld {flow : Bool} {n : Nat} (h : TableWork b s) : TableWork b (retireHeld flow n s) := by
  induction n generalizing s with
  | zero => exact h
  | succ n ih =>
    unfold retireHeld
    split
    · exact h
    · exact tableWork_ite (ih (tableWork_retireRemoval h)) h

theorem tableWork_endSlot (h : TableWork b s) : TableWork b (endSlot s) := tableWork_retireHeld h

theorem tableWork_openSlot (h : TableWork b s) : TableWork b (openSlot s) := tableWork_ite h (tableWork_endSlot h)

theorem tableWork_startPass {flow : Bool} (h : TableWork b s) : TableWork b (startPass s flow) := by
  unfold startPass
  extract_lets
  refine tableWork_ite ?_ h
  split
  · exact tableWork_setSweep h
  · exact tableWork_count (tableWork_setSweep h)

theorem tableWork_sweepBoundary {flow : Bool} (h : TableWork b s) : TableWork b (sweepBoundary s flow) :=
  tableWork_setSweep (tableWork_ite (tableWork_count h) h)

theorem tableWork_lookDa {key : Nat} (h : TableWork b s) : TableWork b (lookDa s key).2 := by
  unfold lookDa
  extract_lets _ r
  have hr : TableWork b r.2 := tableWork_readShared h
  clear_value r
  split <;> exact hr

theorem tableWork_lookSa {key p : Nat} (h : TableWork b s) : TableWork b (lookSa s key p).2 := by
  unfold lookSa
  extract_lets _ r
  have hr : TableWork b r.2 := tableWork_readShared h
  clear_value r
  split
  · exact tableWork_ite_snd hr hr
  · exact hr

theorem tableWork_lookLpm {d : BitVec 512} {v6 : Bool} {vrf addr : Nat} {l : List Nat} (h : TableWork b s) :
    TableWork b (lookLpm s d v6 vrf addr l).2 := by
  induction l generalizing s with
  | nil => exact h
  | cons g l ih =>
    refine tableWork_ite_snd (ih h) ?_
    dsimp only
    split <;> exact ih (tableWork_readShared h)

theorem tableWork_lookFlow {key : Nat} (h : TableWork b s) : TableWork b (lookFlow s key).2 := by
  unfold lookFlow
  extract_lets _ t _ r
  have hr : TableWork b r.2 := tableWork_readShared (s := t) h
  clear_value r
  refine tableWork_ite_snd ?_ (tableWork_ite h h)
  split
  · exact tableWork_hpPut hr
  · exact hr

theorem tableWork_sharedLookups {d : BitVec 512} {x : Item} (h : TableWork b s) :
    TableWork b (sharedLookups s d x).2.2 := by
  unfold sharedLookups
  extract_lets _ _ _ _ _ da sa _ _ lpm
  have hda : TableWork b da.2 := tableWork_ite_snd (tableWork_lookDa h) h
  have hsa : TableWork b sa.2 := tableWork_ite_snd (tableWork_lookSa hda) hda
  have hlpm : TableWork b lpm.2 := tableWork_ite_snd (tableWork_lookLpm hsa) hsa
  exact tableWork_ite_snd (tableWork_lookFlow hlpm) hlpm

theorem tableWork_pushLearn {r : LearnReq} (h : TableWork b s) : TableWork b (pushLearn s r) := by
  have hq : TableWork b (if r.flow
      then { s with fwd := { s.fwd with flowq := (learnInsert { r with enters := now s } s.fwd.flowq).take 4096 } }
      else { s with fwd := { s.fwd with l2q := (learnInsert { r with enters := now s } s.fwd.l2q).take 4096 } }) :=
    tableWork_ite h h
  exact tableWork_ite (tableWork_ite h h) (tableWork_ite h h)

end

end Sys2Proof.Machine.Laws
end

section
/-!
SUPPORT. Items of the pipelines (05 R104, R468), the actions of a stage, the legs of the shared tables (06 R128) and a port's
transmit FIFO.
-/

namespace Sys2Proof.Machine.Laws

open Sys2Proof Sys2Proof.Machine

/-! ## Items -/

theorem id_of_itemGet {s : State} {id : Nat} {x : Item} (h : itemGet s id = some x) : x.id = id := by
  simpa using List.find?_some h

/-- The place of an item takes the value put there. -/
theorem itemGet_itemPut {s : State} {n : Nat} {x y : Item} (h : itemGet s n = some y) (hx : x.id = n) :
    itemGet (itemPut s x) n = some x := by
  subst hx
  have hsame : ((fun z : Item => z.id == x.id) ∘ fun z => if z.id = x.id then x else z) = fun z => z.id == x.id := by
    funext z
    by_cases hz : z.id = x.id <;> simp [hz]
  have hfind : s.pipe.items.find? (fun z => z.id == x.id) = some y := h
  rw [itemGet, itemPut, itemsMap, List.find?_map, hsame, hfind, Option.map_some, if_pos (id_of_itemGet h)]

theorem itemGet_itemRemove (s : State) (id : Nat) : itemGet (itemRemove s id) id = none := by
  rw [itemGet, List.find?_eq_none]
  intro x hx
  simp only [itemRemove, List.mem_filter, bne_iff_ne] at hx
  simpa using hx.2

/-- The item that returns in a slot is one of the pipeline's. -/
theorem itemGet_of_returnDue {s : State} {p u : Nat} {x : Item} (h : returnDue s p u = some x) :
    itemGet s x.id = some x := by
  obtain ⟨id, -, hid⟩ := List.mem_filterMap.1 (List.mem_of_find?_eq_some h)
  rwa [id_of_itemGet hid]

theorem itemGet_of_find {s : State} {p : Item → Bool} {x : Item} (h : s.pipe.items.find? p = some x) :
    ∃ y, itemGet s x.id = some y :=
  Option.isSome_iff_exists.1 (List.find?_isSome.2 ⟨x, List.mem_of_find?_eq_some h, by simp⟩)

/-! ## The slot of a command (03 R52) -/

@[simp] theorem schedRow_atSlot (s : State) (slot : BitVec 12) (n : Nat) : schedRow (atSlot s slot) n = schedRow s n := rfl

@[simp] theorem portOfLane_atSlot (s : State) (slot : BitVec 12) (n : Nat) :
    portOfLane (atSlot s slot) n = portOfLane s n := by
  rw [portOfLane]
  rfl

@[simp] theorem ctrGet_atSlot (s : State) (slot : BitVec 12) (i u e : Nat) :
    ctrGet (atSlot s slot) i u e = ctrGet s i u e := rfl

/-! ## Actions of a stage (05 R115, Tables 5-5 and 5-6) -/

/-- An action works on item `n`, and beside it on tables at most. -/
def ActsOn (b : State) (n : Nat) (a : ActSt) : Prop := TableWork b a.s ∧ a.x.id = n

section

variable {b : State} {n : Nat} {a : ActSt}

theorem actsOn_ite {p : Prop} [Decidable p] {a' : ActSt} (h : ActsOn b n a) (h' : ActsOn b n a') :
    ActsOn b n (if p then a else a') := iteInduction (fun _ => h) (fun _ => h')

theorem actsOn_busSet {lo w v : Nat} (h : ActsOn b n a) : ActsOn b n (busSet a lo w v) := h

theorem actsOn_fwdKind {k : Nat} (h : ActsOn b n a) : ActsOn b n (fwdKind a k) := actsOn_busSet h

theorem actsOn_count {i u : Nat} (h : ActsOn b n a) : ActsOn b n { a with s := count a.s i u } :=
  ⟨tableWork_count h.1, h.2⟩

theorem actsOn_raiseLearn {away : Bool} {r : LearnReq} (h : ActsOn b n a) : ActsOn b n (raiseLearn a away r) :=
  actsOn_ite h ⟨tableWork_pushLearn h.1, h.2⟩

theorem actsOn_actLearn {away : Bool} {imm : Nat} (h : ActsOn b n a) : ActsOn b n (actLearn a away imm) := by
  unfold actLearn
  extract_lets
  refine actsOn_ite ?_ (actsOn_ite h ?_)
  · split
    · exact actsOn_raiseLearn h
    · exact actsOn_raiseLearn h
    · exact actsOn_fwdKind (actsOn_count h)
    · exact actsOn_fwdKind (actsOn_count (actsOn_count h))
    · exact actsOn_count h
    · exact h
  · split
    · exact actsOn_raiseLearn h
    · exact actsOn_raiseLearn h
    · exact actsOn_fwdKind (actsOn_count h)
    · exact h

theorem actsOn_actLeave {away tree : Bool} {k : Nat} (h : ActsOn b n a) : ActsOn b n (actLeave a away tree k) :=
  actsOn_ite h (actsOn_ite (actsOn_count h) h)

theorem tableWork_dataBits {s : State} {c : ActCtx} {lo w : Nat} (h : TableWork b s) : TableWork b (dataBits s c lo w).2 :=
  tableWork_ite_snd h h

theorem actsOn_runPrim {c : ActCtx} {p : BitVec 64} (h : ActsOn b n a) : ActsOn b n (runPrim c a p) := by
  unfold runPrim
  extract_lets
  split
  · exact actsOn_busSet h
  · exact actsOn_busSet h
  · exact actsOn_busSet (a := { a with s := _ }) ⟨tableWork_dataBits h.1, h.2⟩
  · exact actsOn_busSet h
  · exact actsOn_fwdKind h
  · exact actsOn_busSet (actsOn_fwdKind h)
  · exact actsOn_fwdKind h
  · exact actsOn_actLeave h
  · exact actsOn_actLeave h
  · exact actsOn_busSet h
  · exact actsOn_busSet h
  · exact actsOn_actLearn h
  · exact h

theorem actsOn_runLook {i : Image} {h : BitVec 512 × Hit} (ha : ActsOn b n a) : ActsOn b n (runLook i a h) := by
  have hrun : ∀ act c, ActsOn b n (runAction i act c a) :=
    fun act c => List.foldlRecOn _ _ ha (fun _ h' _ _ => actsOn_runPrim h')
  unfold runLook
  split <;> exact hrun ..

end

/-- An item's visit of a stage drops it, or moves it on or out. -/
theorem itemGet_stageStep {s : State} {x : Item} (i : Image) (k : Nat) (hx : itemGet s x.id = some x) :
    itemGet (stageStep s i x k) x.id = none ∨
      ∃ y, itemGet (stageStep s i x k) x.id = some y ∧ (y.pos = .stage (k + 1) ∨ ∃ tree n, y.pos = .leaving k tree n) := by
  unfold stageStep
  extract_lets r a
  split
  · exact .inl (itemGet_itemRemove _ _)
  · right
    have hr : ActsOn s x.id ⟨r.2, x, none⟩ := ⟨tableWork_lookAll (tableWork_self s), rfl⟩
    have ha : ActsOn s x.id a := List.foldlRecOn _ _ hr (fun _ h _ _ => actsOn_runLook h)
    clear_value a
    obtain ⟨hwork, hid⟩ := ha
    refine ⟨_, itemGet_itemPut ((hwork.itemGet x.id).trans hx) hid, ?_⟩
    cases a.leave with
    | none => exact .inl rfl
    | some l => exact .inr ⟨_, _, rfl⟩

/-! ## Scrub (05 R113, R468) -/

theorem scrub_scrubStage (s : State) (p t : Nat) :
    sget 0 (scrubStage s p t).stg.scrub (20 * p + t) = (sget 0 s.stg.scrub (20 * p + t) + 1) % 2048 := by
  unfold scrubStage
  exact sget_sset_self ..

/-! ## Shared tables (06 R128) -/

/-- An item's access marks its lookups as made, or drops it. -/
theorem itemGet_access {s : State} {x : Item} {i : Image} (hx : itemGet s x.id = some x) (hi : imageOf s x.gen = some i) :
    itemGet (access s x) x.id = none ∨ ∃ y, itemGet (access s x) x.id = some y ∧ y.looked = true := by
  unfold access
  rw [hi]
  dsimp only
  split
  · exact .inl (itemGet_itemRemove _ _)
  · have hwork : TableWork s (sharedLookups s i.shared x).2.2 := tableWork_sharedLookups (tableWork_self s)
    exact .inr ⟨_, itemGet_itemPut ((hwork.itemGet x.id).trans hx) rfl, rfl⟩

/-- On a leg that is next in the order of its slot an act runs, the leg noted. -/
theorem onPipeLeg_of_legOf {s : State} {slot : BitVec 12} {p k : Nat} (act : State → State) (h : legOf s slot p = some k) :
    onPipeLeg s slot p act = act { s with fwd := { s.fwd with legs := s.fwd.legs ++ [(k, 1)] } } := by
  have hfree : legFree s k 1 = true := by
    have := List.find?_some h
    simp only [Bool.and_eq_true] at this
    exact this.2
  rw [onPipeLeg, h]
  exact if_pos hfree

/-! ## Transmit FIFOs (08 R190) -/

/-- Beside the tree's nodes and queues, Sheepdog's FIFOs stand as they did. -/
theorem fifos_commitChoice (s : State) (len : Nat) (st : Nat × Nat × Choice) :
    (commitChoice s len st).shp.fifos = s.shp.fifos := by
  unfold commitChoice
  extract_lets l x c t u
  split
  · rfl
  · have hu : u.shp.fifos = s.shp.fifos :=
      List.foldlRecOn (motive := fun v : State => v.shp.fifos = s.shp.fifos) _ _ rfl (fun _ hv _ _ => hv)
    exact hu

theorem fifo_clearDeficits (s : State) (p : Nat) : fifo (clearDeficits s) p = fifo s p := rfl

/-- A frame that is served goes to the end of its port's FIFO. -/
theorem fifo_dequeue (s : State) (p q : Nat) (f : QFrame) (path : List (Nat × Nat × Choice)) :
    fifo (dequeue s p q f path) p = fifo s p ++ [f] := by
  unfold dequeue
  extract_lets t u x v w z
  have ht : t.shp.fifos = s.shp.fifos :=
    List.foldlRecOn (motive := fun v : State => v.shp.fifos = s.shp.fifos) _ _ rfl
      (fun _ hv _ _ => (fifos_commitChoice ..).trans hv)
  have hu : u.shp.fifos = s.shp.fifos :=
    List.foldlRecOn (motive := fun v : State => v.shp.fifos = s.shp.fifos) _ _ ht (fun _ hv _ _ => hv)
  clear_value u
  have hv : fifo v p = fifo s p := by
    show sget [] u.shp.fifos p = _
    rw [hu, fifo]
  have hw : fifo w p = fifo s p ++ [f] := by
    rw [← hv]
    exact sget_sset_self ..
  clear_value w
  have hz : fifo z p = fifo w p := by
    dsimp only [z]
    split
    · rw [fifo, (tableWork_ledRun (tableWork_self w)).shp, fifo]
    · rfl
  rw [fifo_clearDeficits, ← hw, ← hz]
  split <;> rfl

/-- A port that is served takes the head frame of a queue. -/
theorem fifo_serve {s t : State} {p : Nat} (h : serve s p = some t) :
    ∃ q f, (queue s q).frames.head? = some f ∧ fifo t p = fifo s p ++ [f] := by
  unfold serve at h
  split at h
  case isFalse => cases h
  case isTrue =>
    split at h
    case h_1 => cases h
    case h_2 path _ =>
      split at h
      case h_1 => cases h
      case h_2 st _ =>
        dsimp only at h
        split at h
        case h_1 => cases h
        case h_2 f rest hq =>
          split at h
          case isFalse => cases h
          case isTrue =>
            cases h
            exact ⟨_, f, by rw [hq, List.head?_cons], fifo_dequeue ..⟩

end Sys2Proof.Machine.Laws
end

section
/-!
CLAIMS. The slot-owned commands of the pipelines (03 R58, R60; 05 R104, R105, R117, R468; 06 R128; 08 R190).
-/

namespace Sys2Proof.Proofs

open Sys2Proof Sys2Proof.Machine Sys2Proof.Machine.Laws

variable {s : State} {slot : BitVec 12} {p : BitVec 2}

/-- The row that a command with a memory port falls in has not failed, once the commands on their way have landed. -/
theorem rowBad_atPort (h : rowBad (atSlot s slot) true = false) : ¬rowBad (atPort s slot) true = true := by
  rw [(tableWork_atPort s slot).rowBad, h]
  exact Bool.false_ne_true

theorem ingressSlot_takes {f : RxFrame} {rest : List RxFrame} (hdrain : s.tt.drain = false) (hcur : s.tt.cur.isSome = true)
    (hrow : rowBad (atSlot s slot) true = false) (hlane : rowIngress (schedRow s slot.toNat) p.toNat < 32)
    (hbuf : rxBuf s (portOfLane s (rowIngress (schedRow s slot.toNat) p.toNat)) = f :: rest) :
    ∃ t x, exec (.ingressSlot slot p true) s = .next t ∧ t.pipe.items = s.pipe.items ++ [x] ∧ x.id = f.id ∧
      x.gen = s.tt.gen ∧ x.seq = s.pipe.seqs.getD p.toNat 0 ∧ x.pos = .parser ∧ x.len = f.bytes.length ∧
      rxBuf t (portOfLane s (rowIngress (schedRow s slot.toNat) p.toNat)) = rest := by
  have hexec : exec (.ingressSlot slot p true) s =
      .next (ingress (atSlot s slot) slot.toNat p.toNat (rowIngress (schedRow s slot.toNat) p.toNat)) := by
    refine congrArg Host.Outcome.next ((if_neg (by simp [hrow])).trans (if_pos ⟨hlane, ?_, hcur⟩))
    simp [hdrain]
  have hhead : rxBuf (atSlot s slot) (portOfLane (atSlot s slot) (rowIngress (schedRow s slot.toNat) p.toNat)) =
      f :: rest := hbuf
  rw [hexec, ingress, hhead]
  exact ⟨_, _, rfl, rfl, rfl, rfl, rfl, rfl, rfl, sget_sset_self ..⟩

theorem controlSlot_takes {id : Nat} (hctl : s.pipe.ctl.length = 4) (hrow : rowBad (atSlot s slot) true = false)
    (hslot : rowIngress (schedRow s slot.toNat) p.toNat = 0x3E) (hwaits : s.pipe.ctl.getD p.toNat [] = [.write id]) :
    ∃ t, exec (.controlSlot slot p true) s = .next t ∧ t.pipe.ctl.getD p.toNat [] = [] ∧
      ∀ w ∈ t.objs.pend, w.id = id → p.toNat ∉ w.waits := by
  have hport := tableWork_atPort s slot
  have hexec : exec (.controlSlot slot p true) s = .next (controlStep (atPort s slot) p.toNat) :=
    congrArg Host.Outcome.next ((if_neg (rowBad_atPort hrow)).trans (if_pos ((hport.schedRow _).symm ▸ hslot)))
  have hq : (atPort s slot).pipe.ctl.getD p.toNat [] = [.write id] := hport.ctl.symm ▸ hwaits
  have hlen : p.toNat < (atPort s slot).pipe.ctl.length := by
    rw [hport.ctl]
    exact hctl ▸ p.isLt
  rw [hexec]
  refine ⟨_, rfl, ?_⟩
  simp only [controlStep, hq, nextCmd, cmdClass]
  refine ⟨?_, ?_⟩
  · simp [writeExecuted, lset, hlen]
  · intro w hw hid
    obtain ⟨v, -, rfl⟩ := List.mem_map.1 hw
    by_cases hv : v.id = id
    · simp [hv]
    · exact absurd ((congrArg PWrite.id (if_neg hv)).symm.trans hid) hv

theorem returnSlot_takes {i : Image} {x : Item} (hcur : s.tt.cur = some i) (hrow : rowBad (atSlot s slot) true = false)
    (hslot : rowIngress (schedRow s slot.toNat) p.toNat = 0x3D)
    (hdue : returnDue (atSlot s slot) p.toNat ((i.maps.getD p.toNat []).getD slot.toNat 0) = some x) :
    ∃ t y, exec (.returnSlot slot p true) s = .next t ∧ itemGet t x.id = some y ∧
      y.pos = .stage ((i.maps.getD p.toNat []).getD slot.toNat 0) ∧ y.back = some slot.toNat := by
  have hslot' : ¬rowIngress (schedRow (atSlot s slot) slot.toNat) p.toNat ≠ 0x3D := fun h => h hslot
  have hcur' : (atSlot s slot).tt.cur = some i := hcur
  have htakes : ∃ t, exec (.returnSlot slot p true) s = .next t ∧ ∃ y, itemGet t x.id = some y ∧
      y.pos = .stage ((i.maps.getD p.toNat []).getD slot.toNat 0) ∧ y.back = some slot.toNat := by
    refine ⟨_, rfl, ?_⟩
    simp only [hcur', hrow, hdue]
    rw [if_neg Bool.false_ne_true, if_neg hslot']
    exact ⟨_, itemGet_itemPut (itemGet_of_returnDue hdue) rfl, rfl, rfl⟩
  obtain ⟨t, hexec, y, hy⟩ := htakes
  exact ⟨t, y, hexec, hy⟩

theorem stagePortSlot_takes {item k : Nat} {x : Item} {i : Image} (hx : itemGet s item = some x) (hpos : x.pos = .stage k)
    (hk : k < 20) (hi : imageOf s x.gen = some i) (hdue : portDue s x k slot.toNat = true) :
    ∃ t, exec (.stagePortSlot slot item) s = .next t ∧
      (itemGet t item = none ∨ ∃ y, itemGet t item = some y ∧
        (y.pos = .stage (k + 1) ∨ ∃ tree n, y.pos = .leaving k tree n)) := by
  have hport := tableWork_atPort s slot
  have hx' : itemGet (atPort s slot) item = some x := (hport.itemGet item).trans hx
  have hi' : imageOf (atPort s slot) x.gen = some i := (hport.imageOf x.gen).trans hi
  have hdue' : portDue (atPort s slot) x k slot.toNat = true := by
    rw [portDue, hport.imageOf]
    exact hdue
  have hexec : execStagePortSlot slot item s = .next (stageStep (atPort s slot) i x k) := by
    simp only [execStagePortSlot, hx', hpos, hi']
    rw [if_pos ⟨hk, hdue'⟩]
  obtain rfl := id_of_itemGet hx
  exact ⟨_, hexec, itemGet_stageStep i k hx'⟩

theorem scrubSlot_takes {stage : Nat} (hstage : stage < 20)
    (hrow : rowBadAt (atSlot s slot) (now (atSlot s slot) - entryOffset s.tt.cur stage) true = false)
    (hport : rowPort (schedRow s ((slot.toNat + 65536 - entryOffset s.tt.cur stage) % 4096)) p.toNat stage = 1)
    (hfree : ∀ x ∈ s.pipe.items, x.pos ≠ .stage stage) :
    ∃ t, exec (.scrubSlot slot p stage true) s = .next t ∧
      sget 0 t.stg.scrub (20 * p.toNat + stage) = (sget 0 s.stg.scrub (20 * p.toNat + stage) + 1) % 2048 := by
  have hwork := tableWork_atPort s slot
  have htt : (atPort s slot).tt = s.tt := hwork.tt
  have hitems : (atPort s slot).pipe.items = s.pipe.items := hwork.items
  have hscrub : (atPort s slot).stg.scrub = s.stg.scrub := hwork.scrub
  have htaken : (s.pipe.items.any fun x =>
      x.pipe == p.toNat && x.pos == .stage stage && portDue (atPort s slot) x stage slot.toNat) = false := by
    simp only [List.any_eq_false, Bool.and_eq_true, beq_iff_eq, not_and]
    exact fun x hx hpos => absurd hpos.2 (hfree x hx)
  have hexec : execScrubSlot slot p stage s true = .next (scrubStage (atPort s slot) p.toNat stage) := by
    simp only [execScrubSlot, hwork.rowBadAt, hwork.now, hwork.schedRow, htt, hitems, hrow, htaken]
    rw [if_neg Bool.false_ne_true, if_pos ⟨hstage, hport, rfl⟩]
  rw [← hscrub]
  exact ⟨_, hexec, scrub_scrubStage ..⟩

theorem sharedTableAccess_takes {item k : Nat} {x : Item} {i : Image} (hrow : rowBad (atSlot s slot) true = false)
    (hx : itemGet s item = some x) (hback : x.back = none) (hlooked : x.looked = false) (hpos : x.pos ≠ .parser)
    (hi : imageOf s x.gen = some i) (hslot : (x.row + sharedOffset (imageOf s x.timGen)) % 4096 = slot.toNat)
    (hleg : legOf (openSlot (atSlot s slot)) slot x.pipe = some k) :
    ∃ t, exec (.sharedTableAccess slot item true) s = .next t ∧
      (itemGet t item = none ∨ ∃ y, itemGet t item = some y ∧ y.looked = true) := by
  have hopen : TableWork (atSlot s slot) (openSlot (atSlot s slot)) := tableWork_openSlot (tableWork_self _)
  have hx' : itemGet (openSlot (atSlot s slot)) item = some x := (hopen.itemGet item).trans hx
  have hi' : imageOf (openSlot (atSlot s slot)) x.gen = some i := (hopen.imageOf x.gen).trans hi
  have htim : imageOf (openSlot (atSlot s slot)) x.timGen = imageOf s x.timGen := hopen.imageOf x.timGen
  have hexec : execSharedTableAccess slot item true s =
      .next (onPipeLeg (openSlot (atSlot s slot)) slot x.pipe fun s => access s x) := by
    simp only [execSharedTableAccess, hx', hback, htim, hslot, hopen.rowBad, hrow]
    simp [hlooked, hpos]
  rw [onPipeLeg_of_legOf _ hleg] at hexec
  obtain rfl := id_of_itemGet hx
  exact ⟨_, hexec, itemGet_access hx' hi'⟩

theorem egressOpportunity_takes {j : BitVec 2} (hrow : rowBad (atSlot s slot) true = false)
    (hport : rowEgress (schedRow s slot.toNat) j.toNat < 32) :
    ∃ t, exec (.egressOpportunity slot j true) s = .next t ∧
      ((∃ q f, (queue s q).frames.head? = some f ∧
          fifo t (portOfLane s (rowEgress (schedRow s slot.toNat) j.toNat)) =
            fifo s (portOfLane s (rowEgress (schedRow s slot.toNat) j.toNat)) ++ [f]) ∨
        (t.shp = s.shp ∧ ctrGet t 0xC0B0 0x15 0 = (ctrGet s 0xC0B0 0x15 0 + 1) % 2 ^ 64)) := by
  cases hserve : serve (atSlot s slot) (portOfLane s (rowEgress (schedRow s slot.toNat) j.toNat)) with
  | some t =>
    have hexec : execEgressOpportunity slot j true s = .next t := by
      simp only [execEgressOpportunity, hrow, schedRow_atSlot, portOfLane_atSlot, hserve]
      rw [if_neg Bool.false_ne_true, if_neg (Nat.not_le.2 hport)]
    obtain ⟨q, f, hq, hfifo⟩ := fifo_serve hserve
    exact ⟨t, hexec, .inl ⟨q, f, hq, hfifo⟩⟩
  | none =>
    have hexec : execEgressOpportunity slot j true s =
        .next (unusedOpportunity (atSlot s slot) (rowEgress (schedRow s slot.toNat) j.toNat)) := by
      simp only [execEgressOpportunity, hrow, schedRow_atSlot, portOfLane_atSlot, hserve]
      rw [if_neg Bool.false_ne_true, if_neg (Nat.not_le.2 hport)]
    rw [unusedOpportunity, if_pos hport] at hexec
    refine ⟨_, hexec, .inr ⟨rfl, ?_⟩⟩
    rw [ctrGet_count_self, ctrGet_atSlot]

theorem walkGrant_takes {x : Item} {w : TreeWalk} (hrow : rowBad (atSlot s slot) true = false)
    (hfind : s.pipe.items.find? (inWalker p.toNat (rowWalk (schedRow s slot.toNat) p.toNat)) = some x)
    (hwalk : x.treeWalk = some w) :
    ∃ t y, exec (.walkGrant slot p true) s = .next t ∧ itemGet t x.id = some y ∧
      y.treeWalk = some { w with reading := true } := by
  have hfind' : (atSlot s slot).pipe.items.find?
      (inWalker p.toNat (rowWalk (schedRow (atSlot s slot) slot.toNat) p.toNat)) = some x := hfind
  obtain ⟨y, hy⟩ : ∃ y, itemGet (atSlot s slot) x.id = some y := itemGet_of_find hfind
  have hexec : execWalkGrant slot p true s =
      .next (itemPut (atSlot s slot) { x with treeWalk := some { w with reading := true } }) := by
    simp only [execWalkGrant, hrow, hfind', hwalk]
    rw [if_neg Bool.false_ne_true]
  exact ⟨_, _, hexec, itemGet_itemPut hy rfl, rfl⟩

/-- Settles O7: a clause for each command; what has landed before a port's slot leaves the rows, items and queues that the
command goes by. -/
theorem pipelineSlotsTakeEffect : Obligations.PipelineSlotsTakeEffect := by
  unfold Obligations.PipelineSlotsTakeEffect
  exact ⟨fun _ _ _ _ _ => ingressSlot_takes, fun _ _ _ _ => controlSlot_takes, fun _ _ _ _ _ => returnSlot_takes,
    fun _ _ _ _ _ _ => stagePortSlot_takes, fun _ _ _ _ => scrubSlot_takes,
    fun _ _ _ _ _ _ => sharedTableAccess_takes, fun _ _ _ => egressOpportunity_takes,
    fun _ _ _ _ _ => walkGrant_takes⟩

end Sys2Proof.Proofs
end

section
/-!
CLAIMS. SCRUB_SLOT and the ledger: a state in which the pipeline commands' frame does not hold (05 R468, 06 R148).
-/

namespace Sys2Proof.Proofs

open Sys2Proof Sys2Proof.Machine Sys2Proof.Machine.Laws

/-- A READ of a stage table that has run in pipelines 0 to 2 and is to be executed in pipeline 3 at moment 36 (06 R148). -/
def lastCopyRunning : TcCmd :=
  { op := 3, target := 0, other := false, table := 0, index := 0, data := 0, cmp := 0, entry := 0,
    res := [some rOk, some rOk, some rOk, none], pos := 0, fin := none }

/-- Its ledger entry, RUNNING (13 Table 13-4). -/
def runningRead : LedEntry :=
  { state := .running, kind := .table, restart := false, attempt := 1, queue := .window 0, seq := 0, slice := 0,
    infra := true, status := 0, detail := 0, acceptBeat := 0, ref := .reply 0 }

/-- The state in which that command is on its way to its stage. -/
def readOnItsWay : State :=
  { State.reset with
    led := { State.reset.led with entries := [(0, runningRead)] }
    tc := { State.reset.tc with wins := lset State.reset.tc.wins 0 { resetTcWin with cmd := some lastCopyRunning } }
    pipe := { State.reset.pipe with onWay := [(36, 0, 3, 0)] } }

/-- SCRUB_SLOT of a later slot of the beat. -/
def scrubAfterIt : Instr := .scrubSlot 40 0 0 true


/-- Refutes O11: SCRUB_SLOT has a memory port, where commands on their way land first (05 R468, 06 R148); when the last copy of
a table command lands, here one that finds no entry, its ledger entry is DONE. -/
theorem not_pipelineAndEgressCommandsKeepOtherState : ¬ Obligations.PipelineAndEgressCommandsKeepOtherState := by
  unfold Obligations.PipelineAndEgressCommandsKeepOtherState
  rintro ⟨hpipe, -⟩
  obtain ⟨-, -, hled, -⟩ := hpipe readOnItsWay _ scrubAfterIt (by simp [scrubAfterIt]) rfl
  exact absurd (congrArg Ledger.entries hled) (by decide +kernel)

end Sys2Proof.Proofs
end

section
/-!
SUPPORT. What a beat boundary leaves as it was where nothing that a thread has issued to the DMA engine runs: device memory, the
queue of commands and, between two boundaries, time (03 R53, R70).
-/

namespace Sys2Proof.Machine.Laws

open Sys2Proof Sys2Proof.Machine

/-- No transfer has been started by a thread's ISSUE (10 R240). -/
def NoIssue (s : State) : Prop := ∀ e ∈ s.dma.chans, ∀ cl eng ch w, e.2.route ≠ .issue cl eng ch w

/-- From `b` to `s` the queue of commands, time and device memory stand as they did, TT_BEAT too unless an image was ARMED; no
Uhlist session is open, no write waits for a boundary, and no thread's transfer runs. -/
def Quiet (b s : State) : Prop :=
  s.pending = b.pending ∧ s.clk = b.clk ∧ (b.tt.state ≠ .armed → s.tt.state ≠ .armed ∧ s.tt.beat = b.tt.beat) ∧
    s.hbm.mem = b.hbm.mem ∧ s.uhl.sessions = [] ∧ s.objs.pend = [] ∧ NoIssue s

section

variable {b s : State}

theorem Quiet.noIssue (h : Quiet b s) : NoIssue s := by
  obtain ⟨-, -, -, -, -, -, hissue⟩ := h
  exact hissue

theorem quiet_of_tableWork {t : State} (h : Quiet b s) (hw : TableWork s t) : Quiet b t := by
  obtain ⟨hpending, hclk, htt, hmem, hsess, hpend, hissue⟩ := h
  obtain ⟨hpending', hclk', htt', -, -, -, hpend', -, hhbm', hdma', -, -, hlen'⟩ := hw
  refine ⟨hpending'.trans hpending, hclk'.trans hclk, htt' ▸ htt, hhbm' ▸ hmem, ?_, hpend'.trans hpend, ?_⟩
  · rwa [hsess, List.length_nil, List.length_eq_zero_iff] at hlen'
  · rwa [NoIssue, hdma']

variable {α : Type} {c : Prop} [Decidable c]

theorem quiet_ite {u v : State} (hu : Quiet b u) (hv : Quiet b v) : Quiet b (if c then u else v) :=
  iteInduction (fun _ => hu) (fun _ => hv)

theorem quiet_ite_snd {u v : α × State} (hu : Quiet b u.2) (hv : Quiet b v.2) : Quiet b (if c then u else v).2 :=
  iteInduction (motive := fun r : α × State => Quiet b r.2) (fun _ => hu) (fun _ => hv)

theorem quiet_foldl {f : State → α → State} (hf : ∀ s x, Quiet b s → Quiet b (f s x)) {l : List α} (h : Quiet b s) :
    Quiet b (l.foldl f s) :=
  List.foldlRecOn l f h (fun _ ht x _ => hf _ x ht)

theorem quiet_of_snd {p : α × State} {a : α} {t : State} (h : Quiet b p.2) (e : p = (a, t)) : Quiet b t := by
  subst e
  exact h

/-! ## Shared operations -/

theorem quiet_count {i u : Nat} (h : Quiet b s) : Quiet b (count s i u) := h

theorem quiet_countAt {i u e : Nat} (h : Quiet b s) : Quiet b (countAt s i u e) := h

theorem quiet_countN {i u n : Nat} (h : Quiet b s) : Quiet b (countN s i u n) := h

theorem quiet_emit {o : Output} (h : Quiet b s) : Quiet b (emit s o) := h

theorem quiet_eventFull {k i x u : Nat} {p : BitVec 64} (h : Quiet b s) : Quiet b (eventFull s k i x u p) := by
  obtain ⟨hpending, hclk, htt, hmem, hsess, hpend, hissue⟩ := h
  have hlen := length_sessions_eventFull s k i x u p
  rw [hsess, List.length_nil, List.length_eq_zero_iff] at hlen
  exact ⟨by simpa, by simpa, by simpa, by simpa, hlen, by simpa, by simpa [NoIssue] using hissue⟩

theorem quiet_event {k i n : Nat} (h : Quiet b s) : Quiet b (event s k i n) := quiet_eventFull h

theorem quiet_record {r : DeltaRec} (h : Quiet b s) : Quiet b (record s r) := quiet_ite h h

theorem quiet_ledPut {i : Nat} {e : LedEntry} (h : Quiet b s) : Quiet b (ledPut s i e) := quiet_record h

theorem quiet_ledMetaSet {i : Nat} {m : LedMeta} (h : Quiet b s) : Quiet b (ledMetaSet s i m) := h

theorem quiet_noteWait (h : Quiet b s) : Quiet b (noteWait s) := quiet_ite (quiet_ite h h) (quiet_ite h h)

theorem quiet_ledAccept {k : LedKind} {q : OrdQ} {slice : Nat} {infra restart : Bool} {ref : LedRef} (h : Quiet b s) :
    Quiet b (ledAccept s k q slice infra restart ref).2 :=
  quiet_ledPut h

theorem quiet_setPairState {p : PairState} (h : Quiet b s) : Quiet b (setPairState s p) :=
  quiet_ite h (quiet_event (quiet_ite (quiet_count h) h))

theorem quiet_hardFault {cause detail : Nat} (h : Quiet b s) : Quiet b (hardFault s cause detail) := by
  have he : ∀ k i n, Quiet b (event (count s 0xC200 0x05) k i n) := fun _ _ _ => quiet_event (quiet_count h)
  exact quiet_ite (he ..) (quiet_setPairState (he ..))

theorem quiet_checkHalves {i : Nat} {halves : BitVec 4} (h : Quiet b s) : Quiet b (checkHalves s i halves) := by
  have he : ∀ u k n, Quiet b (event (count s 0xC040 u) k 28 n) := fun _ _ _ => quiet_event (quiet_count h)
  unfold checkHalves
  split
  · exact h
  · extract_lets _ _ t _ u
    have hu : Quiet b u := he ..
    clear_value u
    exact quiet_ite (quiet_ite (quiet_hardFault hu) hu) (quiet_ite (quiet_ite h (quiet_ledPut (he ..)))
      (quiet_ite (he ..) h))

/-! ## What memories and lanes report (02 R51, 16 R373, 20 R460) -/

theorem quiet_objectFault {k : Nat} (h : Quiet b s) : Quiet b (objectFault s k) := by
  unfold objectFault
  split
  · exact h
  · exact quiet_ite (quiet_eventFull h) h

theorem quiet_correctables {news : List (BitVec 6 × BitVec 32)} (h : Quiet b s) : Quiet b (correctables s news) := by
  have hone : ∀ {t : State} {isl n : Nat}, Quiet b t → Quiet b (correctable t isl n) :=
    fun ht => quiet_ite ht (quiet_ite (quiet_event ht) ht)
  exact quiet_foldl (fun _ _ => hone) (quiet_foldl (fun _ _ => hone) h)

theorem quiet_heedNews {n : BeatNews} (h : Quiet b s) : Quiet b (heedNews s n) := by
  have hfec : Quiet b (n.fec.foldl countFec s) := quiet_foldl (fun _ _ ht => quiet_countN (quiet_countN ht)) h
  have hobj : Quiet b (n.objects.foldl objectFault (n.fec.foldl countFec s)) :=
    quiet_foldl (fun _ _ => quiet_objectFault) hfec
  have hcode : ∀ t x, Quiet b t → Quiet b (loadCode t x) := fun _ _ ht => quiet_ite ht ht
  exact quiet_correctables (quiet_foldl hcode hobj)

/-! ## Host requests that the fence has held (02 R47, 10 R235) -/

theorem mem_of_sfind {m : Sparse α} {k : Nat} {x : α} (h : sfind m k = some x) : (k, x) ∈ m := by
  induction m with
  | nil => cases h
  | cons e r ih =>
    obtain ⟨j, v⟩ := e
    rw [sfind] at h
    split at h
    case isTrue hj =>
      cases h
      exact hj ▸ List.mem_cons_self
    case isFalse => exact List.mem_cons_of_mem _ (ih h)

theorem NoIssue.route (h : NoIssue s) (n cl eng ch : Nat) (w : Option Work) : (chan s n).route ≠ .issue cl eng ch w := by
  rw [chan, sget]
  cases hfind : sfind s.dma.chans n with
  | none => exact Route.noConfusion
  | some x => exact h _ (mem_of_sfind hfind) cl eng ch w

theorem mem_sset {α : Type} [DecidableEq α] {d v : α} {m : Sparse α} {k : Nat} {x : Nat × α} (h : x ∈ sset d m k v) :
    x = (k, v) ∨ x ∈ m := by
  unfold sset at h
  split at h
  · exact .inr (List.mem_filter.1 h).1
  · exact mem_sput h

/-- A channel's registers change, and the route of its transfer stays. -/
theorem quiet_setChan {n : Nat} {x : Chan} (h : Quiet b s) (hx : x.route = (chan s n).route) : Quiet b (setChan s n x) := by
  have hrec : Quiet b (recordChan s n (chan s n) x) :=
    quiet_ite (quiet_foldl (fun _ _ ht => quiet_ite ht (quiet_record ht)) h) h
  obtain ⟨hpending, hclk, htt, hmem, hsess, hpend, hissue⟩ := hrec
  refine ⟨hpending, hclk, htt, hmem, hsess, hpend, fun e he cl eng ch w => ?_⟩
  obtain rfl | he := mem_sset he
  · exact hx ▸ h.noIssue.route n cl eng ch w
  · exact hissue e he cl eng ch w

theorem quiet_wakeLink {k : Nat} (h : Quiet b s) : Quiet b (wakeLink s k) :=
  quiet_ite h (quiet_ite h (quiet_event h))

theorem quiet_raiseVector {link fn v : Nat} (h : Quiet b s) : Quiet b (raiseVector s link fn v) :=
  quiet_ite (quiet_emit (quiet_wakeLink h)) (quiet_ite h h)

theorem quiet_translate {owner : Option Nat} {r : Nat × Nat × Option Nat} {addr : Nat} {write : Bool} (h : Quiet b s) :
    Quiet b (translate s owner r addr write).2 := by
  unfold translate
  extract_lets
  refine quiet_ite_snd h (quiet_ite_snd h ?_)
  split
  · exact h
  · exact quiet_ite_snd h (quiet_count (quiet_emit (quiet_wakeLink h)))

theorem quiet_sendRead {r : Nat × Nat × Option Nat} {addr len ch unit part : Nat} {page : Option Nat} (h : Quiet b s) :
    Quiet b ((sendRead s r addr len ch unit part page).getD s) := by
  unfold sendRead
  split
  · exact h
  · split
    · exact h
    · exact quiet_emit (quiet_wakeLink h)

theorem quiet_readData {n uid part : Nat} {bs : List Byte} (h : Quiet b s) : Quiet b (readData s n uid part bs) :=
  quiet_setChan h rfl

theorem quiet_unitFail {n uid : Nat} {detail : BitVec 8} {write side : Bool} (h : Quiet b s) :
    Quiet b (unitFail s n uid detail write side) :=
  quiet_setChan h rfl

theorem quiet_pumpRead {n : Nat} {u : DUnit} {part : Nat} {r : DRead} (h : Quiet b s) : Quiet b (pumpRead s n u part r) := by
  unfold pumpRead
  extract_lets
  split
  case isTrue => exact h
  case isFalse =>
    split
    case isTrue => exact quiet_readData h
    case isFalse =>
      split
      case h_1 => exact quiet_unitFail h
      case h_2 q _ =>
        refine quiet_ite h ?_
        split
        case h_1 he => exact quiet_of_snd (quiet_translate h) he
        case h_2 he => exact quiet_unitFail (quiet_of_snd (quiet_translate h) he)
        case h_3 he => exact quiet_sendRead (quiet_of_snd (quiet_translate h) he)

theorem quiet_pumpReads {n : Nat} {u : DUnit} {k : Nat} {l : List DRead} (h : Quiet b s) : Quiet b (pumpReads s n u k l) := by
  induction l generalizing s k with
  | nil => exact h
  | cons r l ih => exact ih (quiet_pumpRead h)

theorem quiet_dmaNotify {n : Nat} {x : Chan} (h : Quiet b s) : Quiet b (dmaNotify s n x) := by
  unfold dmaNotify
  split
  · exact quiet_raiseVector h
  · exact h

theorem quiet_dmaHalt {n addr : Nat} {detail : BitVec 8} {dir list : Bool} (h : Quiet b s) :
    Quiet b (dmaHalt s n addr detail dir list) := by
  unfold dmaHalt
  extract_lets x _ y t u
  have ht : Quiet b t := quiet_count (quiet_setChan h rfl)
  clear_value t
  have hu : Quiet b u := quiet_dmaNotify ht
  clear_value u
  split
  · exact hu
  · exact hu

theorem quiet_settleFails {n : Nat} (h : Quiet b s) : Quiet b (settleFails s n) := by
  unfold settleFails
  extract_lets
  split
  · exact h
  · split
    · exact quiet_dmaHalt h
    · exact quiet_dmaHalt h
    · exact quiet_setChan h rfl
    · exact h

theorem quiet_pumpChan {n : Nat} (h : Quiet b s) : Quiet b (pumpChan s n) :=
  quiet_settleFails (quiet_foldl (fun _ _ ht => quiet_ite ht (quiet_pumpReads ht)) h)

theorem quiet_liftMuzzle (h : Quiet b s) : Quiet b (liftMuzzle s) := by
  refine quiet_ite ?_ h
  have hlift : Quiet b { s with pair := { s.pair with lift := false, fence := false, muzzled := false } } := h
  refine quiet_foldl (fun t n ht => ?_) hlift
  split
  · exact quiet_pumpChan ht
  · exact quiet_pumpChan ht
  · exact quiet_pumpChan ht
  · exact ht

/-! ## Completions of places whose entries are lost (13 R311) -/

theorem quiet_writeCompletion {k pos : Nat} {bs : List Byte} (h : Quiet b s) : Quiet b (writeCompletion s k pos bs).2 := by
  have hpost : ∀ owner r addr, Quiet b (hostPost s owner r addr bs).2 := by
    intro owner r addr
    have ht := quiet_translate (owner := owner) (r := r) (addr := addr) (write := true) h
    unfold hostPost
    split
    case h_1 he =>
      have hu := quiet_of_snd ht he
      exact quiet_ite hu (quiet_emit (quiet_wakeLink hu))
    case h_2 he => exact quiet_of_snd ht he
  exact quiet_ite_snd (quiet_raiseVector (hpost ..)) (hpost ..)

theorem quiet_retirePlace {o : OrdState} (h : Quiet b s) : Quiet b (retirePlace s o) := by
  unfold retirePlace
  extract_lets t
  have ht : Quiet b t := h
  clear_value t
  split
  · exact quiet_ite (quiet_writeCompletion (quiet_countAt ht)) (quiet_writeCompletion h)
  · exact quiet_countAt ht

theorem quiet_settlePlaces (h : Quiet b s) : Quiet b (settlePlaces s) := by
  have ht : Quiet b (s.led.orders.foldl (fun s o => if placeLost s o then retirePlace s o else s) s) :=
    quiet_foldl (fun _ _ ht => quiet_ite (quiet_retirePlace ht) ht) h
  exact ht

end

end Sys2Proof.Machine.Laws
end

section
/-!
SUPPORT. A quiet boundary of the pair and of the timetable (14 R319 to R332, 03 R70 to R78).
-/

namespace Sys2Proof.Machine.Laws

open Sys2Proof Sys2Proof.Machine

section

variable {b s : State}

/-! ## The pair at a boundary (14 R319 to R332) -/

theorem quiet_closeDelta {final : Bool} (h : Quiet b s) : Quiet b (closeDelta s final) := by
  have ht : ∀ n, Quiet b (countN (count s 0xC200 0x06) 0xC200 0x08 n) := fun _ => quiet_countN (quiet_count h)
  exact quiet_ite (ht _) (ht _)

theorem quiet_sendDelta (h : Quiet b s) : Quiet b (sendDelta s) := by
  unfold sendDelta
  extract_lets _ _ t
  have ht : Quiet b t := quiet_ite (quiet_count h) h
  clear_value t
  split
  · exact ht
  · exact quiet_ite (quiet_ite ht (quiet_closeDelta ht)) ht

theorem quiet_countWaits (h : Quiet b s) : Quiet b (countWaits s) := by
  unfold countWaits
  extract_lets t
  have ht : Quiet b t := quiet_foldl (fun _ _ => quiet_countAt) h
  exact quiet_ite (quiet_count ht) ht

theorem quiet_sendHeartbeat (h : Quiet b s) : Quiet b (sendHeartbeat s) := quiet_ite (quiet_emit h) h

theorem quiet_judgeSilence (h : Quiet b s) : Quiet b (judgeSilence s) := by
  have hleash : ∀ granted, Quiet b (takeLeash s granted) := fun _ => quiet_ite (quiet_count h) h
  have hfence : Quiet b (fence (count s 0xC200 0x03)) := quiet_count (s := s) h
  unfold judgeSilence
  extract_lets
  refine quiet_ite h ?_
  split
  · exact quiet_ite (quiet_setPairState hfence) h
  · exact quiet_ite (hleash _) h
  · exact quiet_ite (quiet_setPairState (quiet_count h)) h
  · exact h

theorem quiet_setExtract {x : Extract} (h : Quiet b s) : Quiet b (setExtract s x) := by
  unfold setExtract
  refine quiet_ite h (quiet_event ?_)
  split
  · exact quiet_count h
  · exact quiet_count h
  · exact h

theorem quiet_startTransfer (h : Quiet b s) : Quiet b (startTransfer s) := by
  unfold startTransfer
  split <;> exact h

theorem quiet_sampleReady {level : Bool} (h : Quiet b s) : Quiet b (sampleReady s level) := h

theorem quiet_judgeMismatch (h : Quiet b s) : Quiet b (judgeMismatch s) := quiet_ite (quiet_hardFault h) h

theorem quiet_toggleReady (h : Quiet b s) : Quiet b (toggleReady s) := quiet_ite h h

theorem quiet_settleExtraction (h : Quiet b s) : Quiet b (settleExtraction s) := quiet_ite (quiet_setExtract h) h

theorem quiet_pairBoundary {readyIn : Bool} (h : Quiet b s) : Quiet b (pairBoundary s readyIn) :=
  quiet_settleExtraction (quiet_startTransfer (quiet_liftMuzzle (quiet_toggleReady (quiet_judgeSilence
    (quiet_judgeMismatch (quiet_sendHeartbeat (quiet_sampleReady h)))))))

/-! ## The timetable at a boundary (03 R70 to R78) -/

/-- A write of the load interface that arms no image and keeps TT_BEAT. -/
theorem quiet_ttSet {t : Tt} (h : Quiet b s) (hstate : s.tt.state ≠ .armed → t.state ≠ .armed)
    (hbeat : t.beat = s.tt.beat) : Quiet b (ttSet s t) := by
  obtain ⟨hpending, hclk, htt, hmem, hsess, hpend, hissue⟩ := h
  refine ⟨by simpa, by simpa, fun hb => ?_, by simpa, by simpa, by simpa, by simpa [NoIssue] using hissue⟩
  obtain ⟨hs, hs'⟩ := htt hb
  exact ⟨by simpa using hstate hs, by simpa using hbeat.trans hs'⟩

/-- Where an image was ARMED at the start, any write does. -/
theorem quiet_ttSet_of_armed {t : Tt} (h : Quiet b s) (hb : b.tt.state = .armed) : Quiet b (ttSet s t) := by
  obtain ⟨hpending, hclk, -, hmem, hsess, hpend, hissue⟩ := h
  exact ⟨by simpa, by simpa, fun hne => absurd hb hne, by simpa, by simpa, by simpa, by simpa [NoIssue] using hissue⟩

theorem quiet_upsetHeader {u : Option (Bool × BitVec 1024)} (h : Quiet b s) : Quiet b (upsetHeader s u) := by
  unfold upsetHeader
  split
  · exact h
  · exact quiet_ttSet h id rfl
  · exact quiet_ttSet h id rfl

theorem quiet_countOverlap (h : Quiet b s) : Quiet b (countOverlap s) := by
  have ht : Quiet b (ttSet s { s.tt with overlap := s.tt.overlap + 1 }) := quiet_ttSet h id rfl
  exact quiet_ite ht h

theorem quiet_closeOverlap (h : Quiet b s) : Quiet b (closeOverlap s) := by
  have ht : Quiet b (ttSet s { s.tt with
    state := .idle, old := none, overlap := 0, retried := (s.tt.retried.1, false) }) := quiet_ttSet h (by simp) rfl
  exact quiet_ite ht h

theorem quiet_setQueue {q : Nat} {x : Queue} (h : Quiet b s) : Quiet b (setQueue s q x) := h

theorem quiet_observationChange (h : Quiet b s) : Quiet b (observationChange s) :=
  quiet_ite h (quiet_foldl (fun _ _ ht => quiet_setQueue ht) h)

/-- An image is made current only where one is ARMED (03 R70). -/
theorem quiet_makeCurrent (h : Quiet b s) (hdue : makeCurrentDue s = true) : Quiet b (makeCurrent s) := by
  have hb : b.tt.state = .armed := by
    by_contra hne
    obtain ⟨-, -, htt, -⟩ := h
    have hstate : s.tt.state = .armed := by
      simp only [makeCurrentDue, Bool.and_eq_true, beq_iff_eq] at hdue
      obtain ⟨⟨⟨⟨hstate, -⟩, -⟩, -⟩, -⟩ := hdue
      exact hstate
    exact (htt hne).1 hstate
  have hlock : Quiet b (relock (relock s 2 3) 0 2) := h
  unfold makeCurrent
  split
  · exact h
  · exact quiet_record (quiet_observationChange (quiet_count (quiet_ttSet_of_armed hlock hb)))

theorem quiet_endDrainTt (h : Quiet b s) : Quiet b (endDrainTt s) := by
  have hlock : Quiet b (unlockHbm (unlockHbm s 2) 3) := h
  exact quiet_ite (quiet_ttSet hlock (by simp) rfl) h

theorem quiet_dropStaged (h : Quiet b s) : Quiet b (dropStaged s) := by
  have hback : backState s ≠ .armed := by
    unfold backState
    split <;> simp
  have ht : Quiet b (ttSet s { s.tt with
    state := backState s, staged := none, install := [], ver := none, target := none, swap := false }) :=
    quiet_ttSet h (fun _ => hback) rfl
  exact ht

theorem quiet_headerLost {gen : Bool} (h : Quiet b s) : Quiet b (headerLost s gen) := by
  unfold headerLost
  refine quiet_ite (quiet_hardFault h) ?_
  extract_lets t
  have ht : Quiet b t := by
    dsimp only [t]
    split
    · exact quiet_dropStaged h
    · exact quiet_dropStaged h
    · exact quiet_dropStaged h
    · exact quiet_dropStaged h
    · exact quiet_dropStaged h
    · exact h
  clear_value t
  exact quiet_ite ht (quiet_ttSet ht id rfl)

theorem quiet_checkHeaders (h : Quiet b s) : Quiet b (checkHeaders s) := by
  have hfault : ∀ {t : State} {f : BitVec 3} {n : Nat}, Quiet b t →
      Quiet b (event (count (ttSet t { t.tt with fault := f }) 0xC050 0x03) 0x0008 1 n) :=
    fun ht => quiet_event (quiet_count (quiet_ttSet ht id rfl))
  unfold checkHeaders
  extract_lets _ _ _ _ t
  have ht : Quiet b t := by
    dsimp only [t]
    split
    · exact h
    · exact quiet_ite (quiet_ttSet h id rfl)
        (quiet_ite (quiet_headerLost (hfault h)) (quiet_ttSet (hfault h) id rfl))
  clear_value t
  split
  · exact ht
  · exact quiet_ite (quiet_ttSet ht id rfl)
      (quiet_ite (quiet_headerLost (hfault ht)) (quiet_ttSet (hfault ht) id rfl))

theorem quiet_timetableBoundary {upset : Option (Bool × BitVec 1024)} (h : Quiet b s) :
    Quiet b (timetableBoundary s upset) := by
  have ht : Quiet b (closeOverlap (countOverlap (upsetHeader s upset))) :=
    quiet_closeOverlap (quiet_countOverlap (quiet_upsetHeader h))
  exact quiet_checkHeaders (quiet_endDrainTt (iteInduction (quiet_makeCurrent ht) fun _ => ht))

/-- With no write waiting, no parameter changes. -/
theorem quiet_applyParams (h : Quiet b s) : Quiet b (applyParams s) := by
  obtain ⟨hpending, hclk, htt, hmem, hsess, hpend, hissue⟩ := h
  unfold applyParams
  simp only [hpend, List.filter_nil, List.foldl_nil]
  exact ⟨hpending, hclk, htt, hmem, hsess, rfl, hissue⟩

end

end Sys2Proof.Machine.Laws
end

section
/-!
SUPPORT. A quiet boundary of Sheepdog, the ports, Kennel and the clusters, and the turn of the beat (03 R53).
-/

namespace Sys2Proof.Machine.Laws

open Sys2Proof Sys2Proof.Machine

section

variable {b s : State}

/-! ## Sheepdog and the ports at a boundary (08 R178 to R195, 02 R38) -/

theorem quiet_bufRelease {n : Nat} (h : Quiet b s) : Quiet b (bufRelease s n) := by
  unfold bufRelease
  split <;> exact h

theorem quiet_putBack {f : QFrame} (h : Quiet b s) : Quiet b (putBack s f) := by
  unfold putBack
  extract_lets t
  have ht : Quiet b t := by
    dsimp only [t]
    split
    · split
      · exact quiet_ite (quiet_ledPut h) h
      · exact h
    · exact h
  exact ht

theorem quiet_emptyFifo {p : Nat} (h : Quiet b s) : Quiet b (emptyFifo s p) := by
  have hback : ∀ t f, Quiet b t → Quiet b (takeBack t f) :=
    fun _ _ ht => quiet_ite (quiet_putBack (quiet_count ht)) (quiet_bufRelease (quiet_count ht))
  have hset : Quiet b (setFifo s p []) := h
  exact quiet_foldl hback hset

theorem quiet_portsDown (h : Quiet b s) : Quiet b (portsDown s) := by
  unfold portsDown
  extract_lets t _ u
  have ht : Quiet b t := quiet_foldl (fun _ _ ht => quiet_ite (quiet_emptyFifo ht) ht) h
  clear_value t
  have hu : Quiet b u := ht
  clear_value u
  refine quiet_foldl (fun v e hv => ?_) hu
  exact quiet_ite (quiet_foldl (fun _ _ hw => quiet_bufRelease (quiet_count hw)) hv) hv

theorem quiet_sheepdogBoundary (h : Quiet b s) : Quiet b (sheepdogBoundary s) := by
  have hdrain : ∀ t q, Quiet b t → Quiet b (drainEnd t q) := fun _ _ ht => quiet_ite (quiet_ite ht ht) ht
  have hsample : ∀ t q, Quiet b t → Quiet b (sampleQueue t q) := fun _ _ ht => quiet_ite ht ht
  have hfill : ∀ {t : State}, Quiet b t → Quiet b (fillPolicers (clearDeficits t)) := fun ht => ht
  exact quiet_foldl (fun _ _ => hsample _ _) (hfill (quiet_foldl (fun _ _ => hdrain _ _) (quiet_portsDown h)))

theorem quiet_creditNodes (h : Quiet b s) : Quiet b (creditNodes s) := by
  have hone : ∀ t (n : Nat × Nat), Quiet b t → Quiet b (creditNode t n.1 n.2) := fun _ _ ht => ht
  exact quiet_foldl hone h

theorem quiet_setLane {n : Nat} {l : Lane} (h : Quiet b s) : Quiet b (setLane s n l) := by
  unfold setLane
  extract_lets p _ _ t u
  have ht : Quiet b t := h
  clear_value t
  have hdown : Quiet b (noteDown s t p) := quiet_ite ht ht
  have hu : Quiet b u := quiet_ite hdown (quiet_eventFull hdown)
  exact quiet_ite (quiet_eventFull hu) hu

theorem quiet_bringUp {n : Nat} (h : Quiet b s) : Quiet b (bringUp s n) :=
  quiet_ite (quiet_setLane h) (quiet_ite (quiet_ite (quiet_setLane h) (quiet_setLane h)) (quiet_setLane h))

theorem quiet_downPorts (h : Quiet b s) : Quiet b (downPorts s) := by
  refine quiet_foldl (fun t p ht => quiet_ite ?_ ht) h
  refine quiet_ite ?_ ht
  have hlanes : Quiet b ((portLanes t p).foldl (fun s n => setLane s n downLane)
      { t with net := { t.net with downs := t.net.downs.filter (· != p) } }) :=
    quiet_foldl (fun _ _ => quiet_setLane) ht
  exact quiet_ite (quiet_foldl (fun _ _ => quiet_bringUp) hlanes) hlanes

/-! ## Kennel's queue (09 R219) -/

theorem quiet_kenTake {l : List KReq} (h : Quiet b s) : Quiet b (kenTake s l) := by
  induction l generalizing s with
  | nil => exact h
  | cons q l ih =>
    unfold kenTake
    split
    case h_1 t he =>
      refine ih ?_
      unfold kenAccept at he
      split at he
      · cases he
      · cases he
        exact quiet_ledAccept h
    case h_2 => exact quiet_noteWait h

/-! ## Clusters at a boundary (07 R168, R172) -/

theorem quiet_setEngine {e : Nat} {x : Engine} (h : Quiet b s) : Quiet b (setEngine s e x) := h

theorem quiet_setCluster {c : Nat} {x : Cluster} (h : Quiet b s) : Quiet b (setCluster s c x) := h

theorem quiet_pump {c : Nat} (h : Quiet b s) : Quiet b (pump s c) := by
  unfold pump
  generalize (cluster s c).inbox.length = n
  induction n generalizing s with
  | zero => exact h
  | succ n ih =>
    unfold pumpCluster
    extract_lets
    split
    · exact quiet_ite (ih (quiet_setEngine (quiet_setCluster h))) h
    · exact h

theorem quiet_enterCluster {c : Nat} {w : Work} (h : Quiet b s) : Quiet b (enterCluster s c w) :=
  quiet_pump (quiet_setCluster h)

theorem quiet_itemRemove {id : Nat} (h : Quiet b s) : Quiet b (itemRemove s id) := by
  unfold itemRemove
  extract_lets t
  have ht : Quiet b t := by
    dsimp only [t]
    split
    · unfold noteLeft
      split <;> exact h
    · exact h
  exact ht

/-- Work that is lost stops its transfers, of which there are none. -/
theorem quiet_stopOps {entry : Nat} (h : Quiet b s) : Quiet b (stopOps s entry) := by
  have hnone : ∀ which : Nat → Chan → Bool, (∀ n x, (∀ cl eng ch w, x.route ≠ .issue cl eng ch w) → which n x = false) →
      ∀ status detail, dmaStopAll s which status detail = s := by
    intro which hwhich status detail
    have hempty : s.dma.chans.filter (fun e => which e.1 e.2) = [] := by
      rw [List.filter_eq_nil_iff]
      exact fun e he => by simp [hwhich e.1 e.2 (h.noIssue e he)]
    rw [dmaStopAll, hempty, List.foldl_nil]
  unfold stopOps
  extract_lets mine t
  have ht : Quiet b t := by
    dsimp only [t]
    rw [hnone]
    · exact h
    · intro n x hx
      cases hr : x.route with
      | issue cl eng ch w => exact absurd hr (hx cl eng ch w)
      | reg => rfl
      | fetch qp => rfl
  exact ht

theorem quiet_hostLost {entry : Nat} (h : Quiet b s) : Quiet b (hostLost s entry) := by
  unfold hostLost
  split
  · exact h
  · exact quiet_ite (quiet_stopOps (quiet_ledPut (quiet_ledMetaSet h))) h

theorem quiet_workLost {c : Nat} {w : Work} (h : Quiet b s) : Quiet b (workLost s c w) := by
  unfold workLost
  split
  · exact quiet_itemRemove (quiet_count h)
  · exact quiet_hostLost h

theorem quiet_loseHeld {c : Nat} (h : Quiet b s) : Quiet b (loseHeld s c) := by
  unfold loseHeld
  extract_lets _ t u
  have ht : Quiet b t := quiet_foldl (fun _ _ => quiet_setEngine) h
  have hu : Quiet b u := quiet_foldl (fun _ _ => quiet_workLost) ht
  clear_value u
  refine quiet_foldl (fun v th hv => ?_) hu
  extract_lets
  split
  · exact hv
  · exact quiet_ite hv (quiet_workLost hv)

theorem quiet_moveItem {to_ : Option Nat} {w : Work} (h : Quiet b s) : Quiet b (moveItem s to_ w) := by
  unfold moveItem
  split
  · exact quiet_itemRemove (quiet_count h)
  · exact quiet_hostLost h
  · split
    · extract_lets t
      have ht : Quiet b t := by
        dsimp only [t]
        split
        · split <;> exact h
        · exact h
      exact quiet_enterCluster (quiet_count ht)
    · exact quiet_itemRemove (quiet_count h)
  · exact quiet_ite (quiet_enterCluster (quiet_ledMetaSet h)) (quiet_hostLost h)

theorem quiet_moveInbox {c : Nat} (h : Quiet b s) : Quiet b (moveInbox s c) :=
  quiet_ite (quiet_ite h (quiet_foldl (fun _ _ => quiet_moveItem) (quiet_setCluster h))) h

theorem quiet_rotation {c : Nat} (h : Quiet b s) : Quiet b (rotation s c) := by
  unfold Machine.rotation
  extract_lets _ _ t
  have ht : Quiet b t := quiet_foldl (fun _ _ => quiet_setEngine) h
  clear_value t
  exact quiet_ite ht (quiet_pump (quiet_setCluster ht))

theorem quiet_clustersBoundary (h : Quiet b s) : Quiet b (clustersBoundary s) := by
  unfold clustersBoundary
  extract_lets _ _ _ t
  have ht : Quiet b t := quiet_foldl (fun _ _ => quiet_rotation) h
  exact quiet_foldl (fun _ _ => quiet_moveInbox) (quiet_foldl (fun _ _ => quiet_loseHeld) ht)

/-! ## The boundary -/

/-- Up to the turn of the beat: what a beat's memories and lanes report, what lands and retires in its last slot, its delta. -/
def beforeTurn (s : State) (news : BeatNews) : State :=
  let s := heedNews s news
  sendDelta (countWaits (startPass (startPass (endSlot (landBy s (s.clk.beat * 4096 + 4095))) false) true))

/-- From the turn of the beat on. -/
def afterTurn (s : State) (readyIn : Bool) (upset : Option (Bool × BitVec 1024)) : State :=
  let s := timetableBoundary (applyParams (creditNodes (pairBoundary s readyIn))) upset
  let s := kenPump (clustersBoundary (sheepdogBoundary (downPorts s)))
  takeSnapshot (settlePlaces (sweepBoundary (sweepBoundary s false) true))

theorem beatBoundary_eq (s : State) (readyIn : Bool) (upset : Option (Bool × BitVec 1024)) (news : BeatNews) :
    beatBoundary s readyIn upset news = afterTurn (nextBeat (beforeTurn s news)) readyIn upset := rfl

theorem quiet_beforeTurn {news : BeatNews} (h : Quiet b s) : Quiet b (beforeTurn s news) := by
  have hnews : Quiet b (heedNews s news) := quiet_heedNews h
  have htables : ∀ m, Quiet b (startPass (startPass (endSlot (landBy (heedNews s news) m)) false) true) := fun m =>
    quiet_of_tableWork hnews (tableWork_startPass (tableWork_startPass (tableWork_endSlot (tableWork_landBy
      (tableWork_self _)))))
  exact quiet_sendDelta (quiet_countWaits (htables _))

theorem quiet_takeSnapshot (h : Quiet b s) : Quiet b (takeSnapshot s) := h

theorem quiet_afterTurn {readyIn : Bool} {upset : Option (Bool × BitVec 1024)} (h : Quiet b s) :
    Quiet b (afterTurn s readyIn upset) := by
  have htt : Quiet b (timetableBoundary (applyParams (creditNodes (pairBoundary s readyIn))) upset) :=
    quiet_timetableBoundary (quiet_applyParams (quiet_creditNodes (quiet_pairBoundary h)))
  have hken : Quiet b (kenPump (clustersBoundary (sheepdogBoundary (downPorts
      (timetableBoundary (applyParams (creditNodes (pairBoundary s readyIn))) upset))))) :=
    quiet_kenTake (quiet_clustersBoundary (quiet_sheepdogBoundary (quiet_downPorts htt)))
  exact quiet_takeSnapshot (quiet_settlePlaces (quiet_of_tableWork hken
    (tableWork_sweepBoundary (tableWork_sweepBoundary (tableWork_self _)))))

/-- The turn of the beat starts afresh: time has gone on, and all else stands. -/
theorem quiet_nextBeat (h : Quiet b s) : Quiet (nextBeat s) (nextBeat s) := by
  obtain ⟨-, -, -, -, hsess, hpend, hissue⟩ := h
  exact ⟨rfl, rfl, fun h => ⟨h, rfl⟩, rfl, hsess, hpend, hissue⟩

theorem Quiet.pumpSessions_eq (h : Quiet b s) : pumpSessions s = s := by
  obtain ⟨-, -, -, -, hsess, -⟩ := h
  rw [pumpSessions, hsess, List.foldl_nil]

end

end Sys2Proof.Machine.Laws
end

section
/-!
CLAIMS. The beat boundary of a device that is alone (03 R53, R70).
-/

namespace Sys2Proof.Proofs

open Sys2Proof Sys2Proof.Machine Sys2Proof.Machine.Laws

/-- Between two quiet stretches the beat turns, and time alone goes on. -/
theorem quiet_turn {b u t : State} (hbefore : Quiet b u) (hafter : Quiet (nextBeat u) t) :
    t.clk.beat = b.clk.beat + 1 ∧ t.clk.slot = 0 ∧ (b.tt.state ≠ .armed → t.tt.beat = b.tt.beat + 1) ∧
      t.pending = b.pending ∧ ∀ a, hbmByte t a = hbmByte b a := by
  obtain ⟨hpending, hclk, htt, hmem, -⟩ := hbefore
  obtain ⟨hpending', hclk', htt', hmem', -⟩ := hafter
  have hbeat : (nextBeat u).clk.beat = b.clk.beat + 1 := congrArg (fun c : Clock => c.beat + 1) hclk
  refine ⟨(congrArg Clock.beat hclk').trans hbeat, congrArg Clock.slot hclk', fun harmed => ?_,
    hpending'.trans hpending, hbmByte_congr (hmem'.trans hmem)⟩
  obtain ⟨hstate, hcount⟩ := htt harmed
  exact (htt' hstate).2.trans (congrArg (· + 1) hcount)

/-- Settles O3: checked ledger halves leave the device quiet, and so does the boundary but for the turn of the beat. -/
theorem beatBoundaryStartsNextBeat : Obligations.BeatBoundaryStartsNextBeat := by
  unfold Obligations.BeatBoundaryStartsNextBeat
  intro s readyIn upset news hon _ hsess hpend _ _ _ hissue
  have hself : Quiet s s := ⟨rfl, rfl, fun h => ⟨h, rfl⟩, rfl, hsess, hpend, hissue⟩
  have hhalves : Quiet s (news.ledger.foldl (fun s x => checkHalves s x.1.toNat x.2) s) :=
    quiet_foldl (fun _ _ => quiet_checkHalves) hself
  have hbefore := quiet_beforeTurn (news := news) hhalves
  have hafter := quiet_afterTurn (readyIn := readyIn) (upset := upset) (quiet_nextBeat hbefore)
  have hexec : execBeatBoundary readyIn upset s news = .next (afterTurn (nextBeat (beforeTurn
      (news.ledger.foldl (fun s x => checkHalves s x.1.toNat x.2) s) news)) readyIn upset) := by
    rw [execBeatBoundary, if_pos hon]
    dsimp only
    rw [beatBoundary_eq, hafter.pumpSessions_eq]
  exact ⟨_, hexec, quiet_turn hbefore hafter⟩

end Sys2Proof.Proofs
end

section
/-!
SUPPORT. Counting beside the receive buffers and the items, and what the commands of the scanner, the parser and the confirm
unit do to their frame or item (04 R88, R92, R97, R98).
-/

namespace Sys2Proof.Machine.Laws

open Sys2Proof Sys2Proof.Machine

/-! ## Receive buffers -/

@[simp] theorem rxBuf_setRxBuf (s : State) (p : Nat) (fs : List RxFrame) : rxBuf (setRxBuf s p fs) p = fs :=
  sget_sset_self ..

/-- The counters of a scanned frame leave the ports alone. -/
theorem net_countScan (s : State) (p n lists : Nat) : (countScan s p n lists).net = s.net := by
  unfold countScan
  extract_lets _ t
  have ht : t.net = s.net := rfl
  split
  · exact ht
  · exact ht

@[simp] theorem rxBuf_countScan (s : State) (p n lists q : Nat) : rxBuf (countScan s p n lists) q = rxBuf s q := by
  rw [rxBuf, net_countScan, ← rxBuf]

/-! ## Items beside counters -/

@[simp] theorem itemGet_count (s : State) (i u n : Nat) : itemGet (count s i u) n = itemGet s n := rfl

@[simp] theorem itemGet_countN (s : State) (i u k n : Nat) : itemGet (countN s i u k) n = itemGet s n := rfl

/-! ## The scanner (04 R97) -/

/-- A frame as its scan is over: its raw hit lists stand and it is complete. -/
def scannedFrame (s : State) (f : RxFrame) : RxFrame :=
  { f with raw := f.raw.map (scanList s (frameData f.bytes)), complete := true }

/-- The frame that the scanner ends with is the one of its buffer, marked. -/
theorem scannedFrame_mem_of_find {s : State} {fs : List RxFrame} {frame : Nat} {f : RxFrame}
    (h : fs.find? (fun g => g.id == frame && !g.complete) = some f) :
    f.id = frame ∧ scannedFrame s f ∈ fs.map (fun g => if g.id = frame then scannedFrame s f else g) := by
  have hcond := List.find?_some h
  simp only [Bool.and_eq_true, beq_iff_eq] at hcond
  obtain ⟨hid, -⟩ := hcond
  exact ⟨hid, List.mem_map.2 ⟨f, List.mem_of_find?_eq_some h, if_pos hid⟩⟩

/-! ## The parser (04 R88, R92) -/

/-- An item as its walk is over and it enters stage 0: TRAP and the summary are set. -/
def parsedItem (s : State) (x : Item) : Item :=
  let trap := x.walk.mal != 0 && objGet s 0x5200 x.walk.mal 0 == 2
  { x with trap := trap, pos := .stage 0, bus := setFld x.bus 0 96 (summaryOf x trap) }

theorem parsedItem_pos (s : State) (x : Item) : (parsedItem s x).pos = .stage 0 := rfl

theorem parsedItem_trap {s : State} {x : Item} (h : x.walk.mal = 0) : (parsedItem s x).trap = false := by
  simp [parsedItem, h]

/-- A malformed item is counted by its kind. -/
def countMal (s : State) (x : Item) : State := count s (0xC060 + x.pipe) x.walk.mal

@[simp] theorem itemGet_countMal (s : State) (x : Item) (n : Nat) : itemGet (countMal s x) n = itemGet s n := rfl

/-- The three ways out of the parser: whole, dropped, or on its way with a malformation. -/
theorem execParserOutput_of_ended {s : State} {item : Nat} {x : Item} (hx : itemGet s item = some x) (hpos : x.pos = .parser)
    (hended : x.walk.ended = true) :
    execParserOutput item s = .next (if x.walk.mal = 0 then itemPut s (parsedItem s x)
      else if objGet s 0x5200 x.walk.mal 0 = 0 then itemRemove (count (countMal s x) (0xC060 + x.pipe) 0x12) item
      else itemPut (count (countMal s x) (0xC060 + x.pipe) (if (parsedItem s x).trap then 0x14 else 0x13))
        (parsedItem s x)) := by
  simp only [execParserOutput, hx]
  rw [if_pos ⟨hpos, hended⟩]
  rfl

/-! ## The confirm unit (04 R98, R99) -/

/-- What the confirm unit writes into an item past the parser: the match set on the bus, and a record of the first 64 of its
kept hits. -/
theorem execMatchSetFinal_past_parser {s : State} {item : Nat} {x : Item} {i : Image} (hx : itemGet s item = some x)
    (hpos : x.pos ≠ .parser) (hi : imageOf s x.gen = some i) :
    ∃ (t : State) (hits : List KeptHit) (bus : Bus), itemGet t item = some x ∧
      execMatchSetFinal item s =
        .next (itemPut t { x with bus := bus, record := (hits.take 64).map recordWord }) := by
  simp only [execMatchSetFinal, hx, hi] -- `hpos` rules out the parser's branch
  refine ⟨_, _, _, ?_, rfl⟩
  split
  · rw [itemGet_count, itemGet_countN, hx]
  · rw [itemGet_countN, hx]

end Sys2Proof.Machine.Laws
end

section
/-!
CLAIMS. Scanner, parser and confirm unit (04 R84, R92, R97, R98, R99).
-/

namespace Sys2Proof.Proofs

open Sys2Proof Sys2Proof.Machine Sys2Proof.Machine.Laws

section

variable {s : State} {item : Nat} {x : Item} {i : Image}

theorem rawHitListComplete_takes {port : BitVec 5} {frame : Nat} {f : RxFrame}
    (hfind : (rxBuf s port.toNat).find? (fun g => g.id == frame && !g.complete) = some f) :
    ∃ t, exec (.rawHitListComplete port frame) s = .next t ∧ ∃ g ∈ rxBuf t port.toNat, g.id = frame ∧ g.complete = true := by
  have hexec : execRawHitListComplete port frame s = .next (countScan (setRxBuf s port.toNat
      ((rxBuf s port.toNat).map (fun g => if g.id = frame then scannedFrame s f else g)))
      port.toNat (frameData f.bytes).length f.raw.length) := by
    simp only [execRawHitListComplete, hfind]
    rfl
  obtain ⟨hid, hmem⟩ := scannedFrame_mem_of_find (s := s) hfind
  refine ⟨_, hexec, scannedFrame s f, ?_, hid, rfl⟩
  rwa [rxBuf_countScan, rxBuf_setRxBuf]

theorem parserNodeStep_takes (hx : itemGet s item = some x) (hpos : x.pos = .parser) (hi : imageOf s x.gen = some i)
    (hwalk : x.walk.ended = false) :
    ∃ t y, exec (.parserNodeStep item) s = .next t ∧ itemGet t item = some y ∧ y.pos = .parser ∧
      (y.walk, y.bus) = nodeStep i x.bytes x.walk x.bus := by
  have hexec : execParserNodeStep item s = .next (itemPut s { x with
      walk := (nodeStep i x.bytes x.walk x.bus).1, bus := (nodeStep i x.bytes x.walk x.bus).2 }) := by
    simp only [execParserNodeStep, hx, hpos, hi, hwalk]
    rfl
  have hid : x.id = item := id_of_itemGet hx
  exact ⟨_, _, hexec, itemGet_itemPut hx hid, hpos, rfl⟩

theorem parserOutput_takes (hx : itemGet s item = some x) (hpos : x.pos = .parser) (hended : x.walk.ended = true) :
    ∃ t, exec (.parserOutput item) s = .next t ∧
      (x.walk.mal = 0 → ∃ y, itemGet t item = some y ∧ y.pos = .stage 0 ∧ y.trap = false) ∧
      (x.walk.mal ≠ 0 → objGet s 0x5200 x.walk.mal 0 = 0 → itemGet t item = none) ∧
      (x.walk.mal ≠ 0 → objGet s 0x5200 x.walk.mal 0 ≠ 0 → ∃ y, itemGet t item = some y ∧ y.pos = .stage 0) := by
  have hid : x.id = item := id_of_itemGet hx
  refine ⟨_, execParserOutput_of_ended hx hpos hended, fun hwhole => ?_, fun hmal hdrop => ?_, fun hmal hkeep => ?_⟩
  · rw [if_pos hwhole]
    exact ⟨_, itemGet_itemPut hx hid, parsedItem_pos s x, parsedItem_trap hwhole⟩
  · rw [if_neg hmal, if_pos hdrop]
    exact itemGet_itemRemove _ _
  · rw [if_neg hmal, if_neg hkeep]
    exact ⟨_, itemGet_itemPut (by rw [itemGet_count, itemGet_countMal, hx]) hid, parsedItem_pos s x⟩

theorem matchSetFinal_takes (hx : itemGet s item = some x) (hpos : x.pos ≠ .parser) (hi : imageOf s x.gen = some i) :
    ∃ t y, exec (.matchSetFinal item) s = .next t ∧ itemGet t item = some y ∧ y.pos = x.pos ∧ y.record.length ≤ 64 := by
  obtain ⟨t, hits, bus, ht, hexec⟩ := execMatchSetFinal_past_parser hx hpos hi
  have hid : x.id = item := id_of_itemGet hx
  refine ⟨_, _, hexec, itemGet_itemPut ht hid, rfl, ?_⟩
  rw [List.length_map]
  exact List.length_take_le ..

end

/-- Settles O9: a clause for each command, by what it puts in the place of its frame or item. -/
theorem parserAndScannerTakeEffect : Obligations.ParserAndScannerTakeEffect := by
  unfold Obligations.ParserAndScannerTakeEffect
  exact ⟨fun _ _ _ _ => rawHitListComplete_takes, fun _ _ _ _ => parserNodeStep_takes, fun _ _ _ => parserOutput_takes,
    fun _ _ _ _ => matchSetFinal_takes⟩

end Sys2Proof.Proofs
end

section
/-!
SUPPORT. Items beside admission (08 R181 to R184), the tree request queue and leaving (05 R115, R117), walks (05 R116, R119),
the reorder unit and the rewrite unit (05 R121 to R124).
-/

namespace Sys2Proof.Machine.Laws

open Sys2Proof Sys2Proof.Machine

/-! ## Items -/

theorem itemGet_itemPut_ne {s : State} {n : Nat} {x : Item} (h : x.id ≠ n) : itemGet (itemPut s x) n = itemGet s n := by
  have hsame : ((fun z : Item => z.id == n) ∘ fun z => if z.id = x.id then x else z) = fun z => z.id == n := by
    funext z
    by_cases hz : z.id = x.id <;> simp [hz]
  rw [itemGet, itemPut, itemsMap, List.find?_map, hsame, ← itemGet]
  cases hz : itemGet s n with
  | none => rfl
  | some z => exact congrArg some (if_neg (id_of_itemGet hz ▸ h.symm))

/-- What stands in the place of an item put there is that item. -/
theorem eq_of_itemGet_itemPut {s : State} {x y : Item} (h : itemGet (itemPut s x) x.id = some y) : y = x := by
  obtain ⟨z, -, hz⟩ := List.mem_map.1 (List.mem_of_find?_eq_some h)
  by_cases hid : z.id = x.id
  · exact hz.symm.trans (if_pos hid)
  · have hzy : z = y := (if_neg hid).symm.trans hz
    exact absurd (hzy ▸ id_of_itemGet h) hid

theorem noteLeft_objs (s : State) (x : Item) : (noteLeft s x).objs = s.objs := by
  unfold noteLeft
  split <;> rfl

@[simp] theorem ctrGet_itemRemove (s : State) (id i u e : Nat) : ctrGet (itemRemove s id) i u e = ctrGet s i u e := by
  unfold itemRemove ctrGet
  dsimp only
  split
  · rw [noteLeft_objs]
  · rfl

/-! ## Admission leaves the pipelines alone (08 R181 to R184) -/

@[simp] theorem ledAccept_pipe (s : State) (k : LedKind) (q : OrdQ) (slice : Nat) (infra restart : Bool) (ref : LedRef) :
    (ledAccept s k q slice infra restart ref).2.pipe = s.pipe := by
  simp [ledAccept, ledPut, ledMetaSet, ordPut]

@[simp] theorem bufTake_pipe (s : State) (len : Nat) (held : Option Nat) : (bufTake s len held).2.pipe = s.pipe := by
  unfold bufTake
  split
  · split <;> rfl
  · dsimp only
    split <;> rfl

@[simp] theorem enqueue_pipe (s : State) (q len : Nat) (bytes : List Byte) (held : Option Nat) :
    (enqueue s q len bytes held).2.pipe = s.pipe := by
  unfold enqueue
  extract_lets b _ _ _ _ r t _ _ u
  have hb : b.2.pipe = s.pipe := bufTake_pipe ..
  have hr : r.2.pipe = s.pipe := (ledAccept_pipe ..).trans hb
  have ht : t.2.pipe = s.pipe := iteInduction (motive := fun a : Option Nat × State => a.2.pipe = s.pipe)
    (fun _ => by simp [hr]) (fun _ => hb)
  have hu : u.pipe = s.pipe := iteInduction (motive := fun v : State => v.pipe = s.pipe) (fun _ => ht) (fun _ => ht)
  exact hu

@[simp] theorem admitOne_pipe (s : State) (q : Nat) (egress : Option Nat) (colour len : Nat) (bytes : List Byte)
    (held : Option Nat) : (admitOne s q egress colour len bytes held).2.pipe = s.pipe := by
  unfold admitOne
  split
  · rfl
  · split
    · rfl
    · exact enqueue_pipe ..

@[simp] theorem floodTo_pipe (s : State) (colour len : Nat) (bytes : List Byte) (held : Option Nat) (ps : List Nat) :
    (floodTo s colour len bytes held ps).pipe = s.pipe := by
  induction ps generalizing s held with
  | nil => rfl
  | cons p ps ih => exact (ih _ _).trans (admitOne_pipe ..)

@[simp] theorem admitItem_pipe (s : State) (x : Item) : (admitItem s x).pipe = s.pipe := by
  unfold admitItem
  dsimp only
  split
  · exact admitOne_pipe ..
  · split
    · split
      · rfl
      · exact floodTo_pipe ..
    · exact admitOne_pipe ..

@[simp] theorem itemGet_admitItem (s : State) (x : Item) (n : Nat) : itemGet (admitItem s x) n = itemGet s n := by
  rw [itemGet, admitItem_pipe, ← itemGet]

/-! ## Leaving (05 R115, R117) -/

theorem execDetourLeave_of_due {s : State} {slot : BitVec 12} {item k n : Nat} {tree : Bool} {x : Item} (rowOk : Bool)
    (hx : itemGet s item = some x) (hpos : x.pos = .leaving k tree n) (hdue : portDue s x (k + 1) slot.toNat = true) :
    execDetourLeave slot item rowOk s = .next (if tree then leaveTree (atSlot s slot) (fixDomain x) k n
      else leaveJutex (atSlot s slot) (fixDomain x) k n slot.toNat rowOk) := by
  have hx' : itemGet (atSlot s slot) item = some x := hx
  simp only [execDetourLeave, hx', hpos]
  exact congrArg Host.Outcome.next (if_pos hdue)

/-- Its order domain is fixed as an item leaves; its number, pipeline and generation stay. -/
theorem fixDomain_frame (x : Item) : (fixDomain x).id = x.id ∧ (fixDomain x).pipe = x.pipe ∧
    (fixDomain x).gen = x.gen ∧ (fixDomain x).domain.isSome = true := by
  unfold fixDomain
  split
  · next h => simp [h]
  · simp

/-- An item that leaves for a Jutex function, in a whole row, is on its way to the cluster in force for the row's. -/
theorem leaveJutex_of_mapped {s : State} {x : Item} {k n slot d : Nat} {rowOk : Bool} (hrow : rowBad s rowOk = false)
    (hc : rowDetour (schedRow s slot) x.pipe < 16)
    (hmap : s.jx.map.getD (rowDetour (schedRow s slot) x.pipe) none = some d) :
    leaveJutex s x k n slot rowOk = count (itemPut s { x with pos := .toCluster k d n }) (0xC070 + x.pipe) 0x0B := by
  unfold leaveJutex
  rw [if_neg (by simp [hrow])]
  dsimp only
  rw [if_neg (Nat.not_le.2 hc), hmap]

/-- The tree request queue moves at most an item that waits in it, and that into a walker. -/
theorem itemGet_pumpTree (s : State) (p n : Nat) :
    itemGet (pumpTree s p) n = itemGet s n ∨ ∃ x k m w, itemGet s n = some x ∧ x.pos = .treeQueue k m ∧
      itemGet (pumpTree s p) n = some { x with pos := .walker k m w } := by
  unfold pumpTree
  split
  · next id rest w _ _ =>
    split
    · exact .inl rfl
    · next x hx =>
      have hid : x.id = id := id_of_itemGet hx
      split
      · next k m hpos =>
        extract_lets _ t
        by_cases hn : id = n
        · subst hn
          exact .inr ⟨x, k, m, w, hx, hpos, itemGet_itemPut (s := t) hx hid⟩
        · exact .inl (itemGet_itemPut_ne (s := t) (hid ▸ hn))
      · exact .inl rfl
  · exact .inl rfl

theorem itemGet_pumpTree_of_waiting {s : State} {n k m : Nat} {x : Item} (p : Nat) (hx : itemGet s n = some x)
    (hpos : x.pos = .treeQueue k m) :
    ∃ y, itemGet (pumpTree s p) n = some y ∧ (y.pos = .treeQueue k m ∨ ∃ w, y.pos = .walker k m w) := by
  obtain hstays | ⟨y, k', m', w, hy, hypos, hmoved⟩ := itemGet_pumpTree s p n
  · exact ⟨x, hstays.trans hx, .inl hpos⟩
  · obtain rfl := Option.some.inj (hx.symm.trans hy)
    cases hpos.symm.trans hypos
    exact ⟨_, hmoved, .inr ⟨w, rfl⟩⟩

/-- An item that leaves for a tree, with room in the request queue, waits there or has a walker. -/
theorem itemGet_leaveTree {s : State} {x y : Item} {k n : Nat} {i : Image} (hx : itemGet s x.id = some y)
    (hi : imageOf s x.gen = some i) (hroom : (s.pipe.treeQ.getD x.pipe []).length < 1024) :
    ∃ z, itemGet (leaveTree s x k n) x.id = some z ∧ (z.pos = .treeQueue k n ∨ ∃ w, z.pos = .walker k n w) := by
  unfold leaveTree
  rw [if_neg (Nat.not_le.2 hroom), hi]
  have hput : itemGet (itemPut s { x with pos := .treeQueue k n, treeWalk := some (startTree i x.bus n) }) x.id = some _ :=
    itemGet_itemPut hx rfl
  exact itemGet_pumpTree_of_waiting x.pipe (k := k) (m := n) hput rfl

/-! ## Walks (05 R116, R119) -/

theorem execWalkReadData_of_reading {s : State} {p : BitVec 2} {w : BitVec 6} {x : Item} {k n v : Nat} {i : Image}
    {tw : TreeWalk} (readOk : Bool) (hfind : s.pipe.items.find? (inWalker p.toNat w.toNat) = some x)
    (hpos : x.pos = .walker k n v) (hwalk : x.treeWalk = some tw) (hi : imageOf s x.gen = some i)
    (hreading : tw.reading = true) :
    execWalkReadData p w readOk s = .next (if readOk then walkData s i x k tw
      else walkError (draw s).2 x 0x0102 33 ((draw s).1.toNat % 2 ^ 64)) := by
  simp only [execWalkReadData, hfind, hpos, hwalk, hi, hreading]
  rfl

theorem itemGet_walkError (s : State) (x : Item) (code island param : Nat) :
    itemGet (walkError s x code island param) x.id = none := by
  unfold walkError
  extract_lets t
  have hgone : itemGet (itemRemove t x.id) x.id = none := itemGet_itemRemove t x.id
  obtain hstays | ⟨y, k, m, w, hy, -⟩ := itemGet_pumpTree (itemRemove t x.id) x.pipe x.id
  · exact hstays.trans hgone
  · exact absurd (hgone.symm.trans hy) nofun

/-- An inner node that HBM holds whole names the child that the walk goes on to. -/
theorem walkData_of_inner {s : State} {i : Image} {x : Item} {k : Nat} {tw : TreeWalk} (hleaf : tw.leaf = false)
    (hok : tnOk (treeNode s i tw.node) = true) (hinner : tnLeaf (treeNode s i tw.node) = false) :
    walkData s i x k tw = itemPut s { x with treeWalk := some { tw with
      node := tnBase (treeNode s i tw.node) +
        (tw.key.toNat >>> tnCutOff (treeNode s i tw.node)) % 2 ^ tnCutBits (treeNode s i tw.node)
      reading := false } } := by
  simp [walkData, hleaf, hok, hinner]

/-! ## The reorder unit (05 R121, R122) -/

theorem pos_of_itemGet_netIssue {s : State} {x y : Item} (h : itemGet (netIssue s x) x.id = some y) : y.pos = .cipher := by
  have hgone : ∀ t : State, itemGet (itemRemove t x.id) x.id ≠ some y := by simp [itemGet_itemRemove]
  unfold netIssue at h
  split at h
  · exact absurd h (hgone _)
  · split at h
    · exact absurd h (hgone _)
    · exact congrArg Item.pos (eq_of_itemGet_itemPut (x := { x with pos := .cipher }) h)

/-- A released item has left its pipeline, unless it is with the cipher engines. -/
theorem pos_of_itemGet_releaseItem {s : State} {x y : Item} (h : itemGet (releaseItem s x) x.id = some y) :
    y.pos = .cipher := by
  unfold releaseItem at h
  split at h
  · exact pos_of_itemGet_netIssue h
  · simp [itemGet_itemRemove] at h

theorem pos_of_itemGet_reorderArrive {s : State} {x y : Item} (h : itemGet (reorderArrive s x) x.id = some y) :
    y.pos = .cipher ∨ ∃ since, y.pos = .reorder since := by
  obtain ⟨hid, -⟩ := fixDomain_frame x
  rw [← hid] at h
  unfold reorderArrive at h
  dsimp only at h
  split at h
  · exact .inl (pos_of_itemGet_releaseItem h)
  · split at h
    · exact .inl (pos_of_itemGet_releaseItem h)
    · exact .inr ⟨_, congrArg Item.pos (eq_of_itemGet_itemPut (x := { fixDomain x with pos := .reorder _ }) h)⟩

/-! ## The rewrite unit (05 R123, R124) -/

theorem rewriteItem_id (s : State) (i : Image) (x : Item) : (rewriteItem s i x).1.id = x.id := by
  unfold rewriteItem
  dsimp only
  split
  · rfl
  · split <;> rfl

theorem pos_of_itemGet_passItem {s : State} {i : Image} {x y : Item} (h : itemGet (passItem s i x) x.id = some y) :
    y.pos = .cipher ∨ ∃ since, y.pos = .reorder since := by
  unfold passItem at h
  extract_lets m r at h
  split at h
  · simp [itemGet_itemRemove] at h
  · have hid : r.1.id = x.id := rewriteItem_id ..
    exact pos_of_itemGet_reorderArrive (hid ▸ h)

/-- An item that has left the rewrite unit is with the reorder unit, with the cipher engines or gone. -/
theorem pos_of_itemGet_settleFate {s : State} {i : Image} {x y : Item} (h : itemGet (settleFate s i x) x.id = some y) :
    y.pos = .cipher ∨ ∃ since, y.pos = .reorder since := by
  unfold settleFate at h
  split at h
  · exact pos_of_itemGet_passItem h
  · split at h <;> simp [itemGet_itemRemove] at h

theorem settleFate_of_fwd_none {s : State} {x : Item} (i : Image) (htrap : x.trap = false) (hfwd : busFwd x.bus = 0) :
    settleFate s i x = itemRemove (count s (0xC070 + x.pipe) 0x14) x.id := by
  simp [settleFate, htrap, hfwd]

theorem execRewriteUnit_of_due {s : State} {slot : BitVec 12} {item : Nat} {x : Item} {i : Image}
    (hx : itemGet s item = some x) (hpos : x.pos = .stage 20) (hi : imageOf s x.gen = some i)
    (hslot : slot.toNat = (x.row + baseLatency (imageOf s x.timGen)) % 4096) :
    execRewriteUnit slot item s = .next (settleFate (atSlot s slot) i x) := by
  have hx' : itemGet (atSlot s slot) item = some x := hx
  have hi' : imageOf (atSlot s slot) x.gen = some i := hi
  simp only [execRewriteUnit, hx', hpos, hi']
  exact congrArg Host.Outcome.next (if_pos hslot)

end Sys2Proof.Machine.Laws
end

section
/-!
CLAIMS. Detours, walks, the rewrite unit and the reorder unit (05 R115, R117, R118, R121, R122, R124).
-/

namespace Sys2Proof.Proofs

open Sys2Proof Sys2Proof.Machine Sys2Proof.Machine.Laws

section

variable {s : State} {slot : BitVec 12} {item k n : Nat} {p : BitVec 2} {x : Item} {i : Image}

theorem detourLeave_takes_to_cluster {d : Nat} (hx : itemGet s item = some x) (hpos : x.pos = .leaving k false n)
    (hdue : portDue s x (k + 1) slot.toNat = true) (hrow : rowBad (atSlot s slot) true = false)
    (hc : rowDetour (schedRow s slot.toNat) x.pipe < 16)
    (hmap : s.jx.map.getD (rowDetour (schedRow s slot.toNat) x.pipe) none = some d) :
    ∃ t y, exec (.detourLeave slot item true) s = .next t ∧ itemGet t item = some y ∧ y.pos = .toCluster k d n ∧
      y.domain.isSome = true := by
  obtain ⟨hid, hpipe, -, hdomain⟩ := fixDomain_frame x
  have hexec : execDetourLeave slot item true s =
      .next (leaveJutex (atSlot s slot) (fixDomain x) k n slot.toNat true) := execDetourLeave_of_due true hx hpos hdue
  rw [leaveJutex_of_mapped hrow (hpipe ▸ hc) (hpipe ▸ hmap)] at hexec
  have hx' : itemGet (atSlot s slot) item = some x := hx
  exact ⟨_, _, hexec, itemGet_itemPut hx' (hid.trans (id_of_itemGet hx)), rfl, hdomain⟩

theorem detourLeave_takes_to_tree {rowOk : Bool} (hx : itemGet s item = some x) (hpos : x.pos = .leaving k true n)
    (hdue : portDue s x (k + 1) slot.toNat = true) (hi : imageOf s x.gen = some i)
    (hroom : (s.pipe.treeQ.getD x.pipe []).length < 1024) :
    ∃ t y, exec (.detourLeave slot item rowOk) s = .next t ∧ itemGet t item = some y ∧
      (y.pos = .treeQueue k n ∨ ∃ w, y.pos = .walker k n w) := by
  obtain ⟨hid, hpipe, hgen, -⟩ := fixDomain_frame x
  have hexec : execDetourLeave slot item rowOk s = .next (leaveTree (atSlot s slot) (fixDomain x) k n) :=
    execDetourLeave_of_due rowOk hx hpos hdue
  obtain rfl := id_of_itemGet hx
  have hx' : itemGet (atSlot s slot) (fixDomain x).id = some x := hid ▸ hx
  have hi' : imageOf (atSlot s slot) (fixDomain x).gen = some i := hgen ▸ hi
  obtain ⟨y, hy, hypos⟩ := itemGet_leaveTree (k := k) (n := n) hx' hi' (hpipe ▸ hroom)
  exact ⟨_, y, hexec, hid ▸ hy, hypos⟩

theorem walkReadData_takes {w : BitVec 6} {v : Nat} {tw : TreeWalk}
    (hfind : s.pipe.items.find? (inWalker p.toNat w.toNat) = some x) (hpos : x.pos = .walker k n v)
    (hwalk : x.treeWalk = some tw) (hi : imageOf s x.gen = some i) (hreading : tw.reading = true) :
    (tw.leaf = false → tnOk (treeNode s i tw.node) = true → tnLeaf (treeNode s i tw.node) = false →
      ∃ t y, exec (.walkReadData p w true) s = .next t ∧ itemGet t x.id = some y ∧
        y.treeWalk = some { tw with
          node := tnBase (treeNode s i tw.node) +
            (tw.key.toNat >>> tnCutOff (treeNode s i tw.node)) % 2 ^ tnCutBits (treeNode s i tw.node)
          reading := false }) ∧
    ∃ t, exec (.walkReadData p w false) s = .next t ∧ itemGet t x.id = none := by
  have hexec := fun readOk => execWalkReadData_of_reading readOk hfind hpos hwalk hi hreading
  refine ⟨fun hleaf hok hinner => ?_, ⟨_, hexec false, itemGet_walkError ..⟩⟩
  obtain ⟨y, hy⟩ := itemGet_of_find hfind
  exact ⟨_, _, (hexec true).trans (congrArg _ (walkData_of_inner hleaf hok hinner)), itemGet_itemPut hy rfl, rfl⟩

theorem rewriteUnit_takes (hx : itemGet s item = some x) (hpos : x.pos = .stage 20) (hi : imageOf s x.gen = some i)
    (hslot : slot.toNat = (x.row + baseLatency (imageOf s x.timGen)) % 4096) :
    ∃ t, exec (.rewriteUnit slot item) s = .next t ∧ (∀ y, itemGet t item = some y → y.pos ≠ .stage 20) ∧
      (x.trap = false → busFwd x.bus = 0 →
        itemGet t item = none ∧
          ctrGet t (0xC070 + x.pipe) 0x14 0 = (ctrGet s (0xC070 + x.pipe) 0x14 0 + 1) % 2 ^ 64) := by
  obtain rfl := id_of_itemGet hx
  refine ⟨_, execRewriteUnit_of_due hx hpos hi hslot, fun y hy => ?_, fun htrap hfwd => ?_⟩
  · obtain hcipher | ⟨since, hheld⟩ := pos_of_itemGet_settleFate hy
    · simp [hcipher]
    · simp [hheld]
  · rw [settleFate_of_fwd_none i htrap hfwd]
    exact ⟨itemGet_itemRemove .., by simp⟩

/-- A released item is held no more. -/
theorem not_held_of_releaseItem {y : Item} {since : Nat} (h : itemGet (releaseItem s x) x.id = some y) :
    y.pos ≠ .reorder since := by
  simp [pos_of_itemGet_releaseItem h]

theorem reorderRelease_takes
    (hx : lowestSeq ((heldItems s p.toNat).filter fun y => !isHeld s y && !leftNow (atSlot s slot) y false) = some x) :
    ∃ t, exec (.reorderRelease slot p) s = .next t ∧ ∀ y since, itemGet t x.id = some y → y.pos ≠ .reorder since := by
  have hx' : lowestSeq ((heldItems (atSlot s slot) p.toNat).filter
      fun y => !isHeld (atSlot s slot) y && !leftNow (atSlot s slot) y false) = some x := hx
  have hexec : execReorderRelease slot p s = .next (releaseItem (atSlot s slot) x) := by
    simp only [execReorderRelease, hx']
  exact ⟨_, hexec, fun _ _ => not_held_of_releaseItem⟩

theorem reorderTimeout_takes (hx : lowestSeq ((heldItems s p.toNat).filter (holdExpired (atSlot s slot))) = some x) :
    ∃ t, exec (.reorderTimeout slot p) s = .next t ∧ ∀ y since, itemGet t x.id = some y → y.pos ≠ .reorder since := by
  have hx' : lowestSeq ((heldItems (atSlot s slot) p.toNat).filter (holdExpired (atSlot s slot))) = some x := hx
  have hexec : execReorderTimeout slot p s =
      .next (releaseItem (count (atSlot s slot) (0xC070 + x.pipe) 0x13) x) := by
    simp only [execReorderTimeout, hx']
  exact ⟨_, hexec, fun _ _ => not_held_of_releaseItem⟩

end

/-- Settles O10: a clause for each command, by the position that its item has afterwards, or that it is gone. -/
theorem detoursWalksAndReorderTakeEffect : Obligations.DetoursWalksAndReorderTakeEffect := by
  unfold Obligations.DetoursWalksAndReorderTakeEffect
  exact ⟨fun _ _ _ _ _ _ _ => detourLeave_takes_to_cluster, fun _ _ _ _ _ _ _ _ => detourLeave_takes_to_tree,
    fun _ _ _ _ _ _ _ _ _ => walkReadData_takes, fun _ _ _ _ _ => rewriteUnit_takes, fun _ _ _ _ => reorderRelease_takes,
    fun _ _ _ _ => reorderTimeout_takes⟩

end Sys2Proof.Proofs
end

section
/-!
SUPPORT. The shared tables and the table command interface (06 R135 to R149): what a table access and a ledger entry leave as they
were, what a leg that is next in its slot does, and what a write of TC_CMD does to its window.
-/

namespace Sys2Proof.Machine.Laws

open Sys2Proof Sys2Proof.Machine

/-! ## Ledger entries (13 R303, R304) -/

@[simp] theorem ledPut_frame (s : State) (i : Nat) (e : LedEntry) :
    (ledPut s i e).tc = s.tc ∧ (ledPut s i e).fwd = s.fwd ∧ (ledPut s i e).stg = s.stg ∧ (ledPut s i e).ken = s.ken ∧
    (ledPut s i e).net = s.net ∧ (ledPut s i e).hbm = s.hbm ∧ (ledPut s i e).objs = s.objs := by
  simp [ledPut]

@[simp] theorem ledAccept_frame (s : State) (k : LedKind) (q : OrdQ) (slice : Nat) (infra restart : Bool) (ref : LedRef) :
    (ledAccept s k q slice infra restart ref).2.tc = s.tc ∧ (ledAccept s k q slice infra restart ref).2.fwd = s.fwd ∧
    (ledAccept s k q slice infra restart ref).2.stg = s.stg ∧ (ledAccept s k q slice infra restart ref).2.ken = s.ken ∧
    (ledAccept s k q slice infra restart ref).2.net = s.net ∧ (ledAccept s k q slice infra restart ref).2.hbm = s.hbm ∧
    (ledAccept s k q slice infra restart ref).2.objs.vals = s.objs.vals := by
  simp [ledAccept]

@[simp] theorem noteWait_frame (s : State) :
    (noteWait s).tc = s.tc ∧ (noteWait s).fwd = s.fwd ∧ (noteWait s).stg = s.stg ∧ (noteWait s).ken = s.ken ∧
    (noteWait s).net = s.net ∧ (noteWait s).hbm = s.hbm ∧ (noteWait s).objs = s.objs := by
  unfold noteWait
  dsimp only
  split <;> split <;> simp

@[simp] theorem ledRun_tc (s : State) (i : Nat) : (ledRun s i).tc = s.tc := by
  unfold ledRun
  split
  · split <;> simp
  · rfl

@[simp] theorem ledDone_tc (s : State) (i : Nat) (status detail : BitVec 8) : (ledDone s i status detail).tc = s.tc := by
  unfold ledDone ledFix
  split
  · rfl
  · split
    · rfl
    · dsimp only
      split <;> simp

@[simp] theorem ledRetire_tc (s : State) (i : Nat) : (ledRetire s i).tc = s.tc := by
  unfold ledRetire
  split
  · rfl
  · simp [countAt]

/-! ## Accesses of the shared tables (06 R131, R136, R141, R148) -/

/-- From `b` to `s` the command interface, both learn queues and the number of requests that the arbiters have applied stand as
they did. -/
def QueuesKept (b s : State) : Prop :=
  s.tc = b.tc ∧ s.fwd.l2q = b.fwd.l2q ∧ s.fwd.flowq = b.fwd.flowq ∧ s.fwd.applied = b.fwd.applied

section

variable {b s : State} {c : Prop} [Decidable c]

theorem queuesKept_self (s : State) : QueuesKept s s := ⟨rfl, rfl, rfl, rfl⟩

theorem queuesKept_ite {u v : State} (hu : QueuesKept b u) (hv : QueuesKept b v) : QueuesKept b (if c then u else v) :=
  iteInduction (fun _ => hu) (fun _ => hv)

theorem queuesKept_ite_snd {α : Type} {u v : α × State} (hu : QueuesKept b u.2) (hv : QueuesKept b v.2) :
    QueuesKept b (if c then u else v).2 :=
  iteInduction (motive := fun r : α × State => QueuesKept b r.2) (fun _ => hu) (fun _ => hv)

theorem queuesKept_count {i u : Nat} (h : QueuesKept b s) : QueuesKept b (count s i u) := h

theorem queuesKept_setL2Hp {i v : Nat} (h : QueuesKept b s) : QueuesKept b (setL2Hp s i v) := h

theorem queuesKept_quarShared {tbl i : Nat} (h : QueuesKept b s) : QueuesKept b (quarShared s tbl i) := by
  simpa [quarShared, QueuesKept] using h

theorem queuesKept_readShared {tbl : Nat} {l : List Nat} (h : QueuesKept b s) : QueuesKept b (readShared s tbl l).2 := by
  induction l generalizing s with
  | nil => exact h
  | cons i l ih => exact ih (queuesKept_ite (queuesKept_quarShared h) h)

theorem queuesKept_sharedPut {tbl i e : Nat} (h : QueuesKept b s) : QueuesKept b (sharedPut s tbl i e) := by
  have hr : QueuesKept b (record s (.table tbl i e)) := queuesKept_ite h h
  exact queuesKept_ite hr (queuesKept_ite hr (queuesKept_ite hr hr))

theorem queuesKept_applyMove {i : Nat} {r : LearnReq} (h : QueuesKept b s) : QueuesKept b (applyMove s i r) := by
  have hstamp : ∀ {t : State} {key : Nat}, QueuesKept b t → QueuesKept b (stampMove t key) := fun ht => queuesKept_ite ht ht
  exact queuesKept_ite h (queuesKept_ite h (queuesKept_count (hstamp (queuesKept_sharedPut h))))

theorem queuesKept_applyL2 {r : LearnReq} (h : QueuesKept b s) : QueuesKept b (applyL2 s r) := by
  unfold applyL2
  extract_lets is t
  have ht : QueuesKept b t := queuesKept_readShared h
  clear_value t
  split
  · exact queuesKept_ite ht (queuesKept_ite ht (queuesKept_applyMove ht))
  · split
    · exact ht
    · exact queuesKept_ite ht (queuesKept_setL2Hp (queuesKept_count (queuesKept_sharedPut ht)))

theorem queuesKept_applyFlow {r : LearnReq} (h : QueuesKept b s) : QueuesKept b (applyFlow s r) := by
  unfold applyFlow
  extract_lets is t
  have ht : QueuesKept b t := queuesKept_readShared h
  clear_value t
  split
  · exact ht
  · split
    · exact ht
    · exact queuesKept_count (queuesKept_sharedPut ht)

theorem queuesKept_tcWrite {target i e : Nat} (h : QueuesKept b s) : QueuesKept b (tcWrite s target i e) :=
  queuesKept_ite (queuesKept_setL2Hp (queuesKept_sharedPut h)) (queuesKept_sharedPut h)

theorem queuesKept_sharedCommand {c : TcCmd} (h : QueuesKept b s) : QueuesKept b (sharedCommand s c).2 := by
  unfold sharedCommand
  extract_lets _ _ _ is t found
  have ht : QueuesKept b t := queuesKept_readShared h
  clear_value t
  refine queuesKept_ite_snd h (queuesKept_ite_snd h ?_)
  split
  · exact ht
  · split
    · exact queuesKept_tcWrite ht
    · exact ht
  · exact ht
  · exact queuesKept_ite (queuesKept_setL2Hp (queuesKept_sharedPut ht)) (queuesKept_sharedPut ht)
  · exact ht
  · exact queuesKept_ite_snd (queuesKept_tcWrite ht) ht
  · exact queuesKept_tcWrite ht

end

/-! ## Legs (06 R130, R138) -/

/-- A leg of the present slot has acted. -/
def legNoted (s : State) (n rank : Nat) : State := { s with fwd := { s.fwd with legs := s.fwd.legs ++ [(n, rank)] } }

theorem onLeg_of_legFree {s : State} {n rank : Nat} (act : State → State) (h : legFree s n rank = true) :
    onLeg s n rank act = act (legNoted s n rank) :=
  if_pos h

/-- A leg of the L2 arbiter with room takes the head of its queue. -/
theorem learnL2_takes_head {s : State} {r : LearnReq} {rest : List LearnReq} (hq : s.fwd.l2q = r :: rest)
    (happlied : s.fwd.applied.1 < 820) (hroom : deltaRoom s 32 = true) :
    (learnL2 s).fwd.l2q = rest ∧ (learnL2 s).fwd.applied.1 = s.fwd.applied.1 + 1 := by
  have hleg : learnL2 s = applyL2
      { s with fwd := { s.fwd with l2q := rest, applied := (s.fwd.applied.1 + 1, s.fwd.applied.2) } } r := by
    simp [learnL2, hq, hroom, Nat.not_le.2 happlied]
  obtain ⟨-, hl2q, -, hcount⟩ := queuesKept_applyL2 (r := r) (queuesKept_self
    { s with fwd := { s.fwd with l2q := rest, applied := (s.fwd.applied.1 + 1, s.fwd.applied.2) } })
  rw [hleg]
  exact ⟨hl2q, congrArg Prod.fst hcount⟩

/-- A leg of the flow arbiter with room takes the head of its queue, once both its buckets are cached. -/
theorem learnFlow_takes_head {s : State} {r : LearnReq} {rest : List LearnReq} (hq : s.fwd.flowq = r :: rest)
    (happlied : s.fwd.applied.2 < 820) (hfirst : flowCached s (flowBuckets r.key).1 = true)
    (hsecond : flowCached s (flowBuckets r.key).2 = true) (hroom : deltaRoom s 80 = true) :
    (learnFlow s).fwd.flowq = rest ∧ (learnFlow s).fwd.applied.2 = s.fwd.applied.2 + 1 := by
  have hleg : learnFlow s = applyFlow
      { s with fwd := { s.fwd with flowq := rest, applied := (s.fwd.applied.1, s.fwd.applied.2 + 1) } } r := by
    simp [learnFlow, hq, hroom, hfirst, hsecond, Nat.not_le.2 happlied]
  obtain ⟨-, -, hflowq, hcount⟩ := queuesKept_applyFlow (r := r) (queuesKept_self
    { s with fwd := { s.fwd with flowq := rest, applied := (s.fwd.applied.1, s.fwd.applied.2 + 1) } })
  rw [hleg]
  exact ⟨hflowq, congrArg Prod.snd hcount⟩

/-! ## Sweeps (06 R142, R144) -/

@[simp] theorem sweepOf_setSweep (s : State) (flow : Bool) (x : Sweep) : sweepOf (setSweep s flow x) flow = x := by
  cases flow <;> rfl

theorem startPass_of_early {s : State} {flow : Bool} (h : s.clk.beat < (sweepOf s flow).nextAt) : startPass s flow = s :=
  if_neg (Nat.not_le.2 h)

/-- A start that is due moves the next one on, and starts the pass or, while one runs, marks it late. -/
theorem sweepOf_startPass {s : State} {flow : Bool} (h : (sweepOf s flow).nextAt ≤ s.clk.beat) :
    sweepOf (startPass s flow) flow = { sweepOf s flow with
      nextAt := (sweepOf s flow).nextAt + ageBeats s flow
      pos := some ((sweepOf s flow).pos.getD 0)
      late := (sweepOf s flow).late || (sweepOf s flow).pos.isSome } := by
  have hcount : ∀ (t : State) (i u : Nat), sweepOf (count t i u) flow = sweepOf t flow := fun _ _ _ => rfl
  simp only [startPass, if_pos h]
  split
  · next hpos => simp [hpos]
  · next b hpos => simp [hpos, hcount]

/-- A visit of a bucket goes on to the next one, ends the pass, or stops at a full removal queue. -/
theorem sweepOf_visitPlaces (flow : Bool) (b n : Nat) (s : State) :
    (sweepOf (visitPlaces flow b n s) flow).pos = (if b + 1 < sweepBuckets flow then some (b + 1) else none) ∨
      (sweepOf (visitPlaces flow b n s) flow).stalled = true := by
  induction n generalizing s with
  | zero => exact .inl (by simp [visitPlaces])
  | succ n ih =>
    rw [visitPlaces]
    split
    · exact .inr (by simp)
    · exact ih _

theorem sweepOf_visitBucket {s : State} {flow : Bool} {b : Nat} (hpos : (sweepOf s flow).pos = some b)
    (hremoval : (sweepOf s flow).removal = []) :
    (sweepOf (visitBucket s flow) flow).pos = (if b + 1 < sweepBuckets flow then some (b + 1) else none) ∨
      (sweepOf (visitBucket s flow) flow).stalled = true := by
  have hroom : ¬removalFull s flow = true := by simp [removalFull, hremoval]
  simp only [visitBucket, hpos, if_neg hroom]
  exact sweepOf_visitPlaces ..

/-- With no removal waiting and no start due, a leg of a sweep visits a bucket. -/
theorem sweepLeg_of_removal_nil {s : State} {flow : Bool} {n : Nat} (hearly : s.clk.beat < (sweepOf s flow).nextAt)
    (hremoval : (sweepOf s flow).removal = []) (hfree : legFree s n 0 = true) :
    sweepLeg s n flow = visitBucket (legNoted s n 0) flow := by
  simp [sweepLeg, startPass_of_early hearly, hremoval, onLeg_of_legFree _ hfree]

/-! ## The flow cache (06 R135) -/

theorem sget_cacheUse (s : State) (b n : Nat) :
    sget [] (cacheUse s b).fwd.cache n =
      if n = cacheSet b then (b :: (sget [] s.fwd.cache (cacheSet b)).filter (· != b)).take 8 else sget [] s.fwd.cache n := by
  rw [cacheUse, sget_sset]

theorem flowCached_cacheUse_self (s : State) (b : Nat) : flowCached (cacheUse s b) b = true := by
  simp [flowCached, sget_cacheUse]

/-- The last bucket used but one is still in the cache. -/
theorem flowCached_cacheUse_cacheUse (s : State) (a b : Nat) : flowCached (cacheUse (cacheUse s b) a) b = true := by
  by_cases hab : b = a
  · subst hab
    exact flowCached_cacheUse_self ..
  · by_cases hset : cacheSet b = cacheSet a
    · simp [flowCached, sget_cacheUse, hset, hab]
    · simp [flowCached, sget_cacheUse, hset]

/-! ## Command windows (06 R145, R148, R149) -/

theorem tcWin_congr {s t : State} (h : t.tc = s.tc) (w : Nat) : tcWin t w = tcWin s w := by rw [tcWin, h, tcWin]

theorem tcWin_setTcWin_self {s : State} {w : Nat} (x : TcWin) (hw : w < s.tc.wins.length) : tcWin (setTcWin s w x) w = x := by
  rw [tcWin_setTcWin s w w x hw, if_pos rfl]

theorem tcWin_setTcWin_ne (s : State) {w v : Nat} (x : TcWin) (h : v ≠ w) : tcWin (setTcWin s w x) v = tcWin s v := by
  simp [tcWin, setTcWin, lset, h.symm]

/-- The command that a window captures as TC_CMD is written, with the ledger entry that it takes (06 R145). -/
def capturedCommand (s : State) (w op target : Nat) (other : Bool) (table : Nat) : TcCmd :=
  { op := op, target := target, other := other, table := table, index := (tcWin s w).index, data := (tcWin s w).data,
    cmp := (tcWin s w).cmp, entry := (ledAccept s .table (.window w) 0 true false (.reply w)).1,
    res := List.replicate 4 none, pos := 0, fin := none }

section

variable {s : State} {w op target table : Nat} {other : Bool}

theorem cmd_tcCommand_of_idle (hop : op ≠ 0 ∧ op ≤ 6) (htarget : target ≤ 4) (hon : mainOn s = true)
    (hidle : tcBusy s w = false) (hw : w < s.tc.wins.length) :
    (tcWin (tcCommand s w op target other table) w).cmd = some (capturedCommand s w op target other table) := by
  have hset : ∀ x, tcWin (setTcWin (ledAccept s .table (.window w) 0 true false (.reply w)).2 w x) w = x :=
    fun x => tcWin_setTcWin_self x (by simpa using hw)
  have hvalid : ¬(op = 0 ∨ 6 < op ∨ 4 < target ∨ !mainOn s) := by simp [hon, hop, htarget]
  rw [tcCommand, if_neg hvalid, if_neg (by simp [hidle])]
  dsimp only
  split <;> exact congrArg TcWin.cmd (hset _)

/-- A write of TC_CMD while BUSY only notes the refusal in its window, and counts it (06 R145). -/
theorem tcCommand_of_busy (hop : op ≠ 0 ∧ op ≤ 6) (htarget : target ≤ 4) (hon : mainOn s = true)
    (hbusy : tcBusy s w = true) (hw : w < s.tc.wins.length) :
    tcWin (tcCommand s w op target other table) w = { tcWin s w with refused := true } ∧
      ctrGet (tcCommand s w op target other table) 0xC080 0x17 0 = (ctrGet s 0xC080 0x17 0 + 1) % 2 ^ 64 := by
  have hvalid : ¬(op = 0 ∨ 6 < op ∨ 4 < target ∨ !mainOn s) := by simp [hon, hop, htarget]
  rw [tcCommand, if_neg hvalid, if_pos hbusy]
  extract_lets full x t
  have hwin : tcWin t w = { tcWin s w with refused := true } :=
    (tcWin_congr (s := setTcWin s w { x with refused := true }) (by simp [t]) w).trans (tcWin_setTcWin_self _ hw)
  have hobjs : t.objs = (count s 0xC080 0x17).objs := by simp only [t, noteWait_frame]; rfl
  have hctr : ctrGet t 0xC080 0x17 0 = (ctrGet s 0xC080 0x17 0 + 1) % 2 ^ 64 := by
    rw [ctrGet, hobjs]
    exact ctrGet_count_self ..
  clear_value t
  split
  · refine ⟨hwin, ?_⟩
    rw [count, ctrGet_ctrAddAt, if_neg (by decide), hctr]
  · exact ⟨hwin, hctr⟩

theorem tcCommand_frame (s : State) (w op target : Nat) (other : Bool) (table : Nat) :
    (tcCommand s w op target other table).fwd = s.fwd ∧ (tcCommand s w op target other table).stg = s.stg ∧
    (tcCommand s w op target other table).hbm = s.hbm ∧ (tcCommand s w op target other table).ken = s.ken ∧
    (tcCommand s w op target other table).net = s.net ∧
    (tcCommand s w op target other table).objs.vals = s.objs.vals := by
  unfold tcCommand
  split
  · simp
  · split
    · dsimp only
      split <;> simp
    · dsimp only
      split <;> simp

theorem tcWin_tcCommand_ne {v : Nat} (h : v ≠ w) : tcWin (tcCommand s w op target other table) v = tcWin s v := by
  unfold tcCommand
  split
  · rfl
  · split
    · dsimp only
      have hset : ∀ t : State, t.tc = (setTcWin s w { tcWin s w with refused := true }).tc → tcWin t v = tcWin s v :=
        fun t ht => (tcWin_congr ht v).trans (tcWin_setTcWin_ne s _ h)
      split <;> exact hset _ (by simp)
    · have haccept : tcWin (ledAccept s .table (.window w) 0 true false (.reply w)).2 v = tcWin s v :=
        tcWin_congr (by simp) v
      dsimp only
      split <;> exact (tcWin_setTcWin_ne _ _ h).trans haccept

/-- A command whose outcome is fixed holds it in its window, and nothing else of the interface changes. -/
theorem tcFinish_of_cmd {result : Nat} {hit pend : Bool} {data : Option (BitVec 2048)} {c : TcCmd}
    (hc : (tcWin s w).cmd = some c) (hw : w < s.tc.wins.length) :
    (tcFinish s w result hit pend data).tc.queue = s.tc.queue ∧
      (tcWin (tcFinish s w result hit pend data) w).cmd = some { c with fin := some (result, hit, pend, data) } := by
  rw [tcFinish, hc]
  dsimp only
  rw [ledDone_tc, tcWin_congr (ledDone_tc ..), tcWin_setTcWin_self _ hw]
  exact ⟨rfl, rfl⟩

/-- A leg of the command queue takes its head and fixes the outcome of a command other than FLUSH_PORT. -/
theorem commandLeg_takes_head {rest : List Nat} {c : TcCmd} (hq : s.tc.queue = w :: rest) (hw : w < s.tc.wins.length)
    (hc : (tcWin s w).cmd = some c) (hop : c.op ≠ 6) :
    ∃ d, (commandLeg s).tc.queue = rest ∧ (tcWin (commandLeg s) w).cmd = some d ∧ d.fin.isSome = true := by
  have hfinish : ∀ {t : State}, t.tc = { s.tc with queue := rest } → ∀ result hit pend data,
      ∃ d, (tcFinish t w result hit pend data).tc.queue = rest ∧
        (tcWin (tcFinish t w result hit pend data) w).cmd = some d ∧ d.fin.isSome = true := by
    intro t ht result hit pend data
    have hwin : tcWin t w = tcWin s w := by rw [tcWin, ht, tcWin]
    obtain ⟨hqueue, hcmd⟩ := tcFinish_of_cmd (result := result) (hit := hit) (pend := pend) (data := data)
      ((congrArg TcWin.cmd hwin).trans hc) (by rwa [ht])
    exact ⟨_, by rw [hqueue, ht], hcmd, rfl⟩
  simp only [commandLeg, hq, hc, if_neg hop]
  split
  · exact hfinish (by simp) ..
  · obtain ⟨htc, -⟩ := queuesKept_sharedCommand (c := c) (queuesKept_self (ledRun s c.entry))
    exact hfinish (by simp [htc]) ..

/-- A command that may be released empties its window, and its result and number of completions are told there. -/
theorem tcWin_tcRelease {c : TcCmd} {r : Nat} {hit pend : Bool} {data : Option (BitVec 2048)} (hw : w < s.tc.wins.length)
    (hc : (tcWin s w).cmd = some c) (hfin : c.fin = some (r, hit, pend, data)) (hrel : tcReleasable s w c = true) :
    (tcWin (tcRelease s w) w).cmd = none ∧ (tcWin (tcRelease s w) w).result = BitVec.ofNat 8 r ∧
      (tcWin (tcRelease s w) w).done = (tcWin s w).done + 1 := by
  have hwin : ∀ (x : TcWin) (i u e : Nat), tcWin (ledRetire (count (setTcWin s w x) i u) e) w = x :=
    fun x i u e => (tcWin_congr (by simp) w).trans (tcWin_setTcWin_self x hw)
  simp [tcRelease, hc, hfin, hrel, hwin]

end

end Sys2Proof.Machine.Laws
end

section
/-!
CLAIMS. The legs of the shared tables and the table command interface (06 R135, R138, R142, R144, R145, R148, R149).
-/

namespace Sys2Proof.Proofs

open Sys2Proof Sys2Proof.Machine Sys2Proof.Machine.Laws

section

variable {s u : State} {slot : BitVec 12} {k : BitVec 3}

theorem learnLeg_takes_l2 {r : LearnReq} {rest : List LearnReq} (hu : u = openSlot (atSlot s slot))
    (hrow : rowBad u true = false) (hfree : legFree u k.toNat 1 = true) (hleg : legIs u slot k.toNat 4 = true)
    (heven : slot.toNat % 2 = 0) (hq : u.fwd.l2q = r :: rest) (happlied : u.fwd.applied.1 < 820)
    (hroom : deltaRoom u 32 = true) :
    ∃ t, exec (.learnLeg slot k true) s = .next t ∧ t.fwd.l2q = rest ∧ t.fwd.applied.1 = u.fwd.applied.1 + 1 := by
  subst hu
  have hexec : execLearnLeg slot k s true = .next (learnL2 (legNoted (openSlot (atSlot s slot)) k.toNat 1)) := by
    simp [execLearnLeg, hrow, hleg, onLeg_of_legFree _ hfree, heven]
  exact ⟨_, hexec, learnL2_takes_head hq happlied hroom⟩

theorem learnLeg_takes_flow {r : LearnReq} {rest : List LearnReq} (hu : u = openSlot (atSlot s slot))
    (hrow : rowBad u true = false) (hfree : legFree u k.toNat 1 = true) (hleg : legIs u slot k.toNat 4 = true)
    (hodd : slot.toNat % 2 = 1) (hq : u.fwd.flowq = r :: rest) (happlied : u.fwd.applied.2 < 820)
    (hfirst : flowCached u (flowBuckets r.key).1 = true) (hsecond : flowCached u (flowBuckets r.key).2 = true)
    (hroom : deltaRoom u 80 = true) :
    ∃ t, exec (.learnLeg slot k true) s = .next t ∧ t.fwd.flowq = rest ∧ t.fwd.applied.2 = u.fwd.applied.2 + 1 := by
  subst hu
  have hexec : execLearnLeg slot k s true = .next (learnFlow (legNoted (openSlot (atSlot s slot)) k.toNat 1)) := by
    simp [execLearnLeg, hrow, hleg, onLeg_of_legFree _ hfree, hodd]
  exact ⟨_, hexec, learnFlow_takes_head hq happlied hfirst hsecond hroom⟩

theorem agingLeg_takes {b : Nat} (hu : u = openSlot (atSlot s slot)) (hrow : rowBad u true = false)
    (hfree : legFree u k.toNat 0 = true) (hleg : legIs u slot k.toNat 5 = true)
    (hremoval : (sweepOf u (slot.toNat % 2 == 1)).removal = []) (hpos : (sweepOf u (slot.toNat % 2 == 1)).pos = some b)
    (hearly : u.clk.beat < (sweepOf u (slot.toNat % 2 == 1)).nextAt) :
    ∃ t, exec (.agingLeg slot k true) s = .next t ∧
      ((sweepOf t (slot.toNat % 2 == 1)).pos =
          (if b + 1 < sweepBuckets (slot.toNat % 2 == 1) then some (b + 1) else none) ∨
        (sweepOf t (slot.toNat % 2 == 1)).stalled = true) := by
  subst hu
  have hexec : execAgingLeg slot k s true =
      .next (visitBucket (legNoted (openSlot (atSlot s slot)) k.toNat 0) (slot.toNat % 2 == 1)) := by
    simp [execAgingLeg, hrow, hleg, sweepLeg_of_removal_nil hearly hremoval hfree]
  exact ⟨_, hexec, sweepOf_visitBucket hpos hremoval⟩

theorem commandLeg_takes {w : Nat} {rest : List Nat} {c : TcCmd} (hu : u = openSlot (atSlot s slot))
    (hrow : rowBad u true = false) (hfree : legFree u k.toNat 1 = true) (hleg : legIs u slot k.toNat 6 = true)
    (hq : u.tc.queue = w :: rest) (hw : w < u.tc.wins.length) (hc : (tcWin u w).cmd = some c) (hop : c.op ≠ 6) :
    ∃ t d, exec (.commandLeg slot k true) s = .next t ∧ t.tc.queue = rest ∧ (tcWin t w).cmd = some d ∧
      d.fin.isSome = true := by
  subst hu
  have hexec : execCommandLeg slot k s true = .next (commandLeg (legNoted (openSlot (atSlot s slot)) k.toNat 1)) := by
    simp [execCommandLeg, hrow, hleg, onLeg_of_legFree _ hfree]
  obtain ⟨d, hqueue, hcmd, hdone⟩ :=
    commandLeg_takes_head (s := legNoted (openSlot (atSlot s slot)) k.toNat 1) hq hw hc hop
  exact ⟨_, d, hexec, hqueue, hcmd, hdone⟩

theorem flowFillLand_takes {a b : Nat} {rest : List (Nat × Nat)} (hfills : s.fwd.fills = (a, b) :: rest) :
    ∃ t, exec .flowFillLand s = .next t ∧ t.fwd.fills = rest ∧ flowCached t a = true ∧ flowCached t b = true := by
  have hexec : execFlowFillLand s =
      .next (cacheUse (cacheUse { s with fwd := { s.fwd with fills := rest } } b) a) := by
    simp only [execFlowFillLand, hfills]
  exact ⟨_, hexec, rfl, flowCached_cacheUse_self .., flowCached_cacheUse_cacheUse ..⟩

theorem agingPassStart_takes {flow : Bool} (hdue : (sweepOf s flow).nextAt ≤ s.clk.beat) :
    ∃ t, exec (.agingPassStart flow) s = .next t ∧ (sweepOf t flow).nextAt = (sweepOf s flow).nextAt + ageBeats s flow ∧
      ((sweepOf s flow).pos = none → (sweepOf t flow).pos = some 0) ∧
      ((sweepOf s flow).pos ≠ none → (sweepOf t flow).late = true) := by
  refine ⟨startPass s flow, rfl, ?_⟩
  rw [sweepOf_startPass hdue]
  exact ⟨rfl, fun hnone => by simp [hnone], fun hsome => by simp [Option.isSome_iff_ne_none.2 hsome]⟩

end

/-- Settles O12: a clause for each command, by the head of the queue that its leg serves. -/
theorem sharedTableLegsTakeEffect : Obligations.SharedTableLegsTakeEffect := by
  unfold Obligations.SharedTableLegsTakeEffect
  exact ⟨fun _ _ _ _ _ _ => learnLeg_takes_l2, fun _ _ _ _ _ _ => learnLeg_takes_flow, fun _ _ _ _ _ => agingLeg_takes,
    fun _ _ _ _ _ _ _ => commandLeg_takes, fun _ _ _ _ => flowFillLand_takes, fun _ _ => agingPassStart_takes⟩

section

variable {s : State} {w : BitVec 3} {tg : BitVec 4} {g : BitVec 1} {tbl : BitVec 16} {c : Instr}

/-- The six table commands are writes of TC_CMD with operations 1 to 6 (06 R146). -/
theorem exec_tableCommand {op : Nat}
    (hc : (c = .tcInsert w tg g tbl ∧ op = 1) ∨ (c = .tcDelete w tg g tbl ∧ op = 2) ∨ (c = .tcRead w tg g tbl ∧ op = 3) ∨
      (c = .tcReplace w tg g tbl ∧ op = 4) ∨ (c = .tcCompareReplace w tg g tbl ∧ op = 5) ∨
      (c = .flushPort w tg g tbl ∧ op = 6)) :
    (op ≠ 0 ∧ op ≤ 6) ∧ exec c s = .next (tcCommand s w.toNat op tg.toNat (g == 1) tbl.toNat) := by
  rcases hc with ⟨rfl, rfl⟩ | ⟨rfl, rfl⟩ | ⟨rfl, rfl⟩ | ⟨rfl, rfl⟩ | ⟨rfl, rfl⟩ | ⟨rfl, rfl⟩ <;>
    exact ⟨by decide, rfl⟩

end

/-- Settles O13: a window that is not BUSY captures the command, a BUSY one only notes the refusal, and a release empties it. -/
theorem tableCommandsAreAcceptedOrRefused : Obligations.TableCommandsAreAcceptedOrRefused := by
  unfold Obligations.TableCommandsAreAcceptedOrRefused
  constructor
  · intro s w tg g tbl c op hc htarget hwins hon
    obtain ⟨hop, hexec⟩ := exec_tableCommand (s := s) hc
    have hw : w.toNat < s.tc.wins.length := hwins ▸ w.isLt
    constructor
    · intro hidle
      exact ⟨_, _, hexec, cmd_tcCommand_of_idle hop htarget hon hidle hw, rfl, rfl, rfl, rfl, rfl, rfl, rfl⟩
    · intro hbusy
      obtain ⟨hwin, hctr⟩ := tcCommand_of_busy (other := g == 1) (table := tbl.toNat) hop htarget hon hbusy hw
      exact ⟨_, hexec, by rw [hwin], by rw [hwin], hctr⟩
  · intro s w c r hit pend data hwins hc hfin hrel
    exact ⟨_, rfl, tcWin_tcRelease (hwins ▸ w.isLt) hc hfin hrel⟩

/-- Settles O14: each of the six is a write of TC_CMD, which touches its window, the ledger and the command queues. -/
theorem tableCommandsKeepOtherState : Obligations.TableCommandsKeepOtherState := by
  unfold Obligations.TableCommandsKeepOtherState
  intro s t w tg g tbl c hc ht
  obtain ⟨op, hop⟩ : ∃ op, exec c s = .next (tcCommand s w.toNat op tg.toNat (g == 1) tbl.toNat) := by
    rcases hc with rfl | rfl | rfl | rfl | rfl | rfl
    exacts [⟨1, rfl⟩, ⟨2, rfl⟩, ⟨3, rfl⟩, ⟨4, rfl⟩, ⟨5, rfl⟩, ⟨6, rfl⟩]
  cases hop.symm.trans ht
  obtain ⟨hfwd, hstg, hhbm, hken, hnet, hvals⟩ := tcCommand_frame s w.toNat op tg.toNat (g == 1) tbl.toNat
  exact ⟨hfwd, hstg, fun _ => tcWin_tcCommand_ne, hbmByte_congr (by rw [hhbm]), hken, hnet, objGet_congr hvals⟩

end Sys2Proof.Proofs
end

section
/-!
SUPPORT. What the body of a Jutex instruction finds and leaves: reads of threads, engines, channels and scratch after writes
(07 R153, R155, R162), and the state in which the body of an instruction that issues runs (07 R152, R154).
-/

namespace Sys2Proof.Machine.Laws

open Sys2Proof Sys2Proof.Machine

/-! ## Reads after writes -/

theorem thread_congr {s t : State} (h : t.jx.threads = s.jx.threads) (n : Nat) : thread t n = thread s n := by
  rw [thread, h, thread]

theorem getReg_congr {s t : State} {m n : Nat} (h : (thread t m).regs = (thread s n).regs) (r : BitVec 5) :
    getReg t m r = getReg s n r := by
  rw [getReg, h, getReg]

@[simp] theorem getReg_zero (s : State) (n : Nat) : getReg s n 0 = 0 := if_pos rfl

@[simp] theorem setReg_zero (s : State) (n : Nat) (v : BitVec 64) : setReg s n 0 v = s := if_pos rfl

/-- A register write leaves the rest of its thread, and every other thread, as it was. -/
theorem thread_setReg (s : State) (n m : Nat) (r : BitVec 5) (v : BitVec 64) :
    thread (setReg s n r v) m = { thread s m with regs := (thread (setReg s n r v) m).regs } := by
  unfold setReg
  split
  · rfl
  · by_cases h : m = n
    · subst h; simp [thread_setThread]
    · simp [thread_setThread, h]

theorem thread_setReg_ne (s : State) {n m : Nat} (r : BitVec 5) (v : BitVec 64) (h : m ≠ n) :
    thread (setReg s n r v) m = thread s m := by
  unfold setReg
  split
  · rfl
  · rw [thread_setThread, if_neg h]

@[simp] theorem thread_setReg_fields (s : State) (n m : Nat) (r : BitVec 5) (v : BitVec 64) :
    (thread (setReg s n r v) m).state = (thread s m).state ∧ (thread (setReg s n r v) m).pc = (thread s m).pc ∧
    (thread (setReg s n r v) m).wait = (thread s m).wait ∧ (thread (setReg s n r v) m).owns = (thread s m).owns ∧
    (thread (setReg s n r v) m).item = (thread s m).item ∧ (thread (setReg s n r v) m).before = (thread s m).before := by
  rw [thread_setReg]
  simp

@[simp] theorem setReg_frame (s : State) (n : Nat) (r : BitVec 5) (v : BitVec 64) :
    (setReg s n r v).jx.engines = s.jx.engines ∧ (setReg s n r v).jx.clusters = s.jx.clusters ∧
    (setReg s n r v).pipe = s.pipe ∧ (setReg s n r v).led = s.led ∧ (setReg s n r v).cip = s.cip ∧
    (setReg s n r v).ken = s.ken ∧ (setReg s n r v).dma = s.dma := by
  unfold setReg
  split <;> simp [setThread]

theorem engine_congr {s t : State} (h : t.jx.engines = s.jx.engines) (e : Nat) : engine t e = engine s e := by
  rw [engine, h, engine]

theorem cluster_congr {s t : State} (h : t.jx.clusters = s.jx.clusters) (c : Nat) : cluster t c = cluster s c := by
  rw [cluster, h, cluster]

theorem engine_setEngine (s : State) (e k : Nat) (x : Engine) :
    engine (setEngine s e x) k = if k = e then x else engine s k := sget_sset ..

theorem cluster_setCluster (s : State) (c k : Nat) (x : Cluster) :
    cluster (setCluster s c x) k = if k = c then x else cluster s k := sget_sset ..

theorem channel_setChannel_self (s : State) (c ch : Nat) (x : Channel) : channel (setChannel s c ch x) c ch = x := by
  simp [channel, setChannel, cluster_setCluster]

theorem channel_congr {s t : State} (h : t.jx.clusters = s.jx.clusters) (c ch : Nat) : channel t c ch = channel s c ch := by
  rw [channel, cluster_congr h, channel]

/-- A field that starts at bit 0 and holds the whole number is that number. -/
theorem fld_zero_of_lt {n len : Nat} {w : BitVec n} (h : w.toNat < 2 ^ len) : fld w 0 len = w.toNat := by
  rw [fld, Nat.shiftRight_zero, Nat.mod_eq_of_lt h]

/-- The bits past those that hold the number are 0. -/
theorem fld_eq_zero_of_lt {n lo len : Nat} {w : BitVec n} (h : w.toNat < 2 ^ lo) : fld w lo len = 0 := by
  rw [fld, Nat.shiftRight_eq_div_pow, Nat.div_eq_of_lt h, Nat.zero_mod]

/-- F10 names a shared register in its low 6 bits (07 Table 7-3). -/
theorem fld_shared {f : BitVec 10} (h : f.toNat < 64) : fld f 6 4 = 0 ∧ fld f 0 6 = f.toNat :=
  ⟨fld_eq_zero_of_lt (lo := 6) h, fld_zero_of_lt (len := 6) h⟩

/-! ## The state in which a body runs (07 R152, R154) -/

/-- The engine has noted the issue and the PC has advanced. -/
def issuing (s : State) (n : Nat) : State := setPc (noteIssue s n) n ((thread s n).pc + 4)

theorem issueInstr_of_body {s t : State} {th : BitVec 10} {clean : Bool} {body : State → Option State}
    (h : CanIssue s th) (hclean : clean = true) (hbody : body (issuing s th.toNat) = some t) :
    issueInstr s th.toNat clean body = t := by
  obtain ⟨hmay, hpc⟩ := h
  have hrun : body (setPc (noteIssue s th.toNat) th.toNat ((thread s th.toNat).pc + 4)) = some t := hbody
  simp only [issueInstr, hmay, hpc, hclean, hrun, Bool.not_true, Bool.or_self, Bool.false_eq_true, if_false]

theorem thread_issuing (s : State) (n m : Nat) :
    thread (issuing s n) m = if m = n then { thread s n with pc := (thread s n).pc + 4 } else thread s m :=
  thread_setThread ..

@[simp] theorem thread_issuing_self (s : State) (n : Nat) :
    thread (issuing s n) n = { thread s n with pc := (thread s n).pc + 4 } := by
  rw [thread_issuing, if_pos rfl]

@[simp] theorem getReg_issuing (s : State) (n m : Nat) (r : BitVec 5) : getReg (issuing s n) m r = getReg s m r := by
  refine getReg_congr ?_ r
  rw [thread_issuing]
  split
  case isTrue h => rw [h]
  case isFalse => rfl

@[simp] theorem getShared_issuing (s : State) (n k : Nat) : getShared (issuing s n) n k = getShared s n k := by
  have hengine : engine (issuing s n) (thEngine n) = _ := engine_setEngine s (thEngine n) (thEngine n) _
  rw [if_pos rfl] at hengine
  rw [getShared, hengine, getShared]

@[simp] theorem cluster_issuing (s : State) (n c : Nat) : cluster (issuing s n) c = cluster s c := rfl

@[simp] theorem channel_issuing (s : State) (n c ch : Nat) : channel (issuing s n) c ch = channel s c ch := rfl

/-! ## What the issue and a register write leave -/

/-- The threads of `u` are those of the body's start; beside them the engine's note and the clusters may differ. -/
def Noted (s u : State) (th : BitVec 10) : Prop :=
  u.jx.threads = (issuing s th.toNat).jx.threads ∧ OnlyIssued s u th ∧ OutsideJutex s u

/-- The threads that a register write of the issuing thread leaves. -/
theorem setReg_of_threads {s u : State} {th : BitVec 10} (h : u.jx.threads = (issuing s th.toNat).jx.threads)
    (rd : BitVec 5) (v : BitVec 64) :
    PcNext s (setReg u th.toNat rd v) th ∧ WroteReg s (setReg u th.toNat rd v) th rd v ∧
      OtherThreads s (setReg u th.toNat rd v) th := by
  have hthread := thread_congr h
  refine ⟨?_, fun r => ?_, fun n hn => ?_⟩
  · simp [PcNext, hthread]
  · rw [getReg_setReg, getReg_congr (congrArg Thread.regs (hthread _)), getReg_issuing]
  · rw [thread_setReg_ne _ _ _ hn, hthread, thread_issuing, if_neg hn]

theorem onlyIssued_congr {s u t : State} {th : BitVec 10} (h : OnlyIssued s u th) (he : t.jx.engines = u.jx.engines) :
    OnlyIssued s t th := by
  have hengine := engine_congr he
  obtain ⟨hother, hown⟩ := h
  exact ⟨fun e hne => (hengine e).trans (hother e hne), by rwa [hengine]⟩

theorem outsideJutex_setReg {s u : State} (h : OutsideJutex s u) (n : Nat) (r : BitVec 5) (v : BitVec 64) :
    OutsideJutex s (setReg u n r v) := by
  unfold setReg
  split <;> exact h

theorem noted_issuing (s : State) (th : BitVec 10) : Noted s (issuing s th.toNat) th := by
  refine ⟨rfl, ⟨fun e he => ?_, ?_⟩, rfl⟩
  · exact (engine_setEngine ..).trans (if_neg he)
  · have hengine : engine (issuing s th.toNat) (thEngine th.toNat) = _ :=
      engine_setEngine s (thEngine th.toNat) (thEngine th.toNat) _
    rw [if_pos rfl] at hengine
    rw [hengine]

theorem noted_noteLoad {s u : State} {th : BitVec 10} (h : Noted s u th) : Noted s (noteLoad u th.toNat) th := by
  obtain ⟨hthreads, ⟨hother, hown⟩, hout⟩ := h
  refine ⟨hthreads, ⟨fun e he => ?_, ?_⟩, hout⟩
  · exact ((engine_setEngine ..).trans (if_neg he)).trans (hother e he)
  · have hengine : engine (noteLoad u th.toNat) (thEngine th.toNat) = _ :=
      engine_setEngine u (thEngine th.toNat) (thEngine th.toNat) _
    rw [if_pos rfl] at hengine
    rw [hengine]
    exact hown

theorem noted_setCluster {s u : State} {th : BitVec 10} {c : Nat} {x : Cluster} (h : Noted s u th) :
    Noted s (setCluster u c x) th := h

/-- A register write of the issuing thread, after an issue that touched clusters at most. -/
theorem setReg_of_noted {s u : State} {th : BitVec 10} (h : Noted s u th) (rd : BitVec 5) (v : BitVec 64) :
    PcNext s (setReg u th.toNat rd v) th ∧ WroteReg s (setReg u th.toNat rd v) th rd v ∧
      OtherThreads s (setReg u th.toNat rd v) th ∧ OnlyIssued s (setReg u th.toNat rd v) th ∧
      (setReg u th.toNat rd v).jx.clusters = u.jx.clusters ∧ OutsideJutex s (setReg u th.toNat rd v) := by
  obtain ⟨hthreads, hissued, hout⟩ := h
  obtain ⟨hpc, hreg, hother⟩ := setReg_of_threads hthreads rd v
  exact ⟨hpc, hreg, hother, onlyIssued_congr hissued (by simp), by simp, outsideJutex_setReg hout ..⟩

/-! ## Instructions that write a register (07 Table 7-3) -/

theorem aluOp_of_canIssue {s : State} {th : BitVec 10} (h : CanIssue s th) (rd rs1 rs2 : BitVec 5)
    (op : BitVec 64 → BitVec 64 → BitVec 64) :
    aluOp s th.toNat rd rs1 rs2 0 op =
      setReg (issuing s th.toNat) th.toNat rd (op (getReg s th.toNat rs1) (getReg s th.toNat rs2)) :=
  issueInstr_of_body h rfl (by simp)

theorem immOp_of_canIssue {s : State} {th : BitVec 10} (h : CanIssue s th) (rd rs1 : BitVec 5) {clean : Bool}
    (hclean : clean = true) (op : BitVec 64 → BitVec 64) :
    immOp s th.toNat rd rs1 clean op = setReg (issuing s th.toNat) th.toNat rd (op (getReg s th.toNat rs1)) :=
  issueInstr_of_body h hclean (by simp)

/-! ## Loads (07 R155) -/

/-- Beside the issue, the engine notes that a thread waits on a scratch load (07 R152). -/
def loading (s : State) (n : Nat) (w : Window) : State :=
  match w with
  | .scratch _ => noteLoad (issuing s n) n
  | _ => issuing s n

theorem noted_loading (s : State) (th : BitVec 10) (w : Window) : Noted s (loading s th.toNat w) th := by
  cases w with
  | scratch => exact noted_noteLoad (noted_issuing s th)
  | bus | info | length | desc | frame | hits | hbm => exact noted_issuing s th

theorem clusters_loading (s : State) (n : Nat) (w : Window) : (loading s n w).jx.clusters = s.jx.clusters := by
  cases w <;> rfl

theorem loadOp_of_window {s : State} {th : BitVec 10} {rs1 : BitVec 5} {imm : BitVec 15} {n : Nat} {w : Window}
    (h : CanIssue s th)
    (hw : windowOf s (thCluster th.toNat) (getReg s th.toNat rs1 + imm.signExtend 64).toNat n = some w) (rd : BitVec 5) :
    loadOp s th.toNat rd rs1 imm n = setReg (loading s th.toNat w) th.toNat rd
      (BitVec.ofNat 64 (windowRead s (thCluster th.toNat) (heldWork (thread s th.toNat)) w n)) := by
  have hwindow : windowOf (issuing s th.toNat) (thCluster th.toNat)
      (getReg (issuing s th.toNat) th.toNat rs1 + imm15 imm).toNat n = some w := by
    rw [getReg_issuing]; exact hw
  have hheld : heldWork (thread (issuing s th.toNat) th.toNat) = heldWork (thread s th.toNat) := by
    rw [thread_issuing_self]; rfl
  have hread : windowRead (issuing s th.toNat) (thCluster th.toNat) (heldWork (thread s th.toNat)) w n =
      windowRead s (thCluster th.toNat) (heldWork (thread s th.toNat)) w n := rfl
  exact issueInstr_of_body h rfl (by simp only [hwindow, hheld, hread]; rfl)

/-! ## Shared registers (07 Table 7-3) -/

/-- Shared register `k` of a thread's engine takes a value; the others of the engine keep theirs. -/
theorem getShared_setShared (s : State) (n k j : Nat) (v : BitVec 64) :
    getShared (setShared s n k v) n j = if j % 64 = k % 64 then v else getShared s n j := by
  rw [getShared, setShared, engine_setEngine, if_pos rfl]
  exact sget_sset ..

theorem engine_setShared_ne (s : State) {n e : Nat} (k : Nat) (v : BitVec 64) (h : e ≠ thEngine n) :
    engine (setShared s n k v) e = engine s e := by
  rw [setShared, engine_setEngine, if_neg h]

/-- What an instruction that writes shared register `k` leaves, whatever it writes to `rd`. -/
theorem setShared_of_issuing (s : State) (th : BitVec 10) {k : Nat} (hk : k < 64) (v : Nat → BitVec 64) (rd : BitVec 5)
    (w : BitVec 64) :
    ∃ t, t = setReg (setShared (issuing s th.toNat) th.toNat k (v k)) th.toNat rd w ∧ PcNext s t th ∧
      WroteReg s t th rd w ∧ OtherThreads s t th ∧
      (∀ n, n < 64 → getShared t th.toNat n = if n = k then v n else getShared s th.toNat n) ∧
      (∀ e, e ≠ thEngine th.toNat → engine t e = engine s e) ∧ t.jx.clusters = s.jx.clusters ∧ OutsideJutex s t := by
  obtain ⟨u, hu⟩ : ∃ u, u = setShared (issuing s th.toNat) th.toNat k (v k) := ⟨_, rfl⟩
  have hthreads : u.jx.threads = (issuing s th.toNat).jx.threads := by rw [hu]; rfl
  have hclusters : u.jx.clusters = s.jx.clusters := by rw [hu]; rfl
  have hout : OutsideJutex s u := by rw [hu]; rfl
  have hengine (e : Nat) : engine (setReg u th.toNat rd w) e = engine u e := engine_congr (by simp) e
  obtain ⟨hpc, hreg, hother⟩ := setReg_of_threads hthreads rd w
  refine ⟨_, by rw [hu], hpc, hreg, hother, fun n hn => ?_, fun e he => ?_, by simpa, outsideJutex_setReg hout ..⟩
  · rw [getShared, hengine, ← getShared, hu, getShared_setShared, Nat.mod_eq_of_lt hn, Nat.mod_eq_of_lt hk,
      getShared_issuing]
    by_cases h : n = k <;> simp [h]
  · obtain ⟨-, ⟨hengines, -⟩, -⟩ := noted_issuing s th
    rw [hengine, hu, engine_setShared_ne _ _ _ he, hengines e he]

/-! ## Writes of the issuing thread beside its registers -/

theorem setThread_keeps {s u : State} {th : BitVec 10} {rd : BitVec 5} {v : BitVec 64} {x : Thread}
    (hx : x.regs = (thread u th.toNat).regs) (hreg : WroteReg s u th rd v) (hother : OtherThreads s u th) :
    WroteReg s (setThread u th.toNat x) th rd v ∧ OtherThreads s (setThread u th.toNat x) th := by
  refine ⟨fun r => ?_, fun n hn => ?_⟩
  · rw [getReg_congr (n := th.toNat) ((congrArg Thread.regs ((thread_setThread ..).trans (if_pos rfl))).trans hx), hreg]
  · rw [thread_setThread, if_neg hn, hother n hn]

/-- The issuing thread changes beside its registers, after a register write. -/
theorem setThread_of_setReg (s : State) (th : BitVec 10) (rd : BitVec 5) (v : BitVec 64) {x : Thread}
    (hx : x.regs = (thread (setReg (issuing s th.toNat) th.toNat rd v) th.toNat).regs) :
    ∃ t, t = setThread (setReg (issuing s th.toNat) th.toNat rd v) th.toNat x ∧ thread t th.toNat = x ∧
      WroteReg s t th rd v ∧ OtherThreads s t th ∧ OnlyIssued s t th ∧ t.jx.clusters = s.jx.clusters ∧ OutsideJutex s t := by
  obtain ⟨-, hreg, hother, hissued, hclusters, hout⟩ := setReg_of_noted (noted_issuing s th) rd v
  obtain ⟨hreg', hother'⟩ := setThread_keeps hx hreg hother
  exact ⟨_, rfl, (thread_setThread ..).trans (if_pos rfl), hreg', hother', hissued, hclusters, hout⟩

/-- The issuing thread changes beside its registers. -/
theorem setThread_of_issuing (s : State) (th : BitVec 10) {x : Thread} (hpc : x.pc = (thread s th.toNat).pc + 4)
    (hx : x.regs = (thread s th.toNat).regs) :
    ∃ t, t = setThread (issuing s th.toNat) th.toNat x ∧ PcNext s t th ∧ thread t th.toNat = x ∧
      WroteReg s t th 0 0 ∧ OtherThreads s t th ∧ OnlyIssued s t th ∧ t.jx.clusters = s.jx.clusters ∧ OutsideJutex s t := by
  obtain ⟨t, ht, hthread, heffect⟩ := setThread_of_setReg s th 0 0 (x := x) (by rw [setReg_zero, thread_issuing_self, hx])
  exact ⟨t, by rw [ht, setReg_zero], by rw [PcNext, hthread, hpc], hthread, heffect⟩

/-! ## Branches and jumps (07 Table 7-3) -/

/-- A legal jump after a write of the link register. -/
theorem jump_of_setReg (s : State) (th : BitVec 10) (rd : BitVec 5) (v : BitVec 64) {pc : BitVec 64}
    (hpc : pcLegal pc = true) :
    ∃ t, jump (setReg (issuing s th.toNat) th.toNat rd v) th.toNat pc = some t ∧ (thread t th.toNat).pc = pc ∧
      WroteReg s t th rd v ∧ OtherThreads s t th ∧ OnlyIssued s t th ∧ t.jx.clusters = s.jx.clusters ∧ OutsideJutex s t := by
  obtain ⟨t, ht, hthread, heffect⟩ := setThread_of_setReg s th rd v
    (x := { thread (setReg (issuing s th.toNat) th.toNat rd v) th.toNat with pc := pc }) rfl
  exact ⟨t, (if_pos hpc).trans (congrArg some ht.symm), congrArg Thread.pc hthread, heffect⟩

theorem branchOp_of_canIssue {s : State} {th : BitVec 10} {rs1 rs2 : BitVec 5} {f : BitVec 10}
    {take : BitVec 64 → BitVec 64 → Bool} {taken : Bool} (h : CanIssue s th)
    (htake : take (getReg s th.toNat rs1) (getReg s th.toNat rs2) = taken)
    (hlegal : taken = true → pcLegal ((thread s th.toNat).pc + 4 * f.signExtend 64) = true) :
    ∃ t, branchOp s th.toNat 0 rs1 rs2 f take = t ∧
      (thread t th.toNat).pc = (thread s th.toNat).pc + 4 * (if taken then f.signExtend 64 else 1) ∧
      WroteReg s t th 0 0 ∧ OtherThreads s t th ∧ OnlyIssued s t th ∧ t.jx.clusters = s.jx.clusters ∧ OutsideJutex s t := by
  cases taken with
  | true =>
    obtain ⟨t, ht, heffect⟩ := jump_of_setReg s th 0 0 (hlegal rfl)
    rw [setReg_zero] at ht
    refine ⟨t, ?_, heffect⟩
    unfold branchOp
    exact issueInstr_of_body h rfl (by rw [getReg_issuing, getReg_issuing, htake]; exact ht)
  | false =>
    have heffect := setReg_of_noted (noted_issuing s th) 0 0
    rw [setReg_zero] at heffect
    refine ⟨_, ?_, heffect⟩
    unfold branchOp
    exact issueInstr_of_body h rfl (by rw [getReg_issuing, getReg_issuing, htake]; rfl)

/-! ## Scratch (07 R155, Table 7-2) -/

theorem scratchPut_eq_memPut (m : Sparse Byte) (a : Nat) (bs : List Byte) : scratchPut m a bs = memPut m a bs := by
  induction bs generalizing m a with
  | nil => rfl
  | cons b bs ih => exact ih ..

theorem getD_leBytes {n i : Nat} (v : Nat) (h : i < n) : (leBytes n v).getD i 0 = BitVec.ofNat 8 (v / 2 ^ (8 * i)) := by
  induction n generalizing v i with
  | zero => omega
  | succ n ih =>
    cases i with
    | zero => simp [leBytes]
    | succ i =>
      rw [leBytes, List.getD_cons_succ, ih _ (by omega), Nat.div_div_eq_div_mul, Nat.mul_succ, Nat.pow_add, Nat.mul_comm]

/-- The bytes of a number are those of its low bits. -/
theorem leBytes_mod (n v : Nat) : leBytes n (v % 2 ^ (8 * n)) = leBytes n v := by
  rw [show (2 : Nat) ^ (8 * n) = 256 ^ n from Nat.pow_mul ..]
  induction n generalizing v with
  | zero => rfl
  | succ n ih =>
    have hlow : BitVec.ofNat 8 (v % 256 ^ (n + 1)) = BitVec.ofNat 8 v :=
      BitVec.eq_of_toNat_eq (Nat.mod_mod_of_dvd v (Dvd.intro_left _ rfl))
    rw [leBytes, leBytes, hlow, Nat.pow_succ', Nat.mod_mul_right_div_self, ih]

/-- Scratch after `n` bytes of `v` at `a`. -/
theorem scratch_scratchWrite (s : State) (c a n v b : Nat) :
    sget 0 (cluster (scratchWrite s c a (leBytes n v)) c).scratch b =
      if a ≤ b ∧ b < a + n then BitVec.ofNat 8 (v / 2 ^ (8 * (b - a))) else sget 0 (cluster s c).scratch b := by
  have hput := sget_memPut (cluster s c).scratch a b (leBytes n v)
  rw [← scratchPut_eq_memPut, length_leBytes] at hput
  rw [scratchWrite, cluster_setCluster, if_pos rfl]
  refine hput.trans (ite_congr rfl (fun hb => ?_) fun _ => rfl)
  exact getD_leBytes v (by omega)

theorem cluster_scratchWrite_ne (s : State) {c k : Nat} (a : Nat) (bs : List Byte) (h : k ≠ c) :
    cluster (scratchWrite s c a bs) k = cluster s k := by
  rw [scratchWrite, cluster_setCluster, if_neg h]

theorem windowOf_scratch (s : State) (c : Nat) {a n : Nat} (halign : a % n = 0) (hin : a + n ≤ 2097152) :
    windowOf s c a n = some (.scratch a) := by
  simp [windowOf, halign, scratchSize, hin]

/-- What an instruction that writes `n` bytes of scratch leaves, whatever it writes to `rd`. -/
theorem scratchWrite_of_issuing (s : State) (th : BitVec 10) (a n v : Nat) (rd : BitVec 5) (w : BitVec 64) :
    ∃ t, t = setReg (scratchWrite (issuing s th.toNat) (thCluster th.toNat) a (leBytes n v)) th.toNat rd w ∧
      PcNext s t th ∧ WroteReg s t th rd w ∧ OtherThreads s t th ∧
      (∀ b, sget 0 (cluster t (thCluster th.toNat)).scratch b =
        if a ≤ b ∧ b < a + n then BitVec.ofNat 8 (v / 2 ^ (8 * (b - a)))
        else sget 0 (cluster s (thCluster th.toNat)).scratch b) ∧
      (∀ k, k ≠ thCluster th.toNat → cluster t k = cluster s k) ∧ OnlyIssued s t th ∧ OutsideJutex s t := by
  have hnoted : Noted s (scratchWrite (issuing s th.toNat) (thCluster th.toNat) a (leBytes n v)) th :=
    noted_setCluster (noted_issuing s th)
  obtain ⟨hpc, hreg, hother, hissued, hclusters, hout⟩ := setReg_of_noted hnoted rd w
  refine ⟨_, rfl, hpc, hreg, hother, fun b => ?_, fun k hk => ?_, hissued, hout⟩
  · rw [cluster_congr hclusters, scratch_scratchWrite, cluster_issuing]
  · rw [cluster_congr hclusters, cluster_scratchWrite_ne _ _ _ hk, cluster_issuing]

theorem storeOp_of_scratch {s : State} {th : BitVec 10} {rs1 : BitVec 5} {f : BitVec 10} {n a : Nat} (h : CanIssue s th)
    (ha : a = (getReg s th.toNat rs1 + f.signExtend 64).toNat) (halign : a % n = 0) (hin : a + n ≤ 2097152)
    (rs2 : BitVec 5) :
    storeOp s th.toNat 0 rs1 rs2 f n =
      scratchWrite (issuing s th.toNat) (thCluster th.toNat) a (leBytes n (getReg s th.toNat rs2).toNat) := by
  have hwindow : windowOf (issuing s th.toNat) (thCluster th.toNat) (getReg s th.toNat rs1 + imm10 f).toNat n =
      some (.scratch a) := by
    rw [imm10, ← ha]
    exact windowOf_scratch _ _ halign hin
  refine issueInstr_of_body h rfl ?_
  simp only [hwindow, windowWrite, windowStore, getReg_issuing, leBytes_mod]

theorem atomicOp_of_scratch {s : State} {th : BitVec 10} {rs1 : BitVec 5} {a : Nat} (h : CanIssue s th)
    (ha : a = (getReg s th.toNat rs1).toNat) (halign : a % 8 = 0) (hin : a + 8 ≤ 2097152)
    (new : State → BitVec 64 → BitVec 64) (rd : BitVec 5) {old : BitVec 64}
    (hold : old = BitVec.ofNat 64 (leNat (scratchRead s (thCluster th.toNat) a 8))) :
    atomicOp s th.toNat rd rs1 true new =
      setReg (scratchWrite (issuing s th.toNat) (thCluster th.toNat) a (leBytes 8 (new (issuing s th.toNat) old).toNat))
        th.toNat rd old := by
  have hread : BitVec.ofNat 64 (leNat (scratchRead (issuing s th.toNat) (thCluster th.toNat) a 8)) = old := hold.symm
  have hlegal : ¬ (a % 8 ≠ 0 ∨ scratchSize < a + 8) := by rw [scratchSize]; omega
  refine issueInstr_of_body h rfl ?_
  simp only [getReg_issuing, ← ha, hread, if_neg hlegal]

end Sys2Proof.Machine.Laws
end

section
/-!
CLAIMS. The instructions of the Jutex threads and the events of the clusters (07).
-/

namespace Sys2Proof.Proofs

open Sys2Proof Sys2Proof.Machine Sys2Proof.Machine.Laws

/-- Settles O15: each instruction is a register write of the value that Table 7-3 gives, in the state of its issue. -/
theorem jutexArithmeticWritesResult : Obligations.JutexArithmeticWritesResult := by
  intro s c th rd rs1 rs2 i15 i20 f v h hc
  suffices hexec : exec c s = .next (setReg (issuing s th.toNat) th.toNat rd v) from
    ⟨_, hexec, setReg_of_noted (noted_issuing s th) rd v⟩
  have hnext {t u : State} (e : t = u) : Host.Outcome.next (φ := Fault) (ρ := Refusal) t = .next u := congrArg _ e
  have halu op := hnext (aluOp_of_canIssue h rd rs1 rs2 op)
  have himm clean op (hclean : clean = true) := hnext (immOp_of_canIssue h rd rs1 hclean op)
  obtain ⟨rfl, rfl⟩ | ⟨rfl, rfl⟩ | ⟨rfl, rfl⟩ | ⟨rfl, rfl⟩ | ⟨rfl, rfl⟩ | ⟨rfl, rfl⟩ | ⟨rfl, rfl⟩ | ⟨rfl, rfl⟩ |
    ⟨rfl, rfl⟩ | ⟨rfl, rfl⟩ | ⟨rfl, rfl⟩ | ⟨rfl, rfl⟩ | ⟨rfl, rfl⟩ | ⟨rfl, hi, rfl⟩ | ⟨rfl, hi, rfl⟩ | ⟨rfl, rfl⟩ |
    ⟨rfl, hf, rfl⟩ | ⟨rfl, rfl⟩ | ⟨rfl, rfl⟩ := hc
  · exact halu (· + ·)
  · exact halu (· - ·)
  · exact halu (· &&& ·)
  · exact halu (· ||| ·)
  · exact halu (· ^^^ ·)
  · exact halu (fun a b => a <<< (b.toNat % 64))
  · exact halu (fun a b => a >>> (b.toNat % 64))
  · exact halu (fun a b => a.sshiftRight (b.toNat % 64))
  · exact halu (· * ·)
  · exact halu (fun a b => if a < b then 1 else 0)
  · exact halu (fun a b => if a.slt b then 1 else 0)
  · exact himm true (· + imm15 i15) rfl
  · exact himm true (· &&& imm15 i15) rfl
  · rw [← Nat.mod_eq_of_lt hi]
    exact himm _ (· <<< (i15.toNat % 64)) (beq_iff_eq.2 (fld_eq_zero_of_lt hi))
  · rw [← Nat.mod_eq_of_lt hi]
    exact himm _ (· >>> (i15.toNat % 64)) (beq_iff_eq.2 (fld_eq_zero_of_lt hi))
  · have hlui : imm20 i20 * (4096 : BitVec 64) = i20.signExtend 64 <<< 12 := by
      rw [BitVec.shiftLeft_eq_mul_twoPow]; rfl
    exact hnext (issueInstr_of_body h rfl (by rw [hlui]))
  · obtain ⟨hhigh, hlow⟩ := fld_shared hf
    exact hnext (issueInstr_of_body h (by simp [hhigh]) (by rw [getShared_issuing, hlow]))
  · have htime : BitVec.ofNat 64 (clusterTime s) = BitVec.ofNat 64 (now s / 8) :=
      BitVec.eq_of_toNat_eq (Nat.mod_mod ..)
    exact hnext (issueInstr_of_body h rfl (by rw [← htime]; rfl))
  · rw [setReg_zero]
    exact hnext (issueInstr_of_body h rfl rfl)

/-- Settles O16: a load is a register write of what its window reads; MTS, AADDS and TCMP each write one record of the
engine, in the state of their issue. -/
theorem jutexLoadsAndSharedRegisters : Obligations.JutexLoadsAndSharedRegisters := by
  refine ⟨fun s c th rd rs1 imm n w h hc hw => ?load, fun s th rs1 f h hf => ?mts, fun s th rd rs1 f h hf => ?aadds,
    fun s th rs1 h => ?tcmp⟩
  case load =>
    have hexec : exec c s = .next (loadOp s th.toNat rd rs1 imm n) := by
      obtain ⟨rfl, rfl⟩ | ⟨rfl, rfl⟩ | ⟨rfl, rfl⟩ | ⟨rfl, rfl⟩ := hc <;> rfl
    rw [hexec, loadOp_of_window h hw, ← clusters_loading s th.toNat w]
    exact ⟨_, rfl, setReg_of_noted (noted_loading s th w) rd _⟩
  case mts =>
    obtain ⟨hhigh, hlow⟩ := fld_shared hf
    obtain ⟨t, ht, heffect⟩ := setShared_of_issuing s th hf (fun _ => getReg s th.toNat rs1) 0 0
    exact ⟨t, congrArg _ (issueInstr_of_body h (by simp [hhigh]) (by rw [ht, setReg_zero, hlow, getReg_issuing])), heffect⟩
  case aadds =>
    obtain ⟨hhigh, hlow⟩ := fld_shared hf
    obtain ⟨t, ht, heffect⟩ := setShared_of_issuing s th hf (fun n => getShared s th.toNat n + getReg s th.toNat rs1) rd
      (getShared s th.toNat f.toNat)
    exact ⟨t, congrArg _ (issueInstr_of_body h (by simp [hhigh]) (by rw [ht, hlow, getReg_issuing, getShared_issuing])),
      heffect⟩
  case tcmp =>
    obtain ⟨t, ht, hpc, hthread, heffect⟩ := setThread_of_issuing s th
      (x := { thread (issuing s th.toNat) th.toNat with tcmp := getReg s th.toNat rs1 }) (by simp) (by simp)
    exact ⟨t, congrArg _ (issueInstr_of_body h rfl (by rw [ht, getReg_issuing])), hpc, by rw [hthread], heffect⟩

/-- Settles O18: a branch is taken or falls through by its comparison, and a jump reads its target before it writes rd. -/
theorem jutexBranchesAndJumps : Obligations.JutexBranchesAndJumps := by
  refine ⟨fun s c th rs1 rs2 f taken h hc hlegal => ?branch, fun s c th rd rs1 imm target h hc hlegal => ?jump⟩
  case branch =>
    obtain ⟨take, hexec, htake⟩ : ∃ take, exec c s = .next (branchOp s th.toNat 0 rs1 rs2 f take) ∧
        take (getReg s th.toNat rs1) (getReg s th.toNat rs2) = taken := by
      obtain ⟨rfl, rfl⟩ | ⟨rfl, rfl⟩ | ⟨rfl, rfl⟩ | ⟨rfl, rfl⟩ := hc
      · exact ⟨(· == ·), rfl, beq_eq_decide ..⟩
      · exact ⟨(· != ·), rfl, (decide_not ..).symm⟩
      · exact ⟨BitVec.slt, rfl, rfl⟩
      · exact ⟨fun a b => decide (a < b), rfl, rfl⟩
    obtain ⟨t, ht, heffect⟩ := branchOp_of_canIssue h htake hlegal
    exact ⟨t, hexec.trans (congrArg _ ht), heffect⟩
  case jump =>
    obtain ⟨t, ht, heffect⟩ := jump_of_setReg s th rd ((thread s th.toNat).pc + 4) hlegal
    refine ⟨t, ?_, heffect⟩
    obtain ⟨rfl, rfl⟩ | ⟨rfl, rfl⟩ := hc
    · have hjal : doJal s th rd imm = t := by
        unfold doJal
        exact issueInstr_of_body h rfl ht
      exact congrArg _ hjal
    · have hjr : doJr s th rd rs1 0 0 = t := by
        unfold doJr
        exact issueInstr_of_body h rfl (by rw [getReg_issuing]; exact ht)
      exact congrArg _ hjr

/-- Settles O17: both forms are one write of little-endian bytes to the scratch of the own cluster. -/
theorem jutexStoresWriteScratch : Obligations.JutexStoresWriteScratch := by
  refine ⟨fun s c th rs1 rs2 f n a h hc ha halign hin => ?store,
    fun s c th rd rs1 rs2 old v a h hold hc ha halign hin => ?atomic⟩
  case store =>
    obtain ⟨t, ht, heffect⟩ := scratchWrite_of_issuing s th a n (getReg s th.toNat rs2).toNat 0 0
    have hexec : exec c s = .next (storeOp s th.toNat 0 rs1 rs2 f n) := by
      obtain ⟨rfl, rfl⟩ | ⟨rfl, rfl⟩ | ⟨rfl, rfl⟩ | ⟨rfl, rfl⟩ := hc <;> rfl
    exact ⟨t, hexec.trans (congrArg _ (by rw [storeOp_of_scratch h ha halign hin, ht, setReg_zero])), heffect⟩
  case atomic =>
    obtain ⟨t, ht, heffect⟩ := scratchWrite_of_issuing s th a 8 v.toNat rd old
    refine ⟨t, ?_, heffect⟩
    obtain ⟨new, hexec, hnew⟩ : ∃ new, exec c s = .next (atomicOp s th.toNat rd rs1 true new) ∧
        new (issuing s th.toNat) old = v := by
      obtain ⟨rfl, rfl⟩ | ⟨rfl, rfl⟩ := hc
      · exact ⟨fun u o => o + getReg u th.toNat rs2, rfl, by simp only [getReg_issuing]⟩
      · exact ⟨fun u o => if o = getReg u th.toNat rd then getReg u th.toNat rs2 else o, rfl,
          by simp only [getReg_issuing]⟩
    rw [hexec, atomicOp_of_scratch h ha halign hin new rd hold, hnew, ht]

end Sys2Proof.Proofs
end

section
/-!
SUPPORT. Threads that another thread starts and sets up (07 R153, R158).
-/

namespace Sys2Proof.Machine.Laws

open Sys2Proof Sys2Proof.Machine

theorem runnable_of_canIssue {s : State} {th : BitVec 10} (h : CanIssue s th) : (thread s th.toNat).state = .runnable := by
  obtain ⟨hmay, -⟩ := h
  simp only [mayIssue, Bool.and_eq_true, beq_iff_eq] at hmay
  obtain ⟨⟨⟨hrun, -⟩, -⟩, -⟩ := hmay
  exact hrun

/-- Where no cluster changes either, threads and engines alone do. -/
theorem eq_of_outsideJutex {s t : State} (h : OutsideJutex s t) (hc : t.jx.clusters = s.jx.clusters) :
    { t with jx := { t.jx with threads := s.jx.threads, engines := s.jx.engines } } = s := by
  rw [OutsideJutex, ← hc] at h
  exact h

/-! ## Masks -/

/-- A sum of distinct powers of two is the mask of their exponents. -/
theorem testBit_sum_two_pow (p : Nat → Bool) (n i : Nat) :
    (((List.range n).filter p).map (2 ^ ·)).sum < 2 ^ n ∧
      (((List.range n).filter p).map (2 ^ ·)).sum.testBit i = (decide (i < n) && p i) := by
  induction n with
  | zero => simp
  | succ n ih =>
    obtain ⟨hlt, hbit⟩ := ih
    simp only [List.range_succ, List.filter_append, List.map_append, List.sum_append]
    generalize (((List.range n).filter p).map (2 ^ ·)).sum = m at hlt hbit
    by_cases hp : p n
    · simp only [hp, List.filter_cons_of_pos, List.filter_nil, List.map_cons, List.map_nil, List.sum_cons, List.sum_nil,
        Nat.add_zero]
      refine ⟨by rw [Nat.pow_succ]; omega, ?_⟩
      rw [Nat.add_comm]
      obtain hi | rfl | hi := Nat.lt_trichotomy i n
      · rw [Nat.testBit_two_pow_add_gt hi, hbit]
        simp [hi, Nat.lt_succ_of_lt hi]
      · rw [Nat.testBit_two_pow_add_eq, hbit]
        simp [hp]
      · rw [Nat.testBit_lt_two_pow]
        · simp; omega
        · calc 2 ^ n + m < 2 ^ (n + 1) := by rw [Nat.pow_succ]; omega
            _ ≤ 2 ^ i := Nat.pow_le_pow_right (by decide) hi
    · simp only [hp, Bool.false_eq_true, not_false_eq_true, List.filter_cons_of_neg, List.filter_nil, List.map_nil,
        List.sum_nil, Nat.add_zero]
      refine ⟨hlt.trans (Nat.pow_lt_pow_right (by decide) (Nat.lt_succ_self n)), ?_⟩
      rw [hbit]
      by_cases hi : i = n
      · simp [hi, hp]
      · rw [show decide (i < n + 1) = decide (i < n) from decide_eq_decide.2 (by omega)]

/-! ## START (07 R158) -/

/-- The threads of engine `e` that a list names start. -/
def startAll (s : State) (e : Nat) (l : List Nat) : State := l.foldl (fun s i => startOne s (e * 8 + i)) s

theorem startAll_eq (s : State) (e : Nat) (l : List Nat) :
    ∃ T, startAll s e l = { s with jx := { s.jx with threads := T } } := by
  unfold startAll
  induction l generalizing s with
  | nil => exact ⟨s.jx.threads, rfl⟩
  | cons i l ih =>
    obtain ⟨T, hT⟩ := ih (startOne s (e * 8 + i))
    exact ⟨T, hT⟩

theorem thread_startAll (s : State) (e m : Nat) (l : List Nat) :
    thread (startAll s e l) m =
      if ∃ i ∈ l, m = e * 8 + i then { thread s m with state := .runnable } else thread s m := by
  unfold startAll
  induction l generalizing s with
  | nil => simp
  | cons i l ih =>
    rw [List.foldl_cons, ih, startOne, thread_setThread]
    by_cases hm : m = e * 8 + i
    · subst hm; simp
    · simp [hm]

/-- Seen from thread 0 of the engine. -/
theorem state_startAll {n : Nat} (hzero : n % 8 = 0) (s : State) (i : Nat) (l : List Nat) :
    (thread (startAll s (thEngine n) l) (n + i)).state = if i ∈ l then .runnable else (thread s (n + i)).state := by
  have hiff : (∃ j ∈ l, n + i = thEngine n * 8 + j) ↔ i ∈ l := by
    constructor
    · rintro ⟨j, hj, hplace⟩
      rw [thEngine] at hplace
      rwa [show i = j by omega]
    · exact fun hi => ⟨i, hi, by rw [thEngine]; omega⟩
  rw [thread_startAll, if_congr hiff rfl rfl]
  split <;> rfl

/-- What START names: the threads 1 to 7 of the mask that are STOPPED or FAULTED. -/
theorem startable_issuing {s : State} {th : BitVec 10} (hzero : th.toNat % 8 = 0) (i : Nat) :
    startable (issuing s th.toNat) (thEngine th.toNat) i = true ↔
      i ≠ 0 ∧ ((thread s (th.toNat + i)).state = .stopped ∨ (thread s (th.toNat + i)).state = .faulted) := by
  have hplace : thEngine th.toNat * 8 + i = th.toNat + i := by rw [thEngine]; omega
  simp only [startable, hplace, Bool.and_eq_true, Bool.or_eq_true, bne_iff_ne, beq_iff_eq, thread_issuing]
  refine and_congr_right fun hi => ?_
  rw [if_neg (by omega)]

/-- START of thread 0 of an engine, and the mask that it answers. -/
theorem doStart_of_canIssue {s : State} {th : BitVec 10} (h : CanIssue s th) (hzero : th.toNat % 8 = 0) (rd rs1 : BitVec 5) :
    ∃ l, (∀ i, i ∈ l ↔ (1 ≤ i ∧ i < 8 ∧ (getReg s th.toNat rs1).getLsbD i = true ∧
        ((thread s (th.toNat + i)).state = .stopped ∨ (thread s (th.toNat + i)).state = .faulted))) ∧
      (∀ i, (l.map (2 ^ ·)).sum.testBit i = decide (i ∈ l)) ∧
      doStart s th rd rs1 0 0 = setReg (startAll (issuing s th.toNat) (thEngine th.toNat) l) th.toNat rd
        (BitVec.ofNat 64 ((l.map (2 ^ ·)).sum)) := by
  refine ⟨(List.range 8).filter (fun i => (getReg s th.toNat rs1).getLsbD i &&
    startable (issuing s th.toNat) (thEngine th.toNat) i), fun i => ?_, fun i => ?_, ?_⟩
  · rw [List.mem_filter, List.mem_range, Bool.and_eq_true, startable_issuing hzero]
    constructor
    · rintro ⟨hi, hmask, hi', hstate⟩
      exact ⟨by omega, hi, hmask, hstate⟩
    · rintro ⟨hi, hi', hmask, hstate⟩
      exact ⟨hi', hmask, by omega, hstate⟩
  · obtain ⟨-, hbit⟩ := testBit_sum_two_pow (fun i => (getReg s th.toNat rs1).getLsbD i &&
      startable (issuing s th.toNat) (thEngine th.toNat) i) 8 i
    rw [hbit]
    simp [List.mem_filter]
  · refine issueInstr_of_body h rfl ?_
    rw [getReg_issuing]
    exact if_neg (not_not_intro hzero)

/-! ## SETREG (07 R158) -/

/-- A number below 64 with bit 5 clear names a register, and is read back from the field of 5 bits. -/
theorem eq_ofNat_iff_of_clear {f : BitVec 10} (hf : f.toNat < 64) (hclear : ¬ f.getLsbD 5 = true) (r : BitVec 5) :
    r = BitVec.ofNat 5 f.toNat ↔ r.toNat = f.toNat := by
  rw [BitVec.getLsbD, Nat.testBit_eq_decide_div_mod_eq, decide_eq_true_eq] at hclear
  rw [← BitVec.toNat_inj, BitVec.toNat_ofNat, Nat.mod_eq_of_lt (by omega)]

/-- SETREG of thread 0 of an engine to a thread that is STOPPED or FAULTED. -/
theorem doSetreg_of_canIssue {s : State} {th : BitVec 10} {f : BitVec 10} {rs1 : BitVec 5} {n : Nat} (h : CanIssue s th)
    (hzero : th.toNat % 8 = 0) (hf : f.toNat < 64) (hn : n = th.toNat + (getReg s th.toNat rs1).toNat % 8)
    (hstate : (thread s n).state = .stopped ∨ (thread s n).state = .faulted) (rs2 : BitVec 5) :
    n ≠ th.toNat ∧ doSetreg s th 0 rs1 rs2 f =
      if f.getLsbD 5 then setThread (issuing s th.toNat) n { thread s n with pc := getReg s th.toNat rs2 }
      else setReg (issuing s th.toNat) n (BitVec.ofNat 5 f.toNat) (getReg s th.toNat rs2) := by
  have hne : n ≠ th.toNat := by
    rintro rfl
    rw [runnable_of_canIssue h] at hstate
    exact hstate.elim nofun nofun
  have hplace : thEngine th.toNat * 8 + fld (getReg s th.toNat rs1) 0 3 = n := by
    rw [hn, thEngine, fld, Nat.shiftRight_zero]; omega
  have hregister : BitVec.ofNat 5 (fld f 0 5) = BitVec.ofNat 5 f.toNat :=
    BitVec.eq_of_toNat_eq (by simp [fld])
  obtain ⟨hhigh, -⟩ := fld_shared hf
  refine ⟨hne, issueInstr_of_body h (by simp [hhigh]) ?_⟩
  simp only [getReg_issuing, hplace, hregister, thread_issuing, if_neg hne, if_neg (not_not_intro hzero), if_pos hstate,
    apply_ite some]

end Sys2Proof.Machine.Laws
end

section
/-!
CLAIMS. What the threads of an engine do to each other (07 R153, R158), and the order of their commits (07 R164).
-/

namespace Sys2Proof.Proofs

open Sys2Proof Sys2Proof.Machine Sys2Proof.Machine.Laws

/-- Settles O20: each of the three is a write of thread records of the own engine in the state of its issue. -/
theorem jutexThreadControl : Obligations.JutexThreadControl := by
  refine ⟨fun s th rs1 rs2 f n h hzero hf hn hstate => ?setreg, fun s th rd rs1 h hzero => ?start, fun s th h => ?halt⟩
  case setreg =>
    obtain ⟨hne, hset⟩ := doSetreg_of_canIssue h hzero hf hn hstate rs2
    obtain ⟨-, hissued, hout⟩ := noted_issuing s th
    by_cases hpc : f.getLsbD 5 = true
    · rw [if_pos hpc] at hset
      simp only [hpc, if_true]
      refine ⟨_, congrArg Host.Outcome.next hset, ?_, ⟨?_, fun r => ?_⟩, fun m hm hm' => ?_, hissued, eq_of_outsideJutex hout rfl⟩
      · rw [PcNext, thread_setThread, if_neg hne.symm, thread_issuing_self]
      · rw [thread_setThread, if_pos rfl]
      · exact getReg_congr (by rw [thread_setThread, if_pos rfl]) r
      · rw [thread_setThread, if_neg hm, thread_issuing, if_neg hm']
    · rw [if_neg hpc] at hset
      simp only [hpc]
      refine ⟨_, congrArg Host.Outcome.next hset, ?_, ⟨?_, fun r => ?_⟩, fun m hm hm' => ?_, onlyIssued_congr hissued (by simp),
        eq_of_outsideJutex (outsideJutex_setReg hout ..) (by simp; rfl)⟩
      · rw [PcNext, thread_setReg_ne _ _ _ hne.symm, thread_issuing_self]
      · simp [thread_issuing, hne]
      · rw [getReg_setReg, getReg_issuing]
        exact if_congr (and_congr_left' (eq_ofNat_iff_of_clear hf hpc r)) rfl rfl
      · rw [thread_setReg_ne _ _ _ hm, thread_issuing, if_neg hm']
  case start =>
    obtain ⟨l, hmem, hbit, hstart⟩ := doStart_of_canIssue h hzero rd rs1
    obtain ⟨-, hissued, hout⟩ := noted_issuing s th
    obtain ⟨T, hT⟩ := startAll_eq (issuing s th.toNat) (thEngine th.toNat) l
    have hissued' := onlyIssued_congr (t := startAll (issuing s th.toNat) (thEngine th.toNat) l) hissued (by rw [hT])
    have hout' : OutsideJutex s (startAll (issuing s th.toNat) (thEngine th.toNat) l) := by rw [hT]; exact hout
    refine ⟨_, congrArg Host.Outcome.next hstart, ?_, fun i hi hi' => ?_, fun hrd i hi => ?_,
      onlyIssued_congr hissued' (by simp), eq_of_outsideJutex (outsideJutex_setReg hout' ..) (by simp [hT]; rfl)⟩
    · simp only [PcNext, thread_setReg_fields, thread_startAll, apply_ite Thread.pc, ite_self, thread_issuing_self]
    · simp only [thread_setReg_fields, state_startAll hzero]
      rw [thread_issuing, if_neg (show th.toNat + i ≠ th.toNat by omega)]
      exact if_congr ((hmem i).trans (by simp [hi, hi'])) rfl rfl
    · rw [getReg_setReg, if_pos ⟨rfl, hrd⟩, BitVec.getLsbD_ofNat, hbit, decide_eq_true hi, Bool.true_and, decide_eq_true_eq]
      exact hmem i
  case halt =>
    obtain ⟨t, ht, hpc, hthread, -, hother, hissued, hclusters, hout⟩ := setThread_of_issuing s th
      (x := { thread (issuing s th.toNat) th.toNat with state := .stopped }) (by simp) (by simp)
    exact ⟨t, congrArg _ (issueInstr_of_body h rfl (by rw [ht])), hpc, by rw [hthread], hother, hissued,
      eq_of_outsideJutex hout hclusters⟩

/-! ## A message that waits (07 R164, R169) -/

/-- A channel whose ring an engine reset has emptied while a committed message waited for room, with thread 0 as owner. -/
def channelWithParked : Channel := { ring := [], owner := some 0, ext := false, results := [(9, none, none)] }

/-- After reset, thread 0 of engine 0 owns that channel, number 5 of cluster 0, and has a message staged. -/
def commitBehindParked : State :=
  setChannel (setThread State.reset 0 { resetThread 0 with owns := some 5, staging := 77 }) 0 5 channelWithParked

/-- Refutes O19: CHCOMMIT keeps the order of commits, so behind a committed message that waits for its ring, here one left by an
engine reset that emptied the ring, the staging buffer waits too and does not join the ring, though the ring has room (07 R164,
R169). -/
theorem not_jutexChannelsAndWaits : ¬ Obligations.JutexChannelsAndWaits := by
  unfold Obligations.JutexChannelsAndWaits
  rintro ⟨-, -, -, -, hcommit, -⟩
  have hissue : CanIssue commitBehindParked 0 := ⟨by decide +kernel, by decide +kernel⟩
  obtain ⟨t, hexec, -, -, -, -, hring⟩ := hcommit commitBehindParked 0 0 5 hissue (by decide +kernel) (by decide +kernel)
  cases hexec
  exact absurd hring (by decide +kernel)

end Sys2Proof.Proofs
end

section
/-!
SUPPORT. How the item of a worker ends: its ledger entry, its frame and the thread that held it (07 R168, R170, 13 R304, R306).
-/

namespace Sys2Proof.Machine.Laws

open Sys2Proof Sys2Proof.Machine

/-! ## Ledger entries (13 R303, R304) -/

theorem ledGet_ledPut {e : LedEntry} (h : e.state ≠ .free) (s : State) (i : Nat) : ledGet (ledPut s i e) i = some e := by
  simp [ledGet, ledPut, h, sfind_sput]

theorem ledMeta_ledPut (s : State) (i j : Nat) (e : LedEntry) : ledMeta (ledPut s i e) j = ledMeta s j := by
  simp [ledMeta, ledPut]

@[simp] theorem ledMeta_ledMetaSet (s : State) (i : Nat) (m : LedMeta) : ledMeta (ledMetaSet s i m) i = m :=
  sget_sset_self ..

@[simp] theorem ledPut_jx (s : State) (i : Nat) (e : LedEntry) : (ledPut s i e).jx = s.jx := by simp [ledPut]

/-- An entry whose status is fixed is DONE, and its result stays. -/
theorem ledFix_of_entry {s : State} {i : Nat} {e : LedEntry} (h : ledGet s i = some e) (status detail : BitVec 8) :
    ledGet (ledFix s i status detail) i = some { e with state := .done, status := status, detail := detail } ∧
      (ledMeta (ledFix s i status detail) i).result = (ledMeta s i).result ∧ (ledFix s i status detail).jx = s.jx := by
  obtain ⟨u, hu, hled, hjx⟩ : ∃ u, u = (if (ordFind s e.queue).due != e.seq then count s 0xC040 0x1C else s) ∧
      u.led = s.led ∧ u.jx = s.jx := ⟨_, rfl, by split <;> rfl, by split <;> rfl⟩
  have hmeta : ledMeta u i = ledMeta s i := by rw [ledMeta, hled, ledMeta]
  simp only [ledFix, h, ← hu]
  have hput := ledGet_ledPut (e := { e with state := .done, status := status, detail := detail }) (by simp) u i
  refine ⟨hput, ?_, ?_⟩
  · rw [ledMeta_ledMetaSet, ledMeta_ledPut, hmeta]
  · simp [hjx]

/-- A host item that ends has its entry DONE with its status, detail and result. -/
theorem hostFix_of_entry {s : State} {i : Nat} {e : LedEntry} (h : ledGet s i = some e) (status detail : BitVec 8)
    (result : BitVec 64) :
    ∃ e', ledGet (hostFix s i status detail result) i = some e' ∧ e'.state = .done ∧ e'.status = status ∧
      e'.detail = detail ∧ (ledMeta (hostFix s i status detail result) i).result = result ∧
      (hostFix s i status detail result).jx = s.jx := by
  obtain ⟨u, e', hend, he', hresult, hjx⟩ : ∃ u e', hostFix s i status detail result = ledFix u i status detail ∧
      ledGet u i = some e' ∧ (ledMeta u i).result = result ∧ u.jx = s.jx := by
    have hmeta : (ledMeta (ledMetaSet s i { ledMeta s i with result := result, worker := none }) i).result = result := by
      rw [ledMeta_ledMetaSet]
    simp only [hostFix, h]
    split
    · exact ⟨_, _, rfl, (sfind_sput ..).trans (if_pos rfl), hmeta, rfl⟩
    · exact ⟨_, e, rfl, h, hmeta, rfl⟩
  obtain ⟨hentry, hkept, hjx'⟩ := ledFix_of_entry he' status detail
  rw [hend]
  exact ⟨_, hentry, rfl, rfl, rfl, hkept.trans hresult, hjx'.trans hjx⟩

/-- A status that a worker gives is one of Table 13-3, the one given where it is one. -/
theorem workerStatus_spec (s : State) (status : BitVec 8) :
    (workerStatus s status).1.toNat < 10 ∧ (status.toNat < 10 → (workerStatus s status).1 = status) ∧
      (workerStatus s status).2.led = s.led ∧ (workerStatus s status).2.jx = s.jx := by
  unfold workerStatus
  split
  case isTrue h => exact ⟨h, fun _ => rfl, rfl, rfl⟩
  case isFalse h =>
    refine ⟨?_, fun h' => absurd h' h, rfl, rfl⟩
    dsimp only
    rw [BitVec.toNat_ofNat]
    omega

/-- A worker ends the RUNNING entry that is in its place. -/
theorem completeItem_of_running {s : State} {i : Nat} {e : LedEntry} (h : ledGet s i = some e) (hrun : e.state = .running)
    (status detail : BitVec 8) (result : BitVec 64) :
    ∃ e', ledGet (completeItem s i e.queue e.seq status detail result) i = some e' ∧ e'.state = .done ∧
      e'.status.toNat < 10 ∧ (status.toNat < 10 → e'.status = status) ∧ e'.detail = detail ∧
      (ledMeta (completeItem s i e.queue e.seq status detail result) i).result = result ∧
      (completeItem s i e.queue e.seq status detail result).jx = s.jx := by
  obtain ⟨hlt, hsame, hled, hjx⟩ := workerStatus_spec s status
  have hentry : ledGet (workerStatus s status).2 i = some e := by rw [ledGet, hled]; exact h
  have hopen : ledQuarantined (workerStatus s status).2 i = false := by simp [ledQuarantined, hentry, hrun]
  obtain ⟨e', he', hdone, hstatus, hdetail, hresult, hjx'⟩ :=
    hostFix_of_entry hentry (workerStatus s status).1 detail result
  have hend : completeItem s i e.queue e.seq status detail result =
      hostFix (workerStatus s status).2 i (workerStatus s status).1 detail result := by
    simp [completeItem, h, hrun, hostDone, hopen]
  rw [hend]
  exact ⟨e', he', hdone, hstatus ▸ hlt, fun hs => hstatus.trans (hsame hs), hdetail, hresult, hjx'.trans hjx⟩

/-! ## The thread lets go of its item (07 R168) -/

theorem getReg_release (s : State) (n m : Nat) (r : BitVec 5) : getReg (release s n) m r = getReg s m r := by
  refine getReg_congr ?_ r
  rw [release, thread_setThread]
  split
  case isTrue h => rw [h]
  case isFalse => rfl

theorem released_of_threads {s t : State} {th : BitVec 10}
    (h : t.jx.threads = (release (issuing s th.toNat) th.toNat).jx.threads) :
    PcNext s t th ∧ (thread t th.toNat).item = none := by
  have hthread : thread t th.toNat = { thread (issuing s th.toNat) th.toNat with item := none, place := none, gone := false } :=
    (thread_congr h th.toNat).trans ((thread_setThread ..).trans (if_pos rfl))
  rw [PcNext, hthread, thread_issuing_self]
  exact ⟨rfl, rfl⟩

/-- An item goes to its pipeline's return queue. -/
theorem returnItem_of_item {s : State} {id : Nat} {x : Item} (h : itemGet s id = some x) :
    ∃ y, itemGet (returnItem s id) id = some y ∧ (∃ k due, y.pos = .returning k due) ∧
      y.bytes = bytesAt x.bytes 0 (x.len - 4) ∧
      (returnItem s id).pipe.retQ = lmod s.pipe.retQ x.pipe (fun q => q ++ [id]) ∧ (returnItem s id).jx = s.jx := by
  unfold returnItem
  simp only [h]
  exact ⟨_, itemGet_itemPut h (id_of_itemGet h : x.id = id), ⟨_, _, rfl⟩, rfl, rfl, rfl⟩

theorem doRet_of_detour {s : State} {th : BitVec 10} {id : Nat} (h : CanIssue s th)
    (hitem : (thread s th.toNat).item = some (.detour id)) :
    doRet s th 0 0 0 0 =
      returnItem (count (release (issuing s th.toNat) th.toNat) (0xC090 + thCluster th.toNat) 0x03) id :=
  issueInstr_of_body h rfl (by rw [thread_issuing_self]; simp only [hitem])

theorem doDropItem_of_detour {s : State} {th : BitVec 10} {id : Nat} (h : CanIssue s th)
    (hitem : (thread s th.toNat).item = some (.detour id)) :
    doDropItem s th 0 0 0 0 =
      itemRemove (count (release (issuing s th.toNat) th.toNat) (0xC090 + thCluster th.toNat) 0x04) id :=
  issueInstr_of_body h rfl (by rw [thread_issuing_self]; simp only [hitem])

theorem doComplete_of_host {s : State} {th : BitVec 10} {i fn seq : Nat} {q : OrdQ} (h : CanIssue s th)
    (hitem : (thread s th.toNat).item = some (.host i fn)) (hgone : (thread s th.toNat).gone = false)
    (hplace : (thread s th.toNat).place = some (q, seq)) (rs1 rs2 : BitVec 5) :
    doComplete s th 0 rs1 rs2 0 =
      completeItem (count (release (issuing s th.toNat) th.toNat) (0xC090 + thCluster th.toNat) 0x05) i q seq
        (BitVec.ofNat 8 (fld (getReg s th.toNat rs1) 0 8)) (BitVec.ofNat 8 (fld (getReg s th.toNat rs1) 8 8))
        (getReg s th.toNat rs2) :=
  issueInstr_of_body h rfl (by
    rw [thread_issuing_self]
    simp only [hitem, hplace, hgone, getReg_issuing, getReg_release, Bool.false_eq_true, if_false])

end Sys2Proof.Machine.Laws
end

section
/-!
SUPPORT. What an ISSUE puts at its target (07 R171, 09 R200, R219, 10 R241).
-/

namespace Sys2Proof.Machine.Laws

open Sys2Proof Sys2Proof.Machine

theorem fld_of_lt_three {f : BitVec 10} (h : f.toNat < 3) : fld f 2 8 = 0 ∧ fld f 0 2 = f.toNat := by
  have hlt : f.toNat < 2 ^ 2 := by omega
  exact ⟨fld_eq_zero_of_lt hlt, fld_zero_of_lt hlt⟩

/-- ISSUE reads its message in scratch, and writes what its target answers. -/
theorem doIssue_of_canIssue {s : State} {th : BitVec 10} {rs1 : BitVec 5} {f : BitVec 10} {a : Nat} {raw : BitVec 512}
    (h : CanIssue s th) (hf : f.toNat < 3) (ha : a = (getReg s th.toNat rs1).toNat) (halign : a % 64 = 0)
    (hin : a + 64 ≤ 2097152) (hraw : raw = BitVec.ofNat 512 (leNat (scratchRead s (thCluster th.toNat) a 64)))
    (rd : BitVec 5) :
    doIssue s th rd rs1 0 f = setReg (issueTo (issuing s th.toNat) th.toNat f.toNat raw).2 th.toNat rd
      (issueTo (issuing s th.toNat) th.toNat f.toNat raw).1 := by
  obtain ⟨hhigh, hlow⟩ := fld_of_lt_three hf
  have hread : BitVec.ofNat 512 (leNat (scratchRead (issuing s th.toNat) (thCluster th.toNat) a 64)) = raw := hraw.symm
  have hlegal : ¬ (a % 64 ≠ 0 ∨ scratchSize < a + 64 ∨ f.toNat = 3) := by rw [scratchSize]; omega
  refine issueInstr_of_body h (by simp [hhigh]) ?_
  simp only [getReg_issuing, ← ha, hlow, hread, if_neg hlegal]

theorem issueOwner_issuing (s : State) (n : Nat) :
    issueOwner (issuing s n) (thread (issuing s n) n) = issueOwner s (thread s n) := by
  rw [thread_issuing_self]
  rfl

/-- Result channel of a message for each of the three targets (09 Tables 9-2 and 9-9, 10 Table 10-7). -/
def messageChannel (target : Nat) (raw : BitVec 512) : Nat :=
  match target with | 0 => fld raw 96 8 | 1 => fld raw 32 8 | _ => fld raw 268 8

theorem fld_eq_div {n : Nat} (w : BitVec n) (lo len : Nat) : fld w lo len = w.toNat / 2 ^ lo % 2 ^ len := by
  rw [fld, Nat.shiftRight_eq_div_pow]

/-- The field of the result channel starts at bit 96, 32 or 268. -/
theorem messageChannel_eq {f : BitVec 10} (hf : f.toNat < 3) (raw : BitVec 512) :
    messageChannel f.toNat raw = fld raw (if f = 0 then 96 else if f = 1 then 32 else 268) 8 := by
  obtain h | h | h : f.toNat = 0 ∨ f.toNat = 1 ∨ f.toNat = 2 := by omega
  · obtain rfl : f = 0 := BitVec.eq_of_toNat_eq h
    rfl
  · obtain rfl : f = 1 := BitVec.eq_of_toNat_eq h
    rfl
  · obtain rfl : f = 2 := BitVec.eq_of_toNat_eq h
    rfl

theorem threads_issueOut (s : State) (e : Nat) : (issueOut s e).jx.threads = s.jx.threads := rfl

theorem issueTo_of_not_ext {s : State} {n target : Nat} {raw : BitVec 512}
    (h : (channel s (thCluster n) (messageChannel target raw)).ext = false) : issueTo s n target raw = (2, s) := by
  unfold issueTo
  exact if_pos (by rw [Bool.not_eq_true']; exact h)

section

variable {s : State} {n : Nat} {raw : BitVec 512}

theorem issueTo_cipher (hext : (channel s (thCluster n) (fld raw 96 8)).ext = true)
    (hroom : issuesWaiting s (thCluster n) < 64) (hgone : (thread s n).gone = false)
    (hopen : sliceDraining s (issueOwner s (thread s n)) = false) :
    issueTo s n 0 raw = (0, issueOut (cipherIssue s (.jutex (thCluster n) (thEngine n % 8) (heldWork (thread s n))) raw
      (issueOwner s (thread s n))) (thEngine n)) := by
  simp [issueTo, hext, hroom.not_ge, hgone, hopen]

theorem kenAccept_of_room (q : KReq) (hqueue : s.ken.queue.length < 1024) (hled : ledRoom s .kennel = true)
    (hisland : islandTakes s 26 = true) :
    ∃ i u, kenAccept s q = some u ∧ u.ken = { s.ken with queue := s.ken.queue ++ [{ q with entry := i }] } ∧
      u.jx = s.jx := by
  have hroom : ¬ (1024 ≤ s.ken.queue.length ∨ !ledRoom s .kennel ∨ (islandOn s 26 ∧ !islandTakes s 26)) := by
    rw [hled, hisland]
    simpa using hqueue
  exact ⟨(ledAccept s .kennel (.kennel q.issuer) (q.owner.getD 0) q.owner.isNone false (.reply 0)).1, _, if_neg hroom,
    by simp, by simp [ledAccept]⟩

/-- Kennel has room, and takes at once the one request that its issue queue holds (09 R219). -/
theorem kenPump_of_room {q : KReq} (hissues : s.ken.issues = [q]) (hqueue : s.ken.queue.length < 1024)
    (hled : ledRoom s .kennel = true) (hisland : islandTakes s 26 = true) :
    ∃ i, (kenPump s).ken.queue = s.ken.queue ++ [{ q with entry := i }] ∧ (kenPump s).jx = s.jx := by
  obtain ⟨i, u, haccept, hken, hjx⟩ := kenAccept_of_room q hqueue hled hisland
  refine ⟨i, ?_⟩
  simp only [kenPump, hissues, kenTake, haccept, hken, hjx, and_self]

theorem issueTo_kennel (hext : (channel s (thCluster n) (fld raw 32 8)).ext = true)
    (hroom : issuesWaiting s (thCluster n) < 64) (hgone : (thread s n).gone = false)
    (hopen : sliceDraining s (issueOwner s (thread s n)) = false) (hled : ledRoom s .kennel = true) :
    issueTo s n 1 raw = (0, issueOut (kenPump { s with ken := { s.ken with
      issues := s.ken.issues ++ [⟨raw, thCluster n, issueOwner s (thread s n), thEngine n % 8, heldWork (thread s n), 0,
        false, []⟩] } }) (thEngine n)) := by
  simp [issueTo, hext, hroom.not_ge, hgone, hopen, hled]

theorem issueTo_dma (hext : (channel s (thCluster n) (fld raw 268 8)).ext = true)
    (hroom : issuesWaiting s (thCluster n) < 64) (hgone : (thread s n).gone = false) :
    issueTo s n 2 raw = (0, dmaIssue s (thCluster n) (thEngine n) (heldWork (thread s n)) (issueOwner s (thread s n)) raw) := by
  simp [issueTo, hext, hroom.not_ge, hgone]

/-- A DMA start that is well formed, of an IDLE channel of its owner, is not refused (10 R229, R241). -/
theorem dmaRefusal_of_idle {owner : Option Nat} (hop : fld raw 276 2 = 0) (hform : fld raw 278 42 = 0)
    (hform' : fld raw 368 16 = 0) (hform'' : fld raw 404 44 = 0)
    (hctrl : issueCtrlBad (BitVec.ofNat 64 (fld raw 192 64)) = false) (howner : channelOwner s (fld raw 256 12) = owner)
    (hidle : (chan s (fld raw 256 12)).state = .idle) (hopen : ownerDraining s owner = false) :
    dmaRefusal s owner raw = none := by
  simp [dmaRefusal, hop, hform, hform', hform'', hctrl, howner, hidle, hopen]

theorem chan_setChan (s : State) (k : Nat) (x : Chan) : chan (setChan s k x) k = x := sget_sset_self ..

theorem setChan_jx (s : State) (k : Nat) (x : Chan) : (setChan s k x).jx = s.jx := by
  have hrecord : (recordChan s k (chan s k) x).jx = s.jx := by
    unfold recordChan
    split
    · exact List.foldlRecOn _ _ (motive := fun t : State => t.jx = s.jx) rfl fun t ht i _ => by dsimp only; split <;> simp [ht]
    · rfl
  exact hrecord

/-- A start of COUNT other than 0 begins its PRECHECK with the registers it was given. -/
theorem dmaStart_of_count {x : Chan} (hcount : x.count ≠ 0) (k : Nat) (route : Route) (owner : Option Nat) :
    (chan (dmaStart s k x route owner) k).state = .precheck ∧ (chan (dmaStart s k x route owner) k).src = x.src ∧
      (chan (dmaStart s k x route owner) k).dst = x.dst ∧ (chan (dmaStart s k x route owner) k).count = x.count ∧
      (dmaStart s k x route owner).jx = s.jx := by
  have hne : (x.count == 0#32) = false := by simpa using hcount
  simp [dmaStart, chanClear, hne, chan_setChan, setChan_jx]

/-- An ISSUE start that is not refused begins, and is outstanding. -/
theorem dmaIssue_of_start {owner : Option Nat} (hok : dmaRefusal s owner raw = none) (hop : fld raw 276 2 = 0) (c e : Nat)
    (w : Option Work) :
    dmaIssue s c e w owner raw =
      issueOut (dmaStart s (fld raw 256 12) (issueChan (chan s (fld raw 256 12)) raw) (.issue c (e % 8) (fld raw 268 8) w)
        owner) e := by
  simp only [dmaIssue, hok, hop]

end

end Sys2Proof.Machine.Laws
end

section
/-!
CLAIMS. How items end, and what an ISSUE gives its target (07 R168, R170, R171).
-/

namespace Sys2Proof.Proofs

open Sys2Proof Sys2Proof.Machine Sys2Proof.Machine.Laws

section

variable {s : State} {th : BitVec 10}

theorem ret_takes {id : Nat} {x : Item} (h : CanIssue s th) (hitem : (thread s th.toNat).item = some (.detour id))
    (hx : itemGet s id = some x) :
    ∃ t y, exec (.ret th 0 0 0 0) s = .next t ∧ PcNext s t th ∧ (thread t th.toNat).item = none ∧
      itemGet t id = some y ∧ (∃ k due, y.pos = .returning k due) ∧ y.bytes = bytesAt x.bytes 0 (x.len - 4) ∧
      t.pipe.retQ = lmod s.pipe.retQ x.pipe (fun q => q ++ [id]) := by
  have hheld : itemGet (count (release (issuing s th.toNat) th.toNat) (0xC090 + thCluster th.toNat) 0x03) id = some x := hx
  obtain ⟨y, hy, hpos, hbytes, hqueue, hjx⟩ := returnItem_of_item hheld
  obtain ⟨hpc, hnone⟩ := released_of_threads (congrArg Jx.threads hjx)
  exact ⟨_, y, congrArg Host.Outcome.next (doRet_of_detour h hitem), hpc, hnone, hy, hpos, hbytes, hqueue⟩

theorem dropItem_takes {id : Nat} (h : CanIssue s th) (hitem : (thread s th.toNat).item = some (.detour id)) :
    ∃ t, exec (.dropItem th 0 0 0 0) s = .next t ∧ PcNext s t th ∧ (thread t th.toNat).item = none ∧
      itemGet t id = none := by
  have hjx : (itemRemove (count (release (issuing s th.toNat) th.toNat) (0xC090 + thCluster th.toNat) 0x04) id).jx =
      (release (issuing s th.toNat) th.toNat).jx := by simp
  obtain ⟨hpc, hnone⟩ := released_of_threads (congrArg Jx.threads hjx)
  exact ⟨_, congrArg Host.Outcome.next (doDropItem_of_detour h hitem), hpc, hnone, itemGet_itemRemove ..⟩

theorem complete_takes {rs1 rs2 : BitVec 5} {i fn : Nat} {e : LedEntry} (h : CanIssue s th)
    (hitem : (thread s th.toNat).item = some (.host i fn)) (hgone : (thread s th.toNat).gone = false)
    (he : ledGet s i = some e) (hplace : (thread s th.toNat).place = some (e.queue, e.seq)) (hrun : e.state = .running) :
    ∃ t e', exec (.complete none th 0 rs1 rs2 0) s = .next t ∧ PcNext s t th ∧ (thread t th.toNat).item = none ∧
      ledGet t i = some e' ∧ e'.state = .done ∧ e'.status.toNat < 10 ∧
      ((getReg s th.toNat rs1).toNat % 256 < 10 → e'.status = (getReg s th.toNat rs1).setWidth 8) ∧
      e'.detail = (getReg s th.toNat rs1 >>> 8).setWidth 8 ∧ (ledMeta t i).result = getReg s th.toNat rs2 := by
  have he' : ledGet (count (release (issuing s th.toNat) th.toNat) (0xC090 + thCluster th.toNat) 0x05) i = some e := he
  obtain ⟨e', hentry, hdone, hlt, hstatus, hdetail, hresult, hjx⟩ := completeItem_of_running he' hrun
    (BitVec.ofNat 8 (fld (getReg s th.toNat rs1) 0 8)) (BitVec.ofNat 8 (fld (getReg s th.toNat rs1) 8 8))
    (getReg s th.toNat rs2)
  obtain ⟨hpc, hnone⟩ := released_of_threads (congrArg Jx.threads hjx)
  refine ⟨_, e', congrArg Host.Outcome.next (doComplete_of_host h hitem hgone hplace rs1 rs2), hpc, hnone, hentry, hdone,
    hlt, fun hs => ?_, hdetail.trans ?_, hresult⟩
  · rw [ofNat_fld_zero _ (Nat.le_refl 8)] at hstatus
    exact hstatus (by simpa using hs)
  · exact BitVec.eq_of_toNat_eq (by simp [fld])

theorem issuing_taken {rs1 : BitVec 5} {raw : BitVec 512} {ch : Nat} (h : IssueTaken s th rs1 raw ch) :
    (channel (issuing s th.toNat) (thCluster th.toNat) ch).ext = true ∧
      issuesWaiting (issuing s th.toNat) (thCluster th.toNat) < 64 ∧ (thread (issuing s th.toNat) th.toNat).gone = false ∧
      heldWork (thread (issuing s th.toNat) th.toNat) = (thread s th.toNat).item := by
  obtain ⟨-, -, -, -, hext, hroom, hgone⟩ := h
  rw [thread_issuing_self]
  exact ⟨hext, hroom, hgone, by simp [heldWork, hgone]⟩

/-- An ISSUE that its target answers with 0. -/
theorem issue_answers_zero {rs1 : BitVec 5} {raw : BitVec 512} {ch : Nat} {f : BitVec 10} {u : State}
    (h : IssueTaken s th rs1 raw ch) (hf : f.toNat < 3)
    (hu : issueTo (issuing s th.toNat) th.toNat f.toNat raw = (0, u))
    (hthreads : u.jx.threads = (issuing s th.toNat).jx.threads) (rd : BitVec 5) :
    ∃ t, exec (.issue th rd rs1 0 f none) s = .next t ∧ PcNext s t th ∧ WroteReg s t th rd 0 ∧ OtherThreads s t th ∧
      t.cip = u.cip ∧ t.ken = u.ken ∧ t.dma = u.dma := by
  obtain ⟨hissue, halign, hin, hraw, -⟩ := h
  have hrun := doIssue_of_canIssue hissue hf rfl halign hin hraw rd
  rw [hu] at hrun
  obtain ⟨hpc, hreg, hother⟩ := setReg_of_threads hthreads rd 0
  exact ⟨_, congrArg Host.Outcome.next hrun, hpc, hreg, hother, by simp, by simp, by simp⟩

theorem issue_takes_cipher {rs1 : BitVec 5} {raw : BitVec 512} (h : IssueTaken s th rs1 raw (fld raw 96 8))
    (hopen : sliceDraining s (issueOwner s (thread s th.toNat)) = false) (rd : BitVec 5) :
    ∃ t q, exec (.issue th rd rs1 0 0 none) s = .next t ∧ PcNext s t th ∧ WroteReg s t th rd 0 ∧ OtherThreads s t th ∧
      t.cip.reqs = s.cip.reqs ++ [q] ∧ q.raw = raw ∧ q.owner = issueOwner s (thread s th.toNat) ∧ q.grants = 0 ∧
      q.src = .jutex (thCluster th.toNat) (thEngine th.toNat % 8) (thread s th.toNat).item := by
  obtain ⟨hext, hroom, hgone, hheld⟩ := issuing_taken h
  have hto := issueTo_cipher hext hroom hgone (by rw [issueOwner_issuing]; exact hopen)
  rw [hheld, issueOwner_issuing] at hto
  obtain ⟨t, hexec, hpc, hreg, hother, hcip, -⟩ := issue_answers_zero (f := 0) h (by decide) hto rfl rd
  exact ⟨t, _, hexec, hpc, hreg, hother, congrArg Cip.reqs hcip, rfl, rfl, rfl, rfl⟩

theorem issue_takes_kennel {rs1 : BitVec 5} {raw : BitVec 512} (h : IssueTaken s th rs1 raw (fld raw 32 8))
    (hopen : sliceDraining s (issueOwner s (thread s th.toNat)) = false) (hissues : s.ken.issues = [])
    (hqueue : s.ken.queue.length < 1024) (hled : ledRoom s .kennel = true) (hisland : islandTakes s 26 = true)
    (rd : BitVec 5) :
    ∃ t q, exec (.issue th rd rs1 0 1 none) s = .next t ∧ PcNext s t th ∧ WroteReg s t th rd 0 ∧ OtherThreads s t th ∧
      t.ken.queue = s.ken.queue ++ [q] ∧ q.raw = raw ∧ q.owner = issueOwner s (thread s th.toNat) := by
  obtain ⟨hext, hroom, hgone, -⟩ := issuing_taken h
  have hto := issueTo_kennel hext hroom hgone (by rw [issueOwner_issuing]; exact hopen) hled
  rw [issueOwner_issuing] at hto
  obtain ⟨v, hv, hvken, hvjx⟩ : ∃ v, v = ({ issuing s th.toNat with ken := { (issuing s th.toNat).ken with
      issues := (issuing s th.toNat).ken.issues ++ [⟨raw, thCluster th.toNat, issueOwner s (thread s th.toNat),
        thEngine th.toNat % 8, heldWork (thread (issuing s th.toNat) th.toNat), 0, false, []⟩] } } : State) ∧
      v.ken.queue = s.ken.queue ∧ v.jx = (issuing s th.toNat).jx := ⟨_, rfl, rfl, rfl⟩
  have hled' : ledRoom v .kennel = true := by rw [hv]; exact hled
  have hisland' : islandTakes v 26 = true := by rw [hv]; exact hisland
  have hone : v.ken.issues = s.ken.issues ++ [⟨raw, thCluster th.toNat, issueOwner s (thread s th.toNat),
      thEngine th.toNat % 8, heldWork (thread (issuing s th.toNat) th.toNat), 0, false, []⟩] := by rw [hv]; rfl
  rw [hissues, List.nil_append] at hone
  obtain ⟨i, hpump, hjx⟩ := kenPump_of_room hone (hvken ▸ hqueue) hled' hisland'
  rw [← hv] at hto
  obtain ⟨t, hexec, hpc, hreg, hother, -, hken, -⟩ :=
    issue_answers_zero (f := 1) h (by decide) hto ((threads_issueOut ..).trans (congrArg Jx.threads (hjx.trans hvjx))) rd
  exact ⟨t, _, hexec, hpc, hreg, hother, (congrArg Ken.queue hken).trans (hvken ▸ hpump), rfl, rfl⟩

theorem issue_takes_dma {rs1 : BitVec 5} {raw : BitVec 512} (h : IssueTaken s th rs1 raw (fld raw 268 8))
    (hop : fld raw 276 2 = 0) (hcount : fld raw 128 32 ≠ 0)
    (hok : dmaRefusal s (issueOwner s (thread s th.toNat)) raw = none) (rd : BitVec 5) :
    ∃ t, exec (.issue th rd rs1 0 2 none) s = .next t ∧ PcNext s t th ∧ WroteReg s t th rd 0 ∧ OtherThreads s t th ∧
      (chan t (fld raw 256 12)).state = .precheck ∧
      (chan t (fld raw 256 12)).src = BitVec.ofNat 64 (fld raw 0 64) ∧
      (chan t (fld raw 256 12)).dst = BitVec.ofNat 64 (fld raw 64 64) ∧
      (chan t (fld raw 256 12)).count = BitVec.ofNat 32 (fld raw 128 32) := by
  obtain ⟨hext, hroom, hgone, -⟩ := issuing_taken h
  have hcount' : (issueChan (chan (issuing s th.toNat) (fld raw 256 12)) raw).count ≠ 0 := by
    intro hzero
    have hnat : fld raw 128 32 % 2 ^ 32 = 0 := congrArg BitVec.toNat hzero
    exact hcount ((Nat.mod_eq_of_lt (Nat.mod_lt _ (by decide))).symm.trans hnat)
  have hto := issueTo_dma hext hroom hgone
  rw [issueOwner_issuing, dmaIssue_of_start (s := issuing s th.toNat) hok hop] at hto
  obtain ⟨hstate, hsrc, hdst, hcnt, hjx⟩ := dmaStart_of_count (s := issuing s th.toNat) hcount' (fld raw 256 12)
    (.issue (thCluster th.toNat) (thEngine th.toNat % 8) (fld raw 268 8) (heldWork (thread (issuing s th.toNat) th.toNat)))
    (issueOwner s (thread s th.toNat))
  obtain ⟨t, hexec, hpc, hreg, hother, -, -, hdma⟩ :=
    issue_answers_zero (f := 2) h (by decide) hto ((threads_issueOut ..).trans (congrArg Jx.threads hjx)) rd
  refine ⟨t, hexec, hpc, hreg, hother, ?_⟩
  rw [chan, hdma]
  exact ⟨hstate, hsrc, hdst, hcnt⟩

end

/-- Settles O21: a lemma per way in which an item ends and per target that an ISSUE has. -/
theorem jutexItemsEnd : Obligations.JutexItemsEnd := by
  refine ⟨fun s th id x => ret_takes, fun s th id => dropItem_takes, fun s th rs1 rs2 i fn e => complete_takes,
    fun s i seq status detail result th rd rs1 rs2 f n e he hrun hseq hfind => ?core,
    fun s th rd rs1 raw h hopen => issue_takes_cipher h hopen rd,
    fun s th rd rs1 raw h hopen hissues hqueue hled hisland =>
      issue_takes_kennel h hopen hissues hqueue hled hisland rd,
    fun s th rd rs1 raw h hop hf1 hf2 hf3 hcount hctrl howner hidle hopen =>
      issue_takes_dma h hop hcount (dmaRefusal_of_idle hop hf1 hf2 hf3 hctrl howner hidle hopen) rd,
    fun s raw th rd rs1 rs2 f hroom => ?coreIssue, fun s th rd rs1 f a raw h hf ha halign hin hraw hext => ?refused⟩
  case core =>
    obtain ⟨e', hentry, hdone, hlt, hstatus, hdetail, hresult, -⟩ :=
      completeItem_of_running (s := coreDrops s i.toNat seq.toNat) he hrun status detail result
    rw [hseq] at hentry hresult
    refine ⟨_, e', congrArg Host.Outcome.next ?_, hentry, hdone, hlt, hstatus, hdetail, hresult⟩
    simp only [hfind]
  case coreIssue =>
    exact ⟨_, _, congrArg Host.Outcome.next (if_neg hroom.not_ge), rfl, rfl, rfl, rfl, rfl⟩
  case refused =>
    have hto := issueTo_of_not_ext (s := issuing s th.toNat) (n := th.toNat) (target := f.toNat) (raw := raw)
      (by rw [messageChannel_eq hf, fld_eq_div]; exact hext)
    have hrun := doIssue_of_canIssue h hf ha halign hin hraw rd
    rw [hto] at hrun
    obtain ⟨hpc, hreg, hother, -, -, hout⟩ := setReg_of_noted (noted_issuing s th) rd 2
    exact ⟨_, congrArg Host.Outcome.next hrun, hpc, hreg, hother, hout⟩

end Sys2Proof.Proofs
end

section
/-!
SUPPORT. Which clusters are FAULTED and which cores offline (07 R172, R173): no loss of work, stop of a transfer or reset of an
engine changes it.
-/

namespace Sys2Proof.Machine.Laws

open Sys2Proof Sys2Proof.Machine

/-- The same clusters are FAULTED and the same cores offline. -/
def SameService (b s : State) : Prop :=
  s.jx.offline = b.jx.offline ∧ ∀ c, (cluster s c).faulted = (cluster b c).faulted

section

variable {b s : State} {α : Type} {p : Prop} [Decidable p]

theorem sameService_self (s : State) : SameService s s := ⟨rfl, fun _ => rfl⟩

theorem sameService_of_jx {t : State} (h : SameService b s) (hjx : t.jx = s.jx) : SameService b t := by
  obtain ⟨hoffline, hfaulted⟩ := h
  exact ⟨(congrArg Jx.offline hjx).trans hoffline,
    fun c => (congrArg Cluster.faulted (cluster_congr (congrArg Jx.clusters hjx) c)).trans (hfaulted c)⟩

theorem sameService_ite {u v : State} (hu : SameService b u) (hv : SameService b v) :
    SameService b (if p then u else v) :=
  iteInduction (fun _ => hu) (fun _ => hv)

theorem sameService_foldl {f : State → α → State} (hf : ∀ s x, SameService b s → SameService b (f s x)) {l : List α}
    (h : SameService b s) : SameService b (l.foldl f s) :=
  List.foldlRecOn l f h (fun _ ht x _ => hf _ x ht)

theorem sameService_setThread {n : Nat} {t : Thread} (h : SameService b s) : SameService b (setThread s n t) := h

theorem sameService_setEngine {e : Nat} {x : Engine} (h : SameService b s) : SameService b (setEngine s e x) := h

theorem sameService_setChannel {c ch : Nat} {x : Channel} (h : SameService b s) : SameService b (setChannel s c ch x) := by
  obtain ⟨hoffline, hfaulted⟩ := h
  refine ⟨hoffline, fun k => ?_⟩
  rw [setChannel, cluster_setCluster]
  split
  case isTrue hk => exact hk ▸ hfaulted c
  case isFalse => exact hfaulted k

theorem sameService_count {i u : Nat} (h : SameService b s) : SameService b (count s i u) := h

/-! ## Transfers that stop (10 R240, R244) -/

theorem sameService_setChan {k : Nat} {x : Chan} (h : SameService b s) : SameService b (setChan s k x) :=
  sameService_of_jx h (setChan_jx ..)

theorem sameService_dmaCount {k n : Nat} {status : BitVec 8} (h : SameService b s) :
    SameService b (dmaCount s k status n) := by
  unfold dmaCount
  extract_lets _ _ _ t
  have ht : SameService b t := h
  clear_value t
  split <;> exact ht

theorem sameService_dmaNotify {k : Nat} {x : Chan} (h : SameService b s) : SameService b (dmaNotify s k x) := by
  unfold dmaNotify
  split
  · obtain ⟨hst, out, heq⟩ := raiseVector_eq s (ownerFn s x.owner).1 (ownerFn s x.owner).2 (objGet s 0xA200 0x01 k)
    exact sameService_of_jx h (by rw [heq])
  · exact h

theorem freeBeyond_jx (s : State) (x : Chan) (status : BitVec 8) (n : Nat) : (freeBeyond s x status n).jx = s.jx := by
  rw [freeBeyond_frame]

theorem sameService_recordDescs {qp head esz : Nat} {bs : List Byte} (h : SameService b s) :
    SameService b (recordDescs s qp head esz bs) :=
  sameService_foldl (fun _ _ ht => sameService_of_jx ht (by simp)) h

theorem sameService_dmaComplete {k n : Nat} {status detail : BitVec 8} (h : SameService b s) :
    SameService b (dmaComplete s k status detail n) := by
  unfold dmaComplete
  extract_lets x t _ y u v
  have ht : SameService b t := sameService_of_jx h (by simp [t])
  have hu : SameService b u := sameService_of_jx (sameService_setChan ht) (freeBeyond_jx ..)
  have hv : SameService b v := sameService_ite (sameService_setChan (sameService_dmaCount hu)) (sameService_dmaCount hu)
  clear_value v
  split
  · exact sameService_dmaNotify hv
  · exact sameService_setChannel (sameService_dmaNotify hv)
  · exact sameService_ite (sameService_recordDescs (sameService_of_jx hv (by simp))) (sameService_of_jx hv (by simp))

theorem sameService_dmaStop {k : Nat} {status detail : BitVec 8} (h : SameService b s) :
    SameService b (dmaStop s k status detail) := by
  have hread : ∀ which, SameService b (quarantineReads s which) := fun _ => sameService_of_jx h (by simp)
  unfold dmaStop
  extract_lets
  split
  · exact sameService_ite (sameService_dmaComplete (sameService_count (hread _))) (sameService_setChan (hread _))
  · exact sameService_ite (sameService_dmaComplete (sameService_count (hread _))) (sameService_setChan (hread _))
  · exact sameService_ite (sameService_dmaComplete (sameService_count (hread _))) (sameService_setChan (hread _))
  · exact h

/-! ## Work that is lost (07 R169, 13 R310) -/

theorem sameService_stopOps {i : Nat} (h : SameService b s) : SameService b (stopOps s i) :=
  sameService_of_jx (sameService_foldl (fun _ _ => sameService_dmaStop) h) rfl

theorem sameService_hostLost {i : Nat} (h : SameService b s) : SameService b (hostLost s i) := by
  unfold hostLost
  split
  · exact h
  · exact sameService_ite (sameService_stopOps (sameService_of_jx h (by simp))) h

theorem sameService_workLost {c : Nat} {w : Work} (h : SameService b s) : SameService b (workLost s c w) := by
  unfold workLost
  split
  · exact sameService_of_jx h (by simp)
  · exact sameService_hostLost h

theorem sameService_resetOne {n : Nat} (h : SameService b s) : SameService b (resetOne s n) := by
  unfold resetOne
  extract_lets x c t u
  have hu : SameService b u := by
    dsimp only [u, t]
    split
    · exact sameService_setThread (sameService_setChannel h)
    · exact h
  clear_value u
  split
  · exact sameService_ite hu (sameService_workLost hu)
  · exact hu

theorem sameService_resetHome {c ch : Nat} (h : SameService b s) : SameService b (resetHome s c ch) := by
  have hcount : SameService b (countN s (0xC090 + c) 0x0D (channel s c ch).ring.length) := h
  exact sameService_setChannel hcount

theorem sameService_engineReset {e : Nat} (h : SameService b s) : SameService b (engineReset s e) := by
  unfold engineReset
  extract_lets c waiting t _ u v
  have ht : SameService b t := sameService_foldl (fun _ _ => sameService_resetOne) h
  have hu : SameService b u := sameService_setEngine ht
  clear_value u
  have hv : SameService b v := sameService_foldl (fun _ _ => sameService_workLost) hu
  exact sameService_foldl (fun _ _ => sameService_resetHome) hv

end

end Sys2Proof.Machine.Laws
end

section
/-!
SUPPORT. Waits and wakes, the rotation, and engines that freeze (07 R160 to R168).
-/

namespace Sys2Proof.Machine.Laws

open Sys2Proof Sys2Proof.Machine

/-! ## Wakes (07 R161, R163) -/

@[simp] theorem wake_clusters (s : State) (n : Nat) (w : Waiting) (bits : Nat) :
    (wake s n w bits).jx.clusters = s.jx.clusters := by
  simp only [wake, setReg_frame]
  split <;> rfl

@[simp] theorem wake_pipe (s : State) (n : Nat) (w : Waiting) (bits : Nat) : (wake s n w bits).pipe = s.pipe := by
  simp only [wake, setReg_frame]
  split <;> rfl

/-- A thread with no halt pending wakes RUNNABLE, with the bits in the register that its instruction names. -/
theorem wake_of_no_halt {s : State} {n : Nat} (h : (thread s n).before ≠ .halted) (w : Waiting) (bits : Nat) :
    (thread (wake s n w bits) n).state = .runnable ∧ (thread (wake s n w bits) n).wait = none ∧
      (thread (wake s n w bits) n).owns = (thread s n).owns ∧
      (w.rd ≠ 0 → getReg (wake s n w bits) n w.rd = BitVec.ofNat 64 bits) := by
  obtain ⟨u, hu, hthread⟩ : ∃ u, u = (if bits / 8 % 2 = 1 then count s (0xC090 + thCluster n) 0x0A else s) ∧
      thread u n = thread s n := ⟨_, rfl, by split <;> rfl⟩
  have hwake : wake s n w bits =
      setReg (setThread u n { thread s n with state := .runnable, wait := none }) n w.rd (BitVec.ofNat 64 bits) := by
    rw [wake, ← hu, hthread, if_neg h]
  rw [hwake]
  simp only [thread_setReg_fields, thread_setThread, if_true, true_and]
  exact fun hrd => by rw [getReg_setReg, if_pos ⟨rfl, hrd⟩]

/-- The bit of a timer that is reached, and the bit of a maximum that has passed. -/
theorem getLsbD_waitBits (s : State) (n : Nat) (w : Waiting) :
    (BitVec.ofNat 64 (waitBits s n w)).getLsbD 1 = (w.sel.getLsbD 1 && timerHit s (thread s n)) ∧
      (BitVec.ofNat 64 (waitBits s n w)).getLsbD 3 = waitExpired s w := by
  unfold waitBits
  cases w.sel.getLsbD 0 && !(channel s (thCluster n) w.channel).ring.isEmpty <;>
    cases w.sel.getLsbD 1 && timerHit s (thread s n) <;> cases waitExpired s w <;> exact ⟨rfl, rfl⟩

theorem wakeIf_of_waiting {s : State} {n : Nat} {w : Waiting} (hstate : (thread s n).state = .waiting)
    (hwait : (thread s n).wait = some w) (hbits : waitBits s n w ≠ 0) : wakeIf s n = wake s n w (waitBits s n w) := by
  simp [wakeIf, hstate, hwait, hbits]

theorem wakeIf_clusters (s : State) (n : Nat) : (wakeIf s n).jx.clusters = s.jx.clusters := by
  unfold wakeIf
  split
  · split
    · rfl
    · exact wake_clusters ..
  · rfl

@[simp] theorem wakeChannel_clusters (s : State) (c ch : Nat) : (wakeChannel s c ch).jx.clusters = s.jx.clusters := by
  unfold wakeChannel
  refine List.foldlRecOn _ _ (motive := fun t : State => t.jx.clusters = s.jx.clusters) rfl fun t ht n _ => ?_
  split
  · split
    · rw [wakeIf_clusters, ht]
    · exact ht
  · exact ht

/-! ## The rotation (07 R168) -/

theorem pumpCluster_keeps (c k : Nat) (s : State) :
    (pumpCluster s c k).jx.threads = s.jx.threads ∧ (pumpCluster s c k).pipe = s.pipe := by
  induction k generalizing s with
  | zero => exact ⟨rfl, rfl⟩
  | succ k ih =>
    unfold pumpCluster
    extract_lets
    split
    · dsimp only
      split
      · exact ih _
      · exact ⟨rfl, rfl⟩
    · exact ⟨rfl, rfl⟩

/-- The work of an inbox moves, and threads and items stay as they are. -/
theorem pump_keeps (s : State) (c : Nat) : (pump s c).jx.threads = s.jx.threads ∧ (pump s c).pipe = s.pipe :=
  pumpCluster_keeps ..

theorem itemGet_congr {s t : State} (h : t.pipe = s.pipe) (id : Nat) : itemGet t id = itemGet s id := by
  rw [itemGet, h, itemGet]

theorem workFn_congr {s t : State} (h : t.pipe = s.pipe) (w : Work) : workFn t w = workFn s w := by
  cases w with
  | host => rfl
  | detour id => simp only [workFn, itemGet_congr h]

/-- A thread that receives work has it, at the entry point of the work's function. -/
theorem giveItem_of_entry {s : State} {n : Nat} {w : Work}
    (h : (sget 0 (cluster s (thCluster n)).store (workFn s w)).toNat ≠ 0) :
    (thread (giveItem s n w) n).item = some w ∧
      (thread (giveItem s n w) n).pc = BitVec.ofNat 64 (sget 0 (cluster s (thCluster n)).store (workFn s w)).toNat := by
  unfold giveItem
  extract_lets c bits t entry place u
  have ht : t.jx.clusters = s.jx.clusters ∧ t.pipe = s.pipe := by
    dsimp only [t]
    split
    · exact ⟨wake_clusters .., wake_pipe ..⟩
    · exact ⟨rfl, rfl⟩
  obtain ⟨hclusters, hpipe⟩ := ht
  have hentry : entry = (sget 0 (cluster s (thCluster n)).store (workFn s w)).toNat := by
    dsimp only [entry]
    rw [cluster_congr hclusters, workFn_congr hpipe]
  rw [← hentry] at h ⊢
  rw [if_neg h, setPc, thread_setThread, if_pos rfl]
  refine ⟨?_, rfl⟩
  dsimp only [u]
  rw [thread_setThread, if_pos rfl]

/-! ## Freezing (07 R167) -/

theorem engine_freezeEngine (s : State) (k e : Nat) :
    engine (freezeEngine s k) e = if e = k then { engine s k with frozen := true } else engine s e := by
  unfold freezeEngine
  extract_lets _ u
  have hengines : ∀ l : List Nat, (l.foldl (fun s n => if stateIs s n [.waiting, .blocked] then
      setThread s n { thread s n with state := .frozen } else s) u).jx.engines = u.jx.engines := fun l =>
    List.foldlRecOn l _ (motive := fun t : State => t.jx.engines = u.jx.engines) rfl fun t ht n _ => by
      split <;> exact ht
  rw [engine_congr (hengines _)]
  exact engine_setEngine ..

/-- Every engine of a list freezes. -/
theorem frozen_foldl_freezeEngine {e : Nat} (l : List Nat) (s : State) (h : e ∈ l ∨ (engine s e).frozen = true) :
    (engine (l.foldl freezeEngine s) e).frozen = true := by
  induction l generalizing s with
  | nil => simpa using h
  | cons k l ih =>
    rw [List.foldl_cons]
    refine ih (freezeEngine s k) ?_
    rw [engine_freezeEngine]
    by_cases hk : e = k
    · exact .inr (by rw [if_pos hk])
    · rw [if_neg hk]
      simpa [hk] using h

end Sys2Proof.Machine.Laws
end

section
/-!
CLAIMS. Events of clusters, engines and threads (07 R160 to R173).
-/

namespace Sys2Proof.Proofs

open Sys2Proof Sys2Proof.Machine Sys2Proof.Machine.Laws

section

variable {s : State}

/-! ## Wakes (07 R160, R163, R166) -/

section

variable {th : BitVec 10} {w : Waiting} (hwait : (thread s th.toNat).wait = some w)
  (hhalt : (thread s th.toNat).before ≠ .halted)
include hwait hhalt

theorem timerReached_wakes (hstate : (thread s th.toNat).state = .waiting) (hsel : w.sel.getLsbD 1 = true)
    (hhit : timerHit s (thread s th.toNat) = true) :
    ∃ t, exec (.timerReached th) s = .next t ∧ (thread t th.toNat).state = .runnable ∧ (thread t th.toNat).wait = none ∧
      (w.rd ≠ 0 → (getReg t th.toNat w.rd).getLsbD 1 = true) := by
  obtain ⟨htimer, -⟩ := getLsbD_waitBits s th.toNat w
  rw [hsel, hhit, Bool.and_self] at htimer
  have hbits : waitBits s th.toNat w ≠ 0 := fun h0 => by
    rw [h0] at htimer
    exact Bool.false_ne_true htimer
  obtain ⟨hrun, hnone, -, hreg⟩ := wake_of_no_halt hhalt w (waitBits s th.toNat w)
  refine ⟨wake s th.toNat w (waitBits s th.toNat w), congrArg Host.Outcome.next ?_, hrun, hnone,
    fun hrd => (congrArg (BitVec.getLsbD · 1) (hreg hrd)).trans htimer⟩
  simp only [hwait, hsel, hhit, Bool.and_self, if_true]
  exact wakeIf_of_waiting hstate hwait hbits

theorem waitMaxExpiry_wakes
    (hstate : (thread s th.toNat).state = .waiting ∨ (thread s th.toNat).state = .blocked)
    (hexpired : waitExpired s w = true) :
    ∃ t, exec (.waitMaxExpiry th) s = .next t ∧ (thread t th.toNat).state = .runnable ∧ (thread t th.toNat).wait = none ∧
      (w.rd ≠ 0 → (getReg t th.toNat w.rd).getLsbD 3 = true) := by
  obtain ⟨-, hmax⟩ := getLsbD_waitBits s th.toNat w
  obtain ⟨bits, hbit, hexec⟩ : ∃ bits, (BitVec.ofNat 64 bits).getLsbD 3 = true ∧
      exec (.waitMaxExpiry th) s = .next (wake s th.toNat w bits) := by
    obtain hstate | hstate := hstate
    · refine ⟨waitBits s th.toNat w, hmax.trans hexpired, congrArg Host.Outcome.next ?_⟩
      simp only [hstate, hwait, hexpired, if_true]
    · refine ⟨8, rfl, congrArg Host.Outcome.next ?_⟩
      simp only [hstate, hwait, hexpired, if_true]
  obtain ⟨hrun, hnone, -, hreg⟩ := wake_of_no_halt hhalt w bits
  exact ⟨_, hexec, hrun, hnone, fun hrd => (congrArg (BitVec.getLsbD · 3) (hreg hrd)).trans hbit⟩

theorem chopenGrant_wakes (hstate : (thread s th.toNat).state = .blocked)
    (howner : (channel s (thCluster th.toNat) w.channel).owner = none)
    (hroom : (channel s (thCluster th.toNat) w.channel).ring.length < 4) :
    ∃ t, exec (.chopenGrant th) s = .next t ∧ (thread t th.toNat).state = .runnable ∧
      (thread t th.toNat).owns = some w.channel ∧ (w.rd ≠ 0 → getReg t th.toNat w.rd = 0) ∧
      (channel t (thCluster th.toNat) w.channel).owner = some (th.toNat % 64) := by
  have hfree : channelFree s (thCluster th.toNat) w.channel = true := by simp [channelFree, howner, hroom]
  have hthread : thread (ownChannel s th.toNat w.channel) th.toNat =
      { thread s th.toNat with owns := some w.channel, staging := 0 } := (thread_setThread ..).trans (if_pos rfl)
  have hclusters : (ownChannel s th.toNat w.channel).jx.clusters =
      (setChannel s (thCluster th.toNat) w.channel { channel s (thCluster th.toNat) w.channel with
        owner := some (thLocal th.toNat) }).jx.clusters := rfl
  obtain ⟨hrun, -, howns, hreg⟩ := wake_of_no_halt (s := ownChannel s th.toNat w.channel) (n := th.toNat)
    (by rw [hthread]; exact hhalt) w 0
  refine ⟨wake (ownChannel s th.toNat w.channel) th.toNat w 0, congrArg Host.Outcome.next ?_, hrun,
    howns.trans (by rw [hthread]), hreg, ?_⟩
  · simp only [hstate, hwait, hfree, if_true]
  · rw [channel_congr ((wake_clusters ..).trans hclusters), channel_setChannel_self]
    rfl

end

/-! ## Items and results that arrive (07 R168, R171) -/

theorem detourArrival_takes {item tree c fn : Nat} {x : Item} (hx : itemGet s item = some x)
    (hpos : x.pos = .toCluster tree c fn) :
    ∃ t, exec (.detourArrival item) s = .next t ∧
      itemGet t item = (if inboxRoom s c (.detour item) then some { x with pos := .jutex tree c fn } else none) := by
  refine ⟨_, rfl, ?_⟩
  simp only [hx, hpos]
  split
  · obtain ⟨-, hpipe⟩ := pump_keeps (setCluster (count (itemPut s { x with pos := .jutex tree c fn }) (0xC090 + c) 0x01) c
      { cluster (count (itemPut s { x with pos := .jutex tree c fn }) (0xC090 + c) 0x01) c with
        inbox := (cluster (count (itemPut s { x with pos := .jutex tree c fn }) (0xC090 + c) 0x01) c).inbox ++
          [.detour item] }) c
    exact (itemGet_congr hpipe item).trans (itemGet_itemPut hx (id_of_itemGet hx : x.id = item))
  · exact itemGet_itemRemove ..

theorem itemOffer_gives {e : BitVec 7} {w : Work} {rest : List Work} {n : Nat} (hinbox : (engine s e.toNat).inbox = w :: rest)
    (hfind : ((List.range 8).map (fun i => e.toNat * 8 + i)).find? (fun n => (thread s n).state == .waiting &&
      (thread s n).item.isNone && (match (thread s n).wait with | some v => v.sel.getLsbD 2 | none => false)) = some n)
    (hentry : (sget 0 (cluster s (e.toNat / 8)).store (workFn s w)).toNat ≠ 0) :
    ∃ t, exec (.itemOffer e) s = .next t ∧ (thread t n).item = some w ∧
      (thread t n).pc = BitVec.ofNat 64 (sget 0 (cluster s (e.toNat / 8)).store (workFn s w)).toNat := by
  have hplace : thCluster n = e.toNat / 8 := by
    obtain ⟨i, hi, rfl⟩ := List.mem_map.1 (List.mem_of_find?_eq_some hfind)
    rw [List.mem_range] at hi
    rw [thCluster]
    omega
  rw [← hplace] at hentry
  obtain ⟨u, hu⟩ : ∃ u, u = setEngine s e.toNat { engine s e.toNat with inbox := rest } := ⟨_, rfl⟩
  have hexec : exec (.itemOffer e) s = .next (pump (giveItem u n w) (e.toNat / 8)) := by
    refine congrArg Host.Outcome.next ?_
    split
    case h_1 v rest' m hinbox' hfind' =>
      cases hinbox'.symm.trans hinbox
      cases hfind'.symm.trans hfind
      rw [hu]
    case h_2 hnone => exact (hnone _ _ _ hinbox hfind).elim
  have hfn : workFn u w = workFn s w := workFn_congr (by rw [hu]; rfl) w
  have hcluster : cluster u (thCluster n) = cluster s (thCluster n) := cluster_congr (by rw [hu]; rfl) _
  obtain ⟨hitem, hpc⟩ := giveItem_of_entry (s := u) (n := n) (w := w) (by rw [hfn, hcluster]; exact hentry)
  obtain ⟨hthreads, -⟩ := pump_keeps (giveItem u n w) (e.toNat / 8)
  have hthread := thread_congr hthreads n
  exact ⟨_, hexec, by rw [hthread, hitem], by rw [hthread, hpc, hfn, hcluster, hplace]⟩

theorem resultDelivery_appends {c : BitVec 4} {ch : BitVec 8} {m : BitVec 512}
    {rest : List (BitVec 512 × Option Nat × Option Nat)}
    (hresults : (channel s c.toNat ch.toNat).results = (m, none, none) :: rest)
    (hroom : (channel s c.toNat ch.toNat).ring.length < 4) :
    ∃ t, exec (.resultDelivery c ch) s = .next t ∧
      (channel t c.toNat ch.toNat).ring = (channel s c.toNat ch.toNat).ring ++ [m] ∧
      (channel t c.toNat ch.toNat).results = rest := by
  have hdue : resultDue s (channel s c.toNat ch.toNat) = some (m, none, none) := by
    rw [resultDue, hresults]
    exact List.find?_cons_of_pos rfl
  have hdeliver : deliverResult s c.toNat ch.toNat = wakeChannel (setChannel s c.toNat ch.toNat
      { channel s c.toNat ch.toNat with ring := (channel s c.toNat ch.toNat).ring ++ [m], results := rest })
      c.toNat ch.toNat := by
    simp only [deliverResult, hdue, if_neg hroom.not_ge, hresults, List.erase_cons_head]
  refine ⟨_, congrArg Host.Outcome.next hdeliver, ?_⟩
  rw [channel_congr (wakeChannel_clusters ..), channel_setChannel_self]
  exact ⟨rfl, rfl⟩

/-! ## Losses (07 R167, R172, R173) -/

theorem clusterFault_sets {c : BitVec 4} (h : (cluster s c.toNat).faulted = false) :
    ∃ t, exec (.clusterFault c) s = .next t ∧ (cluster t c.toNat).faulted = true := by
  obtain ⟨u, hu⟩ : ∃ u, u = event (setCluster s c.toNat { cluster s c.toNat with faulted := true }) 0x0203
    (6 + c.toNat) c.toNat := ⟨_, rfl⟩
  have hfaulted : (cluster u c.toNat).faulted = true := by
    rw [cluster_congr (s := setCluster s c.toNat { cluster s c.toNat with faulted := true }) (by rw [hu]; simp),
      cluster_setCluster, if_pos rfl]
  have hexec : exec (.clusterFault c) s =
      .next (((List.range 8).map (fun i => c.toNat * 8 + i)).foldl engineReset u) := by
    refine congrArg Host.Outcome.next ?_
    rw [hu, if_neg (by simp [h])]
  obtain ⟨-, hkept⟩ := sameService_foldl (b := u) (f := engineReset) (fun _ _ => sameService_engineReset)
    (l := (List.range 8).map (fun i => c.toNat * 8 + i)) (sameService_self u)
  exact ⟨_, hexec, (hkept c.toNat).trans hfaulted⟩

theorem coreOffline_sets {n : BitVec 4} (hon : s.jx.offline.getLsbD n.toNat = false)
    (hrun : s.jx.halted.getLsbD n.toNat = false) :
    ∃ t, exec (.coreOffline n) s = .next t ∧ t.jx.offline.getLsbD n.toNat = true := by
  have hoff : (s.jx.offline ||| BitVec.ofNat 16 (2 ^ n.toNat)).getLsbD n.toNat = true := by
    rw [BitVec.getLsbD_or, BitVec.getLsbD_ofNat, Nat.testBit_two_pow_self, decide_eq_true n.isLt, Bool.and_true,
      Bool.or_true]
  have hlost (u : State) (l : List (Nat × LedMeta)) :
      (l.foldl (fun s m => hostLost (count s 0xC0A1 0x02) m.1) u).jx.offline = u.jx.offline := by
    obtain ⟨hoffline, -⟩ := sameService_foldl (b := u) (f := fun s m => hostLost (count s 0xC0A1 0x02) m.1)
      (fun _ _ ht => sameService_hostLost (sameService_count ht)) (l := l) (sameService_self u)
    exact hoffline
  refine ⟨_, congrArg Host.Outcome.next (if_neg (by simp [hon, hrun])), ?_⟩
  rw [hlost]
  simpa using hoff

theorem allAsleepFreeze_freezes {e : BitVec 7} (h : allAsleep s e.toNat = true) :
    ∃ t, exec (.allAsleepFreeze e) s = .next t ∧ (engine t e.toNat).frozen = true := by
  refine ⟨_, congrArg Host.Outcome.next (if_pos h), ?_⟩
  have hdue : e.toNat ∈ ((List.range 8).map (fun i => e.toNat / 8 * 8 + i)).filter (allAsleep s) := by
    rw [List.mem_filter, List.mem_map]
    exact ⟨⟨e.toNat % 8, List.mem_range.2 (Nat.mod_lt _ (by decide)), by omega⟩, h⟩
  rw [engine_congr (s := (((List.range 8).map (fun i => e.toNat / 8 * 8 + i)).filter (allAsleep s)).foldl freezeEngine s)
    (by simp)]
  exact frozen_foldl_freezeEngine _ s (.inl hdue)

end

/-- Settles O23: a lemma per event, from the wake of a thread to the freeze of its engine. -/
theorem jutexEventsTakeEffect : Obligations.JutexEventsTakeEffect := by
  refine ⟨fun s th w hstate hwait hsel hhit hhalt => timerReached_wakes hwait hhalt hstate hsel hhit,
    fun s th w hstate hwait hexpired hhalt => waitMaxExpiry_wakes hwait hhalt hstate hexpired,
    fun s th w hstate hwait howner hroom hhalt => chopenGrant_wakes hwait hhalt hstate howner hroom,
    fun s item tree c fn x => detourArrival_takes, fun s e w rest n => itemOffer_gives,
    fun s c ch m rest => resultDelivery_appends, fun s c => clusterFault_sets, fun s n => coreOffline_sets,
    fun s e => allAsleepFreeze_freezes⟩

end Sys2Proof.Proofs
end

section
/-!
SUPPORT. What the end of a sent frame and the change of a lane leave as they were: the transmit FIFOs, the outputs and tx_frames
(08 R191, 02 R39), and the Muzzle's own state (02 R46, 14 R333).
-/

namespace Sys2Proof.Machine.Laws

open Sys2Proof Sys2Proof.Machine

/-- From `b` to `s` the transmit FIFOs, the outputs and the counters under sub 0x08, tx_frames among them (02 Table 2-8), stand
as they did. -/
def SameSending (b s : State) : Prop :=
  s.shp.fifos = b.shp.fifos ∧ s.out = b.out ∧ ∀ j, ctrGet s j 0x08 0 = ctrGet b j 0x08 0

/-- From `b` to `s` the lanes stay muzzled or not, and PAIR_HF_OUT asserted, waiting or neither. -/
def SameMuzzle (b s : State) : Prop :=
  s.pair.muzzled = b.pair.muzzled ∧ s.pair.hfOut = b.pair.hfOut ∧ s.pair.hfPending = b.pair.hfPending

section

variable {b s : State} {α : Type} {c : Prop} [Decidable c]

theorem sameSending_self (s : State) : SameSending s s := ⟨rfl, rfl, fun _ => rfl⟩

theorem sameSending_ite {u v : State} (hu : SameSending b u) (hv : SameSending b v) :
    SameSending b (if c then u else v) :=
  iteInduction (fun _ => hu) (fun _ => hv)

theorem sameSending_foldl {f : State → α → State} (hf : ∀ s x, SameSending b s → SameSending b (f s x)) {l : List α}
    (h : SameSending b s) : SameSending b (l.foldl f s) :=
  List.foldlRecOn l f h (fun _ ht x _ => hf _ x ht)

/-! ## Counters and events -/

/-- A counter under another sub, of an element that its key has room for, is not tx_frames. -/
theorem ctrGet_ctrAddAt_of_sub {u e : Nat} (s : State) (i n j : Nat) (hu : u < 256) (hne : u ≠ 8) (he : e < 2 ^ 32) :
    ctrGet (ctrAddAt s i u e n) j 0x08 0 = ctrGet s j 0x08 0 := by
  rw [ctrGet_ctrAddAt, if_neg]
  simp only [okey]
  omega

theorem sameSending_ctrAddAt {i u e n : Nat} (hu : u < 256) (hne : u ≠ 8) (he : e < 2 ^ 32) (h : SameSending b s) :
    SameSending b (ctrAddAt s i u e n) := by
  obtain ⟨hfifos, hout, hctr⟩ := h
  exact ⟨hfifos, hout, fun j => (ctrGet_ctrAddAt_of_sub s i n j hu hne he).trans (hctr j)⟩

theorem sameSending_count {i u : Nat} (hu : u < 256) (hne : u ≠ 8) (h : SameSending b s) : SameSending b (count s i u) :=
  sameSending_ctrAddAt hu hne (by decide) h

theorem sameSending_countOverruns {e : EvRec} {l : List Session} (h : SameSending b s) :
    SameSending b (countOverruns s e l) := by
  induction l generalizing s with
  | nil => exact h
  | cons x r ih => exact ih (sameSending_ite (sameSending_count (by decide) (by decide) h) h)

theorem sameSending_eventFull {k i x u : Nat} {w : BitVec 64} (h : SameSending b s) :
    SameSending b (eventFull s k i x u w) :=
  sameSending_countOverruns (e := ⟨s.logs.newest + 1, islandUs s, k / 256, k, i, x, u, w⟩) (l := s.uhl.sessions) h

theorem ctrGet_emit (s : State) (o : Output) (j u e : Nat) : ctrGet (emit s o) j u e = ctrGet s j u e := rfl

theorem ctrGet_setFifo (s : State) (p : Nat) (fs : List QFrame) (j u e : Nat) :
    ctrGet (setFifo s p fs) j u e = ctrGet s j u e := rfl

/-! ## A frame that ends (08 R191, 13 R309) -/

theorem sameSending_bufRelease {n : Nat} (h : SameSending b s) : SameSending b (bufRelease s n) := by
  unfold bufRelease
  split <;> exact h

theorem sameSending_ledPut {i : Nat} {e : LedEntry} (h : SameSending b s) : SameSending b (ledPut s i e) :=
  have hrecord : SameSending b (record s (.ledger i e)) := sameSending_ite h h
  hrecord

theorem sameSending_ledDone {i : Nat} {status detail : BitVec 8} (h : SameSending b s) :
    SameSending b (ledDone s i status detail) := by
  refine sameSending_ite h ?_
  unfold ledFix
  split
  · exact h
  · exact sameSending_ledPut (sameSending_ite (sameSending_count (by decide) (by decide) h) h)

theorem sameSending_ledRetire {i : Nat} (h : SameSending b s) : SameSending b (ledRetire s i) := by
  unfold ledRetire
  split
  · exact h
  case h_2 e _ =>
    have hstatus : e.status.toNat < 2 ^ 32 := e.status.isLt.trans (by decide)
    have hcount : SameSending b (countAt s 0xC041 0x01 e.status.toNat) :=
      sameSending_ctrAddAt (by decide) (by decide) hstatus h
    exact sameSending_ledPut hcount

theorem sameSending_retireUpTo {q : OrdQ} {n : Nat} (h : SameSending b s) : SameSending b (retireUpTo s q n) := by
  induction n generalizing s with
  | zero => exact h
  | succ n ih =>
    unfold retireUpTo
    split
    · exact ih (sameSending_ledRetire h)
    · exact h

theorem sameSending_retireFrame {f : QFrame} {status detail : BitVec 8} (h : SameSending b s) :
    SameSending b (retireFrame s f status detail) := by
  unfold retireFrame
  split
  · exact h
  · exact sameSending_retireUpTo (sameSending_ledDone h)

/-! ## Lanes and an administrative down that waits (02 R38, R39) -/

theorem sameSending_setLane {n : Nat} {l : Lane} (h : SameSending b s) : SameSending b (setLane s n l) := by
  unfold setLane
  extract_lets p _ _ t u
  have ht : SameSending b t := h
  have hdown : SameSending b (noteDown s t p) := sameSending_ite (sameSending_count (by decide) (by decide) ht) ht
  have hu : SameSending b u := sameSending_ite hdown (sameSending_eventFull hdown)
  exact sameSending_ite (sameSending_eventFull hu) hu

theorem sameSending_bringUp {n : Nat} (h : SameSending b s) : SameSending b (bringUp s n) :=
  sameSending_ite (sameSending_setLane h)
    (sameSending_ite (sameSending_ite (sameSending_setLane h) (sameSending_setLane h)) (sameSending_setLane h))

theorem sameSending_finishDown {p : Nat} (h : SameSending b s) : SameSending b (finishDown s p) := by
  refine sameSending_ite ?_ h
  have hlanes : SameSending b ((portLanes s p).foldl (fun s n => setLane s n downLane)
      { s with net := { s.net with downs := s.net.downs.filter (· != p) } }) :=
    sameSending_foldl (fun _ _ => sameSending_setLane) h
  exact sameSending_ite (sameSending_foldl (fun _ _ => sameSending_bringUp) hlanes) hlanes

end

section

variable (s : State) (n p : Nat)

theorem pair_noteDown (b : State) : (noteDown b s p).pair = s.pair := by
  unfold noteDown
  split <;> rfl

theorem pair_notePort (b : State) : (notePort b s p).pair = s.pair := by
  unfold notePort
  split <;> simp

theorem pair_setLane (l : Lane) : (setLane s n l).pair = s.pair := by
  unfold setLane
  extract_lets p _ _ t u
  have hu : u.pair = s.pair := (pair_notePort ..).trans (pair_noteDown ..)
  split
  · simpa using hu
  · exact hu

theorem pair_bringUp : (bringUp s n).pair = s.pair := by
  simp only [bringUp, apply_ite State.pair, pair_setLane, ite_self]

theorem pair_foldl {α : Type} {f : State → α → State} (hf : ∀ s x, (f s x).pair = s.pair) (l : List α) :
    (l.foldl f s).pair = s.pair :=
  List.foldlRecOn (motive := fun t : State => t.pair = s.pair) l f rfl (fun _ ht _ _ => (hf ..).trans ht)

theorem pair_finishDown : (finishDown s p).pair = s.pair := by
  unfold finishDown
  split
  · extract_lets _ t u
    have hu : u.pair = s.pair := pair_foldl t (fun _ _ => pair_setLane ..) _
    split
    · exact (pair_foldl u pair_bringUp _).trans hu
    · exact hu
  · rfl

theorem pair_downPorts : (downPorts s).pair = s.pair := by
  refine pair_foldl s (fun t p => ?_) _
  unfold downNow
  split
  · exact pair_finishDown ..
  · rfl

end

/-! ## The Muzzle on one port (02 R46) -/

theorem sameMuzzle_record (s : State) (r : DeltaRec) : SameMuzzle s (record s r) := by
  unfold record
  split <;> exact ⟨rfl, rfl, rfl⟩

section

variable {b s : State}

theorem sameMuzzle_trans {t : State} (h : SameMuzzle b s) (ht : SameMuzzle s t) : SameMuzzle b t := by
  obtain ⟨hmuzzled, hout, hpending⟩ := h
  obtain ⟨hmuzzled', hout', hpending'⟩ := ht
  exact ⟨hmuzzled'.trans hmuzzled, hout'.trans hout, hpending'.trans hpending⟩

theorem sameMuzzle_putBack {f : QFrame} (h : SameMuzzle b s) : SameMuzzle b (putBack s f) := by
  unfold putBack
  extract_lets t x
  have ht : SameMuzzle b t := by
    dsimp only [t]
    split
    · split
      · exact iteInduction (fun _ => sameMuzzle_trans h (sameMuzzle_record s _)) (fun _ => h)
      · exact h
    · exact h
  exact ht

theorem sameMuzzle_bufRelease {n : Nat} (h : SameMuzzle b s) : SameMuzzle b (bufRelease s n) := by
  unfold bufRelease
  split <;> exact h

theorem sameMuzzle_muzzlePort {p : Nat} (h : SameMuzzle b s) : SameMuzzle b (muzzlePort s p) := by
  unfold muzzlePort
  split
  · exact h
  · extract_lets sending t lost stay u v
    have ht : SameMuzzle b t := iteInduction (fun _ => h) (fun _ => h)
    have hu : SameMuzzle b u := ht
    have hv : SameMuzzle b v := iteInduction (fun _ => sameMuzzle_bufRelease hu) (fun _ => hu)
    exact List.foldlRecOn _ putBack hv (fun _ hw _ _ => sameMuzzle_putBack hw)

end

theorem sameMuzzle_closeFinal (s : State) (extraction : Bool) : SameMuzzle s (closeFinal s extraction) := by
  unfold closeFinal closeDelta
  extract_lets _ _ x t spill u v
  have hv : SameMuzzle s v := iteInduction (fun _ => ⟨rfl, rfl, rfl⟩) (fun _ => ⟨rfl, rfl, rfl⟩)
  exact hv

end Sys2Proof.Machine.Laws
end

section
/-!
CLAIMS. FRAME_SENT and MUZZLE (08 R191, 02 R46, 14 R333, R334): what each does, and a state in which FRAME_SENT counts twice, since
the number of the queue of its frame is out of range.
-/

namespace Sys2Proof.Proofs

open Sys2Proof Sys2Proof.Machine Sys2Proof.Machine.Laws

/-- FRAME_SENT up to the release of the frame's buffer: the frame is out of its FIFO, counted, and on the wire. -/
def wireSent (s : State) (p : Nat) (f : QFrame) (rest : List QFrame) : State :=
  let t := countN (count (setFifo s p rest) (0xC100 + p) 0x08) (0xC100 + p) 0x09 (wireLen f)
  emit (ctrAddAt (countAt (count t 0xC0B0 0x03) 0xC0B1 0x03 f.queue) 0xC0B1 0x04 f.queue f.len) (.frame p (macFrame f))

variable {s : State} {p : BitVec 5} {f : QFrame} {rest : List QFrame}

theorem fifo_wireSent (s : State) (n : Nat) (f : QFrame) (rest : List QFrame) : fifo (wireSent s n f rest) n = rest :=
  sget_sset_self ..

/-- A queue's counters are kept apart from the port's as long as its number fits in a key. -/
theorem ctrGet_wireSent (s : State) (n : Nat) (hqueue : f.queue < 2 ^ 32) :
    ctrGet (wireSent s n f rest) (0xC100 + n) 0x08 0 = (ctrGet s (0xC100 + n) 0x08 0 + 1) % 2 ^ 64 := by
  have hqueues (t : State) : ctrGet (ctrAddAt (countAt (count t 0xC0B0 0x03) 0xC0B1 0x03 f.queue) 0xC0B1 0x04 f.queue
      f.len) (0xC100 + n) 0x08 0 = ctrGet t (0xC100 + n) 0x08 0 := by
    rw [countAt, count, ctrGet_ctrAddAt_of_sub _ _ _ _ (by decide) (by decide) hqueue,
      ctrGet_ctrAddAt_of_sub _ _ _ _ (by decide) (by decide) hqueue,
      ctrGet_ctrAddAt_of_sub _ _ _ _ (by decide) (by decide) (by decide)]
  rw [wireSent, ctrGet_emit, hqueues, countN, ctrGet_ctrAddAt_of_sub _ _ _ _ (by decide) (by decide) (by decide),
    ctrGet_count_self, ctrGet_setFifo]

theorem exec_frameSent (hfifo : fifo s p.toNat = f :: rest) (hup : operUp s p.toNat = true) (hopen : s.pair.muzzled = false)
    (hcut : p.toNat ∉ s.shp.cut) : exec (.frameSent p) s =
      .next (finishDown (retireFrame (bufRelease (wireSent s p.toNat f rest) f.handle) f 0 0) p.toNat) := by
  refine congrArg Host.Outcome.next ?_
  simp only [hfifo]
  rw [if_pos ⟨hup, by simp [hopen], by simpa using hcut⟩, wireSent]

/-- What FRAME_SENT does for a queue whose number fits in the 32 bits that a key leaves to it, as those of the 131,072 queues do
(08 R197). -/
theorem frameSent_sends (hqueue : f.queue < 2 ^ 32) (hfifo : fifo s p.toNat = f :: rest) (hup : operUp s p.toNat = true)
    (hopen : s.pair.muzzled = false) (hcut : p.toNat ∉ s.shp.cut) :
    ∃ t, exec (.frameSent p) s = .next t ∧ fifo t p.toNat = rest ∧ .frame p.toNat (macFrame f) ∈ t.out ∧
      ctrGet t (0xC100 + p.toNat) 0x08 0 = (ctrGet s (0xC100 + p.toNat) 0x08 0 + 1) % 2 ^ 64 := by
  refine ⟨_, exec_frameSent hfifo hup hopen hcut, ?_⟩
  obtain ⟨hfifos, hout, hctr⟩ := sameSending_finishDown (p := p.toNat) (sameSending_retireFrame (f := f) (status := 0)
    (detail := 0) (sameSending_bufRelease (n := f.handle) (sameSending_self (wireSent s p.toNat f rest))))
  refine ⟨?_, ?_, (hctr _).trans (ctrGet_wireSent s p.toNat hqueue)⟩
  · rw [fifo, hfifos]
    exact fifo_wireSent ..
  · rw [hout]
    exact List.mem_append_right _ (List.mem_singleton_self _)

theorem frameSent_of_empty (h : fifo s p.toNat = []) : exec (.frameSent p) s = .next s := by
  refine congrArg Host.Outcome.next ?_
  simp only [h]

theorem muzzle_muzzles (hfence : s.pair.fence = true) (hopen : s.pair.muzzled = false) :
    ∃ t, exec .muzzle s = .next t ∧ t.pair.muzzled = true ∧ t.pair.hfOut = (s.pair.hfOut || s.pair.hfPending) ∧
      t.pair.hfPending = false := by
  refine ⟨_, congrArg Host.Outcome.next (if_pos (by simp [hfence, hopen])), ?_⟩
  extract_lets u pair v
  obtain ⟨-, hout, hpending⟩ : SameMuzzle s u := List.foldlRecOn (motive := SameMuzzle s) _ muzzlePort
    ⟨rfl, rfl, rfl⟩ (fun _ ht _ _ => sameMuzzle_muzzlePort ht)
  clear_value u
  have hpair : v.pair.muzzled = true ∧ v.pair.hfOut = (s.pair.hfOut || s.pair.hfPending) ∧ v.pair.hfPending = false := by
    dsimp only [v, pair]
    rw [pair_downPorts, ← hout, ← hpending]
    exact ⟨rfl, rfl, rfl⟩
  clear_value v
  split
  case h_1 x _ =>
    obtain ⟨hmuzzled', hout', hpending'⟩ := sameMuzzle_closeFinal v x
    rwa [hmuzzled', hout', hpending']
  case h_2 => exact hpair

theorem muzzle_of_unfenced (h : s.pair.fence = false) : exec .muzzle s = .next s :=
  congrArg Host.Outcome.next (if_neg (by simp [h]))

/-! ## A queue number that runs into another counter's key -/

/-- A frame whose queue number, far beyond the 131,072 queues, makes its queue's frame counter the tx_frames of port 0. -/
def aliasingFrame : QFrame :=
  { handle := 0, bytes := [], len := 64, queue := okey 0xC100 0x08 0 - okey 0xC0B1 0x03 0, since := 0, released := true,
    entry := none, isProt := false }

/-- The state after reset with every lane UP and that frame in transmission on port 0. -/
def aliasingInTransmission : State :=
  setFifo { State.reset with net := { State.reset.net with lanes := List.replicate 32 ⟨.up, 0, 0⟩ } } 0 [aliasingFrame]

/-- Refutes O25: a frame of the state names its queue by a number without a bound, and one of 2^32 or more runs past the element
part of a counter's key; here the count of the frame's queue falls on tx_frames of its port, which counts 2 for one frame. The
131,072 queues of 08 R197 stay far below: for a number under 2^32 the clause is `frameSent_sends`, and the other clauses hold as
they stand (`frameSent_of_empty`, `muzzle_muzzles`, `muzzle_of_unfenced`). -/
theorem not_framesSentAndMuzzle : ¬ Obligations.FramesSentAndMuzzle := by
  unfold Obligations.FramesSentAndMuzzle
  rintro ⟨hsent, -⟩
  obtain ⟨t, hexec, -, -, hcount⟩ := hsent aliasingInTransmission 0 aliasingFrame [] (by decide +kernel)
    (by decide +kernel) rfl (by decide +kernel)
  cases hexec
  exact absurd hcount (by decide +kernel)

end Sys2Proof.Proofs
end

section
/-!
SUPPORT. What Kennel's operations touch: its own state, the ledger, the delta, the results that wait for threads, and counters
(09 R212 to R219).
-/

namespace Sys2Proof.Machine.Laws

open Sys2Proof Sys2Proof.Machine

/-- From `b` to `s` Kennel has worked at most: its state, the ledger, the pair's delta, the clusters' rings and counters may
differ, and nothing else does. -/
def KennelWork (b s : State) : Prop :=
  ∃ ken led pair jx ctr, s = { b with ken := ken, led := led, pair := pair, jx := jx, objs := { b.objs with ctr := ctr } }

/-- From `b` to `s` the lanes, Sheepdog, the forwarding tables, the stage words, the slices, the host interface, the queue of
commands and the current image stand as they did. -/
def SameFabric (b s : State) : Prop :=
  s.net = b.net ∧ s.shp = b.shp ∧ s.fwd = b.fwd ∧ s.stg = b.stg ∧ s.slc = b.slc ∧ s.hst = b.hst ∧ s.pending = b.pending ∧
    s.tt.cur = b.tt.cur

section

variable {b s : State} {α : Type} {p : Prop} [Decidable p]

theorem kennelWork_self (s : State) : KennelWork s s := ⟨_, _, _, _, _, rfl⟩

theorem kennelWork_with {ken led pair jx ctr} (h : KennelWork b s) :
    KennelWork b { s with ken := ken, led := led, pair := pair, jx := jx, objs := { s.objs with ctr := ctr } } := by
  obtain ⟨_, _, _, _, _, rfl⟩ := h
  exact ⟨ken, led, pair, jx, ctr, rfl⟩

theorem KennelWork.cip (h : KennelWork b s) : s.cip = b.cip := by
  obtain ⟨_, _, _, _, _, rfl⟩ := h
  rfl

theorem kennelWork_ite {u v : State} (hu : KennelWork b u) (hv : KennelWork b v) : KennelWork b (if p then u else v) :=
  iteInduction (fun _ => hu) (fun _ => hv)

theorem kennelWork_ite_snd {u v : α × State} (hu : KennelWork b u.2) (hv : KennelWork b v.2) :
    KennelWork b (if p then u else v).2 :=
  iteInduction (motive := fun r : α × State => KennelWork b r.2) (fun _ => hu) (fun _ => hv)

theorem kennelWork_foldl {f : State → α → State} (hf : ∀ s x, KennelWork b s → KennelWork b (f s x)) {l : List α}
    (h : KennelWork b s) : KennelWork b (l.foldl f s) :=
  List.foldlRecOn l f h (fun _ ht x _ => hf _ x ht)

/-! ## Counters, the delta, the ledger and results -/

theorem kennelWork_count {i u : Nat} (h : KennelWork b s) : KennelWork b (count s i u) := kennelWork_with h

theorem kennelWork_record {r : DeltaRec} (h : KennelWork b s) : KennelWork b (record s r) :=
  kennelWork_ite (kennelWork_with h) h

theorem kennelWork_noteWait (h : KennelWork b s) : KennelWork b (noteWait s) := by
  have ht : KennelWork b (if s.led.entries.length < 262144 then s else { s with led := { s.led with waited := true } }) :=
    kennelWork_ite h (kennelWork_with h)
  exact kennelWork_ite ht (kennelWork_with ht)

theorem kennelWork_ledPut {i : Nat} {e : LedEntry} (h : KennelWork b s) : KennelWork b (ledPut s i e) :=
  kennelWork_with (kennelWork_record h)

theorem kennelWork_ledAccept {k : LedKind} {q : OrdQ} {slice : Nat} {infra restart : Bool} {ref : LedRef}
    (h : KennelWork b s) : KennelWork b (ledAccept s k q slice infra restart ref).2 :=
  kennelWork_ledPut (kennelWork_count (kennelWork_with (kennelWork_with h)))

theorem kennelWork_ledRun {i : Nat} (h : KennelWork b s) : KennelWork b (ledRun s i) := by
  unfold ledRun
  split
  · exact kennelWork_ite (kennelWork_ledPut h) h
  · exact h

theorem kennelWork_ledFix {i : Nat} {status detail : BitVec 8} (h : KennelWork b s) :
    KennelWork b (ledFix s i status detail) := by
  unfold ledFix
  split
  · exact h
  · exact kennelWork_with (kennelWork_ledPut (kennelWork_ite (kennelWork_count h) h))

theorem kennelWork_ledDone {i : Nat} {status detail : BitVec 8} (h : KennelWork b s) :
    KennelWork b (ledDone s i status detail) :=
  kennelWork_ite h (kennelWork_ledFix h)

theorem kennelWork_kenComplete {r : KReq} {status detail gen : Nat} (h : KennelWork b s) :
    KennelWork b (kenComplete s r status detail gen) :=
  kennelWork_ledDone (kennelWork_ite (kennelWork_with (kennelWork_count h)) (kennelWork_with (kennelWork_count h)))

/-! ## Slots, the cache and erases (09 R212 to R217) -/

theorem kennelWork_slotPut {n : Nat} {k : KenSlot} (h : KennelWork b s) : KennelWork b (slotPut s n k) := by
  unfold slotPut
  split
  · exact kennelWork_with (kennelWork_with (kennelWork_record h))
  · exact kennelWork_with (kennelWork_with h)

/-- The cache changes in which slots it holds, and in their order. -/
theorem cacheIn_eq {t : State} {n : Nat} (h : cacheIn s n = some t) :
    ∃ cached, t = { s with ken := { s.ken with cached := cached } } := by
  unfold cacheIn at h
  extract_lets at h
  split at h
  · cases h
    exact ⟨_, rfl⟩
  · split at h
    · cases h
      exact ⟨_, rfl⟩
    · cases h

theorem cacheTouch_eq (s : State) (n : Nat) (missed : Bool) :
    ∃ cached ctr, cacheTouch s n missed =
      { s with ken := { s.ken with cached := cached }, objs := { s.objs with ctr := ctr } } := by
  unfold cacheTouch
  extract_lets t
  obtain ⟨ctr, ht⟩ : ∃ ctr, t = { s with objs := { s.objs with ctr := ctr } } := by
    dsimp only [t]
    split
    · exact ⟨_, rfl⟩
    · exact ⟨_, rfl⟩
  clear_value t
  subst ht
  cases hin : cacheIn { s with objs := { s.objs with ctr := ctr } } n with
  | none => exact ⟨s.ken.cached, ctr, rfl⟩
  | some u =>
    obtain ⟨cached, rfl⟩ := cacheIn_eq hin
    exact ⟨cached, ctr, rfl⟩

theorem kennelWork_cacheTouch {n : Nat} {missed : Bool} (h : KennelWork b s) : KennelWork b (cacheTouch s n missed) := by
  obtain ⟨cached, ctr, heq⟩ := cacheTouch_eq s n missed
  rw [heq]
  exact kennelWork_with h

theorem kennelWork_fetchSlot {n : Nat} (h : KennelWork b s) : KennelWork b (fetchSlot s n) :=
  kennelWork_ite h (kennelWork_with h)

theorem kennelWork_settleErases (h : KennelWork b s) : KennelWork b (settleErases s) :=
  kennelWork_foldl (fun _ _ => kennelWork_kenComplete) (kennelWork_with h)

theorem kennelWork_scrub {n : Nat} (h : KennelWork b s) : KennelWork b (scrub s n) :=
  kennelWork_settleErases (kennelWork_slotPut (kennelWork_with h))

theorem kennelWork_keyRelease {n gen : Nat} (h : KennelWork b s) : KennelWork b (keyRelease s n gen) := by
  unfold keyRelease
  extract_lets _ _ _ _ _ _ u
  have hu : KennelWork b u := kennelWork_with (kennelWork_ite (kennelWork_with h) h)
  exact kennelWork_ite (kennelWork_scrub hu) (kennelWork_settleErases hu)

theorem kennelWork_slotWrite {n kind material : Nat} {owner : Option Nat} (h : KennelWork b s) :
    KennelWork b (slotWrite s n kind material owner).2 := by
  unfold slotWrite
  extract_lets
  split
  · exact kennelWork_count h
  · exact kennelWork_slotPut h
  · exact kennelWork_slotPut h
  · exact kennelWork_ite_snd (kennelWork_count h) (kennelWork_ite_snd (kennelWork_slotPut h)
      (kennelWork_ite_snd (kennelWork_count h) (kennelWork_slotPut (kennelWork_with h))))

/-! ## Operations (09 Table 9-9) -/

theorem kennelWork_doGenerate {r : KReq} (h : KennelWork b s) : KennelWork b (doGenerate s r) :=
  kennelWork_ite (kennelWork_kenComplete h) (kennelWork_ite (kennelWork_kenComplete (kennelWork_with h))
    (kennelWork_kenComplete (kennelWork_slotWrite (kennelWork_with h))))

theorem kennelWork_eraseWaits {r : KReq} (h : KennelWork b s) : KennelWork b (eraseWaits s r) := kennelWork_with h

theorem kennelWork_doErase {r : KReq} (h : KennelWork b s) : KennelWork b (doErase s r) := by
  unfold doErase
  extract_lets
  refine kennelWork_ite (kennelWork_kenComplete h) ?_
  split
  · exact kennelWork_kenComplete h
  · exact kennelWork_kenComplete (kennelWork_scrub h)
  · exact kennelWork_eraseWaits h
  · exact kennelWork_ite (kennelWork_kenComplete (kennelWork_scrub h))
      (kennelWork_count (kennelWork_slotPut (kennelWork_eraseWaits h)))

theorem kennelWork_kenTake {l : List KReq} (h : KennelWork b s) : KennelWork b (kenTake s l) := by
  induction l generalizing s with
  | nil => exact kennelWork_with h
  | cons q l ih =>
    unfold kenTake
    split
    case h_1 t he =>
      refine ih ?_
      unfold kenAccept at he
      split at he
      · cases he
      · cases he
        exact kennelWork_with (kennelWork_ledAccept h)
    case h_2 => exact kennelWork_noteWait (kennelWork_with h)

theorem kennelWork_kenPump (h : KennelWork b s) : KennelWork b (kenPump s) := kennelWork_kenTake h

theorem kennelWork_submit {q : KReq} (h : KennelWork b s) : KennelWork b ((kenAccept s q).getD (noteWait s)) := by
  unfold kenAccept
  split
  · exact kennelWork_noteWait h
  · exact kennelWork_with (kennelWork_ledAccept h)

theorem kennelWork_kenFetch {held : List KReq} (h : KennelWork b s) : KennelWork b (kenFetch s held).1 :=
  kennelWork_foldl (fun _ _ ht => kennelWork_foldl (fun _ _ => kennelWork_fetchSlot) ht) h

/-! ## What GENERATE, ERASE and FORCE_ERASE leave alone -/

theorem sameFabric_self (s : State) : SameFabric s s := by simp [SameFabric]

theorem sameFabric_kennelWork {t : State} (h : SameFabric b s) (hw : KennelWork s t) : SameFabric b t := by
  obtain ⟨_, _, _, _, _, rfl⟩ := hw
  exact h

theorem sameFabric_ite {u v : State} (hu : SameFabric b u) (hv : SameFabric b v) : SameFabric b (if p then u else v) :=
  iteInduction (fun _ => hu) (fun _ => hv)

/-- FORCE_ERASE stops the users of the slot as well. -/
theorem sameFabric_doForceErase {r : KReq} (h : SameFabric b s) : SameFabric b (doForceErase s r) := by
  unfold doForceErase
  extract_lets _ _ t u v
  have hcomplete : SameFabric b (kenComplete s r 2 0x05 0) :=
    sameFabric_kennelWork h (kennelWork_kenComplete (kennelWork_self s))
  have ht : KennelWork s t := kennelWork_count (kennelWork_self s)
  have hv : SameFabric b v := h
  refine sameFabric_ite hcomplete ?_
  split
  · exact sameFabric_kennelWork h (kennelWork_kenComplete ht)
  · exact sameFabric_kennelWork h (kennelWork_kenComplete (kennelWork_scrub ht))
  · exact sameFabric_kennelWork hv (kennelWork_scrub (kennelWork_self v))

/-- A request with the OP of GENERATE, ERASE or FORCE_ERASE, or with a reserved one, is served. -/
theorem sameFabric_kenServe {r : KReq} (h : SameFabric b s)
    (hop : fld r.raw 0 4 = 2 ∨ fld r.raw 0 4 = 3 ∨ fld r.raw 0 4 = 4 ∨ kenReservedOp (fld r.raw 0 4) = true) :
    SameFabric b (kenServe s r) := by
  unfold kenServe
  extract_lets t u
  have ht : KennelWork s t := kennelWork_ledRun (kennelWork_self s)
  have hu : KennelWork s u := kennelWork_foldl (fun _ _ => kennelWork_cacheTouch) ht
  have hended : ∀ status detail, SameFabric b (kenComplete t r status detail 0) := fun _ _ =>
    sameFabric_kennelWork h (kennelWork_kenComplete ht)
  clear_value u
  refine sameFabric_ite (hended 1 0x0F) (sameFabric_ite (hended 8 0) (sameFabric_ite (hended 5 0x01) ?_))
  generalize fld r.raw 0 4 = op at hop
  obtain rfl | rfl | rfl | hreserved := hop
  · exact sameFabric_kennelWork h (kennelWork_doGenerate hu)
  · exact sameFabric_kennelWork h (kennelWork_doErase hu)
  · exact sameFabric_doForceErase (sameFabric_kennelWork h hu)
  · split
    case h_8 => exact sameFabric_kennelWork h (kennelWork_kenComplete hu)
    all_goals cases hreserved

theorem sameFabric_kennel {op : Nat} (hop : op = 2 ∨ op = 3 ∨ op = 4) (req : Option (BitVec 512)) :
    SameFabric s (kennel s op req) := by
  unfold kennel
  split
  · exact sameFabric_kennelWork (sameFabric_self s)
      (kennelWork_ite (kennelWork_submit (kennelWork_self s)) (kennelWork_self s))
  · extract_lets x f
    have hf : KennelWork s f.1 := kennelWork_kenFetch (kennelWork_self s)
    clear_value f
    split
    case h_1 => exact sameFabric_kennelWork (sameFabric_self s) (kennelWork_with hf)
    case h_2 r rest _ =>
      have hheld : ∀ queue, SameFabric s { f.1 with ken := { f.1.ken with queue := queue } } := fun _ =>
        sameFabric_kennelWork (sameFabric_self s) (kennelWork_with hf)
      split
      case isTrue hserved =>
        refine sameFabric_kennelWork (sameFabric_kenServe (hheld _) ?_) (kennelWork_kenPump (kennelWork_self _))
        obtain rfl | hreserved := hserved
        · exact hop.imp_right (Or.imp_right .inl)
        · exact .inr (.inr (.inr hreserved))
      case isFalse => exact hheld _

end

end Sys2Proof.Machine.Laws
end

section
/-!
SUPPORT. Kennel's service of a request that does not own its slot (09 R215, R219).
-/

namespace Sys2Proof.Machine.Laws

open Sys2Proof Sys2Proof.Machine

/-- From `b` to `s` Kennel's queues and slots, the wrap counter, device memory and the values of objects stand as they did. -/
def SameKeys (b s : State) : Prop :=
  s.ken.queue = b.ken.queue ∧ s.ken.issues = b.ken.issues ∧ s.ken.slots = b.ken.slots ∧ s.ken.wrap = b.ken.wrap ∧
    s.hbm = b.hbm ∧ s.objs.vals = b.objs.vals

section

variable {b s : State} {r : KReq}

theorem sameKeys_self (s : State) : SameKeys s s := by simp [SameKeys]

/-- Kennel's work that touches no slot, no queue and not the wrap counter. -/
theorem sameKeys_kennelWork {t : State} (h : SameKeys b s) (hw : KennelWork s t) (hqueue : t.ken.queue = s.ken.queue)
    (hissues : t.ken.issues = s.ken.issues) (hslots : t.ken.slots = s.ken.slots) (hwrap : t.ken.wrap = s.ken.wrap) :
    SameKeys b t := by
  obtain ⟨hqueue', hissues', hslots', hwrap', hhbm, hvals⟩ := h
  refine ⟨hqueue.trans hqueue', hissues.trans hissues', hslots.trans hslots', hwrap.trans hwrap', ?_⟩
  obtain ⟨_, _, _, _, _, rfl⟩ := hw
  exact ⟨hhbm, hvals⟩

theorem SameKeys.slotOwned (h : SameKeys b s) (owner : Option Nat) (cores : Bool) (n : Nat) :
    slotOwned s owner cores n = slotOwned b owner cores n := by
  obtain ⟨-, -, hslots, -, -, hvals⟩ := h
  simp only [Machine.slotOwned, sliceRange, slotGet, hslots, objGet_congr hvals]

theorem ledRun_ken (s : State) (i : Nat) : (ledRun s i).ken = s.ken := by
  unfold ledRun
  split
  · split <;> simp
  · rfl

theorem ledFix_ken (s : State) (i : Nat) (status detail : BitVec 8) : (ledFix s i status detail).ken = s.ken := by
  unfold ledFix
  split
  · rfl
  · dsimp only
    split <;> simp

theorem ledDone_ken (s : State) (i : Nat) (status detail : BitVec 8) : (ledDone s i status detail).ken = s.ken :=
  iteInduction (motive := fun t : State => t.ken = s.ken) (fun _ => rfl) (fun _ => ledFix_ken ..)

theorem sameKeys_cacheTouch {n : Nat} {missed : Bool} (h : SameKeys b s) : SameKeys b (cacheTouch s n missed) := by
  obtain ⟨cached, ctr, heq⟩ := cacheTouch_eq s n missed
  rw [heq]
  exact h

theorem sameKeys_kenComplete {status detail gen : Nat} (h : SameKeys b s) :
    SameKeys b (kenComplete s r status detail gen) := by
  have hken : ∃ results, (kenComplete s r status detail gen).ken = { s.ken with results := results } := by
    unfold kenComplete
    rw [ledDone_ken]
    split
    · exact ⟨s.ken.results, rfl⟩
    · exact ⟨_, rfl⟩
  obtain ⟨results, hken⟩ := hken
  refine sameKeys_kennelWork h (kennelWork_kenComplete (kennelWork_self s)) ?_ ?_ ?_ ?_ <;> rw [hken]

/-! ## The request's ledger entry (13 R304) -/

theorem entryOpen_ledRun {i : Nat} (h : EntryOpen s i) : EntryOpen (ledRun s i) i := by
  obtain ⟨e, he, hopen⟩ := h
  simp only [ledRun, he]
  split
  · exact ⟨_, ledGet_ledPut (by simp) s i, by simp⟩
  · exact ⟨e, he, hopen⟩

theorem entryOpen_cacheTouch {i n : Nat} {missed : Bool} (h : EntryOpen s i) : EntryOpen (cacheTouch s n missed) i := by
  obtain ⟨cached, ctr, heq⟩ := cacheTouch_eq s n missed
  rw [heq]
  exact h

/-- An operation that ends makes its entry DONE with its status. -/
theorem entryDone_kenComplete (h : EntryOpen s r.entry) (status detail gen : Nat) :
    EntryDone (kenComplete s r status detail gen) r.entry (BitVec.ofNat 8 status) := by
  obtain ⟨e, he, hopen⟩ := h
  unfold kenComplete
  extract_lets _ t _ u
  have hu : ledGet u r.entry = some e := by
    dsimp only [u, t]
    split
    · exact he
    · exact he
  have hfree : ledQuarantined u r.entry = false := by simpa [ledQuarantined, hu] using hopen
  obtain ⟨hdone, -, -⟩ := ledFix_of_entry hu (BitVec.ofNat 8 status) (BitVec.ofNat 8 detail)
  rw [ledDone, hfree, if_neg Bool.false_ne_true]
  exact ⟨_, hdone, rfl, rfl⟩

/-! ## Service -/

/-- Kennel takes the head of its queue, whose slots are all cached, and serves it. -/
theorem kennel_of_serves {rest : List KReq} {op : Nat} (h : KennelServes s r rest op) :
    kennel s op none = kenPump (kenServe { s with ken := { s.ken with queue := rest } } r) := by
  obtain ⟨hqueue, -, -, -, hop, -, hcached, -⟩ := h
  have hmiss : kenMiss s r = [] := by
    rw [kenMiss, List.filter_eq_nil_iff]
    intro n hn
    simp [hcached n hn]
  have hnext : kenNext s [] s.ken.queue = ([], some (r, rest)) := by
    rw [hqueue]
    simp [kenNext, hmiss]
  simp only [kennel, hnext]
  exact if_pos (.inl hop)

theorem kenPump_of_no_issues (h : s.ken.issues = []) : kenPump s = { s with ken := { s.ken with issues := [] } } := by
  rw [kenPump, h, kenTake]

/-- An operation on a slot that its requester does not own ends with KEY_FAULT, OWNER (09 Table 9-5, R215). -/
theorem kenServe_foreign (hreset : r.reset = false) (hon : islandOn s 26 = true) (hform : kenReserved r = false)
    (howner : ∀ sl, kenOwner r = some sl → (slice s sl).state ≠ .draining)
    (hop : (fld r.raw 0 4 = 2 ∧ kindBytes (kKind r) ≠ 0) ∨ fld r.raw 0 4 = 3 ∨ fld r.raw 0 4 = 4 ∨ fld r.raw 0 4 = 5 ∨
      fld r.raw 0 4 = 6)
    (hforeign : slotOwned s (kenOwner r) (r.issuer == 17) (kSlot r) = false) (hopen : EntryOpen s r.entry) :
    ∃ u, SameKeys s u ∧ EntryOpen u r.entry ∧ kenServe s r = kenComplete u r 2 0x05 0 := by
  unfold kenServe
  extract_lets t u
  have hwork : KennelWork s t := kennelWork_ledRun (kennelWork_self s)
  have hkeys : SameKeys s t := by
    refine sameKeys_kennelWork (sameKeys_self s) hwork ?_ ?_ ?_ ?_ <;> rw [ledRun_ken]
  have hstop : kenStopped t r = false := by
    obtain ⟨_, _, _, _, _, ht⟩ := hwork
    rw [ht, kenStopped, hreset, Bool.false_or]
    split
    next sl hsl => exact beq_false_of_ne (howner sl hsl)
    next => rfl
  have hrun : islandOn t 26 = true := by
    obtain ⟨_, _, _, _, _, ht⟩ := hwork
    rw [ht]
    exact hon
  obtain ⟨hsame, hentry⟩ : SameKeys s u ∧ EntryOpen u r.entry :=
    List.foldlRecOn (motive := fun v : State => SameKeys s v ∧ EntryOpen v r.entry) _ _ ⟨hkeys, entryOpen_ledRun hopen⟩
      fun _ ⟨hv, hv'⟩ _ _ => ⟨sameKeys_cacheTouch hv, entryOpen_cacheTouch hv'⟩
  clear_value u t
  have hnot : (!slotOwned u (kenOwner r) (r.issuer == 17) (kSlot r)) = true := by rw [hsame.slotOwned, hforeign]; rfl
  rw [if_neg (by simp [hstop]), if_neg (by simp [hrun]), if_neg (by simp [hform])]
  obtain ⟨hop, hkind⟩ | hop | hop | hop | hop := hop
  · exact ⟨{ u with ken := { u.ken with draws := u.ken.draws + 1 } }, hsame, hentry,
      by rw [hop]; exact (if_neg hkind).trans (if_pos hnot)⟩
  · exact ⟨u, hsame, hentry, by rw [hop]; exact if_pos hnot⟩
  · exact ⟨u, hsame, hentry, by rw [hop]; exact if_pos hnot⟩
  · exact ⟨u, hsame, hentry, by rw [hop]; exact if_pos hnot⟩
  · exact ⟨u, hsame, hentry, by rw [hop]; exact if_pos hnot⟩

end

end Sys2Proof.Machine.Laws
end

section
/-!
CLAIMS. Kennel refuses an operation on a slot that its requester does not own (09 R215, Table 9-11).
-/

namespace Sys2Proof.Proofs

open Sys2Proof Sys2Proof.Machine Sys2Proof.Machine.Laws

/-- The five operations are Kennel's, each with its own OP. -/
theorem exec_kennel_of_op {s : State} {c : Instr} {r : KReq} {op : Nat}
    (h : (c = .generate none ∧ op = 2 ∧ kindBytes (kKind r) ≠ 0) ∨ (c = .erase none ∧ op = 3) ∨
      (c = .forceErase none ∧ op = 4) ∨ (c = .readMeta none ∧ op = 5) ∨ (c = .wrapExport none ∧ op = 6)) :
    exec c s = .next (kennel s op none) ∧
      ((op = 2 ∧ kindBytes (kKind r) ≠ 0) ∨ op = 3 ∨ op = 4 ∨ op = 5 ∨ op = 6) := by
  obtain ⟨rfl, rfl, hkind⟩ | ⟨rfl, rfl⟩ | ⟨rfl, rfl⟩ | ⟨rfl, rfl⟩ | ⟨rfl, rfl⟩ := h
  · exact ⟨rfl, .inl ⟨rfl, hkind⟩⟩
  · exact ⟨rfl, by simp⟩
  · exact ⟨rfl, by simp⟩
  · exact ⟨rfl, by simp⟩
  · exact ⟨rfl, by simp⟩

/-- Settles O28: the head of Kennel's queue ends with KEY_FAULT before its operation touches a slot. -/
theorem kennelRefusesForeignSlots : Obligations.KennelRefusesForeignSlots := by
  unfold Obligations.KennelRefusesForeignSlots
  intro s c r rest op hserves hc hforeign hopen
  obtain ⟨hexec, hops⟩ := exec_kennel_of_op hc
  rw [kennel_of_serves hserves] at hexec
  obtain ⟨-, hreset, hon, hform, hop, hissues, -, howner⟩ := hserves
  obtain ⟨u, hu, hentry, hserve⟩ := kenServe_foreign (s := { s with ken := { s.ken with queue := rest } }) hreset hon hform
    howner (by rwa [hop]) hforeign hopen
  rw [hserve] at hexec
  obtain ⟨hqueue, hissues', hslots, hwrap, hhbm, -⟩ : SameKeys { s with ken := { s.ken with queue := rest } }
      (kenComplete u r 2 0x05 0) := sameKeys_kenComplete hu
  rw [kenPump_of_no_issues (hissues'.trans hissues)] at hexec
  exact ⟨_, hexec, hqueue, hslots, hwrap, hbmByte_congr (congrArg Hbm.mem hhbm), entryDone_kenComplete hentry 2 0x05 0⟩

end Sys2Proof.Proofs
end

section
/-!
SUPPORT. What the cipher engines' grants touch: the engines' own state, the bytes that a request's output writes, the staging
buffers of XTS transfers, and counters (09 R200 to R206).
-/

namespace Sys2Proof.Machine.Laws

open Sys2Proof Sys2Proof.Machine

/-- From `b` to `s` cipher engines have worked at most: their state, the outputs of their requests in device memory, scratch and
frames, the staging buffers of DMA channels with their delta, free values drawn and counters may differ, and nothing else does. -/
def EngineWork (b s : State) : Prop :=
  ∃ cip hbm pipe jx dma pair fresh ctr, s = { b with
    cip := cip, hbm := hbm, pipe := pipe, jx := jx, dma := dma, pair := pair, fresh := fresh,
    objs := { b.objs with ctr := ctr } }

section

variable {b s : State} {α : Type} {p : Prop} [Decidable p]

theorem engineWork_self (s : State) : EngineWork s s := ⟨_, _, _, _, _, _, _, _, rfl⟩

theorem engineWork_with {cip hbm pipe jx dma pair fresh ctr} (h : EngineWork b s) :
    EngineWork b { s with
      cip := cip, hbm := hbm, pipe := pipe, jx := jx, dma := dma, pair := pair, fresh := fresh
      objs := { s.objs with ctr := ctr } } := by
  obtain ⟨_, _, _, _, _, _, _, _, rfl⟩ := h
  exact ⟨_, _, _, _, _, _, _, _, rfl⟩

theorem EngineWork.ken (h : EngineWork b s) : s.ken = b.ken := by
  obtain ⟨_, _, _, _, _, _, _, _, rfl⟩ := h
  rfl

theorem sameFabric_engineWork {t : State} (h : SameFabric b s) (hw : EngineWork s t) : SameFabric b t := by
  obtain ⟨_, _, _, _, _, _, _, _, rfl⟩ := hw
  exact h

theorem engineWork_ite {u v : State} (hu : EngineWork b u) (hv : EngineWork b v) : EngineWork b (if p then u else v) :=
  iteInduction (fun _ => hu) (fun _ => hv)

theorem engineWork_foldl {f : State → α → State} (hf : ∀ s x, EngineWork b s → EngineWork b (f s x)) {l : List α}
    (h : EngineWork b s) : EngineWork b (l.foldl f s) :=
  List.foldlRecOn l f h (fun _ ht x _ => hf _ x ht)

/-! ## Output (09 R204, R206) -/

theorem engineWork_hbmStore {a : Nat} {bs : List Byte} (h : EngineWork b s) : EngineWork b (hbmStore s a bs) :=
  engineWork_ite h (engineWork_with h)

theorem engineWork_windowStore {c : Nat} {w : Option Work} {win : Window} {bs : List Byte} (h : EngineWork b s) :
    EngineWork b (windowStore s c w win bs) := by
  unfold windowStore
  extract_lets
  split
  · exact engineWork_with h
  · split
    · exact h
    · exact engineWork_with (engineWork_ite h (engineWork_with h))
  · split
    · exact h
    · exact engineWork_with h
  · split
    · exact h
    · exact engineWork_with h
  · exact engineWork_hbmStore h
  · exact h
  · exact h
  · exact h

theorem engineWork_mapWrite {c a : Nat} {w : Option Work} {bs : List Byte} (h : EngineWork b s) :
    EngineWork b (mapWrite s c w a bs) := by
  unfold mapWrite
  split
  · exact engineWork_windowStore h
  · exact h

theorem engineWork_reqWrite {r : CReq} {a : Nat} {bs : List Byte} (h : EngineWork b s) :
    EngineWork b (reqWrite s r a bs) := by
  unfold reqWrite
  split
  · exact engineWork_mapWrite h
  · exact engineWork_hbmStore h
  · exact h

theorem engineWork_setChan {k : Nat} {x : Chan} (h : EngineWork b s) : EngineWork b (setChan s k x) := by
  have hrecord : ∀ t r, EngineWork b t → EngineWork b (record t r) := fun _ _ ht => engineWork_ite (engineWork_with ht) ht
  have hwords : EngineWork b (recordChan s k (chan s k) x) :=
    engineWork_ite (engineWork_foldl (fun _ _ ht => engineWork_ite ht (hrecord _ _ ht)) h) h
  exact engineWork_with hwords

/-! ## Engines and grants (09 R200, R201, R203) -/

theorem engineWork_creqPut {r : CReq} (h : EngineWork b s) : EngineWork b (creqPut s r) := engineWork_with h

theorem engineWork_processTo {e n : Nat} {r : CReq} (h : EngineWork b s) : EngineWork b (processTo s e r n) := by
  unfold processTo
  extract_lets
  split
  · exact engineWork_creqPut h
  · exact engineWork_ite (engineWork_setChan (engineWork_creqPut h)) (engineWork_creqPut h)
  · exact engineWork_ite (engineWork_creqPut h) (engineWork_reqWrite (engineWork_creqPut h))

theorem engineWork_advanceEng {e : Nat} (h : EngineWork b s) : EngineWork b (advanceEng s e) := by
  unfold advanceEng
  split
  · exact h
  · exact engineWork_ite h (engineWork_processTo (engineWork_with h))

theorem engineWork_advanceEngs (h : EngineWork b s) : EngineWork b (advanceEngs s) :=
  engineWork_foldl (fun _ _ => engineWork_advanceEng) h

theorem engineWork_assignReq {r : CReq} {e : Nat} (h : EngineWork b s) : EngineWork b (assignReq s r e) :=
  engineWork_with (engineWork_creqPut h)

theorem engineWork_moveGrant {code : Nat} (h : EngineWork b s) : EngineWork b (moveGrant s code) := by
  unfold moveGrant
  split
  · exact h
  · split
    · exact engineWork_with h
    · exact engineWork_ite h (engineWork_ite (engineWork_with h)
        (engineWork_creqPut (engineWork_ite (engineWork_assignReq h) h)))

theorem engineWork_dmaCipherPump (h : EngineWork b s) : EngineWork b (dmaCipherPump s) :=
  engineWork_foldl (fun _ _ => engineWork_with) (engineWork_with h)

theorem engineWork_useGrant {code : Nat} (h : EngineWork b s) : EngineWork b (useGrant s code) :=
  engineWork_dmaCipherPump (engineWork_moveGrant (engineWork_advanceEngs h))

/-! ## Grants while no engine runs a request -/

/-- Engines that run nothing do not go on. -/
theorem advanceEngs_of_idle (h : ∀ e, (ceng s e).run = none) : advanceEngs s = s :=
  List.foldlRecOn (motive := fun t => t = s) _ _ rfl fun t ht e _ => by
    subst ht
    simp [advanceEng, h e]

theorem moveGrant_hbm (s : State) (code : Nat) : (moveGrant s code).hbm = s.hbm := by
  unfold moveGrant
  split
  · rfl
  · split
    · rfl
    · split
      · rfl
      · split
        · rfl
        · dsimp only
          split <;> rfl

theorem dmaCipherPump_hbm (s : State) : (dmaCipherPump s).hbm = s.hbm :=
  List.foldlRecOn (motive := fun t : State => t.hbm = s.hbm) _ _ rfl fun _ ht _ _ => ht

theorem useGrant_hbm_of_idle (h : ∀ e, (ceng s e).run = none) (code : Nat) : (useGrant s code).hbm = s.hbm := by
  rw [useGrant, dmaCipherPump_hbm, moveGrant_hbm, advanceEngs_of_idle h]

/-- A row that fails is noted in the timetable's registers alone (03 R79). -/
theorem rowFailed_eq (s : State) :
    ∃ fault bad ctr, rowFailed s =
      { s with tt := { s.tt with fault := fault, badRows := bad }, objs := { s.objs with ctr := ctr } } := by
  unfold rowFailed rowFailedAt
  split
  · exact ⟨_, _, _, rfl⟩
  · exact ⟨_, _, _, rfl⟩

end

end Sys2Proof.Machine.Laws
end

section
/-!
CLAIMS. What cipher grants, and the creations and erasures of Kennel, leave alone (09 R200, R203, R217).
-/

namespace Sys2Proof.Proofs

open Sys2Proof Sys2Proof.Machine Sys2Proof.Machine.Laws

/-- CIPHER_GRANT notes that its row has failed, or uses its grant. -/
theorem exec_cipherGrant {s t : State} {slot : BitVec 12} {k : BitVec 3} {ok : Bool}
    (h : exec (.cipherGrant slot k ok) s = .next t) :
    t = rowFailed (atSlot s slot) ∨ ∃ code, t = useGrant (atSlot s slot) code := by
  cases h
  split
  · exact .inl rfl
  · exact .inr ⟨_, rfl⟩

theorem sameFabric_cipherGrant {s t : State} {slot : BitVec 12} {k : BitVec 3} {ok : Bool}
    (h : exec (.cipherGrant slot k ok) s = .next t) : SameFabric s t := by
  have hslot : SameFabric s (atSlot s slot) := sameFabric_self s
  obtain rfl | ⟨code, rfl⟩ := exec_cipherGrant h
  · obtain ⟨_, _, _, heq⟩ := rowFailed_eq (atSlot s slot)
    rw [heq]
    exact hslot
  · exact sameFabric_engineWork hslot (engineWork_useGrant (engineWork_self _))

theorem cipherGrant_keeps_kennel {s t : State} {slot : BitVec 12} {k : BitVec 3} {ok : Bool}
    (h : exec (.cipherGrant slot k ok) s = .next t) : t.ken = s.ken := by
  obtain rfl | ⟨code, rfl⟩ := exec_cipherGrant h
  · obtain ⟨_, _, _, heq⟩ := rowFailed_eq (atSlot s slot)
    rw [heq]
    rfl
  · exact (engineWork_useGrant (engineWork_self (atSlot s slot))).ken

theorem cipherGrant_keeps_memory {s t : State} {slot : BitVec 12} {k : BitVec 3} {ok : Bool}
    (h : exec (.cipherGrant slot k ok) s = .next t) (hidle : ∀ e, (ceng s e).run = none) : SameMemory s t := by
  suffices hhbm : t.hbm = s.hbm from hbmByte_congr (congrArg Hbm.mem hhbm)
  obtain rfl | ⟨code, rfl⟩ := exec_cipherGrant h
  · obtain ⟨_, _, _, heq⟩ := rowFailed_eq (atSlot s slot)
    rw [heq]
    rfl
  · exact useGrant_hbm_of_idle (s := atSlot s slot) hidle code

/-- Settles O29: grants work on cipher engines and what their requests write, Kennel's operations on Kennel, the ledger and the
users they stop. -/
theorem cipherAndKennelKeepOtherState : Obligations.CipherAndKennelKeepOtherState := by
  unfold Obligations.CipherAndKennelKeepOtherState
  refine ⟨?_, fun s t slot k ok h => ⟨cipherGrant_keeps_kennel h, cipherGrant_keeps_memory h⟩⟩
  rintro s t c (⟨slot, k, ok, rfl⟩ | ⟨req, rfl⟩ | ⟨req, rfl⟩ | ⟨req, rfl⟩) h
  · exact sameFabric_cipherGrant h
  · cases h
    exact sameFabric_kennel (.inl rfl) req
  · cases h
    exact sameFabric_kennel (.inr (.inl rfl)) req
  · cases h
    exact sameFabric_kennel (.inr (.inr rfl)) req

end Sys2Proof.Proofs
end

section
/-!
SUPPORT. The requests of the cipher engines: how one is found after a write, what the start of one does, and what its end leaves
(09 R200 to R205, R216).
-/

namespace Sys2Proof.Machine.Laws

open Sys2Proof Sys2Proof.Machine

section

variable {s : State} {r x : CReq} {e id : Nat}

/-! ## Requests and engines after a write -/

theorem id_of_creq (h : creq s id = some r) : r.id = id := by simpa using List.find?_some h

theorem exists_creq_of_mem (h : r ∈ s.cip.reqs) : ∃ x, creq s r.id = some x := by
  rw [← Option.isSome_iff_exists, creq, List.find?_isSome]
  exact ⟨r, h, beq_self_eq_true _⟩

theorem creq_of_mem_filterMap {ids : List Nat} (h : r ∈ ids.filterMap (creq s)) : creq s r.id = some r := by
  obtain ⟨id, -, hreq⟩ := List.mem_filterMap.1 h
  rwa [id_of_creq hreq]

theorem creq_congr {t : State} (h : t.cip.reqs = s.cip.reqs) (id : Nat) : creq t id = creq s id := by rw [creq, h, creq]

theorem ceng_congr {t : State} (h : t.cip.engs = s.cip.engs) (e : Nat) : ceng t e = ceng s e := by rw [ceng, h, ceng]

/-- A request that is there reads as it was written. -/
theorem creq_creqPut (h : creq s r.id = some x) : creq (creqPut s r) r.id = some r := by
  have hkeep : (fun y : CReq => y.id == r.id) ∘ (fun y => if y.id = r.id then r else y) = fun y => y.id == r.id := by
    funext y
    dsimp only [Function.comp]
    split
    next hy => rw [hy]
    next => rfl
  have hfind : s.cip.reqs.find? (fun y => y.id == r.id) = some x := h
  rw [creq, creqPut, List.find?_map, hkeep, hfind, Option.map_some, if_pos (id_of_creq h)]

theorem ceng_setEng (s : State) (e : Nat) (y : CEng) : ceng (setEng s e y) e = y := sget_sset_self ..

/-! ## The DMA engine's issue queue takes its requests (09 R200) -/

theorem creq_cipherIssue (s : State) (src : CSrc) (raw : BitVec 512) (owner : Option Nat) (id : Nat) :
    creq (cipherIssue s src raw owner) id = (creq s id).or
      (([⟨s.cip.nextId, src, raw, owner, 0, none, false, false, none, 0, none, [], 0, false, 0⟩] : List CReq).find?
        (fun y => y.id == id)) :=
  List.find?_append

theorem creq_dmaCipherPump_of_creq (h : creq s id = some r) : creq (dmaCipherPump s) id = some r :=
  List.foldlRecOn (motive := fun t : State => creq t id = some r) _ _ h fun _ ht _ _ => by
    rw [creq_cipherIssue, ht, Option.some_or]

/-- A request takes a number that none has had. -/
theorem creq_dmaCipherPump_of_lt (h : creq s id = none) (hlt : id < s.cip.nextId) : creq (dmaCipherPump s) id = none := by
  have hpump : creq (dmaCipherPump s) id = none ∧ id < (dmaCipherPump s).cip.nextId := by
    refine List.foldlRecOn (motive := fun t : State => creq t id = none ∧ id < t.cip.nextId) _ _ ⟨h, hlt⟩
      fun t ⟨ht, hlt⟩ c _ => ⟨?_, hlt.trans (Nat.lt_succ_self _)⟩
    rw [creq_cipherIssue, ht, Option.none_or, List.find?_cons_of_neg (by simpa using hlt.ne'), List.find?_nil]
  obtain ⟨hnone, -⟩ := hpump
  exact hnone

theorem dmaCipherPump_engs (s : State) : (dmaCipherPump s).cip.engs = s.cip.engs :=
  List.foldlRecOn (motive := fun t : State => t.cip.engs = s.cip.engs) _ _ rfl fun _ ht _ _ => ht

/-! ## A grant that moves bytes (09 R200, R201) -/

theorem mem_of_grantTarget {which : CSrc → Bool} (h : grantTarget s which = some r) : r ∈ s.cip.reqs := by
  unfold grantTarget at h
  extract_lets q at h
  have hq : r ∈ q := by
    split at h
    next hfind =>
      cases h
      exact List.mem_of_find?_eq_some hfind
    next => exact List.mem_of_head? h
  exact List.mem_of_mem_filter hq

/-- The request that a grant has given its next bytes of `s`. -/
def granted (s : State) (r : CReq) (e : Nat) : CReq :=
  { r with engine := some e, grants := r.grants + 1, data := r.data ++ streamBytes s r (64 * r.grants) (grantLen r) }

/-- A grant gives its request the next bytes, on the engine that it has or takes with them. -/
theorem moveGrant_of_target {code : Nat} (htarget : grantTarget s (legSource code) = some r)
    (hengine : r.engine = some e ∨ (r.engine = none ∧ pickEngine s r = some e)) (hready : grantReady s r = true)
    (hroom : engineBytes s e + grantLen r ≤ 16384) : creq (moveGrant s code) r.id = some (granted s r e) := by
  obtain ⟨x, hx⟩ := exists_creq_of_mem (mem_of_grantTarget htarget)
  obtain hassigned | ⟨hfree, hpick⟩ := hengine
  · have hmove : moveGrant s code = creqPut s (granted s r e) := by
      simp [moveGrant, htarget, hassigned, hready, hroom.not_gt, granted]
    rw [hmove]
    exact creq_creqPut (r := granted s r e) hx
  · have hmove : moveGrant s code = creqPut (assignReq s r e) (granted s r e) := by
      simp only [moveGrant, htarget, hfree, hpick, hready, hroom.not_gt]
      rfl
    have hassign : creq (assignReq s r e) r.id = some { r with engine := some e } :=
      creq_creqPut (r := { r with engine := some e }) hx
    rw [hmove]
    exact creq_creqPut (r := granted s r e) hassign

/-! ## Starts (09 R202, R216) -/

/-- A request that runs has been bound already or uses no slot, or is bound now. -/
theorem startReq_of_runs (h : RequestRuns s r) (e : Nat) :
    ((r.gen ≠ none ∨ rKeyed r = false) ∧ startReq s e r = runNow s e r.id) ∨
      startReq s e r = runNow (bindNow (cacheTouch s (rSlot r) r.missed) r) e r.id := by
  obtain ⟨hstop, hbound | ⟨hform, hlength, htag, haddress, hslot⟩⟩ := h
  · exact .inl ⟨.inl (Option.isSome_iff_ne_none.1 hbound), by simp [startReq, hstop, hbound]⟩
  · rw [Option.isSome_iff_ne_none] at htag
    by_cases hbound : r.gen.isSome = true
    · exact .inl ⟨.inl (Option.isSome_iff_ne_none.1 hbound), by simp [startReq, hstop, hbound]⟩
    · obtain hplain | ⟨htakes, hcached, hbind⟩ := hslot
      · exact .inl ⟨.inr hplain, by simp [startReq, hstop, hbound, hform, hlength, htag, haddress, hplain]⟩
      · by_cases hkeyed : rKeyed r = true
        · right
          have hon : islandOn s 26 = true := by
            simp only [islandTakes, Bool.and_eq_true] at htakes
            obtain ⟨⟨hon, -⟩, -⟩ := htakes
            exact hon
          have hbind' : bindFault (cacheTouch s (rSlot r) r.missed) r = none := by
            obtain ⟨cached, ctr, heq⟩ := cacheTouch_eq s (rSlot r) r.missed
            rw [heq]
            exact hbind
          simp [startReq, hstop, hbound, hform, hlength, htag, haddress, hkeyed, hon, htakes, hcached, hbind']
        · rw [Bool.not_eq_true] at hkeyed
          exact .inl ⟨.inr hkeyed, by simp [startReq, hstop, hbound, hform, hlength, htag, haddress, hkeyed]⟩

/-- The engine runs the request, and its contexts stay. -/
theorem runNow_takes (h : creq s r.id = some r) (e : Nat) :
    (ceng (runNow s e r.id) e).run = some r.id ∧ (ceng (runNow s e r.id) e).ctx = (ceng s e).ctx ∧
      creq (runNow s e r.id) r.id = some { r with started := true, level := objGet s 0x8000 0x01 0 } ∧
      (runNow s e r.id).ken = s.ken := by
  simp only [runNow, h, ceng_setEng, true_and]
  exact ⟨creq_creqPut (r := { r with started := true, level := objGet s 0x8000 0x01 0 }) h, rfl⟩

/-- The slot that a request is bound to has a user more. -/
theorem bindNow_takes (h : creq s r.id = some r) :
    ∃ r', r'.id = r.id ∧ creq (bindNow s r) r.id = some r' ∧ r'.gen = some (slotGet s (rSlot r)).gen ∧
      (slotGet (bindNow s r) (rSlot r)).useCur = (slotGet s (rSlot r)).useCur + 1 ∧
      (bindNow s r).cip.engs = s.cip.engs ∧ (bindNow s r).objs.vals = s.objs.vals := by
  refine ⟨{ r with gen := some (slotGet s (rSlot r)).gen, kind := (slotGet s (rSlot r)).kind, filling := false }, rfl,
    creq_creqPut (r := { r with
      gen := some (slotGet s (rSlot r)).gen, kind := (slotGet s (rSlot r)).kind, filling := false }) h, rfl, ?_, rfl, rfl⟩
  exact congrArg KenSlot.useCur (sget_sset_self ..)

/-- A request whose checks pass runs at the level in force, and one that is not bound binds its slot. -/
theorem startReq_takes (h : RequestRuns s r) (hreq : creq s r.id = some r) (e : Nat) :
    (ceng (startReq s e r) e).run = some r.id ∧ (ceng (startReq s e r) e).ctx = (ceng s e).ctx ∧
      ∃ r', creq (startReq s e r) r.id = some r' ∧ r'.started = true ∧ r'.level = objGet s 0x8000 0x01 0 ∧
        (r.gen = none → rKeyed r = true → r'.gen = some (slotGet s (rSlot r)).gen ∧
          (slotGet (startReq s e r) (rSlot r)).useCur = (slotGet s (rSlot r)).useCur + 1) := by
  obtain ⟨hready, heq⟩ | heq := startReq_of_runs h e
  · rw [heq]
    obtain ⟨hrun, hctx, hfound, -⟩ := runNow_takes hreq e
    refine ⟨hrun, hctx, _, hfound, rfl, rfl, fun hgen hkeyed => ?_⟩
    obtain hbound | hplain := hready
    · exact absurd hgen hbound
    · exact absurd hkeyed (by simp [hplain])
  · rw [heq]
    obtain ⟨cached, ctr, htouch⟩ := cacheTouch_eq s (rSlot r) r.missed
    have hreq' : creq (cacheTouch s (rSlot r) r.missed) r.id = some r := by
      rw [htouch]
      exact hreq
    obtain ⟨r', hid, hbound, hgen, huse, hengs, hvals⟩ := bindNow_takes hreq'
    have hslots : slotGet (cacheTouch s (rSlot r) r.missed) (rSlot r) = slotGet s (rSlot r) := by
      rw [htouch]
      rfl
    have hengs' : (bindNow (cacheTouch s (rSlot r) r.missed) r).cip.engs = s.cip.engs := by
      rw [hengs, htouch]
    have hvals' : (bindNow (cacheTouch s (rSlot r) r.missed) r).objs.vals = s.objs.vals := by
      rw [hvals, htouch]
    rw [hslots] at hgen huse
    rw [← hid] at hbound ⊢
    obtain ⟨hrun, hctx, hfound, hken⟩ := runNow_takes hbound e
    refine ⟨hrun, hctx.trans (congrArg CEng.ctx (ceng_congr hengs' e)), _, hfound, rfl, objGet_congr hvals' .., fun _ _ =>
      ⟨hgen, ?_⟩⟩
    rw [slotGet, hken]
    exact huse

/-- An engine that runs nothing and has no context starts the first request that waits for no fill. -/
theorem startNext_of_no_context {rest : List CReq} (hrun : (ceng s e).run = none) (hout : (ceng s e).out = false)
    (hctx : (ceng s e).ctx = [])
    (hqueue : ((ceng s e).queue.filterMap (creq s)).filter (fun q => !q.filling) = r :: rest) :
    startNext s e = startReq s e r := by
  simp [startNext, hrun, hout, hctx, hqueue]

theorem creq_of_ready {rest : List CReq}
    (h : ((ceng s e).queue.filterMap (creq s)).filter (fun q => !q.filling) = r :: rest) : creq s r.id = some r :=
  creq_of_mem_filterMap (List.mem_of_mem_filter (h ▸ List.mem_cons_self))

theorem resumeNext_of_no_context (h : (ceng s e).ctx = []) : resumeNext s e = s := if_neg (by simp [h])

/-! ## Ends (09 R205) -/

theorem leaveEngine_of_engine (h : r.engine = some e) :
    (leaveEngine s r).cip.nextId = s.cip.nextId ∧ (ceng (leaveEngine s r) e).ctx = (ceng s e).ctx.filter (· != r.id) := by
  simp only [leaveEngine, h]
  exact ⟨rfl, congrArg CEng.ctx (ceng_setEng ..)⟩

/-- The request has left its engine and the list of requests. -/
def withoutReq (s : State) (r : CReq) : State :=
  { leaveEngine s r with cip := { (leaveEngine s r).cip with reqs := (leaveEngine s r).cip.reqs.filter (fun x => x.id != r.id) } }

/-- At the end of a request of the control cores its key is released and its result goes out. -/
theorem cipherEnd_eq_of_core (hsrc : r.src = .core) (status detail : BitVec 8) (done : Nat) (out tag : List Byte) :
    ∃ u, KennelWork (withoutReq s r) u ∧ cipherEnd s r status detail done out tag =
      emit (dmaCipherPump u) (.result 16 0 (keyResult status.toNat detail.toNat (rSlot r) (r.gen.getD 0)
        (r.engine.getD 63) done (if verifies r then 0 else leNat (tag.take 16)))) := by
  generalize hend : cipherEnd s r status detail done out tag = t
  unfold cipherEnd at hend
  extract_lets _ _ u v w _ y z at hend
  have hv : KennelWork (withoutReq s r) v := kennelWork_with (kennelWork_count (kennelWork_self u))
  have hw : KennelWork (withoutReq s r) w := kennelWork_ite (kennelWork_count hv) hv
  have hy : KennelWork (withoutReq s r) y := kennelWork_ite (kennelWork_with (kennelWork_with hw)) hw
  have hz : KennelWork (withoutReq s r) z := by
    dsimp only [z]
    split
    · exact kennelWork_keyRelease hy
    · exact hy
  clear_value z
  simp only [hsrc] at hend
  exact ⟨z, hz, hend.symm⟩

theorem creq_withoutReq (s : State) (r : CReq) : creq (withoutReq s r) r.id = none := by
  rw [creq, List.find?_eq_none]
  intro x hx
  simpa using (List.mem_filter.1 hx).2

/-- A request of the control cores that ends is gone, its result is sent, and an engine without contexts has none after it. -/
theorem cipherEnd_of_core (hsrc : r.src = .core) (hengine : r.engine = some e) (hid : r.id < s.cip.nextId)
    (status detail : BitVec 8) (done : Nat) (out tag : List Byte) :
    creq (cipherEnd s r status detail done out tag) r.id = none ∧
      .result 16 0 (keyResult status.toNat detail.toNat (rSlot r) (r.gen.getD 0) e done
        (if verifies r then 0 else leNat (tag.take 16))) ∈ (cipherEnd s r status detail done out tag).out ∧
      ((ceng s e).ctx = [] → (ceng (cipherEnd s r status detail done out tag) e).ctx = []) := by
  obtain ⟨u, hu, heq⟩ := cipherEnd_eq_of_core (s := s) hsrc status detail done out tag
  obtain ⟨hnext, hctx⟩ := leaveEngine_of_engine (s := s) hengine
  have hgone : creq u r.id = none := (creq_congr (congrArg Cip.reqs hu.cip) r.id).trans (creq_withoutReq s r)
  have hlt : r.id < u.cip.nextId := by
    rw [hu.cip]
    exact hid.trans_eq hnext.symm
  rw [heq, hengine]
  refine ⟨creq_dmaCipherPump_of_lt hgone hlt, List.mem_append_right _ (List.mem_singleton_self _), fun hnone => ?_⟩
  have hengs : (dmaCipherPump u).cip.engs = (leaveEngine s r).cip.engs := by
    rw [dmaCipherPump_engs, hu.cip]
    rfl
  calc (ceng (dmaCipherPump u) e).ctx = (ceng (leaveEngine s r) e).ctx := congrArg CEng.ctx (ceng_congr hengs e)
    _ = [] := by rw [hctx, hnone, List.filter_nil]

/-! ## Output of the control cores' requests (09 R203, R206) -/

theorem reqWrite_of_core (hsrc : r.src = .core) (a : Nat) (bs : List Byte) :
    ∃ hbm, reqWrite s r a bs = { s with hbm := hbm } := by
  simp only [reqWrite, hsrc]
  exact ⟨_, hbmStore_hbm s a bs⟩

theorem processTo_of_core (hsrc : r.src = .core) (e n : Nat) :
    ∃ hbm, processTo s e r n = { creqPut s { r with proc := n } with hbm := hbm } := by
  simp only [processTo, hsrc]
  split
  · exact ⟨_, rfl⟩
  · exact reqWrite_of_core hsrc ..

theorem writeTag_of_core (hsrc : r.src = .core) (tag : List Byte) : ∃ hbm, writeTag s r tag = { s with hbm := hbm } := by
  unfold writeTag
  split
  · exact ⟨_, rfl⟩
  · exact reqWrite_of_core hsrc ..

/-- The engine that goes on with a request of the control cores may come further in it. -/
theorem advanceEng_of_core (hsrc : r.src = .core) (hrun : (ceng s e).run = some id) (hreq : creq s id = some r) :
    ∃ n, creq (advanceEng s e) id = some { r with proc := n } ∧ (advanceEng s e).cip.nextId = s.cip.nextId ∧
      (advanceEng s e).cip.engs = s.cip.engs := by
  obtain rfl := id_of_creq hreq
  have hcur : (ceng s e).run.bind (creq s) = some r := by rw [hrun, Option.bind_some, hreq]
  simp only [advanceEng, hcur]
  split
  · exact ⟨r.proc, hreq, rfl, rfl⟩
  · generalize max r.proc (blockFloor r _) = n
    obtain ⟨hbm, heq⟩ := processTo_of_core (s := (draw s).2) hsrc e n
    rw [heq]
    exact ⟨n, creq_creqPut (s := (draw s).2) (r := { r with proc := n }) hreq, rfl, rfl⟩

/-- A request of the control cores whose bytes have all moved ends on an engine as it stands. -/
theorem finishReq_of_core (hsrc : r.src = .core) (e : Nat) :
    ∃ u status detail out tag, finishReq s e r = cipherEnd u r status detail (rMsg r) out tag ∧
      u.cip.nextId = s.cip.nextId ∧ u.cip.engs = s.cip.engs := by
  generalize hend : finishReq s e r = t
  unfold finishReq at hend
  extract_lets c u st _ v at hend
  have hu : u.cip.nextId = s.cip.nextId ∧ u.cip.engs = s.cip.engs := by
    dsimp only [u]
    split
    · obtain ⟨hbm, heq⟩ := processTo_of_core (s := s) hsrc e r.data.length
      rw [heq]
      exact ⟨rfl, rfl⟩
    · exact ⟨rfl, rfl⟩
  have hv : v.cip = u.cip := iteInduction (motive := fun w : State => w.cip = u.cip) (fun _ => rfl) (fun _ => rfl)
  obtain ⟨hbm, heq⟩ := writeTag_of_core (s := v) hsrc c.2.1
  refine ⟨_, _, _, _, _, hend.symm, ?_⟩
  rw [heq]
  exact hv ▸ hu

end

end Sys2Proof.Machine.Laws
end

section
/-!
CLAIMS. Cipher grants, starts, fills, suspensions, ends and faults (09 R200 to R218).
-/

namespace Sys2Proof.Proofs

open Sys2Proof Sys2Proof.Machine Sys2Proof.Machine.Laws

section

variable {s : State} {e : BitVec 6} {r : CReq}

/-! ## Grants (09 R200, R201) -/

theorem cipherGrant_moves {u : State} {slot : BitVec 12} {k : BitVec 3} {n : Nat}
    (hrow : rowBad (atSlot s slot) true = false) (hu : u = advanceEngs (atSlot s slot))
    (htarget : grantTarget u (legSource (rowCipher (schedRow s slot.toNat) k.toNat)) = some r)
    (hengine : r.engine = some n ∨ (r.engine = none ∧ pickEngine u r = some n)) (hready : grantReady u r = true)
    (hroom : engineBytes u n + grantLen r ≤ 16384) :
    ∃ t r', exec (.cipherGrant slot k true) s = .next t ∧ creq t r.id = some r' ∧ r'.engine = some n ∧
      r'.grants = r.grants + 1 ∧ r'.data = r.data ++ streamBytes u r (64 * r.grants) (grantLen r) := by
  have hexec : exec (.cipherGrant slot k true) s =
      .next (useGrant (atSlot s slot) (rowCipher (schedRow s slot.toNat) k.toNat)) :=
    congrArg Host.Outcome.next (if_neg (by simp [hrow]))
  subst hu
  exact ⟨_, _, hexec, creq_dmaCipherPump_of_creq (moveGrant_of_target htarget hengine hready hroom), rfl, rfl, rfl⟩

/-! ## Starts, fills and suspensions (09 R202, R203, R213, R216) -/

theorem cipherRequestStart_runs {rest : List CReq} (hrun : (ceng s e.toNat).run = none)
    (hout : (ceng s e.toNat).out = false) (hctx : (ceng s e.toNat).ctx = [])
    (hqueue : ((ceng s e.toNat).queue.filterMap (creq s)).filter (fun q => !q.filling) = r :: rest)
    (hruns : RequestRuns s r) :
    ∃ t r', exec (.cipherRequestStart e) s = .next t ∧ (ceng t e.toNat).run = some r.id ∧ creq t r.id = some r' ∧
      r'.started = true ∧ r'.level = objGet s 0x8000 0x01 0 ∧
      (r.gen = none → rKeyed r = true → r'.gen = some (slotGet s (rSlot r)).gen ∧
        (slotGet t (rSlot r)).useCur = (slotGet s (rSlot r)).useCur + 1) := by
  obtain ⟨hrun', -, r', hreq', hstarted, hlevel, hbound⟩ := startReq_takes hruns (creq_of_ready hqueue) e.toNat
  exact ⟨_, r', congrArg Host.Outcome.next (startNext_of_no_context hrun hout hctx hqueue), hrun', hreq', hstarted, hlevel,
    hbound⟩

theorem cipherRequestStart_ends {rest : List CReq} {f : BitVec 8 × BitVec 8} (hrun : (ceng s e.toNat).run = none)
    (hout : (ceng s e.toNat).out = false) (hctx : (ceng s e.toNat).ctx = [])
    (hqueue : ((ceng s e.toNat).queue.filterMap (creq s)).filter (fun q => !q.filling) = r :: rest) (hsrc : r.src = .core)
    (hengine : r.engine = some e.toNat) (hgen : r.gen = none) (hid : r.id < s.cip.nextId)
    (hfault : stoppedEarly s r = some f ∨ (stoppedEarly s r = none ∧ formBad r = true ∧ f = (5, 0x01))) :
    ∃ t, exec (.cipherRequestStart e) s = .next t ∧ creq t r.id = none ∧
      .result 16 0 (keyResult f.1.toNat f.2.toNat (rSlot r) 0 e.toNat 0 0) ∈ t.out := by
  have hend : startReq s e.toNat r = cipherEnd s r f.1 f.2 0 [] [] := by
    obtain hstop | ⟨hstop, hform, rfl⟩ := hfault
    · simp [startReq, hstop, countRevoked, hgen]
    · simp [startReq, hstop, hgen, hform]
  refine ⟨_, congrArg Host.Outcome.next ((startNext_of_no_context hrun hout hctx hqueue).trans hend), ?_⟩
  obtain ⟨hgone, hresult, -⟩ := cipherEnd_of_core hsrc hengine hid f.1 f.2 0 [] []
  refine ⟨hgone, ?_⟩
  simpa [hgen, leNat] using hresult

theorem kennelCacheFill_lands {n : BitVec 20} (hon : islandOn s 26 = true)
    (hasked : s.ken.fills.any (fun f => f.1 == n.toNat) = true)
    (hroom : (s.ken.cached.filter (fun m => m != n.toNat && m % 4096 == n.toNat % 4096)).length < 16) :
    ∃ t, exec (.kennelCacheFill n true) s = .next t ∧ (∀ f ∈ t.ken.fills, f.1 ≠ n.toNat) ∧ n.toNat ∈ t.ken.cached ∧
      (∀ q ∈ t.cip.reqs, rSlot q = n.toNat → q.filling = false) ∧ t.ken.slots = s.ken.slots := by
  have hin : cacheIn s n.toNat =
      some { s with ken := { s.ken with cached := n.toNat :: s.ken.cached.filter (· != n.toNat) } } := by
    refine if_pos ?_
    simpa only [List.filter_filter, Bool.and_comm] using hroom
  have hexec : exec (.kennelCacheFill n true) s = .next (landFill s n.toNat true) := by
    refine congrArg Host.Outcome.next ?_
    simp [hon, hasked]
  refine ⟨_, hexec, ?_⟩
  simp only [landFill, hin, if_true]
  refine ⟨fun f hf => ?_, List.mem_cons_self, fun q hq hslot => ?_, rfl⟩
  · simpa using (List.mem_filter.1 hf).2
  · obtain ⟨x, -, rfl⟩ := List.mem_map.1 hq
    by_cases hx : rSlot x = n.toNat
    · rw [if_pos hx]
    · rw [if_neg hx] at hslot
      exact absurd hslot hx

/-- The engine has put its running request away in a context. -/
def suspended (s : State) (e id : Nat) : State :=
  count (setEng s e { ceng s e with run := none, ctx := id :: (ceng s e).ctx, key := [] }) 0xC0C0 0x0A

/-- With a live context in place the urgent request starts. -/
theorem startNext_suspended {n id : Nat} {v : CReq} (hreq : creq s id = some r) (hstop : r.stop = none)
    (hout : (ceng s n).out = false)
    (hfind : (((ceng s n).queue.filterMap (creq s)).filter (fun q => !q.filling)).find? rUrgent = some v) :
    startNext (suspended s n id) n = startReq (suspended s n id) n v := by
  have hceng : ceng (suspended s n id) n = { ceng s n with run := none, ctx := id :: (ceng s n).ctx, key := [] } :=
    ceng_setEng ..
  have hcreq : creq (suspended s n id) = creq s := rfl
  have hlive : (r :: (ceng s n).ctx.filterMap (creq s)).find? (fun q => q.stop.isNone) = some r :=
    List.find?_cons_of_pos (by rw [hstop]; rfl)
  simp only [startNext, hceng, hcreq, hout, hfind, List.filterMap_cons_some hreq, hlive, Option.isSome_none, Bool.or_false,
    Bool.false_eq_true, if_false]

theorem suspend_runs {u : State} {id : Nat} {v : CReq} (he : e.toNat < 32) (hu : u = advanceEng s e.toNat)
    (hrun : (ceng u e.toNat).run = some id) (hreq : creq u id = some r) (hcalm : rUrgent r = false) (hstop : r.stop = none)
    (hblock : r.proc < rAad r + rMsg r) (hctx : (ceng u e.toNat).ctx.length < 16) (hout : (ceng u e.toNat).out = false)
    (hfind : (((ceng u e.toNat).queue.filterMap (creq u)).filter (fun q => !q.filling)).find? rUrgent = some v)
    (hruns : RequestRuns u v) :
    ∃ t, exec (.suspend e) s = .next t ∧ (ceng t e.toNat).run = some v.id ∧
      (ceng t e.toNat).ctx = id :: (ceng u e.toNat).ctx := by
  obtain ⟨hv, hfilling⟩ := List.mem_filter.1 (List.mem_of_find?_eq_some hfind)
  have hurgent : ((ceng u e.toNat).queue.filterMap (creq u)).any (fun q => rUrgent q && !q.filling) = true :=
    List.any_eq_true.2 ⟨v, hv, by rw [List.find?_some hfind, hfilling]; rfl⟩
  have hexec : exec (.suspend e) s = .next (startNext (suspended u e.toNat id) e.toNat) := by
    refine congrArg Host.Outcome.next ?_
    subst hu
    simp only [he, if_true, hrun, hreq, hcalm, hstop, hblock, hurgent, hctx]
    rfl
  rw [startNext_suspended hreq hstop hout hfind] at hexec
  have hruns' : RequestRuns (suspended u e.toNat id) v := hruns
  obtain ⟨hrun', hctx', -⟩ := startReq_takes hruns' (creq_of_mem_filterMap hv) e.toNat
  refine ⟨_, hexec, hrun', hctx'.trans ?_⟩
  exact congrArg CEng.ctx (ceng_setEng ..)

/-! ## Ends (09 R205, R218) -/

theorem cipherRequestComplete_ends {id : Nat} (hrun : (ceng s e.toNat).run = some id) (hreq : creq s id = some r)
    (hsrc : r.src = .core) (hengine : r.engine = some e.toNat) (hgrants : r.grants = rGrants r) (hstop : r.stop = none)
    (hctx : (ceng s e.toNat).ctx = []) (hid : r.id < s.cip.nextId) :
    ∃ t m, exec (.cipherRequestComplete e) s = .next t ∧ creq t r.id = none ∧ .result 16 0 m ∈ t.out := by
  have hcur : (ceng s e.toNat).run.bind (creq s) = some r := by rw [hrun, Option.bind_some, hreq]
  have hexec : exec (.cipherRequestComplete e) s = .next (resumeNext (finishReq s e.toNat r) e.toNat) := by
    refine congrArg Host.Outcome.next ?_
    simp only [hcur]
    exact if_pos ⟨hgrants, by rw [hstop]; rfl⟩
  obtain ⟨u, status, detail, out, tag, heq, hnext, hengs⟩ := finishReq_of_core (s := s) hsrc e.toNat
  obtain ⟨hgone, hresult, hnone⟩ := cipherEnd_of_core (s := u) hsrc hengine (hnext ▸ hid) status detail (rMsg r) out tag
  rw [heq, resumeNext_of_no_context (hnone (by rw [ceng_congr hengs, hctx]))] at hexec
  exact ⟨_, _, hexec, hgone, hresult⟩

theorem revokedUserStop_ends {id : Nat} {f : BitVec 8 × BitVec 8} (hrun : (ceng s e.toNat).run = some id)
    (hreq : creq s id = some r) (hstop : r.stop = some f) (hsrc : r.src = .core) (hengine : r.engine = some e.toNat)
    (hctx : (ceng s e.toNat).ctx = []) (hid : r.id < s.cip.nextId) :
    ∃ t m, exec (.revokedUserStop e) s = .next t ∧ creq t r.id = none ∧ .result 16 0 m ∈ t.out := by
  obtain rfl := id_of_creq hreq
  have hexec : exec (.revokedUserStop e) s =
      .next (resumeNext (stopReq (countRevoked s r) e.toNat r.id f.1 f.2) e.toNat) := by
    refine congrArg Host.Outcome.next ?_
    simp [hrun, hctx, hreq, hstop]
  have hcip : (countRevoked s r).cip = s.cip :=
    iteInduction (motive := fun u : State => u.cip = s.cip) (fun _ => rfl) (fun _ => rfl)
  have hrun' : (ceng (countRevoked s r) e.toNat).run = some r.id := by rw [ceng, hcip]; exact hrun
  have hreq' : creq (countRevoked s r) r.id = some r := by rw [creq, hcip]; exact hreq
  obtain ⟨n, hfound, hnext, hengs⟩ := advanceEng_of_core hsrc hrun' hreq'
  rw [hcip] at hnext hengs
  obtain ⟨hgone, hresult, hnone⟩ := cipherEnd_of_core (s := advanceEng (countRevoked s r) e.toNat)
    (r := { r with proc := n }) hsrc hengine (hnext ▸ hid) f.1 f.2 (rDone { r with proc := n }) [] []
  have hend : stopReq (countRevoked s r) e.toNat r.id f.1 f.2 = cipherEnd (advanceEng (countRevoked s r) e.toNat)
      { r with proc := n } f.1 f.2 (rDone { r with proc := n }) [] [] := by
    simp only [stopReq, hrun', if_true, hfound]
  rw [hend, resumeNext_of_no_context (hnone (by rw [ceng_congr hengs, hctx]))] at hexec
  exact ⟨_, _, hexec, hgone, hresult⟩

/-! ## Engines out of use (09 R211) -/

theorem engineFails_takes_out {n : Nat} (hn : n < 34) (hnone : ∀ r ∈ s.cip.reqs, r.engine ≠ some n) :
    (ceng (engineFails s n) n).out = true := by
  unfold engineFails
  split
  case isTrue =>
    have hsettle : ∀ {t : State}, t.cip.reqs = s.cip.reqs → settleEngine t n = t := by
      intro t ht
      rw [settleEngine, List.filter_eq_nil_iff.2 (by simpa [ht] using hnone), List.foldl_nil]
    extract_lets x u
    have hcip : (event u 0x0205 (cipherIsland n) n).cip = u.cip := by simp
    rw [hsettle (by rw [hcip]; rfl), ceng_congr (congrArg Cip.engs hcip), ceng_setEng]
  case isFalse hout => simpa [hn] using hout

theorem fault_takes_out {c : Instr} (he : e.toNat < 34) (hc : c = .kat e false ∨ c = .engineOutOfUse e)
    (hnone : ∀ r ∈ s.cip.reqs, r.engine ≠ some e.toNat) : ∃ t, exec c s = .next t ∧ (ceng t e.toNat).out = true := by
  obtain rfl | rfl := hc
  · exact ⟨_, congrArg Host.Outcome.next (if_neg (by simp [he])), engineFails_takes_out (s := count s 0xC0C0 0x0C) he hnone⟩
  · exact ⟨_, rfl, engineFails_takes_out he hnone⟩

end

/-- Settles O26, a clause per command. -/
theorem cipherEnginesTakeEffect : Obligations.CipherEnginesTakeEffect := by
  unfold Obligations.CipherEnginesTakeEffect
  refine ⟨?_, ?_, ?_, ?_, ?_, ?_, ?_, ?_, ?_⟩
  · intro s u slot k r e hrow hu htarget hengine hready hroom
    exact cipherGrant_moves hrow hu htarget hengine hready hroom
  · intro s e r rest hrun hout hctx hqueue hruns
    exact cipherRequestStart_runs hrun hout hctx hqueue hruns
  · intro s e r rest f hrun hout hctx hqueue hsrc hengine hgen hid hfault
    exact cipherRequestStart_ends hrun hout hctx hqueue hsrc hengine hgen hid hfault
  · intro s n hon hasked hroom
    exact kennelCacheFill_lands hon hasked hroom
  · intro s u e id r v he hu hrun hreq hcalm hstop hblock hctx hout hfind hruns
    exact suspend_runs he hu hrun hreq hcalm hstop hblock hctx hout hfind hruns
  · intro s e id r hrun hreq hsrc hengine hgrants hstop hctx hid
    exact cipherRequestComplete_ends hrun hreq hsrc hengine hgrants hstop hctx hid
  · intro s e id r f hrun hreq hstop hsrc hengine hctx hid
    exact revokedUserStop_ends hrun hreq hstop hsrc hengine hctx hid
  · intro s e
    exact congrArg Host.Outcome.next (if_pos (.inl rfl))
  · intro s e c he hc hnone
    exact fault_takes_out he hc hnone

end Sys2Proof.Proofs
end

section
/-!
SUPPORT. What the DMA engine's commands touch: the registers of one channel, and beside them the delta, results, cipher requests,
the host side and counters; and what the end of a transfer leaves in its channel and in device memory (10 R226, R240).
-/

namespace Sys2Proof.Machine.Laws

open Sys2Proof Sys2Proof.Machine

/-- From `b` to `s` a transfer has reported at most: the delta, the clusters' results, cipher requests, the host side, queue
pairs, outputs and counters may differ, and nothing else does. -/
def DmaAside (b s : State) : Prop :=
  ∃ pair jx cip hst slc out ctr, s = { b with
    pair := pair, jx := jx, cip := cip, hst := hst, slc := slc, out := out, objs := { b.objs with ctr := ctr } }

section

variable {b s t : State} {α : Type} {p : Prop} [Decidable p]

theorem dmaAside_self (s : State) : DmaAside s s := ⟨_, _, _, _, _, _, _, rfl⟩

theorem dmaAside_with {pair jx cip hst slc out ctr} (h : DmaAside b s) :
    DmaAside b { s with
      pair := pair, jx := jx, cip := cip, hst := hst, slc := slc, out := out, objs := { s.objs with ctr := ctr } } := by
  obtain ⟨_, _, _, _, _, _, _, rfl⟩ := h
  exact ⟨_, _, _, _, _, _, _, rfl⟩

theorem DmaAside.chan (h : DmaAside b s) (n : Nat) : chan s n = chan b n := by
  obtain ⟨_, _, _, _, _, _, _, rfl⟩ := h
  rfl

theorem dmaAside_ite {u v : State} (hu : DmaAside b u) (hv : DmaAside b v) : DmaAside b (if p then u else v) :=
  iteInduction (fun _ => hu) (fun _ => hv)

theorem dmaAside_ite_snd {u v : α × State} (hu : DmaAside b u.2) (hv : DmaAside b v.2) : DmaAside b (if p then u else v).2 :=
  iteInduction (motive := fun r : α × State => DmaAside b r.2) (fun _ => hu) (fun _ => hv)

theorem dmaAside_foldl {f : State → α → State} (hf : ∀ s x, DmaAside b s → DmaAside b (f s x)) {l : List α}
    (h : DmaAside b s) : DmaAside b (l.foldl f s) :=
  List.foldlRecOn l f h (fun _ ht x _ => hf _ x ht)

/-! ## Reports of a transfer -/

theorem dmaAside_count {i u : Nat} (h : DmaAside b s) : DmaAside b (count s i u) := dmaAside_with h

theorem dmaAside_record {r : DeltaRec} (h : DmaAside b s) : DmaAside b (record s r) := dmaAside_ite (dmaAside_with h) h

theorem dmaAside_wakeLink {k : Nat} (h : DmaAside b s) : DmaAside b (wakeLink s k) := by
  refine dmaAside_ite h ?_
  rw [linkPut, if_pos rfl]
  exact dmaAside_with h

theorem dmaAside_emit {o : Output} (h : DmaAside b s) : DmaAside b (emit s o) := dmaAside_with h

theorem dmaAside_quarantineReads {which : HRead → Bool} (h : DmaAside b s) : DmaAside b (quarantineReads s which) :=
  dmaAside_with h

theorem dmaAside_orphanRequest {c : Nat} (h : DmaAside b s) : DmaAside b (orphanRequest s c) := dmaAside_with h

theorem dmaAside_dmaNotify {c : Nat} {x : Chan} (h : DmaAside b s) : DmaAside b (dmaNotify s c x) := by
  refine dmaAside_ite ?_ h
  dsimp only
  obtain ⟨hst, out, heq⟩ := raiseVector_eq s (ownerFn s x.owner).1 (ownerFn s x.owner).2 (objGet s 0xA200 0x01 c)
  rw [heq]
  exact dmaAside_with h

theorem dmaAside_putResult {cl ch : Nat} {msg : BitVec 512} {eng entry : Option Nat} (h : DmaAside b s) :
    DmaAside b (putResult s cl ch msg eng entry) :=
  dmaAside_with h

theorem dmaAside_dmaCount {c done : Nat} {status : BitVec 8} (h : DmaAside b s) : DmaAside b (dmaCount s c status done) := by
  unfold dmaCount
  extract_lets _ _ _ t
  have ht : DmaAside b t := dmaAside_with (dmaAside_with (dmaAside_with (dmaAside_with h)))
  clear_value t
  split
  · exact dmaAside_count ht
  · exact dmaAside_count ht
  · exact dmaAside_count ht
  · exact dmaAside_count ht
  · exact ht

theorem dmaAside_recordDescs {qp head esz : Nat} {bs : List Byte} (h : DmaAside b s) :
    DmaAside b (recordDescs s qp head esz bs) :=
  dmaAside_foldl (fun _ _ => dmaAside_record) h

theorem dmaAside_qpPut {k : Nat} {x : Qp} (h : DmaAside b s) : DmaAside b (qpPut s k x) := dmaAside_with h

theorem dmaAside_dmaCipherPump (h : DmaAside b s) : DmaAside b (dmaCipherPump s) :=
  dmaAside_foldl (fun _ _ => dmaAside_with) (dmaAside_with h)

theorem dmaAside_translate {owner : Option Nat} {r : Nat × Nat × Option Nat} {addr : Nat} {write : Bool} (h : DmaAside b s) :
    DmaAside b (translate s owner r addr write).2 := by
  unfold translate
  extract_lets
  refine dmaAside_ite_snd h (dmaAside_ite_snd h ?_)
  split
  · exact h
  · exact dmaAside_ite_snd h (dmaAside_count (dmaAside_emit (dmaAside_wakeLink (dmaAside_with h))))

theorem dmaAside_of_translate {owner : Option Nat} {r : Nat × Nat × Option Nat} {addr : Nat} {write : Bool} {a : Translated}
    (h : translate s owner r addr write = (a, t)) : DmaAside s t := by
  have ht := dmaAside_translate (owner := owner) (r := r) (addr := addr) (write := write) (dmaAside_self s)
  rwa [h] at ht

theorem dmaAside_sendRead {r : Nat × Nat × Option Nat} {addr len ch unit part : Nat} {page : Option Nat} (h : DmaAside b s) :
    DmaAside b ((sendRead s r addr len ch unit part page).getD s) := by
  unfold sendRead
  split
  · exact h
  · split
    · exact h
    · exact dmaAside_emit (dmaAside_wakeLink (dmaAside_with h))

/-! ## Registers of a channel (10 R226) -/

theorem recordChan_eq (s : State) (c : Nat) (x y : Chan) : ∃ pair, recordChan s c x y = { s with pair := pair } := by
  unfold recordChan
  split
  case isFalse => exact ⟨_, rfl⟩
  case isTrue =>
    refine List.foldlRecOn (motive := fun t : State => ∃ pair, t = { s with pair := pair }) _ _ ⟨_, rfl⟩ fun t ht i _ => ?_
    obtain ⟨_, rfl⟩ := ht
    dsimp only [record]
    split
    · exact ⟨_, rfl⟩
    · split
      · exact ⟨_, rfl⟩
      · exact ⟨_, rfl⟩

/-- A write of a channel changes that channel and the delta alone. -/
theorem setChan_eq (s : State) (c : Nat) (x : Chan) : ∃ pair, setChan s c x =
    { s with pair := pair, dma := { s.dma with chans := sset resetChan s.dma.chans c x } } := by
  obtain ⟨pair, heq⟩ := recordChan_eq s c (chan s c) x
  exact ⟨pair, by rw [setChan, heq]⟩

theorem chan_setChan_ne (s : State) {c n : Nat} (x : Chan) (h : n ≠ c) : chan (setChan s c x) n = chan s n := by
  obtain ⟨_, heq⟩ := setChan_eq s c x
  rw [heq]
  exact sget_sset_ne _ _ _ h

theorem chan_freeBeyond (s : State) (x : Chan) (status : BitVec 8) (done n : Nat) :
    chan (freeBeyond s x status done) n = chan s n := by
  rw [freeBeyond_frame]
  rfl

/-- From `b` to `s` a command of channel `c` has run: the other channels, device memory where `kept` holds of an address, and all
that carries frames or keys stand as they did. -/
def ChannelWork (c : Nat) (kept : Nat → Prop) (b s : State) : Prop :=
  (∀ n, n ≠ c → chan s n = chan b n) ∧ (∀ a, kept a → hbmByte s a = hbmByte b a) ∧ s.net = b.net ∧ s.pipe = b.pipe ∧
    s.shp = b.shp ∧ s.tt = b.tt ∧ s.fwd = b.fwd ∧ s.stg = b.stg ∧ s.ken = b.ken ∧ s.pending = b.pending

variable {c done : Nat} {kept : Nat → Prop} {status detail : BitVec 8} {x : Chan}

theorem channelWork_self (s : State) : ChannelWork c kept s s := by simp [ChannelWork]

theorem channelWork_aside (h : ChannelWork c kept b s) (ht : DmaAside s t) : ChannelWork c kept b t := by
  obtain ⟨_, _, _, _, _, _, _, rfl⟩ := ht
  exact h

theorem channelWork_ite {u v : State} (hu : ChannelWork c kept b u) (hv : ChannelWork c kept b v) :
    ChannelWork c kept b (if p then u else v) :=
  iteInduction (fun _ => hu) (fun _ => hv)

theorem channelWork_setChan (h : ChannelWork c kept b s) : ChannelWork c kept b (setChan s c x) := by
  obtain ⟨hchan, hrest⟩ := h
  refine ⟨fun n hn => (chan_setChan_ne s x hn).trans (hchan n hn), ?_⟩
  obtain ⟨_, heq⟩ := setChan_eq s c x
  rw [heq]
  exact hrest

/-- The end of a transfer with `status` and `done` leaves device memory alone where `kept` holds (10 R240). -/
def EndKeeps (kept : Nat → Prop) (x : Chan) (status : BitVec 8) (done : Nat) : Prop :=
  status = 0 ∨ status = 3 ∨ ∀ a, kept a → ∀ p ∈ beyondDone x done, a < p.1 ∨ p.1 + p.2 ≤ a

theorem channelWork_freeBeyond (h : ChannelWork c kept b s) (hend : EndKeeps kept x status done) :
    ChannelWork c kept b (freeBeyond s x status done) := by
  have hbyte : ∀ a, kept a → hbmByte (freeBeyond s x status done) a = hbmByte s a := by
    intro a ha
    obtain hok | htag | hfar := hend
    · rw [freeBeyond, if_pos (.inl hok)]
    · rw [freeBeyond, if_pos (.inr htag)]
    · exact hbmByte_freeBeyond s x status done a (hfar a ha)
  obtain ⟨hchan, hmem, hrest⟩ := h
  refine ⟨fun n hn => (chan_freeBeyond ..).trans (hchan n hn), fun a ha => (hbyte a ha).trans (hmem a ha), ?_⟩
  rw [freeBeyond_frame]
  exact hrest

/-- Before its checks have passed, a transfer has written nothing (10 R230). -/
theorem endKeeps_of_precheck (h : x.state = .precheck) : EndKeeps kept x status done :=
  .inr (.inr (by simp [beyondDone, h]))

/-! ## The end of a transfer (10 R240) -/

/-- A channel whose transfer has ended. -/
def chanEnd (x : Chan) (status detail : BitVec 8) (done : Nat) : Chan :=
  { chanClear x with
    state := .idle, code := status, detail := detail, done := BitVec.ofNat 32 done
    failAddr := if x.state = .halted then x.failAddr else 0
    completions := x.completions + 1 }

/-- The state in which the end of a transfer is reported by its start route. -/
def transferEnded (s : State) (c : Nat) (status detail : BitVec 8) (done : Nat) : State :=
  flrReset (dmaCount (freeBeyond (setChan (orphanRequest (quarantineReads s (fun r => r.ch == c)) c) c
    (chanEnd (chan s c) status detail done)) (chan s c) status done) c status done) c

theorem dmaAside_dmaComplete (s : State) (c : Nat) (status detail : BitVec 8) (done : Nat) :
    DmaAside (transferEnded s c status detail done) (dmaComplete s c status detail done) := by
  unfold dmaComplete
  extract_lets x _ _ y _ v
  have hv : DmaAside (transferEnded s c status detail done) v := dmaAside_self _
  clear_value v
  split
  · exact dmaAside_dmaNotify hv
  · exact dmaAside_putResult (dmaAside_dmaNotify hv)
  · exact dmaAside_ite (dmaAside_recordDescs (dmaAside_qpPut hv)) (dmaAside_qpPut hv)

/-- The registers of a channel whose transfer has ended, which an FLR resets (10 R240, R244). -/
theorem chan_dmaComplete (s : State) (c : Nat) (status detail : BitVec 8) (done : Nat) :
    chan (dmaComplete s c status detail done) c =
      if (chan s c).flr then resetChan else chanEnd (chan s c) status detail done := by
  have hcount : ∀ u : State, chan (dmaCount u c status done) c = chan u c :=
    fun u => (dmaAside_dmaCount (dmaAside_self u)).chan c
  rw [(dmaAside_dmaComplete ..).chan, transferEnded, flrReset, hcount, chan_freeBeyond, chan_setChan]
  have hflr : (chanEnd (chan s c) status detail done).flr = (chan s c).flr := rfl
  rw [hflr]
  split
  · exact chan_setChan ..
  · rw [hcount, chan_freeBeyond, chan_setChan]

theorem channelWork_dmaComplete (h : ChannelWork c kept b s) (hend : EndKeeps kept (chan s c) status done) :
    ChannelWork c kept b (dmaComplete s c status detail done) := by
  have hquiet : DmaAside s (orphanRequest (quarantineReads s (fun r => r.ch == c)) c) :=
    dmaAside_orphanRequest (dmaAside_quarantineReads (dmaAside_self s))
  have hcount := channelWork_aside
    (channelWork_freeBeyond (channelWork_setChan (x := chanEnd (chan s c) status detail done) (channelWork_aside h hquiet)) hend)
    (dmaAside_dmaCount (c := c) (done := done) (status := status) (dmaAside_self _))
  exact channelWork_aside (channelWork_ite (channelWork_setChan hcount) hcount) (dmaAside_dmaComplete ..)

theorem finalStatus_ends_well (x : Chan) : (finalStatus x).1 = 0 ∨ (finalStatus x).1 = 3 := by
  unfold finalStatus
  extract_lets
  split
  · split
    · exact .inr rfl
    · exact .inl rfl
  · split
    · split
      · exact .inr rfl
      · exact .inl rfl
    · exact .inl rfl

/-- A transfer without a result of a cipher request ends, if it does, with OK or TAG_FAIL. -/
theorem channelWork_finishChan (h : ChannelWork c kept b s) (hres : (chan s c).xtsRes = none) :
    ChannelWork c kept b (finishChan s c) := by
  simp only [finishChan, hres]
  refine channelWork_ite h (channelWork_ite (channelWork_dmaComplete (channelWork_setChan h) ?_) h)
  obtain hok | htag := finalStatus_ends_well (chan s c)
  · exact .inl hok
  · exact .inr (.inl htag)

theorem finishChan_of_unfinished
    (h : (chan s c).state ≠ .active ∨ ((chan s c).xtsRes = none ∧ (chan s c).fin ≠ sideLen (chan s c))) :
    finishChan s c = s := by
  obtain hstate | ⟨hres, hfin⟩ := h
  · simp only [finishChan, ne_eq, hstate, not_false_eq_true, if_true]
  · simp [finishChan, hres, hfin]

/-! ## Starts (10 R227, R229) -/

/-- A channel with the transfer that a start gives it. -/
def chanStart (s : State) (x : Chan) (route : Route) (owner : Option Nat) : Chan :=
  { chanClear x with
    flr := false, route := route, owner := owner, compat := compatMode s owner, failDir := false, failList := false
    failAddr := 0, crc := 0 }

theorem dmaStart_eq (s : State) (c : Nat) (x : Chan) (route : Route) (owner : Option Nat) :
    dmaStart s c x route owner =
      if x.count = 0 then dmaComplete (setChan s c (chanStart s x route owner)) c 0 0 0
      else setChan s c { chanStart s x route owner with state := .precheck } := by
  have htest : (x.count == 0#32) = true ↔ x.count = 0 := beq_iff_eq
  exact if_congr htest rfl rfl

theorem channelWork_dmaStart {route : Route} {owner : Option Nat} (h : ChannelWork c kept b s) :
    ChannelWork c kept b (dmaStart s c x route owner) := by
  rw [dmaStart_eq]
  exact channelWork_ite (channelWork_dmaComplete (channelWork_setChan h) (.inl rfl)) (channelWork_setChan h)

/-! ## Writes of CTRL and CMD (10 R226, R227, R243) -/

theorem channelWork_dmaIgnored (h : ChannelWork c kept b s) : ChannelWork c kept b (dmaIgnored s c) :=
  channelWork_aside (channelWork_setChan h) (dmaAside_count (dmaAside_self _))

theorem channelWork_ctrlWrite {w : BitVec 64} (h : ChannelWork c kept b s) : ChannelWork c kept b (ctrlWrite s c w) :=
  channelWork_ite (channelWork_dmaIgnored h) <| channelWork_ite (channelWork_setChan h) <|
    channelWork_ite (channelWork_dmaIgnored (channelWork_setChan h)) <| channelWork_ite h (channelWork_dmaStart h)

theorem ctrlWrite_of_busy {w : BitVec 64} (h : chanBusy (chan s c) = true) : ctrlWrite s c w = dmaIgnored s c := by
  simp only [ctrlWrite, h, if_true]

theorem ctrlWrite_of_start {w : BitVec 64} (hidle : (chan s c).state = .idle) (hstart : w.getLsbD 0 = true)
    (hpair : pairOk 32 w.toNat = true) (hplain : ctrlAltered w = false)
    (hopen : ownerDraining s (channelOwner s c) = false) :
    ctrlWrite s c w =
      dmaStart s c { chan s c with ctrl := ctrlTaken (chan s c).ctrl w } .reg (channelOwner s c) := by
  simp [ctrlWrite, chanBusy, hidle, hstart, hpair, hplain, hopen]

theorem dmaAbort_of_not_halted (h : (chan s c).state ≠ .halted) : dmaAbort s c = dmaIgnored s c := if_neg h

theorem dmaRetry_of_not_halted (h : (chan s c).state ≠ .halted) : dmaRetry s c = dmaIgnored s c := if_neg h

theorem dmaClear_of_not_quarantined (h : (chan s c).state ≠ .quarantined) : dmaClear s c = dmaIgnored s c := if_neg h

theorem channelWork_dmaAbort (h : ChannelWork c kept b s)
    (hkept : ∀ a, kept a → ∀ p ∈ beyondDone (chan s c) (chan s c).done.toNat, a < p.1 ∨ p.1 + p.2 ≤ a) :
    ChannelWork c kept b (dmaAbort s c) :=
  channelWork_ite
    (channelWork_dmaComplete (channelWork_aside h (dmaAside_count (dmaAside_self s))) (.inr (.inr hkept)))
    (channelWork_dmaIgnored h)

/-- A halted channel whose unfinished units are issued again (10 R243). -/
def chanRetried (x : Chan) : Chan :=
  { x with
    state := if x.inPre then .precheck else .active
    units := x.units.map (fun u => if u.done || listKept u then u else { u with fail := some (0, false) }) }

theorem dmaRetry_of_halted (h : (chan s c).state = .halted) : dmaRetry s c =
    finishChan (setChan (quarantineReads (count s 0xC0D0 0x04) (fun r => r.ch == c)) c (chanRetried (chan s c))) c :=
  if_pos h

theorem channelWork_dmaRetry (h : ChannelWork c kept b s) (hres : (chan s c).xtsRes = none) :
    ChannelWork c kept b (dmaRetry s c) := by
  have hquiet : DmaAside s (quarantineReads (count s 0xC0D0 0x04) (fun r => r.ch == c)) :=
    dmaAside_quarantineReads (dmaAside_count (dmaAside_self s))
  refine channelWork_ite (channelWork_finishChan (channelWork_setChan (channelWork_aside h hquiet)) ?_)
    (channelWork_dmaIgnored h)
  rw [chan_setChan]
  exact hres

theorem channelWork_dmaClear (h : ChannelWork c kept b s) : ChannelWork c kept b (dmaClear s c) :=
  channelWork_ite (channelWork_setChan h) (channelWork_dmaIgnored h)

/-! ## The checks of a precheck (10 R230) -/

theorem channelWork_chanActivate (h : ChannelWork c kept b s) : ChannelWork c kept b (chanActivate s c x) :=
  channelWork_ite
    (channelWork_aside (channelWork_setChan h) (dmaAside_dmaCipherPump (dmaAside_with (dmaAside_self _))))
    (channelWork_setChan h)

theorem chan_chanActivate (s : State) (c : Nat) (x : Chan) :
    chan (chanActivate s c x) c = { x with state := .active, xts := cXts x } := by
  have hset := chan_setChan s c { x with state := .active, xts := cXts x }
  unfold chanActivate
  extract_lets u
  split
  · exact ((dmaAside_dmaCipherPump (dmaAside_with (dmaAside_self u))).chan c).trans hset
  · exact hset

theorem channelWork_precheckDone {ch : BitVec 12} (h : execPrecheckDone ch s = .next t) : ChannelWork ch.toNat kept s t := by
  have hself : ChannelWork ch.toNat kept s s := channelWork_self s
  simp only [execPrecheckDone] at h
  split at h
  case h_2 =>
    cases h
    exact hself
  case h_1 hstate =>
    have hend : ∀ status done, EndKeeps kept (chan s ch.toNat) status done := fun _ _ => endKeeps_of_precheck hstate
    split at h
    · cases h
      exact channelWork_dmaComplete (channelWork_aside hself (dmaAside_count (dmaAside_self s))) (hend ..)
    · split at h
      · cases h
        exact channelWork_dmaComplete hself (hend ..)
      · split at h
        · cases h
          exact hself
        · split at h
          · cases h
            exact channelWork_dmaComplete hself (hend ..)
          · cases h
            exact channelWork_chanActivate hself

end

end Sys2Proof.Machine.Laws
end

section
/-!
SUPPORT. Units of a transfer: what issuing one leaves of the channel's place in its lists and chunks, the halt for a unit that
failed, and the units of which a CHUNK_DONE tells (10 R224, R225, R235, R242).
-/

namespace Sys2Proof.Machine.Laws

open Sys2Proof Sys2Proof.Machine

section

variable {b s t : State} {c : Nat} {α : Type} {p : Prop} [Decidable p]

/-- From `b` to `s` channel `c` has numbered no unit and stays at its place in its source list and its chunks. -/
def SameCursor (c : Nat) (b s : State) : Prop :=
  (chan s c).nextUnit = (chan b c).nextUnit ∧ (chan s c).next = (chan b c).next ∧ (chan s c).sAsked = (chan b c).sAsked

theorem SameCursor.nextUnit (h : SameCursor c b s) : (chan s c).nextUnit = (chan b c).nextUnit := And.left h

theorem SameCursor.next (h : SameCursor c b s) : (chan s c).next = (chan b c).next := And.left (And.right h)

theorem SameCursor.sAsked (h : SameCursor c b s) : (chan s c).sAsked = (chan b c).sAsked := And.right (And.right h)

theorem sameCursor_self (c : Nat) (s : State) : SameCursor c s s := ⟨rfl, rfl, rfl⟩

theorem sameCursor_aside (h : SameCursor c b s) (ht : DmaAside s t) : SameCursor c b t := by
  rwa [SameCursor, ht.chan]

theorem sameCursor_ite {u v : State} (hu : SameCursor c b u) (hv : SameCursor c b v) : SameCursor c b (if p then u else v) :=
  iteInduction (fun _ => hu) (fun _ => hv)

theorem sameCursor_foldl {f : State → α → State} (hf : ∀ s x, SameCursor c b s → SameCursor c b (f s x)) {l : List α}
    (h : SameCursor c b s) : SameCursor c b (l.foldl f s) :=
  List.foldlRecOn l f h (fun _ ht x _ => hf _ x ht)

theorem sameCursor_setChan {x : Chan} (h : SameCursor c b s) (hunit : x.nextUnit = (chan s c).nextUnit)
    (hnext : x.next = (chan s c).next) (hasked : x.sAsked = (chan s c).sAsked) : SameCursor c b (setChan s c x) := by
  rwa [SameCursor, chan_setChan, hunit, hnext, hasked]

/-! ## The halt for a failing unit (10 R242) -/

theorem chan_dmaHalt (s : State) (c addr : Nat) (detail : BitVec 8) (dir list : Bool) :
    chan (dmaHalt s c addr detail dir list) c =
      { latched (chan s c) addr detail dir list with state := .halted, inPre := (chan s c).state = .precheck } := by
  unfold dmaHalt
  extract_lets x _ y t u
  have ht : chan t c = y := chan_setChan s c y
  have hu : chan u c = y := ((dmaAside_dmaNotify (dmaAside_self t)).chan c).trans ht
  split
  · exact hu
  · exact hu

theorem settleFails_of_active {u : DUnit} {detail : BitVec 8} {write : Bool} (hstate : (chan s c).state = .active)
    (hfail : firstFail (chan s c) = some (u, detail, write)) :
    settleFails s c = dmaHalt s c (haltAddress (chan s c) u) detail write (u.kind != 0) := by
  simp only [settleFails, hfail, hstate]

theorem sameCursor_dmaHalt {addr : Nat} {detail : BitVec 8} {dir list : Bool} (h : SameCursor c b s) :
    SameCursor c b (dmaHalt s c addr detail dir list) := by
  rwa [SameCursor, chan_dmaHalt]

theorem sameCursor_settleFails (h : SameCursor c b s) : SameCursor c b (settleFails s c) := by
  unfold settleFails
  extract_lets
  split
  · exact h
  · split
    · exact sameCursor_dmaHalt h
    · exact sameCursor_dmaHalt h
    · exact sameCursor_setChan h rfl rfl rfl
    · exact h

/-! ## Reads that units issue (11 R261, R268) -/

theorem sameCursor_unitFail {uid : Nat} {detail : BitVec 8} {write side : Bool} (h : SameCursor c b s) :
    SameCursor c b (unitFail s c uid detail write side) :=
  sameCursor_setChan h rfl rfl rfl

theorem sameCursor_pumpRead {u : DUnit} {part : Nat} {r : DRead} (h : SameCursor c b s) :
    SameCursor c b (pumpRead s c u part r) := by
  unfold pumpRead
  extract_lets
  refine sameCursor_ite h (sameCursor_ite (sameCursor_setChan h rfl rfl rfl) ?_)
  split
  case h_1 => exact sameCursor_unitFail h
  case h_2 q _ =>
    refine sameCursor_ite h ?_
    split
    case h_1 he => exact sameCursor_aside h (dmaAside_of_translate he)
    case h_2 he => exact sameCursor_unitFail (sameCursor_aside h (dmaAside_of_translate he))
    case h_3 he => exact sameCursor_aside h (dmaAside_sendRead (dmaAside_of_translate he))

theorem sameCursor_pumpReads {u : DUnit} {k : Nat} {l : List DRead} (h : SameCursor c b s) :
    SameCursor c b (pumpReads s c u k l) := by
  induction l generalizing s k with
  | nil => exact h
  | cons r l ih => exact ih (sameCursor_pumpRead h)

/-- Issuing reads moves a channel no further in its lists and chunks. -/
theorem sameCursor_pumpChan (s : State) (c : Nat) : SameCursor c s (pumpChan s c) :=
  sameCursor_settleFails
    (sameCursor_foldl (fun _ _ ht => sameCursor_ite ht (sameCursor_pumpReads ht)) (sameCursor_self c s))

/-! ## The next unit of a channel (10 R224) -/

theorem issueUnit_of_active (hpair : pairOk 32 (chan s c).ctrl.toNat = true)
    (hnone : ∀ u ∈ (chan s c).units, u.fail ≠ some (0, false)) (hstate : (chan s c).state = .active) :
    (chan (issueUnit s c) c).nextUnit = (chan s c).nextUnit + 1 ∧
      (chan (issueUnit s c) c).next = (chan s c).next + (chunkAt (chan s c) (chan s c).next).2 := by
  have hfind : (chan s c).units.find? (fun u => u.fail == some (0, false)) = none := by simpa using hnone
  simp only [issueUnit, hpair, hfind, hstate, Bool.not_true, Bool.false_eq_true, if_false, reduceCtorEq]
  refine ⟨(sameCursor_pumpChan _ c).nextUnit.trans ?_, (sameCursor_pumpChan _ c).next.trans ?_⟩
  · rw [chan_setChan]
  · rw [chan_setChan, nextChunk]

theorem issueUnit_of_list (hpair : pairOk 32 (chan s c).ctrl.toNat = true)
    (hnone : ∀ u ∈ (chan s c).units, u.fail ≠ some (0, false)) (hstate : (chan s c).state = .precheck)
    (hlist : (chan s c).sAsked < listLen (chan s c) false) :
    (chan (issueUnit s c) c).nextUnit = (chan s c).nextUnit + 1 ∧
      (chan (issueUnit s c) c).sAsked =
        (chan s c).sAsked + min 8 (listLen (chan s c) false - (chan s c).sAsked) := by
  have hfind : (chan s c).units.find? (fun u => u.fail == some (0, false)) = none := by simpa using hnone
  have hside : decide (listLen (chan s c) false ≤ (chan s c).sAsked) = false := by simpa using hlist
  simp only [issueUnit, hpair, hfind, hstate, hside, Bool.not_true, Bool.false_eq_true, if_false, if_true]
  refine ⟨(sameCursor_pumpChan _ c).nextUnit.trans ?_, (sameCursor_pumpChan _ c).sAsked.trans ?_⟩
  · rw [chan_setChan]
  · rw [chan_setChan]

/-- DMA_GRANT of a row that has not failed, with a group (10 R223). -/
theorem exec_dmaGrant_of_row {slot : BitVec 12} {k : BitVec 2} (hrow : rowBad (atSlot s slot) true = false) :
    exec (.dmaGrant slot k true) s = .next (grantDma (atSlot s slot) k.toNat) :=
  congrArg Host.Outcome.next (if_neg (by simp [hrow]))

theorem grantDma_of_none {k : Nat} (hgroup : rowDma (schedRow s s.clk.slot) k ≠ 0xFF)
    (hpick : pickChannel s (rowDma (schedRow s s.clk.slot) k) = none) : grantDma s k = count s 0xC0D0 0x0D := by
  simp only [grantDma, hgroup, hpick, if_false]

theorem grantDma_of_some {k : Nat} (hgroup : rowDma (schedRow s s.clk.slot) k ≠ 0xFF)
    (hpick : pickChannel s (rowDma (schedRow s s.clk.slot) k) = some c) :
    grantDma s k = issueUnit { s with dma := { s.dma with
      last := sset 63 s.dma.last (rowDma (schedRow s s.clk.slot) k) (c % 64) } } c := by
  simp only [grantDma, hgroup, hpick, if_false]

end

/-! ## What CHUNK_DONE does with a unit (10 R225) -/

section

variable {s : State} {c : BitVec 12} {u : DUnit}

theorem exec_chunkDone_of_absent {n : Nat} (h : ∀ u ∈ (chan s c.toNat).units, u.id ≠ n) (memOk : Bool) :
    exec (.chunkDone c n memOk) s = .next s := by
  have hfind : (chan s c.toNat).units.find? (fun u => u.id == n) = none := by simpa using h
  have hexec : execChunkDone c n memOk s = .next s := by simp only [execChunkDone, hfind]
  exact hexec

variable (hunits : (chan s c.toNat).units = [u]) (hdone : u.done = false) (hfail : u.fail = none)
  (hreads : ∀ r ∈ u.reads, r.data.isSome = true)

include hunits hdone hfail hreads

theorem exec_chunkDone_of_chunk (hstate : (chan s c.toNat).state = .active) (hkind : u.kind = 0) :
    exec (.chunkDone c u.id true) s = .next (runChunk s c.toNat u) := by
  have hback : u.reads.any (fun r => r.data.isNone) = false := by simpa [← Option.isSome_iff_ne_none] using hreads
  have hexec : execChunkDone c u.id true s = .next (runChunk s c.toNat u) := by
    simp [execChunkDone, hunits, hdone, hfail, hback, hstate, hkind]
  exact hexec

theorem exec_chunkDone_of_list (hstate : (chan s c.toNat).state = .precheck) (hkind : u.kind ≠ 0)
    (hpos : u.pos = if u.kind = 1 then (chan s c.toNat).sRead else (chan s c.toNat).dRead) :
    exec (.chunkDone c u.id true) s = .next (listRead s c.toNat u) := by
  have hback : u.reads.any (fun r => r.data.isNone) = false := by simpa [← Option.isSome_iff_ne_none] using hreads
  have hexec : execChunkDone c u.id true s = .next (listRead s c.toNat u) := by
    simp [execChunkDone, hunits, hdone, hfail, hback, hstate, hkind, ← hpos]
  exact hexec

theorem exec_chunkDone_of_memory (hstate : (chan s c.toNat).state = .active) (hstaged : u.staged = false)
    (hside : ∃ r ∈ u.reads, sideSpace (chan s c.toNat) r.dst = 2) :
    ∃ r, exec (.chunkDone c u.id false) s = .next (memoryFails s c.toNat u r) := by
  have hback : u.reads.any (fun r => r.data.isNone) = false := by simpa [← Option.isSome_iff_ne_none] using hreads
  obtain ⟨r, hr⟩ : ∃ r, u.reads.find? (fun r => sideSpace (chan s c.toNat) r.dst == 2) = some r := by
    rw [← Option.isSome_iff_exists, List.find?_isSome]
    simpa using hside
  have hexec : execChunkDone c u.id false s = .next (memoryFails s c.toNat u r) := by
    simp [execChunkDone, hunits, hdone, hfail, hback, hstate, hstaged, hr]
  exact ⟨r, hexec⟩

end

section

variable {s : State} {c : Nat} {u : DUnit}

/-! ## A list read that has returned (10 R234, R235) -/

theorem listRead_counts (hunits : (chan s c).units = [u]) :
    (chan (listRead s c u) c).units = [] ∧
      (chan (listRead s c u) c).sRead + (chan (listRead s c u) c).dRead =
        (chan s c).sRead + (chan s c).dRead + u.len / 16 := by
  unfold listRead
  extract_lets x bs entries all bad rs y
  have hgone : y.units = [] := by simp [y, x, hunits]
  split
  · rw [chan_setChan]
    exact ⟨hgone, Nat.add_right_comm ..⟩
  · rw [chan_setChan]
    exact ⟨hgone, (Nat.add_assoc ..).symm⟩

theorem channelWork_listRead {kept : Nat → Prop} (s : State) (c : Nat) (u : DUnit) :
    ChannelWork c kept s (listRead s c u) :=
  channelWork_ite (channelWork_setChan (channelWork_self s)) (channelWork_setChan (channelWork_self s))

/-! ## An uncorrectable read (10 R242) -/

theorem memoryFails_halts (hunits : (chan s c).units = [u]) (hstate : (chan s c).state = .active) (r : DRead) :
    (chan (memoryFails s c u r) c).state = .halted ∧ (chan (memoryFails s c u r) c).code = 4 ∧
      (chan (memoryFails s c u r) c).detail = 0x16 := by
  have hevent : chan (event s 0x0102 33 r.addr) c = chan s c := by simp [chan]
  have hchan : chan (unitFail (event s 0x0102 33 r.addr) c u.id 0x16 false r.dst) c =
      { chan s c with units := [{ u with fail := some (0x16, false), side := r.dst }] } := by
    rw [unitFail, chan_setChan, hevent]
    simp [hunits]
  rw [memoryFails, settleFails_of_active (by rw [hchan]; exact hstate) (by rw [hchan]; rfl), chan_dmaHalt]
  exact ⟨rfl, rfl, rfl⟩

/-! ## A FILL chunk (10 R225) -/

/-- What is written reads back. -/
theorem hbmRead_hbmWrite (s : State) (a : Nat) (bs : List Byte) : hbmRead (hbmWrite s a bs) a bs.length = bs := by
  refine List.ext_getElem (hbmRead_length ..) fun k _ hk => ?_
  simp only [hbmRead, List.getElem_map, List.getElem_range]
  rw [hbmByte_hbmWrite, if_pos (by omega), Nat.add_sub_cancel_left]
  exact List.getD_eq_getElem _ _ hk

theorem chunkOut_of_fill {x : Chan} (hfill : isFill x = true) (u : DUnit) (side : List Byte) :
    chunkOut x u side =
      some ((List.range u.len).map (fun i => BitVec.ofNat 8 (x.fill.toNat / 2 ^ (8 * ((u.lo + i) % 8))))) := by
  simp only [chunkOut, hfill, if_true, Nat.shiftRight_eq_div_pow]

theorem advance_xtsRes (x : Chan) (fuel : Nat) : (advance x fuel).xtsRes = x.xtsRes := by
  induction fuel generalizing x with
  | zero => rfl
  | succ fuel ih =>
    rw [advance]
    split
    · rw [ih]
    · rfl

/-- A chunk that device memory takes whole is written and finished. -/
theorem writeChunk_of_device {a : Nat} {bs : List Byte} (hspace : cDstSpace (chan s c) = 2)
    (hpieces : dstPieces (chan s c) u.lo u.len = [(a, u.len)]) (hopen : hbmLocked s a u.len = false)
    (hlen : bs.length = u.len) : writeChunk s c u bs = unitDone (hbmWrite s a bs) c u := by
  have hwrite : writePieces s (chan s c) [(a, u.len)] bs = some (.ok (hbmWrite s a bs)) := by
    simp [writePieces, hspace, hopen, List.take_of_length_le hlen.le]
  simp only [writeChunk, hpieces, hwrite]

theorem channelWork_unitDone {kept : Nat → Prop} (s : State) (c : Nat) (u : DUnit) :
    ChannelWork c kept s (unitDone s c u) :=
  channelWork_setChan (channelWork_self s)

/-- A chunk of a FILL writes its bytes, and ending its transfer changes no byte more. -/
theorem runChunk_of_fill {kept : Nat → Prop} {a : Nat} {bs : List Byte} (hfill : isFill (chan s c) = true)
    (hcompare : isCompare (chan s c) = false) (hplain : transforms (chan s c) = false)
    (hspace : cDstSpace (chan s c) = 2) (hroute : ∀ q, (chan s c).route ≠ .fetch q) (hres : (chan s c).xtsRes = none)
    (hpieces : dstPieces (chan s c) u.lo u.len = [(a, u.len)]) (hopen : hbmLocked s a u.len = false)
    (hbytes : chunkOut (chan s c) u (sideBytes u false) = some bs) (hlen : bs.length = u.len) :
    ChannelWork c kept (hbmWrite s a bs) (runChunk s c u) := by
  have hcopy : isCopy (chan s c) = false := by
    simp only [isFill, beq_iff_eq] at hfill
    simp [isCopy, hfill]
  have hearlier : earlierRead (chan s c) u = true := by simp [earlierRead, segOverlaps, hcopy]
  have hstage : stage s c u = s := by simp [stage, hplain]
  have hrun : runChunk s c u = finishChan (unitDone (hbmWrite s a bs) c u) c := by
    simp only [runChunk, hcompare, hearlier, hstage, hbytes, Bool.not_true, Bool.false_eq_true, if_false]
    rw [writeChunk_of_device hspace hpieces hopen hlen]
  rw [hrun]
  refine channelWork_finishChan (channelWork_unitDone ..) ?_
  rw [unitDone, chan_setChan, advance_xtsRes]
  exact hres

end

end Sys2Proof.Machine.Laws
end

section
/-!
CLAIMS. DMA transfers: starts, prechecks, grants, CMD and chunks, and what the register commands leave alone (10 R223 to R243).
-/

namespace Sys2Proof.Proofs

open Sys2Proof Sys2Proof.Machine Sys2Proof.Machine.Laws

/-! ## Starts and prechecks (10 R227 to R231) -/

theorem channelStart_begins {s : State} {c : BitVec 12} {ctrl : BitVec 64} (hidle : (chan s c.toNat).state = .idle)
    (hstart : ctrl.getLsbD 0 = true) (hpair : pairOk 32 ctrl.toNat = true) (hplain : ctrlAltered ctrl = false)
    (hopen : ownerDraining s (channelOwner s c.toNat) = false) :
    ∃ t, exec (.channelStart c ctrl) s = .next t ∧ (chan t c.toNat).ctrl = ctrlTaken (chan s c.toNat).ctrl ctrl ∧
      (if (chan s c.toNat).count = 0 then (chan t c.toNat).state = .idle ∧ (chan t c.toNat).code = 0 ∧
          (chan t c.toNat).completions = (chan s c.toNat).completions + 1
        else (chan t c.toNat).state = .precheck ∧ (chan t c.toNat).owner = channelOwner s c.toNat) := by
  refine ⟨_, congrArg Host.Outcome.next (ctrlWrite_of_start hidle hstart hpair hplain hopen), ?_⟩
  rw [dmaStart_eq]
  dsimp only
  split
  · rw [chan_dmaComplete, chan_setChan]
    exact ⟨rfl, rfl, rfl, rfl⟩
  · rw [chan_setChan]
    exact ⟨rfl, rfl, rfl⟩

theorem precheckDone_passes {s : State} {c : BitVec 12} (hstate : (chan s c.toNat).state = .precheck)
    (hpair : pairOk 32 (chan s c.toNat).ctrl.toNat = true) (hform : badForm (chan s c.toNat) = false)
    (hsrc : listLen (chan s c.toNat) false ≤ (chan s c.toNat).sRead)
    (hdst : listLen (chan s c.toNat) true ≤ (chan s c.toNat).dRead)
    (hpass : precheckFault s c.toNat (withRanges (chan s c.toNat)) = none) :
    exec (.precheckDone c) s = .next (chanActivate s c.toNat (withRanges (chan s c.toNat))) := by
  have hexec : execPrecheckDone c s = .next (chanActivate s c.toNat (withRanges (chan s c.toNat))) := by
    simp [execPrecheckDone, hstate, hpair, hform, hsrc, hdst, hpass]
  exact hexec

theorem precheckDone_fails {s : State} {c : BitVec 12} {f : BitVec 8 × BitVec 8}
    (hstate : (chan s c.toNat).state = .precheck) (hpair : pairOk 32 (chan s c.toNat).ctrl.toNat = true)
    (hfail : (badForm (chan s c.toNat) = true ∧ f = (5, 1)) ∨
      (badForm (chan s c.toNat) = false ∧ listLen (chan s c.toNat) false ≤ (chan s c.toNat).sRead ∧
        listLen (chan s c.toNat) true ≤ (chan s c.toNat).dRead ∧
        precheckFault s c.toNat (withRanges (chan s c.toNat)) = some f)) :
    exec (.precheckDone c) s = .next (dmaComplete s c.toNat f.1 f.2 0) := by
  have hexec : execPrecheckDone c s = .next (dmaComplete s c.toNat f.1 f.2 0) := by
    obtain ⟨hform, rfl⟩ | ⟨hform, hsrc, hdst, hfault⟩ := hfail
    · simp [execPrecheckDone, hstate, hpair, hform]
    · simp [execPrecheckDone, hstate, hpair, hform, hsrc, hdst, hfault]
  exact hexec

/-! ## CMD (10 R243) -/

theorem dmaAbort_completes {s : State} {c : Nat} (hstate : (chan s c).state = .halted) (hflr : (chan s c).flr = false) :
    (chan (dmaAbort s c) c).state = .idle ∧ (chan (dmaAbort s c) c).code = (chan s c).code ∧
      (chan (dmaAbort s c) c).detail = (chan s c).detail ∧
      (chan (dmaAbort s c) c).completions = (chan s c).completions + 1 := by
  have habort : dmaAbort s c = dmaComplete (count s 0xC0D0 0x05) c (chan s c).code (chan s c).detail
      (chan s c).done.toNat := if_pos hstate
  have hcount : chan (count s 0xC0D0 0x05) c = chan s c := rfl
  rw [habort, chan_dmaComplete, hcount, hflr]
  exact ⟨rfl, rfl, rfl, rfl⟩

/-- A retried channel that is back in PRECHECK, or has chunks left, goes on. -/
theorem chan_dmaRetry {s : State} {c : Nat} (hstate : (chan s c).state = .halted)
    (hleft : (chan s c).inPre = true ∨ ((chan s c).xtsRes = none ∧ (chan s c).fin ≠ sideLen (chan s c))) :
    chan (dmaRetry s c) c = chanRetried (chan s c) := by
  rw [dmaRetry_of_halted hstate, finishChan_of_unfinished]
  · exact chan_setChan ..
  · rw [chan_setChan]
    refine hleft.imp (fun hpre => ?_) id
    simp [chanRetried, hpre]

/-- Settles O30, a clause per command: what a start, a precheck, a grant and CMD leave in the registers of their channel. -/
theorem dmaCommandsTakeEffect : Obligations.DmaCommandsTakeEffect := by
  unfold Obligations.DmaCommandsTakeEffect
  refine ⟨?_, ?_, ?_, ?_, ?_, ?_, ?_, ?_⟩
  · intro s c ctrl hidle hstart hpair hplain hopen
    exact channelStart_begins hidle hstart hpair hplain hopen
  · intro s c hstate hpair hform hsrc hdst hpass
    refine ⟨_, precheckDone_passes hstate hpair hform hsrc hdst hpass, ?_⟩
    rw [chan_chanActivate]
    exact ⟨rfl, rfl, rfl⟩
  · intro s c f hstate hflr hpair hfail
    refine ⟨_, precheckDone_fails hstate hpair hfail, ?_⟩
    rw [chan_dmaComplete, hflr]
    exact ⟨rfl, rfl, rfl⟩
  · intro s slot k hrow hgroup hpick
    refine ⟨_, exec_dmaGrant_of_row hrow, ?_⟩
    rw [grantDma_of_none hgroup hpick]
    exact ⟨ctrGet_count_self .., rfl⟩
  · intro s slot k c hrow hgroup hpick hpair hnone
    refine ⟨fun hstate => ⟨_, exec_dmaGrant_of_row hrow, ?_⟩, fun hstate hlist => ⟨_, exec_dmaGrant_of_row hrow, ?_⟩⟩
    · rw [grantDma_of_some hgroup hpick]
      exact issueUnit_of_active hpair hnone hstate
    · rw [grantDma_of_some hgroup hpick]
      exact issueUnit_of_list hpair hnone hstate hlist
  · intro s c hstate hflr
    exact ⟨_, rfl, dmaAbort_completes hstate hflr⟩
  · intro s c hstate hleft
    refine ⟨_, rfl, ?_⟩
    rw [chan_dmaRetry hstate hleft]
    exact ⟨rfl, rfl⟩
  · intro s c hstate
    refine ⟨_, rfl, ?_⟩
    rw [dmaClear, if_pos hstate, chan_setChan]

/-! ## Commands that are ignored (10 R226, R227, R243) -/

/-- Each command that comes at the wrong moment only notes that it was ignored. -/
theorem exec_ignored {s : State} {c : BitVec 12} {ctrl : BitVec 64} {i : Instr}
    (h : (i = .channelStart c ctrl ∧ ((chan s c.toNat).state = .precheck ∨ (chan s c.toNat).state = .active ∨
        (chan s c.toNat).state = .halted ∨ (chan s c.toNat).state = .stopping)) ∨
      ((i = .dmaAbort c ∨ i = .dmaRetry c) ∧ (chan s c.toNat).state ≠ .halted) ∨
      (i = .dmaClear c ∧ (chan s c.toNat).state ≠ .quarantined)) :
    exec i s = .next (dmaIgnored s c.toNat) := by
  obtain ⟨rfl, hbusy⟩ | ⟨rfl | rfl, hstate⟩ | ⟨rfl, hstate⟩ := h
  · have hbusy' : chanBusy (chan s c.toNat) = true := by
      obtain h | h | h | h := hbusy <;> simp [chanBusy, h]
    exact congrArg Host.Outcome.next (ctrlWrite_of_busy hbusy')
  · exact congrArg Host.Outcome.next (dmaAbort_of_not_halted hstate)
  · exact congrArg Host.Outcome.next (dmaRetry_of_not_halted hstate)
  · exact congrArg Host.Outcome.next (dmaClear_of_not_quarantined hstate)

/-- Settles O31: all four only set WRITE_IGNORED of their channel. -/
theorem dmaWritesIgnoredWhenBusy : Obligations.DmaWritesIgnoredWhenBusy := by
  unfold Obligations.DmaWritesIgnoredWhenBusy
  intro s c ctrl i h
  refine ⟨_, exec_ignored h, chan_setChan .., fun n hn => chan_setChan_ne s _ hn, ?_⟩
  obtain ⟨_, heq⟩ := setChan_eq s c.toNat { chan s c.toNat with ignored := true }
  rw [dmaIgnored, heq]
  exact ⟨fun _ => rfl, rfl, rfl, rfl⟩

/-! ## Chunks (10 R225, R235, R242) -/

/-- A chunk whose bytes alone have been written reads back as them. -/
theorem write_of_channelWork {s t : State} {c a n : Nat} {bs : List Byte} (hlen : bs.length = n)
    (h : ChannelWork c (fun _ => True) (hbmWrite s a bs) t) :
    hbmRead t a n = bs ∧ ∀ b, b < a ∨ a + n ≤ b → hbmByte t b = hbmByte s b := by
  obtain ⟨-, hmem, -⟩ := h
  subst hlen
  have hread : hbmRead t a bs.length = hbmRead (hbmWrite s a bs) a bs.length :=
    List.map_congr_left fun _ _ => hmem _ trivial
  refine ⟨hread.trans (hbmRead_hbmWrite ..), fun b hb => ?_⟩
  rw [hmem _ trivial, hbmByte_hbmWrite, if_neg (by omega)]

/-- Settles O32: a FILL chunk is one write of its bytes, and a list read, a failing read and an absent unit touch registers
at most. -/
theorem dmaChunksMoveBytes : Obligations.DmaChunksMoveBytes := by
  unfold Obligations.DmaChunksMoveBytes
  refine ⟨?_, ?_, ?_, fun s c n memOk habsent => exec_chunkDone_of_absent habsent memOk⟩
  · intro s c u a hunits hkind hdone hfail hreads hstate hfill hcompare hplain hspace hroute hres hpieces hopen
    have hbytes := chunkOut_of_fill hfill u (sideBytes u false)
    have hrun := runChunk_of_fill (kept := fun _ => True) hfill hcompare hplain hspace hroute hres hpieces hopen hbytes (by simp)
    exact ⟨_, exec_chunkDone_of_chunk hunits hdone hfail (by simp [hreads]) hstate hkind,
      write_of_channelWork (by simp) hrun⟩
  · intro s c u hunits hdone hfail hreads hstate hplace
    obtain ⟨hkind, hpos⟩ :
        u.kind ≠ 0 ∧ u.pos = if u.kind = 1 then (chan s c.toNat).sRead else (chan s c.toNat).dRead := by
      obtain ⟨hkind, hpos⟩ | ⟨hkind, hpos⟩ := hplace
      · simp [hkind, hpos]
      · simp [hkind, hpos]
    obtain ⟨hgone, hcount⟩ := listRead_counts hunits
    obtain ⟨-, hmem, -⟩ := channelWork_listRead (kept := fun _ => True) s c.toNat u
    exact ⟨_, exec_chunkDone_of_list hunits hdone hfail hreads hstate hkind hpos, hgone, hcount, fun a => hmem a trivial⟩
  · intro s c u hunits _ hdone hfail hreads hstate hstaged hside
    obtain ⟨r, hexec⟩ := exec_chunkDone_of_memory hunits hdone hfail hreads hstate hstaged hside
    exact ⟨_, hexec, memoryFails_halts hunits hstate r⟩

/-! ## What the register commands leave alone (10 R226, R228, R243) -/

/-- A command other than ABORT that starts, checks, retries or clears a channel keeps every byte of memory. -/
theorem channelWork_of_command {s t : State} {c : BitVec 12} {i : Instr} {kept : Nat → Prop}
    (hi : (∃ ctrl, i = .channelStart c ctrl) ∨ i = .precheckDone c ∨ i = .dmaRetry c ∨ i = .dmaClear c)
    (hretry : i = .dmaRetry c → (chan s c.toNat).xtsRes = none) (h : exec i s = .next t) :
    ChannelWork c.toNat kept s t := by
  obtain ⟨ctrl, rfl⟩ | rfl | rfl | rfl := hi
  · cases h
    exact channelWork_ctrlWrite (channelWork_self s)
  · exact channelWork_precheckDone h
  · cases h
    exact channelWork_dmaRetry (channelWork_self s) (hretry rfl)
  · cases h
    exact channelWork_dmaClear (channelWork_self s)

/-- Settles O33: ABORT keeps the bytes that do not lie beyond DONE_BYTES, the other four keep all. -/
theorem dmaCommandsKeepOtherState : Obligations.DmaCommandsKeepOtherState := by
  unfold Obligations.DmaCommandsKeepOtherState
  intro s t c i hi hretry h
  by_cases habort : i = .dmaAbort c
  · subst habort
    cases h
    obtain ⟨hchan, hmem, hrest⟩ := channelWork_dmaAbort (channelWork_self s) (c := c.toNat) fun _ ha => ha
    exact ⟨hchan, fun hne => absurd rfl hne, hmem, hrest⟩
  · have hcommand : (∃ ctrl, i = .channelStart c ctrl) ∨ i = .precheckDone c ∨ i = .dmaRetry c ∨ i = .dmaClear c := by
      simpa [habort] using hi
    obtain ⟨hchan, hmem, hrest⟩ := channelWork_of_command (kept := fun _ => True) hcommand hretry h
    exact ⟨hchan, fun _ a => hmem a trivial, fun a _ => hmem a trivial, hrest⟩

end Sys2Proof.Proofs
end

section
/-!
SUPPORT. No operation of the model touches the queue of waiting commands or the number of host links: the relation, and
how it passes through the constructs that the model is written with. The sections after this one follow the blocks of the
model, and each law cites the laws of the operations that its operation calls.
-/

namespace Sys2Proof.Machine.Laws

open Sys2Proof Sys2Proof.Machine

set_option Elab.async false

/-- What no operation changes: `s` has the waiting commands of `s₀`, and four host links where `s₀` has four. -/
def Held (s₀ s : State) : Prop := s.pending = s₀.pending ∧ (s₀.hst.links.length = 4 → s.hst.links.length = 4)

/-- A command answers a next state that holds what no operation changes. -/
def Keeps (s₀ : State) (o : Host.Outcome State Fault Refusal) : Prop := ∃ t, o = .next t ∧ Held s₀ t

/-- An operation that may have no answer: its answer holds what no operation changes. -/
def HeldSome (s₀ : State) (o : Option State) : Prop := ∀ t, o = some t → Held s₀ t

variable {s₀ s : State}

/-- A record update of other parts than the queue, and of the host part where it keeps the number of links. -/
theorem held_with {u : State} {pending clk objs led pair logs uhl net shp tt pipe stg fwd tc jx cip ken dma hst slc boot isl
    pwr dbg hbm out fresh} (h : Held s₀ u) (hpending : pending = u.pending := by rfl)
    (hlinks : hst.links.length = u.hst.links.length := by rfl) :
    Held s₀ ⟨pending, clk, objs, led, pair, logs, uhl, net, shp, tt, pipe, stg, fwd, tc, jx, cip, ken, dma, hst, slc, boot, isl,
      pwr, dbg, hbm, out, fresh⟩ :=
  ⟨hpending.trans h.1, fun hb => hlinks.trans (h.2 hb)⟩

theorem keeps_next {t : State} (h : Held s₀ t) : Keeps s₀ (.next t) := ⟨t, rfl, h⟩

theorem heldSome_some {t : State} (h : Held s₀ t) : HeldSome s₀ (some t) := fun _ e => by cases e; exact h

theorem heldSome_none : HeldSome s₀ none := fun _ e => by cases e

theorem held_links {l : List Link} (h : Held s₀ s) (hl : l.length = s.hst.links.length) :
    Held s₀ { s with hst := { s.hst with links := l } } := ⟨h.1, fun hb => hl.trans (h.2 hb)⟩

section

variable {α : Type} {c : Prop} [Decidable c]

theorem held_ite {u v : State} (ha : Held s₀ u) (hb : Held s₀ v) : Held s₀ (if c then u else v) := by
  split <;> assumption

theorem held_ite_fst {u v : State × α} (ha : Held s₀ u.1) (hb : Held s₀ v.1) : Held s₀ (if c then u else v).1 := by
  split <;> assumption

theorem held_ite_snd {u v : α × State} (ha : Held s₀ u.2) (hb : Held s₀ v.2) : Held s₀ (if c then u else v).2 := by
  split <;> assumption

theorem held_ite_act {u v : ActSt} (ha : Held s₀ u.s) (hb : Held s₀ v.s) : Held s₀ (if c then u else v).s := by
  split <;> assumption

theorem keeps_ite {u v : Host.Outcome State Fault Refusal} (ha : Keeps s₀ u) (hb : Keeps s₀ v) :
    Keeps s₀ (if c then u else v) := by
  split <;> assumption

theorem heldSome_ite {u v : Option State} (ha : HeldSome s₀ u) (hb : HeldSome s₀ v) : HeldSome s₀ (if c then u else v) := by
  split <;> assumption

end

section

variable {α β : Type}

/-- A fold over a list, by a step that holds them. -/
theorem held_foldl {f : State → β → State} (hf : ∀ s x, Held s₀ s → Held s₀ (f s x)) {l : List β} (h : Held s₀ s) :
    Held s₀ (l.foldl f s) :=
  List.foldlRecOn l f h (fun _ ht x _ => hf _ x ht)

theorem held_foldl_act {f : ActSt → β → ActSt} (hf : ∀ s x, Held s₀ s.s → Held s₀ (f s x).s) {l : List β}
    {s : ActSt} (h : Held s₀ s.s) : Held s₀ (l.foldl f s).s :=
  List.foldlRecOn (motive := fun t => Held s₀ t.s) l f h (fun _ ht x _ => hf _ x ht)

theorem held_of_fst {p : State × α} {t : State} {a : α} (h : Held s₀ p.1) (e : p = (t, a)) : Held s₀ t := by subst e; exact h

theorem held_of_snd {p : α × State} {t : State} {a : α} (h : Held s₀ p.2) (e : p = (a, t)) : Held s₀ t := by subst e; exact h

theorem held_getD {o : Option State} (h : Held s₀ s) (ho : HeldSome s₀ o) : Held s₀ (o.getD s) := by
  cases o with
  | none => exact h
  | some t => exact ho t rfl

end

end Sys2Proof.Machine.Laws
end

section
/-!
SUPPORT. The operations that the blocks share, ports, shapers, stage memory, trust, timetable and parser keep the
queue of waiting commands and the four links.
-/

namespace Sys2Proof.Machine.Laws

open Sys2Proof Sys2Proof.Machine

set_option Elab.async false

variable {s₀ s : State}

/-! ### Machine/Ops.lean -/

theorem held_atSlot {slot : BitVec 12} (h : Held s₀ s) : Held s₀ (atSlot s slot) := h

theorem held_hbmWrite {a : Nat} {bs : List Byte} (h : Held s₀ s) : Held s₀ (hbmWrite s a bs) := h

theorem held_emit {o : Output} (h : Held s₀ s) : Held s₀ (emit s o) := h

theorem held_draw (h : Held s₀ s) : Held s₀ (draw s).2 := h

theorem held_hbmStore {a : Nat} {bs : List Byte} (h : Held s₀ s) : Held s₀ (hbmStore s a bs) := held_ite h (held_hbmWrite h)

theorem held_unlockHbm {owner : Nat} (h : Held s₀ s) : Held s₀ (unlockHbm s owner) := h

theorem held_lockHbm {a n owner : Nat} (h : Held s₀ s) : Held s₀ (lockHbm s a n owner) := h

theorem held_objPutKey {k v : Nat} (h : Held s₀ s) : Held s₀ (objPutKey s k v) := h

theorem held_objPut {idx sub el v : Nat} (h : Held s₀ s) : Held s₀ (objPut s idx sub el v) := held_objPutKey h

theorem held_takeCalib {kind : Nat} {els : List Nat} (h : Held s₀ s) : Held s₀ (takeCalib s kind els) := h

theorem held_takeMainCalib (h : Held s₀ s) : Held s₀ (takeMainCalib s) := held_takeCalib (held_takeCalib (held_takeCalib h))

theorem held_ctrAddAt {idx sub el n : Nat} (h : Held s₀ s) : Held s₀ (ctrAddAt s idx sub el n) := h

theorem held_count {idx sub : Nat} (h : Held s₀ s) : Held s₀ (count s idx sub) := held_ctrAddAt h

theorem held_countN {idx sub n : Nat} (h : Held s₀ s) : Held s₀ (countN s idx sub n) := held_ctrAddAt h

theorem held_countAt {idx sub el : Nat} (h : Held s₀ s) : Held s₀ (countAt s idx sub el) := held_ctrAddAt h

theorem held_countOverruns {e : EvRec} {l : List Session} (h : Held s₀ s) : Held s₀ (countOverruns s e l) := by
  induction l generalizing s with
  | nil => exact h
  | cons x l ih => exact ih (held_ite (held_count h) h)

theorem held_eventFull {code island idx sub : Nat} {param : BitVec 64} (h : Held s₀ s) :
    Held s₀ (eventFull s code island idx sub param) :=
  held_countOverruns h

theorem held_event {code island param : Nat} (h : Held s₀ s) : Held s₀ (event s code island param) := held_eventFull h

theorem held_record {r : DeltaRec} (h : Held s₀ s) : Held s₀ (record s r) := held_ite h h

theorem held_waitRoom (h : Held s₀ s) : Held s₀ (waitRoom s) := h

theorem held_ledMetaSet {i : Nat} {m : LedMeta} (h : Held s₀ s) : Held s₀ (ledMetaSet s i m) := h

theorem held_ledPut {i : Nat} {e : LedEntry} (h : Held s₀ s) : Held s₀ (ledPut s i e) := held_record h

theorem held_noteWait (h : Held s₀ s) : Held s₀ (noteWait s) := held_ite (held_ite h h) (held_waitRoom (held_ite h h))

theorem held_ordPut {o : OrdState} (h : Held s₀ s) : Held s₀ (ordPut s o) := h

theorem held_ledAccept {k : LedKind} {q : OrdQ} {slice : Nat} {infra restart : Bool} {ref : LedRef} (h : Held s₀ s) :
    Held s₀ (ledAccept s k q slice infra restart ref).2 :=
  held_ledPut (held_count (held_ledMetaSet (held_ordPut h)))

theorem held_ledRun {i : Nat} (h : Held s₀ s) : Held s₀ (ledRun s i) := by
  unfold ledRun
  split
  · exact held_ite (held_ledPut h) h
  · exact h

theorem held_ledFix {i : Nat} {status detail : BitVec 8} (h : Held s₀ s) : Held s₀ (ledFix s i status detail) := by
  unfold ledFix
  split
  · exact h
  · exact held_ledMetaSet (held_ledPut (held_ite (held_count h) h))

theorem held_ledDone {i : Nat} {status detail : BitVec 8} (h : Held s₀ s) : Held s₀ (ledDone s i status detail) :=
  held_ite h (held_ledFix h)

theorem held_ledRetire {i : Nat} (h : Held s₀ s) : Held s₀ (ledRetire s i) := by
  unfold ledRetire
  split
  · exact h
  · exact held_ledPut (held_ledMetaSet (held_ordPut (held_countAt h)))

theorem held_retireUpTo {q : OrdQ} {n : Nat} (h : Held s₀ s) : Held s₀ (retireUpTo s q n) := by
  induction n generalizing s with
  | zero => exact h
  | succ n ih =>
    unfold retireUpTo
    split
    · exact ih (held_ledRetire h)
    · exact h

theorem held_retireRun {q : OrdQ} (h : Held s₀ s) : Held s₀ (retireRun s q) := held_retireUpTo h

theorem held_setPairState {p : PairState} (h : Held s₀ s) : Held s₀ (setPairState s p) :=
  held_ite h (held_event (held_ite (held_count h) h))

theorem held_fence (h : Held s₀ s) : Held s₀ (fence s) := h

theorem held_hardFault {cause detail : Nat} (h : Held s₀ s) : Held s₀ (hardFault s cause detail) :=
  held_ite (held_event (held_count h)) (held_setPairState (held_fence (held_event (held_count h))))

/-! ### Machine/Rows.lean -/

theorem held_rowFailedAt {m : Nat} (h : Held s₀ s) : Held s₀ (rowFailedAt s m) := by
  unfold rowFailedAt
  split
  · exact h
  · extract_lets t
    have ht : Held s₀ t := held_count h
    clear_value t
    exact ht

theorem held_rowFailed (h : Held s₀ s) : Held s₀ (rowFailed s) := held_rowFailedAt h

/-! ### Machine/Operands.lean -/

theorem held_itemsMap {f : Item → Item} (h : Held s₀ s) : Held s₀ (itemsMap s f) := h

theorem held_itemPut {x : Item} (h : Held s₀ s) : Held s₀ (itemPut s x) := held_itemsMap h

theorem held_noteLeft {x : Item} (h : Held s₀ s) : Held s₀ (noteLeft s x) := by
  unfold noteLeft
  split <;> exact h

theorem held_itemRemove {id : Nat} (h : Held s₀ s) : Held s₀ (itemRemove s id) := by
  unfold itemRemove
  extract_lets t
  have ht : Held s₀ t := by
    dsimp only [t]
    split
    · exact held_noteLeft h
    · exact h
  exact ht

theorem held_setThread {th : Nat} {t : Thread} (h : Held s₀ s) : Held s₀ (setThread s th t) := h

theorem held_setEngine {e : Nat} {x : Engine} (h : Held s₀ s) : Held s₀ (setEngine s e x) := h

theorem held_setCluster {c : Nat} {x : Cluster} (h : Held s₀ s) : Held s₀ (setCluster s c x) := h

theorem held_setChannel {c ch : Nat} {x : Channel} (h : Held s₀ s) : Held s₀ (setChannel s c ch x) := held_setCluster h

theorem held_setReg {th : Nat} {r : BitVec 5} {v : BitVec 64} (h : Held s₀ s) : Held s₀ (setReg s th r v) :=
  held_ite h (held_setThread h)

theorem held_setShared {th n : Nat} {v : BitVec 64} (h : Held s₀ s) : Held s₀ (setShared s th n v) := held_setEngine h

theorem held_scratchWrite {c a : Nat} {bs : List Byte} (h : Held s₀ s) : Held s₀ (scratchWrite s c a bs) := held_setCluster h

theorem held_windowStore {c : Nat} {w : Option Work} {win : Window} {bs : List Byte} (h : Held s₀ s) :
    Held s₀ (windowStore s c w win bs) := by
  unfold windowStore
  extract_lets
  split
  · exact held_scratchWrite h
  · split
    · exact h
    · exact held_itemPut (held_ite h (held_ctrAddAt h))
  · split
    · exact h
    · exact held_itemPut h
  · split
    · exact h
    · exact held_itemPut h
  · exact held_hbmStore h
  · exact h
  · exact h
  · exact h

theorem held_windowWrite {c : Nat} {w : Option Work} {win : Window} {n v : Nat} (h : Held s₀ s) :
    Held s₀ (windowWrite s c w win n v) :=
  held_windowStore h

theorem held_mapWrite {c : Nat} {w : Option Work} {a : Nat} {bs : List Byte} (h : Held s₀ s) :
    Held s₀ (mapWrite s c w a bs) := by
  unfold mapWrite
  split
  · exact held_windowStore h
  · exact h

/-! ### Machine/Ports.lean -/

theorem held_noteDown {before : State} {p : Nat} (h : Held s₀ s) : Held s₀ (noteDown before s p) := by
  unfold noteDown
  split
  · extract_lets t
    have ht : Held s₀ t := held_count h
    clear_value t
    exact ht
  · exact h

theorem held_notePort {before : State} {p : Nat} (h : Held s₀ s) : Held s₀ (notePort before s p) := held_ite h (held_eventFull h)

theorem held_setLane {n : Nat} {l : Lane} (h : Held s₀ s) : Held s₀ (setLane s n l) := by
  have hset : Held s₀ { s with net := { s.net with lanes := lset s.net.lanes n l } } := by
    exact h
  have hnoted := held_notePort (before := s) (p := portOfLane s n)
    (held_noteDown (before := s) (p := portOfLane s n) hset)
  exact held_ite (held_eventFull hnoted) hnoted

theorem held_bringUp {n : Nat} (h : Held s₀ s) : Held s₀ (bringUp s n) :=
  held_ite (held_setLane h) (held_ite (held_ite (held_setLane h) (held_setLane h)) (held_setLane h))

theorem held_restartAn {n : Nat} (h : Held s₀ s) : Held s₀ (restartAn s n) := held_setLane (held_count h)

theorem held_downLanes {ns : List Nat} (h : Held s₀ s) : Held s₀ (downLanes s ns) := held_foldl (fun _ _ => held_setLane) h

theorem held_raiseLanes {ns : List Nat} (h : Held s₀ s) : Held s₀ (raiseLanes s ns) :=
  held_foldl (fun _ _ h' => held_ite (held_bringUp h') h') h

theorem held_startTraining {n : Nat} {l : Lane} (h : Held s₀ s) : Held s₀ (startTraining s n l) :=
  held_setLane (held_takeCalib h)

theorem keeps_execAnResolution {lane : BitVec 5} {abilities : BitVec 6} {rsReq brReq brAbil : Bool} (h : Held s₀ s) :
    Keeps s₀ (execAnResolution lane abilities rsReq brReq brAbil s) := by
  unfold execAnResolution
  extract_lets
  refine keeps_next (held_ite ?_ h)
  split
  · exact h
  · exact held_ite (held_setLane h) (held_startTraining h)

theorem keeps_execTrainingDone {lane : BitVec 5} (h : Held s₀ s) : Keeps s₀ (execTrainingDone lane s) :=
  keeps_next (held_ite (held_setLane h) h)

theorem keeps_execTrainingFailure {lane : BitVec 5} (h : Held s₀ s) : Keeps s₀ (execTrainingFailure lane s) :=
  keeps_next (held_ite (held_restartAn (held_count h)) h)

theorem keeps_execLockAcquired {lane : BitVec 5} (h : Held s₀ s) : Keeps s₀ (execLockAcquired lane s) :=
  keeps_next (held_ite (held_setLane h) h)

theorem held_discardFrame {p sub : Nat} (h : Held s₀ s) : Held s₀ (discardFrame s p sub) :=
  held_ite (held_count (held_count h)) (held_count h)

theorem keeps_execLossOfLock {lane : BitVec 5} {midFrame : Bool} (h : Held s₀ s) :
    Keeps s₀ (execLossOfLock lane midFrame s) := by
  unfold execLossOfLock
  extract_lets _ _ t
  have ht : Held s₀ t := held_ite (held_discardFrame h) h
  exact keeps_next (held_ite (held_ite (held_setLane ht) (held_restartAn ht)) h)

theorem held_laneFault {n : Nat} (h : Held s₀ s) : Held s₀ (laneFault s n) := held_ite h (held_setLane h)

theorem keeps_execPllLossOfLock {group : BitVec 2} (h : Held s₀ s) : Keeps s₀ (execPllLossOfLock group s) :=
  keeps_next (held_ite h (held_foldl (fun _ _ => held_laneFault) h))

theorem keeps_execSerdesFault {lane : BitVec 5} (h : Held s₀ s) : Keeps s₀ (execSerdesFault lane s) :=
  keeps_next (held_laneFault h)

/-! ### Machine/ShpOps.lean -/

theorem held_setQueue {q : Nat} {x : Queue} (h : Held s₀ s) : Held s₀ (setQueue s q x) := h

theorem held_setFifo {p : Nat} {fs : List QFrame} (h : Held s₀ s) : Held s₀ (setFifo s p fs) := h

theorem held_bufRelease {h : Nat} (hI : Held s₀ s) : Held s₀ (bufRelease s h) := by
  unfold bufRelease
  split <;> exact hI

theorem held_refuse {q idx sub : Nat} (h : Held s₀ s) : Held s₀ (refuse s q idx sub) := held_countAt (held_count h)

theorem held_bufTake {len : Nat} {held : Option Nat} (h : Held s₀ s) : Held s₀ (bufTake s len held).2 := by
  unfold bufTake
  split
  · split <;> exact h
  · exact held_ite h (held_count h)

theorem held_enqueue {q len : Nat} {bytes : List Byte} {held : Option Nat} (h : Held s₀ s) :
    Held s₀ (enqueue s q len bytes held).2 := by
  unfold enqueue
  extract_lets _ _ _ _ _ _ t
  have ht : Held s₀ t.2 := held_ite_snd (held_record (held_ledAccept (held_bufTake h))) (held_bufTake h)
  exact held_ctrAddAt (held_countAt (held_countN (held_count (held_setQueue (held_ite ht (held_count ht))))))

theorem held_admitOne {q : Nat} {egress : Option Nat} {colour len : Nat} {bytes : List Byte} {held : Option Nat}
    (h : Held s₀ s) : Held s₀ (admitOne s q egress colour len bytes held).2 := by
  unfold admitOne
  split
  · exact held_refuse h
  · exact held_ite_snd (held_refuse (held_waitRoom h)) (held_enqueue h)

theorem held_floodTo {colour len : Nat} {bytes : List Byte} {held : Option Nat} {ps : List Nat} (h : Held s₀ s) :
    Held s₀ (floodTo s colour len bytes held ps) := by
  induction ps generalizing s held with
  | nil => exact h
  | cons p ps ih => exact ih (held_admitOne (held_count h))

theorem held_admitItem {x : Item} (h : Held s₀ s) : Held s₀ (admitItem s x) :=
  held_ite (held_admitOne h) (held_ite (held_ite (held_count h) (held_floodTo h)) (held_admitOne h))

theorem held_polPut {n : Nat} {p : PolSt} (h : Held s₀ s) : Held s₀ (polPut s n p) := h

theorem held_meter {n colour len : Nat} (h : Held s₀ s) : Held s₀ (meter s n colour len).2 := by
  unfold meter
  split
  · exact held_countAt (held_countAt h)
  · extract_lets _ _ _ _ _ t
    have ht : Held s₀ t := held_countAt (held_polPut h)
    exact held_ite_snd h (held_ite (held_countAt ht) ht)

theorem held_fillPolicers (h : Held s₀ s) : Held s₀ (fillPolicers s) := h

theorem held_setNode {l n : Nat} {x : NodeSt} (h : Held s₀ s) : Held s₀ (setNode s l n x) := h

theorem held_creditNode {l n : Nat} (h : Held s₀ s) : Held s₀ (creditNode s l n) := held_setNode h

theorem held_creditNodes (h : Held s₀ s) : Held s₀ (creditNodes s) := held_foldl (fun _ _ => held_creditNode) h

theorem held_zeroBuckets {l n : Nat} (h : Held s₀ s) : Held s₀ (zeroBuckets s l n) := held_setNode h

theorem held_commitChoice {len : Nat} {st : Nat × Nat × Choice} (h : Held s₀ s) : Held s₀ (commitChoice s len st) := by
  unfold commitChoice
  extract_lets _ _ _ _ t
  have ht : Held s₀ t := held_foldl (fun _ _ => held_setNode) (held_setNode h)
  exact held_ite (held_setNode h) (held_setNode ht)

theorem held_chargeNode {len : Nat} {ln : Nat × Nat} (h : Held s₀ s) : Held s₀ (chargeNode s len ln) := held_setNode h

theorem held_clearDeficits (h : Held s₀ s) : Held s₀ (clearDeficits s) := h

theorem held_retireFrame {f : QFrame} {status detail : BitVec 8} (h : Held s₀ s) :
    Held s₀ (retireFrame s f status detail) := by
  unfold retireFrame
  split
  · exact h
  · exact held_retireRun (held_ledDone h)

theorem held_putBack {f : QFrame} (h : Held s₀ s) : Held s₀ (putBack s f) := by
  unfold putBack
  extract_lets t
  have ht : Held s₀ t := by
    dsimp only [t]
    split
    · split
      · exact held_ite (held_ledPut h) h
      · exact h
    · exact h
  exact held_setQueue ht

theorem held_takeBack {f : QFrame} (h : Held s₀ s) : Held s₀ (takeBack s f) :=
  held_ite (held_putBack (held_count h)) (held_bufRelease (held_count h))

theorem held_emptyFifo {p : Nat} (h : Held s₀ s) : Held s₀ (emptyFifo s p) :=
  held_foldl (fun _ _ => held_takeBack) (held_setFifo h)

theorem held_portsDown (h : Held s₀ s) : Held s₀ (portsDown s) := by
  unfold portsDown
  extract_lets t _ u
  have ht : Held s₀ t := held_foldl (fun _ _ h' => held_ite (held_emptyFifo h') h') h
  clear_value t
  have hu : Held s₀ u := held_with ht
  clear_value u
  refine held_foldl ?_ hu
  intro _ _ h'
  extract_lets _ _ _ v
  have hv : Held s₀ v := held_setQueue h'
  clear_value v
  exact held_ite (held_foldl (fun _ _ h'' => held_bufRelease (held_count h'')) hv) h'

theorem held_flushQueue {q : Nat} (h : Held s₀ s) : Held s₀ (flushQueue s q) := by
  unfold flushQueue
  extract_lets _ _ _ t
  have ht : Held s₀ t := held_foldl (fun _ _ h' => held_bufRelease (held_count (held_retireFrame h'))) (held_setQueue h)
  exact held_objPut ht

theorem held_enableQueue {q : Nat} (h : Held s₀ s) : Held s₀ (enableQueue s q) := held_zeroBuckets (held_setQueue h)

theorem held_writeEnable {q v : Nat} (h : Held s₀ s) : Held s₀ (writeEnable s q v) := by
  unfold writeEnable
  extract_lets
  split
  · exact held_ite (held_enableQueue h) h
  · exact held_ite (held_setQueue h) h
  · exact held_setQueue h

theorem held_drainEnd {q : Nat} (h : Held s₀ s) : Held s₀ (drainEnd s q) :=
  held_ite (held_ite (held_enableQueue h) (held_setQueue h)) h

theorem held_sampleQueue {q : Nat} (h : Held s₀ s) : Held s₀ (sampleQueue s q) := held_ite (held_setQueue h) h

theorem held_observationChange (h : Held s₀ s) : Held s₀ (observationChange s) :=
  held_ite h (held_foldl (fun _ _ => held_setQueue) h)

theorem held_obsClear {q : Nat} (h : Held s₀ s) : Held s₀ (obsClear s q) := held_setQueue h

/-! ### Machine/StageMem.lean -/

theorem held_stgPut {k : Nat} {w : BitVec 512} (h : Held s₀ s) : Held s₀ (stgPut s k w) := h

theorem held_tcamPut {p t u value mask n : Nat} (h : Held s₀ s) : Held s₀ (tcamPut s p t u value mask n) := by
  induction n generalizing s u value mask with
  | zero => exact h
  | succ n ih => exact ih (held_with h)

theorem held_quarantineWord {p t b w : Nat} {tern : Option Nat} (h : Held s₀ s) : Held s₀ (quarantineWord s p t b w tern) :=
  held_ite h (held_event (held_count h))

theorem held_readWord {p t b w bits : Nat} {tern : Option Nat} (h : Held s₀ s) : Held s₀ (readWord s p t b w bits tern).2 :=
  held_ite_snd h (held_ite_snd h (held_quarantineWord h))

theorem held_readWords {p t bits : Nat} {l : List (Nat × Nat)} (h : Held s₀ s) : Held s₀ (readWords s p t bits l).2 := by
  induction l generalizing s with
  | nil => exact h
  | cons x l ih => exact ih (held_readWord h)

theorem held_entryPut {d : BitVec 512} {p b w i e : Nat} (h : Held s₀ s) : Held s₀ (entryPut s d p b w i e) :=
  held_record (held_stgPut h)

theorem held_ternarySearch {d : BitVec 512} {p key : Nat} {faulty : Bool} {i n : Nat} (h : Held s₀ s) :
    Held s₀ (ternarySearch s d p key faulty i n).2 := by
  induction n generalizing s faulty i with
  | zero => exact h
  | succ n ih =>
    refine held_ite_snd (held_ite_snd (held_ite_snd ?_ ?_) ?_) ?_
    · exact held_readWord h
    · exact ih (held_readWord h)
    · exact ih (held_readWord h)
    · exact ih h

theorem held_lookTable {d : BitVec 512} {p : Nat} {bus : Bus} (h : Held s₀ s) : Held s₀ (lookTable s d p bus).2 := by
  unfold lookTable
  extract_lets
  split
  · exact held_ternarySearch h
  · exact held_ite_snd (held_readWord h) (held_readWord h)
  · exact held_readWords h

theorem held_keyedPlace {d : BitVec 512} {p op : Nat} {data cmp : BitVec 2048} (h : Held s₀ s) :
    Held s₀ (keyedPlace s d p op data cmp).2 :=
  held_ite_snd h (held_readWords h)

theorem held_indexedPlace {d : BitVec 512} {p index : Nat} (h : Held s₀ s) : Held s₀ (indexedPlace s d p index).2 :=
  held_ite_snd h (held_readWord h)

theorem held_writeEntry {d : BitVec 512} {p index : Nat} {pl : Nat × Nat × Nat} {v : BitVec 2048} (h : Held s₀ s) :
    Held s₀ (writeEntry s d p index pl v) :=
  held_entryPut (held_ite (held_record (held_tcamPut h)) h)

theorem held_stageCommand {d : BitVec 512} {p op index : Nat} {data cmp : BitVec 2048} (h : Held s₀ s) :
    Held s₀ (stageCommand s d p op index data cmp).2 := by
  unfold stageCommand
  split
  · exact h
  · split
    · exact h
    · extract_lets t
      have ht : Held s₀ t.2 := held_ite_snd (held_keyedPlace h) (held_indexedPlace h)
      refine held_ite_snd ht ?_
      split
      · exact ht
      · split
        · exact held_writeEntry ht
        · exact ht
      · exact ht
      · exact held_writeEntry ht
      · exact ht
      · exact held_ite_snd (held_writeEntry ht) ht
      · exact held_writeEntry ht

theorem held_noteScrub {ok : Bool} (h : Held s₀ s) : Held s₀ (noteScrub s ok) := held_ite h h

theorem held_scrubStage {p t : Nat} (h : Held s₀ s) : Held s₀ (scrubStage s p t) := by
  unfold scrubStage
  extract_lets _ u
  have hu : Held s₀ u := held_foldl (fun _ _ hv => held_noteScrub (held_readWord hv)) h
  clear_value u
  exact hu

theorem held_installWord {img : Image} {priv : List (BitVec 512)} {p n : Nat} (h : Held s₀ s) :
    Held s₀ (installWord s img priv p n) := by
  unfold installWord
  refine held_foldl (fun t k ht => ?_) h
  extract_lets u
  have hu : Held s₀ u := by
    dsimp only [u]
    split
    · exact held_stgPut ht
    · exact ht
  clear_value u
  split
  · refine held_foldl (fun v j hv => ?_) hu
    exact hv
  · exact hu

/-! ### Machine/Trust.lean -/

theorem held_burnEnds (h : Held s₀ s) : Held s₀ (burnEnds s) := h

theorem held_completeBanks (h : Held s₀ s) : Held s₀ (completeBanks s) := h

theorem held_signDigest {d : BitVec 256} (h : Held s₀ s) : Held s₀ (signDigest s d).2 := h

/-! ### Machine/Timetable.lean -/

theorem held_ttSet {t : Tt} (h : Held s₀ s) : Held s₀ (ttSet s t) := held_ite h h

theorem held_ttReason {r : BitVec 8} (h : Held s₀ s) : Held s₀ (ttReason s r) := held_ttSet h

theorem held_ttRefuse (h : Held s₀ s) : Held s₀ (ttRefuse s) := held_ttReason h

theorem held_relock {a b : Nat} (h : Held s₀ s) : Held s₀ (relock s a b) := h

theorem held_startVerify (h : Held s₀ s) : Held s₀ (startVerify s) := held_record (held_ttSet (held_ite (held_lockHbm h) h))

theorem held_doVerify (h : Held s₀ s) : Held s₀ (doVerify s) := by
  refine held_ite (held_ttRefuse h) ?_
  split
  · exact held_startVerify h
  · exact held_startVerify h
  · exact held_ttReason h
  · exact held_ttRefuse h

theorem keeps_execVerify (h : Held s₀ s) : Keeps s₀ (execVerify s) := keeps_next (held_ite (held_doVerify h) h)

theorem held_dropStaged (h : Held s₀ s) : Held s₀ (dropStaged s) := held_unlockHbm (held_ttSet h)

theorem held_treeWrite {a : Nat} {bs : List Byte} (h : Held s₀ s) : Held s₀ (treeWrite s a bs) := held_hbmWrite (held_hbmWrite h)

theorem held_startInstall (h : Held s₀ s) : Held s₀ (startInstall s) := by
  unfold startInstall
  split
  · exact h
  · exact held_record (held_ttSet h)

theorem held_doInstall (h : Held s₀ s) : Held s₀ (doInstall s) := held_ite (held_startInstall h) (held_ttRefuse h)

theorem keeps_execInstall (h : Held s₀ s) : Keeps s₀ (execInstall s) := keeps_next (held_doInstall h)

theorem held_doVerifyDone (h : Held s₀ s) : Held s₀ (doVerifyDone s) := by
  unfold doVerifyDone
  split
  · extract_lets
    split
    · exact held_ttReason (held_dropStaged (held_ite (held_count (held_ttSet (held_count h))) (held_count h)))
    · exact held_ite (held_doInstall (held_ttSet h)) (held_ttSet h)
  · exact h

theorem keeps_execVerifyDone (h : Held s₀ s) : Keeps s₀ (execVerifyDone s) := keeps_next (held_doVerifyDone h)

theorem held_doArm (h : Held s₀ s) : Held s₀ (doArm s) := by
  refine held_ite (held_ttRefuse h) ?_
  split
  · exact h
  · exact held_ite (held_ttReason h) (held_ite (held_ttReason h) (held_record (held_ttSet h)))

theorem keeps_execArm (h : Held s₀ s) : Keeps s₀ (execArm s) := keeps_next (held_doArm h)

theorem held_doInstallDone (h : Held s₀ s) : Held s₀ (doInstallDone s) := by
  unfold doInstallDone
  split
  · extract_lets t
    have ht : Held s₀ t := by
      dsimp only [t]
      split
      · exact held_treeWrite h
      · exact h
    exact held_ite (held_doArm (held_ttSet (held_ttSet ht))) (held_ttSet ht)
  · exact h

theorem keeps_execInstallDone (h : Held s₀ s) : Keeps s₀ (execInstallDone s) := keeps_next (held_doInstallDone h)

theorem held_doDiscard (h : Held s₀ s) : Held s₀ (doDiscard s) := by
  refine held_ite (held_ttRefuse h) ?_
  split
  · exact held_ttReason (held_dropStaged h)
  · exact held_ttReason (held_dropStaged h)
  · exact held_ttReason (held_dropStaged h)
  · exact held_ttReason (held_dropStaged h)
  · exact held_ttReason h

theorem keeps_execDiscard (h : Held s₀ s) : Keeps s₀ (execDiscard s) := keeps_next (held_doDiscard h)

theorem held_doCancelArm (h : Held s₀ s) : Held s₀ (doCancelArm s) :=
  held_ite (held_record (held_ttSet h)) (held_ite (held_ttReason h) (held_ttReason h))

theorem keeps_execCancelArm (h : Held s₀ s) : Keeps s₀ (execCancelArm s) := keeps_next (held_doCancelArm h)

theorem held_makeCurrent (h : Held s₀ s) : Held s₀ (makeCurrent s) := by
  unfold makeCurrent
  split
  · exact h
  · exact held_record (held_observationChange (held_count (held_ttSet (held_relock (held_relock h)))))

theorem held_closeOverlap (h : Held s₀ s) : Held s₀ (closeOverlap s) := held_ite (held_unlockHbm (held_ttSet h)) h

theorem held_countOverlap (h : Held s₀ s) : Held s₀ (countOverlap s) := held_ite (held_ctrAddAt (held_ttSet h)) h

theorem held_headerLost {gen : Bool} (h : Held s₀ s) : Held s₀ (headerLost s gen) := by
  unfold headerLost
  split
  · exact held_hardFault h
  · extract_lets t
    have ht : Held s₀ t := by
      dsimp only [t]
      split
      · exact held_dropStaged h
      · exact held_dropStaged h
      · exact held_dropStaged h
      · exact held_dropStaged h
      · exact held_dropStaged h
      · exact h
    exact held_ite ht (held_ttSet ht)

theorem held_checkHeaders (h : Held s₀ s) : Held s₀ (checkHeaders s) := by
  unfold checkHeaders
  extract_lets _ _ t _ u _ v
  have ht : Held s₀ t := held_event (held_count (held_ttSet h))
  have hu : Held s₀ u := by
    dsimp only [u]
    split
    · exact h
    · exact held_ite (held_ttSet h) (held_ite (held_headerLost ht) (held_ttSet ht))
  have hv : Held s₀ v := held_event (held_count (held_ttSet hu))
  split
  · exact hu
  · exact held_ite (held_ttSet hu) (held_ite (held_headerLost hv) (held_ttSet hv))

theorem held_upsetHeader {u : Option (Bool × BitVec 1024)} (h : Held s₀ s) : Held s₀ (upsetHeader s u) := by
  unfold upsetHeader
  split
  · exact h
  · exact held_ttSet h
  · exact held_ttSet h

theorem held_endDrainTt (h : Held s₀ s) : Held s₀ (endDrainTt s) := held_ite (held_ttSet (held_unlockHbm (held_unlockHbm h))) h

/-! ### Machine/Parser.lean -/

theorem held_setRxBuf {p : Nat} {fs : List RxFrame} (h : Held s₀ s) : Held s₀ (setRxBuf s p fs) := h

theorem held_divertInband {p : Nat} {bytes : List Byte} (h : Held s₀ s) : Held s₀ (divertInband s p bytes) :=
  held_ite (held_count h) h

theorem held_acceptFrame {p : Nat} {bytes : List Byte} {slots : Nat} (h : Held s₀ s) :
    Held s₀ (acceptFrame s p bytes slots) := by
  unfold acceptFrame
  extract_lets t
  have ht : Held s₀ t := held_countN (held_count h)
  exact held_ite (held_count ht) (held_ite (held_divertInband ht) (held_ite (held_count ht) (held_ite (held_count ht)
      (held_setRxBuf (held_with ht)))))

theorem keeps_execFrameReceived {port : BitVec 5} {bytes : List Byte} {fcsOk cut : Bool} {slots : Nat} (h : Held s₀ s) :
    Keeps s₀ (execFrameReceived port bytes fcsOk cut s slots) :=
  keeps_next (held_ite h (held_ite (held_discardFrame h) (held_ite (held_discardFrame h) (held_ite (held_discardFrame h)
    (held_ite (held_discardFrame h) (held_acceptFrame h))))))

theorem held_countScan {p n lists : Nat} (h : Held s₀ s) : Held s₀ (countScan s p n lists) :=
  held_ite (held_count (held_countN h)) (held_countN h)

theorem keeps_execRawHitListComplete {port : BitVec 5} {frame : Nat} (h : Held s₀ s) :
    Keeps s₀ (execRawHitListComplete port frame s) := by
  unfold execRawHitListComplete
  extract_lets
  refine keeps_next ?_
  split
  · exact held_countScan (held_setRxBuf h)
  · split
    · exact held_ite h (held_countScan (held_itemPut h))
    · exact h

theorem held_ingress {slot p lane : Nat} (h : Held s₀ s) : Held s₀ (ingress s slot p lane) := by
  unfold ingress
  extract_lets
  split
  · exact h
  · extract_lets t
    have ht : Held s₀ t := held_setRxBuf h
    clear_value t
    exact held_count ht

theorem keeps_execIngressSlot {slot : BitVec 12} {p : BitVec 2} {rowOk : Bool} (h : Held s₀ s) :
    Keeps s₀ (execIngressSlot slot p rowOk s) :=
  keeps_next (held_ite (held_rowFailed (held_atSlot h)) (held_ite (held_ingress (held_atSlot h)) (held_atSlot h)))

theorem keeps_execParserNodeStep {item : Nat} (h : Held s₀ s) : Keeps s₀ (execParserNodeStep item s) := by
  refine keeps_next ?_
  split
  · exact h
  · split
    · exact held_ite h (held_itemPut h)
    · exact h

theorem keeps_execParserOutput {item : Nat} (h : Held s₀ s) : Keeps s₀ (execParserOutput item s) := by
  refine keeps_next ?_
  split
  · exact h
  · exact held_ite (held_ite (held_itemPut h) (held_ite (held_itemRemove (held_count (held_count h))) (held_itemPut (held_count
        (held_count h))))) h

theorem keeps_execMatchSetFinal {item : Nat} (h : Held s₀ s) : Keeps s₀ (execMatchSetFinal item s) := by
  refine keeps_next ?_
  split
  · exact h
  · split
    · exact h
    · exact h
    · exact held_itemPut (held_ite (held_count (held_countN h)) (held_countN h))

end Sys2Proof.Machine.Laws
end

section
/-!
SUPPORT. The operations of the host interface, the DMA engines and the cipher engines, and the loss of a frame, keep
the queue and the four links.
-/

namespace Sys2Proof.Machine.Laws

open Sys2Proof Sys2Proof.Machine

set_option Elab.async false

variable {s₀ s : State}

/-! ### Machine/HostOps.lean -/

theorem held_fnPut {link fn : Nat} {f : Fn} (h : Held s₀ s) : Held s₀ (fnPut s link fn f) := h

theorem held_aerLog {link fn bit : Nat} (h : Held s₀ s) : Held s₀ (aerLog s link fn bit) := held_fnPut h

theorem held_linkPut {k : Nat} {l : Link} (h : Held s₀ s) : Held s₀ (linkPut s k l) := by
  have hset : Held s₀ { s with hst := { s.hst with links := lset s.hst.links k l } } := by
    exact held_links h (length_lset ..)
  exact held_ite hset (held_event hset)

theorem held_wakeLink {k : Nat} (h : Held s₀ s) : Held s₀ (wakeLink s k) := held_ite h (held_linkPut h)

theorem held_countLink {k sub : Nat} (h : Held s₀ s) : Held s₀ (countLink s k sub) := held_count h

theorem held_barGate {link fn : Nat} {act : State → State} (h : Held s₀ s) (hact : ∀ t, Held s₀ t → Held s₀ (act t)) :
    Held s₀ (barGate s link fn act) :=
  held_ite h (held_ite (held_aerLog h) (hact _ h))

theorem held_raiseVector {link fn v : Nat} (h : Held s₀ s) : Held s₀ (raiseVector s link fn v) :=
  held_ite (held_emit (held_wakeLink h)) (held_ite h (held_fnPut h))

theorem held_setSlice {n : Nat} {x : Slice} (h : Held s₀ s) : Held s₀ (setSlice s n x) := h

theorem held_translate {owner : Option Nat} {r : Nat × Nat × Option Nat} {addr : Nat} {write : Bool} (h : Held s₀ s) :
    Held s₀ (Machine.translate s owner r addr write).2 := by
  unfold Machine.translate
  extract_lets
  refine held_ite_snd h (held_ite_snd h ?_)
  split
  · exact h
  · exact held_ite_snd h (held_countLink (held_emit (held_wakeLink h)))

theorem held_atcDrop {link fn : Nat} (h : Held s₀ s) : Held s₀ (atcDrop s link fn) := h

theorem heldSome_sendRead {r : Nat × Nat × Option Nat} {addr len ch unit part : Nat} {page : Option Nat} (h : Held s₀ s) :
    HeldSome s₀ (sendRead s r addr len ch unit part page) := by
  refine heldSome_ite heldSome_none ?_
  split
  · exact heldSome_none
  · exact heldSome_some (held_emit (held_wakeLink h))

theorem held_quarantineReads {which : HRead → Bool} (h : Held s₀ s) : Held s₀ (quarantineReads s which) := h

theorem held_hostWrite {r : Nat × Nat × Option Nat} {addr : Nat} {bs : List Byte} {relaxed : Bool} (h : Held s₀ s) :
    Held s₀ (hostWrite s r addr bs relaxed) :=
  held_ite h (held_emit (held_wakeLink h))

theorem held_hostPost {owner : Option Nat} {r : Nat × Nat × Option Nat} {addr : Nat} {bs : List Byte} (h : Held s₀ s) :
    Held s₀ (hostPost s owner r addr bs).2 := by
  unfold hostPost
  split
  next e =>
    exact held_hostWrite (held_of_snd (held_translate h) e)
  next e =>
    exact held_of_snd (held_translate h) e

theorem held_qpPut {k : Nat} {x : Qp} (h : Held s₀ s) : Held s₀ (qpPut s k x) := h

theorem held_setBox {k : Nat} {b : Mailbox} (h : Held s₀ s) : Held s₀ (setBox s k b) := by
  exact h

theorem held_boxReply {k : Nat} {bs : List Byte} (h : Held s₀ s) : Held s₀ (boxReply s k bs) := held_raiseVector (held_setBox h)

theorem held_boxEvent {k : Nat} {bs : List Byte} (h : Held s₀ s) : Held s₀ (boxEvent s k bs) := held_raiseVector (held_setBox h)

theorem held_boxLeaves {x : Session} (h : Held s₀ s) : Held s₀ (boxLeaves s x) := held_ite (held_boxReply h) h

/-! ### Machine/DmaOps.lean -/

theorem held_recordChan {c : Nat} {x y : Chan} (h : Held s₀ s) : Held s₀ (recordChan s c x y) :=
  held_ite (held_foldl (fun _ _ h' => held_ite h' (held_record h')) h) h

theorem held_setChan {c : Nat} {x : Chan} (h : Held s₀ s) : Held s₀ (setChan s c x) := held_recordChan h

theorem held_putResult {cl ch : Nat} {msg : BitVec 512} {eng entry : Option Nat} (h : Held s₀ s) :
    Held s₀ (putResult s cl ch msg eng entry) :=
  held_setChannel h

theorem held_dmaNotify {c : Nat} {x : Chan} (h : Held s₀ s) : Held s₀ (dmaNotify s c x) := held_ite (held_raiseVector h) h

theorem held_dmaCount {c : Nat} {status : BitVec 8} {done : Nat} (h : Held s₀ s) : Held s₀ (dmaCount s c status done) := by
  unfold dmaCount
  extract_lets
  split
  · exact held_count (held_ctrAddAt (held_countAt (held_countN (held_count h))))
  · exact held_count (held_ctrAddAt (held_countAt (held_countN (held_count h))))
  · exact held_count (held_ctrAddAt (held_countAt (held_countN (held_count h))))
  · exact held_count (held_ctrAddAt (held_countAt (held_countN (held_count h))))
  · exact held_ctrAddAt (held_countAt (held_countN (held_count h)))

theorem held_orphanRequest {c : Nat} (h : Held s₀ s) : Held s₀ (orphanRequest s c) := h

theorem held_recordDescs {qp head esz : Nat} {bs : List Byte} (h : Held s₀ s) : Held s₀ (recordDescs s qp head esz bs) :=
  held_foldl (fun _ _ => held_record) h

theorem held_freeBytes {k a n : Nat} (h : Held s₀ s) : Held s₀ (freeBytes s k a n) :=
  held_foldl (fun _ _ => held_hbmStore) h

theorem held_freeBeyond {x : Chan} {status : BitVec 8} {done : Nat} (h : Held s₀ s) : Held s₀ (freeBeyond s x status done) :=
  held_ite h (held_foldl (fun _ _ => held_freeBytes) h)

theorem held_flrReset {c : Nat} (h : Held s₀ s) : Held s₀ (flrReset s c) := held_ite (held_setChan h) h

theorem held_dmaComplete {c : Nat} {status detail : BitVec 8} {done : Nat} (h : Held s₀ s) :
    Held s₀ (dmaComplete s c status detail done) := by
  unfold dmaComplete
  extract_lets _ _ _ _ _ t
  have ht : Held s₀ t := held_flrReset (held_dmaCount (held_freeBeyond (held_setChan (held_orphanRequest (held_quarantineReads
      h)))))
  split
  · exact held_dmaNotify ht
  · exact held_putResult (held_dmaNotify ht)
  · exact held_ite (held_recordDescs (held_qpPut ht)) (held_qpPut ht)

theorem held_dmaHalt {c addr : Nat} {detail : BitVec 8} {dir list : Bool} (h : Held s₀ s) :
    Held s₀ (dmaHalt s c addr detail dir list) := by
  unfold dmaHalt
  extract_lets _ _ _ t
  have ht : Held s₀ t := held_count (held_setChan h)
  split
  · exact held_putResult (held_dmaNotify ht)
  · exact held_dmaNotify ht

theorem held_stopComplete {c : Nat} {status detail : BitVec 8} (h : Held s₀ s) : Held s₀ (stopComplete s c status detail) :=
  held_dmaComplete (held_count h)

theorem held_dmaStop {c : Nat} {status detail : BitVec 8} (h : Held s₀ s) : Held s₀ (dmaStop s c status detail) := by
  unfold dmaStop
  extract_lets
  split
  · exact held_ite (held_stopComplete (held_quarantineReads h)) (held_setChan (held_quarantineReads h))
  · exact held_ite (held_stopComplete (held_quarantineReads h)) (held_setChan (held_quarantineReads h))
  · exact held_ite (held_stopComplete (held_quarantineReads h)) (held_setChan (held_quarantineReads h))
  · exact h

theorem held_dmaStopAll {which : Nat → Chan → Bool} {status detail : BitVec 8} (h : Held s₀ s) :
    Held s₀ (dmaStopAll s which status detail) :=
  held_foldl (fun _ _ => held_dmaStop) h

theorem held_dmaPairFault {c : Nat} {beforeUnit : Bool} (h : Held s₀ s) : Held s₀ (dmaPairFault s c beforeUnit) := by
  unfold dmaPairFault
  extract_lets _ t
  have ht : Held s₀ t := held_dmaComplete (held_count h)
  exact held_ite (held_event (held_setChan ht)) ht

theorem held_dmaStart {c : Nat} {x : Chan} {route : Route} {owner : Option Nat} (h : Held s₀ s) :
    Held s₀ (dmaStart s c x route owner) :=
  held_ite (held_dmaComplete (held_setChan h)) (held_setChan h)

/-! ### Machine/CipOps.lean -/

theorem held_creqPut {r : CReq} (h : Held s₀ s) : Held s₀ (creqPut s r) := h

theorem held_setEng {e : Nat} {x : CEng} (h : Held s₀ s) : Held s₀ (setEng s e x) := h

theorem held_cipherIssue {src : CSrc} {raw : BitVec 512} {owner : Option Nat} (h : Held s₀ s) :
    Held s₀ (cipherIssue s src raw owner) :=
  h

theorem held_cipStop {which : CReq → Bool} {status detail : BitVec 8} (h : Held s₀ s) :
    Held s₀ (cipStop s which status detail) :=
  h

theorem held_slotUse {n : Nat} {k : KenSlot} (h : Held s₀ s) : Held s₀ (slotUse s n k) := h

theorem held_slotWrap {n : Nat} (h : Held s₀ s) : Held s₀ (slotWrap s n) := h

theorem held_slotPut {n : Nat} {k : KenSlot} (h : Held s₀ s) : Held s₀ (slotPut s n k) := by
  unfold slotPut
  extract_lets t
  have ht : Held s₀ t := by
    dsimp only [t]
    split
    · exact held_record h
    · exact h
  exact held_slotWrap (held_slotUse ht)

theorem heldSome_cacheIn {n : Nat} (h : Held s₀ s) : HeldSome s₀ (cacheIn s n) := by
  unfold cacheIn
  extract_lets
  refine heldSome_ite (heldSome_some h) ?_
  split
  · exact heldSome_some h
  · exact heldSome_none

theorem held_cacheTouch {n : Nat} {missed : Bool} (h : Held s₀ s) : Held s₀ (cacheTouch s n missed) := by
  unfold cacheTouch
  extract_lets t
  have ht : Held s₀ t := held_ite h (held_count h)
  exact held_getD ht (heldSome_cacheIn ht)

theorem held_fetchSlot {n : Nat} (h : Held s₀ s) : Held s₀ (fetchSlot s n) := held_ite h h

theorem held_kenComplete {r : KReq} {status detail gen : Nat} (h : Held s₀ s) :
    Held s₀ (kenComplete s r status detail gen) := by
  unfold kenComplete
  extract_lets _ t _ u
  have ht : Held s₀ t := held_count h
  clear_value t
  have hu : Held s₀ u := held_ite (held_putResult ht) ht
  clear_value u
  exact held_ledDone hu

theorem held_settleErases (h : Held s₀ s) : Held s₀ (settleErases s) := held_foldl (fun _ _ => held_kenComplete) h

theorem held_scrub {n : Nat} (h : Held s₀ s) : Held s₀ (scrub s n) := held_settleErases (held_slotPut h)

theorem held_keyRelease {n gen : Nat} (h : Held s₀ s) : Held s₀ (keyRelease s n gen) :=
  held_ite (held_scrub (held_slotUse (held_ite h h))) (held_settleErases (held_slotUse (held_ite h h)))

theorem held_quarantineSlot {n : Nat} (h : Held s₀ s) : Held s₀ (quarantineSlot s n) :=
  held_cipStop (held_event (held_count (held_slotPut h)))

theorem held_slotWrite {n kind material : Nat} {owner : Option Nat} (h : Held s₀ s) :
    Held s₀ (slotWrite s n kind material owner).2 := by
  unfold slotWrite
  extract_lets
  split
  · exact held_count h
  · exact held_slotPut h
  · exact held_slotPut h
  · exact held_ite_snd (held_count h) (held_ite_snd (held_slotPut h) (held_ite_snd (held_count h) (held_slotPut h)))

theorem heldSome_kenAccept {q : KReq} (h : Held s₀ s) : HeldSome s₀ (kenAccept s q) :=
  heldSome_ite heldSome_none (heldSome_some (held_ledAccept h))

theorem held_kenTake {l : List KReq} (h : Held s₀ s) : Held s₀ (kenTake s l) := by
  induction l generalizing s with
  | nil => exact h
  | cons q l ih =>
    unfold kenTake
    split
    next t e => exact ih (heldSome_kenAccept h _ e)
    next => exact held_noteWait h

theorem held_kenPump (h : Held s₀ s) : Held s₀ (kenPump s) := held_kenTake h

/-- An operation of a core on a key slot: what it answers keeps the queue where its effect on the slot does. -/
theorem held_coreKeyOp {sl n : Nat} {eff : State → (Nat × Nat × Nat) × State} {r : Nat × State} (h : Held s₀ s)
    (heff : ∀ t, Held s₀ t → Held s₀ (eff t).2) (e : coreKeyOp s sl n eff = some r) : Held s₀ r.2 := by
  unfold coreKeyOp at e
  split at e
  · cases e
  · extract_lets q t u _ v at e
    have hu : Held s₀ u := held_count (heff _ (held_cacheTouch (held_ledRun (held_ledAccept h))))
    clear_value u
    have hv : Held s₀ v := hu
    cases e
    exact held_ledDone hv

/-! ### Machine/Dma.lean -/

theorem held_unitPut {c : Nat} {u : DUnit} (h : Held s₀ s) : Held s₀ (unitPut s c u) := held_setChan h

theorem held_unitFail {c uid : Nat} {detail : BitVec 8} {write side : Bool} (h : Held s₀ s) :
    Held s₀ (unitFail s c uid detail write side) :=
  held_setChan h

theorem held_readData {c uid part : Nat} {bs : List Byte} (h : Held s₀ s) : Held s₀ (readData s c uid part bs) := held_setChan h

theorem held_pumpRead {c : Nat} {u : DUnit} {part : Nat} {r : DRead} (h : Held s₀ s) : Held s₀ (pumpRead s c u part r) := by
  unfold pumpRead
  extract_lets
  split
  · exact h
  · split
    · exact held_readData h
    · split
      · exact held_unitFail h
      · split
        · exact h
        · split
          next e =>
            exact held_of_snd (held_translate h) e
          next e =>
            exact held_unitFail (held_of_snd (held_translate h) e)
          next e =>
            exact held_getD (held_of_snd (held_translate h) e) (heldSome_sendRead (held_of_snd (held_translate h) e))

theorem held_pumpReads {c : Nat} {u : DUnit} {k : Nat} {l : List DRead} (h : Held s₀ s) : Held s₀ (pumpReads s c u k l) := by
  induction l generalizing s k with
  | nil => exact h
  | cons r l ih => exact ih (held_pumpRead h)

theorem held_settleFails {c : Nat} (h : Held s₀ s) : Held s₀ (settleFails s c) := by
  unfold settleFails
  extract_lets
  split
  · exact h
  · split
    · exact held_dmaHalt h
    · exact held_dmaHalt h
    · exact held_setChan h
    · exact h

theorem held_pumpChan {c : Nat} (h : Held s₀ s) : Held s₀ (pumpChan s c) := by
  unfold pumpChan
  extract_lets t
  have ht : Held s₀ t := held_foldl (fun _ _ h' => held_ite h' (held_pumpReads h')) h
  exact held_settleFails ht

theorem held_pumpAll (h : Held s₀ s) : Held s₀ (pumpAll s) := by
  refine held_foldl (fun _ _ h' => ?_) h
  split
  · exact held_pumpChan h'
  · exact held_pumpChan h'
  · exact held_pumpChan h'
  · exact h'

theorem held_issueUnit {c : Nat} (h : Held s₀ s) : Held s₀ (issueUnit s c) := by
  unfold issueUnit
  extract_lets
  refine held_ite (held_dmaPairFault h) ?_
  split
  · exact held_pumpChan (held_unitPut h)
  · exact held_ite (held_pumpChan (held_setChan h)) (held_pumpChan (held_setChan h))

theorem held_grantDma {k : Nat} (h : Held s₀ s) : Held s₀ (grantDma s k) := by
  unfold grantDma
  extract_lets
  refine held_ite h ?_
  split
  · exact held_count h
  · exact held_issueUnit h

theorem keeps_execDmaGrant {slot : BitVec 12} {k : BitVec 2} {rowOk : Bool} (h : Held s₀ s) :
    Keeps s₀ (execDmaGrant slot k rowOk s) :=
  keeps_next (held_ite (held_rowFailed (held_atSlot h)) (held_grantDma (held_atSlot h)))

theorem held_dmaIgnored {c : Nat} (h : Held s₀ s) : Held s₀ (dmaIgnored s c) := held_count (held_setChan h)

theorem held_ctrlWrite {c : Nat} {w : BitVec 64} (h : Held s₀ s) : Held s₀ (ctrlWrite s c w) :=
  held_ite (held_dmaIgnored h) (held_ite (held_setChan h) (held_ite (held_dmaIgnored (held_setChan h)) (held_ite h
    (held_dmaStart h))))

theorem keeps_execChannelStart {ch : BitVec 12} {ctrl : BitVec 64} (h : Held s₀ s) : Keeps s₀ (execChannelStart ch ctrl s) :=
  keeps_next (held_ctrlWrite h)

theorem held_dmaCipherPump (h : Held s₀ s) : Held s₀ (dmaCipherPump s) := held_foldl (fun _ _ => held_cipherIssue) h

theorem held_chanActivate {c : Nat} {x : Chan} (h : Held s₀ s) : Held s₀ (chanActivate s c x) :=
  held_ite (held_dmaCipherPump (held_setChan h)) (held_setChan h)

theorem keeps_execPrecheckDone {ch : BitVec 12} (h : Held s₀ s) : Keeps s₀ (execPrecheckDone ch s) := by
  unfold execPrecheckDone
  extract_lets
  split
  · refine keeps_ite (keeps_next (held_dmaPairFault h)) (keeps_ite (keeps_next (held_dmaComplete h)) (keeps_ite (keeps_next h)
        ?_))
    split
    · exact keeps_next (held_dmaComplete h)
    · exact keeps_next (held_chanActivate h)
  · exact keeps_next h

/-- The pieces of a write, each to device memory or to the host, up to the one that stops it. -/
theorem held_writePieces {x : Chan} {l : List (Nat × Nat)} {bs : List Byte} {t : State} (h : Held s₀ s)
    (e : writePieces s x l bs = some (.ok t)) : Held s₀ t := by
  induction l generalizing s bs with
  | nil => cases e; exact h
  | cons p l ih =>
    unfold writePieces at e
    split at e
    · split at e
      · cases e
      · exact ih (held_hbmWrite h) e
    · split at e
      · cases e
      · split at e
        · cases e
        · split at e
          · cases e
          · split at e
            · cases e
            · cases e
            next he => exact ih (held_hostWrite (held_of_snd (held_translate h) he)) e

theorem held_askWrites {x : Chan} {l : List (Nat × Nat)} (h : Held s₀ s) : Held s₀ (askWrites s x l) := by
  induction l generalizing s with
  | nil => exact h
  | cons p l ih =>
    unfold askWrites
    split
    · exact h
    · split
      · exact h
      · exact ih (held_translate h)

theorem held_unitDone {c : Nat} {u : DUnit} (h : Held s₀ s) : Held s₀ (unitDone s c u) := held_setChan h

theorem held_writeChunk {c : Nat} {u : DUnit} {bs : List Byte} (h : Held s₀ s) : Held s₀ (writeChunk s c u bs) := by
  unfold writeChunk
  extract_lets
  split
  · exact held_askWrites h
  · exact held_settleFails (held_unitFail h)
  next e => exact held_unitDone (held_writePieces h e)

theorem held_flushStaged {c : Nat} (h : Held s₀ s) : Held s₀ (flushStaged s c) := by
  refine held_foldl (fun _ _ h' => ?_) h
  split
  · exact held_writeChunk h'
  · exact h'

theorem held_finishChan {c : Nat} (h : Held s₀ s) : Held s₀ (finishChan s c) := by
  unfold finishChan
  extract_lets
  refine held_ite h ?_
  split
  · exact held_ite (held_ite (held_dmaComplete h) h) (held_ite (held_dmaComplete (held_flushStaged h)) (held_flushStaged h))
  · exact held_ite (held_dmaComplete (held_setChan h)) h

theorem held_chunkFinished {c : Nat} {u : DUnit} (h : Held s₀ s) : Held s₀ (chunkFinished s c u) :=
  held_finishChan (held_unitDone h)

theorem held_listRead {c : Nat} {u : DUnit} (h : Held s₀ s) : Held s₀ (listRead s c u) :=
  held_ite (held_setChan h) (held_setChan h)

theorem held_stage {c : Nat} {u : DUnit} (h : Held s₀ s) : Held s₀ (stage s c u) := held_ite h (held_setChan h)

theorem held_runChunk {c : Nat} {u : DUnit} (h : Held s₀ s) : Held s₀ (runChunk s c u) := by
  unfold runChunk
  extract_lets
  refine held_ite (held_ite (held_chunkFinished h) (held_ite (held_dmaComplete h) h)) (held_ite (held_chunkFinished
      (held_setChan h)) (held_ite h ?_))
  split
  · exact held_stage h
  · exact held_finishChan (held_writeChunk (held_stage h))

theorem held_memoryFails {c : Nat} {u : DUnit} {r : DRead} (h : Held s₀ s) : Held s₀ (memoryFails s c u r) :=
  held_settleFails (held_unitFail (held_event h))

theorem keeps_execChunkDone {ch : BitVec 12} {unit : Nat} {memOk : Bool} (h : Held s₀ s) :
    Keeps s₀ (execChunkDone ch unit memOk s) := by
  unfold execChunkDone
  extract_lets
  split
  · exact keeps_next h
  · refine keeps_ite (keeps_next h) ?_
    split
    · exact keeps_next (held_memoryFails h)
    · split
      · split
        · exact keeps_next (held_stopComplete (held_setChan h))
        · exact keeps_next (held_setChan h)
      · exact keeps_ite (keeps_next (held_runChunk h)) (keeps_ite (keeps_next (held_listRead h)) (keeps_next h))
      · exact keeps_ite (keeps_next (held_runChunk h)) (keeps_ite (keeps_next (held_listRead h)) (keeps_next h))
      · exact keeps_ite (keeps_next (held_runChunk h)) (keeps_ite (keeps_next (held_listRead h)) (keeps_next h))
      · exact keeps_next h

theorem held_dmaAbort {c : Nat} (h : Held s₀ s) : Held s₀ (dmaAbort s c) :=
  held_ite (held_dmaComplete (held_count h)) (held_dmaIgnored h)

theorem held_dmaRetry {c : Nat} (h : Held s₀ s) : Held s₀ (dmaRetry s c) :=
  held_ite (held_finishChan (held_setChan (held_quarantineReads (held_count h)))) (held_dmaIgnored h)

theorem held_dmaClear {c : Nat} (h : Held s₀ s) : Held s₀ (dmaClear s c) := held_ite (held_setChan h) (held_dmaIgnored h)

theorem keeps_execDmaAbort {ch : BitVec 12} (h : Held s₀ s) : Keeps s₀ (execDmaAbort ch s) := keeps_next (held_dmaAbort h)

theorem keeps_execDmaRetry {ch : BitVec 12} (h : Held s₀ s) : Keeps s₀ (execDmaRetry ch s) := keeps_next (held_dmaRetry h)

theorem keeps_execDmaClear {ch : BitVec 12} (h : Held s₀ s) : Keeps s₀ (execDmaClear ch s) := keeps_next (held_dmaClear h)

theorem held_dmaRegWrite {c off : Nat} {v : BitVec 64} (h : Held s₀ s) : Held s₀ (dmaRegWrite s c off v) := by
  unfold dmaRegWrite
  extract_lets
  refine held_ite (held_setChan h) (held_ite ?_ (held_ite (held_ctrlWrite h) (held_ite (held_dmaIgnored h) (held_ite
      (held_setChan h) (held_ite (held_setChan h) (held_ite (held_setChan h) (held_ite (held_setChan h) (held_ite (held_setChan
      h) (held_ite (held_setChan h) (held_ite (held_setChan h) (held_ite (held_setChan h) h)))))))))))
  split
  · exact held_dmaAbort h
  · exact held_dmaRetry h
  · exact held_dmaClear h
  · exact h

theorem held_dmaWideWrite {c off : Nat} {v : BitVec 64} (h : Held s₀ s) : Held s₀ (dmaWideWrite s c off v) :=
  held_ite (held_dmaRegWrite h) (held_ite (held_dmaRegWrite (held_dmaRegWrite h)) (held_ite (held_dmaIgnored h) (held_ite
    (held_ite (held_dmaRegWrite (held_dmaRegWrite h)) (held_dmaIgnored h)) (held_dmaRegWrite (held_dmaRegWrite h)))))

/-! ### Machine/Loss.lean -/

theorem held_hostFix {entry : Nat} {status detail : BitVec 8} {result : BitVec 64} (h : Held s₀ s) :
    Held s₀ (hostFix s entry status detail result) := by
  unfold hostFix
  split
  · exact h
  · extract_lets _ t _ _ _ u
    have ht : Held s₀ t := held_ledMetaSet h
    clear_value t
    have hu : Held s₀ u := by
      dsimp only [u]
      split <;> exact ht
    clear_value u
    exact held_ledFix hu

theorem held_hostDone {entry : Nat} {status detail : BitVec 8} {result : BitVec 64} (h : Held s₀ s) :
    Held s₀ (hostDone s entry status detail result) :=
  held_ite h (held_hostFix h)

theorem held_stopOps {entry : Nat} (h : Held s₀ s) : Held s₀ (stopOps s entry) := held_cipStop (held_dmaStopAll h)

theorem held_coreDrops {entry seq : Nat} (h : Held s₀ s) : Held s₀ (coreDrops s entry seq) := h

theorem held_hostLost {entry : Nat} (h : Held s₀ s) : Held s₀ (hostLost s entry) := by
  unfold hostLost
  split
  · exact h
  · exact held_ite (held_stopOps (held_ledPut (held_ledMetaSet h))) h

theorem held_workLost {c : Nat} {w : Work} (h : Held s₀ s) : Held s₀ (workLost s c w) := by
  unfold workLost
  split
  · exact held_itemRemove (held_count h)
  · exact held_hostLost h

theorem held_threadFault {th : Nat} (h : Held s₀ s) : Held s₀ (threadFault s th) := by
  unfold threadFault
  extract_lets
  split
  · exact held_ite (held_event (held_count (held_setThread h))) (held_workLost (held_event (held_count (held_setThread h))))
  · exact held_event (held_count (held_setThread h))

theorem held_wake {th : Nat} {w : Waiting} {bits : Nat} (h : Held s₀ s) : Held s₀ (wake s th w bits) :=
  held_setReg (held_setThread (held_ite (held_count h) h))

theorem held_wakeIf {th : Nat} (h : Held s₀ s) : Held s₀ (wakeIf s th) := by
  unfold wakeIf
  split
  · exact held_ite h (held_wake h)
  · exact h

theorem held_wakeChannel {c ch : Nat} (h : Held s₀ s) : Held s₀ (wakeChannel s c ch) := by
  refine held_foldl (fun _ _ h' => ?_) h
  split
  · exact held_ite (held_wakeIf h') h'
  · exact h'

theorem held_pumpCluster {c n : Nat} (h : Held s₀ s) : Held s₀ (pumpCluster s c n) := by
  induction n generalizing s with
  | zero => exact h
  | succ n ih =>
    unfold pumpCluster
    extract_lets
    split
    · exact held_ite (ih (held_setEngine (held_setCluster h))) h
    · exact h

theorem held_pump {c : Nat} (h : Held s₀ s) : Held s₀ (pump s c) := held_pumpCluster h

theorem held_enterCluster {c : Nat} {w : Work} (h : Held s₀ s) : Held s₀ (enterCluster s c w) := held_pump (held_setCluster h)

theorem held_resetOne {th : Nat} (h : Held s₀ s) : Held s₀ (resetOne s th) := by
  unfold resetOne
  extract_lets _ _ t
  have ht : Held s₀ t := by
    dsimp only [t]
    split
    · exact held_setChannel h
    · exact h
  split
  · exact held_ite (held_setThread ht) (held_workLost (held_setThread ht))
  · exact held_setThread ht

theorem held_resetHome {c ch : Nat} (h : Held s₀ s) : Held s₀ (resetHome s c ch) := held_setChannel (held_countN h)

theorem held_engineReset {e : Nat} (h : Held s₀ s) : Held s₀ (engineReset s e) := by
  unfold engineReset
  extract_lets _ _ t _ _ u
  have ht : Held s₀ t := held_foldl (fun _ _ => held_resetOne) h
  have hu : Held s₀ u := held_foldl (fun _ _ => held_workLost) (held_setEngine ht)
  exact held_foldl (fun _ _ => held_resetHome) hu

end Sys2Proof.Machine.Laws
end

section
/-!
SUPPORT. The operations of the Jutex cores, the debug port, the NOR memory, the Kennel and the ledger keep the queue
and the four links.
-/

namespace Sys2Proof.Machine.Laws

open Sys2Proof Sys2Proof.Machine

set_option Elab.async false

variable {s₀ s : State}

/-! ### Machine/Jutex.lean -/

theorem held_noteIssue {th : Nat} (h : Held s₀ s) : Held s₀ (noteIssue s th) := held_setEngine h

theorem held_noteLoad {th : Nat} (h : Held s₀ s) : Held s₀ (noteLoad s th) := held_setEngine h

theorem held_setPc {th : Nat} {pc : BitVec 64} (h : Held s₀ s) : Held s₀ (setPc s th pc) := held_setThread h

/-- One instruction: whatever its body does, the fault path and the issue itself keep the queue and the four links. -/
theorem held_issueInstr {th : Nat} {clean : Bool} {body : State → Option State} (h : Held s₀ s)
    (hbody : ∀ t, Held s₀ t → HeldSome s₀ (body t)) : Held s₀ (issueInstr s th clean body) := by
  unfold issueInstr
  extract_lets
  split
  · exact h
  · split
    · exact held_threadFault (held_noteIssue h)
    · split
      next e => exact hbody _ (held_setPc (held_noteIssue h)) _ e
      next => exact held_threadFault (held_noteIssue h)

theorem heldSome_jump {th : Nat} {pc : BitVec 64} (h : Held s₀ s) : HeldSome s₀ (jump s th pc) :=
  heldSome_ite (heldSome_some (held_setPc h)) heldSome_none

theorem held_aluOp {th : Nat} {rd rs1 rs2 : BitVec 5} {f : BitVec 10} {op : BitVec 64 → BitVec 64 → BitVec 64}
    (h : Held s₀ s) : Held s₀ (aluOp s th rd rs1 rs2 f op) :=
  held_issueInstr h (fun _ h' => heldSome_some (held_setReg h'))

theorem held_immOp {th : Nat} {rd rs1 : BitVec 5} {clean : Bool} {op : BitVec 64 → BitVec 64} (h : Held s₀ s) :
    Held s₀ (immOp s th rd rs1 clean op) :=
  held_issueInstr h (fun _ h' => heldSome_some (held_setReg h'))

theorem held_doAdd {th : BitVec 10} {rd rs1 rs2 : BitVec 5} {f : BitVec 10} (h : Held s₀ s) :
    Held s₀ (doAdd s th rd rs1 rs2 f) :=
  held_aluOp h

theorem keeps_execAdd {th : BitVec 10} {rd rs1 rs2 : BitVec 5} {f : BitVec 10} (h : Held s₀ s) :
    Keeps s₀ (execAdd th rd rs1 rs2 f s) :=
  keeps_next (held_doAdd h)

theorem held_doSub {th : BitVec 10} {rd rs1 rs2 : BitVec 5} {f : BitVec 10} (h : Held s₀ s) :
    Held s₀ (doSub s th rd rs1 rs2 f) :=
  held_aluOp h

theorem keeps_execSub {th : BitVec 10} {rd rs1 rs2 : BitVec 5} {f : BitVec 10} (h : Held s₀ s) :
    Keeps s₀ (execSub th rd rs1 rs2 f s) :=
  keeps_next (held_doSub h)

theorem held_doAnd {th : BitVec 10} {rd rs1 rs2 : BitVec 5} {f : BitVec 10} (h : Held s₀ s) :
    Held s₀ (doAnd s th rd rs1 rs2 f) :=
  held_aluOp h

theorem keeps_execAnd {th : BitVec 10} {rd rs1 rs2 : BitVec 5} {f : BitVec 10} (h : Held s₀ s) :
    Keeps s₀ (execAnd th rd rs1 rs2 f s) :=
  keeps_next (held_doAnd h)

theorem held_doOr {th : BitVec 10} {rd rs1 rs2 : BitVec 5} {f : BitVec 10} (h : Held s₀ s) :
    Held s₀ (doOr s th rd rs1 rs2 f) :=
  held_aluOp h

theorem keeps_execOr {th : BitVec 10} {rd rs1 rs2 : BitVec 5} {f : BitVec 10} (h : Held s₀ s) :
    Keeps s₀ (execOr th rd rs1 rs2 f s) :=
  keeps_next (held_doOr h)

theorem held_doXor {th : BitVec 10} {rd rs1 rs2 : BitVec 5} {f : BitVec 10} (h : Held s₀ s) :
    Held s₀ (doXor s th rd rs1 rs2 f) :=
  held_aluOp h

theorem keeps_execXor {th : BitVec 10} {rd rs1 rs2 : BitVec 5} {f : BitVec 10} (h : Held s₀ s) :
    Keeps s₀ (execXor th rd rs1 rs2 f s) :=
  keeps_next (held_doXor h)

theorem held_doShl {th : BitVec 10} {rd rs1 rs2 : BitVec 5} {f : BitVec 10} (h : Held s₀ s) :
    Held s₀ (doShl s th rd rs1 rs2 f) :=
  held_aluOp h

theorem keeps_execShl {th : BitVec 10} {rd rs1 rs2 : BitVec 5} {f : BitVec 10} (h : Held s₀ s) :
    Keeps s₀ (execShl th rd rs1 rs2 f s) :=
  keeps_next (held_doShl h)

theorem held_doShr {th : BitVec 10} {rd rs1 rs2 : BitVec 5} {f : BitVec 10} (h : Held s₀ s) :
    Held s₀ (doShr s th rd rs1 rs2 f) :=
  held_aluOp h

theorem keeps_execShr {th : BitVec 10} {rd rs1 rs2 : BitVec 5} {f : BitVec 10} (h : Held s₀ s) :
    Keeps s₀ (execShr th rd rs1 rs2 f s) :=
  keeps_next (held_doShr h)

theorem held_doSar {th : BitVec 10} {rd rs1 rs2 : BitVec 5} {f : BitVec 10} (h : Held s₀ s) :
    Held s₀ (doSar s th rd rs1 rs2 f) :=
  held_aluOp h

theorem keeps_execSar {th : BitVec 10} {rd rs1 rs2 : BitVec 5} {f : BitVec 10} (h : Held s₀ s) :
    Keeps s₀ (execSar th rd rs1 rs2 f s) :=
  keeps_next (held_doSar h)

theorem held_doMul {th : BitVec 10} {rd rs1 rs2 : BitVec 5} {f : BitVec 10} (h : Held s₀ s) :
    Held s₀ (doMul s th rd rs1 rs2 f) :=
  held_aluOp h

theorem keeps_execMul {th : BitVec 10} {rd rs1 rs2 : BitVec 5} {f : BitVec 10} (h : Held s₀ s) :
    Keeps s₀ (execMul th rd rs1 rs2 f s) :=
  keeps_next (held_doMul h)

theorem held_doSltu {th : BitVec 10} {rd rs1 rs2 : BitVec 5} {f : BitVec 10} (h : Held s₀ s) :
    Held s₀ (doSltu s th rd rs1 rs2 f) :=
  held_aluOp h

theorem keeps_execSltu {th : BitVec 10} {rd rs1 rs2 : BitVec 5} {f : BitVec 10} (h : Held s₀ s) :
    Keeps s₀ (execSltu th rd rs1 rs2 f s) :=
  keeps_next (held_doSltu h)

theorem held_doSlt {th : BitVec 10} {rd rs1 rs2 : BitVec 5} {f : BitVec 10} (h : Held s₀ s) :
    Held s₀ (doSlt s th rd rs1 rs2 f) :=
  held_aluOp h

theorem keeps_execSlt {th : BitVec 10} {rd rs1 rs2 : BitVec 5} {f : BitVec 10} (h : Held s₀ s) :
    Keeps s₀ (execSlt th rd rs1 rs2 f s) :=
  keeps_next (held_doSlt h)

theorem held_doAddi {th : BitVec 10} {rd rs1 : BitVec 5} {imm : BitVec 15} (h : Held s₀ s) :
    Held s₀ (doAddi s th rd rs1 imm) :=
  held_immOp h

theorem keeps_execAddi {th : BitVec 10} {rd rs1 : BitVec 5} {imm : BitVec 15} (h : Held s₀ s) :
    Keeps s₀ (execAddi th rd rs1 imm s) :=
  keeps_next (held_doAddi h)

theorem held_doAndi {th : BitVec 10} {rd rs1 : BitVec 5} {imm : BitVec 15} (h : Held s₀ s) :
    Held s₀ (doAndi s th rd rs1 imm) :=
  held_immOp h

theorem keeps_execAndi {th : BitVec 10} {rd rs1 : BitVec 5} {imm : BitVec 15} (h : Held s₀ s) :
    Keeps s₀ (execAndi th rd rs1 imm s) :=
  keeps_next (held_doAndi h)

theorem held_doShli {th : BitVec 10} {rd rs1 : BitVec 5} {imm : BitVec 15} (h : Held s₀ s) :
    Held s₀ (doShli s th rd rs1 imm) :=
  held_immOp h

theorem keeps_execShli {th : BitVec 10} {rd rs1 : BitVec 5} {imm : BitVec 15} (h : Held s₀ s) :
    Keeps s₀ (execShli th rd rs1 imm s) :=
  keeps_next (held_doShli h)

theorem held_doShri {th : BitVec 10} {rd rs1 : BitVec 5} {imm : BitVec 15} (h : Held s₀ s) :
    Held s₀ (doShri s th rd rs1 imm) :=
  held_immOp h

theorem keeps_execShri {th : BitVec 10} {rd rs1 : BitVec 5} {imm : BitVec 15} (h : Held s₀ s) :
    Keeps s₀ (execShri th rd rs1 imm s) :=
  keeps_next (held_doShri h)

theorem held_doLui {th : BitVec 10} {rd : BitVec 5} {imm : BitVec 20} (h : Held s₀ s) : Held s₀ (doLui s th rd imm) :=
  held_issueInstr h (fun _ h' => heldSome_some (held_setReg h'))

theorem keeps_execLui {th : BitVec 10} {rd : BitVec 5} {imm : BitVec 20} (h : Held s₀ s) : Keeps s₀ (execLui th rd imm s) :=
  keeps_next (held_doLui h)

theorem held_loadOp {th : Nat} {rd rs1 : BitVec 5} {imm : BitVec 15} {n : Nat} (h : Held s₀ s) :
    Held s₀ (loadOp s th rd rs1 imm n) := by
  unfold loadOp
  refine held_issueInstr h ?_
  intro _ h'
  split
  · exact heldSome_none
  · extract_lets _ t
    have ht : Held s₀ t := by
      dsimp only [t]
      split
      · exact held_noteLoad h'
      · exact h'
    exact heldSome_some (held_setReg ht)

theorem held_storeOp {th : Nat} {rd rs1 rs2 : BitVec 5} {f : BitVec 10} {n : Nat} (h : Held s₀ s) :
    Held s₀ (storeOp s th rd rs1 rs2 f n) := by
  refine held_issueInstr h (fun _ h' => ?_)
  split
  · exact heldSome_none
  · exact heldSome_some (held_windowWrite h')

theorem held_doLd {th : BitVec 10} {rd rs1 : BitVec 5} {imm : BitVec 15} (h : Held s₀ s) : Held s₀ (doLd s th rd rs1 imm) :=
  held_loadOp h

theorem keeps_execLd {th : BitVec 10} {rd rs1 : BitVec 5} {imm : BitVec 15} (h : Held s₀ s) :
    Keeps s₀ (execLd th rd rs1 imm s) :=
  keeps_next (held_doLd h)

theorem held_doLw {th : BitVec 10} {rd rs1 : BitVec 5} {imm : BitVec 15} (h : Held s₀ s) : Held s₀ (doLw s th rd rs1 imm) :=
  held_loadOp h

theorem keeps_execLw {th : BitVec 10} {rd rs1 : BitVec 5} {imm : BitVec 15} (h : Held s₀ s) :
    Keeps s₀ (execLw th rd rs1 imm s) :=
  keeps_next (held_doLw h)

theorem held_doLh {th : BitVec 10} {rd rs1 : BitVec 5} {imm : BitVec 15} (h : Held s₀ s) : Held s₀ (doLh s th rd rs1 imm) :=
  held_loadOp h

theorem keeps_execLh {th : BitVec 10} {rd rs1 : BitVec 5} {imm : BitVec 15} (h : Held s₀ s) :
    Keeps s₀ (execLh th rd rs1 imm s) :=
  keeps_next (held_doLh h)

theorem held_doLb {th : BitVec 10} {rd rs1 : BitVec 5} {imm : BitVec 15} (h : Held s₀ s) : Held s₀ (doLb s th rd rs1 imm) :=
  held_loadOp h

theorem keeps_execLb {th : BitVec 10} {rd rs1 : BitVec 5} {imm : BitVec 15} (h : Held s₀ s) :
    Keeps s₀ (execLb th rd rs1 imm s) :=
  keeps_next (held_doLb h)

theorem held_doSt {th : BitVec 10} {rd rs1 rs2 : BitVec 5} {f : BitVec 10} (h : Held s₀ s) :
    Held s₀ (doSt s th rd rs1 rs2 f) :=
  held_storeOp h

theorem keeps_execSt {th : BitVec 10} {rd rs1 rs2 : BitVec 5} {f : BitVec 10} (h : Held s₀ s) :
    Keeps s₀ (execSt th rd rs1 rs2 f s) :=
  keeps_next (held_doSt h)

theorem held_doSw {th : BitVec 10} {rd rs1 rs2 : BitVec 5} {f : BitVec 10} (h : Held s₀ s) :
    Held s₀ (doSw s th rd rs1 rs2 f) :=
  held_storeOp h

theorem keeps_execSw {th : BitVec 10} {rd rs1 rs2 : BitVec 5} {f : BitVec 10} (h : Held s₀ s) :
    Keeps s₀ (execSw th rd rs1 rs2 f s) :=
  keeps_next (held_doSw h)

theorem held_doSh {th : BitVec 10} {rd rs1 rs2 : BitVec 5} {f : BitVec 10} (h : Held s₀ s) :
    Held s₀ (doSh s th rd rs1 rs2 f) :=
  held_storeOp h

theorem keeps_execSh {th : BitVec 10} {rd rs1 rs2 : BitVec 5} {f : BitVec 10} (h : Held s₀ s) :
    Keeps s₀ (execSh th rd rs1 rs2 f s) :=
  keeps_next (held_doSh h)

theorem held_doSb {th : BitVec 10} {rd rs1 rs2 : BitVec 5} {f : BitVec 10} (h : Held s₀ s) :
    Held s₀ (doSb s th rd rs1 rs2 f) :=
  held_storeOp h

theorem keeps_execSb {th : BitVec 10} {rd rs1 rs2 : BitVec 5} {f : BitVec 10} (h : Held s₀ s) :
    Keeps s₀ (execSb th rd rs1 rs2 f s) :=
  keeps_next (held_doSb h)

theorem held_atomicOp {th : Nat} {rd rs1 : BitVec 5} {clean : Bool} {new : State → BitVec 64 → BitVec 64} (h : Held s₀ s) :
    Held s₀ (atomicOp s th rd rs1 clean new) :=
  held_issueInstr h (fun _ h' => heldSome_ite heldSome_none (heldSome_some (held_setReg (held_scratchWrite h'))))

theorem held_doAadd {th : BitVec 10} {rd rs1 rs2 : BitVec 5} {f : BitVec 10} (h : Held s₀ s) :
    Held s₀ (doAadd s th rd rs1 rs2 f) :=
  held_atomicOp h

theorem keeps_execAadd {th : BitVec 10} {rd rs1 rs2 : BitVec 5} {f : BitVec 10} (h : Held s₀ s) :
    Keeps s₀ (execAadd th rd rs1 rs2 f s) :=
  keeps_next (held_doAadd h)

theorem held_doAcas {th : BitVec 10} {rd rs1 rs2 : BitVec 5} {f : BitVec 10} (h : Held s₀ s) :
    Held s₀ (doAcas s th rd rs1 rs2 f) :=
  held_atomicOp h

theorem keeps_execAcas {th : BitVec 10} {rd rs1 rs2 : BitVec 5} {f : BitVec 10} (h : Held s₀ s) :
    Keeps s₀ (execAcas th rd rs1 rs2 f s) :=
  keeps_next (held_doAcas h)

theorem held_branchOp {th : Nat} {rd rs1 rs2 : BitVec 5} {f : BitVec 10} {take : BitVec 64 → BitVec 64 → Bool}
    (h : Held s₀ s) : Held s₀ (branchOp s th rd rs1 rs2 f take) :=
  held_issueInstr h (fun _ h' => heldSome_ite (heldSome_jump h') (heldSome_some h'))

theorem held_doBeq {th : BitVec 10} {rd rs1 rs2 : BitVec 5} {f : BitVec 10} (h : Held s₀ s) :
    Held s₀ (doBeq s th rd rs1 rs2 f) :=
  held_branchOp h

theorem keeps_execBeq {th : BitVec 10} {rd rs1 rs2 : BitVec 5} {f : BitVec 10} (h : Held s₀ s) :
    Keeps s₀ (execBeq th rd rs1 rs2 f s) :=
  keeps_next (held_doBeq h)

theorem held_doBne {th : BitVec 10} {rd rs1 rs2 : BitVec 5} {f : BitVec 10} (h : Held s₀ s) :
    Held s₀ (doBne s th rd rs1 rs2 f) :=
  held_branchOp h

theorem keeps_execBne {th : BitVec 10} {rd rs1 rs2 : BitVec 5} {f : BitVec 10} (h : Held s₀ s) :
    Keeps s₀ (execBne th rd rs1 rs2 f s) :=
  keeps_next (held_doBne h)

theorem held_doBlt {th : BitVec 10} {rd rs1 rs2 : BitVec 5} {f : BitVec 10} (h : Held s₀ s) :
    Held s₀ (doBlt s th rd rs1 rs2 f) :=
  held_branchOp h

theorem keeps_execBlt {th : BitVec 10} {rd rs1 rs2 : BitVec 5} {f : BitVec 10} (h : Held s₀ s) :
    Keeps s₀ (execBlt th rd rs1 rs2 f s) :=
  keeps_next (held_doBlt h)

theorem held_doBltu {th : BitVec 10} {rd rs1 rs2 : BitVec 5} {f : BitVec 10} (h : Held s₀ s) :
    Held s₀ (doBltu s th rd rs1 rs2 f) :=
  held_branchOp h

theorem keeps_execBltu {th : BitVec 10} {rd rs1 rs2 : BitVec 5} {f : BitVec 10} (h : Held s₀ s) :
    Keeps s₀ (execBltu th rd rs1 rs2 f s) :=
  keeps_next (held_doBltu h)

theorem held_doJal {th : BitVec 10} {rd : BitVec 5} {imm : BitVec 20} (h : Held s₀ s) : Held s₀ (doJal s th rd imm) :=
  held_issueInstr h (fun _ h' => heldSome_jump (held_setReg h'))

theorem keeps_execJal {th : BitVec 10} {rd : BitVec 5} {imm : BitVec 20} (h : Held s₀ s) : Keeps s₀ (execJal th rd imm s) :=
  keeps_next (held_doJal h)

theorem held_doJr {th : BitVec 10} {rd rs1 rs2 : BitVec 5} {f : BitVec 10} (h : Held s₀ s) :
    Held s₀ (doJr s th rd rs1 rs2 f) :=
  held_issueInstr h (fun _ h' => heldSome_jump (held_setReg h'))

theorem keeps_execJr {th : BitVec 10} {rd rs1 rs2 : BitVec 5} {f : BitVec 10} (h : Held s₀ s) :
    Keeps s₀ (execJr th rd rs1 rs2 f s) :=
  keeps_next (held_doJr h)

theorem held_doMfs {th : BitVec 10} {rd rs1 rs2 : BitVec 5} {f : BitVec 10} (h : Held s₀ s) :
    Held s₀ (doMfs s th rd rs1 rs2 f) :=
  held_issueInstr h (fun _ h' => heldSome_some (held_setReg h'))

theorem keeps_execMfs {th : BitVec 10} {rd rs1 rs2 : BitVec 5} {f : BitVec 10} (h : Held s₀ s) :
    Keeps s₀ (execMfs th rd rs1 rs2 f s) :=
  keeps_next (held_doMfs h)

theorem held_doMts {th : BitVec 10} {rd rs1 rs2 : BitVec 5} {f : BitVec 10} (h : Held s₀ s) :
    Held s₀ (doMts s th rd rs1 rs2 f) :=
  held_issueInstr h (fun _ h' => heldSome_some (held_setShared h'))

theorem keeps_execMts {th : BitVec 10} {rd rs1 rs2 : BitVec 5} {f : BitVec 10} (h : Held s₀ s) :
    Keeps s₀ (execMts th rd rs1 rs2 f s) :=
  keeps_next (held_doMts h)

theorem held_doAadds {th : BitVec 10} {rd rs1 rs2 : BitVec 5} {f : BitVec 10} (h : Held s₀ s) :
    Held s₀ (doAadds s th rd rs1 rs2 f) :=
  held_issueInstr h (fun _ h' => heldSome_some (held_setReg (held_setShared h')))

theorem keeps_execAadds {th : BitVec 10} {rd rs1 rs2 : BitVec 5} {f : BitVec 10} (h : Held s₀ s) :
    Keeps s₀ (execAadds th rd rs1 rs2 f s) :=
  keeps_next (held_doAadds h)

theorem held_doFence {th : BitVec 10} {rd rs1 rs2 : BitVec 5} {f : BitVec 10} (h : Held s₀ s) :
    Held s₀ (doFence s th rd rs1 rs2 f) :=
  held_issueInstr h (fun _ => heldSome_some)

theorem keeps_execFence {th : BitVec 10} {rd rs1 rs2 : BitVec 5} {f : BitVec 10} (h : Held s₀ s) :
    Keeps s₀ (execFence th rd rs1 rs2 f s) :=
  keeps_next (held_doFence h)

theorem held_doTime {th : BitVec 10} {rd rs1 rs2 : BitVec 5} {f : BitVec 10} (h : Held s₀ s) :
    Held s₀ (doTime s th rd rs1 rs2 f) :=
  held_issueInstr h (fun _ h' => heldSome_some (held_setReg h'))

theorem keeps_execTime {th : BitVec 10} {rd rs1 rs2 : BitVec 5} {f : BitVec 10} (h : Held s₀ s) :
    Keeps s₀ (execTime th rd rs1 rs2 f s) :=
  keeps_next (held_doTime h)

theorem held_doTcmp {th : BitVec 10} {rd rs1 rs2 : BitVec 5} {f : BitVec 10} (h : Held s₀ s) :
    Held s₀ (doTcmp s th rd rs1 rs2 f) :=
  held_issueInstr h (fun _ h' => heldSome_some (held_setThread h'))

theorem keeps_execTcmp {th : BitVec 10} {rd rs1 rs2 : BitVec 5} {f : BitVec 10} (h : Held s₀ s) :
    Keeps s₀ (execTcmp th rd rs1 rs2 f s) :=
  keeps_next (held_doTcmp h)

theorem held_doWait {th : BitVec 10} {rd rs1 rs2 : BitVec 5} {f : BitVec 10} (h : Held s₀ s) :
    Held s₀ (doWait s th rd rs1 rs2 f) :=
  held_issueInstr h (fun _ h' => heldSome_ite (heldSome_some (held_setReg h')) (heldSome_ite heldSome_none (heldSome_ite
    (heldSome_some (held_setReg h')) (heldSome_some (held_setThread h')))))

theorem keeps_execWait {th : BitVec 10} {rd rs1 rs2 : BitVec 5} {f : BitVec 10} (h : Held s₀ s) :
    Keeps s₀ (execWait th rd rs1 rs2 f s) :=
  keeps_next (held_doWait h)

theorem held_ownChannel {th ch : Nat} (h : Held s₀ s) : Held s₀ (ownChannel s th ch) := held_setThread (held_setChannel h)

theorem held_doChopen {th : BitVec 10} {rd rs1 rs2 : BitVec 5} {f : BitVec 10} (h : Held s₀ s) :
    Held s₀ (doChopen s th rd rs1 rs2 f) :=
  held_issueInstr h (fun _ h' => heldSome_ite heldSome_none (heldSome_ite (heldSome_some (held_setReg (held_ownChannel h')))
    (heldSome_some (held_setThread h'))))

theorem keeps_execChopen {th : BitVec 10} {rd rs1 rs2 : BitVec 5} {f : BitVec 10} (h : Held s₀ s) :
    Keeps s₀ (execChopen th rd rs1 rs2 f s) :=
  keeps_next (held_doChopen h)

theorem held_doChput {th : BitVec 10} {rd rs1 rs2 : BitVec 5} {f : BitVec 10} (h : Held s₀ s) :
    Held s₀ (doChput s th rd rs1 rs2 f) :=
  held_issueInstr h (fun _ h' => heldSome_ite (heldSome_some h') (heldSome_some (held_setThread h')))

theorem keeps_execChput {th : BitVec 10} {rd rs1 rs2 : BitVec 5} {f : BitVec 10} (h : Held s₀ s) :
    Keeps s₀ (execChput th rd rs1 rs2 f s) :=
  keeps_next (held_doChput h)

theorem held_publish {c ch : Nat} {msg : BitVec 512} (h : Held s₀ s) : Held s₀ (publish s c ch msg) :=
  held_ite (held_wakeChannel (held_setChannel h)) (held_putResult h)

theorem held_corePost {c ch : Nat} {msg : BitVec 512} (h : Held s₀ s) : Held s₀ (corePost s c ch msg) :=
  held_ite (held_publish (held_count h)) h

theorem held_doChcommit {th : BitVec 10} {rd rs1 rs2 : BitVec 5} {f : BitVec 10} (h : Held s₀ s) :
    Held s₀ (doChcommit s th rd rs1 rs2 f) := by
  unfold doChcommit
  refine held_issueInstr h ?_
  intro _ h'
  extract_lets
  split
  · exact heldSome_some (held_setReg h')
  · exact heldSome_some (held_setReg (held_publish (held_count (held_setChannel (held_setThread h')))))

theorem keeps_execChcommit {core : Option (BitVec 4 × BitVec 8 × BitVec 512)} {th : BitVec 10} {rd rs1 rs2 : BitVec 5}
    {f : BitVec 10} (h : Held s₀ s) : Keeps s₀ (execChcommit core th rd rs1 rs2 f s) := by
  refine keeps_next ?_
  split
  · exact held_corePost h
  · exact held_doChcommit h

theorem held_deliverResult {c ch : Nat} (h : Held s₀ s) : Held s₀ (deliverResult s c ch) := by
  unfold deliverResult
  extract_lets
  split
  · exact h
  · split
    · exact h
    · extract_lets _ t u
      have ht : Held s₀ t := by
        dsimp only [t]
        split
        · exact held_setEngine (held_setChannel h)
        · exact held_setChannel h
      have hu : Held s₀ u := by
        dsimp only [u]
        split
        · exact held_ledRetire ht
        · exact ht
      exact held_wakeChannel hu

theorem keeps_execResultDelivery {cluster : BitVec 4} {channel : BitVec 8} (h : Held s₀ s) :
    Keeps s₀ (execResultDelivery cluster channel s) :=
  keeps_next (held_deliverResult h)

theorem held_takeOldest {c ch : Nat} (h : Held s₀ s) : Held s₀ (takeOldest s c ch) := by
  unfold takeOldest
  extract_lets
  split <;> exact held_setChannel h

theorem held_doChget {th : BitVec 10} {rd rs1 rs2 : BitVec 5} {f : BitVec 10} (h : Held s₀ s) :
    Held s₀ (doChget s th rd rs1 rs2 f) := by
  unfold doChget
  refine held_issueInstr h ?_
  intro _ h'
  extract_lets
  refine heldSome_ite heldSome_none ?_
  split
  · exact heldSome_some (held_setReg h')
  · exact heldSome_ite heldSome_none (heldSome_some (held_setReg (held_scratchWrite (held_takeOldest h'))))

theorem keeps_execChget {th : BitVec 10} {rd rs1 rs2 : BitVec 5} {f : BitVec 10} (h : Held s₀ s) :
    Keeps s₀ (execChget th rd rs1 rs2 f s) :=
  keeps_next (held_doChget h)

theorem held_doChcfg {th : BitVec 10} {rd rs1 rs2 : BitVec 5} {f : BitVec 10} (h : Held s₀ s) :
    Held s₀ (doChcfg s th rd rs1 rs2 f) :=
  held_issueInstr h (fun _ h' => heldSome_ite heldSome_none (heldSome_some (held_setChannel h')))

theorem keeps_execChcfg {th : BitVec 10} {rd rs1 rs2 : BitVec 5} {f : BitVec 10} (h : Held s₀ s) :
    Keeps s₀ (execChcfg th rd rs1 rs2 f s) :=
  keeps_next (held_doChcfg h)

theorem held_doSetreg {th : BitVec 10} {rd rs1 rs2 : BitVec 5} {f : BitVec 10} (h : Held s₀ s) :
    Held s₀ (doSetreg s th rd rs1 rs2 f) :=
  held_issueInstr h (fun _ h' => heldSome_ite heldSome_none (heldSome_ite (heldSome_ite (heldSome_some (held_setThread h'))
    (heldSome_some (held_setReg h'))) (heldSome_some h')))

theorem keeps_execSetreg {th : BitVec 10} {rd rs1 rs2 : BitVec 5} {f : BitVec 10} (h : Held s₀ s) :
    Keeps s₀ (execSetreg th rd rs1 rs2 f s) :=
  keeps_next (held_doSetreg h)

theorem held_startOne {th : Nat} (h : Held s₀ s) : Held s₀ (startOne s th) := held_setThread h

theorem held_doStart {th : BitVec 10} {rd rs1 rs2 : BitVec 5} {f : BitVec 10} (h : Held s₀ s) :
    Held s₀ (doStart s th rd rs1 rs2 f) := by
  unfold doStart
  refine held_issueInstr h ?_
  intro _ h'
  extract_lets _ _ _ t
  have ht : Held s₀ t := held_foldl (fun _ _ h'' => held_startOne h'') h'
  exact heldSome_ite heldSome_none (heldSome_some (held_setReg ht))

theorem keeps_execStart {th : BitVec 10} {rd rs1 rs2 : BitVec 5} {f : BitVec 10} (h : Held s₀ s) :
    Keeps s₀ (execStart th rd rs1 rs2 f s) :=
  keeps_next (held_doStart h)

theorem held_doHalt {th : BitVec 10} {rd rs1 rs2 : BitVec 5} {f : BitVec 10} (h : Held s₀ s) :
    Held s₀ (doHalt s th rd rs1 rs2 f) :=
  held_issueInstr h (fun _ h' => heldSome_some (held_setThread h'))

theorem keeps_execHalt {th : BitVec 10} {rd rs1 rs2 : BitVec 5} {f : BitVec 10} (h : Held s₀ s) :
    Keeps s₀ (execHalt th rd rs1 rs2 f s) :=
  keeps_next (held_doHalt h)

theorem held_release {th : Nat} (h : Held s₀ s) : Held s₀ (release s th) := held_setThread h

theorem held_returnItem {id : Nat} (h : Held s₀ s) : Held s₀ (returnItem s id) := by
  unfold returnItem
  split
  · exact h
  · extract_lets _ _ _ t
    have ht : Held s₀ t := held_itemPut h
    clear_value t
    exact ht

theorem held_doRet {th : BitVec 10} {rd rs1 rs2 : BitVec 5} {f : BitVec 10} (h : Held s₀ s) :
    Held s₀ (doRet s th rd rs1 rs2 f) := by
  refine held_issueInstr h (fun _ h' => ?_)
  split
  · exact heldSome_some h'
  · exact heldSome_none
  · exact heldSome_some (held_returnItem (held_count (held_release h')))

theorem keeps_execRet {th : BitVec 10} {rd rs1 rs2 : BitVec 5} {f : BitVec 10} (h : Held s₀ s) :
    Keeps s₀ (execRet th rd rs1 rs2 f s) :=
  keeps_next (held_doRet h)

theorem held_doDropItem {th : BitVec 10} {rd rs1 rs2 : BitVec 5} {f : BitVec 10} (h : Held s₀ s) :
    Held s₀ (doDropItem s th rd rs1 rs2 f) := by
  refine held_issueInstr h (fun _ h' => ?_)
  split
  · exact heldSome_some h'
  · exact heldSome_none
  · exact heldSome_some (held_itemRemove (held_count (held_release h')))

theorem keeps_execDropItem {th : BitVec 10} {rd rs1 rs2 : BitVec 5} {f : BitVec 10} (h : Held s₀ s) :
    Keeps s₀ (execDropItem th rd rs1 rs2 f s) :=
  keeps_next (held_doDropItem h)

theorem held_lateComplete {q : OrdQ} (h : Held s₀ s) : Held s₀ (lateComplete s q) := by
  unfold lateComplete
  split
  · exact held_countAt h
  · exact h

theorem held_workerStatus {status : BitVec 8} (h : Held s₀ s) : Held s₀ (workerStatus s status).2 := held_ite_snd h (held_draw h)

theorem held_completeItem {entry : Nat} {q : OrdQ} {seq : Nat} {status detail : BitVec 8} {result : BitVec 64}
    (h : Held s₀ s) : Held s₀ (completeItem s entry q seq status detail result) := by
  unfold completeItem
  split
  · exact held_ite (held_hostDone (held_workerStatus h)) (held_lateComplete h)
  · exact held_lateComplete h

theorem held_doComplete {th : BitVec 10} {rd rs1 rs2 : BitVec 5} {f : BitVec 10} (h : Held s₀ s) :
    Held s₀ (doComplete s th rd rs1 rs2 f) := by
  unfold doComplete
  refine held_issueInstr h ?_
  intro _ h'
  extract_lets
  split
  · exact heldSome_some h'
  · exact heldSome_none
  · split
    · exact heldSome_some (held_release h')
    · exact heldSome_ite (heldSome_some (held_lateComplete (held_release h'))) (heldSome_some (held_completeItem (held_count
          (held_release h'))))

theorem keeps_execComplete {core : Option (BitVec 18 × BitVec 32 × BitVec 8 × BitVec 8 × BitVec 64)} {th : BitVec 10}
    {rd rs1 rs2 : BitVec 5} {f : BitVec 10} (h : Held s₀ s) : Keeps s₀ (execComplete core th rd rs1 rs2 f s) := by
  refine keeps_next ?_
  split
  · split
    · exact h
    · exact held_completeItem (held_coreDrops h)
  · exact held_doComplete h

theorem held_dmaRefuse {c : Nat} {raw : BitVec 512} {eng status detail : Nat} (h : Held s₀ s) :
    Held s₀ (dmaRefuse s c raw eng status detail) :=
  held_putResult h

theorem held_issueOut {e : Nat} (h : Held s₀ s) : Held s₀ (issueOut s e) := held_setEngine h

theorem held_dmaIssue {c e : Nat} {w : Option Work} {owner : Option Nat} {raw : BitVec 512} (h : Held s₀ s) :
    Held s₀ (dmaIssue s c e w owner raw) := by
  unfold dmaIssue
  extract_lets
  split
  · exact held_issueOut (held_dmaRefuse h)
  · split
    · exact held_issueOut (held_dmaStart h)
    · exact held_dmaAbort h
    · exact held_dmaRetry h

theorem held_issueTo {th target : Nat} {raw : BitVec 512} (h : Held s₀ s) : Held s₀ (issueTo s th target raw).2 := by
  unfold issueTo
  extract_lets
  refine held_ite_snd h (held_ite_snd (held_count h) (held_ite_snd (held_issueOut (held_putResult h)) ?_))
  split
  · exact held_issueOut (held_cipherIssue h)
  · exact held_ite_snd (held_noteWait (held_count h)) (held_issueOut (held_kenPump h))
  · exact held_dmaIssue h

theorem held_doIssue {th : BitVec 10} {rd rs1 rs2 : BitVec 5} {f : BitVec 10} (h : Held s₀ s) :
    Held s₀ (doIssue s th rd rs1 rs2 f) :=
  held_issueInstr h (fun _ h' => heldSome_ite heldSome_none (heldSome_some (held_setReg (held_issueTo h'))))

theorem held_coreIssue {raw : BitVec 512} (h : Held s₀ s) : Held s₀ (coreIssue s raw) := held_ite h (held_cipherIssue h)

theorem keeps_execIssue {th : BitVec 10} {rd rs1 rs2 : BitVec 5} {f : BitVec 10} {core : Option (BitVec 512)}
    (h : Held s₀ s) : Keeps s₀ (execIssue th rd rs1 rs2 f s core) := by
  refine keeps_next ?_
  split
  · exact held_coreIssue h
  · exact held_doIssue h

theorem keeps_execTimerReached {th : BitVec 10} (h : Held s₀ s) : Keeps s₀ (execTimerReached th s) := by
  refine keeps_next ?_
  split
  · exact held_ite (held_wakeIf h) h
  · exact h

theorem keeps_execWaitMaxExpiry {th : BitVec 10} (h : Held s₀ s) : Keeps s₀ (execWaitMaxExpiry th s) := by
  unfold execWaitMaxExpiry
  extract_lets
  refine keeps_next ?_
  split
  · exact held_ite (held_wake h) h
  · exact held_ite (held_wake h) h
  · exact h

theorem keeps_execChopenGrant {th : BitVec 10} (h : Held s₀ s) : Keeps s₀ (execChopenGrant th s) := by
  unfold execChopenGrant
  extract_lets
  refine keeps_next ?_
  split
  · exact held_ite (held_wake (held_ownChannel h)) h
  · exact h

theorem held_freezeEngine {e : Nat} (h : Held s₀ s) : Held s₀ (freezeEngine s e) :=
  held_foldl (fun _ _ h' => held_ite (held_setThread h') h') (held_setEngine (held_count h))

theorem keeps_execAllAsleepFreeze {engine : BitVec 7} (h : Held s₀ s) : Keeps s₀ (execAllAsleepFreeze engine s) :=
  keeps_next (held_ite (held_event (held_foldl (fun _ _ => held_freezeEngine) h)) h)

theorem held_dropNoCluster {id : Nat} (h : Held s₀ s) : Held s₀ (dropNoCluster s id) := held_itemRemove (held_count h)

theorem keeps_execDetourArrival {item : Nat} (h : Held s₀ s) : Keeps s₀ (execDetourArrival item s) := by
  refine keeps_next ?_
  split
  · exact h
  · split
    · exact held_ite (held_enterCluster (held_count (held_itemPut h))) (held_itemRemove (held_count h))
    · exact h

theorem held_giveItem {th : Nat} {w : Work} (h : Held s₀ s) : Held s₀ (giveItem s th w) := by
  unfold giveItem
  extract_lets _ _ t
  have ht : Held s₀ t := by
    dsimp only [t]
    split
    · exact held_wake h
    · exact h
  exact held_ite (held_threadFault (held_setThread ht)) (held_setPc (held_setThread ht))

theorem keeps_execItemOffer {engine : BitVec 7} (h : Held s₀ s) : Keeps s₀ (execItemOffer engine s) := by
  unfold execItemOffer
  extract_lets
  refine keeps_next ?_
  split
  · exact held_pump (held_giveItem (held_setEngine h))
  · exact h

theorem keeps_execClusterFault {cluster : BitVec 4} (h : Held s₀ s) : Keeps s₀ (execClusterFault cluster s) :=
  keeps_next (held_ite h (held_foldl (fun _ _ => held_engineReset) (held_event (held_setCluster h))))

theorem keeps_execCoreOffline {core : BitVec 4} (h : Held s₀ s) : Keeps s₀ (execCoreOffline core s) :=
  keeps_next (held_ite h (held_foldl (fun _ _ h' => held_hostLost (held_count h')) (held_event (held_count h))))

/-! ### Machine/JutexWord.lean -/

theorem held_runR {op : Nat} {f : State → BitVec 10 → BitVec 5 → BitVec 5 → BitVec 5 → BitVec 10 → State}
    {th : BitVec 10} {rd rs1 rs2 : BitVec 5} {x : BitVec 10} (h : Held s₀ s) (e : runR op = some f) :
    Held s₀ (f s th rd rs1 rs2 x) := by
  unfold runR at e
  split at e <;> cases e
  · exact held_doAdd h
  · exact held_doSub h
  · exact held_doAnd h
  · exact held_doOr h
  · exact held_doXor h
  · exact held_doShl h
  · exact held_doShr h
  · exact held_doSar h
  · exact held_doMul h
  · exact held_doSltu h
  · exact held_doSlt h
  · exact held_doSt h
  · exact held_doSw h
  · exact held_doSh h
  · exact held_doSb h
  · exact held_doAadd h
  · exact held_doAcas h
  · exact held_doBeq h
  · exact held_doBne h
  · exact held_doBlt h
  · exact held_doBltu h
  · exact held_doJr h
  · exact held_doMfs h
  · exact held_doMts h
  · exact held_doAadds h
  · exact held_doFence h
  · exact held_doTime h
  · exact held_doTcmp h
  · exact held_doWait h
  · exact held_doChopen h
  · exact held_doChput h
  · exact held_doChcommit h
  · exact held_doChget h
  · exact held_doChcfg h
  · exact held_doSetreg h
  · exact held_doStart h
  · exact held_doHalt h
  · exact held_doRet h
  · exact held_doDropItem h
  · exact held_doComplete h
  · exact held_doIssue h

theorem held_runI {op : Nat} {f : State → BitVec 10 → BitVec 5 → BitVec 5 → BitVec 15 → State} {th : BitVec 10}
    {rd rs1 : BitVec 5} {x : BitVec 15} (h : Held s₀ s) (e : runI op = some f) : Held s₀ (f s th rd rs1 x) := by
  unfold runI at e
  split at e <;> cases e
  · exact held_doAddi h
  · exact held_doAndi h
  · exact held_doShli h
  · exact held_doShri h
  · exact held_doLd h
  · exact held_doLw h
  · exact held_doLh h
  · exact held_doLb h

theorem held_runU {op : Nat} {f : State → BitVec 10 → BitVec 5 → BitVec 20 → State} {th : BitVec 10} {rd : BitVec 5}
    {x : BitVec 20} (h : Held s₀ s) (e : runU op = some f) : Held s₀ (f s th rd x) := by
  unfold runU at e
  split at e <;> cases e
  · exact held_doLui h
  · exact held_doJal h

theorem held_runWord {th : BitVec 10} {w : BitVec 32} (h : Held s₀ s) : Held s₀ (runWord s th w) := by
  unfold runWord
  extract_lets op rd rs1
  clear_value op
  split
  next e => exact held_runR h e
  next e => exact held_runI h e
  next e => exact held_runU h e
  next => exact held_issueInstr h (fun _ _ => heldSome_none)

/-! ### Machine/Debug.lean -/

theorem held_dbgSet {d : Dbg} (h : Held s₀ s) : Held s₀ (dbgSet s d) := h

theorem held_setIr {code : BitVec 8} (h : Held s₀ s) : Held s₀ (setIr s code) := held_dbgSet h

theorem keeps_execTapReset (h : Held s₀ s) : Keeps s₀ (execTapReset s) := keeps_next (held_setIr h)

theorem keeps_execIdcode (h : Held s₀ s) : Keeps s₀ (execIdcode s) := keeps_next (held_emit (held_setIr h))

theorem keeps_execSamplePreload {sampled preload : BitVec 256} (h : Held s₀ s) :
    Keeps s₀ (execSamplePreload sampled preload s) :=
  keeps_next (held_emit (held_dbgSet h))

theorem held_pinInstr {code : BitVec 8} (h : Held s₀ s) : Held s₀ (pinInstr s code) :=
  held_ite (held_setIr (held_hardFault h)) (held_setIr h)

theorem keeps_execExtest (h : Held s₀ s) : Keeps s₀ (execExtest s) := keeps_next (held_pinInstr h)

theorem keeps_execClamp (h : Held s₀ s) : Keeps s₀ (execClamp s) := keeps_next (held_pinInstr h)

theorem keeps_execHighz (h : Held s₀ s) : Keeps s₀ (execHighz s) := keeps_next (held_pinInstr h)

theorem keeps_execDebug (h : Held s₀ s) : Keeps s₀ (execDebug s) := keeps_next (held_setIr h)

theorem keeps_execBypass (h : Held s₀ s) : Keeps s₀ (execBypass s) := keeps_next (held_setIr h)

theorem held_dbgResult {r : Nat} (h : Held s₀ s) : Held s₀ (dbgResult s r) := held_dbgSet h

theorem held_dbgOpen (h : Held s₀ s) : Held s₀ (dbgOpen s) := held_dbgResult (held_draw h)

theorem held_dbgDo {f : State → State} (h : Held s₀ s) (hf : ∀ t, Held s₀ t → Held s₀ (f t)) : Held s₀ (dbgDo s f) :=
  held_ite (held_dbgResult h) (held_ite (held_dbgResult h) (hf _ h))

theorem held_haltEvent {island sel : Nat} (h : Held s₀ s) : Held s₀ (haltEvent s island sel) := held_event h

theorem held_haltThread {th sel : Nat} (h : Held s₀ s) : Held s₀ (haltThread s th sel) :=
  held_ite h (held_haltEvent (held_setThread h))

theorem held_coreRuns (h : Held s₀ s) : Held s₀ (coreRuns s) := h

theorem held_debugHalt (h : Held s₀ s) : Held s₀ (debugHalt s) := by
  unfold debugHalt
  split
  · exact held_ite (held_dbgResult h) (held_dbgResult (held_haltThread h))
  · exact held_ite (held_dbgResult h) (held_dbgResult (held_haltEvent (held_coreRuns h)))
  · exact held_dbgOpen h

theorem held_resumeThread {th : Nat} (h : Held s₀ s) : Held s₀ (resumeThread s th) := by
  unfold resumeThread
  extract_lets
  split
  · exact held_wakeIf (held_setThread h)
  · exact held_ite (held_wake (held_setThread h)) (held_setThread h)
  · exact held_setThread h

theorem held_debugResume (h : Held s₀ s) : Held s₀ (debugResume s) := by
  unfold debugResume
  split
  · exact held_ite (held_dbgResult (held_resumeThread h)) (held_dbgResult h)
  · exact held_ite (held_dbgResult (held_coreRuns h)) (held_dbgResult h)
  · exact held_dbgOpen h

theorem held_stepHalt {th : Nat} (h : Held s₀ s) : Held s₀ (stepHalt s th) := by
  unfold stepHalt
  extract_lets
  split
  · exact held_setThread h
  · exact held_setThread h
  · exact h
  · exact h
  · exact h
  · exact held_setThread h
  · exact held_setThread h

theorem held_stepThread {th : Nat} (h : Held s₀ s) : Held s₀ (stepThread s th) := by
  unfold stepThread
  extract_lets
  split
  · exact held_dbgResult (held_stepHalt (held_runWord (held_setEngine (held_setThread h))))
  · exact held_dbgResult (held_stepHalt (held_resumeThread h))
  · exact held_dbgResult (held_stepHalt (held_resumeThread h))
  · exact held_dbgResult h

theorem held_debugStep (h : Held s₀ s) : Held s₀ (debugStep s) := by
  unfold debugStep
  split
  · exact held_ite (held_stepThread h) (held_dbgResult h)
  · exact held_ite (held_dbgResult (held_coreRuns h)) (held_dbgResult h)
  · exact held_dbgOpen h

theorem held_abortStaged (h : Held s₀ s) : Held s₀ (abortStaged s) := by
  unfold abortStaged
  extract_lets
  refine held_ite (held_dbgOpen h) ?_
  split
  · exact held_dbgResult h
  · exact held_dbgResult (held_count (held_setChannel (held_setThread h)))

theorem held_abortWait (h : Held s₀ s) : Held s₀ (abortWait s) := by
  unfold abortWait
  extract_lets
  refine held_ite (held_dbgOpen h) ?_
  split
  · exact held_dbgResult (held_setEngine (held_setReg (held_setThread h)))
  · exact held_dbgResult h

theorem held_setThreadReg {th n : Nat} {v : BitVec 64} (h : Held s₀ s) : Held s₀ (setThreadReg s th n v) :=
  held_ite (held_setReg h) (held_ite (held_setPc h) (held_ite (held_setThread h) (held_setShared h)))

theorem held_coreKeep {c n : Nat} {v : BitVec 64} (h : Held s₀ s) : Held s₀ (coreKeep s c n v) := held_ite h h

theorem held_setData {v : BitVec 64} (h : Held s₀ s) : Held s₀ (setData s v) := held_dbgSet h

theorem held_regRead (h : Held s₀ s) : Held s₀ (regRead s) := by
  unfold regRead
  extract_lets _ t
  have ht : Held s₀ t := held_ite h (held_coreRuns h)
  split
  · split
    · exact held_dbgResult (held_setData h)
    · exact held_dbgOpen h
  · exact held_dbgResult (held_setData (held_ite (held_coreKeep ht) ht))
  · exact held_dbgOpen h

theorem held_regWrite (h : Held s₀ s) : Held s₀ (regWrite s) := by
  unfold regWrite
  extract_lets
  split
  · split
    · exact held_ite (held_dbgResult (held_setThreadReg h)) (held_dbgOpen h)
    · exact held_ite (held_dbgResult (held_setThreadReg h)) (held_dbgOpen h)
    · exact held_ite (held_dbgResult (held_setThreadReg h)) (held_dbgOpen h)
    · exact held_dbgResult h
  · exact held_ite (held_dbgResult (held_coreKeep h)) (held_dbgResult h)
  · exact held_dbgOpen h

theorem held_norWrite {a : Nat} {bs : List Byte} (h : Held s₀ s) :
    Held s₀ (norWrite s a bs) := h

theorem heldSome_memRead (h : Held s₀ s) : HeldSome s₀ (memRead s) := by
  unfold memRead
  extract_lets
  split
  · split
    · exact heldSome_some (held_dbgResult (held_setData h))
    · exact heldSome_some (held_dbgOpen h)
  · exact heldSome_some (held_dbgOpen h)
  · exact heldSome_ite (heldSome_some (held_dbgOpen h)) (heldSome_ite heldSome_none (heldSome_some (held_dbgResult
        (held_setData h))))
  · exact heldSome_ite (heldSome_some (held_dbgResult h)) (heldSome_ite (heldSome_some (held_dbgOpen h)) (heldSome_ite
        heldSome_none (heldSome_some (held_dbgResult (held_setData h)))))

theorem heldSome_memWrite (h : Held s₀ s) : HeldSome s₀ (memWrite s) := by
  unfold memWrite
  extract_lets
  split
  · split
    · exact heldSome_some (held_ite (held_dbgResult h) (held_dbgResult (held_hbmWrite h)))
    · exact heldSome_some (held_dbgResult (held_windowWrite h))
    · exact heldSome_some (held_dbgOpen h)
  · exact heldSome_some (held_dbgOpen h)
  · exact heldSome_ite (heldSome_some (held_dbgOpen h)) (heldSome_ite heldSome_none (heldSome_some (held_ite (held_dbgResult
        h) (held_dbgResult (held_hbmWrite h)))))
  · exact heldSome_ite (heldSome_some (held_dbgResult h)) (heldSome_ite (heldSome_some (held_dbgOpen h)) (heldSome_ite
        heldSome_none (heldSome_some (held_dbgResult (held_norWrite h)))))

theorem heldSome_norErase (h : Held s₀ s) : HeldSome s₀ (norErase s) :=
  heldSome_ite (heldSome_some (held_dbgOpen h)) (heldSome_ite (heldSome_some (held_dbgResult h)) (heldSome_ite heldSome_none
    (heldSome_some (held_dbgResult (h)))))

theorem held_freshChallenge (h : Held s₀ s) : Held s₀ (freshChallenge s) := held_dbgSet h

theorem held_unlockPort (h : Held s₀ s) : Held s₀ (unlockPort s) :=
  held_ite (held_dbgResult h) (held_dbgResult (held_event (held_ite (held_dbgSet (held_freshChallenge h)) (held_freshChallenge
    h))))

theorem held_newChallenge (h : Held s₀ s) : Held s₀ (newChallenge s) :=
  held_ite (held_dbgResult h) (held_dbgResult (held_freshChallenge h))

theorem held_relockPort (h : Held s₀ s) : Held s₀ (relockPort s) := held_ite (held_dbgResult (held_dbgSet h)) (held_dbgResult h)

/-- An access of the debug port to memory ends in a next state, or beyond what the part carries. -/
theorem keeps_dbgMem {f : State → Option State} (h : Held s₀ s) (hf : ∀ t, Held s₀ t → HeldSome s₀ (f t)) :
    Keeps s₀ (dbgMem s f) ∨ dbgMem s f = .fault (.noDeviceMemory s.dbg.addr.toNat) := by
  unfold dbgMem
  split
  · exact .inl (keeps_next (held_dbgResult h))
  · split
    · exact .inl (keeps_next (held_dbgResult h))
    · split
      next e =>
        exact .inl (keeps_next ((hf _ h) _ e))
      · exact .inr rfl

theorem keeps_execDebugHalt (h : Held s₀ s) : Keeps s₀ (execDebugHalt s) :=
  keeps_next (held_dbgDo h (fun _ => held_debugHalt))

theorem keeps_execDebugResume (h : Held s₀ s) : Keeps s₀ (execDebugResume s) :=
  keeps_next (held_dbgDo h (fun _ => held_debugResume))

theorem keeps_execDebugStep (h : Held s₀ s) : Keeps s₀ (execDebugStep s) :=
  keeps_next (held_dbgDo h (fun _ => held_debugStep))

theorem keeps_execAbortStaged (h : Held s₀ s) : Keeps s₀ (execAbortStaged s) :=
  keeps_next (held_dbgDo h (fun _ => held_abortStaged))

theorem keeps_execAbortWait (h : Held s₀ s) : Keeps s₀ (execAbortWait s) :=
  keeps_next (held_dbgDo h (fun _ => held_abortWait))

theorem keeps_execRegRead (h : Held s₀ s) : Keeps s₀ (execRegRead s) := keeps_next (held_dbgDo h (fun _ => held_regRead))

theorem keeps_execRegWrite (h : Held s₀ s) : Keeps s₀ (execRegWrite s) := keeps_next (held_dbgDo h (fun _ => held_regWrite))

theorem keeps_execUnlock (h : Held s₀ s) : Keeps s₀ (execUnlock s) := keeps_next (held_unlockPort h)

theorem keeps_execRelock (h : Held s₀ s) : Keeps s₀ (execRelock s) := keeps_next (held_relockPort h)

theorem keeps_execNewChallenge (h : Held s₀ s) : Keeps s₀ (execNewChallenge s) := keeps_next (held_newChallenge h)

theorem held_dbgCommand {cmd : Nat} (h : Held s₀ s) : Held s₀ (dbgCommand s cmd) := by
  unfold dbgCommand
  extract_lets
  split
  · exact held_dbgDo h (fun _ => held_debugHalt)
  · exact held_dbgDo h (fun _ => held_debugResume)
  · exact held_dbgDo h (fun _ => held_debugStep)
  · exact held_dbgDo h (fun _ => held_abortStaged)
  · exact held_dbgDo h (fun _ => held_abortWait)
  · exact held_dbgDo h (fun _ => held_regRead)
  · exact held_dbgDo h (fun _ => held_regWrite)
  · exact held_dbgDo h (fun _ h' => held_getD (held_dbgOpen h') (heldSome_memRead h'))
  · exact held_dbgDo h (fun _ h' => held_getD (held_dbgOpen h') (heldSome_memWrite h'))
  · exact held_dbgDo h (fun _ h' => held_getD (held_dbgOpen h') (heldSome_norErase h'))
  · exact held_unlockPort h
  · exact held_relockPort h
  · exact held_newChallenge h
  · exact h

theorem keeps_execBreakpoint {th : BitVec 10} (h : Held s₀ s) : Keeps s₀ (execBreakpoint th s) :=
  keeps_next (held_ite (held_haltThread h) h)

theorem held_dapWrite {e v : Nat} (h : Held s₀ s) : Held s₀ (dapWrite s e v) := by
  unfold dapWrite
  split
  · exact held_dbgCommand (held_dbgSet h)
  · exact held_dbgSet h
  · exact held_dbgSet h
  · exact held_dbgSet h
  · exact held_ite (held_dbgSet h) (held_ite (held_dbgSet h) h)

/-! ### Machine/Nor.lean -/

theorem held_norEraseRange {a n : Nat} (h : Held s₀ s) :
    Held s₀ (norEraseRange s a n) := h

theorem held_writeRecord (h : Held s₀ s) : Held s₀ (writeRecord s) := held_with h

theorem held_readRecord (h : Held s₀ s) : Held s₀ (readRecord s) := by
  generalize hf : readRecord = f
  delta readRecord at hf
  subst hf
  beta_reduce
  split
  · exact held_objPut (held_with h)
  · exact held_objPut (held_with h)

theorem held_readChain (h : Held s₀ s) : Held s₀ (readChain s) := held_with h

theorem held_faultErase (h : Held s₀ s) : Held s₀ (faultErase s) := by
  generalize hf : faultErase = f
  delta faultErase at hf
  subst hf
  beta_reduce
  split
  · exact h
  · exact h

/-! ### Machine/Kennel.lean -/

theorem held_kenOut {r : KReq} {a : Nat} {bs : List Byte} (h : Held s₀ s) : Held s₀ (kenOut s r a bs) :=
  held_ite (held_mapWrite h) (held_hbmStore h)

theorem held_kenStore {r : KReq} {kind material : Nat} (h : Held s₀ s) : Held s₀ (kenStore s r kind material) :=
  held_ite (held_kenComplete h) (held_kenComplete (held_slotWrite h))

theorem held_doKennelWrite {r : KReq} (h : Held s₀ s) : Held s₀ (doKennelWrite s r) := by
  unfold doKennelWrite
  extract_lets
  refine held_ite (held_kenComplete h) ?_
  split
  · exact held_kenComplete h
  · exact held_ite (held_kenComplete h) (held_kenStore h)

theorem held_doGenerate {r : KReq} (h : Held s₀ s) : Held s₀ (doGenerate s r) := held_ite (held_kenComplete h) (held_kenStore h)

theorem held_eraseWaits {r : KReq} (h : Held s₀ s) : Held s₀ (eraseWaits s r) := h

theorem held_doErase {r : KReq} (h : Held s₀ s) : Held s₀ (doErase s r) := by
  unfold doErase
  extract_lets
  refine held_ite (held_kenComplete h) ?_
  split
  · exact held_kenComplete h
  · exact held_kenComplete (held_scrub h)
  · exact held_eraseWaits h
  · exact held_ite (held_kenComplete (held_scrub h)) (held_count (held_slotPut (held_eraseWaits h)))

theorem held_doForceErase {r : KReq} (h : Held s₀ s) : Held s₀ (doForceErase s r) := by
  unfold doForceErase
  extract_lets
  refine held_ite (held_kenComplete h) ?_
  split
  · exact held_kenComplete (held_count h)
  · exact held_kenComplete (held_scrub (held_count h))
  · exact held_scrub (held_cipStop (held_eraseWaits (held_count h)))

theorem held_doReadMeta {r : KReq} (h : Held s₀ s) : Held s₀ (doReadMeta s r) :=
  held_ite (held_kenComplete h) (held_ite (held_kenComplete h) (held_kenComplete (held_kenOut h)))

theorem held_doWrapExport {r : KReq} (h : Held s₀ s) : Held s₀ (doWrapExport s r) := by
  unfold doWrapExport
  extract_lets
  refine held_ite (held_kenComplete h) ?_
  split
  · exact held_kenComplete h
  · exact held_kenComplete h
  · exact held_kenComplete h
  · exact held_kenComplete h
  · exact held_ite (held_kenComplete h) (held_kenComplete (held_kenOut h))

theorem held_doWrapImport {r : KReq} (h : Held s₀ s) : Held s₀ (doWrapImport s r) := by
  unfold doWrapImport
  split
  · exact held_kenComplete h
  · exact held_kenComplete h
  · split
    · exact held_kenComplete h
    · exact held_ite (held_kenComplete h) (held_kenStore h)

theorem held_kenServe {r : KReq} (h : Held s₀ s) : Held s₀ (kenServe s r) := by
  unfold kenServe
  extract_lets _ t
  have ht : Held s₀ t := held_foldl (fun _ _ => held_cacheTouch) (held_ledRun h)
  refine held_ite (held_kenComplete (held_ledRun h)) (held_ite (held_kenComplete (held_ledRun h)) (held_ite (held_kenComplete
      (held_ledRun h)) ?_))
  split
  · exact held_doKennelWrite ht
  · exact held_doGenerate ht
  · exact held_doErase ht
  · exact held_doForceErase ht
  · exact held_doReadMeta ht
  · exact held_doWrapExport ht
  · exact held_doWrapImport ht
  · exact held_kenComplete ht

theorem held_kenFetch {held : List KReq} (h : Held s₀ s) : Held s₀ (kenFetch s held).1 :=
  held_foldl (fun _ _ h' => held_foldl (fun _ _ h'' => held_fetchSlot h'') h') h

theorem held_kennel {op : Nat} {req : Option (BitVec 512)} (h : Held s₀ s) : Held s₀ (kennel s op req) := by
  unfold kennel
  split
  · exact held_ite (held_getD (held_noteWait h) (heldSome_kenAccept h)) h
  · extract_lets
    split
    · exact held_kenFetch h
    · exact held_ite (held_kenPump (held_kenServe (held_kenFetch h))) (held_kenFetch h)

theorem keeps_execKennelWrite {req : Option (BitVec 512)} (h : Held s₀ s) : Keeps s₀ (execKennelWrite req s) :=
  keeps_next (held_kennel h)

theorem keeps_execGenerate {req : Option (BitVec 512)} (h : Held s₀ s) : Keeps s₀ (execGenerate req s) :=
  keeps_next (held_kennel h)

theorem keeps_execErase {req : Option (BitVec 512)} (h : Held s₀ s) : Keeps s₀ (execErase req s) := keeps_next (held_kennel h)

theorem keeps_execForceErase {req : Option (BitVec 512)} (h : Held s₀ s) : Keeps s₀ (execForceErase req s) :=
  keeps_next (held_kennel h)

theorem keeps_execReadMeta {req : Option (BitVec 512)} (h : Held s₀ s) : Keeps s₀ (execReadMeta req s) :=
  keeps_next (held_kennel h)

theorem keeps_execWrapExport {req : Option (BitVec 512)} (h : Held s₀ s) : Keeps s₀ (execWrapExport req s) :=
  keeps_next (held_kennel h)

theorem keeps_execWrapImport {req : Option (BitVec 512)} (h : Held s₀ s) : Keeps s₀ (execWrapImport req s) :=
  keeps_next (held_kennel h)

/-! ### Machine/Ledger.lean -/

theorem held_writeCompletion {k pos : Nat} {bs : List Byte} (h : Held s₀ s) : Held s₀ (writeCompletion s k pos bs).2 :=
  held_ite_snd (held_raiseVector (held_qpPut (held_hostPost h))) (held_hostPost h)

theorem held_takenBy {entry : Nat} {e : LedEntry} {w : Worker} (h : Held s₀ s) : Held s₀ (takenBy s entry e w) := by
  unfold takenBy
  extract_lets _ t _ u
  have ht : Held s₀ t := held_ledMetaSet h
  clear_value t
  have hu : Held s₀ u := by
    dsimp only [u]
    split <;> exact ht
  clear_value u
  exact held_ledPut hu

theorem held_noWorker {entry : Nat} (h : Held s₀ s) : Held s₀ (noWorker s entry) := held_hostDone (held_count h)

theorem held_dispatchItem {entry : Nat} {e : LedEntry} (h : Held s₀ s) : Held s₀ (dispatchItem s entry e) := by
  unfold dispatchItem
  extract_lets
  refine held_ite (held_hostDone h) (held_ite ?_ ?_)
  · split
    · exact held_noWorker h
    · exact held_ite h (held_enterCluster (held_takenBy (held_count h)))
  · split
    · exact held_noWorker h
    · exact held_takenBy h

theorem keeps_execDispatch {entry : BitVec 18} (h : Held s₀ s) : Keeps s₀ (execDispatch entry s) := by
  refine keeps_next ?_
  split
  · exact h
  · exact held_ite (held_dispatchItem h) h

theorem keeps_execReDispatch {entry : BitVec 18} (h : Held s₀ s) : Keeps s₀ (execReDispatch entry s) := by
  refine keeps_next ?_
  split
  · exact h
  · exact held_ite (held_ite (held_ledPut (held_count h)) (held_hostDone (held_count h))) h

theorem held_takeWork {entry : Nat} (h : Held s₀ s) : Held s₀ (takeWork s entry) := by
  unfold takeWork
  extract_lets _ _ _ t
  have ht : Held s₀ t := held_ledMetaSet h
  clear_value t
  exact held_foldl (fun _ _ => held_pump) ht

theorem held_setReport {k : Nat} {r : Nat × Nat} (h : Held s₀ s) : Held s₀ (setReport s k r) := h

theorem held_abortItem {entry : Nat} (h : Held s₀ s) : Held s₀ (abortItem s entry) := by
  unfold abortItem
  split
  · exact h
  · exact held_ledRetire (held_ledPut (held_takeWork (held_ite (held_setReport h) (held_countAt (held_setReport h)))))

theorem held_retirePlace {t : State} {o : OrdState} (h : Held s₀ t) : Held s₀ (retirePlace t o) := by
  unfold retirePlace
  extract_lets
  split
  · exact held_ite (held_writeCompletion (held_countAt (held_ordPut h))) (held_writeCompletion h)
  · exact held_countAt (held_ordPut h)

theorem held_settlePlaces (h : Held s₀ s) : Held s₀ (settlePlaces s) := by
  unfold settlePlaces
  extract_lets t
  have ht : Held s₀ t := held_foldl (fun _ _ h' => held_ite (held_retirePlace h') h') h
  exact ht

end Sys2Proof.Machine.Laws
end

section
/-!
SUPPORT. The operations of slices, host links, cipher work, reset and power keep the queue and the four links.
-/

namespace Sys2Proof.Machine.Laws

open Sys2Proof Sys2Proof.Machine

set_option Elab.async false

variable {s₀ s : State}

/-! ### Machine/Slices.lean -/

theorem held_setSliceState {sl : Nat} {st : SlState} (h : Held s₀ s) : Held s₀ (setSliceState s sl st) :=
  held_event (held_setSlice (held_record h))

theorem held_revoke {sl : Nat} (h : Held s₀ s) : Held s₀ (revoke s sl) := h

theorem held_drainSlice {sl : Nat} (h : Held s₀ s) : Held s₀ (drainSlice s sl) := by
  unfold drainSlice
  extract_lets _ _ _ _ t _ _ u
  have ht : Held s₀ t := held_foldl (fun _ _ => held_setReport) (held_revoke (held_setSlice (held_setSliceState
      (held_countAt h))))
  have hu : Held s₀ u := held_foldl (fun _ _ h' => held_ite (held_ledPut (held_takeWork h')) (held_takeWork h')) (held_with ht)
  exact held_cipStop (held_dmaStopAll hu)

theorem held_cmdResult {sl r : Nat} (h : Held s₀ s) : Held s₀ (cmdResult s sl r) := held_setSlice h

theorem held_freezeDone {sl : Nat} (h : Held s₀ s) : Held s₀ (freezeDone s sl) := held_setSliceState (held_countAt h)

theorem held_qpRestore {k : Nat} {bs : List Byte} (h : Held s₀ s) : Held s₀ (qpRestore s k bs) :=
  held_qpPut (held_objPut (held_objPut (held_objPut (held_objPut (held_objPut (held_objPut (held_objPut (held_objPut h))))))))

theorem held_exportKeys {sl material base : Nat} {l : List Nat} {r : List Byte × State} (h : Held s₀ s)
    (e : exportKeys s sl material base l = some r) : Held s₀ r.2 := by
  induction l generalizing s r with
  | nil => cases e; exact h
  | cons n l ih =>
    unfold exportKeys at e
    extract_lets _ next at e
    split at e
    · cases e
    next t ht =>
      obtain ⟨q, hq, rfl⟩ := Option.map_eq_some_iff.1 e
      have hnext : ∀ u, Held s₀ u → Held s₀ (next u) := fun _ hu => hu
      have hq2 : Held s₀ q.2 := ih (r := q) (held_coreKeyOp h hnext ht) hq
      exact hq2

theorem held_saveSlice {sl : Nat} (h : Held s₀ s) : Held s₀ (saveSlice s sl) := by
  unfold saveSlice
  extract_lets
  split
  · exact held_cmdResult h
  · split
    · exact held_cmdResult h
    next e =>
      have ht := held_exportKeys (s := { s with ken := { s.ken with wrap := (s.ken.wrap + 1) % 2 ^ 52 } }) h e
      exact held_cmdResult (held_setSlice (held_hbmWrite ht))

theorem held_sliceCmd {sl cmd : Nat} (h : Held s₀ s) : Held s₀ (sliceCmd s sl cmd) := by
  unfold sliceCmd
  extract_lets
  split
  · exact held_cmdResult (held_setSliceState h)
  · exact held_cmdResult (held_setSlice h)
  · exact held_cmdResult (held_setSlice h)
  · exact held_ite (held_cmdResult (held_drainSlice h)) (held_cmdResult h)
  · exact held_cmdResult (held_setSliceState h)
  · exact held_cmdResult (held_setSliceState h)
  · exact held_saveSlice h
  · exact held_cmdResult (held_setSliceState h)
  · exact held_cmdResult (held_setSlice h)
  · exact held_cmdResult h

theorem keeps_execSliceEnable {slice : BitVec 14} (h : Held s₀ s) : Keeps s₀ (execSliceEnable slice s) :=
  keeps_next (held_sliceCmd h)

theorem keeps_execSliceReset {slice : BitVec 14} (h : Held s₀ s) : Keeps s₀ (execSliceReset slice s) :=
  keeps_next (held_sliceCmd h)

theorem keeps_execSliceFreeze {slice : BitVec 14} (h : Held s₀ s) : Keeps s₀ (execSliceFreeze slice s) :=
  keeps_next (held_sliceCmd h)

theorem keeps_execSliceResume {slice : BitVec 14} (h : Held s₀ s) : Keeps s₀ (execSliceResume slice s) :=
  keeps_next (held_sliceCmd h)

theorem keeps_execSliceSave {slice : BitVec 14} (h : Held s₀ s) : Keeps s₀ (execSliceSave slice s) :=
  keeps_next (held_sliceCmd h)

theorem keeps_execSliceRestore {slice : BitVec 14} (h : Held s₀ s) : Keeps s₀ (execSliceRestore slice s) :=
  keeps_next (held_sliceCmd h)

theorem keeps_execSliceDisable {slice : BitVec 14} (h : Held s₀ s) : Keeps s₀ (execSliceDisable slice s) :=
  keeps_next (held_sliceCmd h)

theorem keeps_execSliceItemRetire {entry : BitVec 18} (h : Held s₀ s) : Keeps s₀ (execSliceItemRetire entry s) := by
  refine keeps_next ?_
  split
  · exact h
  · exact held_ite (held_abortItem h) h

theorem held_clearRings {sl : Nat} (h : Held s₀ s) : Held s₀ (clearRings s sl) := h

theorem held_zeroSlice {sl : Nat} (h : Held s₀ s) : Held s₀ (zeroSlice s sl) := by
  unfold zeroSlice
  extract_lets t u
  have ht : Held s₀ t := held_foldl (fun _ _ => held_scrub) h
  have hu : Held s₀ u := held_foldl (fun _ _ => held_setChan) ht
  exact held_setSlice (held_clearRings hu)

theorem keeps_execSliceZero {slice : BitVec 14} (h : Held s₀ s) : Keeps s₀ (execSliceZero slice s) :=
  keeps_next (held_ite (held_zeroSlice h) h)

theorem keeps_execResetSequenceEnd {slice : BitVec 14} (h : Held s₀ s) : Keeps s₀ (execResetSequenceEnd slice s) :=
  keeps_next (held_ite (held_setSliceState (held_setSlice h)) h)

theorem keeps_execFreezeComplete {slice : BitVec 14} (h : Held s₀ s) : Keeps s₀ (execFreezeComplete slice s) :=
  keeps_next (held_ite (held_freezeDone h) h)

theorem keeps_execFreezeTimeout {slice : BitVec 14} (h : Held s₀ s) : Keeps s₀ (execFreezeTimeout slice s) :=
  keeps_next (held_ite (held_ite (held_freezeDone h) (held_cmdResult (held_setSliceState (held_countAt h)))) h)

theorem heldSome_importKeys {sl material : Nat} {l : List (List Byte)} (h : Held s₀ s) :
    HeldSome s₀ (importKeys s sl material l) := by
  induction l generalizing s with
  | nil => exact heldSome_some h
  | cons b l ih =>
    unfold importKeys
    extract_lets
    split
    · exact heldSome_none
    · split
      · exact heldSome_none
      · split
        next e => exact ih (held_coreKeyOp h (fun _ ht => held_slotWrite ht) e)
        next => exact heldSome_none

theorem held_restoreObjects {sl q last : Nat} {l : List (List Byte)} (h : Held s₀ s) :
    Held s₀ (restoreObjects s sl q last l) := by
  induction l generalizing s q last with
  | nil => exact h
  | cons b l ih => exact ih (held_ite (held_objPut h) h)

theorem held_restoreFails {sl r : Nat} (h : Held s₀ s) : Held s₀ (restoreFails s sl r) := held_drainSlice (held_setSlice h)

theorem keeps_execRestoreDone {slice : BitVec 14} (h : Held s₀ s) : Keeps s₀ (execRestoreDone slice s) := by
  unfold execRestoreDone
  extract_lets
  refine keeps_next ?_
  split
  · exact h
  · split
    · exact held_restoreFails h
    · split
      · exact held_restoreFails h
      next e =>
        extract_lets t u
        have ht : Held s₀ t := held_foldl (fun _ _ h' => held_ite h' (held_setChan h')) ((heldSome_importKeys h) _ e)
        have hu : Held s₀ u := held_foldl (fun _ _ => held_qpRestore) (held_clearRings ht)
        exact held_freezeDone (held_setSlice (held_restoreObjects hu))

/-! ### Machine/Host.lean -/

theorem keeps_execLinkTrained {link : BitVec 2} {rate : BitVec 3} {width : Nat} {flit : Bool} (h : Held s₀ s) :
    Keeps s₀ (execLinkTrained link rate width flit s) :=
  keeps_next (held_ite (held_linkPut h) h)

theorem held_settleInvals (h : Held s₀ s) : Held s₀ (settleInvals s) := held_foldl (fun _ _ h' => held_countLink (held_emit h')) h

theorem held_stopFn {link fn : Nat} {detail : BitVec 8} (h : Held s₀ s) : Held s₀ (stopFn s link fn detail) :=
  held_quarantineReads (held_dmaStopAll h)

theorem held_bmeClear {link fn : Nat} (h : Held s₀ s) : Held s₀ (bmeClear s link fn) := by
  unfold bmeClear
  extract_lets
  refine held_ite h ?_
  split
  · exact held_stopFn (held_fnPut (held_countLink h))
  · exact held_fnPut (held_countLink h)
  · exact held_fnPut (held_countLink h)

theorem keeps_execBusMasterEnableClear {link : BitVec 2} {fn : BitVec 11} (h : Held s₀ s) :
    Keeps s₀ (execBusMasterEnableClear link fn s) :=
  keeps_next (held_bmeClear h)

theorem held_bmeSet {link fn : Nat} (h : Held s₀ s) : Held s₀ (bmeSet s link fn) :=
  held_ite h (held_ite (held_fnPut h) (held_pumpAll (held_fnPut h)))

theorem keeps_execBusMasterEnableSet {link : BitVec 2} {fn : BitVec 11} (h : Held s₀ s) :
    Keeps s₀ (execBusMasterEnableSet link fn s) :=
  keeps_next (held_bmeSet h)

theorem held_endDrain {link fn : Nat} (h : Held s₀ s) : Held s₀ (endDrain s link fn) := held_pumpAll (held_fnPut h)

theorem keeps_execFunctionDrainEnd {link : BitVec 2} {fn : BitVec 11} (h : Held s₀ s) :
    Keeps s₀ (execFunctionDrainEnd link fn s) :=
  keeps_next (held_ite (held_endDrain h) h)

theorem held_flagChannels {link fn : Nat} (h : Held s₀ s) : Held s₀ (flagChannels s link fn) :=
  held_foldl (fun _ _ => held_setChan) h

theorem held_dropHolds {link fn : Nat} (h : Held s₀ s) : Held s₀ (dropHolds s link fn) := h

theorem held_teardown {link fn : Nat} {kind : DrainKind} (h : Held s₀ s) : Held s₀ (teardown s link fn kind) := by
  unfold teardown
  extract_lets _ _ _ _ _ _ t u
  have ht : Held s₀ t := held_foldl (fun _ _ h' => held_ite (held_drainSlice h') h') (held_dropHolds (held_settleInvals
      (held_stopFn (held_ite (held_dmaStopAll (held_flagChannels (held_fnPut h))) (held_flagChannels (held_fnPut h))))))
  have hu : Held s₀ u := held_foldl (fun _ _ => held_setReport) ht
  exact held_ite (held_foldl (fun _ _ h' => held_ite (held_ledPut (held_stopOps (held_takeWork h'))) (held_takeWork h')) hu)
      ht

theorem held_startFlr {link fn : Nat} (h : Held s₀ s) : Held s₀ (startFlr s link fn) := by
  unfold startFlr
  split
  · exact h
  · extract_lets _ _ t
    have ht : Held s₀ t := held_foldl (fun _ _ => held_teardown) (held_teardown (held_countLink h))
    exact held_ite (held_fnPut ht) ht

theorem keeps_execInitiateFlr {link : BitVec 2} {fn : BitVec 11} (h : Held s₀ s) : Keeps s₀ (execInitiateFlr link fn s) :=
  keeps_next (held_startFlr h)

theorem held_abortInfra {link n : Nat} (h : Held s₀ s) : Held s₀ (abortInfra s link n) := by
  induction n generalizing s with
  | zero => exact h
  | succ n ih =>
    unfold abortInfra
    split
    · exact ih (held_abortItem h)
    · exact h

theorem held_mailboxReset {k : Nat} (h : Held s₀ s) : Held s₀ (mailboxReset s k) := by
  exact held_links h (length_lset ..)

theorem keeps_execFlrEnd {link : BitVec 2} {fn : BitVec 11} (h : Held s₀ s) : Keeps s₀ (execFlrEnd link fn s) := by
  unfold execFlrEnd
  extract_lets _ _ _ t _ _ _ u
  have ht : Held s₀ t := held_ite (held_abortInfra h) h
  have hu : Held s₀ u := held_foldl (fun _ _ => held_setChan) ht
  exact keeps_next (held_ite h (held_ite ht (held_endDrain (held_fnPut (held_atcDrop (held_ite (held_mailboxReset (held_foldl
      (fun _ _ => held_qpPut) hu)) hu))))))

theorem held_setDState {k fn : Nat} {d3 : Bool} (h : Held s₀ s) : Held s₀ (setDState s k fn d3) :=
  held_ite h (held_ite (held_fnPut h) (held_pumpAll (held_fnPut h)))

theorem keeps_execDStateChange {link : BitVec 2} {fn : BitVec 11} {d3 : Bool} (h : Held s₀ s) :
    Keeps s₀ (execDStateChange link fn d3 s) :=
  keeps_next (held_setDState h)

theorem keeps_execUnsupportedBarAccess {link : BitVec 2} {fn : BitVec 11} {offset : BitVec 32} {size : Nat}
    {write : Bool} {poisoned : Bool} (h : Held s₀ s) :
    Keeps s₀ (execUnsupportedBarAccess link fn offset size write s poisoned) :=
  keeps_next (held_ite h (held_ite (held_ite (held_aerLog (held_countLink h)) h) (held_ite (held_aerLog h) (held_emit h))))

theorem held_doorbellRefused {link k : Nat} (h : Held s₀ s) : Held s₀ (doorbellRefused s link k) := by
  unfold doorbellRefused
  extract_lets
  split
  · exact held_ite (held_countLink h) (held_countAt (held_countLink h))
  · exact held_countLink h

theorem held_doorbell {link page q : Nat} {act : State → Nat → State} (h : Held s₀ s)
    (hact : ∀ t x1, Held s₀ t → Held s₀ (act t x1)) : Held s₀ (doorbell s link page q act) := by
  unfold doorbell
  split
  · exact held_ite (held_aerLog h) h
  · exact held_ite (held_count (held_wakeLink h)) (hact _ _ (held_wakeLink h))

theorem keeps_execSqTail {link : BitVec 2} {page : BitVec 15} {q : BitVec 6} {v : BitVec 32} (h : Held s₀ s) :
    Keeps s₀ (execSqTail link page q v s) :=
  keeps_next (held_doorbell h (fun _ _ h' => held_ite (held_record (held_qpPut h')) (held_doorbellRefused h')))

theorem keeps_execCqHead {link : BitVec 2} {page : BitVec 15} {q : BitVec 6} {v : BitVec 32} (h : Held s₀ s) :
    Keeps s₀ (execCqHead link page q v s) :=
  keeps_next (held_doorbell h (fun _ _ h' => held_ite (held_record (held_qpPut h')) (held_doorbellRefused h')))

theorem keeps_execFetchStart {qp : Nat} (h : Held s₀ s) : Keeps s₀ (execFetchStart qp s) := by
  unfold execFetchStart
  extract_lets _ _ _ _ _ t
  have ht : Held s₀ t := by
    dsimp only [t]
    split
    · exact held_ite h h
    · exact h
  refine keeps_next ?_
  split
  · exact h
  · exact held_ite h (held_ite (held_ite ht ht) (held_dmaStart (held_qpPut (held_ite ht ht))))

theorem held_acceptOne {k : Nat} {d : List Byte} (h : Held s₀ s) : Held s₀ (acceptOne s k d) := by
  unfold acceptOne
  extract_lets x n sq d' sl r _ t u
  have ht : Held s₀ t := held_ledMetaSet (held_ledAccept h)
  have hu : Held s₀ u := by
    cases hsl : qpOwner k with
    | none => simpa only [u, sl, hsl] using ht
    | some sl' => simpa only [u, sl, hsl] using held_countAt ht
  exact held_qpPut hu

theorem keeps_execHeadPointerWriteBack {qp : Nat} (h : Held s₀ s) : Keeps s₀ (execHeadPointerWriteBack qp s) := by
  unfold execHeadPointerWriteBack
  extract_lets
  refine keeps_next ?_
  split
  · exact h
  · refine held_ite h (held_ite (held_qpPut h) (held_ite h (held_ite (held_waitRoom h) (held_ite h (held_ite h (held_ite ?_
        (held_hostPost h)))))))
    exact held_qpPut (held_foldl (fun _ _ ht => held_acceptOne ht) (held_hostPost h))

theorem keeps_execMsixSend {link : BitVec 2} {fn vector : BitVec 11} (h : Held s₀ s) :
    Keeps s₀ (execMsixSend link fn vector s) :=
  keeps_next (held_ite (held_emit (held_wakeLink (held_fnPut h))) h)

theorem held_failPage {h : HHold} (hI : Held s₀ s) : Held s₀ (failPage s h) := by
  unfold failPage
  refine held_foldl ?_ hI
  intro _ _ h'
  extract_lets _ _ _ _ t
  have ht : Held s₀ t := held_foldl (fun _ _ h'' => held_ite h'' (held_ite (held_unitFail h'') (held_ite (held_unitFail h'')
      h''))) h'
  exact held_settleFails ht

theorem held_askPage {h : HHold} (hI : Held s₀ s) : Held s₀ (askPage s h) :=
  held_ite hI (held_countLink (held_emit (held_wakeLink hI)))

theorem held_atcAdd {e : AtcEntry} (h : Held s₀ s) : Held s₀ (atcAdd s e) := h

theorem keeps_execTranslationCompletion {tag : Nat} {ok : Bool} {addr : BitVec 64} (h : Held s₀ s) :
    Keeps s₀ (execTranslationCompletion tag ok addr s) := by
  refine keeps_next ?_
  split
  · exact h
  · exact held_ite (held_pumpAll (held_atcAdd h)) (held_ite (held_askPage h) (held_failPage h))

theorem keeps_execPageRequestResponse {tag : Nat} {ok : Bool} (h : Held s₀ s) :
    Keeps s₀ (execPageRequestResponse tag ok s) := by
  refine keeps_next ?_
  split
  · exact h
  · exact held_pumpAll (held_ite h (held_failPage (held_countLink h)))

theorem keeps_execInvalidationRequest {link : BitVec 2} {fn : BitVec 11} {pasid : Option (BitVec 20)}
    {addr : BitVec 64} {pages : Nat} (h : Held s₀ s) : Keeps s₀ (execInvalidationRequest link fn pasid addr pages s) :=
  keeps_next (held_settleInvals h)

theorem held_takeData {r : HRead} {bs : List Byte} (h : Held s₀ s) : Held s₀ (takeData s r bs) := by
  unfold takeData
  extract_lets
  split
  · exact h
  · split
    · exact h
    · exact held_readData h

theorem keeps_execCompletionReceived {tag : BitVec 14} {link : BitVec 2} {poisoned : Bool} {status : BitVec 3}
    {data : List Byte} (h : Held s₀ s) : Keeps s₀ (execCompletionReceived tag link poisoned status data s) := by
  unfold execCompletionReceived
  extract_lets
  refine keeps_next ?_
  split
  · exact held_aerLog (held_countLink h)
  · exact held_ite (held_settleInvals (held_pumpAll (held_aerLog (held_countLink (held_countLink h))))) (held_pumpAll
        (held_settleInvals (held_settleFails (held_ite (held_unitFail (held_aerLog (held_countLink h))) (held_ite
        (held_takeData h) (held_ite (held_unitFail (held_countLink h)) (held_unitFail (held_countLink h))))))))

theorem keeps_execCompletionTimeout {link : BitVec 2} {tag : BitVec 14} (h : Held s₀ s) :
    Keeps s₀ (execCompletionTimeout link tag s) := by
  unfold execCompletionTimeout
  extract_lets
  refine keeps_next ?_
  split
  · exact held_settleInvals h
  · exact held_ite h (held_settleInvals (held_settleFails (held_unitFail (held_aerLog (held_countLink h)))))

theorem keeps_execTagQuarantineEnd {link : BitVec 2} {tag : BitVec 14} (h : Held s₀ s) :
    Keeps s₀ (execTagQuarantineEnd link tag s) := by
  unfold execTagQuarantineEnd
  extract_lets
  refine keeps_next ?_
  split
  · exact h
  · exact held_ite h (held_settleInvals (held_pumpAll h))

theorem held_linkDown {k : Nat} (h : Held s₀ s) : Held s₀ (linkDown s k) := by
  unfold linkDown
  extract_lets _ _ t
  have ht : Held s₀ t := held_foldl (fun _ _ => held_teardown) (held_countLink h)
  exact held_linkPut ht

theorem keeps_execDlDown {link : BitVec 2} (h : Held s₀ s) : Keeps s₀ (execDlDown link s) :=
  keeps_next (held_ite (held_linkDown h) h)

theorem keeps_execPerstAssert {link : BitVec 2} {level : Bool} (h : Held s₀ s) : Keeps s₀ (execPerstAssert link level s) := by
  have hoff : Held s₀ { s with hst := { s.hst with
      links := lset s.hst.links link.toNat { linkGet s link.toNat with perst := level } } } := by
    exact held_links h (length_lset ..)
  exact keeps_next (held_ite h (held_ite hoff (held_ite (held_linkPut h) (held_linkPut (held_ite (held_linkDown h) h)))))

theorem held_setVfEnable {k : Nat} {set : Bool} {n : Nat} (h : Held s₀ s) : Held s₀ (setVfEnable s k set n) := by
  unfold setVfEnable
  extract_lets _ _ t
  have ht : Held s₀ t := held_foldl (fun _ _ => held_teardown) h
  exact held_ite h (held_ite (held_ite h (held_fnPut h)) (held_fnPut ht))

theorem keeps_execVfEnable {link : BitVec 2} {set : Bool} {numVfs : BitVec 11} (h : Held s₀ s) :
    Keeps s₀ (execVfEnable link set numVfs s) :=
  keeps_next (held_setVfEnable h)

theorem keeps_execL0sEntry {link : BitVec 2} (h : Held s₀ s) : Keeps s₀ (execL0sEntry link s) :=
  keeps_next (held_ite (held_countLink (held_linkPut h)) h)

theorem keeps_execL1Entry {link : BitVec 2} (h : Held s₀ s) : Keeps s₀ (execL1Entry link s) :=
  keeps_next (held_ite (held_countLink (held_linkPut h)) h)

theorem keeps_execL1Exit {link : BitVec 2} (h : Held s₀ s) : Keeps s₀ (execL1Exit link s) := keeps_next (held_wakeLink h)

theorem keeps_execL12Entry {link : BitVec 2} {clkreq : Bool} (h : Held s₀ s) : Keeps s₀ (execL12Entry link s clkreq) := by
  unfold execL12Entry
  extract_lets _ _ _ _ _ _ _ t
  have ht : Held s₀ t := held_emit (held_linkPut h)
  exact keeps_next (held_ite (held_ite (held_ite (held_countLink (held_countLink (held_linkPut ht))) (held_ite (held_countLink
      (held_linkPut ht)) ht)) (held_ite (held_countLink (held_linkPut h)) h)) h)

/-! ### Machine/Cipher.lean -/

theorem held_reqWrite {r : CReq} {a : Nat} {bs : List Byte} (h : Held s₀ s) : Held s₀ (reqWrite s r a bs) := by
  unfold reqWrite
  split
  · exact held_mapWrite h
  · exact held_hbmStore h
  · exact h

theorem held_processTo {e : Nat} {r : CReq} {p : Nat} (h : Held s₀ s) : Held s₀ (processTo s e r p) := by
  unfold processTo
  extract_lets
  split
  · exact held_creqPut h
  · exact held_ite (held_setChan (held_creqPut h)) (held_creqPut h)
  · exact held_ite (held_creqPut h) (held_reqWrite (held_creqPut h))

theorem held_advanceEng {e : Nat} (h : Held s₀ s) : Held s₀ (advanceEng s e) := by
  unfold advanceEng
  split
  · exact h
  · exact held_ite h (held_processTo (held_draw h))

theorem held_advanceEngs (h : Held s₀ s) : Held s₀ (advanceEngs s) := held_foldl (fun _ _ => held_advanceEng) h

theorem held_assignReq {r : CReq} {e : Nat} (h : Held s₀ s) : Held s₀ (assignReq s r e) := held_setEng (held_creqPut h)

theorem held_moveGrant {code : Nat} (h : Held s₀ s) : Held s₀ (moveGrant s code) := by
  unfold moveGrant
  split
  · exact h
  · split
    · exact held_count h
    · exact held_ite h (held_ite (held_count h) (held_creqPut (held_ite (held_assignReq h) h)))

theorem held_useGrant {code : Nat} (h : Held s₀ s) : Held s₀ (useGrant s code) :=
  held_dmaCipherPump (held_moveGrant (held_advanceEngs h))

theorem keeps_execCipherGrant {slot : BitVec 12} {k : BitVec 3} {rowOk : Bool} (h : Held s₀ s) :
    Keeps s₀ (execCipherGrant slot k rowOk s) :=
  keeps_next (held_ite (held_rowFailed (held_atSlot h)) (held_useGrant (held_atSlot h)))

theorem held_settleNet {n : Nat} (h : Held s₀ s) : Held s₀ (settleNet s n) := by
  induction n generalizing s with
  | zero => exact h
  | succ n ih =>
    unfold settleNet
    extract_lets
    split
    · exact h
    · extract_lets
      split
      · exact ih (held_admitItem (held_itemRemove h))
      · exact ih h

theorem held_netDone {r : CReq} {id : Nat} {status : BitVec 8} {out tag : List Byte} (h : Held s₀ s) :
    Held s₀ (netDone s r id status out tag) := by
  unfold netDone
  split
  · exact h
  · extract_lets _ _ _ t _ u
    have ht : Held s₀ t := held_itemPut h
    clear_value t
    have hu : Held s₀ u := held_ite ht (held_itemRemove (held_count h))
    clear_value u
    exact held_settleNet hu

theorem held_dmaCipherDone {c : Nat} {status detail : BitVec 8} (h : Held s₀ s) : Held s₀ (dmaCipherDone s c status detail) :=
  held_finishChan (held_setChan h)

theorem held_leaveEngine {r : CReq} (h : Held s₀ s) : Held s₀ (leaveEngine s r) := by
  unfold leaveEngine
  split
  · exact h
  · exact held_setEng h

theorem held_cipherEnd {r : CReq} {status detail : BitVec 8} {done : Nat} {out tag : List Byte} (h : Held s₀ s) :
    Held s₀ (cipherEnd s r status detail done out tag) := by
  unfold cipherEnd
  extract_lets _ _ _ t u _ v w _ _ x
  have ht : Held s₀ t := held_countN (held_count (held_leaveEngine h))
  have hu : Held s₀ u := held_ite (held_count ht) ht
  have hv : Held s₀ v := held_ite (held_ctrAddAt (held_countAt hu)) hu
  have hw : Held s₀ w := by
    dsimp only [w]
    split
    · exact held_keyRelease hv
    · exact hv
  have hx : Held s₀ x := held_dmaCipherPump hw
  split
  · exact held_putResult hx
  · exact held_emit hx
  · exact held_ite (held_dmaCipherDone hx) hx
  · exact held_netDone hx

theorem held_bindNow {r : CReq} (h : Held s₀ s) : Held s₀ (bindNow s r) := held_creqPut (held_count (held_slotUse h))

theorem held_runNow {e id : Nat} (h : Held s₀ s) : Held s₀ (runNow s e id) := by
  unfold runNow
  split
  · exact h
  · exact held_setEng (held_creqPut h)

theorem held_countRevoked {r : CReq} (h : Held s₀ s) : Held s₀ (countRevoked s r) := held_ite (held_count h) h

theorem held_startReq {e : Nat} {r : CReq} (h : Held s₀ s) : Held s₀ (startReq s e r) := by
  unfold startReq
  split
  · exact held_cipherEnd (held_countRevoked h)
  · split
    · exact held_runNow h
    · split
      · exact held_cipherEnd h
      · split
        · exact held_cipherEnd h
        · split
          · exact held_cipherEnd h
          · split
            · exact held_cipherEnd h
            · split
              · exact held_runNow h
              · split
                · exact held_cipherEnd h
                · split
                  · exact h
                  · split
                    · exact held_creqPut (held_fetchSlot h)
                    · extract_lets
                      split
                      · exact held_cipherEnd (held_count (held_cacheTouch h))
                      · exact held_runNow (held_bindNow (held_cacheTouch h))

theorem held_resumeReq {e : Nat} {r : CReq} (h : Held s₀ s) : Held s₀ (resumeReq s e r) := held_setEng h

theorem held_startNext {e : Nat} (h : Held s₀ s) : Held s₀ (startNext s e) := by
  unfold startNext
  refine held_ite h ?_
  dsimp only
  split
  · exact held_resumeReq h
  · exact held_startReq h
  · split
    · exact held_startReq h
    · exact h

theorem keeps_execCipherRequestStart {e : BitVec 6} (h : Held s₀ s) : Keeps s₀ (execCipherRequestStart e s) :=
  keeps_next (held_startNext h)

theorem held_landFill {n : Nat} {ok : Bool} (h : Held s₀ s) : Held s₀ (landFill s n ok) := by
  unfold landFill
  split
  · exact held_ite h (held_count h)
  next e =>
    extract_lets t
    have ht : Held s₀ t := held_count ((heldSome_cacheIn h) _ e)
    exact held_ite ht (held_quarantineSlot ht)

theorem keeps_execKennelCacheFill {slot : BitVec 20} {ok : Bool} (h : Held s₀ s) : Keeps s₀ (execKennelCacheFill slot ok s) :=
  keeps_next (held_ite h (held_ite (held_landFill h) (held_ite (held_ite (held_count h) (held_quarantineSlot (held_count h)))
    h)))

theorem keeps_execSuspend {e : BitVec 6} (h : Held s₀ s) : Keeps s₀ (execSuspend e s) := by
  unfold execSuspend
  extract_lets
  refine keeps_next ?_
  split
  · exact held_advanceEng h
  · exact held_ite (held_startNext (held_count (held_setEng (held_advanceEng h)))) (held_advanceEng h)

theorem held_writeTag {r : CReq} {tag : List Byte} (h : Held s₀ s) : Held s₀ (writeTag s r tag) := held_ite h (held_reqWrite h)

theorem held_finishReq {e : Nat} {r : CReq} (h : Held s₀ s) : Held s₀ (finishReq s e r) := by
  unfold finishReq
  extract_lets _ t
  have ht : Held s₀ t := held_ite (held_processTo h) h
  exact held_cipherEnd (held_writeTag (held_ite ht ht))

theorem held_resumeNext {e : Nat} (h : Held s₀ s) : Held s₀ (resumeNext s e) := held_ite (held_startNext h) h

theorem keeps_execCipherRequestComplete {e : BitVec 6} (h : Held s₀ s) : Keeps s₀ (execCipherRequestComplete e s) := by
  refine keeps_next ?_
  split
  · exact h
  · exact held_ite (held_resumeNext (held_finishReq h)) h

theorem held_stopReq {e id : Nat} {status detail : BitVec 8} (h : Held s₀ s) : Held s₀ (stopReq s e id status detail) := by
  unfold stopReq
  extract_lets t
  have ht : Held s₀ t := held_ite (held_advanceEng h) h
  split
  · exact ht
  · exact held_cipherEnd ht

theorem keeps_execRevokedUserStop {e : BitVec 6} (h : Held s₀ s) : Keeps s₀ (execRevokedUserStop e s) := by
  unfold execRevokedUserStop
  extract_lets
  refine keeps_next ?_
  split
  · exact h
  · split
    · exact h
    · exact held_resumeNext (held_stopReq (held_countRevoked h))

theorem held_settleFault {e id : Nat} (h : Held s₀ s) : Held s₀ (settleFault s e id) := by
  unfold settleFault
  split
  · exact h
  · split
    · exact held_stopReq (held_countRevoked h)
    · extract_lets _ t
      have ht : Held s₀ t := by
        dsimp only [t]
        split
        · exact held_ite (held_setChan h) h
        · exact h
      exact held_ite (held_creqPut (held_count (held_leaveEngine ht))) (held_stopReq h)

theorem held_settleEngine {e : Nat} (h : Held s₀ s) : Held s₀ (settleEngine s e) :=
  held_foldl (fun _ _ => held_settleFault) h

theorem held_engineFails {e : Nat} (h : Held s₀ s) : Held s₀ (engineFails s e) :=
  held_ite (held_settleEngine (held_event (held_setEng h))) h

theorem keeps_execKat {e : BitVec 6} {pass : Bool} (h : Held s₀ s) : Keeps s₀ (execKat e pass s) :=
  keeps_next (held_ite h (held_engineFails (held_count h)))

theorem keeps_execEngineOutOfUse {e : BitVec 6} (h : Held s₀ s) : Keeps s₀ (execEngineOutOfUse e s) :=
  keeps_next (held_engineFails h)

theorem held_enginesEnabled {was : Nat} (h : Held s₀ s) : Held s₀ (enginesEnabled s was) :=
  held_foldl (fun _ _ h' => held_ite (held_settleEngine (held_event h')) (held_ite (held_setEng h') h')) h

theorem held_netIssue {x : Item} (h : Held s₀ s) : Held s₀ (netIssue s x) := by
  refine held_ite (held_itemRemove (held_count h)) ?_
  split
  · exact held_itemRemove (held_count h)
  · exact held_cipherIssue (held_itemPut h)

/-! ### Machine/Reset.lean -/

theorem held_mainReset {on : Bool} (h : Held s₀ s) : Held s₀ (mainReset s on) := by
  unfold mainReset
  extract_lets was vals _ _ _ _ _ _ _ _ t u
  have ht : Held s₀ t := ⟨h.1, fun _ => (List.length_map _).trans List.length_range⟩
  have hu : Held s₀ u := held_ite (held_takeMainCalib ht) ht
  clear_value u
  exact held_ite hu (held_event hu)

/-! ### Machine/Power.lean -/

theorem held_setExtract {x : Extract} (h : Held s₀ s) : Held s₀ (setExtract s x) := by
  unfold setExtract
  split
  · exact h
  · extract_lets _ _ t
    have ht : Held s₀ t := by
      dsimp only [t]
      split
      · exact held_count h
      · exact held_count h
      · exact h
    exact held_event ht

theorem held_cagePut {c : Nat} {x : Cage} (h : Held s₀ s) :
    Held s₀ { s with isl := { s.isl with cages := lset s.isl.cages c x } } := h

theorem held_setCage {c : Nat} {st : CageState} (h : Held s₀ s) : Held s₀ (setCage s c st) := by
  unfold setCage
  extract_lets
  split
  · exact h
  · cases st
    case powerDenied => exact held_event (held_count (held_cagePut h))
    all_goals exact held_event (held_cagePut h)

theorem held_releaseModule {c : Nat} (h : Held s₀ s) : Held s₀ (releaseModule s c) := held_ite (held_setCage h) h

theorem held_mainResult {r : Nat} (h : Held s₀ s) : Held s₀ (mainResult s r) := held_objPut h

theorem held_toStage1 (h : Held s₀ s) : Held s₀ (toStage1 s) := h

theorem held_toBackoff {code : Nat} (h : Held s₀ s) : Held s₀ (toBackoff s code) := held_ite h h

theorem heldSome_startUp (h : Held s₀ s) : HeldSome s₀ (startUp s) := by
  refine heldSome_ite heldSome_none ?_
  split <;> exact heldSome_some h

theorem held_dropRails (h : Held s₀ s) : Held s₀ (dropRails s) :=
  held_foldl (fun _ _ h' => held_ite h' (held_setCage h')) (held_ite (held_toStage1 (held_mainReset h)) (held_mainReset h))

theorem heldSome_powerDownRequest {extraction : Bool} (h : Held s₀ s) : HeldSome s₀ (powerDownRequest s extraction) := by
  unfold powerDownRequest
  split
  · exact heldSome_ite heldSome_none (heldSome_some h)
  · exact heldSome_some h
  · exact heldSome_some h

theorem heldSome_mainPowerWrite {v : Nat} (h : Held s₀ s) : HeldSome s₀ (mainPowerWrite s v) := by
  unfold mainPowerWrite
  split
  · split
    · exact heldSome_none
    next e => exact heldSome_some (held_mainResult (heldSome_powerDownRequest h _ e))
  · split
    · exact heldSome_some (held_mainResult h)
    · intro t e
      obtain ⟨u, hu, rfl⟩ := Option.map_eq_some_iff.1 e
      exact held_mainResult (heldSome_startUp h _ hu)

theorem held_railsOff (h : Held s₀ s) : Held s₀ (railsOff s) := by
  unfold railsOff
  split
  · exact held_ite (held_setExtract h) (held_getD (held_setExtract (held_setExtract h)) (heldSome_startUp (held_setExtract
        (held_setExtract h))))
  · exact h

theorem keeps_execPwrGoodRise {rail : BitVec 3} (h : Held s₀ s) : Keeps s₀ (execPwrGoodRise rail s) := by
  refine keeps_next ?_
  split
  · exact held_ite (held_ite h h) h
  · exact h

theorem held_sequenceFails {good : BitVec 6} (h : Held s₀ s) : Held s₀ (sequenceFails s good) :=
  held_toBackoff (held_eventFull (held_event (held_count (held_mainResult h))))

theorem keeps_execRailGoodTimeout {rail : BitVec 3} (h : Held s₀ s) : Keeps s₀ (execRailGoodTimeout rail s) := by
  refine keeps_next ?_
  split
  · exact held_ite (held_sequenceFails h) h
  · exact h

/-- The lanes come from the state before the calibration is taken, the other banks from the state after it. -/
theorem keeps_execMainResetRelease (h : Held s₀ s) : Keeps s₀ (execMainResetRelease s) := by
  unfold execMainResetRelease
  refine keeps_next ?_
  split
  · have hcal := held_takeMainCalib h
    generalize takeMainCalib s = t at hcal
    exact held_foldl (fun _ _ hv => held_releaseModule hv)
      (held_count ⟨hcal.1, fun _ => (List.length_map _).trans List.length_range⟩)
  · exact h

theorem held_powerDownRefused (h : Held s₀ s) : Held s₀ (powerDownRefused s) := by
  unfold powerDownRefused
  extract_lets _ t
  have ht : Held s₀ t := held_count (held_mainResult h)
  split
  · exact held_setExtract ht
  · exact ht

theorem keeps_execMainHoldOffExpiry (h : Held s₀ s) : Keeps s₀ (execMainHoldOffExpiry s) :=
  keeps_next (held_ite (held_powerDownRefused h) h)

theorem keeps_execMainPowerDown (h : Held s₀ s) : Keeps s₀ (execMainPowerDown s) :=
  keeps_next (held_ite (held_railsOff (held_mainResult (held_dropRails h))) h)

theorem keeps_execRailFault {rail : BitVec 3} (h : Held s₀ s) : Keeps s₀ (execRailFault rail s) := by
  unfold execRailFault
  extract_lets
  refine keeps_next (held_ite h ?_)
  split
  · exact h
  · exact held_railsOff (held_toBackoff (held_event (held_count (held_mainResult (held_dropRails (held_hardFault h))))))
  · exact held_ite (held_sequenceFails h) h

theorem held_powerResult {n r : Nat} (h : Held s₀ s) : Held s₀ (powerResult s n r) := held_objPut h

theorem held_setIslandState {n v : Nat} (h : Held s₀ s) : Held s₀ (setIslandState s n v) := h

theorem held_controllerLost {n : Nat} (h : Held s₀ s) : Held s₀ (controllerLost s n) := h

theorem held_islandLost {n : Nat} (h : Held s₀ s) : Held s₀ (islandLost s n) :=
  held_ite h (held_ite h (held_ite (held_controllerLost h) h))

theorem held_islandQuiet {n : Nat} (h : Held s₀ s) : Held s₀ (islandQuiet s n) :=
  held_ite (held_foldl (fun _ _ h' => held_linkPut (held_ite (held_linkDown h') h')) h) (held_ite (held_foldl (fun _ _ h' =>
    held_setLane h') h) h)

theorem held_islandLeaves {n v : Nat} (h : Held s₀ s) : Held s₀ (islandLeaves s n v) := by
  unfold islandLeaves
  extract_lets t
  have ht : Held s₀ t := held_islandQuiet (held_setIslandState h)
  exact held_ite (held_islandLost ht) ht

theorem held_islandReturns {n : Nat} (h : Held s₀ s) : Held s₀ (islandReturns s n) := by
  unfold islandReturns
  extract_lets t
  have ht : Held s₀ t := held_takeCalib (held_setIslandState h)
  clear_value t
  split
  · split
    · extract_lets u
      have hu : Held s₀ u := held_objPut ht
      clear_value u
      exact hu
    · exact ht
  · exact held_ite ht (held_ite (held_foldl (fun _ _ => held_linkPut) ht) (held_ite (held_raiseLanes (held_downLanes
        ht)) ht))

theorem held_islandPowerWrite {n v : Nat} (h : Held s₀ s) : Held s₀ (islandPowerWrite s n v).1 :=
  held_ite_fst (held_ite_fst (held_powerResult h) (held_ite_fst (held_powerResult h) (held_ite_fst (held_powerResult
    (held_setIslandState h)) (held_powerResult (held_islandReturns h))))) (held_ite_fst (held_count h) (held_ite_fst
    (held_powerResult h) (held_ite_fst (held_powerResult (held_count h)) h)))

theorem keeps_execIslandPowerEffect {island : BitVec 6} (h : Held s₀ s) : Keeps s₀ (execIslandPowerEffect island s) := by
  unfold execIslandPowerEffect
  extract_lets
  refine keeps_next ?_
  split
  · exact h
  · exact held_ite h (held_powerResult (held_islandLeaves h))

theorem keeps_execIslandHoldOffExpiry {island : BitVec 6} (h : Held s₀ s) : Keeps s₀ (execIslandHoldOffExpiry island s) :=
  keeps_next (held_ite (held_powerResult (held_count h)) h)

theorem keeps_execRefclkLoss (h : Held s₀ s) : Keeps s₀ (execRefclkLoss s) := keeps_next (held_ite h (held_event (held_count h)))

theorem keeps_execRefclkRelock (h : Held s₀ s) : Keeps s₀ (execRefclkRelock s) := keeps_next (held_ite h h)

theorem held_sampleTemps {readings : List (BitVec 16)} (h : Held s₀ s) : Held s₀ (sampleTemps s readings) := by
  unfold sampleTemps
  extract_lets t
  have ht : Held s₀ t := held_takeCalib h
  clear_value t
  exact held_with ht

theorem keeps_execJunctionAbove100 {readings : List (BitVec 16)} (h : Held s₀ s) :
    Keeps s₀ (execJunctionAbove100 readings s) :=
  keeps_next (held_sampleTemps h)

theorem keeps_execJunctionOver105 {readings : List (BitVec 16)} (h : Held s₀ s) : Keeps s₀ (execJunctionOver105 readings s) :=
  keeps_next (held_ite (held_event (held_count (held_sampleTemps h))) (held_sampleTemps h))

theorem keeps_execThermalTrip {readings : List (BitVec 16)} (h : Held s₀ s) : Keeps s₀ (execThermalTrip readings s) := by
  unfold execThermalTrip
  extract_lets t u v w
  have ht : Held s₀ t := held_sampleTemps h
  clear_value t
  have hu : Held s₀ u := held_hardFault ht
  clear_value u
  have hv : Held s₀ v := held_event (held_count hu)
  clear_value v
  have hw : Held s₀ w := held_dropRails hv
  clear_value w
  exact keeps_next (held_ite (held_railsOff (held_toBackoff (held_with hw))) ht)

theorem keeps_execTjHour {mean : BitVec 16} (h : Held s₀ s) : Keeps s₀ (execTjHour mean s) :=
  keeps_next (held_ite (held_count h) h)

/-! ### Machine/Sheepdog.lean -/

theorem held_dequeue {p q : Nat} {f : QFrame} {path : List (Nat × Nat × Choice)} (h : Held s₀ s) :
    Held s₀ (dequeue s p q f path) := by
  unfold dequeue
  extract_lets t u _ _ _ v
  have ht : Held s₀ t := held_foldl (fun _ _ => held_commitChoice) h
  have hu : Held s₀ u := held_foldl (fun _ _ => held_chargeNode) ht
  have hv : Held s₀ v := by
    dsimp only [v]
    split
    · exact held_ledRun (held_setFifo (held_setQueue hu))
    · exact held_setFifo (held_setQueue hu)
  exact held_clearDeficits (held_ite (held_count hv) hv)

theorem heldSome_serve {p : Nat} (h : Held s₀ s) : HeldSome s₀ (serve s p) := by
  unfold serve
  split
  · split
    · exact heldSome_none
    · split
      · exact heldSome_none
      · extract_lets
        split
        · exact heldSome_none
        · exact heldSome_ite (heldSome_some (held_dequeue h)) heldSome_none
  · exact heldSome_none

theorem held_unusedOpportunity {n : Nat} (h : Held s₀ s) : Held s₀ (unusedOpportunity s n) := held_ite (held_count h) h

theorem keeps_execEgressOpportunity {slot : BitVec 12} {j : BitVec 2} {rowOk : Bool} (h : Held s₀ s) :
    Keeps s₀ (execEgressOpportunity slot j rowOk s) := by
  unfold execEgressOpportunity
  extract_lets
  refine keeps_next ?_
  split
  · exact held_unusedOpportunity (held_rowFailed (held_atSlot h))
  · split
    · exact held_atSlot h
    · split
      next e =>
        exact (heldSome_serve (held_atSlot h)) _ e
      · exact held_unusedOpportunity (held_atSlot h)

theorem held_finishDown {p : Nat} (h : Held s₀ s) : Held s₀ (finishDown s p) := by
  unfold finishDown
  split
  · extract_lets _ _ t
    have ht : Held s₀ t := held_foldl (fun _ _ => held_setLane) h
    exact held_ite (held_foldl (fun _ _ => held_bringUp) ht) ht
  · exact h

theorem held_downNow {p : Nat} (h : Held s₀ s) : Held s₀ (downNow s p) := held_ite (held_finishDown h) h

theorem held_downPorts (h : Held s₀ s) : Held s₀ (downPorts s) := held_foldl (fun _ _ => held_downNow) h

theorem keeps_execFrameSent {port : BitVec 5} (h : Held s₀ s) : Keeps s₀ (execFrameSent port s) := by
  unfold execFrameSent
  extract_lets
  refine keeps_next ?_
  split
  · exact h
  · exact held_ite (held_finishDown (held_retireFrame (held_bufRelease (held_emit (held_ctrAddAt (held_countAt (held_count
        (held_countN (held_count (held_setFifo h)))))))))) h

end Sys2Proof.Machine.Laws
end

section
/-!
SUPPORT. The operations of forwarding, tables, the pair and the panel, and the boot, keep the queue and the four
links.
-/

namespace Sys2Proof.Machine.Laws

open Sys2Proof Sys2Proof.Machine

set_option Elab.async false

variable {s₀ s : State}

/-! ### Machine/FwdOps.lean -/

theorem held_setL2Hp {i v : Nat} (h : Held s₀ s) : Held s₀ (setL2Hp s i v) := h

theorem held_flowPut {i : Nat} {e : BitVec 512} (h : Held s₀ s) : Held s₀ (flowPut s i e) := h

theorem held_hpPut {flow : Bool} {i v : Nat} (h : Held s₀ s) : Held s₀ (hpPut s flow i v) :=
  held_ite (held_flowPut h) (held_setL2Hp h)

theorem held_sharedPut {tbl i e : Nat} (h : Held s₀ s) : Held s₀ (sharedPut s tbl i e) :=
  held_ite (held_record h) (held_ite (held_record h) (held_ite (held_record h) (held_flowPut (held_record h))))

theorem held_quarShared {tbl i : Nat} (h : Held s₀ s) : Held s₀ (quarShared s tbl i) := held_event (held_count h)

theorem held_readShared {tbl : Nat} {l : List Nat} (h : Held s₀ s) : Held s₀ (readShared s tbl l).2 := by
  induction l generalizing s with
  | nil => exact h
  | cons i l ih => exact ih (held_ite (held_quarShared h) h)

theorem held_cacheUse {b : Nat} (h : Held s₀ s) : Held s₀ (cacheUse s b) := h

theorem held_askFill {bs : Nat × Nat} (h : Held s₀ s) : Held s₀ (askFill s bs) := held_ite h (held_count h)

theorem held_lookDa {key : Nat} (h : Held s₀ s) : Held s₀ (lookDa s key).2 := by
  unfold lookDa
  extract_lets _ t
  have ht : Held s₀ t.2 := held_readShared h
  clear_value t
  split <;> exact ht

theorem held_lookSa {key p : Nat} (h : Held s₀ s) : Held s₀ (lookSa s key p).2 := by
  unfold lookSa
  extract_lets _ t
  have ht : Held s₀ t.2 := held_readShared h
  clear_value t
  split
  · exact held_ite_snd (held_setL2Hp ht) ht
  · exact ht

theorem held_lookLpm {d : BitVec 512} {v6 : Bool} {vrf addr : Nat} {l : List Nat} (h : Held s₀ s) :
    Held s₀ (lookLpm s d v6 vrf addr l).2 := by
  induction l generalizing s with
  | nil => exact h
  | cons g l ih =>
    refine held_ite_snd (ih h) ?_
    dsimp only
    split <;> exact ih (held_readShared h)

theorem held_lookFlow {key : Nat} (h : Held s₀ s) : Held s₀ (lookFlow s key).2 := by
  unfold lookFlow
  extract_lets _ t _ u
  have ht : Held s₀ t := held_cacheUse (held_cacheUse (held_count h))
  clear_value t
  have hu : Held s₀ u.2 := held_readShared ht
  clear_value u
  refine held_ite_snd ?_ (held_askFill (held_count h))
  split
  · exact held_hpPut hu
  · exact hu

theorem held_sharedLookups {d : BitVec 512} {x : Item} (h : Held s₀ s) : Held s₀ (sharedLookups s d x).2.2 := by
  unfold sharedLookups
  extract_lets _ _ _ _ _ t u _ _ v
  have ht : Held s₀ t.2 := held_ite_snd (held_lookDa h) h
  have hu : Held s₀ u.2 := held_ite_snd (held_lookSa ht) ht
  have hv : Held s₀ v.2 := held_ite_snd (held_lookLpm hu) hu
  exact held_ite_snd (held_lookFlow hv) hv

theorem held_pushLearn {r : LearnReq} (h : Held s₀ s) : Held s₀ (pushLearn s r) :=
  held_ite (held_count (held_ite h h)) (held_ite h h)

theorem held_stampMove {key : Nat} (h : Held s₀ s) : Held s₀ (stampMove s key) := held_ite h (held_count h)

theorem held_applyMove {i : Nat} {r : LearnReq} (h : Held s₀ s) : Held s₀ (applyMove s i r) :=
  held_ite (held_count h) (held_ite (held_count h) (held_count (held_stampMove (held_sharedPut h))))

theorem held_applyL2 {r : LearnReq} (h : Held s₀ s) : Held s₀ (applyL2 s r) := by
  unfold applyL2
  extract_lets
  split
  · exact held_ite (held_count (held_readShared h)) (held_ite (held_count (held_readShared h)) (held_applyMove
        (held_readShared h)))
  · split
    · exact held_count (held_readShared h)
    · exact held_ite (held_count (held_readShared h)) (held_setL2Hp (held_count (held_sharedPut (held_readShared h))))

theorem held_applyFlow {r : LearnReq} (h : Held s₀ s) : Held s₀ (applyFlow s r) := by
  unfold applyFlow
  extract_lets
  split
  · exact held_count (held_readShared h)
  · split
    · exact held_count (held_readShared h)
    · exact held_count (held_sharedPut (held_readShared h))

theorem held_learnL2 (h : Held s₀ s) : Held s₀ (learnL2 s) := by
  unfold learnL2
  split
  · exact h
  · exact held_ite h (held_ite (held_waitRoom h) (held_applyL2 h))

theorem held_learnFlow (h : Held s₀ s) : Held s₀ (learnFlow s) := by
  unfold learnFlow
  split
  · exact h
  · exact held_ite h (held_ite (held_ite h (held_askFill h)) (held_ite (held_waitRoom h) (held_applyFlow h)))

theorem held_setSweep {flow : Bool} {x : Sweep} (h : Held s₀ s) : Held s₀ (setSweep s flow x) := held_ite h h

theorem held_visitEntry {flow : Bool} {i : Nat} (h : Held s₀ s) : Held s₀ (visitEntry flow i s) :=
  held_ite h (held_ite (held_hpPut h) (held_setSweep (held_hpPut h)))

theorem held_visitPlaces {flow : Bool} {b n : Nat} (h : Held s₀ s) : Held s₀ (visitPlaces flow b n s) := by
  induction n generalizing s with
  | zero => exact held_setSweep h
  | succ n ih => exact held_ite (held_setSweep h) (ih (held_visitEntry h))

theorem held_visitBucket {flow : Bool} (h : Held s₀ s) : Held s₀ (visitBucket s flow) := by
  unfold visitBucket
  extract_lets
  split
  · exact h
  · exact held_ite (held_setSweep h) (held_visitPlaces (held_readShared h))

theorem held_retireRemoval {flow : Bool} {r : Removal} (h : Held s₀ s) : Held s₀ (retireRemoval s flow r) :=
  held_ite (held_count (held_hpPut (held_sharedPut (held_readShared (held_setSweep h))))) (held_count (held_hpPut
    (held_readShared (held_setSweep h))))

theorem held_startPass {flow : Bool} (h : Held s₀ s) : Held s₀ (startPass s flow) := by
  unfold startPass
  extract_lets
  refine held_ite ?_ h
  split
  · exact held_setSweep h
  · exact held_count (held_setSweep h)

theorem held_onLeg {k rank : Nat} {act : State → State} (h : Held s₀ s) (hact : ∀ t, Held s₀ t → Held s₀ (act t)) :
    Held s₀ (onLeg s k rank act) :=
  held_ite (hact _ h) h

theorem held_retireHeld {flow : Bool} {n : Nat} (h : Held s₀ s) : Held s₀ (retireHeld flow n s) := by
  induction n generalizing s with
  | zero => exact h
  | succ n ih =>
    unfold retireHeld
    split
    · exact h
    · exact held_ite (ih (held_retireRemoval h)) (held_waitRoom h)

theorem held_endSlot (h : Held s₀ s) : Held s₀ (endSlot s) := held_retireHeld h

theorem held_openSlot (h : Held s₀ s) : Held s₀ (openSlot s) := held_ite h (held_endSlot h)

theorem held_sweepLeg {k : Nat} {flow : Bool} (h : Held s₀ s) : Held s₀ (sweepLeg s k flow) :=
  held_ite (held_ite (held_onLeg (held_startPass h) (fun _ h' => h')) (held_onLeg (held_waitRoom (held_startPass h)) (fun _
    h' => held_visitBucket h'))) (held_onLeg (held_startPass h) (fun _ => held_visitBucket))

theorem held_sweepBoundary {flow : Bool} (h : Held s₀ s) : Held s₀ (sweepBoundary s flow) :=
  held_setSweep (held_ite (held_count h) h)

/-! ### Machine/TableOps.lean -/

theorem held_setTcWin {w : Nat} {x : TcWin} (h : Held s₀ s) : Held s₀ (setTcWin s w x) := by
  exact h

theorem held_ctlPush {c : SeqCmd} (h : Held s₀ s) : Held s₀ (ctlPush s c) := h

theorem held_tcCommand {w op target : Nat} {other : Bool} {table : Nat} (h : Held s₀ s) :
    Held s₀ (tcCommand s w op target other table) := by
  unfold tcCommand
  split
  · exact h
  · split
    · extract_lets _ _ t
      have ht : Held s₀ t := held_noteWait (held_count (held_setTcWin h))
      exact held_ite (held_count ht) ht
    · extract_lets _ r _ t
      have ht : Held s₀ t := held_setTcWin (held_ledAccept h)
      clear_value t
      exact held_ite (held_with ht) (held_with ht)

theorem held_tcFinish {w result : Nat} {hit pend : Bool} {data : Option (BitVec 2048)} (h : Held s₀ s) :
    Held s₀ (tcFinish s w result hit pend data) := by
  unfold tcFinish
  split
  · exact h
  · exact held_ledDone (held_setTcWin h)

theorem held_tcStageResult {w p : Nat} {c : TcCmd} {r : Nat × BitVec 2048} (h : Held s₀ s) :
    Held s₀ (tcStageResult s w p c r) :=
  held_ite (held_tcFinish (held_setTcWin h)) (held_setTcWin h)

theorem held_tcStageStep {w p : Nat} (h : Held s₀ s) : Held s₀ (tcStageStep s w p) := by
  unfold tcStageStep
  split
  · exact h
  · extract_lets
    split
    · exact held_tcStageResult (held_ledRun h)
    · exact held_ledRun h

theorem held_landCommand {e : Nat × Nat × Nat × BitVec 512} (h : Held s₀ s) : Held s₀ (landCommand s e) := by
  unfold landCommand
  split
  · exact h
  · exact held_tcStageResult (held_stageCommand h)

theorem held_landBy {m : Nat} (h : Held s₀ s) : Held s₀ (landBy s m) := held_foldl (fun _ _ => held_landCommand) h

theorem held_atPort {slot : BitVec 12} (h : Held s₀ s) : Held s₀ (atPort s slot) := held_landBy (held_atSlot h)

theorem held_tcWrite {target i e : Nat} (h : Held s₀ s) : Held s₀ (tcWrite s target i e) :=
  held_ite (held_setL2Hp (held_sharedPut h)) (held_sharedPut h)

theorem held_sharedCommand {c : TcCmd} (h : Held s₀ s) : Held s₀ (sharedCommand s c).2 := by
  unfold sharedCommand
  extract_lets
  refine held_ite_snd h (held_ite_snd h ?_)
  split
  · exact held_readShared h
  · split
    · exact held_tcWrite (held_readShared h)
    · exact held_readShared h
  · exact held_readShared h
  · exact held_ite (held_setL2Hp (held_sharedPut (held_readShared h))) (held_sharedPut (held_readShared h))
  · exact held_readShared h
  · exact held_ite_snd (held_tcWrite (held_readShared h)) (held_readShared h)
  · exact held_tcWrite (held_readShared h)

theorem held_flushBucket {b port : Nat} (h : Held s₀ s) : Held s₀ (flushBucket s b port) :=
  held_foldl (fun _ _ h' => held_ite (held_setL2Hp (held_sharedPut h')) h') (held_readShared h)

theorem held_commandLeg (h : Held s₀ s) : Held s₀ (commandLeg s) := by
  unfold commandLeg
  split
  · exact h
  · split
    · exact held_with h
    · extract_lets t _ u _ v
      have ht : Held s₀ t := held_ledRun h
      clear_value t
      have hu : Held s₀ u := held_flushBucket ht
      clear_value u
      have hv : Held s₀ v.2 := held_sharedCommand ht
      clear_value v
      split
      · exact held_tcFinish (held_with ht)
      · exact held_ite (held_ite (held_tcFinish (held_with ht)) (held_ite (held_setTcWin hu) (held_tcFinish (held_with hu))))
            (held_tcFinish (held_with hv))

theorem held_tcRelease {w : Nat} (h : Held s₀ s) : Held s₀ (tcRelease s w) := by
  unfold tcRelease
  split
  · exact h
  · split
    · exact h
    · exact held_ite (held_ledRetire (held_count (held_setTcWin h))) h

/-! ### Machine/ObjFx.lean -/

theorem held_adminWrite {p v : Nat} (h : Held s₀ s) : Held s₀ (adminWrite s p v) := by
  unfold adminWrite
  extract_lets t
  have ht : Held s₀ t := held_objPut h
  clear_value t
  exact held_ite (held_foldl (fun _ _ h' => held_ite (held_bringUp h') h') ht) (held_downNow ht)

theorem held_laneWrite {idx sub v : Nat} (h : Held s₀ s) : Held s₀ (laneWrite s idx sub v) :=
  held_raiseLanes (held_objPut (held_downLanes h))

theorem held_policerWrite {sub n v : Nat} (h : Held s₀ s) : Held s₀ (policerWrite s sub n v) := held_objPut (held_polPut h)

theorem held_closeTenants {sl : Nat} (h : Held s₀ s) : Held s₀ (closeTenants s sl) := by
  unfold closeTenants
  extract_lets _ t
  have ht : Held s₀ t := held_foldl (fun _ _ => held_boxLeaves) h
  exact ht

theorem held_setBinding {sl v : Nat} (h : Held s₀ s) : Held s₀ (setBinding s sl v) := held_setSlice h

theorem held_bindWrite {sl v : Nat} (h : Held s₀ s) : Held s₀ (bindWrite s sl v) := by
  unfold bindWrite
  extract_lets t u
  have ht : Held s₀ t := held_setBinding (held_objPut h)
  have hu : Held s₀ u := held_ite ht (held_closeTenants ht)
  split
  · exact held_setSliceState hu
  · exact hu
  · exact held_setSliceState hu
  · exact hu

theorem held_clockWrite {c v : Nat} (h : Held s₀ s) : Held s₀ (clockWrite s c v) := held_ite h (held_objPut h)

theorem held_engineResetWrite {c v : Nat} (h : Held s₀ s) : Held s₀ (engineResetWrite s c v) :=
  held_pump (held_foldl (fun _ _ => held_engineReset) h)

theorem held_coreWrite {idx sub el v : Nat} (h : Held s₀ s) : Held s₀ (coreWrite s idx sub el v) :=
  held_ite (held_raiseLanes (held_objPut (held_downLanes h))) (held_ite (held_laneWrite h) (held_ite (held_adminWrite h)
    (held_ite (held_clockWrite h) (held_ite (held_engineResetWrite h) (held_ite (held_writeEnable (held_objPut h)) (held_ite
    (held_ite (held_flushQueue h) h) (held_ite (held_ite (held_obsClear h) h) (held_ite (held_policerWrite h) (held_ite
    (held_enginesEnabled (held_objPut h)) (held_ite (held_sliceCmd h) (held_ite (held_bindWrite h) (held_objPut h))))))))))))

theorem held_applyParam {w : PWrite} (h : Held s₀ s) : Held s₀ (applyParam s w) := by
  unfold applyParam
  extract_lets t
  have ht : Held s₀ t := held_foldl (fun _ _ => held_coreWrite) (held_ledRun h)
  exact held_ledDone ht

theorem held_applyParams (h : Held s₀ s) : Held s₀ (applyParams s) := held_foldl (fun _ _ => held_applyParam) h

/-! ### Machine/Pair.lean -/

theorem heldSome_transferGo (h : Held s₀ s) : HeldSome s₀ (transferGo s) := by
  unfold transferGo
  split
  · exact heldSome_some h
  · exact heldSome_some h
  · exact heldSome_ite (heldSome_some h) heldSome_none

theorem heldSome_pairEnableWrite {v : Nat} (h : Held s₀ s) : HeldSome s₀ (pairEnableWrite s v) := by
  unfold pairEnableWrite
  extract_lets
  split
  · exact heldSome_ite (heldSome_some (held_setPairState (held_fence (held_objPut h)))) (heldSome_some (held_objPut h))
  · exact heldSome_ite heldSome_none (heldSome_some (held_objPut h))
  · exact heldSome_ite heldSome_none (heldSome_some (held_objPut h))
  · exact heldSome_ite (heldSome_some (held_setPairState (held_objPut h))) (heldSome_some (held_objPut h))

theorem held_mirrorAccept {i : Nat} {e : LedEntry} (h : Held s₀ s) : Held s₀ (mirrorAccept s i e) := by
  unfold mirrorAccept
  extract_lets o fresh ix t u k src v
  have hu : Held s₀ u := held_ledMetaSet (held_ordPut h)
  clear_value u
  have hv : Held s₀ v := by
    dsimp -zeta only [v]
    split
    · extract_lets d d' w src w' x
      have hw : Held s₀ w := held_ledMetaSet hu
      clear_value w
      have hw' : Held s₀ w' := hw
      exact held_qpPut hw'
    · exact hu
  exact held_ledPut hv

theorem held_markFrame {i q : Nat} {back : Bool} (h : Held s₀ s) : Held s₀ (markFrame s i q back) := held_setQueue h

theorem held_dropFrame {i q : Nat} (h : Held s₀ s) : Held s₀ (dropFrame s i q) :=
  held_foldl (fun _ _ => held_bufRelease) (held_setQueue h)

theorem held_mirrorRetire {i : Nat} {e : LedEntry} (h : Held s₀ s) : Held s₀ (mirrorRetire s i e) := by
  unfold mirrorRetire
  extract_lets _ _ _ _ t
  have ht : Held s₀ t := by
    dsimp only [t]
    split
    · exact held_qpPut (held_ordPut h)
    · exact held_setTcWin (held_ordPut h)
    · exact held_dropFrame (held_ordPut h)
    · exact held_ordPut h
  exact held_ledPut (held_ledMetaSet ht)

theorem held_mirrorChange {i : Nat} {old e : LedEntry} (h : Held s₀ s) : Held s₀ (mirrorChange s i old e) := by
  unfold mirrorChange
  extract_lets _ _ _ t
  have ht : Held s₀ t := by
    dsimp only [t]
    split
    · exact held_markFrame h
    · exact held_ite (held_ledMetaSet (held_draw h)) (held_ledMetaSet h)
    · exact h
  exact held_ledPut ht

theorem held_mirrorEntry {i : Nat} {e : LedEntry} (h : Held s₀ s) : Held s₀ (mirrorEntry s i e) := by
  unfold mirrorEntry
  split
  · exact held_ite h (held_mirrorAccept h)
  · exact held_ite (held_mirrorRetire h) (held_mirrorChange h)

theorem held_mirrorFrame {q h : Nat} {bytes : List Byte} (hI : Held s₀ s) : Held s₀ (mirrorFrame s q h bytes) :=
  held_setQueue hI

theorem held_mirrorTable {t key v : Nat} (h : Held s₀ s) : Held s₀ (mirrorTable s t key v) :=
  held_ite (held_sharedPut h) (held_ite (held_stgPut h) (held_tcamPut h))

theorem held_mirrorObject {key v : Nat} (h : Held s₀ s) : Held s₀ (mirrorObject s key v) := by
  unfold mirrorObject
  extract_lets _ _ _ _ t
  have ht : Held s₀ t := held_ite (held_zeroSlice h) h
  exact held_ite h (held_ite (held_ite ht (held_setSliceState ht)) (held_coreWrite h))

theorem held_mirrorRegister {reg v : Nat} (h : Held s₀ s) : Held s₀ (mirrorRegister s reg v) :=
  held_ite (held_qpPut h) (held_setChan h)

theorem held_mirrorTimetable {ev beat : Nat} (h : Held s₀ s) : Held s₀ (mirrorTimetable s ev beat) := by
  unfold mirrorTimetable
  split
  · exact held_ite (held_ttSet h) h
  · exact held_ite (held_ttSet h) h
  · exact held_makeCurrent h
  · exact h

theorem held_mirrorRecord {x1 : DeltaRec} (h : Held s₀ s) : Held s₀ (mirrorRecord s x1) := by
  unfold mirrorRecord
  split
  · exact held_mirrorEntry h
  · exact h
  · exact held_mirrorFrame h
  · exact held_mirrorTable h
  · split
    · exact held_slotWrap (held_slotUse h)
    · exact h
  · exact held_mirrorObject h
  · exact held_mirrorRegister h
  · exact held_mirrorTimetable h

theorem held_mirrorRecords {rs : List DeltaRec} (h : Held s₀ s) : Held s₀ (mirrorRecords s rs) :=
  held_foldl (fun _ _ => held_mirrorRecord) h

theorem held_applyLogged (h : Held s₀ s) : Held s₀ (applyLogged s) := by
  unfold applyLogged
  split
  · exact h
  · exact held_mirrorRecords h

theorem held_applyLog (h : Held s₀ s) : Held s₀ (applyLog s) := held_foldl (fun _ _ => held_applyLogged) h

theorem held_clearMirror (h : Held s₀ s) : Held s₀ (clearMirror s) := h

theorem keeps_execDeltaReceived {whole : Bool} {beat : Nat} {records : List DeltaRec} {final : Bool} (h : Held s₀ s) :
    Keeps s₀ (execDeltaReceived whole beat records final s) :=
  keeps_next (held_ite (held_emit h) h)

theorem keeps_execDeltaApply (h : Held s₀ s) : Keeps s₀ (execDeltaApply s) := keeps_next (held_ite (held_applyLogged h) h)

theorem keeps_execSyncComplete {records : List DeltaRec} (h : Held s₀ s) : Keeps s₀ (execSyncComplete records s) :=
  keeps_next (held_ite (held_setPairState (held_applyLog (held_mirrorRecords (held_clearMirror h)))) h)

theorem held_sendGrant {extraction : Bool} (h : Held s₀ s) : Held s₀ (sendGrant s extraction) := by
  unfold sendGrant
  extract_lets _ t u _ v w
  have ht : Held s₀ t := held_count (held_emit h)
  clear_value t
  have hu : Held s₀ u := held_setPairState ht
  clear_value u
  have hv : Held s₀ v := held_with hu
  clear_value v
  have hw : Held s₀ w := held_setExtract hv
  clear_value w
  refine held_ite ?_ hv
  split
  · exact held_ite (held_with hw) (held_setExtract hv)
  · exact hv

theorem keeps_execDeltaAckReceived {beat : Nat} (h : Held s₀ s) : Keeps s₀ (execDeltaAckReceived beat s) := by
  unfold execDeltaAckReceived
  refine keeps_next ?_
  split
  · extract_lets
    split
    · exact held_ite (held_sendGrant (held_count h)) (held_count h)
    · exact held_count h
  · exact h

theorem held_takeLeash {granted : Bool} (h : Held s₀ s) : Held s₀ (takeLeash s granted) := held_ite (held_count h) h

theorem keeps_execGrant {epoch : BitVec 64} (h : Held s₀ s) : Keeps s₀ (execGrant epoch s) :=
  keeps_next (held_ite (held_takeLeash (held_with h)) h)

theorem keeps_execStartWaitExpiry (h : Held s₀ s) : Keeps s₀ (execStartWaitExpiry s) := keeps_next (held_ite (held_takeLeash h) h)

theorem keeps_execHoldDownExpiry (h : Held s₀ s) : Keeps s₀ (execHoldDownExpiry s) :=
  keeps_next (held_ite (held_getD h (heldSome_transferGo h)) h)

theorem held_settleHost {i : Nat} {e : LedEntry} (h : Held s₀ s) : Held s₀ (settleHost s i e) := by
  unfold settleHost
  extract_lets
  split
  · exact held_count (held_ledMetaSet h)
  · exact h
  · exact h
  · exact held_ite (held_ite (held_ledPut h) h) (held_ite (held_ledPut (held_count h)) (held_hostDone (held_count h)))

theorem held_repeatCommand {w i : Nat} (h : Held s₀ s) : Held s₀ (repeatCommand s w i) := by
  unfold repeatCommand
  extract_lets _ _ _ _ _ _ t
  have ht : Held s₀ t := held_setTcWin (held_draw (held_draw (held_draw h)))
  clear_value t
  exact held_ite (held_with ht) (held_with ht)

theorem held_repeatRequest {issuer i : Nat} {e : LedEntry} (h : Held s₀ s) : Held s₀ (repeatRequest s issuer i e) := held_draw h

theorem held_settleCommand {i : Nat} {e : LedEntry} (h : Held s₀ s) : Held s₀ (settleCommand s i e) := by
  refine held_ite h (held_ite ?_ ?_)
  · split
    · exact held_retireRun (held_ledDone h)
    · exact held_repeatCommand h
    · exact held_repeatRequest h
    · exact h
  · split
    · exact held_retireRun (held_setTcWin h)
    · exact held_retireRun h

theorem held_settleFrame {i : Nat} {e : LedEntry} (h : Held s₀ s) : Held s₀ (settleFrame s i e) := by
  unfold settleFrame
  split
  · exact held_ite h (held_retireRun (held_ledDone (held_dropFrame (held_countAt (held_count h)))))
  · exact h

theorem held_settleUnits {planned : Bool} (h : Held s₀ s) : Held s₀ (settleUnits s planned) := by
  refine held_foldl (fun _ _ h' => ?_) h
  split
  · exact held_settleHost h'
  · exact held_ite h' (held_settleFrame h')
  · exact held_settleCommand h'

theorem held_freeFrames (h : Held s₀ s) : Held s₀ (freeFrames s) := h

theorem held_restartResets (h : Held s₀ s) : Held s₀ (restartResets s) :=
  held_foldl (fun _ _ h' => held_ite (held_revoke (held_setSlice h')) h') h

theorem held_settleDescriptors (h : Held s₀ s) : Held s₀ (settleDescriptors s) := by
  unfold settleDescriptors
  extract_lets _ t
  have ht : Held s₀ t := held_foldl (fun _ _ h' => held_ite h' (held_qpPut h')) h
  exact ht

theorem held_freshAging (h : Held s₀ s) : Held s₀ (freshAging s) := by
  unfold freshAging
  extract_lets _ _ t u
  have ht : Held s₀ t := held_foldl (fun _ _ => held_hpPut) h
  have hu : Held s₀ u := held_foldl (fun _ _ => held_hpPut) ht
  exact hu

theorem held_freshBuckets (h : Held s₀ s) : Held s₀ (freshBuckets s) := h

theorem held_takeoverVectors (h : Held s₀ s) : Held s₀ (takeoverVectors s) := by
  unfold takeoverVectors
  extract_lets _ t
  have ht : Held s₀ t := held_foldl (fun _ _ => held_raiseVector) h
  exact held_foldl (fun _ _ => held_raiseVector) ht

theorem held_armNow (h : Held s₀ s) : Held s₀ (armNow s) := held_ite (held_ttSet h) h

theorem held_takeOver {planned : Bool} (h : Held s₀ s) : Held s₀ (takeOver s planned) := by
  unfold takeOver
  extract_lets t _ _ u v w x y
  have ht : Held s₀ t := held_applyLog h
  clear_value t
  have hu : Held s₀ u := held_with ht
  clear_value u
  have hv : Held s₀ v := held_event hu
  clear_value v
  have hw : Held s₀ w := held_freeFrames (held_settleUnits (held_restartResets hv))
  clear_value w
  have hx : Held s₀ x := held_freshBuckets (held_freshAging (held_armNow (held_settleDescriptors hw)))
  clear_value x
  have hy : Held s₀ y := held_setPairState (held_takeoverVectors hx)
  clear_value y
  exact held_with hy

theorem keeps_execTakeover (h : Held s₀ s) : Keeps s₀ (execTakeover s) := by
  refine keeps_next ?_
  split
  · exact held_takeOver h
  · exact h

theorem keeps_execHardFault {cause : BitVec 8} {detail : BitVec 32} (h : Held s₀ s) :
    Keeps s₀ (execHardFault cause detail s) :=
  keeps_next (held_ite h (held_ite (held_hardFault h) (held_hardFault h)))

theorem keeps_execEyeMarginLow {bit : BitVec 3} (h : Held s₀ s) : Keeps s₀ (execEyeMarginLow bit s) := keeps_next (held_ite h h)

theorem keeps_execPairHfInTakeover (h : Held s₀ s) : Keeps s₀ (execPairHfInTakeover s) := by
  refine keeps_next ?_
  split
  · exact held_ite h (held_takeLeash h)
  · exact h
  · exact h

theorem keeps_execPairLinkDown (h : Held s₀ s) : Keeps s₀ (execPairLinkDown s) :=
  keeps_next (held_ite (held_event h) h)

theorem held_agreeKey {hello : PairHello} (h : Held s₀ s) : Held s₀ (agreeKey s hello) := by
  unfold agreeKey
  extract_lets _ _ _ _ t
  have ht : Held s₀ t.2 := held_signDigest h
  clear_value t
  exact held_ite h (held_emit ht)

theorem keeps_execPairLinkUp {cfg : PartnerCfg} {hello : PairHello} (h : Held s₀ s) :
    Keeps s₀ (execPairLinkUp cfg s hello) :=
  keeps_next (held_ite (held_event (held_agreeKey h)) h)

/-! ### Machine/Panel.lean -/

theorem held_extractionDown (h : Held s₀ s) : Held s₀ (extractionDown s) := by
  unfold extractionDown
  extract_lets t _ u
  have hu : Held s₀ u := held_setExtract h
  clear_value u
  split
  · exact held_setExtract hu
  next v e =>
    have hv := heldSome_powerDownRequest hu v e
    split
    · exact held_railsOff hv
    · exact hv

theorem held_extractionTransfer (h : Held s₀ s) : Held s₀ (extractionTransfer s) := held_setExtract h

theorem held_extractionRequested (h : Held s₀ s) : Held s₀ (extractionRequested s) := by
  unfold extractionRequested
  extract_lets
  split
  · exact held_ite (held_extractionTransfer (held_setExtract h)) (held_setExtract (held_setExtract h))
  · exact held_extractionDown (held_setExtract h)

theorem held_latchShut (h : Held s₀ s) : Held s₀ (latchShut s) := by
  unfold latchShut
  split
  · exact held_getD (held_setExtract h) (heldSome_startUp (held_setExtract h))
  · exact held_setExtract h
  · split
    · exact held_setExtract h
    · exact h
  · exact h

theorem held_setLatch {l : Latch} (h : Held s₀ s) : Held s₀ (setLatch s l) := h

theorem keeps_execLatchOpen (h : Held s₀ s) : Keeps s₀ (execLatchOpen s) := by
  unfold execLatchOpen
  refine keeps_next ?_
  split
  · exact h
  · extract_lets t
    have ht : Held s₀ t := held_count (held_setLatch h)
    split
    · exact held_extractionRequested ht
    · exact ht

theorem keeps_execLatchClose (h : Held s₀ s) : Keeps s₀ (execLatchClose s) := by
  refine keeps_next ?_
  split
  · exact h
  · exact held_setLatch h
  · exact held_latchShut (held_setLatch h)

theorem keeps_execLatchFault (h : Held s₀ s) : Keeps s₀ (execLatchFault s) := by
  unfold execLatchFault
  extract_lets
  refine keeps_next ?_
  split
  · exact h
  · exact held_event (held_count (held_setLatch h))
  · exact held_latchShut (held_event (held_count (held_setLatch h)))

theorem keeps_execShortPress (h : Held s₀ s) : Keeps s₀ (execShortPress s) := by
  unfold execShortPress
  extract_lets t
  have ht : Held s₀ t := held_event (held_count h)
  exact keeps_next (held_ite (held_extractionRequested ht) ht)

theorem keeps_execLongPress (h : Held s₀ s) : Keeps s₀ (execLongPress s) := by
  unfold execLongPress
  extract_lets t
  have ht : Held s₀ t := held_event (held_count h)
  exact keeps_next (held_getD ht (heldSome_transferGo ht))

theorem held_cageLanesUp {c : Nat} (h : Held s₀ s) : Held s₀ (cageLanesUp s c) :=
  held_foldl (fun _ _ h' => held_ite (held_bringUp h') h') h

theorem held_cageLanesDown {c : Nat} {removed : Bool} (h : Held s₀ s) : Held s₀ (cageLanesDown s c removed) := by
  refine held_foldl (fun _ _ h' => ?_) h
  split
  · exact held_ite (held_setLane h') h'
  · exact h'
  · exact h'
  · exact held_setLane h'

theorem held_cageLanesApply {c v : Nat} (h : Held s₀ s) : Held s₀ (cageLanesApply s c v) := by
  unfold cageLanesApply
  extract_lets
  refine held_foldl (fun _ _ h' => ?_) (held_objPut h)
  split
  · exact h'
  · exact h'
  · exact held_ite (held_bringUp h') h'
  · exact held_ite h' (held_setLane h')

theorem held_cageLanesWrite {c v : Nat} (h : Held s₀ s) : Held s₀ (cageLanesWrite s c v) :=
  held_ite (held_cageLanesApply h) (held_cagePut h)

theorem keeps_execCageInserted {cage : BitVec 4} {advertisedMw : Nat} (h : Held s₀ s) :
    Keeps s₀ (execCageInserted cage advertisedMw s) :=
  keeps_next (held_ite (held_releaseModule (held_count (held_setCage (held_cagePut h)))) h)

theorem keeps_execModuleReady {cage : BitVec 4} (h : Held s₀ s) : Keeps s₀ (execModuleReady cage s) :=
  keeps_next (held_ite (held_cageLanesUp (held_setCage h)) h)

theorem keeps_execModuleFault {cage : BitVec 4} (h : Held s₀ s) : Keeps s₀ (execModuleFault cage s) :=
  keeps_next (held_ite (held_cageLanesDown (held_setCage h)) h)

theorem keeps_execCageInitTimeout {cage : BitVec 4} (h : Held s₀ s) : Keeps s₀ (execCageInitTimeout cage s) :=
  keeps_next (held_ite (held_setCage (held_count h)) h)

theorem keeps_execModuleRemoval {cage : BitVec 4} (h : Held s₀ s) : Keeps s₀ (execModuleRemoval cage s) := by
  have hput : Held s₀ _ := held_cagePut (c := cage.toNat) (x := ⟨.empty, 0, none⟩)
    (held_cageLanesDown (c := cage.toNat) (removed := true) (held_setCage (c := cage.toNat) (st := .empty) (held_count
        (idx := 0xC230) (sub := 0x08) h)))
  unfold execModuleRemoval
  refine keeps_next (held_ite h ?_)
  dsimp only
  split
  · exact held_cageLanesApply hput
  · exact hput

theorem keeps_execT1lLinkUp {amplitude : BitVec 1} (h : Held s₀ s) : Keeps s₀ (execT1lLinkUp amplitude s) := keeps_next h

theorem keeps_execT1lLinkDown (h : Held s₀ s) : Keeps s₀ (execT1lLinkDown s) := keeps_next (held_ite (held_count h) h)

/-- Through a name for the answer: below a projection the kernel evaluates the `match` on the place of the copy. -/
theorem held_calibWrite {key v : Nat} (h : Held s₀ s) : Held s₀ (calibWrite s key v).1 := by
  generalize hr : calibWrite s key v = r
  unfold calibWrite at hr
  split at hr
  · subst hr; exact h
  · extract_lets t target seq at hr
    have ht : Held s₀ t := held_objPutKey h
    clear_value t target seq
    split at hr
    · subst hr; exact held_count h
    next a e =>
      extract_lets u at hr
      have hu : Held s₀ u := held_norWrite (held_norEraseRange ht)
      clear_value u
      subst hr
      refine held_count ?_
      exact hu

/-- The reader of a copy is held as an unknown, so that the kernel does not evaluate it. -/
theorem held_calibRead (h : Held s₀ s) : Held s₀ (calibRead s) := by
  obtain ⟨f, hf⟩ := exists_eq (a' := calibRead)
  rw [← hf]
  delta calibRead at hf
  obtain ⟨copy, hcopy⟩ := exists_eq (a' := calibCopy)
  rw [← hcopy] at hf
  subst hf
  beta_reduce
  extract_lets pick rest _ t
  have ht : Held s₀ t := h
  clear_value t pick
  split
  · exact held_foldl (fun _ _ hu => held_objPutKey hu) (held_with ht)
  · exact held_event (held_with ht)

/-! ### Machine/Boot.lean -/

theorem held_setSlot {i st : Nat} (h : Held s₀ s) : Held s₀ (setSlot s i st) := held_writeRecord h

theorem held_noteSlot {i : Nat} (h : Held s₀ s) : Held s₀ (noteSlot s i) := h

theorem held_trySlotsWith {read : State → Nat → Nat ⊕ (List Byte × List Byte)} {l : List Nat} (h : Held s₀ s) :
    Held s₀ (trySlotsWith read s l).1 := by
  induction l generalizing s with
  | nil => exact h
  | cons i l ih =>
    unfold trySlotsWith
    extract_lets t
    have ht : Held s₀ t := held_noteSlot h
    split
    · exact ht
    · exact ih ht

theorem held_trySlots {l : List Nat} (h : Held s₀ s) : Held s₀ (trySlots s l).1 := by
  rw [trySlots_eq]
  exact held_trySlotsWith h

theorem held_rejectTrials {is : List Nat} (h : Held s₀ s) : Held s₀ (rejectTrials s is) := by
  unfold rejectTrials
  extract_lets t
  have ht : Held s₀ t := held_foldl (fun _ _ h' => held_ite (held_setSlot h') h') h
  exact held_ite ht ht

theorem held_startSlot {i : Nat} {m : List Byte} (h : Held s₀ s) : Held s₀ (startSlot s i m) := held_ite (held_setSlot h) h

theorem held_armTrial (h : Held s₀ s) : Held s₀ (armTrial s) := h

theorem held_bootCode {c : Nat} (h : Held s₀ s) : Held s₀ (bootCode s c) := h

theorem held_whelpHalt {code a b : Nat} (h : Held s₀ s) : Held s₀ (whelpHalt s code a b) := held_event h

theorem held_enterStage1 (h : Held s₀ s) : Held s₀ (enterStage1 s) := by
  unfold enterStage1
  extract_lets t
  have ht : Held s₀ t := held_takeCalib (held_calibRead (held_readChain (held_toStage1 h)))
  exact held_getD ht (heldSome_startUp ht)

/-- The readers of the NOR memory are held as unknowns, of which `held_trySlots` says what the proof needs. -/
theorem held_whelp (h : Held s₀ s) : Held s₀ (whelp s) := by
  obtain ⟨f, hf⟩ := exists_eq (a' := whelp)
  rw [← hf]
  delta whelp at hf
  obtain ⟨directory, hdirectory⟩ := exists_eq (a' := norDirectory)
  obtain ⟨try', htry⟩ := exists_eq (a' := trySlots)
  have hslots {t : State} {l : List Nat} (ht : Held s₀ t) : Held s₀ (try' t l).1 := by
    rw [htry]; exact held_trySlots ht
  rw [← hdirectory, ← htry] at hf
  subst hf
  beta_reduce
  extract_lets _ t u v order
  have ht : Held s₀ t := held_with h
  clear_value t
  have hu : Held s₀ u := held_completeBanks ht
  clear_value u
  have hv : Held s₀ v := held_rejectTrials (held_readRecord hu)
  clear_value v order
  refine held_ite (held_whelpHalt ht) (held_ite (held_whelpHalt ht) (held_ite (held_whelpHalt hu) ?_))
  split
  · exact held_whelpHalt hu
  · split
    next w i m image e =>
      have hw := held_startSlot (i := i) (m := m) (held_of_fst (hslots hv) e)
      exact held_enterStage1 (held_ite (held_armTrial (held_with hw)) (held_with hw))
    next w e => exact held_whelpHalt (held_of_fst (hslots hv) e)

theorem held_islandVolatile {powerOn : Bool} (h : Held s₀ s) : Held s₀ (islandVolatile s powerOn) := by
  unfold islandVolatile
  extract_lets t m
  have hm : Held s₀ m := held_mainReset (held_burnEnds h)
  exact hm

theorem keeps_execIslandPowerOnReset (h : Held s₀ s) : Keeps s₀ (execIslandPowerOnReset s) :=
  keeps_next (held_whelp (held_islandVolatile (powerOn := true) h))

theorem held_islandReset (h : Held s₀ s) : Held s₀ (islandReset s) := held_whelp (held_islandVolatile (powerOn := false) h)

theorem keeps_execIslandReset (h : Held s₀ s) : Keeps s₀ (execIslandReset s) := keeps_next (held_islandReset h)

theorem keeps_execIslandSupplyLoss (h : Held s₀ s) : Keeps s₀ (execIslandSupplyLoss s) :=
  keeps_next (held_islandVolatile (powerOn := false) h)

theorem held_mainDomainReset (h : Held s₀ s) : Held s₀ (mainDomainReset s) := held_ite (held_toStage1 (held_mainReset h)) h

theorem keeps_execMainDomainReset (h : Held s₀ s) : Keeps s₀ (execMainDomainReset s) := keeps_next (held_mainDomainReset h)

theorem held_stage1Fails {step code : Nat} (h : Held s₀ s) : Held s₀ (stage1Fails s step code) := held_toBackoff (held_event h)

theorem held_placeImage {a owner : Nat} {image : List Byte} (h : Held s₀ s) : Held s₀ (placeImage s a owner image) :=
  held_lockHbm (held_hbmWrite h)

theorem held_placeFirmware {m image : List Byte} (h : Held s₀ s) : Held s₀ (placeFirmware s m image) :=
  held_placeImage (held_placeImage h)

theorem heldSome_placeTimetable {m image : List Byte} (h : Held s₀ s) : HeldSome s₀ (placeTimetable s m image) := by
  unfold placeTimetable
  extract_lets
  split
  · exact heldSome_none
  · exact heldSome_ite heldSome_none (heldSome_some (held_doVerify (held_ttSet (held_hbmWrite (held_hbmWrite h)))))

theorem held_bootTimetable (h : Held s₀ s) : Held s₀ (bootTimetable s).1 := by
  unfold bootTimetable
  split
  next e =>
    exact held_event (held_of_fst (held_trySlots h) e)
  next e =>
    split
    next e' =>
      exact (heldSome_placeTimetable (held_startSlot (held_of_fst (held_trySlots h) e))) _ e'
    · exact held_event (held_of_fst (held_trySlots h) e)

theorem held_stage1Pass (h : Held s₀ s) : Held s₀ (stage1Pass s) := by
  unfold stage1Pass
  extract_lets
  split
  next e =>
    exact held_stage1Fails (held_of_fst (held_trySlots (held_rejectTrials h)) e)
  next e =>
    extract_lets _ t
    have ht : Held s₀ t.1 := held_bootTimetable (held_placeFirmware (held_startSlot (held_of_fst (held_trySlots
        (held_rejectTrials h)) e)))
    exact held_bootCode (held_count (held_ite (held_armTrial ht) ht))

theorem keeps_execStage1Pass (h : Held s₀ s) : Keeps s₀ (execStage1Pass s) := keeps_next (held_ite (held_stage1Pass h) h)

theorem held_retryBoot (h : Held s₀ s) : Held s₀ (retryBoot s) := by
  unfold retryBoot
  extract_lets longer r _ _ t u
  have hlonger {v : State} (hv : Held s₀ v) : Held s₀ (longer v) := hv
  have hr : Held s₀ r.1 := held_bootTimetable (hlonger (held_count h))
  clear_value r longer
  have ht : Held s₀ t := hr
  clear_value t
  split
  · split
    · exact h
    next v e => exact held_toStage1 (hlonger (held_count (heldSome_startUp h v e)))
  · exact held_ite (held_bootCode (held_ite (held_armTrial ht) ht)) h

theorem keeps_execBackoffExpiry (h : Held s₀ s) : Keeps s₀ (execBackoffExpiry s) := keeps_next (held_retryBoot h)

theorem held_confirm (h : Held s₀ s) : Held s₀ (confirm s) :=
  held_ite (held_ite (held_bootCode (held_writeRecord h)) (held_writeRecord h)) h

theorem keeps_execTrialTimerExpiry (h : Held s₀ s) : Keeps s₀ (execTrialTimerExpiry s) := by
  unfold execTrialTimerExpiry
  refine keeps_next ?_
  split
  · extract_lets _ _ t u _ v
    have ht : Held s₀ t := held_rejectTrials h
    clear_value t
    have hu : Held s₀ u := held_event (held_count ht)
    clear_value u
    have hv : Held s₀ v := held_with hu
    clear_value v
    exact held_ite (held_islandReset hv) (held_mainDomainReset hv)
  · exact h

theorem heldSome_imageTypeWrite {ty : Nat} (h : Held s₀ s) : HeldSome s₀ (imageTypeWrite s ty) := by
  unfold imageTypeWrite
  split
  · exact heldSome_none
  · extract_lets _ _ t
    have ht : Held s₀ t := held_norEraseRange (held_setSlot (held_objPut h))
    clear_value t
    exact heldSome_some (held_with ht)

theorem heldSome_imageData {bs : List Byte} (h : Held s₀ s) : HeldSome s₀ (imageData s bs) := by
  unfold imageData
  split
  · exact heldSome_none
  · exact heldSome_none
  · exact heldSome_ite heldSome_none (heldSome_some h)

/-- The reader of a slot is held as an unknown. -/
theorem heldSome_imageCommit (h : Held s₀ s) : HeldSome s₀ (imageCommit s) := by
  obtain ⟨f, hf⟩ := exists_eq (a' := imageCommit)
  rw [← hf]
  delta imageCommit at hf
  obtain ⟨read, hread⟩ := exists_eq (a' := readSlot)
  rw [← hread] at hf
  subst hf
  beta_reduce
  split
  · exact heldSome_none
  · exact heldSome_none
  · extract_lets result t u _ v w
    have hu : Held s₀ u := held_ite (held_setSlot (held_noteSlot h)) (held_noteSlot h)
    clear_value u
    have hv : Held s₀ v := held_with hu
    clear_value v
    exact heldSome_some (held_ite (held_retryBoot (held_event hv)) (held_event hv))

theorem held_floorAdvance {v : Nat} {t : State} (h : Held s₀ s) (e : floorAdvance s v = .inr t) : Held s₀ t := by
  unfold floorAdvance at e
  extract_lets at e
  split at e
  · cases e
  · split at e
    · cases e
    · cases e; exact h

theorem held_revokeKey {k v : Nat} {t : State} (h : Held s₀ s) (e : revokeKey s k v = .inr t) : Held s₀ t := by
  unfold revokeKey at e
  extract_lets at e
  split at e
  · split at e
    · cases e
    · cases e; exact h
  · split at e
    · cases e; exact h
    · split at e
      · cases e
      · cases e; exact h

theorem keeps_execChallengeSignatureReady (h : Held s₀ s) : Keeps s₀ (execChallengeSignatureReady s) := by
  unfold execChallengeSignatureReady
  refine keeps_next ?_
  split
  · exact h
  · split
    · exact h
    · extract_lets _ t
      have ht : Held s₀ t.2 := held_signDigest h
      clear_value t
      exact ht

theorem heldSome_swapGo (h : Held s₀ s) : HeldSome s₀ (swapGo s) := by
  unfold swapGo
  split
  · exact heldSome_none
  · extract_lets
    split
    · exact heldSome_some (held_ttReason (held_noteSlot h))
    · split
      · exact heldSome_none
      next e =>
        exact heldSome_some (held_ttSet ((heldSome_placeTimetable (held_noteSlot h)) _ e))

theorem keeps_execFaultLogBlockWrite (h : Held s₀ s) : Keeps s₀ (execFaultLogBlockWrite s) := by
  generalize hf : execFaultLogBlockWrite = f
  delta execFaultLogBlockWrite at hf
  subst hf
  refine keeps_next (held_ite h ?_)
  split
  · exact held_with h
  · extract_lets n taken seq t u
    have hu : Held s₀ u := held_norEraseRange (held_norWrite (held_norEraseRange h))
    clear_value u
    exact held_with hu

end Sys2Proof.Machine.Laws
end

section
/-!
SUPPORT. The operations of the beat, the release of ledger entries and the Uhlist server keep the queue and the four
links.
-/

namespace Sys2Proof.Machine.Laws

open Sys2Proof Sys2Proof.Machine

set_option Elab.async false

variable {s₀ s : State}

/-! ### Machine/Beat.lean -/

theorem held_muzzlePort {p : Nat} (h : Held s₀ s) : Held s₀ (muzzlePort s p) := by
  unfold muzzlePort
  split
  · exact h
  · extract_lets _ t
    have ht : Held s₀ t := held_ite (held_emit (held_count h)) h
    exact held_foldl (fun _ _ => held_putBack) (held_ite (held_bufRelease (held_setFifo ht)) (held_setFifo ht))

theorem held_closeDelta {final : Bool} (h : Held s₀ s) : Held s₀ (closeDelta s final) := by
  unfold closeDelta
  extract_lets _ _ t
  have ht : Held s₀ t := held_countN (held_count h)
  exact held_ite (held_emit ht) ht

theorem held_closeFinal {extraction : Bool} (h : Held s₀ s) : Held s₀ (closeFinal s extraction) := held_closeDelta h

theorem keeps_execMuzzle (h : Held s₀ s) : Keeps s₀ (execMuzzle s) := by
  unfold execMuzzle
  refine keeps_next ?_
  split
  · extract_lets t _ u
    have ht : Held s₀ t := held_foldl (fun _ _ => held_muzzlePort) h
    clear_value t
    have hu : Held s₀ u := held_downPorts (held_with ht)
    clear_value u
    split
    · exact held_closeFinal hu
    · exact hu
  · exact h

theorem held_sendDelta (h : Held s₀ s) : Held s₀ (sendDelta s) := by
  unfold sendDelta
  extract_lets _ _ t _ _ _ u
  have ht : Held s₀ t := held_ite (held_count h) h
  clear_value t
  have hu : Held s₀ u := held_emit ht
  clear_value u
  split
  · exact ht
  · exact held_ite (held_ite hu (held_closeDelta ht)) ht

theorem held_sendHeartbeat (h : Held s₀ s) : Held s₀ (sendHeartbeat s) := held_ite (held_emit h) h

theorem held_judgeSilence (h : Held s₀ s) : Held s₀ (judgeSilence s) := by
  unfold judgeSilence
  extract_lets
  refine held_ite h ?_
  split
  · exact held_ite (held_setPairState (held_fence (held_count h))) h
  · exact held_ite (held_takeLeash h) h
  · exact held_ite (held_setPairState (held_count h)) h
  · exact h

theorem held_sampleReady {level : Bool} (h : Held s₀ s) : Held s₀ (sampleReady s level) := h

theorem held_toggleReady (h : Held s₀ s) : Held s₀ (toggleReady s) := held_ite h h

theorem held_liftMuzzle (h : Held s₀ s) : Held s₀ (liftMuzzle s) := held_ite (held_pumpAll h) h

theorem held_startTransfer (h : Held s₀ s) : Held s₀ (startTransfer s) := by
  unfold startTransfer
  split
  · exact held_fence h
  · exact h

theorem held_settleExtraction (h : Held s₀ s) : Held s₀ (settleExtraction s) := held_ite (held_setExtract h) h

theorem held_judgeMismatch (h : Held s₀ s) : Held s₀ (judgeMismatch s) := held_ite (held_hardFault h) h

theorem held_pairBoundary {readyIn : Bool} (h : Held s₀ s) : Held s₀ (pairBoundary s readyIn) :=
  held_settleExtraction (held_startTransfer (held_liftMuzzle (held_toggleReady (held_judgeSilence (held_judgeMismatch
    (held_sendHeartbeat (held_sampleReady h)))))))

theorem held_moveItem {to_ : Option Nat} {w : Work} (h : Held s₀ s) : Held s₀ (moveItem s to_ w) := by
  unfold moveItem
  split
  · exact held_dropNoCluster h
  · exact held_hostLost h
  · split
    · extract_lets t
      have ht : Held s₀ t := by
        dsimp only [t]
        split
        · split
          · exact held_itemPut h
          · exact h
        · exact h
      exact held_enterCluster (held_count ht)
    · exact held_itemRemove (held_count h)
  · exact held_ite (held_enterCluster (held_ledMetaSet h)) (held_hostLost h)

theorem held_moveInbox {c : Nat} (h : Held s₀ s) : Held s₀ (moveInbox s c) :=
  held_ite (held_ite h (held_foldl (fun _ _ => held_moveItem) (held_setCluster h))) h

theorem held_loseHeld {c : Nat} (h : Held s₀ s) : Held s₀ (loseHeld s c) := by
  unfold loseHeld
  extract_lets _ t u
  have ht : Held s₀ t := held_foldl (fun _ _ => held_setEngine) h
  have hu : Held s₀ u := held_foldl (fun _ _ => held_workLost) ht
  refine held_foldl ?_ hu
  intro _ _ h'
  extract_lets
  split
  · exact h'
  · exact held_ite h' (held_workLost (held_setThread h'))

theorem held_rotation {c : Nat} (h : Held s₀ s) : Held s₀ (Machine.rotation s c) := by
  unfold Machine.rotation
  extract_lets _ _ t
  have ht : Held s₀ t := held_foldl (fun _ _ => held_setEngine) h
  exact held_ite ht (held_pump (held_setCluster ht))

theorem held_clustersBoundary (h : Held s₀ s) : Held s₀ (clustersBoundary s) := by
  unfold clustersBoundary
  extract_lets _ _ _ t
  have ht : Held s₀ t := held_foldl (fun _ _ => held_rotation) h
  exact held_foldl (fun _ _ => held_moveInbox) (held_foldl (fun _ _ => held_loseHeld) ht)

theorem held_takeSnapshot (h : Held s₀ s) : Held s₀ (takeSnapshot s) := h

theorem held_sheepdogBoundary (h : Held s₀ s) : Held s₀ (sheepdogBoundary s) :=
  held_foldl (fun _ _ => held_sampleQueue) (held_fillPolicers (held_clearDeficits (held_foldl (fun _ _ h' =>
    held_drainEnd h') (held_portsDown h))))

theorem held_countWaits (h : Held s₀ s) : Held s₀ (countWaits s) := by
  unfold countWaits
  extract_lets t
  have ht : Held s₀ t := held_foldl (fun _ _ => held_countAt) h
  exact held_ite (held_count ht) ht

theorem held_countFec {x : BitVec 5 × Nat × Nat} (h : Held s₀ s) : Held s₀ (countFec s x) := held_countN (held_countN h)

theorem held_objectFault {k : Nat} (h : Held s₀ s) : Held s₀ (objectFault s k) := by
  unfold objectFault
  split
  · exact h
  · exact held_ite (held_eventFull h) h

theorem held_loadCode {x : BitVec 4 × BitVec 16 × BitVec 32} (h : Held s₀ s) : Held s₀ (loadCode s x) :=
  held_ite (held_setCluster h) h

theorem held_correctable {isl n : Nat} (h : Held s₀ s) : Held s₀ (correctable s isl n) := held_ite h (held_ite (held_event h) h)

theorem held_correctables {news : List (BitVec 6 × BitVec 32)} (h : Held s₀ s) : Held s₀ (correctables s news) := by
  unfold correctables
  extract_lets t
  have ht : Held s₀ t := held_foldl (fun _ _ => held_correctable) h
  exact held_foldl (fun _ _ => held_correctable) ht

theorem held_heedNews {n : BeatNews} (h : Held s₀ s) : Held s₀ (heedNews s n) := by
  unfold heedNews
  extract_lets t
  have ht : Held s₀ t := held_foldl (fun _ _ => held_loadCode) (held_foldl (fun _ _ => held_objectFault)
      (held_foldl (fun _ _ => held_countFec) h))
  exact held_correctables ht

theorem held_slotZero {beat islBase : Nat} {holdover : Bool} (h : Held s₀ s) :
    Held s₀ { s with clk := ⟨beat, 0, islBase, holdover⟩ } := h

theorem held_nextBeat (h : Held s₀ s) : Held s₀ (nextBeat s) := by
  have hclk : Held s₀ { s with clk := { s.clk with beat := s.clk.beat + 1, slot := 0, islBase := s.clk.islBase + 4096 } } :=
    held_slotZero h
  exact hclk

theorem held_timetableBoundary {upset : Option (Bool × BitVec 1024)} (h : Held s₀ s) :
    Held s₀ (timetableBoundary s upset) := by
  unfold timetableBoundary
  extract_lets t
  have ht : Held s₀ t := held_closeOverlap (held_countOverlap (held_upsetHeader h))
  exact held_checkHeaders (held_endDrainTt (held_ite (held_makeCurrent ht) ht))

theorem held_beatBoundary {readyIn : Bool} {upset : Option (Bool × BitVec 1024)} {news : BeatNews} (h : Held s₀ s) :
    Held s₀ (beatBoundary s readyIn upset news) :=
  held_takeSnapshot (held_settlePlaces (held_sweepBoundary (held_sweepBoundary (held_kenPump (held_clustersBoundary
    (held_sheepdogBoundary (held_downPorts (held_timetableBoundary (held_applyParams (held_creditNodes (held_pairBoundary
    (held_nextBeat (held_sendDelta (held_countWaits (held_startPass (held_startPass (held_endSlot (held_landBy (held_heedNews
    h)))))))))))))))))))

/-! ### Machine/UhlOps.lean -/

theorem held_sessionPut {x : Session} (h : Held s₀ s) : Held s₀ (sessionPut s x) := h

theorem held_sessionDrop {transport num : Nat} (h : Held s₀ s) : Held s₀ (sessionDrop s transport num) := by
  unfold sessionDrop
  extract_lets t
  have ht : Held s₀ t := by
    dsimp only [t]
    split
    · exact held_boxLeaves h
    · exact h
  exact ht

theorem held_settleSession {transport num : Nat} (h : Held s₀ s) : Held s₀ (settleSession s transport num) := by
  unfold settleSession
  split
  · exact held_ite (held_sessionDrop h) h
  · exact h

theorem held_countUhl {transport sub : Nat} (h : Held s₀ s) : Held s₀ (countUhl s transport sub) := held_count h

theorem held_inbandReply {peer : Nat × Nat} {bs : List Byte} (h : Held s₀ s) : Held s₀ (inbandReply s peer bs) :=
  held_admitOne h

theorem held_sendReply {transport op session seq err : Nat} {body : List Byte} {key : Option (BitVec 256)}
    {peer : Nat × Nat} (h : Held s₀ s) : Held s₀ (sendReply s transport op session seq err body key peer) :=
  held_ite (held_inbandReply (held_countUhl h)) (held_ite (held_emit (held_countUhl h)) (held_boxReply (held_emit
    (held_countUhl h))))

theorem held_sessionReply {x : Session} {seq op : Nat} {request : List Byte} {err : Nat} {body : List Byte}
    (h : Held s₀ s) : Held s₀ (sessionReply s x seq op request err body) :=
  held_sendReply (held_sessionPut h)

theorem held_holdReply {x : Session} {seq op : Nat} {request : List Byte} (h : Held s₀ s) :
    Held s₀ (holdReply s x seq op request) :=
  held_sessionPut h

/-! ### Machine/Release.lean -/

theorem held_pullFrame {i q : Nat} (h : Held s₀ s) : Held s₀ (pullFrame s i q) :=
  held_dropFrame (held_foldl (fun _ _ => held_bufRelease) (held_setFifo (held_ite (held_emit h) h)))

theorem held_checkHalves {i : Nat} {halves : BitVec 4} (h : Held s₀ s) : Held s₀ (checkHalves s i halves) := by
  unfold checkHalves
  split
  · exact h
  · extract_lets _ _ t
    have ht : Held s₀ t := held_event (held_count h)
    exact held_ite (held_ite (held_hardFault ht) ht) (held_ite (held_ite h (held_ledPut (held_event (held_count h)))) (held_ite
        (held_event (held_count h)) h))

theorem held_forgetCommand {w : Nat} (h : Held s₀ s) : Held s₀ (forgetCommand s w) := h

theorem held_dropCommand {w i : Nat} (h : Held s₀ s) : Held s₀ (dropCommand s w i) := by
  unfold dropCommand
  split
  · exact h
  · exact held_ite (held_setTcWin (held_forgetCommand h)) h

theorem held_forgetRequest {i : Nat} (h : Held s₀ s) : Held s₀ (forgetRequest s i) := h

theorem held_dropRequest {i : Nat} (h : Held s₀ s) : Held s₀ (dropRequest s i) := by
  unfold dropRequest
  split
  · exact h
  · exact held_kenComplete (held_forgetRequest h)

theorem held_forgetWrite {i : Nat} (h : Held s₀ s) : Held s₀ (forgetWrite s i) := h

theorem held_forgetReply {transport : Nat} {e : LedEntry} (h : Held s₀ s) : Held s₀ (forgetReply s transport e) := by
  unfold forgetReply
  split
  · exact h
  · exact held_sessionPut h

theorem held_dropWrite {i transport : Nat} {e : LedEntry} (h : Held s₀ s) : Held s₀ (dropWrite s i transport e) := by
  unfold dropWrite
  extract_lets
  split
  · exact held_forgetWrite h
  · exact held_sessionPut (held_forgetWrite h)

theorem held_quarantineDone {i : Nat} {e : LedEntry} (h : Held s₀ s) : Held s₀ (quarantineDone s i e) := by
  unfold quarantineDone
  split
  · exact held_hostFix (held_takeWork h)
  · exact held_ledFix (held_pullFrame h)
  · exact held_ledFix (held_dropCommand h)
  · exact held_ledFix (held_dropRequest h)
  · exact held_ledFix (held_dropWrite h)
  · exact held_ledFix h

theorem held_releaseHost {i : Nat} {e : LedEntry} (h : Held s₀ s) : Held s₀ (releaseHost s i e) := by
  unfold releaseHost
  split
  · exact held_ite (held_ite (held_ledRetire (held_writeCompletion h)) (held_writeCompletion h)) h
  · exact h

theorem held_releaseTable {w i : Nat} {e : LedEntry} (h : Held s₀ s) : Held s₀ (releaseTable s w i e) := by
  unfold releaseTable
  split
  · exact held_tcRelease h
  · exact held_ite (held_ledRetire (held_setTcWin h)) h

theorem held_releaseKennel {issuer i : Nat} (h : Held s₀ s) : Held s₀ (releaseKennel s issuer i) := by
  unfold releaseKennel
  split
  · split
    · exact held_deliverResult h
    · exact held_ledRetire h
  · extract_lets _ t
    have ht : Held s₀ t := by
      dsimp only [t]
      split
      · exact held_emit h
      · exact h
    exact held_ledRetire ht

theorem held_releaseReply {transport i : Nat} {e : LedEntry} (h : Held s₀ s) : Held s₀ (releaseReply s transport i e) := by
  unfold releaseReply
  split
  · extract_lets
    split
    · exact held_ledRetire h
    · split
      · exact held_settleSession (held_sendReply (held_sessionPut (held_ledRetire h)))
      · exact held_settleSession (held_ledRetire h)
  · exact h

theorem keeps_execLedgerRelease {queue : OrdQ} {halves : BitVec 4} (h : Held s₀ s) :
    Keeps s₀ (execLedgerRelease queue halves s) := by
  unfold execLedgerRelease
  refine keeps_next ?_
  split
  · exact h
  · extract_lets _ t
    have ht : Held s₀ t := by
      dsimp only [t]
      split
      · exact held_ite (held_quarantineDone (held_checkHalves h)) (held_checkHalves h)
      · exact held_checkHalves h
    split
    · exact ht
    · refine held_ite ht ?_
      split
      · exact held_releaseHost ht
      · exact held_releaseTable ht
      · exact held_releaseKennel ht
      · exact held_releaseReply ht
      · exact held_ledRetire ht

theorem keeps_execMemoryUncorrectable {entry : BitVec 18} (h : Held s₀ s) : Keeps s₀ (execMemoryUncorrectable entry s) := by
  unfold execMemoryUncorrectable
  extract_lets
  refine keeps_next ?_
  split
  · exact h
  · split
    · exact h
    · exact h
    · split
      · exact held_hostDone (held_takeWork h)
      · exact held_retireRun (held_ledDone (held_pullFrame (held_event (held_count h))))
      · exact h

/-! ### Machine/ObjRead.lean -/

theorem held_drawTemp (h : Held s₀ s) : Held s₀ (drawTemp s).2 := held_draw h

theorem held_readTemp {sub el : Nat} (h : Held s₀ s) : Held s₀ (readTemp s sub el).2 := by
  refine held_ite_snd (held_ite_snd (held_drawTemp h) h) ?_
  split
  · exact h
  · exact held_drawTemp h

theorem held_drawBelow {n : Nat} (h : Held s₀ s) : Held s₀ (drawBelow s n).2 := held_draw h

theorem held_readIsland {idx sub el : Nat} (h : Held s₀ s) : Held s₀ (readIsland s idx sub el).2 := by
  unfold readIsland
  split
  · exact h
  · exact h
  · exact h
  · exact h
  · exact held_readTemp h
  · exact h
  · exact h
  · exact h
  · exact h
  · exact h
  · exact held_drawBelow h
  · exact h
  · exact h
  · exact h
  · exact held_drawBelow h
  · extract_lets t
    have ht : Held s₀ t.2 := held_drawBelow h
    clear_value t
    exact ht
  · exact h
  · exact h
  · exact h
  · exact h

theorem held_readReport {idx sub el : Nat} (h : Held s₀ s) : Held s₀ (readReport s idx sub el).2 :=
  held_ite_snd h (held_ite_snd (held_readIsland h) (held_ite_snd h (held_ite_snd h (held_ite_snd h (held_ite_snd h
    (held_ite_snd h (held_ite_snd h (held_ite_snd h (held_ite_snd h (held_ite_snd h (held_ite_snd h (held_ite_snd h
    (held_ite_snd h (held_ite_snd h (held_ite_snd h (held_ite_snd h (held_ite_snd h (held_ite_snd h (held_ite_snd h
    h)))))))))))))))))))

theorem held_objRead {idx sub el : Nat} (h : Held s₀ s) : Held s₀ (objRead s idx sub el).2 := by
  unfold objRead
  split
  · exact h
  · exact held_ite_snd (held_readReport h) (held_ite_snd h (held_ite_snd (held_readIsland h) (held_ite_snd h (held_ite_snd h
        (held_ite_snd h h)))))

theorem held_objBytes {d : ObjDesc} {idx sub el : Nat} (h : Held s₀ s) : Held s₀ (objBytes s d idx sub el).2 := by
  unfold objBytes
  split
  · exact h
  · exact held_objRead h

theorem held_objsBytes {d : ObjDesc} {idx sub : Nat} {l : List Nat} (h : Held s₀ s) : Held s₀ (objsBytes s d idx sub l).2 := by
  induction l generalizing s with
  | nil => exact h
  | cons e l ih => exact ih (held_objBytes h)

/-! ### Machine/ObjWrite.lean -/

theorem held_orBusy {t : Option State} (h : Held s₀ s) (ht : HeldSome s₀ t) : Held s₀ (orBusy s t).1 := by
  cases t with
  | none => exact h
  | some t => exact ht t rfl

theorem held_orError {r : Nat ⊕ State} (h : Held s₀ s) (hr : ∀ t, r = .inr t → Held s₀ t) : Held s₀ (orError s r).1 := by
  cases r with
  | inl e => exact h
  | inr t => exact hr t rfl

theorem held_freezeWrite {v : Nat} (h : Held s₀ s) : Held s₀ (freezeWrite s v) := by
  unfold freezeWrite
  extract_lets t
  have ht : Held s₀ t := held_objPut h
  clear_value t
  exact held_ite ht (held_ite ht ht)

theorem held_islandWrite {idx sub el v : Nat} (h : Held s₀ s) : Held s₀ (islandWrite s idx sub el v).1 := by
  unfold islandWrite
  refine held_ite_fst (held_calibWrite h) ?_
  split
  · exact h
  · exact held_ite (held_confirm h) h
  · exact held_writeRecord (held_objPut h)
  · exact held_orBusy h (heldSome_imageTypeWrite h)
  · exact held_ite_fst (held_orBusy h (heldSome_imageCommit h)) h
  · refine held_orError h (fun t e => ?_)
    cases hf : floorAdvance s v with
    | inl x => rw [hf] at e; cases e
    | inr u => rw [hf] at e; cases e; exact held_objPut (held_floorAdvance h hf)
  · exact held_orError h (fun _ e => held_revokeKey h e)
  · exact held_orBusy h (heldSome_mainPowerWrite h)
  · exact held_islandPowerWrite h
  · exact held_cageLanesWrite h
  · exact held_freezeWrite h
  · exact held_dapWrite h
  · exact held_ite (held_faultErase h) h
  · exact held_objPut h

theorem held_cmdWrite {sl v : Nat} (h : Held s₀ s) : Held s₀ (cmdWrite s sl v).1 := held_sliceCmd h

theorem held_migWrite {key : BitVec 256} {addr : List Byte} {sl v : Nat} (h : Held s₀ s) :
    Held s₀ (migWrite s key addr sl v).1 := by
  unfold migWrite
  split
  · exact h
  · extract_lets
    split
    · exact h
    · split
      · exact h
      next e => exact held_coreKeyOp h (fun _ ht => held_slotWrite ht) e

theorem held_coresWrite {key : BitVec 256} {addr : List Byte} {idx sub el v : Nat} (h : Held s₀ s) :
    Held s₀ (coresWrite s key addr idx sub el v).1 := by
  unfold coresWrite
  split
  · exact held_orBusy h (heldSome_pairEnableWrite h)
  · exact held_ite_fst (held_orBusy h (heldSome_transferGo h)) h
  · exact held_ite (held_hardFault h) h
  · exact held_objPut h
  · exact held_ite_fst (held_orBusy h (heldSome_swapGo h)) h
  · exact held_cmdWrite h
  · exact held_migWrite h
  · exact held_coreWrite h

theorem held_objEffect {key : BitVec 256} {addr : List Byte} {k v : Nat} (h : Held s₀ s) :
    Held s₀ (objEffect s key addr k v).1 :=
  held_ite_fst (held_coresWrite h) (held_islandWrite h)

theorem held_objEffects {key : BitVec 256} {addr : List Byte} {t : State} {l : List (Nat × Nat)} (h : Held s₀ s)
    (ht : Held s₀ t) : Held s₀ (objEffects s key addr t l).1 := by
  induction l generalizing t with
  | nil => exact ht
  | cons x l ih => exact held_ite_fst (ih (held_objEffect ht)) (held_objEffect h)

theorem held_recordWrite {vals : List (Nat × Nat)} (h : Held s₀ s) : Held s₀ (recordWrite s vals) :=
  held_foldl (fun _ _ => held_record) h

theorem held_liftQuarantine {vals : List (Nat × Nat)} (h : Held s₀ s) : Held s₀ (liftQuarantine s vals) := h

/-! ### Machine/Uhlist.lean -/

theorem held_waiting {n : Nat} {r : Option (List Byte) × (Nat × Nat) × State} (h : Held s₀ s) (e : waiting s n = some r) :
    Held s₀ r.2.2 := by
  unfold waiting at e
  split at e
  · split at e
    · cases e; exact h
    · cases e
  · split at e
    · cases e
    · split at e
      · extract_lets at e
        split at e
        · cases e; exact h
        · cases e
      · split at e
        · split at e
          · cases e
          · cases e; exact h
        · cases e

theorem held_discardPdu {t : Nat} (h : Held s₀ s) : Held s₀ (discardPdu s t) := held_ite (held_boxReply h) h

theorem held_malformed {t : Nat} (h : Held s₀ s) : Held s₀ (malformed s t) := held_discardPdu (held_countUhl (held_countUhl h))

theorem held_noSession {op : Nat} {p : Pdu} (h : Held s₀ s) : Held s₀ (noSession s op p) :=
  held_ite (held_ite (held_sendReply (held_countUhl h)) (held_sendReply (held_draw (held_countUhl h)))) (held_countUhl h)

theorem held_openSession {p : Pdu} {peer : Nat × Nat} (h : Held s₀ s) : Held s₀ (openSession s p peer) := by
  unfold openSession
  extract_lets _ _ _ _ _ _ _ _ t
  have ht : Held s₀ t.2 := held_signDigest h
  clear_value t
  refine held_ite (held_sendReply h) (held_ite (held_sendReply (held_countUhl h)) (held_ite (held_sendReply (held_countUhl h))
      ?_))
  split
  · exact held_sendReply (held_countUhl h)
  · exact held_sendReply ht

theorem held_proveSession {x : Session} {p : Pdu} (h : Held s₀ s) : Held s₀ (proveSession s x p) :=
  held_ite (held_sessionReply h) (held_sessionDrop (held_sendReply (held_countUhl h)))

theorem held_answer {t num op : Nat} {p : Pdu} {err : Nat} {body : List Byte} (h : Held s₀ s) :
    Held s₀ (answer s t num op p err body) := by
  unfold answer
  split
  · exact held_sessionReply h
  · exact h

theorem held_holdWrite {x : Session} {op : Nat} {p : Pdu} (h : Held s₀ s) : Held s₀ (holdWrite s x op p) := by
  unfold holdWrite
  split
  · exact held_holdReply h
  · exact h

theorem held_readValues {d : ObjDesc} {a : ObjAddr} {es : List Nat} (h : Held s₀ s) : Held s₀ (readValues s d a es).2 :=
  held_ite_snd h (held_objsBytes h)

theorem held_serveRead {x : Session} {p : Pdu} (h : Held s₀ s) : Held s₀ (serveRead s x p).2 := by
  unfold serveRead
  split
  · exact h
  · split
    · exact h
    · extract_lets
      split
      · exact h
      · exact held_ite_snd h (held_readValues h)

theorem held_serveBlockRead {x : Session} {p : Pdu} (h : Held s₀ s) : Held s₀ (serveBlockRead s x p).2 := by
  unfold serveBlockRead
  split
  · exact h
  · refine held_ite_snd h ?_
    split
    · exact h
    · exact held_ite_snd h (held_ite_snd h (held_readValues h))

theorem held_acceptWrite {x : Session} {seq : Nat} (h : Held s₀ s) : Held s₀ (acceptWrite s x seq).2 := held_ledAccept h

theorem held_writeNow {x : Session} {op : Nat} {p : Pdu} {core : Bool} {eff : State → State × Nat} (h : Held s₀ s)
    (heff : ∀ t, Held s₀ t → Held s₀ (eff t).1) : Held s₀ (writeNow s x op p core eff) := by
  unfold writeNow
  extract_lets _ _ u
  have hu : Held s₀ u.1 := heff _ (held_ledRun (held_acceptWrite h))
  exact held_ite (held_answer h) (held_ite (held_ite (held_answer (heff _ h)) (held_ite (held_holdWrite (held_ledDone hu))
      (held_answer (held_ledDone hu)))) (held_answer (heff _ h)))

theorem held_writeAtBoundary {x : Session} {op : Nat} {p : Pdu} {idx sub : Nat} {vals : List (Nat × Nat)} (h : Held s₀ s) :
    Held s₀ (writeAtBoundary s x op p idx sub vals) := by
  unfold writeAtBoundary
  split
  · exact held_answer (held_count h)
  · split
    · exact held_answer h
    · extract_lets r ps c t _ _ u
      have ht : Held s₀ t := held_liftQuarantine (held_recordWrite (held_acceptWrite h))
      have hu : Held s₀ u := ht
      exact held_holdWrite hu

theorem held_writePassed {x : Session} {op : Nat} {p : Pdu} {a : ObjAddr} {vals : List (Nat × Nat)} (h : Held s₀ s) :
    Held s₀ (writePassed s x op p a vals) :=
  held_ite (held_writeAtBoundary h) (held_writeNow h (fun _ h' => held_ite_fst (held_liftQuarantine (held_recordWrite
    (held_objEffects h' h'))) (held_objEffects h' h')))

theorem held_serveWrite {x : Session} {p : Pdu} (h : Held s₀ s) : Held s₀ (serveWrite s x p) := by
  unfold serveWrite
  extract_lets
  split
  · exact held_answer h
  · refine held_ite (held_answer h) ?_
    split
    · exact held_answer h
    · exact held_writePassed h

theorem held_segmentEffect {off : Nat} {data : List Byte} (h : Held s₀ s) : Held s₀ (segmentEffect off data s).1 :=
  held_orBusy (held_ite h h) (heldSome_imageData (held_ite h h))

theorem held_noteStream {x : Session} {key n : Nat} (h : Held s₀ s) : Held s₀ (noteStream s x key n) := by
  unfold noteStream
  split
  · exact held_sessionPut h
  · exact h

theorem held_serveBlockWrite {x : Session} {p : Pdu} (h : Held s₀ s) : Held s₀ (serveBlockWrite s x p) := by
  unfold serveBlockWrite
  extract_lets
  split
  · exact held_answer h
  · refine held_ite (held_answer h) ?_
    split
    · exact held_answer h
    · refine held_ite (held_ite (held_answer h) (held_ite (held_answer h) (held_ite (held_answer h) (held_writeNow h (fun _ h'
          => held_ite_fst (held_noteStream (held_segmentEffect h')) h'))))) (held_ite ?_ (held_ite (held_answer h) (held_ite
          (held_answer h) (held_answer h))))
      split
      · exact held_answer h
      · exact held_writePassed h

theorem held_sendEvent {x : Session} {seq : Nat} {rs : List EvRec} (h : Held s₀ s) : Held s₀ (sendEvent s x seq rs) := by
  unfold sendEvent
  extract_lets _ _ t
  have ht : Held s₀ t := held_countUhl (held_countUhl h)
  exact held_ite (held_inbandReply ht) (held_ite (held_emit ht) (held_boxEvent (held_emit ht)))

theorem held_sendNextEvent {x : Session} (h : Held s₀ s) : Held s₀ (sendNextEvent s x) :=
  held_ite h (held_sendEvent (held_sessionPut h))

theorem held_markSent {x : Session} {seq : Nat} (h : Held s₀ s) : Held s₀ (markSent s x seq) := by
  unfold markSent
  split
  · exact held_sessionPut h
  · exact h

theorem held_resendEvents {x : Session} {l : List (Nat × Nat × Nat)} {es : List EvRec} (h : Held s₀ s) :
    Held s₀ (resendEvents s x l es) := by
  induction l generalizing s x es with
  | nil => exact h
  | cons r l ih => exact held_ite h (held_ite (ih (held_markSent (held_sendEvent h))) (ih h))

theorem held_queueMissed {t num : Nat} (h : Held s₀ s) : Held s₀ (queueMissed s t num) := by
  unfold queueMissed
  split
  · exact h
  · exact held_ite h (held_sessionPut h)

theorem held_ackEvents {x : Session} {n : Nat} (h : Held s₀ s) : Held s₀ (ackEvents s x n) :=
  held_queueMissed (held_sessionPut h)

theorem held_closeSession {x : Session} {p : Pdu} (h : Held s₀ s) : Held s₀ (closeSession s x p) := by
  unfold closeSession
  extract_lets
  split
  · exact held_settleSession (held_sessionPut (held_answer h))
  · exact held_answer h

theorem held_serveRequest {x : Session} {op : Nat} {p : Pdu} (h : Held s₀ s) : Held s₀ (serveRequest s x op p) := by
  unfold serveRequest
  extract_lets
  split
  · exact held_ite (held_closeSession h) (held_answer h)
  · exact held_answer h
  · split
    · exact held_answer h
    · refine held_ite (held_answer h) ?_
      split
      · exact held_answer h
      · exact held_ite (held_answer h) (held_answer h)
  · exact held_answer (held_serveRead h)
  · exact held_serveWrite h
  · exact held_answer (held_serveBlockRead h)
  · exact held_serveBlockWrite h
  · exact held_ite (held_answer (held_sessionPut h)) (held_answer h)
  · exact held_ite (held_answer (held_ackEvents h)) (held_answer h)
  · exact held_answer h

theorem held_pumpSession {t num n : Nat} (h : Held s₀ s) : Held s₀ (pumpSession s t num n) := by
  induction n generalizing s with
  | zero => exact h
  | succ n ih =>
    unfold pumpSession
    split
    · exact h
    · split
      · exact h
      · split
        · exact h
        · exact ih (held_serveRequest (held_sessionPut h))

theorem held_pumpSessions (h : Held s₀ s) : Held s₀ (pumpSessions s) := held_foldl (fun _ _ => held_pumpSession) h

theorem held_duplicate {x : Session} {p : Pdu} {peer : Nat × Nat} (h : Held s₀ s) : Held s₀ (duplicate s x p peer) := by
  unfold duplicate
  extract_lets
  split
  · split
    · exact held_ite (held_sendReply (held_countUhl h)) (held_discardPdu (held_countUhl h))
    · exact held_discardPdu (held_countUhl h)
  · exact held_discardPdu (held_countUhl h)

theorem held_windowed {x : Session} {op : Nat} {p : Pdu} {peer : Nat × Nat} (h : Held s₀ s) :
    Held s₀ (windowed s x op p peer) :=
  held_ite (held_ite (held_discardPdu h) (held_pumpSession (held_sessionPut h))) (held_ite (held_duplicate h) (held_sendReply
    (held_countUhl h)))

theorem held_inSession {op : Nat} {p : Pdu} {peer : Nat × Nat} (h : Held s₀ s) : Held s₀ (inSession s op p peer) := by
  unfold inSession
  split
  · exact held_noSession h
  · exact held_ite (held_discardPdu (held_countUhl h)) (held_ite (held_ite (held_proveSession h) (held_noSession h)) (held_ite
        (held_noSession h) (held_windowed (held_sessionPut h))))

theorem held_takePdu {op : Nat} {p : Pdu} (h : Held s₀ s) : Held s₀ (takePdu s op p) := by
  unfold takePdu
  split
  · exact h
  next bs peer t e =>
    have ht : Held s₀ t := held_waiting h e
    exact held_ite h (held_ite (held_malformed ht) (held_ite (held_ite (held_openSession (held_countUhl ht))
      (held_noSession (held_countUhl ht))) (held_inSession (held_countUhl ht))))

theorem keeps_execUhOpen {pdu : Pdu} (h : Held s₀ s) : Keeps s₀ (execUhOpen pdu s) := keeps_next (held_takePdu h)

theorem keeps_execUhProve {pdu : Pdu} (h : Held s₀ s) : Keeps s₀ (execUhProve pdu s) := keeps_next (held_takePdu h)

theorem keeps_execUhClose {pdu : Pdu} (h : Held s₀ s) : Keeps s₀ (execUhClose pdu s) := keeps_next (held_takePdu h)

theorem keeps_execKeepalive {pdu : Pdu} (h : Held s₀ s) : Keeps s₀ (execKeepalive pdu s) := keeps_next (held_takePdu h)

theorem keeps_execUhDescribe {pdu : Pdu} (h : Held s₀ s) : Keeps s₀ (execUhDescribe pdu s) := keeps_next (held_takePdu h)

theorem keeps_execUhRead {pdu : Pdu} (h : Held s₀ s) : Keeps s₀ (execUhRead pdu s) := keeps_next (held_takePdu h)

theorem keeps_execUhWrite {pdu : Pdu} (h : Held s₀ s) : Keeps s₀ (execUhWrite pdu s) := keeps_next (held_takePdu h)

theorem keeps_execBlockRead {pdu : Pdu} (h : Held s₀ s) : Keeps s₀ (execBlockRead pdu s) := keeps_next (held_takePdu h)

theorem keeps_execBlockWrite {pdu : Pdu} (h : Held s₀ s) : Keeps s₀ (execBlockWrite pdu s) := keeps_next (held_takePdu h)

theorem keeps_execSubscribe {pdu : Pdu} (h : Held s₀ s) : Keeps s₀ (execSubscribe pdu s) := keeps_next (held_takePdu h)

theorem keeps_execEventAck {pdu : Pdu} (h : Held s₀ s) : Keeps s₀ (execEventAck pdu s) := keeps_next (held_takePdu h)

theorem keeps_execReservedOp {op : BitVec 6} {pdu : Pdu} (h : Held s₀ s) : Keeps s₀ (execReservedOp op pdu s) :=
  keeps_next (held_ite (held_takePdu h) h)

theorem keeps_execMalformedPdu {transport : Nat} {link : BitVec 2} (h : Held s₀ s) :
    Keeps s₀ (execMalformedPdu transport link s) := by
  unfold execMalformedPdu
  extract_lets
  refine keeps_next ?_
  split
  · exact h
  next e => exact held_malformed (held_waiting h e)
  next e => exact held_ite (held_malformed (held_waiting h e)) h

theorem keeps_execProveTimeout {transport : Nat} {session : BitVec 16} (h : Held s₀ s) :
    Keeps s₀ (execProveTimeout transport session s) := by
  refine keeps_next ?_
  split
  · exact held_ite h (held_sessionDrop h)
  · exact h

theorem keeps_execSessionIdleExpiry {transport : Nat} {session : BitVec 16} (h : Held s₀ s) :
    Keeps s₀ (execSessionIdleExpiry transport session s) := by
  refine keeps_next ?_
  split
  · exact held_ite (held_sessionDrop h) h
  · exact h

theorem keeps_execUhEvent {transport : Nat} {session : BitVec 16} (h : Held s₀ s) :
    Keeps s₀ (execUhEvent transport session s) := by
  refine keeps_next ?_
  split
  · exact held_sendNextEvent h
  · exact h

theorem keeps_execEventRetryExpiry {transport : Nat} {session : BitVec 16} (h : Held s₀ s) :
    Keeps s₀ (execEventRetryExpiry transport session s) := by
  refine keeps_next ?_
  split
  · exact held_ite (held_resendEvents h) h
  · exact h

theorem held_mailboxGo {k : Nat} (h : Held s₀ s) : Held s₀ (mailboxGo s k) := held_setBox h

theorem keeps_execMbGo {link : BitVec 2} (h : Held s₀ s) : Keeps s₀ (execMbGo link s) :=
  keeps_next (held_barGate h (fun _ => held_mailboxGo))

theorem keeps_execEventReadyClear {link : BitVec 2} (h : Held s₀ s) : Keeps s₀ (execEventReadyClear link s) :=
  keeps_next (held_barGate h (fun _ => held_setBox))

theorem keeps_execFreezeMaxExpiry (h : Held s₀ s) : Keeps s₀ (execFreezeMaxExpiry s) :=
  keeps_next (held_ite (held_freezeWrite h) h)

/-! ### Machine/Boundary.lean -/

theorem held_islandBeat {news : BeatNews} (h : Held s₀ s) : Held s₀ (islandBeat s news) :=
  held_pumpSessions (held_takeSnapshot (held_slotZero (held_correctables (held_foldl (fun _ _ ht => held_objectFault ht)
    h))))

theorem keeps_execBeatBoundary {readyIn : Bool} {upset : Option (Bool × BitVec 1024)} {news : BeatNews} (h : Held s₀ s) :
    Keeps s₀ (execBeatBoundary readyIn upset s news) := by
  unfold execBeatBoundary
  refine keeps_next ?_
  split
  · extract_lets t
    have ht : Held s₀ t := held_foldl (fun _ _ => held_checkHalves) h
    exact held_pumpSessions (held_beatBoundary ht)
  · exact held_islandBeat h

end Sys2Proof.Machine.Laws
end

section
/-!
SUPPORT. The operations of the registers, SPDM, the stages and the remaining commands, and `exec`, keep the queue and
the four links.
-/

namespace Sys2Proof.Machine.Laws

open Sys2Proof Sys2Proof.Machine

set_option Elab.async false

variable {s₀ s : State}

/-! ### Machine/Registers.lean -/

theorem held_ttRegWrite {off v : Nat} (h : Held s₀ s) : Held s₀ (ttRegWrite s off v) := by
  unfold ttRegWrite
  split
  · split
    · exact held_doVerify h
    · exact held_doInstall h
    · exact held_doArm h
    · exact held_doDiscard h
    · exact held_doCancelArm h
    · exact h
  · exact held_ttSet h
  · exact held_ttSet h
  · exact held_ttSet h
  · exact held_ttSet h
  · exact held_ttSet h
  · exact held_ttSet h
  · exact h

theorem held_tcRegWrite {w off v : Nat} (h : Held s₀ s) : Held s₀ (tcRegWrite s w off v) :=
  held_ite (held_tcCommand h) (held_ite (held_setTcWin h) (held_ite (held_setTcWin h) (held_ite (held_setTcWin h) (held_ite
    (held_setTcWin h) h))))

theorem held_dmaHalfWrite {c off v : Nat} (h : Held s₀ s) : Held s₀ (dmaHalfWrite s c off v) := by
  unfold dmaHalfWrite
  extract_lets
  split <;> exact held_dmaRegWrite h

theorem held_cfgWrite {link fn off v : Nat} (h : Held s₀ s) : Held s₀ (cfgWrite s link fn off v) := by
  unfold cfgWrite
  extract_lets
  refine held_ite h (held_ite (held_ite (held_bmeSet (held_fnPut h)) (held_bmeClear (held_fnPut h))) (held_ite ?_ (held_ite
      (held_startFlr (held_fnPut h)) (held_ite (held_ite (held_fnPut h) (held_setVfEnable (held_fnPut h))) (held_ite (held_ite
      h (held_fnPut h)) (held_ite (held_fnPut (held_ite (held_linkPut h) h)) (held_ite (held_ite (held_fnPut h) (held_atcDrop
      (held_fnPut h))) (held_ite h (held_fnPut h)))))))))
  split
  · exact held_ite (held_setDState h) h
  · exact held_setDState h
  · exact h

theorem held_msixWrite {link fn vec dw v : Nat} (h : Held s₀ s) : Held s₀ (msixWrite s link fn vec dw v) :=
  held_ite h (held_fnPut h)

theorem held_mbRegWrite {k off v : Nat} (h : Held s₀ s) : Held s₀ (mbRegWrite s k off v) :=
  held_ite (held_ite (held_setBox h) (held_setBox h)) (held_ite (held_ite (held_setBox h) (held_ite (held_setBox h) h))
    (held_ite (held_ite (held_mailboxGo h) h) (held_ite (held_setBox h) (held_ite (held_setBox h) h))))

theorem held_dapHalfWrite {off v : Nat} (h : Held s₀ s) : Held s₀ (dapHalfWrite s off v) := held_dapWrite h

theorem held_primaryGate {link : Nat} {act : State → State} (h : Held s₀ s) (hact : ∀ t, Held s₀ t → Held s₀ (act t)) :
    Held s₀ (primaryGate s link act) :=
  held_barGate h (fun _ h' => held_ite (hact _ h') h')

theorem held_regGate {reg : RegAddr} {act : State → State} (h : Held s₀ s) (hact : ∀ t, Held s₀ t → Held s₀ (act t)) :
    Held s₀ (regGate s reg act) := by
  unfold regGate
  split
  · exact held_primaryGate h (fun _ h' => hact _ h')
  · exact held_ite (held_primaryGate h (fun _ h' => hact _ h')) (held_ite (hact _ h) h)
  · exact held_primaryGate h (fun _ h' => hact _ h')
  · exact held_ite h (held_ite (held_aerLog h) (hact _ h))
  · exact held_ite (hact _ h) h
  · exact held_barGate h (fun _ h' => hact _ h')
  · exact held_barGate h (fun _ h' => hact _ h')
  · exact hact _ h

theorem held_regDouble {reg : RegAddr} {up v : Nat} (h : Held s₀ s) : Held s₀ (regDouble s reg up v) := by
  unfold regDouble
  split
  · exact held_ttRegWrite h
  · exact held_tcRegWrite h
  · exact held_dmaHalfWrite h
  · split
    · exact held_dmaHalfWrite h
    · exact h
  · exact held_ite (held_cfgWrite h) h
  · exact held_ite (held_msixWrite h) h
  · exact held_mbRegWrite h
  · exact held_dapHalfWrite h

theorem held_regWide {reg : RegAddr} {v : BitVec 64} (h : Held s₀ s) : Held s₀ (regWide s reg v) := by
  unfold regWide
  split
  · exact held_dmaWideWrite h
  · exact held_dapWrite h
  · exact held_regDouble (held_regDouble h)

theorem keeps_execRegisterWrite {reg : RegAddr} {wide : Bool} {v : BitVec 64} (h : Held s₀ s) :
    Keeps s₀ (execRegisterWrite reg wide v s) :=
  keeps_next (held_ite h (held_regGate h (fun _ h' => held_ite (held_regWide h') (held_regDouble h'))))

/-! ### Machine/Spdm.lean -/

theorem held_doeError {k : Nat} (h : Held s₀ s) : Held s₀ (doeError s k) := held_linkPut h

theorem held_setConn {k : Nat} {c : SpdmConn} (h : Held s₀ s) : Held s₀ (setConn s k c) := h

theorem held_setSpdm {x : SpdmSession} (h : Held s₀ s) : Held s₀ (setSpdm s x) := h

theorem held_dropSpdm {which : SpdmSession → Bool} (h : Held s₀ s) : Held s₀ (dropSpdm s which) := h

theorem held_spdmExpire (h : Held s₀ s) : Held s₀ (spdmExpire s) := held_dropSpdm h

theorem held_spdmSign {context : Nat} {transcript : List Byte} (h : Held s₀ s) :
    Held s₀ (spdmSign s context transcript).2 := by
  unfold spdmSign
  extract_lets _ t
  have ht : Held s₀ t.2 := held_signDigest h
  clear_value t
  exact ht

theorem held_nonceDrawn (h : Held s₀ s) : Held s₀ (nonceDrawn s) := h

theorem held_spdmVersion {k : Nat} {req : List Byte} (h : Held s₀ s) : Held s₀ (spdmVersion s k req).1 :=
  held_setConn (held_dropSpdm h)

theorem held_spdmCapabilities {k : Nat} {req : List Byte} (h : Held s₀ s) : Held s₀ (spdmCapabilities s k req).1 :=
  held_ite_fst h (held_ite_fst h (held_setConn h))

theorem held_spdmAlgorithms {k : Nat} {req : List Byte} (h : Held s₀ s) : Held s₀ (spdmAlgorithms s k req).1 :=
  held_ite_fst h (held_ite_fst h (held_setConn h))

theorem held_noteCerts {k : Nat} {sess : Option SpdmSession} {req r : List Byte} (h : Held s₀ s) :
    Held s₀ (noteCerts s k sess req r).1 := by
  unfold noteCerts
  split
  · exact h
  · exact held_setConn h

theorem held_spdmDigests {k : Nat} {sess : Option SpdmSession} {req : List Byte} (h : Held s₀ s) :
    Held s₀ (spdmDigests s k sess req).1 :=
  held_noteCerts h

theorem held_spdmCertificate {k : Nat} {sess : Option SpdmSession} {req : List Byte} (h : Held s₀ s) :
    Held s₀ (spdmCertificate s k sess req).1 :=
  held_ite_fst h (held_noteCerts h)

theorem held_spdmChallenge {k : Nat} {req : List Byte} (h : Held s₀ s) : Held s₀ (spdmChallenge s k req).1 := by
  unfold spdmChallenge
  extract_lets
  split
  · exact h
  · exact held_ite_fst h (held_ite_fst h (held_setConn (held_spdmSign (held_nonceDrawn h))))

theorem held_setMeasLog {k : Nat} {sess : Option SpdmSession} {log : List Byte} (h : Held s₀ s) :
    Held s₀ (setMeasLog s k sess log) := by
  unfold setMeasLog
  split
  · exact held_setSpdm h
  · exact held_setConn h

theorem held_spdmMeasurements {k : Nat} {sess : Option SpdmSession} {req : List Byte} (h : Held s₀ s) :
    Held s₀ (spdmMeasurements s k sess req).1 :=
  held_ite_fst h (held_ite_fst (held_setMeasLog (held_nonceDrawn h)) (held_ite_fst h (held_ite_fst h (held_setMeasLog
    (held_spdmSign (held_nonceDrawn h))))))

theorem held_spdmKeyExchange {k : Nat} {req : List Byte} (h : Held s₀ s) : Held s₀ (spdmKeyExchange s k req).1 := by
  unfold spdmKeyExchange
  extract_lets
  split
  · split
    · exact h
    · split
      · exact h
      · split
        · exact h
        · extract_lets _ _ t
          have ht : Held s₀ t.2 := held_spdmSign (held_nonceDrawn h)
          clear_value t
          exact ht
  · exact h

theorem held_spdmServe {k : Nat} {req : List Byte} (h : Held s₀ s) : Held s₀ (spdmServe s k req).1 := by
  unfold spdmServe
  refine held_ite_fst h (held_ite_fst (held_ite_fst (held_spdmVersion h) h) (held_ite_fst h (held_ite_fst
    (held_spdmCapabilities h) (held_ite_fst (held_spdmAlgorithms h) (held_ite_fst h (held_ite_fst h ?_))))))
  split
  · exact held_spdmDigests h
  · exact held_spdmCertificate h
  · exact held_spdmChallenge h
  · exact held_spdmMeasurements h
  · exact held_spdmKeyExchange h
  · exact h

theorem held_spdmFinish {x : SpdmSession} {req : List Byte} (h : Held s₀ s) : Held s₀ (spdmFinish s x req).1 :=
  held_ite_fst h (held_ite_fst h (held_ite_fst (held_dropSpdm h) (held_setSpdm h)))

theorem held_spdmOpened {k sid : Nat} (h : Held s₀ s) : Held s₀ (spdmOpened s k sid) := by
  unfold spdmOpened
  split
  · exact h
  · exact held_setSpdm h

theorem held_spdmKeyUpdate {x : SpdmSession} {req : List Byte} (h : Held s₀ s) : Held s₀ (spdmKeyUpdate s x req).1 := by
  unfold spdmKeyUpdate
  refine held_ite_fst h ?_
  split
  · exact held_setSpdm h
  · exact held_setSpdm h
  · exact h
  · exact h

theorem held_spdmReply {k sid : Nat} {msg : List Byte} (h : Held s₀ s) : Held s₀ (spdmReply s k sid msg) := by
  unfold spdmReply
  split
  · exact held_emit h
  · exact held_emit (held_setSpdm h)

/-! ### Machine/Attest.lean -/

theorem keeps_execDoeDiscovery {link : BitVec 2} {object : List (BitVec 32)} (h : Held s₀ s) :
    Keeps s₀ (execDoeDiscovery link object s) := by
  unfold execDoeDiscovery
  extract_lets
  refine keeps_next (held_ite h ?_)
  split
  · exact held_ite (held_emit h) (held_doeError h)
  · exact held_doeError h

theorem held_spdmTake {k : Nat} {object : List Byte} (h : Held s₀ s) : Held s₀ (spdmTake s k object) :=
  held_ite (held_spdmExpire h) (held_ite (held_doeError (held_spdmExpire h)) (held_emit (held_spdmServe (held_spdmExpire h))))

theorem keeps_execGetDigests {link : BitVec 2} {object : List Byte} (h : Held s₀ s) :
    Keeps s₀ (execGetDigests link object s) :=
  keeps_next (held_spdmTake h)

theorem keeps_execGetCertificate {link : BitVec 2} {object : List Byte} (h : Held s₀ s) :
    Keeps s₀ (execGetCertificate link object s) :=
  keeps_next (held_spdmTake h)

theorem keeps_execChallenge {link : BitVec 2} {object : List Byte} (h : Held s₀ s) : Keeps s₀ (execChallenge link object s) :=
  keeps_next (held_spdmTake h)

theorem keeps_execGetMeasurements {link : BitVec 2} {object : List Byte} (h : Held s₀ s) :
    Keeps s₀ (execGetMeasurements link object s) :=
  keeps_next (held_spdmTake h)

theorem keeps_execKeyExchange {link : BitVec 2} {object : List Byte} (h : Held s₀ s) :
    Keeps s₀ (execKeyExchange link object s) :=
  keeps_next (held_spdmTake h)

theorem held_keySetGo {k stream sub : Nat} (h : Held s₀ s) : Held s₀ (keySetGo s k stream sub) := held_ite h h

theorem held_keySetStop {k stream sub : Nat} (h : Held s₀ s) : Held s₀ (keySetStop s k stream sub) := h

theorem held_keyProg {k : Nat} {object : List Byte} (h : Held s₀ s) : Held s₀ (keyProg s k object).1 :=
  held_ite_fst h (held_ite_fst h (held_ite_fst h h))

theorem held_ideKmServe {k : Nat} {object : List Byte} (h : Held s₀ s) : Held s₀ (ideKmServe s k object).1 := by
  unfold ideKmServe
  extract_lets
  refine held_ite_fst h ?_
  split
  · exact h
  · exact held_keyProg h
  · exact held_ite_fst h (held_keySetGo h)
  · exact held_ite_fst h (held_keySetStop h)
  · exact h

theorem held_spdmVendor {x : SpdmSession} {req : List Byte} (h : Held s₀ s) : Held s₀ (spdmVendor s x req).1 := by
  unfold spdmVendor
  split
  · exact h
  · split
    next e =>
      exact held_of_fst (held_ideKmServe h) e
    next e =>
      exact held_of_fst (held_ideKmServe h) e

theorem held_sessionServe {x : SpdmSession} {req : List Byte} (h : Held s₀ s) : Held s₀ (sessionServe s x req).1 := by
  unfold sessionServe
  refine held_ite_fst h (held_ite_fst h (held_ite_fst h ?_))
  split
  · exact held_spdmDigests h
  · exact held_spdmCertificate h
  · exact held_spdmMeasurements h
  · exact held_spdmFinish h
  · exact h
  · exact held_spdmKeyUpdate h
  · exact h
  · exact held_spdmVendor h
  · exact h

theorem held_sessionTake {x : SpdmSession} {msg : List Byte} (h : Held s₀ s) : Held s₀ (sessionTake s x msg) := by
  unfold sessionTake
  extract_lets _ t
  have ht : Held s₀ t.1 := held_sessionServe (held_setSpdm h)
  split
  · exact held_spdmOpened (held_spdmReply ht)
  · exact held_dropSpdm (held_spdmReply ht)
  · exact held_spdmReply ht

theorem keeps_execIdeKm {link : BitVec 2} {session : BitVec 32} {object : List Byte} (h : Held s₀ s) :
    Keeps s₀ (execIdeKm link session object s) := by
  unfold execIdeKm
  extract_lets
  refine keeps_next (held_ite (held_spdmExpire h) (held_ite (held_doeError (held_spdmExpire h)) ?_))
  split
  · exact held_spdmExpire h
  · split
    · exact held_sessionTake (held_spdmExpire h)
    · exact held_emit (held_dropSpdm (held_spdmExpire h))

/-! ### Machine/Control.lean -/

theorem held_writeExecuted {id p : Nat} (h : Held s₀ s) : Held s₀ (writeExecuted s id p) := h

theorem held_installIssue {p : Nat} (h : Held s₀ s) : Held s₀ (installIssue s p) := by
  unfold installIssue
  split
  · exact held_ite h (held_ttSet (held_installWord h))
  · exact h

theorem held_controlStep {p : Nat} (h : Held s₀ s) : Held s₀ (controlStep s p) := by
  unfold controlStep
  split
  · exact held_installIssue h
  · extract_lets _ t
    have ht : Held s₀ t := h
    split
    · exact held_writeExecuted ht
    · exact held_tcStageStep ht
    · exact held_writeExecuted ht

theorem keeps_execControlSlot {slot : BitVec 12} {p : BitVec 2} {rowOk : Bool} (h : Held s₀ s) :
    Keeps s₀ (execControlSlot slot p s rowOk) :=
  keeps_next (held_ite (held_rowFailed (held_atPort h)) (held_ite (held_controlStep (held_atPort h)) (held_atPort h)))

/-! ### Machine/Actions.lean -/

theorem held_busSet {a : ActSt} {lo w v : Nat} (h : Held s₀ a.s) : Held s₀ (busSet a lo w v).s := h

theorem held_fwdKind {a : ActSt} {k : Nat} (h : Held s₀ a.s) : Held s₀ (fwdKind a k).s := held_busSet h

theorem held_dataBits {c : ActCtx} {lo w : Nat} (h : Held s₀ s) : Held s₀ (dataBits s c lo w).2 := held_ite_snd h (held_draw h)

theorem held_raiseLearn {a : ActSt} {away : Bool} {r : LearnReq} (h : Held s₀ a.s) : Held s₀ (raiseLearn a away r).s :=
  held_ite_act h (held_pushLearn h)

theorem held_actLearn {a : ActSt} {away : Bool} {imm : Nat} (h : Held s₀ a.s) : Held s₀ (actLearn a away imm).s := by
  unfold actLearn
  extract_lets
  refine held_ite_act ?_ (held_ite_act h ?_)
  · split
    · exact held_raiseLearn h
    · exact held_raiseLearn h
    · exact held_fwdKind (held_count h)
    · exact held_fwdKind (held_count (held_count h))
    · exact held_count h
    · exact h
  · split
    · exact held_raiseLearn h
    · exact held_raiseLearn h
    · exact held_fwdKind (held_count h)
    · exact h

theorem held_actLeave {a : ActSt} {away tree : Bool} {n : Nat} (h : Held s₀ a.s) : Held s₀ (actLeave a away tree n).s :=
  held_ite_act h (held_ite_act (held_count h) h)

theorem held_runPrim {c : ActCtx} {a : ActSt} {p : BitVec 64} (h : Held s₀ a.s) : Held s₀ (runPrim c a p).s := by
  unfold runPrim
  extract_lets
  split
  · exact held_busSet h
  · exact held_busSet h
  · exact held_busSet (held_dataBits h)
  · exact held_busSet h
  · exact held_fwdKind h
  · exact held_busSet (held_fwdKind h)
  · exact held_fwdKind h
  · exact held_actLeave h
  · exact held_actLeave h
  · exact held_busSet h
  · exact held_busSet h
  · exact held_actLearn h
  · exact h

theorem held_runAction {i : Image} {act : Nat} {c : ActCtx} {a : ActSt} (h : Held s₀ a.s) : Held s₀ (runAction i act c a).s :=
  held_foldl_act (fun _ _ => held_runPrim) h

/-! ### Machine/Stages.lean -/

theorem held_lookCounted {d : BitVec 512} {p : Nat} {bus : Bus} (h : Held s₀ s) : Held s₀ (lookCounted s d p bus).2 :=
  held_ite (held_count (held_count (held_lookTable h))) (held_count (held_lookTable h))

theorem held_lookAll {p : Nat} {bus : Bus} {l : List (BitVec 512)} (h : Held s₀ s) : Held s₀ (lookAll p bus l s).2 := by
  induction l generalizing s with
  | nil => exact h
  | cons d l ih => exact ih (held_lookCounted h)

theorem held_runLook {i : Image} {a : ActSt} {h : BitVec 512 × Hit} (hI : Held s₀ a.s) : Held s₀ (runLook i a h).s := by
  unfold runLook
  split <;> exact held_runAction hI

theorem held_stageStep {i : Image} {x : Item} {t : Nat} (h : Held s₀ s) : Held s₀ (stageStep s i x t) := by
  unfold stageStep
  extract_lets _ u
  have hu : Held s₀ u.s := held_foldl_act (fun _ _ => held_runLook) (held_lookAll h)
  exact held_ite (held_itemRemove (held_count (held_lookAll h))) (held_itemPut hu)

theorem keeps_execStagePortSlot {slot : BitVec 12} {item : Nat} (h : Held s₀ s) :
    Keeps s₀ (execStagePortSlot slot item s) := by
  unfold execStagePortSlot
  extract_lets
  refine keeps_next ?_
  split
  · exact held_atPort h
  · split
    · exact held_ite (held_stageStep (held_atPort h)) (held_atPort h)
    · exact held_atPort h

theorem keeps_execScrubSlot {slot : BitVec 12} {p : BitVec 2} {stage : Nat} {rowOk : Bool} (h : Held s₀ s) :
    Keeps s₀ (execScrubSlot slot p stage s rowOk) :=
  keeps_next (held_ite (held_rowFailedAt (held_atPort h)) (held_ite (held_scrubStage (held_atPort h)) (held_atPort h)))

theorem held_pumpTree {p : Nat} (h : Held s₀ s) : Held s₀ (pumpTree s p) := by
  unfold pumpTree
  split
  · split
    · exact h
    · split
      · exact held_count (held_itemPut h)
      · exact h
  · exact h

theorem held_leaveTree {x : Item} {t n : Nat} (h : Held s₀ s) : Held s₀ (leaveTree s x t n) := by
  unfold leaveTree
  split
  · exact held_itemRemove (held_count h)
  · split
    · exact h
    · extract_lets u
      have hu : Held s₀ u := held_itemPut h
      clear_value u
      exact held_pumpTree hu

theorem held_leaveJutex {x : Item} {t fn slot : Nat} {rowOk : Bool} (h : Held s₀ s) :
    Held s₀ (leaveJutex s x t fn slot rowOk) := by
  unfold leaveJutex
  split
  · exact held_dropNoCluster (held_rowFailed h)
  · extract_lets
    split
    · exact held_dropNoCluster h
    · exact held_count (held_itemPut h)

theorem keeps_execDetourLeave {slot : BitVec 12} {item : Nat} {rowOk : Bool} (h : Held s₀ s) :
    Keeps s₀ (execDetourLeave slot item rowOk s) := by
  unfold execDetourLeave
  extract_lets
  refine keeps_next ?_
  split
  · exact held_atSlot h
  · split
    · exact held_ite (held_ite (held_leaveTree (held_atSlot h)) (held_leaveJutex (held_atSlot h))) (held_atSlot h)
    · exact held_atSlot h

theorem keeps_execWalkGrant {slot : BitVec 12} {p : BitVec 2} {rowOk : Bool} (h : Held s₀ s) :
    Keeps s₀ (execWalkGrant slot p rowOk s) := by
  unfold execWalkGrant
  extract_lets
  refine keeps_next (held_ite (held_rowFailed (held_atSlot h)) ?_)
  split
  · exact held_atSlot h
  · split
    · exact held_itemPut (held_atSlot h)
    · exact held_atSlot h

theorem held_walkError {x : Item} {code island param : Nat} (h : Held s₀ s) : Held s₀ (walkError s x code island param) :=
  held_pumpTree (held_itemRemove (held_event (held_count h)))

theorem held_walkEnd {i : Image} {x : Item} {t : Nat} {w : TreeWalk} (h : Held s₀ s) : Held s₀ (walkEnd s i x t w) := by
  unfold walkEnd
  extract_lets _ u _ v
  have hu : Held s₀ u.s := by
    dsimp only [u]
    split
    · exact held_runAction h
    · exact held_runAction (held_count h)
  clear_value u
  have hv : Held s₀ v := held_itemPut hu
  clear_value v
  exact held_pumpTree hv

theorem held_walkData {i : Image} {x : Item} {t : Nat} {w : TreeWalk} (h : Held s₀ s) : Held s₀ (walkData s i x t w) :=
  held_ite (held_ite (held_walkError h) (held_ite (held_walkEnd h) (held_itemPut h))) (held_ite (held_walkError h) (held_ite
    (held_ite (held_walkEnd h) (held_itemPut h)) (held_itemPut h)))

theorem keeps_execWalkReadData {p : BitVec 2} {w : BitVec 6} {readOk : Bool} (h : Held s₀ s) :
    Keeps s₀ (execWalkReadData p w readOk s) := by
  refine keeps_next ?_
  split
  · exact h
  · split
    · exact held_ite h (held_ite (held_walkData h) (held_walkError (held_draw h)))
    · exact h

theorem keeps_execReturnSlot {slot : BitVec 12} {p : BitVec 2} {rowOk : Bool} (h : Held s₀ s) :
    Keeps s₀ (execReturnSlot slot p s rowOk) := by
  unfold execReturnSlot
  have hat := held_atSlot (slot := slot) h
  generalize atSlot s slot = t at hat
  refine keeps_next ?_
  split
  · exact hat
  · refine held_ite (held_rowFailed hat) (held_ite hat ?_)
    extract_lets u row
    split
    · exact hat
    · extract_lets v
      have hv : Held s₀ v := held_itemPut hat
      clear_value v
      exact hv

/-! ### Machine/Deparser.lean -/

theorem held_releaseItem {x : Item} (h : Held s₀ s) : Held s₀ (releaseItem s x) :=
  held_ite (held_netIssue (held_noteLeft h)) (held_admitItem (held_itemRemove h))

theorem held_reorderArrive {x : Item} (h : Held s₀ s) : Held s₀ (reorderArrive s x) :=
  held_ite (held_releaseItem h) (held_ite (held_releaseItem (held_count h)) (held_count (held_itemPut h)))

theorem keeps_execReorderRelease {slot : BitVec 12} {p : BitVec 2} (h : Held s₀ s) :
    Keeps s₀ (execReorderRelease slot p s) := by
  unfold execReorderRelease
  extract_lets
  refine keeps_next ?_
  split
  · exact held_releaseItem (held_atSlot h)
  · exact held_atSlot h

theorem keeps_execReorderTimeout {slot : BitVec 12} {p : BitVec 2} (h : Held s₀ s) :
    Keeps s₀ (execReorderTimeout slot p s) := by
  unfold execReorderTimeout
  extract_lets
  refine keeps_next ?_
  split
  · exact held_releaseItem (held_count (held_atSlot h))
  · exact held_atSlot h

theorem held_rewriteItem {i : Image} {x : Item} (h : Held s₀ s) : Held s₀ (rewriteItem s i x).2 :=
  held_ite_snd h (held_ite_snd (held_count h) h)

theorem held_passItem {i : Image} {x : Item} (h : Held s₀ s) : Held s₀ (passItem s i x) :=
  held_ite (held_itemRemove (held_meter h)) (held_reorderArrive (held_rewriteItem (held_meter h)))

theorem held_settleFate {i : Image} {x : Item} (h : Held s₀ s) : Held s₀ (settleFate s i x) :=
  held_ite (held_passItem h) (held_ite (held_itemRemove (held_count h)) (held_itemRemove (held_count h)))

theorem keeps_execRewriteUnit {slot : BitVec 12} {item : Nat} (h : Held s₀ s) : Keeps s₀ (execRewriteUnit slot item s) := by
  unfold execRewriteUnit
  extract_lets
  refine keeps_next ?_
  split
  · exact held_atSlot h
  · split
    · exact held_ite (held_settleFate (held_atSlot h)) (held_atSlot h)
    · exact held_atSlot h

/-! ### Machine/Heartbeats.lean -/

theorem held_discardUnheld (h : Held s₀ s) : Held s₀ (discardUnheld s) := by
  unfold discardUnheld
  refine held_foldl (fun t e ht => ?_) h
  extract_lets u fs _ v w
  have hu : Held s₀ u := held_count ht
  have hv : Held s₀ v := by
    dsimp only [v]
    split
    · exact held_dropFrame hu
    · exact held_takeWork ht
    · exact held_setTcWin (held_forgetCommand ht)
    · exact held_forgetRequest ht
    · exact held_forgetReply (held_forgetWrite ht)
    · exact ht
  clear_value v
  have hw : Held s₀ w := held_ledMetaSet hv
  clear_value w
  exact hw

theorem held_toSyncing (h : Held s₀ s) : Held s₀ (toSyncing s) := held_setPairState h

theorem held_runSingle (h : Held s₀ s) : Held s₀ (runSingle s) := held_setPairState h

theorem held_giveWay {e : Nat} {cfg : PartnerCfg} (h : Held s₀ s) : Held s₀ (giveWay s e cfg) := by
  unfold giveWay
  split
  · exact held_runSingle h
  · extract_lets
    split
    · exact held_toSyncing (held_with h)
    · exact held_toSyncing (held_discardUnheld (held_fence (held_with h)))
    · exact held_toSyncing (held_discardUnheld (held_fence (held_with h)))
    · exact held_with h

theorem held_seekHeard {hb : Heartbeat} {cfg : PartnerCfg} (h : Held s₀ s) : Held s₀ (seekHeard s hb cfg) :=
  held_ite (held_runSingle h) (held_ite (held_toSyncing (held_with h)) (held_ite (held_ite (held_takeLeash h) (held_toSyncing
    (held_with h))) h))

theorem held_trackHoldDown {hb : Heartbeat} (h : Held s₀ s) : Held s₀ (trackHoldDown s hb) := h

/-- The local step of `extractionHeard`: the rails go down once the main domain is off. -/
theorem held_extractionHeard_railsOff' (h : Held s₀ s) : Held s₀ (extractionHeard.railsOff' s) := by
  unfold extractionHeard.railsOff'
  split
  · exact held_railsOff h
  · exact h

theorem held_extractionHeard {hb : Heartbeat} (h : Held s₀ s) : Held s₀ (extractionHeard s hb) := by
  unfold extractionHeard
  split
  · extract_lets _ u
    have hu : Held s₀ u := h
    clear_value u
    split
    next t e => exact held_extractionHeard_railsOff' (heldSome_powerDownRequest hu t e)
    next => exact held_setExtract hu
  · exact h

theorem held_heard {hb : Heartbeat} {cfg : PartnerCfg} {e : Nat} (h : Held s₀ s) : Held s₀ (heard s hb cfg e) := by
  unfold heard
  extract_lets _ _ _ t
  have ht : Held s₀ t := held_extractionHeard (held_trackHoldDown h)
  split
  · exact held_seekHeard ht
  · exact held_ite (held_giveWay ht) ht
  · exact held_ite (held_giveWay ht) ht
  · exact held_ite (held_giveWay ht) ht
  · exact ht

theorem keeps_execHeartbeatReceived {hb : Heartbeat} {cfg : PartnerCfg} (h : Held s₀ s) :
    Keeps s₀ (execHeartbeatReceived hb cfg s) := by
  refine keeps_next (held_ite h ?_)
  split
  · exact held_count h
  · exact held_heard h

/-! ### Machine/Tables.lean -/

theorem held_onPipeLeg {slot : BitVec 12} {p : Nat} {act : State → State} (h : Held s₀ s)
    (hact : ∀ t, Held s₀ t → Held s₀ (act t)) : Held s₀ (onPipeLeg s slot p act) := by
  unfold onPipeLeg
  split
  · exact h
  · exact held_onLeg h (fun _ h' => hact _ h')

theorem held_carryLearns {x : Item} (h : Held s₀ s) : Held s₀ (carryLearns s x) :=
  held_foldl (fun _ _ => held_pushLearn) (held_itemPut h)

theorem held_access {x : Item} (h : Held s₀ s) : Held s₀ (access s x) := by
  unfold access
  split
  · exact h
  · exact held_ite (held_itemRemove (held_count (held_itemPut (held_sharedLookups h)))) (held_itemPut (held_sharedLookups h))

theorem keeps_execSharedTableAccess {slot : BitVec 12} {item : Nat} {rowOk : Bool} (h : Held s₀ s) :
    Keeps s₀ (execSharedTableAccess slot item rowOk s) := by
  unfold execSharedTableAccess
  extract_lets t
  have ht : Held s₀ t := held_openSlot (held_atSlot h)
  refine keeps_next ?_
  split
  · exact ht
  · split
    · exact held_ite ht (held_ite (held_rowFailed (held_itemPut ht)) (held_onPipeLeg ht (fun _ => held_carryLearns)))
    · exact held_ite ht (held_ite (held_rowFailed (held_itemPut ht)) (held_onPipeLeg ht (fun _ => held_access)))

theorem keeps_execLearnLeg {slot : BitVec 12} {k : BitVec 3} {rowOk : Bool} (h : Held s₀ s) :
    Keeps s₀ (execLearnLeg slot k s rowOk) := by
  unfold execLearnLeg
  extract_lets t
  have ht : Held s₀ t := held_openSlot (held_atSlot h)
  exact keeps_next (held_ite (held_rowFailed ht) (held_ite (held_onLeg ht (fun _ h' => held_ite (held_learnL2 h')
      (held_learnFlow h'))) ht))

theorem keeps_execAgingLeg {slot : BitVec 12} {k : BitVec 3} {rowOk : Bool} (h : Held s₀ s) :
    Keeps s₀ (execAgingLeg slot k s rowOk) := by
  unfold execAgingLeg
  extract_lets t
  have ht : Held s₀ t := held_openSlot (held_atSlot h)
  exact keeps_next (held_ite (held_rowFailed ht) (held_ite (held_sweepLeg ht) ht))

theorem keeps_execCommandLeg {slot : BitVec 12} {k : BitVec 3} {rowOk : Bool} (h : Held s₀ s) :
    Keeps s₀ (execCommandLeg slot k s rowOk) := by
  unfold execCommandLeg
  extract_lets t
  have ht : Held s₀ t := held_openSlot (held_atSlot h)
  exact keeps_next (held_ite (held_rowFailed ht) (held_ite (held_onLeg ht (fun _ => held_commandLeg)) ht))

theorem keeps_execFlowFillLand (h : Held s₀ s) : Keeps s₀ (execFlowFillLand s) := by
  refine keeps_next ?_
  split
  · exact h
  · exact held_cacheUse (held_cacheUse h)

theorem keeps_execAgingPassStart {flow : Bool} (h : Held s₀ s) : Keeps s₀ (execAgingPassStart flow s) :=
  keeps_next (held_startPass h)

theorem keeps_execTcInsert {w : BitVec 3} {target : BitVec 4} {genSel : BitVec 1} {tableId : BitVec 16} (h : Held s₀ s) :
    Keeps s₀ (execTcInsert w target genSel tableId s) :=
  keeps_next (held_tcCommand h)

theorem keeps_execTcDelete {w : BitVec 3} {target : BitVec 4} {genSel : BitVec 1} {tableId : BitVec 16} (h : Held s₀ s) :
    Keeps s₀ (execTcDelete w target genSel tableId s) :=
  keeps_next (held_tcCommand h)

theorem keeps_execTcRead {w : BitVec 3} {target : BitVec 4} {genSel : BitVec 1} {tableId : BitVec 16} (h : Held s₀ s) :
    Keeps s₀ (execTcRead w target genSel tableId s) :=
  keeps_next (held_tcCommand h)

theorem keeps_execTcReplace {w : BitVec 3} {target : BitVec 4} {genSel : BitVec 1} {tableId : BitVec 16} (h : Held s₀ s) :
    Keeps s₀ (execTcReplace w target genSel tableId s) :=
  keeps_next (held_tcCommand h)

theorem keeps_execTcCompareReplace {w : BitVec 3} {target : BitVec 4} {genSel : BitVec 1} {tableId : BitVec 16}
    (h : Held s₀ s) : Keeps s₀ (execTcCompareReplace w target genSel tableId s) :=
  keeps_next (held_tcCommand h)

theorem keeps_execFlushPort {w : BitVec 3} {target : BitVec 4} {genSel : BitVec 1} {tableId : BitVec 16} (h : Held s₀ s) :
    Keeps s₀ (execFlushPort w target genSel tableId s) :=
  keeps_next (held_tcCommand h)

theorem keeps_execTcCommandComplete {w : BitVec 3} (h : Held s₀ s) : Keeps s₀ (execTcCommandComplete w s) :=
  keeps_next (held_tcRelease h)

/-! ### Machine/Dispatch.lean -/

/-- Every command of the table keeps the queue of waiting commands: one lemma for each arm of `exec`. -/
theorem keeps_exec {i : Instr} (h : Held s₀ s) : Keeps s₀ (exec i s) ∨
    (i = .memRead ∨ i = .memWrite ∨ i = .norErase) ∧ exec i s = .fault (.noDeviceMemory s.dbg.addr.toNat) := by
  cases i with
  | beatBoundary => exact .inl (keeps_execBeatBoundary h)
  | ingressSlot => exact .inl (keeps_execIngressSlot h)
  | controlSlot => exact .inl (keeps_execControlSlot h)
  | returnSlot => exact .inl (keeps_execReturnSlot h)
  | stagePortSlot => exact .inl (keeps_execStagePortSlot h)
  | scrubSlot => exact .inl (keeps_execScrubSlot h)
  | sharedTableAccess => exact .inl (keeps_execSharedTableAccess h)
  | egressOpportunity => exact .inl (keeps_execEgressOpportunity h)
  | dmaGrant => exact .inl (keeps_execDmaGrant h)
  | cipherGrant => exact .inl (keeps_execCipherGrant h)
  | walkGrant => exact .inl (keeps_execWalkGrant h)
  | learnLeg => exact .inl (keeps_execLearnLeg h)
  | agingLeg => exact .inl (keeps_execAgingLeg h)
  | commandLeg => exact .inl (keeps_execCommandLeg h)
  | anResolution => exact .inl (keeps_execAnResolution h)
  | trainingDone => exact .inl (keeps_execTrainingDone h)
  | trainingFailure => exact .inl (keeps_execTrainingFailure h)
  | lockAcquired => exact .inl (keeps_execLockAcquired h)
  | lossOfLock => exact .inl (keeps_execLossOfLock h)
  | pllLossOfLock => exact .inl (keeps_execPllLossOfLock h)
  | serdesFault => exact .inl (keeps_execSerdesFault h)
  | frameReceived => exact .inl (keeps_execFrameReceived h)
  | rawHitListComplete => exact .inl (keeps_execRawHitListComplete h)
  | frameSent => exact .inl (keeps_execFrameSent h)
  | muzzle => exact .inl (keeps_execMuzzle (s := s) h)
  | verify => exact .inl (keeps_execVerify h)
  | verifyDone => exact .inl (keeps_execVerifyDone h)
  | install => exact .inl (keeps_execInstall h)
  | installDone => exact .inl (keeps_execInstallDone h)
  | arm => exact .inl (keeps_execArm h)
  | discard => exact .inl (keeps_execDiscard h)
  | cancelArm => exact .inl (keeps_execCancelArm h)
  | parserNodeStep => exact .inl (keeps_execParserNodeStep h)
  | parserOutput => exact .inl (keeps_execParserOutput h)
  | matchSetFinal => exact .inl (keeps_execMatchSetFinal h)
  | detourLeave => exact .inl (keeps_execDetourLeave h)
  | walkReadData => exact .inl (keeps_execWalkReadData h)
  | rewriteUnit => exact .inl (keeps_execRewriteUnit h)
  | reorderRelease => exact .inl (keeps_execReorderRelease h)
  | reorderTimeout => exact .inl (keeps_execReorderTimeout h)
  | flowFillLand => exact .inl (keeps_execFlowFillLand h)
  | agingPassStart => exact .inl (keeps_execAgingPassStart h)
  | tcInsert => exact .inl (keeps_execTcInsert h)
  | tcDelete => exact .inl (keeps_execTcDelete h)
  | tcRead => exact .inl (keeps_execTcRead h)
  | tcReplace => exact .inl (keeps_execTcReplace h)
  | tcCompareReplace => exact .inl (keeps_execTcCompareReplace h)
  | flushPort => exact .inl (keeps_execFlushPort h)
  | tcCommandComplete => exact .inl (keeps_execTcCommandComplete h)
  | add => exact .inl (keeps_execAdd h)
  | sub => exact .inl (keeps_execSub h)
  | and => exact .inl (keeps_execAnd h)
  | or => exact .inl (keeps_execOr h)
  | xor => exact .inl (keeps_execXor h)
  | shl => exact .inl (keeps_execShl h)
  | shr => exact .inl (keeps_execShr h)
  | sar => exact .inl (keeps_execSar h)
  | mul => exact .inl (keeps_execMul h)
  | sltu => exact .inl (keeps_execSltu h)
  | slt => exact .inl (keeps_execSlt h)
  | addi => exact .inl (keeps_execAddi h)
  | andi => exact .inl (keeps_execAndi h)
  | shli => exact .inl (keeps_execShli h)
  | shri => exact .inl (keeps_execShri h)
  | lui => exact .inl (keeps_execLui h)
  | ld => exact .inl (keeps_execLd h)
  | lw => exact .inl (keeps_execLw h)
  | lh => exact .inl (keeps_execLh h)
  | lb => exact .inl (keeps_execLb h)
  | st => exact .inl (keeps_execSt h)
  | sw => exact .inl (keeps_execSw h)
  | sh => exact .inl (keeps_execSh h)
  | sb => exact .inl (keeps_execSb h)
  | aadd => exact .inl (keeps_execAadd h)
  | acas => exact .inl (keeps_execAcas h)
  | beq => exact .inl (keeps_execBeq h)
  | bne => exact .inl (keeps_execBne h)
  | blt => exact .inl (keeps_execBlt h)
  | bltu => exact .inl (keeps_execBltu h)
  | jal => exact .inl (keeps_execJal h)
  | jr => exact .inl (keeps_execJr h)
  | mfs => exact .inl (keeps_execMfs h)
  | mts => exact .inl (keeps_execMts h)
  | aadds => exact .inl (keeps_execAadds h)
  | fence => exact .inl (keeps_execFence h)
  | time => exact .inl (keeps_execTime h)
  | tcmp => exact .inl (keeps_execTcmp h)
  | wait => exact .inl (keeps_execWait h)
  | chopen => exact .inl (keeps_execChopen h)
  | chput => exact .inl (keeps_execChput h)
  | chcommit => exact .inl (keeps_execChcommit h)
  | chget => exact .inl (keeps_execChget h)
  | chcfg => exact .inl (keeps_execChcfg h)
  | setreg => exact .inl (keeps_execSetreg h)
  | start => exact .inl (keeps_execStart h)
  | halt => exact .inl (keeps_execHalt h)
  | ret => exact .inl (keeps_execRet h)
  | dropItem => exact .inl (keeps_execDropItem h)
  | complete => exact .inl (keeps_execComplete h)
  | issue => exact .inl (keeps_execIssue h)
  | timerReached => exact .inl (keeps_execTimerReached h)
  | waitMaxExpiry => exact .inl (keeps_execWaitMaxExpiry h)
  | chopenGrant => exact .inl (keeps_execChopenGrant h)
  | allAsleepFreeze => exact .inl (keeps_execAllAsleepFreeze h)
  | detourArrival => exact .inl (keeps_execDetourArrival h)
  | itemOffer => exact .inl (keeps_execItemOffer h)
  | clusterFault => exact .inl (keeps_execClusterFault h)
  | coreOffline => exact .inl (keeps_execCoreOffline h)
  | resultDelivery => exact .inl (keeps_execResultDelivery h)
  | cipherRequestStart => exact .inl (keeps_execCipherRequestStart h)
  | kennelCacheFill => exact .inl (keeps_execKennelCacheFill h)
  | suspend => exact .inl (keeps_execSuspend h)
  | cipherRequestComplete => exact .inl (keeps_execCipherRequestComplete h)
  | kat => exact .inl (keeps_execKat h)
  | engineOutOfUse => exact .inl (keeps_execEngineOutOfUse h)
  | kennelWrite => exact .inl (keeps_execKennelWrite h)
  | generate => exact .inl (keeps_execGenerate h)
  | erase => exact .inl (keeps_execErase h)
  | forceErase => exact .inl (keeps_execForceErase h)
  | readMeta => exact .inl (keeps_execReadMeta h)
  | wrapExport => exact .inl (keeps_execWrapExport h)
  | wrapImport => exact .inl (keeps_execWrapImport h)
  | revokedUserStop => exact .inl (keeps_execRevokedUserStop h)
  | channelStart => exact .inl (keeps_execChannelStart h)
  | precheckDone => exact .inl (keeps_execPrecheckDone h)
  | chunkDone => exact .inl (keeps_execChunkDone h)
  | dmaAbort => exact .inl (keeps_execDmaAbort h)
  | dmaRetry => exact .inl (keeps_execDmaRetry h)
  | dmaClear => exact .inl (keeps_execDmaClear h)
  | linkTrained => exact .inl (keeps_execLinkTrained h)
  | busMasterEnableClear => exact .inl (keeps_execBusMasterEnableClear h)
  | busMasterEnableSet => exact .inl (keeps_execBusMasterEnableSet h)
  | functionDrainEnd => exact .inl (keeps_execFunctionDrainEnd h)
  | initiateFlr => exact .inl (keeps_execInitiateFlr h)
  | flrEnd => exact .inl (keeps_execFlrEnd h)
  | dStateChange => exact .inl (keeps_execDStateChange h)
  | unsupportedBarAccess => exact .inl (keeps_execUnsupportedBarAccess h)
  | sqTail => exact .inl (keeps_execSqTail h)
  | cqHead => exact .inl (keeps_execCqHead h)
  | fetchStart => exact .inl (keeps_execFetchStart h)
  | headPointerWriteBack => exact .inl (keeps_execHeadPointerWriteBack h)
  | dispatch => exact .inl (keeps_execDispatch h)
  | msixSend => exact .inl (keeps_execMsixSend h)
  | translationCompletion => exact .inl (keeps_execTranslationCompletion h)
  | invalidationRequest => exact .inl (keeps_execInvalidationRequest h)
  | pageRequestResponse => exact .inl (keeps_execPageRequestResponse h)
  | completionReceived => exact .inl (keeps_execCompletionReceived h)
  | completionTimeout => exact .inl (keeps_execCompletionTimeout h)
  | tagQuarantineEnd => exact .inl (keeps_execTagQuarantineEnd h)
  | dlDown => exact .inl (keeps_execDlDown h)
  | l0sEntry => exact .inl (keeps_execL0sEntry h)
  | l1Entry => exact .inl (keeps_execL1Entry h)
  | l1Exit => exact .inl (keeps_execL1Exit h)
  | l12Entry => exact .inl (keeps_execL12Entry h)
  | doeDiscovery => exact .inl (keeps_execDoeDiscovery h)
  | getDigests => exact .inl (keeps_execGetDigests h)
  | challenge => exact .inl (keeps_execChallenge h)
  | getMeasurements => exact .inl (keeps_execGetMeasurements h)
  | keyExchange => exact .inl (keeps_execKeyExchange h)
  | ideKm => exact .inl (keeps_execIdeKm h)
  | sliceEnable => exact .inl (keeps_execSliceEnable h)
  | sliceReset => exact .inl (keeps_execSliceReset h)
  | sliceItemRetire => exact .inl (keeps_execSliceItemRetire h)
  | sliceZero => exact .inl (keeps_execSliceZero h)
  | resetSequenceEnd => exact .inl (keeps_execResetSequenceEnd h)
  | sliceFreeze => exact .inl (keeps_execSliceFreeze h)
  | freezeComplete => exact .inl (keeps_execFreezeComplete h)
  | freezeTimeout => exact .inl (keeps_execFreezeTimeout h)
  | sliceResume => exact .inl (keeps_execSliceResume h)
  | sliceSave => exact .inl (keeps_execSliceSave h)
  | sliceRestore => exact .inl (keeps_execSliceRestore h)
  | restoreDone => exact .inl (keeps_execRestoreDone h)
  | sliceDisable => exact .inl (keeps_execSliceDisable h)
  | ledgerRelease => exact .inl (keeps_execLedgerRelease h)
  | reDispatch => exact .inl (keeps_execReDispatch h)
  | memoryUncorrectable => exact .inl (keeps_execMemoryUncorrectable h)
  | heartbeatReceived => exact .inl (keeps_execHeartbeatReceived h)
  | deltaReceived _ _ _ final => exact .inl (keeps_execDeltaReceived (final := final) h)
  | deltaAckReceived => exact .inl (keeps_execDeltaAckReceived h)
  | deltaApply => exact .inl (keeps_execDeltaApply h)
  | takeover => exact .inl (keeps_execTakeover h)
  | hardFault => exact .inl (keeps_execHardFault h)
  | pairHfInTakeover => exact .inl (keeps_execPairHfInTakeover h)
  | startWaitExpiry => exact .inl (keeps_execStartWaitExpiry h)
  | syncComplete => exact .inl (keeps_execSyncComplete h)
  | pairLinkDown => exact .inl (keeps_execPairLinkDown h)
  | pairLinkUp => exact .inl (keeps_execPairLinkUp h)
  | grant => exact .inl (keeps_execGrant h)
  | holdDownExpiry => exact .inl (keeps_execHoldDownExpiry h)
  | islandPowerOnReset => exact .inl (keeps_execIslandPowerOnReset h)
  | islandReset => exact .inl (keeps_execIslandReset h)
  | mainDomainReset => exact .inl (keeps_execMainDomainReset h)
  | stage1Pass => exact .inl (keeps_execStage1Pass h)
  | backoffExpiry => exact .inl (keeps_execBackoffExpiry h)
  | trialTimerExpiry => exact .inl (keeps_execTrialTimerExpiry h)
  | challengeSignatureReady => exact .inl (keeps_execChallengeSignatureReady h)
  | uhOpen => exact .inl (keeps_execUhOpen h)
  | uhProve => exact .inl (keeps_execUhProve h)
  | proveTimeout => exact .inl (keeps_execProveTimeout h)
  | uhClose => exact .inl (keeps_execUhClose h)
  | keepalive => exact .inl (keeps_execKeepalive h)
  | sessionIdleExpiry => exact .inl (keeps_execSessionIdleExpiry h)
  | uhDescribe => exact .inl (keeps_execUhDescribe h)
  | uhRead => exact .inl (keeps_execUhRead h)
  | uhWrite => exact .inl (keeps_execUhWrite h)
  | blockRead => exact .inl (keeps_execBlockRead h)
  | blockWrite => exact .inl (keeps_execBlockWrite h)
  | subscribe => exact .inl (keeps_execSubscribe h)
  | uhEvent => exact .inl (keeps_execUhEvent h)
  | eventAck => exact .inl (keeps_execEventAck h)
  | eventRetryExpiry => exact .inl (keeps_execEventRetryExpiry h)
  | reservedOp => exact .inl (keeps_execReservedOp h)
  | malformedPdu => exact .inl (keeps_execMalformedPdu h)
  | mbGo => exact .inl (keeps_execMbGo h)
  | eventReadyClear => exact .inl (keeps_execEventReadyClear h)
  | shortPress => exact .inl (keeps_execShortPress h)
  | longPress => exact .inl (keeps_execLongPress h)
  | latchOpen => exact .inl (keeps_execLatchOpen h)
  | latchClose => exact .inl (keeps_execLatchClose h)
  | latchFault => exact .inl (keeps_execLatchFault h)
  | cageInserted => exact .inl (keeps_execCageInserted h)
  | moduleReady => exact .inl (keeps_execModuleReady h)
  | moduleFault => exact .inl (keeps_execModuleFault h)
  | cageInitTimeout => exact .inl (keeps_execCageInitTimeout h)
  | moduleRemoval => exact .inl (keeps_execModuleRemoval h)
  | t1lLinkUp => exact .inl (keeps_execT1lLinkUp h)
  | t1lLinkDown => exact .inl (keeps_execT1lLinkDown h)
  | islandPowerEffect => exact .inl (keeps_execIslandPowerEffect h)
  | islandHoldOffExpiry => exact .inl (keeps_execIslandHoldOffExpiry h)
  | pwrGoodRise => exact .inl (keeps_execPwrGoodRise h)
  | railGoodTimeout => exact .inl (keeps_execRailGoodTimeout h)
  | mainResetRelease => exact .inl (keeps_execMainResetRelease h)
  | mainHoldOffExpiry => exact .inl (keeps_execMainHoldOffExpiry h)
  | mainPowerDown => exact .inl (keeps_execMainPowerDown h)
  | railFault => exact .inl (keeps_execRailFault h)
  | refclkLoss => exact .inl (keeps_execRefclkLoss h)
  | refclkRelock => exact .inl (keeps_execRefclkRelock h)
  | junctionOver105 => exact .inl (keeps_execJunctionOver105 h)
  | thermalTrip => exact .inl (keeps_execThermalTrip h)
  | tjHour => exact .inl (keeps_execTjHour h)
  | tapReset => exact .inl (keeps_execTapReset h)
  | idcode => exact .inl (keeps_execIdcode h)
  | samplePreload => exact .inl (keeps_execSamplePreload h)
  | extest => exact .inl (keeps_execExtest h)
  | clamp => exact .inl (keeps_execClamp h)
  | highz => exact .inl (keeps_execHighz h)
  | debug => exact .inl (keeps_execDebug h)
  | bypass => exact .inl (keeps_execBypass h)
  | debugHalt => exact .inl (keeps_execDebugHalt h)
  | debugResume => exact .inl (keeps_execDebugResume h)
  | debugStep => exact .inl (keeps_execDebugStep h)
  | abortStaged => exact .inl (keeps_execAbortStaged h)
  | abortWait => exact .inl (keeps_execAbortWait h)
  | regRead => exact .inl (keeps_execRegRead h)
  | regWrite => exact .inl (keeps_execRegWrite h)
  | memRead => exact (keeps_dbgMem h fun _ => heldSome_memRead).imp id fun e => ⟨.inl rfl, e⟩
  | memWrite => exact (keeps_dbgMem h fun _ => heldSome_memWrite).imp id fun e => ⟨.inr (.inl rfl), e⟩
  | norErase => exact (keeps_dbgMem h fun _ => heldSome_norErase).imp id fun e => ⟨.inr (.inr rfl), e⟩
  | unlock => exact .inl (keeps_execUnlock h)
  | relock => exact .inl (keeps_execRelock h)
  | newChallenge => exact .inl (keeps_execNewChallenge h)
  | breakpoint => exact .inl (keeps_execBreakpoint h)
  | freezeMaxExpiry => exact .inl (keeps_execFreezeMaxExpiry h)
  | faultLogBlockWrite => exact .inl (keeps_execFaultLogBlockWrite h)
  | registerWrite => exact .inl (keeps_execRegisterWrite h)
  | islandSupplyLoss => exact .inl (keeps_execIslandSupplyLoss h)
  | perstAssert => exact .inl (keeps_execPerstAssert h)
  | vfEnable => exact .inl (keeps_execVfEnable h)
  | getCertificate => exact .inl (keeps_execGetCertificate h)
  | junctionAbove100 => exact .inl (keeps_execJunctionAbove100 h)
  | eyeMarginLow => exact .inl (keeps_execEyeMarginLow h)

end Sys2Proof.Machine.Laws
end

section
/-!
CLAIMS. A step takes the front command, and every command completes.
-/

namespace Sys2Proof.Proofs

open Sys2Proof Sys2Proof.Machine Sys2Proof.Machine.Laws

set_option Elab.async false

/-- Settles O55: both cases of the queue are cases of `step`. -/
theorem stepTakesTheFrontCommand : Obligations.StepTakesTheFrontCommand := by
  unfold Obligations.StepTakesTheFrontCommand
  refine ⟨fun c rest s => rfl, fun s h => ?_⟩
  simp [step, h]

/-- Settles O58: every arm of `exec` keeps the queue, and the accesses of the debug port to memory alone can fault. -/
theorem everyCommandCompletes : Obligations.EveryCommandCompletes := by
  unfold Obligations.EveryCommandCompletes
  intro c s
  obtain ⟨t, ht, hpending, -⟩ | hfault := keeps_exec (i := c) (s₀ := s) ⟨rfl, id⟩
  · exact .inl ⟨t, ht, hpending⟩
  · exact .inr hfault

end Sys2Proof.Proofs
end

section
/-!
SUPPORT. What the operations of the host links do: a link takes a state, wakes, goes down (11 R249, R250, R264).
-/

namespace Sys2Proof.Machine.Laws

open Sys2Proof Sys2Proof.Machine

set_option Elab.async false

@[simp] theorem linkPut_hst (s : State) (k : Nat) (l : Link) :
    (linkPut s k l).hst = { s.hst with links := lset s.hst.links k l } := by
  dsimp only [linkPut]
  split
  · rfl
  · simp

@[simp] theorem linkPut_vals (s : State) (k : Nat) (l : Link) : (linkPut s k l).objs.vals = s.objs.vals := by
  dsimp only [linkPut]
  split
  · rfl
  · simp

@[simp] theorem linkPut_out (s : State) (k : Nat) (l : Link) : (linkPut s k l).out = s.out := by
  dsimp only [linkPut]
  split
  · rfl
  · simp

@[simp] theorem linkGet_linkPut {s : State} {k : Nat} (l : Link) (h : k < s.hst.links.length) :
    linkGet (linkPut s k l) k = l := by
  simp [linkGet, lset, h]

@[simp] theorem linkGet_emit (s : State) (o : Output) (k : Nat) : linkGet (emit s o) k = linkGet s k := rfl

@[simp] theorem linkGet_countLink (s : State) (j sub k : Nat) : linkGet (countLink s j sub) k = linkGet s k := rfl

@[simp] theorem emit_out (s : State) (o : Output) : (emit s o).out = s.out ++ [o] := rfl

@[simp] theorem countLink_hst (s : State) (j sub : Nat) : (countLink s j sub).hst = s.hst := rfl

@[simp] theorem countLink_out (s : State) (j sub : Nat) : (countLink s j sub).out = s.out := rfl

theorem length_linkPut (s : State) (k : Nat) (l : Link) : (linkPut s k l).hst.links.length = s.hst.links.length := by
  simp [length_lset]

/-- A number of the machine's four links. -/
theorem link_lt {s : State} (h : s.hst.links.length = 4) (k : BitVec 2) : k.toNat < s.hst.links.length := h ▸ k.isLt

/-- A link that wakes is in L0, and nothing else of it changes. -/
theorem linkGet_wakeLink {s : State} {k : Nat} (h : k < s.hst.links.length) :
    linkGet (wakeLink s k) k = { linkGet s k with pm := .l0 } := by
  unfold wakeLink
  split
  next hpm => rw [← hpm]
  next => exact linkGet_linkPut _ h

/-- A link that goes down keeps the number of links. -/
theorem length_linkDown {s : State} (k : Nat) (h : s.hst.links.length = 4) : (linkDown s k).hst.links.length = 4 :=
  (held_linkDown (s₀ := s) (s := s) ⟨rfl, id⟩).2 h

theorem linkGet_linkDown {s : State} {k : BitVec 2} (h : s.hst.links.length = 4) :
    (linkGet (linkDown s k.toNat) k.toNat).state = 1 ∧ (linkGet (linkDown s k.toNat) k.toNat).rate = 0 ∧
      (linkGet (linkDown s k.toNat) k.toNat).width = 0 := by
  have hlen := length_linkDown k.toNat h
  unfold linkDown at hlen ⊢
  extract_lets at hlen ⊢
  rw [length_linkPut] at hlen
  rw [linkGet_linkPut _ (link_lt hlen k)]
  exact ⟨rfl, rfl, rfl⟩

/-- The width that LINK_TRAINED gives a link: the widest that the partner and the bifurcation allow (11 R250). -/
def trainedWidth (width most : Nat) : Nat :=
  (([1, 2, 4, 8, 16].filter (fun n => decide (n ≤ width) && decide (n ≤ most))).getLast?).getD 0

theorem trainedWidth_mem {width most : Nat} (hw : 1 ≤ width) (hm : 1 ≤ most) :
    trainedWidth width most ∈ [1, 2, 4, 8, 16].filter (fun n => decide (n ≤ width) && decide (n ≤ most)) := by
  have hne : [1, 2, 4, 8, 16].filter (fun n => decide (n ≤ width) && decide (n ≤ most)) ≠ [] := by simp [hw, hm]
  rw [trainedWidth, List.getLast?_eq_getLast_of_ne_nil hne]
  exact List.getLast_mem hne

theorem trainedWidth_spec {width most : Nat} (hw : 1 ≤ width) (hm : 1 ≤ most) :
    trainedWidth width most ≠ 0 ∧ trainedWidth width most ∣ 16 ∧ trainedWidth width most ≤ width := by
  obtain ⟨hmem, hle⟩ := List.mem_filter.mp (trainedWidth_mem hw hm)
  have hle := (Bool.and_eq_true_iff.mp hle).1
  have hcases : trainedWidth width most = 1 ∨ trainedWidth width most = 2 ∨ trainedWidth width most = 4 ∨
      trainedWidth width most = 8 ∨ trainedWidth width most = 16 := by simpa using hmem
  refine ⟨by omega, ?_, of_decide_eq_true hle⟩
  obtain h | h | h | h | h := hcases <;> rw [h] <;> decide

end Sys2Proof.Machine.Laws
end

section
/-!
CLAIMS. Host links (11 R249, R250, R264, R265, R276).
-/

namespace Sys2Proof.Proofs

open Sys2Proof Sys2Proof.Machine Sys2Proof.Machine.Laws

set_option Elab.async false

theorem linkTrained_brings_up {s : State} {k : BitVec 2} {rate : BitVec 3} {w : Nat} {flit : Bool}
    (hlen : s.hst.links.length = 4) (hon : mainOn s = true) (hthere : linkPresent s k.toNat = true)
    (hperst : (linkGet s k.toNat).perst = true) (hstate : (linkGet s k.toNat).state = 1) (hrate : 1 ≤ rate.toNat)
    (htop : rate.toNat ≤ 6) (hmax : 1 ≤ objGet s (0xA100 + k.toNat) 0x05 0) (hw : 1 ≤ w) :
    ∃ t, exec (.linkTrained k rate w flit) s = .next t ∧ (linkGet t k.toNat).state = 3 ∧
      (linkGet t k.toNat).rate = min rate.toNat (objGet s (0xA100 + k.toNat) 0x05 0) ∧
      (linkGet t k.toNat).pm = .l0 ∧ (linkGet t k.toNat).width ∣ 16 ∧ (linkGet t k.toNat).width ≤ w := by
  refine ⟨_, rfl, ?_⟩
  have hmost : 1 ≤ (if s.hst.bifur.getD (k.toNat / 2) 0 = 1 then 8 else 16) := by split <;> omega
  obtain ⟨hwide, hdvd, hle⟩ := trainedWidth_spec hw hmost
  have hlow : min rate.toNat (objGet s (0xA100 + k.toNat) 0x05 0) ≠ 0 := by omega
  rw [if_pos ⟨hon, hthere, hperst, .inl hstate, by omega, by omega, hwide⟩, linkGet_linkPut _ (link_lt hlen k)]
  exact ⟨rfl, rfl, rfl, hdvd, hle⟩

theorem dlDown_takes_down {s : State} {k : BitVec 2} (hlen : s.hst.links.length = 4)
    (hup : (linkGet s k.toNat).state = 3) :
    ∃ t, exec (.dlDown k) s = .next t ∧ (linkGet t k.toNat).state = 1 ∧ (linkGet t k.toNat).rate = 0 ∧
      (linkGet t k.toNat).width = 0 := by
  refine ⟨_, rfl, ?_⟩
  rw [if_pos hup]
  exact linkGet_linkDown hlen

theorem perst_resets_link {s : State} {k : BitVec 2} (hlen : s.hst.links.length = 4) (hon : mainOn s = true)
    (hthere : linkPresent s k.toNat = true) (hperst : (linkGet s k.toNat).perst = true) :
    ∃ t, exec (.perstAssert k false) s = .next t ∧ (linkGet t k.toNat).perst = false ∧ (linkGet t k.toNat).state = 1 := by
  have hexec : execPerstAssert k false s = .next (linkPut (if (linkGet s k.toNat).state = 3 then linkDown s k.toNat else s)
      k.toNat { linkGet (if (linkGet s k.toNat).state = 3 then linkDown s k.toNat else s) k.toNat with
        perst := false, state := 1 }) := by
    simp [execPerstAssert, hthere, hperst, hon]
  refine ⟨_, hexec, ?_⟩
  rw [linkGet_linkPut]
  · exact ⟨rfl, rfl⟩
  · refine link_lt ?_ k
    split
    · exact length_linkDown _ hlen
    · exact hlen

theorem l12Entry_goes_below {s : State} {k : BitVec 2} {up : Nat} (hlen : s.hst.links.length = 4)
    (hup : (linkGet s k.toNat).state = 3) (hpm : (linkGet s k.toNat).pm = .l1)
    (hby : up = (if pciPm s k.toNat then 0 else 2)) (hon : (cfgGet (fnGet s k.toNat 0) 0x1D8).getLsbD up = true) :
    ∃ t, exec (.l12Entry k false) s = .next t ∧ .ltr k.toNat (objGet s (0xA100 + k.toNat) 0x09 0) ∈ t.out ∧
      (linkGet t k.toNat).pm = (if ltrNs (fld (cfgGet (fnGet s k.toNat 0) 0x1D8) 16 10)
          (fld (cfgGet (fnGet s k.toNat 0) 0x1D8) 29 3) ≤ ltrNs (objGet s (0xA100 + k.toNat) 0x09 0 % 1024)
            (objGet s (0xA100 + k.toNat) 0x09 0 / 1024 % 8) then .l12
        else if (cfgGet (fnGet s k.toNat 0) 0x1D8).getLsbD (up + 1) then .l11 else .l1) := by
  subst hby
  refine ⟨_, rfl, ?_⟩
  rw [if_pos ⟨hup, hpm, rfl⟩, if_pos hon]
  generalize (if pciPm s k.toNat then 0 else 2) = up
  have hk := link_lt hlen k
  split
  · simp [hk, length_lset]
  · split <;> simp [hk, length_lset, hpm]

/-- Settles O34, a clause for each command of the links. -/
theorem hostLinksTakeEffect : Obligations.HostLinksTakeEffect := by
  unfold Obligations.HostLinksTakeEffect
  refine ⟨fun s k rate w flit => linkTrained_brings_up, fun s k => dlDown_takes_down, fun s k => perst_resets_link,
    fun s k hlen hup hpm hflit haspm => ?l0s, fun s k hlen hup hpm haspm hreads => ?l1, fun s k hlen => ?exit,
    fun s k up => l12Entry_goes_below⟩
  case l0s =>
    refine ⟨_, rfl, ?_⟩
    rw [if_pos ⟨hup, hpm, hflit, haspm⟩, linkGet_countLink, linkGet_linkPut _ (link_lt hlen k)]
  case l1 =>
    have hquiet : (s.hst.reads.any fun r => r.link == k.toNat && !r.quar) = false := by
      simpa using hreads
    refine ⟨_, rfl, ?_⟩
    rw [if_pos ⟨hup, hpm, by simp [haspm], by simp [hquiet]⟩, linkGet_countLink, linkGet_linkPut _ (link_lt hlen k)]
  case exit =>
    exact ⟨_, rfl, by rw [linkGet_wakeLink (link_lt hlen k)]⟩

end Sys2Proof.Proofs
end

section
/-!
SUPPORT. Counters that an event leaves alone, and what a hard fault does to the pair state (14 R334, R335).
-/

namespace Sys2Proof.Machine.Laws

open Sys2Proof Sys2Proof.Machine

set_option Elab.async false

/-- An event counts under sub-index 9 alone, the missed records of a session. -/
theorem ctrGet_countOverruns {s : State} {e : EvRec} {l : List Session} {j u : Nat} (hu : u < 256) (hne : u ≠ 9) :
    ctrGet (countOverruns s e l) j u 0 = ctrGet s j u 0 := by
  induction l generalizing s with
  | nil => rfl
  | cons x r ih =>
    simp only [countOverruns]
    rw [ih]
    split
    · rw [count, ctrGet_ctrAddAt, if_neg (by unfold okey; omega)]
    · rfl

theorem ctrGet_eventFull {s : State} {k i x n : Nat} {p : BitVec 64} {j u : Nat} (hu : u < 256) (hne : u ≠ 9) :
    ctrGet (eventFull s k i x n p) j u 0 = ctrGet s j u 0 :=
  ctrGet_countOverruns hu hne

theorem ctrGet_event {s : State} {k i n j u : Nat} (hu : u < 256) (hne : u ≠ 9) :
    ctrGet (event s k i n) j u 0 = ctrGet s j u 0 :=
  ctrGet_eventFull hu hne

theorem ctrGet_setPairState {s : State} {p : PairState} (hp : p ≠ .syncing) {j u : Nat} (hu : u < 256) (hne : u ≠ 9) :
    ctrGet (setPairState s p) j u 0 = ctrGet s j u 0 := by
  unfold setPairState
  split
  · rfl
  · exact ctrGet_event hu hne

/-- A hard fault counts once. -/
theorem ctrGet_hardFault (s : State) (cause detail : Nat) :
    ctrGet (hardFault s cause detail) 0xC200 0x05 0 = (ctrGet s 0xC200 0x05 0 + 1) % 2 ^ 64 := by
  have hevent : ∀ n, ctrGet (event (count s 0xC200 0x05) 0x0503 32 n) 0xC200 0x05 0 = (ctrGet s 0xC200 0x05 0 + 1) % 2 ^ 64 :=
    fun n => (ctrGet_event (by decide) (by decide)).trans (ctrGet_count_self s 0xC200 0x05)
  dsimp only [hardFault]
  split
  · exact hevent _
  · exact (ctrGet_setPairState (by decide) (by decide) (by decide)).trans (hevent _)

/-- A device without a partner takes a hard fault and keeps its pair state. -/
theorem hardFault_of_single {s : State} (cause detail : Nat) (h : s.pair.state = .single) :
    (hardFault s cause detail).pair = s.pair := by
  simp [hardFault, h]

theorem setPairState_pair_flags (s : State) (p : PairState) :
    (setPairState s p).pair.muzzled = s.pair.muzzled ∧ (setPairState s p).pair.hfOut = s.pair.hfOut := by
  unfold setPairState
  split
  · exact ⟨rfl, rfl⟩
  · by_cases hp : p = .syncing <;> simp [hp]

/-- PAIR_HF_OUT of a paired device: asserted where it is muzzled, else pending until it is. -/
theorem hardFault_asserts (s : State) (cause detail : Nat) (h : s.pair.state ≠ .single) :
    (hardFault s cause detail).pair.takeover = none ∧
      (if s.pair.muzzled then (hardFault s cause detail).pair.hfOut = true
        else (hardFault s cause detail).pair.hfPending = true) := by
  cases hm : s.pair.muzzled <;> simp [hardFault, fence, h, hm, setPairState_pair_flags]

/-- The state that HARD_FAULT reports the fault in: a fatal health bit found by the scan patterns is latched (14 R325). -/
def scanLatched (s : State) (c : Nat) : State :=
  if c = 6 then { s with pair := { s.pair with latched := s.pair.latched ||| 1 } } else s

theorem scanLatched_pair (s : State) (c : Nat) :
    (scanLatched s c).pair.state = s.pair.state ∧ (scanLatched s c).pair.fence = s.pair.fence ∧
      (scanLatched s c).pair.muzzled = s.pair.muzzled := by
  unfold scanLatched
  split <;> exact ⟨rfl, rfl, rfl⟩

theorem ctrGet_scanLatched (s : State) (c i u e : Nat) : ctrGet (scanLatched s c) i u e = ctrGet s i u e := by
  unfold scanLatched
  split <;> rfl

/-- HARD_FAULT of a cause and detail of the table is one hard fault. -/
theorem exec_hardFault {s : State} {c : BitVec 8} {d : BitVec 32} (h : hardCause c.toNat d.toNat = true) :
    ∃ detail, exec (.hardFault c d) s = .next (hardFault (scanLatched s c.toNat) c.toNat detail) := by
  change ∃ detail, execHardFault c d s = _
  by_cases hscan : c.toNat = 6
  · rw [hscan] at h
    exact ⟨(healthWord (scanLatched s 6)).toNat, by simp [execHardFault, h, hscan, scanLatched]⟩
  · exact ⟨d.toNat, by simp [execHardFault, h, hscan, scanLatched]⟩

theorem exec_hardFault_of_other {s : State} {c : BitVec 8} {d : BitVec 32} (h : hardCause c.toNat d.toNat = false) :
    exec (.hardFault c d) s = .next s :=
  congrArg Host.Outcome.next (if_pos (by simp [h]))

theorem getLsbD_or_bit (w : BitVec 32) {n : Nat} (h : n < 32) : (w ||| BitVec.ofNat 32 (2 ^ n)).getLsbD n = true := by
  rw [BitVec.getLsbD_or, BitVec.getLsbD_ofNat, Nat.testBit_two_pow_self]
  simp [h]

end Sys2Proof.Machine.Laws
end

section
/-!
CLAIMS. Hard faults (14 R325, R334, R335, Table 14-9).
-/

namespace Sys2Proof.Proofs

open Sys2Proof Sys2Proof.Machine Sys2Proof.Machine.Laws

set_option Elab.async false

/-- The causes and details of Table 14-9. -/
theorem hardCause_iff (c : BitVec 8) (d : BitVec 32) :
    hardCause c.toNat d.toNat = true ↔
      1 ≤ c.toNat ∧ c.toNat ≤ 10 ∧ ((c = 3 ∨ c = 4 ∨ c = 7) → d = 0) ∧ (c = 5 → d = 28 ∨ d = 32 ∨ d = 33) := by
  simp only [hardCause, Bool.and_eq_true, Bool.not_eq_true', decide_eq_true_eq, Bool.and_eq_false_iff,
    Bool.or_eq_false_iff, beq_eq_false_iff_ne, bne_eq_false_iff_eq]
  bv_omega

/-- Settles O44: a hard fault fences unless the device is SINGLE. -/
theorem hardFaultsFenceAPairedDevice : Obligations.HardFaultsFenceAPairedDevice := by
  unfold Obligations.HardFaultsFenceAPairedDevice
  refine ⟨fun s c d hlow hhigh hzero hisland => ?known, fun s c d hbad => ?other, fun s b hb => ?eye⟩
  case known =>
    obtain ⟨detail, hexec⟩ := exec_hardFault (s := s) ((hardCause_iff c d).2 ⟨hlow, hhigh, hzero, hisland⟩)
    obtain ⟨hstate, hfence, hmuzzled⟩ := scanLatched_pair s c.toNat
    refine ⟨_, hexec, by rw [ctrGet_hardFault, ctrGet_scanLatched], ?_⟩
    split
    next hsingle =>
      rw [hardFault_of_single _ _ (hstate.trans hsingle)]
      exact ⟨hstate.trans hsingle, hfence⟩
    next hpaired =>
      obtain ⟨hfault, hfenced⟩ := hardFault_fences _ c.toNat detail (hstate ▸ hpaired)
      obtain ⟨htakeover, hout⟩ := hardFault_asserts _ c.toNat detail (hstate ▸ hpaired)
      exact ⟨hfault, hfenced, htakeover, hmuzzled ▸ hout⟩
  case other =>
    refine exec_hardFault_of_other (Bool.eq_false_iff.2 fun hgood => ?_)
    obtain ⟨hlow, hhigh, hzero, hisland⟩ := (hardCause_iff c d).1 hgood
    obtain hc | hc | ⟨hc, hd⟩ | ⟨hc, h28, h32, h33⟩ := hbad
    · omega
    · omega
    · exact hd (hzero hc)
    · obtain hd | hd | hd := hisland hc
      · exact h28 hd
      · exact h32 hd
      · exact h33 hd
  case eye =>
    refine ⟨_, congrArg Host.Outcome.next (if_pos hb), getLsbD_or_bit _ (by omega), rfl⟩

end Sys2Proof.Proofs
end

section
/-!
SUPPORT. What a command of one lane leaves alone (02 R38, Table 2-4).
-/

namespace Sys2Proof.Machine.Laws

open Sys2Proof Sys2Proof.Machine

set_option Elab.async false

/-- From `b` to `s` lane `n` has worked: the other lanes, the receive buffers, the PLLs, device memory, the ledger, the keys, the
DMA channels, the timetable and the object values stand as they did. -/
def LaneWork (n : Nat) (b s : State) : Prop :=
  (∀ m, m ≠ n → lane s m = lane b m) ∧ s.net.rx = b.net.rx ∧ s.net.pllLocked = b.net.pllLocked ∧ s.hbm = b.hbm ∧
    s.led = b.led ∧ s.ken = b.ken ∧ s.dma = b.dma ∧ s.tt = b.tt ∧ s.objs.vals = b.objs.vals

section

variable {n : Nat} {b s : State}

theorem laneWork_self (n : Nat) (s : State) : LaneWork n s s := ⟨fun _ _ => rfl, rfl, rfl, rfl, rfl, rfl, rfl, rfl, rfl⟩

theorem laneWork_count {i u : Nat} (h : LaneWork n b s) : LaneWork n b (count s i u) := h

theorem laneWork_ite {p : Prop} [Decidable p] {u v : State} (hu : LaneWork n b u) (hv : LaneWork n b v) :
    LaneWork n b (if p then u else v) :=
  iteInduction (fun _ => hu) (fun _ => hv)

theorem laneWork_eventFull {k i x u : Nat} {p : BitVec 64} (h : LaneWork n b s) : LaneWork n b (eventFull s k i x u p) := by
  unfold LaneWork lane at *
  simpa using h

theorem laneWork_noteDown {v : State} {p : Nat} (h : LaneWork n b s) : LaneWork n b (noteDown v s p) := laneWork_ite h h

theorem laneWork_notePort {v : State} {p : Nat} (h : LaneWork n b s) : LaneWork n b (notePort v s p) :=
  laneWork_ite h (laneWork_eventFull h)

theorem laneWork_setLane {l : Lane} (h : LaneWork n b s) : LaneWork n b (setLane s n l) := by
  have hput : LaneWork n b { s with net := { s.net with lanes := lset s.net.lanes n l } } := by
    obtain ⟨hlane, hrest⟩ := h
    refine ⟨fun m hm => ?_, hrest⟩
    rw [← hlane m hm]
    simp [lane, lset, hm.symm]
  have hnote := laneWork_notePort (v := s) (p := portOfLane s n) (laneWork_noteDown (v := s) (p := portOfLane s n) hput)
  exact laneWork_ite (laneWork_eventFull hnote) hnote

theorem laneWork_discardFrame {p sub : Nat} (h : LaneWork n b s) : LaneWork n b (discardFrame s p sub) :=
  laneWork_ite (laneWork_count (laneWork_count h)) (laneWork_count h)

theorem laneWork_restartAn (h : LaneWork n b s) : LaneWork n b (restartAn s n) := laneWork_setLane (laneWork_count h)

theorem laneWork_startTraining {l : Lane} (h : LaneWork n b s) : LaneWork n b (startTraining s n l) :=
  laneWork_setLane (s := takeCalib s 0 [n]) h

theorem laneWork_laneFault (h : LaneWork n b s) : LaneWork n b (laneFault s n) := laneWork_ite h (laneWork_setLane h)

end

/-- A command of a lane is work of that lane. -/
theorem laneWork_of_command {s t : State} {n : BitVec 5} {c : Instr}
    (hc : c = .trainingDone n ∨ c = .lockAcquired n ∨ c = .trainingFailure n ∨ c = .serdesFault n ∨
      (∃ mid, c = .lossOfLock n mid) ∨ (∃ ab rs br ba, c = .anResolution n ab rs br ba)) (h : exec c s = .next t) :
    LaneWork n.toNat s t := by
  have hself := laneWork_self n.toNat s
  obtain rfl | rfl | rfl | rfl | ⟨mid, rfl⟩ | ⟨ab, rs, br, ba, rfl⟩ := hc <;> cases h
  case inl | inr.inl => exact laneWork_ite (laneWork_setLane hself) hself
  case inr.inr.inl => exact laneWork_ite (laneWork_restartAn (laneWork_count hself)) hself
  case inr.inr.inr.inl => exact laneWork_laneFault hself
  case inr.inr.inr.inr.inl =>
    have hframe := laneWork_ite (p := mid = true ∧ operUp s (portOfLane s n.toNat) = true)
      (laneWork_discardFrame (p := portOfLane s n.toNat) (sub := 0x03) hself) hself
    exact laneWork_ite (laneWork_ite (laneWork_setLane hframe) (laneWork_restartAn hframe)) hself
  case inr.inr.inr.inr.inr =>
    refine laneWork_ite ?_ hself
    split
    · exact hself
    · exact laneWork_ite (laneWork_setLane hself) (laneWork_startTraining hself)

end Sys2Proof.Machine.Laws
end

section
/-!
CLAIMS. Lane commands leave the other blocks alone (02 Table 2-4).
-/

namespace Sys2Proof.Proofs

open Sys2Proof Sys2Proof.Machine Sys2Proof.Machine.Laws

set_option Elab.async false

/-- Settles O2: each of the six commands is work of its lane. -/
theorem laneCommandsKeepOtherState : Obligations.LaneCommandsKeepOtherState := by
  unfold Obligations.LaneCommandsKeepOtherState
  intro s t n c hc h
  obtain ⟨hlane, hrx, hpll, hmem, hled, hken, hdma, htt, hvals⟩ := laneWork_of_command hc h
  exact ⟨hlane, hrx, hpll, sameMemory_of_hbm hmem, hled, hken, hdma, htt, objGet_congr hvals⟩

end Sys2Proof.Proofs
end

section
/-!
SUPPORT. What the host endpoint's links, doorbells, interrupts, invalidations and fetches leave alone (11 R258, R259, R264).
-/

namespace Sys2Proof.Machine.Laws

open Sys2Proof Sys2Proof.Machine

set_option Elab.async false

/-- From `b` to `s` the host endpoint has worked: device memory and all that carries frames, runs threads or holds keys stand as
they did. -/
def HostWork (b s : State) : Prop :=
  s.hbm = b.hbm ∧ s.net = b.net ∧ s.pipe = b.pipe ∧ s.shp = b.shp ∧ s.tt = b.tt ∧ s.fwd = b.fwd ∧ s.stg = b.stg ∧
    s.jx = b.jx ∧ s.ken = b.ken ∧ s.pending = b.pending

section

variable {b s : State} {p : Prop} [Decidable p]

theorem hostWork_self (s : State) : HostWork s s := ⟨rfl, rfl, rfl, rfl, rfl, rfl, rfl, rfl, rfl, rfl⟩

/-- An update of other parts of the state. -/
theorem hostWork_with {clk objs led pair logs uhl tc cip dma hst slc boot isl pwr dbg out fresh} (h : HostWork b s) :
    HostWork b { s with
      clk := clk, objs := objs, led := led, pair := pair, logs := logs, uhl := uhl, tc := tc, cip := cip, dma := dma
      hst := hst, slc := slc, boot := boot, isl := isl, pwr := pwr, dbg := dbg, out := out, fresh := fresh } := h

theorem hostWork_ite {u v : State} (hu : HostWork b u) (hv : HostWork b v) : HostWork b (if p then u else v) :=
  iteInduction (fun _ => hu) (fun _ => hv)

theorem hostWork_count {i u : Nat} (h : HostWork b s) : HostWork b (count s i u) := h

theorem hostWork_emit {o : Output} (h : HostWork b s) : HostWork b (emit s o) := h

theorem hostWork_fnPut {link fn : Nat} {f : Fn} (h : HostWork b s) : HostWork b (fnPut s link fn f) := h

theorem hostWork_qpPut {k : Nat} {x : Qp} (h : HostWork b s) : HostWork b (qpPut s k x) := h

theorem hostWork_event {k i n : Nat} (h : HostWork b s) : HostWork b (event s k i n) := by
  unfold HostWork at *
  simpa using h

theorem hostWork_record {r : DeltaRec} (h : HostWork b s) : HostWork b (record s r) := hostWork_ite h h

theorem hostWork_linkPut {k : Nat} {l : Link} (h : HostWork b s) : HostWork b (linkPut s k l) :=
  hostWork_ite h (hostWork_event h)

theorem hostWork_wakeLink {k : Nat} (h : HostWork b s) : HostWork b (wakeLink s k) := hostWork_ite h (hostWork_linkPut h)

theorem hostWork_settleInvals (h : HostWork b s) : HostWork b (settleInvals s) :=
  List.foldlRecOn (motive := HostWork b) _ _ h fun _ ht _ _ => ht

theorem hostWork_doorbellRefused {link k : Nat} (h : HostWork b s) : HostWork b (doorbellRefused s link k) := by
  unfold doorbellRefused
  split
  · exact hostWork_ite h h
  · exact h

theorem hostWork_doorbell {link page q : Nat} {act : State → Nat → State} (h : HostWork b s)
    (hact : ∀ t k, HostWork b t → HostWork b (act t k)) : HostWork b (doorbell s link page q act) := by
  unfold doorbell
  split
  · exact hostWork_ite (hostWork_fnPut h) h
  · exact hostWork_ite (hostWork_count (hostWork_wakeLink h)) (hact _ _ (hostWork_wakeLink h))

theorem hostWork_setChan {c : Nat} {x : Chan} (h : HostWork b s) : HostWork b (setChan s c x) := by
  obtain ⟨_, heq⟩ := setChan_eq s c x
  rw [heq]
  exact h

/-- A start of some bytes only sets the channel's registers (10 R227). -/
theorem hostWork_dmaStart {c : Nat} {x : Chan} {route : Route} {owner : Option Nat} (hcount : x.count ≠ 0)
    (h : HostWork b s) : HostWork b (dmaStart s c x route owner) := by
  rw [dmaStart_eq, if_neg hcount]
  exact hostWork_setChan h

end

/-! ## Channels: where none is in use, none issues anything or stops -/

theorem pumpAll_of_no_chans {s : State} (h : s.dma.chans = []) : pumpAll s = s := by simp [pumpAll, h]

theorem dmaStopAll_of_no_chans {s : State} (which : Nat → Chan → Bool) (status detail : BitVec 8) (h : s.dma.chans = []) :
    dmaStopAll s which status detail = s := by
  simp [dmaStopAll, h]

theorem hostWork_bmeSet {b s : State} {link fn : Nat} (hchans : s.dma.chans = []) (h : HostWork b s) :
    HostWork b (bmeSet s link fn) := by
  refine hostWork_ite h (hostWork_ite (hostWork_fnPut h) ?_)
  rw [pumpAll_of_no_chans (by simpa using hchans)]
  exact hostWork_fnPut h

/-- A fetch of one to 32 descriptors has bytes to move. -/
theorem fetch_count_ne_zero {m esz : Nat} (hm : m ≠ 0) (hmax : m ≤ 32) (hesz : esz = 32 ∨ esz = 64) :
    BitVec.ofNat 32 (m * esz) ≠ 0 := by
  have hpos : 0 < m * esz := Nat.mul_pos (by omega) (by omega)
  have hle : m * esz ≤ 32 * 64 := Nat.mul_le_mul hmax (by omega)
  bv_omega

theorem hostWork_execFetchStart {s t : State} {qp : Nat} (h : execFetchStart qp s = .next t) : HostWork s t := by
  cases h
  have hself := hostWork_self s
  split
  · exact hself
  · refine hostWork_ite hself ?_
    extract_lets want quota _ s₁ _ s₂ m esz
    have hs₁ : HostWork s s₁ := by
      unfold s₁
      split
      · exact hostWork_ite hself hself
      · exact hself
    have hs₂ : HostWork s s₂ := hostWork_ite hs₁ hs₁
    by_cases hm : m = 0
    · rw [if_pos hm]
      exact hs₂
    · rw [if_neg hm]
      refine hostWork_dmaStart (fetch_count_ne_zero hm (by omega) ?_) (hostWork_qpPut hs₂)
      unfold esz
      split
      · exact .inl rfl
      · exact .inr rfl

/-- A command of the host links, doorbells, interrupts, invalidations and fetches is work of the host endpoint. -/
theorem hostWork_of_command {s t : State} {c : Instr}
    (hc : (∃ k r w f, c = .linkTrained k r w f) ∨ (∃ k, c = .l0sEntry k ∨ c = .l1Entry k ∨ c = .l1Exit k ∨ ∃ q, c = .l12Entry k q) ∨
      (∃ k p q v, c = .sqTail k p q v ∨ c = .cqHead k p q v) ∨ (∃ k fn v, c = .msixSend k fn v) ∨
      (∃ k fn o n w p, c = .unsupportedBarAccess k fn o n w p) ∨ (∃ k fn p a n, c = .invalidationRequest k fn p a n) ∨
      (∃ qp, c = .fetchStart qp) ∨ (s.dma.chans = [] ∧ ∃ k fn, c = .busMasterEnableSet k fn))
    (h : exec c s = .next t) : HostWork s t := by
  have hself := hostWork_self s
  obtain ⟨k, r, w, f, rfl⟩ | ⟨k, rfl | rfl | rfl | ⟨q, rfl⟩⟩ | ⟨k, p, q, v, rfl | rfl⟩ | ⟨k, fn, v, rfl⟩ |
    ⟨k, fn, o, n, w, p, rfl⟩ | ⟨k, fn, p, a, n, rfl⟩ | ⟨qp, rfl⟩ | ⟨hchans, k, fn, rfl⟩ := hc
  · cases h
    exact hostWork_ite (hostWork_linkPut hself) hself
  · cases h
    exact hostWork_ite (hostWork_count (hostWork_linkPut hself)) hself
  · cases h
    exact hostWork_ite (hostWork_count (hostWork_linkPut hself)) hself
  · cases h
    exact hostWork_wakeLink hself
  · cases h
    have hltr := hostWork_emit (o := .ltr k.toNat (objGet s (0xA100 + k.toNat) 0x09 0))
      (hostWork_linkPut (k := k.toNat) (l := { linkGet s k.toNat with ltr := objGet s (0xA100 + k.toNat) 0x09 0 }) hself)
    exact hostWork_ite (hostWork_ite
      (hostWork_ite (hostWork_count (hostWork_count (hostWork_linkPut hltr)))
        (hostWork_ite (hostWork_count (hostWork_linkPut hltr)) hltr))
      (hostWork_ite (hostWork_count (hostWork_linkPut hself)) hself)) hself
  · cases h
    exact hostWork_doorbell hself fun _ _ ht =>
      hostWork_ite (hostWork_record (hostWork_qpPut ht)) (hostWork_doorbellRefused ht)
  · cases h
    exact hostWork_doorbell hself fun _ _ ht =>
      hostWork_ite (hostWork_record (hostWork_qpPut ht)) (hostWork_doorbellRefused ht)
  · cases h
    exact hostWork_ite (hostWork_emit (hostWork_wakeLink (hostWork_fnPut hself))) hself
  · cases h
    exact hostWork_ite hself (hostWork_ite (hostWork_ite (hostWork_fnPut (hostWork_count hself)) hself)
      (hostWork_ite (hostWork_fnPut hself) (hostWork_emit hself)))
  · cases h
    exact hostWork_settleInvals (hostWork_with hself)
  · exact hostWork_execFetchStart h
  · cases h
    exact hostWork_bmeSet hchans hself

end Sys2Proof.Machine.Laws
end

section
/-!
CLAIMS. Host commands leave the other blocks alone (11 R250, R258, R259, R264).
-/

namespace Sys2Proof.Proofs

open Sys2Proof Sys2Proof.Machine Sys2Proof.Machine.Laws

set_option Elab.async false

/-- Settles O38: each of the commands is work of the host endpoint. -/
theorem hostCommandsKeepOtherState : Obligations.HostCommandsKeepOtherState := by
  unfold Obligations.HostCommandsKeepOtherState
  intro s t c hc h
  obtain ⟨hmem, hrest⟩ := hostWork_of_command hc h
  exact ⟨sameMemory_of_hbm hmem, hrest⟩

end Sys2Proof.Proofs
end

section
/-!
SUPPORT. What the operations on host items change of the ledger and of the rest (13 R306, R310).
-/

namespace Sys2Proof.Machine.Laws

open Sys2Proof Sys2Proof.Machine

set_option Elab.async false

/-! ## Work that moves or leaves: the Jutex state alone -/

theorem pumpCluster_eq (c k : Nat) (s : State) : ∃ jx, pumpCluster s c k = { s with jx := jx } := by
  induction k generalizing s with
  | zero => exact ⟨_, rfl⟩
  | succ k ih =>
    unfold pumpCluster
    extract_lets
    split
    · dsimp only
      split
      · obtain ⟨jx, heq⟩ := ih (setEngine (setCluster s c _) _ _)
        exact ⟨jx, heq⟩
      · exact ⟨_, rfl⟩
    · exact ⟨_, rfl⟩

theorem pump_eq (s : State) (c : Nat) : ∃ jx, pump s c = { s with jx := jx } := pumpCluster_eq ..

theorem enterCluster_eq (s : State) (c : Nat) (w : Work) : ∃ jx, enterCluster s c w = { s with jx := jx } := by
  obtain ⟨jx, heq⟩ := pump_eq (setCluster s c { cluster s c with inbox := (cluster s c).inbox ++ [w] }) c
  exact ⟨jx, heq⟩

theorem pumps_eq (l : List Nat) (s : State) : ∃ jx, l.foldl pump s = { s with jx := jx } := by
  refine List.foldlRecOn (motive := fun u : State => ∃ jx, u = { s with jx := jx }) l pump ⟨_, rfl⟩ fun u hu c _ => ?_
  obtain ⟨_, rfl⟩ := hu
  obtain ⟨jx, heq⟩ := pump_eq _ c
  exact ⟨jx, heq⟩

/-- An item that leaves its worker changes the Jutex state and its own note of a worker. -/
theorem takeWork_eq (s : State) (i : Nat) :
    ∃ jx metas, takeWork s i = { s with jx := jx, led := { s.led with metas := metas } } := by
  unfold takeWork
  extract_lets _ _ _ _ _ u
  obtain ⟨jx, heq⟩ := pumps_eq (u.jx.clusters.map (·.1)) u
  exact ⟨jx, _, heq⟩

theorem ledGet_takeWork (s : State) (i n : Nat) : ledGet (takeWork s i) n = ledGet s n := by
  obtain ⟨_, _, heq⟩ := takeWork_eq s i
  rw [heq]
  rfl

/-! ## Entries -/

theorem ledGet_ledPut_ne (s : State) {i n : Nat} (e : LedEntry) (h : n ≠ i) : ledGet (ledPut s i e) n = ledGet s n := by
  unfold ledGet ledPut
  dsimp only
  split
  · simp [sfind_serase, h]
  · simp [sfind_sput, h]

theorem ledGet_ledPut_free (s : State) (i : Nat) {e : LedEntry} (h : e.state = .free) : ledGet (ledPut s i e) i = none := by
  simp [ledGet, ledPut, h, sfind_serase]

@[simp] theorem ledGet_count (s : State) (i u n : Nat) : ledGet (count s i u) n = ledGet s n := rfl

@[simp] theorem ledMeta_count (s : State) (i u n : Nat) : ledMeta (count s i u) n = ledMeta s n := rfl

/-- An entry that is released is there no more. -/
theorem ledGet_ledRetire (s : State) (i : Nat) : ledGet (ledRetire s i) i = none := by
  unfold ledRetire
  split
  next h => exact h
  next => exact ledGet_ledPut_free _ _ rfl

/-- A host item that is not quarantined ends DONE with the status that is fixed for it. -/
theorem entryDone_hostDone {s : State} {i : Nat} {e : LedEntry} (h : ledGet s i = some e) (hq : e.state ≠ .quarantined)
    (status detail : BitVec 8) (result : BitVec 64) : EntryDone (hostDone s i status detail result) i status := by
  have hopen : ledQuarantined s i = false := by simp [ledQuarantined, h, hq]
  obtain ⟨e', he', hdone, hstatus, -⟩ := hostFix_of_entry h status detail result
  rw [hostDone, hopen]
  exact ⟨e', he', hdone, hstatus⟩

/-- The worker that takes an item is noted, and the item is RUNNING. -/
theorem takenBy_spec (s : State) (i : Nat) (e : LedEntry) (w : Worker) :
    ledGet (takenBy s i e w) i = some { e with state := .running } ∧ (ledMeta (takenBy s i e w) i).worker = some w := by
  have hmeta : ∀ m : LedMeta, (ledMeta (ledMetaSet s i { m with worker := some w }) i).worker = some w := fun m => by
    rw [ledMeta_ledMetaSet]
  cases w with
  | core n => exact ⟨ledGet_ledPut (by simp) .., (congrArg _ (ledMeta_ledPut ..)).trans (hmeta _)⟩
  | cluster c => exact ⟨ledGet_ledPut (by simp) .., (congrArg _ (ledMeta_ledPut ..)).trans (hmeta _)⟩

/-! ## What host items leave alone (13 R306, R310) -/

/-- From `b` to `s` a host item of entry `i` has been dispatched or ended: the other entries and the other blocks stand as they
did. -/
def LedgerWork (i : Nat) (b s : State) : Prop :=
  s.hbm = b.hbm ∧ s.net = b.net ∧ s.pipe = b.pipe ∧ s.shp = b.shp ∧ s.tt = b.tt ∧ s.fwd = b.fwd ∧ s.stg = b.stg ∧
    s.ken = b.ken ∧ s.dma = b.dma ∧ s.slc = b.slc ∧ s.hst = b.hst ∧ s.pending = b.pending ∧
    ∀ n, n ≠ i → ledGet s n = ledGet b n

section

variable {i : Nat} {b s : State}

theorem ledgerWork_self (i : Nat) (s : State) : LedgerWork i s s := by simp [LedgerWork]

theorem ledgerWork_ite {p : Prop} [Decidable p] {u v : State} (hu : LedgerWork i b u) (hv : LedgerWork i b v) :
    LedgerWork i b (if p then u else v) :=
  iteInduction (fun _ => hu) (fun _ => hv)

theorem ledgerWork_count {x u : Nat} (h : LedgerWork i b s) : LedgerWork i b (count s x u) := h

theorem ledgerWork_ledMetaSet {n : Nat} {m : LedMeta} (h : LedgerWork i b s) : LedgerWork i b (ledMetaSet s n m) := h

/-- The entry itself takes a value. -/
theorem ledgerWork_entries {e : LedEntry} (h : LedgerWork i b s) :
    LedgerWork i b { s with led := { s.led with entries := sput s.led.entries i e } } := by
  obtain ⟨h1, h2, h3, h4, h5, h6, h7, h8, h9, h10, h11, h12, hled⟩ := h
  refine ⟨h1, h2, h3, h4, h5, h6, h7, h8, h9, h10, h11, h12, fun n hn => ?_⟩
  exact (by simp [ledGet, sfind_sput, hn] : _ = ledGet s n).trans (hled n hn)

theorem ledgerWork_ledPut {e : LedEntry} (h : LedgerWork i b s) : LedgerWork i b (ledPut s i e) := by
  obtain ⟨h1, h2, h3, h4, h5, h6, h7, h8, h9, h10, h11, h12, hled⟩ := h
  refine ⟨?_, ?_, ?_, ?_, ?_, ?_, ?_, ?_, ?_, ?_, ?_, ?_, fun n hn => (ledGet_ledPut_ne s e hn).trans (hled n hn)⟩ <;>
    simpa [ledPut]

theorem ledgerWork_ledFix {status detail : BitVec 8} (h : LedgerWork i b s) : LedgerWork i b (ledFix s i status detail) := by
  unfold ledFix
  split
  · exact h
  · exact ledgerWork_ledMetaSet (ledgerWork_ledPut (ledgerWork_ite (ledgerWork_count h) h))

theorem ledgerWork_hostDone {status detail : BitVec 8} {result : BitVec 64} (h : LedgerWork i b s) :
    LedgerWork i b (hostDone s i status detail result) := by
  refine ledgerWork_ite h ?_
  unfold hostFix
  split
  · exact h
  · dsimp only
    split
    · exact ledgerWork_ledFix (ledgerWork_entries (ledgerWork_ledMetaSet h))
    · exact ledgerWork_ledFix (ledgerWork_ledMetaSet h)

theorem ledgerWork_takenBy {e : LedEntry} {w : Worker} (h : LedgerWork i b s) : LedgerWork i b (takenBy s i e w) := by
  cases w with
  | core n => exact ledgerWork_ledPut (s := { ledMetaSet s i _ with jx := _ }) h
  | cluster c => exact ledgerWork_ledPut (ledgerWork_ledMetaSet h)

theorem ledgerWork_enterCluster {c : Nat} {w : Work} (h : LedgerWork i b s) : LedgerWork i b (enterCluster s c w) := by
  obtain ⟨_, heq⟩ := enterCluster_eq s c w
  rw [heq]
  exact h

theorem ledgerWork_noWorker (h : LedgerWork i b s) : LedgerWork i b (noWorker s i) := ledgerWork_hostDone (ledgerWork_count h)

theorem ledgerWork_dispatchItem {e : LedEntry} (h : LedgerWork i b s) : LedgerWork i b (dispatchItem s i e) := by
  unfold dispatchItem
  refine ledgerWork_ite (ledgerWork_hostDone h) (ledgerWork_ite ?_ ?_)
  · split
    · exact ledgerWork_noWorker h
    · exact ledgerWork_ite h (ledgerWork_enterCluster (ledgerWork_takenBy (ledgerWork_count h)))
  · split
    · exact ledgerWork_noWorker h
    · exact ledgerWork_takenBy h

end

theorem ledgerWork_of_dispatch {s t : State} {c : Instr} {i : BitVec 18} (hc : c = .dispatch i ∨ c = .reDispatch i)
    (h : exec c s = .next t) : LedgerWork i.toNat s t := by
  have hself := ledgerWork_self i.toNat s
  obtain rfl | rfl := hc <;> cases h
  · split
    · exact hself
    · exact ledgerWork_ite (ledgerWork_dispatchItem hself) hself
  · split
    · exact hself
    · exact ledgerWork_ite (ledgerWork_ite (ledgerWork_ledPut (ledgerWork_count hself))
        (ledgerWork_hostDone (ledgerWork_count hself))) hself

/-! ## What the pair link's commands leave alone (14 R321, R323, R334) -/

/-- From `b` to `s` the pair link has worked: memory, and all that carries frames, runs threads, moves data or holds keys, work
and slices stand as they did. -/
def PairWork (b s : State) : Prop :=
  s.hbm = b.hbm ∧ s.net = b.net ∧ s.pipe = b.pipe ∧ s.shp = b.shp ∧ s.tt = b.tt ∧ s.fwd = b.fwd ∧ s.stg = b.stg ∧
    s.jx = b.jx ∧ s.ken = b.ken ∧ s.dma = b.dma ∧ s.slc = b.slc ∧ s.led = b.led ∧ s.pending = b.pending

section

variable {b s : State}

theorem pairWork_self (s : State) : PairWork s s := by simp [PairWork]

theorem pairWork_ite {p : Prop} [Decidable p] {u v : State} (hu : PairWork b u) (hv : PairWork b v) :
    PairWork b (if p then u else v) :=
  iteInduction (fun _ => hu) (fun _ => hv)

theorem pairWork_pair {p : Pair} (h : PairWork b s) : PairWork b { s with pair := p } := h

theorem pairWork_event {k i n : Nat} (h : PairWork b s) : PairWork b (event s k i n) := by
  unfold PairWork at *
  simpa using h

theorem pairWork_hardFault {cause detail : Nat} (h : PairWork b s) : PairWork b (hardFault s cause detail) := by
  unfold PairWork at *
  simpa using h

theorem pairWork_takeLeash {granted : Bool} (h : PairWork b s) : PairWork b (takeLeash s granted) := by
  dsimp only [takeLeash]
  split
  · exact h
  · exact h

theorem pairWork_agreeKey {hello : PairHello} (h : PairWork b s) : PairWork b (agreeKey s hello) := pairWork_ite h h

end

theorem pairWork_execPairLinkUp {b s t : State} {cfg : PartnerCfg} {hello : PairHello} (h : PairWork b s)
    (ht : execPairLinkUp cfg s hello = .next t) : PairWork b t := by
  unfold execPairLinkUp at ht
  cases ht
  exact pairWork_ite (pairWork_event (pairWork_agreeKey h)) h

theorem pairWork_execPairLinkDown {b s t : State} (h : PairWork b s) (ht : execPairLinkDown s = .next t) : PairWork b t := by
  unfold execPairLinkDown at ht
  cases ht
  exact pairWork_ite (pairWork_event h) h

theorem pairWork_execHardFault {b s t : State} {c : BitVec 8} {d : BitVec 32} (h : PairWork b s)
    (ht : execHardFault c d s = .next t) : PairWork b t := by
  unfold execHardFault at ht
  cases ht
  exact pairWork_ite h (pairWork_ite (pairWork_hardFault h) (pairWork_hardFault h))

theorem pairWork_execGrant {b s t : State} {epoch : BitVec 64} (h : PairWork b s) (ht : execGrant epoch s = .next t) :
    PairWork b t := by
  unfold execGrant at ht
  cases ht
  exact pairWork_ite (pairWork_takeLeash (pairWork_pair h)) h

theorem pairWork_execStartWaitExpiry {b s t : State} (h : PairWork b s) (ht : execStartWaitExpiry s = .next t) :
    PairWork b t := by
  unfold execStartWaitExpiry at ht
  cases ht
  exact pairWork_ite (pairWork_takeLeash h) h

theorem pairWork_of_command {s t : State} {c : Instr}
    (hc : (∃ w b rs f, c = .deltaReceived w b rs f) ∨ (∃ e, c = .grant e) ∨ c = .startWaitExpiry ∨ c = .pairHfInTakeover ∨
      c = .pairLinkDown ∨ (∃ cfg hello, c = .pairLinkUp cfg hello) ∨ (∃ x d, c = .hardFault x d) ∨ (∃ b, c = .eyeMarginLow b))
    (h : exec c s = .next t) : PairWork s t := by
  have hself := pairWork_self s
  obtain ⟨w, b, rs, f, rfl⟩ | ⟨e, rfl⟩ | rfl | rfl | rfl | ⟨cfg, hello, rfl⟩ | ⟨x, d, rfl⟩ | ⟨b, rfl⟩ := hc
  · cases h
    exact pairWork_ite hself hself
  · exact pairWork_execGrant hself h
  · exact pairWork_execStartWaitExpiry hself h
  · cases h
    split
    · exact pairWork_ite hself (pairWork_takeLeash hself)
    · exact hself
    · exact hself
  · exact pairWork_execPairLinkDown hself h
  · exact pairWork_execPairLinkUp hself h
  · exact pairWork_execHardFault hself h
  · cases h
    exact pairWork_ite hself hself

end Sys2Proof.Machine.Laws
end

section
/-!
CLAIMS. Host items in the ledger (13 R306, R309, R310, R312), and what ledger and pair commands leave alone.
-/

namespace Sys2Proof.Proofs

open Sys2Proof Sys2Proof.Machine Sys2Proof.Machine.Laws

set_option Elab.async false

/-- Settles O45: a dispatch is work on one entry, and the other commands are work of the pair link. -/
theorem ledgerAndPairCommandsKeepOtherState : Obligations.LedgerAndPairCommandsKeepOtherState := by
  unfold Obligations.LedgerAndPairCommandsKeepOtherState
  refine ⟨fun s t c i hc h => ?_, fun s t c hc h => ?_⟩
  · obtain ⟨hmem, hrest⟩ := ledgerWork_of_dispatch hc h
    exact ⟨sameMemory_of_hbm hmem, hrest⟩
  · obtain ⟨hmem, hrest⟩ := pairWork_of_command hc h
    exact ⟨sameMemory_of_hbm hmem, hrest⟩

/-- DISPATCH of an item that may go is `dispatchItem`. -/
theorem exec_dispatch {s : State} {i : BitVec 18} {e : LedEntry} (he : ledGet s i.toNat = some e) (hkind : e.kind = .host)
    (hstate : e.state = .accepted) (hfirst : firstAccepted s e = true)
    (hopen : e.infra = true ∨ (slice s e.slice).state ≠ .draining) :
    exec (.dispatch i) s = .next (dispatchItem s i.toNat e) := by
  change execDispatch i s = _
  have hdrain : (!e.infra && (slice s e.slice).state == .draining) = false := by
    obtain h | h := hopen <;> simp [h]
  simp only [execDispatch, he, hdrain, hkind, hstate, hfirst, Bool.not_false, and_self, if_true]

theorem dispatch_ends_or_runs {s : State} {i : Nat} {e : LedEntry} (he : ledGet s i = some e) (hstate : e.state = .accepted) :
    if descBad (ledMeta s i).desc then EntryDone (dispatchItem s i e) i 5
      else if descTarget (ledMeta s i).desc = 0 then
        (s.jx.map.getD ((e.slice + qpNum (qpKey e.queue)) % 16) none = none → EntryDone (dispatchItem s i e) i 1)
      else match pickCore s with
        | none => EntryDone (dispatchItem s i e) i 1
        | some n => (ledMeta (dispatchItem s i e) i).worker = some (.core n) ∧
          ∃ e', ledGet (dispatchItem s i e) i = some e' ∧ e'.state = .running := by
  have hlive : e.state ≠ .quarantined := by simp [hstate]
  have hno : EntryDone (noWorker s i) i 1 := entryDone_hostDone (by exact he) hlive ..
  unfold dispatchItem
  dsimp only
  split
  · exact entryDone_hostDone he hlive ..
  · split
    · exact fun hnone => by rw [hnone]; exact hno
    · cases hpick : pickCore s with
      | none => exact hno
      | some n =>
        obtain ⟨hget, hworker⟩ := takenBy_spec s i e (.core n)
        exact ⟨hworker, _, hget, rfl⟩

theorem dispatch_to_cluster {s : State} {i c : Nat} {e : LedEntry}
    (hgood : descBad (ledMeta s i).desc = false) (htarget : descTarget (ledMeta s i).desc = 0)
    (hmap : s.jx.map.getD ((e.slice + qpNum (qpKey e.queue)) % 16) none = some c) (hrun : (cluster s c).faulted = false)
    (hroom : inboxRoom s c (.host i (descFn (ledMeta s i).desc)) = true) :
    ledGet (dispatchItem s i e) i = some { e with state := .running } ∧
      (ledMeta (dispatchItem s i e) i).worker = some (.cluster c) := by
  have hitem : dispatchItem s i e = enterCluster (takenBy (count s (0xC090 + c) 0x02) i e (.cluster c)) c
      (.host i (descFn (ledMeta s i).desc)) := by
    simp only [dispatchItem, hgood, htarget, hmap, hrun, hroom, Bool.false_eq_true, Bool.not_true, or_self, if_false, if_true]
  have hspec := takenBy_spec (count s (0xC090 + c) 0x02) i e (.cluster c)
  rw [hitem]
  generalize takenBy (count s (0xC090 + c) 0x02) i e (.cluster c) = u at hspec ⊢
  obtain ⟨_, heq⟩ := enterCluster_eq u c (.host i (descFn (ledMeta s i).desc))
  rw [heq]
  exact hspec

theorem reDispatch_takes {s : State} {i : BitVec 18} {e : LedEntry} (he : ledGet s i.toNat = some e) (hkind : e.kind = .host)
    (hstate : e.state = .stopping) (hstopped : opsStopped s i.toNat = true)
    (hopen : e.infra = true ∨ (slice s e.slice).state ≠ .draining) :
    ∃ t, exec (.reDispatch i) s = .next t ∧
      (if e.restart = true ∧ e.attempt < 3 then ledGet t i.toNat = some { e with state := .accepted, attempt := e.attempt + 1 }
      else EntryDone t i.toNat 1) := by
  have hdrain : (!e.infra && (slice s e.slice).state == .draining) = false := by
    obtain h | h := hopen <;> simp [h]
  have hexec : execReDispatch i s = .next (if e.restart = true ∧ e.attempt < 3 then
        ledPut (count s 0xC040 0x15) i.toNat { e with state := .accepted, attempt := e.attempt + 1 }
      else hostDone (count s 0xC040 0x16) i.toNat 1 0x60 0) := by
    simp only [execReDispatch, he, hdrain, hkind, hstate, hstopped, Bool.not_false, and_self, if_true]
  refine ⟨_, hexec, ?_⟩
  split
  · exact ledGet_ledPut (by simp) ..
  · exact entryDone_hostDone (by exact he) (by simp [hstate]) ..

theorem ledgerRelease_retires_frame {s : State} {q i : Nat} {e : LedEntry} (hdue : dueEntry s (.frame q) = some (i, e))
    (he : ledGet s i = some e) (hdone : e.state = .done) :
    ∃ t, exec (.ledgerRelease (.frame q) 0) s = .next t ∧ ledGet t i = none ∧
      ctrGet t 0xC041 0x01 e.status.toNat = (ctrGet s 0xC041 0x01 e.status.toNat + 1) % 2 ^ 64 := by
  have hexec : execLedgerRelease (.frame q) 0 s = .next (ledRetire s i) := by
    simp [execLedgerRelease, hdue, checkHalves, he, hdone]
  refine ⟨_, hexec, ledGet_ledRetire s i, ?_⟩
  have hctr : ∀ (u : State) (k : Nat) (x : LedEntry) (j v f : Nat), ctrGet (ledPut u k x) j v f = ctrGet u j v f := by
    intro u k x j v f
    simp [ctrGet, ledPut]
  simp only [ledRetire, he]
  rw [hctr]
  exact (ctrGet_ctrAddAt ..).trans (if_pos rfl)

theorem memoryUncorrectable_ends {s : State} {i : BitVec 18} {e : LedEntry} (he : ledGet s i.toNat = some e)
    (hkind : e.kind = .host) (hstate : e.state = .accepted ∨ e.state = .running ∨ e.state = .stopping) :
    ∃ t, exec (.memoryUncorrectable i) s = .next t ∧ EntryDone t i.toNat 4 := by
  have hexec : execMemoryUncorrectable i s = .next (hostDone (takeWork s i.toNat) i.toNat 4 0x16 0) := by
    obtain h | h | h := hstate <;> simp only [execMemoryUncorrectable, he, h, hkind]
  refine ⟨_, hexec, entryDone_hostDone ((ledGet_takeWork ..).trans he) ?_ ..⟩
  obtain h | h | h := hstate <;> simp [h]

/-- Settles O42, a clause for each command of the ledger. -/
theorem ledgerCommandsTakeEffect : Obligations.LedgerCommandsTakeEffect := by
  unfold Obligations.LedgerCommandsTakeEffect
  refine ⟨fun s i e he hkind hstate hfirst hopen => ?dispatch,
    fun s i e c he hkind hstate hfirst hopen hgood htarget hmap hrun hroom => ?cluster,
    fun s i e => reDispatch_takes, fun s q i e => ledgerRelease_retires_frame, fun s i e => memoryUncorrectable_ends⟩
  case dispatch => exact ⟨_, exec_dispatch he hkind hstate hfirst hopen, dispatch_ends_or_runs he hstate⟩
  case cluster =>
    obtain ⟨hget, hworker⟩ := dispatch_to_cluster hgood htarget hmap hrun hroom
    exact ⟨_, _, exec_dispatch he hkind hstate hfirst hopen, hget, rfl, hworker⟩

end Sys2Proof.Proofs
end

section
/-!
SUPPORT. What the operations on slices do: a slice takes a state, drains, answers a command (12 R284 to R294), and which slices,
queue pairs and other blocks stay.
-/

namespace Sys2Proof.Machine.Laws

open Sys2Proof Sys2Proof.Machine

set_option Elab.async false

theorem slice_setSlice (s : State) (n m : Nat) (x : Slice) :
    slice (setSlice s n x) m = if m = n then x else slice s m := sget_sset ..

@[simp] theorem setSlice_qps (s : State) (n : Nat) (x : Slice) : (setSlice s n x).slc.qps = s.slc.qps := rfl

theorem slice_congr {s t : State} (h : t.slc.sl = s.slc.sl) (n : Nat) : slice t n = slice s n := by rw [slice, h, slice]

theorem now_record (s : State) (r : DeltaRec) : now (record s r) = now s := by simp [now]

theorem slice_setSliceState (s : State) (n m : Nat) (st : SlState) :
    slice (setSliceState s n st) m = if m = n then { slice s n with state := st, since := now s } else slice s m := by
  have hrec : ∀ k r, slice (record s r) k = slice s k := fun k r => slice_congr (by simp) k
  have hevent : ∀ u k i x, slice (event u k i x) m = slice u m := fun u k i x => slice_congr (by simp) m
  dsimp only [setSliceState]
  rw [hevent, slice_setSlice, hrec, hrec, now_record]

theorem slice_cmdResult (s : State) (n m r : Nat) :
    slice (cmdResult s n r) m = if m = n then { slice s n with result := r } else slice s m :=
  slice_setSlice ..

/-! ## Which slices a transfer or an item leaves alone -/

/-- From `b` to `s` every slice's registers stand as they did. -/
def SameSlices (b s : State) : Prop := s.slc.sl = b.slc.sl

section

variable {b s : State}

theorem sameSlices_self (s : State) : SameSlices s s := rfl

theorem sameSlices_revoke {n : Nat} (h : SameSlices b s) : SameSlices b (revoke s n) := h

theorem sameSlices_ken {k : Ken} (h : SameSlices b s) : SameSlices b { s with ken := k } := h

theorem sameSlices_setReport {k : Nat} {r : Nat × Nat} (h : SameSlices b s) : SameSlices b (setReport s k r) := h

theorem sameSlices_ite {p : Prop} [Decidable p] {u v : State} (hu : SameSlices b u) (hv : SameSlices b v) :
    SameSlices b (if p then u else v) :=
  iteInduction (fun _ => hu) (fun _ => hv)

theorem sameSlices_foldl {α : Type} {f : State → α → State} (hf : ∀ s x, SameSlices b s → SameSlices b (f s x)) {l : List α}
    (h : SameSlices b s) : SameSlices b (l.foldl f s) :=
  List.foldlRecOn l f h (fun _ ht x _ => hf _ x ht)

theorem sameSlices_record {r : DeltaRec} (h : SameSlices b s) : SameSlices b (record s r) := sameSlices_ite h h

theorem sameSlices_count {i u : Nat} (h : SameSlices b s) : SameSlices b (count s i u) := h

theorem sameSlices_setChan {c : Nat} {x : Chan} (h : SameSlices b s) : SameSlices b (setChan s c x) := by
  obtain ⟨_, heq⟩ := setChan_eq s c x
  rw [heq]
  exact h

theorem sameSlices_freeBeyond {x : Chan} {status : BitVec 8} {done : Nat} (h : SameSlices b s) :
    SameSlices b (freeBeyond s x status done) := by
  rw [freeBeyond_frame]
  exact h

theorem sameSlices_dmaCount {c done : Nat} {status : BitVec 8} (h : SameSlices b s) :
    SameSlices b (dmaCount s c status done) := by
  unfold dmaCount
  extract_lets _ _ _ t
  have ht : SameSlices b t := h
  clear_value t
  split <;> exact ht

theorem sameSlices_dmaNotify {c : Nat} {x : Chan} (h : SameSlices b s) : SameSlices b (dmaNotify s c x) := by
  refine sameSlices_ite ?_ h
  dsimp only
  obtain ⟨hst, out, heq⟩ := raiseVector_eq s (ownerFn s x.owner).1 (ownerFn s x.owner).2 (objGet s 0xA200 0x01 c)
  rw [heq]
  exact h

theorem sameSlices_recordDescs {qp head esz : Nat} {bs : List Byte} (h : SameSlices b s) :
    SameSlices b (recordDescs s qp head esz bs) :=
  sameSlices_foldl (fun _ _ => sameSlices_record) h

theorem sameSlices_dmaComplete {c done : Nat} {status detail : BitVec 8} (h : SameSlices b s) :
    SameSlices b (dmaComplete s c status detail done) := by
  unfold dmaComplete
  extract_lets x t _ y u v
  have hu : SameSlices b u := sameSlices_freeBeyond (sameSlices_setChan (s := t) h)
  have hv : SameSlices b v := sameSlices_ite (sameSlices_setChan (sameSlices_dmaCount hu)) (sameSlices_dmaCount hu)
  clear_value v
  split
  · exact sameSlices_dmaNotify hv
  · exact sameSlices_dmaNotify (s := v) hv
  · exact sameSlices_ite (sameSlices_recordDescs (s := qpPut v _ _) hv) hv

theorem sameSlices_dmaStop {c : Nat} {status detail : BitVec 8} (h : SameSlices b s) :
    SameSlices b (dmaStop s c status detail) := by
  have hread : ∀ which, SameSlices b (quarantineReads s which) := fun _ => h
  unfold dmaStop
  extract_lets
  split
  · exact sameSlices_ite (sameSlices_dmaComplete (sameSlices_count (hread _))) (sameSlices_setChan (hread _))
  · exact sameSlices_ite (sameSlices_dmaComplete (sameSlices_count (hread _))) (sameSlices_setChan (hread _))
  · exact sameSlices_ite (sameSlices_dmaComplete (sameSlices_count (hread _))) (sameSlices_setChan (hread _))
  · exact h

theorem sameSlices_dmaStopAll {which : Nat → Chan → Bool} {status detail : BitVec 8} (h : SameSlices b s) :
    SameSlices b (dmaStopAll s which status detail) :=
  sameSlices_foldl (fun _ _ => sameSlices_dmaStop) h

theorem sameSlices_takeWork {i : Nat} (h : SameSlices b s) : SameSlices b (takeWork s i) := by
  obtain ⟨_, _, heq⟩ := takeWork_eq s i
  rw [heq]
  exact h

theorem sameSlices_ledPut {i : Nat} {e : LedEntry} (h : SameSlices b s) : SameSlices b (ledPut s i e) :=
  sameSlices_record (r := .ledger i e) h

theorem sameSlices_kennelWork {t : State} (h : SameSlices b s) (ht : KennelWork s t) : SameSlices b t := by
  obtain ⟨_, _, _, _, _, rfl⟩ := ht
  exact h

theorem sameSlices_cipStop {which : CReq → Bool} {status detail : BitVec 8} (h : SameSlices b s) :
    SameSlices b (cipStop s which status detail) := h

end

/-- A slice that has begun to drain: its state, and no enable pending nor zeroing done (12 R287). -/
def drained (x : Slice) (now : Nat) : Slice := { x with state := .draining, since := now, pending := false, zeroed := false }

/-- The state in which a slice is marked as draining. -/
def markDraining (s : State) (n : Nat) : State :=
  let u := setSliceState (countAt s 0xC0F0 0x04 n) n .draining
  setSlice u n { slice u n with pending := false, zeroed := false }

theorem slice_markDraining (s : State) (n m : Nat) :
    slice (markDraining s n) m = if m = n then drained (slice s n) (now s) else slice s m := by
  dsimp only [markDraining]
  rw [slice_setSlice, slice_setSliceState, slice_setSliceState, if_pos rfl]
  split <;> rfl

/-- Behind the mark a drain stops work and keeps the slices' registers. -/
theorem sameSlices_drainSlice (s : State) (n : Nat) : SameSlices (markDraining s n) (drainSlice s n) := by
  have hreports : ∀ l : List Nat, SameSlices (markDraining s n)
      (l.foldl (fun s k => setReport s k (0, 0)) (revoke (markDraining s n) n)) := fun l =>
    sameSlices_foldl (fun _ _ => sameSlices_setReport) (sameSlices_revoke (sameSlices_self _))
  unfold drainSlice
  generalize sliceQps n = qps
  exact sameSlices_cipStop (sameSlices_dmaStopAll (sameSlices_foldl (fun _ _ ht =>
    sameSlices_ite (sameSlices_ledPut (sameSlices_takeWork ht)) (sameSlices_takeWork ht)) (sameSlices_ken (hreports qps))))

theorem slice_drainSlice (s : State) (n m : Nat) :
    slice (drainSlice s n) m = if m = n then drained (slice s n) (now s) else slice s m :=
  (slice_congr (sameSlices_drainSlice s n) m).trans (slice_markDraining s n m)

/-! ## Saving keys -/

theorem kennelWork_coreKeyOp {sl n : Nat} {eff : State → (Nat × Nat × Nat) × State} {s : State} {r : Nat × State}
    (heff : ∀ t, KennelWork s t → KennelWork s (eff t).2) (h : coreKeyOp s sl n eff = some r) : KennelWork s r.2 := by
  unfold coreKeyOp at h
  split at h
  · cases h
  · cases h
    exact kennelWork_ledDone (kennelWork_with (kennelWork_count (heff _ (kennelWork_cacheTouch
      (kennelWork_ledRun (kennelWork_ledAccept (kennelWork_self s)))))))

theorem sameSlices_exportKeys {b s t : State} {sl material base : Nat} {l : List Nat} {bs : List Byte} (h : SameSlices b s)
    (ht : exportKeys s sl material base l = some (bs, t)) : SameSlices b t := by
  induction l generalizing s bs with
  | nil => cases ht; exact h
  | cons n l ih =>
    unfold exportKeys at ht
    dsimp only at ht
    split at ht
    · cases ht
    next u hop =>
      obtain ⟨r, hr, heq⟩ := Option.map_eq_some_iff.1 ht
      cases heq
      exact ih (sameSlices_kennelWork h (kennelWork_coreKeyOp (fun _ hv => by dsimp only; exact kennelWork_with hv) hop)) hr

/-! ## Commands (12 R284) -/

/-- From `b` to `s` slice `n` has changed alone. -/
def OtherSlices (n : Nat) (b s : State) : Prop := ∀ m, m ≠ n → slice s m = slice b m

section

variable {n : Nat} {b s : State}

theorem otherSlices_self (n : Nat) (s : State) : OtherSlices n s s := fun _ _ => rfl

theorem otherSlices_setSlice {x : Slice} (h : OtherSlices n b s) : OtherSlices n b (setSlice s n x) :=
  fun m hm => (slice_setSlice ..).trans ((if_neg hm).trans (h m hm))

theorem otherSlices_setSliceState {st : SlState} (h : OtherSlices n b s) : OtherSlices n b (setSliceState s n st) :=
  fun m hm => (slice_setSliceState ..).trans ((if_neg hm).trans (h m hm))

theorem otherSlices_drainSlice (h : OtherSlices n b s) : OtherSlices n b (drainSlice s n) :=
  fun m hm => (slice_drainSlice ..).trans ((if_neg hm).trans (h m hm))

theorem otherSlices_saveSlice (h : OtherSlices n b s) : OtherSlices n b (saveSlice s n) := by
  unfold saveSlice
  extract_lets
  split
  · exact otherSlices_setSlice h
  · split
    · exact otherSlices_setSlice h
    next keys t hkeys =>
      have hslices : SameSlices s t := sameSlices_exportKeys (by exact sameSlices_self s) hkeys
      exact otherSlices_setSlice (otherSlices_setSlice fun m hm => (slice_congr hslices m).trans (h m hm))

/-- A command of a slice changes no other slice. -/
theorem otherSlices_sliceCmd {cmd : Nat} : OtherSlices n s (sliceCmd s n cmd) := by
  have hself := otherSlices_self n s
  unfold sliceCmd
  extract_lets
  split
  · exact otherSlices_setSlice (otherSlices_setSliceState hself)
  · exact otherSlices_setSlice (otherSlices_setSlice hself)
  · exact otherSlices_setSlice (otherSlices_setSlice hself)
  · split
    · exact otherSlices_setSlice (otherSlices_drainSlice hself)
    · exact otherSlices_setSlice hself
  · exact otherSlices_setSlice (otherSlices_setSliceState hself)
  · exact otherSlices_setSlice (otherSlices_setSliceState hself)
  · exact otherSlices_saveSlice hself
  · exact otherSlices_setSlice (otherSlices_setSliceState hself)
  · exact otherSlices_setSlice (otherSlices_setSlice hself)
  · exact otherSlices_setSlice hself

end

/-- From `b` to `s` slice `n` has taken a state or an answer: the other slices, the queue pairs and the other blocks stand as they
did. -/
def SliceWork (n : Nat) (b s : State) : Prop :=
  OtherSlices n b s ∧ s.slc.qps = b.slc.qps ∧ s.objs.vals = b.objs.vals ∧ s.hbm = b.hbm ∧ s.net = b.net ∧ s.pipe = b.pipe ∧
    s.shp = b.shp ∧ s.tt = b.tt ∧ s.fwd = b.fwd ∧ s.stg = b.stg ∧ s.jx = b.jx ∧ s.ken = b.ken ∧ s.dma = b.dma ∧ s.led = b.led ∧
    s.pending = b.pending

section

variable {n : Nat} {b s : State}

theorem sliceWork_self (n : Nat) (s : State) : SliceWork n s s := by simp [SliceWork, otherSlices_self]

theorem sliceWork_ite {p : Prop} [Decidable p] {u v : State} (hu : SliceWork n b u) (hv : SliceWork n b v) :
    SliceWork n b (if p then u else v) :=
  iteInduction (fun _ => hu) (fun _ => hv)

theorem sliceWork_count {i u : Nat} {e : Nat} (h : SliceWork n b s) : SliceWork n b (countAt s i u e) := h

theorem sliceWork_setSlice {x : Slice} (h : SliceWork n b s) : SliceWork n b (setSlice s n x) :=
  ⟨otherSlices_setSlice h.1, h.2⟩

theorem sliceWork_setSliceState {st : SlState} (h : SliceWork n b s) : SliceWork n b (setSliceState s n st) := by
  obtain ⟨hslices, hrest⟩ := h
  refine ⟨otherSlices_setSliceState hslices, ?_⟩
  simpa [setSliceState] using hrest

theorem sliceWork_freezeDone (h : SliceWork n b s) : SliceWork n b (freezeDone s n) :=
  sliceWork_setSliceState (sliceWork_count h)

/-- A command other than RESET and SAVE changes its slice alone. -/
theorem sliceWork_sliceCmd {cmd : Nat} (hreset : cmd ≠ 2) (hsave : cmd ≠ 5) : SliceWork n s (sliceCmd s n cmd) := by
  have hself := sliceWork_self n s
  unfold sliceCmd
  extract_lets
  split
  · exact sliceWork_setSlice (sliceWork_setSliceState hself)
  · exact sliceWork_setSlice (sliceWork_setSlice hself)
  · exact absurd rfl hreset
  · exact absurd rfl hreset
  · exact sliceWork_setSlice (sliceWork_setSliceState hself)
  · exact sliceWork_setSlice (sliceWork_setSliceState hself)
  · exact absurd rfl hsave
  · exact sliceWork_setSlice (sliceWork_setSliceState hself)
  · exact sliceWork_setSlice (sliceWork_setSlice hself)
  · exact sliceWork_setSlice hself

end

theorem sliceWork_of_command {s t : State} {c : Instr} {n : BitVec 14}
    (hc : c = .sliceEnable n ∨ c = .sliceFreeze n ∨ c = .sliceResume n ∨ c = .sliceRestore n ∨ c = .sliceDisable n ∨
      c = .freezeComplete n ∨ c = .freezeTimeout n ∨ c = .resetSequenceEnd n) (h : exec c s = .next t) :
    SliceWork n.toNat s t := by
  have hself := sliceWork_self n.toNat s
  obtain rfl | rfl | rfl | rfl | rfl | rfl | rfl | rfl := hc
  · cases h
    exact sliceWork_sliceCmd (by decide) (by decide)
  · cases h
    exact sliceWork_sliceCmd (by decide) (by decide)
  · cases h
    exact sliceWork_sliceCmd (by decide) (by decide)
  · cases h
    exact sliceWork_sliceCmd (by decide) (by decide)
  · cases h
    exact sliceWork_sliceCmd (by decide) (by decide)
  · cases h
    exact sliceWork_ite (sliceWork_freezeDone hself) hself
  · cases h
    exact sliceWork_ite (sliceWork_ite (sliceWork_freezeDone hself)
      (sliceWork_setSlice (sliceWork_setSliceState (sliceWork_count hself)))) hself
  · cases h
    exact sliceWork_ite (sliceWork_setSliceState (sliceWork_setSlice hself)) hself

end Sys2Proof.Machine.Laws
end

section
/-!
CLAIMS. Slice commands leave the other slices and blocks alone (12 R284, R290).
-/

namespace Sys2Proof.Proofs

open Sys2Proof Sys2Proof.Machine Sys2Proof.Machine.Laws

set_option Elab.async false

/-- Settles O41: the commands but RESET and SAVE are work on their slice alone. -/
theorem sliceCommandsKeepOtherState : Obligations.SliceCommandsKeepOtherState := by
  unfold Obligations.SliceCommandsKeepOtherState
  refine ⟨fun s t c n hc h => ?_, fun s t c n hc h => ?_⟩
  · obtain ⟨hslices, hqps, hvals, hmem, hrest⟩ := sliceWork_of_command hc h
    exact ⟨hslices, hqps, objGet_congr hvals, sameMemory_of_hbm hmem, hrest⟩
  · obtain rfl | rfl := hc
    · cases h
      exact otherSlices_sliceCmd
    · cases h
      exact otherSlices_sliceCmd

end Sys2Proof.Proofs
end

section
/-!
SUPPORT. Items that a drain retires into the reset report (12 R289), and how a restore ends (12 R294).
-/

namespace Sys2Proof.Machine.Laws

open Sys2Proof Sys2Proof.Machine

set_option Elab.async false

/-! ## Retirement into the reset report -/

theorem report_congr {s t : State} (h : t.slc.report = s.slc.report) (k : Nat) : report t k = report s k := by
  rw [report, h, report]

theorem report_setReport (s : State) (k : Nat) (r : Nat × Nat) : report (setReport s k r) k = r := sget_sset_self ..

theorem takeWork_slc (s : State) (i : Nat) : (takeWork s i).slc = s.slc := by
  obtain ⟨_, _, heq⟩ := takeWork_eq s i
  rw [heq]

theorem ledPut_slc (s : State) (i : Nat) (e : LedEntry) : (ledPut s i e).slc = s.slc := by simp [ledPut]

theorem ledRetire_slc (s : State) (i : Nat) : (ledRetire s i).slc = s.slc := by
  unfold ledRetire
  split
  · rfl
  · exact ledPut_slc ..

/-- An item that a reset aborts leaves the ledger and is counted in its queue pair's report. -/
theorem abortItem_counts {s : State} {i : Nat} {e : LedEntry} (he : ledGet s i = some e) (hinfra : e.infra = false) :
    ledGet (abortItem s i) i = none ∧ (report (abortItem s i) (qpKey e.queue)).2 = (report s (qpKey e.queue)).2 + 1 := by
  have hslc : ∀ (u : State) (x : LedEntry), (ledRetire (ledPut (takeWork u i) i x) i).slc = u.slc := fun u x =>
    (ledRetire_slc ..).trans ((ledPut_slc ..).trans (takeWork_slc ..))
  simp only [abortItem, he, hinfra, Bool.false_eq_true, if_false]
  refine ⟨ledGet_ledRetire .., ?_⟩
  rw [report_congr (congrArg Slc.report (hslc _ _))]
  refine (congrArg Prod.snd (report_setReport s (qpKey e.queue) _)).trans ?_
  split
  next hfirst => rw [hfirst]
  next => rfl

/-! ## The end of a restore -/

theorem slice_freezeDone (s : State) (n : Nat) :
    slice (freezeDone s n) n = { slice s n with state := .frozen, since := now s } :=
  (slice_setSliceState ..).trans (if_pos rfl)

/-- A restore that fails names the check and drains the slice. -/
theorem slice_restoreFails (s : State) (n r : Nat) :
    slice (restoreFails s n r) n = drained { slice s n with restore := r } (now s) := by
  rw [restoreFails, slice_drainSlice, if_pos rfl, slice_setSlice, if_pos rfl]
  rfl

theorem restoreFails_spec (s : State) (n r : Nat) :
    (slice (restoreFails s n r) n).state = .draining ∧ (slice (restoreFails s n r) n).restore = r := by
  rw [slice_restoreFails]
  exact ⟨rfl, rfl⟩

theorem restoreFault_bounds {s : State} {n r : Nat} {bs : List Byte} (h : restoreFault s n bs = some r) : 1 ≤ r ∧ r ≤ 4 := by
  unfold restoreFault at h
  dsimp only at h
  split_ifs at h <;> cases h <;> omega

theorem restoreFault_of_no_key {s : State} {n : Nat} (h : migSlotOk s n = false) (bs : List Byte) :
    restoreFault s n bs = some 1 :=
  if_pos (.inr (.inl (by simp [h])))

/-- The saved state that RESTORE_DONE reads: as long as its header says, and nothing where it lies beyond the memory. -/
def restoreBytes (s : State) (n : Nat) : List Byte :=
  let addr := objGet s 0xB002 0x04 n
  let len := leNat (hbmRead s (addr + 24) 4)
  if addr + len ≤ hbmSize then hbmRead s addr len else []

theorem exec_restoreDone_of_fault {s : State} {n : BitVec 14} {r : Nat} (hstate : (slice s n.toNat).state = .restoring)
    (h : restoreFault s n.toNat (restoreBytes s n.toNat) = some r) :
    exec (.restoreDone n) s = .next (restoreFails s n.toNat r) := by
  change execRestoreDone n s = _
  unfold restoreBytes at h
  dsimp only at h
  simp only [execRestoreDone, hstate, h, ne_eq, not_true_eq_false, if_false]

theorem exec_restoreDone_elsewhere {s : State} {n : BitVec 14} (h : (slice s n.toNat).state ≠ .restoring) :
    exec (.restoreDone n) s = .next s :=
  congrArg Host.Outcome.next (if_pos h)

/-- Keys that the header of a saved state counts. -/
def savedKeys (bs : List Byte) : Nat := fld (BitVec.ofNat 512 (leNat (bytesAt bs 0 64))) 144 16

/-- A saved state that passes the checks freezes the slice, unless a key of it cannot be imported. -/
theorem exec_restoreDone_of_checked {s : State} {n : BitVec 14} (hstate : (slice s n.toNat).state = .restoring)
    (h : restoreFault s n.toNat (restoreBytes s n.toNat) = none) :
    ∃ t, exec (.restoreDone n) s = .next t ∧
      ((slice t n.toNat).state = .frozen ∧ (slice t n.toNat).restore = 0 ∨
        savedKeys (restoreBytes s n.toNat) ≠ 0 ∧ t = restoreFails s n.toNat 5) := by
  refine ⟨_, rfl, ?_⟩
  unfold restoreBytes at *
  dsimp only at h ⊢
  rw [if_neg (not_not_intro hstate)]
  rw [h]
  dsimp only
  split
  next hkeys =>
    refine .inr ⟨fun hnone => ?_, rfl⟩
    unfold savedKeys at hnone
    simp [hnone, importKeys] at hkeys
  next =>
    refine .inl ?_
    rw [slice_freezeDone, slice_setSlice, if_pos rfl]
    exact ⟨rfl, rfl⟩

/-! ## The count of keys in the header (12 Table 12-4) -/

theorem leNat_lt_pow (xs : List Byte) : leNat xs < 256 ^ xs.length := by
  induction xs with
  | nil => exact Nat.zero_lt_one
  | cons x xs ih =>
    have hx := x.isLt
    rw [leNat, List.length_cons, Nat.pow_succ]
    omega

theorem leNat_append (xs ys : List Byte) : leNat (xs ++ ys) = leNat xs + 256 ^ xs.length * leNat ys := by
  induction xs with
  | nil => simp [leNat]
  | cons x xs ih =>
    rw [List.cons_append, leNat, leNat, ih, List.length_cons, Nat.pow_succ]
    ring

/-- A field of whole bytes of a byte string is the number of those bytes. -/
theorem leNat_bytes (xs : List Byte) (i k : Nat) (h : i + k ≤ xs.length) :
    leNat xs / 256 ^ i % 256 ^ k = leNat ((xs.drop i).take k) := by
  have hi : (xs.take i).length = i := List.length_take_of_le (by omega)
  have hk : ((xs.drop i).take k).length = k := List.length_take_of_le (by rw [List.length_drop]; omega)
  have hsplit : leNat xs = leNat (xs.take i) + 256 ^ i * (leNat ((xs.drop i).take k) + 256 ^ k * leNat ((xs.drop i).drop k)) := by
    conv_lhs => rw [← List.take_append_drop i xs, leNat_append, hi, ← List.take_append_drop k (xs.drop i), leNat_append, hk]
  have hlow := leNat_lt_pow (xs.take i)
  have hfield := leNat_lt_pow ((xs.drop i).take k)
  rw [hi] at hlow
  rw [hk] at hfield
  rw [hsplit, Nat.add_mul_div_left _ _ (by positivity), Nat.div_eq_of_lt hlow, Nat.zero_add, Nat.add_mul_mod_self_left,
    Nat.mod_eq_of_lt hfield]

theorem bytesAt_of_le {bs : List Byte} {i n : Nat} (h : i + n ≤ bs.length) : bytesAt bs i n = (bs.drop i).take n := by
  have hlen : ((bs.drop i).take n).length = n := List.length_take_of_le (by rw [List.length_drop]; omega)
  rw [bytesAt, hlen, Nat.sub_self]
  exact List.append_nil _

set_option exponentiation.threshold 512 in
theorem savedKeys_eq {bs : List Byte} (h : 64 ≤ bs.length) : savedKeys bs = leNat (bytesAt bs 18 2) := by
  have hhead : bytesAt bs 0 64 = bs.take 64 := bytesAt_of_le (by omega)
  have hlen : (bs.take 64).length = 64 := List.length_take_of_le h
  have hlt : leNat (bs.take 64) < 2 ^ 512 := by
    have hbytes := leNat_lt_pow (bs.take 64)
    rw [hlen] at hbytes
    exact hbytes.trans_eq (pow_mul 2 8 64).symm
  have hbytes := leNat_bytes (bs.take 64) 18 2 (by omega)
  rw [savedKeys, fld, BitVec.toNat_ofNat, hhead, Nat.mod_eq_of_lt hlt, Nat.shiftRight_eq_div_pow, bytesAt_of_le (by omega)]
  rw [List.drop_take, List.take_take] at hbytes
  exact (by norm_num : leNat (bs.take 64) / 2 ^ 144 % 2 ^ 16 = leNat (bs.take 64) / 256 ^ 18 % 256 ^ 2).trans hbytes

theorem length_of_checked {s : State} {n : Nat} {bs : List Byte} (h : restoreFault s n bs = none) : 64 ≤ bs.length := by
  by_contra hshort
  have htag : restoreFault s n bs = some 1 := if_pos (.inl (by omega))
  simp [htag] at h

end Sys2Proof.Machine.Laws
end

section
/-!
CLAIMS. Items of a reset and the end of a restore (12 R289, R294).
-/

namespace Sys2Proof.Proofs

open Sys2Proof Sys2Proof.Machine Sys2Proof.Machine.Laws

set_option Elab.async false

theorem sliceItemRetire_counts {s : State} {i : BitVec 18} {e : LedEntry} (he : ledGet s i.toNat = some e)
    (hkind : e.kind = .host) (hinfra : e.infra = false) (hstate : (slice s e.slice).state = .draining)
    (hstopped : opsStopped s i.toNat = true) (hdue : isDue s e = true) :
    ∃ t, exec (.sliceItemRetire i) s = .next t ∧ ledGet t i.toNat = none ∧
      (report t (qpKey e.queue)).2 = (report s (qpKey e.queue)).2 + 1 := by
  have hexec : execSliceItemRetire i s = .next (abortItem s i.toNat) := by
    simp only [execSliceItemRetire, he, hkind, hinfra, hstate, hstopped, hdue, Bool.not_false, and_self, if_true]
  exact ⟨_, hexec, abortItem_counts he hinfra⟩

/-- A restore ends frozen with OK, or drained with one of the five failures. -/
theorem restoreDone_ends {s : State} {n : BitVec 14} (hstate : (slice s n.toNat).state = .restoring) :
    ∃ t, exec (.restoreDone n) s = .next t ∧ ((slice t n.toNat).state = .frozen ∧ (slice t n.toNat).restore = 0 ∨
      (slice t n.toNat).state = .draining ∧ 1 ≤ (slice t n.toNat).restore ∧ (slice t n.toNat).restore ≤ 5) := by
  cases hfault : restoreFault s n.toNat (restoreBytes s n.toNat) with
  | some r =>
    obtain ⟨hdrain, hname⟩ := restoreFails_spec s n.toNat r
    obtain ⟨hlow, hhigh⟩ := restoreFault_bounds hfault
    exact ⟨_, exec_restoreDone_of_fault hstate hfault, .inr ⟨hdrain, by omega, by omega⟩⟩
  | none =>
    obtain ⟨t, hexec, hend | ⟨-, rfl⟩⟩ := exec_restoreDone_of_checked hstate hfault
    · exact ⟨t, hexec, .inl hend⟩
    · obtain ⟨hdrain, hname⟩ := restoreFails_spec s n.toNat 5
      exact ⟨_, hexec, .inr ⟨hdrain, by omega, by omega⟩⟩

/-- Settles O40: the check of the saved state decides the end, and where it holds no key none can fail. -/
theorem sliceItemsAndRestore : Obligations.SliceItemsAndRestore := by
  unfold Obligations.SliceItemsAndRestore
  refine ⟨fun s i e => sliceItemRetire_counts, fun s n hstate hkey => ?nokey, fun s n => restoreDone_ends,
    fun s n a len bs hstate ha hlen hfits hbs => ?saved, fun s n => exec_restoreDone_elsewhere⟩
  case nokey =>
    obtain ⟨hdrain, hname⟩ := restoreFails_spec s n.toNat 1
    exact ⟨_, exec_restoreDone_of_fault hstate (restoreFault_of_no_key hkey _), hname, hdrain⟩
  case saved =>
    have hread : restoreBytes s n.toNat = bs := by
      subst ha hlen hbs
      exact if_pos hfits
    cases hfault : restoreFault s n.toNat bs with
    | some r => exact ⟨_, exec_restoreDone_of_fault hstate (hread ▸ hfault), restoreFails_spec s n.toNat r⟩
    | none =>
      obtain ⟨t, hexec, hend⟩ := exec_restoreDone_of_checked hstate (hread ▸ hfault)
      refine ⟨t, hexec, fun hnone => ?_⟩
      rw [hread, savedKeys_eq (length_of_checked hfault)] at hend
      exact hend.resolve_right fun hkeys => hkeys.1 hnone

end Sys2Proof.Proofs
end

section
/-!
SUPPORT. What the operations on functions do: their registers and configuration, and what a drain or an FLR finds where no
channel is in use (11 R263, R272 to R277).
-/

namespace Sys2Proof.Machine.Laws

open Sys2Proof Sys2Proof.Machine

set_option Elab.async false

/-! ## Functions and their configuration -/

theorem fnGet_fnPut (s : State) (link fn : Nat) (f : Fn) : fnGet (fnPut s link fn f) link fn = f := sget_sset_self ..

theorem fnGet_congr {s t : State} (h : t.hst.fns = s.hst.fns) (link fn : Nat) : fnGet t link fn = fnGet s link fn := by
  rw [fnGet, h, fnGet]

theorem cfgGet_cfgPut (f : Fn) (off : Nat) (v : BitVec 32) : cfgGet (cfgPut f off v) off = v := sget_sset_self ..

theorem cfgGet_cfgPut_ne (f : Fn) {off o : Nat} (v : BitVec 32) (h : o ≠ off) : cfgGet (cfgPut f off v) o = cfgGet f o :=
  sget_sset_far _ _ _ _ h

theorem fnBme_setBme (f : Fn) (b : Bool) : fnBme (setBme f b) = b := by
  rw [fnBme, setBme, cfgGet_cfgPut]
  cases b
  · rw [if_neg Bool.false_ne_true, BitVec.getLsbD_and]
    exact Bool.and_false _
  · rw [if_pos rfl, BitVec.getLsbD_or]
    exact Bool.or_true _

/-! ## What a drain stops -/

theorem settleInvals_fold {due : List Inval} (s : State) :
    (due.foldl (fun s v => countLink (emit s (.invalidated v.link v.fn)) v.link 0x0C) s).hst = s.hst ∧
      (due.foldl (fun s v => countLink (emit s (.invalidated v.link v.fn)) v.link 0x0C) s).dma = s.dma ∧
      (due.foldl (fun s v => countLink (emit s (.invalidated v.link v.fn)) v.link 0x0C) s).slc = s.slc := by
  induction due generalizing s with
  | nil => exact ⟨rfl, rfl, rfl⟩
  | cons v due ih => exact ih (countLink (emit s (.invalidated v.link v.fn)) v.link 0x0C)

/-- Answering invalidations takes them off, and changes no function, read, channel or slice. -/
theorem settleInvals_keeps (s : State) :
    (settleInvals s).hst = { s.hst with invals := s.hst.invals.filter (fun v => invalBusy s v) } ∧
      (settleInvals s).dma = s.dma ∧ (settleInvals s).slc = s.slc :=
  settleInvals_fold { s with hst := { s.hst with invals := s.hst.invals.filter (fun v => invalBusy s v) } }

theorem fnGet_quarantineReads (s : State) (which : HRead → Bool) (link fn : Nat) :
    fnGet (quarantineReads s which) link fn = fnGet s link fn := rfl

/-- Where no channel is in use, a function that stops only puts its reads in quarantine. -/
theorem stopFn_of_no_chans {s : State} (link fn : Nat) (detail : BitVec 8) (h : s.dma.chans = []) :
    stopFn s link fn detail = quarantineReads s (fun r => r.link == link && r.fn == fn) := by
  rw [stopFn, dmaStopAll_of_no_chans _ _ _ h]

theorem flagChannels_of_no_chans {s : State} (link fn : Nat) (h : s.dma.chans = []) : flagChannels s link fn = s := by
  simp [flagChannels, h]

theorem channelsIdle_of_no_chans {s : State} (which : Chan → Bool) (h : s.dma.chans = []) : channelsIdle s which = true := by
  simp [channelsIdle, h]

theorem fnEntries_of_no_entries {s : State} (link fn : Nat) (h : s.led.entries = []) : fnEntries s link fn = [] := by
  simp [fnEntries, h]

theorem boundSlices_congr {s t : State} (h : t.slc = s.slc) (link fn : Nat) : boundSlices t link fn = boundSlices s link fn := by
  simp only [boundSlices, sliceBound, ownerFn, slice, h]

/-- The function that an FLR or the loss of its link tears down (11 R274, R276). -/
def tornFn (f : Fn) (kind : DrainKind) : Fn :=
  { setBme f false with state := if f.state = .disabled then .disabled else .draining, drain := kind, pending := false }

/-- A teardown by an FLR of a function with no channel in use and no slice, which is no PF0. -/
theorem fnGet_teardown {s : State} {link fn : Nat} (hchans : s.dma.chans = []) (hslices : boundSlices s link fn = [])
    (hfn : fn ≠ 0) : fnGet (teardown s link fn .flr) link fn = tornFn (fnGet s link fn) .flr := by
  obtain ⟨u, hu⟩ : ∃ u, u = quarantineReads (fnPut s link fn (tornFn (fnGet s link fn) .flr))
    (fun r => r.link == link && r.fn == fn) := ⟨_, rfl⟩
  obtain ⟨hhst, -, hslc⟩ := settleInvals_keeps u
  have hsl : (settleInvals u).slc = s.slc := hslc.trans (by rw [hu]; rfl)
  have hput : (fnPut s link fn (tornFn (fnGet s link fn) .flr)).dma.chans = [] := hchans
  have hnone : boundSlices (dropHolds (settleInvals u) link fn) link fn = [] := (boundSlices_congr hsl link fn).trans hslices
  have htorn : teardown s link fn .flr = dropHolds (settleInvals u) link fn := by
    simp only [teardown, reduceCtorEq, if_false, hfn]
    rw [← tornFn, flagChannels_of_no_chans _ _ hput, stopFn_of_no_chans _ _ _ hput, ← hu, hnone]
    rfl
  have hfns : (dropHolds (settleInvals u) link fn).hst.fns = (fnPut s link fn (tornFn (fnGet s link fn) .flr)).hst.fns := by
    rw [dropHolds, hhst, hu]
    rfl
  rw [htorn, fnGet_congr hfns, fnGet_fnPut]

/-- The end of a drain where no channel is in use. -/
theorem endDrain_of_no_chans {s : State} (link fn : Nat) (h : s.dma.chans = []) :
    fnGet (endDrain s link fn) link fn =
      { fnGet s link fn with
        state := if (fnGet s link fn).pending then .enabled else .disabled, pending := false, drain := .bme } := by
  rw [endDrain, pumpAll_of_no_chans (by exact h), fnGet_fnPut]

theorem atcDrop_chans (s : State) (link fn : Nat) : (atcDrop s link fn).dma.chans = s.dma.chans := rfl

end Sys2Proof.Machine.Laws
end

section
/-!
CLAIMS. Functions of the host endpoint (11 R256, R263, R272 to R277).
-/

namespace Sys2Proof.Proofs

open Sys2Proof Sys2Proof.Machine Sys2Proof.Machine.Laws

set_option Elab.async false

variable {s : State} {k : BitVec 2} {fn : BitVec 11}

theorem busMasterEnableSet_enables (hthere : fnPresent s k.toNat fn.toNat = true)
    (hstate : (fnGet s k.toNat fn.toNat).state = .disabled) (hdrain : (fnGet s k.toNat fn.toNat).drain = .bme)
    (hlink : (linkGet s k.toNat).state = 3) (hoff : fnBme (fnGet s k.toNat fn.toNat) = false) (hchans : s.dma.chans = []) :
    ∃ t, exec (.busMasterEnableSet k fn) s = .next t ∧ (fnGet t k.toNat fn.toNat).state = .enabled ∧
      fnBme (fnGet t k.toNat fn.toNat) = true := by
  refine ⟨fnPut s k.toNat fn.toNat { setBme (fnGet s k.toNat fn.toNat) true with state := .enabled }, ?_, ?_⟩
  · change Host.Outcome.next (bmeSet s k.toNat fn.toNat) = _
    have hidle : ¬ ((setBme (fnGet s k.toNat fn.toNat) true).state = .draining ∨
        (setBme (fnGet s k.toNat fn.toNat) true).drain ≠ .bme) := by simp [setBme, cfgPut, hstate, hdrain]
    simp only [bmeSet, hthere, hoff, hlink, Bool.not_true, Bool.or_false, bne_self_eq_false, Bool.false_eq_true, if_false, hidle]
    rw [pumpAll_of_no_chans (by exact hchans)]
  · rw [fnGet_fnPut]
    exact ⟨rfl, fnBme_setBme _ true⟩

theorem busMasterEnableClear_drains (hthere : fnPresent s k.toNat fn.toNat = true)
    (hstate : (fnGet s k.toNat fn.toNat).state = .enabled) (hon : fnBme (fnGet s k.toNat fn.toNat) = true)
    (hchans : s.dma.chans = []) :
    ∃ t, exec (.busMasterEnableClear k fn) s = .next t ∧ (fnGet t k.toNat fn.toNat).state = .draining ∧
      fnBme (fnGet t k.toNat fn.toNat) = false := by
  refine ⟨stopFn (fnPut (countLink s k.toNat 0x08) k.toNat fn.toNat
    { setBme (fnGet s k.toNat fn.toNat) false with state := .draining, drain := .bme, pending := false })
    k.toNat fn.toNat 0x18, ?_, ?_⟩
  · change Host.Outcome.next (bmeClear s k.toNat fn.toNat) = _
    have hkept : (setBme (fnGet s k.toNat fn.toNat) false).state = .enabled := hstate
    simp only [bmeClear, hthere, hon, Bool.not_true, Bool.or_false, Bool.false_eq_true, if_false, hkept]
  · rw [stopFn_of_no_chans _ _ _ (by exact hchans), fnGet_quarantineReads, fnGet_fnPut]
    exact ⟨rfl, fnBme_setBme _ false⟩

theorem functionDrainEnd_ends (hstate : (fnGet s k.toNat fn.toNat).state = .draining)
    (hdrain : (fnGet s k.toNat fn.toNat).drain = .bme) (hchans : s.dma.chans = []) (hled : s.led.entries = []) :
    ∃ t, exec (.functionDrainEnd k fn) s = .next t ∧ (fnGet t k.toNat fn.toNat).state =
      (if (fnGet s k.toNat fn.toNat).pending then .enabled else .disabled) := by
  have hidle : fnChannelsIdle s k.toNat fn.toNat = true := channelsIdle_of_no_chans _ hchans
  have hdone : (fnEntries s k.toNat fn.toNat).all (fun p => p.2.state == .done) = true := by
    rw [fnEntries_of_no_entries _ _ hled]
    rfl
  exact ⟨_, congrArg Host.Outcome.next (if_pos ⟨hstate, hdrain, hidle, hdone⟩), by rw [endDrain_of_no_chans _ _ hchans]⟩

theorem initiateFlr_of_vf (hvf : 2 ≤ fn.toNat) (hthere : fnPresent s k.toNat fn.toNat = true) (hchans : s.dma.chans = [])
    (hslices : boundSlices s k.toNat fn.toNat = []) :
    ∃ t, exec (.initiateFlr k fn) s = .next t ∧ (fnGet t k.toNat fn.toNat).state =
        (if (fnGet s k.toNat fn.toNat).state = .disabled then .disabled else .draining) ∧
      (fnGet t k.toNat fn.toNat).drain = .flr := by
  have hpf1 : fn.toNat ≠ 1 := by omega
  refine ⟨teardown (countLink s k.toNat 0x09) k.toNat fn.toNat .flr, ?_, ?_⟩
  · change Host.Outcome.next (startFlr s k.toNat fn.toNat) = _
    simp only [startFlr, hthere, hpf1, Bool.not_true, Bool.false_eq_true, if_false, List.foldl_nil]
  · rw [fnGet_teardown (by exact hchans) (by exact hslices) (by omega)]
    exact ⟨rfl, rfl⟩

theorem flrEnd_ends (hfn : fn.toNat ≠ 0) (hdrain : (fnGet s k.toNat fn.toNat).drain = .flr) (hchans : s.dma.chans = [])
    (hled : s.led.entries = []) (hslices : boundSlices s k.toNat fn.toNat = []) :
    ∃ t, exec (.flrEnd k fn) s = .next t ∧ (fnGet t k.toNat fn.toNat).msix = [] ∧
      (fnGet t k.toNat fn.toNat).state = (if (fnGet s k.toNat fn.toNat).pending then .enabled else .disabled) := by
  have hexec : ∃ g : Fn, g.msix = [] ∧ g.pending = (fnGet s k.toNat fn.toNat).pending ∧
      execFlrEnd k fn s = .next (endDrain (fnPut (atcDrop s k.toNat fn.toNat) k.toNat fn.toNat g) k.toNat fn.toNat) := by
    refine ⟨{ (if (fnGet s k.toNat fn.toNat).pending then setBme (flrConfig (fnGet s k.toNat fn.toNat)) true
      else flrConfig (fnGet s k.toNat fn.toNat)) with pending := (fnGet s k.toNat fn.toNat).pending }, ?_, rfl, ?_⟩
    · split <;> rfl
    · simp [execFlrEnd, hdrain, hfn, channelsIdle_of_no_chans _ hchans, fnEntries_of_no_entries _ _ hled, hslices, hchans]
  obtain ⟨g, hmsix, hpending, hexec⟩ := hexec
  refine ⟨_, hexec, ?_⟩
  rw [endDrain_of_no_chans _ _ (by exact hchans), fnGet_fnPut, hpending]
  exact ⟨hmsix, rfl⟩

theorem dStateChange_sets {d3 : Bool} (hthere : fnPresent s k.toNat fn.toNat = true) (hchans : s.dma.chans = []) :
    ∃ t, exec (.dStateChange k fn d3) s = .next t ∧ (fnGet t k.toNat fn.toNat).d3 = d3 := by
  refine ⟨_, rfl, ?_⟩
  unfold setDState
  rw [if_neg (by simp [hthere])]
  cases d3
  · dsimp only
    rw [if_neg Bool.false_ne_true, pumpAll_of_no_chans (by exact hchans), fnGet_fnPut]
    rfl
  · dsimp only
    rw [if_pos rfl, fnGet_fnPut]
    rfl

theorem vfEnable_shows {n : BitVec 11} (hthere : fnPresent s k.toNat 1 = true) (hoff : vfEnabled s k.toNat = false)
    (hlimit : n.toNat ≤ objGet s (0xA100 + k.toNat) 0x06 0) :
    ∃ t, exec (.vfEnable k true n) s = .next t ∧ vfEnabled t k.toNat = true ∧ numVfs t k.toNat = n.toNat := by
  have hn := n.isLt
  refine ⟨fnPut s k.toNat 1 (cfgPut (cfgPut (fnGet s k.toNat 1) 0x170 (BitVec.ofNat 32 n.toNat)) 0x168
    (cfgGet (cfgPut (fnGet s k.toNat 1) 0x170 (BitVec.ofNat 32 n.toNat)) 0x168 ||| 1)), ?_, ?_, ?_⟩
  · change Host.Outcome.next (setVfEnable s k.toNat true n.toNat) = _
    have hfew : decide (objGet s (0xA100 + k.toNat) 0x06 0 < n.toNat) = false := decide_eq_false (by omega)
    simp only [setVfEnable, hthere, hoff, hfew, Bool.not_true, Bool.or_false, Bool.false_eq_true, if_false, if_true]
  · rw [vfEnabled, fnGet_fnPut, cfgGet_cfgPut, BitVec.getLsbD_or]
    exact Bool.or_true _
  · rw [numVfs, fnGet_fnPut, cfgGet_cfgPut_ne _ _ (by decide), cfgGet_cfgPut, fld, BitVec.toNat_ofNat]
    simp only [Nat.shiftRight_zero]
    omega

/-- An access of a BAR is legal: 4 or 8 bytes, naturally aligned, with Memory Space Enable set. -/
def barLegal (s : State) (link fn : Nat) (off : BitVec 32) (size : Nat) : Bool :=
  (size == 4 || size == 8) && off.toNat % size == 0 && memSpaceOn s link fn

theorem barLegal_iff (s : State) (link fn : Nat) (off : BitVec 32) (size : Nat) :
    barLegal s link fn off size = true ↔ (size = 4 ∨ size = 8) ∧ off.toNat % size = 0 ∧ memSpaceOn s link fn = true := by
  simp [barLegal, and_assoc]

/-- Settles O35, a clause for each command of the functions. -/
theorem hostFunctionsTakeEffect : Obligations.HostFunctionsTakeEffect := by
  unfold Obligations.HostFunctionsTakeEffect
  refine ⟨fun s k fn => busMasterEnableSet_enables, fun s k fn => busMasterEnableClear_drains, fun s k fn => functionDrainEnd_ends,
    fun s k fn => initiateFlr_of_vf, fun s k fn => flrEnd_ends, fun s k fn d3 => dStateChange_sets, fun s k n => vfEnable_shows,
    fun s k fn off size p hthere hbad => ?bad, fun s k fn off size wr hsize halign hon => ?good⟩
  case bad =>
    have hillegal : ¬ barLegal s k.toNat fn.toNat off size = true := fun hlegal => by
      obtain ⟨hsize, halign, hon⟩ := (barLegal_iff ..).1 hlegal
      obtain ⟨h4, h8⟩ | hodd | hoff := hbad
      · exact hsize.elim h4 h8
      · exact hodd halign
      · exact absurd (hon.symm.trans hoff) (by decide)
    have hpresent : ¬ (!fnPresent s k.toNat fn.toNat) = true := by simp [hthere]
    exact ⟨⟨_, congrArg Host.Outcome.next ((if_neg hpresent).trans (if_neg hillegal)), rfl⟩,
      congrArg Host.Outcome.next ((if_neg hpresent).trans (if_neg hillegal))⟩
  case good =>
    have hlegal : barLegal s k.toNat fn.toNat off size = true := (barLegal_iff ..).2 ⟨hsize, halign, hon⟩
    refine congrArg Host.Outcome.next ((ite_congr rfl (fun _ => rfl) fun _ => (if_pos hlegal).trans (if_neg ?_)).trans (ite_self s))
    simp

end Sys2Proof.Proofs
end

section
/-!
SUPPORT. What the answers of the host settle where no channel waits, and what a timeout leaves unchanged (11 R261, R262, R270,
R271).
-/

namespace Sys2Proof.Machine.Laws

open Sys2Proof Sys2Proof.Machine

set_option Elab.async false

/-! ## No channel in use -/

theorem chan_of_no_chans {s : State} (h : s.dma.chans = []) (c : Nat) : chan s c = resetChan := by simp [chan, h]

/-- No channel is in use and no read is outstanding. -/
def NothingWaits (s : State) : Prop := s.dma.chans = [] ∧ s.hst.reads = []

section
variable {s : State}

theorem settleFails_of_no_chans (c : Nat) (h : s.dma.chans = []) : settleFails s c = s := by
  rw [settleFails, chan_of_no_chans h]
  rfl

theorem takeData_of_no_chans (r : HRead) (bs : List Byte) (h : s.dma.chans = []) : takeData s r bs = s := by
  rw [takeData, chan_of_no_chans h]
  rfl

theorem failPage_of_no_chans (h : HHold) (hchans : s.dma.chans = []) : failPage s h = s := by simp [failPage, hchans]

theorem nothingWaits_unitFail (c uid : Nat) (detail : BitVec 8) (write side : Bool) (h : NothingWaits s) :
    NothingWaits (unitFail s c uid detail write side) := by
  obtain ⟨hchans, hreads⟩ := h
  rw [unitFail, chan_of_no_chans hchans]
  obtain ⟨pair, heq⟩ := setChan_eq s c resetChan
  refine heq ▸ ⟨?_, hreads⟩
  rw [hchans]
  rfl

theorem nothingWaits_countLink (k sub : Nat) (h : NothingWaits s) : NothingWaits (countLink s k sub) := h

theorem nothingWaits_aerLog (link fn bit : Nat) (h : NothingWaits s) : NothingWaits (aerLog s link fn bit) := h

theorem nothingWaits_settleInvals (h : NothingWaits s) : NothingWaits (settleInvals s) := by
  obtain ⟨hhst, hdma, -⟩ := settleInvals_keeps s
  exact ⟨by rw [hdma, h.1], by rw [hhst, h.2]⟩

theorem nothingWaits_pumpAll (h : NothingWaits s) : NothingWaits (pumpAll s) := by
  rw [pumpAll_of_no_chans h.1]
  exact h

theorem nothingWaits_settleFails (c : Nat) (h : NothingWaits s) : NothingWaits (settleFails s c) := by
  rw [settleFails_of_no_chans c h.1]
  exact h

theorem nothingWaits_takeData (r : HRead) (bs : List Byte) (h : NothingWaits s) : NothingWaits (takeData s r bs) := by
  rw [takeData_of_no_chans r bs h.1]
  exact h

end

/-! ## A translation that fails -/

theorem holds_wakeLink (s : State) (k : Nat) : (wakeLink s k).hst.holds = s.hst.holds := by
  unfold wakeLink
  split
  · rfl
  · rw [linkPut_hst]

/-- A page that is asked for waits for the page request's answer, or for nothing. -/
theorem askPage_waits {s : State} (h : HHold) (hnone : s.hst.holds = []) : ∀ x ∈ (askPage s h).hst.holds, x.pri = true := by
  unfold askPage
  extract_lets
  split
  · simp [hnone]
  · rw [countLink_hst, emit, holds_wakeLink]
    simp +zetaDelta [hnone]

theorem mem_atcAdd (s : State) (e : AtcEntry) : e ∈ (atcAdd s e).hst.atc := List.mem_append_right _ (List.mem_singleton_self e)

/-! ## A timeout -/

/-- `s` has the reads of `b`, and link `k` the timeouts that it had counted. -/
def SameTimeouts (k : Nat) (b s : State) : Prop :=
  s.hst.reads = b.hst.reads ∧ ctrGet s (0xC0E0 + k) 0x01 0 = ctrGet b (0xC0E0 + k) 0x01 0

section
variable {k : Nat} {b s : State}

theorem sameTimeouts_count {i u : Nat} (hu : u < 256) (hne : u ≠ 1) (h : SameTimeouts k b s) :
    SameTimeouts k b (count s i u) :=
  ⟨h.1, by rw [count, ctrGet_ctrAddAt, if_neg (by unfold okey; omega), h.2]⟩

theorem sameTimeouts_event {j i n : Nat} (h : SameTimeouts k b s) : SameTimeouts k b (event s j i n) :=
  ⟨by simpa using h.1, (ctrGet_event (by decide) (by decide)).trans h.2⟩

theorem sameTimeouts_linkPut {j : Nat} {l : Link} (h : SameTimeouts k b s) : SameTimeouts k b (linkPut s j l) :=
  iteInduction (fun _ => h) (fun _ => sameTimeouts_event h)

theorem sameTimeouts_wakeLink {j : Nat} (h : SameTimeouts k b s) : SameTimeouts k b (wakeLink s j) :=
  iteInduction (fun _ => h) (fun _ => sameTimeouts_linkPut h)

theorem sameTimeouts_raiseVector {link fn v : Nat} (h : SameTimeouts k b s) : SameTimeouts k b (raiseVector s link fn v) :=
  iteInduction (fun _ => sameTimeouts_wakeLink (j := link) h) (fun _ => iteInduction (fun _ => h) (fun _ => h))

theorem sameTimeouts_setChan {c : Nat} {x : Chan} (h : SameTimeouts k b s) : SameTimeouts k b (setChan s c x) := by
  obtain ⟨pair, heq⟩ := setChan_eq s c x
  exact heq ▸ h

theorem sameTimeouts_dmaNotify {c : Nat} {x : Chan} (h : SameTimeouts k b s) : SameTimeouts k b (dmaNotify s c x) :=
  iteInduction (fun _ => sameTimeouts_raiseVector h) (fun _ => h)

theorem sameTimeouts_dmaHalt {c addr : Nat} {detail : BitVec 8} {dir list : Bool} (h : SameTimeouts k b s) :
    SameTimeouts k b (dmaHalt s c addr detail dir list) := by
  have hnote := sameTimeouts_dmaNotify (c := c)
    (x := { latched (chan s c) addr detail dir list with state := .halted, inPre := (chan s c).state = .precheck })
    (sameTimeouts_count (i := 0xC0D0) (u := 3) (by decide) (by decide) (sameTimeouts_setChan (c := c) (x :=
      { latched (chan s c) addr detail dir list with state := .halted, inPre := (chan s c).state = .precheck }) h))
  unfold dmaHalt
  extract_lets
  split
  · exact hnote
  · exact hnote

theorem sameTimeouts_settleFails {c : Nat} (h : SameTimeouts k b s) : SameTimeouts k b (settleFails s c) := by
  unfold settleFails
  extract_lets
  split
  · exact h
  · split
    · exact sameTimeouts_dmaHalt h
    · exact sameTimeouts_dmaHalt h
    · exact sameTimeouts_setChan h
    · exact h

theorem sameTimeouts_settleInvals (h : SameTimeouts k b s) : SameTimeouts k b (settleInvals s) :=
  List.foldlRecOn (motive := SameTimeouts k b) _ _ h fun _ ht _ _ => sameTimeouts_count (by decide) (by decide) ht

end

end Sys2Proof.Machine.Laws
end

section
/-!
CLAIMS. Translations, page requests, completions and timeouts (11 R261, R262, R270, R271).
-/

namespace Sys2Proof.Proofs

open Sys2Proof Sys2Proof.Machine Sys2Proof.Machine.Laws

set_option Elab.async false

theorem find?_of_singleton {α : Type} {l : List α} {a : α} {p : α → Bool} (hl : l = [a]) (ha : p a = true) :
    l.find? p = some a := by
  rw [hl, List.find?_cons_of_pos ha]

theorem translationCompletion_settles {s : State} {tag : Nat} (ok : Bool) (addr : BitVec 64) {h : HHold}
    (hholds : s.hst.holds = [h]) (htag : h.tag = tag) (hpri : h.pri = false) (hchans : s.dma.chans = []) :
    ∃ t, exec (.translationCompletion tag ok addr) s = .next t ∧
      (if ok then t.hst.holds = [] ∧ ⟨h.link, h.fn, h.pasid, h.page, addr.toNat / 4096⟩ ∈ t.hst.atc
        else ∀ x ∈ t.hst.holds, x.pri = true) := by
  have hfind : s.hst.holds.find? (fun h => h.tag == tag && !h.pri) = some h := find?_of_singleton hholds (by simp [htag, hpri])
  have hgone : s.hst.holds.filter (fun x => x.tag != tag) = [] := by simp [hholds, htag]
  change ∃ t, execTranslationCompletion tag ok addr s = .next t ∧ _
  cases ok with
  | true =>
    refine ⟨atcAdd { s with hst := { s.hst with holds := [] } } ⟨h.link, h.fn, h.pasid, h.page, addr.toNat / 4096⟩, ?_, rfl,
      mem_atcAdd _ _⟩
    simp only [execTranslationCompletion, hfind, hgone, if_true]
    rw [pumpAll_of_no_chans (by exact hchans)]
  | false =>
    refine ⟨if fnPri s h.link h.fn then askPage { s with hst := { s.hst with holds := [] } } h
      else { s with hst := { s.hst with holds := [] } }, ?_, ?_⟩
    · simp only [execTranslationCompletion, hfind, hgone, Bool.false_eq_true, if_false]
      rw [failPage_of_no_chans h (by exact hchans)]
      rfl
    · rw [if_neg Bool.false_ne_true]
      split
      · exact askPage_waits h rfl
      · exact fun x hx => absurd hx List.not_mem_nil

theorem pageRequestResponse_settles {s : State} {tag : Nat} (ok : Bool) {h : HHold}
    (hholds : s.hst.holds = [h]) (htag : h.tag = tag) (hpri : h.pri = true) (hchans : s.dma.chans = []) :
    ∃ t, exec (.pageRequestResponse tag ok) s = .next t ∧ t.hst.holds = [] := by
  have hfind : s.hst.holds.find? (fun h => h.tag == tag && h.pri) = some h := find?_of_singleton hholds (by simp [htag, hpri])
  have hgone : s.hst.holds.filter (fun x => x.tag != tag) = [] := by simp [hholds, htag]
  change ∃ t, execPageRequestResponse tag ok s = .next t ∧ _
  refine ⟨if ok then { s with hst := { s.hst with holds := [] } }
    else countLink { s with hst := { s.hst with holds := [] } } h.link 0x0E, ?_, ?_⟩
  · simp only [execPageRequestResponse, hfind, hgone]
    rw [failPage_of_no_chans h (by exact hchans), pumpAll_of_no_chans (by split <;> exact hchans)]
  · split <;> rfl

theorem covers_of_page {v : Inval} {e : AtcEntry} (hlink : e.link = v.link) (hfn : e.fn = v.fn) (hpasid : v.pasid = none)
    (hlow : v.first ≤ e.page) (hhigh : e.page < v.first + v.pages) : v.covers e.link e.fn e.pasid e.page = true := by
  simp [Inval.covers, hlink, hfn, hpasid, hlow, hhigh]

theorem invalidationRequest_settles {s : State} (k : BitVec 2) (fn : BitVec 11) (addr : BitVec 64) (n : Nat)
    (hinvals : s.hst.invals = []) (hreads : s.hst.reads = []) :
    ∃ t, exec (.invalidationRequest k fn none addr n) s = .next t ∧ t.hst.invals = [] ∧
      .invalidated k.toNat fn.toNat ∈ t.out ∧
      ∀ e ∈ t.hst.atc, e.link = k.toNat → e.fn = fn.toNat → e.page < addr.toNat / 4096 ∨ addr.toNat / 4096 + n ≤ e.page := by
  obtain ⟨v, hv⟩ : ∃ v : Inval, v = ⟨k.toNat, fn.toNat, none, addr.toNat / 4096, n, s.hst.nextTag⟩ := ⟨_, rfl⟩
  obtain ⟨u, hu⟩ : ∃ u : State, u = { s with hst := { s.hst with
    atc := s.hst.atc.filter (fun e => !v.covers e.link e.fn e.pasid e.page), invals := [v] } } := ⟨_, rfl⟩
  have hidle : invalBusy u v = false := by simp [invalBusy, hu, hreads]
  have hdue : u.hst.invals = [v] := by rw [hu]
  have hexec : exec (.invalidationRequest k fn none addr n) s = .next (settleInvals u) := by
    change Host.Outcome.next _ = _
    rw [hu, hv]
    simp [hinvals]
  have hsettled : settleInvals u = countLink (emit { u with hst := { u.hst with invals := [] } } (.invalidated v.link v.fn)) v.link
      0x0C := by
    simp [settleInvals, hdue, hidle]
  refine ⟨_, hexec, ?_⟩
  rw [hsettled]
  refine ⟨rfl, ?_, fun e he hlink hfn => ?_⟩
  · rw [countLink_out, emit_out, hv]
    exact List.mem_append_right _ (List.mem_singleton_self _)
  · rw [countLink_hst, emit, hu] at he
    have hout := (List.mem_filter.1 he).2
    refine Decidable.byContradiction fun hin => ?_
    subst hv
    rw [covers_of_page hlink hfn rfl (by dsimp only; omega) (by dsimp only; omega)] at hout
    exact Bool.false_ne_true hout

theorem completionReceived_takes {s : State} {tag : BitVec 14} {k : BitVec 2} (p : Bool) (st : BitVec 3) (d : List Byte)
    {r : HRead} (hreads : s.hst.reads = [r]) (hlink : r.link = k.toNat) (htag : r.tag = tag.toNat) (hchans : s.dma.chans = []) :
    ∃ t, exec (.completionReceived tag k p st d) s = .next t ∧ t.hst.reads = [] := by
  have hfind : s.hst.reads.find? (fun r => r.link == k.toNat && r.tag == tag.toNat) = some r :=
    find?_of_singleton hreads (by simp [hlink, htag])
  have hnone : NothingWaits { s with hst := { s.hst with reads := s.hst.reads.erase r } } := ⟨hchans, by simp [hreads]⟩
  refine ⟨_, rfl, ?_⟩
  rw [hfind]
  dsimp only
  split
  · exact (nothingWaits_settleInvals (nothingWaits_pumpAll
      (nothingWaits_aerLog _ _ _ (nothingWaits_countLink _ _ (nothingWaits_countLink _ _ hnone))))).2
  · refine (nothingWaits_pumpAll (nothingWaits_settleInvals (nothingWaits_settleFails _ ?_))).2
    split
    · exact nothingWaits_unitFail _ _ _ _ _ (nothingWaits_aerLog _ _ _ (nothingWaits_countLink _ _ hnone))
    split
    · exact nothingWaits_takeData _ _ hnone
    split
    · exact nothingWaits_unitFail _ _ _ _ _ (nothingWaits_countLink _ _ hnone)
    · exact nothingWaits_unitFail _ _ _ _ _ (nothingWaits_countLink _ _ hnone)

theorem completionReceived_unexpected {s : State} {tag : BitVec 14} {k : BitVec 2} (p : Bool) (st : BitVec 3) (d : List Byte)
    (hother : ∀ r ∈ s.hst.reads, r.link = k.toNat → r.tag ≠ tag.toNat) :
    ∃ t, exec (.completionReceived tag k p st d) s = .next t ∧
      ctrGet t (0xC0E0 + k.toNat) 0x02 0 = (ctrGet s (0xC0E0 + k.toNat) 0x02 0 + 1) % 2 ^ 64 ∧ t.dma = s.dma := by
  have hfind : s.hst.reads.find? (fun r => r.link == k.toNat && r.tag == tag.toNat) = none := by
    simpa [List.find?_eq_none] using hother
  refine ⟨_, rfl, ?_⟩
  rw [hfind]
  exact ⟨ctrGet_count_self s (0xC0E0 + k.toNat) 2, rfl⟩

theorem completionTimeout_quarantines {s : State} {tag : BitVec 14} {k : BitVec 2} {r : HRead}
    (hreads : s.hst.reads = [r]) (hlink : r.link = k.toNat) (htag : r.tag = tag.toNat) (hquar : r.quar = false)
    (hold : r.since + timeoutSlots s k.toNat r.fn ≤ now s) :
    ∃ t, exec (.completionTimeout k tag) s = .next t ∧ t.hst.reads.any (fun x => x.tag == tag.toNat && x.quar) = true ∧
      ctrGet t (0xC0E0 + k.toNat) 0x01 0 = (ctrGet s (0xC0E0 + k.toNat) 0x01 0 + 1) % 2 ^ 64 := by
  have hfind : s.hst.reads.find? (fun r => r.link == k.toNat && r.tag == tag.toNat && !r.quar) = some r :=
    find?_of_singleton hreads (by simp [hlink, htag, hquar])
  refine ⟨_, rfl, ?_⟩
  rw [hfind]
  dsimp only
  rw [if_neg (Nat.not_lt.2 hold), hreads, List.map_cons, List.map_nil, if_pos rfl]
  obtain ⟨u, hu⟩ : ∃ u : State, u = { s with hst := { s.hst with reads := [{ r with quar := true, from_ := now s }] } } := ⟨_, rfl⟩
  rw [← hu]
  have hcount : ctrGet (aerLog (countLink u k.toNat 1) k.toNat r.fn 14) (0xC0E0 + k.toNat) 1 0 =
      (ctrGet s (0xC0E0 + k.toNat) 1 0 + 1) % 2 ^ 64 := by
    rw [hu]
    exact ctrGet_count_self s (0xC0E0 + k.toNat) 1
  have hkept : SameTimeouts k.toNat (aerLog (countLink u k.toNat 1) k.toNat r.fn 14) (settleInvals (settleFails (unitFail
      (aerLog (countLink u k.toNat 1) k.toNat r.fn 14) r.ch r.unit 0x13 false
      (readSide (aerLog (countLink u k.toNat 1) k.toNat r.fn 14) r)) r.ch)) :=
    sameTimeouts_settleInvals (sameTimeouts_settleFails (sameTimeouts_setChan ⟨rfl, rfl⟩))
  refine ⟨?_, hkept.2.trans hcount⟩
  rw [hkept.1]
  change u.hst.reads.any _ = true
  simp [hu, htag]

theorem tagQuarantineEnd_frees {s : State} {tag : BitVec 14} {k : BitVec 2} {r : HRead}
    (hreads : s.hst.reads = [r]) (hlink : r.link = k.toNat) (htag : r.tag = tag.toNat) (hquar : r.quar = true)
    (hold : r.from_ + 4 * timeoutSlots s k.toNat r.fn ≤ now s) (hchans : s.dma.chans = []) :
    ∃ t, exec (.tagQuarantineEnd k tag) s = .next t ∧ t.hst.reads = [] := by
  have hfind : s.hst.reads.find? (fun r => r.link == k.toNat && r.tag == tag.toNat && r.quar) = some r :=
    find?_of_singleton hreads (by simp [hlink, htag, hquar])
  have hnone : NothingWaits { s with hst := { s.hst with reads := s.hst.reads.erase r } } := ⟨hchans, by simp [hreads]⟩
  refine ⟨_, rfl, ?_⟩
  rw [hfind]
  dsimp only
  rw [if_neg (Nat.not_lt.2 hold)]
  exact (nothingWaits_settleInvals (nothingWaits_pumpAll hnone)).2

/-- Settles O37, a clause for each command. -/
theorem hostTranslationsAndCompletions : Obligations.HostTranslationsAndCompletions := by
  unfold Obligations.HostTranslationsAndCompletions
  exact ⟨fun _ _ ok addr _ => translationCompletion_settles ok addr, fun _ _ ok _ => pageRequestResponse_settles ok,
    fun _ k fn addr n => invalidationRequest_settles k fn addr n, fun _ _ _ p st d _ => completionReceived_takes p st d,
    fun _ _ _ p st d => completionReceived_unexpected p st d, fun _ _ _ _ => completionTimeout_quarantines,
    fun _ _ _ _ => tagQuarantineEnd_frees⟩

end Sys2Proof.Proofs
end

section
/-!
SUPPORT. What the debug access port reaches: the gate of a command, the thread that halts, steps and resumes, and the NOR block
that an erase empties (20 R450 to R455).
-/

namespace Sys2Proof.Machine.Laws

open Sys2Proof Sys2Proof.Machine

set_option Elab.async false

/-! ## The gate of a command (20 R450, R453) -/

section
variable {s : State}

theorem dbgDo_of_locked (f : State → State) (h : s.dbg.unlocked = false) : dbgDo s f = dbgResult s 2 :=
  if_pos (by simp [h])

theorem dbgDo_of_unpowered (f : State → State) (h : s.dbg.unlocked = true) (hkind : selKind s ≠ 3)
    (hoff : islandUp s (selIsland s) = false) : dbgDo s f = dbgResult s 5 :=
  (if_neg (by simp [h])).trans (if_pos ⟨hkind, by simp [hoff]⟩)

theorem dbgDo_of_powered (f : State → State) (h : s.dbg.unlocked = true)
    (hup : selKind s = 3 ∨ islandUp s (selIsland s) = true) : dbgDo s f = f s :=
  (if_neg (by simp [h])).trans (if_neg fun hno => hup.elim hno.1 fun hon => by simp [hon] at hno)

theorem dbgMem_of_locked (f : State → Option State) (h : s.dbg.unlocked = false) : dbgMem s f = .next (dbgResult s 2) :=
  if_pos (by simp [h])

theorem dbgMem_of_unpowered (f : State → Option State) (h : s.dbg.unlocked = true) (hkind : selKind s ≠ 3)
    (hoff : islandUp s (selIsland s) = false) : dbgMem s f = .next (dbgResult s 5) :=
  (if_neg (by simp [h])).trans (if_pos ⟨hkind, by simp [hoff]⟩)

/-- The gate of a memory command on a powered target, where its effect is `t` or there is no memory. -/
theorem dbgMem_of_powered (f : State → Option State) (h : s.dbg.unlocked = true)
    (hup : selKind s = 3 ∨ islandUp s (selIsland s) = true) :
    (∀ t, f s = some t → dbgMem s f = .next t) ∧ (f s = none → dbgMem s f = .fault (.noDeviceMemory s.dbg.addr.toNat)) := by
  have hgate : dbgMem s f = (match f s with
      | some s' => .next s'
      | none => .fault (.noDeviceMemory s.dbg.addr.toNat)) :=
    (if_neg (by simp [h])).trans (if_neg fun hno => hup.elim hno.1 fun hon => by simp [hon] at hno)
  exact ⟨fun t ht => by rw [hgate, ht], fun hnone => by rw [hgate, hnone]⟩

/-! ## A thread halts, steps and resumes (20 R455) -/

theorem thread_haltThread {th : Nat} (sel : Nat) (h : (thread s th).state ≠ .halted) (n : Nat) :
    thread (haltThread s th sel) n =
      if n = th then { thread s th with state := .halted, before := (thread s th).state } else thread s n := by
  unfold haltThread
  rw [if_neg h, ← thread_setThread]
  exact thread_congr (by simp [haltEvent]) n

theorem haltThread_hbm (th sel : Nat) : (haltThread s th sel).hbm = s.hbm := by
  dsimp only [haltThread]
  split
  · rfl
  · simp [haltEvent]

/-- A halted runnable thread resumes: it waits for nothing. -/
theorem resumeThread_of_runnable {th : Nat} (h : (thread s th).before = .runnable) :
    resumeThread s th = setThread s th { thread s th with state := .runnable, before := .stopped } := by
  dsimp only [resumeThread]
  rw [h]

theorem stepThread_of_runnable {th : Nat} (h : (thread s th).before = .runnable) :
    ∃ u, stepThread s th = dbgResult (stepHalt u th) 0 := by
  dsimp only [stepThread]
  rw [h]
  exact ⟨_, rfl⟩

/-- After a step's halt the thread neither runs nor stands stopped. -/
theorem stepHalt_halts (s : State) (th : Nat) :
    (thread (stepHalt s th) th).state ≠ .runnable ∧ (thread (stepHalt s th) th).state ≠ .stopped := by
  cases hstate : (thread s th).state <;> simp [stepHalt, hstate, thread_setThread]

theorem outsideJutex_dbg {t : State} (h : OutsideJutex s t) : t.dbg = s.dbg := by
  have heq := congrArg State.dbg (show _ = s from h)
  exact heq

theorem outsideJutex_hbm {t : State} (h : OutsideJutex s t) : t.hbm = s.hbm := by
  have heq := congrArg State.hbm (show _ = s from h)
  exact heq

/-! ## Erasing NOR -/

theorem sfind_filter {α : Type} (m : Sparse α) (q : Nat → Bool) (k : Nat) :
    sfind (m.filter fun e => q e.1) k = if q k then sfind m k else none := by
  induction m with
  | nil => simp [sfind]
  | cons e m ih =>
    by_cases hkept : q e.1
    · rw [List.filter_cons_of_pos (p := fun e : Nat × α => q e.1) hkept]
      by_cases hkey : e.1 = k
      · subst hkey
        simp [sfind, hkept]
      · simp [sfind, hkey, ih]
    · rw [List.filter_cons_of_neg (p := fun e : Nat × α => q e.1) hkept, ih]
      by_cases hkey : e.1 = k
      · simp [← hkey, hkept]
      · simp [sfind, hkey]

end

end Sys2Proof.Machine.Laws
end

section
/-!
CLAIMS. The debug access port (20 R450 to R455, Tables 20-2 and 20-3).
-/

namespace Sys2Proof.Proofs

open Sys2Proof Sys2Proof.Machine Sys2Proof.Machine.Laws

set_option Elab.async false

section
variable {s : State} {th : BitVec 10}

theorem dapCommand_of_locked {c : Instr} (hcmd : DapCommand c) (h : s.dbg.unlocked = false) :
    exec c s = .next (dbgResult s 2) := by
  have hdo (f : State → State) : (Host.Outcome.next (dbgDo s f) : Host.Outcome State Fault Refusal) = .next (dbgResult s 2) :=
    congrArg Host.Outcome.next (dbgDo_of_locked f h)
  obtain rfl | rfl | rfl | rfl | rfl | rfl | rfl | rfl | rfl | rfl := hcmd
  · exact hdo _
  · exact hdo _
  · exact hdo _
  · exact hdo _
  · exact hdo _
  · exact hdo _
  · exact hdo _
  · exact dbgMem_of_locked _ h
  · exact dbgMem_of_locked _ h
  · exact dbgMem_of_locked _ h

theorem dapCommand_of_unpowered {c : Instr} (hcmd : DapCommand c) (h : s.dbg.unlocked = true) (hkind : selKind s ≠ 3)
    (hoff : islandUp s (selIsland s) = false) : exec c s = .next (dbgResult s 5) := by
  have hdo (f : State → State) : (Host.Outcome.next (dbgDo s f) : Host.Outcome State Fault Refusal) = .next (dbgResult s 5) :=
    congrArg Host.Outcome.next (dbgDo_of_unpowered f h hkind hoff)
  obtain rfl | rfl | rfl | rfl | rfl | rfl | rfl | rfl | rfl | rfl := hcmd
  · exact hdo _
  · exact hdo _
  · exact hdo _
  · exact hdo _
  · exact hdo _
  · exact hdo _
  · exact hdo _
  · exact dbgMem_of_unpowered _ h hkind hoff
  · exact dbgMem_of_unpowered _ h hkind hoff
  · exact dbgMem_of_unpowered _ h hkind hoff

/-- A command at a powered thread acts. -/
theorem dbgDo_at_thread (h : DapAtThread s th) (f : State → State) : dbgDo s f = f s := by
  obtain ⟨hopen, -, -, hup⟩ := h
  exact dbgDo_of_powered f hopen (.inr hup)

theorem debugHalt_halts (h : DapAtThread s th) :
    ((thread s th.toNat).state = .faulted → exec .debugHalt s = .next (dbgResult s 3)) ∧
    ((thread s th.toNat).state ≠ .faulted → (thread s th.toNat).state ≠ .halted →
      ∃ t, exec .debugHalt s = .next t ∧ t.dbg.result = 0 ∧
        thread t th.toNat = { thread s th.toNat with state := .halted, before := (thread s th.toNat).state } ∧
        OtherThreads s t th ∧ SameMemory s t) := by
  have hexec : exec .debugHalt s = .next (debugHalt s) := congrArg Host.Outcome.next (dbgDo_at_thread h debugHalt)
  obtain ⟨-, hkind, hsel, -⟩ := h
  have hhalt : debugHalt s = if (thread s th.toNat).state = .faulted then dbgResult s 3
      else dbgResult (haltThread s th.toNat s.dbg.sel.toNat) 0 := by
    rw [debugHalt, hkind, hsel]
    rfl
  rw [hexec, hhalt]
  refine ⟨fun hfault => by rw [if_pos hfault], fun hfault hrun => ?_⟩
  have hthread : ∀ n, thread (dbgResult (haltThread s th.toNat s.dbg.sel.toNat) 0) n = _ :=
    thread_haltThread s.dbg.sel.toNat hrun
  exact ⟨dbgResult (haltThread s th.toNat s.dbg.sel.toNat) 0, by rw [if_neg hfault], rfl, by rw [hthread, if_pos rfl], fun n hn => by rw [hthread, if_neg hn],
    sameMemory_of_hbm (haltThread_hbm th.toNat s.dbg.sel.toNat)⟩

theorem debugResume_runs (h : DapAtThread s th) (hhalted : (thread s th.toNat).state = .halted)
    (hbefore : (thread s th.toNat).before = .runnable) :
    ∃ t, exec .debugResume s = .next t ∧ t.dbg.result = 0 ∧ (thread t th.toNat).state = .runnable ∧ OtherThreads s t th := by
  have hexec : exec .debugResume s = .next (debugResume s) := congrArg Host.Outcome.next (dbgDo_at_thread h debugResume)
  obtain ⟨-, hkind, hsel, -⟩ := h
  have hresume : debugResume s =
      dbgResult (setThread s th.toNat { thread s th.toNat with state := .runnable, before := .stopped }) 0 := by
    rw [debugResume, hkind, hsel]
    dsimp only
    rw [if_pos hhalted, resumeThread_of_runnable hbefore]
    rfl
  have hthread := fun n => thread_setThread s th.toNat n { thread s th.toNat with state := .runnable, before := .stopped }
  rw [hexec, hresume]
  exact ⟨_, rfl, rfl, congrArg Thread.state ((hthread th.toNat).trans (if_pos rfl)), fun n hn => (hthread n).trans (if_neg hn)⟩

theorem debugStep_halts (h : DapAtThread s th) (hhalted : (thread s th.toNat).state = .halted)
    (hbefore : (thread s th.toNat).before = .runnable) :
    ∃ t, exec .debugStep s = .next t ∧ t.dbg.result = 0 ∧ (thread t th.toNat).state ≠ .runnable ∧
      (thread t th.toNat).state ≠ .stopped := by
  have hexec : exec .debugStep s = .next (debugStep s) := congrArg Host.Outcome.next (dbgDo_at_thread h debugStep)
  obtain ⟨-, hkind, hsel, -⟩ := h
  have hstep : ∃ u, debugStep s = dbgResult (stepHalt u th.toNat) 0 := by
    obtain ⟨u, hu⟩ := stepThread_of_runnable hbefore
    rw [debugStep, hkind, hsel]
    exact ⟨u, (if_pos hhalted).trans hu⟩
  obtain ⟨u, hstep⟩ := hstep
  rw [hexec, hstep]
  exact ⟨_, rfl, rfl, stepHalt_halts u th.toNat⟩

theorem abortStaged_frees (h : DapAtThread s th) :
    ((thread s th.toNat).owns = none → exec .abortStaged s = .next (dbgResult s 1)) ∧
    (∀ ch, (thread s th.toNat).owns = some ch →
      ∃ t, exec .abortStaged s = .next t ∧ t.dbg.result = 0 ∧ (thread t th.toNat).owns = none ∧
        (channel t (thCluster th.toNat) ch).owner = none) := by
  have hexec : exec .abortStaged s = .next (abortStaged s) := congrArg Host.Outcome.next (dbgDo_at_thread h abortStaged)
  obtain ⟨-, hkind, hsel, -⟩ := h
  rw [hexec]
  refine ⟨fun hnone => ?_, fun ch hch => ?_⟩
  · simp [abortStaged, hkind, hsel, hnone]
  · obtain ⟨u, hu⟩ : ∃ u, u = setThread s th.toNat { thread s th.toNat with owns := none, staging := 0 } := ⟨_, rfl⟩
    obtain ⟨v, hv⟩ : ∃ v, v = setChannel u (thCluster th.toNat) ch { channel u (thCluster th.toNat) ch with owner := none } :=
      ⟨_, rfl⟩
    refine ⟨dbgResult (count v (0xC090 + thCluster th.toNat) 0x0C) 0, ?_, rfl, ?_, ?_⟩
    · simp [abortStaged, hkind, hsel, hch, hu, hv]
    · have hthread : thread (dbgResult (count v (0xC090 + thCluster th.toNat) 0x0C) 0) th.toNat = thread u th.toNat := by
        rw [hv]
        rfl
      rw [hthread, hu, thread_setThread, if_pos rfl]
    · have hchannel : channel v (thCluster th.toNat) ch = { channel u (thCluster th.toNat) ch with owner := none } := by
        rw [hv, channel_setChannel_self]
      exact congrArg Channel.owner hchannel

theorem abortWait_wakes (h : DapAtThread s th) {w : Waiting} (hstate : (thread s th.toNat).state = .frozen)
    (hwait : (thread s th.toNat).wait = some w) :
    ∃ t, exec .abortWait s = .next t ∧ t.dbg.result = 0 ∧ (thread t th.toNat).state = .runnable ∧
      (thread t th.toNat).wait = none ∧ WroteReg s t th w.rd (if w.sel = 0 then 8 else 0) ∧
      (engine t (thEngine th.toNat)).frozen = false := by
  have hexec : exec .abortWait s = .next (abortWait s) := congrArg Host.Outcome.next (dbgDo_at_thread h abortWait)
  obtain ⟨-, hkind, hsel, -⟩ := h
  obtain ⟨u, hu⟩ : ∃ u, u = setThread s th.toNat { thread s th.toNat with state := .runnable, wait := none } := ⟨_, rfl⟩
  obtain ⟨v, hv⟩ : ∃ v, v = setReg u th.toNat w.rd (if w.sel = 0 then 8 else 0) := ⟨_, rfl⟩
  obtain ⟨t, ht⟩ : ∃ t, t = dbgResult (setEngine v (thEngine th.toNat) { engine v (thEngine th.toNat) with frozen := false }) 0 :=
    ⟨_, rfl⟩
  have habort : abortWait s = t := by
    rw [ht, hv, hu, abortWait, hsel, if_neg (by simp [hkind]), hstate, hwait]
  have hthread : thread t th.toNat = thread v th.toNat := by
    rw [ht]
    rfl
  have huthread : thread u th.toNat = { thread s th.toNat with state := .runnable, wait := none } := by
    rw [hu, thread_setThread, if_pos rfl]
  refine ⟨t, hexec.trans (congrArg Host.Outcome.next habort), by rw [ht]; rfl, ?_, ?_, fun q => ?_, ?_⟩
  · rw [hthread, hv, (thread_setReg_fields ..).1, huthread]
  · rw [hthread, hv]
    simp [huthread]
  · rw [getReg_congr (congrArg Thread.regs hthread), hv, getReg_setReg, getReg_congr (s := s) (by rw [huthread])]
  · have hengine : engine t (thEngine th.toNat) = { engine v (thEngine th.toNat) with frozen := false } := by
      rw [ht]
      exact (engine_setEngine ..).trans (if_pos rfl)
    rw [hengine]

theorem threadReg_of_register {r : BitVec 5} : threadReg s th.toNat (r.setWidth 16 : BitVec 16).toNat = some (getReg s th.toNat r) := by
  have hr := r.isLt
  have hnum : (r.setWidth 16 : BitVec 16).toNat = r.toNat := by simp; omega
  rw [threadReg, hnum, if_pos (by omega), BitVec.ofNat_toNat, BitVec.setWidth_eq]

theorem setThreadReg_of_register {r : BitVec 5} (v : BitVec 64) :
    setThreadReg s th.toNat (r.setWidth 16 : BitVec 16).toNat v = setReg s th.toNat r v := by
  have hr := r.isLt
  have hnum : (r.setWidth 16 : BitVec 16).toNat = r.toNat := by simp; omega
  rw [setThreadReg, hnum, if_pos (by omega), BitVec.ofNat_toNat, BitVec.setWidth_eq]

theorem regRead_of_thread (h : DapAtThread s th) {v : BitVec 64} (hreg : threadReg s th.toNat s.dbg.regno.toNat = some v) :
    exec .regRead s = .next { s with dbg := { s.dbg with data := v, result := 0 } } := by
  have hexec : exec .regRead s = .next (regRead s) := congrArg Host.Outcome.next (dbgDo_at_thread h regRead)
  obtain ⟨-, hkind, hsel, -⟩ := h
  rw [hexec, regRead, hkind, hsel]
  dsimp only
  rw [hreg]
  rfl

theorem regWrite_of_halted (h : DapAtThread s th) {r : BitVec 5} (hregno : s.dbg.regno = r.setWidth 16)
    (hhalted : (thread s th.toNat).state = .halted) :
    ∃ t, exec .regWrite s = .next t ∧ t.dbg = { s.dbg with result := 0 } ∧ WroteReg s t th r s.dbg.data ∧
      OtherThreads s t th ∧ SameMemory s t := by
  have hexec : exec .regWrite s = .next (regWrite s) := congrArg Host.Outcome.next (dbgDo_at_thread h regWrite)
  obtain ⟨-, hkind, hsel, -⟩ := h
  have hwrite : regWrite s = dbgResult (setReg s th.toNat r s.dbg.data) 0 := by
    rw [regWrite, hkind, hsel, hhalted]
    dsimp only
    rw [hregno, threadReg_of_register, setThreadReg_of_register]
    rfl
  have hout : OutsideJutex s (setReg s th.toNat r s.dbg.data) := outsideJutex_setReg (show OutsideJutex s s from rfl) th.toNat r s.dbg.data
  rw [hexec, hwrite]
  refine ⟨_, rfl, ?_, fun q => getReg_setReg s th.toNat r q s.dbg.data, fun n hn => thread_setReg_ne s r s.dbg.data hn,
    sameMemory_of_hbm (s := s) (show (setReg s th.toNat r s.dbg.data).hbm = s.hbm from outsideJutex_hbm hout)⟩
  change { (setReg s th.toNat r s.dbg.data).dbg with result := 0 } = { s.dbg with result := 0 }
  rw [outsideJutex_dbg hout]

theorem memory_at_device (hopen : s.dbg.unlocked = true) (hkind : selKind s = 2) (hup : islandUp s 33 = true)
    (halign : s.dbg.addr.toNat % 8 = 0) :
    (s.dbg.addr.toNat + 8 ≤ hbmSize → exec .memRead s = .next { s with dbg := { s.dbg with
      data := BitVec.ofNat 64 (leNat (hbmRead s s.dbg.addr.toNat 8)), result := 0 } }) ∧
    (s.dbg.addr.toNat + 8 ≤ hbmSize → ∃ t, exec .memWrite s = .next t ∧
      (if hbmLocked s s.dbg.addr.toNat 8 then t = { s with dbg := { s.dbg with result := 4 } }
      else t.dbg.result = 0 ∧ ∀ a, hbmByte t a = if s.dbg.addr.toNat ≤ a ∧ a < s.dbg.addr.toNat + 8 then
        byteAt (leBytes 8 s.dbg.data.toNat) (a - s.dbg.addr.toNat) else hbmByte s a)) ∧
    (hbmSize < s.dbg.addr.toNat + 8 → exec .memRead s = .fault (.noDeviceMemory s.dbg.addr.toNat) ∧
      exec .memWrite s = .fault (.noDeviceMemory s.dbg.addr.toNat)) := by
  have hisland : islandUp s (selIsland s) = true := by rw [selIsland, hkind]; exact hup
  obtain ⟨hread, hreadFault⟩ := dbgMem_of_powered memRead hopen (.inr hisland)
  obtain ⟨hwrite, hwriteFault⟩ := dbgMem_of_powered memWrite hopen (.inr hisland)
  have halign' : ¬ s.dbg.addr.toNat % 8 ≠ 0 := fun hne => hne halign
  refine ⟨fun hin => hread _ ?_, fun hin => ⟨if hbmLocked s s.dbg.addr.toNat 8 then dbgResult s 4
    else dbgResult (hbmWrite s s.dbg.addr.toNat (leBytes 8 s.dbg.data.toNat)) 0, hwrite _ ?_, ?_⟩,
    fun hout => ⟨hreadFault ?_, hwriteFault ?_⟩⟩
  · rw [memRead, hkind]
    change (if s.dbg.addr.toNat % 8 ≠ 0 then _ else if hbmSize < s.dbg.addr.toNat + 8 then _ else _) = _
    rw [if_neg halign', if_neg (Nat.not_lt.2 hin)]
    simp only [dbgResult, setData, dbgSet, BitVec.ofNat_eq_ofNat]
  · rw [memWrite, hkind]
    change (if s.dbg.addr.toNat % 8 ≠ 0 then _ else if hbmSize < s.dbg.addr.toNat + 8 then _ else _) = _
    rw [if_neg halign', if_neg (Nat.not_lt.2 hin)]
  · by_cases hlock : hbmLocked s s.dbg.addr.toNat 8 = true
    · rw [if_pos hlock, if_pos hlock]
      rfl
    · rw [if_neg hlock, if_neg hlock]
      refine ⟨rfl, fun a => ?_⟩
      have hbyte := hbmByte_hbmWrite s s.dbg.addr.toNat a (leBytes 8 s.dbg.data.toNat)
      rw [length_leBytes] at hbyte
      exact hbyte
  · rw [memRead, hkind]
    change (if s.dbg.addr.toNat % 8 ≠ 0 then _ else if hbmSize < s.dbg.addr.toNat + 8 then _ else _) = _
    rw [if_neg halign', if_pos hout]
  · rw [memWrite, hkind]
    change (if s.dbg.addr.toNat % 8 ≠ 0 then _ else if hbmSize < s.dbg.addr.toNat + 8 then _ else _) = _
    rw [if_neg halign', if_pos hout]

theorem norErase_erases (hopen : s.dbg.unlocked = true) (hkind : selKind s = 3) (hfree : norHeld s = false) :
    (s.dbg.addr.toNat / 4096 * 4096 < norSize → ∃ t, exec .norErase s = .next t ∧ t.dbg.result = 0 ∧ SameMemory s t ∧
      ∀ a, norByte t a = if a / 4096 = s.dbg.addr.toNat / 4096 then 0xFF else norByte s a) ∧
    (norSize ≤ s.dbg.addr.toNat / 4096 * 4096 → exec .norErase s = .fault (.noDeviceMemory s.dbg.addr.toNat)) := by
  obtain ⟨herase, hfault⟩ := dbgMem_of_powered norErase hopen (.inl hkind)
  have hkind' : ¬ selKind s ≠ 3 := fun hne => hne hkind
  have hfree' : ¬ norHeld s = true := by simp [hfree]
  refine ⟨fun hin => ⟨dbgResult { s with boot := { s.boot with nor := s.boot.nor.filter (fun e =>
      decide (e.1 < s.dbg.addr.toNat / 4096 * 4096) || decide (s.dbg.addr.toNat / 4096 * 4096 + 4096 ≤ e.1)) } } 0,
    herase _ ?_, rfl, fun _ => rfl, fun a => ?_⟩, fun hout => hfault ?_⟩
  · rw [norErase, if_neg hkind', if_neg hfree', if_neg (Nat.not_le.2 hin)]
  · have hfind := sfind_filter s.boot.nor (fun k =>
      decide (k < s.dbg.addr.toNat / 4096 * 4096) || decide (s.dbg.addr.toNat / 4096 * 4096 + 4096 ≤ k)) a
    have hblock : (decide (a < s.dbg.addr.toNat / 4096 * 4096) || decide (s.dbg.addr.toNat / 4096 * 4096 + 4096 ≤ a)) =
        !decide (a / 4096 = s.dbg.addr.toNat / 4096) := by
      rw [Bool.eq_iff_iff]
      simp
      omega
    refine (congrArg (Option.getD · 0xFF) (hfind.trans (by rw [hblock]))).trans ?_
    by_cases hin : a / 4096 = s.dbg.addr.toNat / 4096 <;> simp [hin, norByte, sget]
  · rw [norErase, if_neg hkind', if_neg hfree', if_pos hout]

theorem breakpoint_halts (s : State) (th : BitVec 10) :
    ((thread s th.toNat).state = .runnable → bpHit s th.toNat = true →
      ∃ t, exec (.breakpoint th) s = .next t ∧ (thread t th.toNat).state = .halted ∧ OtherThreads s t th) ∧
    (((thread s th.toNat).state ≠ .runnable ∨ bpHit s th.toNat = false) → exec (.breakpoint th) s = .next s) := by
  refine ⟨fun hrun hhit => ⟨_, congrArg Host.Outcome.next (if_pos ⟨hrun, hhit⟩), ?_, fun n hn => ?_⟩, fun hno => ?_⟩
  · rw [thread_haltThread _ (by simp [hrun]), if_pos rfl]
  · rw [thread_haltThread _ (by simp [hrun]), if_neg hn]
  · refine congrArg Host.Outcome.next (if_neg fun hyes => ?_)
    exact hno.elim (· hyes.1) fun hmiss => by simp [hmiss] at hyes

end

/-- Settles O54, a clause for each command of the debug port. -/
theorem debugCommandsActOnTheTarget : Obligations.DebugCommandsActOnTheTarget := by
  unfold Obligations.DebugCommandsActOnTheTarget
  refine ⟨fun s c hcmd => ⟨dapCommand_of_locked hcmd, dapCommand_of_unpowered hcmd⟩, fun s th h => ?_,
    fun s => memory_at_device, fun s => norErase_erases, breakpoint_halts⟩
  obtain ⟨hfault, hhalt⟩ := debugHalt_halts h
  obtain ⟨hnothing, hstaged⟩ := abortStaged_frees h
  exact ⟨hfault, hhalt, fun hhalted hbefore => ⟨debugResume_runs h hhalted hbefore, debugStep_halts h hhalted hbefore⟩,
    hnothing, hstaged, fun w => abortWait_wakes h,
    fun r hregno => ⟨regRead_of_thread h (by rw [hregno]; exact threadReg_of_register), regWrite_of_halted h hregno⟩,
    fun hregno => regRead_of_thread h (by rw [hregno]; rfl)⟩

end Sys2Proof.Proofs
end

section
/-!
SUPPORT. What leaves an island's power, its memory and its objects alone, and what is left when the rails fall (19 R434 to R439).
-/

namespace Sys2Proof.Machine.Laws

open Sys2Proof Sys2Proof.Machine

set_option Elab.async false

/-! ## Lanes, links and cages beside power -/

/-- `s` has the power states, device memory, object values and island inputs of `b`. -/
def IslandWork (b s : State) : Prop :=
  s.pwr = b.pwr ∧ s.hbm = b.hbm ∧ s.objs.vals = b.objs.vals ∧ s.isl = b.isl

section
variable {b s : State}

theorem islandWork_self (s : State) : IslandWork s s := ⟨rfl, rfl, rfl, rfl⟩

theorem islandWork_ite {p : Prop} [Decidable p] {u v : State} (hu : IslandWork b u) (hv : IslandWork b v) :
    IslandWork b (if p then u else v) :=
  iteInduction (fun _ => hu) (fun _ => hv)

theorem islandWork_eventFull {k i x u : Nat} {p : BitVec 64} (h : IslandWork b s) : IslandWork b (eventFull s k i x u p) := by
  unfold IslandWork at *
  simpa using h

theorem islandWork_setLane {n : Nat} {l : Lane} (h : IslandWork b s) : IslandWork b (setLane s n l) := by
  unfold setLane
  extract_lets p _ _ t u
  have ht : IslandWork b t := h
  clear_value t
  have hdown : IslandWork b (noteDown s t p) := islandWork_ite ht ht
  have hu : IslandWork b u := islandWork_ite hdown (islandWork_eventFull hdown)
  exact islandWork_ite (islandWork_eventFull hu) hu

theorem islandWork_bringUp {n : Nat} (h : IslandWork b s) : IslandWork b (bringUp s n) :=
  islandWork_ite (islandWork_setLane h)
    (islandWork_ite (islandWork_ite (islandWork_setLane h) (islandWork_setLane h)) (islandWork_setLane h))

theorem islandWork_linkPut {k : Nat} {l : Link} (h : IslandWork b s) : IslandWork b (linkPut s k l) :=
  islandWork_ite h (islandWork_eventFull h)

end

/-- `s` differs from `b` in the cages, in their counters and by events. -/
def CageWork (b s : State) : Prop :=
  s.pwr = b.pwr ∧ s.boot = b.boot ∧ s.hbm = b.hbm ∧ s.led = b.led ∧ s.net = b.net ∧ s.objs.vals = b.objs.vals ∧
    s.isl.extract = b.isl.extract ∧ ctrGet s 0xC220 0x01 0 = ctrGet b 0xC220 0x01 0

section
variable {b s : State}

theorem cageWork_self (s : State) : CageWork s s := ⟨rfl, rfl, rfl, rfl, rfl, rfl, rfl, rfl⟩

theorem cageWork_event {k i n : Nat} (h : CageWork b s) : CageWork b (event s k i n) := by
  unfold CageWork at *
  rw [ctrGet_event (by decide) (by decide)]
  simpa using h

theorem cageWork_count {u : Nat} (hu : u < 256) (h : CageWork b s) : CageWork b (count s 0xC230 u) := by
  obtain ⟨hpwr, hboot, hhbm, hled, hnet, hvals, hextract, hctr⟩ := h
  refine ⟨hpwr, hboot, hhbm, hled, hnet, hvals, hextract, ?_⟩
  rw [count, ctrGet_ctrAddAt, if_neg (by unfold okey; omega), hctr]

theorem cageWork_setCage {c : Nat} {st : CageState} (h : CageWork b s) : CageWork b (setCage s c st) := by
  unfold setCage
  extract_lets x _ t u
  have ht : CageWork b t := h
  clear_value t
  have hu : CageWork b u := by
    dsimp only [u]
    split
    · exact cageWork_count (by decide) ht
    · exact ht
  split
  · exact h
  · exact cageWork_event hu

theorem cageWork_releaseModule {c : Nat} (h : CageWork b s) : CageWork b (releaseModule s c) := by
  unfold releaseModule
  split
  · exact cageWork_setCage h
  · exact h

end

/-! ## Calibration values and temperatures (18 R423, 19 R444) -/

theorem takeCalib_eq (s : State) (kind : Nat) (els : List Nat) :
    ∃ l, takeCalib s kind els = { s with isl := { s.isl with calibUsed := l } } := ⟨_, rfl⟩

theorem takeMainCalib_eq (s : State) : ∃ l, takeMainCalib s = { s with isl := { s.isl with calibUsed := l } } := by
  rw [takeMainCalib]
  obtain ⟨_, h₁⟩ := takeCalib_eq s 1 (List.range 8)
  rw [h₁]
  obtain ⟨_, h₂⟩ := takeCalib_eq { s with isl := { s.isl with calibUsed := _ } } 4 ((List.range 33).map (· + 1))
  rw [h₂]
  exact takeCalib_eq _ 5 (List.range 32)

theorem sampleTemps_eq (s : State) (r : List (BitVec 16)) : ∃ l, sampleTemps s r =
    { s with isl := { s.isl with calibUsed := l }, pwr := { s.pwr with temps := r } } := by
  obtain ⟨l, h⟩ := takeCalib_eq s 2 (List.range 32)
  exact ⟨l, by rw [sampleTemps, h]⟩

/-! ## The rails fall (19 R438, R439) -/

/-- What is left of `b` where the rails have fallen. -/
def Dropped (b s : State) : Prop :=
  s.pwr.phase = .off ∧ s.pwr.en = 0 ∧ s.pwr.hold = none ∧ s.hbm.mem = [] ∧ s.led.entries = [] ∧
    s.isl.extract = b.isl.extract ∧ (loaderRuns b = true → s.boot.stage = .stage1)

theorem mainReset_off_frame (s : State) : (mainReset s false).pwr.hold = none ∧ (mainReset s false).hbm.mem = [] ∧
    (mainReset s false).led.entries = [] ∧ (mainReset s false).isl.extract = s.isl.extract ∧
    (mainReset s false).boot.stage = s.boot.stage := by
  obtain ⟨u, heq, hu⟩ : ∃ u : State, mainReset s false =
      (if s.pair.state = u.pair.state then u else event u 0x0501 32 (pairCode u.pair.state)) ∧
      u.pwr.hold = none ∧ u.hbm.mem = [] ∧ u.led.entries = [] ∧ u.isl.extract = s.isl.extract ∧
      u.boot.stage = s.boot.stage := ⟨_, rfl, rfl, rfl, rfl, rfl, rfl⟩
  rw [heq]
  split
  · exact hu
  · simpa using hu

theorem loaderRuns_congr {s t : State} (h : t.boot.stage = s.boot.stage) : loaderRuns t = loaderRuns s := by
  rw [loaderRuns, h, loaderRuns]

theorem dropped_dropRails (s : State) : Dropped s (dropRails s) := by
  obtain ⟨hhold, hmem, hled, hextract, hstage⟩ := mainReset_off_frame s
  have hloader := loaderRuns_congr hstage
  obtain ⟨r, hr⟩ : ∃ r, r = mainReset s false := ⟨_, rfl⟩
  rw [← hr] at hhold hmem hled hextract hloader
  obtain ⟨l, hl⟩ : ∃ l : State, l =
    if loaderRuns r then { toStage1 r with boot := { (toStage1 r).boot with wp := false } } else r := ⟨_, rfl⟩
  obtain ⟨t, ht⟩ : ∃ t : State, t = { l with pwr := { l.pwr with phase := .off, en := 0, good := 0 } } := ⟨_, rfl⟩
  have hdrop : dropRails s = (List.range 16).foldl
      (fun s c => if (cage s c).state = .empty then s else setCage s c .inserted) t := by
    rw [ht, hl, hr]
    rfl
  rw [hdrop]
  have ht : Dropped s t := by
    rw [ht, hl]
    by_cases hruns : loaderRuns s = true
    · rw [if_pos (hloader.trans hruns)]
      exact ⟨rfl, rfl, hhold, hmem, hled, hextract, fun _ => rfl⟩
    · rw [if_neg (by rwa [hloader])]
      exact ⟨rfl, rfl, hhold, hmem, hled, hextract, fun h => absurd h hruns⟩
  have hcages : CageWork t ((List.range 16).foldl
      (fun s c => if (cage s c).state = .empty then s else setCage s c .inserted) t) := by
    refine List.foldlRecOn (motive := CageWork t) _ _ (cageWork_self t) fun u hu c _ => ?_
    split
    · exact hu
    · exact cageWork_setCage hu
  obtain ⟨hpwr, hboot, hhbm, hled', -, -, hextract', -⟩ := hcages
  unfold Dropped at ht ⊢
  rw [hpwr, hboot, hhbm, hled', hextract']
  exact ht

section
variable {s : State}

theorem railsOff_of_inService (h : s.isl.extract = .inService) : railsOff s = s := by
  rw [railsOff, h]

theorem toBackoff_of_runs (code : Nat) (h : loaderRuns s = true) :
    toBackoff s code = { s with boot := { s.boot with stage := .backoff, code := BitVec.ofNat 4 code, wp := false } } :=
  if_pos h

theorem loaderRuns_of_stage1 (h : s.boot.stage = .stage1) : loaderRuns s = true := by rw [loaderRuns, h]

theorem objGet_objPut_self (s : State) (i u e v : Nat) : objGet (objPut s i u e v) i u e = v := by
  rw [objGet_objPut, if_pos rfl]

theorem objGet_mainResult (s : State) (r : Nat) : objGet (mainResult s r) 0x2100 0x03 0 = r := objGet_objPut_self ..

/-! ## An island leaves ON (19 R434, Table 19-3) -/

theorem islandWork_islandLost_frame (s : State) (n : Nat) : (islandLost s n).pwr = s.pwr ∧ (islandLost s n).hbm = s.hbm := by
  unfold islandLost
  split
  · exact ⟨rfl, rfl⟩
  split
  · exact ⟨rfl, rfl⟩
  split
  · exact ⟨rfl, rfl⟩
  · exact ⟨rfl, rfl⟩

/-- A link that goes down by no power was not up: none is up after. -/
theorem noneUp_linkPut {l : Nat} {x : Link} (h : ∀ k, (linkGet s k).state ≠ 3) (hx : x.state ≠ 3) (k : Nat) :
    (linkGet (linkPut s l x) k).state ≠ 3 := by
  have hlinks : linkGet (linkPut s l x) k = (s.hst.links.set l x).getD k ⟨0, 0, 0, false, true, .l0, 0, false⟩ := by
    rw [linkGet, linkPut_hst, lset]
  have hk := h k
  rw [linkGet, List.getD_eq_getElem?_getD] at hk
  rw [hlinks, List.getD_eq_getElem?_getD, List.getElem?_set]
  split
  · split
    · exact hx
    · simp
  · exact hk

theorem islandWork_islandQuiet {n : Nat} (h : n = 29 ∨ n = 30 → ∀ k, (linkGet s k).state ≠ 3) :
    IslandWork s (islandQuiet s n) := by
  unfold islandQuiet
  split
  case isTrue hhost =>
    refine (List.foldlRecOn (motive := fun t => IslandWork s t ∧ ∀ k, (linkGet t k).state ≠ 3) _ _
      ⟨islandWork_self s, h hhost⟩ fun t ht l _ => ?_).1
    obtain ⟨hwork, hup⟩ := ht
    dsimp only
    rw [if_neg (hup l)]
    exact ⟨islandWork_linkPut hwork, noneUp_linkPut hup (Nat.zero_ne_add_one 2)⟩
  case isFalse =>
    split
    · exact List.foldlRecOn (motive := IslandWork s) _ _ (islandWork_self s) fun t ht l _ => islandWork_setLane ht
    · exact islandWork_self s

theorem islandLeaves_frame {n v : Nat} (h : n = 29 ∨ n = 30 → ∀ k, (linkGet s k).state ≠ 3) :
    (islandLeaves s n v).pwr = (setIslandState s n v).pwr ∧ (islandLeaves s n v).hbm = s.hbm := by
  obtain ⟨hpwr, hhbm, -, -⟩ := islandWork_islandQuiet (s := setIslandState s n v) (n := n) h
  unfold islandLeaves
  dsimp only
  split
  · obtain ⟨hpwr', hhbm'⟩ := islandWork_islandLost_frame (islandQuiet (setIslandState s n v) n) n
    exact ⟨hpwr'.trans hpwr, hhbm'.trans hhbm⟩
  · exact ⟨hpwr, hhbm⟩

end

end Sys2Proof.Machine.Laws
end

section
/-!
CLAIMS. Clocks and power (19 R432 to R445).
-/

namespace Sys2Proof.Proofs

open Sys2Proof Sys2Proof.Machine Sys2Proof.Machine.Laws

set_option Elab.async false

section
variable {s : State}

theorem pwrGoodRise_raises {rail : BitVec 3} (hphase : s.pwr.phase = .rising rail.toNat) (hrail : rail.toNat ≤ 5) :
    ∃ t, exec (.pwrGoodRise rail) s = .next t ∧
      (rail.toNat < 5 → t.pwr.phase = .rising (rail.toNat + 1) ∧
        t.pwr.en = s.pwr.en ||| BitVec.ofNat 6 (2 ^ (rail.toNat + 1))) ∧
      (rail.toNat = 5 → t.pwr.phase = .releasing ∧ t.pwr.en = s.pwr.en) ∧
      t.pwr.good = s.pwr.good ||| BitVec.ofNat 6 (2 ^ rail.toNat) ∧ { t with pwr := s.pwr } = s := by
  refine ⟨_, rfl, ?_⟩
  rw [hphase]
  dsimp only
  rw [if_pos rfl]
  by_cases hlast : rail.toNat < 5
  · rw [if_pos hlast]
    exact ⟨fun _ => ⟨rfl, rfl⟩, fun hfive => by omega, rfl, rfl⟩
  · rw [if_neg hlast]
    exact ⟨fun hfew => absurd hfew hlast, fun _ => ⟨rfl, rfl⟩, rfl, rfl⟩

theorem sequenceFails_backs_off (good : BitVec 6) (hloader : loaderRuns s = true) :
    (sequenceFails s good).pwr.phase = .off ∧ (sequenceFails s good).pwr.en = 0 ∧
      (sequenceFails s good).boot.stage = .backoff ∧ (sequenceFails s good).boot.code = 6 := by
  unfold sequenceFails
  extract_lets _ t u
  have hu : u.pwr = t.pwr ∧ u.boot = s.boot := by
    dsimp only [u]
    simp [mainResult, objPut, objPutKey, t]
  clear_value u
  obtain ⟨hpwr, hboot⟩ := hu
  rw [toBackoff_of_runs _ ((loaderRuns_congr (by simp [hboot])).trans hloader)]
  simp [hpwr, t]

theorem railGoodTimeout_backs_off {rail : BitVec 3} (hphase : s.pwr.phase = .rising rail.toNat)
    (hloader : loaderRuns s = true) : ∃ t, exec (.railGoodTimeout rail) s = .next t ∧ t.pwr.phase = .off ∧ t.pwr.en = 0 ∧
      t.boot.stage = .backoff ∧ t.boot.code = 6 := by
  refine ⟨sequenceFails s s.pwr.good, ?_, sequenceFails_backs_off s.pwr.good hloader⟩
  change Host.Outcome.next _ = _
  rw [hphase]
  dsimp only
  rw [if_pos rfl]

theorem mainResetRelease_releases (hphase : s.pwr.phase = .releasing) :
    ∃ t, exec .mainResetRelease s = .next t ∧ mainOn t = true ∧ t.net.pllLocked = 0xF ∧
      ctrGet t 0xC220 0x01 0 = (ctrGet s 0xC220 0x01 0 + 1) % 2 ^ 64 ∧ SameMemory s t := by
  obtain ⟨l, hcalib⟩ := takeMainCalib_eq s
  obtain ⟨u, hu⟩ : ∃ u : State, u = { s with
    isl := { s.isl with calibUsed := l }
    pwr := { s.pwr with phase := .on }
    hst := { s.hst with links := (List.range 4).map (freshLink s true s.hst.bifur) }
    net := { s.net with pllLocked := 0xF }
    pair := { s.pair with link := 1, hfOut := false } } := ⟨_, rfl⟩
  refine ⟨(List.range 16).foldl releaseModule (count u 0xC220 0x01), ?_, ?_⟩
  · change Host.Outcome.next _ = _
    rw [hphase, hcalib, hu]
  have hcages : CageWork (count u 0xC220 0x01) ((List.range 16).foldl releaseModule (count u 0xC220 0x01)) :=
    List.foldlRecOn (motive := CageWork (count u 0xC220 0x01)) _ _ (cageWork_self _) fun t ht c _ => cageWork_releaseModule ht
  obtain ⟨hpwr, -, hhbm, -, hnet, -, -, hctr⟩ := hcages
  have hcount : ctrGet (count u 0xC220 0x01) 0xC220 0x01 0 = (ctrGet s 0xC220 0x01 0 + 1) % 2 ^ 64 := by
    rw [ctrGet_count_self, hu]
    rfl
  refine ⟨?_, ?_, hctr.trans hcount, sameMemory_of_hbm (hhbm.trans (by rw [hu]; rfl))⟩
  · rw [mainOn, hpwr, hu]
    rfl
  · rw [hnet, hu]
    rfl

theorem mainHoldOffExpiry_refuses (hhold : s.pwr.hold.isSome = true) (hextract : s.isl.extract = .inService)
    (hbusy : mainInflight s ≠ 0) :
    ∃ t, exec .mainHoldOffExpiry s = .next t ∧ t.pwr.hold = none ∧ t.pwr.phase = s.pwr.phase ∧
      objGet t 0x2100 0x03 0 = 1 ∧ SameMemory s t := by
  refine ⟨count (mainResult { s with pwr := { s.pwr with hold := none } } 1) 0xC220 0x03, ?_, rfl, rfl,
    objGet_mainResult _ 1, fun _ => rfl⟩
  refine congrArg Host.Outcome.next ((if_pos ⟨hhold, hbusy⟩).trans ?_)
  unfold powerDownRefused
  extract_lets _ t
  have ht : t.isl.extract = .inService := hextract
  rw [ht]

theorem mainPowerDown_drops (hhold : s.pwr.hold.isSome = true) (hextract : s.isl.extract = .inService)
    (hidle : mainInflight s = 0) (hloader : loaderRuns s = true) :
    ∃ t, exec .mainPowerDown s = .next t ∧ t.pwr.phase = .off ∧ t.pwr.en = 0 ∧ t.pwr.hold = none ∧
      t.boot.stage = .stage1 ∧ t.hbm.mem = [] ∧ t.led.entries = [] ∧ objGet t 0x2100 0x03 0 = 0 := by
  have hdropped := dropped_dropRails s
  obtain ⟨d, hd⟩ : ∃ d, d = dropRails s := ⟨_, rfl⟩
  rw [← hd] at hdropped
  obtain ⟨hoff, hen, hnone, hmem, hled, hextract', hstage⟩ := hdropped
  have hexec : exec .mainPowerDown s = .next (railsOff (mainResult d 0)) :=
    congrArg Host.Outcome.next ((if_pos ⟨hhold, hidle⟩).trans (by rw [hd]))
  rw [hexec, railsOff_of_inService (by exact hextract'.trans hextract)]
  exact ⟨_, rfl, hoff, hen, hnone, hstage hloader, hmem, hled, objGet_mainResult _ 0⟩

theorem railFault_drops {rail : BitVec 3} (hphase : s.pwr.phase = .on) (hrail : rail.toNat ≤ 5)
    (hextract : s.isl.extract = .inService) (hloader : loaderRuns s = true) :
    ∃ t, exec (.railFault rail) s = .next t ∧ t.pwr.phase = .off ∧ t.pwr.en = 0 ∧ t.boot.stage = .backoff ∧
      t.boot.code = 6 ∧ objGet t 0x2100 0x03 0 = 3 := by
  obtain ⟨good, hgood⟩ : ∃ g, g = s.pwr.good &&& ~~~(BitVec.ofNat 6 (2 ^ rail.toNat)) := ⟨_, rfl⟩
  obtain ⟨f, hf⟩ : ∃ f, f = hardFault s 0x08 good.toNat := ⟨_, rfl⟩
  have hdropped := dropped_dropRails f
  obtain ⟨d, hd⟩ : ∃ d, d = dropRails f := ⟨_, rfl⟩
  rw [← hd] at hdropped
  obtain ⟨hoff, hen, -, -, -, hextract', hstage⟩ := hdropped
  obtain ⟨u, hu⟩ : ∃ u, u = event (count (mainResult (d) 3) 0xC220 0x02) 0x0604 0 good.toNat := ⟨_, rfl⟩
  have hpwr : u.pwr = (d).pwr := by rw [hu]; simp [mainResult, objPut, objPutKey]
  have hboot : u.boot = (d).boot := by rw [hu]; simp [mainResult, objPut, objPutKey]
  have hisl : u.isl = (d).isl := by rw [hu]; simp [mainResult, objPut, objPutKey]
  have hvals : u.objs.vals = (mainResult (d) 3).objs.vals := by rw [hu]; simp
  have hruns : loaderRuns u = true := by
    refine loaderRuns_of_stage1 (hboot ▸ hstage ?_)
    rw [loaderRuns_congr (s := s) (by simp [hf]), hloader]
  have hservice : u.isl.extract = .inService := by rw [hisl, hextract', hf]; simp [hextract]
  have hexec : exec (.railFault rail) s = .next (railsOff (toBackoff u 6)) := by
    change Host.Outcome.next _ = _
    rw [if_neg (by omega), hphase, hu, hd, hf, hgood]
  rw [hexec, toBackoff_of_runs _ hruns, railsOff_of_inService (by exact hservice)]
  refine ⟨_, rfl, hpwr ▸ hoff, hpwr ▸ hen, rfl, rfl, ?_⟩
  exact (objGet_congr (by exact hvals) ..).trans (objGet_mainResult _ 3)

theorem islandPowerEffect_leaves {n : BitVec 6} {r : PowReq} (hreqs : s.pwr.reqs = [r]) (hr : r.island = n.toNat)
    (hidle : islandInflight s n.toNat = 0) (hlinks : n.toNat = 29 ∨ n.toNat = 30 → ∀ k, (linkGet s k).state ≠ 3) :
    ∃ t, exec (.islandPowerEffect n) s = .next t ∧ t.pwr.reqs = [] ∧
      islandState t n.toNat = (if r.off then 2 else 1) ∧ objGet t 0x2110 0x03 n.toNat = 0 ∧ SameMemory s t := by
  have hfind : s.pwr.reqs.find? (fun r => r.island == n.toNat) = some r := by simp [hreqs, hr]
  have hgone : s.pwr.reqs.filter (fun r => r.island != n.toNat) = [] := by simp [hreqs, hr]
  obtain ⟨u, hu⟩ : ∃ u : State, u = { s with pwr := { s.pwr with reqs := [] } } := ⟨_, rfl⟩
  obtain ⟨hpwr, hhbm⟩ := islandLeaves_frame (s := u) (n := n.toNat) (v := if r.off then 2 else 1) (by rw [hu]; exact hlinks)
  refine ⟨powerResult (islandLeaves u n.toNat (if r.off then 2 else 1)) n.toNat 0, ?_, ?_, ?_, objGet_objPut_self ..,
    sameMemory_of_hbm (hhbm.trans (by rw [hu]))⟩
  · change Host.Outcome.next _ = _
    rw [hfind]
    dsimp only
    rw [if_neg (by simp [hidle]), hgone, hu]
  · exact (congrArg Pwr.reqs hpwr).trans (by rw [hu]; rfl)
  · exact (congrArg (fun p : Pwr => sget 0 p.isl n.toNat) hpwr).trans (sget_sset_self ..)

theorem islandHoldOffExpiry_keeps {n : BitVec 6} {r : PowReq} (hreqs : s.pwr.reqs = [r]) (hr : r.island = n.toNat)
    (hbusy : islandInflight s n.toNat ≠ 0) :
    ∃ t, exec (.islandHoldOffExpiry n) s = .next t ∧ t.pwr.reqs = [] ∧
      t.pwr.isl = s.pwr.isl ∧ objGet t 0x2110 0x03 n.toNat = 1 ∧ SameMemory s t ∧ t.jx = s.jx := by
  have hgone : s.pwr.reqs.filter (fun r => r.island != n.toNat) = [] := by simp [hreqs, hr]
  exact ⟨_, congrArg Host.Outcome.next (if_pos ⟨by simp [hreqs, hr], hbusy⟩), hgone, rfl, objGet_objPut_self .., fun _ => rfl, rfl⟩

theorem refclkLoss_holds (h : s.clk.holdover = false) :
    ∃ t, exec .refclkLoss s = .next t ∧ t.clk = { s.clk with holdover := true } ∧ t.net = s.net :=
  ⟨_, congrArg Host.Outcome.next (if_neg (by simp [h])), by simp, by simp⟩

theorem refclkRelock_ends (h : s.clk.holdover = true) :
    ∃ t, exec .refclkRelock s = .next t ∧ t.clk = { s.clk with holdover := false } ∧ t.net.lanes = s.net.lanes :=
  ⟨_, congrArg Host.Outcome.next (if_pos h), rfl, rfl⟩

theorem sampleTemps_takes (s : State) (r : List (BitVec 16)) : (sampleTemps s r).pwr = { s.pwr with temps := r } ∧
    { sampleTemps s r with pwr := s.pwr, isl := { (sampleTemps s r).isl with calibUsed := s.isl.calibUsed } } = s := by
  obtain ⟨l, hsample⟩ := sampleTemps_eq s r
  rw [hsample]
  exact ⟨rfl, rfl⟩

theorem junctionOver105_counts {r : List (BitVec 16)} (h : 10500 < hottest r) :
    ∃ t, exec (.junctionOver105 r) s = .next t ∧ t.pwr = { s.pwr with temps := r } ∧
      ctrGet t 0xC220 0x07 0 = (ctrGet s 0xC220 0x07 0 + 1) % 2 ^ 64 := by
  obtain ⟨l, hsample⟩ := sampleTemps_eq s r
  refine ⟨_, congrArg Host.Outcome.next (if_pos h), ?_, ?_⟩
  · rw [hsample]
    simp
  · rw [hsample, ctrGet_event (by decide) (by decide), ctrGet_count_self]
    rfl

theorem thermalTrip_drops {r : List (BitVec 16)} (hhot : 11500 < hottest r) (hphase : s.pwr.phase ≠ .off)
    (hextract : s.isl.extract = .inService) (hloader : loaderRuns s = true) :
    ∃ t, exec (.thermalTrip r) s = .next t ∧ t.pwr.phase = .off ∧ t.pwr.en = 0 ∧ t.pwr.tripped = true ∧
      t.boot.stage = .backoff := by
  obtain ⟨l, hsample⟩ := sampleTemps_eq s r
  obtain ⟨f, hf⟩ : ∃ f, f = event (count (hardFault (sampleTemps s r) 0x09 (unsigned 32 (hottest r))) 0xC220 0x06) 0x0603 0
    (unsigned 64 (hottest r)) := ⟨_, rfl⟩
  have hboot : f.boot = s.boot := by rw [hf, hsample]; simp
  have hisl : f.isl.extract = s.isl.extract := by rw [hf, hsample]; simp
  have hdropped := dropped_dropRails f
  obtain ⟨d, hd⟩ : ∃ d, d = dropRails f := ⟨_, rfl⟩
  rw [← hd] at hdropped
  obtain ⟨hoff, hen, -, -, -, hextract', hstage⟩ := hdropped
  have hruns : loaderRuns { d with pwr := { d.pwr with tripped := true } } = true :=
    loaderRuns_of_stage1 (hstage ((loaderRuns_congr (by rw [hboot])).trans hloader))
  have hexec : exec (.thermalTrip r) s = .next (railsOff (toBackoff { d with pwr := { d.pwr with tripped := true } } 6)) := by
    change Host.Outcome.next (if 11500 < hottest r ∧ (sampleTemps s r).pwr.phase ≠ .off then _ else _) = _
    rw [if_pos ⟨hhot, by rw [hsample]; exact hphase⟩, hd, hf]
  rw [hexec, toBackoff_of_runs _ hruns, railsOff_of_inService (by exact hextract'.trans (hisl.trans hextract))]
  exact ⟨_, rfl, hoff, hen, rfl, rfl⟩

theorem tjHour_counts (s : State) (m : BitVec 16) :
    ∃ t, exec (.tjHour m) s = .next t ∧ SameObjects s t ∧
      ctrGet t 0xC220 0x08 0 = if 9500 < m.toInt then (ctrGet s 0xC220 0x08 0 + 1) % 2 ^ 64 else ctrGet s 0xC220 0x08 0 := by
  by_cases hhot : 9500 < m.toInt
  · exact ⟨_, congrArg Host.Outcome.next (if_pos hhot), fun _ _ _ => rfl, by rw [if_pos hhot, ctrGet_count_self]⟩
  · exact ⟨_, congrArg Host.Outcome.next (if_neg hhot), fun _ _ _ => rfl, by rw [if_neg hhot]⟩

end

/-- Settles O52, a clause for each command. -/
theorem powerCommandsTakeEffect : Obligations.PowerCommandsTakeEffect := by
  unfold Obligations.PowerCommandsTakeEffect
  exact ⟨fun s rail hphase hrail => ⟨pwrGoodRise_raises hphase hrail, railGoodTimeout_backs_off hphase⟩,
    fun s => mainResetRelease_releases,
    fun s hhold hextract => ⟨mainHoldOffExpiry_refuses hhold hextract, mainPowerDown_drops hhold hextract⟩,
    fun s rail => railFault_drops,
    fun s n r hreqs hr => ⟨islandPowerEffect_leaves hreqs hr, islandHoldOffExpiry_keeps hreqs hr⟩,
    fun s => refclkLoss_holds, fun s => refclkRelock_ends,
    fun s r => ⟨⟨_, rfl, sampleTemps_takes s r⟩,
      fun hcool => ⟨_, congrArg Host.Outcome.next (if_neg (Int.not_lt.2 hcool)), sampleTemps_takes s r⟩,
      junctionOver105_counts, thermalTrip_drops⟩, tjHour_counts⟩

end Sys2Proof.Proofs
end

section
/-!
SUPPORT. What an extraction changes of the island and of the main power, and what the lanes of a cage leave alone (18 R413 to
R421).
-/

namespace Sys2Proof.Machine.Laws

open Sys2Proof Sys2Proof.Machine

set_option Elab.async false

/-! ## Extraction (18 R417, R418) -/

/-- A change of extract_state changes that state, counters and events. -/
@[simp] theorem setExtract_frame (s : State) (x : Extract) :
    (setExtract s x).isl = { s.isl with extract := x } ∧ (setExtract s x).pwr = s.pwr ∧ (setExtract s x).pair = s.pair ∧
      (setExtract s x).boot = s.boot ∧ (setExtract s x).hbm = s.hbm ∧ (setExtract s x).jx = s.jx ∧
      (setExtract s x).ken = s.ken := by
  dsimp only [setExtract]
  split
  case isTrue h => simp [← h]
  case isFalse => cases x <;> simp

/-- `s` has the memory, threads, key slots and latch of `b`, and the counts of presses, openings and faults. -/
def PanelWork (b s : State) : Prop :=
  s.hbm = b.hbm ∧ s.jx = b.jx ∧ s.ken = b.ken ∧ s.isl.latch = b.isl.latch ∧
    ∀ u, u < 256 → u ≠ 4 → u ≠ 5 → u ≠ 9 → ctrGet s 0xC230 u 0 = ctrGet b 0xC230 u 0

section
variable {b s : State}

theorem panelWork_self (s : State) : PanelWork s s := ⟨rfl, rfl, rfl, rfl, fun _ _ _ _ _ => rfl⟩

theorem panelWork_with {pair boot pwr hold} (h : PanelWork b s) : PanelWork b { s with
    pair := pair, boot := boot, pwr := pwr, isl := { s.isl with holdReady := hold } } := h

theorem panelWork_event {k i n : Nat} (h : PanelWork b s) : PanelWork b (event s k i n) := by
  obtain ⟨hhbm, hjx, hken, hlatch, hctr⟩ := h
  exact ⟨by simp [hhbm], by simp [hjx], by simp [hken], by simp [hlatch],
    fun u hu h4 h5 h9 => (ctrGet_event hu h9).trans (hctr u hu h4 h5 h9)⟩

theorem panelWork_count {v : Nat} (hv : v = 4 ∨ v = 5) (h : PanelWork b s) : PanelWork b (count s 0xC230 v) := by
  obtain ⟨hhbm, hjx, hken, hlatch, hctr⟩ := h
  refine ⟨hhbm, hjx, hken, hlatch, fun u hu h4 h5 h9 => ?_⟩
  rw [count, ctrGet_ctrAddAt, if_neg (by unfold okey; omega), hctr u hu h4 h5 h9]

theorem panelWork_setExtract {x : Extract} (h : PanelWork b s) : PanelWork b (setExtract s x) := by
  have hput : PanelWork b { s with isl := { s.isl with extract := x } } := h
  dsimp only [setExtract]
  split
  · exact h
  · refine panelWork_event ?_
    cases x
    case safe => exact panelWork_count (.inl rfl) hput
    case refused => exact panelWork_count (.inr rfl) hput
    all_goals exact hput

theorem panelWork_getD {o : Option State} (ho : ∀ t, o = some t → PanelWork b t) (h : PanelWork b s) :
    PanelWork b (o.getD s) := by
  cases o
  · exact h
  · exact ho _ rfl

/-- A power-up that starts changes the rails and WP# alone. -/
theorem startUp_eq {t : State} (h : startUp s = some t) : ∃ pwr boot, t = { s with pwr := pwr, boot := boot } := by
  unfold startUp at h
  split at h
  · exact absurd h (by simp)
  · split at h
    · exact ⟨_, _, (Option.some.inj h).symm⟩
    · exact ⟨_, _, (Option.some.inj h).symm⟩

/-- A power-down that is asked for changes the rails and WP# alone. -/
theorem powerDownRequest_eq {t : State} {x : Bool} (h : powerDownRequest s x = some t) :
    ∃ pwr boot, t = { s with pwr := pwr, boot := boot } := by
  unfold powerDownRequest at h
  split at h
  · split at h
    · exact absurd h (by simp)
    · exact ⟨_, _, (Option.some.inj h).symm⟩
  · exact ⟨_, _, (Option.some.inj h).symm⟩
  · exact ⟨_, _, (Option.some.inj h).symm⟩

theorem panelWork_startUp (h : PanelWork b s) : PanelWork b ((startUp s).getD s) :=
  panelWork_getD (fun t ht => by obtain ⟨_, _, rfl⟩ := startUp_eq ht; exact h) h

theorem panelWork_railsOff (h : PanelWork b s) : PanelWork b (railsOff s) := by
  have hsafe : PanelWork b (setExtract s .safe) := panelWork_setExtract h
  unfold railsOff
  split
  · dsimp only
    split
    · exact hsafe
    · exact panelWork_startUp (panelWork_setExtract hsafe)
  · exact h

theorem panelWork_extractionDown (h : PanelWork b s) : PanelWork b (extractionDown s) := by
  unfold extractionDown
  extract_lets d _ u
  have hu : PanelWork b u := panelWork_setExtract (x := .poweringDown) h
  clear_value u
  split
  case h_1 => exact panelWork_setExtract (s := { u with isl := { u.isl with holdReady := false } }) hu
  case h_2 t ht =>
    obtain ⟨pwr, boot, rfl⟩ := powerDownRequest_eq ht
    have hdown : PanelWork b { u with pwr := pwr, boot := boot } := hu
    split
    · exact panelWork_railsOff hdown
    · exact hdown

theorem panelWork_extractionRequested (h : PanelWork b s) : PanelWork b (extractionRequested s) := by
  unfold extractionRequested
  extract_lets u
  have hu : PanelWork b u := panelWork_setExtract h
  clear_value u
  split
  · split
    · exact panelWork_setExtract (s := { u with pair := _ }) hu
    · exact panelWork_setExtract hu
  · exact panelWork_extractionDown hu

theorem panelWork_latchShut (h : PanelWork b s) : PanelWork b (latchShut s) := by
  unfold latchShut
  split
  · exact panelWork_startUp (panelWork_setExtract h)
  · exact panelWork_setExtract h
  · split
    · exact panelWork_setExtract h
    · exact h
  · exact h

/-- With the main power on and no power-down held off, an extraction asks for the power-down. -/
theorem extractionDown_of_on (hon : s.pwr.phase = .on) (hhold : s.pwr.hold = none) :
    (extractionDown s).isl.extract = .poweringDown ∧ (extractionDown s).pwr.hold = some true := by
  unfold extractionDown
  extract_lets d _ u
  have hpwr : u.pwr = s.pwr := by simp [u, d]
  have hextract : u.isl.extract = .poweringDown := congrArg Isl.extract (setExtract_frame s .poweringDown).1
  clear_value u
  have hasked : powerDownRequest u true = some { u with pwr := { u.pwr with hold := some true } } := by
    rw [powerDownRequest, hpwr, hon]
    simp [hhold]
  have hphase : { u with pwr := { u.pwr with hold := some true } }.pwr.phase = .on := by simp [hpwr, hon]
  rw [hasked]
  dsimp only at hphase ⊢
  rw [hphase]
  exact ⟨hextract, rfl⟩

theorem partnerReady_congr {t : State} (h : t.pair = s.pair) : partnerReady t = partnerReady s := by
  rw [partnerReady, h, partnerReady]

/-- An extraction of an ACTIVE device is handed over, or refused. -/
theorem extractionRequested_of_active (h : s.pair.state = .active) :
    (extractionRequested s).isl.extract = if partnerReady s then .transferring else .refused := by
  unfold extractionRequested
  extract_lets u
  have hpair : u.pair = s.pair := by simp [u]
  clear_value u
  rw [hpair, h]
  dsimp only
  rw [partnerReady_congr hpair]
  split
  · simp [extractionTransfer]
  · simp

theorem extractionRequested_of_single (h : s.pair.state = .single) :
    extractionRequested s = extractionDown (setExtract s .requested) := by
  have hpair : (setExtract s .requested).pair = s.pair := by simp
  unfold extractionRequested
  dsimp only
  rw [hpair, h]

/-! ## Cages (18 R420) -/

theorem cage_lset {cages : List Cage} {c : Nat} (x d : Cage) (h : c < cages.length) : (lset cages c x).getD c d = x := by
  simp [lset, h]

theorem cage_setCage {c : Nat} (st : CageState) (h : c < s.isl.cages.length) :
    cage (setCage s c st) c = { cage s c with state := st } := by
  dsimp only [setCage]
  split
  case isTrue hsame => rw [← hsame]
  case isFalse =>
    unfold cage
    rw [(event_frame ..).2.2.2.2.2.2.2.2.2.2.2.2.2.2.2.2.2.2.1]
    split
    · exact cage_lset _ _ h
    · exact cage_lset _ _ h

theorem length_setCage (c : Nat) (st : CageState) : (setCage s c st).isl.cages.length = s.isl.cages.length := by
  dsimp only [setCage]
  split
  · rfl
  · split <;> simp [lset]

theorem cage_congr {t : State} (h : t.isl = s.isl) (c : Nat) : cage t c = cage s c := by rw [cage, h, cage]

theorem islandWork_cageLanesUp (s : State) (c : Nat) : IslandWork s (cageLanesUp s c) := by
  refine List.foldlRecOn (motive := IslandWork s) _ _ (islandWork_self s) fun t ht n _ => ?_
  exact islandWork_ite (islandWork_bringUp ht) ht

theorem islandWork_cageLanesDown (s : State) (c : Nat) (removed : Bool) : IslandWork s (cageLanesDown s c removed) := by
  refine List.foldlRecOn (motive := IslandWork s) _ _ (islandWork_self s) fun t ht n _ => ?_
  split
  · exact islandWork_ite (islandWork_setLane ht) ht
  · exact ht
  · exact ht
  · exact islandWork_setLane ht

/-- The island inputs stay where a cage_lanes value counts. -/
theorem cageLanesApply_isl (s : State) (c v : Nat) : (cageLanesApply s c v).isl = s.isl := by
  refine (List.foldlRecOn (motive := IslandWork (objPut s 0x2220 0x01 c v)) _ _ (islandWork_self _) fun t ht n _ => ?_).2.2.2
  split
  · exact ht
  · exact ht
  · exact islandWork_ite (islandWork_bringUp ht) ht
  · exact islandWork_ite ht (islandWork_setLane ht)

end

end Sys2Proof.Machine.Laws
end

section
/-!
CLAIMS. Buttons, latch, cages and the management link (18 R411 to R421).
-/

namespace Sys2Proof.Proofs

open Sys2Proof Sys2Proof.Machine Sys2Proof.Machine.Laws

set_option Elab.async false

section
variable {s : State}

theorem shortPress_counts (s : State) :
    ∃ t, exec .shortPress s = .next t ∧ ctrGet t 0xC230 0x02 0 = (ctrGet s 0xC230 0x02 0 + 1) % 2 ^ 64 ∧
      SameMemory s t ∧ t.jx = s.jx ∧ t.ken = s.ken := by
  obtain ⟨u, hu⟩ : ∃ u, u = event (count s 0xC230 0x02) 0x0801 0 (extractCode s.isl.extract) := ⟨_, rfl⟩
  have hwork : PanelWork u (if s.isl.extract = .refused ∧ s.isl.latch = .opened then extractionRequested u else u) :=
    iteInduction (fun _ => panelWork_extractionRequested (panelWork_self u)) (fun _ => panelWork_self u)
  obtain ⟨hhbm, hjx, hken, -, hctr⟩ := hwork
  refine ⟨_, congrArg Host.Outcome.next (by rw [hu]), (hctr 2 (by decide) (by decide) (by decide) (by decide)).trans ?_,
    sameMemory_of_hbm (hhbm.trans (by simp [hu])), hjx.trans (by simp [hu]), hken.trans (by simp [hu])⟩
  rw [hu, ctrGet_event (by decide) (by decide), ctrGet_count_self]

theorem longPress_counts (s : State) :
    ∃ t, exec .longPress s = .next t ∧ ctrGet t 0xC230 0x03 0 = (ctrGet s 0xC230 0x03 0 + 1) % 2 ^ 64 ∧
      SameMemory s t ∧ t.pwr = s.pwr ∧ t.isl = s.isl := by
  obtain ⟨u, hu⟩ : ∃ u, u = event (count s 0xC230 0x03) 0x0802 0 (extractCode s.isl.extract) := ⟨_, rfl⟩
  have hgo : ∃ pair, (transferGo u).getD u = { u with pair := pair } := by
    unfold transferGo
    split
    · exact ⟨_, rfl⟩
    · exact ⟨_, rfl⟩
    · exact iteInduction (motive := fun o : Option State => ∃ pair, o.getD u = { u with pair := pair }) (fun _ => ⟨_, rfl⟩)
        (fun _ => ⟨_, rfl⟩)
  obtain ⟨pair, hgo⟩ := hgo
  refine ⟨{ u with pair := pair }, congrArg Host.Outcome.next (by rw [← hgo, hu]), ?_,
    sameMemory_of_hbm (show u.hbm = s.hbm by simp [hu]), by simp [hu], by simp [hu]⟩
  have hcount : ctrGet u 0xC230 0x03 0 = (ctrGet s 0xC230 0x03 0 + 1) % 2 ^ 64 := by
    rw [hu, ctrGet_event (by decide) (by decide), ctrGet_count_self]
  exact hcount

theorem latchOpen_opens (hshut : s.isl.latch ≠ .opened) :
    ∃ t, exec .latchOpen s = .next t ∧ t.isl.latch = .opened ∧
      ctrGet t 0xC230 0x01 0 = (ctrGet s 0xC230 0x01 0 + 1) % 2 ^ 64 ∧
      (s.isl.extract = .inService → s.pair.state = .single → s.pwr.phase = .on → s.pwr.hold = none →
        t.isl.extract = .poweringDown ∧ t.pwr.hold = some true) ∧
      (s.isl.extract = .inService → s.pair.state = .active →
        t.isl.extract = if partnerReady s then .transferring else .refused) := by
  obtain ⟨u, hu⟩ : ∃ u, u = count (setLatch s .opened) 0xC230 0x01 := ⟨_, rfl⟩
  obtain ⟨t, ht⟩ : ∃ t, t = if s.isl.extract = .inService then extractionRequested u else u := ⟨_, rfl⟩
  have hexec : exec .latchOpen s = .next t := by
    refine congrArg Host.Outcome.next ((if_neg hshut).trans ?_)
    have hsame : (count (setLatch s .opened) 0xC230 0x01).isl.extract = s.isl.extract := rfl
    dsimp only
    rw [ht, hu, hsame]
    cases s.isl.extract <;> rfl
  have hwork : PanelWork u t := by
    rw [ht]
    exact iteInduction (fun _ => panelWork_extractionRequested (panelWork_self u)) (fun _ => panelWork_self u)
  obtain ⟨-, -, -, hlatch, hctr⟩ := hwork
  have hopened : u.isl.latch = .opened := by rw [hu]; rfl
  have hcount : ctrGet u 0xC230 0x01 0 = (ctrGet s 0xC230 0x01 0 + 1) % 2 ^ 64 := by rw [hu, ctrGet_count_self]; rfl
  have hpair : u.pair = s.pair := by rw [hu]; rfl
  have hpwr : u.pwr = s.pwr := by rw [hu]; rfl
  refine ⟨t, hexec, hlatch.trans hopened, (hctr 1 (by decide) (by decide) (by decide) (by decide)).trans hcount,
    fun hservice hsingle hon hhold => ?_, fun hservice hactive => ?_⟩
  · rw [ht, if_pos hservice, extractionRequested_of_single (by rw [hpair, hsingle])]
    exact extractionDown_of_on (by simp [hpwr, hon]) (by simp [hpwr, hhold])
  · rw [ht, if_pos hservice, extractionRequested_of_active (by rw [hpair, hactive]), partnerReady_congr hpair]

theorem latchClose_returns (hopen : s.isl.latch = .opened) (hextract : s.isl.extract = .refused ∨ s.isl.extract = .safe) :
    ∃ t, exec .latchClose s = .next t ∧ t.isl.latch = .closed ∧ t.isl.extract = .inService := by
  obtain ⟨u, hu⟩ : ∃ u, u = setLatch s .closed := ⟨_, rfl⟩
  have hsame : u.isl.extract = s.isl.extract := by rw [hu]; rfl
  obtain ⟨-, -, -, hlatch, -⟩ := panelWork_latchShut (panelWork_self u)
  refine ⟨latchShut u, ?_, hlatch.trans (by rw [hu]; rfl), ?_⟩
  · change Host.Outcome.next _ = _
    rw [hopen, hu]
  · rw [latchShut, hsame]
    obtain hrefused | hsafe := hextract
    · rw [hrefused]
      simp
    · rw [hsafe]
      dsimp only
      cases hstart : startUp (setExtract u .inService) with
      | none => simp
      | some t =>
        obtain ⟨pwr, boot, rfl⟩ := startUp_eq hstart
        simp

theorem latchFault_shows (hgood : s.isl.latch ≠ .fault) :
    ∃ t, exec .latchFault s = .next t ∧ t.isl.latch = .fault ∧
      ctrGet t 0xC230 0x06 0 = (ctrGet s 0xC230 0x06 0 + 1) % 2 ^ 64 := by
  obtain ⟨u, hu⟩ : ∃ u, u = event (count (setLatch s .fault) 0xC230 0x06) 0x0803 0 2 := ⟨_, rfl⟩
  have hlatch : u.isl.latch = .fault := by rw [hu]; simp [setLatch]
  have hcount : ctrGet u 0xC230 0x06 0 = (ctrGet s 0xC230 0x06 0 + 1) % 2 ^ 64 := by
    rw [hu, ctrGet_event (by decide) (by decide), ctrGet_count_self]
    rfl
  cases hwas : s.isl.latch with
  | fault => exact absurd hwas hgood
  | closed =>
    refine ⟨u, ?_, hlatch, hcount⟩
    change Host.Outcome.next _ = _
    rw [hwas, hu]
  | opened =>
    obtain ⟨-, -, -, hkept, hctr⟩ := panelWork_latchShut (panelWork_self u)
    refine ⟨latchShut u, ?_, hkept.trans hlatch, (hctr 6 (by decide) (by decide) (by decide) (by decide)).trans hcount⟩
    change Host.Outcome.next _ = _
    rw [hwas, hu]

theorem cageInserted_decides {c : BitVec 4} {mw : Nat} (hlen : s.isl.cages.length = 16)
    (hempty : (cage s c.toNat).state = .empty) :
    ∃ t, exec (.cageInserted c mw) s = .next t ∧ (cage t c.toNat).power = mw ∧
      (cage t c.toNat).state = if mainOn s then (if objGet s 0x2220 0x02 c.toNat < mw then .powerDenied else .initialising)
        else .inserted := by
  have hc : c.toNat < s.isl.cages.length := by rw [hlen]; exact c.isLt
  obtain ⟨v, hv⟩ : ∃ v : State, v =
    { s with isl := { s.isl with cages := lset s.isl.cages c.toNat { cage s c.toNat with power := mw } } } := ⟨_, rfl⟩
  obtain ⟨u, hu⟩ : ∃ u, u = count (setCage v c.toNat .inserted) 0xC230 0x07 := ⟨_, rfl⟩
  have hvlen : c.toNat < v.isl.cages.length := by rw [hv]; simpa [lset] using hc
  have hvcage : cage v c.toNat = { cage s c.toNat with power := mw } := by rw [hv]; exact cage_lset _ _ hc
  have hucage : cage u c.toNat = { cage s c.toNat with power := mw, state := .inserted } := by
    rw [hu]
    exact (cage_setCage .inserted hvlen).trans (by rw [hvcage])
  have hulen : c.toNat < u.isl.cages.length := by
    rw [hu]
    exact (length_setCage (s := v) c.toNat .inserted).symm ▸ hvlen
  have hwork : CageWork v (setCage v c.toNat .inserted) := cageWork_setCage (cageWork_self v)
  obtain ⟨hpwr, -, -, -, -, hvals, -, -⟩ := hwork
  have hon : mainOn u = mainOn s := by
    rw [hu, hv] at *
    exact congrArg (fun p : Pwr => p.phase == .on) hpwr
  have hlimit : objGet u 0x2220 0x02 c.toNat = objGet s 0x2220 0x02 c.toNat := by
    rw [hu, hv] at *
    exact objGet_congr (by exact hvals) ..
  refine ⟨releaseModule u c.toNat, congrArg Host.Outcome.next ((if_pos hempty).trans (by rw [hu, hv])), ?_⟩
  unfold releaseModule
  rw [hucage, hon, hlimit]
  by_cases hmain : mainOn s = true
  · rw [if_pos ⟨rfl, hmain⟩, if_pos hmain, cage_setCage _ hulen, hucage]
    exact ⟨rfl, rfl⟩
  · rw [if_neg fun h => hmain h.2, if_neg hmain, hucage]
    exact ⟨rfl, rfl⟩

theorem moduleReady_readies {c : BitVec 4} (hc : c.toNat < s.isl.cages.length)
    (hstate : (cage s c.toNat).state = .initialising) :
    ∃ t, exec (.moduleReady c) s = .next t ∧ (cage t c.toNat).state = .ready := by
  obtain ⟨-, -, -, hisl⟩ := islandWork_cageLanesUp (setCage s c.toNat .ready) c.toNat
  refine ⟨_, congrArg Host.Outcome.next (if_pos hstate), ?_⟩
  rw [cage_congr hisl, cage_setCage _ hc]

theorem moduleFault_faults {c : BitVec 4} (hc : c.toNat < s.isl.cages.length) (hstate : (cage s c.toNat).state = .ready) :
    ∃ t, exec (.moduleFault c) s = .next t ∧ (cage t c.toNat).state = .fault := by
  obtain ⟨-, -, -, hisl⟩ := islandWork_cageLanesDown (setCage s c.toNat .fault) c.toNat false
  refine ⟨_, congrArg Host.Outcome.next (if_pos hstate), ?_⟩
  rw [cage_congr hisl, cage_setCage _ hc]

theorem cageInitTimeout_faults {c : BitVec 4} (hc : c.toNat < s.isl.cages.length)
    (hstate : (cage s c.toNat).state = .initialising) :
    ∃ t, exec (.cageInitTimeout c) s = .next t ∧ (cage t c.toNat).state = .fault := by
  refine ⟨_, congrArg Host.Outcome.next (if_pos hstate), ?_⟩
  rw [cage_setCage _ (by exact hc)]

theorem moduleRemoval_empties {c : BitVec 4} (hc : c.toNat < s.isl.cages.length) (hstate : (cage s c.toNat).state ≠ .empty) :
    ∃ t, exec (.moduleRemoval c) s = .next t ∧ cage t c.toNat = ⟨.empty, 0, none⟩ := by
  obtain ⟨v, hv⟩ : ∃ v, v = cageLanesDown (setCage (count s 0xC230 0x08) c.toNat .empty) c.toNat true := ⟨_, rfl⟩
  obtain ⟨-, -, -, hisl⟩ := islandWork_cageLanesDown (setCage (count s 0xC230 0x08) c.toNat .empty) c.toNat true
  have hvlen : c.toNat < v.isl.cages.length := by
    rw [hv, hisl, length_setCage]
    exact hc
  obtain ⟨u, hu⟩ : ∃ u : State, u = { v with isl := { v.isl with cages := lset v.isl.cages c.toNat ⟨.empty, 0, none⟩ } } := ⟨_, rfl⟩
  have hcage : cage u c.toNat = ⟨.empty, 0, none⟩ := by rw [hu]; exact cage_lset _ _ hvlen
  cases hlanes : (cage s c.toNat).lanes with
  | none => exact ⟨u, congrArg Host.Outcome.next ((if_neg hstate).trans (by rw [hlanes, hu, hv])), hcage⟩
  | some lanes =>
    refine ⟨cageLanesApply u c.toNat lanes, congrArg Host.Outcome.next ((if_neg hstate).trans (by rw [hlanes, hu, hv])), ?_⟩
    rw [cage_congr (cageLanesApply_isl ..), hcage]

end

/-- Settles O51, a clause for each command. -/
theorem panelAndCageCommandsTakeEffect : Obligations.PanelAndCageCommandsTakeEffect := by
  unfold Obligations.PanelAndCageCommandsTakeEffect
  refine ⟨shortPress_counts, longPress_counts, fun s => latchOpen_opens, fun s => latchClose_returns, fun s => latchFault_shows,
    fun s c mw => cageInserted_decides, fun s c hlen => ?_, fun s a => ⟨_, rfl, ?_, rfl⟩,
    fun s hup => ⟨_, congrArg Host.Outcome.next (if_pos hup), rfl, rfl⟩⟩
  · have hc : c.toNat < s.isl.cages.length := by rw [hlen]; exact c.isLt
    exact ⟨moduleReady_readies hc, moduleFault_faults hc, cageInitTimeout_faults hc, moduleRemoval_empties hc⟩
  · exact iteInduction (motive := fun n => n = 2 ∨ n = 3) (fun _ => .inr rfl) (fun _ => .inl rfl)

end Sys2Proof.Proofs
end

section
/-!
SUPPORT. A request at its turn that leads to one answer: what of the server's state it changes (16 R380, R381).
-/

namespace Sys2Proof.Machine.Laws

open Sys2Proof Sys2Proof.Machine

set_option Elab.async false

theorem onlyUhlist_self (s : State) : OnlyUhlist s s := rfl

theorem onlyUhlist_trans {b s t : State} (h : OnlyUhlist b s) (ht : OnlyUhlist s t) : OnlyUhlist b t := by
  have heq : { t with uhl := s.uhl, objs := s.objs, logs := s.logs, out := s.out, fresh := s.fresh } = s := ht
  have hback := congrArg (fun u : State =>
    { u with uhl := b.uhl, objs := b.objs, logs := b.logs, out := b.out, fresh := b.fresh }) heq
  exact hback.trans h

theorem onlyUhlist_sessionPut {b s : State} (x : Session) (h : OnlyUhlist b s) : OnlyUhlist b (sessionPut s x) := h

theorem onlyUhlist_countUhl {b s : State} (tr sub : Nat) (h : OnlyUhlist b s) : OnlyUhlist b (countUhl s tr sub) := h

theorem onlyUhlist_emit {b s : State} (o : Output) (h : OnlyUhlist b s) : OnlyUhlist b (emit s o) := h

theorem onlyUhlist_atTurn (s : State) (x : Session) : OnlyUhlist s (atTurn s x) := rfl

/-- A request that is answered once from a state `v` is at an end with that answer. -/
theorem takePdu_of_answer {s v : State} {p : Pdu} {x y : Session} {op err : Nat} {body : List Byte} (h : Served s p x)
    (htag : tagOk x op p = true) (hfind : sessionFind v 0 p.session = some y) (hheld : y.held = [])
    (hserve : serveRequest (atTurn s x) (servedSession s x) op p = answer v 0 p.session op p err body) :
    takePdu s op p =
        emit (countUhl (sessionPut v (withReply y p.seq op p.body err body)) 0 0x02) (.pdu 0 p.session op p.seq err body) ∧
      sessionFind (takePdu s op p) 0 p.session = some (withReply y p.seq op p.body err body) := by
  obtain ⟨hy0, hyn⟩ := sessionFind_numbers hfind
  have hput := sessionFind_sessionPut (y := withReply y p.seq op p.body err body) hfind hy0 hyn
  have htake : takePdu s op p =
      emit (countUhl (sessionPut v (withReply y p.seq op p.body err body)) 0 0x02) (.pdu 0 p.session op p.seq err body) := by
    rw [takePdu_served h htag, hserve, answer_management hfind]
    exact pumpSession_of_held_nil (x := withReply y p.seq op p.body err body) (by exact hput) hheld 16
  exact ⟨htake, by rw [htake]; exact hput⟩

/-- What such a request leaves: the answer is sent, the session expects the next request, and its mask is that of `y`. -/
theorem served_of_answer {s v : State} {p : Pdu} {x y : Session} {op err : Nat} {body : List Byte} (h : Served s p x)
    (htag : tagOk x op p = true) (hv : OnlyUhlist s v) (hfind : sessionFind v 0 p.session = some y) (hheld : y.held = [])
    (hexpect : y.expect = x.expect + 1)
    (hserve : serveRequest (atTurn s x) (servedSession s x) op p = answer v 0 p.session op p err body) :
    Replied (takePdu s op p) op p err body ∧ OnlyUhlist s (takePdu s op p) ∧
      ∃ z, sessionFind (takePdu s op p) 0 p.session = some z ∧ z.expect = x.expect + 1 ∧ z.mask = y.mask := by
  obtain ⟨htake, hleft⟩ := takePdu_of_answer h htag hfind hheld hserve
  refine ⟨?_, ?_, _, hleft, hexpect, rfl⟩
  · rw [htake]
    exact List.mem_append_right _ (List.mem_singleton_self _)
  · rw [htake]
    exact hv

/-! ## Records that a missed one follows (16 R385) -/

/-- A record of what was missed may be queued: of the session its events alone change. -/
theorem queueMissed_spec {s : State} {t n : Nat} {x : Session} (h : sessionFind s t n = some x) :
    OnlyUhlist s (queueMissed s t n) ∧ ∃ y, sessionFind (queueMissed s t n) t n = some y ∧ y.held = x.held ∧
      y.expect = x.expect := by
  obtain ⟨hxt, hxn⟩ := sessionFind_numbers h
  unfold queueMissed
  rw [h]
  dsimp only
  split
  · exact ⟨onlyUhlist_self s, x, h, rfl, rfl⟩
  · exact ⟨rfl, _, sessionFind_sessionPut (by exact h) (by exact hxt) (by exact hxn), rfl, rfl⟩

theorem ackEvents_spec {s : State} {t n : Nat} {x y : Session} (h : sessionFind s t n = some x) (hyt : y.transport = t)
    (hyn : y.num = n) (k : Nat) : OnlyUhlist s (ackEvents s y k) ∧ ∃ z, sessionFind (ackEvents s y k) t n = some z ∧
      z.held = y.held ∧ z.expect = y.expect := by
  subst hyt hyn
  unfold ackEvents
  extract_lets gone u
  have hu : OnlyUhlist s u := rfl
  have hfind : sessionFind u y.transport y.num = some _ := sessionFind_sessionPut h rfl rfl
  clear_value u
  obtain ⟨honly, z, hz, hheld, hexpect⟩ := queueMissed_spec hfind
  exact ⟨onlyUhlist_trans hu honly, z, hz, hheld, hexpect⟩

/-! ## CLOSE (16 R380) -/

theorem sessionFind_sessionDrop (s : State) (t n : Nat) : sessionFind (sessionDrop s t n) t n = none := by
  unfold sessionDrop
  extract_lets u
  refine List.find?_eq_none.2 fun y hy hsame => ?_
  have hother := (List.mem_filter.1 hy).2
  rw [hsame] at hother
  exact absurd hother (by decide)

/-- A session of the management transport leaves no mailbox. -/
theorem boxLeaves_management {s : State} {x : Session} (h : x.transport = 0) : boxLeaves s x = s :=
  if_neg fun hbox => by omega

theorem onlyUhlist_sessionDrop {b s : State} {n : Nat} (h : OnlyUhlist b s) : OnlyUhlist b (sessionDrop s 0 n) := by
  unfold sessionDrop
  cases hfind : sessionFind s 0 n with
  | none => exact h
  | some x =>
    dsimp only
    rw [boxLeaves_management (sessionFind_numbers hfind).1]
    exact h

/-- A session that settles is gone or as it was. -/
theorem settleSession_spec {s : State} {n : Nat} {x : Session} (h : sessionFind s 0 n = some x) :
    OnlyUhlist s (settleSession s 0 n) ∧ (settleSession s 0 n).out = s.out ∧
      (sessionFind (settleSession s 0 n) 0 n = none ∨ sessionFind (settleSession s 0 n) 0 n = some x) := by
  unfold settleSession
  rw [h]
  dsimp only
  split
  · refine ⟨onlyUhlist_sessionDrop (onlyUhlist_self s), ?_, .inl (sessionFind_sessionDrop s 0 n)⟩
    unfold sessionDrop
    rw [h]
    dsimp only
    rw [boxLeaves_management (sessionFind_numbers h).1]
  · exact ⟨onlyUhlist_self s, rfl, .inr h⟩

theorem pumpSession_of_closing {s : State} {n k : Nat}
    (h : ∀ y, sessionFind s 0 n = some y → y.closing = true) : pumpSession s 0 n k = s := by
  cases k with
  | zero => rfl
  | succ k =>
    unfold pumpSession
    cases hfind : sessionFind s 0 n with
    | none => rfl
    | some y => exact if_pos (.inr (.inl (h y hfind)))

end Sys2Proof.Machine.Laws
end

section
/-!
CLAIMS. Requests at their turn (16 R376 to R385).
-/

namespace Sys2Proof.Proofs

open Sys2Proof Sys2Proof.Machine Sys2Proof.Machine.Laws

set_option Elab.async false

section
variable {s : State} {p : Pdu} {x : Session}

/-- CLOSE with an empty body. -/
theorem uhClose_closes (h : Served s p x) (htag : tagOk x 3 p = true) (hbody : p.body = []) :
    Replied (takePdu s 3 p) 3 p 0 [] ∧ OnlyUhlist s (takePdu s 3 p) ∧
      ∀ y, sessionFind (takePdu s 3 p) 0 p.session = some y → y.expect = x.expect + 1 ∧ y.closing = true := by
  have hfind := sessionFind_atTurn h
  obtain ⟨hx0, hxn⟩ := sessionFind_numbers hfind
  obtain ⟨y, hy⟩ : ∃ y, y = withReply (servedSession s x) p.seq 3 p.body 0 [] := ⟨_, rfl⟩
  have hy0 : y.transport = 0 := by rw [hy]; exact hx0
  have hyn : y.num = p.session := by rw [hy]; exact hxn
  obtain ⟨u, hu⟩ : ∃ u, u = emit (countUhl (sessionPut (atTurn s x) y) 0 0x02) (.pdu 0 p.session 3 p.seq 0 []) := ⟨_, rfl⟩
  have hanswer : answer (atTurn s x) 0 p.session 3 p 0 [] = u := by rw [answer_management hfind, hu, hy]
  have hfindu : sessionFind u 0 p.session = some y := by rw [hu]; exact sessionFind_sessionPut hfind hy0 hyn
  obtain ⟨v, hv⟩ : ∃ v, v = sessionPut u { y with closing := true, held := [] } := ⟨_, rfl⟩
  have hfindv : sessionFind v 0 p.session = some { y with closing := true, held := [] } := by
    rw [hv]
    exact sessionFind_sessionPut hfindu hy0 hyn
  obtain ⟨honly, hout, hleft⟩ := settleSession_spec hfindv
  have hserve : serveRequest (atTurn s x) (servedSession s x) 3 p = settleSession v 0 p.session := by
    have hempty : p.body.isEmpty = true := by rw [hbody]; rfl
    refine (if_pos hempty).trans ?_
    rw [closeSession, hx0, hxn, hanswer, hfindu, hv]
  have hclosing : ∀ z, sessionFind (settleSession v 0 p.session) 0 p.session = some z →
      z.expect = x.expect + 1 ∧ z.closing = true := by
    intro z hz
    obtain hnone | hsome := hleft
    · rw [hnone] at hz
      exact absurd hz (by simp)
    · rw [hsome] at hz
      obtain rfl := Option.some.inj hz
      exact ⟨by rw [hy]; rfl, rfl⟩
  have htake : takePdu s 3 p = settleSession v 0 p.session := by
    rw [takePdu_served h htag, hserve]
    exact pumpSession_of_closing fun z hz => (hclosing z hz).2
  rw [htake]
  refine ⟨?_, ?_, hclosing⟩
  · rw [Replied, hout, hv, hu]
    exact List.mem_append_right _ (List.mem_singleton_self _)
  · have huonly : OnlyUhlist s u := by
      rw [hu]
      exact onlyUhlist_emit _ (onlyUhlist_countUhl _ _ (onlyUhlist_sessionPut _ (onlyUhlist_atTurn s x)))
    have hvonly : OnlyUhlist s v := by
      rw [hv]
      exact onlyUhlist_sessionPut _ huonly
    exact onlyUhlist_trans hvonly honly

/-- A request that is answered from the state of its turn. -/
theorem served_of_answer_atTurn {op err : Nat} (h : Served s p x) (htag : tagOk x op p = true)
    (hserve : serveRequest (atTurn s x) (servedSession s x) op p =
      answer (atTurn s x) (servedSession s x).transport (servedSession s x).num op p err []) :
    Replied (takePdu s op p) op p err [] ∧ OnlyUhlist s (takePdu s op p) ∧
      ∃ z, sessionFind (takePdu s op p) 0 p.session = some z ∧ z.expect = x.expect + 1 ∧ z.mask = x.mask := by
  have hfind := sessionFind_atTurn h
  obtain ⟨hx0, hxn⟩ := sessionFind_numbers hfind
  rw [hx0, hxn] at hserve
  exact served_of_answer (y := servedSession s x) h htag (onlyUhlist_atTurn s x) hfind rfl rfl hserve

/-- The requests that are answered from the state of their turn, with what they are answered. -/
theorem serveRequest_answers {u : State} {y : Session} {c : Instr} {op err : Nat}
    (hc : (c = .keepalive p ∧ op = 4 ∧ p.body = [] ∧ err = 0) ∨
      (c = .uhDescribe p ∧ op = 5 ∧ p.body.length = 8 ∧ err = 1 ∧ ∃ a, addrOf p.body = some a ∧ objSeen y a = none) ∨
      (c = .uhRead p ∧ op = 6 ∧ p.body.length = 10 ∧ err = 1 ∧ ∃ a, addrOf p.body = some a ∧ objSeen y a = none) ∨
      (c = .blockRead p ∧ op = 8 ∧ p.body.length = 14 ∧ err = 1 ∧ ∃ a, addrOf p.body = some a ∧ objSeen y a = none) ∨
      (c = .uhWrite p ∧ op = 7 ∧ p.body.length < 10 ∧ err = 15) ∨
      (c = .blockWrite p ∧ op = 9 ∧ p.body.length < 12 ∧ err = 15) ∨
      (∃ o : BitVec 6, c = .reservedOp o p ∧ op = o.toNat ∧ (op = 0 ∨ 13 ≤ op) ∧ err = 15)) :
    exec c s = .next (takePdu s op p) ∧ op ≠ 3 ∧ op ≠ 10 ∧
      serveRequest u y op p = answer u y.transport y.num op p err [] := by
  obtain ⟨rfl, rfl, hbody, rfl⟩ | ⟨rfl, rfl, hlen, rfl, a, ha, hseen⟩ | ⟨rfl, rfl, hlen, rfl, a, ha, hseen⟩ |
    ⟨rfl, rfl, hlen, rfl, a, ha, hseen⟩ | ⟨rfl, rfl, hlen, rfl⟩ | ⟨rfl, rfl, hlen, rfl⟩ | ⟨o, rfl, hop, hres, rfl⟩ := hc
  · exact ⟨rfl, by decide, by decide, by simp [serveRequest, hbody]⟩
  · exact ⟨rfl, by decide, by decide, by simp [serveRequest, ha, hlen, hseen]⟩
  · exact ⟨rfl, by decide, by decide, by simp [serveRequest, serveRead, readChecks, ha, hlen, hseen]⟩
  · exact ⟨rfl, by decide, by decide, by simp [serveRequest, serveBlockRead, readChecks, ha, hlen, hseen]⟩
  · refine ⟨rfl, by decide, by decide, ?_⟩
    change serveWrite u y p = _
    unfold serveWrite
    cases ha : addrOf p.body with
    | none => rfl
    | some a => exact if_pos hlen
  · refine ⟨rfl, by decide, by decide, ?_⟩
    change serveBlockWrite u y p = _
    unfold serveBlockWrite
    cases ha : addrOf p.body with
    | none => rfl
    | some a => exact if_pos hlen
  · refine ⟨?_, by omega, by omega, ?_⟩
    · rw [hop]
      exact congrArg Host.Outcome.next (if_pos (by omega))
    · obtain rfl | ⟨n, rfl⟩ : op = 0 ∨ ∃ n, op = n + 13 := hres.imp id fun h => ⟨op - 13, by omega⟩
      · rfl
      · rfl

end

/-- Settles O48: a request is answered from the state of its turn, from one with the mask set or the records freed, or its
session closes. -/
theorem uhlistRequestsAreServed : Obligations.UhlistRequestsAreServed := by
  unfold Obligations.UhlistRequestsAreServed
  intro s p x c op err h htag hc
  have hfind := sessionFind_atTurn h
  obtain ⟨hx0, hxn⟩ := sessionFind_numbers hfind
  have hanswered (hcmd : exec c s = .next (takePdu s op p) ∧ op ≠ 3 ∧ op ≠ 10 ∧
      serveRequest (atTurn s x) (servedSession s x) op p =
        answer (atTurn s x) (servedSession s x).transport (servedSession s x).num op p err []) :
      ∃ t, exec c s = .next t ∧ Replied t op p err [] ∧ OnlyUhlist s t ∧
        (∀ y, sessionFind t 0 p.session = some y → y.expect = x.expect + 1) ∧
        (op = 3 → ∀ y, sessionFind t 0 p.session = some y → y.closing = true) ∧
        (op = 10 → ∃ y, sessionFind t 0 p.session = some y ∧ y.mask = BitVec.ofNat 16 (leNat p.body)) := by
    obtain ⟨hexec, hnotClose, hnotSubscribe, hserve⟩ := hcmd
    obtain ⟨hreplied, honly, z, hz, hexpect, -⟩ := served_of_answer_atTurn h htag hserve
    refine ⟨_, hexec, hreplied, honly, fun y hy => ?_, fun hop => absurd hop hnotClose, fun hop => absurd hop hnotSubscribe⟩
    rw [hz] at hy
    obtain rfl := Option.some.inj hy
    exact hexpect
  obtain hkeep | ⟨rfl, rfl, hbody, rfl⟩ | hdescribe | hread | hblockRead | hwrite | hblockWrite | ⟨rfl, rfl, hlen, rfl⟩ |
    ⟨rfl, rfl, hlen, rfl⟩ | hreserved := hc
  · exact hanswered (serveRequest_answers (.inl hkeep))
  · obtain ⟨hreplied, honly, hclosing⟩ := uhClose_closes h htag hbody
    exact ⟨_, rfl, hreplied, honly, fun y hy => (hclosing y hy).1, fun _ y hy => (hclosing y hy).2,
      fun hop => absurd hop (by decide)⟩
  · exact hanswered (serveRequest_answers (.inr (.inl hdescribe)))
  · exact hanswered (serveRequest_answers (.inr (.inr (.inl hread))))
  · exact hanswered (serveRequest_answers (.inr (.inr (.inr (.inl hblockRead)))))
  · exact hanswered (serveRequest_answers (.inr (.inr (.inr (.inr (.inl hwrite))))))
  · exact hanswered (serveRequest_answers (.inr (.inr (.inr (.inr (.inr (.inl hblockWrite)))))))
  · obtain ⟨y, hy⟩ : ∃ y, y = { servedSession s x with mask := BitVec.ofNat 16 (leNat p.body) } := ⟨_, rfl⟩
    have hserve : serveRequest (atTurn s x) (servedSession s x) 10 p =
        answer (sessionPut (atTurn s x) y) 0 p.session 10 p 0 [] := by
      have hset : serveRequest (atTurn s x) (servedSession s x) 10 p = answer (sessionPut (atTurn s x) y)
          (servedSession s x).transport (servedSession s x).num 10 p 0 [] := by
        rw [hy]
        exact if_pos hlen
      rw [hset, hx0, hxn]
    obtain ⟨hreplied, honly, z, hz, hexpect, hset⟩ := served_of_answer h htag
      (onlyUhlist_sessionPut y (onlyUhlist_atTurn s x))
      (sessionFind_sessionPut hfind (by rw [hy]; exact hx0) (by rw [hy]; exact hxn)) (by rw [hy]; rfl) (by rw [hy]; rfl) hserve
    rw [hy] at hset
    refine ⟨_, rfl, hreplied, honly, fun y hy => ?_, fun hop => absurd hop (by decide), fun _ => ⟨z, hz, hset⟩⟩
    rw [hz] at hy
    obtain rfl := Option.some.inj hy
    exact hexpect
  · obtain ⟨hack, y, hy, hheld, hyexpect⟩ := ackEvents_spec hfind hx0 hxn (leNat p.body)
    obtain ⟨hreplied, honly, z, hz, hexpect, -⟩ := served_of_answer (err := 0) (body := []) h htag
      (onlyUhlist_trans (onlyUhlist_atTurn s x) hack) hy (hheld.trans rfl) (hyexpect.trans rfl)
      ((if_pos hlen).trans (by rw [hx0, hxn]))
    refine ⟨_, rfl, hreplied, honly, fun w hw => ?_, fun hop => absurd hop (by decide), fun hop => absurd hop (by decide)⟩
    rw [hz] at hw
    obtain rfl := Option.some.inj hw
    exact hexpect
  · exact hanswered (serveRequest_answers (.inr (.inr (.inr (.inr (.inr (.inr hreserved)))))))

end Sys2Proof.Proofs
end

section
/-!
SUPPORT. OPEN and PROVE on the management transport, the events of a session, and what leaving a mailbox changes (16 R378, R385,
R389, R390).
-/

namespace Sys2Proof.Machine.Laws

open Sys2Proof Sys2Proof.Machine

set_option Elab.async false

/-! ## OPEN and PROVE (16 R378) -/

section
variable {s : State} {p : Pdu}

theorem takePdu_open (htrans : p.transport = 0) (hsess : p.session = 0) (hlen : p.body.length ≤ 1468)
    (hserves : islandServes s = true) : takePdu s 1 p = openSession (countUhl s 0 0x01) p (0, 0) := by
  have hmax : ¬ bodyMax 0 < p.body.length := Nat.not_lt.2 hlen
  simp [takePdu, waiting, htrans, hserves, hmax, hsess]

theorem takePdu_of_session (op : Nat) (htrans : p.transport = 0) (hsess : p.session ≠ 0) (hlen : p.body.length ≤ 1468)
    (hserves : islandServes s = true) : takePdu s op p = inSession (countUhl s 0 0x01) op p (0, 0) := by
  have hmax : ¬ bodyMax 0 < p.body.length := Nat.not_lt.2 hlen
  simp [takePdu, waiting, htrans, hserves, hmax, hsess]

/-- A reply of the management transport is counted and sent. -/
theorem sendReply_management (s : State) (op n seq err : Nat) (body : List Byte) (key : Option (BitVec 256))
    (peer : Nat × Nat) :
    sendReply s 0 op n seq err body key peer = emit (countUhl s 0 0x02) (.pdu 0 n op seq err body) := rfl

theorem sessionReply_eq (s : State) (x : Session) (seq op : Nat) (request : List Byte) (err : Nat) (body : List Byte) :
    sessionReply s x seq op request err body = sendReply (sessionPut s (withReply x seq op request err body)) x.transport op
      x.num seq err body (some x.key) x.peer := rfl

theorem ecdh_eq_none (d : Nat) {key : List Byte} (h : ecOn (pairNat key) = false) : ecdh d key = none := by
  unfold ecdh
  exact if_neg (by simp [h])

theorem ecdh_eq_some (d : Nat) {key : List Byte} (h : ecOn (pairNat key) = true) : ∃ z, ecdh d key = some z := by
  unfold ecdh
  exact ⟨_, if_pos h⟩

/-- A signature counts one more that the identity has made. -/
theorem signDigest_snd (s : State) (d : BitVec 256) :
    (signDigest s d).2 = { s with boot := { s.boot with signed := s.boot.signed + 1 } } := rfl

theorem identityState_congr {t : State} (h : t.boot = s.boot) : identityState t = identityState s := by
  rw [identityState, h, identityState]

theorem openSession_of_length (peer : Nat × Nat) (h : p.body.length ≠ 99) :
    openSession s p peer = sendReply s p.transport 1 0 p.seq 0x0F [] none peer := if_pos h

section
variable (htrans : p.transport = 0) (hlen : p.body.length = 99)
include htrans hlen

theorem openSession_of_identity (h : identityState s = 3) : openSession s p (0, 0) =
    sendReply (countUhl s 0 0x05) 0 1 0 p.seq 0x0A [] none (0, 0) := by
  simp only [openSession, htrans, hlen, ne_eq, not_true_eq_false, if_false, h, true_or, if_true]

variable (hrole : (byteAt p.body 0).toNat ≤ 3) (hid : identityState s ≠ 3)
include hrole hid

theorem openSession_of_full (h : 32 ≤ (s.uhl.sessions.filter (fun x => x.transport == 0)).length) :
    openSession s p (0, 0) = sendReply (countUhl s 0 0x05) 0 1 0 p.seq 0x08 [] none (0, 0) := by
  have hlimit : sessionLimit 0 = 32 := rfl
  simp only [openSession, htrans, hlen, ne_eq, not_true_eq_false, if_false, hid, Nat.not_lt.2 hrole, or_self, hlimit, h, if_true]

variable (hroom : (s.uhl.sessions.filter (fun x => x.transport == 0)).length < 32)
include hroom

theorem openSession_of_bad_key (h : ecOn (pairNat (bytesAt p.body 35 64)) = false) :
    openSession s p (0, 0) = sendReply (countUhl s 0 0x05) 0 1 0 p.seq 0x0A [] none (0, 0) := by
  have hlimit : sessionLimit 0 = 32 := rfl
  have hnone := fun d => ecdh_eq_none d h
  simp only [openSession, htrans, hlen, ne_eq, not_true_eq_false, if_false, hid, Nat.not_lt.2 hrole, or_self, hlimit,
    Nat.not_le.2 hroom, hnone]

/-- A good OPEN adds its session and answers with the session's number first. -/
theorem openSession_of_room (h : ecOn (pairNat (bytesAt p.body 35 64)) = true) :
    ∃ (x : Session) (boot : Boot) (rest : List Byte), openSession s p (0, 0) =
        sendReply { s with
          boot := boot, fresh := s.fresh + 1
          uhl := { s.uhl with sessions := s.uhl.sessions ++ [x], nextNum := x.num + 1 } } 0 1 0 p.seq 0
          (leBytes 2 x.num ++ rest) none (0, 0) ∧
      x.transport = 0 ∧ x.proved = false ∧ x.expect = 1 ∧ x.role = roleOf (byteAt p.body 0).toNat := by
  have hlimit : sessionLimit 0 = 32 := rfl
  obtain ⟨z, hz⟩ := ecdh_eq_some (ecScalar (Config.drbg (2 ^ 67 + s.fresh))) h
  simp only [openSession, htrans, hlen, ne_eq, not_true_eq_false, if_false, hid, Nat.not_lt.2 hrole, or_self, hlimit,
    Nat.not_le.2 hroom, hz, signDigest_snd, List.append_assoc]
  exact ⟨_, _, _, rfl, rfl, rfl, rfl, rfl⟩

end

theorem proveOk_heard (s : State) (x : Session) (since : Nat) (peer : Nat × Nat) (body : List Byte) :
    proveOk (countUhl s 0 0x01) { x with since := since, peer := peer } body = proveOk s x body := rfl

/-- A PROVE of an unproved session is judged in the session as it was. -/
theorem inSession_prove {x : Session} (htrans : p.transport = 0) (hfind : sessionFind s 0 p.session = some x)
    (hproved : x.proved = false) (hseq : p.seq = 0) (htag : tagOk x 2 p = true) :
    inSession (countUhl s 0 0x01) 2 p (0, 0) =
      proveSession (countUhl s 0 0x01) { x with since := islandUs s, peer := (0, 0) } p := by
  simp [inSession, htrans, hfind, htag, hproved, hseq]

end

/-! ## Events (16 R385) -/

section
variable {b s : State} {x : Session}

theorem sendEvent_management (h : x.transport = 0) (seq : Nat) (rs : List EvRec) : sendEvent s x seq rs =
    emit (countUhl (countUhl s 0 0x02) 0 0x08) (.eventPdu 0 x.num seq rs) := by
  simp only [sendEvent, h, OfNat.zero_ne_ofNat, if_false, if_true]

theorem eventPlace_management (s : State) : eventPlace s 0 = true := rfl

theorem onlyUhlist_sendEvent (hx : x.transport = 0) (seq : Nat) (rs : List EvRec) (h : OnlyUhlist b s) :
    OnlyUhlist b (sendEvent s x seq rs) := by
  rw [sendEvent_management hx]
  exact onlyUhlist_emit _ (onlyUhlist_countUhl _ _ (onlyUhlist_countUhl _ _ h))

theorem onlyUhlist_markSent (y : Session) (seq : Nat) (h : OnlyUhlist b s) : OnlyUhlist b (markSent s y seq) := by
  unfold markSent
  split
  · exact h
  · exact h

theorem onlyUhlist_resendEvents (hx : x.transport = 0) (l : List (Nat × Nat × Nat)) (es : List EvRec) (h : OnlyUhlist b s) :
    OnlyUhlist b (resendEvents s x l es) := by
  induction l generalizing s es with
  | nil => exact h
  | cons u l ih =>
    obtain ⟨seq, n, sent⟩ := u
    unfold resendEvents
    split
    · exact h
    · split
      · exact ih _ (onlyUhlist_markSent x seq (onlyUhlist_sendEvent hx seq _ h))
      · exact ih _ h

theorem onlyUhlist_sendNextEvent (hx : x.transport = 0) (h : OnlyUhlist b s) : OnlyUhlist b (sendNextEvent s x) := by
  unfold sendNextEvent
  extract_lets rs
  split
  · exact h
  · exact onlyUhlist_sendEvent hx _ _ h

/-- The oldest records not sent leave, at most 45. -/
theorem sendNextEvent_sends {r : EvRec} {rest : List EvRec} (hx : x.transport = 0) (hproved : x.proved = true)
    (hopen : x.closing = false) (hunacked : x.unacked = []) (hevents : x.events = r :: rest) :
    .eventPdu 0 x.num x.eventSeq ((r :: rest).take 45) ∈ (sendNextEvent s x).out := by
  have hunsent : (unsentEvents x).take (eventLimit x.transport) = (r :: rest).take 45 := by
    simp only [unsentEvents, hunacked, hevents, hx]
    rfl
  unfold sendNextEvent
  rw [hunsent, hx]
  simp only [hproved, hopen, eventPlace_management, List.take_succ_cons, List.isEmpty_cons, Bool.not_true, Bool.false_eq_true,
    or_self, if_false]
  rw [sendEvent_management hx]
  exact List.mem_append_right _ (List.mem_singleton_self _)

/-- An EVENT PDU that is not acknowledged in time is sent again, and its moment noted. -/
theorem resendEvents_one {n q k sent : Nat} {es : List EvRec} (hfind : sessionFind s 0 n = some x)
    (hunacked : x.unacked = [(q, k, sent)]) (hdue : sent + objGet s 0x1040 0x03 0 * 1000 ≤ islandUs s) :
    .eventPdu 0 n q (es.take k) ∈ (resendEvents s x [(q, k, sent)] es).out ∧
      sessionFind (resendEvents s x [(q, k, sent)] es) 0 n = some { x with unacked := [(q, k, islandUs s)] } := by
  obtain ⟨hx0, hxn⟩ := sessionFind_numbers hfind
  obtain ⟨u, hu⟩ : ∃ u, u = emit (countUhl (countUhl s 0 0x02) 0 0x08) (.eventPdu 0 x.num q (es.take k)) := ⟨_, rfl⟩
  have hfindu : sessionFind u 0 n = some x := by
    rw [hu, sessionFind_emit, sessionFind_countUhl, sessionFind_countUhl, hfind]
  have hus : islandUs u = islandUs s := by rw [hu]; rfl
  have hmark : resendEvents s x [(q, k, sent)] es = sessionPut u { x with unacked := [(q, k, islandUs s)] } := by
    have hplace : eventPlace s x.transport = true := by rw [hx0, eventPlace_management]
    simp only [resendEvents, hplace, Bool.not_true, Bool.false_eq_true, if_false, hdue, if_true]
    have hown : sessionFind u x.transport x.num = some x := by rw [hx0, hxn, hfindu]
    rw [sendEvent_management hx0, ← hu, markSent, hown]
    simp only [hunacked, hus, List.map_cons, List.map_nil, if_true]
  rw [hmark]
  refine ⟨?_, sessionFind_sessionPut (y := { x with unacked := [(q, k, islandUs s)] }) hfindu (by exact hx0) (by exact hxn)⟩
  have hout : (sessionPut u { x with unacked := [(q, k, islandUs s)] }).out = s.out ++ [.eventPdu 0 x.num q (es.take k)] := by
    rw [hu]
    rfl
  rw [hout, hxn]
  exact List.mem_append_right _ (List.mem_singleton_self _)

end

/-! ## A session that leaves its mailbox (16 R390) -/

/-- Beside the server's own state only the host endpoint differs: an interrupt's pending bit, or its link awake. -/
def UhlistAndHost (b s : State) : Prop := OnlyUhlist b { s with hst := b.hst }

section
variable {b s : State}

theorem uhlistAndHost_self (s : State) : UhlistAndHost s s := rfl

theorem uhlistAndHost_setBox {k : Nat} {x : Mailbox} (h : UhlistAndHost b s) : UhlistAndHost b (setBox s k x) := h

theorem uhlistAndHost_fnPut {link fn : Nat} {f : Fn} (h : UhlistAndHost b s) : UhlistAndHost b (fnPut s link fn f) := h

theorem uhlistAndHost_linkPut {k : Nat} {l : Link} (h : UhlistAndHost b s) : UhlistAndHost b (linkPut s k l) := by
  dsimp only [linkPut]
  split
  · exact h
  · unfold event
    obtain ⟨c, l', y, heq⟩ := eventFull_eq { s with hst := { s.hst with links := lset s.hst.links k l } } 0x0302
      (29 + k / 2) 0 0 (BitVec.ofNat 64 (k + l.state * 2 ^ 8))
    rw [heq]
    exact h

theorem uhlistAndHost_wakeLink {k : Nat} (h : UhlistAndHost b s) : UhlistAndHost b (wakeLink s k) :=
  iteInduction (fun _ => h) (fun _ => uhlistAndHost_linkPut h)

theorem uhlistAndHost_raiseVector {link fn v : Nat} (h : UhlistAndHost b s) : UhlistAndHost b (raiseVector s link fn v) :=
  iteInduction (fun _ => uhlistAndHost_wakeLink (k := link) h) (fun _ => iteInduction (fun _ => h) (fun _ => h))

theorem uhlistAndHost_boxLeaves {x : Session} (h : UhlistAndHost b s) : UhlistAndHost b (boxLeaves s x) :=
  iteInduction (fun _ => uhlistAndHost_raiseVector (uhlistAndHost_setBox h)) (fun _ => h)

theorem uhlistAndHost_sessionDrop {t n : Nat} (h : UhlistAndHost b s) : UhlistAndHost b (sessionDrop s t n) := by
  unfold sessionDrop
  extract_lets u
  have hu : UhlistAndHost b u := by
    dsimp only [u]
    split
    · exact uhlistAndHost_boxLeaves h
    · exact h
  exact hu

end

/-! ## The registers of a mailbox (11 R256, 16 R389) -/

section
variable {s : State} {k : Nat}

theorem barGate_of_open (h : BoxOpen s k) (act : State → State) : barGate s k 0 act = act s := by
  obtain ⟨hon, hthere, hmse, -⟩ := h
  simp [barGate, hon, hthere, hmse]

theorem barGate_of_shut (hon : mainOn s = true) (hthere : fnPresent s k 0 = true) (hmse : memSpaceOn s k 0 = false)
    (act : State → State) : barGate s k 0 act = aerLog s k 0 20 := by
  simp [barGate, hon, hthere, hmse]

theorem onlyUhlist_barGate {act : State → State} (hmse : memSpaceOn s k 0 = true) (hact : OnlyUhlist s (act s)) :
    OnlyUhlist s (barGate s k 0 act) := by
  unfold barGate
  rw [hmse]
  exact iteInduction (fun _ => onlyUhlist_self s) (fun _ => hact)

end

end Sys2Proof.Machine.Laws
end

section
/-!
CLAIMS. Sessions and mailboxes (16 R377 to R390).
-/

namespace Sys2Proof.Proofs

open Sys2Proof Sys2Proof.Machine Sys2Proof.Machine.Laws

set_option Elab.async false

section
variable {s : State} {p : Pdu}

/-- An OPEN that is refused, counted or not, leaves the sessions. -/
theorem uhOpen_refused {e : Nat} {u : State} (htrans : p.transport = 0) (hsess : p.session = 0) (hlen : p.body.length ≤ 1468)
    (hserves : islandServes s = true)
    (hopen : openSession (countUhl s 0 0x01) p (0, 0) = sendReply u 0 1 0 p.seq e [] none (0, 0)) (hu : u.uhl = s.uhl) :
    ∃ t, exec (.uhOpen p) s = .next t ∧ .pdu 0 0 1 p.seq e [] ∈ t.out ∧ t.uhl.sessions = s.uhl.sessions := by
  refine ⟨takePdu s 1 p, rfl, ?_⟩
  rw [takePdu_open htrans hsess hlen hserves, hopen, sendReply_management]
  exact ⟨List.mem_append_right _ (List.mem_singleton_self _), congrArg Uhl.sessions hu⟩

theorem uhOpen_adds (htrans : p.transport = 0) (hsess : p.session = 0) (hserves : islandServes s = true)
    (hlen : p.body.length = 99) (hrole : (byteAt p.body 0).toNat ≤ 3) (hid : identityState s ≠ 3)
    (hroom : (s.uhl.sessions.filter (fun x => x.transport == 0)).length < 32)
    (hkey : ecOn (pairNat (bytesAt p.body 35 64)) = true) :
    ∃ (t : State) (x : Session) (body : List Byte), exec (.uhOpen p) s = .next t ∧
      t.uhl.sessions = s.uhl.sessions ++ [x] ∧ x.transport = 0 ∧ x.proved = false ∧ x.expect = 1 ∧ x.role = roleOf (byteAt p.body 0).toNat ∧ .pdu 0 0 1 p.seq 0 body ∈ t.out ∧
      body.take 2 = leBytes 2 x.num := by
  have hid' : identityState (countUhl s 0 0x01) ≠ 3 := (identityState_congr rfl).trans_ne hid
  obtain ⟨x, boot, rest, hopen, hx0, hproved, hexpect, hxrole⟩ := openSession_of_room htrans hlen hrole hid' hroom hkey
  refine ⟨takePdu s 1 p, x, leBytes 2 x.num ++ rest, rfl, ?_⟩
  rw [takePdu_open htrans hsess (by omega) hserves, hopen, sendReply_management]
  refine ⟨rfl, hx0, hproved, hexpect, hxrole, List.mem_append_right _ (List.mem_singleton_self _), ?_⟩
  exact List.take_left' (length_leBytes 2 x.num)

theorem uhProve_proves {x : Session} (htrans : p.transport = 0) (hsess : p.session ≠ 0) (hlen : p.body.length ≤ 1468)
    (hserves : islandServes s = true) (hfind : sessionFind s 0 p.session = some x) (hproved : x.proved = false)
    (hseq : p.seq = 0) (htag : tagOk x 2 p = true) :
    ∃ t, exec (.uhProve p) s = .next t ∧
      (if proveOk s x p.body then ∃ y, sessionFind t 0 p.session = some y ∧ y.proved = true
      else sessionFind t 0 p.session = none) := by
  obtain ⟨hx0, hxn⟩ := sessionFind_numbers hfind
  refine ⟨takePdu s 2 p, rfl, ?_⟩
  rw [takePdu_of_session 2 htrans hsess hlen hserves, inSession_prove htrans hfind hproved hseq htag, proveSession, proveOk_heard]
  split
  · refine ⟨withReply { x with since := islandUs s, peer := (0, 0), proved := true } 0 2 p.body 0 [], ?_, rfl⟩
    obtain ⟨y, hy⟩ : ∃ y : Session, y = { x with since := islandUs s, peer := (0, 0), proved := true } := ⟨_, rfl⟩
    have hy0 : y.transport = 0 := by rw [hy]; exact hx0
    have hyn : y.num = p.session := by rw [hy]; exact hxn
    rw [← hy]
    rw [sessionReply_eq, hy0, sendReply_management]
    exact sessionFind_sessionPut (s := countUhl s 0 0x01) hfind hy0 hyn
  · dsimp only
    rw [hx0, hxn]
    exact sessionFind_sessionDrop _ 0 p.session

theorem malformedPdu_counts (s : State) (k : BitVec 2) (hserves : islandServes s = true) :
    ∃ t, exec (.malformedPdu 0 k) s = .next t ∧ ctrGet t 0xC210 0x03 0 = (ctrGet s 0xC210 0x03 0 + 1) % 2 ^ 64 ∧
      t.uhl = s.uhl := by
  refine ⟨countUhl (countUhl s 0 0x01) 0 0x03, ?_, ?_, rfl⟩
  · change Host.Outcome.next _ = _
    simp [waiting, hserves, malformed, discardPdu]
  · have hother : ctrGet (countUhl s 0 0x01) 0xC210 0x03 0 = ctrGet s 0xC210 0x03 0 := by
      rw [countUhl, count, ctrGet_ctrAddAt, if_neg (by decide)]
    rw [← hother]
    exact ctrGet_count_self (countUhl s 0 0x01) 0xC210 0x03

theorem onlyUhlist_malformed (s : State) : OnlyUhlist s (malformed s 0) :=
  onlyUhlist_countUhl 0 0x03 (onlyUhlist_countUhl 0 0x01 (onlyUhlist_self s))

theorem onlyUhlist_execMalformedPdu {t : State} {k : BitVec 2} (h : exec (.malformedPdu 0 k) s = .next t) : OnlyUhlist s t := by
  have hexec : t = if islandServes s then malformed s 0 else s := by
    refine (Host.Outcome.next.inj (h.symm.trans ?_))
    change Host.Outcome.next _ = _
    by_cases hserves : islandServes s = true <;> simp [waiting, hserves]
  rw [hexec]
  exact iteInduction (fun _ => onlyUhlist_malformed s) (fun _ => onlyUhlist_self s)

theorem onlyUhlist_events {t : State} {n : BitVec 16} {c : Instr} (hc : c = .uhEvent 0 n ∨ c = .eventRetryExpiry 0 n)
    (h : exec c s = .next t) : OnlyUhlist s t := by
  obtain rfl | rfl := hc
  · obtain rfl := Host.Outcome.next.inj h
    cases hfind : sessionFind s 0 n.toNat with
    | none => exact onlyUhlist_self s
    | some x => exact onlyUhlist_sendNextEvent (sessionFind_numbers hfind).1 (onlyUhlist_self s)
  · obtain rfl := Host.Outcome.next.inj h
    cases hfind : sessionFind s 0 n.toNat with
    | none => exact onlyUhlist_self s
    | some x =>
      exact iteInduction (fun _ => onlyUhlist_resendEvents (sessionFind_numbers hfind).1 _ _ (onlyUhlist_self s))
        (fun _ => onlyUhlist_self s)

theorem onlyUhlist_mailbox {t : State} {k : BitVec 2} {c : Instr} (hc : c = .mbGo k ∨ c = .eventReadyClear k)
    (hmse : memSpaceOn s k.toNat 0 = true) (h : exec c s = .next t) : OnlyUhlist s t := by
  obtain rfl | rfl := hc
  · obtain rfl := Host.Outcome.next.inj h
    exact onlyUhlist_barGate hmse rfl
  · obtain rfl := Host.Outcome.next.inj h
    exact onlyUhlist_barGate hmse rfl

theorem expiry_keeps {t : State} {tr : Nat} {n : BitVec 16} {c : Instr}
    (hc : c = .proveTimeout tr n ∨ c = .sessionIdleExpiry tr n) (h : exec c s = .next t) : UhlistAndHost s t := by
  obtain rfl | rfl := hc
  · obtain rfl := Host.Outcome.next.inj h
    split
    · exact iteInduction (fun _ => uhlistAndHost_self s) (fun _ => uhlistAndHost_sessionDrop (uhlistAndHost_self s))
    · exact uhlistAndHost_self s
  · obtain rfl := Host.Outcome.next.inj h
    split
    · exact iteInduction (fun _ => uhlistAndHost_sessionDrop (uhlistAndHost_self s)) (fun _ => uhlistAndHost_self s)
    · exact uhlistAndHost_self s

theorem proveTimeout_drops {tr : Nat} {n : BitVec 16} {x : Session} (hfind : sessionFind s tr n.toNat = some x)
    (hproved : x.proved = false) (hdue : x.since + 10000000 ≤ islandUs s) :
    ∃ t, exec (.proveTimeout tr n) s = .next t ∧ sessionFind t tr n.toNat = none := by
  refine ⟨sessionDrop s tr n.toNat, ?_, sessionFind_sessionDrop ..⟩
  change Host.Outcome.next _ = _
  rw [hfind]
  exact congrArg Host.Outcome.next (if_neg (by simp [hproved, hdue]))

theorem sessionIdleExpiry_drops {tr : Nat} {n : BitVec 16} {x : Session} (hfind : sessionFind s tr n.toNat = some x)
    (hproved : x.proved = true) (hdue : x.since + objGet s 0x1040 0x02 0 * 1000000 ≤ islandUs s) :
    ∃ t, exec (.sessionIdleExpiry tr n) s = .next t ∧ sessionFind t tr n.toNat = none := by
  refine ⟨sessionDrop s tr n.toNat, ?_, sessionFind_sessionDrop ..⟩
  change Host.Outcome.next _ = _
  rw [hfind]
  exact congrArg Host.Outcome.next (if_pos ⟨hproved, hdue⟩)

theorem uhEvent_sends {n : BitVec 16} {x : Session} {r : EvRec} {rest : List EvRec} (hfind : sessionFind s 0 n.toNat = some x)
    (hproved : x.proved = true) (hopen : x.closing = false) (hunacked : x.unacked = []) (hevents : x.events = r :: rest) :
    ∃ t, exec (.uhEvent 0 n) s = .next t ∧ .eventPdu 0 n.toNat x.eventSeq ((r :: rest).take 45) ∈ t.out := by
  obtain ⟨hx0, hxn⟩ := sessionFind_numbers hfind
  refine ⟨sendNextEvent s x, ?_, hxn ▸ sendNextEvent_sends hx0 hproved hopen hunacked hevents⟩
  change Host.Outcome.next _ = _
  rw [hfind]

theorem eventRetryExpiry_resends {n : BitVec 16} {x : Session} {q k sent : Nat} (hfind : sessionFind s 0 n.toNat = some x)
    (hproved : x.proved = true) (hopen : x.closing = false) (hunacked : x.unacked = [(q, k, sent)])
    (hdue : sent + objGet s 0x1040 0x03 0 * 1000 ≤ islandUs s) :
    ∃ t, exec (.eventRetryExpiry 0 n) s = .next t ∧ .eventPdu 0 n.toNat q (x.events.take k) ∈ t.out ∧
      sessionFind t 0 n.toNat = some { x with unacked := [(q, k, islandUs s)] } := by
  refine ⟨resendEvents s x [(q, k, sent)] x.events, ?_, resendEvents_one hfind hunacked hdue⟩
  change Host.Outcome.next _ = _
  rw [hfind]
  refine congrArg Host.Outcome.next ((if_pos ⟨hproved, by simp [hopen]⟩).trans ?_)
  rw [hunacked]

theorem mbGo_goes {k : BitVec 2} (h : BoxOpen s k.toNat) :
    ∃ t, exec (.mbGo k) s = .next t ∧
      (if (box s k.toNat).busy = true ∨ (box s k.toNat).replyReady = true then
        box t k.toNat = { box s k.toNat with ignored := true } else box t k.toNat = { box s k.toNat with busy := true }) := by
  have hgate := barGate_of_open h (fun s => mailboxGo s k.toNat)
  obtain ⟨-, -, -, hlen⟩ := h
  have hk : k.toNat < s.uhl.boxes.length := by rw [hlen]; exact k.isLt
  refine ⟨mailboxGo s k.toNat, congrArg Host.Outcome.next hgate, ?_⟩
  rw [mailboxGo, box_setBox _ _ _ _ hk, if_pos rfl]
  by_cases hbusy : (box s k.toNat).busy = true ∨ (box s k.toNat).replyReady = true
  · rw [if_pos hbusy, if_pos (by simpa using hbusy)]
  · rw [if_neg hbusy, if_neg (by simpa using hbusy)]

theorem eventReadyClear_clears {k : BitVec 2} (h : BoxOpen s k.toNat) :
    ∃ t, exec (.eventReadyClear k) s = .next t ∧ box t k.toNat = { box s k.toNat with eventReady := false } := by
  have hgate := barGate_of_open h (fun s => setBox s k.toNat { box s k.toNat with eventReady := false })
  obtain ⟨-, -, -, hlen⟩ := h
  have hk : k.toNat < s.uhl.boxes.length := by rw [hlen]; exact k.isLt
  exact ⟨_, congrArg Host.Outcome.next hgate, (box_setBox _ _ _ _ hk).trans (if_pos rfl)⟩

theorem mailbox_shut {k : BitVec 2} {c : Instr} (hc : c = .mbGo k ∨ c = .eventReadyClear k) (hon : mainOn s = true)
    (hthere : fnPresent s k.toNat 0 = true) (hmse : memSpaceOn s k.toNat 0 = false) :
    exec c s = .next (aerLog s k.toNat 0 20) := by
  obtain rfl | rfl := hc
  · exact congrArg Host.Outcome.next (barGate_of_shut hon hthere hmse _)
  · exact congrArg Host.Outcome.next (barGate_of_shut hon hthere hmse _)

end

/-- Settles O50, a clause for each command, then what the commands leave unchanged. -/
theorem uhlistSessionsComeAndGo : Obligations.UhlistSessionsComeAndGo := by
  unfold Obligations.UhlistSessionsComeAndGo
  refine ⟨fun s p htrans hsess hlen hserves hshort => ?short, fun s p htrans hsess hserves hlen hrole => ?room,
    fun s p x => uhProve_proves,
    fun s tr n x => proveTimeout_drops, fun s tr n x => sessionIdleExpiry_drops, fun s n x r rest => uhEvent_sends,
    fun s n x q k sent => eventRetryExpiry_resends, malformedPdu_counts, fun s k => mbGo_goes, fun s k => eventReadyClear_clears,
    fun s k c => mailbox_shut, fun s t c hc h => ?expiry, fun s t c hc h => ?only⟩
  case short =>
    exact uhOpen_refused (u := countUhl s 0 0x01) htrans hsess hlen hserves
      ((openSession_of_length (0, 0) hshort).trans (by rw [htrans])) rfl
  case room =>
    have hmax : p.body.length ≤ 1468 := by omega
    have hcounted : identityState (countUhl s 0 0x01) = identityState s := identityState_congr rfl
    exact ⟨uhOpen_adds htrans hsess hserves hlen hrole,
      fun hid => uhOpen_refused htrans hsess hmax hserves (openSession_of_identity htrans hlen (hcounted.trans hid)) rfl,
      fun hid hfull =>
        uhOpen_refused htrans hsess hmax hserves (openSession_of_full htrans hlen hrole (hcounted.trans_ne hid) hfull) rfl,
      fun hid hroom hkey => uhOpen_refused htrans hsess hmax hserves
        (openSession_of_bad_key htrans hlen hrole (hcounted.trans_ne hid) hroom hkey) rfl⟩
  case expiry =>
    obtain ⟨tr, n, rfl⟩ | ⟨tr, n, rfl⟩ := hc
    · exact expiry_keeps (.inl rfl) h
    · exact expiry_keeps (.inr rfl) h
  case only =>
    obtain ⟨n, rfl⟩ | ⟨n, rfl⟩ | ⟨k, rfl⟩ | ⟨k, hc, hmse⟩ := hc
    · exact onlyUhlist_events (.inl rfl) h
    · exact onlyUhlist_events (.inr rfl) h
    · exact onlyUhlist_execMalformedPdu h
    · exact onlyUhlist_mailbox hc hmse h

end Sys2Proof.Proofs
end

section
/-!
SUPPORT. The SPDM responder: a request that its mailbox takes, the answers by their codes, and a message of a session (15 R366,
11 R266, R267).
-/

namespace Sys2Proof.Machine.Laws

open Sys2Proof Sys2Proof.Machine

set_option Elab.async false

/-! ## Connections and sessions -/

section
variable {s : State} {k : Nat}

/-- Sessions that expire leave the list of sessions, and nothing else changes. -/
theorem spdmExpire_eq (s : State) : spdmExpire s = { s with hst := { s.hst with spdm := (spdmExpire s).hst.spdm } } := by rfl

/-- A connection past its first exchange is one of the device's. -/
theorem conn_lt_of_stage (h : (spdmConn s k).stage = 3) : k < s.hst.conns.length := by
  refine Decidable.byContradiction fun hout => ?_
  rw [spdmConn, List.getD_eq_default _ _ (Nat.not_lt.1 hout)] at h
  exact absurd h (by decide)

theorem spdmConn_setConn {c : SpdmConn} (h : k < s.hst.conns.length) : spdmConn (setConn s k c) k = c := by
  simp [spdmConn, setConn, lset, h]

theorem spdmFind_numbers {sid : Nat} {x : SpdmSession} (h : spdmFind s k sid = some x) : x.link = k ∧ x.sid = sid := by
  simpa using List.find?_some h

/-- A session that is set takes the place of the one with its numbers. -/
theorem spdmFind_setSpdm {sid : Nat} {x y : SpdmSession} (h : spdmFind s k sid = some x) (hk : y.link = k) (hsid : y.sid = sid) :
    spdmFind (setSpdm s y) k sid = some y := by
  subst hk hsid
  have hpred : ((fun z : SpdmSession => z.link == y.link && z.sid == y.sid) ∘
      fun z => if z.link = y.link ∧ z.sid = y.sid then y else z) = fun z => z.link == y.link && z.sid == y.sid := by
    funext z
    rw [Function.comp_apply]
    split
    · simp_all
    · rfl
  unfold spdmFind at h
  rw [spdmFind, setSpdm, List.find?_map, hpred, h, Option.map_some, if_pos (spdmFind_numbers h)]

theorem spdmFind_dropSpdm (s : State) (k sid : Nat) :
    spdmFind (dropSpdm s (fun y => y.link == k && y.sid == sid)) k sid = none := by
  refine List.find?_eq_none.2 fun y hy hsame => ?_
  have hother : (!(y.link == k && y.sid == sid)) = true := (List.mem_filter.1 hy).2
  rw [hsame] at hother
  exact absurd hother (by decide)

end

/-! ## What answers read of the device -/

section
variable {s : State} {l : List SpdmSession}

theorem spdmChain_expired : spdmChain { s with hst := { s.hst with spdm := l } } = spdmChain s := by rfl

theorem chainServed_expired : chainServed { s with hst := { s.hst with spdm := l } } = chainServed s := by rfl

theorem measurementBlock_expired (i : Nat) :
    measurementBlock { s with hst := { s.hst with spdm := l } } i = measurementBlock s i := by rfl

theorem measurementBlocks_expired : measurementBlocks { s with hst := { s.hst with spdm := l } } = measurementBlocks s := by rfl

theorem summaryHash_expired (ty : Nat) : summaryHash { s with hst := { s.hst with spdm := l } } ty = summaryHash s ty := by rfl

theorem chainHash_expired (slot : Nat) : chainHash { s with hst := { s.hst with spdm := l } } slot = chainHash s slot := by rfl

theorem chainServed_iff : chainServed s = true ↔ identityState s = 0 := beq_iff_eq

end

/-! ## Requests outside a session -/

section
variable {s v : State} {k : Nat} {req r : List Byte}

/-- A request that needs the algorithms, once they are negotiated, by its code. -/
theorem spdmServe_of_code (hlen : 4 ≤ req.length) (hver : byteAt req 0 = 0x12) (hstage : (spdmConn s k).stage = 3) :
    ((byteAt req 1).toNat = 0x81 → spdmServe s k req = spdmDigests s k none req) ∧
    ((byteAt req 1).toNat = 0x82 → spdmServe s k req = spdmCertificate s k none req) ∧
    ((byteAt req 1).toNat = 0x83 → spdmServe s k req = spdmChallenge s k req) ∧
    ((byteAt req 1).toNat = 0xE0 → spdmServe s k req = spdmMeasurements s k none req) ∧
    ((byteAt req 1).toNat = 0xE4 → spdmServe s k req = spdmKeyExchange s k req) := by
  have hlong : ¬ req.length < 4 := Nat.not_lt.2 hlen
  refine ⟨fun h => ?_, fun h => ?_, fun h => ?_, fun h => ?_, fun h => ?_⟩
  · simp [spdmServe, h, hlong, hver, hstage]
  · simp [spdmServe, h, hlong, hver, hstage]
  · simp [spdmServe, h, hlong, hver, hstage]
  · simp [spdmServe, h, hlong, hver, hstage]
  · simp [spdmServe, h, hlong, hver, hstage]

/-- A request of a mailbox that answers is served and answered. -/
theorem spdmTake_of_serve (hup : doeUp s k = true) (hlen : req.length ≤ 65528) (h : spdmServe (spdmExpire s) k req = (v, r)) :
    spdmTake s k req = emit v (.spdm k (byteAt r 1).toNat r) := by
  have hsame : doeUp (spdmExpire s) k = doeUp s k := by rfl
  have hup' : ¬ (!doeUp (spdmExpire s) k) = true := by simp [hsame, hup]
  unfold spdmTake
  dsimp only
  rw [if_neg hup', if_neg (by omega), h]

end

/-! ## The answers (15 R366) -/

section
variable {s : State} {k : Nat} {req : List Byte}

theorem spdmSign_snd (s : State) (context : Nat) (transcript : List Byte) :
    (spdmSign s context transcript).2 = { s with boot := { s.boot with signed := s.boot.signed + 1 } } := by rfl

theorem spdmDigests_answers (s : State) (k : Nat) (req : List Byte) :
    ∃ v : State, spdmDigests s k none req = (v, if identityState s = 0 then [0x12, 0x01, 0, 1] ++ shaBytes (spdmChain s)
      else [0x12, 0x01, 0, 0]) ∧ v.out = s.out := by
  refine ⟨(spdmDigests s k none req).1, Prod.ext rfl ?_, rfl⟩
  change (if chainServed s then _ else _) = _
  exact ite_congr (propext chainServed_iff) (fun _ => rfl) (fun _ => rfl)

theorem spdmCertificate_answers {part : List Byte} {off : Nat} (hid : identityState s = 0) (hlen : req.length = 8)
    (hslot : (byteAt req 2).toNat % 16 = 0) (hoff : off = leNat (bytesAt req 4 2)) (hin : off < (spdmChain s).length)
    (hpart : part = ((spdmChain s).drop off).take (leNat (bytesAt req 6 2))) :
    ∃ v : State, spdmCertificate s k none req = (v, [0x12, 0x02, 0, 0] ++ leBytes 2 part.length ++
      leBytes 2 ((spdmChain s).length - off - part.length) ++ part) ∧ v.out = s.out := by
  have hgood : ¬ (req.length ≠ 8 ∨ (byteAt req 2).toNat % 16 ≠ 0 ∨ (!chainServed s) = true ∨
      (spdmChain s).length ≤ leNat (bytesAt req 4 2)) := by
    rw [← hoff]
    simp [hlen, hslot, chainServed_iff.2 hid, hin]
  subst hoff hpart
  refine ⟨_, (if_neg hgood).trans rfl, rfl⟩

theorem spdmChallenge_signs {m : List Byte} {slot : Nat} (hstage : (spdmConn s k).stage = 3) (hid : identityState s ≠ 3)
    (hlen : req.length = 36) (hslot : slot = (byteAt req 2).toNat % 16) (hof : slot = 0 ∨ slot = 15)
    (hm : summaryHash s (byteAt req 3).toNat = some m) :
    ∃ (v : State) (sig : List Byte), spdmChallenge s k req = (v, [0x12, 0x03, BitVec.ofNat 8 slot,
        if identityState s = 0 then 1 else 0] ++ chainHash s slot ++ spdmNonce s ++ m ++ [0, 0] ++ sig) ∧ v.out = s.out ∧
      v.boot.signed = s.boot.signed + 1 ∧ v.hst.nonce = s.hst.nonce + 1 ∧ (spdmConn v k).certs = [] := by
  have hk := conn_lt_of_stage hstage
  have hserved : bytesOf [0x12, 0x03, slot, if chainServed s then 1 else 0] =
      [0x12, 0x03, BitVec.ofNat 8 slot, if identityState s = 0 then 1 else 0] := by
    by_cases hserves : identityState s = 0
    · rw [if_pos hserves, if_pos (chainServed_iff.2 hserves)]
      rfl
    · rw [if_neg hserves, if_neg (mt chainServed_iff.1 hserves)]
      rfl
  subst hslot
  have hgood : ¬ (req.length ≠ 36 ∨ ((byteAt req 2).toNat % 16 ≠ 0 ∧ (byteAt req 2).toNat % 16 ≠ 15)) := by omega
  unfold spdmChallenge
  rw [hm]
  dsimp only
  rw [if_neg hgood, if_neg hid, hserved, spdmSign_snd]
  exact ⟨_, _, rfl, rfl, rfl, rfl, congrArg SpdmConn.certs (spdmConn_setConn (by exact hk))⟩

/-- The measurement record that an operation asks for. -/
def measurementRecord (s : State) (op : Nat) : List Byte :=
  if op = 0 then [] else if op = 0xFF then measurementBlocks s else measurementBlock s op

/-- The answer to GET_MEASUREMENTS before its signature; `slot` is 0 where none is asked for. -/
def measurementText (s : State) (op slot : Nat) : List Byte :=
  [0x12, 0x60, if op = 0 then 6 else 0, BitVec.ofNat 8 slot, if op = 0 then 0 else if op = 0xFF then 6 else 1] ++
    leBytes 3 (measurementRecord s op).length ++ measurementRecord s op ++ spdmNonce s ++ [0, 0]

theorem measurementText_expire (s : State) (op slot : Nat) : measurementText (spdmExpire s) op slot = measurementText s op slot := by
  have hblocks : measurementBlocks (spdmExpire s) = measurementBlocks s := by rw [spdmExpire_eq, measurementBlocks_expired]
  have hblock : measurementBlock (spdmExpire s) op = measurementBlock s op := by rw [spdmExpire_eq, measurementBlock_expired]
  have hnonce : spdmNonce (spdmExpire s) = spdmNonce s := by rfl
  rw [measurementText, measurementText, measurementRecord, measurementRecord, hblocks, hblock, hnonce]

theorem measurementHead (op slot : Nat) :
    bytesOf [0x12, 0x60, if op = 0 then 6 else 0, slot, if op = 0 then 0 else if op = 0xFF then 6 else 1] =
      [0x12, 0x60, if op = 0 then 6 else 0, BitVec.ofNat 8 slot, if op = 0 then 0 else if op = 0xFF then 6 else 1] := by
  by_cases h0 : op = 0
  · simp [bytesOf, h0]
  · by_cases hall : op = 0xFF <;> simp [bytesOf, h0, hall]

section
variable {op : Nat} (hop : op = (byteAt req 3).toNat) (hofOp : op ≤ 6 ∨ op = 0xFF)
include hop hofOp

theorem spdmMeasurements_answers (hsign : (byteAt req 2).getLsbD 0 = false) (hlen : req.length = 4) :
    ∃ v : State, spdmMeasurements s k none req = (v, measurementText s op 0) ∧ v.out = s.out ∧
      v.boot.signed = s.boot.signed := by
  subst hop
  have hgood : ¬ (req.length ≠ 4 ∨ (6 < (byteAt req 3).toNat ∧ (byteAt req 3).toNat ≠ 0xFF)) := by omega
  unfold spdmMeasurements
  simp only [hsign, Bool.false_eq_true, if_false, Bool.not_false, if_true, measurementHead]
  rw [if_neg hgood]
  exact ⟨_, rfl, rfl, rfl⟩

theorem spdmMeasurements_signs (hstage : (spdmConn s k).stage = 3) (hid : identityState s ≠ 3)
    (hsign : (byteAt req 2).getLsbD 0 = true) (hlen : req.length = 37)
    (hof : (byteAt req 36).toNat % 16 = 0 ∨ (byteAt req 36).toNat % 16 = 15) :
    ∃ (v : State) (sig : List Byte), spdmMeasurements s k none req =
        (v, measurementText s op ((byteAt req 36).toNat % 16) ++ sig) ∧ v.out = s.out ∧
      v.boot.signed = s.boot.signed + 1 ∧ (spdmConn v k).meas = [] := by
  have hk := conn_lt_of_stage hstage
  subst hop
  have hgood : ¬ (req.length ≠ 37 ∨ (6 < (byteAt req 3).toNat ∧ (byteAt req 3).toNat ≠ 0xFF)) := by omega
  have hslot : ¬ ((byteAt req 36).toNat % 16 ≠ 0 ∧ (byteAt req 36).toNat % 16 ≠ 15) := by omega
  unfold spdmMeasurements
  simp only [hsign, if_true, Bool.not_true, Bool.false_eq_true, if_false, measurementHead]
  rw [if_neg hgood, if_neg hslot, if_neg hid, spdmSign_snd]
  exact ⟨_, _, rfl, rfl, rfl, congrArg SpdmConn.meas (spdmConn_setConn (by exact hk))⟩

end

section
variable {m : List Byte} (hkex : (spdmConn s k).kex = true) (hmin : 106 ≤ req.length)
  (hlen : req.length = 106 + leNat (bytesAt req 104 2)) (hslot : byteAt req 3 = 0 ∨ byteAt req 3 = 255)
  (hkey : ecOn (pairNat (spdmPair (bytesAt req 40 64))) = true) (hm : summaryHash s (byteAt req 2).toNat = some m)
include hkex hmin hlen hslot

theorem keyExchange_form : ¬ (req.length < 106 ∨ req.length ≠ 106 + leNat (bytesAt req 104 2) ∨
    ((byteAt req 3).toNat ≠ 0 ∧ (byteAt req 3).toNat ≠ 255) ∨ (!(spdmConn s k).kex) = true) := by
  have hof : (byteAt req 3).toNat = 0 ∨ (byteAt req 3).toNat = 255 := hslot.imp (fun h => by rw [h]; rfl) (fun h => by rw [h]; rfl)
  rw [hkex]
  simp only [Bool.not_true, Bool.false_eq_true, or_false]
  omega

include hkey hm

theorem spdmKeyExchange_adds (hid : identityState s ≠ 3) (hroom : (s.hst.spdm.filter (fun x => x.link == k)).length < 4) :
    ∃ (v : State) (x : SpdmSession) (body : List Byte), spdmKeyExchange s k req = (v, body) ∧ v.out = s.out ∧
      body.take 2 = [0x12, 0x64] ∧ (byteAt body 1).toNat = 0x64 ∧ v.hst.spdm = s.hst.spdm ++ [x] ∧ x.link = k ∧
      x.sid % 65536 = leNat (bytesAt req 4 2) ∧ x.open_ = false := by
  obtain ⟨z, hz⟩ := ecdh_eq_some (ecScalar (Config.drbg (2 ^ 68 + s.hst.nonce))) hkey
  have hform := keyExchange_form hkex hmin hlen hslot
  have hsid : leNat (bytesAt req 4 2) < 65536 := by
    have htwo : (bytesAt req 4 2).length = 2 := by
      rw [bytesAt_of_le (by omega)]
      exact List.length_take_of_le (by rw [List.length_drop]; omega)
    have hbytes := leNat_lt_pow (bytesAt req 4 2)
    rwa [htwo] at hbytes
  unfold spdmKeyExchange
  extract_lets c slot d n
  rw [hm, hz]
  dsimp -zeta only
  rw [if_neg hform, if_neg (Nat.not_le.2 hroom), if_neg hid]
  extract_lets text th r hs th' rsp verify x
  exact ⟨_, x, _, rfl, rfl, rfl, rfl, rfl, rfl, by dsimp only [x]; omega, rfl⟩

theorem spdmKeyExchange_full (hfull : 4 ≤ (s.hst.spdm.filter (fun x => x.link == k)).length) :
    spdmKeyExchange s k req = (s, [0x12, 0x7F, 0x0A, 0]) := by
  obtain ⟨z, hz⟩ := ecdh_eq_some (ecScalar (Config.drbg (2 ^ 68 + s.hst.nonce))) hkey
  have hform := keyExchange_form hkex hmin hlen hslot
  unfold spdmKeyExchange
  extract_lets c slot d n
  rw [hm, hz]
  dsimp -zeta only
  rw [if_neg hform, if_pos hfull]
  rfl

end

end

/-! ## Messages of a session (11 R267) -/

section
variable {s v : State} {z : SpdmSession} {km ans : List Byte}

theorem length_vendorHeader (code n : Nat) : (vendorHeader code n).length = 11 := by
  simp [vendorHeader, bytesOf]

/-- The session as its next message finds it. -/
def hearing (s : State) (z : SpdmSession) : SpdmSession := { z with reqSeq := z.reqSeq + 1, last := islandUs s }

/-- An IDE_KM message of an open session, in its vendor-defined header. -/
theorem sessionServe_vendor (hopen : z.open_ = true) (h : ideKmServe s z.link km = (v, some ans)) :
    sessionServe s z (vendorHeader 0xFE km.length ++ km) = (v, vendorHeader 0x7E ans.length ++ ans) := by
  have hhead := length_vendorHeader 0xFE km.length
  have hlong : ¬ (vendorHeader 0xFE km.length ++ km).length < 4 := by rw [List.length_append, hhead]; omega
  have hver : byteAt (vendorHeader 0xFE km.length ++ km) 0 = 0x12 := rfl
  have hcode : (byteAt (vendorHeader 0xFE km.length ++ km) 1).toNat = 0xFE := rfl
  have hrest : (vendorHeader 0xFE km.length ++ km).length - 11 = km.length := by rw [List.length_append, hhead]; omega
  have hvendor : spdmVendor s z (vendorHeader 0xFE km.length ++ km) = (v, vendorHeader 0x7E ans.length ++ ans) := by
    unfold spdmVendor
    rw [hrest, List.take_left' hhead, List.drop_left' hhead, h]
    simp [hopen]
  unfold sessionServe
  simp only [hlong, hver, hcode, hopen, if_false, ne_eq, not_true_eq_false, Bool.not_true, Bool.false_eq_true, false_and]
  exact hvendor

/-- An IDE_KM message that is answered is answered in its session. -/
theorem sessionTake_vendor (hopen : z.open_ = true)
    (h : ideKmServe (setSpdm s (hearing s z)) z.link km = (v, some ans))
    (hfind : spdmFind v z.link z.sid = some (hearing s z)) :
    ∃ body, sessionTake s z (vendorHeader 0xFE km.length ++ km) =
      emit (setSpdm v { hearing s z with rspSeq := z.rspSeq + 1 }) (.secured z.link z.sid body) := by
  have hserve : sessionServe (setSpdm s (hearing s z)) (hearing s z) (vendorHeader 0xFE km.length ++ km) =
      (v, vendorHeader 0x7E ans.length ++ ans) := sessionServe_vendor hopen h
  refine ⟨spdmSeal z.rspKey z.rspSeq z.sid (vendorHeader 0x7E ans.length ++ ans), ?_⟩
  have hreply : spdmReply v z.link z.sid (vendorHeader 0x7E ans.length ++ ans) =
      emit (setSpdm v { hearing s z with rspSeq := z.rspSeq + 1 }) (.secured z.link z.sid
        (spdmSeal z.rspKey z.rspSeq z.sid (vendorHeader 0x7E ans.length ++ ans))) := by
    rw [spdmReply, hfind]
    rfl
  have hcode : (byteAt (vendorHeader 0x7E ans.length ++ ans) 1).toNat = 0x7E := rfl
  unfold sessionTake
  rw [← hearing]
  extract_lets x r t
  have hr : r = (v, vendorHeader 0x7E ans.length ++ ans) := hserve
  simp only [t]
  rw [hr]
  dsimp only
  rw [hcode]
  exact hreply

/-- A KEY_PROG of a stream that the link has stores its key. -/
theorem ideKmServe_keyProg {k stream sub : Nat} (hobject : byteAt km 0 = 0) (hcode : byteAt km 1 = 2)
    (hstream : stream = (byteAt km 4).toNat) (hsub : sub = (byteAt km 6).toNat) (hlen : km.length = 48)
    (hport : byteAt km 7 = 0) (hhas : stream < objGet s (0xA100 + k) 0x0A 0) (hnames : ideSub sub = true) :
    ∃ ack, ideKmServe s k km = ({ s with hst := { s.hst with
      ide := sset 0 s.hst.ide (ideKey k stream sub) (BitVec.ofNat 512 (leNat (bytesAt km 8 40))) } }, some ack) := by
  subst hstream hsub
  have hprog : keyProg s k km = ({ s with hst := { s.hst with
      ide := sset 0 s.hst.ide (ideKey k (byteAt km 4).toNat (byteAt km 6).toNat)
        (BitVec.ofNat 512 (leNat (bytesAt km 8 40))) } }, 0) := by
    have hport' : (byteAt km 7).toNat = 0 := by rw [hport]; rfl
    unfold keyProg
    dsimp only
    rw [hnames, if_neg (not_not.2 hlen), if_neg (not_not.2 hport'), if_neg (by simpa using hhas)]
  unfold ideKmServe
  dsimp only
  rw [hobject, hcode, if_neg (not_not.2 rfl)]
  change ∃ ack, ((keyProg s k km).1, _) = _
  rw [hprog]
  exact ⟨_, rfl⟩

/-- K_SET_GO of a programmed key sub-stream puts it to use. -/
theorem ideKmServe_keySetGo {k stream sub : Nat} (hobject : byteAt km 0 = 0) (hcode : byteAt km 1 = 4)
    (hstream : stream = (byteAt km 4).toNat) (hsub : sub = (byteAt km 6).toNat) (hlen : km.length = 8) :
    ∃ ack, ideKmServe s k km = (keySetGo s k stream sub, some ack) := by
  subst hstream hsub
  unfold ideKmServe
  dsimp only
  rw [hobject, hcode, if_neg (not_not.2 rfl)]
  change ∃ ack, (if km.length < 8 then (s, none) else _) = _
  rw [if_neg (by omega)]
  exact ⟨_, rfl⟩

/-- K_SET_GO of a programmed key changes the keys in use alone, and the key is one of them. -/
theorem keySetGo_uses {k stream sub : Nat} (h : (sfind s.hst.ide (ideKey k stream sub)).isSome = true) :
    ∃ used, keySetGo s k stream sub = { s with hst := { s.hst with ideOn := used } } ∧ ideKey k stream sub ∈ used := by
  unfold keySetGo
  dsimp only
  rw [if_neg (by simpa [Option.isSome_iff_ne_none] using h)]
  exact ⟨_, rfl, List.mem_append_right _ (List.mem_singleton_self _)⟩

end

/-! ## The commands -/

section
variable {s v : State} {k : BitVec 2} {b r : List Byte}

/-- A request that is ready is answered with what the server makes of it once the dead sessions are gone. -/
theorem spdmTake_of_ready {code : Nat} (h : SpdmReady s k.toNat code b) (hserve : spdmServe (spdmExpire s) k.toNat b = (v, r)) :
    spdmTake s k.toNat b = emit v (.spdm k.toNat (byteAt r 1).toNat r) := by
  obtain ⟨hup, -, -, hmax, -, -⟩ := h
  exact spdmTake_of_serve hup hmax hserve

/-- What a message of a session of a mailbox that answers comes to. -/
theorem exec_ideKm {sid : BitVec 32} {z : SpdmSession} (hup : doeUp s k.toNat = true) (hlen : b.length + 14 ≤ 65536)
    (hfind : spdmFind (spdmExpire s) k.toNat sid.toNat = some z) :
    (∀ msg, spdmOpen z.reqKey z.reqSeq z.sid b = some msg → exec (.ideKm k sid b) s = .next (sessionTake (spdmExpire s) z msg)) ∧
    (spdmOpen z.reqKey z.reqSeq z.sid b = none → exec (.ideKm k sid b) s =
      .next (emit (dropSpdm (spdmExpire s) (fun y => y.link == k.toNat && y.sid == z.sid))
        (.spdm k.toNat 0x7F [0x12, 0x7F, 0x06, 0]))) := by
  have hup' : ¬ (!doeUp (spdmExpire s) k.toNat) = true := by
    have hsame : doeUp (spdmExpire s) k.toNat = doeUp s k.toNat := by rfl
    simp [hsame, hup]
  have hexec : exec (.ideKm k sid b) s = execIdeKm k sid b s := by rfl
  rw [hexec, execIdeKm, if_neg hup', if_neg (by omega), hfind]
  dsimp only
  refine ⟨fun msg hmsg => ?_, fun hmsg => ?_⟩
  · rw [hmsg]
  · rw [hmsg]
    rfl

end

end Sys2Proof.Machine.Laws
end

section
/-!
CLAIMS. What the mailboxes answer, and the keys of IDE_KM (11 R266, R267, 15 R366).
-/

namespace Sys2Proof.Proofs

open Sys2Proof Sys2Proof.Machine Sys2Proof.Machine.Laws

set_option Elab.async false

section
variable {s : State} {k : BitVec 2} {b m : List Byte}

theorem doeDiscovery_answers {n i : BitVec 32} (hup : doeUp s k.toNat = true) (hn : n.toNat % 2 ^ 18 = 3) :
    ∃ t, exec (.doeDiscovery k [1, n, i]) s = .next t ∧
      t.out = s.out ++ [.doe k.toNat [1, 3, BitVec.ofNat 32 (if i.toNat % 256 < 3 then
        1 + 2 ^ 16 * (i.toNat % 256) + 2 ^ 24 * ((i.toNat % 256 + 1) % 3) else 0xFFFF)]] := by
  have hexec : exec (.doeDiscovery k [1, n, i]) s = execDoeDiscovery k [1, n, i] s := by rfl
  rw [hexec, execDoeDiscovery]
  rw [if_neg (by simp [hup]), if_pos ⟨rfl, hn⟩]
  exact ⟨_, rfl, rfl⟩

theorem doeDiscovery_errors {ws : List (BitVec 32)} (hlinks : s.hst.links.length = 4) (hup : doeUp s k.toNat = true)
    (hlen : ws.length ≠ 3) :
    ∃ t, exec (.doeDiscovery k ws) s = .next t ∧ (linkGet t k.toNat).doeErr = true ∧ t.out = s.out := by
  have herror : execDoeDiscovery k ws s = .next (doeError s k.toNat) := by
    unfold execDoeDiscovery
    dsimp only
    rw [if_neg (by simp [hup])]
    split
    · exact absurd rfl hlen
    · rfl
  refine ⟨doeError s k.toNat, herror, ?_, ?_⟩
  · rw [doeError, linkGet_linkPut _ (link_lt hlinks k)]
  · rw [doeError, linkPut_out]

theorem getDigests_answers (h : SpdmReady s k.toNat 0x81 b) :
    ∃ t, exec (.getDigests k b) s = .next t ∧ t.out = s.out ++ [.spdm k.toNat 0x01
      (if identityState s = 0 then [0x12, 0x01, 0, 1] ++ shaBytes (spdmChain s) else [0x12, 0x01, 0, 0])] := by
  obtain ⟨hup, hstage, hmin, hmax, hver, hcode⟩ := id h
  obtain ⟨v, hv, hout⟩ := spdmDigests_answers (spdmExpire s) k.toNat b
  have hserve := ((spdmServe_of_code hmin hver (by exact hstage)).1 hcode).trans hv
  have hchain : spdmChain (spdmExpire s) = spdmChain s := by rw [spdmExpire_eq, spdmChain_expired]
  have hidentity : identityState (spdmExpire s) = identityState s := identityState_congr rfl
  rw [hchain, hidentity] at hserve
  refine ⟨_, congrArg Host.Outcome.next (spdmTake_of_ready h hserve), ?_⟩
  change v.out ++ _ = _
  rw [hout]
  by_cases hid : identityState s = 0
  · rw [if_pos hid]
    rfl
  · rw [if_neg hid]
    rfl

theorem getCertificate_answers {part : List Byte} {off : Nat} (h : SpdmReady s k.toNat 0x82 b) (hid : identityState s = 0)
    (hlen : b.length = 8) (hslot : (byteAt b 2).toNat % 16 = 0) (hoff : off = leNat (bytesAt b 4 2))
    (hin : off < (spdmChain s).length) (hpart : part = ((spdmChain s).drop off).take (leNat (bytesAt b 6 2))) :
    ∃ t, exec (.getCertificate k b) s = .next t ∧ t.out = s.out ++ [.spdm k.toNat 0x02 ([0x12, 0x02, 0, 0] ++
      leBytes 2 part.length ++ leBytes 2 ((spdmChain s).length - off - part.length) ++ part)] := by
  obtain ⟨hup, hstage, hmin, hmax, hver, hcode⟩ := id h
  have hchain : spdmChain (spdmExpire s) = spdmChain s := by rw [spdmExpire_eq, spdmChain_expired]
  have hidentity : identityState (spdmExpire s) = identityState s := identityState_congr rfl
  rw [← hchain] at hin hpart ⊢
  obtain ⟨v, hv, hout⟩ := spdmCertificate_answers (k := k.toNat) (hidentity.trans hid) hlen hslot hoff hin hpart
  have hserve := ((spdmServe_of_code hmin hver (by exact hstage)).2.1 hcode).trans hv
  refine ⟨_, congrArg Host.Outcome.next (spdmTake_of_ready h hserve), ?_⟩
  change v.out ++ _ = _
  rw [hout]
  rfl

theorem challenge_answers {slot : Nat} (h : SpdmReady s k.toNat 0x83 b) (hid : identityState s ≠ 3) (hlen : b.length = 36)
    (hslot : slot = (byteAt b 2).toNat % 16) (hof : slot = 0 ∨ slot = 15) (hm : summaryHash s (byteAt b 3).toNat = some m) :
    ∃ (t : State) (sig : List Byte), exec (.challenge k b) s = .next t ∧ t.out = s.out ++ [.spdm k.toNat 0x03
        ([0x12, 0x03, BitVec.ofNat 8 slot, if identityState s = 0 then 1 else 0] ++ chainHash s slot ++ spdmNonce s ++ m ++
          [0, 0] ++ sig)] ∧
      t.boot.signed = s.boot.signed + 1 ∧ t.hst.nonce = s.hst.nonce + 1 ∧ (spdmConn t k.toNat).certs = [] := by
  obtain ⟨hup, hstage, hmin, hmax, hver, hcode⟩ := id h
  have hidentity : identityState (spdmExpire s) = identityState s := identityState_congr rfl
  have hsummary : summaryHash (spdmExpire s) (byteAt b 3).toNat = some m := by
    rw [spdmExpire_eq, summaryHash_expired, hm]
  have hhash : chainHash (spdmExpire s) slot = chainHash s slot := by rw [spdmExpire_eq, chainHash_expired]
  have hnonce : spdmNonce (spdmExpire s) = spdmNonce s := by rfl
  obtain ⟨v, sig, hv, hout, hsigned, hdrawn, hcerts⟩ :=
    spdmChallenge_signs (by exact hstage) (hidentity.trans_ne hid) hlen hslot hof hsummary
  have hserve := ((spdmServe_of_code hmin hver (by exact hstage)).2.2.1 hcode).trans hv
  rw [hidentity, hhash, hnonce] at hserve
  refine ⟨_, sig, congrArg Host.Outcome.next (spdmTake_of_ready h hserve), ?_, hsigned, hdrawn, hcerts⟩
  change v.out ++ _ = _
  rw [hout]
  rfl

section
variable {op : Nat} (h : SpdmReady s k.toNat 0xE0 b) (hop : op = (byteAt b 3).toNat) (hofOp : op ≤ 6 ∨ op = 0xFF)
include h hop hofOp

theorem getMeasurements_answers (hsign : (byteAt b 2).getLsbD 0 = false) (hlen : b.length = 4) :
    ∃ t, exec (.getMeasurements k b) s = .next t ∧ t.out = s.out ++ [.spdm k.toNat 0x60 (measurementText s op 0)] ∧
      t.boot.signed = s.boot.signed := by
  obtain ⟨hup, hstage, hmin, hmax, hver, hcode⟩ := id h
  obtain ⟨v, hv, hout, hsigned⟩ := spdmMeasurements_answers (s := spdmExpire s) (k := k.toNat) hop hofOp hsign hlen
  have hserve := ((spdmServe_of_code hmin hver (by exact hstage)).2.2.2.1 hcode).trans hv
  rw [measurementText_expire] at hserve
  refine ⟨_, congrArg Host.Outcome.next (spdmTake_of_ready h hserve), ?_, hsigned⟩
  change v.out ++ _ = _
  rw [hout]
  rfl

theorem getMeasurements_signs (hsign : (byteAt b 2).getLsbD 0 = true) (hlen : b.length = 37) (hid : identityState s ≠ 3)
    (hof : (byteAt b 36).toNat % 16 = 0 ∨ (byteAt b 36).toNat % 16 = 15) :
    ∃ (t : State) (sig : List Byte), exec (.getMeasurements k b) s = .next t ∧
      t.out = s.out ++ [.spdm k.toNat 0x60 (measurementText s op ((byteAt b 36).toNat % 16) ++ sig)] ∧
      t.boot.signed = s.boot.signed + 1 ∧ (spdmConn t k.toNat).meas = [] := by
  obtain ⟨hup, hstage, hmin, hmax, hver, hcode⟩ := id h
  have hidentity : identityState (spdmExpire s) = identityState s := identityState_congr rfl
  obtain ⟨v, sig, hv, hout, hsigned, hmeas⟩ :=
    spdmMeasurements_signs (s := spdmExpire s) (k := k.toNat) hop hofOp (by exact hstage) (hidentity.trans_ne hid) hsign hlen hof
  have hserve := ((spdmServe_of_code hmin hver (by exact hstage)).2.2.2.1 hcode).trans hv
  rw [measurementText_expire] at hserve
  refine ⟨_, sig, congrArg Host.Outcome.next (spdmTake_of_ready h hserve), ?_, hsigned, hmeas⟩
  change v.out ++ _ = _
  rw [hout]
  rfl

end

section
variable (h : SpdmReady s k.toNat 0xE4 b) (hkex : (spdmConn s k.toNat).kex = true) (hmin : 106 ≤ b.length)
  (hlen : b.length = 106 + leNat (bytesAt b 104 2)) (hslot : byteAt b 3 = 0 ∨ byteAt b 3 = 255)
  (hkey : ecOn (pairNat (spdmPair (bytesAt b 40 64))) = true) (hm : summaryHash s (byteAt b 2).toNat = some m)
include h hkex hmin hlen hslot hkey hm

theorem keyExchange_adds (hid : identityState s ≠ 3)
    (hroom : ((spdmExpire s).hst.spdm.filter (fun x => x.link == k.toNat)).length < 4) :
    ∃ (t : State) (x : SpdmSession) (body : List Byte), exec (.keyExchange k b) s = .next t ∧
      t.out = s.out ++ [.spdm k.toNat 0x64 body] ∧ body.take 2 = [0x12, 0x64] ∧
      t.hst.spdm = (spdmExpire s).hst.spdm ++ [x] ∧ x.link = k.toNat ∧
      x.sid % 65536 = leNat (bytesAt b 4 2) ∧ x.open_ = false := by
  obtain ⟨hup, hstage, hfour, hmax, hver, hcode⟩ := id h
  have hidentity : identityState (spdmExpire s) = identityState s := identityState_congr rfl
  have hsummary : summaryHash (spdmExpire s) (byteAt b 2).toNat = some m := by
    rw [spdmExpire_eq, summaryHash_expired, hm]
  obtain ⟨v, x, body, hv, hout, hhead, hbody, hadds, hlink, hsid, hopen⟩ :=
    spdmKeyExchange_adds (s := spdmExpire s) (by exact hkex) hmin hlen hslot hkey hsummary (hidentity.trans_ne hid) hroom
  have hserve := ((spdmServe_of_code hfour hver (by exact hstage)).2.2.2.2 hcode).trans hv
  have htake := spdmTake_of_ready h hserve
  rw [hbody] at htake
  refine ⟨_, x, body, congrArg Host.Outcome.next htake, ?_, hhead, hadds, hlink, hsid, hopen⟩
  change v.out ++ _ = _
  rw [hout]
  rfl

theorem keyExchange_refuses (hfull : 4 ≤ ((spdmExpire s).hst.spdm.filter (fun x => x.link == k.toNat)).length) :
    ∃ t, exec (.keyExchange k b) s = .next t ∧ t.out = s.out ++ [.spdm k.toNat 0x7F [0x12, 0x7F, 0x0A, 0]] ∧
      t.hst.spdm = (spdmExpire s).hst.spdm := by
  obtain ⟨hup, hstage, hfour, hmax, hver, hcode⟩ := id h
  have hsummary : summaryHash (spdmExpire s) (byteAt b 2).toNat = some m := by
    rw [spdmExpire_eq, summaryHash_expired, hm]
  have hfulls := spdmKeyExchange_full (s := spdmExpire s) (by exact hkex) hmin hlen hslot hkey hsummary hfull
  have hserve := ((spdmServe_of_code hfour hver (by exact hstage)).2.2.2.2 hcode).trans hfulls
  exact ⟨_, congrArg Host.Outcome.next (spdmTake_of_ready h hserve), rfl, rfl⟩

end

theorem getDigests_of_version (hup : doeUp s k.toNat = true) (hmin : 4 ≤ b.length) (hmax : b.length ≤ 65528)
    (hver : (byteAt b 0).toNat ≠ 0x12) (hcode : (byteAt b 1).toNat = 0x81) :
    ∃ t, exec (.getDigests k b) s = .next t ∧ t.out = s.out ++ [.spdm k.toNat 0x7F [0x12, 0x7F, 0x41, 0]] := by
  have hother : byteAt b 0 ≠ 0x12 := fun h => hver (by rw [h]; rfl)
  have hserve : spdmServe (spdmExpire s) k.toNat b = (spdmExpire s, [0x12, 0x7F, 0x41, 0]) := by
    unfold spdmServe
    dsimp only
    rw [hcode, if_neg (by omega), if_neg (by decide), if_pos hother]
    rfl
  exact ⟨_, congrArg Host.Outcome.next (spdmTake_of_serve hup hmax hserve), rfl⟩

section
variable {sid : BitVec 32} {km : List Byte} {z : SpdmSession} {stream sub : Nat} (hup : doeUp s k.toNat = true)
  (hmax : b.length + 14 ≤ 65536) (hfind : spdmFind (spdmExpire s) k.toNat sid.toNat = some z)
include hup hmax hfind

theorem ideKm_ends (hbad : spdmOpen z.reqKey z.reqSeq z.sid b = none) :
    ∃ t, exec (.ideKm k sid b) s = .next t ∧ spdmFind t k.toNat sid.toNat = none ∧
      t.out = s.out ++ [.spdm k.toNat 0x7F [0x12, 0x7F, 0x06, 0]] := by
  obtain ⟨-, hsid⟩ := spdmFind_numbers hfind
  refine ⟨_, (exec_ideKm hup hmax hfind).2 hbad, ?_, rfl⟩
  rw [← hsid]
  exact spdmFind_dropSpdm (spdmExpire s) k.toNat z.sid

variable (hopen : z.open_ = true) (hmsg : spdmOpen z.reqKey z.reqSeq z.sid b = some (vendorHeader 0xFE km.length ++ km))
include hopen hmsg

/-- An IDE_KM message whose answer leaves the sessions is answered in its session. -/
theorem ideKm_answers {v : State} {ans : List Byte}
    (hserve : ideKmServe (setSpdm (spdmExpire s) (hearing (spdmExpire s) z)) k.toNat km = (v, some ans))
    (hspdm : v.hst.spdm = (setSpdm (spdmExpire s) (hearing (spdmExpire s) z)).hst.spdm) (hout : v.out = s.out) :
    ∃ t body, exec (.ideKm k sid b) s = .next t ∧ t.out = s.out ++ [.secured k.toNat sid.toNat body] ∧
      t.hst.ide = v.hst.ide ∧ t.hst.ideOn = v.hst.ideOn := by
  obtain ⟨hlink, hsid⟩ := spdmFind_numbers hfind
  have hheard : spdmFind v k.toNat sid.toNat = some (hearing (spdmExpire s) z) := by
    rw [spdmFind, hspdm, ← spdmFind]
    exact spdmFind_setSpdm hfind hlink hsid
  rw [← hlink] at hserve
  rw [← hlink, ← hsid] at hheard
  obtain ⟨body, hbody⟩ := sessionTake_vendor hopen hserve hheard
  refine ⟨_, body, (exec_ideKm hup hmax hfind).1 _ hmsg, ?_⟩
  rw [hbody, ← hlink, ← hsid, ← hout]
  exact ⟨rfl, rfl, rfl⟩

variable (hstream : stream = (byteAt km 4).toNat) (hsub : sub = (byteAt km 6).toNat) (hobject : byteAt km 0 = 0)
include hstream hsub hobject

theorem ideKm_keyProg (hcode : byteAt km 1 = 2) (hlen : km.length = 48) (hport : byteAt km 7 = 0)
    (hhas : stream < objGet s (0xA100 + k.toNat) 0x0A 0) (hnames : ideSub sub = true) :
    ∃ t body, exec (.ideKm k sid b) s = .next t ∧ t.out = s.out ++ [.secured k.toNat sid.toNat body] ∧
      sget 0 t.hst.ide ((k.toNat * 256 + stream) * 256 + sub) = BitVec.ofNat 512 (leNat (bytesAt km 8 40)) := by
  obtain ⟨ack, hserve⟩ := ideKmServe_keyProg (s := setSpdm (spdmExpire s) (hearing (spdmExpire s) z)) hobject hcode hstream
    hsub hlen hport (by exact hhas) hnames
  obtain ⟨t, body, hexec, hout, hide, -⟩ := ideKm_answers hup hmax hfind hopen hmsg hserve rfl rfl
  refine ⟨t, body, hexec, hout, ?_⟩
  rw [hide]
  exact sget_sset_self _ _ _ _

theorem ideKm_keySetGo (hcode : byteAt km 1 = 4) (hlen : km.length = 8)
    (hset : (sfind s.hst.ide (ideKey k.toNat stream sub)).isSome = true) :
    ∃ t body, exec (.ideKm k sid b) s = .next t ∧ t.out = s.out ++ [.secured k.toNat sid.toNat body] ∧
      ideKey k.toNat stream sub ∈ t.hst.ideOn := by
  obtain ⟨ack, hserve⟩ := ideKmServe_keySetGo (s := setSpdm (spdmExpire s) (hearing (spdmExpire s) z)) (k := k.toNat) hobject
    hcode hstream hsub hlen
  obtain ⟨used, hgo, hused⟩ := keySetGo_uses (s := setSpdm (spdmExpire s) (hearing (spdmExpire s) z)) (by exact hset)
  rw [hgo] at hserve
  obtain ⟨t, body, hexec, hout, -, hon⟩ := ideKm_answers hup hmax hfind hopen hmsg hserve rfl rfl
  refine ⟨t, body, hexec, hout, ?_⟩
  rw [hon]
  exact hused

end

end

/-- Settles O47, a clause for each exchange: DOE Discovery, the SPDM requests by their codes, then the messages of a session. -/
theorem attestationCommandsTakeEffect : Obligations.AttestationCommandsTakeEffect := by
  unfold Obligations.AttestationCommandsTakeEffect
  refine ⟨fun s k n i => doeDiscovery_answers, fun s k ws => doeDiscovery_errors, fun s k b => getDigests_answers,
    fun s k b part off => getCertificate_answers, fun s k b m slot => challenge_answers,
    fun s k b blocks op h hop hof hblocks => ?measured,
    fun s k b m h hkex hmin hlen hslot hkey hm => ?exchanged,
    fun s k b => getDigests_of_version, fun s k sid b km z stream sub hup hmax hfind hopen hmsg hstream hsub hobject => ?keyed,
    fun s k sid b z => ideKm_ends⟩
  case measured =>
    subst hblocks
    exact ⟨getMeasurements_answers h hop hof, getMeasurements_signs h hop hof⟩
  case exchanged =>
    exact ⟨keyExchange_adds h hkex hmin hlen hslot hkey hm, keyExchange_refuses h hkex hmin hlen hslot hkey hm⟩
  case keyed =>
    exact ⟨ideKm_keyProg hup hmax hfind hopen hmsg hstream hsub hobject,
      ideKm_keySetGo hup hmax hfind hopen hmsg hstream hsub hobject⟩

end Sys2Proof.Proofs
end
